-- ==== Sys2Proof/Word.lean ====
section
/-! DEFINITION. The word types of the KG96: the 32-bit register word and the 36-bit tagged word (R29, R31). -/
namespace Sys2Proof

/-- A 32-bit register or data word. -/
abbrev Word := BitVec 32

/-- A byte. -/
abbrev Byte := BitVec 8

/-- The tag codes of Table 2.2 (R31), in code order. -/
inductive Tag where
  | data | head | last | stat | null | fault | susp | sync
  deriving DecidableEq, Repr

/-- A 36-bit tagged word (R29): 32 data bits, a tag and the parity bit. -/
structure TWord where
  data : Word
  tag  : Tag
  par  : Bool
  deriving DecidableEq, Repr

end Sys2Proof
end

