-- ==== Sys2Proof/Syntax.lean ====
section
/-! DEFINITION. The commands of the KG96: one constructor of Instr for each row of spec/opcode_table.json,
with the operands the command needs, and the operand types. -/
namespace Sys2Proof

/-- Who makes a register or memory access (Table 3.5b, OFF_ACCESS_LAST.REQUESTER). -/
inductive Requester where
  | host | steward | fabric | ring
  deriving DecidableEq, Repr

/-- The four sides of a region or of a cell, in the order N, E, S, W (Table 4.2, R122). -/
inductive Dir where
  | n | e | s | w
  deriving DecidableEq, Repr

/-- The two configuration planes of a region (R249). -/
inductive PlaneSel where
  | active | staging
  deriving DecidableEq, Repr

/-- The three alias ranges of the banks (R181). -/
inductive AliasKind where
  | bitSet | bitClear | tagView
  deriving DecidableEq, Repr

/-- The two halves of the steward mailbox (R67). -/
inductive Half where
  | hostHalf | fabricHalf
  deriving DecidableEq, Repr

/-- The verdict of a self-test slice (R372). -/
inductive Verdict where
  | pass | fail | incomplete
  deriving DecidableEq, Repr

/-- What a self-test slice met until it ended (R371, R372): the responses of a bank, logic or crossbar slice, in pattern
order; for a Configuration Store or Code/Data Flash slice the lines it read and how many of them were uncorrectable; that
the end marker was folded; and a definite error. -/
structure SliceRun where
  responses : List Word
  lines : Nat
  uncorrectable : Nat
  marker : Bool
  definite : Bool
  deriving DecidableEq, Repr

/-- The training state of the PCI Express link, and the MSI-X control that the host's configuration software leaves
(bit 1 enable, bit 0 function mask; assumption log 14). -/
structure LinkState where
  ltssm : BitVec 6
  msix : BitVec 2
  deriving DecidableEq, Repr

/-- The pull or drive of a user pin before release (R282, STRAP_SAFE). -/
inductive SafePull where
  | down | up | none
  deriving DecidableEq, Repr

abbrev CellId := Fin 16384
abbrev TileId := Fin 1024
abbrev RegionId := Fin 64
abbrev BankId := Fin 1024
abbrev MacId := Fin 2048
abbrev TaskId := Fin 4096
abbrev PortId := Fin 512
abbrev DmaId := Fin 32
abbrev IobId := Fin 12
abbrev Uplink := Fin 8

/-- A word channel of the device: the handshake crossings, the links of a tile port, the mesh links
(R11, R73, R149, R150), and the two places of a region where the switch hands a message over
without a crossing (its parameter unit, R95, and its Squirrel buffer, R272). -/
inductive ChanId where
  /-- Region switch to crossbar, port p (also through the spare that stands in for it). -/
  | portUp (p : PortId)
  /-- Crossbar to region switch, port p. -/
  | portDown (p : PortId)
  /-- Service attachment k to the crossbar. -/
  | svcUp (k : Fin 7)
  /-- Crossbar to service attachment k. -/
  | svcDown (k : Fin 7)
  /-- Outbound side of tile port j of tile t, index 2t + j, toward the region switch. -/
  | tpOut (j : Fin 2048)
  /-- Inbound side of that tile port, from the region switch. -/
  | tpIn (j : Fin 2048)
  /-- The mesh link into a cell from the neighbour in a direction (R92). -/
  | mesh (c : CellId) (d : Dir)
  /-- The parameter unit of a region. -/
  | paramUnit (r : RegionId)
  /-- The Squirrel buffer's input of a region. -/
  | squirrel (r : RegionId)
  /-- The crossing that joins region r's Fox tap to the Fox port (R259). -/
  | foxTapUp (r : RegionId)
  | foxTapDown (r : RegionId)
  /-- The ring segment at ring-in, and the one at ring-out (R386, R389). -/
  | ringIn
  | ringOut
  deriving DecidableEq, Repr

/-- An input of the crossbar core, and how often in a row the word that goes into the core fails its check there
(R164). -/
structure CoreInput where
  inp : ChanId
  fails : Nat
  deriving DecidableEq, Repr

/-- Commands to the block, one constructor for each row of the opcode table, in the table's order. -/
inductive Instr where
  -- modes, start-up and release
  | por
  | suppliesInvalid
  | rstN
  | strapSampling (pins : BitVec 15)
  | powerUpLoadDone
  | selftestDone
  | selftestWindowTimeout
  | startupLockDone (vmodeLinear16 : Bool) (exponent : BitVec 5) (retried : Bool)
  | doneSeenHigh
  | releaseStep
  | doneFall
  | continueCmd (rq : Requester)
  | enterSafe (rq : Requester)
  | reboot (rq : Requester)
  | hostSoftReset (rq : Requester)
  | pageSoftRst (rq : Requester) (page : Fin 16384)
  | regionReset (rq : Requester) (r : RegionId)
  | gsrRelease (r : RegionId)
  -- register pages
  | errClear (rq : Requester) (page : Fin 16384)
  | irqForce (rq : Requester) (page : Fin 16384) (v : Word)
  | registerWrite (rq : Requester) (addr : BitVec 26) (size : Nat) (v : BitVec 64)
  | reg64LowRead (rq : Requester) (page : Fin 16384) (off : Fin 1024)
  | rcRead (rq : Requester) (page : Fin 16384) (off : Fin 1024)
  | mbxGo (rq : Requester) (h : Half)
  | mbxResponse (h : Half)
  | version (h : Half)
  | echo (h : Half)
  | fabricMailboxAccess
  -- word cells
  | pass (c : CellId) | add (c : CellId) | adc (c : CellId) | sub (c : CellId) | sbc (c : CellId)
  | addss (c : CellId) | subss (c : CellId) | addus (c : CellId) | subus (c : CellId)
  | muls (c : CellId) | mulu (c : CellId) | mulsu (c : CellId)
  | and (c : CellId) | or (c : CellId) | xor (c : CellId) | andn (c : CellId)
  | shl (c : CellId) | shr (c : CellId) | sar (c : CellId) | rol (c : CellId) | ror (c : CellId)
  | min (c : CellId) | max (c : CellId) | minu (c : CellId) | maxu (c : CellId) | abs (c : CellId)
  | cmp (c : CellId) | tst (c : CellId) | sel (c : CellId) | clz (c : CellId)
  | lcnt (c : CellId) | dbnz (c : CellId) | ld (c : CellId) | st (c : CellId)
  | emit (c : CellId) | wait (c : CellId) | tapo (c : CellId) | halt (c : CellId)
  | cellReservedHalt (c : CellId)
  | cellOutputAccept (c : CellId)
  | param (p : PortId)
  | paramCommit (p : PortId)
  | heldCommitApply (p : PortId)
  | paramLatchParity (c : CellId) (entry : Fin 8) (bothCopies : Bool)
  -- taps and MAC slices
  | tapItemTransfer (r : RegionId) (side : Dir) (group : Fin 8) (upset : BitVec 8) (pins : BitVec 16)
  | macIssue (m : MacId) (cellWritesResult : Bool)
  -- crossings, switches and the crossbar
  | crossingWord (ch : ChanId) (upset : Bool)
  | creditReturn (ch : ChanId)
  | parityVerdict (ch : ChanId)
  | spareRemap (p : PortId)
  | switchMessageRoute (inp : ChanId)
  | crossbarRoute (core : CoreInput)
  | headOutputGrant (out : ChanId)
  -- banks
  | bankGrant (b : BankId)
  | hostBankAccess (rq : Requester) (addr : BitVec 40) (size : Nat) (isWrite : Bool) (v : BitVec 64)
  | aliasWrite (rq : Requester) (k : AliasKind) (b : BankId) (w : Fin 8192) (v : Word)
  | bankClearDone
  -- scheduler
  | walkerReady
  | walkerCancel
  | unboundEvent
  | schCmdReady (rq : Requester) (t : TaskId)
  | schCmdCancel (rq : Requester) (t : TaskId)
  | abandon (rq : Requester) (t : TaskId)
  | disable (rq : Requester) (t : TaskId)
  | enable (rq : Requester) (t : TaskId)
  | dispatchDecision
  | complete
  | suspendReply
  | timerFire (n : Fin 64)
  | ioEdgeEvent (b : IobId) (c : Fin 48) (rising : Bool) (stamp : BitVec 64)
  | doorbell (rq : Requester) (n : Fin 64) (v : Word)
  | schServiceAccess
  | runLimitHit (t : TaskId)
  | suspendLimitHit (t : TaskId)
  | schedulerDrainNotice (r : RegionId)
  | drainSuspend (r : RegionId)
  | schedulerDrainedReport (r : RegionId)
  | engineAbsent (e : Fin 255)
  | absenceEventPost
  | traceSpill
  | contextWrite (rq : Requester) (w : Fin 14) (v : Word)
  | engineMapWrite (rq : Requester) (e : Fin 256) (v : Word)
  | bindDataAccess (rq : Requester) (wr : Option Word)
  | argDataAccess (rq : Requester) (wr : Option Word)
  | saveDataRead (rq : Requester)
  | schSoftReset (rq : Requester) (page : Fin 4)
  -- DMA and translation
  | dmaSubmit (rq : Requester) (ch : DmaId)
  | dmaDesc
  | dmaDescAdmit
  | descriptorStart (ch : DmaId)
  | moverBlockDone (m : Fin 4)
  | pageWalkRead (requester : Fin 5)
  | chainRead (ch : DmaId)
  | dmaEventPost (ch : DmaId)
  | remoteReply
  | restart (rq : Requester) (ch : DmaId)
  | flush (rq : Requester) (ch : DmaId)
  | dmaSoftReset (rq : Requester) (ch : DmaId)
  | invalAll (rq : Requester)
  | invalSpace (rq : Requester) (space : Fin 16)
  | invalPage (rq : Requester) (space : Fin 16)
  | invalDone
  | spaceConfigWrite (rq : Requester) (space : Fin 16) (root : Bool) (v : Word)
  | hraRead (rq : Requester)
  | hraWrite (rq : Requester)
  | hraDone
  | remoteRd
  | remoteWr
  -- Fox port, personalities, Configuration Store
  | foxLoad (rq : Requester) (v : Word)
  | foxLoadDone (r : RegionId)
  | streamOpen (rq : Requester) (v : Word)
  | libraryProgramOpen (rq : Requester) (v : Word)
  | streamData (rq : Requester) (w : Word)
  | streamAbort (rq : Requester)
  | streamIdleTimeout
  | libraryProgramDone (progFail : Bool) (wearWarn : Bool)
  | slotErase (rq : Requester)
  | slotEraseDone (eraseFail : Bool) (wearWarn : Bool)
  | foxServiceAccess (tap : Option RegionId)
  | foxLock (rq : Requester)
  | stageInvalidate (rq : Requester) (r : RegionId)
  | armCtlArm (rq : Requester)
  | now (rq : Requester)
  | disarm (rq : Requester)
  | swapDrainStart
  | regionDrainNotice (r : RegionId)
  | regionDrained (r : RegionId)
  | setDrained
  | drainTimeout
  | swapGo (r : RegionId)
  | swapRelease (r : RegionId)
  | handover (r : RegionId)
  | scrubFrameFail (r : RegionId) (pl : PlaneSel) (frame : Fin 1536) (storeReadable : Bool)
  | scrubPassEnd (r : RegionId) (pl : PlaneSel)
  -- Code/Data Flash
  | cdfSequenceWrite (rq : Requester) (off : BitVec 25) (v : BitVec 16)
  | program (rq : Requester) (off : BitVec 25) (fromBank : Option (Fin 4))
  | eraseSector (rq : Requester) (off : BitVec 25) (fromBank : Option (Fin 4))
  | eraseBank (rq : Requester) (b : Fin 4) (fromBank : Option (Fin 4))
  | suspend (rq : Requester) (b : Fin 4) (fromBank : Option (Fin 4))
  | resume (rq : Requester) (b : Fin 4) (fromBank : Option (Fin 4))
  | readId (rq : Requester) (b : Fin 4) (fromBank : Option (Fin 4))
  | guardSet (rq : Requester) (off : BitVec 25) (fromBank : Option (Fin 4))
  | guardUnlock (rq : Requester) (off : BitVec 25) (fromBank : Option (Fin 4))
  | statusClear (rq : Requester) (b : Fin 4) (fromBank : Option (Fin 4))
  | setPw (rq : Requester)
  | pageBufferWrite (rq : Requester) (off : BitVec 25) (v : BitVec 16)
  | pageLoadTimeout (b : Fin 4)
  | cdfOpDone (b : Fin 4) (effort : Nat) (verified : Bool) (failing : BitVec 40)
  | suspendHonoured (b : Fin 4)
  | suspendedReached (b : Fin 4)
  | cdfArrayRead (rq : Requester) (off : BitVec 25) (size : Nat)
  | cdfSoftReset (rq : Requester)
  | wearReport (h : Half)
  | pageProgram (h : Half)
  | sectorErase (h : Half)
  -- update, handover, recovery
  | bundleBegin (h : Half)
  | bundleData (rq : Requester) (w : Word)
  | bundleVerifyDone
  | chunkForward
  | ringChunk (h : Half)
  | bundleCancel (h : Half)
  | manifestQuery (h : Half)
  | activate (h : Half)
  | arm (origin : Byte) (payload : List Word)
  | armRepeat
  | updateReady
  | armReturn (bitmap : List Word)
  | pointerWriteDone
  | commit (origin : Byte) (manifest : BitVec 64) (t : BitVec 64)
  | activationTime
  | firmwareHandover (canRead : Bool)
  | attemptCount
  | armDeadline
  | abort (origin : Byte) (manifest : BitVec 64) (reason : Word)
  | confirm (h : Half)
  | confirmWindowExpiry
  | fallbackRequest (h : Half)
  | fallback (origin : Byte) (manifest : BitVec 64) (reason : Word)
  | nodeJoin (node : Fin 256) (activeManifest otherManifest : BitVec 64) (boot : Word)
  -- power, clocks, sleep
  | levelReq (rq : Requester) (level : Fin 4)
  | islandSwitch (i : Fin 79)
  | pmbusAck
  | powerGood
  | settleElapsed
  | pgTimeout
  | islWrite (rq : Requester) (i : Fin 79) (v : Word)
  | clCfgWrite (rq : Requester) (n : Fin 8) (v : Word)
  | loopLock (n : Fin 9)
  | lossOfReference (n : Fin 8)
  | stewardClkWrite (rq : Requester) (src : Bool)
  | pmbusAlert (status : BitVec 16)
  | regionPowerOn (rq : Requester) (r : RegionId)
  | regionPowerOff (rq : Requester) (r : RegionId)
  | regionPowerDone
  | enterDoze (rq : Requester) (reached : Bool)
  | enterSleep (rq : Requester) (reached : Bool)
  | enterBear (rq : Requester) (reached : Bool)
  | wakeRing (reason : Byte) (tally : Nat)
  | wakePin (tally : Nat)
  | wakeTimer (tally : Nat)
  | wakeNow (rq : Requester)
  | wakeLoadDone
  | holdRelease (rq : Requester) (b : IobId)
  | wdtKick (rq : Requester)
  | watchdogExpiry
  -- self-test
  | sliceEnd (cls : Fin 5) (block : BitVec 10) (slice cell : Byte) (run : SliceRun)
  | budgetExpiry
  | windowExit
  | bgSliceStart
  | bgPhaseDone
  | bgSliceAbort
  | bgSliceEnd (run : SliceRun)
  | scan
  | zeroisationDone
  -- boundary scan
  | extest | idcode | samplePreload (preload : List Bool) | clamp | highz
  | bypass (ir : Byte) | testLogicReset
  -- ring and time
  | segmentUp (out : Bool) (live : BitVec 4)
  | segmentDown (out : Bool)
  | enumChar (count : Byte)
  | tmax (value : BitVec 36)
  | ringMessage (origin : Byte) (kind : BitVec 2) (index : BitVec 9) (words : List TWord)
  | snap (origin : Byte) (at_ : BitVec 64) (scope : Word)
  | wake (origin : Byte) (reason : Byte)
  | reset (origin : Byte) (kind : Word)
  | syncSend
  | syncPair (value : BitVec 64)
  | syncTimeout
  | echoCharacter (delayPs : BitVec 16)
  | adj (rq : Requester) (v : Word)
  | ptpTimestamp (port : Fin 2) (tx : Bool) (overUdp : Bool) (stamp : BitVec 64) (seq : BitVec 16)
  | snapArm (rq : Requester)
  | snapCancel (rq : Requester)
  | snapshotCapture
  | snapshotExchange
  | rollcallGo (rq : Requester)
  | rollcallReturn (bitmap : List Word)
  | rollcallTimeout
  | owlPortWrite (rq : Requester) (port : Fin 4) (pin : Bool) (v : Word)
  -- host interfaces and pins
  | qspiWrite (addr : Word) (words : List Word)
  | qspiRead (addr : Word)
  | qspiReadTimeout
  | qspiStatus
  | dlyWrite (rq : Requester) (b : IobId) (c : Fin 48) (v : Word)
  | vccoChange (b : IobId) (mv : BitVec 16)
  | functionLevelReset
  | pcieLinkChange (up : Bool) (width : BitVec 3) (speed : BitVec 4) (link : LinkState)
  | islandClockEdge (r : RegionId) (cg : Fin 5)
  | windowEntry
  | strapSafePins (pins : BitVec 2)
  | ethLinkChange (port : Fin 2) (up : Bool) (speed : BitVec 2)
  | frameReceived (port : Fin 2) (frame : List Byte) (good : Bool)
  deriving DecidableEq, Repr

end Sys2Proof
end

