-- ==== Sys2Proof/Decode.lean ====
section
/-! DEFINITION. Reading a command from the bits of the opcode table. The table gives no row any bits: the
commands of this block are not words, so no word spells one. -/
namespace Sys2Proof

/-- The command that a word of `nbits` bits spells: none, as no row of the table has bits. -/
def decodeTableWord (_nbits _w : Nat) : Option Instr := none

end Sys2Proof
end

