-- ==== Sys2Proof/Config.lean ====
section
/-! DEFINITION. What one device fixes by fuse or by a mechanism the spec does not give, and the free
values: constants without a body. -/
namespace Sys2Proof.Config

open Sys2Proof

/-- Fuse values: stepping, grade, serial number, spare columns of each region's banks, PCI vendor ID,
MAC addresses, VMIN and VMAX of the power-up window (Tables 3.5a, 8.6, 16.4, 17.8, 18.6). -/
opaque stepping : BitVec 8
opaque gradeE : Bool
opaque serial : BitVec 64
opaque bankRepair : Nat → Word
opaque pciVendor : BitVec 16
opaque macAddress : Nat → BitVec 48

/-- The version of the steward's ROM (R68, R323). -/
opaque romVersion : Word

/-- VMAX and VMIN of the power-up window, as one fuse word (Table 16.4: "at delivery" 950 mV and 850 mV). -/
opaque puWindow : Word

/-- Frequency of REFCLK0 in kHz, which the board chooses (R424: 25 to 200 MHz). -/
opaque refclk0Khz : Nat

/-- Verdict of the signature check over a word list: ECDSA with the public keys in the fuses (R254, R322). -/
opaque signatureGood : List Word → Bool

/-- The key slot holds a fused device image key (Table 11.3). -/
opaque keyFused : Nat → Bool

/-- AES-256 in Galois counter mode under the fused key that a header names (R253, R324): word n of the key
stream, and the authentication tag of the header data and the encrypted words. -/
opaque keystream : List Word → Nat → Word
opaque gcmTag : List Word → List Word → List Word

/-- The release, clock and I/O records that the plaintext of a device image part carries (R290, R353, R420): the
spec does not give their place in it. An I/O record is a list of register keys with values. -/
opaque releaseRecord : List Word → List Word
opaque clockRecord : List Word → List Word
opaque ioRecord : List Word → List (Nat × Word)

/-- The candidate lists of the Flezeing device model (R130, R191) as far as the rules leave them open: which of the
sources at hand a multiplexer or an interface input has and in what order, as the number of a permutation, by site;
the multiplexer of a switch box that has source n of the box as a candidate; and the switch box along a side, or of a
tile, at which a lane or a signal arrives. -/
opaque candidateOrder : Nat → Nat
opaque candidateMux : Nat → Nat → Nat
opaque laneBox : Nat → Nat

/-- The value of a combinational loop of LUT logic, which the spec does not give. -/
opaque loopValue : Nat → Bool

/-- What an output lane of a region's Fox tap presents while the tap holds no item, which the spec does not give:
region and lane. -/
opaque foxIdleLane : Nat → Nat → Bool

/-- The fold of a self-test signature register, its value before the first response, and the values fixed in the
Woodpecker ROM (R371): test (0 fast, 1 full, 2 background), class, block and slice. The spec gives none of them. -/
opaque signatureFold : BitVec 64 → BitVec 64 → BitVec 64
opaque signatureSeed : BitVec 64
opaque romSignature : Nat → Nat → Nat → Nat → BitVec 64

/-- The format version of the handover record, which the spec does not give (R335). -/
opaque handoverVersion : Word

/-- A free value of 32 bits: the value, unconstrained, of the n-th open value the device drew. -/
opaque freeWord : Nat → Word

end Sys2Proof.Config
end

