-- ==== Sys2Proof/Machine/State.lean ====
section
/-! DEFINITION. The state of one KG96 as plain data: operating mode, register store, word channels, word
cells, MAC slices, LUT logic, banks, scheduler, DMA and translation, regions and planes, Fox port,
Configuration Store, Code/Data Flash, update, power and clocks, self-test, ring, time and pins; and the
queue of waiting commands. -/
namespace Sys2Proof.Machine

open Sys2Proof

/-- A sparse table: entries with strictly rising keys. What an unlisted key reads as is said where the
table is read (Machine/Table.lean). -/
abbrev SMap (α : Type) := List (Nat × α)

/-! ## Device level -/

/-- The twelve operating modes of Table 1.5 (R22). -/
inductive Mode where
  | off | hold | load | selftest | release | run | doze | sleep | bear | safe | recovery | scan
  deriving DecidableEq, Repr

/-- How HOLD was entered, which decides the rows of Table 1.6 that apply in it (R24). -/
inductive HoldKind where
  | boot | reboot | test
  deriving DecidableEq, Repr

/-- What the current LOAD was entered for (Table 1.6: power-up, wake from SLEEP, wake from BEAR, restart
from SAFE under R435). -/
inductive LoadKind where
  | powerUp | wakeSleep | wakeBear | restart
  deriving DecidableEq, Repr

/-- Device-level state: the operating mode and the start-up and release progress (R22, R24, R280, R289). -/
structure Dev where
  mode : Mode
  /-- MODE.PREVIOUS: the code of the mode before the current one. -/
  previous : BitVec 4
  holdKind : HoldKind
  loadKind : LoadKind
  /-- The straps as last sampled, in the layout of DEV.STRAPS [14:0]. -/
  straps : BitVec 15
  /-- The live STRAP_SAFE pins (R283). -/
  liveSafe : BitVec 2
  /-- The straps have been sampled since POR or RST_N (R285: the host interface is attached). -/
  sampled : Bool
  /-- SAFE was entered from RUN (R434, R68). -/
  safeFromRun : Bool
  /-- The present release is a re-run (R292). -/
  rerun : Bool
  /-- Clock loops are locked and DONE is released: step 7 of Table 12.1 has been passed. -/
  doneReleased : Bool
  /-- The device has seen the DONE line high (R287). -/
  doneSeen : Bool
  /-- Release steps done, 0 to 3. -/
  relStep : Nat
  /-- The items OUT, WE and SR have been released (R289). -/
  outReleased : Bool
  weReleased : Bool
  srReleased : Bool
  /-- A ring reset that arrived in SLEEP or BEAR waits for RUN (R27). -/
  ringResetWaiting : Bool
  /-- A device reset waits for the end of a swap after its go notice (R270): its cause code (R361). -/
  resetWaiting : Option Nat
  /-- The 40 µs hardware clear of the banks runs (R188). -/
  bankClear : Bool
  /-- Nanoseconds of the millisecond that the watchdog counts (R361). -/
  wdtNs : Nat
  /-- R51: high words latched by a low-word read, by requester class and register. -/
  highLatch : SMap Word
  /-- R51: low words written and waiting for their high word, by requester class and register. -/
  lowPending : SMap Word
  deriving DecidableEq, Repr

/-! ## Word channels (R11, R35, R36, R39) -/

/-- Where a decoding stage sends the message that is open at one of its inputs (Table 7.2). -/
inductive Route where
  | out (c : ChanId)
  /-- The rest of the message is discarded: it is absent under R47, or was closed. -/
  | discard
  deriving DecidableEq, Repr

/-- One word channel: the sender's credits, queue and retention, the words on the way, the receiver's
elastic buffer and check, and the routing state of its two ends. -/
structure Channel where
  credits : Nat
  /-- Words that wait at the sender for a credit. -/
  sendq : List TWord
  /-- Words launched and not yet checked, oldest first; the flag marks the replay of a failed word. -/
  flight : List (TWord × Bool)
  /-- The sender's copies of the words whose verdict has not returned, at most 4 (R35). -/
  retained : List TWord
  /-- The receiver's buffer, oldest first. -/
  buffer : List TWord
  /-- At a receiver that takes words as they come: words that have left the buffer for it and whose message it has
  not yet handled (R11, R39). -/
  gathered : List TWord
  /-- The receiver has taken the HEAD of a message and not its trailer (R38). -/
  inMsg : Bool
  /-- Credits on their way back to the sender. -/
  owed : Nat
  /-- The receiver rejects words until the replay of a failed word arrives (R36). -/
  rejecting : Bool
  /-- Consecutive failed checks of the oldest unverified word (R369). -/
  fails : Nat
  /-- Verdicts on their way to the sender: true for a pass. -/
  verdicts : List Bool
  /-- The channel is retired (R38, R369). -/
  retired : Bool
  /-- The receiving island is off, gated or retired: always-on logic fences the channel (R16). -/
  fenced : Bool
  /-- Where the message open at this input goes; none while no message is open. -/
  route : Option Route
  /-- The route word of the message open at this input, as it arrived (R41, R47). -/
  routeWord : Word
  /-- The HEAD of the message open at this input. -/
  headWord : Word
  /-- That HEAD has left the buffer. -/
  headSent : Bool
  /-- As an output: the input whose message holds it (R43). -/
  holder : Option ChanId
  /-- As an output: inputs whose HEAD waits for it, in the order they reached it, each with the ring time of its
  HEAD (R46). -/
  waiting : List (ChanId × BitVec 64)
  /-- As an output: the number of the input served last (R46, R163). -/
  served : Nat
  /-- As an output: replies that the stage itself generates (R47) and that wait for it to be free. -/
  gen : List (Option Word × List TWord)
  /-- On a crossbar port, one mark for each HEAD between the sender and the end of the buffer: toward a region the
  route word that the message carried when it was sent; from a region, for a reply that its switch made, the route
  word with which that reply is delivered (R41). At a parameter unit, one mark for each HEAD that it holds: the
  uplink at which the message came (R95). -/
  marks : List (Option Word)
  /-- The mark of the HEAD that left the buffer last. -/
  mark : Option Word
  /-- The word at the front waits for an output credit, and the wait has been counted (XB.CREDIT_WAITS). -/
  creditWait : Bool
  deriving DecidableEq, Repr

/-! ## Word cells (Table 4.1) -/

/-- A decoded instruction entry (Table 4.3). -/
structure Insn where
  opcode : Nat
  dst : Nat
  srcA : Nat
  srcB : Nat
  tagact : Nat
  cond : Nat
  nextT : Nat
  nextF : Nat
  rsv : Nat
  imm : BitVec 16
  deriving DecidableEq, Repr

/-- What an issued instruction waits for at the port of the tile's bank (R83): its BANK operand, the word of LD, or
the write of ST. -/
inductive BankWait where
  | operand
  | load (adr : Nat)
  | store (adr : Nat) (w : TWord)
  deriving DecidableEq, Repr

/-- An instruction that has issued and needs the bank: it has read its operands and its immediate and consumed its
input words (R84); none waits once it has all its words. -/
structure Issued where
  insn : Insn
  a : TWord
  b : TWord
  consumed : Option Tag
  wait : Option BankWait
  /-- The word that LD read. -/
  word : TWord
  deriving DecidableEq, Repr

/-- A cell held in its completion cycle because an output port has no room (R84), or because its last posted write
has still to be granted (R83). -/
structure Stall where
  /-- 4 for OUT_A, 5 for OUT_B, 6 for BANK (Table 4.4). -/
  dst : Nat
  word : TWord
  /-- The tag of the word the instruction consumed, if it consumed one (R79). -/
  consumed : Option Tag
  /-- The outcome of the condition where the instruction has decided it already (SEL, DBNZ). -/
  taken : Option Bool
  deriving DecidableEq, Repr

/-- The state of a word cell (R70, Table 4.1). -/
structure Cell where
  d0 : TWord
  d1 : TWord
  d2 : TWord
  d3 : TWord
  cnt : BitVec 16
  z : Bool
  n : Bool
  c : Bool
  v : Bool
  bp : BitVec 13
  ltag : Tag
  entry : BitVec 3
  tapOut : BitVec 16
  /-- The value that TAP_OUT takes when the TAPO that is held in its completion cycle completes (R88). -/
  tapNext : Option (BitVec 16)
  halted : Bool
  issued : Option Issued
  /-- The posted write of a BANK destination that waits for its grant: word address and word (R83). -/
  posted : Option (BitVec 13 × TWord)
  stall : Option Stall
  deriving DecidableEq, Repr

/-- The word cells of the device with their live and pending immediates (R97, R101). -/
structure Fabric where
  cells : SMap Cell
  /-- Live immediates that a commit has changed from the configured value, key cell × 8 + entry. -/
  live : SMap (BitVec 16)
  /-- Pending immediates, same key; the entries whose pending bit is set (R97), but for those that a held
  commit has taken. -/
  pend : SMap (BitVec 16)
  /-- Uplinks (8r + u) that hold a PARAM_COMMIT, with the pending immediates that it has taken (R99): their pending
  bits are still set, and a later rewrite of the same entry stands in `pend` beside them. -/
  held : SMap (SMap (BitVec 16))
  /-- Ring times of the latest parity failures of each cell's registers (R368, R369). -/
  parityTimes : SMap (List (BitVec 64))
  deriving DecidableEq, Repr

/-! ## MAC slices (R135) -/

/-- What a slice presents at COUT: P, PF and the parity bit (R143). -/
structure Cout where
  p : BitVec 80
  pf : Bool
  ppar : Bool
  deriving DecidableEq, Repr

/-- A trigger that waits for its issue in the next cycle (R137): the tag of its chain's first trigger word (R139), the
latches as they stood at the end of the trigger cycle, and CIN as its operation sees it (R143): the predecessor's COUT
after `after` more of its issues, and then the value held in `cin`. -/
structure MacTrig where
  tag : Tag
  a : TWord
  b1 : TWord
  b2 : TWord
  after : Nat
  cin : Option Cout
  deriving DecidableEq, Repr

/-- A MAC slice: three operand latches (B1 and B2 hold data bits [23:0]), the accumulator with its fault flag and parity
bit, and the triggers that wait for their issue. -/
structure Mac where
  a : TWord
  b1 : TWord
  b2 : TWord
  p : BitVec 80
  pf : Bool
  ppar : Bool
  trig : List MacTrig
  deriving DecidableEq, Repr

/-! ## LUT logic, long lines and taps (R108, R116, R119) -/

/-- One tap group of 8 lanes as its receiving side holds it (R119, R120). -/
structure TapGroup where
  /-- Items accepted, oldest first; the sender's credits are 16 less their number. -/
  items : List Byte
  /-- An item whose check failed and that is sent again (R122). -/
  replay : Option Byte
  /-- The item presented; none until the first item arrives (R123). -/
  shown : Option Byte
  /-- Consecutive failed checks of each lane, lane 0 first. -/
  laneFails : List Nat
  deriving DecidableEq, Repr

structure Logic where
  /-- Flip-flops, key region × 12,288 + region slice index × 16 + n. -/
  ffs : SMap Bool
  /-- Values the long lines last carried at an island edge, key region × 64 + line. -/
  lines : SMap Bool
  /-- Tap groups, key (receiving region × 4 + side) × 4 + group − 4. -/
  taps : SMap TapGroup
  /-- Values the outbound lanes hold, key region × 4 + side, while the side is held (R267). -/
  holdOut : SMap Word
  /-- Edges for which an asynchronous SR still holds a clock group, key (region × 768 + slice) × 2 + group
  (R111). -/
  srHold : SMap Nat
  deriving DecidableEq, Repr

/-! ## Memory banks (R173, R176, R177) -/

/-- What a request asks of the bank port. -/
inductive BankOp where
  | read
  | write (w : TWord)
  | rmw (k : AliasKind) (v : Word)
  | tagRead
  deriving DecidableEq, Repr

/-- One request at a bank: an access of one word, or one read-modify-write of an alias range (R177). -/
structure BankReq where
  rq : Requester
  /-- The engine inside the device that made it (a mover, the memory agent, a walk ...), none for a host or steward
  access. -/
  engine : Option Nat
  word : Nat
  op : BankOp
  /-- A read-modify-write whose read phase has been granted (R182). -/
  readDone : Bool
  /-- Bank cycles it has waited in the rank 3 queue (R177). -/
  waited : Nat
  deriving DecidableEq, Repr

structure Bank where
  /-- Rank 1: requests of the steward, in order. -/
  stew : List BankReq
  /-- Rank 2: the request of the tile's LUT logic (R191). -/
  lut : Option BankReq
  /-- RDATA and RTAG: what the LUT logic's last read presented (R191). -/
  lutData : TWord
  /-- GNT, and the granted reads with the cycles until each has been presented: RVALID is 1 while one stands at 1
  (R191). -/
  lutGnt : Bool
  lutReads : List (Nat × TWord)
  /-- The requester of the compute port granted last: 0 to 15 the tile's cells, 16 its LUT logic (R86). -/
  last : Nat
  /-- STEWARD_EXCLUDED as the port applies it: it follows BANK_EXCL one bank cycle later (R179). -/
  excl : Bool
  /-- Rank 3, in order of arrival: the first 4 are in the bank's queue, the others wait for room (R177). -/
  queue : List BankReq
  /-- Rows not yet cleared since a clear at a swap (R187). -/
  uncleared : List Nat
  /-- Ring times of the latest unrecoverable words (R186, R369). -/
  failTimes : List (BitVec 64)
  deriving DecidableEq, Repr

structure Banks where
  /-- The stored words that differ from zero with tag DATA and good parity, key bank × 8,192 + word. -/
  words : SMap TWord
  ports : SMap Bank
  /-- MODEL'S OWN: bank words (same key) whose next read meets a passing disturbance: the first read
  fails parity and the re-read passes (R183). -/
  upsets : List Nat
  /-- Engines with a bank request: its outcome, a word and a code, once it has been served. -/
  engines : SMap (Option (TWord × Nat))
  deriving DecidableEq, Repr

/-! ## Scheduler -/

/-- Task states (Table 9.1). -/
inductive TaskState where
  | disabled | idle | ready | running | suspending | preempted | blocked
  deriving DecidableEq, Repr

/-- A task context (Table 9.2). -/
structure Ctx where
  w0 : Word
  w1 : Word
  w2 : Word
  w3 : Word
  w4 : Word
  lastStatus : Byte
  saved : Nat
  slot : Nat
  cancelPending : Bool
  again : Bool
  /-- The event word of the ready that set AGAIN (R200). -/
  againWord : Word
  state : TaskState
  evtWord : Word
  dispatches : Word
  overruns : BitVec 16
  preempts : BitVec 16
  lost : BitVec 16
  misses : BitVec 16
  dispatchTime : Word
  completeTime : Word
  deadline : BitVec 64
  /-- The RUN_LIMIT check has fired in this activation (R220). -/
  runHit : Bool
  /-- The SUSPEND_LIMIT check has fired in this suspend (R215). -/
  suspendHit : Bool
  /-- Order of the last dispatch, for the choice between victims (R214). -/
  order : Nat
  deriving DecidableEq, Repr

/-- An event queue entry (R203). -/
structure QEntry where
  index : Nat
  word : Word
  coalesced : Nat
  deriving DecidableEq, Repr

/-- The entry that the event walker is applying: its queue, the entry, and the matching bindings still to
be applied, as they stood when it took the entry (R206). -/
structure Walk where
  queue : Nat
  entry : QEntry
  todo : List Word
  deriving DecidableEq, Repr

/-- A BLOCKED_ABSENT task whose completion event waits for room in queue 13, with the capacity slot it
keeps until then (R219). -/
structure AbsentEvt where
  task : Nat
  engine : Nat
  slot : Nat
  code : Nat
  deriving DecidableEq, Repr

/-- The scheduler cycle in progress (R198): it begins with its first stage and ends with its dispatch stage. -/
structure SchedCycle where
  /-- The stage last run: 0 none yet, 1 cancel, 2 complete, 3 ready. -/
  stage : Nat
  /-- Ring time [31:0] at its start (R222). -/
  time : Option Word
  /-- The event walker has applied its binding of the cycle. -/
  walker : Bool
  /-- A source of an event queue was held back in the cycle (Table 9.11). -/
  stalled : Bool
  /-- The task that the cancel stage has cancelled (R199). -/
  cancelled : Option Nat
  /-- Engine map entries written in the cycle, as they still stand for its decisions (R197). -/
  oldMap : SMap Word
  deriving DecidableEq, Repr

def SchedCycle.blank : SchedCycle :=
  { stage := 0, time := none, walker := false, stalled := false, cancelled := none, oldMap := [] }

structure Sched where
  ctx : SMap Ctx
  queues : SMap (List QEntry)
  binds : SMap Word
  emap : SMap Word
  args : SMap TWord
  saves : SMap TWord
  walk : Option Walk
  lastQueue : Nat
  /-- Per priority, the task last dispatched or resumed (R210). -/
  rrLast : SMap Nat
  /-- Dispatches so far, the source of Ctx.order. -/
  seq : Nat
  /-- Regions whose engines are held (R218), and those whose drained report has been launched. -/
  heldRegions : List Nat
  reported : List Nat
  cyc : SchedCycle
  /-- The command written to SCH0.CMD that awaits its stage: operation and task (R202). -/
  cmd : Option (Nat × Nat)
  /-- The absence queue, in ascending task order: completion events that wait (R219), and trace entries, each with
  its two words (R223). -/
  absentEvts : List AbsentEvt
  absTrace : List (Word × Word)
  /-- The Owl trace: entry index to its two words (R222). -/
  trace : SMap (Word × Word)
  /-- Trace entries recorded and not yet spilled (R223). -/
  unspilled : Nat
  deriving DecidableEq, Repr

/-! ## DMA and translation -/

/-- A DMA descriptor (R235) with how it was submitted. -/
structure Desc where
  words : List Word
  fromMessage : Bool
  task : BitVec 12
  deriving DecidableEq, Repr

/-- The current descriptor of a channel. -/
structure Cur where
  desc : Desc
  /-- Words moved in completed blocks, and words of the block in progress. -/
  done : Nat
  inBlock : Nat
  /-- Bank words (bank × 8,192 + word) that the descriptor has written: a fault makes them undefined
  (R242). -/
  written : List Nat
  /-- The registers that it has written, page and offset, in the same way. -/
  writtenRegs : List (Nat × Nat)
  /-- A remote request of the block is outstanding: is it the source read (R244)? -/
  remote : Option Bool
  /-- Offset and length of the source read asked of a remote node. -/
  asked : Nat × Nat
  /-- Source words that a remote read has delivered for the block and that are still to be moved. -/
  fetched : List TWord
  /-- Words of the block gathered for one REMOTE_WR, and that message's node, offset and length. -/
  gather : List TWord
  gatherAt : Nat × Nat × Nat
  deriving DecidableEq, Repr

structure DmaChan where
  queue : List Desc
  cur : Option Cur
  halted : Bool
  /-- The event word that waits for room in queue 17 (R240). -/
  waitEvt : Option Word
  /-- The chain pointer whose descriptor is to be read next, bank × 8,192 + word, and the descriptor that
  named it (R236). -/
  chain : Option (Nat × Desc)
  /-- The words of the chain descriptor that have been read. -/
  chainGot : List TWord
  /-- A descriptor of the channel has ended and the next has not started (R240). -/
  ended : Bool
  deriving DecidableEq, Repr

/-- A translation cache entry (R233): one leaf. -/
structure Tlb where
  space : Nat
  /-- Virtual page number VA[39:12]; for a 2 MiB page its low 9 bits are zero. -/
  page : Nat
  big : Bool
  r : Bool
  w : Bool
  pfn : Nat
  deriving DecidableEq, Repr

/-- A translation walk in progress (R230, R231). -/
structure PtWalk where
  space : Nat
  va : Nat
  /-- The walk is for the destination. -/
  write : Bool
  level : Nat
  /-- Bank × 8,192 + word of the entry to be read. -/
  entry : Nat
  /-- An invalidation came during the walk: its result is not cached (R234). -/
  stale : Bool
  deriving DecidableEq, Repr

structure Mover where
  serving : Option Nat
  last : Nat
  walk : Option PtWalk
  /-- The translations of the block in progress, for its source (false) and its destination: they serve it even where an
  invalidation keeps them out of the cache (R234, R239). -/
  own : List (Bool × Tlb)
  deriving DecidableEq, Repr

/-- A request at the memory agent (R245): its HEAD and route word, a write, the window offset of its first word, the
words read so far or still to be written, how many words have been served, and the outcome. -/
structure AgentJob where
  head : Word
  route : Word
  write : Bool
  off : Nat
  count : Nat
  words : List TWord
  served : Nat
  code : Nat
  deriving DecidableEq, Repr

structure Dma where
  chans : SMap DmaChan
  movers : SMap Mover
  /-- The request that the memory agent serves (R245). -/
  agent : Option AgentJob
  /-- Cache groups 0 to 3, most recently used first. -/
  caches : SMap (List Tlb)
  /-- The host-initiated access in progress: virtual address, write (R246). -/
  hra : Option (Nat × Bool)
  /-- A remote request of the host-initiated access is outstanding. -/
  hraRemote : Bool
  /-- Movers that work on a block begun before an invalidation (R234). -/
  invalWait : List Nat
  deriving DecidableEq, Repr

/-! ## Regions, planes and the Fox port -/

/-- Power states of PAGE_STAT.POWER (Table 3.2d). -/
inductive Power where
  | on | gated | off | retired
  deriving DecidableEq, Repr

/-- The state of one region that no register holds. -/
structure Rgn where
  power : Power
  gsr : Bool
  /-- The drain notice has closed the uplinks to new HEADs (R263). -/
  draining : Bool
  /-- The region has met every drained condition and reported it (R264). -/
  drained : Bool
  /-- The scheduler's drained report is usable at the region (R264). -/
  schReport : Bool
  /-- Swap steps of Table 11.4 done: release steps 1 to 3. -/
  released : Nat
  /-- A region reset waits for the end of the swap (R270). -/
  resetWaiting : Bool
  /-- Sides whose inbound lanes take no new item: bit side, from the start of a border hold to the IN step
  (R267, R269). -/
  inHeld : BitVec 4
  /-- Squirrel buffer (R272). -/
  sq : List TWord
  /-- Region clock lines left stopped under R345, bit k for RCk. -/
  rcStopped : BitVec 4
  /-- Active-plane frames that have no reference because a stream carried them (R274). -/
  unreferenced : List Nat
  stageUnreferenced : List Nat
  /-- Ring times of the latest failures of each active-plane frame (R369). -/
  frameTimes : SMap (List (BitVec 64))
  /-- The scrub's present pass reads the staging plane; and its plane became valid after the pass had begun, so that the
  pass does not read all of it (R273, R275). -/
  scrubStaging : Bool
  scrubCut : Bool
  deriving DecidableEq, Repr

/-- Configuration planes, key region × 49,152 + frame × 32 + word (R127, R249). -/
structure Planes where
  active : SMap Word
  staging : SMap Word
  deriving DecidableEq, Repr

/-- A load into a region's staging plane that is in progress: its source (codes of ACTIVE_SRC) and slot. -/
structure Load where
  src : Nat
  slot : Nat
  rq : Requester
  deriving DecidableEq, Repr

/-- A stream into the Fox port (R258). -/
structure Stream where
  owner : Requester
  /-- The library slot programmed, r × 8 + n, or none for a stream to the staging planes. -/
  target : Option Nat
  words : List Word
  /-- The header has passed checks 1 to 3: the load or the erase has started. -/
  started : Bool
  refused : Bool
  deriving DecidableEq, Repr

structure Fox where
  /-- Loads in progress, by region. -/
  loads : SMap Load
  stream : Option Stream
  /-- The armed or swapping set (R262): its mask and ring time. -/
  armed : Option (BitVec 64 × BitVec 64)
  /-- The drain of the set has started; ring time of the drain notice (R263). -/
  drainAt : Option (BitVec 64)
  /-- The go notice has been launched (R266). -/
  gone : Bool
  /-- Regions of the set whose drained report is usable, and those whose swap has ended. -/
  drainedSet : BitVec 64
  swappedSet : BitVec 64
  /-- Library programs whose words have all arrived and whose end is awaited: slot r × 8 + n and the image
  words, oldest first (R260). -/
  programs : List (Nat × List Word)
  /-- Slot erases in progress, r × 8 + n, oldest first: the first step of a program (R260), or of its own (R279). -/
  erasing : List Nat
  /-- The STREAM_DATA buffer, oldest word first, at most 1,024; and writes held at the page until it has room
  (R258). -/
  buffer : List Word
  heldWrites : List Word
  deriving DecidableEq, Repr

/-! ## Configuration Store (R251, R260, R261) -/

structure Slot where
  valid : Bool
  busy : Bool
  corrupt : Bool
  retired : Bool
  wearWarn : Bool
  programs : BitVec 15
  deriving DecidableEq, Repr

structure Store where
  /-- Device images A and B are complete and verified; the last start-up loaded image B (CSC.IMAGE_STAT). -/
  aValid : Bool
  bValid : Bool
  bootB : Bool
  /-- Stored image words of each area: r for image A, 64 + r for image B, 128 + 8r + n for library slot n. -/
  areas : SMap (List Word)
  /-- Slot states, key 8r + n. -/
  slots : SMap Slot
  /-- Release records of images A and B (Table 12.3), key 0 and 1. -/
  relRec : SMap (List Word)
  /-- Clock records: CL0_CFG–CL7_CFG then ISL0–ISL78 (R353). -/
  clkRec : SMap (List Word)
  /-- I/O records: pairs of register key and value for the IOB pages (R420). -/
  ioRec : SMap (List (Nat × Word))
  deriving DecidableEq, Repr

/-! ## Code/Data Flash (chapter 13) -/

/-- An operation of a flash bank. -/
structure FlashOp where
  code : Nat
  sector : Nat
  page : Nat
  /-- The page buffer of a running program: halfwords written, key 0 to 255. -/
  buf : SMap (BitVec 16)
  /-- The operation is honouring a suspend (R306). -/
  suspending : Bool
  pendingSuspend : Bool
  deriving DecidableEq, Repr

/-- The page buffer of a loading PROGRAM (R302). -/
structure PageLoad where
  rq : Requester
  sector : Nat
  page : Nat
  buf : SMap (BitVec 16)
  deriving DecidableEq, Repr

structure FlashBank where
  op : Option FlashOp
  /-- The erase that is suspended (R306). -/
  suspended : Option FlashOp
  /-- A RESUME that waits for a program made during an erase suspend (R305). -/
  resumeWaits : Bool
  load : Option PageLoad
  idMode : Bool
  /-- The prefetch buffer: the lines it holds, latest first, at most 8 (R298). -/
  prefetch : List Nat
  deriving DecidableEq, Repr

/-- The wear record of a sector (R313). -/
structure Wear where
  retired : Bool
  warn : Bool
  pulses : BitVec 5
  retries : BitVec 3
  erases : BitVec 22
  deriving DecidableEq, Repr

structure Flash where
  /-- Halfwords that are not erased, key byte offset from 0x00_4000_0000 divided by 2. -/
  cells : SMap (BitVec 16)
  /-- Pages whose content is undefined (R303, R304, R307), key sector code × 256 + page: the number of the
  free value that its first halfword holds. -/
  undef : SMap Nat
  /-- Lines with bits in error, key byte offset divided by 32 (R297). -/
  badBits : SMap Nat
  /-- Pages programmed since their sector's last erase, key sector code × 256 + page. -/
  programmed : List Nat
  wear : SMap Wear
  guardBits : BitVec 34
  password : BitVec 64
  banks : SMap FlashBank
  /-- Steps of a command sequence done, key bank × 2 + (1 for the steward) (R300). -/
  seq : SMap Nat
  key : BitVec 64
  newPw : BitVec 64
  deriving DecidableEq, Repr

/-! ## Update (chapter 14) -/

/-- The boot pointer record (Table 14.1). -/
structure BootPointer where
  seq : Word
  activeB : Bool
  trial : Bool
  attempts : BitVec 2
  settingsB : Bool
  otherVerified : Bool
  committed : Bool
  rejected : Bool
  p6Map : Byte
  activeManifest : BitVec 64
  otherManifest : BitVec 64
  commitT : BitVec 64
  fwVersionA : Word
  fwVersionB : Word
  deriving DecidableEq, Repr

/-- What a pointer write is made for: the step that waits on it (R320). -/
inductive PtrFor where
  | verified | begin_ | committed | activate | confirm | fallback | attempt | recovery | bootFallback
  deriving DecidableEq, Repr

structure Upd where
  /-- The valid copy of the boot pointer with the greatest SEQ, and whether there is one (R320). -/
  pointer : BootPointer
  pointerValid : Bool
  /-- The pair whose firmware runs: true for B. -/
  running : Bool
  /-- Bundle words received at the intake and not yet part of a checked header or a whole chunk (R325). -/
  intake : List Word
  /-- The words of BUNDLE_DATA's buffer, oldest first, and the writes held while it is full (R325). -/
  buffer : List Word
  heldWords : List Word
  /-- Header, manifest and signature of the bundle that is being received, once checked (R322). -/
  headerPart : List Word
  /-- The header part of an intake that did not end: a bundle that begins alike resumes it (R327). -/
  oldHeader : List Word
  /-- Chunk records of this device's role, stored with verified tags, by chunk index (R327). -/
  chunks : SMap (List Word)
  /-- A library part was refused (R324). -/
  partRefused : Bool
  /-- Every chunk of the role is stored, and the verification is not over: it starts again after a reset (R328). -/
  verifyDue : Bool
  /-- The role given with BUNDLE_BEGIN in RECOVERY (R340). -/
  recoveryRole : Byte
  /-- Chunk buffers that wait to be forwarded: chunk index, or 0xFFFFFFFF for the header part, and the words
  (R326). -/
  buffers : List (Nat × List Word)
  /-- Pointer writes in progress and waiting, oldest first: what each is for, and the record. -/
  ptrWrite : List (PtrFor × BootPointer)
  /-- A start-up in TRIAL has still to be counted (R321). -/
  attemptDue : Bool
  /-- Manifest and deadline of the ARM being served (R329); none while no activation is being prepared. -/
  arming : Option (BitVec 64 × BitVec 64)
  /-- At the leader: the ready bitmap of the last ARM that returned, and whether COMMIT has been sent. -/
  readyMap : BitVec 256
  commitSent : Bool
  /-- The swap set (R329), whether it is armed or has swapped, and the regions whose recorded source changed at
  T (R331). -/
  swapSet : BitVec 64
  swapArmed : Bool
  resourced : BitVec 64
  /-- The commitment was a roll-forward (R333). -/
  rollForward : Bool
  /-- The jump to the new firmware is due: the pointer write that precedes it is complete (R330, R337). -/
  handoverDue : Bool
  /-- Ring time T of the last activation, from which the confirm window runs (R336). -/
  trialStart : BitVec 64
  /-- At the leader, the nodes that have still to answer CONFIRM. -/
  confirming : List Nat
  /-- Route words of the steward's own requests that no RD_REPLY has answered yet, oldest first (R42, R69). -/
  awaited : List Word
  /-- The steward's tightly coupled memory, 65,536 words (R1, R335). -/
  tcm : SMap Word
  deriving DecidableEq, Repr

/-! ## Power and clocks (chapter 15) -/

/-- Steps of a level change that remain: Tables 15.2 and 15.3. -/
inductive LvlStep where
  | islands | ack | powerGood | settle
  deriving DecidableEq, Repr

structure LvlChange where
  target : Nat
  source : Nat
  slower : Bool
  step : LvlStep
  /-- Islands that have still to take their clock byte. -/
  left : List Nat
  deriving DecidableEq, Repr

structure Pwr where
  change : Option LvlChange
  /-- The clock byte each island runs on, key island; unlisted islands run on STOP. -/
  now : SMap Byte
  /-- Islands with a new byte of the present level that waits for its alignment pulse (R348). -/
  switching : List Nat
  /-- Every island runs on its Hare-derived clock (R352). -/
  hare : Bool
  /-- A sleep entry is past its acceptance: the state requested (R357). -/
  entering : Option Nat
  /-- The performance level on sleep entry (R359). -/
  entryLevel : Nat
  /-- A region power change in progress: the region and ON (R354). -/
  region : Option (Nat × Bool)
  deriving DecidableEq, Repr

/-! ## Self-test (chapter 16) -/

/-- Phases of a background bank slice (R379); cell and port slices stay in the test phase. From the end of the
evacuation until each word is written back the shadow buffer holds the row group: its words have their home in
Banks.words, which is what the shadow delivers (assumption log 52). -/
inductive BgPhase where
  | evacuate | test | restore | returned
  deriving DecidableEq, Repr

/-- The background slice in progress (R378): its class (0 bank, 1 cell, 2 port), block, row group, and whether
it is the retest of a FAIL, or was cut by the window or the budget. A cell or a port under test keeps its saved
state in its home and does not run (R380). -/
structure BgSlice where
  cls : Nat
  block : Nat
  group : Nat
  phase : BgPhase
  retest : Bool
  cut : Bool
  deriving DecidableEq, Repr

structure Wpk where
  bg : Option BgSlice
  /-- Class and, per class, block tried last (R378). -/
  lastClass : Nat
  lastBlock : SMap Nat
  /-- The row group of each bank that its next slice borrows. -/
  nextGroup : SMap Nat
  /-- Power-up slices that have ended, per class. -/
  ended : SMap Nat
  /-- Classes with a slice that failed, and with one that was incomplete: bit c for class c (R377). -/
  failed : BitVec 5
  incomplete : BitVec 5
  /-- A zeroisation is in progress (R383). -/
  zeroising : Bool
  /-- The signature register of the slice that ended last (R371). -/
  signature : BitVec 64
  deriving DecidableEq, Repr

/-! ## Ring, time, observation (chapter 17) -/

structure RingPort where
  inUp : Bool
  outUp : Bool
  /-- At the leader: ENUM has returned and TMAX is on its way (R391). -/
  awaitTmax : Bool
  /-- Messages that wait for the ring-out, of this node and forwarded: the content of the ORIGIN character, and
  the words (R393, R394); and whether the last one served was of this node. -/
  mine : List (Nat × List TWord)
  fwd : List (Nat × List TWord)
  lastMine : Bool
  /-- Requests sent on the ring and not answered: route word, as it stood at the ring port, and HEAD (R392). -/
  openRequests : List (Word × Word)
  /-- Messages launched at ring-out, oldest first: content of the ORIGIN character, and the words. -/
  sent : List (Nat × List TWord)
  /-- ENUM, TMAX and SYNC words launched at ring-out: kind of character (0 for a SYNC pair) and content. -/
  chars : List (Nat × BitVec 64)
  /-- SYNC pairs that wait for the message on the ring-out to end, oldest first: the value, and the ring time at which
  it was so (R394, R397). -/
  syncs : List (BitVec 64 × BitVec 64)
  /-- The last 16 hop delays measured, latest first (R397). -/
  echoes : List Nat
  deriving DecidableEq, Repr

structure TimeUnit where
  ringTime : BitVec 64
  /-- Correction still to be slewed in: signed ns (R399). -/
  slew : BitVec 64
  /-- Whether the offset was within ±20 ns at the last SYNCs, latest first, at most 3 (R399). -/
  lastGood : List Bool
  /-- Frozen ring time of a sleep (R401). -/
  frozen : BitVec 64
  /-- A snapshot request: AT and scope word (R402). -/
  snap : Option (BitVec 64 × Word)
  /-- The other halves of the shadows: captured values by register key (R403). -/
  captured : SMap Word
  captureDone : Bool
  deriving DecidableEq, Repr

/-! ## Pins, host interfaces and outputs (chapter 18) -/

/-- The TAP instructions (R426). -/
inductive TapInstr where
  | bypass | idcode | sample | extest | clamp | highz | scan
  deriving DecidableEq, Repr

structure Io where
  /-- What the outbound lanes of each pin side last brought to the I/O cells, key region × 4 + side, and
  the lanes retired there (R415, R416). -/
  lanes : SMap Word
  lanesRetired : SMap Word
  /-- Output enable and value of the pads latched for a sleep (R360), key bank × 64 + cell. -/
  latched : SMap (Bool × Bool)
  tap : TapInstr
  /-- The instruction that has taken the pins until Test-Logic-Reset: EXTEST, CLAMP or HIGHZ. -/
  taken : Option TapInstr
  /-- The boundary register: per pin, an output enable and a value (assumption log 71). -/
  boundary : List Bool
  /-- The bits that the selected TAP register captured last, first out first (R426). -/
  tdo : List Bool
  /-- The DONE line is above its threshold (DONE_STAT.LINE). -/
  doneLine : Bool
  /-- QSPI write buffer: address and word (R423), and the dropped flag. -/
  qspi : List (Word × Word)
  qspiDropped : Bool
  /-- The address of a QSPI read whose word is awaited. -/
  qspiWait : Option Word
  /-- The bytes that the QSPI port sent last: ready byte and word of a READ, or the byte of a STATUS (R423). -/
  qspiOut : List Byte
  /-- MSI-X vectors sent, oldest first (R61), and the enable and function mask of the MSI-X capability. -/
  msixSent : List Nat
  msixEnable : Bool
  msixMask : Bool
  /-- PMBus writes sent: regulator address, command code and data (R347, R349). -/
  pmbus : List (Nat × Nat × Word)
  /-- The last two words returned to each requester class, latest first (0 host, 1 steward, 2 fabric,
  3 ring): a 64-bit read returns two. -/
  readData : SMap (List TWord)
  /-- Words written to host memory, byte offset and word, and words read there, byte offset, oldest first (R19). -/
  pcieWrites : List (Nat × Word)
  pcieReads : List Nat
  /-- Host reads that wait behind one that a bank has still to serve: address and size (R177). -/
  hostWait : List (Nat × Nat)
  /-- QSPI reads that have timed out and whose word a bank has still to deliver (R423). -/
  qspiLate : Nat
  /-- Frames handed to steward memory: port and bytes (R413). -/
  frames : List (Nat × List Byte)
  deriving DecidableEq, Repr

/-! ## The machine -/

structure State where
  /-- Commands that wait, first in, first out. -/
  pending : List Instr
  dev    : Dev
  /-- The registers of the pages whose values are not held elsewhere, key page × 1,024 + offset ÷ 4;
  an unlisted register holds its reset value (Machine/Regs.lean). -/
  regs   : SMap Word
  net    : SMap Channel
  fab    : Fabric
  macs   : SMap Mac
  logic  : Logic
  banks  : Banks
  sched  : Sched
  dma    : Dma
  rgns   : SMap Rgn
  planes : Planes
  fox    : Fox
  store  : Store
  flash  : Flash
  upd    : Upd
  pwr    : Pwr
  wpk    : Wpk
  ring   : RingPort
  time   : TimeUnit
  io     : Io
  /-- MODEL'S OWN: the number of free values drawn so far (values the spec leaves open). -/
  free   : Nat
  deriving DecidableEq, Repr

/-- Faults: none. Every command of the table has an effect the spec gives, so no meaning faults. -/
inductive Fault where
  deriving DecidableEq, Repr

/-- Refusals: only a command whose meaning is not written yet; raised by Dispatch.lean alone. Safe. -/
inductive Refusal where
  | notModelled (mnemonic : String)
  deriving DecidableEq, Repr

/-! ## Reset: the device as POR leaves it, in HOLD before strap sampling -/

def Dev.reset : Dev :=
  { mode := .hold, previous := 0, holdKind := .boot, loadKind := .powerUp, straps := 0, liveSafe := 0,
    sampled := false, safeFromRun := false, rerun := false, doneReleased := false, doneSeen := false,
    relStep := 0, outReleased := false, weReleased := false, srReleased := false,
    ringResetWaiting := false, resetWaiting := none, bankClear := false, wdtNs := 0, highLatch := [], lowPending := [] }

def Fabric.reset : Fabric :=
  { cells := [], live := [], pend := [], held := [], parityTimes := [] }

def Logic.reset : Logic := { ffs := [], lines := [], taps := [], holdOut := [], srHold := [] }

def Banks.reset : Banks := { words := [], ports := [], upsets := [], engines := [] }

def Sched.reset : Sched :=
  { ctx := [], queues := [], binds := [], emap := [], args := [], saves := [], walk := none,
    lastQueue := 17, rrLast := [], seq := 0, heldRegions := [], reported := [],
    cyc := SchedCycle.blank, cmd := none, absentEvts := [], absTrace := [], trace := [], unspilled := 0 }

def Dma.reset : Dma :=
  { chans := [], movers := [], agent := none, caches := [], hra := none, hraRemote := false,
    invalWait := [] }

def Fox.reset : Fox :=
  { loads := [], stream := none, armed := none, drainAt := none, gone := false, drainedSet := 0,
    swappedSet := 0, programs := [], erasing := [], buffer := [], heldWrites := [] }

def Store.reset : Store := { aValid := false, bValid := false, bootB := false, areas := [], slots := [], relRec := [], clkRec := [], ioRec := [] }

def Flash.reset : Flash :=
  { cells := [], undef := [], badBits := [], programmed := [], wear := [], guardBits := 0, password := 0, banks := [],
    seq := [], key := 0, newPw := 0 }

def BootPointer.blank : BootPointer :=
  { seq := 0, activeB := false, trial := false, attempts := 0, settingsB := false, otherVerified := false,
    committed := false, rejected := false, p6Map := 0xFF, activeManifest := 0, otherManifest := 0,
    commitT := 0, fwVersionA := 0, fwVersionB := 0 }

def Upd.reset : Upd :=
  { pointer := BootPointer.blank, pointerValid := false, running := false, intake := [], buffer := [], heldWords := [],
    headerPart := [], oldHeader := [], chunks := [], partRefused := false, verifyDue := false, recoveryRole := 0, buffers := [],
    ptrWrite := [], attemptDue := false,
    arming := none, readyMap := 0, commitSent := false, swapSet := 0, swapArmed := false, resourced := 0,
    rollForward := false, handoverDue := false, trialStart := 0, confirming := [], awaited := [],
    tcm := [] }

def Pwr.reset : Pwr :=
  { change := none, now := [], switching := [], hare := true, entering := none, entryLevel := 0,
    region := none }

def Wpk.reset : Wpk :=
  { bg := none, lastClass := 2, lastBlock := [], nextGroup := [], ended := [], failed := 0, incomplete := 0,
    zeroising := false, signature := 0 }

def RingPort.reset : RingPort :=
  { inUp := false, outUp := false, awaitTmax := false, mine := [], fwd := [], lastMine := false, openRequests := [],
    sent := [], chars := [], syncs := [], echoes := [] }

def TimeUnit.reset : TimeUnit :=
  { ringTime := 0, slew := 0, lastGood := [], frozen := 0, snap := none, captured := [],
    captureDone := false }

def Io.reset : Io :=
  { lanes := [], lanesRetired := [], latched := [], tap := .idcode, taken := none, boundary := [], tdo := [], doneLine := false,
    qspi := [], qspiDropped := false,
    qspiWait := none, qspiOut := [], msixSent := [], msixEnable := false, msixMask := false, pmbus := [],
    readData := [], pcieWrites := [], pcieReads := [], hostWait := [], qspiLate := 0, frames := [] }

/-- The machine right after reset: HOLD entered by POR, before the straps are sampled, with blank
non-volatile stores (assumption log, entries 1 and 2). -/
def State.reset : State :=
  { pending := [], dev := Dev.reset, regs := [], net := [], fab := Fabric.reset, macs := [],
    logic := Logic.reset, banks := Banks.reset, sched := Sched.reset, dma := Dma.reset, rgns := [],
    planes := ⟨[], []⟩, fox := Fox.reset, store := Store.reset, flash := Flash.reset,
    upd := Upd.reset, pwr := Pwr.reset, wpk := Wpk.reset, ring := RingPort.reset,
    time := TimeUnit.reset, io := Io.reset, free := 0 }

end Sys2Proof.Machine
end

