-- ==== Sys2Proof/Machine/Regs.lean ====
section
/-! DEFINITION. The register pages as the spec lays them out: page numbers (Table 3.3), and for each page
type the registers of its tables with their offsets, access masks (Table 3.1) and reset values. -/
namespace Sys2Proof.Machine

open Sys2Proof

/-- The page types of Table 3.3 (R58). -/
inductive PageKind where
  | dev | pmu | clk | rst | time | snap | owl | wpk | guard | cdf | csc | fox | upd | xb | mmu
  | sch0 | sch1 | sch2 | sch3 | dma | ring | pcie | eth | iob | rgn
  deriving DecidableEq, Repr

/-- The page kind at a page index, if Table 3.3 assigns it (R49, R58). -/
def pageKind (p : Nat) : Option PageKind :=
  if p = 0x000 then some .dev else if p = 0x001 then some .pmu else if p = 0x002 then some .clk
  else if p = 0x003 then some .rst else if p = 0x004 then some .time else if p = 0x005 then some .snap
  else if p = 0x006 then some .owl else if p = 0x007 then some .wpk else if p = 0x008 then some .guard
  else if p = 0x009 then some .cdf else if p = 0x00A then some .csc else if p = 0x00B then some .fox
  else if p = 0x00C then some .upd else if p = 0x00D then some .xb else if p = 0x00E then some .mmu
  else if p = 0x010 then some .sch0 else if p = 0x011 then some .sch1
  else if p = 0x012 then some .sch2 else if p = 0x013 then some .sch3
  else if 0x020 ≤ p ∧ p ≤ 0x03F then some .dma
  else if p = 0x040 then some .ring else if p = 0x041 then some .pcie
  else if p = 0x042 ∨ p = 0x043 then some .eth
  else if 0x050 ≤ p ∧ p ≤ 0x05B then some .iob
  else if 0x100 ≤ p ∧ p ≤ 0x13F then some .rgn
  else none

/-- PAGE_ID.TYPE (Table 3.3). -/
def pageType : PageKind → Nat
  | .dev => 0x0001 | .pmu => 0x0002 | .clk => 0x0003 | .rst => 0x0004 | .time => 0x0005
  | .snap => 0x0006 | .owl => 0x0007 | .wpk => 0x0008 | .guard => 0x0009 | .cdf => 0x000A
  | .csc => 0x000B | .fox => 0x000C | .upd => 0x000D | .xb => 0x000E | .mmu => 0x000F
  | .sch0 => 0x0010 | .sch1 => 0x0010 | .sch2 => 0x0010 | .sch3 => 0x0010 | .dma => 0x0020
  | .ring => 0x0040 | .pcie => 0x0041 | .eth => 0x0042 | .iob => 0x0050 | .rgn => 0x0100

/-- PAGE_ID.INSTANCE (Table 3.3). -/
def pageInstance (k : PageKind) (p : Nat) : Nat :=
  match k with
  | .sch0 => 0 | .sch1 => 1 | .sch2 => 2 | .sch3 => 3
  | .dma => p - 0x020 | .eth => p - 0x042 | .iob => p - 0x050 | .rgn => p - 0x100
  | _ => 0

/-! Page indices. -/
abbrev P.DEV : Nat := 0x000
abbrev P.PMU : Nat := 0x001
abbrev P.CLK : Nat := 0x002
abbrev P.RST : Nat := 0x003
abbrev P.TIME : Nat := 0x004
abbrev P.SNAP : Nat := 0x005
abbrev P.OWL : Nat := 0x006
abbrev P.WPK : Nat := 0x007
abbrev P.GUARD : Nat := 0x008
abbrev P.CDF : Nat := 0x009
abbrev P.CSC : Nat := 0x00A
abbrev P.FOX : Nat := 0x00B
abbrev P.UPD : Nat := 0x00C
abbrev P.XB : Nat := 0x00D
abbrev P.MMU : Nat := 0x00E
abbrev P.SCH0 : Nat := 0x010
abbrev P.SCH1 : Nat := 0x011
abbrev P.SCH2 : Nat := 0x012
abbrev P.SCH3 : Nat := 0x013
abbrev P.DMA (c : Nat) : Nat := 0x020 + c
abbrev P.RING : Nat := 0x040
abbrev P.PCIE : Nat := 0x041
abbrev P.ETH (n : Nat) : Nat := 0x042 + n
abbrev P.IOB (b : Nat) : Nat := 0x050 + b
abbrev P.RGN (r : Nat) : Nat := 0x100 + r

/-- All page indices that Table 3.3 assigns. -/
def allPages : List Nat :=
  (List.range 0x144).filter fun p => (pageKind p).isSome

/-- One register, or an array of equal registers, of a page: the bits of each access code of Table 3.1
and the reset value. -/
structure RegRow where
  off : Nat
  count : Nat
  stride : Nat
  rw : Word
  ro : Word
  w1c : Word
  w1s : Word
  rc : Word
  wo : Word
  rst : Word
  /-- Event counters among the RW bits: SOFT_RST and status-clearing resets clear them (R56). -/
  cnt : Word
  deriving DecidableEq, Repr

/-! The common registers (Table 3.2). -/

abbrev R.PAGE_ID : Nat := 0x000
abbrev R.PAGE_CAP : Nat := 0x004
abbrev R.PAGE_CTL : Nat := 0x008
abbrev R.PAGE_STAT : Nat := 0x00C
abbrev R.ERR_FIRST : Nat := 0x010
abbrev R.ERR_COUNT : Nat := 0x014
abbrev R.ERR_ADDR : Nat := 0x018
abbrev R.SNAP_EPOCH : Nat := 0x01C
abbrev R.IRQ_PEND : Nat := 0x020
abbrev R.IRQ_EN : Nat := 0x024
abbrev R.IRQ_ROUTE : Nat := 0x028
abbrev R.IRQ_FORCE : Nat := 0x02C

def commonRows : List RegRow :=
  [⟨0x0, 1, 4, 0, 0xFFFFFFFF, 0, 0, 0, 0, 0, 0⟩,
   ⟨0x4, 1, 4, 0, 0xFFF, 0, 0, 0, 0, 0, 0⟩,
   ⟨0x8, 1, 4, 0x5, 0, 0, 0x2, 0, 0, 0x1, 0⟩,
   ⟨0xC, 1, 4, 0, 0xFF2F, 0x10, 0, 0, 0, 0, 0⟩,
   ⟨0x10, 1, 4, 0, 0xFFFFFFFF, 0, 0, 0, 0, 0, 0⟩,
   ⟨0x14, 1, 4, 0, 0xFFFFFFFF, 0, 0, 0, 0, 0, 0⟩,
   ⟨0x18, 1, 4, 0, 0xFFFFFFFF, 0, 0, 0, 0, 0, 0⟩,
   ⟨0x1C, 1, 4, 0, 0xFFFF, 0, 0, 0, 0, 0, 0⟩,
   ⟨0x20, 1, 4, 0, 0, 0xFFFFFFFF, 0, 0, 0, 0, 0⟩,
   ⟨0x24, 1, 4, 0xFFFFFFFF, 0, 0, 0, 0, 0, 0, 0⟩,
   ⟨0x28, 1, 4, 0x13F, 0, 0, 0, 0, 0, 0x100, 0⟩,
   ⟨0x2C, 1, 4, 0, 0, 0, 0, 0, 0xFFFFFFFF, 0, 0⟩]

/-! Page type DEV. -/
abbrev R.DEV_DEVICE_ID : Nat := 0x040
abbrev R.DEV_SERIAL_LO : Nat := 0x044
abbrev R.DEV_SERIAL_HI : Nat := 0x048
abbrev R.DEV_STRAPS : Nat := 0x04C
abbrev R.DEV_MODE : Nat := 0x050
abbrev R.DEV_CMD : Nat := 0x054
abbrev R.DEV_MSG_MALFORMED : Nat := 0x058
abbrev R.DEV_MSG_MALFORMED_ORIGIN : Nat := 0x05C
abbrev R.DEV_OFF_ACCESS_COUNT : Nat := 0x060
abbrev R.DEV_OFF_ACCESS_LAST : Nat := 0x064
abbrev R.DEV_RETIRE_LAST : Nat := 0x068
abbrev R.DEV_IRQ_VEC_PEND : Nat := 0x070
abbrev R.DEV_MBX_H_CTL : Nat := 0x0C0
abbrev R.DEV_MBX_F_CTL : Nat := 0x0C4
abbrev R.DEV_MBX_H_REQ : Nat := 0x100
abbrev R.DEV_MBX_H_RSP : Nat := 0x140
abbrev R.DEV_MBX_F_REQ : Nat := 0x180
abbrev R.DEV_MBX_F_RSP : Nat := 0x1C0

def devRows : List RegRow :=
  [⟨0x40, 1, 4, 0, 0xFFFFFF80, 0, 0, 0, 0, 0x4B960000, 0⟩,
   ⟨0x44, 1, 4, 0, 0xFFFFFFFF, 0, 0, 0, 0, 0, 0⟩,
   ⟨0x48, 1, 4, 0, 0xFFFFFFFF, 0, 0, 0, 0, 0, 0⟩,
   ⟨0x4C, 1, 4, 0, 0x77FF, 0, 0, 0, 0, 0, 0⟩,
   ⟨0x50, 1, 4, 0, 0xFFFF0FFF, 0, 0, 0, 0, 0, 0⟩,
   ⟨0x54, 1, 4, 0, 0, 0, 0, 0, 0xFF, 0, 0⟩,
   ⟨0x58, 1, 4, 0, 0, 0, 0, 0xFFFFFFFF, 0, 0, 0⟩,
   ⟨0x5C, 1, 4, 0, 0xFFFFFFFF, 0, 0, 0, 0, 0, 0⟩,
   ⟨0x60, 1, 4, 0, 0, 0, 0, 0xFFFFFFFF, 0, 0, 0⟩,
   ⟨0x64, 1, 4, 0, 0xFFF7FFF, 0, 0, 0, 0, 0, 0⟩,
   ⟨0x68, 1, 4, 0, 0xFF003FFF, 0, 0, 0, 0, 0, 0⟩,
   ⟨0x70, 2, 4, 0, 0xFFFFFFFF, 0, 0, 0, 0, 0, 0⟩,
   ⟨0xC0, 1, 4, 0, 0xFF02, 0x4, 0x1, 0xFFFF0000, 0, 0, 0⟩,
   ⟨0xC4, 1, 4, 0, 0xFF02, 0x4, 0x1, 0xFFFF0000, 0, 0, 0⟩,
   ⟨0x100, 16, 4, 0xFFFFFFFF, 0, 0, 0, 0, 0, 0, 0⟩,
   ⟨0x140, 16, 4, 0, 0xFFFFFFFF, 0, 0, 0, 0, 0, 0⟩,
   ⟨0x180, 16, 4, 0xFFFFFFFF, 0, 0, 0, 0, 0, 0, 0⟩,
   ⟨0x1C0, 16, 4, 0, 0xFFFFFFFF, 0, 0, 0, 0, 0, 0⟩]

/-! Page type PMU. -/
abbrev R.PMU_LEVEL_REQ : Nat := 0x040
abbrev R.PMU_LEVEL_STAT : Nat := 0x044
abbrev R.PMU_SETTLE : Nat := 0x048
abbrev R.PMU_PG_TIMEOUT : Nat := 0x04C
abbrev R.PMU_PMBUS_CFG : Nat := 0x050
abbrev R.PMU_VOUT : Nat := 0x054
abbrev R.PMU_PMBUS_ALERT : Nat := 0x064
abbrev R.PMU_ENTER : Nat := 0x070
abbrev R.PMU_ENTER_STAT : Nat := 0x074
abbrev R.PMU_RETAIN_LO : Nat := 0x078
abbrev R.PMU_RETAIN_HI : Nat := 0x07C
abbrev R.PMU_BEAR_CFG : Nat := 0x080
abbrev R.PMU_WAKE_EN : Nat := 0x084
abbrev R.PMU_WAKE_TIMER : Nat := 0x088
abbrev R.PMU_WAKE_CAUSE : Nat := 0x08C
abbrev R.PMU_WAKE_NOW : Nat := 0x090
abbrev R.PMU_LAST_SLEEP : Nat := 0x094
abbrev R.PMU_ENTRY_REFUSED : Nat := 0x098
abbrev R.PMU_ENTRY_ABORTED : Nat := 0x09C
abbrev R.PMU_LEVEL_REFUSALS : Nat := 0x0A0
abbrev R.PMU_RGN_PWR_CTL : Nat := 0x0B0
abbrev R.PMU_RGN_ON_LO : Nat := 0x0B4
abbrev R.PMU_RGN_ON_HI : Nat := 0x0B8
abbrev R.PMU_REFUSAL_PTR : Nat := 0x0FC
abbrev R.PMU_REFUSAL_LOG : Nat := 0x100

def pmuRows : List RegRow :=
  [⟨0x40, 1, 4, 0, 0, 0, 0, 0, 0x3, 0, 0⟩,
   ⟨0x44, 1, 4, 0, 0xFF000333, 0, 0, 0, 0, 0, 0⟩,
   ⟨0x48, 1, 4, 0xFFFF, 0, 0, 0, 0, 0, 0x64, 0⟩,
   ⟨0x4C, 1, 4, 0xFFFF, 0, 0, 0, 0, 0, 0x1388, 0⟩,
   ⟨0x50, 1, 4, 0x807F, 0x1F0000, 0, 0, 0, 0, 0x8040, 0⟩,
   ⟨0x54, 4, 4, 0, 0xFFFF, 0, 0, 0, 0, 0, 0⟩,
   ⟨0x64, 1, 4, 0, 0xFFFF, 0, 0, 0, 0, 0, 0⟩,
   ⟨0x70, 1, 4, 0, 0, 0, 0, 0, 0x3, 0, 0⟩,
   ⟨0x74, 1, 4, 0, 0xFF030001, 0, 0, 0, 0, 0, 0⟩,
   ⟨0x78, 1, 4, 0xFFFFFFFF, 0, 0, 0, 0, 0, 0, 0⟩,
   ⟨0x7C, 1, 4, 0xFFFFFFFF, 0, 0, 0, 0, 0, 0, 0⟩,
   ⟨0x80, 1, 4, 0x1, 0, 0, 0, 0, 0, 0, 0⟩,
   ⟨0x84, 1, 4, 0xF, 0, 0, 0, 0, 0, 0xB, 0⟩,
   ⟨0x88, 1, 4, 0xFFFFFFFF, 0, 0, 0, 0, 0, 0, 0⟩,
   ⟨0x8C, 1, 4, 0, 0xFF07, 0, 0, 0, 0, 0, 0⟩,
   ⟨0x90, 1, 4, 0, 0, 0, 0, 0, 0x1, 0, 0⟩,
   ⟨0x94, 1, 4, 0, 0xFFFFFFFF, 0, 0, 0, 0, 0, 0⟩,
   ⟨0x98, 1, 4, 0, 0, 0, 0, 0xFFFFFFFF, 0, 0, 0⟩,
   ⟨0x9C, 1, 4, 0, 0, 0, 0, 0xFFFFFFFF, 0, 0, 0⟩,
   ⟨0xA0, 1, 4, 0, 0, 0, 0, 0xFFFFFFFF, 0, 0, 0⟩,
   ⟨0xB0, 1, 4, 0x13F, 0x40FF0000, 0, 0x80000000, 0, 0, 0, 0⟩,
   ⟨0xB4, 1, 4, 0, 0xFFFFFFFF, 0, 0, 0, 0, 0, 0⟩,
   ⟨0xB8, 1, 4, 0, 0xFFFFFFFF, 0, 0, 0, 0, 0, 0⟩,
   ⟨0xFC, 1, 4, 0, 0x8000000F, 0, 0, 0, 0, 0, 0⟩,
   ⟨0x100, 16, 4, 0, 0xE000FFFF, 0, 0, 0, 0, 0, 0⟩]

/-! Page type CLK. -/
abbrev R.CLK_CL_CFG : Nat := 0x040
abbrev R.CLK_CL_STAT : Nat := 0x044
abbrev R.CLK_STEWARD_CLK : Nat := 0x080
abbrev R.CLK_REFUSED_LAST : Nat := 0x084
abbrev R.CLK_ISL : Nat := 0x100

def clkRows : List RegRow :=
  [⟨0x40, 8, 8, 0xC00F0FFF, 0, 0, 0, 0, 0, 0, 0⟩,
   ⟨0x44, 8, 8, 0, 0xA00003FF, 0x40000000, 0, 0, 0, 0, 0⟩,
   ⟨0x80, 1, 4, 0x1, 0x2, 0, 0, 0, 0, 0, 0⟩,
   ⟨0x84, 1, 4, 0, 0xFF03FF03, 0, 0, 0, 0, 0, 0⟩,
   ⟨0x100, 79, 4, 0xFFFFFFFF, 0, 0, 0, 0, 0, 0, 0⟩]

/-! Page type RST. -/
abbrev R.RST_CAUSE : Nat := 0x040
abbrev R.RST_CTL : Nat := 0x044
abbrev R.RST_WDT_PERIOD : Nat := 0x048
abbrev R.RST_WDT_KICK : Nat := 0x04C
abbrev R.RST_WDT_STAT : Nat := 0x050
abbrev R.RST_STARTUP_STAT : Nat := 0x100
abbrev R.RST_STARTUP_T0 : Nat := 0x104
abbrev R.RST_STARTUP_T1 : Nat := 0x108
abbrev R.RST_STARTUP_T2 : Nat := 0x10C
abbrev R.RST_REL_LAST : Nat := 0x110
abbrev R.RST_RELEASE_EFF : Nat := 0x114
abbrev R.RST_DONE_STAT : Nat := 0x118

def rstRows : List RegRow :=
  [⟨0x40, 1, 4, 0, 0xFF, 0, 0, 0, 0, 0, 0⟩,
   ⟨0x44, 1, 4, 0x3, 0, 0, 0, 0, 0, 0x1, 0⟩,
   ⟨0x48, 1, 4, 0xFFFF, 0, 0, 0, 0, 0, 0x3E8, 0⟩,
   ⟨0x4C, 1, 4, 0, 0, 0, 0, 0, 0xFFFFFFFF, 0, 0⟩,
   ⟨0x50, 1, 4, 0, 0xFFFFFFFF, 0, 0, 0, 0, 0, 0⟩,
   ⟨0x100, 1, 4, 0, 0xFF0F01C0, 0, 0, 0, 0, 0, 0⟩,
   ⟨0x104, 1, 4, 0, 0xFFFFFFFF, 0, 0, 0, 0, 0, 0⟩,
   ⟨0x108, 1, 4, 0, 0xFFFFFFFF, 0, 0, 0, 0, 0, 0⟩,
   ⟨0x10C, 1, 4, 0, 0xFFFFFFFF, 0, 0, 0, 0, 0, 0⟩,
   ⟨0x110, 1, 4, 0, 0xFFFF, 0, 0, 0, 0, 0, 0⟩,
   ⟨0x114, 1, 4, 0, 0xFFFF0F, 0, 0, 0, 0, 0, 0⟩,
   ⟨0x118, 1, 4, 0, 0x3, 0, 0, 0xFFFF0000, 0, 0x1, 0⟩]

/-! Page type TIME. -/
abbrev R.TIME_NOW_LO : Nat := 0x040
abbrev R.TIME_NOW_HI : Nat := 0x044
abbrev R.TIME_STAT : Nat := 0x048
abbrev R.TIME_OFFSET : Nat := 0x04C
abbrev R.TIME_CTL : Nat := 0x050
abbrev R.TIME_SYNC_PERIOD : Nat := 0x054
abbrev R.TIME_SLEW_MAX : Nat := 0x058
abbrev R.TIME_STEP_LIMIT : Nat := 0x05C
abbrev R.TIME_ADJ : Nat := 0x060
abbrev R.TIME_RATE : Nat := 0x064
abbrev R.TIME_RATIO : Nat := 0x068
abbrev R.TIME_TALLY : Nat := 0x06C
abbrev R.TIME_SYNC_RX : Nat := 0x070
abbrev R.TIME_SYNC_MISSED : Nat := 0x074

def timeRows : List RegRow :=
  [⟨0x40, 1, 4, 0, 0xFFFFFFFF, 0, 0, 0, 0, 0, 0⟩,
   ⟨0x44, 1, 4, 0, 0xFFFFFFFF, 0, 0, 0, 0, 0, 0⟩,
   ⟨0x48, 1, 4, 0, 0x7, 0, 0, 0, 0, 0, 0⟩,
   ⟨0x4C, 1, 4, 0, 0xFFFFFFFF, 0, 0, 0, 0, 0, 0⟩,
   ⟨0x50, 1, 4, 0x7, 0, 0, 0, 0, 0, 0, 0⟩,
   ⟨0x54, 1, 4, 0xFFFFFFFF, 0, 0, 0, 0, 0, 0x7D, 0⟩,
   ⟨0x58, 1, 4, 0xFFFFFFFF, 0, 0, 0, 0, 0, 0xC8, 0⟩,
   ⟨0x5C, 1, 4, 0xFFFFFFFF, 0, 0, 0, 0, 0, 0x3E8, 0⟩,
   ⟨0x60, 1, 4, 0, 0, 0, 0, 0, 0xFFFFFFFF, 0, 0⟩,
   ⟨0x64, 1, 4, 0xFFFFFFFF, 0, 0, 0, 0, 0, 0, 0⟩,
   ⟨0x68, 1, 4, 0, 0xFFFFFFFF, 0, 0, 0, 0, 0, 0⟩,
   ⟨0x6C, 1, 4, 0, 0xFFFFFFFF, 0, 0, 0, 0, 0, 0⟩,
   ⟨0x70, 1, 4, 0xFFFFFFFF, 0, 0, 0, 0, 0, 0, 0xFFFFFFFF⟩,
   ⟨0x74, 1, 4, 0xFFFFFFFF, 0, 0, 0, 0, 0, 0, 0xFFFFFFFF⟩]

/-! Page type SNAP. -/
abbrev R.SNAP_AT_LO : Nat := 0x040
abbrev R.SNAP_AT_HI : Nat := 0x044
abbrev R.SNAP_CTL : Nat := 0x048
abbrev R.SNAP_STAT : Nat := 0x04C
abbrev R.SNAP_TAKEN_LO : Nat := 0x050
abbrev R.SNAP_TAKEN_HI : Nat := 0x054
abbrev R.SNAP_REFUSED : Nat := 0x058

def snapRows : List RegRow :=
  [⟨0x40, 1, 4, 0xFFFFFFFF, 0, 0, 0, 0, 0, 0, 0⟩,
   ⟨0x44, 1, 4, 0xFFFFFFFF, 0, 0, 0, 0, 0, 0, 0⟩,
   ⟨0x48, 1, 4, 0xFFFF013F, 0, 0, 0x600, 0, 0, 0, 0⟩,
   ⟨0x4C, 1, 4, 0, 0xFFFFFF01, 0x6, 0, 0, 0, 0, 0⟩,
   ⟨0x50, 1, 4, 0, 0xFFFFFFFF, 0, 0, 0, 0, 0, 0⟩,
   ⟨0x54, 1, 4, 0, 0xFFFFFFFF, 0, 0, 0, 0, 0, 0⟩,
   ⟨0x58, 1, 4, 0, 0, 0, 0, 0xFFFFFFFF, 0, 0, 0⟩]

/-! Page type OWL. -/
abbrev R.OWL_PORT_SEL : Nat := 0x040
abbrev R.OWL_PORT_PIN : Nat := 0x044
abbrev R.OWL_STAT : Nat := 0x060

def owlRows : List RegRow :=
  [⟨0x40, 4, 8, 0x80003F3F, 0, 0, 0, 0, 0, 0, 0⟩,
   ⟨0x44, 4, 8, 0xF3F, 0, 0, 0, 0, 0, 0, 0⟩,
   ⟨0x60, 1, 4, 0, 0xF, 0, 0, 0, 0, 0, 0⟩]

/-! Page type WPK. -/
abbrev R.WPK_CTL : Nat := 0x040
abbrev R.WPK_BUDGET : Nat := 0x044
abbrev R.WPK_WINDOW : Nat := 0x048
abbrev R.WPK_PU_WINDOW : Nat := 0x04C
abbrev R.WPK_WIN_STAT : Nat := 0x050
abbrev R.WPK_PU_STAT : Nat := 0x054
abbrev R.WPK_PU_FIRST : Nat := 0x058
abbrev R.WPK_PU_COUNTS : Nat := 0x05C
abbrev R.WPK_BG_REGIONS_LO : Nat := 0x060
abbrev R.WPK_BG_REGIONS_HI : Nat := 0x064
abbrev R.WPK_BG_PERIOD : Nat := 0x068
abbrev R.WPK_BG_STAT : Nat := 0x06C
abbrev R.WPK_BG_PASSES : Nat := 0x070
abbrev R.WPK_BG_FAILS : Nat := 0x074
abbrev R.WPK_BG_INCOMPLETE : Nat := 0x078
abbrev R.WPK_BG_ABORTS : Nat := 0x07C
abbrev R.WPK_BG_LAST_FAIL : Nat := 0x080
abbrev R.WPK_SCAN_STAT : Nat := 0x090

def wpkRows : List RegRow :=
  [⟨0x40, 1, 4, 0xF, 0, 0, 0, 0, 0, 0, 0⟩,
   ⟨0x44, 1, 4, 0xFFFF, 0, 0, 0, 0, 0, 0x32, 0⟩,
   ⟨0x48, 1, 4, 0xFF, 0, 0, 0, 0, 0, 0x1E, 0⟩,
   ⟨0x4C, 1, 4, 0, 0xFFFFFFFF, 0, 0, 0, 0, 0, 0⟩,
   ⟨0x50, 1, 4, 0, 0x8000FFFF, 0, 0, 0, 0, 0, 0⟩,
   ⟨0x54, 1, 4, 0, 0x33FF, 0, 0, 0, 0, 0, 0⟩,
   ⟨0x58, 1, 4, 0, 0xFFFFFFFF, 0, 0, 0, 0, 0, 0⟩,
   ⟨0x5C, 1, 4, 0, 0xFFFFFFFF, 0, 0, 0, 0, 0, 0⟩,
   ⟨0x60, 1, 4, 0xFFFFFFFF, 0, 0, 0, 0, 0, 0, 0⟩,
   ⟨0x64, 1, 4, 0xFFFFFFFF, 0, 0, 0, 0, 0, 0, 0⟩,
   ⟨0x68, 1, 4, 0xFFFFFFFF, 0, 0, 0, 0, 0, 0x3E8, 0⟩,
   ⟨0x6C, 1, 4, 0, 0xF000FFFF, 0, 0, 0, 0, 0, 0⟩,
   ⟨0x70, 1, 4, 0xFFFFFFFF, 0, 0, 0, 0, 0, 0, 0xFFFFFFFF⟩,
   ⟨0x74, 1, 4, 0xFFFFFFFF, 0, 0, 0, 0, 0, 0, 0xFFFFFFFF⟩,
   ⟨0x78, 1, 4, 0xFFFFFFFF, 0, 0, 0, 0, 0, 0, 0xFFFFFFFF⟩,
   ⟨0x7C, 1, 4, 0xFFFFFFFF, 0, 0, 0, 0, 0, 0, 0xFFFFFFFF⟩,
   ⟨0x80, 1, 4, 0, 0xE000FFFF, 0, 0, 0, 0, 0, 0⟩,
   ⟨0x90, 1, 4, 0, 0x3, 0, 0, 0, 0, 0, 0⟩]

/-! Page type GUARD. -/
abbrev R.GUARD_GROUPS0 : Nat := 0x040
abbrev R.GUARD_GROUPS_P : Nat := 0x048
abbrev R.GUARD_KEY_LO : Nat := 0x050
abbrev R.GUARD_KEY_HI : Nat := 0x054
abbrev R.GUARD_NEW_PW_LO : Nat := 0x058
abbrev R.GUARD_NEW_PW_HI : Nat := 0x05C
abbrev R.GUARD_STAT : Nat := 0x060
abbrev R.GUARD_CTL : Nat := 0x064

def guardRows : List RegRow :=
  [⟨0x40, 1, 4, 0, 0xFFFFFFFF, 0, 0, 0, 0, 0, 0⟩,
   ⟨0x48, 1, 4, 0, 0x3, 0, 0, 0, 0, 0, 0⟩,
   ⟨0x50, 1, 4, 0, 0, 0, 0, 0, 0xFFFFFFFF, 0, 0⟩,
   ⟨0x54, 1, 4, 0, 0, 0, 0, 0, 0xFFFFFFFF, 0, 0⟩,
   ⟨0x58, 1, 4, 0, 0, 0, 0, 0, 0xFFFFFFFF, 0, 0⟩,
   ⟨0x5C, 1, 4, 0, 0, 0, 0, 0, 0xFFFFFFFF, 0, 0⟩,
   ⟨0x60, 1, 4, 0, 0xFF00010F, 0, 0, 0, 0, 0, 0⟩,
   ⟨0x64, 1, 4, 0, 0, 0, 0x1, 0, 0, 0, 0⟩]

/-! Page type CDF. -/
abbrev R.CDF_BANK_STAT : Nat := 0x040
abbrev R.CDF_SEQ_ERRORS : Nat := 0x050
abbrev R.CDF_REFUSED : Nat := 0x054
abbrev R.CDF_LAST_REFUSED : Nat := 0x058
abbrev R.CDF_WEAR_SEL : Nat := 0x060
abbrev R.CDF_WEAR_DATA : Nat := 0x064
abbrev R.CDF_WARN : Nat := 0x070
abbrev R.CDF_WARN_P : Nat := 0x080
abbrev R.CDF_RETIRED : Nat := 0x090
abbrev R.CDF_RETIRED_P : Nat := 0x0A0
abbrev R.CDF_PREFETCH_CTL : Nat := 0x0B0
abbrev R.CDF_READ_HITS : Nat := 0x0B4
abbrev R.CDF_READ_MISSES : Nat := 0x0B8
abbrev R.CDF_ECC_FIXES : Nat := 0x0BC
abbrev R.CDF_FW_BANKS : Nat := 0x0C4

def cdfRows : List RegRow :=
  [⟨0x40, 4, 4, 0, 0xF0FFFFFF, 0, 0, 0, 0, 0, 0⟩,
   ⟨0x50, 1, 4, 0, 0, 0, 0, 0xFFFFFFFF, 0, 0, 0⟩,
   ⟨0x54, 1, 4, 0, 0, 0, 0, 0xFFFFFFFF, 0, 0, 0⟩,
   ⟨0x58, 1, 4, 0, 0xFF03FFFF, 0, 0, 0, 0, 0, 0⟩,
   ⟨0x60, 1, 4, 0xFF, 0, 0, 0, 0, 0, 0, 0⟩,
   ⟨0x64, 1, 4, 0, 0xFFFFFFFF, 0, 0, 0, 0, 0, 0⟩,
   ⟨0x70, 4, 4, 0, 0xFFFFFFFF, 0, 0, 0, 0, 0, 0⟩,
   ⟨0x80, 1, 4, 0, 0xFF, 0, 0, 0, 0, 0, 0⟩,
   ⟨0x90, 4, 4, 0, 0xFFFFFFFF, 0, 0, 0, 0, 0, 0⟩,
   ⟨0xA0, 1, 4, 0, 0xFF, 0, 0, 0, 0, 0, 0⟩,
   ⟨0xB0, 1, 4, 0x1F, 0, 0, 0, 0, 0, 0x1F, 0⟩,
   ⟨0xB4, 1, 4, 0xFFFFFFFF, 0, 0, 0, 0, 0, 0, 0xFFFFFFFF⟩,
   ⟨0xB8, 1, 4, 0xFFFFFFFF, 0, 0, 0, 0, 0, 0, 0xFFFFFFFF⟩,
   ⟨0xBC, 1, 4, 0, 0, 0, 0, 0xFFFFFFFF, 0, 0, 0⟩,
   ⟨0xC4, 1, 4, 0, 0xF, 0, 0, 0, 0, 0, 0⟩]

/-! Page type CSC. -/
abbrev R.CSC_SLOT_SEL : Nat := 0x040
abbrev R.CSC_SLOT_STAT : Nat := 0x044
abbrev R.CSC_SLOT_ID : Nat := 0x048
abbrev R.CSC_SLOT_ERASE : Nat := 0x04C
abbrev R.CSC_PROG_STAT : Nat := 0x050
abbrev R.CSC_WEAR_WARNS : Nat := 0x054
abbrev R.CSC_RETIRED_SLOTS : Nat := 0x058
abbrev R.CSC_LIB_VALID : Nat := 0x080
abbrev R.CSC_IMAGE_STAT : Nat := 0x0C0

def cscRows : List RegRow :=
  [⟨0x40, 1, 4, 0x3F07, 0, 0, 0, 0, 0, 0, 0⟩,
   ⟨0x44, 1, 4, 0, 0xFC007FFF, 0, 0, 0, 0, 0, 0⟩,
   ⟨0x48, 1, 4, 0, 0xFFFFFFFF, 0, 0, 0, 0, 0, 0⟩,
   ⟨0x4C, 1, 4, 0, 0, 0, 0x1, 0, 0, 0, 0⟩,
   ⟨0x50, 1, 4, 0, 0xFF013F07, 0, 0, 0, 0, 0, 0⟩,
   ⟨0x54, 1, 4, 0, 0, 0, 0, 0xFFFFFFFF, 0, 0, 0⟩,
   ⟨0x58, 1, 4, 0, 0x3FF, 0, 0, 0, 0, 0, 0⟩,
   ⟨0x80, 16, 4, 0, 0xFFFFFFFF, 0, 0, 0, 0, 0, 0⟩,
   ⟨0xC0, 1, 4, 0, 0x13, 0, 0, 0, 0, 0, 0⟩]

/-! Page type FOX. -/
abbrev R.FOX_LOAD_CTL : Nat := 0x040
abbrev R.FOX_STREAM_CTL : Nat := 0x044
abbrev R.FOX_STREAM_DATA : Nat := 0x048
abbrev R.FOX_STREAM_STAT : Nat := 0x04C
abbrev R.FOX_STREAM_DROPPED : Nat := 0x050
abbrev R.FOX_STREAM_IDLE_LIMIT : Nat := 0x054
abbrev R.FOX_LOAD_STAT : Nat := 0x058
abbrev R.FOX_LOAD_FRAME : Nat := 0x05C
abbrev R.FOX_LOADING_LO : Nat := 0x060
abbrev R.FOX_LOADING_HI : Nat := 0x064
abbrev R.FOX_STAGED_LO : Nat := 0x068
abbrev R.FOX_STAGED_HI : Nat := 0x06C
abbrev R.FOX_ARM_AT_LO : Nat := 0x070
abbrev R.FOX_ARM_AT_HI : Nat := 0x074
abbrev R.FOX_ARM_MASK_LO : Nat := 0x078
abbrev R.FOX_ARM_MASK_HI : Nat := 0x07C
abbrev R.FOX_ARM_CTL : Nat := 0x080
abbrev R.FOX_DRAIN_LIMIT : Nat := 0x084
abbrev R.FOX_SWAP_STAT : Nat := 0x088
abbrev R.FOX_SWAP_SETS : Nat := 0x08C
abbrev R.FOX_SWAP_SET_ABORTS : Nat := 0x090
abbrev R.FOX_ALLOW_HOST_LO : Nat := 0x0A0
abbrev R.FOX_ALLOW_HOST_HI : Nat := 0x0A4
abbrev R.FOX_ALLOW_FABRIC_LO : Nat := 0x0A8
abbrev R.FOX_ALLOW_FABRIC_HI : Nat := 0x0AC
abbrev R.FOX_LOCK : Nat := 0x0B0
abbrev R.FOX_FAULTY_LO : Nat := 0x0B8
abbrev R.FOX_FAULTY_HI : Nat := 0x0BC

def foxRows : List RegRow :=
  [⟨0x40, 1, 4, 0x3F0707, 0, 0, 0x80000000, 0, 0, 0, 0⟩,
   ⟨0x44, 1, 4, 0x13F07, 0, 0, 0xC0000000, 0, 0, 0, 0⟩,
   ⟨0x48, 1, 4, 0, 0, 0, 0, 0, 0xFFFFFFFF, 0, 0⟩,
   ⟨0x4C, 1, 4, 0, 0xE00007FF, 0, 0, 0, 0, 0x400, 0⟩,
   ⟨0x50, 1, 4, 0, 0, 0, 0, 0xFFFFFFFF, 0, 0, 0⟩,
   ⟨0x54, 1, 4, 0xFFFFFFFF, 0, 0, 0, 0, 0, 0x186A0, 0⟩,
   ⟨0x58, 1, 4, 0, 0xFF003F00, 0, 0, 0, 0, 0, 0⟩,
   ⟨0x5C, 1, 4, 0, 0xFFFFFFFF, 0, 0, 0, 0, 0, 0⟩,
   ⟨0x60, 1, 4, 0, 0xFFFFFFFF, 0, 0, 0, 0, 0, 0⟩,
   ⟨0x64, 1, 4, 0, 0xFFFFFFFF, 0, 0, 0, 0, 0, 0⟩,
   ⟨0x68, 1, 4, 0, 0xFFFFFFFF, 0, 0, 0, 0, 0, 0⟩,
   ⟨0x6C, 1, 4, 0, 0xFFFFFFFF, 0, 0, 0, 0, 0, 0⟩,
   ⟨0x70, 1, 4, 0xFFFFFFFF, 0, 0, 0, 0, 0, 0, 0⟩,
   ⟨0x74, 1, 4, 0xFFFFFFFF, 0, 0, 0, 0, 0, 0, 0⟩,
   ⟨0x78, 1, 4, 0xFFFFFFFF, 0, 0, 0, 0, 0, 0, 0⟩,
   ⟨0x7C, 1, 4, 0xFFFFFFFF, 0, 0, 0, 0, 0, 0, 0⟩,
   ⟨0x80, 1, 4, 0, 0xFF000018, 0, 0x7, 0, 0, 0, 0⟩,
   ⟨0x84, 1, 4, 0xFFFFF, 0, 0, 0, 0, 0, 0x7D0, 0⟩,
   ⟨0x88, 1, 4, 0, 0xFF003F00, 0, 0, 0, 0, 0, 0⟩,
   ⟨0x8C, 1, 4, 0xFFFFFFFF, 0, 0, 0, 0, 0, 0, 0xFFFFFFFF⟩,
   ⟨0x90, 1, 4, 0xFFFFFFFF, 0, 0, 0, 0, 0, 0, 0xFFFFFFFF⟩,
   ⟨0xA0, 1, 4, 0xFFFFFFFF, 0, 0, 0, 0, 0, 0xFFFFFFFF, 0⟩,
   ⟨0xA4, 1, 4, 0xFFFFFFFF, 0, 0, 0, 0, 0, 0xFFFFFFFF, 0⟩,
   ⟨0xA8, 1, 4, 0xFFFFFFFF, 0, 0, 0, 0, 0, 0, 0⟩,
   ⟨0xAC, 1, 4, 0xFFFFFFFF, 0, 0, 0, 0, 0, 0, 0⟩,
   ⟨0xB0, 1, 4, 0, 0, 0, 0x1, 0, 0, 0, 0⟩,
   ⟨0xB8, 1, 4, 0, 0xFFFFFFFF, 0, 0, 0, 0, 0, 0⟩,
   ⟨0xBC, 1, 4, 0, 0xFFFFFFFF, 0, 0, 0, 0, 0, 0⟩]

/-! Page type UPD. -/
abbrev R.UPD_STAT : Nat := 0x040
abbrev R.UPD_ROLE : Nat := 0x044
abbrev R.UPD_CONFIRM_WINDOW : Nat := 0x048
abbrev R.UPD_ARM_DEADLINE : Nat := 0x04C
abbrev R.UPD_COMMIT_LEAD : Nat := 0x050
abbrev R.UPD_BUNDLE_DATA : Nat := 0x054
abbrev R.UPD_BUNDLE_STAT : Nat := 0x058
abbrev R.UPD_PROGRESS : Nat := 0x05C
abbrev R.UPD_BOOT : Nat := 0x060
abbrev R.UPD_ACTIVE_MANIFEST_LO : Nat := 0x064
abbrev R.UPD_ACTIVE_MANIFEST_HI : Nat := 0x068
abbrev R.UPD_OTHER_MANIFEST_LO : Nat := 0x06C
abbrev R.UPD_OTHER_MANIFEST_HI : Nat := 0x070
abbrev R.UPD_FW_ACTIVE : Nat := 0x074
abbrev R.UPD_FW_OTHER : Nat := 0x078
abbrev R.UPD_RING_BUF : Nat := 0x07C
abbrev R.UPD_T_LO : Nat := 0x080
abbrev R.UPD_T_HI : Nat := 0x084
abbrev R.UPD_TRIAL_LEFT : Nat := 0x088
abbrev R.UPD_NOT_READY : Nat := 0x090

def updRows : List RegRow :=
  [⟨0x40, 1, 4, 0, 0xFF000F0F, 0, 0, 0, 0, 0, 0⟩,
   ⟨0x44, 1, 4, 0xFF, 0, 0, 0, 0, 0, 0, 0⟩,
   ⟨0x48, 1, 4, 0xFFFFFFFF, 0, 0, 0, 0, 0, 0x258, 0⟩,
   ⟨0x4C, 1, 4, 0xFFFFFFFF, 0, 0, 0, 0, 0, 0x7D0, 0⟩,
   ⟨0x50, 1, 4, 0xFFFFFFFF, 0, 0, 0, 0, 0, 0x2710, 0⟩,
   ⟨0x54, 1, 4, 0, 0, 0, 0, 0, 0xFFFFFFFF, 0, 0⟩,
   ⟨0x58, 1, 4, 0, 0xE00007FF, 0, 0, 0, 0, 0x400, 0⟩,
   ⟨0x5C, 1, 4, 0, 0xFFFFFFFF, 0, 0, 0, 0, 0, 0⟩,
   ⟨0x60, 1, 4, 0, 0xFF, 0, 0, 0, 0, 0, 0⟩,
   ⟨0x64, 1, 4, 0, 0xFFFFFFFF, 0, 0, 0, 0, 0, 0⟩,
   ⟨0x68, 1, 4, 0, 0xFFFFFFFF, 0, 0, 0, 0, 0, 0⟩,
   ⟨0x6C, 1, 4, 0, 0xFFFFFFFF, 0, 0, 0, 0, 0, 0⟩,
   ⟨0x70, 1, 4, 0, 0xFFFFFFFF, 0, 0, 0, 0, 0, 0⟩,
   ⟨0x74, 1, 4, 0, 0xFFFFFFFF, 0, 0, 0, 0, 0, 0⟩,
   ⟨0x78, 1, 4, 0, 0xFFFFFFFF, 0, 0, 0, 0, 0, 0⟩,
   ⟨0x7C, 1, 4, 0x800003FF, 0, 0, 0, 0, 0, 0, 0⟩,
   ⟨0x80, 1, 4, 0, 0xFFFFFFFF, 0, 0, 0, 0, 0, 0⟩,
   ⟨0x84, 1, 4, 0, 0xFFFFFFFF, 0, 0, 0, 0, 0, 0⟩,
   ⟨0x88, 1, 4, 0, 0xFFFFFFFF, 0, 0, 0, 0, 0, 0⟩,
   ⟨0x90, 8, 4, 0, 0xFFFFFFFF, 0, 0, 0, 0, 0, 0⟩]

/-! Page type XB. -/
abbrev R.XB_STAT : Nat := 0x040
abbrev R.XB_SPARE : Nat := 0x044
abbrev R.XB_STRAY_WORDS : Nat := 0x068
abbrev R.XB_ABSENT_DISCARDS : Nat := 0x06C
abbrev R.XB_ABSENT_LAST : Nat := 0x070
abbrev R.XB_PORT_RETIRED : Nat := 0x080
abbrev R.XB_PORT_ABSENT : Nat := 0x0C0
abbrev R.XB_WORDS_LO : Nat := 0x100
abbrev R.XB_WORDS_HI : Nat := 0x104
abbrev R.XB_HEAD_WAITS : Nat := 0x108
abbrev R.XB_CREDIT_WAITS : Nat := 0x10C
abbrev R.XB_MON_SEL : Nat := 0x110
abbrev R.XB_MON_IN : Nat := 0x114
abbrev R.XB_MON_OUT : Nat := 0x118
abbrev R.XB_MON_WAIT : Nat := 0x11C
abbrev R.XB_SNAP_SHADOW : Nat := 0x180

def xbRows : List RegRow :=
  [⟨0x40, 1, 4, 0, 0x7FFFFF, 0, 0, 0, 0, 0, 0⟩,
   ⟨0x44, 8, 4, 0, 0x800001FF, 0, 0, 0, 0, 0, 0⟩,
   ⟨0x68, 1, 4, 0, 0, 0, 0, 0xFFFFFFFF, 0, 0, 0⟩,
   ⟨0x6C, 1, 4, 0, 0, 0, 0, 0xFFFFFFFF, 0, 0, 0⟩,
   ⟨0x70, 1, 4, 0, 0xFFFFFFFF, 0, 0, 0, 0, 0, 0⟩,
   ⟨0x80, 16, 4, 0, 0xFFFFFFFF, 0, 0, 0, 0, 0, 0⟩,
   ⟨0xC0, 16, 4, 0, 0xFFFFFFFF, 0, 0, 0, 0, 0, 0⟩,
   ⟨0x100, 1, 4, 0xFFFFFFFF, 0, 0, 0, 0, 0, 0, 0xFFFFFFFF⟩,
   ⟨0x104, 1, 4, 0xFFFFFFFF, 0, 0, 0, 0, 0, 0, 0xFFFFFFFF⟩,
   ⟨0x108, 1, 4, 0xFFFFFFFF, 0, 0, 0, 0, 0, 0, 0xFFFFFFFF⟩,
   ⟨0x10C, 1, 4, 0xFFFFFFFF, 0, 0, 0, 0, 0, 0, 0xFFFFFFFF⟩,
   ⟨0x110, 1, 4, 0x1FF, 0, 0, 0, 0, 0, 0, 0⟩,
   ⟨0x114, 1, 4, 0xFFFFFFFF, 0, 0, 0, 0, 0, 0, 0xFFFFFFFF⟩,
   ⟨0x118, 1, 4, 0xFFFFFFFF, 0, 0, 0, 0, 0, 0, 0xFFFFFFFF⟩,
   ⟨0x11C, 1, 4, 0xFFFFFFFF, 0, 0, 0, 0, 0, 0, 0xFFFFFFFF⟩,
   ⟨0x180, 8, 4, 0, 0xFFFFFFFF, 0, 0, 0, 0, 0, 0⟩]

/-! Page type MMU. -/
abbrev R.MMU_SPACE_CFG : Nat := 0x040
abbrev R.MMU_SPACE_ROOT : Nat := 0x044
abbrev R.MMU_INVAL : Nat := 0x0C0
abbrev R.MMU_INVAL_VA : Nat := 0x0C4
abbrev R.MMU_INVAL_STAT : Nat := 0x0C8
abbrev R.MMU_HITS : Nat := 0x0D0
abbrev R.MMU_MISSES : Nat := 0x0E0
abbrev R.MMU_WALK_READS : Nat := 0x0F0
abbrev R.MMU_HRA_ADDR_LO : Nat := 0x100
abbrev R.MMU_HRA_ADDR_HI : Nat := 0x104
abbrev R.MMU_HRA_DATA : Nat := 0x108
abbrev R.MMU_HRA_CTL : Nat := 0x10C
abbrev R.MMU_AGENT_WP : Nat := 0x200
abbrev R.MMU_AGENT_REFUSED : Nat := 0x280

def mmuRows : List RegRow :=
  [⟨0x40, 16, 8, 0x1F, 0, 0, 0, 0, 0, 0, 0⟩,
   ⟨0x44, 16, 8, 0x7FFC00, 0, 0, 0, 0, 0, 0, 0⟩,
   ⟨0xC0, 1, 4, 0, 0, 0, 0, 0, 0xC000000F, 0, 0⟩,
   ⟨0xC4, 1, 4, 0xFFFFFFF, 0, 0, 0, 0, 0, 0, 0⟩,
   ⟨0xC8, 1, 4, 0, 0x1, 0, 0, 0, 0, 0, 0⟩,
   ⟨0xD0, 4, 4, 0xFFFFFFFF, 0, 0, 0, 0, 0, 0, 0xFFFFFFFF⟩,
   ⟨0xE0, 4, 4, 0xFFFFFFFF, 0, 0, 0, 0, 0, 0, 0xFFFFFFFF⟩,
   ⟨0xF0, 1, 4, 0xFFFFFFFF, 0, 0, 0, 0, 0, 0, 0xFFFFFFFF⟩,
   ⟨0x100, 1, 4, 0xFFFFFFFF, 0, 0, 0, 0, 0, 0, 0⟩,
   ⟨0x104, 1, 4, 0xFF, 0, 0, 0, 0, 0, 0, 0⟩,
   ⟨0x108, 1, 4, 0xFFFFFFFF, 0, 0, 0, 0, 0, 0, 0⟩,
   ⟨0x10C, 1, 4, 0xF0001, 0xFF000002, 0x4, 0x8, 0, 0, 0, 0⟩,
   ⟨0x200, 32, 4, 0xFFFFFFFF, 0, 0, 0, 0, 0, 0, 0⟩,
   ⟨0x280, 1, 4, 0, 0, 0, 0, 0xFFFFFFFF, 0, 0, 0⟩]

/-! Page type SCH0. -/
abbrev R.SCH0_CMD : Nat := 0x040
abbrev R.SCH0_CMD_STAT : Nat := 0x044
abbrev R.SCH0_SUSPEND_LIMIT : Nat := 0x048
abbrev R.SCH0_RUN_LIMIT : Nat := 0x04C
abbrev R.SCH0_DOORBELL_CREDITS : Nat := 0x050
abbrev R.SCH0_DOORBELL_DROPS : Nat := 0x054
abbrev R.SCH0_TASK_COUNTS : Nat := 0x058
abbrev R.SCH0_DISPATCHES : Nat := 0x060
abbrev R.SCH0_COMPLETES : Nat := 0x064
abbrev R.SCH0_PREEMPTS : Nat := 0x068
abbrev R.SCH0_LOST_READIES : Nat := 0x06C
abbrev R.SCH0_DEADLINE_MISSES : Nat := 0x070
abbrev R.SCH0_STRAY_MSGS : Nat := 0x074
abbrev R.SCH0_BLOCKED : Nat := 0x078
abbrev R.SCH0_LIMIT_HITS : Nat := 0x07C
abbrev R.SCH0_DISABLED_READIES : Nat := 0x080
abbrev R.SCH0_SNAP_SHADOW : Nat := 0x0E0
abbrev R.SCH0_DOORBELL : Nat := 0x200
abbrev R.SCH0_ENGINE : Nat := 0x400
abbrev R.SCH0_ENGINE_STAT : Nat := 0x800

def sch0Rows : List RegRow :=
  [⟨0x40, 1, 4, 0, 0, 0, 0, 0, 0xF0000FFF, 0, 0⟩,
   ⟨0x44, 1, 4, 0, 0xFF01FFFF, 0, 0, 0, 0, 0, 0⟩,
   ⟨0x48, 1, 4, 0xFFFFFF, 0, 0, 0, 0, 0, 0xFA0, 0⟩,
   ⟨0x4C, 1, 4, 0xFFFFFFFF, 0, 0, 0, 0, 0, 0, 0⟩,
   ⟨0x50, 1, 4, 0, 0x7F, 0, 0, 0, 0, 0x40, 0⟩,
   ⟨0x54, 1, 4, 0, 0, 0, 0, 0xFFFFFFFF, 0, 0, 0⟩,
   ⟨0x58, 1, 4, 0, 0x1FFF1FFF, 0, 0, 0, 0, 0, 0⟩,
   ⟨0x60, 1, 4, 0xFFFFFFFF, 0, 0, 0, 0, 0, 0, 0xFFFFFFFF⟩,
   ⟨0x64, 1, 4, 0xFFFFFFFF, 0, 0, 0, 0, 0, 0, 0xFFFFFFFF⟩,
   ⟨0x68, 1, 4, 0xFFFFFFFF, 0, 0, 0, 0, 0, 0, 0xFFFFFFFF⟩,
   ⟨0x6C, 1, 4, 0xFFFFFFFF, 0, 0, 0, 0, 0, 0, 0xFFFFFFFF⟩,
   ⟨0x70, 1, 4, 0xFFFFFFFF, 0, 0, 0, 0, 0, 0, 0xFFFFFFFF⟩,
   ⟨0x74, 1, 4, 0xFFFFFFFF, 0, 0, 0, 0, 0, 0, 0xFFFFFFFF⟩,
   ⟨0x78, 1, 4, 0xFFFFFFFF, 0, 0, 0, 0, 0, 0, 0xFFFFFFFF⟩,
   ⟨0x7C, 1, 4, 0xFFFFFFFF, 0, 0, 0, 0, 0, 0, 0xFFFFFFFF⟩,
   ⟨0x80, 1, 4, 0xFFFFFFFF, 0, 0, 0, 0, 0, 0, 0xFFFFFFFF⟩,
   ⟨0xE0, 9, 4, 0, 0xFFFFFFFF, 0, 0, 0, 0, 0, 0⟩,
   ⟨0x200, 64, 4, 0, 0, 0, 0, 0, 0xFFFFFFFF, 0, 0⟩,
   ⟨0x400, 256, 4, 0xFFFFFFFF, 0, 0, 0, 0, 0, 0, 0⟩,
   ⟨0x800, 256, 4, 0, 0x3F, 0, 0, 0, 0, 0, 0⟩]

/-! Page type SCH1. -/
abbrev R.SCH1_CTX_SEL : Nat := 0x040
abbrev R.SCH1_CTX_W : Nat := 0x080
abbrev R.SCH1_ARG_ADDR : Nat := 0x0C0
abbrev R.SCH1_ARG_DATA : Nat := 0x0C4
abbrev R.SCH1_SAVE_ADDR : Nat := 0x0C8
abbrev R.SCH1_SAVE_DATA : Nat := 0x0CC

def sch1Rows : List RegRow :=
  [⟨0x40, 1, 4, 0xFFF, 0, 0, 0, 0, 0, 0, 0⟩,
   ⟨0x80, 14, 4, 0xFFFFFFFF, 0, 0, 0, 0, 0, 0, 0⟩,
   ⟨0xC0, 1, 4, 0x3FFF, 0, 0, 0, 0, 0, 0, 0⟩,
   ⟨0xC4, 1, 4, 0xFFFFFFFF, 0, 0, 0, 0, 0, 0, 0⟩,
   ⟨0xC8, 1, 4, 0xFFFF, 0, 0, 0, 0, 0, 0, 0⟩,
   ⟨0xCC, 1, 4, 0, 0xFFFFFFFF, 0, 0, 0, 0, 0, 0⟩]

/-! Page type SCH2. -/
abbrev R.SCH2_BIND_SEL : Nat := 0x040
abbrev R.SCH2_BIND_DATA : Nat := 0x044
abbrev R.SCH2_UNBOUND_EVENTS : Nat := 0x048
abbrev R.SCH2_COALESCED : Nat := 0x04C
abbrev R.SCH2_STALL_CYCLES : Nat := 0x050
abbrev R.SCH2_STALL_CYCLES_SNAP : Nat := 0x054
abbrev R.SCH2_QSTAT : Nat := 0x080
abbrev R.SCH2_TM_AT_LO : Nat := 0x400
abbrev R.SCH2_TM_AT_HI : Nat := 0x404
abbrev R.SCH2_TM_PERIOD : Nat := 0x408
abbrev R.SCH2_TM_TCTL : Nat := 0x40C

def sch2Rows : List RegRow :=
  [⟨0x40, 1, 4, 0x3FF, 0, 0, 0, 0, 0, 0, 0⟩,
   ⟨0x44, 1, 4, 0xFFFFFFFF, 0, 0, 0, 0, 0, 0, 0⟩,
   ⟨0x48, 1, 4, 0, 0, 0, 0, 0xFFFFFFFF, 0, 0, 0⟩,
   ⟨0x4C, 1, 4, 0, 0, 0, 0, 0xFFFFFFFF, 0, 0, 0⟩,
   ⟨0x50, 1, 4, 0xFFFFFFFF, 0, 0, 0, 0, 0, 0, 0xFFFFFFFF⟩,
   ⟨0x54, 1, 4, 0, 0xFFFFFFFF, 0, 0, 0, 0, 0, 0⟩,
   ⟨0x80, 18, 4, 0, 0x7F, 0, 0, 0xFF00, 0, 0, 0⟩,
   ⟨0x400, 64, 16, 0xFFFFFFFF, 0, 0, 0, 0, 0, 0, 0⟩,
   ⟨0x404, 64, 16, 0xFFFFFFFF, 0, 0, 0, 0, 0, 0, 0⟩,
   ⟨0x408, 64, 16, 0xFFFFFFFF, 0, 0, 0, 0, 0, 0, 0⟩,
   ⟨0x40C, 64, 16, 0xFFFF0001, 0, 0, 0, 0, 0, 0, 0xFFFF0000⟩]

/-! Page type SCH3. -/
abbrev R.SCH3_TRACE_CTL : Nat := 0x040
abbrev R.SCH3_TRACE_WPTR : Nat := 0x044
abbrev R.SCH3_TRACE_TOTAL : Nat := 0x048
abbrev R.SCH3_SPILL_BANK : Nat := 0x04C
abbrev R.SCH3_SPILL_RANGE : Nat := 0x050
abbrev R.SCH3_SPILL_WPTR : Nat := 0x054
abbrev R.SCH3_SPILL_LOST : Nat := 0x058
abbrev R.SCH3_TRACE_SEL : Nat := 0x060
abbrev R.SCH3_TRACE_TIME : Nat := 0x064
abbrev R.SCH3_TRACE_INFO : Nat := 0x068

def sch3Rows : List RegRow :=
  [⟨0x40, 1, 4, 0x1FF0007, 0, 0, 0, 0, 0, 0x1FF0000, 0⟩,
   ⟨0x44, 1, 4, 0, 0x80001FFF, 0, 0, 0, 0, 0, 0⟩,
   ⟨0x48, 1, 4, 0xFFFFFFFF, 0, 0, 0, 0, 0, 0, 0xFFFFFFFF⟩,
   ⟨0x4C, 1, 4, 0x3FF, 0, 0, 0, 0, 0, 0, 0⟩,
   ⟨0x50, 1, 4, 0x3FFF1FFF, 0, 0, 0, 0, 0, 0, 0⟩,
   ⟨0x54, 1, 4, 0, 0x1FFF, 0, 0, 0, 0, 0, 0⟩,
   ⟨0x58, 1, 4, 0, 0, 0, 0, 0xFFFFFFFF, 0, 0, 0⟩,
   ⟨0x60, 1, 4, 0x1FFF, 0, 0, 0, 0, 0, 0, 0⟩,
   ⟨0x64, 1, 4, 0, 0xFFFFFFFF, 0, 0, 0, 0, 0, 0⟩,
   ⟨0x68, 1, 4, 0, 0xFFFFFFFF, 0, 0, 0, 0, 0, 0⟩]

/-! Page type DMA. -/
abbrev R.DMA_CTL : Nat := 0x040
abbrev R.DMA_STAT : Nat := 0x044
abbrev R.DMA_DESC : Nat := 0x050
abbrev R.DMA_SUBMIT : Nat := 0x070
abbrev R.DMA_CUR_ID : Nat := 0x074
abbrev R.DMA_CUR_DONE : Nat := 0x078
abbrev R.DMA_FAULT_INFO : Nat := 0x080
abbrev R.DMA_FAULT_ADDR_LO : Nat := 0x084
abbrev R.DMA_FAULT_ADDR_HI : Nat := 0x088
abbrev R.DMA_FAULT_NEXT : Nat := 0x08C
abbrev R.DMA_FAULT_TASK : Nat := 0x090
abbrev R.DMA_DONE_COUNT : Nat := 0x0A0
abbrev R.DMA_WORDS : Nat := 0x0A4
abbrev R.DMA_PREEMPTS : Nat := 0x0A8
abbrev R.DMA_SUBMIT_REFUSED : Nat := 0x0AC
abbrev R.DMA_DESC_WAIT : Nat := 0x0B0
abbrev R.DMA_SNAP_SHADOW : Nat := 0x0E0

def dmaRows : List RegRow :=
  [⟨0x40, 1, 4, 0x3F, 0, 0, 0xC0, 0, 0, 0, 0⟩,
   ⟨0x44, 1, 4, 0, 0xFF0F0007, 0, 0, 0, 0, 0, 0⟩,
   ⟨0x50, 8, 4, 0xFFFFFFFF, 0, 0, 0, 0, 0, 0, 0⟩,
   ⟨0x70, 1, 4, 0, 0, 0, 0, 0, 0x1, 0, 0⟩,
   ⟨0x74, 1, 4, 0, 0xFFFF, 0, 0, 0, 0, 0, 0⟩,
   ⟨0x78, 1, 4, 0, 0x3FFFFF, 0, 0, 0, 0, 0, 0⟩,
   ⟨0x80, 1, 4, 0, 0xFF03FFFF, 0, 0, 0, 0, 0, 0⟩,
   ⟨0x84, 1, 4, 0, 0xFFFFFFFF, 0, 0, 0, 0, 0, 0⟩,
   ⟨0x88, 1, 4, 0, 0x1FF, 0, 0, 0, 0, 0, 0⟩,
   ⟨0x8C, 1, 4, 0, 0x807FFFFF, 0, 0, 0, 0, 0, 0⟩,
   ⟨0x90, 1, 4, 0, 0x80000FFF, 0, 0, 0, 0, 0, 0⟩,
   ⟨0xA0, 1, 4, 0xFFFFFFFF, 0, 0, 0, 0, 0, 0, 0xFFFFFFFF⟩,
   ⟨0xA4, 1, 4, 0xFFFFFFFF, 0, 0, 0, 0, 0, 0, 0xFFFFFFFF⟩,
   ⟨0xA8, 1, 4, 0xFFFFFFFF, 0, 0, 0, 0, 0, 0, 0xFFFFFFFF⟩,
   ⟨0xAC, 1, 4, 0, 0, 0, 0, 0xFFFFFFFF, 0, 0, 0⟩,
   ⟨0xB0, 1, 4, 0xFFFFFFFF, 0, 0, 0, 0, 0, 0, 0xFFFFFFFF⟩,
   ⟨0xE0, 3, 4, 0, 0xFFFFFFFF, 0, 0, 0, 0, 0, 0⟩]

/-! Page type RING. -/
abbrev R.RING_STAT : Nat := 0x040
abbrev R.RING_HOP_DELAY : Nat := 0x044
abbrev R.RING_ENUMS : Nat := 0x048
abbrev R.RING_ABSENT : Nat := 0x04C
abbrev R.RING_WORDS_IN : Nat := 0x050
abbrev R.RING_WORDS_OUT : Nat := 0x054
abbrev R.RING_REPLAYS : Nat := 0x058
abbrev R.RING_LOCAL_WAITS : Nat := 0x05C
abbrev R.RING_SNAP_SHADOW : Nat := 0x060
abbrev R.RING_ROLLCALL_CTL : Nat := 0x080
abbrev R.RING_ROLLCALL_LIMIT : Nat := 0x084
abbrev R.RING_EXPECT : Nat := 0x090
abbrev R.RING_MAP : Nat := 0x0B0
abbrev R.RING_DEV_DIGEST : Nat := 0x100
abbrev R.RING_DIGEST_STAT : Nat := 0x120

def ringRows : List RegRow :=
  [⟨0x40, 1, 4, 0, 0xFFFFFF07, 0, 0, 0, 0, 0, 0⟩,
   ⟨0x44, 1, 4, 0, 0xFFFF, 0, 0, 0, 0, 0, 0⟩,
   ⟨0x48, 1, 4, 0, 0, 0, 0, 0xFFFFFFFF, 0, 0, 0⟩,
   ⟨0x4C, 1, 4, 0, 0, 0, 0, 0xFFFFFFFF, 0, 0, 0⟩,
   ⟨0x50, 1, 4, 0xFFFFFFFF, 0, 0, 0, 0, 0, 0, 0xFFFFFFFF⟩,
   ⟨0x54, 1, 4, 0xFFFFFFFF, 0, 0, 0, 0, 0, 0, 0xFFFFFFFF⟩,
   ⟨0x58, 1, 4, 0xFFFFFFFF, 0, 0, 0, 0, 0, 0, 0xFFFFFFFF⟩,
   ⟨0x5C, 1, 4, 0xFFFFFFFF, 0, 0, 0, 0, 0, 0, 0xFFFFFFFF⟩,
   ⟨0x60, 4, 4, 0, 0xFFFFFFFF, 0, 0, 0, 0, 0, 0⟩,
   ⟨0x80, 1, 4, 0, 0xFF000002, 0x4, 0x1, 0, 0, 0, 0⟩,
   ⟨0x84, 1, 4, 0xFFFFFFFF, 0, 0, 0, 0, 0, 0x64, 0⟩,
   ⟨0x90, 8, 4, 0xFFFFFFFF, 0, 0, 0, 0, 0, 0, 0⟩,
   ⟨0xB0, 8, 4, 0, 0xFFFFFFFF, 0, 0, 0, 0, 0, 0⟩,
   ⟨0x100, 8, 4, 0, 0xFFFFFFFF, 0, 0, 0, 0, 0, 0⟩,
   ⟨0x120, 1, 4, 0, 0x8000FFFF, 0, 0, 0, 0, 0, 0⟩]

/-! Page type PCIE. -/
abbrev R.PCIE_ID : Nat := 0x040
abbrev R.PCIE_LINK_STAT : Nat := 0x044
abbrev R.PCIE_RETRAINS : Nat := 0x048
abbrev R.PCIE_CORR_ERRS : Nat := 0x04C
abbrev R.PCIE_UNCORR_ERRS : Nat := 0x050
abbrev R.PCIE_MSIX_TABLE : Nat := 0x800
abbrev R.PCIE_MSIX_PBA : Nat := 0xC00

def pcieRows : List RegRow :=
  [⟨0x40, 1, 4, 0, 0xFFFFFFFF, 0, 0, 0, 0, 0x4B960000, 0⟩,
   ⟨0x44, 1, 4, 0, 0x3FFF, 0, 0, 0, 0, 0, 0⟩,
   ⟨0x48, 1, 4, 0, 0, 0, 0, 0xFFFFFFFF, 0, 0, 0⟩,
   ⟨0x4C, 1, 4, 0, 0, 0, 0, 0xFFFFFFFF, 0, 0, 0⟩,
   ⟨0x50, 1, 4, 0, 0, 0, 0, 0xFFFFFFFF, 0, 0, 0⟩,
   ⟨0x800, 256, 4, 0xFFFFFFFF, 0, 0, 0, 0, 0, 0, 0⟩,
   ⟨0xC00, 2, 4, 0, 0xFFFFFFFF, 0, 0, 0, 0, 0, 0⟩]

/-! Page type ETH. -/
abbrev R.ETH_STAT : Nat := 0x040
abbrev R.ETH_MAC_LO : Nat := 0x044
abbrev R.ETH_MAC_HI : Nat := 0x048
abbrev R.ETH_PTP_CTL : Nat := 0x04C
abbrev R.ETH_TX_TS_LO : Nat := 0x050
abbrev R.ETH_TX_TS_HI : Nat := 0x054
abbrev R.ETH_TX_TS_ID : Nat := 0x058
abbrev R.ETH_RX_TS_LO : Nat := 0x05C
abbrev R.ETH_RX_TS_HI : Nat := 0x060
abbrev R.ETH_RX_TS_ID : Nat := 0x064
abbrev R.ETH_FRAMES_TX : Nat := 0x070
abbrev R.ETH_FRAMES_RX : Nat := 0x074
abbrev R.ETH_FRAMES_ERR : Nat := 0x078

def ethRows : List RegRow :=
  [⟨0x40, 1, 4, 0, 0x7, 0, 0, 0, 0, 0, 0⟩,
   ⟨0x44, 1, 4, 0xFFFFFFFF, 0, 0, 0, 0, 0, 0, 0⟩,
   ⟨0x48, 1, 4, 0xFFFF, 0, 0, 0, 0, 0, 0, 0⟩,
   ⟨0x4C, 1, 4, 0x7, 0, 0, 0, 0, 0, 0, 0⟩,
   ⟨0x50, 1, 4, 0, 0xFFFFFFFF, 0, 0, 0, 0, 0, 0⟩,
   ⟨0x54, 1, 4, 0, 0xFFFFFFFF, 0, 0, 0, 0, 0, 0⟩,
   ⟨0x58, 1, 4, 0, 0xFFFF, 0, 0, 0, 0, 0, 0⟩,
   ⟨0x5C, 1, 4, 0, 0xFFFFFFFF, 0, 0, 0, 0, 0, 0⟩,
   ⟨0x60, 1, 4, 0, 0xFFFFFFFF, 0, 0, 0, 0, 0, 0⟩,
   ⟨0x64, 1, 4, 0, 0xFFFF, 0, 0, 0, 0, 0, 0⟩,
   ⟨0x70, 1, 4, 0xFFFFFFFF, 0, 0, 0, 0, 0, 0, 0xFFFFFFFF⟩,
   ⟨0x74, 1, 4, 0xFFFFFFFF, 0, 0, 0, 0, 0, 0, 0xFFFFFFFF⟩,
   ⟨0x78, 1, 4, 0, 0, 0, 0, 0xFFFFFFFF, 0, 0, 0⟩]

/-! Page type IOB. -/
abbrev R.IOB_HOLD : Nat := 0x040
abbrev R.IOB_HOLD_RELEASE : Nat := 0x044
abbrev R.IOB_BANK_STAT : Nat := 0x048
abbrev R.IOB_BANK_CFG : Nat := 0x04C
abbrev R.IOB_EVENTS : Nat := 0x050
abbrev R.IOB_CFG : Nat := 0x100
abbrev R.IOB_DLY : Nat := 0x200
abbrev R.IOB_TS : Nat := 0x300
abbrev R.IOB_DLY_STAT : Nat := 0x400

def iobRows : List RegRow :=
  [⟨0x40, 1, 4, 0, 0x1, 0, 0, 0, 0, 0, 0⟩,
   ⟨0x44, 1, 4, 0, 0, 0, 0, 0, 0x1, 0, 0⟩,
   ⟨0x48, 1, 4, 0, 0xFFFF0003, 0, 0, 0, 0, 0, 0⟩,
   ⟨0x4C, 1, 4, 0xF, 0, 0, 0, 0, 0, 0, 0⟩,
   ⟨0x50, 1, 4, 0xFFFFFFFF, 0, 0, 0, 0, 0, 0, 0xFFFFFFFF⟩,
   ⟨0x100, 64, 4, 0x1FFF, 0, 0, 0, 0, 0, 0, 0⟩,
   ⟨0x200, 64, 4, 0xFFFF, 0, 0, 0, 0, 0, 0, 0⟩,
   ⟨0x300, 64, 4, 0, 0xFFFFFFFF, 0, 0, 0, 0, 0, 0⟩,
   ⟨0x400, 64, 4, 0, 0xFFFF, 0, 0, 0, 0, 0, 0⟩]

/-! Page type RGN. -/
abbrev R.RGN_CTL : Nat := 0x040
abbrev R.RGN_GEOM : Nat := 0x044
abbrev R.RGN_RCLK_STAT : Nat := 0x048
abbrev R.RGN_CONTENTION_STAT : Nat := 0x050
abbrev R.RGN_CONTENTION_COUNT : Nat := 0x054
abbrev R.RGN_TAP_RETIRED : Nat := 0x060
abbrev R.RGN_TAP_STAT : Nat := 0x070
abbrev R.RGN_BIST_HALTED : Nat := 0x0C0
abbrev R.RGN_FAULT_HIST : Nat := 0x0E0
abbrev R.RGN_BG_SLICES : Nat := 0x0E4
abbrev R.RGN_BG_REGION_LAST : Nat := 0x0E8
abbrev R.RGN_BANK_EXCL : Nat := 0x100
abbrev R.RGN_BANK_MODE : Nat := 0x104
abbrev R.RGN_BANK_RETIRED : Nat := 0x108
abbrev R.RGN_BANK_REPAIR : Nat := 0x10C
abbrev R.RGN_REREAD_COUNT : Nat := 0x110
abbrev R.RGN_MIRROR_FIX_COUNT : Nat := 0x114
abbrev R.RGN_UNRECOV_COUNT : Nat := 0x118
abbrev R.RGN_UNRECOV_LAST : Nat := 0x11C
abbrev R.RGN_STEWARD_REFUSED : Nat := 0x120
abbrev R.RGN_STARVE_LIMIT : Nat := 0x124
abbrev R.RGN_STARVE_COUNT : Nat := 0x128
abbrev R.RGN_STARVE_LAST : Nat := 0x12C
abbrev R.RGN_RMW_RESTARTS : Nat := 0x130
abbrev R.RGN_ACC_SAT_STICKY : Nat := 0x200
abbrev R.RGN_OUT_SAT_STICKY : Nat := 0x204
abbrev R.RGN_PRE_SAT_STICKY : Nat := 0x208
abbrev R.RGN_FAULT_STICKY : Nat := 0x20C
abbrev R.RGN_RES_LOST_COUNT : Nat := 0x210
abbrev R.RGN_MAC_PEEK_SEL : Nat := 0x214
abbrev R.RGN_MAC_PEEK_DATA : Nat := 0x218
abbrev R.RGN_SW_STAT : Nat := 0x280
abbrev R.RGN_SW_STRAY : Nat := 0x284
abbrev R.RGN_SW_UNTERMINATED : Nat := 0x288
abbrev R.RGN_SW_ABSENT : Nat := 0x28C
abbrev R.RGN_TP_DISABLED : Nat := 0x290
abbrev R.RGN_SW_WORDS_UP : Nat := 0x2A0
abbrev R.RGN_SW_WORDS_DOWN : Nat := 0x2A4
abbrev R.RGN_SW_HEAD_WAITS : Nat := 0x2A8
abbrev R.RGN_SW_SNAP : Nat := 0x2C0
abbrev R.RGN_ACTIVE_SRC : Nat := 0x300
abbrev R.RGN_ACTIVE_ID : Nat := 0x304
abbrev R.RGN_STAGE_STAT : Nat := 0x308
abbrev R.RGN_STAGE_ID : Nat := 0x30C
abbrev R.RGN_STAGE_CTL : Nat := 0x310
abbrev R.RGN_SWAP_STATE : Nat := 0x314
abbrev R.RGN_SWAP_COUNT : Nat := 0x318
abbrev R.RGN_SWAP_ABORTS : Nat := 0x31C
abbrev R.RGN_DRAIN_LAST : Nat := 0x320
abbrev R.RGN_SQ_STAT : Nat := 0x324
abbrev R.RGN_SQ_DROPS : Nat := 0x328
abbrev R.RGN_DIGEST_LO : Nat := 0x330
abbrev R.RGN_DIGEST_HI : Nat := 0x334
abbrev R.RGN_DIGEST_STAT : Nat := 0x338
abbrev R.RGN_STAGE_DIGEST_LO : Nat := 0x33C
abbrev R.RGN_STAGE_DIGEST_HI : Nat := 0x340
abbrev R.RGN_SCRUB_FIXES : Nat := 0x344
abbrev R.RGN_SCRUB_LAST : Nat := 0x348
abbrev R.RGN_SCRUB_STAT : Nat := 0x34C
abbrev R.RGN_PARAM_STAT : Nat := 0x400
abbrev R.RGN_PARAM_GEN : Nat := 0x404
abbrev R.RGN_PARAM_REJECTS : Nat := 0x408
abbrev R.RGN_PARAM_LOST : Nat := 0x40C
abbrev R.RGN_HALTED : Nat := 0x410
abbrev R.RGN_HALT_CAUSE_LAST : Nat := 0x430
abbrev R.RGN_UNBOUND_WRITES : Nat := 0x434
abbrev R.RGN_PEEK_SEL : Nat := 0x438
abbrev R.RGN_PEEK_DATA : Nat := 0x43C
abbrev R.RGN_TILE_CNT : Nat := 0x500
abbrev R.RGN_TILE_CNT_SEL : Nat := 0x600
abbrev R.RGN_TILE_CNT_SNAP : Nat := 0x700

def rgnRows : List RegRow :=
  [⟨0x40, 1, 4, 0x1, 0, 0, 0, 0, 0, 0, 0⟩,
   ⟨0x44, 1, 4, 0, 0x77F, 0, 0, 0, 0, 0, 0⟩,
   ⟨0x48, 1, 4, 0, 0xFFFFFFFF, 0, 0, 0, 0, 0, 0⟩,
   ⟨0x50, 1, 4, 0, 0x3F0F, 0x80000000, 0, 0, 0, 0, 0⟩,
   ⟨0x54, 1, 4, 0, 0, 0, 0, 0xFFFFFFFF, 0, 0, 0⟩,
   ⟨0x60, 4, 4, 0, 0xFFFFFFFF, 0, 0, 0, 0, 0, 0⟩,
   ⟨0x70, 1, 4, 0, 0xFF, 0, 0, 0, 0, 0, 0⟩,
   ⟨0xC0, 8, 4, 0, 0xFFFFFFFF, 0, 0, 0, 0, 0, 0⟩,
   ⟨0xE0, 1, 4, 0, 0xFF000003, 0, 0, 0, 0, 0, 0⟩,
   ⟨0xE4, 1, 4, 0xFFFFFFFF, 0, 0, 0, 0, 0, 0, 0xFFFFFFFF⟩,
   ⟨0xE8, 1, 4, 0, 0xF00000FF, 0, 0, 0, 0, 0, 0⟩,
   ⟨0x100, 1, 4, 0xFFFF, 0, 0, 0, 0, 0, 0, 0⟩,
   ⟨0x104, 1, 4, 0, 0xFFFFFFFF, 0, 0, 0, 0, 0, 0⟩,
   ⟨0x108, 1, 4, 0, 0xFFFF, 0, 0, 0, 0, 0, 0⟩,
   ⟨0x10C, 1, 4, 0, 0xFFFFFFFF, 0, 0, 0, 0, 0, 0⟩,
   ⟨0x110, 1, 4, 0, 0, 0, 0, 0xFFFFFFFF, 0, 0, 0⟩,
   ⟨0x114, 1, 4, 0, 0, 0, 0, 0xFFFFFFFF, 0, 0, 0⟩,
   ⟨0x118, 1, 4, 0, 0, 0, 0, 0xFFFFFFFF, 0, 0, 0⟩,
   ⟨0x11C, 1, 4, 0, 0xFFFFFFFF, 0, 0, 0, 0, 0, 0⟩,
   ⟨0x120, 1, 4, 0, 0, 0, 0, 0xFFFFFFFF, 0, 0, 0⟩,
   ⟨0x124, 1, 4, 0xFFFF, 0, 0, 0, 0, 0, 0x1000, 0⟩,
   ⟨0x128, 1, 4, 0, 0, 0, 0, 0xFFFFFFFF, 0, 0, 0⟩,
   ⟨0x12C, 1, 4, 0, 0xFFFF000F, 0, 0, 0, 0, 0, 0⟩,
   ⟨0x130, 1, 4, 0, 0, 0, 0, 0xFFFFFFFF, 0, 0, 0⟩,
   ⟨0x200, 1, 4, 0, 0, 0xFFFFFFFF, 0, 0, 0, 0, 0⟩,
   ⟨0x204, 1, 4, 0, 0, 0xFFFFFFFF, 0, 0, 0, 0, 0⟩,
   ⟨0x208, 1, 4, 0, 0, 0xFFFFFFFF, 0, 0, 0, 0, 0⟩,
   ⟨0x20C, 1, 4, 0, 0, 0xFFFFFFFF, 0, 0, 0, 0, 0⟩,
   ⟨0x210, 1, 4, 0, 0, 0, 0, 0xFFFFFFFF, 0, 0, 0⟩,
   ⟨0x214, 1, 4, 0x71F, 0, 0, 0, 0, 0, 0, 0⟩] ++
  [⟨0x218, 1, 4, 0, 0xFFFFFFFF, 0, 0, 0, 0, 0, 0⟩,
   ⟨0x280, 1, 4, 0, 0xFFFFFFFF, 0, 0, 0, 0, 0, 0⟩,
   ⟨0x284, 1, 4, 0, 0, 0, 0, 0xFFFFFFFF, 0, 0, 0⟩,
   ⟨0x288, 1, 4, 0, 0, 0, 0, 0xFFFFFFFF, 0, 0, 0⟩,
   ⟨0x28C, 1, 4, 0, 0, 0, 0, 0xFFFFFFFF, 0, 0, 0⟩,
   ⟨0x290, 1, 4, 0, 0xFFFFFFFF, 0, 0, 0, 0, 0, 0⟩,
   ⟨0x2A0, 1, 4, 0xFFFFFFFF, 0, 0, 0, 0, 0, 0, 0xFFFFFFFF⟩,
   ⟨0x2A4, 1, 4, 0xFFFFFFFF, 0, 0, 0, 0, 0, 0, 0xFFFFFFFF⟩,
   ⟨0x2A8, 1, 4, 0xFFFFFFFF, 0, 0, 0, 0, 0, 0, 0xFFFFFFFF⟩,
   ⟨0x2C0, 3, 4, 0, 0xFFFFFFFF, 0, 0, 0, 0, 0, 0⟩,
   ⟨0x300, 1, 4, 0, 0x707, 0, 0, 0, 0, 0, 0⟩,
   ⟨0x304, 1, 4, 0, 0xFFFFFFFF, 0, 0, 0, 0, 0, 0⟩,
   ⟨0x308, 1, 4, 0, 0xE0FF0707, 0, 0, 0, 0, 0, 0⟩,
   ⟨0x30C, 1, 4, 0, 0xFFFFFFFF, 0, 0, 0, 0, 0, 0⟩,
   ⟨0x310, 1, 4, 0, 0, 0, 0, 0, 0x1, 0, 0⟩,
   ⟨0x314, 1, 4, 0, 0xFF000007, 0, 0, 0, 0, 0, 0⟩,
   ⟨0x318, 1, 4, 0xFFFFFFFF, 0, 0, 0, 0, 0, 0, 0xFFFFFFFF⟩,
   ⟨0x31C, 1, 4, 0xFFFFFFFF, 0, 0, 0, 0, 0, 0, 0xFFFFFFFF⟩,
   ⟨0x320, 1, 4, 0, 0xFFFFF, 0, 0, 0, 0, 0, 0⟩,
   ⟨0x324, 1, 4, 0, 0x3FF03FF, 0, 0, 0, 0, 0, 0⟩,
   ⟨0x328, 1, 4, 0, 0, 0, 0, 0xFFFFFFFF, 0, 0, 0⟩,
   ⟨0x330, 1, 4, 0, 0xFFFFFFFF, 0, 0, 0, 0, 0, 0⟩,
   ⟨0x334, 1, 4, 0, 0xFFFFFFFF, 0, 0, 0, 0, 0, 0⟩,
   ⟨0x338, 1, 4, 0, 0xC000FFFF, 0, 0, 0, 0, 0, 0⟩,
   ⟨0x33C, 1, 4, 0, 0xFFFFFFFF, 0, 0, 0, 0, 0, 0⟩,
   ⟨0x340, 1, 4, 0, 0xFFFFFFFF, 0, 0, 0, 0, 0, 0⟩,
   ⟨0x344, 1, 4, 0, 0, 0, 0, 0xFFFFFFFF, 0, 0, 0⟩,
   ⟨0x348, 1, 4, 0, 0xFFFFFFFF, 0, 0, 0, 0, 0, 0⟩,
   ⟨0x34C, 1, 4, 0, 0x8000FFFF, 0, 0, 0, 0, 0, 0⟩,
   ⟨0x400, 1, 4, 0, 0xFFF, 0, 0, 0, 0, 0, 0⟩] ++
  [⟨0x404, 1, 4, 0, 0xFFFFFFFF, 0, 0, 0, 0, 0, 0⟩,
   ⟨0x408, 1, 4, 0, 0, 0, 0, 0xFFFFFFFF, 0, 0, 0⟩,
   ⟨0x40C, 1, 4, 0, 0xFFFF07FF, 0, 0, 0, 0, 0, 0⟩,
   ⟨0x410, 8, 4, 0, 0xFFFFFFFF, 0, 0, 0, 0, 0, 0⟩,
   ⟨0x430, 1, 4, 0, 0xFF0000FF, 0, 0, 0, 0, 0, 0⟩,
   ⟨0x434, 1, 4, 0, 0, 0, 0, 0xFFFFFFFF, 0, 0, 0⟩,
   ⟨0x438, 1, 4, 0xFFF, 0, 0, 0, 0, 0, 0, 0⟩,
   ⟨0x43C, 1, 4, 0, 0xFFFFFFFF, 0, 0, 0, 0, 0, 0⟩,
   ⟨0x500, 64, 4, 0xFFFFFFFF, 0, 0, 0, 0, 0, 0, 0xFFFFFFFF⟩,
   ⟨0x600, 16, 4, 0xFFFFFFFF, 0, 0, 0, 0, 0, 0, 0⟩,
   ⟨0x700, 64, 4, 0, 0xFFFFFFFF, 0, 0, 0, 0, 0, 0⟩]

/-- The registers of a page type from offset 0x040 up. -/
def blockRows : PageKind → List RegRow
  | .dev => devRows
  | .rgn => rgnRows
  | .xb => xbRows
  | .sch0 => sch0Rows
  | .sch1 => sch1Rows
  | .sch2 => sch2Rows
  | .sch3 => sch3Rows
  | .mmu => mmuRows
  | .dma => dmaRows
  | .fox => foxRows
  | .csc => cscRows
  | .rst => rstRows
  | .cdf => cdfRows
  | .guard => guardRows
  | .upd => updRows
  | .pmu => pmuRows
  | .clk => clkRows
  | .iob => iobRows
  | .wpk => wpkRows
  | .ring => ringRows
  | .time => timeRows
  | .snap => snapRows
  | .owl => owlRows
  | .eth => ethRows
  | .pcie => pcieRows

/-- Does a row hold the register at a byte offset? -/
def RegRow.has (r : RegRow) (off : Nat) : Bool :=
  r.off ≤ off && (off - r.off) % r.stride == 0 && (off - r.off) / r.stride < r.count

/-- The register at a byte offset of a page, if the spec defines one (R49). -/
def regRow (p off : Nat) : Option RegRow :=
  (pageKind p).bind fun k => ((if off < 0x40 then commonRows else blockRows k).find? fun r => r.has off)

/-- Pages whose PAGE_CTL.ENABLE resets to 0 (Table 3.2c). -/
def enableResetsClear : PageKind → Bool
  | .dma => true | .eth => true | .owl => true | _ => false

/-- The stored reset value of a register: what an unlisted register of State.regs holds. -/
def regReset (p off : Nat) : Word :=
  if off = R.PAGE_CTL then
    match pageKind p with
    | some k => if enableResetsClear k then 0 else 1
    | none => 0
  else match regRow p off with
    | some r => r.rst
    | none => 0

/-- The low-word offsets of the 64-bit registers of a page type (R51). -/
def wideLow (k : PageKind) (off : Nat) : Bool :=
  match k with
  | .dev => off == R.DEV_SERIAL_LO
  | .xb => off == R.XB_WORDS_LO || off == R.XB_SNAP_SHADOW
  | .sch1 => off == R.SCH1_CTX_W + 12 || off == R.SCH1_CTX_W + 48
  | .sch2 => 0x400 ≤ off && off < 0x800 && (off - 0x400) % 16 == 0
  | .rgn => off == R.RGN_DIGEST_LO || off == R.RGN_STAGE_DIGEST_LO
  | .fox => [R.FOX_LOADING_LO, R.FOX_STAGED_LO, R.FOX_ARM_AT_LO, R.FOX_ARM_MASK_LO, R.FOX_ALLOW_HOST_LO,
      R.FOX_ALLOW_FABRIC_LO, R.FOX_FAULTY_LO].contains off
  | .guard => off == R.GUARD_KEY_LO || off == R.GUARD_NEW_PW_LO
  | .upd => [R.UPD_ACTIVE_MANIFEST_LO, R.UPD_OTHER_MANIFEST_LO, R.UPD_T_LO].contains off
  | .pmu => off == R.PMU_RETAIN_LO || off == R.PMU_RGN_ON_LO
  | .wpk => off == R.WPK_BG_REGIONS_LO
  | .time => off == R.TIME_NOW_LO
  | .snap => off == R.SNAP_AT_LO || off == R.SNAP_TAKEN_LO
  | .eth => [R.ETH_MAC_LO, R.ETH_TX_TS_LO, R.ETH_RX_TS_LO].contains off
  | .mmu => off == R.MMU_HRA_ADDR_LO
  | .dma => off == R.DMA_FAULT_ADDR_LO
  | _ => false

end Sys2Proof.Machine
end

