-- ==== Sys2Proof/Machine/Table.lean ====
section
/-! DEFINITION. Sparse tables (SMap) in canonical form, bit fields, tags, parity and modes as numbers. -/
namespace Sys2Proof.Machine

open Sys2Proof

/-! ## Sparse tables -/

/-- The entry of a key. -/
def tfind {α : Type} (m : SMap α) (k : Nat) : Option α :=
  match m with
  | [] => none
  | (a, v) :: r => if a = k then some v else tfind r k

/-- The entry of a key, or what an unlisted key reads as. -/
def tget {α : Type} (d : α) (m : SMap α) (k : Nat) : α :=
  (tfind m k).getD d

/-- Insert or replace an entry, keys rising. -/
def tins {α : Type} (k : Nat) (v : α) (m : SMap α) : SMap α :=
  match m with
  | [] => [(k, v)]
  | (a, x) :: r =>
    if k < a then (k, v) :: (a, x) :: r
    else if k = a then (k, v) :: r
    else (a, x) :: tins k v r

/-- Remove an entry. -/
def tdel {α : Type} (k : Nat) (m : SMap α) : SMap α :=
  m.filter fun e => e.1 != k

/-- Write an entry: a value equal to what an unlisted key reads as is not listed. -/
def tput {α : Type} [DecidableEq α] (d : α) (k : Nat) (v : α) (m : SMap α) : SMap α :=
  if v = d then tdel k m else tins k v m

/-- Remove every entry whose key lies in lo ≤ k < hi. -/
def tclear {α : Type} (lo hi : Nat) (m : SMap α) : SMap α :=
  m.filter fun e => ! (lo ≤ e.1 && e.1 < hi)

/-- Keys rise strictly. -/
def rising {α : Type} (m : SMap α) : Bool :=
  match m with
  | [] => true
  | (_, _) :: [] => true
  | (a, _) :: (b, y) :: r => a < b && rising ((b, y) :: r)

/-! ## Bit fields of a word -/

/-- Bits hi down to lo of a word, as a number. -/
def fld (hi lo : Nat) (w : Word) : Nat :=
  (w.toNat >>> lo) % 2 ^ (hi + 1 - lo)

/-- The word with bits hi down to lo replaced. -/
def setFld (hi lo : Nat) (v : Nat) (w : Word) : Word :=
  let m : Word := (BitVec.ofNat 32 (2 ^ (hi + 1 - lo) - 1)) <<< lo
  (w &&& ~~~ m) ||| ((BitVec.ofNat 32 v <<< lo) &&& m)

/-- Bit n of a word. -/
def bit (n : Nat) (w : Word) : Bool := w.getLsbD n

def b2n (b : Bool) : Nat := if b then 1 else 0

def setBit (n : Nat) (b : Bool) (w : Word) : Word := setFld n n (b2n b) w

/-- A word from a number. -/
def W (n : Nat) : Word := BitVec.ofNat 32 n

/-- The low and the high word of a 64-bit value. -/
def lo32 (v : BitVec 64) : Word := v.setWidth 32
def hi32 (v : BitVec 64) : Word := (v >>> 32).setWidth 32
def join64 (lo hi : Word) : BitVec 64 := hi ++ lo

/-- Bit n of a 64-bit region mask. -/
def inMask (m : BitVec 64) (n : Nat) : Bool := m.getLsbD n

def maskOf (l : List Nat) : BitVec 64 :=
  l.foldl (fun m n => m ||| (1#64 <<< n)) 0

/-- The regions of a mask, lowest first. -/
def maskList (m : BitVec 64) : List Nat :=
  (List.range 64).filter fun n => inMask m n

/-- A saturating 32-bit sum (R54). -/
def satAdd (w : Word) (n : Nat) : Word :=
  if w.toNat + n < 2 ^ 32 then W (w.toNat + n) else W (2 ^ 32 - 1)

/-- A saturating increment of the field hi down to lo (R54). -/
def satFld (hi lo : Nat) (w : Word) : Word :=
  let v := fld hi lo w
  if v + 1 < 2 ^ (hi + 1 - lo) then setFld hi lo (v + 1) w else w

/-! ## Tags and parity (R29–R31) -/

def Tag.code : Tag → Nat
  | .data => 0 | .head => 1 | .last => 2 | .stat => 3 | .null => 4 | .fault => 5 | .susp => 6 | .sync => 7

def tagOf (n : Nat) : Tag :=
  match n % 8 with
  | 0 => .data | 1 => .head | 2 => .last | 3 => .stat | 4 => .null | 5 => .fault | 6 => .susp | _ => .sync

/-- Exclusive or of the bits of a word. -/
def parity32 (w : Word) : Bool :=
  let a := w ^^^ (w >>> 16)
  let b := a ^^^ (a >>> 8)
  let c := b ^^^ (b >>> 4)
  let d := c ^^^ (c >>> 2)
  let e := d ^^^ (d >>> 1)
  e.getLsbD 0

def parityTag : Tag → Bool
  | .data => false | .head => true | .last => true | .stat => false
  | .null => true | .fault => false | .susp => false | .sync => true

/-- PAR of a word: even parity over bits [35:0] (R30). -/
def parOf (t : Tag) (d : Word) : Bool := xor (parity32 d) (parityTag t)

/-- A word with fresh parity (R30). -/
def tw (t : Tag) (d : Word) : TWord := ⟨d, t, parOf t d⟩

/-- Does the parity of a word check? -/
def parGood (w : TWord) : Bool := w.par == parOf w.tag w.data

/-- The word with its parity bit inverted: a word upset on its way. -/
def corrupt (w : TWord) : TWord := ⟨w.data, w.tag, !w.par⟩

/-- DATA 0 with valid parity: a cleared bank word or cell register. -/
def zeroWord : TWord := tw .data 0

/-- A NULL word has data zero (R32). -/
def nullWord : TWord := tw .null 0

/-- A FAULT word: code in [31:24], detail in [23:0] (R33). -/
def faultWord (code detail : Nat) : TWord := tw .fault (W (code * 2 ^ 24 + detail % 2 ^ 24))

/-- A HEAD word (Table 2.4). -/
def headWord (cls task len : Nat) : TWord := tw .head (W (cls * 2 ^ 24 + (task % 4096) * 4096 + len % 4096))

/-- A trailer (Table 2.5). -/
def trailer (status : Nat) : TWord := tw .last (W (status * 2 ^ 24))

/-- A message: HEAD, route word, payload, trailer (R39). -/
def message (cls task : Nat) (route : Word) (payload : List TWord) (status : Nat) : List TWord :=
  [headWord cls task payload.length, tw .data route] ++ payload ++ [trailer status]

/-! ## Error codes (Table 3.4) -/

abbrev E.NONE : Nat := 0x00
abbrev E.PARITY : Nat := 0x01
abbrev E.REPLAY_FAIL : Nat := 0x02
abbrev E.RETIRED : Nat := 0x03
abbrev E.ABSENT_TARGET : Nat := 0x04
abbrev E.FENCE_BREACH : Nat := 0x10
abbrev E.DIGEST_MISMATCH : Nat := 0x11
abbrev E.DRIVE_CONFLICT : Nat := 0x12
abbrev E.DRAIN_TIMEOUT : Nat := 0x13
abbrev E.AUTH_FAIL : Nat := 0x14
abbrev E.SELF_BANK : Nat := 0x20
abbrev E.BANK_BUSY : Nat := 0x21
abbrev E.GUARD_LOCKED : Nat := 0x22
abbrev E.PROG_FAIL : Nat := 0x23
abbrev E.ERASE_FAIL : Nat := 0x24
abbrev E.WEAR_WARN : Nat := 0x25
abbrev E.XLATE_FAULT : Nat := 0x30
abbrev E.PERM_FAULT : Nat := 0x31
abbrev E.ENTRY_REFUSED : Nat := 0x40
abbrev E.LEVEL_REFUSED : Nat := 0x41
abbrev E.BIST_FAIL : Nat := 0x50
abbrev E.BIST_INCOMPLETE : Nat := 0x51
abbrev E.ARM_TIMEOUT : Nat := 0x60
abbrev E.ROLL_FORWARD : Nat := 0x61
abbrev E.FALLBACK : Nat := 0x62
/-- The trailer status of an unterminated message, not an error code (R45, R64). -/
abbrev E.UNTERMINATED : Nat := 0xFF

/-! ## Modes and requesters -/

/-- The code of a mode (Table 1.5). -/
def modeCode : Mode → Nat
  | .off => 0 | .hold => 1 | .load => 2 | .selftest => 3 | .release => 4 | .run => 5 | .doze => 6
  | .sleep => 7 | .bear => 8 | .safe => 9 | .recovery => 10 | .scan => 11

/-- The code of a requester (Table 3.5b). -/
def rqCode : Requester → Nat
  | .host => 0 | .steward => 1 | .fabric => 2 | .ring => 3

def dirCode : Dir → Nat
  | .n => 0 | .e => 1 | .s => 2 | .w => 3

end Sys2Proof.Machine
end

