-- ==== Sys2Proof/Machine/Ops.lean ====
section
/-! DEFINITION. The named operations over the machine: one setter per component of State, the register
store, counters, errors, interrupts, page power and clock, operating modes. -/
namespace Sys2Proof.Machine

open Sys2Proof

/-! ## Setters, one per component -/

def setPending (x : List Instr) (s : State) : State := { s with pending := x }
def setDev (x : Dev) (s : State) : State := { s with dev := x }
def setRegs (x : SMap Word) (s : State) : State := { s with regs := x }
def setNet (x : SMap Channel) (s : State) : State := { s with net := x }
def setFab (x : Fabric) (s : State) : State := { s with fab := x }
def setMacs (x : SMap Mac) (s : State) : State := { s with macs := x }
def setLogic (x : Logic) (s : State) : State := { s with logic := x }
def setBanks (x : Banks) (s : State) : State := { s with banks := x }
def setSched (x : Sched) (s : State) : State := { s with sched := x }
def setDma (x : Dma) (s : State) : State := { s with dma := x }
def setRgns (x : SMap Rgn) (s : State) : State := { s with rgns := x }
def setPlanes (x : Planes) (s : State) : State := { s with planes := x }
def setFox (x : Fox) (s : State) : State := { s with fox := x }
def setStore (x : Store) (s : State) : State := { s with store := x }
def setFlash (x : Flash) (s : State) : State := { s with flash := x }
def setUpd (x : Upd) (s : State) : State := { s with upd := x }
def setPwr (x : Pwr) (s : State) : State := { s with pwr := x }
def setWpk (x : Wpk) (s : State) : State := { s with wpk := x }
def setRing (x : RingPort) (s : State) : State := { s with ring := x }
def setTime (x : TimeUnit) (s : State) : State := { s with time := x }
def setIo (x : Io) (s : State) : State := { s with io := x }
def setFree (x : Nat) (s : State) : State := { s with free := x }

/-! ## Register store -/

/-- The key of a register in State.regs. -/
def rkey (p off : Nat) : Nat := p * 1024 + off / 4

/-- The stored value of a register. -/
def rd (p off : Nat) (s : State) : Word := tget (regReset p off) s.regs (rkey p off)

/-- Store a register value. -/
def wr (p off : Nat) (v : Word) (s : State) : State :=
  setRegs (tput (regReset p off) (rkey p off) v s.regs) s

/-- Change a register value. -/
def md (p off : Nat) (f : Word → Word) (s : State) : State := wr p off (f (rd p off s)) s

/-- Read or write a field of a register. -/
def rdf (p off hi lo : Nat) (s : State) : Nat := fld hi lo (rd p off s)
def wrf (p off hi lo v : Nat) (s : State) : State := md p off (setFld hi lo v) s

/-- A 64-bit register at its low-word offset. -/
def rd64 (p off : Nat) (s : State) : BitVec 64 := join64 (rd p off s) (rd p (off + 4) s)
def wr64 (p off : Nat) (v : BitVec 64) (s : State) : State := wr p (off + 4) (hi32 v) (wr p off (lo32 v) s)

/-- Set or clear bit n of a bit array of registers. -/
def setArr (p off n : Nat) (b : Bool) (s : State) : State := md p (off + 4 * (n / 32)) (setBit (n % 32) b) s
def getArr (p off n : Nat) (s : State) : Bool := bit (n % 32) (rd p (off + 4 * (n / 32)) s)

/-- Pages on which PAGE_CTL.FREEZE is implemented (R117, R172, R224, R248, R409; assumption log 20). -/
def freezeImpl : PageKind → Bool
  | .xb | .sch0 | .dma | .ring | .rgn => true
  | _ => false

/-- Pages with counters in snapshot scope (Table 3.2b, R402). -/
def snapImpl (k : PageKind) : Bool := freezeImpl k || k == .sch2

/-- PAGE_CTL.FREEZE holds the page's event counters (Table 3.2c). -/
def frozen (p : Nat) (s : State) : Bool :=
  match pageKind p with
  | some k => freezeImpl k && bit 2 (rd p R.PAGE_CTL s)
  | none => false

/-- Add n to a 32-bit event counter, saturating (R54), unless the page's counters are frozen. -/
def countN (p off n : Nat) (s : State) : State :=
  if frozen p s then s else md p off (fun w => satAdd w n) s

def count (p off : Nat) (s : State) : State := countN p off 1 s

/-- Increment a counter field, saturating, unless frozen. -/
def countF (p off hi lo : Nat) (s : State) : State :=
  if frozen p s then s else md p off (satFld hi lo) s

/-- A 64-bit event counter. -/
def count64 (p off n : Nat) (s : State) : State :=
  if frozen p s then s
  else
    let v := (rd64 p off s).toNat + n
    wr64 p off (BitVec.ofNat 64 (if v < 2 ^ 64 then v else 2 ^ 64 - 1)) s

/-- PAGE_CTL.ENABLE: with 0 the block of the page takes no new work (Table 3.2c). -/
def takesWork (p : Nat) (s : State) : Bool := bit 0 (rd p R.PAGE_CTL s)

/-! ## Straps and modes -/

def strapBoot (s : State) : Nat := s.dev.straps.toNat % 4
def strapTest (s : State) : Nat := s.dev.straps.toNat / 4 % 4
def strapSafe (s : State) : Nat := s.dev.straps.toNat / 16 % 4
def strapOrder (s : State) : Nat := s.dev.straps.toNat / 64 % 4
def strapRing (s : State) : Nat := s.dev.straps.toNat / 256 % 4
/-- STRAP_HOST: true selects QSPI, false PCI Express. -/
def strapQspi (s : State) : Bool := s.dev.straps.getLsbD 10
def strapPl (s : State) : Nat := s.dev.straps.toNat / 4096 % 4
def strapSync (s : State) : Bool := s.dev.straps.getLsbD 14

def inMode (m : Mode) (s : State) : Bool := s.dev.mode == m

/-- Modes in which the steward runs from ROM and only the start-up pages are served (R68, R434). -/
def romModes (s : State) : Bool :=
  match s.dev.mode with
  | .hold | .load | .selftest => true
  | .release => !s.dev.rerun
  | .safe => !s.dev.safeFromRun
  | _ => false

/-! ## Page power and clock (Table 3.2d, R59, R352) -/

/-- The region of a page index. -/
def regionOfPage (p : Nat) : Nat := p - 0x100

/-- What an unlisted region holds: powered and blank. -/
def Rgn.blank : Rgn :=
  { power := .on, gsr := true, draining := false, drained := false, schReport := false, released := 0,
    resetWaiting := false, inHeld := 0, sq := [], rcStopped := 0, unreferenced := [], stageUnreferenced := [],
    frameTimes := [], scrubStaging := false, scrubCut := false }

def rgn (r : Nat) (s : State) : Rgn := tget Rgn.blank s.rgns r
def setRgn (r : Nat) (x : Rgn) (s : State) : State := setRgns (tput Rgn.blank r x s.rgns) s
def mdRgn (r : Nat) (f : Rgn → Rgn) (s : State) : State := setRgn r (f (rgn r s)) s

/-- The ISL island of a page, if it has one (R344). -/
def islandOf (k : PageKind) (p : Nat) : Option Nat :=
  match k with
  | .rgn => some (p - 0x100)
  | .xb => some 64
  | .sch0 | .sch1 | .sch2 | .sch3 => some 65
  | .dev | .clk | .time | .snap | .wpk | .guard | .cdf | .csc | .fox | .mmu | .dma | .eth => some 66
  | .iob => some (67 + (p - 0x050))
  | .owl => some 65
  | .pmu | .rst | .upd | .ring | .pcie => none

def alwaysOnPage : PageKind → Bool
  | .pmu | .rst => true
  | _ => false

/-- The clock byte of an island: divisor code 7 is STOP (R344). -/
def islandStopped (i : Nat) (s : State) : Bool := (tget (7 : Byte) s.pwr.now i).toNat % 8 == 7

/-- PAGE_STAT.POWER of a page: 0 ON, 1 GATED, 2 OFF, 3 RETIRED. With the QSPI host, quad TQ2 and its page are powered
down (R282, R424). -/
def pagePower (k : PageKind) (p : Nat) (s : State) : Nat :=
  if alwaysOnPage k then 0
  else match s.dev.mode with
    | .off | .bear => 2
    | .sleep => if k = .rgn ∧ (rgn (regionOfPage p) s).power = .off then 2
        else if k = .rgn ∧ (rgn (regionOfPage p) s).power = .retired then 3 else 1
    | _ =>
      if k = .rgn then
        match (rgn (regionOfPage p) s).power with
        | .on => 0 | .gated => 1 | .off => 2 | .retired => 3
      else if k = .pcie ∧ strapQspi s = true then 2
      else 0

/-- PAGE_STAT.CLOCK of a page: 0 RUN, 1 STOPPED, 2 HARE (R344, R352, R355, R434). -/
def pageClock (k : PageKind) (p : Nat) (s : State) : Nat :=
  if alwaysOnPage k then 0
  else if pagePower k p s ≠ 0 then 1
  else if s.pwr.hare then 2
  else if s.dev.mode = .safe ∧ k = .rgn then 1
  else if s.dev.mode = .doze ∧ (k = .rgn ∨ k = .iob ∨ k = .upd ∨ k = .xb ∨ k = .sch0 ∨ k = .sch1 ∨ k = .sch2
      ∨ k = .sch3 ∨ k = .owl) then 1
  else match islandOf k p with
    | some i => if islandStopped i s then 1 else 0
    | none => 0

/-- The pages that a mode serves (R434). -/
def pageServed (k : PageKind) (s : State) : Bool :=
  if s.dev.mode = .off ∨ s.dev.mode = .scan then false
  else if s.dev.mode = .recovery then
    match k with
    | .dev | .rst | .cdf | .upd | .pcie => true
    | _ => false
  else if romModes s then
    match k with
    | .dev | .rst | .wpk | .cdf | .upd | .pcie => true
    | _ => false
  else true

/-- A page that behaves as a page whose block is off (R59, R434). -/
def pageOff (p : Nat) (s : State) : Bool :=
  match pageKind p with
  | some k => !pageServed k s || pagePower k p s != 0 || pageClock k p s == 1
  | none => false

/-! ## Interrupts (R61–R63) -/

/-- (IRQ_PEND AND IRQ_EN) of a page; a page that is off raises none (R60). -/
def irqActive (p : Nat) (s : State) : Word :=
  if pageOff p s then 0 else rd p R.IRQ_PEND s &&& rd p R.IRQ_EN s

/-- The host vector to which a page's interrupt goes, if it goes to the host. -/
def irqVector (p : Nat) (s : State) : Option Nat :=
  let r := rd p R.IRQ_ROUTE s
  if bit 8 r then none else some (fld 5 0 r)

/-- The pages whose IRQ_PEND is not zero: those for which the register store lists it. -/
def pendPages (s : State) : List Nat :=
  s.regs.filterMap fun e => if e.1 % 1024 = R.IRQ_PEND / 4 then some (e.1 / 1024) else none

/-- Bit v of DEV.IRQ_VEC_PEND (R61). -/
def vecPend (v : Nat) (s : State) : Bool :=
  (pendPages s).any fun p => irqVector p s == some v && irqActive p s != 0

/-- The interrupt signal of the QSPI host port: asserted while any bit of DEV.IRQ_VEC_PEND is 1 (R62). -/
def qspiInterrupt (s : State) : Bool :=
  strapQspi s && (pendPages s).any fun p => (irqVector p s).isSome && irqActive p s != 0

/-- Line p of the steward's interrupt controller: the interrupt of page p where it is routed to the steward (R63). It is
held while the steward hands over to other firmware (R330). -/
def stewardLine (p : Nat) (s : State) : Bool := !s.upd.handoverDue && irqVector p s == none && irqActive p s != 0

/-- Send the MSI-X message of vector v, or hold it pending while the vector or the function is masked (R61); none over
QSPI (R62). PRESUMED (assumption log 14): while the host has not enabled MSI-X it is held as under the function mask. -/
def msixSend (v : Nat) (s : State) : State :=
  if strapQspi s then s
  else if !s.io.msixEnable || s.io.msixMask || bit 0 (rd P.PCIE (R.PCIE_MSIX_TABLE + 16 * v + 12) s) then
    setArr P.PCIE R.PCIE_MSIX_PBA v true s
  else setIo { s.io with msixSent := s.io.msixSent ++ [v] } s

/-- Apply a change of a page's interrupt registers and send the message R61 asks for: when the vector's
bit rises, and with `always` whenever it is left at 1. DESIGN CHOICE (assumption log 113): a write of IRQ_ROUTE that
moves a pending page to another vector sends the message of the new vector alone. -/
def irqChange (p : Nat) (always : Bool) (f : State → State) (s : State) : State :=
  let t := f s
  match irqVector p t with
  | none => t
  | some v => if vecPend v t && (always || !vecPend v s) then msixSend v t else t

/-- Pages have returned: the message of each vector whose bit has risen since s (R60, R61). -/
def irqRise (s t : State) : State :=
  (List.range 64).foldl (fun u v => if vecPend v t && !vecPend v s then msixSend v u else u) t

/-- Set IRQ_PEND bit b of a page. -/
def irq (p b : Nat) (s : State) : State :=
  irqChange p false (md p R.IRQ_PEND (setBit b true)) s

/-! ## Errors (R57) -/

/-- An event that only counts in ERR_COUNT: a transient. -/
def errTransient (p : Nat) (s : State) : State := md p R.ERR_COUNT (fun w => satAdd w 1) s

/-- An error of a page (R57), with the address involved (40 bits, 0 if none applies). -/
def err (p code detail addr : Nat) (s : State) : State :=
  let t := errTransient p s
  if bit 4 (rd p R.PAGE_STAT t) then t
  else
    t |> wr p R.ERR_FIRST (W (code * 2 ^ 24 + detail % 2 ^ 24))
      |> wr p R.ERR_ADDR (W addr)
      |> wr p R.PAGE_STAT (setFld 15 8 (addr / 2 ^ 32) (setBit 4 true (rd p R.PAGE_STAT t)))
      |> irq p 31

/-- Clear the error records of a page (R57, Table 3.2d). -/
def errClearRegs (p : Nat) (s : State) : State :=
  s |> wr p R.PAGE_STAT (setFld 15 8 0 (setBit 4 false (rd p R.PAGE_STAT s)))
    |> wr p R.ERR_FIRST 0 |> wr p R.ERR_COUNT 0 |> wr p R.ERR_ADDR 0

/-- DEV.RETIRE_LAST (R60). -/
def retireLast (p code : Nat) (s : State) : State :=
  s |> wr P.DEV R.DEV_RETIRE_LAST (W (code * 2 ^ 24 + p)) |> irq P.DEV 5

/-- An access to a page whose block is off is counted (R59). -/
def offAccess (rq : Requester) (p off : Nat) (write : Bool) (s : State) : State :=
  s |> count P.DEV R.DEV_OFF_ACCESS_COUNT
    |> wr P.DEV R.DEV_OFF_ACCESS_LAST (W (p + 2 ^ 14 * b2n write + 2 ^ 16 * rqCode rq + 2 ^ 18 * (off / 4)))
    |> irq P.DEV 3

/-- A malformed message is discarded (R42, R48). -/
def malformed (origin : Word) (s : State) : State :=
  s |> count P.DEV R.DEV_MSG_MALFORMED |> wr P.DEV R.DEV_MSG_MALFORMED_ORIGIN origin |> irq P.DEV 4

/-! ## Free values -/

/-- Draw a value that the spec leaves open. -/
def freeVal (s : State) : Word := Config.freeWord s.free
def drawn (s : State) : State := setFree (s.free + 1) s

/-! ## Operating modes (R22, R23) -/

/-- Enter a mode: PREVIOUS keeps the code of the one left, and DEV's interrupt source 2 sets. -/
def enterMode (m : Mode) (s : State) : State :=
  if s.dev.mode = m then s
  else
    s |> setDev { s.dev with mode := m, previous := BitVec.ofNat 4 (modeCode s.dev.mode) }
      |> irqRise s |> irq P.DEV 2

/-- Sources of LAST_IGNORED (Table 3.5c). -/
abbrev Ev.RST_N : Nat := 1
abbrev Ev.HOST_SOFT_RESET : Nat := 2
abbrev Ev.WATCHDOG : Nat := 3
abbrev Ev.RING_RESET : Nat := 4
abbrev Ev.ENTER_SAFE : Nat := 5
abbrev Ev.ROLL_FORWARD : Nat := 6
abbrev Ev.WAKE : Nat := 7
abbrev Ev.PMU_ENTER : Nat := 8
abbrev Ev.CONTINUE : Nat := 9
abbrev Ev.REBOOT : Nat := 0xA
abbrev Ev.SCAN : Nat := 0xB
abbrev Ev.RING_FALLBACK : Nat := 0xC

/-- An event not listed for the current mode: counted, its source recorded (R23). -/
def ignored (src : Nat) (s : State) : State :=
  md P.DEV R.DEV_MODE (fun w => setFld 11 8 src (satFld 31 16 w)) s

/-- A sleep entry is past its acceptance: blocks start no new work and refuse with ENTRY_REFUSED (R357). -/
def entering (s : State) : Bool := s.pwr.entering.isSome

/-! ## Background self-test slices (R378–R385) -/

/-- Crossbar port p is under a port slice: it carries only test words (R380). -/
def portUnderSlice (p : Nat) (s : State) : Bool :=
  match s.wpk.bg with
  | some b => b.cls == 2 && b.block == p
  | none => false

/-- The region of the block under a slice; a spare port has none. -/
def sliceRegion (b : BgSlice) : Option Nat :=
  match b.cls with
  | 0 => some (b.block / 16)
  | 1 => some (b.block / 256)
  | _ => if b.block < 512 then some (b.block / 8) else none

/-- The local number of that block in its region. -/
def sliceLocal (b : BgSlice) : Nat :=
  match b.cls with
  | 0 => b.block % 16
  | 1 => b.block % 256
  | _ => b.block % 8

/-- A slice ends with a verdict (1 PASS, 2 FAIL, 3 INCOMPLETE): the counters of WPK and of the region. -/
def sliceCounted (b : BgSlice) (verdict : Nat) (s : State) : State :=
  let t := count P.WPK (match verdict with
    | 1 => R.WPK_BG_PASSES
    | 2 => R.WPK_BG_FAILS
    | _ => R.WPK_BG_INCOMPLETE) s
  match sliceRegion b with
  | some r => t |> count (P.RGN r) R.RGN_BG_SLICES
                |> wr (P.RGN r) R.RGN_BG_REGION_LAST (W (verdict * 2 ^ 30 + b.cls * 2 ^ 28 + sliceLocal b))
  | none => t

/-- No slice is in progress. -/
def sliceOver (s : State) : State :=
  s |> setWpk { s.wpk with bg := none } |> wrf P.WPK R.WPK_BG_STAT 31 31 0

/-- The slice in progress is abandoned, INCOMPLETE, where its block is one of those named (R370, R382). -/
def abandonSlice (p : BgSlice → Bool) (s : State) : State :=
  match s.wpk.bg with
  | some b => if p b then s |> sliceCounted b 3 |> sliceOver else s
  | none => s

def ringTime (s : State) : BitVec 64 := s.time.ringTime
def ringLo (s : State) : Word := lo32 s.time.ringTime


end Sys2Proof.Machine
end

