-- ==== Sys2Proof/Machine/Net.lean ====
section
/-! DEFINITION. Word channels: crossings, elastic buffers, retention, replay, retirement (R11–R16,
R35–R38), and the two switching stages: region switch and crossbar (R43–R47, R149–R167). -/
namespace Sys2Proof.Machine

open Sys2Proof

/-! ## Channels -/

/-- The key of a channel in State.net. -/
def chanKey : ChanId → Nat
  | .portUp p => p.val
  | .portDown p => 1000 + p.val
  | .svcUp k => 2000 + k.val
  | .svcDown k => 2100 + k.val
  | .tpOut j => 4096 + j.val
  | .tpIn j => 8192 + j.val
  | .mesh c d => 16384 + c.val * 4 + dirCode d
  | .paramUnit r => 90000 + r.val
  | .squirrel r => 91000 + r.val
  | .foxTapUp r => 92000 + r.val
  | .foxTapDown r => 92100 + r.val
  | .ringIn => 93000
  | .ringOut => 93001

/-- Credits of a free channel: 2 on a mesh link (R73, R160), 512 on a ring segment (R389), else 16 (R11). -/
def creditsOf : ChanId → Nat
  | .mesh _ _ => 2
  | .ringIn | .ringOut => 512
  | _ => 16

def Channel.free (n : Nat) : Channel :=
  { credits := n, sendq := [], flight := [], retained := [], buffer := [], gathered := [], inMsg := false, owed := 0,
    rejecting := false, fails := 0, verdicts := [], retired := false, fenced := false, route := none,
    routeWord := 0, headWord := 0, headSent := false, holder := none, waiting := [], served := 0, gen := [],
    marks := [], mark := none, creditWait := false }

def chan (c : ChanId) (s : State) : Channel := tget (Channel.free (creditsOf c)) s.net (chanKey c)
def setChan (c : ChanId) (x : Channel) (s : State) : State :=
  setNet (tput (Channel.free (creditsOf c)) (chanKey c) x s.net) s
def mdChan (c : ChanId) (f : Channel → Channel) (s : State) : State := setChan c (f (chan c s)) s

/-- Receivers that take words out of their buffer as they come and assemble messages: the services, and the Fox port
behind a Fox tap. -/
def gathers : ChanId → Bool
  | .svcDown _ | .foxTapUp _ => true
  | _ => false

/-- Places inside a switch that take every word handed to them: the parameter unit and the Squirrel buffer. -/
def inSwitch : ChanId → Bool
  | .paramUnit _ | .squirrel _ => true
  | _ => false

/-- Channel indices from numbers. -/
def portId (n : Nat) : PortId := Fin.ofNat 512 n
def tpId (n : Nat) : Fin 2048 := Fin.ofNat 2048 n
def svcId (n : Nat) : Fin 7 := Fin.ofNat 7 n
def regionId (n : Nat) : RegionId := Fin.ofNat 64 n

/-- The region of tile port index j = 2t + port, and the index of the tile port in its region. -/
def tpRegion (j : Nat) : Nat := j / 32
def tpLocal (j : Nat) : Nat := j % 32

/-- The page in which a channel's checks are counted: the receiving block, and XB for attachments
(R36, R167). -/
def chanPage : ChanId → Nat
  | .portUp _ => P.XB
  | .portDown p => P.RGN (p.val / 8)
  | .svcUp _ | .svcDown _ => P.XB
  | .tpOut j => P.RGN (j.val / 32)
  | .tpIn j => P.RGN (j.val / 32)
  | .mesh c _ => P.RGN (c.val / 256)
  | .paramUnit r => P.RGN r.val
  | .squirrel r => P.RGN r.val
  | .foxTapUp _ => P.FOX
  | .foxTapDown r => P.RGN r.val
  | .ringIn | .ringOut => P.RING

/-- The FAULT detail of a channel (R33, R92, R165–R167). DESIGN CHOICE (assumption log 102): R33 lists no kind for the
crossing of a Fox tap; it is given kind 0 with the region as its index. -/
def chanDetail : ChanId → Nat
  | .portUp p | .portDown p => p.val
  | .svcUp k | .svcDown k => 512 + k.val
  | .tpOut j => 5 * 2 ^ 20 + (j.val / 2) * 4 + (j.val % 2) * 2
  | .tpIn j => 5 * 2 ^ 20 + (j.val / 2) * 4 + (j.val % 2) * 2 + 1
  | .mesh c d => 3 * 2 ^ 20 + c.val * 4 + dirCode d
  | .paramUnit r => r.val
  | .squirrel r => r.val
  | .foxTapUp r | .foxTapDown r => r.val
  | .ringIn => 2 * 2 ^ 20
  | .ringOut => 2 * 2 ^ 20 + 4

/-- Add n events of a code to the tile counters that select it (R134). -/
def tileEventN (t code n : Nat) (s : State) : State :=
  let pg := P.RGN (t / 16)
  let sel := rd pg (R.RGN_TILE_CNT_SEL + 4 * (t % 16)) s
  (List.range 4).foldl (fun s k =>
    if fld (8 * k + 7) (8 * k) sel = code then countN pg (R.RGN_TILE_CNT + 16 * (t % 16) + 4 * k) n s else s) s
def tileEvent (t code : Nat) (s : State) : State := tileEventN t code 1 s

/-- Count launched words where a register counts them (Tables 7.9, 7.10, 17.4). -/
def countLaunched (c : ChanId) (n : Nat) (s : State) : State :=
  if n = 0 then s
  else match c with
    | .portUp p => countN (P.RGN (p.val / 8)) R.RGN_SW_WORDS_UP n s
    | .portDown p =>
      let t := count64 P.XB R.XB_WORDS_LO n s
      if rdf P.XB R.XB_MON_SEL 8 0 s = p.val then countN P.XB R.XB_MON_OUT n t else t
    | .svcDown _ => count64 P.XB R.XB_WORDS_LO n s
    | .ringOut => countN P.RING R.RING_WORDS_OUT n s
    | _ => s

/-- How many words the sender can launch now: credits, and at most 4 unverified words (R11, R35). -/
def canLaunch (c : Channel) : Nat := min c.credits (4 - c.retained.length)

/-- HEADs among words. -/
def heads (ws : List TWord) : Nat := (ws.filter fun w => w.tag == .head).length

/-- A channel of a crossbar port, whose HEADs carry a mark (R41). -/
def isPort : ChanId → Bool
  | .portUp _ => true
  | .portDown _ => true
  | _ => false

/-- Channels whose HEADs carry a mark: those of the crossbar ports, and the parameter units (R41, R95). -/
def isMarked : ChanId → Bool
  | .paramUnit _ => true
  | c => isPort c

/-- A crossbar port retired with no spare (R166). -/
def portAbsent (p : Nat) (s : State) : Bool := getArr P.XB R.XB_PORT_ABSENT p s

/-- A retired channel of a port whose remap is still to come: what its sender holds waits (R166). -/
def awaitsSpare (c : ChanId) (s : State) : Bool :=
  (chan c s).retired && (match c with
    | .portUp p => !portAbsent p.val s
    | .portDown p => !portAbsent p.val s
    | _ => false)

/-- Launch what can be launched. A fenced or retired channel discards its words (R16, R38); a sink
inside the switch takes them directly. -/
def pump (c : ChanId) (s : State) : State :=
  let x := chan c s
  if x.sendq = [] then s
  else if !x.fenced && awaitsSpare c s then s
  else if x.fenced || x.retired then setChan c { x with sendq := [], marks := x.marks.take (heads x.buffer) } s
  else match c with
    | .paramUnit _ | .squirrel _ => setChan c { x with sendq := [], gathered := x.gathered ++ x.sendq } s
    | _ =>
      let n := min (canLaunch x) x.sendq.length
      if n = 0 then s
      else
        let ws := x.sendq.take n
        s |> setChan c { x with sendq := x.sendq.drop n, credits := x.credits - n,
                                flight := x.flight ++ ws.map (fun w => (w, false)),
                                retained := x.retained ++ ws }
          |> countLaunched c n

/-- Put words at the sender of a channel; a HEAD among them carries a mark on a port's channel. -/
def sendAs (m : Option Word) (c : ChanId) (ws : List TWord) (s : State) : State :=
  let ms := if isMarked c then List.replicate (heads ws) m else []
  pump c (mdChan c (fun x => { x with sendq := x.sendq ++ ws, marks := x.marks ++ ms }) s)
def send (c : ChanId) (ws : List TWord) (s : State) : State := sendAs none c ws s

/-- A stage-generated message: it waits until no message holds the output (R43), and for the remap of a
retired port (R166). -/
def sendGen (m : Option Word) (c : ChanId) (ws : List TWord) (s : State) : State :=
  let x := chan c s
  if x.fenced || (x.retired && !awaitsSpare c s) then s
  else if x.holder = none ∧ x.retired = false then sendAs m c ws s
  else setChan c { x with gen := x.gen ++ [(m, ws)] } s

/-- The output is released by the trailer of the message that held it. -/
def release (c : ChanId) (s : State) : State :=
  let x := chan c s
  x.gen.foldl (fun s g => sendAs g.1 c g.2 s) (setChan c { x with holder := none, gen := [] } s)

/-- Without the word at the front of the buffer; a HEAD takes its mark with it. -/
def Channel.popped (x : Channel) : Channel :=
  let y := { x with buffer := x.buffer.tail, owed := x.owed + 1 }
  match (x.buffer.head?.map TWord.tag : Option Tag) with
  | some .head => { y with inMsg := true, mark := x.marks.head?.join, marks := x.marks.tail }
  | some .last => { y with inMsg := false }
  | _ => y

/-- The receiver takes the word at the front of the buffer; its credit starts back (R11). -/
def popBuffer (c : ChanId) (s : State) : State := mdChan c Channel.popped s

/-! ## Messages at a sink -/

/-- A message as received. -/
structure Msg where
  head : Word
  route : Word
  payload : List TWord
  status : Nat
  deriving DecidableEq, Repr

def Msg.cls (m : Msg) : Nat := fld 31 24 m.head
def Msg.task (m : Msg) : Nat := fld 23 12 m.head
def Msg.len (m : Msg) : Nat := fld 11 0 m.head

/-- The words up to the first trailer, and the rest. -/
def splitLast : List TWord → Option (List TWord × TWord × List TWord)
  | [] => none
  | w :: r =>
    if w.tag = .last then some ([], w, r)
    else match splitLast r with
      | some (a, t, b) => some (w :: a, t, b)
      | none => none

/-- The first whole message of a word list that begins with a HEAD, and the words after it. -/
def firstMsg (ws : List TWord) : Option (Msg × List TWord) :=
  match splitLast ws with
  | some (h :: rt :: pl, t, rest) => some (⟨h.data, rt.data, pl, fld 31 24 t.data⟩, rest)
  | some (_, _, rest) => some (⟨0, 0, [], E.UNTERMINATED⟩, rest)
  | none => none

/-- The message at the front of what a receiver has taken. -/
def sinkMsg (c : ChanId) (s : State) : Option Msg := ((firstMsg (chan c s).gathered)).map (·.1)

/-- What a receiver holds with one more word: a HEAD opens a message, and what stood open before it had no trailer
(R31); outside a message any other word is discarded. -/
def gather (ws : List TWord) (w : TWord) : List TWord :=
  if w.tag = .head then [w] else if ws = [] then [] else ws ++ [w]

/-- A REMOTE_WR of posts to service 0x00 that is being received (R208), from the words taken so far: the queue that
the post now due would enter, its index, and whether the HEAD's LENGTH still has it. Such a message's words are consumed
one at a time from its address on; one whose indices would pass 63 is none. -/
def postOpen (ws : List TWord) : Option (Nat × Nat × Bool) :=
  match ws with
  | h :: rt :: ad :: posted =>
    let a := fld 29 0 ad.data
    let i := (a - 0x10000) / 4
    let n := fld 11 0 h.data - 1
    let dataWord : Bool := ad.tag != .stat && ad.tag != .null && ad.tag != .fault
    if (splitLast ws).isNone ∧ fld 31 24 h.data = 0x21 ∧ dataWord ∧ a % 4 = 0 ∧ 0x10000 ≤ a ∧ a < 0x10100 ∧ 0 < n ∧
        i + n ≤ 64 then
      some (if fld 31 30 rt.data = 2 then 15 else 14, i + posted.length, posted.length < n)
    else none
  | _ => none

/-- A REMOTE_WR of image words to the Fox port that is being received (R259), from the words taken so far. Its words go
to STREAM_DATA one at a time; one of no or more than 256 words is none. -/
def streamOpen (ws : List TWord) : Bool :=
  match ws with
  | h :: _ :: ad :: _ =>
    let n := fld 11 0 h.data - 1
    (splitLast ws).isNone && fld 31 24 h.data == 0x21 && fld 29 0 ad.data == 0x10000 && ad.tag != .stat &&
      ad.tag != .null && ad.tag != .fault && 0 < n && n ≤ 256
  | _ => false

/-- The Fox port receives on a channel: at service 0x02 or from a Fox tap (R259). -/
def isFoxIn : ChanId → Bool
  | .svcDown k => k == 2
  | .foxTapUp _ => true
  | _ => false

/-- The receiver at a channel takes no further word for now: a whole message waits there, or words are consumed from it
one by one (R208, R259). -/
def receiverHolds (c : ChanId) (s : State) : Bool :=
  let ws := (chan c s).gathered
  (splitLast ws).isSome || (c == .svcDown 0 && (postOpen ws).isSome) || (isFoxIn c && streamOpen ws)

/-- A receiver takes words out of its buffer, each word's credit starting back (R11), until it holds a whole message
that waits to be handled; `fuel` bounds their number. -/
def takeWords (fuel : Nat) (c : ChanId) (s : State) : State :=
  match fuel with
  | 0 => s
  | fuel + 1 =>
    let x := chan c s
    match x.buffer with
    | [] => s
    | w :: _ =>
      if receiverHolds c s then s
      else takeWords fuel c (mdChan c (fun y => { y with gathered := gather x.gathered w }) (popBuffer c s))

/-- The receiver at a channel takes what it can. -/
def takeMsg (c : ChanId) (s : State) : State :=
  if gathers c then takeWords ((chan c s).buffer.length) c s else s

/-- The receiver consumes the word w at the front of its buffer. -/
def takeOne (c : ChanId) (w : TWord) (s : State) : State :=
  mdChan c (fun y => { y with gathered := gather y.gathered w }) (popBuffer c s)

/-- The message at the front has been handled: its receiver goes on to the words behind it. -/
def dropMsg (c : ChanId) (s : State) : State :=
  match firstMsg (chan c s).gathered with
  | some (_, rest) => takeMsg c (mdChan c (fun x => { x with
      gathered := rest
      marks := if inSwitch c then x.marks.tail else x.marks }) s)
  | none => s

/-- The classes that are answered (R42): REMOTE_RD and REMOTE_WR. -/
def requestClass (cls : Nat) : Bool := cls == 0x20 || cls == 0x21

/-! ## Configuration frames that the switches read (Table 7.8) -/

/-- Word w of frame f of region r's active plane. -/
def frameKey (r f w : Nat) : Nat := r * 49152 + f * 32 + w
def frameWord (r f w : Nat) (s : State) : Word := tget 0 s.planes.active (frameKey r f w)

def uplinkCfg (p : Nat) (s : State) : Word := frameWord (p / 8) 25 (p % 8) s
def uplinkEn (p : Nat) (s : State) : Bool := bit 0 (uplinkCfg p s)
/-- The tile port index 2t + port to which uplink u of a region delivers. -/
def uplinkTp (p : Nat) (s : State) : Nat :=
  let w := uplinkCfg p s
  (p / 8) * 32 + fld 4 1 w * 2 + fld 5 5 w
def uplinkMask (p : Nat) (s : State) : Nat := fld 31 16 (uplinkCfg p s)
def commitAtHead (p : Nat) (s : State) : Bool := bit 6 (uplinkCfg p s)
def tpCfg (j : Nat) (s : State) : Word := frameWord (j / 32) 26 (j % 32) s
/-- The crossbar port of the tile port's reply uplink. -/
def replyPort (j : Nat) (s : State) : Nat := (j / 32) * 8 + fld 3 1 (tpCfg j s)

/-! ## Presence -/

/-- The region can receive: powered, not retired (R16, R47). -/
def regionOn (r : Nat) (s : State) : Bool := (rgn r s).power == .on

/-- A crossbar port is retired, remapped or not (R166). -/
def portRetired (p : Nat) (s : State) : Bool := getArr P.XB R.XB_PORT_RETIRED p s
/-- The spare that stands in for a port. -/
def spareOf (p : Nat) (s : State) : Option Nat :=
  (List.range 8).find? fun k => rd P.XB (R.XB_SPARE + 4 * k) s == setBit 31 true (W p)
/-- The remap of a retired port is still to come: HEADs to and from it wait (R166). -/
def remapping (p : Nat) (s : State) : Bool :=
  portRetired p s && !portAbsent p s && (spareOf p s).isNone

def svcRetired (k : Nat) (s : State) : Bool := bit (16 + k) (rd P.XB R.XB_STAT s)
/-- This node's number, 0 while it has none (RING.STAT.NODE). -/
def ownNode (s : State) : Nat := rdf P.RING R.RING_STAT 15 8 s
/-- RING.STAT.STATE is UP (R390). -/
def ringUp (s : State) : Bool := rdf P.RING R.RING_STAT 2 0 s == 3

/-! ## Route words (Tables 2.6 and 7.2) -/

/-- What a decoding stage makes of a route word. -/
inductive Dest where
  | absent
  /-- A crossbar port. -/
  | port (p : Nat)
  /-- A service attachment. -/
  | svc (k : Nat)
  /-- The Squirrel buffer of a region. -/
  | squirrel (r : Nat)
  /-- An engine, still to be resolved by the crossbar. -/
  | engine (e : Nat)
  deriving DecidableEq, Repr

/-- A service ID as a destination (Table 2.7). -/
def svcDest (id : Nat) : Dest :=
  if id < 7 then .svc id else if 0x40 ≤ id ∧ id < 0x80 then .squirrel (id - 0x40) else .absent

/-- Decode a route word for a device whose own node number is given (R40, R152). -/
def decodeRoute (own : Nat) (w : Word) : Dest :=
  let k := fld 31 30 w
  if k = 0 then (if fld 29 8 w = 0 then .engine (fld 7 0 w) else .absent)
  else if k = 1 then (if fld 29 9 w = 0 then .port (fld 8 0 w) else .absent)
  else if k = 3 then (if fld 29 8 w = 0 then svcDest (fld 7 0 w) else .absent)
  else
    let node := fld 29 22 w
    let rk := fld 21 20 w
    let idx := fld 8 0 w
    if fld 19 9 w ≠ 0 ∨ rk = 2 ∨ node = 0 ∨ (250 < node ∧ node < 255) then .absent
    else
      let there : Dest :=
        if rk = 1 then .port idx
        else if 255 < idx then .absent
        else if rk = 0 then .engine idx else svcDest idx
      if there = .absent then .absent
      else if node = own ∧ own ≠ 0 then there else .svc 6

/-- Route words that name an origin (R41). -/
def routePort (p : Nat) : Word := W (2 ^ 30 + p)
def routeSvc (k : Nat) : Word := W (3 * 2 ^ 30 + k)

/-- An engine map entry (Table 9.3). -/
def engineEntry (e : Nat) (s : State) : Word := tget 0 s.sched.emap e
def engineMapped (e : Nat) (s : State) : Bool := bit 31 (engineEntry e s)
def enginePort (e : Nat) (s : State) : Nat := fld 8 0 (engineEntry e s)

/-- A port as a destination at the crossbar: absent if retired with no spare, if its region is off or
retired, or if its uplink has EN = 0 (R47, Table 7.2). -/
def portPresent (p : Nat) (s : State) : Bool :=
  !portAbsent p s && regionOn (p / 8) s && uplinkEn p s

/-- The output channel of the crossbar for a route word, none where the destination is absent. -/
def crossbarOut (w : Word) (s : State) : Option ChanId :=
  match decodeRoute (ownNode s) w with
  | .absent => none
  | .squirrel _ => none
  | .svc k => if svcRetired k s then none else some (.svcDown (svcId k))
  | .port p => if portPresent p s then some (.portDown (portId p)) else none
  | .engine e =>
    if e = 255 then (if svcRetired 2 s then none else some (.svcDown (svcId 2)))
    else if engineMapped e s && portPresent (enginePort e s) s then
      some (.portDown (portId (enginePort e s)))
    else none

/-! ## Replies that a stage generates (R38, R41, R47) -/

/-- An RD_REPLY made by a switching stage, with the route word of the request (R41). -/
def stageReply (head route : Word) (payload : List TWord) (status : Nat) : List TWord :=
  message 0x22 (fld 23 12 head) route payload status

/-- The output that leads back to the sender at an input of a switching stage. -/
def backOf (inp : ChanId) (s : State) : Option ChanId :=
  match inp with
  | .tpOut j =>
    let p := replyPort j.val s
    if uplinkEn p s then some (.tpIn (tpId (uplinkTp p s))) else none
  | .portUp p => some (.portDown p)
  | .svcUp k => some (.svcDown k)
  | .portDown p => some (.portUp p)
  | _ => none

/-- A generated reply goes back, marked with the route word of its request as sent where the stage does not
see that word (R41). -/
def replyAs (k : Option Word) (inp : ChanId) (m : List TWord) (s : State) : State :=
  match backOf inp s with
  | some o => sendGen k o m s
  | none => s

/-- A reply to the message whose HEAD was taken last. -/
def replyBack (inp : ChanId) (m : List TWord) (s : State) : State := replyAs (chan inp s).mark inp m s

/-- The region of a switch input, none at the crossbar. -/
def stageRegion : ChanId → Option Nat
  | .tpOut j => some (j.val / 32)
  | .portDown p => some (p.val / 8)
  | _ => none

/-- The route word of a request as its sender wrote it, from the word at a crossbar input: a word from the
ring port names the local destination in bits [19:9]. -/
def asSent (inp : ChanId) (w : Word) (s : State) : Word :=
  if inp = .svcUp 6 then W (2 ^ 31 + ownNode s * 2 ^ 22 + fld 19 18 w * 2 ^ 20 + fld 17 9 w) else w

/-- A message is handled as absent (R47): counted at the stage, and answered if it is a request. -/
def absentMsg (inp : ChanId) (head route : Word) (s : State) : State :=
  let t := match stageRegion inp with
    | some r => count (P.RGN r) R.RGN_SW_ABSENT s
    | none => s
  let t := wr P.XB R.XB_ABSENT_LAST (asSent inp route s) t
  if requestClass (fld 31 24 head) then
    replyBack inp (stageReply head route [nullWord] E.ABSENT_TARGET) t
  else t |> count P.XB R.XB_ABSENT_DISCARDS |> irq P.XB 3

/-- A stray word (R45). -/
def strayWord (inp : ChanId) (s : State) : State :=
  let t := match stageRegion inp with
    | some r => s |> count (P.RGN r) R.RGN_SW_STRAY |> irq (P.RGN r) 17
    | none => s
  t |> count P.XB R.XB_STRAY_WORDS |> irq P.XB 2

/-- A message closed by a HEAD inside it is counted at a region switch (R45). -/
def unterminated (inp : ChanId) (s : State) : State :=
  match stageRegion inp with
  | some r => count (P.RGN r) R.RGN_SW_UNTERMINATED s
  | none => s

/-! ## Moving an open message (R43, R159) -/

/-- Can the output take one word now? The places inside the switch always can. -/
def outReady (o : ChanId) (s : State) : Bool :=
  let x := chan o s
  match o with
  | .paramUnit _ | .squirrel _ => true
  | .portDown p => !portUnderSlice p.val s && (x.fenced || x.retired || (x.sendq = [] && 0 < canLaunch x))
  | _ => x.fenced || x.retired || (x.sendq = [] && 0 < canLaunch x)

/-- A word at a crossbar input waits for an output credit (XB.CREDIT_WAITS). -/
def countCreditWait (inp : ChanId) (s : State) : State :=
  let once : State → State := fun s =>
    if (chan inp s).creditWait then s
    else count P.XB R.XB_CREDIT_WAITS (mdChan inp (fun y => { y with creditWait := true }) s)
  match inp with
  | .portUp _ => once s
  | .svcUp _ => once s
  | _ => s

/-- The uplink at which a parameter unit sees a message: the one it came in on, or of a local message the one whose
port its route word names (R95, R152). -/
def unitUplink (inp : ChanId) (w : Word) (s : State) : Nat :=
  match inp, decodeRoute (ownNode s) w with
  | .portDown p, _ => p.val
  | _, .port p => p
  | _, _ => 0

/-- The mark of a HEAD that leaves an input: the crossbar passes on what the request carried (R41), and a parameter
unit is told the uplink (R95). -/
def markFor (inp o : ChanId) (w : Word) (s : State) : Option Word :=
  match o with
  | .portDown _ => some (asSent inp w s)
  | .paramUnit _ => some (W (unitUplink inp w s))
  | _ => none

/-- Move words of the message open at an input to its output while the output takes them; `fuel` bounds
the words moved. -/
def advance (fuel : Nat) (inp : ChanId) (s : State) : State :=
  match fuel with
  | 0 => s
  | fuel + 1 =>
    let x := chan inp s
    match x.route, x.buffer with
    | none, _ => s
    | _, [] => s
    | some .discard, w :: _ =>
      if w.tag = .head then unterminated inp (mdChan inp (fun y => { y with route := none }) s)
      else
        let t := popBuffer inp s
        if w.tag = .last then mdChan inp (fun y => { y with route := none }) t
        else advance fuel inp t
    | some (.out o), w :: _ =>
      if (chan o s).holder ≠ some inp then s
      else if !outReady o s then countCreditWait inp s
      else if w.tag = .head ∧ x.headSent then
        s |> send o [trailer E.UNTERMINATED]
          |> mdChan inp (fun y => { y with route := none })
          |> release o |> unterminated inp
      else
        let t := s |> popBuffer inp |> mdChan inp (fun y => { y with headSent := true, creditWait := false })
                   |> sendAs (markFor inp o x.routeWord s) o [w]
        if w.tag = .last then t |> mdChan inp (fun y => { y with route := none }) |> release o
        else advance fuel inp t

/-- Enough for everything a buffer holds. -/
def advanceAll (inp : ChanId) (s : State) : State := advance ((chan inp s).buffer.length + 1) inp s

/-- The number of an input of a switching stage in round-robin order (R163). -/
def inputNo : ChanId → Nat
  | .portUp p => p.val
  | .svcUp k => 512 + k.val
  | .tpOut j => tpLocal j.val
  | .portDown p => 32 + p.val % 8
  | _ => 0

/-- Of the inputs whose HEADs reached an output first, the one whose number comes next after that of the input served
last (R46, R163). HEADs of one ring time reached it in one cycle (assumption log 103). -/
def nextServed (x : Channel) : Option ChanId :=
  match x.waiting with
  | [] => none
  | first :: _ =>
    let turn (i : ChanId) : Nat := (inputNo i + 1023 - x.served) % 1024
    (x.waiting.filter fun e => e.2 == first.2).foldl (fun best e => match best with
      | none => some e.1
      | some i => if turn e.1 < turn i then some e.1 else best) none

/-- An output is given to an input. -/
def Channel.heldBy (i : ChanId) (x : Channel) : Channel :=
  { x with holder := some i, served := inputNo i, waiting := x.waiting.filter fun e => e.1 != i }

/-- Give a free output to the input that is next in order (R46, R163). -/
def grantNext (o : ChanId) (s : State) : State :=
  let x := chan o s
  match x.holder, nextServed x with
  | none, some i => if x.retired then s else advanceAll i (setChan o (x.heldBy i) s)
  | _, _ => s

/-- Count one wait of a HEAD (R163). -/
def countHeadWait (o : ChanId) (s : State) : State :=
  match o with
  | .portDown p =>
    let t := count P.XB R.XB_HEAD_WAITS s
    if rdf P.XB R.XB_MON_SEL 8 0 s = p.val then count P.XB R.XB_MON_WAIT t else t
  | .svcDown _ => count P.XB R.XB_HEAD_WAITS s
  | .portUp p => count (P.RGN (p.val / 8)) R.RGN_SW_HEAD_WAITS s
  | .tpIn j => count (P.RGN (j.val / 32)) R.RGN_SW_HEAD_WAITS s
  | .squirrel r => count (P.RGN r.val) R.RGN_SW_HEAD_WAITS s
  | .paramUnit r => count (P.RGN r.val) R.RGN_SW_HEAD_WAITS s
  | _ => s

/-- Open a message at an input toward an output, with the route word it leaves with. -/
def openMsg (inp o : ChanId) (head route newRoute : Word) (s : State) : State :=
  let x := chan inp s
  let s1 := setChan inp { x with route := some (.out o), headWord := head, routeWord := route,
                                 headSent := false,
                                 buffer := x.buffer.take 1 ++ [tw .data newRoute] ++ x.buffer.drop 2 } s
  let y := chan o s1
  if y.holder = none ∧ y.waiting = [] then advanceAll inp (setChan o (y.heldBy inp) s1)
  else countHeadWait o (setChan o { y with waiting := y.waiting ++ [(inp, ringTime s)] } s1)

/-- Discard the message at the front of an input as absent. -/
def dropAbsent (inp : ChanId) (head route : Word) (s : State) : State :=
  s |> mdChan inp (fun y => { y with route := some .discard, headWord := head, routeWord := route })
    |> popBuffer inp |> popBuffer inp
    |> absentMsg inp head route
    |> advanceAll inp

/-- The framing that both stages share (R40, R45): what to do with the words at the front of an input on
which no message is open. `go` routes a HEAD followed by a route word tagged DATA. -/
def routeFront (inp : ChanId) (go : Word → Word → State → State) (s : State) : State :=
  let x := chan inp s
  if x.route ≠ none then s
  else match x.buffer with
    | [] => s
    | h :: rest =>
      if h.tag ≠ .head then s |> popBuffer inp |> strayWord inp
      else match rest with
        | [] => s
        | r :: _ =>
          if r.tag = .data then go h.data r.data s
          else if r.tag = .head then
            s |> popBuffer inp |> unterminated inp |> absentMsg inp h.data (W (E.UNTERMINATED * 2 ^ 24))
          else if r.tag = .last then
            s |> popBuffer inp |> popBuffer inp |> absentMsg inp h.data r.data
          else dropAbsent inp h.data r.data s

/-- Where an uplink of a region hands a message over: the region's parameter unit for PARAM and PARAM_COMMIT (R95),
else the tile port that the personality binds to the uplink (R44). -/
def uplinkOut (p : Nat) (cls : Nat) (s : State) : Option ChanId :=
  if cls = 0x03 ∨ cls = 0x04 then some (.paramUnit (regionId (p / 8)))
  else
    let j := uplinkTp p s
    if bit (j % 32) (rd (P.RGN (j / 32)) R.RGN_TP_DISABLED s) then none else some (.tpIn (tpId j))

/-- A new HEAD with origin word `route` waits at an uplink of region r: from the drain notice all but those
of the scheduler, from the drained cycle all (R47, R263, R264), and all while the region takes no new work
(Table 3.2c, assumption log 80). -/
def headHeld (r : Nat) (route : Word) (s : State) : Bool :=
  !takesWork (P.RGN r) s || (rgn r s).drained || ((rgn r s).draining && route != routeSvc 0)

/-- New HEADs from the region's own tile ports wait from the drained cycle (R264). -/
def tileHeadHeld (r : Nat) (s : State) : Bool := (rgn r s).drained

/-- The region switch decodes a message from a tile port (Table 7.2, middle column). Where the port of its reply
uplink is absent, every message is discarded here (R166). -/
def routeTilePort (j : Nat) (inp : ChanId) (head route : Word) (s : State) : State :=
  let r := j / 32
  let up := replyPort j s
  let toUplink : State → State := fun s =>
    if remapping up s then s else openMsg inp (.portUp (portId up)) head route route s
  if tileHeadHeld r s then s
  else if portAbsent up s then dropAbsent inp head route s
  else match decodeRoute (ownNode s) route with
  | .absent => dropAbsent inp head route s
  | .engine _ => toUplink s
  | .svc _ => toUplink s
  | .squirrel q => if q = r then openMsg inp (.squirrel (Fin.ofNat 64 r)) head route (routePort up) s
      else dropAbsent inp head route s
  | .port p =>
    if p / 8 = r then
      if !uplinkEn p s || portAbsent p s then dropAbsent inp head route s
      else match uplinkOut p (fld 31 24 head) s with
        | some o => openMsg inp o head route (routePort up) s
        | none => dropAbsent inp head route s
    else toUplink s

/-- The region switch hands on a message from the crossbar at uplink port p (R44, R56, R95). -/
def routeUplink (p : Nat) (inp : ChanId) (head route : Word) (s : State) : State :=
  let r := p / 8
  if (rgn r s).gsr && !(rgn r s).draining then dropAbsent inp head route s
  else if headHeld r route s then s
  else if !uplinkEn p s then dropAbsent inp head route s
  else match uplinkOut p (fld 31 24 head) s with
    | some o => openMsg inp o head route route s
    | none => dropAbsent inp head route s

/-- A ring route word as it stands between the crossbar and the ring port: bits [19:9], zero on the ring, name the
local port or service that the message comes from or goes to (remote kind and index of R393). -/
def ringWord (route loc : Word) : Word :=
  (route &&& W 0xFFF001FF) ||| W (fld 31 30 loc * 2 ^ 18 + fld 8 0 loc * 2 ^ 9)

/-- That local port or service as a route word of this node, and the ring route word alone. -/
def ringLocal (w : Word) : Word := W (2 ^ 30 * fld 19 18 w + fld 17 9 w)
def ringRoute (w : Word) : Word := w &&& W 0xFFF001FF

/-- The route word with which the crossbar delivers a message: the origin, but a reply that a region switch
made carries the route word of its request (R41, R153). -/
def deliveredAs (inp : ChanId) (origin : Word) (s : State) : Word :=
  ((chan inp s).marks.head?.join).getD origin

/-- The port or service that the ring port names as the sender (R393): of a ring route word, the one it names. -/
def ringSender (w : Word) : Word := if fld 31 30 w = 2 then W (fld 21 20 w * 2 ^ 30 + fld 8 0 w) else w

/-- The crossbar decodes a message at an input and opens its route (Table 7.2, last column; R153). -/
def routeCrossbar (inp : ChanId) (origin : Word) (head route : Word) (s : State) : State :=
  let word := deliveredAs inp origin s
  match crossbarOut route s with
  | none => dropAbsent inp head route s
  | some (.portDown p) =>
    if remapping p.val s then s
    else openMsg inp (.portDown p) head route word s
  | some o =>
    openMsg inp o head route
      (if o = .svcDown 6 ∧ fld 31 30 route = 2 then ringWord route (ringSender word) else word) s

/-- A message that the ring port hands over: its route word names the remote origin already and stays as it is
(R153, R393). -/
def routeFromRing (inp : ChanId) (head route : Word) (s : State) : State :=
  match crossbarOut (ringLocal route) s with
  | none => dropAbsent inp head route s
  | some o =>
    if (match o with | .portDown p => remapping p.val s | _ => false) then s
    else openMsg inp o head route (ringRoute route) s

/-! ## Arrival, verdict, credit -/

/-- A check failed at the receiver of a channel: an event PARITY of the receiving block (R36, R57), which a tile counts
as well where it is the receiver (R134, code 0x0C). The receiver of the ring-out is the next node. -/
def checkFailed (c : ChanId) (s : State) : State :=
  match c with
  | .ringOut => s
  | .mesh q _ => tileEvent (q.val / 16) 0x0C (errTransient (chanPage c) s)
  | .tpIn j => tileEvent (j.val / 2) 0x0C (errTransient (chanPage c) s)
  | _ => errTransient (chanPage c) s

/-- A word reaches the receiving handshake (R15, R35, R36): checked, accepted or rejected. -/
def arrive (c : ChanId) (upset : Bool) (s : State) : State :=
  let x := chan c s
  match x.flight with
  | [] => s
  | (w, replay) :: rest =>
    let w := if upset then corrupt w else w
    if x.rejecting && !replay then setChan c { x with flight := rest } s
    else if parGood w then
      let y := { x with flight := rest, rejecting := false, verdicts := x.verdicts ++ [true],
                        buffer := x.buffer ++ [w] }
      let t := takeMsg c (setChan c y s)
      let t := match c with
        | .portDown p => count (P.RGN (p.val / 8)) R.RGN_SW_WORDS_DOWN t
        | .portUp p =>
          if rdf P.XB R.XB_MON_SEL 8 0 s = p.val then count P.XB R.XB_MON_IN t else t
        | .ringIn => count P.RING R.RING_WORDS_IN t
        | _ => t
      advanceAll c t
    else
      s |> setChan c { x with flight := rest, rejecting := true, verdicts := x.verdicts ++ [false] }
        |> checkFailed c

/-- What the receiver's buffer holds, as it arrived: a message that waits for its output still has its route word. -/
def received (x : Channel) : List TWord :=
  match x.route with
  | some (.out _) =>
    if x.headSent then x.buffer else x.buffer.take 1 ++ [tw .data x.routeWord] ++ x.buffer.drop 2
  | _ => x.buffer

/-- A message is open at the end of what the receiver has accepted. -/
def tailOpen (x : Channel) : Bool :=
  x.buffer.foldl (fun a w => match w.tag with
    | .head => true
    | .last => false
    | _ => a) (x.route.isSome || x.inMsg)

/-- The message open at the end of what the receiver has accepted, if it has not been answered yet: its HEAD, its
route word once that has arrived, and the mark of its HEAD. -/
def openTail (x : Channel) : Option (Word × Option Word × Option Word) :=
  let first : Option (Word × Option Word × Option Word) := match x.route with
    | some (.out _) => if x.headSent then some (x.headWord, some x.routeWord, x.mark) else none
    | _ => none
  ((received x).foldl (fun (a : Option (Word × Option Word × Option Word) × List (Option Word)) w =>
    match w.tag with
    | .head => (some (w.data, none, a.2.head?.join), a.2.tail)
    | .last => (none, a.2)
    | _ => (a.1.map fun m => (m.1, some (m.2.1.getD w.data), m.2.2), a.2)) (first, x.marks)).1

/-- The route of a message that has not left its input is undone: it is decoded again. -/
def unroute (i : ChanId) (s : State) : State :=
  mdChan i (fun y => { y with buffer := received y, route := none }) s

/-- The HEADs that wait for an output that will not serve them are decoded again. -/
def unwait (o : ChanId) (s : State) : State :=
  (chan o s).waiting.foldl (fun s e => unroute e.1 s) (mdChan o (fun x => { x with waiting := [] }) s)

/-- The sending side discards the rest of a message open at input i (R38). -/
def cutInput (i : ChanId) (s : State) : State :=
  s |> mdChan i (fun y => { y with route := some .discard }) |> advanceAll i

/-- The message with which the receiving side closes what was open on a retired channel: none on a mesh link, whose
reader finds FAULT words behind the words accepted (R38, R92). -/
def closedTail (c : ChanId) (x : Channel) : List TWord :=
  match c with
  | .mesh _ _ => []
  | _ => if tailOpen x then [trailer E.REPLAY_FAIL] else []

/-- A request cut on its last link is answered by the switch that it left (R38): the tile port beyond the link sends
nothing any more (R165). -/
def answerCut (c i : ChanId) (s : State) : State :=
  match c with
  | .tpIn _ =>
    let y := chan i s
    if requestClass (fld 31 24 y.headWord) then replyBack i (stageReply y.headWord y.routeWord [] E.REPLAY_FAIL) s
    else s
  | _ => s

/-- One channel is retired (R38): discard what was not accepted, close the message open on it with REPLAY_FAIL,
answer a request, and let the sender discard the rest of its open message. A HEAD that has not been launched
waits, and so do replies that the stage holds for a port. -/
def cutChan (c : ChanId) (s : State) : State :=
  let x := chan c s
  let kept := if isPort c then x.sendq.dropWhile (fun w => w.tag != .head) else []
  let sent := match x.holder with
    | some i => (chan i s).headSent
    | none => true
  let dead := { x with credits := 0, sendq := kept, flight := [], retained := [], owed := 0, rejecting := false,
                       fails := 0, verdicts := [], retired := true, gen := if isPort c then x.gen else [],
                       holder := none,
                       waiting := if sent then x.waiting
                         else x.holder.toList.map (fun i => (i, ringTime s)) ++ x.waiting,
                       buffer := x.buffer ++ closedTail c x,
                       marks := x.marks.take (heads x.buffer) ++ x.marks.drop (x.marks.length - heads kept) }
  let t := match x.holder with
    | some i => if sent then cutInput i (answerCut c i s) else s
    | none => s
  let t := takeMsg c (setChan c dead t)
  let t := match openTail x with
    | some (h, some r, k) =>
      if requestClass (fld 31 24 h) then replyAs k c (stageReply h r [] E.REPLAY_FAIL) t else t
    | _ => t
  advanceAll c t

/-- The channels that are retired together: the pair of a port, an attachment or a tile port (R165–R167). -/
def pairOf : ChanId → List ChanId
  | .portUp p => [.portUp p, .portDown p]
  | .portDown p => [.portDown p, .portUp p]
  | .svcUp k => [.svcUp k, .svcDown k]
  | .svcDown k => [.svcDown k, .svcUp k]
  | .tpOut j => [.tpOut j, .tpIn j]
  | .tpIn j => [.tpIn j, .tpOut j]
  | c => [c]

/-- What follows the retirement of a channel of each kind (R92, R165–R167). -/
def afterRetire (c : ChanId) (s : State) : State :=
  match c with
  | .portUp p | .portDown p =>
    let t := match spareOf p.val s with
      | some k => s |> wr P.XB (R.XB_SPARE + 4 * k) 0
                    |> md P.XB R.XB_STAT (fun w => setBit (8 + k) true (setBit k false w))
                    |> md (P.RGN (p.val / 8)) R.RGN_SW_STAT (setBit (16 + p.val % 8) false)
      | none => s
    t |> setArr P.XB R.XB_PORT_RETIRED p.val true |> irq P.XB 0
      |> abandonSlice (fun b => b.cls == 2 && b.block == p.val)
  | .svcUp k | .svcDown k =>
    s |> md P.XB R.XB_STAT (setBit (16 + k.val) true) |> irq P.XB 0 |> unwait (.svcDown k)
  | .tpOut j | .tpIn j =>
    s |> md (P.RGN (j.val / 32)) R.RGN_TP_DISABLED (setBit (j.val % 32) true) |> unwait (.tpIn j)
  | _ => s

/-- A channel that has exhausted its replays is retired, with the other channel of its pair (R38, R165–R167);
the retirement is one error of the receiving block (R36). -/
def retire (c : ChanId) (s : State) : State :=
  (pairOf c).foldl (fun s d => mdChan d (fun x => { x with retired := true }) s) s
    |> (fun t => (pairOf c).foldl (fun s d => cutChan d s) t)
    |> err (chanPage c) E.REPLAY_FAIL (chanDetail c) 0
    |> afterRetire c

/-- A verdict reaches the sender (R35, R36, R368): a pass frees the retained copy; a fail relaunches the
word and those behind it, and the fourth consecutive failed check retires the channel. -/
def verdict (c : ChanId) (s : State) : State :=
  let x := chan c s
  match x.verdicts with
  | [] => s
  | true :: vs =>
    pump c (setChan c { x with verdicts := vs, retained := x.retained.tail, fails := 0 } s)
  | false :: vs =>
    if x.fails + 1 < 4 then
      let again := match x.retained with
        | [] => []
        | w :: r => (w, true) :: r.map (fun w => (w, false))
      let t := setChan c { x with verdicts := vs, fails := x.fails + 1, flight := x.flight ++ again } s
      match c with
      | .ringIn | .ringOut => count P.RING R.RING_REPLAYS t
      | _ => t
    else retire c s

/-- HEADs with the route words that follow them. -/
def headRoutes : List TWord → List (Word × Word)
  | [] => []
  | [_] => []
  | h :: r :: rest =>
    if h.tag = .head ∧ r.tag = .data then (h.data, r.data) :: headRoutes rest else headRoutes (r :: rest)

/-- The messages of a crossbar input that have not left it whole: HEAD and route word. -/
def inputMsgs (x : Channel) : List (Word × Word) :=
  (match x.route with
    | some (.out _) => if x.headSent then [(x.headWord, x.routeWord)] else []
    | _ => []) ++ headRoutes (received x)

/-- The word at the front of a crossbar input has failed k checks in a row at the output stage of the core and was
fetched again each time from the input's retention (R164). Fewer than 4 failures are transients of the crossbar; the
fourth retires the input's channel, as failures of its own checks do (R369), and what the core has not passed on is
discarded. -/
def coreChecks (inp : ChanId) (k : Nat) (s : State) : State :=
  let x := chan inp s
  if x.buffer = [] ∨ k = 0 then s
  else if k < 4 then (List.range k).foldl (fun t _ => errTransient P.XB t) s
  else
    let t := setChan inp { x with buffer := [], marks := x.marks.drop (heads x.buffer),
                                  route := if x.headSent then x.route else none, inMsg := x.headSent && x.inMsg } s
    (headRoutes (received x)).foldl (fun t m =>
      if requestClass (fld 31 24 m.1) then replyAs none inp (stageReply m.1 m.2 [] E.REPLAY_FAIL) t else t) (retire inp t)

/-- The input whose message waits for an output's credit moves on. -/
def advanceHolder (o : ChanId) (s : State) : State :=
  match (chan o s).holder with
  | some i => advanceAll i s
  | none => s

/-- A credit reaches the sender (R11): words that wait for it launch. -/
def creditBack (c : ChanId) (s : State) : State :=
  let x := chan c s
  if x.owed = 0 then s
  else s |> setChan c { x with owed := x.owed - 1, credits := min (x.credits + 1) (creditsOf c) } |> pump c
         |> advanceHolder c

/-- Nothing leaves through a channel any more: what its sender holds is dropped, and HEADs that wait for it are
decoded again. -/
def forsake (c : ChanId) (s : State) : State :=
  s |> pump c |> mdChan c (fun x => { x with gen := [] }) |> unwait c

/-- Remap a retired port to the lowest-numbered free spare (R166). -/
def remap (p : Nat) (s : State) : State :=
  if !remapping p s then s
  else
    let st := rd P.XB R.XB_STAT s
    let freeSpare := (List.range 8).find? fun k => !bit k st && !bit (8 + k) st
    let r := p / 8
    match freeSpare with
    | some k =>
      let up := ChanId.portUp (portId p)
      let dn := ChanId.portDown (portId p)
      s |> wr P.XB (R.XB_SPARE + 4 * k) (setBit 31 true (W p))
        |> md P.XB R.XB_STAT (setBit k true)
        |> md (P.RGN r) R.RGN_SW_STAT (setBit (16 + p % 8) true)
        |> irq (P.RGN r) 16
        |> mdChan up (fun x => { x with retired := false, credits := 16 - x.buffer.length })
        |> mdChan dn (fun x => { x with retired := false, credits := 16 - x.buffer.length })
        |> pump up |> pump dn |> release up |> release dn
        |> grantNext up |> grantNext dn
    | none =>
      s |> setArr P.XB R.XB_PORT_ABSENT p true
        |> md (P.RGN r) R.RGN_SW_STAT (setBit (24 + p % 8) true)
        |> irq (P.RGN r) 16 |> irq P.XB 1
        |> forsake (.portUp (portId p)) |> forsake (.portDown (portId p))

/-! ## Fences and region clearing (R16, R56, R354) -/

/-- The words between a message's HEAD and the point of power loss are closed with ABSENT_TARGET by the
receiving side of a crossing whose sending island went away (R16). -/
def closeOpen (c : ChanId) (s : State) : State :=
  let x := chan c s
  let gone := { x with sendq := [], flight := [], retained := [], rejecting := false, fails := 0,
                       verdicts := [], holder := none, waiting := [], gen := [],
                       marks := x.marks.take (heads x.buffer) }
  if tailOpen x then advanceAll c (takeMsg c (setChan c { gone with buffer := x.buffer ++ [trailer E.ABSENT_TARGET] } s))
  else setChan c gone s

/-- Empty the channels inside region r: tile ports, mesh links, parameter units, Squirrel buffer, and what
the Fox tap brings it. A link that is retired stays so (Table 15.8). -/
def clearInside (r : Nat) (s : State) : State :=
  let inside (k : Nat) : Bool :=
    (4096 + 32 * r ≤ k && k < 4096 + 32 * (r + 1)) || (8192 + 32 * r ≤ k && k < 8192 + 32 * (r + 1)) ||
    (16384 + 1024 * r ≤ k && k < 16384 + 1024 * (r + 1)) || k == 90000 + r ||
    k == 91000 + r || k == 92100 + r
  setNet (s.net.filterMap fun e =>
    if inside e.1 then
      if e.2.retired then some (e.1, { (Channel.free 0) with retired := true }) else none
    else some e) s

/-- Do something for each of the 8 ports of a region. -/
def forPorts (r : Nat) (f : Nat → State → State) (s : State) : State :=
  (List.range 8).foldl (fun s u => f (8 * r + u) s) s

/-- The message open toward a region that goes off: the fence answers a request with one NULL word (R16, R47) and
discards the rest; a HEAD that has not left is decoded again. -/
def fenceHolder (dn : ChanId) (s : State) : State :=
  match (chan dn s).holder with
  | none => s
  | some i =>
    let y := chan i s
    if y.headSent then
      let t := if requestClass (fld 31 24 y.headWord) then
          replyBack i (stageReply y.headWord y.routeWord [nullWord] E.ABSENT_TARGET) s
        else s
      cutInput i t
    else unroute i s

/-- Region r goes off: its uplinks' outputs are fenced, and messages it had open outside are closed with
ABSENT_TARGET (R16, R354). -/
def fenceRegion (r : Nat) (s : State) : State :=
  s |> clearInside r
    |> forPorts r (fun p s =>
        let up := ChanId.portUp (portId p)
        let dn := ChanId.portDown (portId p)
        let s := closeOpen up s
        let s := s |> fenceHolder dn |> unwait dn
        setChan dn { (Channel.free 16) with fenced := true, retired := (chan dn s).retired } s)
    |> closeOpen (.foxTapUp (regionId r))
    |> mdChan (.foxTapDown (regionId r)) (fun x => { x with fenced := true })

/-- Region r is ON again: the fence empties and the credit count resets to 16 (R16). -/
def unfenceRegion (r : Nat) (s : State) : State :=
  forPorts r (fun p s =>
    s |> mdChan (.portDown (portId p)) (fun x => { x with fenced := false, credits := 16, sendq := [] })
      |> mdChan (.portUp (portId p)) (fun x => { x with credits := 16 - x.buffer.length, owed := 0 })) s
    |> mdChan (.foxTapDown (regionId r)) (fun x => { x with fenced := false, credits := 16, sendq := [] })
    |> mdChan (.foxTapUp (regionId r)) (fun x => { x with credits := 16 - x.buffer.length, owed := 0 })

/-- A region reset discards work in the region's switch: buffers empty, messages open toward other
destinations closed with ABSENT_TARGET (R56). -/
def resetSwitch (r : Nat) (s : State) : State :=
  s |> forPorts r (fun p s =>
        let up := ChanId.portUp (portId p)
        let t := match (chan up s).holder with
          | some i => if (chan i s).headSent then send up [trailer E.ABSENT_TARGET] s else s
          | none => s
        t |> release up |> mdChan up (fun x => { x with waiting := [] }))
    |> clearInside r
    |> forPorts r (fun p s =>
        let dn := ChanId.portDown (portId p)
        match (chan dn s).route with
        | some (.out _) => if (chan dn s).headSent then mdChan dn (fun x => { x with route := none }) s else unroute dn s
        | _ => s)

end Sys2Proof.Machine
end

