-- ==== Sys2Proof/Machine/Banks.lean ====
section
/-! DEFINITION. Memory banks: stored words, parity, re-read, mirroring, retirement, clears, the bank port
and the alias read-modify-writes (R173–R191). -/
namespace Sys2Proof.Machine

open Sys2Proof

/-! ## Tile configuration and tile counters -/

/-- Word w of frame f of tile t's active plane (R127). -/
def tileFrame (t f w : Nat) (s : State) : Word := frameWord (t / 16) (64 + (t % 16) * 92 + f) w s

/-! ## Stored words -/

def Bank.idle : Bank :=
  { stew := [], lut := none, lutData := zeroWord, lutGnt := false, lutReads := [], last := 16, excl := false, queue := [], uncleared := [], failTimes := [] }

def bankPort (b : Nat) (s : State) : Bank := tget Bank.idle s.banks.ports b
def setBankPort (b : Nat) (x : Bank) (s : State) : State :=
  setBanks { s.banks with ports := tput Bank.idle b x s.banks.ports } s
def mdBankPort (b : Nat) (f : Bank → Bank) (s : State) : State := setBankPort b (f (bankPort b s)) s

def wordKey (b w : Nat) : Nat := b * 8192 + w

/-- The stored word: zero with tag DATA and good parity where nothing is listed (R188). -/
def bankWord (b w : Nat) (s : State) : TWord := tget zeroWord s.banks.words (wordKey b w)

/-- Store a word; a NULL word is stored with data zero (R32, R175). -/
def setBankWord (b w : Nat) (x : TWord) (s : State) : State :=
  let x := if x.tag = .null then nullWord else x
  setBanks { s.banks with words := tput zeroWord (wordKey b w) x s.banks.words } s

/-! ## Mirroring and presence -/

/-- MIRROR of the pair that holds bank b (Table 8.5). -/
def mirrored (b : Nat) (s : State) : Bool := bit 1 (tileFrame (b / 2 * 2) 90 0 s)

def bankRetired (b : Nat) (s : State) : Bool := bit (b % 16) (rd (P.RGN (b / 16)) R.RGN_BANK_RETIRED s)

/-- The banks that hold the words at bank b's addresses: one, both of a mirrored pair, the survivor, or
none (R185, R186). -/
def copies (b : Nat) (s : State) : List Nat :=
  if mirrored b s then
    (if b % 2 = 0 then [b, b + 1].filter fun x => !bankRetired x s else [])
  else if bankRetired b s then [] else [b]

/-- Bank b's address range answers as absent: the second bank of a mirrored pair, or a region that is not
ON (R16, R185). -/
def bankAbsent (b : Nat) (s : State) : Bool :=
  !regionOn (b / 16) s || (mirrored b s && b % 2 == 1)

/-- ERR address of a bank word. -/
def bankAddr (b w : Nat) : Nat := 0x1000_0000 + b * 0x8000 + 4 * w

/-! ## Reading with parity (R183–R186) -/

/-- What a copy delivers: good at once, good on the re-read, or bad. -/
inductive CopyRead where
  | good (w : TWord)
  | transient (w : TWord)
  | bad
  deriving DecidableEq, Repr

def readCopy (b w : Nat) (s : State) : CopyRead :=
  if (bankPort b s).uncleared.contains (w / 32) then .good zeroWord
  else
    let x := bankWord b w s
    if !parGood x then .bad
    else if s.banks.upsets.contains (wordKey b w) then .transient x
    else .good x

/-- A transient of the bank read path (R183). -/
def rereadOk (b w : Nat) (s : State) : State :=
  s |> setBanks { s.banks with upsets := s.banks.upsets.filter (· != wordKey b w) }
    |> count (P.RGN (b / 16)) R.RGN_REREAD_COUNT
    |> errTransient (P.RGN (b / 16))
    |> tileEvent b 0x0C

/-- 24 h and 1 h in ring time (R369). -/
abbrev hours24 : Nat := 86400 * 10 ^ 9
abbrev hour1 : Nat := 3600 * 10 ^ 9

/-- Events that count: those less than the window before now (R369). -/
def recent (window : Nat) (s : State) (l : List (BitVec 64)) : List (BitVec 64) :=
  l.filter fun t => s.time.ringTime.toNat < t.toNat + window

/-- Retire bank b (R186), with the code that DEV.RETIRE_LAST records; both banks of a pair retired end the
pair. -/
def retireBankFor (code b : Nat) (s : State) : State :=
  let pg := P.RGN (b / 16)
  let t := md pg R.RGN_BANK_RETIRED (setBit (b % 16) true) s
  t |> irq pg 21 |> retireLast pg code |> abandonSlice (fun x => x.cls == 0 && x.block == b)

def retireBank (b : Nat) (s : State) : State := retireBankFor E.PARITY b s

/-- One word of bank b counts toward retirement: the 16 latest are kept (R369). -/
def countBankFail (b : Nat) (s : State) : State :=
  let l := ((s.time.ringTime :: recent hours24 s (bankPort b s).failTimes)).take 16
  let t := mdBankPort b (fun x => { x with failTimes := l }) s
  if 16 ≤ l.length ∧ !bankRetired b t then retireBank b t else t

/-- A write of the word restarts a rank 3 read-modify-write of it (R182). -/
def restartRmw (b w : Nat) (s : State) : State :=
  let x := bankPort b s
  let hit (q : BankReq) : Bool := q.readDone && q.word == w
  let n := (x.queue.filter hit).length
  if n = 0 then s
  else s |> setBankPort b { x with queue := x.queue.map fun q => if hit q then { q with readDone := false } else q }
         |> countN (P.RGN (b / 16)) R.RGN_RMW_RESTARTS n

/-- Data of the FAULT word of an unrecoverable word (Table 8.4). -/
def poisonWord (b w : Nat) : TWord := faultWord E.PARITY (2 ^ 23 + b * 8192 + w)

/-- An unrecoverable word of bank b: poisoned in every copy, counted and recorded (R184, R185). -/
def unrecoverable (b w : Nat) (cs : List Nat) (s : State) : State :=
  let pg := P.RGN (b / 16)
  let t := cs.foldl (fun s c => countBankFail c (setBankWord c w (poisonWord b w) s)) s
  t |> restartRmw b w |> count pg R.RGN_UNRECOV_COUNT |> wr pg R.RGN_UNRECOV_LAST (poisonWord b w).data
    |> err pg E.PARITY (2 ^ 23 + b * 8192 + w) (bankAddr b w) |> irq pg 20

/-- A copy is rewritten from the other one and counts once toward its bank (R185); the write restarts a
read-modify-write of the word (R182). -/
def rewriteCopy (c w : Nat) (x : TWord) (s : State) : State :=
  restartRmw (c / 2 * 2) w (countBankFail c (setBankWord c w x s))

/-- Read word w at bank b's addresses: what is delivered, and the state after it (R183–R186). -/
def readBank (b w : Nat) (s : State) : TWord × State :=
  if bankAbsent b s then
    (nullWord, if regionOn (b / 16) s then err (P.RGN (b / 16)) E.ABSENT_TARGET 0 (bankAddr b w) s else s)
  else match copies b s with
    | [] => (nullWord, s)
    | [c] =>
      match readCopy c w s with
      | .good x => (x, s)
      | .transient x => (x, rereadOk c w s)
      | .bad => (poisonWord b w, unrecoverable b w [c] s)
    | c :: d :: _ =>
      match readCopy c w s, readCopy d w s with
      | .good x, .good _ => (x, s)
      | .good x, .transient _ => (x, rereadOk d w s)
      | .good x, .bad => (x, rewriteCopy d w x s)
      | .transient x, .good _ => (x, rereadOk c w s)
      | .transient x, .transient _ => (x, rereadOk d w (rereadOk c w s))
      | .transient x, .bad => (x, rewriteCopy d w x (rereadOk c w s))
      | .bad, .good y => (y, count (P.RGN (b / 16)) R.RGN_MIRROR_FIX_COUNT (rewriteCopy c w y s))
      | .bad, .transient y =>
        (y, count (P.RGN (b / 16)) R.RGN_MIRROR_FIX_COUNT (rewriteCopy c w y (rereadOk d w s)))
      | .bad, .bad => (poisonWord b w, unrecoverable b w [c, d] s)

/-! ## Writing -/

/-- Store into one copy: the first write to an uncleared row clears the other words of the row (R187). -/
def writeCopy (w : Nat) (x : TWord) (s : State) (c : Nat) : State :=
  let t := mdBankPort c (fun y => { y with uncleared := y.uncleared.filter (· != w / 32) }) s
  let t := setBanks { t.banks with upsets := t.banks.upsets.filter (· != wordKey c w) } t
  setBankWord c w x t

/-- Write word w at bank b's addresses; false if it was dropped (absent or retired). -/
def writeBank (b w : Nat) (x : TWord) (s : State) : Bool × State :=
  if bankAbsent b s then
    (false, if regionOn (b / 16) s then err (P.RGN (b / 16)) E.ABSENT_TARGET 0 (bankAddr b w) s else s)
  else match copies b s with
    | [] => (false, s)
    | cs => (true, restartRmw b w (cs.foldl (writeCopy w x) s))

/-- Clear bank b at a plane switch (R187): every row uncleared, and every read-modify-write in progress
restarts (R182). -/
def clearBankAtSwap (b : Nat) (s : State) : State :=
  let x := bankPort b s
  let n := ((x.queue ++ x.stew).filter (·.readDone)).length
  s |> setBanks { s.banks with words := tclear (wordKey b 0) (wordKey (b + 1) 0) s.banks.words,
                               upsets := s.banks.upsets.filter fun k => k / 8192 != b }
    |> mdBankPort b (fun x =>
        { x with uncleared := List.range 256,
                 queue := x.queue.map fun q => { q with readDone := false },
                 stew := x.stew.map fun q => { q with readDone := false } })
    |> countN (P.RGN (b / 16)) R.RGN_RMW_RESTARTS n
    |> abandonSlice (fun x => x.cls == 0 && x.block == b)

/-- The hardware clear writes every word of a bank to zero (R188). -/
def zeroBank (b : Nat) (s : State) : State :=
  s |> setBanks { s.banks with words := tclear (wordKey b 0) (wordKey (b + 1) 0) s.banks.words,
                               upsets := s.banks.upsets.filter fun k => k / 8192 != b }
    |> mdBankPort b (fun x => { x with uncleared := [] })

/-! ## Read-modify-write (R181, R182) -/

/-- The word that an alias write of v leaves. -/
def rmwWord (k : AliasKind) (v : Word) (x : TWord) : TWord :=
  match k with
  | .bitSet => tw x.tag (x.data ||| v)
  | .bitClear => tw x.tag (x.data &&& ~~~v)
  | .tagView => if tagOf (fld 2 0 v) = .null then nullWord else tw (tagOf (fld 2 0 v)) x.data

/-- An alias read (R181). -/
def tagViewOf (x : TWord) : TWord := tw .data (W (Tag.code x.tag))

/-- Does the read phase forbid the write, and with what code (R182)? -/
def rmwStops (k : AliasKind) (x : TWord) (unrec : Bool) : Option Nat :=
  if unrec then some E.PARITY
  else if (x.tag = .null ∨ x.tag = .fault) ∧ k ≠ .tagView then some E.PERM_FAULT
  else none

/-! ## Delivery to a requester -/

/-- The bytes of a word as the QSPI port sends it, least significant first. -/
def byteList (w : Word) : List Byte :=
  [w.setWidth 8, (w >>> 8).setWidth 8, (w >>> 16).setWidth 8, (w >>> 24).setWidth 8]

/-- A word is returned to a requester; a QSPI read that awaits its word sends it after the ready byte 0xA5
(R423); the word of one that has timed out is discarded. -/
def pushRead (rq : Requester) (y : TWord) (s : State) : State :=
  let l := tget [] s.io.readData (rqCode rq)
  let io := { s.io with readData := tins (rqCode rq) ((y :: l).take 2) s.io.readData }
  if rq = .host ∧ 0 < s.io.qspiLate then setIo { s.io with qspiLate := s.io.qspiLate - 1 } s
  else if rq = .host ∧ s.io.qspiWait.isSome then
    setIo { io with qspiWait := none, qspiOut := (0xA5 : Byte) :: byteList y.data } s
  else setIo io s

/-- What a requester is given for a read: the host sees data only, a NULL as zero (R34). -/
def deliver (rq : Requester) (x : TWord) (s : State) : State :=
  pushRead rq (if rq = .host then tw .data (if x.tag = .null then 0 else x.data) else x) s

/-- The code that a requester is given for a refused write. A write of the host completes without an answer (R20,
R34). -/
def deliverCode (rq : Requester) (code : Nat) (s : State) : State :=
  match rq with
  | .host => s
  | _ => pushRead rq (faultWord code 0) s

/-! ## The port (R176–R179, R182) -/

/-- The requester of a bank request is given a word: an engine finds it with the request's outcome, and a side
interface is delivered it (R34). -/
def giveWord (q : BankReq) (x : TWord) (s : State) : State :=
  match q.engine with
  | some e => setBanks { s.banks with engines := tins e (some (x, E.NONE)) s.banks.engines } s
  | none => deliver q.rq x s

/-- The requester is given the outcome of a write. -/
def giveCode (q : BankReq) (code : Nat) (s : State) : State :=
  match q.engine with
  | some e => setBanks { s.banks with engines := tins e (some (faultWord code 0, code)) s.banks.engines } s
  | none => if code = E.NONE then s else deliverCode q.rq code s

/-- No copy of the bank answers (R16, R185, R186). -/
def bankGone (b : Nat) (s : State) : Bool := bankAbsent b s || (copies b s).isEmpty

/-- What a tag-view read of word x answers (R181): NULL where no bank answers (R185, R186). -/
def tagRead (b : Nat) (x : TWord) (s : State) : TWord := if bankGone b s then x else tagViewOf x

/-- Serve one granted request: the state after it, and the request if it still needs its write phase. -/
def serveReq (b : Nat) (q : BankReq) (s : State) : State × Option BankReq :=
  match q.op with
  | .read => let (x, t) := readBank b q.word s; (giveWord q x t, none)
  | .tagRead => let (x, t) := readBank b q.word s; (giveWord q (tagRead b x s) t, none)
  | .write x =>
    let (ok, t) := writeBank b q.word x s
    (giveCode q (if ok then E.NONE else E.ABSENT_TARGET) t, none)
  | .rmw k v =>
    if bankGone b s then (giveCode q E.ABSENT_TARGET (readBank b q.word s).2, none)
    else
      let (x, t) := readBank b q.word s
      if q.readDone then (giveCode q E.NONE (writeBank b q.word (rmwWord k v x) t).2, none)
      else match rmwStops k x (x == poisonWord b q.word && (copies b s).all fun c => !parGood (bankWord c q.word s)) with
        | some c => (giveCode q c t, none)
        | none => (t, some { q with readDone := true })

/-- Does the request write in the phase that it is granted next? -/
def grantWrites (q : BankReq) : Bool :=
  match q.op with
  | .write _ => true
  | .rmw _ _ => q.readDone
  | _ => false

/-- Bank cycles that a read of word w holds the port for beyond its own: 2 for the re-read of a word that failed
(R183), and 1 for a rewrite or a poison write at rank 0 (R184, R185). -/
def readCost (b w : Nat) (s : State) : Nat :=
  if bankGone b s then 0
  else
    let cs := (copies b s).map fun c => readCopy c w s
    let failed := cs.any fun r => match r with
      | .good _ => false
      | _ => true
    (if failed then 2 else 0) + (if cs.contains .bad then 1 else 0)

/-- One bank cycle in which a higher rank holds the port: where rank 3 waits, tile counter event 0x07 counts it, and
the waits of the first 4 requests, which are in the queue, grow (R177). -/
def denyRank3 (b : Nat) (s : State) : State :=
  let grow (l : List BankReq) : List BankReq :=
    (l.take 4).map (fun q => { q with waited := q.waited + 1 }) ++ l.drop 4
  if (bankPort b s).queue = [] then s
  else s |> tileEvent b 0x07 |> mdBankPort b (fun x => { x with queue := grow x.queue })

/-- That many such cycles. -/
def denyCycles : Nat → Nat → State → State
  | 0, _, s => s
  | n + 1, b, s => denyCycles n b (denyRank3 b s)

/-- A cycle in which another request of rank 3 is granted. -/
def waitRank3 (b : Nat) (s : State) : State :=
  mdBankPort b (fun x => { x with
    queue := (x.queue.take 4).map (fun q => { q with waited := q.waited + 1 }) ++ x.queue.drop 4 }) s

/-- A rank 3 request that waited longer than STARVE_LIMIT is counted and recorded (R177). -/
def starveCheck (b : Nat) (q : BankReq) (s : State) : State :=
  let pg := P.RGN (b / 16)
  let lim := rdf pg R.RGN_STARVE_LIMIT 15 0 s
  if lim ≠ 0 ∧ lim < q.waited then
    s |> count pg R.RGN_STARVE_COUNT
      |> wr pg R.RGN_STARVE_LAST (W (min q.waited 0xFFFF * 2 ^ 16 + b % 16))
      |> irq pg 22
  else s

/-- STEWARD_EXCLUDED of bank b in BANK_EXCL (R179). -/
def stewardExcluded (b : Nat) (s : State) : Bool := bit (b % 16) (rd (P.RGN (b / 16)) R.RGN_BANK_EXCL s)

/-- Is the request a write of some kind? -/
def isWriteOp : BankOp → Bool
  | .write _ | .rmw _ _ => true
  | _ => false

/-- A steward write to an excluded bank is refused (R179). -/
def refuseExcluded (b : Nat) (s : State) (q : BankReq) : State :=
  let pg := P.RGN (b / 16)
  s |> giveCode q E.PERM_FAULT |> err pg E.PERM_FAULT 0 (bankAddr b q.word) |> count pg R.RGN_STEWARD_REFUSED

/-- The requests of the steward stand at the rank that STEWARD_EXCLUDED gives them: with it, writes are refused and
reads wait at rank 3; without it, all stand at rank 1 (R179). -/
def rerank (b : Nat) (s : State) : State :=
  let x := bankPort b s
  if x.excl then
    let (ws, rs) := x.stew.partition fun q => isWriteOp q.op
    ws.foldl (refuseExcluded b) (setBankPort b { x with stew := [], queue := x.queue ++ rs } s)
  else
    let (st, rest) := x.queue.partition fun q => q.rq == .steward && q.engine.isNone
    setBankPort b { x with stew := x.stew ++ st, queue := rest } s

/-- The port follows BANK_EXCL from the second bank cycle on (R179). -/
def settleExcl (b : Nat) (s : State) : State := mdBankPort b (fun x => { x with excl := stewardExcluded b s }) s

/-- A bank cycle granted to the first request of the steward. -/
def grantSteward (b : Nat) (q : BankReq) (rest : List BankReq) (s : State) : State :=
  let (t, again) := serveReq b q (mdBankPort b (fun y => { y with stew := rest }) s)
  let t := match again with
    | some q => mdBankPort b (fun y => { y with stew := q :: y.stew }) t
    | none => t
  denyCycles (1 + if grantWrites q then 0 else readCost b q.word s) b t

/-- A bank cycle granted to the oldest request of rank 3. -/
def grantIdle (b : Nat) (q : BankReq) (rest : List BankReq) (s : State) : State :=
  let (t, again) := serveReq b q (mdBankPort b (fun y => { y with queue := rest }) s)
  let t := waitRank3 b t
  let t := match again with
    | some q => mdBankPort b (fun y => { y with queue := q :: y.queue }) t
    | none => starveCheck b q t
  denyCycles (if grantWrites q then 0 else readCost b q.word s) b (tileEvent b 0x06 t)

/-- Enter a request at a bank (R177). A bank that does not answer is answered for at once (R16, R185, R186), and a
tag-view write with bits above the tag is refused (R181). -/
def enterReq (q : BankReq) (b : Nat) (s : State) : State :=
  let bad : Bool := match q.op with
    | .rmw .tagView v => fld 31 3 v != 0
    | _ => false
  if bad then giveCode q E.PERM_FAULT s
  else if bankGone b s then (serveReq b q s).1
  else if q.rq = .steward ∧ q.engine = none then mdBankPort b (fun x => { x with stew := x.stew ++ [q] }) s
  else mdBankPort b (fun x => { x with queue := x.queue ++ [q] }) s

/-- An engine of the device accesses a word at rank 3 of its bank: the outcome once it has been served. A first call
enters the request; until it has been granted there is none. -/
def viaPort (e b w : Nat) (op : BankOp) (s : State) : Option (TWord × Nat) × State :=
  let t := match tfind s.banks.engines e with
    | none => enterReq ⟨.fabric, some e, w, op, false, 0⟩ b (setBanks { s.banks with engines := tins e none s.banks.engines } s)
    | some _ => s
  match (tfind t.banks.engines e).join with
  | some r => (some r, setBanks { t.banks with engines := tdel e t.banks.engines } t)
  | none => (none, t)

/-- Every queued request of a bank that has gone, with its region, is answered as absent (R16). -/
def answerBank (b : Nat) (s : State) : State :=
  let x := bankPort b s
  (x.stew ++ x.queue).foldl (fun t q => (serveReq b q t).1) (setBankPort b { x with stew := [], queue := [] } s)

/-- A host read waits at a bank (R177). -/
def hostReading (s : State) : Bool :=
  s.banks.ports.any fun p => p.2.queue.any fun q => q.rq == .host && q.engine.isNone && !isWriteOp q.op

/-- The request of an engine whose work is discarded leaves its queue. -/
def dropEngine (e : Nat) (s : State) : State :=
  if tfind s.banks.engines e = none then s
  else setBanks { s.banks with
    engines := tdel e s.banks.engines
    ports := s.banks.ports.filterMap fun p =>
      let x := { p.2 with queue := p.2.queue.filter fun q => q.engine != some e }
      if x = Bank.idle then none else some (p.1, x) } s

end Sys2Proof.Machine
end

