-- ==== Sys2Proof/Machine/Region.lean ====
section
/-! DEFINITION. Regions as a whole: running or not, retirement, permanent faults (R274, R368, R370). -/
namespace Sys2Proof.Machine

open Sys2Proof

/-- The region's cells, logic and slices run: mode RUN, or RELEASE once GSR has been released; region ON,
its clock running, GSR not asserted. -/
def regionRuns (r : Nat) (s : State) : Bool :=
  (s.dev.mode == .run || s.dev.mode == .release) && regionOn r s && !(rgn r s).gsr &&
    (s.pwr.hare || !islandStopped r s)

/-- The device runs its fabric: RUN, or RELEASE. -/
def deviceRuns (s : State) : Bool := s.dev.mode == .run || s.dev.mode == .release

/-- STAGE_STAT.VALID of a region's staging plane (R249). -/
def stageValid (r : Nat) (s : State) : Bool := bit 31 (rd (P.RGN r) R.RGN_STAGE_STAT s)

/-- The staging plane of a region becomes invalid (R249). -/
def invalidateStage (r : Nat) (s : State) : State :=
  s |> wrf (P.RGN r) R.RGN_STAGE_STAT 31 31 0
    |> wrf (P.RGN r) R.RGN_DIGEST_STAT 30 30 0
    |> mdRgn r (fun x => { x with stageUnreferenced := [] })

/-! ## Refused loads (R256) -/

/-- A frame address (R127). -/
def frameAddr (r f : Nat) : Nat := r * 2048 + f

/-- A load of the regions rs (lowest first) is refused: `started` says that it had passed check 3, so that
the staging planes become invalid. -/
def loadRefused (rs : List Nat) (started : Bool) (code frame : Nat) (s : State) : State :=
  let t := if started then rs.foldl (fun t r =>
      t |> invalidateStage r |> wrf (P.RGN r) R.RGN_STAGE_STAT 23 16 code
        |> (fun t => setFox { t.fox with loads := tdel r t.fox.loads } t)) s
    else s
  t |> wr P.FOX R.FOX_LOAD_STAT (W (code * 2 ^ 24 + rs.headD 0 * 2 ^ 8))
    |> wr P.FOX R.FOX_LOAD_FRAME (W frame)
    |> err P.FOX code 0 0 |> irq P.FOX 1

/-- The image header: 24 words, then records of 33 words (R253). -/
abbrev headerWords : Nat := 24
abbrev recordWords : Nat := 33

/-- FENCE and FRAME_COUNT of an image (Table 11.2). -/
def imageFence (ws : List Word) : BitVec 64 := join64 (ws.getD 2 0) (ws.getD 3 0)
def imageCount (ws : List Word) : Nat := fld 16 0 (ws.getD 4 0)
/-- The length of an image whose header is here. -/
def imageLength (ws : List Word) : Nat := headerWords + recordWords * imageCount ws

/-- All words of the stream have arrived. -/
def streamEnded (x : Stream) : Bool := x.words.length == imageLength x.words

/-- The open stream is refused: a staging stream invalidates every plane of its fence. A stream that has
ended goes; else words still to come are discarded until it is closed. -/
def streamRefused (code frame : Nat) (s : State) : State :=
  match s.fox.stream with
  | none => s
  | some x =>
    let t := loadRefused (maskList (imageFence x.words)) (x.started && x.target.isNone) code frame s
    setFox { t.fox with stream := if streamEnded x then none else some { x with refused := true } } t

/-- A region goes off, is gated or retires while a started load into it is in progress (R256). -/
def dropLoad (r code : Nat) (s : State) : State :=
  match tfind s.fox.loads r with
  | none => s
  | some l =>
    if l.src < 4 then loadRefused [r] true code (frameAddr r 0) s
    else match s.fox.stream with
      | none => s
      | some x => streamRefused code (frameAddr ((maskList (imageFence x.words)).headD 0) 0) s

/-- The banks of region r, which is no longer on, answer what waits at them as absent (R16). -/
def answerBanks (r : Nat) (s : State) : State := (List.range 16).foldl (fun t l => answerBank (16 * r + l) t) s

/-- Key k of a tap group belongs to region r or faces it from a neighbour (R123). -/
def tapFaces (r k : Nat) : Bool :=
  let m := k / 16
  let d := k / 4 % 4
  k % 1024 / 16 == r ||
    (k < 1024 && ((d == 2 && m + 8 == r) || (d == 0 && m == r + 8) || (d == 3 && m == r + 1 && r % 8 != 7) ||
      (d == 1 && m + 1 == r && r % 8 != 0)))

/-- The tap groups between region r and its neighbours empty, so that their lanes present IN_DEFAULT until the first item
that arrives once both are ON (R123). -/
def clearTaps (r : Nat) (s : State) : State :=
  setLogic { s.logic with taps := s.logic.taps.filter fun e => !tapFaces r e.1 } s

/-- Retire a region (R60, R274): its power state is RETIRED, its crossings are fenced (R16), a load into it
is refused (R256), its interrupts are withdrawn, and DEV records it. -/
def retireRegion (r code : Nat) (s : State) : State :=
  s |> dropLoad r E.RETIRED |> abandonSlice (fun b => sliceRegion b == some r) |> fenceRegion r |> invalidateStage r
    |> mdRgn r (fun x => { x with power := .retired, sq := [], draining := false, drained := false,
                                  inHeld := 0 })
    |> answerBanks r |> clearTaps r |> wr (P.RGN r) R.IRQ_PEND 0
    |> retireLast (P.RGN r) code

/-- A region becomes permanently faulty (R274), with the cause that made it so recorded in FAULT_HIST: source 1 a frame,
2 a cell register, 3 background test. With AUTO_RETIRE it is retired. -/
def regionFaulty (r source code : Nat) (s : State) : State :=
  let t := if bit 31 (rd (P.RGN r) R.RGN_SCRUB_STAT s) then s
    else wr (P.RGN r) R.RGN_FAULT_HIST (W (code * 2 ^ 24 + source)) s
  let t := t |> wrf (P.RGN r) R.RGN_SCRUB_STAT 31 31 1
             |> setArr P.FOX R.FOX_FAULTY_LO r true
             |> irq (P.RGN r) 27 |> irq P.FOX 4
  if bit 0 (rd (P.RGN r) R.RGN_CTL s) then retireRegion r code t else t

/-- One more event of a kind whose third within an hour makes the region faulty (R368, R369): the 3 latest
are kept; true when the threshold is reached. -/
def thirdWithinHour (l : List (BitVec 64)) (s : State) : List (BitVec 64) × Bool :=
  let l := (s.time.ringTime :: recent hour1 s l).take 3
  (l, l.length == 3)

end Sys2Proof.Machine
end

