-- ==== Sys2Proof/Machine/Operands.lean ====
section
/-! DEFINITION. Word cells: configuration, instruction entries, ports and every operand form (Tables 4.1
to 4.5, R71–R77, R92, R93, R128). -/
namespace Sys2Proof.Machine

open Sys2Proof

/-! ## Cell state -/

def Cell.blank : Cell :=
  { d0 := zeroWord, d1 := zeroWord, d2 := zeroWord, d3 := zeroWord, cnt := 0, z := false, n := false,
    c := false, v := false, bp := 0, ltag := .data, entry := 0, tapOut := 0, tapNext := none,
    halted := false, issued := none, posted := none, stall := none }

def cell (c : Nat) (s : State) : Cell := tget Cell.blank s.fab.cells c
def setCell (c : Nat) (x : Cell) (s : State) : State :=
  setFab { s.fab with cells := tput Cell.blank c x s.fab.cells } s
def mdCell (c : Nat) (f : Cell → Cell) (s : State) : State := setCell c (f (cell c s)) s

/-- Data register dn. -/
def cellReg (n : Nat) (x : Cell) : TWord :=
  match n with
  | 0 => x.d0 | 1 => x.d1 | 2 => x.d2 | _ => x.d3
def setCellReg (n : Nat) (w : TWord) (x : Cell) : Cell :=
  match n with
  | 0 => { x with d0 := w } | 1 => { x with d1 := w } | 2 => { x with d2 := w } | _ => { x with d3 := w }

def cellTile (c : Nat) : Nat := c / 16
def cellRegion (c : Nat) : Nat := c / 256

/-! ## Configuration (Table 4.9, R128) -/

/-- Word w of the half of the cell frame that belongs to cell c. -/
def cellFrame (c w : Nat) (s : State) : Word := tileFrame (c / 16) (c % 16 / 2) (c % 2 * 13 + w) s
def cellCfg (c : Nat) (s : State) : Word := cellFrame c 12 s
def cellEnabled (c : Nat) (s : State) : Bool := bit 0 (cellCfg c s)
/-- Binding code of IN_A, IN_B, OUT_A, OUT_B (k = 0–3). -/
def cellBind (c k : Nat) (s : State) : Nat := fld (3 * k + 3) (3 * k + 1) (cellCfg c s)
def cellStart (c : Nat) (s : State) : BitVec 3 := BitVec.ofNat 3 (fld 15 13 (cellCfg c s))
def rdySel (c : Nat) (s : State) : Nat := fld 16 16 (cellCfg c s)
def fltPass (c : Nat) (s : State) : Bool := bit 17 (cellCfg c s)
def cellRetain (c n : Nat) (s : State) : Bool := bit (18 + n) (cellCfg c s)

/-! ## Instruction entries (Table 4.3) -/

/-- The 48 bits of entry e of cell c as the plane holds them. -/
def entryBits (c e : Nat) (s : State) : Nat :=
  let k := 48 * e / 32
  ((cellFrame c k s).toNat + 2 ^ 32 * (cellFrame c (k + 1) s).toNat) / 2 ^ (48 * e % 32) % 2 ^ 48

/-- The immediate configured in the active plane, and the live one (R97, R101). -/
def configImm (c e : Nat) (s : State) : BitVec 16 := BitVec.ofNat 16 (entryBits c e s)
def liveImm (c e : Nat) (s : State) : BitVec 16 := (tfind s.fab.live (c * 8 + e)).getD (configImm c e s)

def insnOf (bits : Nat) (imm : BitVec 16) : Insn :=
  { opcode := bits / 2 ^ 42 % 64, dst := bits / 2 ^ 39 % 8, srcA := bits / 2 ^ 35 % 16,
    srcB := bits / 2 ^ 31 % 16, tagact := bits / 2 ^ 28 % 8, cond := bits / 2 ^ 25 % 8,
    nextT := bits / 2 ^ 22 % 8, nextF := bits / 2 ^ 19 % 8, rsv := bits / 2 ^ 16 % 8, imm := imm }

/-- The instruction that the cell issues next. -/
def curInsn (c : Nat) (s : State) : Insn :=
  let e := (cell c s).entry.toNat
  insnOf (entryBits c e s) (liveImm c e s)

/-- Does an opcode use operand A, operand B (Table 4.8)? -/
def usesA (op : Nat) : Bool := op != 0x1F && op != 0x25 && op ≤ 0x25
def usesB (op : Nat) : Bool :=
  (1 ≤ op && op ≤ 0x18) || op == 0x1A || op == 0x1B || op == 0x1C || op == 0x21 || op == 0x22
/-- Opcodes that Table 4.8 marks as producing no result. -/
def noResult (op : Nat) : Bool := op == 0x1A || op == 0x1B || op == 0x21 || op == 0x23 || op == 0x25
/-- Opcodes that write nothing and change nothing but LTAG on a FAULT operand (R91). -/
def quietOnFault (op : Nat) : Bool :=
  op == 0x1A || op == 0x1B || op == 0x21 || op == 0x23 || op == 0x24 || op == 0x1E

/-- The conditions of R80, under which a cell halts without executing. -/
def reservedInsn (i : Insn) : Bool :=
  0x26 ≤ i.opcode || i.rsv != 0 || (usesA i.opcode && 14 ≤ i.srcA) || (usesB i.opcode && 14 ≤ i.srcB) ||
    (i.opcode == 0x23 && i.srcA != 4 && i.srcA != 5)

/-! ## Ports (Table 4.2) -/

/-- The neighbour of a cell in a direction, inside its tile. -/
def neighbour (c : Nat) (d : Dir) : Option Nat :=
  let row := c % 16 / 4
  let col := c % 4
  match d with
  | .n => if row = 0 then none else some (c - 4)
  | .e => if col = 3 then none else some (c + 1)
  | .s => if row = 3 then none else some (c + 4)
  | .w => if col = 0 then none else some (c - 1)

def opposite : Dir → Dir
  | .n => .s | .e => .w | .s => .n | .w => .e

def dirOf (n : Nat) : Dir :=
  match n with
  | 0 => .n | 1 => .e | 2 => .s | _ => .w

def cellId (n : Nat) : CellId := Fin.ofNat 16384 n

/-- The channel behind an input port (k = 0 IN_A, 1 IN_B), none if unbound. -/
def inChan (c k : Nat) (s : State) : Option ChanId :=
  match cellBind c k s with
  | 4 => some (.tpIn (tpId (2 * cellTile c)))
  | 5 => some (.tpIn (tpId (2 * cellTile c + 1)))
  | 6 => none
  | 7 => none
  | d => some (.mesh (cellId c) (dirOf d))

/-- The word at the front of an input port: none while a bound port holds no word; an unbound port reads
NULL (R72), a retired link or disabled tile port FAULT once it is empty (R92, R165). -/
def inWord (c k : Nat) (s : State) : Option TWord :=
  match inChan c k s with
  | none => some nullWord
  | some ch =>
    let x := chan ch s
    match x.buffer with
    | w :: _ => some w
    | [] => if x.retired then some (faultWord E.REPLAY_FAIL (chanDetail ch)) else none

/-- Consume the word at the front of an input port. -/
def takeIn (c k : Nat) (s : State) : State :=
  match inChan c k s with
  | none => s
  | some ch =>
    match (chan ch s).buffer with
    | [] => s
    | _ :: _ =>
      let t := popBuffer ch s
      match ch with
      | .tpIn _ => tileEvent (cellTile c) 0x0A t
      | _ => t

/-- Where an output port leads (k = 0 OUT_A, 1 OUT_B): a channel, or a place where the word is discarded
and counted (R72). -/
def outChan (c k : Nat) (s : State) : Option ChanId :=
  match cellBind c (2 + k) s with
  | 4 => some (.tpOut (tpId (2 * cellTile c)))
  | 5 => some (.tpOut (tpId (2 * cellTile c + 1)))
  | 6 => none
  | 7 => none
  | d =>
    match neighbour c (dirOf d) with
    | none => none
    | some m =>
      let side := opposite (dirOf d)
      let bound := (cellBind m 0 s = dirCode side) ∨ (cellBind m 1 s = dirCode side)
      if cellEnabled m s ∧ bound then some (.mesh (cellId m) side) else none

/-- Has the output port room for a word? -/
def outRoom (c k : Nat) (s : State) : Bool :=
  match outChan c k s with
  | none => true
  | some ch => outReady ch s

/-- Write a word to an output port that has room. -/
def putOut (c k : Nat) (w : TWord) (s : State) : State :=
  match outChan c k s with
  | none => count (P.RGN (cellRegion c)) R.RGN_UNBOUND_WRITES s
  | some ch =>
    let t := send ch [w] s
    match ch with
    | .tpOut _ => tileEvent (cellTile c) 0x09 t
    | _ => t

/-! ## Operands (Table 4.5) -/

/-- A register operand that fails parity is replaced, in the register too, by a FAULT word (R93); the third
failure in a cell within an hour makes the region faulty (R368). -/
def repairReg (c n : Nat) (s : State) : State :=
  let x := cell c s
  if parGood (cellReg n x) then s
  else
    let r := cellRegion c
    let (l, third) := thirdWithinHour (tget [] s.fab.parityTimes c) s
    let t := s |> setCell c (setCellReg n (faultWord E.PARITY (c % 256)) x)
               |> (fun s => setFab { s.fab with parityTimes := tput [] c l s.fab.parityTimes } s)
               |> err (P.RGN r) E.PARITY (c % 256) 0
    if third && fld 1 0 (rd (P.RGN r) R.RGN_FAULT_HIST t) == 0 then regionFaulty r 2 E.PARITY t else t

/-- What an operand code reads (Table 4.5), with the words at the ports and the bank word at BP. -/
def operand (code : Nat) (i : Insn) (x : Cell) (inA inB bank : TWord) (tap : BitVec 16) : TWord :=
  match code with
  | 0 => x.d0
  | 1 => x.d1
  | 2 => x.d2
  | 3 => x.d3
  | 4 => if inA.tag = .null then nullWord else inA
  | 5 => if inB.tag = .null then nullWord else inB
  | 6 => tw .data (i.imm.setWidth 32)
  | 7 => tw .data (i.imm ++ (0 : BitVec 16))
  | 8 => if bank.tag = .null then nullWord else bank
  | 9 => tw .data (tap.setWidth 32)
  | 10 => tw .data (x.cnt.setWidth 32)
  | 11 => tw .data (W (b2n x.z + 2 * b2n x.n + 4 * b2n x.c + 8 * b2n x.v))
  | 12 => tw .data 0
  | 13 => tw .data (i.imm.signExtend 32)
  | _ => tw .data 0

/-! ## Flip-flops and the tap input (R106, R108, R128, R129) -/

/-- Key of flip-flop n of region slice index i of region r. -/
def ffKey (r i n : Nat) : Nat := r * 12288 + i * 16 + n

/-- Word w of the slice frame of region slice index i (Table 5.5). -/
def sliceWord (r i w : Nat) (s : State) : Word := tileFrame (r * 16 + i / 48) (8 + i % 48) w s

/-- The 4 configuration bits of flip-flop n: [1:0] DSEL, [2] INIT, [3] RSTVAL. -/
def ffCfg (r i n : Nat) (s : State) : Nat :=
  fld (4 * (n % 8) + 3) (4 * (n % 8)) (sliceWord r i (17 + n / 8) s)
def ffInit (r i n : Nat) (s : State) : Bool := ffCfg r i n s / 4 % 2 == 1

/-- Q of a flip-flop: an unlisted one holds its INIT value. -/
def ff (r i n : Nat) (s : State) : Bool := tget (ffInit r i n s) s.logic.ffs (ffKey r i n)

/-- The tap input of a cell (R106). -/
def tapInput (c : Nat) (s : State) : BitVec 16 :=
  let i := (cellTile c % 16) * 48 + (c % 4) * 12 + 3 * (c % 16 / 4)
  let r := cellRegion c
  (List.range 16).foldl (fun a n => if ff r (i + n / 8) (2 * (n % 8)) s then a ||| (1#16 <<< n) else a) 0

end Sys2Proof.Machine
end

