-- ==== Sys2Proof/Machine/Flags.lean ====
section
/-! DEFINITION. What each word-cell opcode computes: its result and its flags (Table 4.8, R82). -/
namespace Sys2Proof.Machine

open Sys2Proof

/-- Z and N from a result (R82). -/
def zn (r : Word) (x : Cell) : Cell := { x with z := r == 0, n := r.msb }

/-- A sum of two words and a carry: result, carry out of bit 31, signed overflow. -/
def sum3 (a b : Word) (cin : Bool) : Word × Bool × Bool :=
  let t := a.toNat + b.toNat + b2n cin
  let r := W t
  (r, 2 ^ 32 ≤ t, a.msb == b.msb && r.msb != a.msb)

/-- Z, N, C, V from a sum. -/
def sumFlags (a b : Word) (cin : Bool) (x : Cell) : Word × Cell :=
  let (r, c, v) := sum3 a b cin
  (r, { zn r x with c := c, v := v })

def aluPass (a _ : Word) (x : Cell) : Word × Cell := (a, zn a x)
def aluAdd (a b : Word) (x : Cell) : Word × Cell := sumFlags a b false x
def aluAdc (a b : Word) (x : Cell) : Word × Cell := sumFlags a b x.c x
def aluSub (a b : Word) (x : Cell) : Word × Cell := sumFlags a (~~~b) true x
def aluSbc (a b : Word) (x : Cell) : Word × Cell := sumFlags a (~~~b) x.c x

/-- Signed saturation to 32 bits: the value and whether it saturated. -/
def satS (i : Int) : Word × Bool :=
  if i < -(2 ^ 31) then (0x80000000, true)
  else if 2 ^ 31 - 1 < i then (0x7FFFFFFF, true)
  else (BitVec.ofInt 32 i, false)

def aluAddss (a b : Word) (x : Cell) : Word × Cell :=
  let (r, v) := satS (a.toInt + b.toInt)
  (r, { zn r x with v := v })
def aluSubss (a b : Word) (x : Cell) : Word × Cell :=
  let (r, v) := satS (a.toInt - b.toInt)
  (r, { zn r x with v := v })
def aluAddus (a b : Word) (x : Cell) : Word × Cell :=
  let t := a.toNat + b.toNat
  let c := decide (2 ^ 32 ≤ t)
  let r := if c then 0xFFFFFFFF else W t
  (r, { zn r x with c := c })
def aluSubus (a b : Word) (x : Cell) : Word × Cell :=
  let c := decide (a.toNat < b.toNat)
  let r := if c then 0 else a - b
  (r, { zn r x with c := c })

def lo16 (a : Word) : BitVec 16 := a.setWidth 16

def aluMuls (a b : Word) (x : Cell) : Word × Cell :=
  let r := BitVec.ofInt 32 ((lo16 a).toInt * (lo16 b).toInt)
  (r, zn r x)
def aluMulu (a b : Word) (x : Cell) : Word × Cell :=
  let r := W ((lo16 a).toNat * (lo16 b).toNat)
  (r, zn r x)
def aluMulsu (a b : Word) (x : Cell) : Word × Cell :=
  let r := BitVec.ofInt 32 ((lo16 a).toInt * (lo16 b).toNat)
  (r, zn r x)

def aluAnd (a b : Word) (x : Cell) : Word × Cell := (a &&& b, zn (a &&& b) x)
def aluOr (a b : Word) (x : Cell) : Word × Cell := (a ||| b, zn (a ||| b) x)
def aluXor (a b : Word) (x : Cell) : Word × Cell := (a ^^^ b, zn (a ^^^ b) x)
def aluAndn (a b : Word) (x : Cell) : Word × Cell := (a &&& ~~~b, zn (a &&& ~~~b) x)

/-- The shift amount B[4:0]. -/
def shAmt (b : Word) : Nat := b.toNat % 32

/-- Z and N, and C as the last bit moved out; a shift by zero leaves C (R82). -/
def shFlags (r : Word) (n : Nat) (out : Bool) (x : Cell) : Cell :=
  { zn r x with c := if n = 0 then x.c else out }

def aluShl (a b : Word) (x : Cell) : Word × Cell :=
  let n := shAmt b
  let r := a <<< n
  (r, shFlags r n (a.getLsbD (32 - n)) x)
def aluShr (a b : Word) (x : Cell) : Word × Cell :=
  let n := shAmt b
  let r := a >>> n
  (r, shFlags r n (a.getLsbD (n - 1)) x)
def aluSar (a b : Word) (x : Cell) : Word × Cell :=
  let n := shAmt b
  let r := a.sshiftRight n
  (r, shFlags r n (a.getLsbD (n - 1)) x)
def aluRol (a b : Word) (x : Cell) : Word × Cell :=
  let n := shAmt b
  let r := a.rotateLeft n
  (r, shFlags r n (r.getLsbD 0) x)
def aluRor (a b : Word) (x : Cell) : Word × Cell :=
  let n := shAmt b
  let r := a.rotateRight n
  (r, shFlags r n (r.getLsbD 31) x)

def aluMin (a b : Word) (x : Cell) : Word × Cell :=
  let r := if b.slt a then b else a
  (r, zn r x)
def aluMax (a b : Word) (x : Cell) : Word × Cell :=
  let r := if a.slt b then b else a
  (r, zn r x)
def aluMinu (a b : Word) (x : Cell) : Word × Cell :=
  let r := if b.ult a then b else a
  (r, zn r x)
def aluMaxu (a b : Word) (x : Cell) : Word × Cell :=
  let r := if a.ult b then b else a
  (r, zn r x)
def aluAbs (a _ : Word) (x : Cell) : Word × Cell :=
  let v := a == 0x80000000
  let r := if v then 0x7FFFFFFF else if a.msb then -a else a
  (r, { zn r x with v := v })

/-- Number of leading zeros, 0 to 32. -/
def leadingZeros (a : Word) : Nat :=
  ((List.range 32).find? fun k => a.getLsbD (31 - k)).getD 32
def aluClz (a _ : Word) (x : Cell) : Word × Cell :=
  let r := W (leadingZeros a)
  (r, { zn r x with n := false })

/-- LCNT, TAPO: the result is A; no flag changes. TAP_OUT follows as TAPO completes (R88). -/
def aluLcnt (a _ : Word) (x : Cell) : Word × Cell := (a, { x with cnt := lo16 a })
def aluTapo (a _ : Word) (x : Cell) : Word × Cell := (a, { x with tapNext := some (lo16 a) })

/-- DBNZ: CNT counts down to zero; Z tells whether the new CNT is zero (R82). -/
def aluDbnz (_ _ : Word) (x : Cell) : Word × Cell :=
  let k := if x.cnt = 0 then 0 else x.cnt - 1
  (k.setWidth 32, { x with cnt := k, z := k == 0 })

/-- EMIT changes no flag; its tag is B[2:0]. -/
def aluEmit (a _ : Word) (x : Cell) : Word × Cell := (a, x)

/-- The result tag of TAGACT (Table 4.6). -/
def tagact (t : Nat) (a b : Tag) : Tag :=
  match t with
  | 0 => .data | 1 => .head | 2 => .last | 3 => .stat | 4 => a | 5 => b | 6 => .susp | _ => .fault

/-- A result word with fresh parity; a NULL tag forces data zero (R32, R78, R94). -/
def resultWord (t : Tag) (r : Word) : TWord := if t = .null then nullWord else tw t r

/-- COND on flags and consumed words, READY on the port that RDY_SEL selects (Table 4.7, R79). -/
def condHolds (cond : Nat) (x : Cell) (consumed : Option Tag) (ready : Bool) : Bool :=
  match cond with
  | 0 => true
  | 1 => x.z
  | 2 => x.n
  | 3 => x.c
  | 4 => x.v
  | 5 => consumed.getD x.ltag == .head
  | 6 => consumed.getD x.ltag == .last
  | _ => ready

end Sys2Proof.Machine
end

