-- ==== Sys2Proof/Machine/Mac.lean ====
section
/-! DEFINITION. Multiply-accumulate slices (R135–R146). -/
namespace Sys2Proof.Machine

open Sys2Proof

def Mac.blank : Mac :=
  { a := zeroWord, b1 := zeroWord, b2 := zeroWord, p := 0, pf := false, ppar := false, trig := [] }

def mac (m : Nat) (s : State) : Mac := tget Mac.blank s.macs m
def setMac (m : Nat) (x : Mac) (s : State) : State := setMacs (tput Mac.blank m x s.macs) s

/-- Word w of the slice's frame (R146). Slice m is tile m div 2, M(m mod 2). -/
def macWord (m w : Nat) (s : State) : Word := tileFrame (m / 2) (88 + m % 2) w s
def macEnabled (m : Nat) (s : State) : Bool := bit 0 (macWord m 0 s)
def issueSel (m : Nat) (s : State) : Nat := fld 2 1 (macWord m 0 s)

/-- Source of latch k (0 A, 1 B1, 2 B2): 0 ZERO, 1 SNOOP, 2 CONST. -/
def latchSrc (m k : Nat) (s : State) : Nat := fld 1 0 (macWord m (1 + k) s)
/-- Does latch k of slice m snoop register n of cell c? -/
def snoops (m k c n : Nat) (s : State) : Bool :=
  let w := macWord m (1 + k) s
  fld 1 0 w == 1 && fld 5 2 w == c % 16 && fld 7 6 w == n

/-! ## Cascade order (R142) -/

/-- Cascade position of slice index i of a region, and the slice index at a position. -/
def posOf (i : Nat) : Nat :=
  let l := i / 2
  let c := l % 4
  let row := l / 4
  let k := if c % 2 = 0 then row else 3 - row
  c * 8 + k * 2 + i % 2
def atPos (p : Nat) : Nat :=
  let c := p / 8
  let k := p % 8 / 2
  let row := if c % 2 = 0 then k else 3 - k
  (row * 4 + c) * 2 + p % 2

/-- The predecessor and the successor of a slice in its region's cascade. -/
def predOf (m : Nat) : Option Nat :=
  let p := posOf (m % 32)
  if p = 0 then none else some (m / 32 * 32 + atPos (p - 1))
def succOf (m : Nat) : Option Nat :=
  let p := posOf (m % 32)
  if p = 31 then none else some (m / 32 * 32 + atPos (p + 1))

/-! ## The datapath (R138–R140) -/

def parity80 (v : BitVec 80) : Bool :=
  xor (parity32 (v.setWidth 32)) (xor (parity32 ((v >>> 32).setWidth 32)) (parity32 ((v >>> 64).setWidth 32)))

/-- A 24-bit latch value as a number. -/
def b24 (signed : Bool) (w : Word) : Int :=
  let v : BitVec 24 := w.setWidth 24
  if signed then v.toInt else v.toNat

/-- What latch k of the slice reads: zero, its constant, or what it loaded; a NULL has data zero (R136, R144). -/
def latchVal (m k : Nat) (s : State) : TWord :=
  match latchSrc m k s with
  | 1 =>
    let x := mac m s
    let w := match k with | 0 => x.a | 1 => x.b1 | _ => x.b2
    if w.tag = .null then nullWord else w
  | 2 => tw .data (macWord m (4 + k) s)
  | _ => zeroWord

/-! ## Loads and triggers (R136, R137) -/

/-- The data bits [23:0] of a word, as B1 and B2 hold them. DESIGN CHOICE (assumption log 115): a FAULT word loses its
bits [31:24] there as every other word does, and the operation that uses the latch delivers it so. -/
def low24 (w : TWord) : TWord := tw w.tag (w.data &&& 0xFFFFFF)

/-- One latch loads (R136). -/
def snoopLatch (m k c n : Nat) (w : TWord) (s : State) : State :=
  if !snoops m k c n s then s
  else
    let x := mac m s
    setMac m (match k with
      | 0 => { x with a := w }
      | 1 => { x with b1 := low24 w }
      | _ => { x with b2 := low24 w }) s

/-- What a slice presents at COUT: zero in a disabled slice (R143). -/
def coutOf (m : Nat) (s : State) : Cout :=
  let x := if macEnabled m s then mac m s else Mac.blank
  ⟨x.p, x.pf, x.ppar⟩

/-- CIN of slice m now: its predecessor's COUT; zero at cascade position 0 (R142, R143). -/
def cinNow (m : Nat) (s : State) : Cout :=
  match predOf m with
  | some q => coutOf q s
  | none => ⟨0, false, false⟩

/-- A trigger of slice m: the latches as they stand, and CIN after `after` more issues of the predecessor. -/
def trigger (m : Nat) (tag : Tag) (after : Nat) (s : State) : State :=
  let cin := if after = 0 then some (cinNow m s) else none
  let x := mac m s
  setMac m { x with trig := x.trig ++ [⟨tag, latchVal m 0 s, latchVal m 1 s, latchVal m 2 s, after, cin⟩] } s

/-- The issues that slice m's predecessor was triggered for before now. -/
def predTriggers (m : Nat) (s : State) : Nat :=
  match predOf m with
  | some q => (mac q s).trig.length
  | none => 0

/-- The cell's write triggers slice m where ISSUE_SEL names a latch that loads from it; `before` is the state before the
write, whose triggers of the predecessor issue in time for this operation to see them (R137, R143). -/
def snoopTrigger (m c n : Nat) (w : TWord) (before s : State) : State :=
  let k := issueSel m s
  if macEnabled m s && k != 3 && snoops m k c n s then trigger m w.tag (predTriggers m before) s else s

/-- An instruction of cell c wrote a result to register n: every latch of the tile that snoops it loads
(R136), and each slice whose ISSUE_SEL names such a latch is triggered (R137). -/
def snoopWrite (c n : Nat) (w : TWord) (s : State) : State :=
  let m := 2 * cellTile c
  let load (s : State) (i : Nat) : State := snoopLatch (m + i / 3) (i % 3) c n w s
  snoopTrigger (m + 1) c n w s (snoopTrigger m c n w s ((List.range 6).foldl load s))

/-- Limit an integer to a range: the value and whether it was limited. -/
def clampInt (lo hi v : Int) : Int × Bool :=
  if v < lo then (lo, true) else if hi < v then (hi, true) else (v, false)

/-- The pre-adder (R138). -/
def preAdd (pre : Nat) (signed : Bool) (b1 b2 : Int) : Int × Bool :=
  let v := match pre with | 1 => b1 + b2 | 2 => b1 - b2 | _ => b1
  if signed then clampInt (-(2 ^ 23)) (2 ^ 23 - 1) v else clampInt 0 (2 ^ 24 - 1) v

/-- Shift right by n with a rounding mode: 0 toward minus infinity, 1 half up, 2 half to even (R140). -/
def roundShift (v : Int) (n round : Nat) : Int :=
  if n = 0 then v
  else
    let q := Int.fdiv v (2 ^ n)
    let r := v - q * 2 ^ n
    match round with
    | 1 => Int.fdiv (v + 2 ^ (n - 1)) (2 ^ n)
    | 2 => if 2 * r < 2 ^ n then q else if 2 ^ n < 2 * r then q + 1
        else if Int.fmod q 2 = 0 then q else q + 1
    | _ => q

/-- The output stage: R and whether it was limited (R140). -/
def outStage (p : BitVec 80) (shift round osat : Nat) : Word × Bool :=
  let v := roundShift p.toInt shift round
  match osat with
  | 1 => let (x, l) := clampInt (-(2 ^ 31)) (2 ^ 31 - 1) v; (BitVec.ofInt 32 x, l)
  | 2 => let (x, l) := clampInt 0 (2 ^ 32 - 1) v; (BitVec.ofInt 32 x, l)
  | _ => (BitVec.ofInt 32 v, false)

/-- Write the result register (R140): a cell write in the same cycle prevails. -/
def macResult (m : Nat) (w : TWord) (lost : Bool) (s : State) : State :=
  let cfg := macWord m 7 s
  if !bit 0 cfg then s
  else
    let pg := P.RGN (m / 32)
    if lost then s |> count pg R.RGN_RES_LOST_COUNT |> irq pg 13
    else mdCell (m / 2 * 16 + fld 4 1 cfg) (setCellReg (fld 6 5 cfg) w) s

/-- Set a sticky bit of slice m; ACC_SAT and OUT_SAT raise MAC_SAT (R148). -/
def macSticky (off m : Nat) (raise : Bool) (s : State) : State :=
  let pg := P.RGN (m / 32)
  let t := md pg off (setBit (m % 32) true) s
  if raise then irq pg 12 t else t

/-- What the operation delivers in place of a computed value: the FAULT word of an operand or Z term. -/
def macFault (m : Nat) (w : Word) (lost : Bool) (s : State) : State :=
  let x := mac m s
  let p : BitVec 80 := ((x.p >>> 32).setWidth 48 : BitVec 48) ++ w
  s |> setMac m { x with p := p, pf := true, ppar := parity80 p }
    |> macSticky R.RGN_FAULT_STICKY m false
    |> macResult m (tw .fault w) lost

/-- The Z sources of an operation: the slice's own P, and CIN. -/
def usesP (zsel : Nat) (cleared : Bool) : Bool := (zsel == 1 || zsel == 3) && !cleared
def usesCin (zsel : Nat) : Bool := zsel == 2 || zsel == 3

/-- One operation (R137–R144). DESIGN CHOICE (assumption log 116): where several conditions of R144 hold at once, a
FAULT operand goes before a parity failure, and a parity failure before a set PF. -/
def macOp (m : Nat) (g : MacTrig) (lost : Bool) (s : State) : State :=
  let cfg := macWord m 0 s
  let x := mac m s
  let pre := fld 6 5 cfg
  let zsel := fld 8 7 cfg
  let cleared := bit 10 cfg && g.tag == .head
  let cin := g.cin.getD (cinNow m s)
  let badP := usesP zsel cleared && parity80 x.p != x.ppar
  let badC := usesCin zsel && parity80 cin.p != cin.ppar
  if g.a.tag = .fault then macFault m g.a.data lost s
  else if g.b1.tag = .fault then macFault m g.b1.data lost s
  else if pre ≠ 0 ∧ g.b2.tag = .fault then macFault m g.b2.data lost s
  else if badP ∨ badC then
    let i := if badP then m % 32 else ((predOf m).getD m) % 32
    s |> err (P.RGN (m / 32)) E.PARITY (0x200 + i) 0
      |> macFault m (faultWord E.PARITY (0x200 + i)).data lost
  else if usesP zsel cleared ∧ x.pf then macFault m (x.p.setWidth 32) lost s
  else if usesCin zsel ∧ cin.pf then macFault m (cin.p.setWidth 32) lost s
  else
    let (b, preSat) := preAdd pre (bit 4 cfg) (b24 (bit 4 cfg) g.b1.data) (b24 (bit 4 cfg) g.b2.data)
    let av : Int := if bit 3 cfg then g.a.data.toInt else g.a.data.toNat
    let prod := av * b
    let z := (if usesP zsel cleared then x.p.toInt else 0) + (if usesCin zsel then cin.p.toInt else 0)
    let v := if bit 9 cfg then z - prod else z + prod
    let (sat, beyond) := clampInt (-(2 ^ 79)) (2 ^ 79 - 1) v
    let p : BitVec 80 := BitVec.ofInt 80 (if bit 11 cfg then sat else v)
    let (r, lim) := outStage p (fld 17 12 cfg) (fld 19 18 cfg) (fld 21 20 cfg)
    let t := setMac m { x with p := p, pf := false, ppar := parity80 p } s
    let t := if preSat then macSticky R.RGN_PRE_SAT_STICKY m false t else t
    let t := if beyond then macSticky R.RGN_ACC_SAT_STICKY m true t else t
    let t := if lim then macSticky R.RGN_OUT_SAT_STICKY m true t else t
    macResult m (tw .data r) lost t

/-- One more issue of the predecessor has been made: a trigger that sees no later one takes COUT as it stands (R143). -/
def MacTrig.seen (now : Cout) (g : MacTrig) : MacTrig :=
  if g.after = 0 then g else { g with after := g.after - 1, cin := if g.after = 1 then some now else none }

/-- The operation of slice m has been made: its successor's waiting triggers see it, and a PRED successor is triggered
with the tag of the chain's first trigger (R137, R139, R143). -/
def triggerSucc (m : Nat) (tag : Tag) (s : State) : State :=
  match succOf m with
  | some q =>
    let x := mac q s
    let t := setMac q { x with trig := x.trig.map (MacTrig.seen (coutOf m s)) } s
    if macEnabled q s && issueSel q s == 3 then trigger q tag 0 t else t
  | none => s

/-- Issue the oldest trigger of slice m (R137). -/
def macIssueOp (m : Nat) (lost : Bool) (s : State) : State :=
  let x := mac m s
  match x.trig with
  | [] => s
  | g :: rest =>
    if !(regionRuns (m / 32) s && macEnabled m s) then s
    else
      s |> setMac m { x with trig := rest }
        |> tileEvent (m / 2) 0x08
        |> macOp m g lost
        |> triggerSucc m g.tag

/-- GSR clears every slice of a region (R145). -/
def clearMacs (r : Nat) (s : State) : State := setMacs (tclear (32 * r) (32 * (r + 1)) s.macs) s

end Sys2Proof.Machine
end

