-- ==== Sys2Proof/Machine/Cells.lean ====
section
/-! DEFINITION. The word-cell instructions (Table 4.8): issue, execution, write, stall, HALT, and live
parameter update (R73–R101). A command names a cell and stands for that instruction at that cell; it has no effect
unless the cell issues exactly that opcode. An instruction that needs no bank access issues and completes in one
command. One that does issues in a first command, which enters its request at the port of the tile's bank, and
completes in a second one once the port has granted it (Machine/Port.lean). -/
namespace Sys2Proof.Machine

open Sys2Proof

/-- What a command answers. -/
abbrev Out : Type := Host.Outcome State Fault Refusal

/-- The cell is under a background cell slice (R380). -/
def underSlice (c : Nat) (s : State) : Bool :=
  match s.wpk.bg with
  | some b => b.cls == 1 && b.block == c
  | none => false

/-- The cell executes: its region runs, it is enabled, not halted, not stalled on output, not under a
background slice. -/
def cellReady (c : Nat) (s : State) : Bool :=
  let x := cell c s
  regionRuns (cellRegion c) s && cellEnabled c s && !x.halted && x.stall.isNone && !underSlice c s

/-- The instruction names input port k (0 IN_A, 1 IN_B) as an operand it consumes (R77). -/
def names (i : Insn) (k : Nat) : Bool :=
  i.opcode != 0x23 && ((usesA i.opcode && i.srcA == 4 + k) || (usesB i.opcode && i.srcB == 4 + k))

/-- The instruction has a BANK operand. -/
def namesBank (i : Insn) : Bool := (usesA i.opcode && i.srcA == 8) || (usesB i.opcode && i.srcB == 8)

/-- Every input word the instruction names is present (R84, R85). -/
def inputsReady (c : Nat) (i : Insn) (s : State) : Bool :=
  (!names i 0 || (inWord c 0 s).isSome) && (!names i 1 || (inWord c 1 s).isSome) &&
    (i.opcode != 0x23 || (inWord c (i.srcA - 4) s).isSome)

/-- Does cell c issue opcode op now? -/
def issues (c op : Nat) (s : State) : Bool :=
  let i := curInsn c s
  cellReady c s && (cell c s).issued.isNone && i.opcode == op && !reservedInsn i && inputsReady c i s

/-- What the issue phase reads (R84): operands, a BANK operand still to be read as zero, the consumed tag, and the state
after consumption. -/
structure Fetched where
  a : TWord
  b : TWord
  consumed : Option Tag
  st : State

/-- A register that an operand field names is checked (R93). -/
def checkOperand (c : Nat) (used : Bool) (code : Nat) (s : State) : State :=
  if used && code ≤ 3 then repairReg c code s else s

/-- Issue: check and read operands, consume input words, set LTAG (R77, R84, Table 4.1). -/
def fetch (c : Nat) (i : Insn) (s : State) : Fetched :=
  let s1 := checkOperand c (usesB i.opcode) i.srcB (checkOperand c (usesA i.opcode) i.srcA s)
  let inA := (inWord c 0 s1).getD nullWord
  let inB := (inWord c 1 s1).getD nullWord
  let tap := tapInput c s1
  let x := cell c s1
  let consumed := if names i 0 then some inA.tag else if names i 1 then some inB.tag else none
  let s3 := if names i 0 then takeIn c 0 s1 else s1
  let s4 := if names i 1 then takeIn c 1 s3 else s3
  let s5 := match consumed with
    | some t => mdCell c (fun y => { y with ltag := t }) s4
    | none => s4
  ⟨operand i.srcA i x inA inB zeroWord tap, operand i.srcB i x inA inB zeroWord tap, consumed, s5⟩

/-- The result tag: TAGACT on the tags of the operands that the opcode uses (R78, assumption log 30). -/
def resTag (i : Insn) (f : Fetched) : Tag :=
  tagact i.tagact (if usesA i.opcode then f.a.tag else .data) (if usesB i.opcode then f.b.tag else .data)

/-- The FAULT operand that stops an instruction, A before B (R91). -/
def faultOperand (c : Nat) (i : Insn) (f : Fetched) : Option TWord :=
  if fltPass c f.st then none
  else if usesA i.opcode && f.a.tag == .fault then some f.a
  else if usesB i.opcode && f.b.tag == .fault then some f.b
  else none

/-- A BANK operand advances BP, but where the result goes to the bank: the word read is then rewritten, and
BP advances once in all (R87). -/
def advancesBp (i : Insn) : Bool := namesBank i && (i.dst != 6 || noResult i.opcode)
/-- BP after an advance. -/
def bumpBp (b : Bool) (x : Cell) : Cell := if b then { x with bp := x.bp + 1 } else x

/-- Complete the instruction: evaluate the condition, choose the successor, count it (R75, R79); TAPO's value drives the
tap from now on (R88). -/
def complete (c : Nat) (i : Insn) (consumed : Option Tag) (taken : Option Bool) (s : State) : State :=
  let x := cell c s
  let ready := (inWord c (rdySel c s) s).isSome
  let yes := taken.getD (condHolds i.cond x consumed ready)
  s |> setCell c { x with
      entry := BitVec.ofNat 3 (if yes then i.nextT else i.nextF), stall := none, issued := none,
      tapOut := x.tapNext.getD x.tapOut, tapNext := none }
    |> tileEvent (cellTile c) 0x02

/-- The instruction is held in its completion cycle (R84). -/
def holdCell (c : Nat) (x : Stall) (s : State) : State := mdCell c (fun y => { y with stall := some x, issued := none }) s

/-- Hand a posted write to the compute port: the word goes to BP, and BP advances (R83, R87). -/
def postWrite (c : Nat) (w : TWord) (s : State) : State :=
  mdCell c (fun x => { x with posted := some (x.bp, w), bp := x.bp + 1 }) s

/-- Write the result to its destination (Table 4.4), then complete; an output port without room, or an earlier posted
write that is not granted yet, holds the cell in its completion cycle (R83, R84). -/
def writeResult (c : Nat) (i : Insn) (res : Option TWord) (consumed : Option Tag) (taken : Option Bool)
    (s : State) : State :=
  match res with
  | none => complete c i consumed taken s
  | some w =>
    match i.dst with
    | 4 => if outRoom c 0 s then complete c i consumed taken (putOut c 0 w s)
        else holdCell c ⟨4, w, consumed, taken⟩ s
    | 5 => if outRoom c 1 s then complete c i consumed taken (putOut c 1 w s)
        else holdCell c ⟨5, w, consumed, taken⟩ s
    | 6 => if (cell c s).posted.isNone then complete c i consumed taken (postWrite c w s)
        else holdCell c ⟨6, w, consumed, taken⟩ s
    | 7 => complete c i consumed taken s
    | n => complete c i consumed taken (snoopWrite c n w (mdCell c (setCellReg n w) s))

/-- An instruction with a FAULT operand (R91): the operand is the result, or nothing is written. -/
def finishFault (c : Nat) (i : Insn) (f : Fetched) (w : TWord) : State :=
  if quietOnFault i.opcode then complete c i f.consumed none f.st
  else writeResult c i (some (tw .fault w.data)) f.consumed none
      (mdCell c (bumpBp (advancesBp i)) f.st)

/-- The word that LD and ST address (R82). -/
def ldAddr (i : Insn) (a : Word) : Nat := (a.toNat + i.imm.toNat) % 8192

/-- The access that LD or ST requests once its operands are there; a FAULT operand makes none (R91). -/
def memAccess (c : Nat) (i : Insn) (f : Fetched) : Option BankWait :=
  if (faultOperand c i f).isSome then none
  else match i.opcode with
    | 0x20 => some (.load (ldAddr i f.a.data))
    | 0x21 => some (.store (ldAddr i f.a.data) (resultWord (resTag i f) f.b.data))
    | _ => none

/-- The operands with the word read at BP where they name BANK (R77, R87). -/
def withBank (i : Insn) (w : TWord) (f : Fetched) : Fetched :=
  let v := if w.tag = .null then nullWord else w
  { f with a := if i.srcA = 8 then v else f.a, b := if i.srcB = 8 then v else f.b }

/-- What an issued instruction has read, in the state where it goes on. -/
def Issued.fetched (q : Issued) (s : State) : Fetched := ⟨q.a, q.b, q.consumed, s⟩

/-- The instruction waits for the bank. -/
def issueWait (c : Nat) (i : Insn) (f : Fetched) (w : BankWait) : State :=
  mdCell c (fun x => { x with issued := some ⟨i, f.a, f.b, f.consumed, some w, zeroWord⟩ }) f.st

/-- One command of opcode op at cell c: the instruction issues, and completes with `fin` where it needs no bank
access; or the one that has issued completes with what the bank has given it (R83, R84). -/
def runCell (c op : Nat) (fin : Insn → Fetched → TWord → State) (s : State) : State :=
  match (cell c s).issued with
  | some q => if q.insn.opcode = op ∧ q.wait = none ∧ cellReady c s = true then fin q.insn (q.fetched s) q.word else s
  | none =>
    if !issues c op s then s
    else
      let i := curInsn c s
      let f := fetch c i s
      if namesBank i then issueWait c i f .operand
      else match memAccess c i f with
        | some w => issueWait c i f w
        | none => fin i f zeroWord

/-- An instruction that computes a result from A and B with one of the functions of Flags.lean. -/
def finAlu (c op : Nat) (alu : Word → Word → Cell → Word × Cell) (i : Insn) (f : Fetched) (_ : TWord) : State :=
  match faultOperand c i f with
  | some w => finishFault c i f w
  | none =>
    let (r, x) := alu f.a.data f.b.data (cell c f.st)
    let t := setCell c (bumpBp (advancesBp i) x) f.st
    let res := if noResult op then none else some (resultWord (resTag i f) r)
    writeResult c i res f.consumed none t

def cellAlu (c op : Nat) (alu : Word → Word → Cell → Word × Cell) (s : State) : State :=
  runCell c op (finAlu c op alu) s

/-- SEL: COND chooses the operand and the successor (R82). -/
def finSel (c : Nat) (i : Insn) (f : Fetched) (_ : TWord) : State :=
  match faultOperand c i f with
  | some w => finishFault c i f w
  | none =>
    let x := cell c f.st
    let yes := condHolds i.cond x f.consumed (inWord c (rdySel c f.st) f.st).isSome
    let r := if yes then f.a.data else f.b.data
    writeResult c i (some (resultWord (resTag i f) r)) f.consumed (some yes)
      (setCell c (bumpBp (advancesBp i) x) f.st)

def cellSel (c : Nat) (s : State) : State := runCell c 0x1C (finSel c) s

/-- DBNZ branches on its own result (R79, R82). -/
def cellDbnz (c : Nat) (s : State) : State :=
  if !issues c 0x1F s then s
  else
    let i := curInsn c s
    let (r, x) := aluDbnz 0 0 (cell c s)
    writeResult c i (some (resultWord (tagact i.tagact .data .data) r)) none (some (!x.z)) (setCell c x s)

/-- EMIT: the result tag is B[2:0]. -/
def finEmit (c : Nat) (i : Insn) (f : Fetched) (_ : TWord) : State :=
  match faultOperand c i f with
  | some w => finishFault c i f w
  | none =>
    writeResult c i (some (resultWord (tagOf (fld 2 0 f.b.data)) f.a.data)) f.consumed none
      (mdCell c (bumpBp (advancesBp i)) f.st)

def cellEmit (c : Nat) (s : State) : State := runCell c 0x22 (finEmit c) s

/-- The access of LD or ST sets BP to its address + 1 (R87). -/
def afterAccess (c : Nat) (i : Insn) (f : Fetched) : State :=
  mdCell c (fun x => { x with bp := BitVec.ofNat 13 (ldAddr i f.a.data + 1) }) f.st

/-- LD, with the word w that the bank gave (R82, R87, R91). -/
def finLd (c : Nat) (i : Insn) (f : Fetched) (w : TWord) : State :=
  match faultOperand c i f with
  | some x => finishFault c i f x
  | none =>
    let t := afterAccess c i f
    if w.tag = .fault ∧ !fltPass c t then writeResult c i (some (tw .fault w.data)) f.consumed none t
    else
      let d := if w.tag = .null then 0 else w.data
      writeResult c i (some (resultWord (resTag i f) d)) f.consumed none (mdCell c (zn d) t)

def cellLd (c : Nat) (s : State) : State := runCell c 0x20 (finLd c) s

/-- ST, once its write has been granted (R78, R82, R87). -/
def finSt (c : Nat) (i : Insn) (f : Fetched) (_ : TWord) : State :=
  match faultOperand c i f with
  | some w => finishFault c i f w
  | none => writeResult c i none f.consumed none (afterAccess c i f)

def cellSt (c : Nat) (s : State) : State := runCell c 0x21 (finSt c) s

/-- WAIT completes when its port holds a word; nothing is consumed (R85). -/
def cellWait (c : Nat) (s : State) : State :=
  if !issues c 0x23 s then s
  else writeResult c (curInsn c s) none none none s

/-- Halt the cell with a cause (R80, R89, R381). -/
def haltCell (c code : Nat) (s : State) : State :=
  let pg := P.RGN (cellRegion c)
  s |> mdCell c (fun x => { x with halted := true })
    |> wr pg R.RGN_HALT_CAUSE_LAST (W (code * 2 ^ 24 + c % 256))
    |> irq pg 8

/-- HALT (R89). -/
def cellHalt (c : Nat) (s : State) : State :=
  if !issues c 0x25 s then s
  else s |> haltCell c E.NONE

/-- The conditions of R80 halt the cell with PERM_FAULT. DESIGN CHOICE (assumption log 107): the DETAIL that ERR_FIRST
records with it is zero. -/
def cellReserved (c : Nat) (s : State) : State :=
  if cellReady c s && (cell c s).issued.isNone && reservedInsn (curInsn c s) then
    s |> haltCell c E.PERM_FAULT |> err (P.RGN (cellRegion c)) E.PERM_FAULT 0 0
  else s

/-- The word that held the cell is accepted by its output port, or as the next posted write, and the cell completes (R83,
R84). -/
def acceptOutput (c : Nat) (s : State) : State :=
  match (cell c s).stall with
  | none => s
  | some st =>
    let done (t : State) : State := complete c (curInsn c s) st.consumed st.taken t
    if !regionRuns (cellRegion c) s then s
    else if st.dst = 6 then (if (cell c s).posted.isNone then done (postWrite c st.word s) else s)
    else if outRoom c (st.dst - 4) s then done (putOut c (st.dst - 4) st.word s)
    else s

/-! ## Live parameter update (R95–R101) -/

/-- The cell and the entry that a rewrite word names, as key cell × 8 + entry (Table 2.8, class PARAM). -/
def rewriteKey (r : Nat) (w : Word) : Nat :=
  ((r * 16 + fld 26 23 w) * 16 + fld 22 21 w * 4 + fld 20 19 w) * 8 + fld 18 16 w

/-- A rewrite word: the data of a NULL word is zero (R32). -/
def rewriteWord (w : TWord) : Word := if w.tag = .null then 0 else w.data

/-- A rewrite word is admitted: [31:27] zero, its local tile in the mask (R96). -/
def rewriteOk (mask : Nat) (w : Word) : Bool := fld 31 27 w == 0 && mask.testBit (fld 26 23 w)

/-- Discard a PARAM (R96). -/
def rejectParam (r : Nat) (s : State) : State :=
  s |> count (P.RGN r) R.RGN_PARAM_REJECTS |> irq (P.RGN r) 9

/-- The message at the front of a region's parameter unit, if it came at uplink port p (R95). -/
def unitMsg (p : Nat) (s : State) : Option Msg :=
  let c := ChanId.paramUnit (regionId (p / 8))
  if (chan c s).marks.head? = some (some (W p)) then sinkMsg c s else none

/-- The parameter unit takes a PARAM that came at uplink port p (R95–R97). -/
def takeParam (p : Nat) (s : State) : State :=
  let r := p / 8
  match unitMsg p s with
  | none => s
  | some m =>
    if m.cls ≠ 0x03 then s
    else
      let t := dropMsg (.paramUnit (regionId r)) s
      if m.status ≠ 0 then t
      else if uplinkMask p s = 0 then malformed m.route t
      else if m.len = 0 ∨ m.payload.length ≠ m.len ∨ m.payload.any (fun w => !rewriteOk (uplinkMask p s) (rewriteWord w))
      then rejectParam r t
      else
        setFab { t.fab with pend := m.payload.foldl (fun pd w =>
          tins (rewriteKey r (rewriteWord w)) (BitVec.ofNat 16 (fld 15 0 (rewriteWord w))) pd) t.fab.pend } t

/-- The tile of an entry key lies in the mask of an uplink of region r. -/
def keyInMask (r mask k : Nat) : Bool := k / 128 / 16 == r && mask.testBit (k / 128 % 16)

/-- Every entry whose pending bit is set, with its latest pending immediate (R97, R99). -/
def allPending (s : State) : SMap (BitVec 16) :=
  s.fab.held.foldl (fun m h => h.2.foldl (fun m e => if (tfind m e.1).isSome then m else tins e.1 e.2 m) m) s.fab.pend

/-- Entries pending in the mask of uplink port p. -/
def pendingIn (p : Nat) (m : SMap (BitVec 16)) (s : State) : SMap (BitVec 16) :=
  m.filter fun e => keyInMask (p / 8) (uplinkMask p s) e.1

/-- The pending bits of those entries clear. -/
def clearPending (ks : SMap (BitVec 16)) (m : SMap (BitVec 16)) : SMap (BitVec 16) :=
  m.filter fun e => (tfind ks e.1).isNone

/-- A pending immediate becomes the live one; one equal to the configured immediate is not listed. -/
def makeLive (k : Nat) (v : BitVec 16) (s : State) : State :=
  setFab { s.fab with live := if v = configImm (k / 8) (k % 8) s then tdel k s.fab.live else tins k v s.fab.live } s

/-- Apply a commit: each entry's immediate takes the pending value, and PARAM_GEN counts the application (R98). -/
def applyCommit (r : Nat) (vs : SMap (BitVec 16)) (s : State) : State :=
  md (P.RGN r) R.RGN_PARAM_GEN (fun w => satAdd w 1) (vs.foldr (fun e t => makeLive e.1 e.2 t) s)

/-- A PARAM_COMMIT at uplink port p (R98, R99): applied at once, or held until the next HEAD. A commit that
arrives while one is held merges with it (assumption log 100). DESIGN CHOICE (assumption log 106): a commit that carries
payload words, as many as its LENGTH says, is applied like any other, and one whose words and LENGTH differ counts in
MSG_MALFORMED. -/
def takeCommit (p : Nat) (s : State) : State :=
  let r := p / 8
  match unitMsg p s with
  | none => s
  | some m =>
    if m.cls ≠ 0x04 then s
    else
      let t := dropMsg (.paramUnit (regionId r)) s
      if m.status ≠ 0 then t
      else if uplinkMask p s = 0 ∨ m.payload.length ≠ m.len then malformed m.route t
      else if commitAtHead p s then
        if (tfind t.fab.held p).isSome then t
        else
          let vs := pendingIn p t.fab.pend t
          setFab { t.fab with held := tins p vs t.fab.held, pend := clearPending vs t.fab.pend } t
      else
        let vs := pendingIn p (allPending t) t
        applyCommit r vs (setFab { t.fab with
          pend := clearPending vs t.fab.pend
          held := t.fab.held.map fun h => (h.1, clearPending vs h.2) } t)

/-- The commit held at an uplink takes effect (R99). -/
def applyHeld (p : Nat) (s : State) : State :=
  match tfind s.fab.held p with
  | none => s
  | some vs => applyCommit (p / 8) vs (setFab { s.fab with held := tdel p s.fab.held } s)

/-- Both copies of a live immediate fail, or one of them (R101). -/
def latchParity (c e : Nat) (both : Bool) (s : State) : State :=
  let r := cellRegion c
  let pg := P.RGN r
  if !both then s |> errTransient pg |> tileEvent (cellTile c) 0x0C
  else
    s |> setFab { s.fab with live := tdel (c * 8 + e) s.fab.live }
      |> md pg R.RGN_PARAM_LOST (fun w => setFld 10 0 (c % 256 * 8 + e) (satFld 31 16 w))
      |> err pg E.PARITY 0 0 |> irq pg 10

/-! ## GSR for cells (R74, R100) -/

/-- GSR asserted in region r: cells at their start state, pending rewrites gone, slices cleared. `keep`
says which registers are retained across a swap. -/
def gsrCells (r : Nat) (keep : Nat → Nat → Bool) (s : State) : State :=
  let old := s
  let t := setFab { s.fab with cells := tclear (256 * r) (256 * (r + 1)) s.fab.cells,
                               pend := tclear (2048 * r) (2048 * (r + 1)) s.fab.pend,
                               held := tclear (8 * r) (8 * (r + 1)) s.fab.held } s
  let t := (List.range 256).foldl (fun t k =>
    let c := 256 * r + k
    let x := cell c old
    let reg (n : Nat) : TWord := if keep c n then cellReg n x else zeroWord
    setCell c { Cell.blank with entry := cellStart c t, d0 := reg 0, d1 := reg 1, d2 := reg 2, d3 := reg 3 } t) t
  clearMacs r t

/-- A plane load or swap: every immediate takes the value configured in the new plane (R100). -/
def resetImmediates (r : Nat) (s : State) : State :=
  s |> setFab { s.fab with live := tclear (2048 * r) (2048 * (r + 1)) s.fab.live,
                           pend := tclear (2048 * r) (2048 * (r + 1)) s.fab.pend,
                           held := tclear (8 * r) (8 * (r + 1)) s.fab.held }
    |> wr (P.RGN r) R.RGN_PARAM_GEN 0

/-! ## The commands -/

def execPass (c : CellId) (s : State) : Out := .next (cellAlu c.val 0x00 aluPass s)
def execAdd (c : CellId) (s : State) : Out := .next (cellAlu c.val 0x01 aluAdd s)
def execAdc (c : CellId) (s : State) : Out := .next (cellAlu c.val 0x02 aluAdc s)
def execSub (c : CellId) (s : State) : Out := .next (cellAlu c.val 0x03 aluSub s)
def execSbc (c : CellId) (s : State) : Out := .next (cellAlu c.val 0x04 aluSbc s)
def execAddss (c : CellId) (s : State) : Out := .next (cellAlu c.val 0x05 aluAddss s)
def execSubss (c : CellId) (s : State) : Out := .next (cellAlu c.val 0x06 aluSubss s)
def execAddus (c : CellId) (s : State) : Out := .next (cellAlu c.val 0x07 aluAddus s)
def execSubus (c : CellId) (s : State) : Out := .next (cellAlu c.val 0x08 aluSubus s)
def execMuls (c : CellId) (s : State) : Out := .next (cellAlu c.val 0x09 aluMuls s)
def execMulu (c : CellId) (s : State) : Out := .next (cellAlu c.val 0x0A aluMulu s)
def execMulsu (c : CellId) (s : State) : Out := .next (cellAlu c.val 0x0B aluMulsu s)
def execAnd (c : CellId) (s : State) : Out := .next (cellAlu c.val 0x0C aluAnd s)
def execOr (c : CellId) (s : State) : Out := .next (cellAlu c.val 0x0D aluOr s)
def execXor (c : CellId) (s : State) : Out := .next (cellAlu c.val 0x0E aluXor s)
def execAndn (c : CellId) (s : State) : Out := .next (cellAlu c.val 0x0F aluAndn s)
def execShl (c : CellId) (s : State) : Out := .next (cellAlu c.val 0x10 aluShl s)
def execShr (c : CellId) (s : State) : Out := .next (cellAlu c.val 0x11 aluShr s)
def execSar (c : CellId) (s : State) : Out := .next (cellAlu c.val 0x12 aluSar s)
def execRol (c : CellId) (s : State) : Out := .next (cellAlu c.val 0x13 aluRol s)
def execRor (c : CellId) (s : State) : Out := .next (cellAlu c.val 0x14 aluRor s)
def execMin (c : CellId) (s : State) : Out := .next (cellAlu c.val 0x15 aluMin s)
def execMax (c : CellId) (s : State) : Out := .next (cellAlu c.val 0x16 aluMax s)
def execMinu (c : CellId) (s : State) : Out := .next (cellAlu c.val 0x17 aluMinu s)
def execMaxu (c : CellId) (s : State) : Out := .next (cellAlu c.val 0x18 aluMaxu s)
def execAbs (c : CellId) (s : State) : Out := .next (cellAlu c.val 0x19 aluAbs s)
def execCmp (c : CellId) (s : State) : Out := .next (cellAlu c.val 0x1A aluSub s)
def execTst (c : CellId) (s : State) : Out := .next (cellAlu c.val 0x1B aluAnd s)
def execSel (c : CellId) (s : State) : Out := .next (cellSel c.val s)
def execClz (c : CellId) (s : State) : Out := .next (cellAlu c.val 0x1D aluClz s)
def execLcnt (c : CellId) (s : State) : Out := .next (cellAlu c.val 0x1E aluLcnt s)
def execDbnz (c : CellId) (s : State) : Out := .next (cellDbnz c.val s)
def execLd (c : CellId) (s : State) : Out := .next (cellLd c.val s)
def execSt (c : CellId) (s : State) : Out := .next (cellSt c.val s)
def execEmit (c : CellId) (s : State) : Out := .next (cellEmit c.val s)
def execWait (c : CellId) (s : State) : Out := .next (cellWait c.val s)
def execHalt (c : CellId) (s : State) : Out := .next (cellHalt c.val s)
def execCellReservedHalt (c : CellId) (s : State) : Out := .next (cellReserved c.val s)
def execParam (p : PortId) (s : State) : Out := .next (takeParam p.val s)
def execParamCommit (p : PortId) (s : State) : Out := .next (takeCommit p.val s)
def execParamLatchParity (c : CellId) (e : Fin 8) (both : Bool) (s : State) : Out :=
  .next (latchParity c.val e.val both s)
def execMacIssue (m : MacId) (cellWritesResult : Bool) (s : State) : Out :=
  .next (macIssueOp m.val cellWritesResult s)

end Sys2Proof.Machine
end

