-- ==== Sys2Proof/Machine/Port.lean ====
section
/-! DEFINITION. The compute port of a bank and the bank cycle: the requests of the tile's cells and of its LUT logic,
their rotation, and the ranks of Table 8.2 (R83, R86, R176–R180, R191). -/
namespace Sys2Proof.Machine

open Sys2Proof

/-- What cell c requests, if it requests an access: its posted write first, and behind it what its instruction waits for
(R83, R87); true for a write. -/
def cellRequest (c : Nat) (s : State) : Option Bool :=
  let x := cell c s
  match x.posted, x.issued.bind (·.wait) with
  | some _, _ => some true
  | none, some (.store _ _) => some true
  | none, some _ => some false
  | none, none => none

/-- An instruction goes on to its own access, or has all its words, once its BANK operand is there. -/
def operandGiven (c : Nat) (w : TWord) (q : Issued) (s : State) : Issued :=
  let f := withBank q.insn w (q.fetched s)
  { q with a := f.a, b := f.b, wait := memAccess c q.insn f }

/-- The port takes what cell c requests: a read delivers its word to the instruction, a write is stored. -/
def grantCell (c : Nat) (s : State) : State :=
  let b := cellTile c
  let x := cell c s
  match x.posted, x.issued with
  | some (w, v), _ => (writeBank b w.toNat v (setCell c { x with posted := none } s)).2
  | none, some q =>
    match q.wait with
    | some .operand =>
      let (w, t) := readBank b x.bp.toNat s
      mdCell c (fun y => { y with issued := some (operandGiven c w q t) }) t
    | some (.load a) =>
      let (w, t) := readBank b a s
      mdCell c (fun y => { y with issued := some { q with wait := none, word := w } }) t
    | some (.store a w) =>
      (writeBank b a w (mdCell c (fun y => { y with issued := some { q with wait := none } }) s)).2
    | none => s
  | none, none => s

/-- The word that a granted cell reads, if it reads one. -/
def cellReads (c : Nat) (s : State) : Option Nat :=
  let x := cell c s
  match x.posted, x.issued.bind (·.wait) with
  | none, some .operand => some x.bp.toNat
  | none, some (.load a) => some a
  | _, _ => none

/-- The tile's LUT logic is granted: GNT in this cycle, and the word of a read two cycles later (R191). -/
def grantLut (b : Nat) (q : BankReq) (s : State) : State :=
  let t := mdBankPort b (fun y => { y with lut := none, lutGnt := true }) s
  match q.op with
  | .write v => (writeBank b q.word v t).2
  | _ =>
    let (v, u) := readBank b q.word t
    mdBankPort b (fun y => { y with lutReads := y.lutReads ++ [(3, v)] }) u

/-- Requester k of bank b's compute port, cells 0 to 15 of the tile and 16 its LUT logic, asks for a cycle: a write not
before the WE release step (R289). -/
def computeAsks (b k : Nat) (s : State) : Bool :=
  let write : Option Bool := if k = 16 then (bankPort b s).lut.map fun q => isWriteOp q.op else cellRequest (16 * b + k) s
  write.any fun w => !w || s.dev.weReleased

/-- The requester of the compute port that is next in turn, from the one after the requester granted last (R86;
assumption log 114). None is granted while the region asserts GSR (R180). -/
def nextCompute (b : Nat) (s : State) : Option Nat :=
  if (rgn (b / 16) s).gsr then none
  else ((List.range 17).map fun n => ((bankPort b s).last + 1 + n) % 17).find? fun k => computeAsks b k s

/-- A bank cycle granted to requester k of the compute port. -/
def grantCompute (b k : Nat) (s : State) : State :=
  let t := tileEvent b 0x05 (mdBankPort b (fun y => { y with last := k }) s)
  if k = 16 then
    match (bankPort b s).lut with
    | some q => denyCycles (1 + if isWriteOp q.op then 0 else readCost b q.word s) b (grantLut b q t)
    | none => t
  else
    denyCycles (1 + (match cellReads (16 * b + k) s with
      | some w => readCost b w s
      | none => 0)) b (grantCell (16 * b + k) t)

/-- One bank cycle: the port is granted in rank order (Table 8.2). Nothing is granted while the hardware
clear runs (R188). -/
def grant (b : Nat) (s : State) : State :=
  if s.dev.bankClear then s
  else
    let s := rerank b s
    let x := bankPort b s
    settleExcl b (match x.stew, nextCompute b s, x.queue with
      | q :: rest, _, _ => grantSteward b q rest s
      | [], some k, _ => grantCompute b k s
      | [], none, q :: rest => grantIdle b q rest s
      | [], none, [] => s)

end Sys2Proof.Machine
end

