-- ==== Sys2Proof/Machine/Routing.lean ====
section
/-! DEFINITION. The routing of a region: the grid, the signals of LUT logic, and which of them each routing multiplexer
and each interface input can select (R104–R106, R112, R115, R119, R130, R191, R259, R263). -/
namespace Sys2Proof.Machine

open Sys2Proof

/-! ## The grid of regions (R104) and the pin sides (Table 18.2) -/

/-- The region next to region r on a side, none at a pin side. -/
def regionNext (r : Nat) (d : Dir) : Option Nat :=
  match d with
  | .n => if r / 8 = 0 then none else some (r - 8)
  | .e => if r % 8 = 7 then none else some (r + 1)
  | .s => if r / 8 = 7 then none else some (r + 8)
  | .w => if r % 8 = 0 then none else some (r - 1)

/-- GEOM.PIN_SIDES of a region. -/
def pinSides (r : Nat) : Nat :=
  [Dir.n, .e, .s, .w].foldl (fun a d => if (regionNext r d).isNone then a + 2 ^ dirCode d else a) 0

/-- The I/O bank that a pin side serves, and the side's index in that bank. -/
def pinBank (r : Nat) (d : Dir) : Nat × Nat :=
  match d with
  | .w => (r / 8 / 2, r / 8 % 2)
  | .e => (4 + r / 8 / 2, r / 8 % 2)
  | .n => (8 + r % 8 / 4, r % 8 % 4)
  | .s => (10 + r % 8 / 4, r % 8 % 4)

/-! ## Signals of LUT logic -/

/-- A signal of a region's LUT logic; i is a region slice index. -/
inductive Sig where
  | const (b : Bool)
  | ff (i n : Nat)
  | lutY (i k : Nat)
  | lutZ (i k : Nat)
  /-- The output of multiplexer idx of switch box i, in the order of Table 5.6. -/
  | mux (i idx : Nat)
  /-- Carry into bit k of a slice; k = 8 is the slice's carry-out. -/
  | carry (i k : Nat)
  | line (l : Nat)
  /-- Inbound lane 32 + k of a side. -/
  | tap (side k : Nat)
  /-- TAP_OUT bit n of a cell of the region. -/
  | tapOut (c n : Nat)
  /-- READY of outbound group g, VALID of inbound group 4 + g (R120). -/
  | ready (side g : Nat)
  | valid (side g : Nat)
  /-- Bank interface of a tile (R191): 0 GNT, 1 RVALID, 2–33 RDATA, 34–36 RTAG. -/
  | bank (t n : Nat)
  /-- The region's DRAINING signal (R263). -/
  | draining
  /-- The region's Fox tap (R259): READY of its input group, VALID and lane n of its output group. -/
  | foxReady
  | foxValid
  | foxLane (n : Nat)
  deriving DecidableEq, Repr

/-! ## Places of slices (R105) -/

/-- Slice column (0 to 15) and slice row (0 to 47) of a slice in its region. -/
def sliceCol (i : Nat) : Nat := i / 48 % 4 * 4 + i % 48 / 12
def sliceRow (i : Nat) : Nat := i / 192 * 12 + i % 12
def sliceAt (col row : Nat) : Nat := (row / 12 * 4 + col / 4) * 48 + col % 4 * 12 + row % 12

/-- The wire drivers of a switch box in the order of Table 5.6: 14 in each direction, 8 of length 1, 4 of length 4 and
2 of length 12. -/
def wireLength (idx : Nat) : Nat := if idx % 14 < 8 then 1 else if idx % 14 < 12 then 4 else 12

/-- The switch box at which wire idx of box i ends: that many slices away in its direction, or the last one inside the
region (R112). -/
def wireEnd (i idx : Nat) : Nat :=
  let n := wireLength idx
  match idx / 14 with
  | 0 => sliceAt (sliceCol i) (sliceRow i - n)
  | 1 => sliceAt (min 15 (sliceCol i + n)) (sliceRow i)
  | 2 => sliceAt (sliceCol i) (min 47 (sliceRow i + n))
  | _ => sliceAt (sliceCol i - n) (sliceRow i)

/-! ## What arrives at a switch box -/

/-- The wires that end at box i (R112). -/
def wiresInto (i : Nat) : List Sig :=
  (List.range 768).flatMap fun j => ((List.range 56).filter fun idx => wireEnd j idx == i).map fun idx => .mux j idx

/-- TAP_OUT of the cell whose first or second associated slice is i (R106). -/
def tapOutsAt (i : Nat) : List Sig :=
  if i % 12 % 3 = 2 then []
  else (List.range 16).map fun n => .tapOut (i / 48 * 16 + i % 12 / 3 * 4 + i % 48 / 12) n

/-- The switch boxes along a side of a region (R119). -/
def sideBoxes (side : Nat) : List Nat :=
  match side with
  | 0 => (List.range 16).map fun c => sliceAt c 0
  | 1 => (List.range 48).map fun r => sliceAt 15 r
  | 2 => (List.range 16).map fun c => sliceAt c 47
  | _ => (List.range 48).map fun r => sliceAt 0 r

/-- The outputs of the taps of a side: inbound lanes, READY and VALID (R119, R120). -/
def sideOutputs (side : Nat) : List Sig :=
  (List.range 32).map (.tap side) ++ (List.range 4).map (.ready side) ++ (List.range 4).map (.valid side)

/-- The outputs of tile l's bank interface, and at local tile 0 those of the Fox tap (R191, R259). -/
def tileOutputs (l : Nat) : List Sig :=
  (List.range 37).map (.bank l) ++
    (if l = 0 then [.foxReady, .foxValid] ++ (List.range 36).map .foxLane else [])

/-- Element n of a non-empty list that an open number names. -/
def openPick (n : Nat) (l : List Nat) : Nat := l.getD (n % l.length) 0

/-- The box at which output n of a side, or of a tile, arrives. -/
def sideBox (r side n : Nat) : Nat := openPick (Config.laneBox ((r * 4 + side) * 64 + n)) (sideBoxes side)
def tileBox (r l n : Nat) : Nat := l * 48 + Config.laneBox (2 ^ 20 + (r * 16 + l) * 128 + n) % 48

/-- What must be a candidate of some multiplexer of box i: the wires that end there, the TAP_OUT bits wired there, and
the outputs of sides and of the tile that arrive there. -/
def boxSources (r i : Nat) : List Sig :=
  wiresInto i ++ tapOutsAt i ++
    ((List.range 4).flatMap fun side => ((sideOutputs side).zipIdx.filter fun e => sideBox r side e.2 == i).map (·.1)) ++
    ((tileOutputs (i / 48)).zipIdx.filter fun e => tileBox r (i / 48) e.2 == i).map (·.1)

/-- The outputs of slice i itself. -/
def sliceOutputs (i : Nat) : List Sig :=
  (List.range 16).map (.ff i) ++ (List.range 8).map (.lutY i) ++ (List.range 8).map (.lutZ i)

/-- The long lines that pass the tile of box i: 8 horizontal and 8 vertical (R115). -/
def tileLines (i : Nat) : List Sig :=
  (List.range 8).map (fun h => .line (i / 192 * 8 + h)) ++
    (List.range 8).map (fun v => .line (32 + i / 48 % 4 * 8 + v))

/-! ## Candidate lists -/

/-- The list in the order of permutation number n. -/
def permute {α : Type} (fuel n : Nat) (l : List α) : List α :=
  match fuel, l[n % l.length]? with
  | fuel + 1, some x => x :: permute fuel (n / l.length) (l.eraseIdx (n % l.length))
  | _, _ => []

/-- The site of a multiplexer, of an input of a side and of an input of a tile. -/
def muxSite (r i idx : Nat) : Nat := (r * 768 + i) * 128 + idx
def sideSite (r side k : Nat) : Nat := 2 ^ 24 + (r * 4 + side) * 128 + k
def tileSite (r l n : Nat) : Nat := 2 ^ 26 + (r * 16 + l) * 128 + n

/-- What multiplexer idx of box i has for certain: at a LUT input (56 to 103) and at a bypass input (104 to 111) every
line of the tile (R115), at a bypass input DRAINING (R263), and the sources of the box that it has been given. -/
def mustHave (r i idx : Nat) : List Sig :=
  (if 56 ≤ idx ∧ idx < 112 then tileLines i else []) ++
  (if 104 ≤ idx ∧ idx < 112 then [.draining] else []) ++
  ((boxSources r i).zipIdx.filter fun e => Config.candidateMux (r * 768 + i) e.2 % 117 == idx).map (·.1)

/-- What else it can have: the sources of the box, the outputs of its own slice, and any output of the sides that it
lies along and of its tile. -/
def mayHave (r i : Nat) : List Sig :=
  boxSources r i ++ sliceOutputs i ++ tileOutputs (i / 48) ++
    ((List.range 4).filter fun side => (sideBoxes side).contains i).flatMap sideOutputs

/-- The candidates of multiplexer idx of box i, at most 31 (R130): all that it must have, and others, in an open
order. -/
def muxCandidates (r i idx : Nat) : List Sig :=
  let must := mustHave r i idx
  let rest := (mayHave r i).filter fun g => !must.contains g
  let order := Config.candidateOrder (muxSite r i idx)
  permute 31 (Config.candidateOrder (2 ^ 28 + muxSite r i idx)) ((must ++ permute rest.length order rest).take 31)

/-- The signal that code c of a multiplexer selects. -/
def muxCandidate (r i idx c : Nat) : Sig := (muxCandidates r i idx)[c]?.getD (.const false)

/-- The signals at hand at a list of switch boxes. -/
def signalsAt (r : Nat) (boxes : List Nat) : List Sig := boxes.flatMap (mayHave r)

/-- The signal that code c selects for input k of a side: an outbound lane, or VALID of an outbound and TAKE of an
inbound group, which attach to the switch boxes along the side (R119, R120). -/
def sideInput (r side k c : Nat) : Sig :=
  let l := signalsAt r (sideBoxes side)
  (permute 31 (Config.candidateOrder (sideSite r side k)) l)[c]?.getD (.const false)

/-- The signal that drives input n of a tile's bank interface or, from 64 on, of the Fox tap at local tile 0: one of
those at the tile's switch boxes (R191, R259). -/
def tileInput (r l n : Nat) : Sig :=
  (permute 1 (Config.candidateOrder (tileSite r l n)) (signalsAt r ((List.range 48).map fun k => l * 48 + k)))[0]?.getD
    (.const false)

end Sys2Proof.Machine
end

