-- ==== Sys2Proof/Machine/Logic.lean ====
section
/-! DEFINITION. LUT logic, long lines, border and pin taps of a region: signals, the island clock edge, the
tap items (R104–R134, R191, R267, R415–R417). -/
namespace Sys2Proof.Machine

open Sys2Proof

/-! ## Configuration of lines and multiplexers -/

/-- The output code of a long-line source word (Table 5.7, [14:0]). -/
def lineSource (w : Nat) : Sig :=
  let i := w % 1024
  let o := w / 1024 % 32
  if o < 16 then .ff i o else if o < 24 then .lutY i (o - 16) else .const (o == 25)

/-- Word `w` of long line l's eight words. -/
def lineWord (r l w : Nat) (s : State) : Word := frameWord r (1 + l / 4) (8 * (l % 4) + w) s

/-- IDLE of a line: 0, 1, or 2 for HOLD. -/
def lineIdle (r l : Nat) (s : State) : Nat :=
  fld (2 * (l % 16) + 1) (2 * (l % 16)) (frameWord r 0 (1 + l / 16) s)

def lineHeld (r l : Nat) (s : State) : Bool := tget false s.logic.lines (r * 64 + l)

/-- The 5-bit select of multiplexer idx of switch box i (R130). -/
def muxCode (r i idx : Nat) (s : State) : Nat :=
  let b := 640 * (i % 48) + 5 * idx
  let word (n : Nat) : Nat := (tileFrame (r * 16 + i / 48) (56 + n / 32) (n % 32) s).toNat
  (word (b / 32) + 2 ^ 32 * word (b / 32 + 1)) / 2 ^ (b % 32) % 32

/-- LUT k of slice i is in SPLIT mode. -/
def lutSplit (r i k : Nat) (s : State) : Bool := bit k (sliceWord r i 16 s)
/-- Bit n of the truth table of LUT k. -/
def lutBit (r i k n : Nat) (s : State) : Bool := bit (n % 32) (sliceWord r i (2 * k + n / 32) s)

/-- The previous slice in chain order (R109). -/
def prevSlice (i : Nat) : Option Nat :=
  if i % 12 ≠ 0 then some (i - 1) else if i < 192 then none else some (i - 192 + 11)

/-! ## Taps: groups, lanes -/

def TapGroup.idle : TapGroup := { items := [], replay := none, shown := none, laneFails := [] }
/-- Inbound group 4 + g of a side of region r. -/
def tapKey (r side g : Nat) : Nat := (r * 4 + side) * 4 + g
def tapGroup (k : Nat) (s : State) : TapGroup := tget TapGroup.idle s.logic.taps k
def setTapGroup (k : Nat) (x : TapGroup) (s : State) : State :=
  setLogic { s.logic with taps := tput TapGroup.idle k x s.logic.taps } s

def outFrame (r side w : Nat) (s : State) : Word := frameWord r (17 + 2 * side) w s
def inFrame (r side w : Nat) (s : State) : Word := frameWord r (18 + 2 * side) w s
def sideDir (side : Nat) : Dir := dirOf side
/-- The modes of a group: a pin side always works as LEVEL (R415). -/
def outStream (r side g : Nat) (s : State) : Bool :=
  (regionNext r (sideDir side)).isSome && bit g (outFrame r side 0 s)
def inStream (r side g : Nat) (s : State) : Bool :=
  (regionNext r (sideDir side)).isSome && bit g (inFrame r side 0 s)

def tapRetired (r side : Nat) (s : State) : Word := rd (P.RGN r) (R.RGN_TAP_RETIRED + 4 * side) s

/-- The neighbour sends: ON with its clock running (R123). A pin side has no region there. -/
def neighbourOn (r side : Nat) (s : State) : Bool :=
  match regionNext r (sideDir side) with
  | some n => regionOn n s
  | none => true
/-- The neighbour drains or swaps (R123). -/
def neighbourHeld (r side : Nat) (s : State) : Bool :=
  match regionNext r (sideDir side) with
  | some n => (tfind s.logic.holdOut (n * 4 + dirCode (opposite (sideDir side)))).isSome
  | none => false
/-- Inbound lanes of a side take no new item (R267). -/
def inboundHeld (r side : Nat) (s : State) : Bool := (rgn r s).inHeld.getLsbD side
/-- Region r's own outbound lanes of a side are held. -/
def sideHeld (r side : Nat) (s : State) : Bool := (tfind s.logic.holdOut (r * 4 + side)).isSome

/-- VALID of an inbound STREAM group (R120, R123). -/
def groupValid (r side g : Nat) (s : State) : Bool :=
  inStream r side g s && neighbourOn r side s && !neighbourHeld r side s &&
    !(tapGroup (tapKey r side g) s).items.isEmpty

/-- The value an inbound lane presents: IN_DEFAULT for a retired lane, for a neighbour that is not on, and
until the first item (R122, R123). -/
def tapLane (r side k : Nat) (s : State) : Bool :=
  let x := tapGroup (tapKey r side (k / 8)) s
  let dflt := bit k (inFrame r side 1 s)
  if bit k (tapRetired r side s) || !neighbourOn r side s then dflt
  else
    let item := if inStream r side (k / 8) s then (x.items.head?.or x.shown) else x.shown
    match item with
    | some v => v.getLsbD (k % 8)
    | none => dflt

/-- READY of an outbound group (R120, R123). -/
def groupReady (r side g : Nat) (s : State) : Bool :=
  if !outStream r side g s then true
  else match regionNext r (sideDir side) with
    | none => true
    | some n =>
      if !regionOn n s then true
      else if inboundHeld n (dirCode (opposite (sideDir side))) s then false
      else (tapGroup (tapKey n (dirCode (opposite (sideDir side))) g) s).items.length < 16

/-- Bit n of the bank interface of a tile (R191). -/
def bankSig (t n : Nat) (s : State) : Bool :=
  let b := bankPort t s
  if n = 0 then b.lutGnt
  else if n = 1 then b.lutReads.any (·.1 == 1)
  else if n < 34 then b.lutData.data.getLsbD (n - 2)
  else (Tag.code b.lutData.tag).testBit (n - 34)

/-! ## The Fox tap: a STREAM group of 36 lanes in each direction (R259) -/

/-- READY: the group holds a credit; toward a port that is fenced or retired it stays 1. -/
def foxReady (r : Nat) (s : State) : Bool :=
  let x := chan (.foxTapUp (regionId r)) s
  x.fenced || x.retired || (x.sendq.isEmpty && decide (0 < canLaunch x))
/-- VALID: the tap holds a word of the Fox port. -/
def foxValid (r : Nat) (s : State) : Bool := !(chan (.foxTapDown (regionId r)) s).buffer.isEmpty
/-- Bit n of a word: data, tag, PAR. -/
def wordBit (w : TWord) (n : Nat) : Bool :=
  if n < 32 then w.data.getLsbD n else if n < 35 then (Tag.code w.tag).testBit (n - 32) else w.par
def foxLane (r n : Nat) (s : State) : Bool :=
  match (chan (.foxTapDown (regionId r)) s).buffer with
  | w :: _ => wordBit w n
  | [] => Config.foxIdleLane r n

/-! ## Evaluation -/

/-- The value of a signal. CARRY_EN is read nowhere: DESIGN CHOICE (assumption log 117), the chain of a slice with
CARRY_EN = 0 works like any other. The fuel bounds the length of a combinational path; a path that does not end is
a loop, whose value is left open (Config.loopValue). -/
def sigVal (fuel r : Nat) (g : Sig) (s : State) : Bool :=
  match fuel with
  | 0 => Config.loopValue r
  | fuel + 1 =>
    let index (i k n : Nat) : Nat := (List.range n).foldl (fun a j =>
      if sigVal fuel r (.mux i (56 + 6 * k + j)) s then a + 2 ^ j else a) 0
    match g with
    | .const b => b
    | .ff i n => ff r i n s
    | .lutY i k =>
      if lutSplit r i k s then lutBit r i k (32 + index i k 5) s else lutBit r i k (index i k 6) s
    | .lutZ i k =>
      if lutSplit r i k s then lutBit r i k (index i k 5) s else lutBit r i k (index i k 6) s
    | .mux i idx =>
      let c := muxCode r i idx s
      if c = 31 then false else sigVal fuel r (muxCandidate r i idx c) s
    | .carry i k =>
      if k = 0 then
        match fld 10 9 (sliceWord r i 16 s) with
        | 0 => false
        | 1 => true
        | 2 => match prevSlice i with
          | some p => sigVal fuel r (.carry p 8) s
          | none => false
        | _ => sigVal fuel r (.mux i 116) s
      else if sigVal fuel r (.lutY i (k - 1)) s then sigVal fuel r (.carry i (k - 1)) s
      else sigVal fuel r (.lutZ i (k - 1)) s
    | .line l =>
      let driver (d : Nat) : Option Bool :=
        let w := lineWord r l (2 * d) s
        if bit 31 w && sigVal fuel r (lineSource (fld 14 0 (lineWord r l (2 * d + 1) s))) s
        then some (sigVal fuel r (lineSource (fld 14 0 w)) s) else none
      match (List.range 4).findSome? driver with
      | some b => b
      | none => match lineIdle r l s with
        | 0 => false
        | 1 => true
        | _ => lineHeld r l s
    | .tap side k => tapLane r side k s
    | .tapOut c n => (cell (r * 256 + c) s).tapOut.getLsbD n
    | .ready side g => groupReady r side g s
    | .valid side g => groupValid r side g s
    | .bank t n => bankSig (r * 16 + t) n s
    | .draining => (rgn r s).draining
    | .foxReady => foxReady r s
    | .foxValid => foxValid r s
    | .foxLane n => foxLane r n s

/-- Longer than any path without a loop: every signal of a region at most once. -/
abbrev pathFuel : Nat := 200000

def sig (r : Nat) (g : Sig) (s : State) : Bool := sigVal pathFuel r g s

/-- An input of a tap group, of a bank interface or of the Fox tap: its source is routing data (R120, R191, R259). -/
def tapCtl (r side g : Nat) (s : State) : Bool := sig r (sideInput r side (64 + g) 0) s
def bankCtl (r l n : Nat) (s : State) : Bool := sig r (tileInput r l n) s
def foxCtl (r n : Nat) (s : State) : Bool := sig r (tileInput r 0 (64 + n)) s

/-! ## Long lines (R116, R117) -/

/-- The enabled USED drivers of a line, bit d for driver d. -/
def lineEnables (r l : Nat) (s : State) : List Nat :=
  (List.range 4).filter fun d =>
    bit 31 (lineWord r l (2 * d) s) && sig r (lineSource (fld 14 0 (lineWord r l (2 * d + 1) s))) s

/-- Contention at an island edge (R117). -/
def contention (r : Nat) (s : State) : State :=
  let hits := (List.range 64).filter fun l => 2 ≤ (lineEnables r l s).length
  match hits with
  | [] => s
  | l :: _ =>
    let pg := P.RGN r
    let en := (lineEnables r l s).foldl (fun a d => a + 2 ^ d) 0
    s |> countN pg R.RGN_CONTENTION_COUNT hits.length
      |> wr pg R.RGN_CONTENTION_STAT (W (2 ^ 31 + l * 2 ^ 8 + en))
      |> irq pg 0

/-- The lines store what they carry at the edge; a line whose IDLE is HOLD, now or in a later plane, shows it (R116). -/
def latchLines (r : Nat) (s : State) : State :=
  let vals := (List.range 64).map fun l => (l, sig r (.line l) s)
  setLogic { s.logic with
    lines := vals.foldl (fun m e => tput false (r * 64 + e.1) e.2 m) s.logic.lines } s

/-! ## Clock groups and flip-flops (R110, R111) -/

/-- The slice of region r whose frame the plane word at key k belongs to (R127). -/
def sliceOfKey (r k : Nat) : Option Nat :=
  let f := k / 32 % 1536
  if k / 49152 = r ∧ 64 ≤ f ∧ 8 ≤ (f - 64) % 92 ∧ (f - 64) % 92 < 56
  then some ((f - 64) / 92 * 48 + ((f - 64) % 92 - 8)) else none

/-- Slices of region r with a word in a plane. -/
def planeSlices (r : Nat) (p : SMap Word) : List Nat := (p.filterMap fun e => sliceOfKey r e.1).eraseDups

/-- Slices with configuration or flip-flop state listed: in all others every LUT and flip-flop is 0. -/
def slicesInUse (r : Nat) (s : State) : List Nat :=
  (planeSlices r s.planes.active ++ s.logic.ffs.filterMap fun (e : Nat × Bool) =>
    if e.1 / 12288 = r then some (e.1 % 12288 / 16) else none).eraseDups

/-- Is flip-flop n of slice i a keep slot (R107)? -/
def isKeep (i : Nat) : Bool := i % 12 == 11

/-- The plane leaves slice i unused: its frame is all zero (assumption log 118). -/
def sliceUnused (r i : Nat) (s : State) : Bool := (List.range 20).all fun w => sliceWord r i w s == 0

/-- The 6 configuration bits of clock group g of slice i: [2:0] clock, [3] CE_USE, [4] SR_USE,
[5] SR_SYNC. -/
def groupCfg (r i g : Nat) (s : State) : Word := W (fld (8 * g + 5) (8 * g) (sliceWord r i 19 s))

def srOn (r i g : Nat) (s : State) : Bool := bit 4 (groupCfg r i g s) && sig r (.mux i (114 + g)) s
def asyncSr (r i g : Nat) (s : State) : Bool := !bit 5 (groupCfg r i g s) && srOn r i g s

def ffRst (r i n : Nat) (s : State) : Bool := ffCfg r i n s / 8 % 2 == 1

def setFf (r i n : Nat) (v : Bool) (s : State) : State :=
  setLogic { s.logic with ffs := tput (ffInit r i n s) (ffKey r i n) v s.logic.ffs } s

/-- D of a flip-flop (Table 5.1). DSEL 0b11 is reserved and never configured (R132); it reads 0. -/
def ffData (r i n : Nat) (s : State) : Bool :=
  let k := n / 2
  match ffCfg r i n s % 4 with
  | 0 => if n % 2 = 0 then sig r (.lutY i k) s else sig r (.lutZ i k) s
  | 1 => if n % 2 = 0 then xor (sig r (.lutY i k) s) (sig r (.carry i k) s)
      else sig r (.carry i (k + 1)) s
  | 2 => sig r (.mux i (104 + k)) s
  | _ => false

def holdKey (r i g : Nat) : Nat := (r * 768 + i) * 2 + g
def srHeld (r i g : Nat) (s : State) : Nat := tget 0 s.logic.srHold (holdKey r i g)

/-- Asserted asynchronous resets set their flip-flops and hold them for two further edges (R111). -/
def asyncPass (r : Nat) (slices : List Nat) (s : State) : State :=
  slices.foldl (fun t i => [0, 1].foldl (fun t g =>
    if asyncSr r i g s then
      let t := (List.range 8).foldl (fun t n => setFf r i (8 * g + n) (ffRst r i (8 * g + n) s) t) t
      setLogic { t.logic with srHold := tput 0 (holdKey r i g) 2 t.logic.srHold } t
    else t) t) s

/-- Until nothing changes: an asynchronous reset can assert another one. -/
def asyncSettle (fuel r : Nat) (slices : List Nat) (s : State) : State :=
  match fuel with
  | 0 => s
  | fuel + 1 =>
    let t := asyncPass r slices s
    if t.logic = s.logic then s else asyncSettle fuel r slices t

/-- A command has changed signals of region r's logic: asynchronous resets that it asserts act at once, but under GSR,
which prevails (R111). -/
def settleLogic (r : Nat) (s : State) : State :=
  if (rgn r s).gsr then s else asyncSettle 1536 r (slicesInUse r s) s

/-- The same, of every region. -/
def settleAll (s : State) : State := (List.range 64).foldl (fun t r => settleLogic r t) s

/-- The same, of the region whose Fox tap a channel is. -/
def settleTap (c : ChanId) (s : State) : State :=
  match c with
  | .foxTapUp r => settleLogic r.val s
  | .foxTapDown r => settleLogic r.val s
  | _ => s

/-- What a clock group does at an edge of its clock: each flip-flop's new value, if it changes; SR prevails
over CE. -/
def groupNext (r i g : Nat) (s : State) : List (Nat × Bool) :=
  let c := groupCfg r i g s
  let all (f : Nat → Bool) : List (Nat × Bool) := (List.range 8).map fun n => (8 * g + n, f (8 * g + n))
  if 0 < srHeld r i g s || srOn r i g s then all fun n => ffRst r i n s
  else if bit 3 c && !sig r (.mux i (112 + g)) s then []
  else all fun n => ffData r i n s

/-- All flip-flops of the clock capture together; the keep slots of a slice that the plane leaves unused keep their
values (R126). -/
def clockGroups (r cg : Nat) (slices : List Nat) (s : State) : State :=
  let groups := (slices.flatMap fun i => [(i, 0), (i, 1)]).filter fun e =>
    fld 2 0 (groupCfg r e.1 e.2 s) == cg && !(isKeep e.1 && sliceUnused r e.1 s)
  groups.foldl (fun t e =>
    let h := srHeld r e.1 e.2 s
    let t := (groupNext r e.1 e.2 s).foldl (fun t x => setFf r e.1 x.1 x.2 t) t
    if 0 < h && !asyncSr r e.1 e.2 s then
      setLogic { t.logic with srHold := tput 0 (holdKey r e.1 e.2) (h - 1) t.logic.srHold } t
    else t) s

/-! ## What else happens at an island edge -/

/-- Receivers present their items (R120): LEVEL the newest, discarding older ones; STREAM moves on when
TAKE is 1. A side whose own border is held takes no new item (R267). -/
def presentTaps (r : Nat) (s : State) : State :=
  (List.range 16).foldl (fun t n =>
    let side := n / 4
    let g := n % 4
    let x := tapGroup (tapKey r side g) s
    match x.items with
    | [] => t
    | v :: rest =>
      if inboundHeld r side s then t
      else if inStream r side g s then
        if groupValid r side g s && tapCtl r side (4 + g) s then
          setTapGroup (tapKey r side g) { x with items := rest, shown := some v } t
        else t
      else setTapGroup (tapKey r side g) { x with items := [], shown := (v :: rest).getLast? } t) s

/-- The bank interface of a tile moves on by a cycle: GNT ends, and a read granted two cycles ago is presented (R191). -/
def lutCycle (x : Bank) : Bank :=
  let rs := x.lutReads.filterMap fun e => if e.1 ≤ 1 then none else some (e.1 - 1, e.2)
  { x with lutGnt := false, lutReads := rs, lutData := ((rs.find? (·.1 == 1)).map (·.2)).getD x.lutData }

/-- The bank interface of each tile at an island edge: a held REQ enters at the port (R191), but nothing while GSR is
asserted, as it is from the plane switch of a swap to the release (R180). -/
def lutPorts (r : Nat) (s : State) : State :=
  (List.range 16).foldl (fun t l =>
    let k := r * 16 + l
    let b := bankPort k s
    let bits (lo n : Nat) : Nat := (List.range n).foldl (fun a j =>
      if bankCtl r l (lo + j) s then a + 2 ^ j else a) 0
    let t := if b.lutGnt || !b.lutReads.isEmpty then mdBankPort k lutCycle t else t
    if !(rgn r s).gsr && bit 2 (tileFrame k 90 0 s) && b.lut.isNone && !b.lutGnt && bankCtl r l 0 s then
      let op : BankOp := if bankCtl r l 1 s then .write (tw .data (W (bits 15 32))) else .read
      mdBankPort k (fun x => { x with lut := some ⟨.fabric, none, bits 2 13, op, false, 0⟩ }) t
    else t) s

/-- The word that the region's logic presents to its Fox tap. -/
def foxWord (r : Nat) (s : State) : TWord :=
  let bits (lo n : Nat) : Nat := (List.range n).foldl (fun a j =>
    if foxCtl r (lo + j) s then a + 2 ^ j else a) 0
  ⟨W (bits 0 32), tagOf (bits 32 3), foxCtl r 35 s⟩

/-- The Fox tap at an island edge: a word is sent where VALID and READY are 1, and the one presented leaves
where TAKE is 1 (R120, R259). The signals are those of state v, before the edge. -/
def foxEdge (r : Nat) (v s : State) : State :=
  let t := if foxValid r v && foxCtl r 37 v then popBuffer (.foxTapDown (regionId r)) s else s
  if foxReady r v && foxCtl r 36 v then send (.foxTapUp (regionId r)) [foxWord r v] t else t

/-- Cells of a tile that wait for input, and cells stalled on output (Table 5.10). -/
def cellsWaiting (t : Nat) (s : State) : Nat :=
  ((List.range 16).filter fun k =>
    let c := 16 * t + k
    cellReady c s && (cell c s).issued.isNone && !reservedInsn (curInsn c s) && !inputsReady c (curInsn c s) s).length
def cellsStalled (t : Nat) (s : State) : Nat :=
  ((List.range 16).filter fun k => (cell (16 * t + k) s).stall.isSome).length

/-- Tile counters that count per cycle (R134). -/
def tileCycles (r : Nat) (s : State) : State :=
  if (List.range 16).all fun l => rd (P.RGN r) (R.RGN_TILE_CNT_SEL + 4 * l) s == 0 then s
  else (List.range 16).foldl (fun t l =>
    let k := r * 16 + l
    t |> tileEvent k 0x01
      |> tileEventN k 0x03 (cellsWaiting k s)
      |> tileEventN k 0x04 (cellsStalled k s)
      |> tileEventN k 0x0B (b2n (ff r (l * 48 + 47) 15 s))) s

/-- Does the clock run: 0 the island clock, 1 to 4 the region clock lines (R124, R345)? -/
def clockRuns (r cg : Nat) (s : State) : Bool :=
  regionOn r s && (deviceRuns s || s.dev.mode == .load) && (s.pwr.hare || !islandStopped r s) &&
    (cg == 0 || (bit (8 * (cg - 1) + 7) (frameWord r 0 0 s) && !(rgn r s).rcStopped.getLsbD (cg - 1)))

/-- One rising edge of a clock of a region (R111, R116, R117, R120, R134, R191, R259). While GSR is asserted the
flip-flops hold INIT, keep slots of a swap are not clocked, and contention is not counted (R125, R126). -/
def clockEdge (r cg : Nat) (s : State) : State :=
  if !clockRuns r cg s then s
  else
    let gsr := (rgn r s).gsr
    let slices := slicesInUse r s
    let s1 := if gsr then s else asyncSettle 1536 r slices s
    let s2 := if cg = 0 ∧ !gsr then contention r s1 else s1
    let s3 := if gsr then s2 else clockGroups r cg slices s2
    let s4 := if cg = 0 then
        -- the values before the edge decide what the lines, taps and bank interface do at it
        let v := latchLines r s1
        let s4 := setLogic { s3.logic with lines := v.logic.lines } s3
        let p := presentTaps r s1
        let s4 := setLogic { s4.logic with taps := p.logic.taps } s4
        let q := lutPorts r s1
        let s4 := setBanks { s4.banks with ports := q.banks.ports } s4
        foxEdge r s1 (tileCycles r s4)
      else s3
    if gsr then s4 else asyncSettle 1536 r slices s4

def execIslandClockEdge (r : RegionId) (cg : Fin 5) (s : State) : Out :=
  .next (clockEdge r.val cg.val s)

/-! ## Tap items (R119–R123, R415–R417) -/

/-- The select of outbound lane k (R131). -/
def laneCode (r side k : Nat) (s : State) : Nat :=
  let b := 5 * k
  ((outFrame r side (3 + b / 32) s).toNat + 2 ^ 32 * (outFrame r side (4 + b / 32) s).toNat)
    / 2 ^ (b % 32) % 32

/-- The live value of an outbound lane: code 31 selects constant 0 (R130). -/
def laneLive (r side k : Nat) (s : State) : Bool :=
  let c := laneCode r side k s
  if c = 31 then false else sig r (sideInput r side k c) s

/-- The value an outbound lane carries: its hold value while the side is held (R267). -/
def laneOut (r side k : Nat) (s : State) : Bool :=
  match tfind s.logic.holdOut (r * 4 + side) with
  | some w => bit k w
  | none => laneLive r side k s

/-- Start the hold of a side: HOLD_MODE picks the last value or HOLD_VALUE, lane by lane (R131, R267). -/
def startHold (r side : Nat) (s : State) : State :=
  if sideHeld r side s then s
  else
    let mode := outFrame r side 1 s
    let val := outFrame r side 2 s
    let w := (List.range 32).foldl (fun a k =>
      setBit k (if bit k mode then bit k val else laneLive r side k s) a) (0 : Word)
    setLogic { s.logic with holdOut := tins (r * 4 + side) w s.logic.holdOut } s

def endHold (r side : Nat) (s : State) : State :=
  setLogic { s.logic with holdOut := tdel (r * 4 + side) s.logic.holdOut } s

/-- The item of an outbound group: its 8 lane values. -/
def groupItem (r side g : Nat) (s : State) : Byte :=
  (List.range 8).foldl (fun a n =>
    if laneOut r side (8 * g + n) s then a ||| (1#8 <<< n) else a) 0

/-- CFGc of an I/O cell. -/
def cellPadCfg (b c : Nat) (s : State) : Word := rd (P.IOB b) (R.IOB_CFG + 4 * c) s

/-- Cells of an I/O bank (Table 18.1). -/
def bankCells (b : Nat) : Nat := if b < 8 then 48 else 36

/-- BANK_STAT.VCCO_OK: without it the pins are at high impedance and their inputs present 0 (R428). -/
def vccoOk (b : Nat) (s : State) : Bool := bit 1 (rd (P.IOB b) R.IOB_BANK_STAT s)

/-- Inbound lane 32 + k of a pin side: what its I/O cell sampled, rising and falling (Table 18.3, R417). -/
def padLane (r side k : Nat) (rise fall : Bool) (riseOfPair : Bool) (s : State) : Bool :=
  let (b, i) := pinBank r (sideDir side)
  if !vccoOk b s then false
  else if b < 8 then (k < 24 && rise)
  else if 18 ≤ k then false
  else if k % 2 = 0 then rise
  else if bit 7 (cellPadCfg b (9 * i + k / 2) s) then fall else riseOfPair

def padItem (r side g : Nat) (pins : BitVec 16) (s : State) : Byte :=
  (List.range 8).foldl (fun a n =>
    if padLane r side (8 * g + n) (pins.getLsbD n) (pins.getLsbD (8 + n)) (pins.getLsbD (n / 2 * 2)) s
    then a ||| (1#8 <<< n) else a) 0

/-- Lane fail counts after a check in which the lanes of `bad` failed: a lane that passes starts again. -/
def laneCounts (bad : Byte) (l : List Nat) : List Nat :=
  (List.range 8).map fun n => if bad.getLsbD n then l.getD n 0 + 1 else 0

/-- The page of the receiver of a side's items (R36): the region, or for outbound lanes of a pin side the I/O bank. -/
def itemPage (r side lane0 : Nat) : Nat := if 32 ≤ lane0 then P.RGN r else P.IOB (pinBank r (sideDir side)).1

/-- A lane retires (R122): on an inbound side TAP_RETIRED and its interrupt; the FAULT detail has kind 1. For an
outbound lane of a pin side, whose receiver is the I/O bank, the index names the region and the lane that sends
(assumption log 119). -/
def retireLane (r side lane : Nat) (s : State) : State :=
  let t := err (itemPage r side lane) E.REPLAY_FAIL (2 ^ 20 + r * 256 + side * 64 + lane) 0 s
  if 32 ≤ lane then
    t |> md (P.RGN r) (R.RGN_TAP_RETIRED + 4 * side) (setBit (lane - 32) true)
      |> irq (P.RGN r) 1
  else
    setIo { t.io with
      lanesRetired := tput 0 (r * 4 + side) (setBit lane true (tget 0 t.io.lanesRetired (r * 4 + side)))
        t.io.lanesRetired } t

/-- An item reaches the receiving group at key k of (r, side, first lane): the lanes not retired are
checked; a failing item is kept for its replay, and a lane that fails 4 times in a row retires (R36, R122).
`ok` stores the item. -/
def receiveItem (k r side lane0 : Nat) (retired : Nat → Bool) (item upset : Byte)
    (ok : Byte → State → State) (s : State) : State :=
  let bad : Byte := (List.range 8).foldl (fun a n =>
    if upset.getLsbD n && !retired n then a ||| (1#8 <<< n) else a) 0
  let x := tapGroup k s
  if bad = 0 then
    ok item (setTapGroup k { x with laneFails := [], replay := none } s)
  else
    let counts := laneCounts bad x.laneFails
    let dead := (List.range 8).filter fun n => 4 ≤ counts.getD n 0
    let t := setTapGroup k { x with
        laneFails := (List.range 8).map (fun n => if dead.contains n then 0 else counts.getD n 0),
        replay := some item } s
    let t := errTransient (itemPage r side lane0) t
    dead.foldl (fun t n => retireLane r side (lane0 + n) t) t

/-- Region r sends outbound group g of a side (R119, R120, R123). -/
def sendItem (r side g : Nat) (upset : Byte) (s : State) : State :=
  if !clockRuns r 0 s then s
  else match regionNext r (sideDir side) with
  | none =>
    let k := 1024 + tapKey r side g
    let item := ((tapGroup k s).replay).getD (groupItem r side g s)
    receiveItem k r side (8 * g) (fun n => bit (8 * g + n) (tget 0 s.io.lanesRetired (r * 4 + side)))
      item upset
      (fun v t => setIo { t.io with
        lanes := tput 0 (r * 4 + side)
          (setFld (8 * g + 7) (8 * g) v.toNat (tget 0 t.io.lanes (r * 4 + side))) t.io.lanes } t) s
  | some m =>
    let back := dirCode (opposite (sideDir side))
    let k := tapKey m back g
    let x := tapGroup k s
    let stream := outStream r side g s
    if !regionOn m s then s
    else if inboundHeld m back s then s
    else if stream && sideHeld r side s then s
    else if stream && x.replay.isNone && !(tapCtl r side g s) then s
    else if 16 ≤ x.items.length then s
    else
      receiveItem k m back (32 + 8 * g) (fun n => bit (8 * g + n) (tapRetired m back s))
        (x.replay.getD (groupItem r side g s)) upset
        (fun v t => setTapGroup k { tapGroup k t with items := (tapGroup k t).items ++ [v] } t) s

/-- An item of sampled pins reaches inbound group 4 + g of a pin side; a held side does not sample. -/
def padsIn (r side g : Nat) (upset : Byte) (pins : BitVec 16) (s : State) : State :=
  if !clockRuns r 0 s || inboundHeld r side s then s
  else
    let k := tapKey r side g
    if 16 ≤ (tapGroup k s).items.length then s
    else receiveItem k r side (32 + 8 * g) (fun n => bit (8 * g + n) (tapRetired r side s))
      (((tapGroup k s).replay).getD (padItem r side g pins s)) upset
      (fun v t => setTapGroup k { tapGroup k t with items := (tapGroup k t).items ++ [v] } t) s

/-- Groups 0–3 are sent by region r; groups 4–7 arrive at it, from its neighbour or from the pads. -/
def tapItem (r side g : Nat) (upset : Byte) (pins : BitVec 16) (s : State) : State :=
  if g < 4 then sendItem r side g upset s
  else match regionNext r (sideDir side) with
    | some m => sendItem m (dirCode (opposite (sideDir side))) (g - 4) upset s
    | none => padsIn r side (g - 4) upset pins s

def execTapItemTransfer (r : RegionId) (side : Dir) (g : Fin 8) (upset : BitVec 8) (pins : BitVec 16)
    (s : State) : Out :=
  .next (settleAll (tapItem r.val (dirCode side) g.val upset pins s))

/-- What an I/O cell drives by its own lanes and settings in a half of the IOB cycle: output enable and value, with the
lanes of its source region (R416); with DDR_OUT = 1 the second half is O_F's (R417). -/
def cellDrive (b c : Nat) (second : Bool) (s : State) : Bool × Bool :=
  let wide := b < 8
  let per := if wide then 24 else 9
  let i := c / per
  let k := c % per
  let r := if b < 4 then 16 * b + 8 * i else if b < 8 then 16 * (b - 4) + 8 * i + 7
    else if b < 10 then 4 * (b - 8) + i else 56 + 4 * (b - 10) + i
  let side := if b < 4 then 3 else if b < 8 then 1 else if b < 10 then 0 else 2
  let w := tget 0 s.io.lanes (r * 4 + side)
  let dead := tget 0 s.io.lanesRetired (r * 4 + side)
  let on := regionOn r s && (s.pwr.hare || !islandStopped r s)
  let lane (n : Nat) : Bool := on && bit n w && !bit n dead
  let o := if wide then lane k else lane (3 * k + b2n (second && bit 6 (cellPadCfg b c s)))
  let oe := if bit 8 (cellPadCfg b c s) then (if wide then (k < 8 && lane (24 + k)) else lane (3 * k + 2))
    else bit 9 (cellPadCfg b c s)
  (oe, o)

/-- The cell is the second of an LVDS pair, whose own CFG is ignored (Table 18.4, DIFF). -/
def pairedCell (b c : Nat) (s : State) : Bool := 8 ≤ b && c % 2 == 1 && bit 11 (cellPadCfg b (c - 1) s)

/-- What a pad of the fabric drives in a half of the IOB cycle; the second pad of an LVDS pair drives the inverse of the
first. -/
def padHalf (b c : Nat) (second : Bool) (s : State) : Bool × Bool :=
  if pairedCell b c s then
    let d := cellDrive b (c - 1) second s
    (d.1, !d.2)
  else cellDrive b c second s

/-- What it drives in the first half. -/
def padDrive (b c : Nat) (s : State) : Bool × Bool := padHalf b c false s

/-! ## GSR on the logic of a region (R125, R126) -/

/-- GSR: flip-flops take INIT, but the keep slots during a swap; inbound tap buffers empty (R123). -/
def gsrLogic (r : Nat) (keep : Bool) (s : State) : State :=
  let mine (k : Nat) : Bool := k / 12288 == r
  setLogic { s.logic with
    ffs := s.logic.ffs.filter (fun e => !mine e.1 || (keep && isKeep (e.1 % 12288 / 16))),
    srHold := s.logic.srHold.filter (fun e => e.1 / 1536 != r),
    taps := s.logic.taps.filterMap fun e =>
      if e.1 / 16 == r then
        (let x := { e.2 with items := [], replay := none }
         if x = TapGroup.idle then none else some (e.1, x))
      else some e } s

/-- The keep slots keep their values across a change to the staging plane: those of every slice that one of the two
planes configures are listed, so that the new plane's INIT does not show (R126, R268). -/
def pinKeepSlots (r : Nat) (s : State) : State :=
  let slices := ((slicesInUse r s ++ planeSlices r s.planes.staging).filter isKeep).eraseDups
  let vals := slices.flatMap fun i => (List.range 16).map fun n => (ffKey r i n, ff r i n s)
  setLogic { s.logic with ffs := vals.foldl (fun m e => tins e.1 e.2 m) s.logic.ffs } s

/-! ## Commands of cells that drive the logic (R88, R111) -/

def execTapo (c : CellId) (s : State) : Out :=
  .next (settleLogic (cellRegion c.val) (cellAlu c.val 0x24 aluTapo s))
def execCellOutputAccept (c : CellId) (s : State) : Out :=
  .next (settleLogic (cellRegion c.val) (acceptOutput c.val s))

end Sys2Proof.Machine
end

