-- ==== Sys2Proof/Machine/Crossings.lean ====
section
/-! DEFINITION. The commands of the word channels and the two switching stages (R11–R16, R35–R38, R43–R47,
R149–R167). -/
namespace Sys2Proof.Machine

open Sys2Proof

/-- The region a channel touches, if it touches one. -/
def chanRegion : ChanId → Option Nat
  | .portUp p => some (p.val / 8)
  | .portDown p => some (p.val / 8)
  | .svcUp _ => none
  | .svcDown _ => none
  | .tpOut j => some (j.val / 32)
  | .tpIn j => some (j.val / 32)
  | .mesh c _ => some (c.val / 256)
  | .paramUnit r => some r.val
  | .squirrel r => some r.val
  | .foxTapUp r => some r.val
  | .foxTapDown r => some r.val
  | .ringIn => none
  | .ringOut => none

/-- The islands at both ends of a channel are clocked. The ring is in the always-on island. -/
def chanLive (c : ChanId) (s : State) : Bool :=
  match c with
  | .ringIn => s.dev.mode != .off && s.dev.mode != .bear && s.dev.mode != .scan
  | .ringOut => s.dev.mode != .off && s.dev.mode != .bear && s.dev.mode != .scan
  | _ => deviceRuns s && (match chanRegion c with
      | some r => regionOn r s && (s.pwr.hare || !islandStopped r s)
      | none => true)

/-- The word that comes next to a tile port is a HEAD that the port accepts. -/
def headArrives (j : Fin 2048) (upset : Bool) (s : State) : Bool :=
  let x := chan (.tpIn j) s
  match x.flight with
  | (w, replay) :: _ => w.tag == .head && parGood (if upset then corrupt w else w) && (!x.rejecting || replay)
  | [] => false

/-- A word reaches a tile port from the switch. As the port accepts a HEAD, the commits held at the uplinks that deliver
to it take effect (R99). -/
def tilePortWord (j : Fin 2048) (upset : Bool) (s : State) : State :=
  arrive (.tpIn j) upset (if headArrives j upset s then
    forPorts (tpRegion j.val) (fun p t => if uplinkTp p t = j.val then applyHeld p t else t) s else s)

/-- The tile port of an uplink that holds a commit accepts a HEAD (R99). -/
def heldCommit (p : Nat) (s : State) : State :=
  let j := tpId (uplinkTp p s)
  if chanLive (.tpIn j) s && (tfind s.fab.held p).isSome && headArrives j false s then tilePortWord j false s else s

def execHeldCommitApply (p : PortId) (s : State) : Out := .next (heldCommit p.val s)

/-- A retired port takes a spare, or becomes absent (R166). -/
def execSpareRemap (p : PortId) (s : State) : Out := .next (remap p.val s)

/-- A region switch decodes the message at the front of a tile port or uplink (R44, R45, R152). -/
def switchRoute (inp : ChanId) (s : State) : State :=
  if !chanLive inp s then s
  else match inp with
    | .tpOut j => routeFront inp (routeTilePort j.val inp) s
    | .portDown p => routeFront inp (routeUplink p.val inp) s
    | _ => s

def execSwitchMessageRoute (inp : ChanId) (s : State) : Out := .next (switchRoute inp s)

/-- The crossbar decodes the message at the front of one of its inputs (R152, R153): the route word leaves
naming the origin; the ring port has written it already. The word that goes into the core fails its check there
`fails` times (R164). With XB.PAGE_CTL.ENABLE = 0 no message is opened; those open go on (Table 3.2c, assumption log
80). -/
def crossbarStage (inp : ChanId) (fails : Nat) (s : State) : State :=
  if !chanLive inp s then s
  else
    let go := fun (f : Word → Word → State → State) =>
      let t := coreChecks inp fails s
      if 4 ≤ fails then t
      else if takesWork P.XB s then routeFront inp f (advanceAll inp t)
      else advanceAll inp t
    match inp with
    | .portUp p =>
      if portUnderSlice p.val s || remapping p.val s then s else go (routeCrossbar inp (routePort p.val))
    | .svcUp k => if k.val = 6 then go (routeFromRing inp) else go (routeCrossbar inp (routeSvc k.val))
    | _ => s

def execCrossbarRoute (core : CoreInput) (s : State) : Out := .next (crossbarStage core.inp core.fails s)

/-- A free output goes to the HEAD that waits first (R46, R163). -/
def execHeadOutputGrant (o : ChanId) (s : State) : Out :=
  .next (if chanLive o s then grantNext o s else s)

end Sys2Proof.Machine
end

