-- ==== Sys2Proof/Machine/BankCmds.lean ====
section
/-! DEFINITION. The commands of the memory banks: the bank cycle, host and steward accesses, alias writes
and the end of the hardware clear (R20, R21, R59, R173–R188). -/
namespace Sys2Proof.Machine

open Sys2Proof

/-- Where a device address lies among the bank ranges (Table 1.4): the range and the byte offset. -/
inductive BankRange where
  | plain (o : Nat)
  | alias_ (k : AliasKind) (o : Nat)
  | outside
  deriving DecidableEq, Repr

def bankRange (a : Nat) : BankRange :=
  if 0x1000_0000 ≤ a ∧ a < 0x1200_0000 then .plain (a - 0x1000_0000)
  else if 0x2000_0000 ≤ a ∧ a < 0x2200_0000 then .alias_ .bitSet (a - 0x2000_0000)
  else if 0x3000_0000 ≤ a ∧ a < 0x3200_0000 then .alias_ .bitClear (a - 0x3000_0000)
  else if 0x3800_0000 ≤ a ∧ a < 0x3A00_0000 then .alias_ .tagView (a - 0x3800_0000)
  else .outside

def isSideRq : Requester → Bool
  | .host => true
  | .steward => true
  | _ => false

/-- The banks are served from the WE release step on (R289), and in SAFE entered from RUN. -/
def banksServed (s : State) : Bool :=
  (deviceRuns s && s.dev.weReleased) || (s.dev.mode == .safe && s.dev.safeFromRun)

/-- The start-up modes before the WE release step, in which DEV records a refused host access (R285). -/
def beforeWe (s : State) : Bool :=
  match s.dev.mode with
  | .hold | .load | .selftest | .release => !s.dev.weReleased
  | .safe => !s.dev.safeFromRun
  | _ => false

/-- The device takes accesses of a requester: not in OFF, and from the host only once the straps have been
sampled (R285). -/
def attached (rq : Requester) (s : State) : Bool :=
  s.dev.mode != .off && (rq != .host || s.dev.sampled || s.dev.mode == .scan)

/-- A bank access that is not served. -/
def bankNotServed (rq : Requester) (a : Nat) (isWrite : Bool) (s : State) : State :=
  let t := if rq = .host ∧ beforeWe s then err P.DEV E.PERM_FAULT 0 a s else s
  if isWrite then t else deliver rq zeroWord t

/-- A bank access refused for its size or alignment (R174): zero or FAULT for a read, nothing written. -/
def refuseBank (rq : Requester) (a : Nat) (isWrite : Bool) (b : Nat) (s : State) : State :=
  let t := err (P.RGN b) E.PERM_FAULT 0 a s
  if isWrite then deliverCode rq E.PERM_FAULT t
  else deliver rq (if isSideRq rq then zeroWord else faultWord E.PERM_FAULT 0) t

/-- An access to a reserved range (R20). -/
def reservedAccess (rq : Requester) (a : Nat) (isWrite : Bool) (s : State) : State :=
  match rq with
  | .host => s |> err P.DEV E.ABSENT_TARGET 0 a |> (fun t => if isWrite then t else deliver rq zeroWord t)
  | _ => if isWrite then deliverCode rq E.ABSENT_TARGET s
    else deliver rq (faultWord E.ABSENT_TARGET 0) s

/-- One 32-bit access at byte offset o of a bank range. -/
def bankWordAccess (rq : Requester) (k : Option AliasKind) (o : Nat) (isWrite : Bool) (v : Word)
    (s : State) : State :=
  let op : BankOp := match k, isWrite with
    | none, false => .read
    | none, true => .write (tw .data v)
    | some .tagView, false => .tagRead
    | some _, false => .read
    | some a, true => .rmw a v
  enterReq ⟨rq, none, o % 0x8000 / 4, op, false, 0⟩ (o / 0x8000) s

/-- An access in a bank range, at an address that is not refused: one word, or 64 bits of the host as two, the lower
address first (R174). What the steward asks during the hardware clear waits for its end (R188). -/
def bankRangeAccess (rq : Requester) (k : Option AliasKind) (a o size : Nat) (isWrite : Bool) (v : BitVec 64)
    (s : State) : State :=
  if !banksServed s && !(rq == .steward && s.dev.bankClear) then bankNotServed rq a isWrite s
  else if size = 4 ∧ a % 4 = 0 then bankWordAccess rq k o isWrite (lo32 v) s
  else if size = 8 ∧ a % 4 = 0 ∧ rq = .host then
    s |> bankWordAccess rq k o isWrite (lo32 v) |> bankWordAccess rq k (o + 4) isWrite (hi32 v)
  else refuseBank rq a isWrite (o / 0x8000 / 16) s

/-- A host or steward access to the banks or an alias (R20, R21, R174). -/
def bankAccess (rq : Requester) (a size : Nat) (isWrite : Bool) (v : BitVec 64) (s : State) : State :=
  match bankRange a with
  | .plain o => bankRangeAccess rq none a o size isWrite v s
  | .alias_ k o => bankRangeAccess rq (some k) a o size isWrite v s
  | .outside => reservedAccess rq a isWrite s

/-- Bank b's island has a running clock: there are bank cycles (R173). -/
def bankClocked (b : Nat) (s : State) : Bool := regionOn (b / 16) s && (s.pwr.hare || !islandStopped (b / 16) s)

/-- The device address of a word in an alias range (Table 1.4). -/
def aliasAddr (k : AliasKind) (b w : Nat) : Nat :=
  (match k with
    | .bitSet => 0x2000_0000
    | .bitClear => 0x3000_0000
    | .tagView => 0x3800_0000) + b * 0x8000 + 4 * w

/-- An alias write enters at the bank port (R181, R182). -/
def execAliasWrite (rq : Requester) (k : AliasKind) (b : BankId) (w : Fin 8192) (v : Word) (s : State) :
    Out :=
  .next (if !attached rq s || s.dev.mode == .scan then s
    else bankAccess rq (aliasAddr k b.val w.val) 4 true (v.setWidth 64) s)

/-- Every word of every bank that the clear covers is zero with tag DATA (R188): on a wake from SLEEP the
retained banks keep theirs. -/
def clearBanks (s : State) : State :=
  let keep : BitVec 64 := if s.dev.loadKind = .wakeSleep then rd64 P.PMU R.PMU_RETAIN_LO s else 0
  let kept (b : Nat) : Bool := inMask keep (b / 16)
  setBanks { s.banks with
    words := s.banks.words.filter (fun e => kept (e.1 / 8192)),
    upsets := s.banks.upsets.filter (fun k => kept (k / 8192)),
    ports := s.banks.ports.filterMap fun e =>
      if kept e.1 then some e
      else
        let x := { e.2 with uncleared := [] }
        if x = Bank.idle then none else some (e.1, x) } s

/-- The accesses of the steward that waited at bank b for the end of the clear: where the banks are not served yet, a
read gives zero and a write is dropped. -/
def answerWaiting (b : Nat) (s : State) : State :=
  let x := bankPort b s
  if banksServed s then s
  else x.stew.foldl (fun t q => if isWriteOp q.op then t else giveWord q zeroWord t) (setBankPort b { x with stew := [] } s)

/-- The 40 µs hardware clear ends (R188). -/
def bankClearDone (s : State) : State :=
  if s.dev.bankClear then
    let t := setDev { s.dev with bankClear := false } (clearBanks s)
    (t.banks.ports.map (·.1)).foldl (fun t b => answerWaiting b t) t
  else s

def execBankClearDone (s : State) : Out := .next (bankClearDone s)

end Sys2Proof.Machine
end

