-- ==== Sys2Proof/Machine/Access.lean ====
section
/-! DEFINITION. Access to register pages, pages that are off, refused writes, the soft reset of a page, and
what every hardware receiver of messages checks (R42, R45, R48, R51, R53, R56, R59). -/
namespace Sys2Proof.Machine

open Sys2Proof

/-- What a read delivers where nothing answers: zero to the host and the steward, else a NULL word (R59). -/
def offWord : Requester → TWord
  | .host => zeroWord
  | .steward => zeroWord
  | _ => nullWord

/-- A write of a register of page p by a requester: dropped and counted where the page is off (R59); in SCAN
nothing is recorded (R383). -/
def onPage (rq : Requester) (p off : Nat) (f : State → State) (s : State) : State :=
  if !attached rq s || s.dev.mode == .scan then s
  else if pageOff p s then offAccess rq p off true s else f s

/-- A read with an effect: zero or NULL, and counted, where the page is off (R59). -/
def onPageRead (rq : Requester) (p off : Nat) (f : State → State) (s : State) : State :=
  if !attached rq s then s
  else if s.dev.mode == .scan then deliver rq (offWord rq) s
  else if pageOff p s then deliver rq (offWord rq) (offAccess rq p off false s)
  else f s

/-- A refused register write (R53): PERM_FAULT in the page's ERR registers, with the register's address. -/
def permFault (p off : Nat) (s : State) : State := err p E.PERM_FAULT 0 (p * 4096 + off) s

/-- Deliver the data of a register read. -/
def deliverReg (rq : Requester) (v : Word) (s : State) : State := deliver rq (tw .data v) s

/-! ## 64-bit registers (R51) -/

def pairKey (rq : Requester) (p off : Nat) : Nat := rqCode rq * 2 ^ 24 + rkey p off

/-- The pending low value of a requester class. -/
def lowPending (rq : Requester) (p lowOff : Nat) (s : State) : Option Word :=
  tfind s.dev.lowPending (pairKey rq p lowOff)
def holdLow (rq : Requester) (p lowOff : Nat) (v : Word) (s : State) : State :=
  setDev { s.dev with lowPending := tins (pairKey rq p lowOff) v s.dev.lowPending } s
def clearLow (rq : Requester) (p lowOff : Nat) (s : State) : State :=
  setDev { s.dev with lowPending := tdel (pairKey rq p lowOff) s.dev.lowPending } s

/-- Write one half of a 64-bit register whose value is now `cur`: the state, and the value to store if the
write takes effect. -/
def pairWrite (rq : Requester) (p lowOff : Nat) (high : Bool) (v : Word) (cur : BitVec 64) (s : State) :
    State × Option (BitVec 64) :=
  if !high then (holdLow rq p lowOff v s, none)
  else match lowPending rq p lowOff s with
    | some lo => (clearLow rq p lowOff s, some (join64 lo v))
    | none => (s, some (join64 (lo32 cur) v))

/-- Pending low values and latched high words of a page are discarded. -/
def dropPairs (p : Nat) (s : State) : State :=
  let mine (k : Nat) : Bool := k % 2 ^ 24 / 1024 == p
  setDev { s.dev with lowPending := s.dev.lowPending.filter fun e => !mine e.1 } s

/-! ## Status and counters of a page (R56) -/

/-- The bits of a register that a reset of the block leaves: its RW settings, not its counters. -/
def settingBits (p off : Nat) : Word :=
  match regRow p off with
  | some r => r.rw &&& ~~~r.cnt
  | none => 0

/-- Status and counters of page p return to their reset values; settings, and registers that `keep` names,
stay. -/
def clearStatus (p : Nat) (keep : Nat → Bool) (s : State) : State :=
  let one (e : Nat × Word) : Option (Nat × Word) :=
    if e.1 / 1024 != p then some e
    else
      let off := e.1 % 1024 * 4
      if keep off then some e
      else
        let m := settingBits p off
        let d := regReset p off
        let v := (e.2 &&& m) ||| (d &&& ~~~m)
        if v = d then none else some (e.1, v)
  dropPairs p (setRegs (s.regs.filterMap one) s)

/-- Every register of a page returns to its reset value. -/
def clearPage (p : Nat) (s : State) : State :=
  dropPairs p (setRegs (s.regs.filter fun e => e.1 / 1024 != p) s)

/-! ## Messages at a service attachment -/

/-- Answer a request with an RD_REPLY from service k. -/
def svcReply (k : Nat) (m : Msg) (payload : List TWord) (status : Nat) (s : State) : State :=
  send (.svcUp (svcId k)) (message 0x22 m.task m.route payload status) s

/-- The code with which work ends that needs some words as data (R31): ABSENT_TARGET for a NULL word, the code of a
FAULT word, and PERM_FAULT for a STAT word (DEDUCED, assumption log 109); none where each word is data. -/
def wordsFail (ws : List TWord) : Option Nat :=
  (ws.find? fun w => w.tag == .stat || w.tag == .null || w.tag == .fault).map fun w =>
    if w.tag = .null then E.ABSENT_TARGET else if w.tag = .fault then fld 31 24 w.data else E.PERM_FAULT

/-- A message that a receiver does not serve (R42, R48), counted; a request is answered as at an absent destination,
which for a class that the service does not take is DEDUCED (assumption log 104). -/
def discardMsg (k : Nat) (m : Msg) (s : State) : State :=
  if requestClass m.cls then svcReply k m [nullWord] E.ABSENT_TARGET (malformed m.route s) else malformed m.route s

/-- What a trailer STATUS other than zero says where it is an outcome: an RD_REPLY at any service, a COMPLETE and a
SUSPEND reply at service 0x00 (R45). -/
def statusIsOutcome (k cls : Nat) : Bool := cls == 0x22 || (k == 0 && (cls == 0x02 || cls == 0x05))

/-- The checks that every hardware receiver makes (R42, R45, R48): the state after a message that it
discards, none for a message to be served. `known` names the classes it accepts. The STATUS is read first: a message
cut short by a stage has fewer words than LENGTH says (R38), and its STATUS is what counts. -/
def receiverCheck (k : Nat) (known : Nat → Bool) (m : Msg) (s : State) : Option State :=
  if m.status = E.UNTERMINATED then some s
  else if m.status ≠ 0 ∧ !statusIsOutcome k m.cls then some s
  else if !known m.cls ∨ (m.status = 0 ∧ m.payload.length ≠ m.len) then some (discardMsg k m s)
  else none

/-- A message at attachment 0x05, the time and snapshot unit, which takes none: its copies of ring-level messages come
from the ring port (Table 17.2). -/
def timeService (s : State) : State :=
  match sinkMsg (.svcDown 5) s with
  | none => s
  | some m =>
    let t := dropMsg (.svcDown 5) s
    match receiverCheck 5 (fun _ => false) m t with
    | some u => u
    | none => t

/-- The crossbar port a delivered route word names, if it names one (R41). -/
def originPort (w : Word) : Option Nat :=
  if fld 31 30 w = 1 then some (fld 8 0 w) else none

/-- The origin is another ring node (R41). -/
def fromRing (w : Word) : Bool := fld 31 30 w == 2

end Sys2Proof.Machine
end

