-- ==== Sys2Proof/Machine/Iob.lean ====
section
/-! DEFINITION. The I/O banks: VCCO, the cells that the Ethernet MACs use, the I/O record and the movement of the
delays (R414, R418, R420, R428). -/
namespace Sys2Proof.Machine

open Sys2Proof

/-- The nominal VCCO of a standard in mV, none for a reserved code (Table 18.4). -/
def stdNominal (b std : Nat) : Option Nat :=
  if b < 8 then [some 1200, some 1500, some 1800, some 2500, some 3300, some 3300].getD std none
  else [some 1000, some 1200, some 1500, some 1800, none, none, some 1200, some 1350, some 1500, some 1500,
    some 1800].getD std none

/-- VCCO lies within 5 % of the nominal of the bank's STD (Table 18.8). -/
def vccoInRange (b std mv : Nat) : Bool :=
  match stdNominal b std with
  | some n => 95 * n ≤ 100 * mv && 100 * mv ≤ 105 * n
  | none => false

/-- VCCO_OK follows VCCO and STD; a change sets the bank's interrupt source 0 (R420, R428). -/
def vccoUpdate (b mv : Nat) (s : State) : State :=
  let ok := vccoInRange b (rdf (P.IOB b) R.IOB_BANK_CFG 3 0 s) mv
  let t := s |> wrf (P.IOB b) R.IOB_BANK_STAT 31 16 mv |> wrf (P.IOB b) R.IOB_BANK_STAT 1 1 (b2n ok)
  if vccoOk b s == ok then t else irq (P.IOB b) 0 t

def vccoOf (b : Nat) (s : State) : Nat := rdf (P.IOB b) R.IOB_BANK_STAT 31 16 s

def execVccoChange (b : IobId) (mv : BitVec 16) (s : State) : Out :=
  .next (if s.dev.mode = .off then s else vccoUpdate b.val mv.toNat s)

/-- Cell c of bank b has an OE lane (Table 18.3). -/
def hasOeLane (b c : Nat) : Bool := 8 ≤ b || c % 24 < 8

/-- The Ethernet port whose MAC serves a cell, if one does now (R420). -/
def macServes (b c : Nat) (s : State) : Option Nat :=
  if 34 ≤ c ∧ c < 48 then
    if b = 0 ∧ bit 0 (rd (P.ETH 0) R.PAGE_CTL s) then some 0
    else if b = 4 ∧ bit 0 (rd (P.ETH 1) R.PAGE_CTL s) then some 1
    else none
  else none

/-- What a MAC drives on a cell: MDC and the transmit signals are outputs, the receive signals are inputs, MDIO
is either; the levels are the MAC's own (free values, apart from those of the pins of the board). -/
def macDrive (b c : Nat) (s : State) : Bool × Bool :=
  let w := Config.freeWord (s.free + 1200 + b)
  if 42 ≤ c then (false, false) else if c = 35 then (bit 30 w, bit 1 w) else (true, bit (c % 32) w)

/-! ## The I/O record (R420) -/

/-- A setting of an I/O record takes its place; a delay is in force at once. -/
def ioSetting (s : State) (e : Nat × Word) : State :=
  let p := e.1 / 1024
  let off := e.1 % 1024 * 4
  let v := e.2 &&& settingBits p off
  let cell (base : Nat) : Bool := base ≤ off && off < base + 4 * bankCells (p - P.IOB 0)
  if p < P.IOB 0 ∨ P.IOB 12 ≤ p then s
  else if off = R.IOB_BANK_CFG ∨ cell R.IOB_CFG = true then wr p off v s
  else if cell R.IOB_DLY then s |> wr p off v |> wr p (off + R.IOB_DLY_STAT - R.IOB_DLY) v
  else s

/-- The I/O record of the boot device image is loaded at LOAD. -/
def loadIoRecord (s : State) : State :=
  let t := (tget [] s.store.ioRec (if s.store.bootB then 1 else 0)).foldl ioSetting s
  (List.range 12).foldl (fun t b => vccoUpdate b (vccoOf b t) t) t

/-! ## Delays (R418) -/

/-- One tap toward the new value. -/
def oneTap (want have_ : Nat) : Nat := if have_ < want then have_ + 1 else if want < have_ then have_ - 1 else have_

/-- The delays of cell c of bank b move by one tap each. -/
def moveDelay (b c : Nat) (s : State) : State :=
  let w := rd (P.IOB b) (R.IOB_DLY + 4 * c) s
  let h := rd (P.IOB b) (R.IOB_DLY_STAT + 4 * c) s
  wr (P.IOB b) (R.IOB_DLY_STAT + 4 * c)
    (W (oneTap (fld 15 8 w) (fld 15 8 h) * 256 + oneTap (fld 7 0 w) (fld 7 0 h))) s

/-- The cells whose delays a register lists. -/
def delayKey (k : Nat) : Option (Nat × Nat) :=
  let p := k / 1024
  let off := k % 1024 * 4
  if p < P.IOB 0 ∨ P.IOB 12 ≤ p then none
  else if (R.IOB_DLY ≤ off ∧ off < R.IOB_DLY + 256) then some (p - P.IOB 0, (off - R.IOB_DLY) / 4)
  else if (R.IOB_DLY_STAT ≤ off ∧ off < R.IOB_DLY_STAT + 256) then some (p - P.IOB 0, (off - R.IOB_DLY_STAT) / 4)
  else none

def delayStep (s : State) (e : Nat × Nat) : State :=
  if s.pwr.hare || !islandStopped (67 + e.1) s then moveDelay e.1 e.2 s else s

/-- One IOB cycle: every delay in movement takes one tap. -/
def moveDelays (s : State) : State := ((s.regs.filterMap fun e => delayKey e.1).eraseDups).foldl delayStep s

/-- A write of DLYc: absent cells read zero (R420). The first tap is taken at once. -/
def dlyWrite (b c : Nat) (v : Word) (s : State) : State :=
  if bankCells b ≤ c then s
  else delayStep (wr (P.IOB b) (R.IOB_DLY + 4 * c) (v &&& W 0xFFFF) s) (b, c)

def execDlyWrite (rq : Requester) (b : IobId) (c : Fin 48) (v : Word) (s : State) : Out :=
  .next (onPage rq (P.IOB b.val) (R.IOB_DLY + 4 * c.val) (dlyWrite b.val c.val v) s)

end Sys2Proof.Machine
end

