-- ==== Sys2Proof/Machine/Owl.lean ====
section
/-! DEFINITION. The Owl probe ports (R408, R412). -/
namespace Sys2Proof.Machine

open Sys2Proof

def owlSel (n : Nat) (s : State) : Word := rd P.OWL (R.OWL_PORT_SEL + 8 * n) s
def owlPin (n : Nat) (s : State) : Word := rd P.OWL (R.OWL_PORT_PIN + 8 * n) s

/-- A port is enabled. -/
def owlOn (n : Nat) (s : State) : Bool := bit 0 (rd P.OWL R.PAGE_CTL s) && bit 31 (owlSel n s)

/-- Bank and cell of a pin, as one number. -/
def pinOf (w : Word) : Nat := fld 11 8 w * 64 + fld 5 0 w

/-- What an enabled port drives: the long line of its region, 0 while the region is off or retired. -/
def owlValue (n : Nat) (s : State) : Bool :=
  let r := fld 13 8 (owlSel n s)
  regionOn r s && tget false s.logic.lines (r * 64 + fld 5 0 (owlSel n s))

/-- The value that a probe drives on a user pin, if one does. -/
def owlDrive (b c : Nat) (s : State) : Option Bool :=
  ((List.range 4).find? fun n => owlOn n s && pinOf (owlPin n s) == b * 64 + c).map fun n => owlValue n s

/-- OWL.STAT.OVERRIDE: the ports whose pin a plane drives too. -/
def owlStat (s : State) : Word :=
  (List.range 4).foldl (fun w n =>
    setBit n (owlOn n s && (padDrive (fld 11 8 (owlPin n s)) (fld 5 0 (owlPin n s)) s).1) w) 0

/-- Another port that is enabled uses a pin. -/
def owlTaken (n : Nat) (pin : Word) (s : State) : Bool :=
  (List.range 4).any fun m => m != n && bit 31 (owlSel m s) && pinOf (owlPin m s) == pinOf pin

/-- A write of PORTn_SEL or PORTn_PIN. -/
def owlPortWrite (n : Nat) (pin : Bool) (v : Word) (s : State) : State :=
  let off := (if pin then R.OWL_PORT_PIN else R.OWL_PORT_SEL) + 8 * n
  if pin then
    if 12 ≤ fld 11 8 v || owlTaken n v s then permFault P.OWL off s else wr P.OWL off (v &&& W 0xF3F) s
  else if bit 31 v && owlTaken n (owlPin n s) s then permFault P.OWL off s
  else wr P.OWL off (v &&& W 0x80003F3F) s

def execOwlPortWrite (rq : Requester) (n : Fin 4) (pin : Bool) (v : Word) (s : State) : Out :=
  .next (onPage rq P.OWL ((if pin then R.OWL_PORT_PIN else R.OWL_PORT_SEL) + 8 * n.val)
    (owlPortWrite n.val pin v) s)

end Sys2Proof.Machine
end

