-- ==== Sys2Proof/Machine/Sched.lean ====
section
/-! DEFINITION. The task scheduler: contexts, engines, events, dispatch, completion, pre-emption, absence
and the Owl trace (R193–R227). A scheduler cycle ends with its dispatch stage. -/
namespace Sys2Proof.Machine

open Sys2Proof

/-! ## Contexts (Table 9.2) -/

def Ctx.blank : Ctx :=
  { w0 := 0, w1 := 0, w2 := 0, w3 := 0, w4 := 0, lastStatus := 0, saved := 0, slot := 0,
    cancelPending := false, again := false, againWord := 0, state := .disabled, evtWord := 0,
    dispatches := 0, overruns := 0, preempts := 0, lost := 0, misses := 0, dispatchTime := 0,
    completeTime := 0, deadline := 0, runHit := false, suspendHit := false, order := 0 }

def ctx (t : Nat) (s : State) : Ctx := tget Ctx.blank s.sched.ctx t
def setCtx (t : Nat) (x : Ctx) (s : State) : State :=
  setSched { s.sched with ctx := tput Ctx.blank t x s.sched.ctx } s
def mdCtx (t : Nat) (f : Ctx → Ctx) (s : State) : State := setCtx t (f (ctx t s)) s

def Ctx.prio (c : Ctx) : Nat := fld 5 0 c.w0
def Ctx.engine (c : Ctx) : Nat := fld 13 6 c.w0
def Ctx.preemptible (c : Ctx) : Bool := bit 14 c.w0
def Ctx.completeEvt (c : Ctx) : Bool := bit 15 c.w0
def Ctx.dlMode (c : Ctx) : Nat := fld 17 16 c.w0
def Ctx.resEn (c : Ctx) : Bool := bit 18 c.w0
def Ctx.saveSlot (c : Ctx) : Nat := fld 29 20 c.w0
def Ctx.argMode (c : Ctx) : Nat := fld 23 22 c.w1
def Ctx.argCount (c : Ctx) : Nat := fld 21 16 c.w1
def Ctx.argBase (c : Ctx) : Nat := fld 13 0 c.w1
def Ctx.resBase (c : Ctx) : Nat := fld 13 0 c.w2
/-- On an engine: RUNNING or SUSPENDING. -/
def Ctx.onEngine (c : Ctx) : Bool := c.state == .running || c.state == .suspending
/-- On the ready list: READY or PREEMPTED. -/
def Ctx.onList (c : Ctx) : Bool := c.state == .ready || c.state == .preempted

def TaskState.code : TaskState → Nat
  | .disabled => 0 | .idle => 1 | .ready => 2 | .running => 3 | .suspending => 4 | .preempted => 5
  | .blocked => 6

/-- A saturating 16-bit sum (R54). -/
def sat16 (v : BitVec 16) (n : Nat) : BitVec 16 := BitVec.ofNat 16 (min (v.toNat + n) 0xFFFF)

/-- The words of the context window (Table 9.2). -/
def ctxWord (t w : Nat) (s : State) : Word :=
  let c := ctx t s
  match w with
  | 0 => c.w0
  | 1 => c.w1
  | 2 => c.w2
  | 3 => c.w3
  | 4 => c.w4
  | 5 => W (c.lastStatus.toNat * 2 ^ 16 + c.saved * 2 ^ 8 + (if c.onEngine then c.slot else 0) * 2 ^ 6 +
      b2n c.cancelPending * 2 ^ 5 + b2n c.again * 2 ^ 4 + TaskState.code c.state)
  | 6 => c.evtWord
  | 7 => c.dispatches
  | 8 => c.overruns ++ c.preempts
  | 9 => c.lost ++ c.misses
  | 10 => c.dispatchTime
  | 11 => c.completeTime
  | 12 => lo32 c.deadline
  | 13 => hi32 c.deadline
  | _ => 0

/-- The tasks with a listed context, with it. -/
def tasks (p : Ctx → Bool) (s : State) : List (Nat × Ctx) := s.sched.ctx.filter fun e => p e.2

/-- Argument memory and save slots. -/
def argWord (n : Nat) (s : State) : TWord := tget zeroWord s.sched.args n
def setArg (n : Nat) (w : TWord) (s : State) : State :=
  setSched { s.sched with args := tput zeroWord n w s.sched.args } s
def setArgs (base : Nat) (ws : List TWord) (s : State) : State :=
  (ws.foldl (fun (a : Nat × State) w => (a.1 + 1, setArg a.1 w a.2)) (base, s)).2
def saveWord (n : Nat) (s : State) : TWord := tget zeroWord s.sched.saves n
def dropSaved (slot : Nat) (s : State) : State :=
  setSched { s.sched with saves := tclear (slot * 64) (slot * 64 + 64) s.sched.saves } s
def putSaved (slot : Nat) (ws : List TWord) (s : State) : State :=
  (ws.foldl (fun (a : Nat × State) w =>
    (a.1 + 1, setSched { a.2.sched with saves := tput zeroWord a.1 w a.2.sched.saves } a.2))
    (slot * 64, dropSaved slot s)).2

/-- The scheduler runs in RUN, with its island clock running (R207, R289). -/
def schedRuns (s : State) : Bool := s.dev.mode == .run && (s.pwr.hare || !islandStopped 65 s)

/-! ## The Owl trace (R222, R223) -/

/-- Word 1 of an entry (R222). -/
def traceInfo (kind task detail : Nat) (s : State) : Word :=
  let c := ctx task s
  W (kind * 2 ^ 28 + task * 2 ^ 16 + c.engine * 2 ^ 8 + c.prio * 4 + detail)

/-- An entry enters the trace. -/
def record (time info : Word) (s : State) : State :=
  let ctl := rd P.SCH3 R.SCH3_TRACE_CTL s
  if !bit 0 ctl || !bit (16 + fld 31 28 info) ctl then s
  else
    let wp := rd P.SCH3 R.SCH3_TRACE_WPTR s
    let n := fld 12 0 wp
    let spill := bit 1 ctl
    let full := if spill then s.sched.unspilled == 8192 else bit 31 wp
    if full && bit 2 ctl then
      s |> wr P.SCH3 R.SCH3_TRACE_CTL (setBit 0 false ctl) |> irq P.SCH3 0
    else
      let t := if full && spill then
          s |> count P.SCH3 R.SCH3_SPILL_LOST |> irq P.SCH3 1 else s
      let left := if spill then min (t.sched.unspilled + 1) 8192 else t.sched.unspilled
      t |> setSched { t.sched with trace := tins n (time, info) t.sched.trace, unspilled := left }
        |> wr P.SCH3 R.SCH3_TRACE_WPTR (W ((n + 1) % 8192 + 2 ^ 31 * b2n (bit 31 wp || n == 8191)))
        |> count P.SCH3 R.SCH3_TRACE_TOTAL

def setCyc (x : SchedCycle) (s : State) : State := setSched { s.sched with cyc := x } s

/-- Ring time [31:0] at the start of the scheduler cycle in progress. -/
def cycleTime (s : State) : Word := s.sched.cyc.time.getD (ringLo s)

/-- An entry of a stage of the cycle. -/
def trace (kind task detail : Nat) (s : State) : State := record (cycleTime s) (traceInfo kind task detail s) s

/-- The entry at the front of the absence queue passes to the trace, one a cycle (R223). -/
def passAbsence (s : State) : State :=
  match s.sched.absTrace with
  | [] => s
  | (time, info) :: rest => record time info (setSched { s.sched with absTrace := rest } s)

/-- The trace writes a word of the spill bank as a rank 3 request of its own (Table 8.2); engine e is one of two that it
uses for the words of an entry. -/
def spillWord (e b w : Nat) (v : TWord) (s : State) : State :=
  enterReq ⟨.fabric, some e, w, .write v, false, 0⟩ b (setBanks { s.banks with engines := tins e none s.banks.engines } s)

/-- The words of the entry last spilled are still to be written. -/
def spillPending (s : State) : Bool :=
  tfind s.banks.engines 12 = some none || tfind s.banks.engines 13 = some none

/-- The oldest entry not yet spilled is copied to the spill range, in order (R223). -/
def spillOne (s : State) : State :=
  let ctl := rd P.SCH3 R.SCH3_TRACE_CTL s
  let range := rd P.SCH3 R.SCH3_SPILL_RANGE s
  let base := fld 12 0 range
  let len := fld 29 16 range
  if !bit 1 ctl || s.sched.unspilled == 0 || len == 0 || spillPending s then s
  else
    let next := rdf P.SCH3 R.SCH3_SPILL_WPTR 12 0 s
    let off := (next + 8192 - base) % 8192
    let off := if off < len then off else 0
    let idx := (rdf P.SCH3 R.SCH3_TRACE_WPTR 12 0 s + 8192 - s.sched.unspilled) % 8192
    let (w0, w1) := tget (0, 0) s.sched.trace idx
    let bank := rdf P.SCH3 R.SCH3_SPILL_BANK 9 0 s
    s |> setSched { s.sched with unspilled := s.sched.unspilled - 1 }
      |> spillWord 12 bank ((base + off) % 8192) (tw .sync w0)
      |> spillWord 13 bank ((base + off + 1) % 8192) (tw .data w1)
      |> wr P.SCH3 R.SCH3_SPILL_WPTR (W ((base + (off + 2) % len) % 8192))

def execTraceSpill (s : State) : Out := .next (if schedRuns s then spillOne s else s)

/-! ## Event queues (R203, R204) -/

def queue (q : Nat) (s : State) : List QEntry := tget [] s.sched.queues q
def setQueue (q : Nat) (l : List QEntry) (s : State) : State :=
  setSched { s.sched with queues := tput [] q l s.sched.queues } s
def queueFull (q : Nat) (s : State) : Bool := 64 ≤ (queue q s).length

/-- A source of queues 13–15 or 17 is held back: counted once per cycle (Table 9.11). -/
def queueStall (s : State) : State :=
  if s.sched.cyc.stalled then s
  else s |> count P.SCH2 R.SCH2_STALL_CYCLES |> (fun t => setCyc { t.sched.cyc with stalled := true } t)

/-- Append an entry; the peak fill follows (Table 9.11). -/
def pushEvent (q index : Nat) (word : Word) (coalesced : Nat) (s : State) : State :=
  let l := queue q s ++ [⟨index, word, coalesced⟩]
  s |> setQueue q l
    |> md P.SCH2 (R.SCH2_QSTAT + 4 * q) (fun w => setFld 15 8 (max (fld 15 8 w) l.length) w)

/-- A timer or I/O cell fires: its entry coalesces while one is queued (R204). -/
def coalesce (q index : Nat) (word : Word) (extra : Nat) (s : State) : State :=
  if (queue q s).any fun e => e.index == index then
    s |> setQueue q ((queue q s).map fun e =>
          if e.index == index then { e with coalesced := min 255 (e.coalesced + 1 + extra) } else e)
      |> count P.SCH2 R.SCH2_COALESCED |> irq P.SCH2 1
  else pushEvent q index word (min 255 extra) s

/-! ## Engines (R196, R197, R219) -/

/-- The map entry of an engine that the scheduler's decisions go by: one written in this cycle governs them from the
next cycle on (R197). -/
def schedEntry (e : Nat) (s : State) : Word := (tfind s.sched.cyc.oldMap e).getD (engineEntry e s)
def schedPort (e : Nat) (s : State) : Nat := fld 8 0 (schedEntry e s)

/-- A capacity slot of an engine is in use: by a task on the engine, or kept for a waiting event. -/
def slotUsed (e k : Nat) (s : State) : Bool :=
  (s.sched.ctx.any fun x => x.2.onEngine && x.2.engine == e && x.2.slot == k) ||
    s.sched.absentEvts.any fun a => a.engine == e && a.slot == k

/-- The lowest-numbered free capacity slot. -/
def freeSlot (e : Nat) (s : State) : Option Nat :=
  (List.range (fld 11 10 (schedEntry e s) + 1)).find? fun k => !slotUsed e k s

/-- The code with which an engine is absent: RETIRED or ABSENT_TARGET. -/
def engineAbsence (e : Nat) (s : State) : Option Nat :=
  let p := schedPort e s
  if !bit 31 (schedEntry e s) then some E.ABSENT_TARGET
  else if portAbsent p s then some E.RETIRED
  else match (rgn (p / 8) s).power with
    | .on => none
    | .retired => some E.RETIRED
    | _ => some E.ABSENT_TARGET

def engineHeld (e : Nat) (s : State) : Bool :=
  bit 31 (schedEntry e s) && s.sched.heldRegions.contains (schedPort e s / 8)

def engineSuspending (e : Nat) (s : State) : Bool :=
  s.sched.ctx.any fun x => x.2.state == .suspending && x.2.engine == e

/-- ENGINE_STAT (Table 9.9). -/
def engineStat (e : Nat) (s : State) : Word :=
  W (b2n (engineAbsence e s).isSome * 2 ^ 5 + b2n (engineHeld e s) * 2 ^ 4 +
    b2n (engineSuspending e s) * 2 ^ 3 + ((List.range 4).filter fun k => slotUsed e k s).length)

/-! ## Ready and cancel (R199–R202, R213) -/

/-- The active deadline of an activation (R213). -/
def activeDeadline (c : Ctx) (s : State) : BitVec 64 :=
  match c.dlMode with
  | 1 => join64 c.w3 c.w4
  | 2 => s.time.ringTime + c.w3.setWidth 64
  | _ => BitVec.allOnes 64

/-- A ready of task t (R200): src 0 event, 1 command, 2 AGAIN at completion; `extra` is the coalesced count
it carries. -/
def readyTask (t : Nat) (word : Word) (extra src : Nat) (s : State) : State :=
  let c := ctx t s
  if s.sched.cyc.cancelled = some t then
    s |> setCtx t { c with lost := sat16 c.lost 1 }
      |> count P.SCH0 R.SCH0_LOST_READIES |> trace 0x6 t 0 |> irq P.SCH0 1
  else
    let counted := sat16 c.overruns extra
    let over1 := sat16 c.overruns (extra + 1)
    match c.state with
    | .disabled => count P.SCH0 R.SCH0_DISABLED_READIES s
    | .idle =>
      s |> setCtx t { c with state := .ready, evtWord := word, overruns := counted,
                             deadline := activeDeadline c s }
        |> trace 0x0 t src
    | .blocked =>
      s |> setCtx t { c with state := .ready, evtWord := word, overruns := counted,
                             deadline := activeDeadline c s }
        |> trace 0x0 t src
    | .ready => s |> setCtx t { c with overruns := over1 } |> trace 0x0 t 3
    | .preempted => s |> setCtx t { c with overruns := over1 } |> trace 0x0 t 3
    | .running =>
      if c.again then s |> setCtx t { c with overruns := over1 } |> trace 0x0 t 3
      else s |> setCtx t { c with again := true, againWord := word, overruns := counted } |> trace 0x0 t src
    | .suspending =>
      if c.again then s |> setCtx t { c with overruns := over1 } |> trace 0x0 t 3
      else s |> setCtx t { c with again := true, againWord := word, overruns := counted } |> trace 0x0 t src

/-- The effect of a cancel on the task, and its trace detail (R201). -/
def cancelEffect (t : Nat) (s : State) : Nat × State :=
  let c := ctx t s
  match c.state with
  | .ready => (0, setCtx t { c with state := .idle, again := false } s)
  | .preempted => (0, dropSaved c.saveSlot (setCtx t { c with state := .idle, saved := 0, again := false } s))
  | .blocked => (0, setCtx t { c with state := .idle, saved := 0, again := false } s)
  | .running => (1, setCtx t { c with cancelPending := true } s)
  | .suspending => (1, setCtx t { c with cancelPending := true } s)
  | _ => (3, s)

def markCancelled (t : Nat) (s : State) : State := setCyc { s.sched.cyc with cancelled := some t } s

def cancelTask (t : Nat) (s : State) : State :=
  let (d, u) := cancelEffect t s
  u |> markCancelled t |> trace 0x4 t d

/-- ABANDON (R202): frees the slot of a task on an engine at once; else as CANCEL. -/
def abandonTask (t : Nat) (s : State) : State :=
  let c := ctx t s
  let u := if c.onEngine then
      setCtx t { c with state := .idle, lastStatus := BitVec.ofNat 8 E.ABSENT_TARGET,
                        cancelPending := false, again := false } s
    else (cancelEffect t s).2
  u |> markCancelled t |> trace 0x4 t 2

def disableTask (t : Nat) (s : State) : State := mdCtx t (fun c => { c with state := .disabled }) (abandonTask t s)

def enableTask (t : Nat) (s : State) : State :=
  if (ctx t s).state = .disabled then mdCtx t (fun c => { c with state := .idle }) s else s

/-! ## The event walker (R206) -/

/-- The bindings that match an entry, in ascending number. -/
def matching (q index : Nat) (s : State) : List Word :=
  (s.sched.binds.map (·.2)).filter fun w => bit 31 w && fld 29 25 w == q && fld 23 12 w == index

/-- The walk in progress, or a new one on the next non-empty queue in turn. -/
def nextWalk (s : State) : Option (Walk × State) :=
  match s.sched.walk with
  | some w => some (w, s)
  | none =>
    let turn := (List.range 18).map fun i => (s.sched.lastQueue + 1 + i) % 18
    match turn.find? fun q => !(queue q s).isEmpty with
    | none => none
    | some q =>
      match queue q s with
      | [] => none
      | e :: rest =>
        let t := setQueue q rest s
        some (⟨q, e, matching q e.index s⟩, setSched { t.sched with lastQueue := q } t)

/-! ## Event sources -/

/-- A timer that is due fires (R207). -/
def timerDue (n : Nat) (s : State) : State :=
  let ctlOff := R.SCH2_TM_TCTL + 16 * n
  let atOff := R.SCH2_TM_AT_LO + 16 * n
  let at_ := rd64 P.SCH2 atOff s
  let period := (rd P.SCH2 (R.SCH2_TM_PERIOD + 16 * n) s).toNat
  let now := s.time.ringTime.toNat
  if !schedRuns s || !bit 0 (rd P.SCH2 ctlOff s) || now < at_.toNat then s
  else
    let t := countF P.SCH2 ctlOff 31 16 s
    if period = 0 then coalesce 0 n (lo32 at_) 0 (md P.SCH2 ctlOff (setBit 0 false) t)
    else
      let k := (now - at_.toNat) / period + 1
      t |> wr64 P.SCH2 atOff (at_ + BitVec.ofNat 64 (k * period)) |> coalesce 0 n (lo32 at_) (k - 1)

def execTimerFire (n : Fin 64) (s : State) : Out := .next (timerDue n.val s)

/-- An edge at an I/O cell, but the second of an LVDS pair (R419, Table 18.4): counted, stamped, and in RUN posted to queue 1 + bank. -/
def ioEdge (b c : Nat) (rising : Bool) (stamp : BitVec 64) (s : State) : State :=
  let pg := P.IOB b
  let sel := fld 1 0 (rd pg (R.IOB_CFG + 4 * c) s)
  let chosen := (rising && sel % 2 == 1) || (!rising && 2 ≤ sel)
  let asleep := match s.dev.mode with
    | .off => true | .doze => true | .sleep => true | .bear => true | .scan => true
    | _ => false
  if asleep || bankCells b ≤ c || !chosen || pairedCell b c s || !bit 1 (rd pg R.IOB_BANK_STAT s) then s
  else
    let t := s |> count pg R.IOB_EVENTS |> wr pg (R.IOB_TS + 4 * c) (lo32 stamp)
    if s.dev.mode = .run then coalesce (1 + b) c (lo32 stamp) 0 t else t

def execIoEdgeEvent (b : IobId) (c : Fin 48) (rising : Bool) (stamp : BitVec 64) (s : State) : Out :=
  .next (ioEdge b.val c.val rising stamp s)

/-- A doorbell (R205). -/
def doorbellWrite (rq : Requester) (n : Nat) (v : Word) (s : State) : State :=
  onPage rq P.SCH0 (R.SCH0_DOORBELL + 4 * n) (fun s =>
    if rq ≠ .host then permFault P.SCH0 (R.SCH0_DOORBELL + 4 * n) s
    else if queueFull 16 s then s |> count P.SCH0 R.SCH0_DOORBELL_DROPS |> irq P.SCH0 5
    else pushEvent 16 n v 0 s) s

def execDoorbell (rq : Requester) (n : Fin 64) (v : Word) (s : State) : Out :=
  .next (doorbellWrite rq n.val v s)

/-! ## Service 0x00 (R208) -/

def addrWord (m : Msg) : Nat := fld 29 0 ((m.payload.headD nullWord).data)

/-- A REMOTE_RD or REMOTE_WR at the scheduler. -/
def schRemote (m : Msg) (s : State) : State :=
  let a := addrWord m
  let body := m.payload.tail
  let n := body.length
  let refuse := svcReply 0 m [] E.PERM_FAULT s
  if let some code := wordsFail (if m.cls = 0x20 ∨ 0x10000 ≤ a then m.payload else m.payload.take 1) then svcReply 0 m [] code s
  else if a % 4 ≠ 0 ∨ m.payload = [] then refuse
  else if m.cls = 0x20 then
    let cnt := fld 8 0 (body.headD nullWord).data
    if cnt = 0 ∨ 256 < cnt ∨ n ≠ 1 ∨ 16384 < a / 4 + cnt then refuse
    else svcReply 0 m ((List.range cnt).map fun k => argWord (a / 4 + k) s) 0 s
  else if n = 0 ∨ 256 < n then refuse
  else if a < 0x10000 then
    if 16384 < a / 4 + n then refuse else svcReply 0 m [] 0 (setArgs (a / 4) body s)
  else if a < 0x10100 then
    if 64 < (a - 0x10000) / 4 + n then refuse else svcReply 0 m [] 0 s
  else refuse

/-- Posts enter their queue word by word as they are consumed, up to the trailer, as far as the queue has room (R203,
R208); `fuel` bounds the words. A word that is no data enters nothing, and neither does one that LENGTH does not have. -/
def postLoop (fuel : Nat) (s : State) : State :=
  match fuel with
  | 0 => s
  | fuel + 1 =>
    let x := chan (.svcDown 0) s
    match postOpen x.gathered, x.buffer with
    | some (q, i, due), w :: _ =>
      let posts := due && w.tag != .last && w.tag != .head && (wordsFail [w]).isNone
      if posts && queueFull q s then queueStall s
      else
        let t := takeOne (.svcDown 0) w s
        postLoop fuel (if posts then pushEvent q i w.data 0 t else t)
    | _, _ => s

/-- Service 0x00 goes on with the message at its front: posts as far as they go, any other request whole. -/
def schService (s : State) : State :=
  if !schedRuns s then s
  else
    let s := takeMsg (.svcDown 0) (postLoop 16 s)
    match sinkMsg (.svcDown 0) s with
    | none => s
    | some m =>
      if m.cls = 0x02 ∨ m.cls = 0x05 then s
      else
        let t := dropMsg (.svcDown 0) s
        match receiverCheck 0 requestClass m t with
        | some u => u
        | none => schRemote m t

def execSchServiceAccess (s : State) : Out := .next (schService s)

/-! ## Completion (R212, R215) -/

def strayMsg (s : State) : State := s |> count P.SCH0 R.SCH0_STRAY_MSGS |> irq P.SCH0 4

/-- The checks of R212 that a COMPLETE and a SUSPEND reply share; a COMPLETE has at most 16 words by its LENGTH, a SUSPEND
reply carries at most 64 (R215). -/
def stray (m : Msg) (s : State) : Bool :=
  let c := ctx m.task s
  !c.onEngine || (if m.cls = 0x02 then 16 < m.len else 64 < m.payload.length) ||
    (match originPort m.route with
     | some p => p / 8 != schedPort c.engine s / 8
     | none => true)

/-- Code of the first FAULT word of a payload. -/
def payloadFault (m : Msg) : Option Nat :=
  (m.payload.find? fun w => w.tag == .fault).map fun w => fld 31 24 w.data

/-- The completion event of a task waits for room in queue 13 (R203). -/
def eventBlocked (c : Ctx) (s : State) : Bool := c.completeEvt && !c.cancelPending && queueFull 13 s

def postCompletion (t : Nat) (c : Ctx) (code : Nat) (s : State) : State :=
  if c.completeEvt && !c.cancelPending then pushEvent 13 t (W (code * 2 ^ 24)) 0 s else s

/-! ## The stages of a cycle (R198)

The commands that feed the stages come in the order of the stages. One whose stage has run, or has passed, in the cycle
in progress acts in the next one, which it begins: the cycle in progress ends first, with its dispatch stage. -/

/-- The cycle runs stage k; `walker` where it is the event walker that feeds it. A cycle begins with its first stage. -/
def openStage (k : Nat) (walker : Bool) (s : State) : State :=
  let x := s.sched.cyc
  setCyc { x with stage := max x.stage k, walker := x.walker || walker, time := some (cycleTime s) } s

/-- The stage in which a command of SCH0.CMD acts (R202). -/
def cmdStage (op : Nat) : Nat := if op = 1 then 3 else 1

/-- The effect of a command of SCH0.CMD (R202). -/
def runCommand (op t : Nat) (s : State) : State :=
  match op with
  | 1 => readyTask t 0 0 1 s
  | 2 => cancelTask t s
  | 3 => abandonTask t s
  | 4 => disableTask t s
  | _ => enableTask t s

/-- The command that awaits its stage acts in the cycle in progress if its stage is still to come; CMD_STAT then names it
with CODE NONE (R202). -/
def startCommand (s : State) : State :=
  match s.sched.cmd with
  | none => s
  | some (op, t) =>
    if !schedRuns s || cmdStage op ≤ s.sched.cyc.stage then s
    else
      setSched { s.sched with cmd := none } s |> wrf P.SCH0 R.SCH0_CMD_STAT 31 24 0
        |> openStage (cmdStage op) false |> runCommand op t

/-- Apply a COMPLETE that is not stray (R212, R213). -/
def applyComplete (m : Msg) (s : State) : State :=
  let t := m.task
  let c := ctx t s
  let fault := payloadFault m
  let failed := m.status ≠ 0 ∨ fault.isSome
  let code := if m.status ≠ 0 then m.status else fault.getD 0
  let late := c.deadline.toNat < s.time.ringTime.toNat
  let s1 := if c.resEn && !failed && !c.cancelPending then setArgs c.resBase m.payload s else s
  let s2 := s1 |> setCtx t { c with state := .idle, lastStatus := BitVec.ofNat 8 code, slot := 0,
                                    completeTime := ringLo s, cancelPending := false, again := false,
                                    misses := if late then sat16 c.misses 1 else c.misses }
               |> count P.SCH0 R.SCH0_COMPLETES
               |> trace 0x5 t (if c.cancelPending then 2 else if failed then 1 else 0)
  let s3 := if late then
      s2 |> count P.SCH0 R.SCH0_DEADLINE_MISSES |> trace 0x8 t 0 |> irq P.SCH0 2 else s2
  let s4 := if c.again && !c.cancelPending then readyTask t c.againWord 0 2 (openStage 3 false s3) else s3
  postCompletion t c code s4

/-- Apply a SUSPEND reply that is not stray (R215). -/
def applySuspend (m : Msg) (s : State) : State :=
  let t := m.task
  let c := ctx t s
  let fault := payloadFault m
  if m.status = 0 ∧ fault = none then
    if c.cancelPending then
      s |> setCtx t { c with state := .idle, slot := 0, cancelPending := false, again := false }
        |> trace 0x5 t 2
    else
      s |> putSaved c.saveSlot m.payload
        |> setCtx t { c with state := .preempted, slot := 0, saved := m.payload.length }
  else
    let code := if m.status ≠ 0 then m.status else fault.getD 0
    s |> setCtx t { c with state := .idle, slot := 0, lastStatus := BitVec.ofNat 8 code,
                           cancelPending := false, again := false }
      |> trace 0x5 t (if c.cancelPending then 2 else 3)
      |> postCompletion t c code

/-! ## Dispatch (R209–R211, R214) -/

/-- A block word, replaced by FAULT where its parity fails (R209). -/
def argOut (n : Nat) (s : State) : TWord :=
  if parGood (argWord n s) then argWord n s else faultWord E.PARITY n

/-- The arguments of a dispatch. -/
def dispatchArgs (c : Ctx) (s : State) : List TWord :=
  let block := (List.range c.argCount).map fun k => argOut (c.argBase + k) s
  match c.argMode with
  | 0 => []
  | 1 => block
  | 2 => [tw .data c.evtWord]
  | _ => tw .data c.evtWord :: block

/-- PARITY is recorded in SCH1 for each block word that fails. -/
def argErrors (c : Ctx) (s : State) : State :=
  if c.argMode % 2 = 0 then s
  else ((List.range c.argCount).filter fun k => !parGood (argWord (c.argBase + k) s)).foldl
    (fun t k => err P.SCH1 E.PARITY (c.argBase + k) 0 t) s

/-- Dispatch a READY task or resume a PREEMPTED one in a free slot (Table 9.6). -/
def launchTask (t k : Nat) (s : State) : State :=
  let c := ctx t s
  let resume := c.state == .preempted
  let n := s.sched.seq + 1
  let msg := if resume then
      message 0x06 t (W c.engine) ((List.range c.saved).map fun i => saveWord (c.saveSlot * 64 + i) s) 0
    else message 0x01 t (W c.engine) (dispatchArgs c s) 0
  let s1 := if resume then dropSaved c.saveSlot s else argErrors c s
  s1 |> setCtx t { c with state := .running, slot := k, saved := 0, dispatches := satAdd c.dispatches 1,
                          dispatchTime := ringLo s, order := n,
                          runHit := if resume then c.runHit else false }
     |> (fun u => setSched { u.sched with seq := n, rrLast := tins c.prio t u.sched.rrLast } u)
     |> count P.SCH0 R.SCH0_DISPATCHES
     |> trace (if resume then 0x3 else 0x1) t k
     |> send (.svcUp 0) msg

/-- Launch a SUSPEND to a task (Table 9.6). -/
def suspendTask (v : Nat) (s : State) : State :=
  let c := ctx v s
  s |> setCtx v { c with state := .suspending, preempts := sat16 c.preempts 1, suspendHit := false }
    |> count P.SCH0 R.SCH0_PREEMPTS
    |> trace 0x2 v c.slot
    |> send (.svcUp 0) (message 0x05 v (W c.engine) [] 0)

/-- R214 but for the priority: the engine implements the protocol and suspends no task; the task runs, may
be suspended, and its save slot is free. -/
def couldSuspend (v : Nat) (c : Ctx) (s : State) : Bool :=
  bit 12 (schedEntry c.engine s) && !engineSuspending c.engine s && c.state == .running && c.preemptible &&
    !(s.sched.ctx.any fun x => x.1 != v && (x.2.state == .preempted || x.2.state == .suspending) &&
        x.2.saveSlot == c.saveSlot)

/-- The victim of a task (R214): lowest priority, then dispatched most recently. -/
def victim (e prio : Nat) (s : State) : Option Nat :=
  let l := s.sched.ctx.filter fun x => x.2.engine == e && prio < x.2.prio && couldSuspend x.1 x.2 s
  (l.foldl (fun (a : Option (Nat × Ctx)) x =>
    match a with
    | none => some x
    | some y => if y.2.prio < x.2.prio || (y.2.prio == x.2.prio && y.2.order < x.2.order) then some x else a)
    none).map (·.1)

/-- A task chosen for an absent engine (R219). -/
def blockTask (t : Nat) (s : State) : State :=
  let c := ctx t s
  let s1 := if c.state = .preempted then dropSaved c.saveSlot s else s
  s1 |> setCtx t { c with state := .blocked, saved := 0, again := false }
     |> count P.SCH0 R.SCH0_BLOCKED |> trace 0x7 t 0 |> irq P.SCH0 0

/-- The place of a task in the order of R210. -/
def listKey (s : State) (x : Nat × Ctx) : Nat :=
  let last := tget 4095 s.sched.rrLast x.2.prio
  x.2.prio * 4096 + (x.1 + 4095 - last) % 4096

def insertKey (key : Nat × Ctx → Nat) (x : Nat × Ctx) (l : List (Nat × Ctx)) : List (Nat × Ctx) :=
  match l with
  | [] => [x]
  | y :: r => if key x ≤ key y then x :: y :: r else y :: insertKey key x r

/-- The ready list in the order in which R210 takes it. -/
def readyList (s : State) : List (Nat × Ctx) :=
  (tasks Ctx.onList s).foldl (fun l x => insertKey (listKey s) x l) []

/-- The decision of R210 over the ready list. -/
def decide_ (l : List (Nat × Ctx)) (s : State) : State :=
  match l with
  | [] => s
  | (t, c) :: rest =>
    let e := c.engine
    if engineHeld e s then decide_ rest s
    else if (engineAbsence e s).isSome then blockTask t s
    else match freeSlot e s with
      | some k => launchTask t k s
      | none =>
        match victim e c.prio s with
        | some v => suspendTask v s
        | none => decide_ rest s

/-- The task to which a drain SUSPEND of region r goes next (R218). -/
def drainVictim (r : Nat) (s : State) : Option Nat :=
  if !s.sched.heldRegions.contains r then none
  else ((s.sched.ctx.filter fun x => schedPort x.2.engine s / 8 == r && couldSuspend x.1 x.2 s).head?).map (·.1)

/-- The dispatch output is idle, or launches the last word of its message. -/
def outputIdle (s : State) : Bool := (chan (.svcUp 0) s).sendq.length ≤ 1

/-- The message at service 0x00 is a reply of the given class that cannot end its task's work yet: its completion event
waits for room in queue 13 (R203). -/
def completeHeld (m : Msg) (s : State) : Bool :=
  let ends : Bool := m.cls = 0x02 ∨ m.status ≠ 0 ∨ (payloadFault m).isSome
  m.status != E.UNTERMINATED && !(m.status == 0 && m.payload.length != m.len) && !stray m s && ends &&
    eventBlocked (ctx m.task s) s

/-- A source of queues 13 to 15 or 17 is held back in this state (Table 9.11). -/
def heldBack (s : State) : Bool :=
  (!s.sched.absentEvts.isEmpty && queueFull 13 s) ||
    (match sinkMsg (.svcDown 0) s with
     | some m => (m.cls == 0x02 || m.cls == 0x05) && completeHeld m s
     | none => false) ||
    (match postOpen (chan (.svcDown 0) s).gathered, (chan (.svcDown 0) s).buffer with
     | some (q, _, due), w :: _ => due && w.tag != .last && w.tag != .head && queueFull q s
     | _, _ => false) ||
    (s.dma.chans.any fun e => e.2.waitEvt.isSome) && queueFull 17 s

/-- The cycle ends: an entry of the absence queue passes to the trace, and a command that waited for its stage acts in the
next cycle (R198, R202, R223). -/
def closeCycle (s : State) : State :=
  let s := passAbsence (if heldBack s then queueStall s else s)
  startCommand (setCyc SchedCycle.blank s)

/-- The dispatch stage: a drain SUSPEND that is waiting, else the decision of R210, in a cycle in which the output is
free. -/
def dispatchStage (s : State) : State :=
  if !outputIdle s then s
  else match s.sched.heldRegions.findSome? fun r => drainVictim r s with
    | some v => suspendTask v s
    | none => if takesWork P.SCH0 s then decide_ (readyList s) s else s

/-- The cycle in progress ends with its dispatch stage. -/
def endCycle (s : State) : State := closeCycle (dispatchStage s)

/-- Stage k has run or passed in the cycle in progress, or the walker has acted in it. -/
def stageTaken (k : Nat) (walker : Bool) (s : State) : Bool :=
  (k != 0 && k ≤ s.sched.cyc.stage) || (walker && s.sched.cyc.walker)

/-- Go on to stage k: of the cycle in progress, or of the next one where that stage is taken, or of the one after it where
a waiting command has taken it there too. -/
def enterStage (k : Nat) (walker : Bool) (s : State) : State :=
  let s := startCommand s
  let s := if stageTaken k walker s then endCycle s else s
  let s := if stageTaken k walker s then endCycle s else s
  openStage k walker s

/-- A cycle in progress runs to its end. -/
def finishCycle (s : State) : State := if schedRuns s && s.sched.cyc.time.isSome then endCycle s else s

def execDispatchDecision (s : State) : Out := .next (if schedRuns s then endCycle (startCommand s) else s)

/-! ## Commands of SCH0.CMD (R202) -/

/-- A refused command (R202). -/
def schCmdRefused (s : State) : State :=
  s |> wrf P.SCH0 R.SCH0_CMD_STAT 31 24 E.PERM_FAULT |> permFault P.SCH0 R.SCH0_CMD

/-- A write of SCH0.CMD: refused while BUSY = 1; else the command acts in the cycle in progress if its stage is free, and
waits otherwise (R198, R202). -/
def schCmdPut (op t : Nat) (s : State) : State :=
  if s.sched.cmd.isSome then schCmdRefused s
  else s |> wr P.SCH0 R.SCH0_CMD_STAT (W (op * 2 ^ 12 + t)) |> (fun u => setSched { u.sched with cmd := some (op, t) } u)
         |> startCommand

def schCmd (rq : Requester) (op t : Nat) (s : State) : State := onPage rq P.SCH0 R.SCH0_CMD (schCmdPut op t) s

def execSchCmdReady (rq : Requester) (t : TaskId) (s : State) : Out := .next (schCmd rq 1 t.val s)
def execSchCmdCancel (rq : Requester) (t : TaskId) (s : State) : Out := .next (schCmd rq 2 t.val s)
def execAbandon (rq : Requester) (t : TaskId) (s : State) : Out := .next (schCmd rq 3 t.val s)
def execDisable (rq : Requester) (t : TaskId) (s : State) : Out := .next (schCmd rq 4 t.val s)
def execEnable (rq : Requester) (t : TaskId) (s : State) : Out := .next (schCmd rq 5 t.val s)

/-! ## The event walker's bindings (R198, R206) -/

/-- The walker's next binding has the given action. -/
def walkerHas (cancel : Bool) (s : State) : Bool :=
  match nextWalk s with
  | some (w, _) => (w.todo.head?.map fun b => bit 30 b) == some cancel
  | none => false

/-- The walker applies its next binding. -/
def walkerBind (s : State) : State :=
  match nextWalk s with
  | none => s
  | some (w, t) =>
    match w.todo with
    | [] => s
    | b :: rest =>
      let left : Option Walk := if rest.isEmpty then none else some { w with todo := rest }
      let t := setSched { t.sched with walk := left } t
      if bit 30 b then cancelTask (fld 11 0 b) t
      else readyTask (fld 11 0 b) w.entry.word w.entry.coalesced 0 t

/-- The walker applies its next binding if it has the given action: one binding a cycle. -/
def walkerApply (cancel : Bool) (s : State) : State :=
  if !schedRuns s || !walkerHas cancel s then s else walkerBind (enterStage (if cancel then 1 else 3) true s)

/-- The entry that the walker has next matches no binding. -/
def walkerNone (s : State) : Bool :=
  match nextWalk s with
  | some (w, _) => w.todo.isEmpty
  | none => false

/-- An entry that no binding matches takes a cycle of the walker: it is discarded and counted. -/
def walkerUnbound (s : State) : State :=
  if !schedRuns s || !walkerNone s then s
  else
    let s := enterStage 0 true s
    match nextWalk s with
    | none => s
    | some (_, t) =>
      t |> setSched { t.sched with walk := none } |> count P.SCH2 R.SCH2_UNBOUND_EVENTS |> irq P.SCH2 0

def execWalkerReady (s : State) : Out := .next (walkerApply false s)
def execWalkerCancel (s : State) : Out := .next (walkerApply true s)
def execUnboundEvent (s : State) : Out := .next (walkerUnbound s)

/-! ## The complete stage -/

/-- The complete stage takes a message of the given class; its STATUS is read first (R38, R45). -/
def completeStage (cls : Nat) (apply : Msg → State → State) (s : State) : State :=
  if !schedRuns s then s
  else match sinkMsg (.svcDown 0) s with
    | none => s
    | some m =>
      if m.cls ≠ cls then s
      else
        let s := enterStage 2 false s
        let t := dropMsg (.svcDown 0) s
        if m.status = E.UNTERMINATED then (if cls = 0x02 then strayMsg t else t)
        else if m.status = 0 ∧ m.payload.length ≠ m.len then malformed m.route t
        else if stray m t then strayMsg t
        else if completeHeld m s then queueStall s
        else apply m t

def execComplete (s : State) : Out := .next (completeStage 0x02 applyComplete s)
def execSuspendReply (s : State) : Out := .next (completeStage 0x05 applySuspend s)

/-! ## Drain, absence, limits (R215, R218–R220) -/

/-- The Fox port's drain notice reaches the scheduler, which acknowledges it at the end of its cycle: the engines of
the region are held from then on. -/
def drainNotice (r : Nat) (s : State) : State :=
  let due := s.fox.drainAt.isSome && (match s.fox.armed with
    | some (m, _) => inMask m r
    | none => false)
  if !due || s.sched.heldRegions.contains r then s
  else
    let s := finishCycle s
    setSched { s.sched with heldRegions := s.sched.heldRegions ++ [r],
                            reported := s.sched.reported.filter (· != r) } s

def execSchedulerDrainNotice (r : RegionId) (s : State) : Out := .next (drainNotice r.val s)

/-- A drain SUSPEND takes the dispatch output, ahead of any decision of the cycle, which it ends (R210, R218). -/
def drainSuspend (r : Nat) (s : State) : State :=
  if !schedRuns s || !outputIdle s then s
  else match drainVictim r s with
    | some v => closeCycle (suspendTask v s)
    | none => s

def execDrainSuspend (r : RegionId) (s : State) : Out := .next (drainSuspend r.val s)

/-- No task of the region is RUNNING or SUSPENDING: the report goes to the Fox port and to the region. -/
def drainedReport (r : Nat) (s : State) : State :=
  let busy := s.sched.ctx.any fun x => x.2.onEngine && schedPort x.2.engine s / 8 == r
  if !s.sched.heldRegions.contains r || s.sched.reported.contains r || busy then s
  else s |> setSched { s.sched with reported := s.sched.reported ++ [r] }
         |> mdRgn r (fun x => { x with schReport := true })

def execSchedulerDrainedReport (r : RegionId) (s : State) : Out := .next (drainedReport r.val s)

/-- The hold of a region's engines ends: release, or abort of the swap. -/
def releaseHold (r : Nat) (s : State) : State :=
  setSched { s.sched with heldRegions := s.sched.heldRegions.filter (· != r),
                          reported := s.sched.reported.filter (· != r) } s

/-- A completion event enters the absence queue, in ascending task order (R219, R223). -/
def addAbsence (a : AbsentEvt) : List AbsentEvt → List AbsentEvt
  | [] => [a]
  | b :: r => if a.task < b.task then a :: b :: r else b :: addAbsence a r

/-- A trace entry of the absence queue takes its place in ascending task order (R223). -/
def addAbsTrace (a : Word × Word) : List (Word × Word) → List (Word × Word)
  | [] => [a]
  | b :: r => if fld 27 16 a.2 < fld 27 16 b.2 then a :: b :: r else b :: addAbsTrace a r

/-- The scheduler learns that an engine is absent: its running work is discarded (R219). -/
def engineGone (e : Nat) (s : State) : State :=
  match engineAbsence e s with
  | none => s
  | some code =>
    (tasks (fun c => c.onEngine && c.engine == e) s).foldl (fun u x =>
      let t := x.1
      let c := x.2
      let u := u |> setCtx t { c with state := .blocked, lastStatus := BitVec.ofNat 8 code, slot := 0,
                                      cancelPending := false, again := false }
                 |> count P.SCH0 R.SCH0_BLOCKED |> irq P.SCH0 0
      let u := setSched { u.sched with
        absTrace := addAbsTrace (cycleTime u, traceInfo 0x7 t 1 u) u.sched.absTrace } u
      if c.completeEvt && !c.cancelPending then
        if queueFull 13 u || u.sched.absentEvts ≠ [] then
          setSched { u.sched with absentEvts := addAbsence ⟨t, e, c.slot, code⟩ u.sched.absentEvts } u
        else pushEvent 13 t (W (code * 2 ^ 24)) 0 u
      else u) s

def execEngineAbsent (e : Fin 255) (s : State) : Out :=
  .next (if schedRuns s then engineGone e.val s else s)

/-- A completion event that waits is posted when queue 13 has room; its slot is free then. -/
def absencePost (s : State) : State :=
  match s.sched.absentEvts with
  | [] => s
  | a :: rest =>
    if queueFull 13 s then queueStall s
    else s |> setSched { s.sched with absentEvts := rest } |> pushEvent 13 a.task (W (a.code * 2 ^ 24)) 0

def execAbsenceEventPost (s : State) : Out := .next (if schedRuns s then absencePost s else s)

def runLimit (t : Nat) (s : State) : State :=
  let c := ctx t s
  if c.state ≠ .running ∨ c.runHit ∨ rd P.SCH0 R.SCH0_RUN_LIMIT s = 0 then s
  else s |> setCtx t { c with runHit := true } |> countF P.SCH0 R.SCH0_LIMIT_HITS 15 0 |> irq P.SCH0 3

def execRunLimitHit (t : TaskId) (s : State) : Out :=
  .next (if schedRuns s then runLimit t.val s else s)

def suspendLimit (t : Nat) (s : State) : State :=
  let c := ctx t s
  if c.state ≠ .suspending ∨ c.suspendHit ∨ rdf P.SCH0 R.SCH0_SUSPEND_LIMIT 23 0 s = 0 then s
  else s |> setCtx t { c with suspendHit := true } |> countF P.SCH0 R.SCH0_LIMIT_HITS 31 16 |> irq P.SCH0 3

def execSuspendLimitHit (t : TaskId) (s : State) : Out :=
  .next (if schedRuns s then suspendLimit t.val s else s)

/-! ## Register commands (R195, R197, R206, R208) -/

/-- A block of the context that would run past the end of argument memory, engine 255, or a reserved
DL_MODE (R53, R195). -/
def ctxRefused (c : Ctx) : Bool :=
  c.engine == 255 || 16384 < c.argBase + c.argCount || (c.resEn && 16384 < c.resBase + 16) || c.dlMode == 3

def ctxWrite (rq : Requester) (w : Nat) (v : Word) (s : State) : State :=
  let off := R.SCH1_CTX_W + 4 * w
  let t := rdf P.SCH1 R.SCH1_CTX_SEL 11 0 s
  let c := ctx t s
  let cfg (x : Ctx) : State :=
    if (c.state ≠ .disabled ∧ c.state ≠ .idle) ∨ ctxRefused x then permFault P.SCH1 off s else setCtx t x s
  match w with
  | 0 => cfg { c with w0 := v &&& W 0x3FF7FFFF }
  | 1 => cfg { c with w1 := v &&& W 0x00FF3FFF }
  | 2 => cfg { c with w2 := v &&& W 0x00003FFF }
  | 3 => (pairWrite rq P.SCH1 (R.SCH1_CTX_W + 12) false v (join64 c.w3 c.w4) s).1
  | 4 =>
    match pairWrite rq P.SCH1 (R.SCH1_CTX_W + 12) true v (join64 c.w3 c.w4) s with
    | (u, some x) => setCtx t { c with w3 := lo32 x, w4 := hi32 x } u
    | (u, none) => u
  | 7 => setCtx t { c with dispatches := v } s
  | 8 => setCtx t { c with overruns := (v >>> 16).setWidth 16, preempts := v.setWidth 16 } s
  | 9 => setCtx t { c with lost := (v >>> 16).setWidth 16, misses := v.setWidth 16 } s
  | _ => s

def execContextWrite (rq : Requester) (w : Fin 14) (v : Word) (s : State) : Out :=
  .next (onPage rq P.SCH1 (R.SCH1_CTX_W + 4 * w.val) (ctxWrite rq w.val v) s)

def engineWrite (e : Nat) (v : Word) (s : State) : State :=
  if e = 255 then s
  else if s.sched.ctx.any fun x => x.2.onEngine && x.2.engine == e then
    permFault P.SCH0 (R.SCH0_ENGINE + 4 * e) s
  else
    let cyc := s.sched.cyc
    let kept := if cyc.time.isNone || (tfind cyc.oldMap e).isSome then cyc.oldMap else tins e (engineEntry e s) cyc.oldMap
    setSched { s.sched with emap := tput 0 e (v &&& W 0x80001DFF) s.sched.emap, cyc := { cyc with oldMap := kept } } s

def execEngineMapWrite (rq : Requester) (e : Fin 256) (v : Word) (s : State) : Out :=
  .next (onPage rq P.SCH0 (R.SCH0_ENGINE + 4 * e.val) (engineWrite e.val v) s)

/-- A field used as an index increments after an access. -/
def bumpIndex (p off bits : Nat) (s : State) : State :=
  md p off (fun w => W ((w.toNat + 1) % 2 ^ bits)) s

def bindWord (n : Nat) (s : State) : Word := tget 0 s.sched.binds n

def bindAccess (rq : Requester) (wv : Option Word) (s : State) : State :=
  let n := rdf P.SCH2 R.SCH2_BIND_SEL 9 0 s
  let s1 := match wv with
    | none => deliverReg rq (bindWord n s) s
    | some v =>
      if 18 ≤ fld 29 25 v then permFault P.SCH2 R.SCH2_BIND_DATA s
      else setSched { s.sched with binds := tput 0 n (v &&& W 0xFEFFFFFF) s.sched.binds } s
  bumpIndex P.SCH2 R.SCH2_BIND_SEL 10 s1

def execBindDataAccess (rq : Requester) (wv : Option Word) (s : State) : Out :=
  .next (match wv with
    | some _ => onPage rq P.SCH2 R.SCH2_BIND_DATA (bindAccess rq wv) s
    | none => onPageRead rq P.SCH2 R.SCH2_BIND_DATA (bindAccess rq none) s)

def argAccess (rq : Requester) (wv : Option Word) (s : State) : State :=
  let n := rdf P.SCH1 R.SCH1_ARG_ADDR 13 0 s
  let s1 := match wv with
    | none => deliver rq (argWord n s) s
    | some v => setArg n (tw .data v) s
  bumpIndex P.SCH1 R.SCH1_ARG_ADDR 14 s1

def execArgDataAccess (rq : Requester) (wv : Option Word) (s : State) : Out :=
  .next (match wv with
    | some _ => onPage rq P.SCH1 R.SCH1_ARG_DATA (argAccess rq wv) s
    | none => onPageRead rq P.SCH1 R.SCH1_ARG_DATA (argAccess rq none) s)

def saveRead (rq : Requester) (s : State) : State :=
  s |> deliver rq (saveWord (rdf P.SCH1 R.SCH1_SAVE_ADDR 15 0 s) s) |> bumpIndex P.SCH1 R.SCH1_SAVE_ADDR 16

def execSaveDataRead (rq : Requester) (s : State) : Out :=
  .next (onPageRead rq P.SCH1 R.SCH1_SAVE_DATA (saveRead rq) s)

/-! ## Soft reset (R221) -/

/-- A context after a reset of the scheduler: configuration kept, status and counters cleared. -/
def Ctx.cleared (c : Ctx) : Ctx :=
  { Ctx.blank with w0 := c.w0, w1 := c.w1, w2 := c.w2, w3 := c.w3, w4 := c.w4,
                   state := if c.state = .disabled then .disabled else .idle }

/-- The message that the scheduler was launching is closed with ABSENT_TARGET (R56). -/
def closeOutput (k : Nat) (s : State) : State :=
  mdChan (.svcUp (svcId k)) (fun x => match x.sendq with
    | [] => x
    | w :: _ => { x with sendq := if w.tag = .head then [] else [trailer E.ABSENT_TARGET] }) s

/-- What every reset that clears the scheduler's status does. -/
def schedClear (s : State) : State :=
  setSched { s.sched with
    ctx := s.sched.ctx.filterMap (fun e =>
      let c := e.2.cleared
      if c = Ctx.blank then none else some (e.1, c)),
    queues := [], args := [], saves := [], walk := none, lastQueue := 17, rrLast := [], seq := 0,
    absentEvts := [], absTrace := [], cyc := SchedCycle.blank, cmd := none, trace := [], unspilled := 0 } s

/-- A soft reset during a drain counts as the drained report for every region of the set (R270). -/
def schedResetReports (s : State) : State :=
  match s.fox.armed with
  | none => s
  | some (m, _) =>
    if s.fox.drainAt.isNone || s.fox.gone then s
    else (maskList m).foldl (fun t r =>
      t |> mdRgn r (fun x => { x with schReport := true })
        |> setSched { t.sched with
             heldRegions := if t.sched.heldRegions.contains r then t.sched.heldRegions else t.sched.heldRegions ++ [r],
             reported := if t.sched.reported.contains r then t.sched.reported else t.sched.reported ++ [r] }) s

/-- Posts that service 0x00 is receiving end with a soft reset: the request is answered as closed (R56, R42). -/
def closePosts (s : State) : State :=
  match postOpen (chan (.svcDown 0) s).gathered, (chan (.svcDown 0) s).gathered with
  | some _, h :: rt :: _ =>
    s |> mdChan (.svcDown 0) (fun x => { x with gathered := [] }) |> takeMsg (.svcDown 0)
      |> svcReply 0 ⟨h.data, rt.data, [], 0⟩ [] E.ABSENT_TARGET
  | _, _ => s

/-- Soft reset of the whole scheduler; the timers keep their values. -/
def schedSoftReset (s : State) : State :=
  s |> closeOutput 0 |> closePosts |> schedClear |> schedResetReports
    |> clearStatus P.SCH0 (fun _ => false) |> clearStatus P.SCH1 (fun _ => false)
    |> clearStatus P.SCH2 (fun off => 0x400 ≤ off) |> clearStatus P.SCH3 (fun _ => false)

def execSchSoftReset (rq : Requester) (page : Fin 4) (s : State) : Out :=
  .next (onPage rq (P.SCH0 + page.val) R.PAGE_CTL schedSoftReset s)

end Sys2Proof.Machine
end

