-- ==== Sys2Proof/Machine/Dma.lean ====
section
/-! DEFINITION. DMA channels and translation, but for the moving of words: descriptors, queues, chains,
faults, page walks, translation caches, invalidation, the start of host-initiated accesses (R228–R248). -/
namespace Sys2Proof.Machine

open Sys2Proof

/-! ## Descriptors (Table 10.3) -/

def Desc.w (d : Desc) (n : Nat) : Word := d.words.getD n 0
def Desc.id (d : Desc) : Nat := fld 31 16 (d.w 0)
def Desc.dstFixed (d : Desc) : Bool := bit 9 (d.w 0)
def Desc.srcFixed (d : Desc) : Bool := bit 8 (d.w 0)
def Desc.tagMode (d : Desc) : Nat := fld 7 6 (d.w 0)
def Desc.fill (d : Desc) : Bool := bit 5 (d.w 0)
def Desc.evt (d : Desc) : Bool := bit 4 (d.w 0)
def Desc.chained (d : Desc) : Bool := bit 3 (d.w 0)
def Desc.prio (d : Desc) : Nat := fld 2 0 (d.w 0)
def Desc.count (d : Desc) : Nat := fld 21 0 (d.w 1)
def Desc.src (d : Desc) : Nat := (d.w 2).toNat + 2 ^ 32 * fld 7 0 (d.w 3)
def Desc.dst (d : Desc) : Nat := (d.w 4).toNat + 2 ^ 32 * fld 7 0 (d.w 5)
def Desc.next (d : Desc) : Nat := fld 22 0 (d.w 7)

/-- The checks of R238, with the side and address of a misaligned one. -/
def descBad (d : Desc) : Option (Bool × Nat) :=
  if bit 15 (d.w 0) || 2 ≤ d.tagMode || fld 31 22 (d.w 1) != 0 || (!d.fill && fld 31 8 (d.w 3) != 0) ||
      fld 31 8 (d.w 5) != 0 || fld 31 23 (d.w 7) != 0 || d.count == 0 then some (false, 0)
  else if !d.fill && d.src % 4 != 0 then some (false, d.src)
  else if d.dst % 4 != 0 then some (true, d.dst)
  else if d.chained && d.next % 8 != 0 then some (false, 0)
  else none

/-! ## Channels and movers -/

def DmaChan.idle : DmaChan := { queue := [], cur := none, halted := false, waitEvt := none, chain := none, chainGot := [], ended := false }
def dchan (c : Nat) (s : State) : DmaChan := tget DmaChan.idle s.dma.chans c
def setDchan (c : Nat) (x : DmaChan) (s : State) : State :=
  setDma { s.dma with chans := tput DmaChan.idle c x s.dma.chans } s
def mdDchan (c : Nat) (f : DmaChan → DmaChan) (s : State) : State := setDchan c (f (dchan c s)) s

def Mover.idle : Mover := { serving := none, last := 31, walk := none, own := [] }
/-- Movers 0 to 3; 4 is the host-initiated access, which only translates. -/
def mover (m : Nat) (s : State) : Mover := tget Mover.idle s.dma.movers m
def setMover (m : Nat) (x : Mover) (s : State) : State :=
  setDma { s.dma with movers := tput Mover.idle m x s.dma.movers } s
def mdMover (m : Nat) (f : Mover → Mover) (s : State) : State := setMover m (f (mover m s)) s

/-- The service island works on DMA in RUN. -/
def dmaRuns (s : State) : Bool := s.dev.mode == .run && (s.pwr.hare || !islandStopped 66 s)

/-- The mover that serves a channel. -/
def servedBy (c : Nat) (s : State) : Option Nat :=
  (List.range 4).find? fun m => (mover m s).serving == some c

/-- The numbers of the engines that ask for bank words: mover m or, as 4, the host-initiated access; the walker of
requester m; the memory agent; the reader of channel c's chains. -/
abbrev walkEngine (m : Nat) : Nat := 8 + m
abbrev agentEngine : Nat := 5
abbrev chainEngine (c : Nat) : Nat := 16 + c

/-- A mover has ended its block: its requests at banks go, and an invalidation no longer waits for it. -/
def blockEnded (m : Nat) (s : State) : State :=
  s |> mdMover m (fun x => { x with walk := none, own := [] })
    |> dropEngine m |> dropEngine (walkEngine m)
    |> (fun t => setDma { t.dma with invalWait := t.dma.invalWait.filter (· != m) } t)

/-- A channel's mover lets go of it. -/
def unserve (c : Nat) (s : State) : State :=
  match servedBy c s with
  | some m => blockEnded m (mdMover m (fun x => { x with serving := none }) s)
  | none => s

/-- An open word: data and tag are free values (R235, R242). -/
def freeTWord (s : State) : TWord := tw (tagOf (Config.freeWord (s.free + 1)).toNat) (freeVal s)

/-- A bank word becomes undefined. -/
def undefineWord (k : Nat) (s : State) : State :=
  let x := freeTWord s
  (writeBank (k / 8192) (k % 8192) x (drawn (drawn s))).2

/-- A register that a failed descriptor has written becomes undefined: its RW bits take a free value. -/
def undefineReg (p off : Nat) (s : State) : State :=
  let m := settingBits p off
  drawn (md p off (fun w => (w &&& ~~~m) ||| (freeVal s &&& m)) s)

/-- Post a completion event, or let it wait for room in queue 17 (R240, R242). -/
def dmaEvent (c : Nat) (w : Word) (s : State) : State :=
  if queueFull 17 s then queueStall (mdDchan c (fun x => { x with waitEvt := some w }) s)
  else pushEvent 17 c w 0 s

def lastCode (c code : Nat) (s : State) : State := wrf (P.DMA c) R.DMA_STAT 31 24 code s

/-- The records of a fault of descriptor d on channel c (R242). -/
def faultRecords (c : Nat) (d : Desc) (code : Nat) (side chain phys : Bool) (addr next : Nat) (s : State) :
    State :=
  let pg := P.DMA c
  s |> wr pg R.DMA_FAULT_INFO (W (code * 2 ^ 24 + b2n side * 2 ^ 17 + b2n chain * 2 ^ 16 + d.id))
    |> wr pg R.DMA_FAULT_ADDR_LO (W addr)
    |> wr pg R.DMA_FAULT_ADDR_HI (W (addr / 2 ^ 32 % 256 + b2n phys * 2 ^ 8))
    |> wr pg R.DMA_FAULT_NEXT (W next)
    |> wr pg R.DMA_FAULT_TASK (W (b2n d.fromMessage * 2 ^ 31 + d.task.toNat))
    |> err pg code 0 addr
    |> lastCode c code
    |> irq pg 1

/-- A fault stops the current descriptor and halts the channel (R242): the destination words that it has
written are undefined. -/
def descFault (c code : Nat) (side phys : Bool) (addr : Nat) (s : State) : State :=
  match (dchan c s).cur with
  | none => s
  | some cur =>
    let d := cur.desc
    let t := s |> faultRecords c d code side false phys addr (if d.chained then 2 ^ 31 + d.next else 0)
               |> unserve c
               |> mdDchan c (fun x => { x with cur := none, halted := true, ended := true })
    let t := cur.written.foldl (fun t k => undefineWord k t) t
    let t := cur.writtenRegs.foldl (fun t k => undefineReg k.1 k.2 t) t
    if d.evt then dmaEvent c (W (code * 2 ^ 24 + d.id)) t else t

/-- The descriptor completes (R242). -/
def descDone (c : Nat) (s : State) : State :=
  match (dchan c s).cur with
  | none => s
  | some cur =>
    let d := cur.desc
    let t := s |> unserve c
               |> mdDchan c (fun x => { x with cur := none, ended := true, chainGot := [],
                                               chain := if d.chained then some (d.next, d) else x.chain })
               |> count (P.DMA c) R.DMA_DONE_COUNT |> lastCode c E.NONE |> irq (P.DMA c) 0
    if d.evt then dmaEvent c (W d.id) t else t

/-- A descriptor becomes current and is checked (R238). -/
def beginDesc (c : Nat) (d : Desc) (s : State) : State :=
  let cur : Cur := { desc := d, done := 0, inBlock := 0, written := [], writtenRegs := [], remote := none, asked := (0, 0), fetched := [], gather := [],
                     gatherAt := (0, 0, 0) }
  let t := mdDchan c (fun x => { x with cur := some cur, ended := false }) s
  match descBad d with
  | some (side, addr) => descFault c E.PERM_FAULT side false addr t
  | none => t

/-! ## Entry of descriptors (R236, R237) -/

def submitRefused (c : Nat) (s : State) : State :=
  s |> count (P.DMA c) R.DMA_SUBMIT_REFUSED |> irq (P.DMA c) 2

def dmaEnabled (c : Nat) (s : State) : Bool := bit 0 (rd (P.DMA c) R.PAGE_CTL s)

def enqueue (c : Nat) (d : Desc) (s : State) : State := mdDchan c (fun x => { x with queue := x.queue ++ [d] }) s

/-- SUBMIT.GO: the staged descriptor enters the queue. -/
def submit (c : Nat) (s : State) : State :=
  if entering s then submitRefused c (err (P.DMA c) E.ENTRY_REFUSED 0 0 s)
  else if !dmaEnabled c s || 8 ≤ (dchan c s).queue.length then submitRefused c s
  else
    let ws := (List.range 8).map fun n => rd (P.DMA c) (R.DMA_DESC + 4 * n) s
    enqueue c ⟨ws, false, 0⟩ s

def execDmaSubmit (rq : Requester) (ch : DmaId) (s : State) : Out :=
  .next (onPage rq (P.DMA ch.val) R.DMA_SUBMIT (submit ch.val) s)

/-- The channel accepts descriptors from the message's origin. -/
def originAccepted (c : Nat) (route : Word) (s : State) : Bool :=
  let ctl := rd (P.DMA c) R.DMA_CTL s
  ((originPort route).isSome && bit 4 ctl) || (fromRing route && bit 5 ctl)

def descWait (c : Nat) (s : State) : State := count (P.DMA c) R.DMA_DESC_WAIT s

/-- The DMA_DESC at service 0x01, if one is at the front. -/
def descMsg (s : State) : Option Msg := (sinkMsg (.svcDown 1) s).filter fun m => m.cls != 0x22

/-- The channel that a DMA_DESC names. -/
def descChan (m : Msg) : Nat := fld 14 10 (m.payload.headD zeroWord).data

/-- A DMA_DESC of eight words is refused, accepted, or waits for room at the front of the service's input (R236, R237).
A word of it that is no data fails it (R31). -/
def descEnters (m : Msg) (s : State) : State :=
  let c := descChan m
  let t := dropMsg (.svcDown 1) s
  match wordsFail m.payload with
  | some code => submitRefused c (err (P.DMA c) code 0 0 t)
  | none =>
    if entering s then submitRefused c (err (P.DMA c) E.ENTRY_REFUSED 0 0 t)
    else if !dmaEnabled c s || !originAccepted c m.route s then submitRefused c t
    else if 8 ≤ (dchan c s).queue.length then descWait c s
    else enqueue c ⟨m.payload.map (·.data), true, BitVec.ofNat 12 m.task⟩ t

/-- The DMA_DESC at the front of service 0x01. One that finds its channel's queue full stays there, and what comes
behind it waits (R237). -/
def dmaDescMsg (s : State) : State :=
  if !dmaRuns s then s
  else match descMsg s with
    | none => s
    | some m =>
      match receiverCheck 1 (fun k => k == 0x10) m s with
      | some u => dropMsg (.svcDown 1) u
      | none => if m.len ≠ 8 then dropMsg (.svcDown 1) (malformed m.route s) else descEnters m s

def execDmaDesc (s : State) : Out := .next (dmaDescMsg s)

/-- A waiting DMA_DESC enters when its queue has room (R237). -/
def execDmaDescAdmit (s : State) : Out := .next (dmaDescMsg s)

/-- The DMA_DESC at the front waits for room in channel c's queue. -/
def descWaits (c : Nat) (s : State) : Bool :=
  (descMsg s).any fun m => m.cls == 0x10 && m.len == 8 && descChan m == c && decide (8 ≤ (dchan c s).queue.length)

/-- The channel's descriptor has finished, and the next one does not start while queue 17 is full, or while the event of
that one waits for room there (R240). -/
def waitsForEvents (c : Nat) (s : State) : Bool :=
  (dchan c s).waitEvt.isSome || ((dchan c s).ended && queueFull 17 s)

/-- The next queued descriptor becomes current. -/
def startNext (c : Nat) (s : State) : State :=
  let x := dchan c s
  if !dmaRuns s || x.cur.isSome || x.halted || waitsForEvents c s || x.chain.isSome then s
  else match x.queue with
    | [] => s
    | d :: rest => beginDesc c d (setDchan c { x with queue := rest } s)

def execDescriptorStart (ch : DmaId) (s : State) : Out := .next (startNext ch.val s)

/-- The waiting event word enters queue 17 (R240). -/
def eventPost (c : Nat) (s : State) : State :=
  match (dchan c s).waitEvt with
  | none => s
  | some w =>
    if queueFull 17 s then queueStall s
    else s |> mdDchan c (fun x => { x with waitEvt := none }) |> pushEvent 17 c w 0

def execDmaEventPost (ch : DmaId) (s : State) : Out :=
  .next (if dmaRuns s then eventPost ch.val s else s)

/-! ## Chains (R236, R242) -/

/-- The code with which a source word stops a transfer: NULL, FAULT, STAT (R241). -/
def wordStops (x : TWord) : Option Nat :=
  match x.tag with
  | .null => some E.ABSENT_TARGET
  | .fault => some (fld 31 24 x.data)
  | .stat => some E.BANK_BUSY
  | _ => none

/-- A fault in reading a chain descriptor halts the channel, with the event of the descriptor that named it (R242). -/
def chainFault (c code p : Nat) (parent : Desc) (s : State) : State :=
  let t := s |> faultRecords c parent code false true true (bankAddr (p / 8192) (p % 8192)) (2 ^ 31 + p)
             |> mdDchan c (fun y => { y with halted := true, ended := true, chain := none, chainGot := [] })
  if parent.evt then dmaEvent c (W (code * 2 ^ 24 + parent.id)) t else t

/-- The words of the chain descriptor are read at rank 3, one after the other (R236). -/
def chainLoop (fuel c p : Nat) (parent : Desc) (s : State) : State :=
  match fuel with
  | 0 => s
  | fuel + 1 =>
    let got := (dchan c s).chainGot
    if got.length = 8 then
      beginDesc c ⟨got.map (·.data), parent.fromMessage, parent.task⟩
        (mdDchan c (fun y => { y with chain := none, chainGot := [] }) s)
    else
      match viaPort (chainEngine c) (p / 8192) ((p + got.length) % 8192) .read s with
      | (none, t) => t
      | (some (x, _), t) =>
        match wordStops x with
        | some code => chainFault c code p parent t
        | none => chainLoop fuel c p parent (mdDchan c (fun y => { y with chainGot := y.chainGot ++ [x] }) t)

/-- The chain descriptor is read as far as its bank has served it. -/
def chainRead (c : Nat) (s : State) : State :=
  let x := dchan c s
  match x.chain with
  | none => s
  | some (p, parent) =>
    if !dmaRuns s || x.halted || x.cur.isSome || waitsForEvents c s then s else chainLoop 9 c p parent s

def execChainRead (ch : DmaId) (s : State) : Out := .next (chainRead ch.val s)

/-! ## Restart, flush, reset (R243) -/

def restartChan (c : Nat) (s : State) : State := mdDchan c (fun x => { x with halted := false }) s
def flushChan (c : Nat) (s : State) : State := mdDchan c (fun x => { x with halted := false, queue := [] }) s

def execRestart (rq : Requester) (ch : DmaId) (s : State) : Out :=
  .next (onPage rq (P.DMA ch.val) R.DMA_CTL (restartChan ch.val) s)
def execFlush (rq : Requester) (ch : DmaId) (s : State) : Out :=
  .next (onPage rq (P.DMA ch.val) R.DMA_CTL (flushChan ch.val) s)

def dmaReset (c : Nat) (s : State) : State :=
  let id := match (dchan c s).cur with
    | some cur => some cur.desc.id
    | none => none
  let t := s |> unserve c |> dropEngine (chainEngine c) |> setDchan c DmaChan.idle |> clearStatus (P.DMA c) (fun _ => false)
  match id with
  | some n => wr (P.DMA c) R.DMA_FAULT_INFO (W (E.ABSENT_TARGET * 2 ^ 24 + n)) t
  | none => t

def execDmaSoftReset (rq : Requester) (ch : DmaId) (s : State) : Out :=
  .next (onPage rq (P.DMA ch.val) R.PAGE_CTL (dmaReset ch.val) s)

/-! ## Translation (R229–R233) -/

def spaceCfg (n : Nat) (s : State) : Word := rd P.MMU (R.MMU_SPACE_CFG + 8 * n) s
def spaceRoot (n : Nat) (s : State) : Word := rd P.MMU (R.MMU_SPACE_ROOT + 8 * n) s

/-- The ranges of Table 10.1. -/
inductive PhysKind where
  | regs | bank | flash
  /-- A remote window: node and offset. -/
  | window (node off : Nat)
  | host (off : Nat)
  | reserved
  deriving DecidableEq, Repr

def physKind (a : Nat) : PhysKind :=
  if a < 0x400_0000 then .regs
  else if bankRange a ≠ .outside then .bank
  else if 0x4000_0000 ≤ a ∧ a < 0x4101_0000 then .flash
  else if 0x10_0000_0000 ≤ a ∧ a < 0x50_0000_0000 then
    .window ((a - 0x10_0000_0000) / 0x4000_0000) (a % 0x4000_0000)
  else if 0x80_0000_0000 ≤ a then .host (a - 0x80_0000_0000)
  else .reserved

/-- The check of Table 10.1, with the windows that exist (R18) and host memory (R19). -/
def physCheck (space a : Nat) (write : Bool) (s : State) : Option Nat :=
  let cfg := spaceCfg space s
  match physKind a with
  | .regs => if bit 2 cfg then none else some E.PERM_FAULT
  | .bank => none
  | .flash => if write then some E.PERM_FAULT else none
  | .window k _ =>
    if !bit 4 cfg then some E.PERM_FAULT
    else if ownNode s = 0 ∨ k = 0 ∨ 250 < k then some E.ABSENT_TARGET
    else if k = ownNode s ∨ ringUp s then none
    else some E.ABSENT_TARGET
  | .host _ => if !bit 3 cfg then some E.PERM_FAULT else if strapQspi s then some E.ABSENT_TARGET else none
  | .reserved => some E.ABSENT_TARGET

/-- The outcome of a translation. -/
inductive Xlate where
  | ok (pa : Nat)
  | walk
  | fault (code : Nat)
  deriving DecidableEq, Repr

def cache (g : Nat) (s : State) : List Tlb := tget [] s.dma.caches g
def setCache (g : Nat) (l : List Tlb) (s : State) : State :=
  setDma { s.dma with caches := tput [] g l s.dma.caches } s

/-- The entry covers a virtual address of a space. -/
def Tlb.covers (e : Tlb) (space va : Nat) : Bool :=
  e.space == space && (if e.big then e.page / 512 == va / 2 ^ 21 else e.page == va / 2 ^ 12)

/-- The physical address that a leaf gives, or PERM_FAULT (R230, R231). -/
def leafAddr (e : Tlb) (va : Nat) (write : Bool) : Xlate :=
  if (if write then e.w else e.r) then
    .ok ((e.pfn * 0x1000 + va % (if e.big then 2 ^ 21 else 2 ^ 12)) % 2 ^ 40)
  else .fault E.PERM_FAULT

/-- Resolve a virtual address for mover m (4: the host-initiated access), with the cache of group g (R229, R233). One
lookup serves the words of a block that lie in one page, of its source and of its destination each (R239). -/
def resolve (m g space va : Nat) (write : Bool) (s : State) : Xlate × State :=
  match fld 1 0 (spaceCfg space s) with
  | 1 => (.ok va, s)
  | 2 =>
    match (mover m s).own.find? fun e => e.1 == write && e.2.covers space va with
    | some e => (leafAddr e.2 va write, s)
    | none =>
      let l := cache g s
      match l.find? fun e => e.covers space va with
      | some e =>
        let t := setCache g (e :: l.filter fun x => !x.covers space va) s
        let t := mdMover m (fun x => { x with own := x.own ++ [(write, e)] }) t
        (leafAddr e va write, count P.MMU (R.MMU_HITS + 4 * g) t)
      | none => (.walk, s)
  | _ => (.fault E.XLATE_FAULT, s)

/-- Resolve and check (R229). -/
def translate (m g space va : Nat) (write : Bool) (s : State) : Xlate × State :=
  match resolve m g space va write s with
  | (.ok pa, t) => (match physCheck space pa write t with
    | some code => .fault code
    | none => .ok pa, t)
  | r => r

/-- Start a walk (R230). -/
def startWalk (m g space va : Nat) (write : Bool) (s : State) : State :=
  let root := spaceRoot space s
  let entry := fld 22 13 root * 8192 + fld 12 10 root * 1024 + va / 2 ^ 30 % 1024
  s |> mdMover m (fun x => { x with walk := some ⟨space, va, write, 0, entry, false⟩ })
    |> count P.MMU (R.MMU_MISSES + 4 * g)

/-- What one entry of a walk gives (R230, R231). -/
inductive WalkStep where
  | next (entry : Nat)
  | leaf (e : Tlb)
  | fault (code : Nat)
  deriving DecidableEq, Repr

def walkEntry (k : PtWalk) (x : TWord) : WalkStep :=
  let w := x.data
  let leaf := bit 30 w
  let idx := if k.level = 0 then k.va / 2 ^ 21 % 512 else k.va / 2 ^ 12 % 512
  if x.tag = .fault then .fault (fld 31 24 w)
  else if x.tag = .null then .fault E.ABSENT_TARGET
  else if x.tag ≠ .data ∨ !bit 31 w then .fault E.XLATE_FAULT
  else if leaf then
    if k.level = 0 then .fault E.XLATE_FAULT
    else if k.level = 1 ∧ fld 8 0 w ≠ 0 then .fault E.XLATE_FAULT
    else
      let big := k.level == 1
      let page := if big then k.va / 2 ^ 21 * 512 else k.va / 2 ^ 12
      .leaf ⟨k.space, page, big, bit 28 w, bit 29 w, fld 27 0 w⟩
  else if k.level = 2 ∨ fld 29 23 w ≠ 0 ∨ fld 8 0 w ≠ 0 then .fault E.XLATE_FAULT
  else .next (fld 22 13 w * 8192 + fld 12 0 w + idx)

/-- End of a host-initiated access (R246). -/
def hraEnd (code : Nat) (data : Word) (s : State) : State :=
  match s.dma.hra with
  | none => s
  | some (_, write) =>
    let t := s |> setDma { s.dma with hra := none, hraRemote := false } |> blockEnded 4
               |> md P.MMU R.MMU_HRA_CTL (fun w => setFld 31 24 code (setFld 2 1 2 w))
    let t := if write then t else wr P.MMU R.MMU_HRA_DATA data t
    irq P.MMU 0 t

/-- A fault of the translation of mover m. -/
def walkFault (m code : Nat) (write : Bool) (va : Nat) (s : State) : State :=
  if m = 4 then hraEnd code 0 s
  else match (mover m s).serving with
    | some c => descFault c code write false va s
    | none => s

/-- What a walk does with the word x of its entry (R230, R231, R234). -/
def walkWord (m : Nat) (k : PtWalk) (x : TWord) (s : State) : State :=
  match walkEntry k x with
  | .next e => mdMover m (fun y => { y with walk := some { k with level := k.level + 1, entry := e } }) s
  | .fault code => walkFault m code k.write k.va (mdMover m (fun y => { y with walk := none }) s)
  | .leaf e =>
    let g := match (mover m s).serving with
      | some c => c / 8
      | none => 0
    let t := mdMover m (fun y => { y with walk := none, own := y.own ++ [(k.write, e)] }) s
    if k.stale then t else setCache g ((e :: cache g t).take 64) t

/-- The walk of a requester, movers 0 to 3 and 4 the host-initiated access: its read is a rank 3 request at the table's
bank, and goes on once it has been served (R231). -/
def walkRead (m : Nat) (s : State) : State :=
  match (mover m s).walk with
  | none => s
  | some k =>
    if !dmaRuns s then s
    else match viaPort (walkEngine m) (k.entry / 8192) (k.entry % 8192) .read s with
      | (none, t) => t
      | (some (x, _), t) => walkWord m k x (count P.MMU R.MMU_WALK_READS t)

def execPageWalkRead (requester : Fin 5) (s : State) : Out := .next (walkRead requester.val s)

/-! ## Invalidation (R234) -/

def invalBusy (s : State) : Bool := bit 0 (rd P.MMU R.MMU_INVAL_STAT s)

/-- Entries that `gone` names leave every cache; walks in progress are not cached; BUSY is 1 until every
mover has finished its block. -/
def invalidate (gone : Tlb → Bool) (s : State) : State :=
  let busyMovers := (List.range 4).filter fun m => (mover m s).serving.isSome
  let t := (List.range 4).foldl (fun t g => setCache g ((cache g t).filter fun e => !gone e) t) s
  let t := (List.range 5).foldl (fun t m =>
    mdMover m (fun x => { x with walk := x.walk.map fun k => { k with stale := true } }) t) t
  t |> setDma { t.dma with invalWait := busyMovers }
    |> md P.MMU R.MMU_INVAL_STAT (setBit 0 true)

/-- A write of INVAL, or of a space's configuration, while BUSY is refused. -/
def invalCmd (rq : Requester) (off : Nat) (f : State → State) (s : State) : State :=
  onPage rq P.MMU off (fun s => if invalBusy s then permFault P.MMU off s else f s) s

def execInvalAll (rq : Requester) (s : State) : Out :=
  .next (invalCmd rq R.MMU_INVAL (invalidate fun _ => true) s)
def execInvalSpace (rq : Requester) (space : Fin 16) (s : State) : Out :=
  .next (invalCmd rq R.MMU_INVAL (invalidate fun e => e.space == space.val) s)

/-- The entry of the space that contains the page of INVAL_VA. -/
def invalidatePage (space : Nat) (s : State) : State :=
  let va := rdf P.MMU R.MMU_INVAL_VA 27 0 s * 2 ^ 12
  invalidate (fun e => e.covers space va) s

def execInvalPage (rq : Requester) (space : Fin 16) (s : State) : Out :=
  .next (invalCmd rq R.MMU_INVAL (invalidatePage space.val) s)

/-- The host-initiated access looks up again what it had from before the invalidation. -/
def hraAgain (s : State) : State := s |> mdMover 4 (fun x => { x with walk := none, own := [] }) |> dropEngine (walkEngine 4)

/-- Every mover has finished the block it worked on: BUSY clears, and from then on every lookup uses only entries and
walks that are not invalidated. -/
def invalEnd (s : State) : State :=
  if !invalBusy s || s.dma.invalWait ≠ [] then s
  else s |> hraAgain |> md P.MMU R.MMU_INVAL_STAT (setBit 0 false) |> irq P.MMU 2

def execInvalDone (s : State) : Out := .next (invalEnd s)

/-- A write of SPACEs_CFG or SPACEs_ROOT (R234): MODE 3 is reserved (R53). -/
def spaceWrite (n : Nat) (root : Bool) (v : Word) (s : State) : State :=
  if !root ∧ fld 1 0 v = 3 then permFault P.MMU (R.MMU_SPACE_CFG + 8 * n) s
  else
    let t := if root then wr P.MMU (R.MMU_SPACE_ROOT + 8 * n) (v &&& W 0x007FFC00) s
      else wr P.MMU (R.MMU_SPACE_CFG + 8 * n) (v &&& W 0x1F) s
    invalidate (fun e => e.space == n) t

def execSpaceConfigWrite (rq : Requester) (space : Fin 16) (root : Bool) (v : Word) (s : State) : Out :=
  .next (invalCmd rq (if root then R.MMU_SPACE_ROOT + 8 * space.val else R.MMU_SPACE_CFG + 8 * space.val)
    (spaceWrite space.val root v) s)

/-! ## Host-initiated access: GO (R246) -/

def hraGo (write : Bool) (s : State) : State :=
  let ctl := rd P.MMU R.MMU_HRA_CTL s
  if !takesWork P.MMU s then s
  else if bit 1 ctl then permFault P.MMU R.MMU_HRA_CTL s
  else
    let va := (rd P.MMU R.MMU_HRA_ADDR_LO s).toNat + 2 ^ 32 * rdf P.MMU R.MMU_HRA_ADDR_HI 7 0 s
    s |> wr P.MMU R.MMU_HRA_CTL (setBit 0 write (setBit 1 true ctl))
      |> setDma { s.dma with hra := some (va, write), hraRemote := false }

def execHraRead (rq : Requester) (s : State) : Out :=
  .next (onPage rq P.MMU R.MMU_HRA_CTL (hraGo false) s)
def execHraWrite (rq : Requester) (s : State) : Out :=
  .next (onPage rq P.MMU R.MMU_HRA_CTL (hraGo true) s)

end Sys2Proof.Machine
end

