-- ==== Sys2Proof/Machine/Flash.lean ====
section
/-! DEFINITION. Code/Data Flash and the Hedgehog guard (chapter 13): command sequences, programs, erases,
suspend and resume, reads, wear and retirement, guard bits and password (R294–R318). -/
namespace Sys2Proof.Machine

open Sys2Proof

/-! ## Sectors and pages (R294): offsets count from 0x00_4000_0000 -/

/-- The sector code of an offset: 0 to 127, or 0x80 + n for parameter sector Pn. -/
def sectorOf (off : Nat) : Option Nat :=
  if off < 0x1000000 then some (off / 0x20000)
  else if off < 0x1010000 then some (0x80 + (off - 0x1000000) / 0x2000)
  else none

def sectorBase (x : Nat) : Nat := if x < 128 then x * 0x20000 else 0x1000000 + (x - 0x80) * 0x2000
def sectorPages (x : Nat) : Nat := if x < 128 then 256 else 16
def sectorBank (x : Nat) : Nat := if x < 128 then x / 32 else 0
def flashBase (b : Nat) : Nat := b * 0x400000
/-- The page of an offset within its sector, and the page code sector × 256 + page. -/
def pageIn (x off : Nat) : Nat := (off - sectorBase x) / 0x200
def pageCode (x p : Nat) : Nat := x * 256 + p
/-- The halfword key of page p of a sector. -/
def pageHw (x p : Nat) : Nat := sectorBase x / 2 + 256 * p

/-- The sectors of a bank: its main sectors, and P0 to P7 in bank 0. -/
def bankSectors (b : Nat) : List Nat :=
  (List.range 32).map (32 * b + ·) ++ (if b = 0 then (List.range 8).map (0x80 + ·) else [])

/-- The firmware areas (Table 13.2). -/
def firmwareArea (x : Nat) : Bool :=
  (0x80 ≤ x && x ≤ 0x86) || (32 ≤ x && x ≤ 47) || (64 ≤ x && x ≤ 79)

/-- The guard group of a sector (R310). -/
def guardGroup (x : Nat) : Nat := if x < 128 then x / 4 else if x < 0x84 then 32 else 33
def guarded (x : Nat) (s : State) : Bool := s.flash.guardBits.getLsbD (guardGroup x)

def Wear.fresh : Wear := { retired := false, warn := false, pulses := 0, retries := 0, erases := 0 }
def wearOf (x : Nat) (s : State) : Wear := tget Wear.fresh s.flash.wear x
def mdWear (x : Nat) (f : Wear → Wear) (s : State) : State :=
  setFlash { s.flash with wear := tput Wear.fresh x (f (wearOf x s)) s.flash.wear } s
/-- The WEAR_DATA word of a sector (Table 13.8). -/
def wearData (x : Nat) (s : State) : Word :=
  let w := wearOf x s
  W (b2n w.retired * 2 ^ 31 + b2n w.warn * 2 ^ 30 + w.pulses.toNat * 2 ^ 25 + w.retries.toNat * 2 ^ 22
    + w.erases.toNat)

def FlashBank.idle : FlashBank :=
  { op := none, suspended := none, resumeWaits := false, load := none, idMode := false, prefetch := [] }
def fbank (b : Nat) (s : State) : FlashBank := tget FlashBank.idle s.flash.banks b
def mdFbank (b : Nat) (f : FlashBank → FlashBank) (s : State) : State :=
  setFlash { s.flash with banks := tput FlashBank.idle b (f (fbank b s)) s.flash.banks } s

/-! ## Status of a bank (R299, Table 13.8) -/

/-- The bank is busy for a requester. -/
def flashBusy (rq : Requester) (b : Nat) (s : State) : Bool :=
  let x := fbank b s
  x.op.isSome || x.suspended.isSome || x.load.any (fun l => l.rq ≠ rq)

/-- BANK_STATb as a requester reads it. -/
def bankStat (rq : Requester) (b : Nat) (s : State) : Word :=
  let x := fbank b s
  rd P.CDF (R.CDF_BANK_STAT + 4 * b) s
    |> setBit 31 (flashBusy rq b s)
    |> setBit 30 x.suspended.isSome
    |> setBit 29 (x.op.any fun o => o.pendingSuspend || o.suspending)
    |> setBit 28 x.idMode

def flashCode (b code : Nat) (s : State) : State := wrf P.CDF (R.CDF_BANK_STAT + 4 * b) 15 8 code s
/-- OP and SECTOR of a bank. -/
def flashShow (b op x : Nat) (s : State) : State :=
  md P.CDF (R.CDF_BANK_STAT + 4 * b) (fun w => setFld 23 16 op (setFld 7 0 x w)) s

/-- An operation begins: BUSY, with CODE NONE; prefetch buffer and ID mode end (R298, R301). -/
def startOp (b code x page : Nat) (buf : SMap (BitVec 16)) (s : State) : State :=
  s |> mdFbank b (fun y => { y with
        op := some { code := code, sector := x, page := page, buf := buf, suspending := false,
                     pendingSuspend := false },
        idMode := false, prefetch := [] })
    |> flashShow b code x |> flashCode b 0

/-! ## Refusals (Table 13.4, R295, R305, R308, R309) -/

abbrev Cdf.PROGRAM : Nat := 0x31
abbrev Cdf.ERASE_SECTOR : Nat := 0x52
abbrev Cdf.ERASE_BANK : Nat := 0x5B
abbrev Cdf.SUSPEND : Nat := 0x7A
abbrev Cdf.RESUME : Nat := 0x7B
abbrev Cdf.READ_ID : Nat := 0x1E
abbrev Cdf.GUARD_SET : Nat := 0x6D
abbrev Cdf.GUARD_UNLOCK : Nat := 0x6E
abbrev Cdf.STATUS_CLEAR : Nat := 0x0C

def addressed (code : Nat) : Bool :=
  code == Cdf.PROGRAM || code == Cdf.ERASE_SECTOR || code == Cdf.GUARD_SET || code == Cdf.GUARD_UNLOCK
def knownCdf (code : Nat) : Bool :=
  addressed code || code == Cdf.ERASE_BANK || code == Cdf.SUSPEND || code == Cdf.RESUME ||
    code == Cdf.READ_ID || code == Cdf.STATUS_CLEAR
def changesFlash (code : Nat) : Bool := addressed code || code == Cdf.ERASE_BANK

def programmed (x p : Nat) (s : State) : Bool := s.flash.programmed.contains (pageCode x p)
def lockout (s : State) : Bool := bit 8 (rd P.GUARD R.GUARD_STAT s)

/-- A command that finds the bank not free for it. -/
def bankRefusal (rq : Requester) (code b x page : Nat) (s : State) : Option Nat :=
  let y := fbank b s
  let otherLoads := y.load.any (fun l => l.rq ≠ rq)
  if code = Cdf.STATUS_CLEAR then none
  else if otherLoads then some E.BANK_BUSY
  else if code = Cdf.SUSPEND then
    (if y.suspended.isSome || y.op.any (fun o => o.code = Cdf.ERASE_SECTOR || o.code = Cdf.PROGRAM) then none
     else some E.PERM_FAULT)
  else if code = Cdf.RESUME then
    (if y.suspended.isSome || y.op.any (fun o => o.pendingSuspend || o.suspending) then none
     else some E.PERM_FAULT)
  else if code = Cdf.PROGRAM then
    (match y.suspended with
     | some e =>
       if e.code ≠ Cdf.ERASE_SECTOR ∨ e.sector = x ∨ y.op.isSome then some E.BANK_BUSY
       else none
     | none => if y.op.isSome then some E.BANK_BUSY else none)
     |>.or (if programmed x page s || (x < 128 && page % 2 == 1 && !programmed x (page - 1) s)
        then some E.PERM_FAULT else none)
  else if y.op.isSome || y.suspended.isSome then some E.BANK_BUSY
  else none

/-- The code with which a command is refused. `host` applies the rules for host commands. -/
def cdfRefusal (rq : Requester) (host : Bool) (fromBank : Option Nat) (code b x page : Nat) (s : State) :
    Option Nat :=
  let fw := fld 3 0 (rd P.CDF R.CDF_FW_BANKS s)
  if entering s && changesFlash code then some E.ENTRY_REFUSED
  else if fromBank = some b ∨ (fw.testBit b ∧ fromBank.isSome) then some E.SELF_BANK
  else if host ∧ ((addressed code ∧ firmwareArea x) ∨ (code = Cdf.ERASE_BANK ∧ b ≤ 2)) then some E.PERM_FAULT
  else if host ∧ changesFlash code ∧ fw.testBit b then some E.GUARD_LOCKED
  else match bankRefusal rq code b x page s with
    | some c => some c
    | none =>
      if (code = Cdf.PROGRAM ∨ code = Cdf.ERASE_SECTOR) ∧ guarded x s then some E.GUARD_LOCKED
      else if code = Cdf.ERASE_BANK ∧ (bankSectors b).any (fun y => guarded y s) then some E.GUARD_LOCKED
      else if (code = Cdf.GUARD_SET ∨ code = Cdf.GUARD_UNLOCK) ∧ lockout s then some E.GUARD_LOCKED
      else if (code = Cdf.PROGRAM ∨ code = Cdf.ERASE_SECTOR) ∧ (wearOf x s).retired then some E.RETIRED
      else none

/-- A refused command (R301). -/
def cdfRefused (rq : Requester) (code b x c : Nat) (s : State) : State :=
  s |> flashCode b c |> count P.CDF R.CDF_REFUSED
    |> wr P.CDF R.CDF_LAST_REFUSED (W (c * 2 ^ 24 + rqCode rq * 2 ^ 16 + code * 2 ^ 8 + x))

def seqError (s : State) : State := count P.CDF R.CDF_SEQ_ERRORS s

/-! ## The guard (R310–R312) -/

/-- The presented password and the new one are zeroised after every comparison. -/
def zeroiseKeys (s : State) : State := setFlash { s.flash with key := 0, newPw := 0 } s

/-- Compare the presented password: a match clears FAILS; a mismatch counts, and the eighth locks out. -/
def comparePw (onMatch : State → State) (s : State) : State :=
  let hit := s.flash.key == s.flash.password
  let t := if hit then
      onMatch (md P.GUARD R.GUARD_STAT (fun w => setFld 31 24 0 (setFld 3 0 0 w)) s)
    else
      let n := rdf P.GUARD R.GUARD_STAT 3 0 s + 1
      let t := s |> md P.GUARD R.GUARD_STAT (fun w => setFld 31 24 E.GUARD_LOCKED (setFld 3 0 n w))
                 |> irq P.GUARD 1
      if n = 8 then t |> md P.GUARD R.GUARD_STAT (setBit 8 true) |> irq P.GUARD 0 else t
  zeroiseKeys t

def setGuard (g : Nat) (v : Bool) (s : State) : State :=
  let m : BitVec 34 := 1#34 <<< g
  setFlash { s.flash with guardBits := if v then s.flash.guardBits ||| m else s.flash.guardBits &&& ~~~m } s

/-- GUARD.CTL.SET_PW (R311, R312). -/
def setPassword (s : State) : State :=
  if lockout s then wrf P.GUARD R.GUARD_STAT 31 24 E.GUARD_LOCKED s
  else
    let pw := s.flash.newPw
    comparePw (fun t => setFlash { t.flash with password := pw } t) s

def execSetPw (rq : Requester) (s : State) : Out := .next (onPage rq P.GUARD R.GUARD_CTL setPassword s)

/-! ## Contents -/

/-- Pages lo to hi − 1 of a sector become undefined: each halfword is a free value. -/
def undefPages (x lo hi : Nat) (s : State) : State :=
  (List.range (hi - lo)).foldl (fun t i =>
    let p := lo + i
    setFlash { t.flash with
      cells := tclear (pageHw x p) (pageHw x p + 256) t.flash.cells,
      undef := tins (pageCode x p) t.free t.flash.undef } (setFree (t.free + 256) t)) s

def markProgrammed (x p : Nat) (s : State) : State :=
  if programmed x p s then s
  else setFlash { s.flash with programmed := pageCode x p :: s.flash.programmed } s

/-- An erased sector: every halfword 0xFFFF, no page programmed. -/
def eraseContents (x : Nat) (s : State) : State :=
  let lo := sectorBase x / 2
  let hi := lo + 256 * sectorPages x
  setFlash { s.flash with
    cells := tclear lo hi s.flash.cells,
    undef := tclear (pageCode x 0) (pageCode x 256) s.flash.undef,
    badBits := tclear (sectorBase x / 32) (sectorBase x / 32 + 16 * sectorPages x) s.flash.badBits,
    programmed := s.flash.programmed.filter fun c => c / 256 != x } s

/-- A sector whose erase failed or was aborted: undefined, and not erased. -/
def undefSector (x : Nat) (s : State) : State :=
  (List.range (sectorPages x)).foldl (fun t p => markProgrammed x p t) (undefPages x 0 (sectorPages x) s)

/-- The halfword at a byte offset. -/
def flashHw (off : Nat) (s : State) : BitVec 16 :=
  match tfind s.flash.cells (off / 2) with
  | some v => v
  | none => match sectorOf off with
    | none => 0xFFFF
    | some x => match tfind s.flash.undef (pageCode x (pageIn x off)) with
      | some n => (Config.freeWord (n + (off - sectorBase x) % 0x200 / 2)).setWidth 16
      | none => 0xFFFF

def storePage (x p : Nat) (buf : SMap (BitVec 16)) (s : State) : State :=
  setFlash { s.flash with
    cells := buf.foldl (fun m e => tput 0xFFFF (pageHw x p + e.1) e.2 m) s.flash.cells } s

/-! ## Accepted commands (R301, R302, R306) -/

/-- The page buffer starts to program: from here the page counts as programmed. -/
def startProgram (b x p : Nat) (buf : SMap (BitVec 16)) (s : State) : State :=
  s |> mdFbank b (fun y => { y with load := none }) |> startOp b Cdf.PROGRAM x p buf |> markProgrammed x p

/-- The suspended operation runs on; it shows again in OP and SECTOR. -/
def resumeOp (b : Nat) (s : State) : State :=
  match (fbank b s).suspended with
  | none => s
  | some o =>
    s |> mdFbank b (fun y => { y with
          op := some { o with suspending := false, pendingSuspend := false },
          suspended := none, resumeWaits := false })
      |> flashShow b o.code o.sector

/-- SUSPEND: it is pending until honoured. A second one, or one while an operation is suspended already, has no
effect (R306); so a program during an erase suspend is never suspended (R305). -/
def suspendCmd (b : Nat) (s : State) : State :=
  mdFbank b (fun y => { y with idMode := false, op := y.op.map fun o =>
    if o.suspending || y.suspended.isSome then o else { o with pendingSuspend := true } }) s

def resumeCmd (b : Nat) (s : State) : State :=
  let y := fbank b s
  let t := mdFbank b (fun y => { y with idMode := false }) s
  if y.suspended.isSome then
    (if y.op.isSome then mdFbank b (fun y => { y with resumeWaits := true }) t else resumeOp b t)
  else mdFbank b (fun y => { y with op := y.op.map fun o =>
    { o with pendingSuspend := false, suspending := false } }) t

/-- What an accepted command does. -/
def cdfAccepted (rq : Requester) (code b x page : Nat) (s : State) : State :=
  let noId := mdFbank b (fun y => { y with idMode := false })
  if code = Cdf.PROGRAM then
    mdFbank b (fun y => { y with idMode := false, load := some ⟨rq, x, page, []⟩ }) s
  else if code = Cdf.ERASE_SECTOR then startOp b code x 0 [] s
  else if code = Cdf.ERASE_BANK then startOp b code (32 * b) 0 [] s
  else if code = Cdf.SUSPEND then suspendCmd b s
  else if code = Cdf.RESUME then resumeCmd b s
  else if code = Cdf.READ_ID then mdFbank b (fun y => { y with idMode := true }) s
  else if code = Cdf.GUARD_SET then setGuard (guardGroup x) true (startOp b code x 0 [] s)
  else if code = Cdf.GUARD_UNLOCK then
    noId (comparePw (fun t => setGuard (guardGroup x) false (startOp b code x 0 [] t)) s)
  else noId (flashCode b 0 s)

/-- A whole command, accepted or refused. -/
def cdfCommand (rq : Requester) (host : Bool) (fromBank : Option Nat) (code b x page : Nat) (s : State) :
    Option Nat × State :=
  if changesFlash code && !takesWork P.CDF s then (some E.PERM_FAULT, s)
  else match cdfRefusal rq host fromBank code b x page s with
  | some c => (some c, cdfRefused rq code b x c s)
  | none => (none, cdfAccepted rq code b x page s)

/-! ## Writes to the array (R296, R300, R302) -/

def seqKey (rq : Requester) (b : Nat) : Nat := 2 * b + (if rq = .steward then 1 else 0)
def setSeq (rq : Requester) (b n : Nat) (s : State) : State :=
  setFlash { s.flash with seq := tput 0 (seqKey rq b) n s.flash.seq } s

/-- The load ends without programming. -/
def endLoad (b : Nat) (s : State) : State :=
  s |> mdFbank b (fun y => { y with load := none }) |> flashCode b E.PERM_FAULT |> seqError

/-- A data write of a loading PROGRAM. -/
def loadWrite (b : Nat) (l : PageLoad) (off : Nat) (v : BitVec 16) (s : State) : State :=
  let lo := sectorBase l.sector + 0x200 * l.page
  if off < lo ∨ lo + 0x200 ≤ off then endLoad b s
  else
    let buf := tput 0xFFFF ((off - lo) / 2) v l.buf
    if off - lo = 0x1FE then startProgram b l.sector l.page buf s
    else mdFbank b (fun y => { y with load := some { l with buf := buf } }) s

/-- One step of a command sequence. -/
def seqWrite (rq : Requester) (b x off : Nat) (v : BitVec 16) (fromBank : Option Nat) (s : State) : State :=
  let code := v.toNat
  match tget 0 s.flash.seq (seqKey rq b) with
  | 0 =>
    if off = flashBase b + 0x1D88 ∧ code = 0x6C then setSeq rq b 1 s else seqError s
  | 1 =>
    if off = flashBase b + 0xE44 ∧ code = 0x93 then setSeq rq b 2 s else seqError (setSeq rq b 0 s)
  | _ =>
    let t := setSeq rq b 0 s
    if !knownCdf code || (!addressed code && off != flashBase b + 0x1D88) then seqError t
    else (cdfCommand rq (rq == .host) fromBank code b x (pageIn x off) t).2

/-- The array is reached in these modes. -/
def flashServed (s : State) : Bool :=
  match s.dev.mode with
  | .off => false | .sleep => false | .bear => false | .scan => false
  | _ => true

/-- A 16-bit write into the array: only the host (from strap sampling on) and the steward write it. -/
def arrayWrite (rq : Requester) (off : Nat) (v : BitVec 16) (fromBank : Option Nat) (s : State) : State :=
  if !flashServed s || (rq == .host && !s.dev.sampled) || rq == .fabric || rq == .ring then s
  else match sectorOf off with
    | none => reservedAccess rq (0x40000000 + off) true s
    | some x =>
      let b := sectorBank x
      if off % 2 = 1 then err P.CDF E.PERM_FAULT 0 (0x40000000 + off) s
      else match (fbank b s).load with
        | some l => if l.rq = rq then loadWrite b l off v s else seqWrite rq b x off v fromBank s
        | none => seqWrite rq b x off v fromBank s

/-- A write of any other width or alignment (R296). -/
def arrayWriteRefused (off : Nat) (s : State) : State := err P.CDF E.PERM_FAULT 0 (0x40000000 + off) s

/-- The third write of a sequence. The bank that an instruction was fetched from is the steward's (R308). -/
def stepThree (rq : Requester) (off code : Nat) (fromBank : Option (Fin 4)) (s : State) : State :=
  arrayWrite rq off (BitVec.ofNat 16 code) (if rq = .steward then fromBank.map (·.val) else none) s

def execCdfSequenceWrite (rq : Requester) (off : BitVec 25) (v : BitVec 16) (s : State) : Out :=
  .next (arrayWrite rq off.toNat v none s)
def execProgram (rq : Requester) (off : BitVec 25) (fromBank : Option (Fin 4)) (s : State) : Out :=
  .next (stepThree rq off.toNat Cdf.PROGRAM fromBank s)
def execEraseSector (rq : Requester) (off : BitVec 25) (fromBank : Option (Fin 4)) (s : State) : Out :=
  .next (stepThree rq off.toNat Cdf.ERASE_SECTOR fromBank s)
def execEraseBank (rq : Requester) (b : Fin 4) (fromBank : Option (Fin 4)) (s : State) : Out :=
  .next (stepThree rq (flashBase b.val + 0x1D88) Cdf.ERASE_BANK fromBank s)
def execSuspend (rq : Requester) (b : Fin 4) (fromBank : Option (Fin 4)) (s : State) : Out :=
  .next (stepThree rq (flashBase b.val + 0x1D88) Cdf.SUSPEND fromBank s)
def execResume (rq : Requester) (b : Fin 4) (fromBank : Option (Fin 4)) (s : State) : Out :=
  .next (stepThree rq (flashBase b.val + 0x1D88) Cdf.RESUME fromBank s)
def execReadId (rq : Requester) (b : Fin 4) (fromBank : Option (Fin 4)) (s : State) : Out :=
  .next (stepThree rq (flashBase b.val + 0x1D88) Cdf.READ_ID fromBank s)
def execGuardSet (rq : Requester) (off : BitVec 25) (fromBank : Option (Fin 4)) (s : State) : Out :=
  .next (stepThree rq off.toNat Cdf.GUARD_SET fromBank s)
def execGuardUnlock (rq : Requester) (off : BitVec 25) (fromBank : Option (Fin 4)) (s : State) : Out :=
  .next (stepThree rq off.toNat Cdf.GUARD_UNLOCK fromBank s)
def execStatusClear (rq : Requester) (b : Fin 4) (fromBank : Option (Fin 4)) (s : State) : Out :=
  .next (stepThree rq (flashBase b.val + 0x1D88) Cdf.STATUS_CLEAR fromBank s)
def execPageBufferWrite (rq : Requester) (off : BitVec 25) (v : BitVec 16) (s : State) : Out :=
  .next (arrayWrite rq off.toNat v none s)

/-- No write arrives for 10 ms (R302). -/
def execPageLoadTimeout (b : Fin 4) (s : State) : Out :=
  .next (if (fbank b.val s).load.isSome then endLoad b.val s else s)

/-! ## The end of an operation (R304, R305, R313, R314) -/

/-- Wear warning of a sector. -/
def warnSector (x : Nat) (s : State) : State := s |> mdWear x (fun w => { w with warn := true }) |> irq P.CDF 2
/-- Retirement of a sector. -/
def retireSector (x : Nat) (s : State) : State :=
  s |> mdWear x (fun w => { w with retired := true }) |> irq P.CDF 1 |> irq P.CDF 3

/-- A program ends after `retries` verify retries: the code, and the state. -/
def programEnd (o : FlashOp) (retries : Nat) (ok : Bool) (s : State) : Nat × State :=
  let x := o.sector
  let n := if ok then min retries 6 else 6
  let t := mdWear x (fun w => { w with retries := BitVec.ofNat 3 (max n w.retries.toNat) }) s
  if ok then
    let t := storePage x o.page o.buf t
    if 2 < n then (E.WEAR_WARN, warnSector x t) else (0, t)
  else (E.PROG_FAIL, retireSector x (undefPages x o.page (o.page + 1) t))

/-- The erase of one sector ends after `pulses` pulses. -/
def sectorErased (x pulses : Nat) (ok : Bool) (s : State) : Nat × State :=
  let n := if ok then max 1 (min pulses 16) else 16
  let t := mdWear x (fun w => { w with
    pulses := BitVec.ofNat 5 n, retries := 0,
    erases := if w.erases = BitVec.allOnes 22 then w.erases else w.erases + 1 }) s
  if ok then
    let t := eraseContents x t
    if 8 < n then (E.WEAR_WARN, warnSector x t) else (0, t)
  else (E.ERASE_FAIL, retireSector x (undefSector x t))

/-- Bit of a bank's sector in the operand that names the sectors a bank erase failed on. -/
def sectorBit (x : Nat) : Nat := if x < 128 then x % 32 else 32 + (x - 0x80)

/-- A bank erase ends: every sector of the bank that is not retired; the worst outcome is its code. -/
def bankErased (b pulses : Nat) (ok : Bool) (failing : BitVec 40) (s : State) : Nat × State :=
  ((bankSectors b).filter fun x => !(wearOf x s).retired).foldl (fun a x =>
    let (c, t) := sectorErased x pulses (ok || !failing.getLsbD (sectorBit x)) a.2
    (if a.1 = E.ERASE_FAIL ∨ c = 0 then a.1 else c, t)) (0, s)

/-- The operation of a bank ends: CODE, BUSY, OP_DONE; a suspended erase shows again, and a deferred RESUME
acts. -/
def opDone (b effort : Nat) (ok : Bool) (failing : BitVec 40) (s : State) : State :=
  match (fbank b s).op with
  | none => s
  | some o =>
    let (code, t) :=
      if o.code = Cdf.PROGRAM then programEnd o effort ok s
      else if o.code = Cdf.ERASE_SECTOR then sectorErased o.sector effort ok s
      else if o.code = Cdf.ERASE_BANK then bankErased b effort ok failing s
      else (0, s)
    let t := t |> mdFbank b (fun y => { y with op := none, prefetch := [] }) |> flashCode b code |> irq P.CDF 0
    let y := fbank b t
    match y.suspended with
    | none => t
    | some e => if y.resumeWaits then resumeOp b t else flashShow b e.code e.sector t

/-- A pending suspend is honoured; it reaches SUSPENDED within 20 µs (R306). -/
def execSuspendHonoured (b : Fin 4) (s : State) : Out :=
  .next (mdFbank b.val (fun y => { y with op := y.op.map fun o =>
    if o.pendingSuspend then { o with pendingSuspend := false, suspending := true } else o }) s)

def suspendReached (b : Nat) (s : State) : State :=
  match (fbank b s).op with
  | some o => if o.suspending then mdFbank b (fun y => { y with
        op := none, suspended := some { o with suspending := false } }) s else s
  | none => s
def execSuspendedReached (b : Fin 4) (s : State) : Out := .next (suspendReached b.val s)

/-! ## Reads (R297–R299) -/

/-- The data of the array at a word-aligned offset. -/
def flashWord (off : Nat) (s : State) : Word := flashHw (off + 2) s ++ flashHw off s

/-- READ_ID words (R301): word 0 and word 1 of the bank base. -/
def idWord (b n : Nat) : Word :=
  if n = 0 then W (0x4B96 * 2 ^ 16 + b * 2 ^ 8 + Config.stepping.toNat) else W (32 * 2 ^ 16 + 128)

/-- Nothing runs on the bank, is suspended on it or loads its page buffer. -/
def flashIdle (b : Nat) (s : State) : Bool :=
  let y := fbank b s
  y.op.isNone && y.suspended.isNone && y.load.isNone

/-- Prefetch counters and buffer (R298): the line that follows a miss is fetched while the bank is idle. -/
def prefetch (b line : Nat) (s : State) : State :=
  if !(rd P.CDF R.CDF_PREFETCH_CTL s).getLsbD b then count P.CDF R.CDF_READ_MISSES s
  else if (fbank b s).prefetch.contains line then count P.CDF R.CDF_READ_HITS s
  else
    let t := count P.CDF R.CDF_READ_MISSES s
    if flashIdle b s then mdFbank b (fun y => { y with prefetch := ((line + 1) :: y.prefetch).take 8 }) t else t

/-- An operation is on the place of an offset: its page for a program, its sector for an erase. -/
def opCovers (x page : Nat) (o : FlashOp) : Bool :=
  if o.code = Cdf.PROGRAM then o.sector == x && o.page == page else o.sector == x

/-- A read of page `page` of sector x gives the status word (R299): while the bank is busy, or, while an operation is
suspended on it, where the read is of the sector being erased or of a page being programmed or loaded by another. -/
def readBusy (rq : Requester) (b x page : Nat) (s : State) : Bool :=
  let y := fbank b s
  let loads := y.load.filter fun l => l.rq ≠ rq
  match y.suspended with
  | none => y.op.isSome || loads.isSome
  | some o => opCovers x page o || y.op.any (opCovers x page) || loads.any fun l => l.sector = x && l.page = page

/-- One word read from the array, as it is inside the device. -/
def flashRead (rq : Requester) (off : Nat) (s : State) : TWord × State :=
  match sectorOf off with
  | none => (faultWord E.ABSENT_TARGET 0, s)
  | some x =>
    let b := sectorBank x
    if readBusy rq b x (pageIn x off) s then (tw .stat (bankStat rq b s), s)
    else if (fbank b s).idMode ∧ off / 4 * 4 < flashBase b + 8 ∧ flashBase b ≤ off ∧ x < 128 then
      (tw .data (idWord b ((off - flashBase b) / 4)), s)
    else
      let line := off / 32
      let t := prefetch b line s
      match tget 0 t.flash.badBits line with
      | 0 => (tw .data (flashWord (off / 4 * 4) t), t)
      | 1 => (tw .data (flashWord (off / 4 * 4) t),
              t |> count P.CDF R.CDF_ECC_FIXES |> irq P.CDF 4 |> errTransient P.CDF)
      | _ => (faultWord E.PARITY line, err P.CDF E.PARITY 0 (0x40000000 + off) t)

/-- The bytes of an access of 1 or 2 bytes, in the low bits. -/
def narrow (off size : Nat) (w : TWord) : TWord :=
  if w.tag ≠ .data ∨ 4 ≤ size then w
  else tw .data (W (w.data.toNat / 2 ^ (8 * (off % 4)) % 2 ^ (8 * size)))

/-- The reads that the array accepts (R296): 8, 16 or 32 bits at natural alignment, and 64 bits of the host. -/
def flashReadable (rq : Requester) (off size : Nat) : Bool :=
  size == 1 || (size == 2 && off % 2 == 0) || (size == 4 && off % 4 == 0) ||
    (size == 8 && off % 4 == 0 && rq == .host)

/-- A read of the array: 64 bits as two reads of 32. Another size or alignment gives zero and is recorded as a refused
write is (R174, R296; assumption log 48). -/
def arrayRead (rq : Requester) (off size : Nat) (s : State) : State :=
  if !flashServed s || (rq == .host && !s.dev.sampled) then s
  else match sectorOf off with
    | none => reservedAccess rq (0x40000000 + off) false s
    | some _ =>
      let one (o : Nat) (t : State) : State :=
        let (w, u) := flashRead rq o t
        deliver rq (narrow o size w) u
      if !flashReadable rq off size then deliver rq zeroWord (arrayWriteRefused off s)
      else if size = 8 then one (off + 4) (one off s) else one off s

def execCdfArrayRead (rq : Requester) (off : BitVec 25) (size : Nat) (s : State) : Out :=
  .next (arrayRead rq off.toNat size s)

/-! ## Aborts (R303, R307) -/

/-- The target of an aborted operation: undefined, and programmed or not erased. `power` marks the resets
that can take the even page of a wordline with the odd one. -/
def abortOp (power : Bool) (b : Nat) (o : FlashOp) (s : State) : State :=
  if o.code = Cdf.PROGRAM then
    if power ∧ o.sector < 128 ∧ o.page % 2 = 1 then undefPages o.sector (o.page - 1) (o.page + 1) s
    else undefPages o.sector o.page (o.page + 1) s
  else if o.code = Cdf.ERASE_SECTOR then undefSector o.sector s
  else if o.code = Cdf.ERASE_BANK then
    ((bankSectors b).filter fun x => !(wearOf x s).retired).foldl (fun t x => undefSector x t) s
  else s

/-- Abort everything in progress; the banks that had an operation. -/
def abortFlash (power : Bool) (s : State) : List Nat × State :=
  let hit := [0, 1, 2, 3].filter fun b => (fbank b s).op.isSome || (fbank b s).suspended.isSome
  let t := [0, 1, 2, 3].foldl (fun t b =>
    let y := fbank b s
    let t := match y.op with
      | some o => abortOp power b o t
      | none => t
    match y.suspended with
    | some o => abortOp power b o t
    | none => t) s
  (hit, setFlash { t.flash with banks := [], seq := [] } t)

/-- CDF.PAGE_CTL.SOFT_RST. -/
def cdfReset (s : State) : State :=
  let (hit, t) := abortFlash false s
  let t := clearStatus P.CDF (fun off => off == R.CDF_FW_BANKS) t
  hit.foldl (fun t b => flashCode b E.ABSENT_TARGET t) t

def execCdfSoftReset (rq : Requester) (s : State) : Out := .next (onPage rq P.CDF R.PAGE_CTL cdfReset s)

end Sys2Proof.Machine
end

