-- ==== Sys2Proof/Machine/Sha.lean ====
section
/-! DEFINITION. SHA-256 over a list of words, each word least significant byte first (R253, R275), as
FIPS 180-4 defines it: its constants as fractions of the roots of the first primes, a round on the last four
values of the two chains that it extends. -/
namespace Sys2Proof.Machine

open Sys2Proof

/-- The first 64 primes. -/
def shaPrimes : List Nat :=
  [2, 3, 5, 7, 11, 13, 17, 19, 23, 29, 31, 37, 41, 43, 47, 53, 59, 61, 67, 71, 73, 79, 83, 89, 97, 101, 103, 107] ++
  [109, 113, 127, 131, 137, 139, 149, 151, 157, 163, 167, 173, 179, 181, 191, 193, 197, 199, 211, 223, 227, 229] ++
  [233, 239, 241, 251, 257, 263, 269, 271, 277, 281, 283, 293, 307, 311]

/-- The first 32 bits of the fraction of the root of degree d of n, found from the highest bit down. -/
def rootFraction (d n : Nat) : Word :=
  W ((List.range 37).foldr (fun b r => if (r + 2 ^ b) ^ d ≤ n * 2 ^ (32 * d) then r + 2 ^ b else r) 0)

/-- The hash so far: the last four values of the chain that new sums enter at the front (a to d), newest first,
and of the chain that they enter half way (e to h). -/
structure Digest where
  fore : List Word
  aft : List Word
  deriving DecidableEq, Repr

/-- The hash of nothing: fractions of the square roots of the first eight primes. -/
def shaStart : Digest :=
  ⟨(shaPrimes.take 4).map (rootFraction 2), ((shaPrimes.drop 4).take 4).map (rootFraction 2)⟩

/-- The exclusive or of a word rotated right by each of some distances. -/
def spin (ns : List Nat) (w : Word) : Word := ns.foldl (fun acc n => acc ^^^ w.rotateRight n) 0

/-- The word that enters the schedule as the oldest of its 16 words leaves it. -/
def scheduleNext (win : List Word) : Word :=
  let early := win.getD 1 0
  let late := win.getD 14 0
  win.getD 0 0 + (spin [7, 18] early ^^^ (early >>> 3)) + win.getD 9 0 + (spin [17, 19] late ^^^ (late >>> 10))

/-- Bitwise, the second or the third word as the first word says. -/
def pick (c x y : Word) : Word := y ^^^ (c &&& (x ^^^ y))

/-- Bitwise, the value that two of three words share: where the first two differ it is the third's. -/
def vote (x y z : Word) : Word := pick (x ^^^ y) z x

/-- One round: the constant's prime, and what stands before it: the schedule's 16 words, oldest first, and the two
chains. -/
def shaRound (st : List Word × Digest) (prime : Nat) : List Word × Digest :=
  let win := st.1
  let x := fun n => st.2.fore.getD n 0
  let y := fun n => st.2.aft.getD n 0
  let sum := win.getD 0 0 + rootFraction 3 prime + y 3 + pick (y 0) (y 1) (y 2) + spin [6, 11, 25] (y 0)
  (win.drop 1 ++ [scheduleNext win],
    ⟨(sum + vote (x 0) (x 1) (x 2) + spin [2, 13, 22] (x 0)) :: st.2.fore.take 3, (x 3 + sum) :: st.2.aft.take 3⟩)

/-- Take one block of 16 words into the hash. -/
def shaBlock (h : Digest) (block : List Word) : Digest :=
  let v := (shaPrimes.foldl shaRound (block, h)).2
  ⟨List.zipWith (· + ·) h.fore v.fore, List.zipWith (· + ·) h.aft v.aft⟩

/-- All blocks of a padded message: blocks are counted down by the fuel. -/
def shaBlocks : Nat → Digest → List Word → Digest
  | 0, h, _ => h
  | n + 1, h, ws => shaBlocks n (shaBlock h (ws.take 16)) (ws.drop 16)

/-- The hash of words that end with the padding bit, given the message's length in bits: zeros to the end of the last
block but for its length, the length, and the hash as 8 words, the earlier hash byte the more significant. -/
def shaOf (bits : Nat) (ws : List Word) : List Word :=
  let padded := ws ++ List.replicate ((14 + 15 * ws.length) % 16) 0 ++ [W (bits / 2 ^ 32), W bits]
  let h := shaBlocks (padded.length / 16) shaStart padded
  h.fore ++ h.aft

/-- A word with its bytes reversed: the least significant byte of each word is hashed first. -/
def swapBytes (w : Word) : Word :=
  W (fld 7 0 w * 2 ^ 24 + fld 15 8 w * 2 ^ 16 + fld 23 16 w * 2 ^ 8 + fld 31 24 w)

/-- SHA-256 of words. -/
def sha256 (ws : List Word) : List Word :=
  shaOf (32 * ws.length) (ws.map swapBytes ++ [W 0x80000000])

/-- Words of a byte list, the earlier byte the more significant; a last word that is not full ends in zeros. -/
def beWords : List Nat → List Word
  | [] => []
  | [a] => [W (a * 2 ^ 24)]
  | [a, b] => [W (a * 2 ^ 24 + b * 2 ^ 16)]
  | [a, b, c] => [W (a * 2 ^ 24 + b * 2 ^ 16 + c * 2 ^ 8)]
  | a :: b :: c :: d :: r => W (a * 2 ^ 24 + b * 2 ^ 16 + c * 2 ^ 8 + d) :: beWords r

/-- SHA-256 of a byte string of any length. -/
def sha256Bytes (bs : List Nat) : List Word := shaOf (8 * bs.length) (beWords (bs ++ [0x80]))

/-- Bytes of a word, least significant first. -/
def leBytes (w : Word) : List Nat := [fld 7 0 w, fld 15 8 w, fld 23 16 w, fld 31 24 w]

end Sys2Proof.Machine
end

