-- ==== Sys2Proof/Machine/Pointer.lean ====
section
/-! DEFINITION. The boot pointer record in parameter sectors P0, P1 and P6, and the manifest of a slot record
(R314, R319, R320, R323). -/
namespace Sys2Proof.Machine

open Sys2Proof

/-! ## CRC-32 (IEEE 802.3) over words, each least significant byte first -/

def crcStep (c : Word) : Word := if bit 0 c then (c >>> 1) ^^^ W 0xEDB88320 else c >>> 1

/-- n steps. -/
def crcSteps : Nat → Word → Word
  | 0, c => c
  | n + 1, c => crcSteps n (crcStep c)

def crc32 (ws : List Word) : Word := ~~~(ws.foldl (fun c w => crcSteps 32 (c ^^^ w)) (BitVec.allOnes 32))

/-! ## The record (Table 14.1) -/

def pointerFlags (p : BootPointer) : Word :=
  W (b2n p.activeB + 2 * b2n p.trial + 4 * p.attempts.toNat + 16 * b2n p.settingsB + 32 * b2n p.otherVerified
    + 64 * b2n p.committed + 128 * b2n p.rejected + 256 * p.p6Map.toNat)

/-- Words 0 to 126. -/
def pointerBody (p : BootPointer) : List Word :=
  [W 0x4B505431, p.seq, pointerFlags p, lo32 p.activeManifest, hi32 p.activeManifest, lo32 p.otherManifest,
   hi32 p.otherManifest, lo32 p.commitT, hi32 p.commitT, p.fwVersionA, p.fwVersionB] ++ List.replicate 116 0

def pointerWords (p : BootPointer) : List Word := pointerBody p ++ [crc32 (pointerBody p)]

/-- The record that 128 words hold, if it is a valid copy. -/
def parsePointer (ws : List Word) : Option BootPointer :=
  if ws.getD 0 0 ≠ W 0x4B505431 then none
  else if crc32 (ws.take 127) ≠ ws.getD 127 0 then none
  else
    let f := ws.getD 2 0
    some
      { seq := ws.getD 1 0
        activeB := bit 0 f
        trial := bit 1 f
        attempts := BitVec.ofNat 2 (fld 3 2 f)
        settingsB := bit 4 f
        otherVerified := bit 5 f
        committed := bit 6 f
        rejected := bit 7 f
        p6Map := BitVec.ofNat 8 (fld 15 8 f)
        activeManifest := join64 (ws.getD 3 0) (ws.getD 4 0)
        otherManifest := join64 (ws.getD 5 0) (ws.getD 6 0)
        commitT := join64 (ws.getD 7 0) (ws.getD 8 0)
        fwVersionA := ws.getD 9 0
        fwVersionB := ws.getD 10 0 }

/-- The 128 words of page p of sector x. -/
def pageWords (x p : Nat) (s : State) : List Word :=
  (List.range 128).map fun w => flashWord (sectorBase x + 0x200 * p + 4 * w) s

/-- Every valid copy in P0, P1 and P6, with its sector. -/
def pointerCopies (s : State) : List (Nat × BootPointer) :=
  [0x80, 0x81, 0x86].flatMap fun x => (List.range 16).filterMap fun p =>
    if flashWord (sectorBase x + 0x200 * p) s ≠ W 0x4B505431 then none
    else (parsePointer (pageWords x p s)).map fun r => (x, r)

/-- The copy with the greatest SEQ. -/
def newestCopy (s : State) : Option (Nat × BootPointer) :=
  (pointerCopies s).foldl (fun best e =>
    match best with
    | some b => if b.2.seq < e.2.seq then some e else some b
    | none => some e) none

/-- The ROM reads the boot pointer. -/
def loadPointer (s : State) : State :=
  match newestCopy s with
  | some e => setUpd { s.upd with pointer := e.2, pointerValid := true } s
  | none => setUpd { s.upd with pointer := BootPointer.blank, pointerValid := false } s

/-! ## Writing a copy (R320) -/

/-- The two sectors that alternate: P6 stands for a retired P0 or P1. -/
def pointerSectors (p : BootPointer) : Nat × Nat :=
  (if p.p6Map = 0x80 then 0x86 else 0x80, if p.p6Map = 0x81 then 0x86 else 0x81)

/-- The next unused page of a sector. -/
def unusedPage (x : Nat) (s : State) : Option Nat := (List.range 16).find? fun p => !programmed x p s

def erasing (x : Nat) (s : State) : Bool :=
  let y := fbank (sectorBank x) s
  y.op.any (fun o => o.code == Cdf.ERASE_SECTOR && o.sector == x) ||
    y.suspended.any (fun o => o.code == Cdf.ERASE_SECTOR && o.sector == x)

/-- The sector that the next copy goes to: not the one with the newest copy. -/
def pointerTarget (s : State) : Nat :=
  let (a, b) := pointerSectors s.upd.pointer
  match newestCopy s with
  | some e => if e.1 = a then b else a
  | none => a

/-- A pointer write can begin at once. -/
def pointerReady (s : State) : Bool :=
  let (a, b) := pointerSectors s.upd.pointer
  [a, b].all fun x => !erasing x s && (unusedPage x s).isSome

/-- The halfwords of a page buffer for words. -/
def pageBuf (ws : List Word) : SMap (BitVec 16) :=
  (ws.zipIdx).flatMap fun (e : Word × Nat) => [(2 * e.2, e.1.setWidth 16), (2 * e.2 + 1, (e.1 >>> 16).setWidth 16)]

/-- A full sector is erased in the background once the other one holds the newest copy. -/
def pointerUpkeep (s : State) : State :=
  let (a, b) := pointerSectors s.upd.pointer
  let x := pointerTarget s
  if (x == a || x == b) && (unusedPage x s).isNone && flashIdle 0 s && (newestCopy s).isSome then startOp 0 Cdf.ERASE_SECTOR x 0 [] s
  else s

/-- The sector that P6 stands for: the one recorded, or the lowest of P0 to P5 that is retired (R314). -/
def p6Stands (p : BootPointer) (s : State) : Byte :=
  if p.p6Map ≠ 0xFF then p.p6Map
  else match [0x80, 0x81, 0x82, 0x83, 0x84, 0x85].find? (fun x => (wearOf x s).retired) with
    | some x => BitVec.ofNat 8 x
    | none => 0xFF

/-- Program a copy with the next SEQ into the next unused page: none where the write has to wait. A retired
sector gives way to P6 first (R314). -/
def programPointer (p : BootPointer) (s : State) : Option State :=
  let map := p6Stands p s
  let old := s.upd.pointer
  let q := { p with p6Map := map, seq := old.seq + 1 }
  let s1 := setUpd { s.upd with pointer := { old with p6Map := map } } s
  let x := pointerTarget s1
  match unusedPage x s with
  | none => none
  | some pg =>
    if erasing x s then none
    else
      let t := s |> storePage x pg (pageBuf (pointerWords q)) |> markProgrammed x pg
      some (pointerUpkeep (setUpd { t.upd with pointer := q, pointerValid := true } t))

/-! ## A retired sector among P0 to P5 (R314) -/

/-- The records of sector x, its programmed pages with determined contents, stand in P6. -/
def copyToP6 (x : Nat) (s : State) : State :=
  ((List.range 16).filter fun p => programmed x p s && (tfind s.flash.undef (pageCode x p)).isNone).foldl (fun t p =>
    let buf := (List.range 256).map fun h => (h, flashHw (sectorBase x + 0x200 * p + 2 * h) s)
    t |> storePage 0x86 p buf |> markProgrammed 0x86 p) s

/-- The steward moves the records of a sector among P0 to P5 that has just retired to P6 and records the mapping in the
boot pointer. There is one spare: a second such sector stays where it is (assumption log 126). -/
def relocate (x : Nat) (s : State) : State :=
  if 0x80 ≤ x ∧ x ≤ 0x85 ∧ s.upd.pointerValid ∧ s.upd.pointer.p6Map = 0xFF then
    let t := copyToP6 x s
    (programPointer t.upd.pointer t).getD t
  else s

/-- The sectors of a bank that retired between two states, in order. -/
def newlyRetired (b : Nat) (s t : State) : List Nat :=
  (bankSectors b).filter fun x => (wearOf x t).retired && !(wearOf x s).retired

/-- The end of an operation, and what the steward does about a sector that it retired. -/
def cdfOpDone (b effort : Nat) (ok : Bool) (failing : BitVec 40) (s : State) : State :=
  let t := opDone b effort ok failing s
  (newlyRetired b s t).foldl (fun u x => relocate x u) t

def execCdfOpDone (b : Fin 4) (effort : Nat) (verified : Bool) (failing : BitVec 40) (s : State) : Out :=
  .next (cdfOpDone b.val effort verified failing s)

/-! ## Manifests (R322, R323) -/

/-- The manifest in a slot record or header part: it follows the 8 words of the header. -/
def manifestOf (rec : List Word) : List Word := (rec.drop 8).take (fld 15 0 (rec.getD 4 0))

def manifestId (rec : List Word) : BitVec 64 := join64 (rec.getD 2 0) (rec.getD 3 0)

/-- The part entries, 16 words each. -/
def partsOf (rec : List Word) : List (List Word) :=
  let m := manifestOf rec
  (List.range (min (m.getD 2 0).toNat (m.length / 16))).filterMap fun i =>
    let e := (m.drop (16 + 16 * i)).take 16
    if e.length = 16 then some e else none

def partType (e : List Word) : Nat := fld 31 24 (e.getD 0 0)
def partRole (e : List Word) : Nat := fld 23 16 (e.getD 0 0)
def partVersion (e : List Word) : Word := e.getD 1 0
def partFirst (e : List Word) : Nat := fld 15 0 (e.getD 2 0)
def partChunks (e : List Word) : Nat := fld 15 0 (e.getD 3 0)

/-! ## The slot record (R319, R321) -/

/-- The header words alone. -/
def bundleHeaderGood (ws : List Word) : Bool :=
  ws.getD 0 0 == W 0x465A4231 && fld 31 16 (ws.getD 1 0) == 1 && fld 15 10 (ws.getD 1 0) == 0 &&
    fld 7 1 (ws.getD 1 0) == 0 && fld 31 16 (ws.getD 4 0) == 0 && fld 31 16 (ws.getD 5 0) == 0 &&
    ws.getD 6 0 == 0 && ws.getD 7 0 == 0

/-- Length of header, manifest and signature. -/
def headerLength (ws : List Word) : Nat := 8 + fld 15 0 (ws.getD 4 0) + 24

/-- The words of a slot record before its CRC: the header part, then 7 words of each chunk. -/
def recordSpan (ws : List Word) : Nat := headerLength ws + 7 * fld 15 0 (ws.getD 5 0)

/-- Sector 15 of a firmware slot. -/
def slotSector (b : Bool) : Nat := if b then 79 else 47

/-- The first n words of a sector. -/
def sectorWords (x n : Nat) (s : State) : List Word := (List.range n).map fun w => flashWord (sectorBase x + 4 * w) s

/-- The header part in the slot record of a slot, where its header, magic and CRC are valid. DESIGN CHOICE (assumption log
127): the tag and the IV of a chunk follow each other, and the CRC-32 over all words before it ends the record. -/
def slotRecord (b : Bool) (s : State) : Option (List Word) :=
  let x := slotSector b
  if flashWord (sectorBase x) s ≠ W 0x465A4231 then none
  else
    let n := recordSpan (sectorWords x 8 s)
    if !bundleHeaderGood (sectorWords x 8 s) || 32767 < n then none
    else
      let ws := sectorWords x (n + 1) s
      if crc32 (ws.take n) = ws.getD n 0 then some (ws.take (headerLength ws)) else none

/-- A sector that the steward erases by itself: one that has a programmed page. Its wear record counts the erase; the
pulses that it took are open (R313). -/
def stewardErase (x : Nat) (s : State) : State :=
  if (List.range (sectorPages x)).any (fun p => programmed x p s) then
    drawn (eraseContents x (mdWear x (fun w => { w with
      pulses := BitVec.ofNat 5 ((freeVal s).toNat % 8 + 1)
      retries := 0
      erases := BitVec.ofNat 22 (min (w.erases.toNat + 1) 0x3FFFFF) }) s))
  else s

/-- A slot record is written: header part, the 7 words of each chunk, CRC. -/
def storeRecord (b : Bool) (ws : List Word) (s : State) : State :=
  let x := slotSector b
  let all := ws ++ [crc32 ws]
  (List.range ((all.length + 127) / 128)).foldl (fun t p =>
    t |> storePage x p (pageBuf ((all.drop (128 * p)).take 128)) |> markProgrammed x p) (stewardErase x s)

/-- UPD.ROLE, or in RECOVERY the role given with BUNDLE_BEGIN. -/
def role (s : State) : Nat :=
  if s.dev.mode = .recovery then s.upd.recoveryRole.toNat else rdf P.UPD R.UPD_ROLE 7 0 s

/-- The part of a type for the device's role. -/
def rolePart (ty : Nat) (rec : List Word) (s : State) : Option (List Word) :=
  (partsOf rec).find? fun e => partType e == ty && partRole e == role s

/-- The version that the record of a pair gives for a part type, 0 where there is none. -/
def pairVersion (ty : Nat) (b : Bool) (s : State) : Word :=
  match rolePart ty ((slotRecord b s).getD []) s with
  | some e => partVersion e
  | none => 0

/-- Version of the firmware that runs, and of the other pair's (R320). -/
def fwVersion (b : Bool) (s : State) : Word := if b then s.upd.pointer.fwVersionB else s.upd.pointer.fwVersionA
def fwRunning (s : State) : Word := fwVersion s.upd.running s
def schemaId (s : State) : Word := pairVersion 4 s.upd.running s

/-- FW_BANKS names the bank of the running slot, and in a trial both (R309, R330). -/
def setFwBanks (both : Bool) (s : State) : State :=
  wr P.CDF R.CDF_FW_BANKS (W (if both then 6 else if s.upd.running then 4 else 2)) s

end Sys2Proof.Machine
end

