-- ==== Sys2Proof/Machine/Frames.lean ====
section
/-! DEFINITION. Refusals of configuration frames (R72, R109, R118, R132, R147, R170, R190, R276): what one
frame decides (check 6) and what the complete plane decides (check 9). -/
namespace Sys2Proof.Machine

open Sys2Proof

/-- Words lo to 31 of a frame are zero. -/
def zeroFrom (lo : Nat) (g : Nat → Word) : Bool := (List.range 32).all fun w => w < lo || g w == 0

/-! ## One frame (check 6); `g w` is frame word w -/

/-- STEP1 to STEP3 of word 5 name OUT, IN and XB once each, or are all zero (R276). -/
def stepsGood (w : Word) : Bool :=
  let a := fld 1 0 w
  let b := fld 3 2 w
  let c := fld 5 4 w
  (a == 0 && b == 0 && c == 0) || (a != 0 && b != 0 && c != 0 && a != b && a != c && b != c)

/-- Region frame 0 (Tables 5.7, 11.7); its word 5 is decided with the complete plane (R255, R276). -/
def frame0Bad (g : Nat → Word) : Bool :=
  ((List.range 4).any fun k => bit (8 * k + 3) (g 0) || 4 < fld (8 * k + 2) (8 * k) (g 0)) ||
  ([1, 2, 3, 4].any fun w => (List.range 16).any fun m => fld (2 * m + 1) (2 * m) (g w) == 3) ||
  !zeroFrom 7 g

/-- A source of a long-line driver: reserved bits and output codes. -/
def lineSourceBad (n : Nat) : Bool := 25 < n / 1024 % 32

/-- Long lines, four in a frame (Table 5.7, R118). -/
def lineFrameBad (g : Nat → Word) : Bool :=
  (List.range 4).any fun l =>
    let drv (d : Nat) : Word := g (8 * l + 2 * d)
    let en (d : Nat) : Word := g (8 * l + 2 * d + 1)
    ((List.range 4).any fun d => fld 30 15 (drv d) != 0 || lineSourceBad (fld 14 0 (drv d)) ||
      fld 31 15 (en d) != 0 || lineSourceBad (fld 14 0 (en d))) ||
    2 ≤ ((List.range 4).filter fun d => bit 31 (drv d) && fld 14 10 (en d) == 25).length

/-- Is a binding code allowed for the cell at a position (Table 4.2)? -/
def bindAllowed (row col code : Nat) : Bool :=
  match code with
  | 0 => row != 0
  | 1 => col != 3
  | 2 => row != 3
  | 3 => col != 0
  | 4 => row == 0 || row == 3 || col == 0 || col == 3
  | 5 => row == 0 || row == 3 || col == 0 || col == 3
  | 6 => true
  | _ => false

/-- Bindings of the cell with field word w at cell index k, whether or not it is enabled (R72). -/
def bindsBad (k : Nat) (w : Word) : Bool :=
  let b (i : Nat) : Nat := fld (3 * i + 3) (3 * i + 1) w
  ((List.range 4).any fun i => !bindAllowed (k / 4) (k % 4) (b i)) ||
    (b 0 == b 1 && b 0 != 6) || (b 2 == b 3 && b 2 != 6)

/-- The side of tile port j (0, 1) that both cells of one frame bind, in or out. -/
def sharedPort (w0 w1 : Word) : Bool :=
  let b (w : Word) (i : Nat) : Nat := fld (3 * i + 3) (3 * i + 1) w
  let uses (w : Word) (i j : Nat) : Bool := b w i == 4 + j
  [0, 1].any fun j =>
    ((uses w0 0 j || uses w0 1 j) && (uses w1 0 j || uses w1 1 j)) ||
    ((uses w0 2 j || uses w0 3 j) && (uses w1 2 j || uses w1 3 j))

def cellFrameBad (f : Nat) (g : Nat → Word) : Bool :=
  fld 31 22 (g 12) != 0 || fld 31 22 (g 25) != 0 || !zeroFrom 26 g ||
    bindsBad (2 * f) (g 12) || bindsBad (2 * f + 1) (g 25) || sharedPort (g 12) (g 25)

/-- A slice frame (Table 5.5): slice s of local tile l. -/
def sliceFrameBad (l s : Nat) (g : Nat → Word) : Bool :=
  fld 31 11 (g 16) != 0 || ([17, 18].any fun w => (List.range 8).any fun n => fld (4 * n + 1) (4 * n) (g w) == 3) ||
    fld 7 6 (g 19) != 0 || fld 31 14 (g 19) != 0 || 4 < fld 2 0 (g 19) || 4 < fld 10 8 (g 19) ||
    !zeroFrom 20 g || (fld 10 9 (g 16) == 2 && s % 12 == 0 && l < 4)

/-- Reserved bits of the switch boxes, frames 56 to 85 (Table 5.6). -/
def boxFrameBad (f : Nat) (g : Nat → Word) : Bool :=
  (List.range 32).any fun w => (List.range 32).any fun i =>
    585 ≤ ((f - 56) * 1024 + 32 * w + i) % 640 && bit i (g w)

/-- A MAC slice frame (Table 6.5, R147); `first` marks cascade position 0. -/
def macFrameBad (first : Bool) (g : Nat → Word) : Bool :=
  fld 31 22 (g 0) != 0 || fld 6 5 (g 0) == 3 || fld 19 18 (g 0) == 3 || fld 21 20 (g 0) == 3 ||
    ([1, 2, 3].any fun w => fld 1 0 (g w) == 3 || fld 31 8 (g w) != 0) ||
    fld 31 24 (g 5) != 0 || fld 31 24 (g 6) != 0 || fld 31 7 (g 7) != 0 || !zeroFrom 8 g ||
    (fld 2 1 (g 0) != 3 && fld 1 0 (g (1 + fld 2 1 (g 0))) != 1) ||
    (first && (fld 2 1 (g 0) == 3 || 2 ≤ fld 8 7 (g 0)))

/-- A bank frame (Table 8.5). -/
def bankFrameBad (l : Nat) (g : Nat → Word) : Bool :=
  fld 31 3 (g 0) != 0 || !zeroFrom 1 g || (l % 2 == 1 && bit 1 (g 0))

/-- The uplink frame (Table 7.8, R170). -/
def uplinkFrameBad (g : Nat → Word) : Bool :=
  ((List.range 8).any fun u => fld 15 7 (g u) != 0 || (!bit 0 (g u) && fld 31 16 (g u) != 0)) || !zeroFrom 8 g

/-- Check 6: frame index f with words g is refused on its own content. -/
def frameBad (f : Nat) (g : Nat → Word) : Bool :=
  if f = 0 then frame0Bad g
  else if f ≤ 16 then lineFrameBad g
  else if f ≤ 24 then
    if f % 2 = 1 then fld 31 4 (g 0) != 0 || !zeroFrom 8 g else fld 31 4 (g 0) != 0 || !zeroFrom 2 g
  else if f = 25 then uplinkFrameBad g
  else if f = 26 then (List.range 32).any fun j => fld 31 4 (g j) != 0
  else if f < 64 then !zeroFrom 0 g
  else
    let l := (f - 64) / 92
    let k := (f - 64) % 92
    if k < 8 then cellFrameBad k g
    else if k < 56 then sliceFrameBad l (k - 8) g
    else if k < 86 then boxFrameBad k g
    else if k = 88 then macFrameBad (l == 0) g
    else if k = 89 then macFrameBad false g
    else if k = 90 then bankFrameBad l g
    else !zeroFrom 0 g

/-! ## The complete plane (check 9); `g f w` is word w of frame f -/

def tileFrameIdx (l f : Nat) : Nat := 64 + l * 92 + f

/-- Field word of cell k (0 to 15) of local tile l. -/
def planeCell (g : Nat → Nat → Word) (l k : Nat) : Word := g (tileFrameIdx l (k / 2)) (k % 2 * 13 + 12)

/-- Cells of a local tile that bind a port of the given kind (inputs i = 0, 1; outputs i = 2, 3) to a code. -/
def boundCells (g : Nat → Nat → Word) (l lo code : Nat) : List Nat :=
  (List.range 16).filter fun k =>
    let w := planeCell g l k
    fld (3 * lo + 3) (3 * lo + 1) w == code || fld (3 * lo + 6) (3 * lo + 4) w == code

def tpEn (g : Nat → Nat → Word) (j : Nat) : Bool := bit 0 (g 26 j)
def upEn (g : Nat → Nat → Word) (u : Nat) : Bool := bit 0 (g 25 u)

/-- A driver source of line n lies outside the line's tiles (R115, R118). -/
def sourceOutside (n src : Nat) : Bool :=
  let l := src % 1024 / 48
  src / 1024 < 24 && (16 ≤ l || (if n < 32 then l / 4 != n / 8 else l % 4 != (n - 32) / 8))

/-- An entry of a cell that uses the bank (R190). -/
def entryUsesBank (bits : Nat) : Bool :=
  let i := insnOf bits 0
  i.opcode == 0x20 || i.opcode == 0x21 || (usesA i.opcode && i.srcA == 8) || (usesB i.opcode && i.srcB == 8) ||
    (i.opcode < 0x26 && !noResult i.opcode && i.dst == 6)

def planeEntry (g : Nat → Nat → Word) (l k e : Nat) : Nat :=
  let w := k % 2 * 13 + 48 * e / 32
  ((g (tileFrameIdx l (k / 2)) w).toNat + 2 ^ 32 * (g (tileFrameIdx l (k / 2)) (w + 1)).toNat)
    / 2 ^ (48 * e % 32) % 2 ^ 48

/-- The lowest frame of each refusal of check 9. -/
def planeFaults (g : Nat → Nat → Word) : List Nat :=
  let steps := if fld 31 15 (g 0 5) != 0 || !stepsGood (g 0 5) then [0] else []
  let sq := if bit 9 (g 0 5) && !tpEn g (fld 14 10 (g 0 5)) then [0] else []
  let rc := if (List.range 768).any fun i => [0, 1].any fun c =>
      let k := fld (8 * c + 2) (8 * c) (g (tileFrameIdx (i / 48) (8 + i % 48)) 19)
      k != 0 && !bit (8 * (k - 1) + 7) (g 0 0) then [0] else []
  let lines := (List.range 64).filterMap fun n =>
    if (List.range 4).any fun d =>
        let drv := g (1 + n / 4) (8 * (n % 4) + 2 * d)
        bit 31 drv && (sourceOutside n (fld 14 0 drv) ||
          sourceOutside n (fld 14 0 (g (1 + n / 4) (8 * (n % 4) + 2 * d + 1)))) then some (1 + n / 4) else none
  let ups := if (List.range 8).any fun u =>
      upEn g u && !tpEn g (fld 4 1 (g 25 u) * 2 + fld 5 5 (g 25 u)) then [25] else []
  let tps := if (List.range 32).any fun j => tpEn g j && !upEn g (fld 3 1 (g 26 j)) then [25] else []
  let cells := (List.range 32).flatMap fun j =>
    [0, 2].flatMap fun lo =>
      let ks := boundCells g (j / 2) lo (4 + j % 2)
      let closed := if ks ≠ [] ∧ !tpEn g j then [26] else []
      let twice := if 2 ≤ ks.length then [tileFrameIdx (j / 2) (ks.headD 0 / 2)] else []
      closed ++ twice
  let macs := (List.range 16).filterMap fun l =>
    let a := g (tileFrameIdx l 88) 7
    let b := g (tileFrameIdx l 89) 7
    if bit 0 a && bit 0 b && fld 6 1 a == fld 6 1 b then some (tileFrameIdx l 88) else none
  let banks := (List.range 8).filterMap fun h =>
    let e := 2 * h
    if bit 1 (g (tileFrameIdx e 90) 0) && (bit 2 (g (tileFrameIdx (e + 1) 90) 0) ||
        (List.range 16).any fun k => bit 0 (planeCell g (e + 1) k) &&
          (List.range 8).any fun i => entryUsesBank (planeEntry g (e + 1) k i)) then
      some (tileFrameIdx e 90) else none
  steps ++ sq ++ rc ++ lines ++ ups ++ tps ++ cells ++ macs ++ banks

/-- The lowest of them. -/
def planeBad (g : Nat → Nat → Word) : Option Nat :=
  (planeFaults g).foldl (fun a f => match a with
    | none => some f
    | some b => some (min b f)) none

end Sys2Proof.Machine
end

