-- ==== Sys2Proof/Machine/Fox.lean ====
section
/-! DEFINITION. The Fox port and the Configuration Store: image checks, library and device-image loads,
streams, library programming, slot erase, region table (R249–R261, R279). -/
namespace Sys2Proof.Machine

open Sys2Proof

/-! ## Slots, areas and references (R251, R261) -/

def Slot.blank : Slot :=
  { valid := false, busy := false, corrupt := false, retired := false, wearWarn := false, programs := 0 }

/-- Slot k = 8r + n. -/
def slot (k : Nat) (s : State) : Slot := tget Slot.blank s.store.slots k
def mdSlot (k : Nat) (f : Slot → Slot) (s : State) : State :=
  setStore { s.store with slots := tput Slot.blank k (f (slot k s)) s.store.slots } s

/-- The area of the store that a source names for region r: 1 library, 2 and 4 image A, 3 and 5 image B. -/
def areaOf (src slot r : Nat) : Nat :=
  if src = 1 then 128 + 8 * r + slot else if src % 2 = 0 then r else 64 + r
def area (k : Nat) (s : State) : List Word := tget [] s.store.areas k
def setArea (k : Nat) (ws : List Word) (s : State) : State :=
  setStore { s.store with areas := tput [] k ws s.store.areas } s

/-- The area of region r in the boot device image (R251). -/
def bootArea (r : Nat) (s : State) : List Word := area (if s.store.bootB then 64 + r else r) s

/-- SRC and SLOT of a source record. -/
def recSrc (w : Word) : Nat := fld 10 8 w
def recSlot (w : Word) : Nat := fld 2 0 w

/-- The recorded sources of the planes of region r that count as references: the active plane, and the
staging plane while it is valid (R261). -/
def sourcesOf (r : Nat) (s : State) : List Word :=
  let a := rd (P.RGN r) R.RGN_ACTIVE_SRC s
  let t := rd (P.RGN r) R.RGN_STAGE_STAT s
  if bit 31 t then [a, t] else [a]

/-- REF of slot k (R261). -/
def slotRef (k : Nat) (s : State) : Bool :=
  (sourcesOf (k / 8) s).any fun w => recSrc w == 1 && recSlot w == k % 8

/-- REF of the area of region r in image A or B. -/
def imageRef (b : Bool) (r : Nat) (s : State) : Bool :=
  (sourcesOf r s).any fun w => recSrc w == (if b then 3 else 2) || recSrc w == (if b then 5 else 4)

/-- LOCKED: the region belongs to an armed or swapping set (R262). -/
def locked (r : Nat) (s : State) : Bool :=
  match s.fox.armed with
  | some (m, _) => inMask m r
  | none => false

def loading (r : Nat) (s : State) : Bool := (tfind s.fox.loads r).isSome

/-- The regions that a requester class may name (R257). -/
def allowed (rq : Requester) (s : State) : BitVec 64 :=
  match rq with
  | .host => rd64 P.FOX R.FOX_ALLOW_HOST_LO s
  | .steward => BitVec.allOnes 64
  | .fabric => rd64 P.FOX R.FOX_ALLOW_FABRIC_LO s
  | .ring => rd64 P.FOX R.FOX_ALLOW_FABRIC_LO s

/-! ## Image contents (R253, R254) -/

def popCount (m : BitVec 64) : Nat := (maskList m).length

/-- Check 1 on the header words (Table 11.3). -/
def headerGood (ws : List Word) : Bool :=
  let w (n : Nat) : Word := ws.getD n 0
  w 0 == W 0x465A5031 && fld 31 16 (w 1) == 1 && fld 15 10 (w 1) == 0 && fld 7 0 (w 1) == 0 &&
    fld 31 17 (w 4) == 0 && w 5 == 0 && w 21 == 0 && w 22 == 0 && w 23 == 0 &&
    Config.keyFused (fld 9 8 (w 1)) && imageFence ws != 0 && imageCount ws ≤ 1536 * popCount (imageFence ws)

/-- The plaintext of the record words that are here: word n of the key stream decrypts record word n. -/
def plainWords (ws : List Word) : List Word :=
  let hdr := ws.take headerWords
  ((ws.drop headerWords).take (recordWords * imageCount ws)).mapIdx fun n c => c ^^^ Config.keystream hdr n

/-- The complete records of a plaintext. -/
def recordsOf (plain : List Word) : List (List Word) :=
  (List.range (plain.length / recordWords)).map fun i => (plain.drop (recordWords * i)).take recordWords

/-- Checks 4 and 5 of a record, and check 6 where `six` holds: the code of the first that fails. -/
def recordFault (six : Bool) (fence : BitVec 64) (prev : Option Nat) (rec : List Word) : Option Nat :=
  let a := (rec.headD 0).toNat
  if 2 ^ 17 ≤ a ∨ 1536 ≤ a % 2048 ∨ !inMask fence (a / 2048) then some E.FENCE_BREACH
  else if prev.any (fun p => a ≤ p) then some E.PERM_FAULT
  else if six ∧ frameBad (a % 2048) (fun w => rec.getD (w + 1) 0) then some E.DRIVE_CONFLICT
  else none

/-- The first record refused: its code and its address. -/
def recordsFault (six : Bool) (fence : BitVec 64) (prev : Option Nat) (recs : List (List Word)) :
    Option (Nat × Nat) :=
  match recs with
  | [] => none
  | rec :: rest =>
    match recordFault six fence prev rec with
    | some c => some (c, (rec.headD 0).toNat)
    | none => recordsFault six fence (some (rec.headD 0).toNat) rest

/-- Checks 7 and 8 over a whole image. -/
def sealFault (ws : List Word) : Option Nat :=
  let aad := ws.take 17 ++ (ws.drop 21).take 3
  let cipher := (ws.drop headerWords).take (recordWords * imageCount ws)
  if Config.gcmTag aad cipher ≠ (ws.drop 17).take 4 then some E.AUTH_FAIL
  else if sha256 (plainWords ws) ≠ (ws.drop 9).take 8 then some E.DIGEST_MISMATCH
  else none

/-! ## Planes (R249) -/

/-- Write the 32 words of a frame into a plane. -/
def putFrame (addr : Nat) (ws : List Word) (m : SMap Word) : SMap Word :=
  ws.zipIdx.foldl (fun m e => tput 0 (frameKey (addr / 2048) (addr % 2048) e.2) e.1 m) m

def putRecords (recs : List (List Word)) (m : SMap Word) : SMap Word :=
  recs.foldl (fun m rec => putFrame (rec.headD 0).toNat rec.tail m) m

def clearPlaneOf (r : Nat) (m : SMap Word) : SMap Word := tclear (frameKey r 0 0) (frameKey (r + 1) 0 0) m

/-- A plane of region r filled from an area of the boot device image: frames it does not carry are zero. -/
def fillFromBoot (r : Nat) (s : State) (m : SMap Word) : SMap Word :=
  putRecords ((recordsOf (plainWords (bootArea r s))).filter fun rec => (rec.headD 0).toNat / 2048 == r)
    (clearPlaneOf r m)

/-- A plane of region r as an image of a source gives it: a library image is completed from the boot device
image, a device image from zero (assumption log 40). -/
def planeFrom (src r : Nat) (ws : List Word) (s : State) (m : SMap Word) : SMap Word :=
  putRecords (recordsOf (plainWords ws)) (if src = 1 then fillFromBoot r s m else clearPlaneOf r m)

def setStaging (m : SMap Word) (s : State) : State := setPlanes { s.planes with staging := m } s
def setActive (m : SMap Word) (s : State) : State := setPlanes { s.planes with active := m } s

def planeWord (m : SMap Word) (r f w : Nat) : Word := tget 0 m (frameKey r f w)

/-- Check 9 over the planes of the regions rs, lowest first: the address of the lowest frame involved. -/
def planesFault (rs : List Nat) (m : SMap Word) : Option Nat :=
  rs.findSome? fun r => (planeBad (planeWord m r)).map (frameAddr r)

/-! ## Loads from the library and from device images (R252, R255) -/

/-- Check 3 for the regions rs: the code of the lowest region that fails it. -/
def regionFault (rs : List Nat) (s : State) : Option Nat :=
  rs.findSome? fun r =>
    match (rgn r s).power with
    | .retired => some E.RETIRED
    | .off => some E.ABSENT_TARGET
    | .gated => some E.ABSENT_TARGET
    | .on => if loading r s || locked r s then some E.PERM_FAULT else none

/-- Checks 1 to 3 of a load of region r from a source (1 library, 2 image A, 3 image B). -/
def loadHeaderFault (rq : Requester) (src n r : Nat) (s : State) : Option Nat :=
  let k := slot (8 * r + n) s
  let ws := area (areaOf src n r) s
  if src = 1 ∧ k.retired then some E.RETIRED
  else if src = 1 ∧ (!k.valid || k.corrupt || k.busy) then some E.PERM_FAULT
  else if src = 2 ∧ !s.store.aValid then some E.PERM_FAULT
  else if src = 3 ∧ !s.store.bValid then some E.PERM_FAULT
  else if !headerGood ws then some E.PERM_FAULT
  else if !inMask (allowed rq s) r || imageFence ws != maskOf [r] then some E.FENCE_BREACH
  else regionFault [r] s

/-- A load into region r starts: the staging plane becomes invalid (R249). -/
def startLoad (r : Nat) (l : Load) (s : State) : State :=
  s |> invalidateStage r |> (fun t => setFox { t.fox with loads := tins r l t.fox.loads } t)

/-- A write of LOAD_CTL (R258): an SRC other than 1 to 3 is refused under R53. -/
def loadCtl (rq : Requester) (v : Word) (s : State) : State :=
  let src := recSrc v
  let n := fld 2 0 v
  let r := fld 21 16 v
  if src = 0 ∨ 3 < src then permFault P.FOX R.FOX_LOAD_CTL s
  else
    let t := wr P.FOX R.FOX_LOAD_CTL (v &&& W 0x003F0707) s
    if !bit 31 v || !takesWork P.FOX t then t
    else if entering s then loadRefused [r] false E.ENTRY_REFUSED (frameAddr r 0) t
    else match loadHeaderFault rq src n r t with
      | some c => loadRefused [r] false c (frameAddr r 0) t
      | none => startLoad r ⟨src, n, rq⟩ t

def execFoxLoad (rq : Requester) (v : Word) (s : State) : Out :=
  .next (onPage rq P.FOX R.FOX_LOAD_CTL (loadCtl rq v) s)

/-- A staging plane becomes valid with its source (R249, R250). -/
def stageLoaded (src n : Nat) (unref : List Nat) (s : State) (r : Nat) : State :=
  s |> wr (P.RGN r) R.RGN_STAGE_STAT (W (2 ^ 31 + src * 2 ^ 8 + n))
    |> mdRgn r (fun x => { x with stageUnreferenced := unref, scrubCut := x.scrubStaging })
    |> (fun t => setFox { t.fox with loads := tdel r t.fox.loads } t)

/-- LOAD_STAT of a load that completed, and LOAD_DONE. -/
def loadCompleted (r : Nat) (s : State) : State :=
  s |> wr P.FOX R.FOX_LOAD_STAT (W (r * 2 ^ 8)) |> irq P.FOX 0

/-- A library slot whose image fails check 7 or 8 is CORRUPT (R256). -/
def markCorrupt (k : Nat) (s : State) : State :=
  irq P.CSC 3 (mdSlot k (fun x => { x with corrupt := true }) s)

/-- Checks 4 to 9 of a library or device-image load, at its end. -/
def finishLoad (r : Nat) (l : Load) (s : State) : State :=
  let ws := area (areaOf l.src l.slot r) s
  match recordsFault true (maskOf [r]) none (recordsOf (plainWords ws)) with
  | some (c, a) => loadRefused [r] true c a s
  | none => match sealFault ws with
    | some c =>
      let t := loadRefused [r] true c (frameAddr r 0) s
      if l.src = 1 then markCorrupt (8 * r + l.slot) t else t
    | none =>
      let t := setStaging (planeFrom l.src r ws s s.planes.staging) s
      match planesFault [r] t.planes.staging with
      | some a => loadRefused [r] true E.DRIVE_CONFLICT a t
      | none => loadCompleted r (stageLoaded l.src l.slot [] t r)

/-! ## Streams to the staging planes (R252, R258) -/

/-- The frames of region r that a stream carried. -/
def carried (r : Nat) (ws : List Word) : List Nat :=
  ((recordsOf (plainWords ws)).filter fun rec => (rec.headD 0).toNat / 2048 == r).map
    fun rec => (rec.headD 0).toNat % 2048

/-- The end of a streamed load: checks 7 to 9, and every fenced plane valid together. -/
def finishStream (x : Stream) (s : State) : State :=
  let rs := maskList (imageFence x.words)
  let low := rs.headD 0
  match sealFault x.words with
  | some c => streamRefused c (frameAddr low 0) s
  | none => match planesFault rs s.planes.staging with
    | some a => streamRefused E.DRIVE_CONFLICT a s
    | none =>
      let src := if s.store.bootB then 5 else 4
      let t := rs.foldl (fun t r => stageLoaded src 0 (carried r x.words) t r) s
      loadCompleted low (setFox { t.fox with stream := none } t)

/-- The load of region r ends: by its last check, or refused (R255, R256). -/
def loadDone (r : Nat) (s : State) : State :=
  match tfind s.fox.loads r with
  | none => s
  | some l =>
    if l.src < 4 then finishLoad r l s
    else match s.fox.stream with
      | some x => if streamEnded x && x.target.isNone && !x.refused then finishStream x s else s
      | none => s

def execFoxLoadDone (r : RegionId) (s : State) : Out := .next (loadDone r.val s)

def dropped (n : Nat) (s : State) : State := countN P.FOX R.FOX_STREAM_DROPPED n s

/-- The class of a requester that the Fox port goes by: every message to service 0x02 is of the fabric's (R257). -/
def streamClass (rq : Requester) : Requester := if rq = .ring then .fabric else rq

/-- OPEN (R258): refused while a stream is open. -/
def openStream (rq : Requester) (target : Option Nat) (s : State) : State :=
  if s.fox.stream.isSome then permFault P.FOX R.FOX_STREAM_CTL s
  else if entering s then err P.FOX E.ENTRY_REFUSED 0 (P.FOX * 4096 + R.FOX_STREAM_CTL) s
  else setFox { s.fox with
    stream := some { owner := streamClass rq, target := target, words := [], started := false, refused := false } } s

/-- Library programming has ended for slot k (R260): PROG_STAT, PROG_DONE and the slot's flags. -/
def slotEnded (k code : Nat) (s : State) : State :=
  s |> mdSlot k (fun x => { x with busy := false })
    |> wr P.CSC R.CSC_PROG_STAT (W (code * 2 ^ 24 + k / 8 * 2 ^ 8 + k % 8))
    |> irq P.CSC 0

/-- The slot's run has started: VALID falls and the slot is BUSY. -/
def slotStarted (k : Nat) (s : State) : State :=
  s |> mdSlot k (fun x => { x with valid := false, busy := true })
    |> wr P.CSC R.CSC_PROG_STAT (W (2 ^ 16 + k / 8 * 2 ^ 8 + k % 8))

/-- A program of slot k ends without success: its slot is not BUSY, and an erase that it had begun leaves it empty
(R260; assumption log 123). -/
def endProgram (k code : Nat) (s : State) : State :=
  let t := if s.fox.erasing.contains k then
      setFox { s.fox with erasing := s.fox.erasing.filter (· != k) } (setArea (128 + k) [] s) else s
  slotEnded k code t

/-- The open stream is refused, and with it the program of its slot. -/
def refuseStream (code frame : Nat) (s : State) : State :=
  match s.fox.stream with
  | none => s
  | some x =>
    let t := streamRefused code frame s
    match x.target with
    | some k => if x.started then endProgram k code t else t
    | none => t

/-- Checks 1 to 3 of a stream whose header has arrived. -/
def streamHeaderFault (x : Stream) (s : State) : Option Nat :=
  let fence := imageFence x.words
  if !headerGood x.words then some E.PERM_FAULT
  else match x.target with
    | none =>
      if fence &&& ~~~(allowed x.owner s) ≠ 0 then some E.FENCE_BREACH else regionFault (maskList fence) s
    | some k =>
      if !inMask (allowed x.owner s) (k / 8) || fence != maskOf [k / 8] then some E.FENCE_BREACH
      else if (slot k s).retired then some E.RETIRED
      else if (slot k s).busy || slotRef k s then some E.PERM_FAULT
      else none

/-- The erase of slot k begins. -/
def startErase (k : Nat) (s : State) : State := setFox { s.fox with erasing := s.fox.erasing ++ [k] } s

/-- The header is complete: the load, or the erase of the slot, starts. A FRAME_COUNT of 0 ends the stream
with it. -/
def streamHeader (x : Stream) (s : State) : State :=
  let low := (maskList (imageFence x.words)).headD 0
  match streamHeaderFault x s with
  | some c => refuseStream c (frameAddr low 0) s
  | none =>
    let t := setFox { s.fox with stream := some { x with started := true } } s
    match x.target with
    | some k => startErase k (slotStarted k t)
    | none =>
      (maskList (imageFence x.words)).foldl (fun t r =>
        t |> startLoad r ⟨if s.store.bootB then 5 else 4, 0, x.owner⟩
          |> setStaging (fillFromBoot r t t.planes.staging)) t

/-- A record of the stream is complete: checks 4 to 6 (4 and 5 for a library slot), then the frame is written
into its staging plane. -/
def streamRecord (x : Stream) (s : State) : State :=
  let recs := recordsOf (plainWords x.words)
  let last := recs.getLastD []
  let prev := (recs.dropLast.getLast?).map fun r => (r.headD 0).toNat
  match recordFault x.target.isNone (imageFence x.words) prev last with
  | some c => refuseStream c (last.headD 0).toNat s
  | none =>
    if x.target.isNone then setStaging (putRecords [last] s.planes.staging) s else s

/-- A stream whose last word has arrived closes itself: a library program goes on to its end, and a refused
stream goes. -/
def closeEnded (s : State) : State :=
  match s.fox.stream with
  | some x =>
    if !streamEnded x then s
    else if x.refused then setFox { s.fox with stream := none } s
    else match x.target with
      | some k => setFox { s.fox with stream := none, programs := s.fox.programs ++ [(k, x.words)] } s
      | none => s
  | none => s

/-- The Fox port takes an image word out of the buffer: after a refusal it is dropped and counted (R256); a library slot
stores it as received (R260). -/
def takeStreamWord (w : Word) (s : State) : State :=
  match s.fox.stream with
  | none => dropped 1 s
  | some x =>
    let y := { x with words := x.words ++ [w] }
    let t := setFox { s.fox with stream := some y } s
    if x.refused then closeEnded (dropped 1 t)
    else
      let t := match x.target with
        | some k => if x.started then setArea (128 + k) y.words t else t
        | none => t
      if y.words.length = headerWords then closeEnded (streamHeader y t)
      else if headerWords < y.words.length ∧ (y.words.length - headerWords) % recordWords = 0 then
        closeEnded (streamRecord y t)
      else t

/-- The words of a stream wait in the buffer while its slot is erased (R260). -/
def streamWaits (s : State) : Bool :=
  match s.fox.stream with
  | some x => x.target.any fun k => s.fox.erasing.contains k
  | none => false

/-- The Fox port takes words out of the buffer as far as it can; each lets in a write held at the page (R258). `fuel`
bounds the words. -/
def drainStream (fuel : Nat) (s : State) : State :=
  match fuel with
  | 0 => s
  | fuel + 1 =>
    match s.fox.buffer with
    | [] => s
    | w :: rest =>
      if streamWaits s then s
      else drainStream fuel (takeStreamWord w
        (setFox { s.fox with buffer := rest ++ s.fox.heldWrites.take 1, heldWrites := s.fox.heldWrites.drop 1 } s))

/-- Every word that waits. -/
def drainAll (s : State) : State := drainStream (s.fox.buffer.length + s.fox.heldWrites.length) s

/-- The STREAM_DATA buffer is full (R258). -/
def streamFull (s : State) : Bool := 1024 ≤ s.fox.buffer.length

/-- Every word of the image has been written, the waiting ones among them. -/
def streamWritten (x : Stream) (s : State) : Bool :=
  let ws := x.words ++ s.fox.buffer ++ s.fox.heldWrites
  imageLength ws ≤ ws.length

/-- A write of STREAM_DATA (R258): from the opening class only; words past the end are dropped and counted. One that finds
the buffer full is held at the page. -/
def streamWord (rq : Requester) (w : Word) (s : State) : State :=
  match s.fox.stream with
  | none => dropped 1 s
  | some x =>
    if x.owner ≠ streamClass rq ∨ streamWritten x s then dropped 1 s
    else if streamFull s then setFox { s.fox with heldWrites := s.fox.heldWrites ++ [w] } s
    else drainAll (setFox { s.fox with buffer := s.fox.buffer ++ [w] } s)

/-- ABORT, or the idle limit: the stream closes and the load is refused with ABSENT_TARGET (R258). -/
def abortStream (s : State) : State :=
  match s.fox.stream with
  | none => s
  | some x =>
    if streamEnded x then s
    else
      let t := if x.refused then s
        else refuseStream E.ABSENT_TARGET (frameAddr ((maskList (imageFence x.words)).headD 0) 0) s
      dropped t.fox.heldWrites.length (setFox { t.fox with stream := none, buffer := [], heldWrites := [] } t)

/-- A write of STREAM_CTL: ABORT acts on the open stream, OPEN then opens one with the target written. -/
def streamCtl (rq : Requester) (v : Word) (s : State) : State :=
  let t := wr P.FOX R.FOX_STREAM_CTL (v &&& W 0x00013F07) s
  let t := if bit 30 v then abortStream t else t
  if bit 31 v && takesWork P.FOX t then
    openStream rq (if bit 16 v then some (8 * fld 13 8 v + fld 2 0 v) else none) t
  else t

def execStreamOpen (rq : Requester) (v : Word) (s : State) : Out :=
  .next (onPage rq P.FOX R.FOX_STREAM_CTL (streamCtl rq (setBit 31 true (setBit 16 false v))) s)
def execLibraryProgramOpen (rq : Requester) (v : Word) (s : State) : Out :=
  .next (onPage rq P.FOX R.FOX_STREAM_CTL (streamCtl rq (setBit 31 true (setBit 16 true v))) s)
def execStreamData (rq : Requester) (w : Word) (s : State) : Out :=
  .next (onPage rq P.FOX R.FOX_STREAM_DATA (streamWord rq w) s)
def execStreamAbort (rq : Requester) (s : State) : Out :=
  .next (onPage rq P.FOX R.FOX_STREAM_CTL abortStream s)
def execStreamIdleTimeout (s : State) : Out := .next (abortStream s)

/-! ## Library programming and erase (R260, R261, R279) -/

/-- Wear, failure and retirement of a slot: PROG_FAIL and ERASE_FAIL retire it; a wear warning stays for
the life of the device (R261, R313, R314). The code that the run ends with. -/
def slotWear (k : Nat) (fail : Option Nat) (warn : Bool) (s : State) : Nat × State :=
  match fail with
  | some c =>
    (c, s |> mdSlot k (fun x => { x with retired := true }) |> irq P.CSC 2)
  | none =>
    if warn then
      (E.WEAR_WARN, s |> mdSlot k (fun x => { x with wearWarn := true })
        |> count P.CSC R.CSC_WEAR_WARNS |> irq P.CSC 1)
    else (0, s)

/-- The oldest library program ends (R260): stored, checked under 7 and 8, and VALID if both pass. -/
def programDone (progFail warn : Bool) (s : State) : State :=
  match s.fox.programs with
  | [] => s
  | (k, ws) :: rest =>
    if s.fox.erasing.contains k then s
    else
      let t := s |> setFox { s.fox with programs := rest }
                 |> setArea (128 + k) ws
                 |> mdSlot k (fun x => { x with
                      programs := if x.programs = BitVec.allOnes 15 then x.programs else x.programs + 1 })
      let (code, t) := slotWear k (if progFail then some E.PROG_FAIL else none) warn t
      if progFail then slotEnded k code t
      else match sealFault ws with
        | some c => slotEnded k c (loadRefused [k / 8] false c (frameAddr (k / 8) 0) t)
        | none => slotEnded k code (mdSlot k (fun x => { x with valid := true, corrupt := false }) t)

def execLibraryProgramDone (progFail wearWarn : Bool) (s : State) : Out :=
  .next (programDone progFail wearWarn s)

/-- SLOT_ERASE.GO: the slot that SLOT_SEL names; refused while BUSY or REF, and for a retired slot. -/
def slotErase (s : State) : State :=
  let w := rd P.CSC R.CSC_SLOT_SEL s
  let k := 8 * fld 13 8 w + fld 2 0 w
  if !takesWork P.CSC s then s
  else if (slot k s).busy || slotRef k s then permFault P.CSC R.CSC_SLOT_ERASE s
  else if entering s then err P.CSC E.ENTRY_REFUSED 0 (P.CSC * 4096 + R.CSC_SLOT_ERASE) s
  else if (slot k s).retired then err P.CSC E.RETIRED 0 (P.CSC * 4096 + R.CSC_SLOT_ERASE) s
  else s |> slotStarted k |> startErase k

def execSlotErase (rq : Requester) (s : State) : Out :=
  .next (onPage rq P.CSC R.CSC_SLOT_ERASE slotErase s)

/-- Slot k is being programmed: by the open stream, or by a run whose words have all arrived. -/
def programming (k : Nat) (s : State) : Bool :=
  (s.fox.stream.any fun x => x.target == some k && x.started && !x.refused) || s.fox.programs.any fun e => e.1 == k

/-- A program whose erase failed is over, and so is its stream (R260, R261). -/
def eraseFailed (k : Nat) (s : State) : State :=
  let f := s.fox
  slotEnded k E.ERASE_FAIL (setFox { f with
    programs := f.programs.filter fun e => e.1 != k
    stream := f.stream.map fun x => if x.target == some k then { x with refused := true } else x } s)

/-- The oldest erase ends: the slot is empty, and the words of its program that have waited are stored. -/
def eraseDone (eraseFail warn : Bool) (s : State) : State :=
  match s.fox.erasing with
  | [] => s
  | k :: rest =>
    let t := s |> setFox { s.fox with erasing := rest } |> setArea (128 + k) []
               |> mdSlot k (fun x => { x with corrupt := false })
    let (code, t) := slotWear k (if eraseFail then some E.ERASE_FAIL else none) warn t
    if !programming k s then slotEnded k code t
    else drainAll (if eraseFail then eraseFailed k t else t)

def execSlotEraseDone (eraseFail wearWarn : Bool) (s : State) : Out := .next (eraseDone eraseFail wearWarn s)

/-! ## The region table and the staging plane (R249, R257) -/

/-- LOCK.LOCK: the mask registers become read-only (R257). -/
def foxLock (s : State) : State := wr P.FOX R.FOX_LOCK 1 s
def foxLocked (s : State) : Bool := bit 0 (rd P.FOX R.FOX_LOCK s)

def execFoxLock (rq : Requester) (s : State) : Out := .next (onPage rq P.FOX R.FOX_LOCK foxLock s)

/-- STAGE_CTL.INVALIDATE: refused while LOADING or LOCKED, or for a region outside the requester's mask. -/
def stageCtl (rq : Requester) (r : Nat) (s : State) : State :=
  if loading r s || locked r s || !inMask (allowed rq s) r then permFault (P.RGN r) R.RGN_STAGE_CTL s
  else invalidateStage r s

def execStageInvalidate (rq : Requester) (r : RegionId) (s : State) : Out :=
  .next (onPage rq (P.RGN r.val) R.RGN_STAGE_CTL (stageCtl rq r.val) s)

end Sys2Proof.Machine
end

