-- ==== Sys2Proof/Machine/Clocks.lean ====
section
/-! DEFINITION. Performance levels, clock loops, island clocks, region clock lines, the PMBus regulator
(R343–R353). -/
namespace Sys2Proof.Machine

open Sys2Proof

/-! ## Frequencies (R343, R344, R350) -/

/-- Frequency of a loop's reference in kHz (R424). -/
def refKhz (ref1 : Bool) : Nat := if ref1 then 156250 else Config.refclk0Khz

/-- A loop's output frequency in kHz is loopNum ÷ loopDen (R350). -/
def loopNum (w : Word) : Nat := refKhz (bit 30 w) * fld 7 0 w
def loopDen (w : Word) : Nat := fld 11 8 w * fld 19 16 w
def loopEnabled (w : Word) : Bool := bit 31 w

/-- The output of a loop divided by `div` runs above a cap in MHz. -/
def runsAbove (w : Word) (div cap : Nat) : Bool := cap * 1000 * loopDen w * div < loopNum w

/-- Cap of an island at a level (Tables 1.2, 15.1). -/
def levelCap (l : Nat) : Nat := [800, 650, 480, 320].getD l 320
def islandCap (i l : Nat) : Nat := if i = 65 ∨ i = 66 then min 400 (levelCap l) else levelCap l

def clCfg (n : Nat) (s : State) : Word := rd P.CLK (R.CLK_CL_CFG + 8 * n) s
def isl (i : Nat) (s : State) : Word := rd P.CLK (R.CLK_ISL + 4 * i) s
def islByte (w : Word) (l : Nat) : Byte := BitVec.ofNat 8 (fld (8 * l + 7) (8 * l) w)
def loopLocked (n : Nat) (s : State) : Bool := bit 31 (rd P.CLK (R.CLK_CL_STAT + 8 * n) s)

/-- A byte for level l of island i breaks R344, under the loop settings that `cfg` gives. -/
def byteBad (cfg : Nat → Word) (i l : Nat) (b : Byte) : Bool :=
  let d := b.toNat % 8
  let w := cfg (b.toNat / 8 % 8)
  d == 5 || d == 6 || 64 ≤ b.toNat ||
    (d != 7 && (!loopEnabled w || runsAbove w (2 ^ d) (islandCap i l)))

/-- The lowest level at which a register value for island i breaks R344. -/
def islBad (cfg : Nat → Word) (i : Nat) (w : Word) : Option Nat :=
  (List.range 4).find? fun l => byteBad cfg i l (islByte w l)

def currentLevel (s : State) : Nat := rdf P.PMU R.PMU_LEVEL_STAT 1 0 s

/-! ## The clock condition of the Woodpecker's window (R373) -/

/-- The clock condition of an island in RUN: its byte, from a locked loop not in holdover, with no change in
progress. -/
def clockInWindow (i : Nat) (s : State) : Bool :=
  let b := (tget (7 : Byte) s.pwr.now i).toNat
  s.pwr.change.isNone && !s.pwr.switching.contains i && b % 8 < 5 && loopLocked (b / 8 % 8) s &&
    !bit 29 (rd P.CLK (R.CLK_CL_STAT + 8 * (b / 8 % 8)) s)

/-- The island of a block. -/
def bgIsland (cls b : Nat) : Nat :=
  match cls with
  | 0 => b / 16
  | 1 => b / 256
  | _ => 64

/-- Words that wait for the port under a slice go on when it ends. -/
def bgResume (b : BgSlice) (s : State) : State :=
  if b.cls = 2 ∧ b.block < 512 then advanceHolder (.portDown (portId b.block)) s else s

/-- The window or the budget stops the slice in progress: a bank slice goes to its restore phase, and any
other ends INCOMPLETE (R373, R374, R379). -/
def bgCut (s : State) : State :=
  match s.wpk.bg with
  | some b =>
    if b.cls = 0 then
      let p : BgPhase := match b.phase with
        | .evacuate => .restore | .test => .restore | .restore => .restore | .returned => .returned
      setWpk { s.wpk with bg := some { b with phase := p, cut := true } } s
    else s |> sliceCounted b 3 |> sliceOver |> bgResume b
  | none => s

/-- A level change, a change of an island's byte or a lost reference takes the block of a slice outside the window: the
slice stops at once (R373). -/
def outOfWindow (s : State) : State :=
  match s.wpk.bg with
  | some b => if clockInWindow (bgIsland b.cls b.block) s then s else bgCut s
  | none => s

/-! ## Records of a refusal (R344, R345, R350, R353) -/

/-- CLK records LEVEL_REFUSED, with the address of a refused register write. -/
def clkRefused (rcline loop : Bool) (index level addr : Nat) (s : State) : State :=
  s |> wr P.CLK R.CLK_REFUSED_LAST
        (W (E.LEVEL_REFUSED * 2 ^ 24 + b2n rcline * 2 ^ 17 + b2n loop * 2 ^ 16 + index * 2 ^ 8 + level))
    |> err P.CLK E.LEVEL_REFUSED 0 addr |> irq P.CLK 1

/-! ## Region clock lines (R345) -/

/-- Byte k of word 0 of frame 0: an enabled line with its tree and divisor (Table 5.7). -/
def rcByte (r k : Nat) (s : State) : Nat := fld (8 * k + 7) (8 * k) (frameWord r 0 0 s)
def rcEnabled (r k : Nat) (s : State) : Bool := 128 ≤ rcByte r k s
def rcTree (r k : Nat) (s : State) : Nat := rcByte r k s / 16 % 8
def rcDiv (r k : Nat) (s : State) : Nat := 2 ^ (rcByte r k s % 8)

/-- An enabled line runs above the cap of level l. -/
def rcAbove (r k l : Nat) (s : State) : Bool :=
  rcEnabled r k s && loopEnabled (clCfg (rcTree r k s) s) &&
    runsAbove (clCfg (rcTree r k s) s) (rcDiv r k s) (islandCap r l)

def setRcStopped (r k : Nat) (b : Bool) (s : State) : State :=
  let m : BitVec 4 := 1#4 <<< k
  mdRgn r (fun x => { x with rcStopped := if b then x.rcStopped ||| m else x.rcStopped &&& ~~~m }) s

/-- A plane of region r has become active: lines that the present cap or a disabled loop forbids stay
stopped. -/
def rcCheck (r : Nat) (s : State) : State :=
  (List.range 4).foldl (fun t k =>
    if rcEnabled r k t && (rcAbove r k (currentLevel t) t || !loopEnabled (clCfg (rcTree r k t) t)) then
      t |> setRcStopped r k true |> clkRefused true false r (currentLevel t) 0
    else setRcStopped r k false t) s

/-- Stopped lines that the present cap and their loop now admit start. -/
def rcStart (s : State) : State :=
  (List.range 64).foldl (fun t r =>
    if (rgn r t).rcStopped = 0 then t
    else (List.range 4).foldl (fun t k =>
      if (rgn r t).rcStopped.getLsbD k && !rcAbove r k (currentLevel t) t && loopLocked (rcTree r k t) t then
        setRcStopped r k false t
      else t) t) s

/-! ## PMBus (R349) -/

/-- A write to the regulator at PMBUS_CFG.ADDR. -/
def pmbusSend (code : Nat) (data : Word) (s : State) : State :=
  setIo { s.io with pmbus := s.io.pmbus ++ [(rdf P.PMU R.PMU_PMBUS_CFG 6 0 s, code, data)] } s

/-- VOUT_COMMAND of a level, written to the regulator. -/
def voutWord (l : Nat) (s : State) : Word := rd P.PMU (R.PMU_VOUT + 4 * l) s
def voutSend (l : Nat) (s : State) : State := pmbusSend 0x21 (voutWord l s) s

/-- VOUTn = round(V × 2^(−exponent)), V in units of 10 mV (Table 15.1, R349); the exponent is two's
complement in 5 bits. -/
def voutOf (exponent : BitVec 5) (l : Nat) : Word :=
  let v := [90, 85, 78, 72].getD l 72
  let e := exponent.toInt
  W (if 0 ≤ e then (v + 50 * 2 ^ e.toNat) / (100 * 2 ^ e.toNat) else (v * 2 ^ (-e).toNat * 2 + 100) / 200)

/-- VOUT_MODE has been read: VOUT_EXP and VOUT0 to VOUT3. -/
def setVouts (exponent : BitVec 5) (s : State) : State :=
  (List.range 4).foldl (fun t l => wr P.PMU (R.PMU_VOUT + 4 * l) (voutOf exponent l) t)
    (wrf P.PMU R.PMU_PMBUS_CFG 20 16 exponent.toNat s)

/-- ALERT_N falls (R349). -/
def pmbusAlert (status : BitVec 16) (s : State) : State :=
  if s.dev.mode = .off then s
  else s |> wr P.PMU R.PMU_PMBUS_ALERT (W status.toNat) |> irq P.PMU 4

def execPmbusAlert (status : BitVec 16) (s : State) : Out := .next (pmbusAlert status s)

/-! ## Island clocks (R344, R348) -/

/-- A write of ISLi is applied or refused as a whole. -/
def islApply (i : Nat) (v : Word) (s : State) : State :=
  let off := R.CLK_ISL + 4 * i
  let addr := P.CLK * 4096 + off
  if s.pwr.change.isSome then clkRefused false false i (currentLevel s) addr s
  else match islBad (fun n => clCfg n s) i v with
    | some l => clkRefused false false i l addr s
    | none =>
      let t := wr P.CLK off v s
      if islByte v (currentLevel s) = tget (7 : Byte) s.pwr.now i then
        setPwr { t.pwr with switching := t.pwr.switching.filter (· != i) } t
      else setPwr { t.pwr with switching := t.pwr.switching.filter (· != i) ++ [i] } t

/-- A write of ISLi, and what the slice in progress makes of it (R373). -/
def islWrite (i : Nat) (v : Word) (s : State) : State := outOfWindow (islApply i v s)

def execIslWrite (rq : Requester) (i : Fin 79) (v : Word) (s : State) : Out :=
  .next (onPage rq P.CLK (R.CLK_ISL + 4 * i.val) (islWrite i.val v) s)

/-- Island i runs on a clock byte from now on. -/
def setNow (i : Nat) (b : Byte) (s : State) : State :=
  setPwr { s.pwr with now := tput (7 : Byte) i b s.pwr.now } s

/-- Every island takes its byte of the present level. -/
def takeAll (s : State) : State :=
  irqRise s ((List.range 79).foldl (fun t i => setNow i (islByte (isl i t) (currentLevel t)) t)
    (setPwr { s.pwr with switching := [] } s))

/-! ## Level changes (R346, R347) -/

def setChange (c : Option LvlChange) (s : State) : State := setPwr { s.pwr with change := c } s

/-- BUSY falls and LEVEL_DONE sets. -/
def levelDone (s : State) : State := s |> setChange none |> wrf P.PMU R.PMU_LEVEL_STAT 8 8 0 |> irq P.PMU 0

/-- Every island has its new byte: CURRENT is the target, and the change goes on or ends. -/
def islandsMoved (c : LvlChange) (s : State) : State :=
  let t := s |> wrf P.PMU R.PMU_LEVEL_STAT 1 0 c.target |> rcStart
  if c.slower then t |> voutSend c.target |> setChange (some { c with step := .ack, left := [] })
  else levelDone t

/-- The step at which the islands take their bytes of the target begins. -/
def moveIslands (c : LvlChange) (s : State) : State :=
  let left := (List.range 79).filter fun i => islByte (isl i s) c.target != tget (7 : Byte) s.pwr.now i
  let t := setPwr { s.pwr with switching := [] } s
  if left = [] then islandsMoved c t else setChange (some { c with step := .islands, left := left }) t

/-- A refused change, or one that a timeout ends. -/
def levelRefused (addr : Nat) (s : State) : State :=
  s |> wrf P.PMU R.PMU_LEVEL_STAT 31 24 E.LEVEL_REFUSED |> count P.PMU R.PMU_LEVEL_REFUSALS
    |> err P.PMU E.LEVEL_REFUSED 0 addr |> irq P.PMU 1

/-- R346 refuses a change to a level. -/
def levelForbidden (target : Nat) (s : State) : Bool :=
  s.dev.mode != .run || s.pwr.change.isSome || entering s || s.fox.drainAt.isSome ||
    (match s.fox.armed with
      | some (m, _) => (maskList m).any fun r => (islByte (isl r s) target).toNat % 8 == 7
      | none => false) ||
    (List.range 64).any fun r => regionOn r s && (List.range 4).any fun k => rcAbove r k target s

/-- A write of LEVEL_REQ (R346). TARGET shows the level of the change in force: a refused request leaves it
(assumption log 51). -/
def levelChange (target : Nat) (s : State) : State :=
  if levelForbidden target s then levelRefused (P.PMU * 4096 + R.PMU_LEVEL_REQ) s
  else
    let cur := currentLevel s
    let t := s |> wrf P.PMU R.PMU_LEVEL_STAT 5 4 target |> wrf P.PMU R.PMU_LEVEL_STAT 31 24 0
    if target = cur then irq P.PMU 0 t
    else
      let t := wrf P.PMU R.PMU_LEVEL_STAT 8 8 1 t
      let c : LvlChange := { target := target, source := cur, slower := cur < target, step := .ack, left := [] }
      if cur < target then moveIslands c t else t |> voutSend target |> setChange (some c)

/-- A write of LEVEL_REQ, and what the slice in progress makes of it (R373). -/
def levelReq (target : Nat) (s : State) : State := outOfWindow (levelChange target s)

def execLevelReq (rq : Requester) (level : Fin 4) (s : State) : Out :=
  .next (onPage rq P.PMU R.PMU_LEVEL_REQ (levelReq level.val) s)

/-- An alignment pulse of island i's tree: the island takes the byte it waits for (R347, R348). -/
def islandSwitch (i : Nat) (s : State) : State :=
  let late (t : State) : State :=
    if t.pwr.switching.contains i then
      setNow i (islByte (isl i t) (currentLevel t))
        (setPwr { t.pwr with switching := t.pwr.switching.filter (· != i) } t)
    else t
  match s.pwr.change with
  | some c =>
    if c.step = .islands ∧ c.left.contains i then
      let t := setNow i (islByte (isl i s) c.target) s
      let left := c.left.filter (· != i)
      if left = [] then islandsMoved c t else setChange (some { c with left := left }) t
    else late s
  | none => late s

def execIslandSwitch (i : Fin 79) (s : State) : Out := .next (irqRise s (islandSwitch i.val s))

/-- The regulator acknowledges VOUT_COMMAND. -/
def levelAck (s : State) : State :=
  match s.pwr.change with
  | some c => if c.step = .ack then setChange (some { c with step := .powerGood }) s else s
  | none => s

def execPmbusAck (s : State) : Out := .next (levelAck s)

/-- STATUS_WORD shows power-good. -/
def levelGood (s : State) : State :=
  match s.pwr.change with
  | some c =>
    if c.step = .powerGood then
      setChange (some { c with step := .settle }) (wrf P.PMU R.PMU_LEVEL_STAT 9 9 1 s)
    else s
  | none => s

def execPowerGood (s : State) : Out := .next (levelGood s)

/-- SETTLE has elapsed. -/
def levelSettled (s : State) : State :=
  match s.pwr.change with
  | some c => if c.step = .settle then (if c.slower then levelDone s else moveIslands c s) else s
  | none => s

def execSettleElapsed (s : State) : Out := .next (levelSettled s)

/-- Power-good is not seen within PG_TIMEOUT (R347). -/
def levelTimeout (s : State) : State :=
  match s.pwr.change with
  | some c =>
    if c.step = .powerGood then
      let t := s |> setChange none |> wrf P.PMU R.PMU_LEVEL_STAT 9 8 0 |> levelRefused 0
      if c.slower then t else voutSend c.source t
    else s
  | none => s

def execPgTimeout (s : State) : Out := .next (levelTimeout s)

/-! ## Clock loops (R350–R352) -/

/-- Settings that an enabled loop may have: field ranges of Table 15.12. -/
def loopFieldsGood (w : Word) : Bool := 16 ≤ fld 7 0 w && 1 ≤ fld 11 8 w && 2 ≤ fld 19 16 w

/-- Both limits of R350. -/
def loopLimitsGood (w : Word) : Bool :=
  let vco := loopNum w
  2400000 * fld 11 8 w ≤ vco && vco ≤ 4800000 * fld 11 8 w &&
    10000 * loopDen w ≤ vco && vco ≤ 800000 * loopDen w

/-- An ISL byte that is not STOP, or an enabled region clock line, names tree n. -/
def treeNamed (n : Nat) (s : State) : Bool :=
  ((List.range 79).any fun i => (List.range 4).any fun l =>
    let b := (islByte (isl i s) l).toNat
    b % 8 != 7 && b / 8 % 8 == n) ||
  (List.range 64).any fun r => regionOn r s && (List.range 4).any fun k => rcEnabled r k s && rcTree r k s == n

/-- An island or level that loop settings w for tree n would put above its cap. -/
def treeAbove (n : Nat) (w : Word) (s : State) : Option (Nat × Nat) :=
  (List.range 79).findSome? fun i => (List.range 4).findSome? fun l =>
    let b := (islByte (isl i s) l).toNat
    if b % 8 < 5 ∧ b / 8 % 8 = n ∧ loopEnabled w ∧ runsAbove w (2 ^ (b % 8)) (islandCap i l) then some (i, l)
    else none

/-- A write of CLn_CFG. -/
def clCfgWrite (n : Nat) (v : Word) (s : State) : State :=
  let off := R.CLK_CL_CFG + 8 * n
  let addr := P.CLK * 4096 + off
  let w := v &&& W 0xC00F0FFF
  let refuse (l : Nat) (t : State) : State := clkRefused false true n l addr t
  if s.pwr.change.isSome then refuse (currentLevel s) s
  else if loopEnabled w ∧ !loopFieldsGood w then permFault P.CLK off s
  else if loopEnabled w ∧ !loopLimitsGood w then refuse (currentLevel s) s
  else if loopEnabled (clCfg n s) ∧ treeNamed n s then refuse (currentLevel s) s
  else match treeAbove n w s with
    | some (_, l) => refuse l s
    | none => s |> wr P.CLK off w |> wr P.CLK (R.CLK_CL_STAT + 8 * n)
        (rd P.CLK (R.CLK_CL_STAT + 8 * n) s &&& W 0x40000000)

def execClCfgWrite (rq : Requester) (n : Fin 8) (v : Word) (s : State) : Out :=
  .next (onPage rq P.CLK (R.CLK_CL_CFG + 8 * n.val) (clCfgWrite n.val v) s)

/-- Loop n has locked: LOCKED and MHZ. -/
def lockLoop (n : Nat) (s : State) : State :=
  let w := clCfg n s
  if loopEnabled w then
    md P.CLK (R.CLK_CL_STAT + 8 * n)
      (fun x => W (2 ^ 31 + b2n (bit 30 x) * 2 ^ 30 + loopNum w / (1000 * loopDen w) % 1024)) s
  else s

/-- The loops run: supplies valid, and the clock island's service side powered. -/
def loopsPowered (s : State) : Bool :=
  match s.dev.mode with
  | .off | .sleep | .bear | .scan => false
  | _ => true

/-- A clock loop locks; number 8 is the steward loop (R350–R352). -/
def loopLock (n : Nat) (s : State) : State :=
  if !loopsPowered s then s
  else if n = 8 then wrf P.CLK R.CLK_STEWARD_CLK 1 1 1 s
  else if loopLocked n s then s
  else rcStart (lockLoop n s)

def execLoopLock (n : Fin 9) (s : State) : Out := .next (loopLock n.val s)

/-- A locked loop loses its reference and enters holdover (R351). -/
def lossOfReference (n : Nat) (s : State) : State :=
  if !loopsPowered s || !loopLocked n s then s
  else s |> md P.CLK (R.CLK_CL_STAT + 8 * n) (fun x => setFld 31 29 3 x) |> irq P.CLK 0

def execLossOfReference (n : Fin 8) (s : State) : Out := .next (outOfWindow (lossOfReference n.val s))

/-- A write of STEWARD_CLK.SRC (R352). The spec gives the steward loop no index, so that the INDEX recorded with LOOP = 1
is a free value among CL0 to CL7 (R3, assumption log 54). -/
def stewardClkWrite (src : Bool) (s : State) : State :=
  if src && !bit 1 (rd P.CLK R.CLK_STEWARD_CLK s) then
    clkRefused false true ((freeVal s).toNat % 8) (currentLevel s) (P.CLK * 4096 + R.CLK_STEWARD_CLK) (drawn s)
  else wrf P.CLK R.CLK_STEWARD_CLK 0 0 (b2n src) s

def execStewardClkWrite (rq : Requester) (src : Bool) (s : State) : Out :=
  .next (onPage rq P.CLK R.CLK_STEWARD_CLK (stewardClkWrite src) s)

/-! ## The clock record (R353) -/

/-- Load the clock record of the boot device image: true where an island other than a region breaks R344. -/
def loadClockRecord (s : State) : Bool × State :=
  let rec_ := tget [] s.store.clkRec (if s.store.bootB then 1 else 0)
  let t := (List.range 8).foldl (fun t n => wr P.CLK (R.CLK_CL_CFG + 8 * n) (rec_.getD n 0 &&& W 0xC00F0FFF) t) s
  let cfg (n : Nat) : Word := clCfg n t
  (List.range 79).foldl (fun (bad, t) i =>
    let w := rec_.getD (8 + i) (W 0x07070707)
    match islBad cfg i w with
    | none => (bad, wr P.CLK (R.CLK_ISL + 4 * i) w t)
    | some l =>
      let t := clkRefused false false i l 0 t
      if i < 64 then
        (bad, t |> wr P.CLK (R.CLK_ISL + 4 * i) (W 0x07070707) |> err (P.RGN i) E.LEVEL_REFUSED 0 0)
      else (true, wr P.CLK (R.CLK_ISL + 4 * i) w t)) (false, t)

/-- Every enabled loop has locked. -/
def lockAll (s : State) : State := (List.range 8).foldl (fun t n => lockLoop n t) s

end Sys2Proof.Machine
end

