-- ==== Sys2Proof/Machine/Swap.lean ====
section
/-! DEFINITION. The swap: arming, drain, go, release steps, aborts; the Squirrel buffer; region reset; the
scrub and the region digest (R262–R276, R436, R56, R125). -/
namespace Sys2Proof.Machine

open Sys2Proof

/-! ## Arming (R262) -/

def swapState (n r : Nat) (s : State) : State := wrf (P.RGN r) R.RGN_SWAP_STATE 2 0 n s
def armCode (c : Nat) (s : State) : State := wrf P.FOX R.FOX_ARM_CTL 31 24 c s

/-- Conditions 3 to 5 over a mask: the code of the first that fails, and the lowest region that fails any
of them. -/
def setFault (m : BitVec 64) (s : State) : Option (Nat × Nat) :=
  let rs := maskList m
  let isOff (r : Nat) : Bool := (rgn r s).power == .off || (rgn r s).power == .gated
  let c3 := rs.filter fun r => (rgn r s).power == .retired
  let c4 := rs.filter isOff
  let c5 := rs.filter fun r => !stageValid r s || loading r s
  let low := (rs.find? fun r => c3.contains r || c4.contains r || c5.contains r).getD 0
  if c3 ≠ [] then some (E.RETIRED, low)
  else if c4 ≠ [] then some (E.ABSENT_TARGET, low)
  else if c5 ≠ [] then some (E.PERM_FAULT, low)
  else none

/-- The code of the first condition of R262 that fails, in its order; before them the update hold (R329). -/
def armFault (rq : Requester) (m : BitVec 64) (at_ : Option (BitVec 64)) (s : State) : Option Nat :=
  if entering s then some E.ENTRY_REFUSED
  else if rq ≠ .steward ∧ bit 11 (rd P.UPD R.UPD_STAT s) = true then some E.PERM_FAULT
  else if s.fox.armed.isSome then some E.PERM_FAULT
  else if m = 0 ∨ m &&& ~~~(allowed rq s) ≠ 0 then some E.PERM_FAULT
  else match setFault m s with
    | some (c, _) => some c
    | none => if at_.any (fun a => a ≤ ringTime s) then some E.PERM_FAULT else none

/-- ARM (with ARM_AT) or NOW (at the present ring time). -/
def armSet (rq : Requester) (now : Bool) (s : State) : State :=
  let m := rd64 P.FOX R.FOX_ARM_MASK_LO s
  let at_ := rd64 P.FOX R.FOX_ARM_AT_LO s
  if !takesWork P.FOX s then s
  else match armFault rq m (if now then none else some at_) s with
  | some c => armCode c s
  | none =>
    let t := (maskList m).foldl (fun t r => swapState 1 r t) (armCode 0 s)
    setFox { t.fox with armed := some (m, if now then ringTime s else at_), drainAt := none, gone := false,
                        drainedSet := 0, swappedSet := 0 } t

/-- The set is no longer armed. -/
def disarmSet (s : State) : State :=
  setFox { s.fox with armed := none, drainAt := none, gone := false, drainedSet := 0, swappedSet := 0 } s

/-- DISARM: an armed set whose drain has not started. -/
def disarmCmd (s : State) : State :=
  match s.fox.armed with
  | none => s
  | some (m, _) =>
    if s.fox.drainAt.isSome then armCode E.PERM_FAULT s
    else disarmSet ((maskList m).foldl (fun t r => swapState 0 r t) (armCode 0 s))

def execArmCtlArm (rq : Requester) (s : State) : Out :=
  .next (onPage rq P.FOX R.FOX_ARM_CTL (armSet rq false) s)
def execNow (rq : Requester) (s : State) : Out :=
  .next (onPage rq P.FOX R.FOX_ARM_CTL (armSet rq true) s)
def execDisarm (rq : Requester) (s : State) : Out :=
  .next (onPage rq P.FOX R.FOX_ARM_CTL disarmCmd s)

/-! ## Borders (R267, R269) -/

def neighbourSides (r : Nat) : List Nat := (List.range 4).filter fun d => (regionNext r (sideDir d)).isSome
def pinSidesOf (r : Nat) : List Nat := (List.range 4).filter fun d => (regionNext r (sideDir d)).isNone

/-- Both directions of a side enter the hold. -/
def holdSide (r side : Nat) (s : State) : State :=
  s |> startHold r side |> mdRgn r (fun x => { x with inHeld := x.inHeld ||| (1#4 <<< side) })

/-- The item of release step k (0 to 2) of region r's active plane: 1 OUT, 2 IN, 3 XB; three zeros select
IN, OUT, XB (R276). -/
def stepItem (r k : Nat) (s : State) : Nat :=
  let w := frameWord r 0 5 s
  if fld 5 0 w = 0 then (match k with | 0 => 2 | 1 => 1 | _ => 3)
  else fld (2 * k + 1) (2 * k) w

/-- Release one item (R269). -/
def releaseItem (r item : Nat) (s : State) : State :=
  match item with
  | 1 => (List.range 4).foldl (fun t d => endHold r d t) s
  | 2 => mdRgn r (fun x => { x with inHeld := 0 }) s
  | _ => mdRgn r (fun x => { x with draining := false, drained := false }) s

def releaseStepOf (r k : Nat) (s : State) : State := releaseItem r (stepItem r k s) s

/-! ## The Squirrel buffer (R272) -/

/-- Words of the Squirrel buffer are discarded and counted. -/
def sqDrop (r n : Nat) (s : State) : State :=
  if n = 0 then s else s |> countN (P.RGN r) R.RGN_SQ_DROPS n |> irq (P.RGN r) 28

/-- The buffer is emptied with its words counted (R265). -/
def sqEmpty (r : Nat) (s : State) : State :=
  sqDrop r (rgn r s).sq.length (mdRgn r (fun x => { x with sq := [] }) s)

/-- A message at the buffer's input is accepted or dropped. -/
def squirrelTake (r : Nat) (s : State) : State :=
  let c := ChanId.squirrel (Fin.ofNat 64 r)
  match sinkMsg c s with
  | none => s
  | some m =>
    let t := dropMsg c s
    if m.status ≠ 0 then t
    else if m.cls ≠ 0x07 ∨ m.payload.length ≠ m.len then malformed m.route t
    else if 512 < (rgn r s).sq.length + m.len then sqDrop r m.len t
    else mdRgn r (fun x => { x with sq := x.sq ++ m.payload }) t

def execHandover (r : RegionId) (s : State) : Out :=
  .next (if s.dev.mode = .run then squirrelTake r.val s else s)

/-- Delivery at release step 1, under the new plane: one HANDOVER message to SQ_PORT, or nothing where
SQ_EN is 0. -/
def squirrelDeliver (r : Nat) (s : State) : State :=
  let w := frameWord r 0 5 s
  let ws := (rgn r s).sq
  if bit 9 w then
    s |> mdRgn r (fun x => { x with sq := [] })
      |> wrf (P.RGN r) R.RGN_SQ_STAT 25 16 ws.length
      |> sendGen none (.tpIn (tpId (32 * r + fld 14 10 w)))
           (message 0x07 0 (W (0xC0000040 + r)) ws 0)
  else s |> sqEmpty r |> wrf (P.RGN r) R.RGN_SQ_STAT 25 16 0

/-! ## Drain (R263, R264) -/

/-- A set aborts: recorded at the Fox port and in each region of the set (R263, R265). -/
def recordAbort (m : BitVec 64) (code low : Nat) (s : State) : State :=
  let t := s |> wr P.FOX R.FOX_SWAP_STAT (W (code * 2 ^ 24 + low * 2 ^ 8))
             |> err P.FOX code 0 0 |> count P.FOX R.FOX_SWAP_SET_ABORTS |> irq P.FOX 3
  let t := (maskList m).foldl (fun t r =>
    t |> wr (P.RGN r) R.RGN_SWAP_STATE (W (code * 2 ^ 24))
      |> count (P.RGN r) R.RGN_SWAP_ABORTS |> irq (P.RGN r) 25) t
  disarmSet t

/-- Close the message open at an input of the region switch whose HEAD has left (R265): the trailer follows
it, and its later words are stray. -/
def closeInput (inp : ChanId) (code : Nat) (s : State) : State :=
  let x := chan inp s
  match x.route with
  | some (.out o) =>
    if x.headSent ∧ (chan o s).holder = some inp then
      s |> send o [trailer code] |> mdChan inp (fun y => { y with route := none }) |> release o
    else s
  | _ => s

/-- What a region of an aborting set does (R265). -/
def abortRegion (r code : Nat) (s : State) : State :=
  let t := (List.range 8).foldl (fun t u => closeInput (.portDown (portId (8 * r + u))) code t) s
  let t := (List.range 32).foldl (fun t j => closeInput (.tpOut (tpId (32 * r + j))) code t) t
  let t := sqEmpty r t
  let t := (List.range 3).foldl (fun t k => releaseStepOf r k t) t
  releaseHold r (mdRgn r (fun x => { x with schReport := false }) t)

/-- Abort of a set, before or during its drain. -/
def abortSet (code low : Nat) (s : State) : State :=
  match s.fox.armed with
  | none => s
  | some (m, _) =>
    let t := if s.fox.drainAt.isSome then (maskList m).foldl (fun t r => abortRegion r code t) s else s
    recordAbort m code low t

/-- Ring time has reached ARM_AT: the set is checked again, then the notices are launched. -/
def drainStart (s : State) : State :=
  match s.fox.armed with
  | none => s
  | some (m, a) =>
    if s.fox.drainAt.isSome ∨ ringTime s < a then s
    else match setFault m s with
      | some (c, low) => abortSet c low s
      | none =>
        setFox { s.fox with drainAt := some (ringTime s) }
          ((maskList m).foldl (fun t r => mdRgn r (fun x => { x with schReport := false, released := 0 }) t) s)

def execSwapDrainStart (s : State) : Out := .next (drainStart s)

/-- The region is in a set whose drain has started. -/
def inDrain (r : Nat) (s : State) : Bool := locked r s && s.fox.drainAt.isSome && !s.fox.gone

/-- The notice is usable at the region: uplinks close, DRAINING rises, neighbour sides hold. -/
def regionNotice (r : Nat) (s : State) : State :=
  if !inDrain r s || (rgn r s).draining || !regionOn r s then s
  else
    (neighbourSides r).foldl (fun t d => holdSide r d t)
      (s |> mdRgn r (fun x => { x with draining := true, drained := false, scrubStaging := false, scrubCut := false }) |> swapState 2 r)

def execRegionDrainNotice (r : RegionId) (s : State) : Out := .next (settleAll (regionNotice r.val s))

/-- No message is open at the switch, and the tile ports are empty (R264). HEADs held at the uplinks are
not open. -/
def switchIdle (r : Nat) (s : State) : Bool :=
  let quiet (c : ChanId) : Bool :=
    let x := chan c s
    x.buffer.isEmpty && x.gathered.isEmpty && x.sendq.isEmpty && x.flight.isEmpty && x.holder.isNone && x.route.isNone
  ((List.range 8).all fun u =>
    let p := portId (8 * r + u)
    (chan (.portUp p) s).holder.isNone && (chan (.portUp p) s).gen.isEmpty &&
      (chan (.portDown p) s).route.isNone) &&
  quiet (.paramUnit (regionId r)) && quiet (.squirrel (regionId r)) &&
  (List.range 32).all fun j => quiet (.tpOut (tpId (32 * r + j))) && quiet (.tpIn (tpId (32 * r + j)))

/-- The region reports itself drained. -/
def regionDrained (r : Nat) (s : State) : State :=
  let x := rgn r s
  if inDrain r s && x.draining && !x.drained && x.schReport && switchIdle r s then
    s |> mdRgn r (fun x => { x with drained := true }) |> swapState 3 r
      |> (fun t => setFox { t.fox with drainedSet := t.fox.drainedSet ||| maskOf [r] } t)
  else s

def execRegionDrained (r : RegionId) (s : State) : Out := .next (regionDrained r.val s)

/-- Every report of the set is usable at the Fox port. -/
def setIsDrained (s : State) : Bool :=
  match s.fox.armed with
  | none => false
  | some (m, _) => s.fox.drainAt.isSome && !s.fox.gone && s.fox.drainedSet == m &&
      (maskList m).all fun r => s.sched.reported.contains r

/-- The go notice is launched. DRAIN_LAST counts service cycles, which the model does not have: a free
value. -/
def setDrained (s : State) : State :=
  match s.fox.armed with
  | none => s
  | some (m, _) =>
    if !setIsDrained s then s
    else
      let n := fld 19 0 (freeVal s)
      let t := (maskList m).foldl (fun t r => wr (P.RGN r) R.RGN_DRAIN_LAST (W n) t) (drawn s)
      setFox { t.fox with gone := true } t

def execSetDrained (s : State) : Out := .next (setDrained s)

/-- DRAIN_LIMIT has passed (R265); a set drained in the same cycle proceeds. -/
def drainTimeout (s : State) : State :=
  match s.fox.armed, s.fox.drainAt with
  | some (m, _), some t0 =>
    if s.fox.gone || setIsDrained s || (ringTime s).toNat ≤ t0.toNat + rdf P.FOX R.FOX_DRAIN_LIMIT 19 0 s then s
    else
      let late := (maskList m).find? fun r => !inMask s.fox.drainedSet r || !s.sched.reported.contains r
      abortSet E.DRAIN_TIMEOUT (late.getD 0) s
  | _, _ => s

def execDrainTimeout (s : State) : Out := .next (settleAll (drainTimeout s))

/-! ## Go (R266–R268, R436) -/

/-- The planes of region r exchange roles, with their sources and references (R249, R268). -/
def switchPlanes (r : Nat) (s : State) : State :=
  let mine (e : Nat × Word) : Bool := e.1 / 49152 == r
  let splice (a b : SMap Word) : SMap Word :=
    a.filter (fun e => e.1 / 49152 < r) ++ b.filter mine ++ a.filter (fun e => r < e.1 / 49152)
  let p := s.planes
  let a := rd (P.RGN r) R.RGN_ACTIVE_SRC s
  let b := rd (P.RGN r) R.RGN_STAGE_STAT s
  s |> setPlanes { active := splice p.active p.staging, staging := splice p.staging p.active }
    |> wr (P.RGN r) R.RGN_ACTIVE_SRC (b &&& W 0x707)
    |> wr (P.RGN r) R.RGN_STAGE_STAT ((b &&& W 0xFFFF0000) ||| (a &&& W 0x707))
    |> mdRgn r (fun x => { x with unreferenced := x.stageUnreferenced, stageUnreferenced := x.unreferenced,
                                  frameTimes := [] })
    |> wrf (P.RGN r) R.RGN_DIGEST_STAT 31 30 0

/-- Bank clears at the plane switch: CLEAR_AT_SWAP, which for a mirrored pair is the first bank's and clears both copies,
and both banks of a pair that starts mirroring; `old` is the state
before the planes changed (R187). -/
def swapBankClears (r : Nat) (old s : State) : State :=
  (List.range 16).foldl (fun t l =>
    let b := 16 * r + l
    let own := bit 0 (tileFrame b 90 0 s) || (mirrored b s && bit 0 (tileFrame (b / 2 * 2) 90 0 s))
    if own || (mirrored b s && !mirrored b old) then clearBankAtSwap b t else t) s

/-- LUT requests and interface state of a region's banks end with GSR (R125, R191). -/
def clearLutPorts (r : Nat) (s : State) : State :=
  (List.range 16).foldl (fun t l =>
    mdBankPort (16 * r + l) (fun x => { x with lut := none, lutGnt := false, lutReads := [] }) t) s

/-- The output group of the Fox tap empties, and its credits return (R123, R259). -/
def emptyFoxTap (r : Nat) (s : State) : State :=
  mdChan (.foxTapDown (regionId r)) (fun x => { x with
    buffer := []
    inMsg := false
    owed := x.owed + x.buffer.length }) s

/-- GSR is asserted in region r: `swap` keeps the keep slots and the registers marked RETAIN (R74, R125,
R126, R268). -/
def assertGsr (r : Nat) (swap : Bool) (s : State) : State :=
  s |> mdRgn r (fun x => { x with gsr := true })
    |> gsrCells r (fun c n => swap && cellRetain c n s)
    |> gsrLogic r swap |> clearLutPorts r |> emptyFoxTap r

/-- Steps 1 to 4 of Table 11.4. -/
def swapSwitch (r : Nat) (s : State) : State :=
  let t := (pinSidesOf r).foldl (fun t d => holdSide r d t) s
  let u := switchPlanes r (pinKeepSlots r t)
  u |> swapBankClears r t |> rcCheck r |> resetImmediates r |> assertGsr r true |> swapState 5 r

/-- In the set, gone, and its swap has not ended. -/
def swapping (r : Nat) (s : State) : Bool := locked r s && s.fox.gone && !inMask s.fox.swappedSet r

/-- Step 7 is over: the region's swap has ended. -/
def regionSwapped (r : Nat) (s : State) : State :=
  s |> wr (P.RGN r) R.RGN_SWAP_STATE 0 |> count (P.RGN r) R.RGN_SWAP_COUNT |> irq (P.RGN r) 24
    |> (fun t => setFox { t.fox with swappedSet := t.fox.swappedSet ||| maskOf [r] } t)

/-! ## Region reset (R56, R125) -/

/-- Status of a region page that a reset leaves: retirements, and what belongs to the planes (Table 15.8). -/
def keepRgn (off : Nat) : Bool :=
  (R.RGN_TAP_RETIRED ≤ off && off < R.RGN_TAP_RETIRED + 16) || off == R.RGN_BANK_RETIRED ||
    off == R.RGN_SW_STAT || off == R.RGN_TP_DISABLED || off == R.RGN_ACTIVE_SRC || off == R.RGN_STAGE_STAT ||
    off == R.RGN_PARAM_GEN || off == R.RGN_SWAP_STATE

/-- Event histories are status (R369). -/
def clearHistories (r : Nat) (s : State) : State :=
  let t := mdRgn r (fun x => { x with frameTimes := [] }) s
  let t := setFab { t.fab with parityTimes := tclear (256 * r) (256 * (r + 1)) t.fab.parityTimes } t
  (List.range 16).foldl (fun t l => mdBankPort (16 * r + l) (fun x => { x with failTimes := [] }) t) t

/-- The status of a region returns to its reset values. -/
def clearRegionStatus (r : Nat) (s : State) : State :=
  s |> clearStatus (P.RGN r) keepRgn |> clearHistories r
    |> setArr P.FOX R.FOX_FAULTY_LO r false

/-- The region reset itself. -/
def resetRegionNow (r : Nat) (s : State) : State :=
  s |> resetSwitch r |> mdRgn r (fun x => { x with sq := [], resetWaiting := false })
    |> clearRegionStatus r |> assertGsr r false

/-- PAGE_CTL.SOFT_RST of a region page: aborts an armed or draining set, waits for the end of a swap (R270). -/
def regionReset (r : Nat) (s : State) : State :=
  if swapping r s then mdRgn r (fun x => { x with resetWaiting := true }) s
  else resetRegionNow r (if locked r s && !s.fox.gone then abortSet E.ABSENT_TARGET r s else s)

def execRegionReset (rq : Requester) (r : RegionId) (s : State) : Out :=
  .next (settleAll (onPage rq (P.RGN r.val) R.PAGE_CTL (regionReset r.val) s))

/-- A step of the swap of region r: the plane switch, then, once GSR has been released, release steps 2 and
3. -/
def swapGo (r : Nat) (s : State) : State :=
  let x := rgn r s
  if !swapping r s || !regionOn r s then s
  else match rdf (P.RGN r) R.RGN_SWAP_STATE 2 0 s with
    | 3 => swapSwitch r s
    | 6 =>
      let t := s |> releaseStepOf r x.released |> mdRgn r (fun x => { x with released := x.released + 1 })
      if x.released = 1 then t
      else
        let t := regionSwapped r t
        if x.resetWaiting then resetRegionNow r t else t
    | _ => s

def execSwapGo (r : RegionId) (s : State) : Out := .next (settleAll (swapGo r.val s))

/-- GSR has been asserted for 8 cycles: in a swap, step 5 of Table 11.4; else, once SR has been released,
the end of a load's or a reset's GSR (R125, R289). -/
def gsrRelease (r : Nat) (s : State) : State :=
  let x := rgn r s
  if !x.gsr || !regionOn r s then s
  else if swapping r s then
    s |> mdRgn r (fun x => { x with gsr := false, released := 1 }) |> swapState 6 r
      |> releaseStepOf r 0 |> squirrelDeliver r
  else if s.dev.srReleased && deviceRuns s && (s.pwr.hare || !islandStopped r s) then
    mdRgn r (fun x => { x with gsr := false }) s
  else s

def execGsrRelease (r : RegionId) (s : State) : Out := .next (settleAll (gsrRelease r.val s))

/-- The release notice of region r reaches the Fox port and the scheduler (R269); with the last one the set
has swapped. -/
def swapRelease (r : Nat) (s : State) : State :=
  match s.fox.armed with
  | none => s
  | some (m, _) =>
    if !inMask s.fox.swappedSet r || !inMask s.fox.drainedSet r then s
    else
      let t := s |> releaseHold r |> mdRgn r (fun x => { x with schReport := false })
                 |> (fun t => setFox { t.fox with drainedSet := t.fox.drainedSet &&& ~~~(maskOf [r]) } t)
      if t.fox.drainedSet = 0 ∧ t.fox.swappedSet = m then
        t |> wr P.FOX R.FOX_SWAP_STAT 0 |> count P.FOX R.FOX_SWAP_SETS |> irq P.FOX 2 |> disarmSet
      else t

/-! ## Scrub and digest (R273–R275) -/

/-- The scrub runs in region r: ON, and not between a drain notice and the end of the swap. -/
def scrubRuns (r : Nat) (s : State) : Bool := regionOn r s && !(rgn r s).draining && !swapping r s

/-- One more failure of an active-plane frame (R368). -/
def frameFailed (r f : Nat) (s : State) : State :=
  let (l, third) := thirdWithinHour (tget [] (rgn r s).frameTimes f) s
  let t := mdRgn r (fun x => { x with frameTimes := tput [] f l x.frameTimes }) s
  if third then regionFaulty r 1 E.PARITY t else t

/-- The scrub finds frame f failing in its present pass (R273, R274). A rewrite restores the frame's configured contents, which the
plane holds. -/
def scrubFail (r : Nat) (staging : Bool) (f : Nat) (readable : Bool) (s : State) : State :=
  let pg := P.RGN r
  if !scrubRuns r s || staging != (rgn r s).scrubStaging then s
  else if staging then
    if stageValid r s then s |> invalidateStage r |> err pg E.PARITY 0 0 else s
  else
    let t := wr pg R.RGN_SCRUB_LAST (W (frameAddr r f)) s
    if readable && !(rgn r s).unreferenced.contains f then
      t |> count pg R.RGN_SCRUB_FIXES |> irq pg 26 |> errTransient pg |> frameFailed r f
    else t |> md pg R.RGN_SCRUB_STAT (satFld 15 0) |> err pg E.PARITY 0 0 |> frameFailed r f

def execScrubFrameFail (r : RegionId) (pl : PlaneSel) (f : Fin 1536) (readable : Bool) (s : State) : Out :=
  .next (scrubFail r.val (pl == .staging) f.val readable s)

/-- The first 64 bits of the SHA-256 of a plane (R275). -/
def planeDigest (r : Nat) (m : SMap Word) : Word × Word :=
  let h := sha256 ((List.range 49152).map fun k => tget 0 m (r * 49152 + k))
  (h.getD 0 0, h.getD 1 0)

/-- The present pass ends: the digest of its plane is updated after a complete pass, and a pass over the other plane
begins (R273, R275). -/
def scrubEnd (r : Nat) (staging : Bool) (s : State) : State :=
  let pg := P.RGN r
  let x := rgn r s
  if !scrubRuns r s || staging != x.scrubStaging then s
  else
    let t := setRgn r { x with scrubStaging := !staging, scrubCut := false } s
    if staging then
      if stageValid r s && !x.scrubCut then
        let (hi, lo) := planeDigest r s.planes.staging
        t |> wr pg R.RGN_STAGE_DIGEST_HI hi |> wr pg R.RGN_STAGE_DIGEST_LO lo
          |> wrf pg R.RGN_DIGEST_STAT 30 30 1
      else t
    else
      let (hi, lo) := planeDigest r s.planes.active
      t |> wr pg R.RGN_DIGEST_HI hi |> wr pg R.RGN_DIGEST_LO lo
        |> md pg R.RGN_DIGEST_STAT (fun w => setBit 31 true (satFld 15 0 w))

def execScrubPassEnd (r : RegionId) (pl : PlaneSel) (s : State) : Out :=
  .next (scrubEnd r.val (pl == .staging) s)

end Sys2Proof.Machine
end

