-- ==== Sys2Proof/Machine/Selftest.lean ====
section
/-! DEFINITION. The Woodpecker: the window, power-up slices and their verdicts, background slices (R371–R382).
The ends of SELFTEST and SCAN are in Startup.lean. -/
namespace Sys2Proof.Machine

open Sys2Proof

/-! ## The window (R373) -/

def inWindow (s : State) : Bool := bit 31 (rd P.WPK R.WPK_WIN_STAT s)

/-- VCCINT of a level in mV (Table 15.1). -/
def levelMv (l : Nat) : Nat := [900, 850, 780, 720].getD l 720

/-- The readings of VCCINT inside the window (R373): about the present level's voltage, or, before the clock record is
loaded, between the limits of PU_WINDOW. -/
def windowRange (s : State) : Nat × Nat :=
  match s.dev.mode with
  | .run | .doze =>
    let v := levelMv (currentLevel s)
    let m := rdf P.WPK R.WPK_WINDOW 7 0 s
    (v - m, v + m)
  | .release => (0, 0xFFFF)
  | _ => (fld 15 0 Config.puWindow, fld 31 16 Config.puWindow)

/-- The monitor's reading is a free value, and inside the window one of its range. -/
def setWindow (b : Bool) (s : State) : State :=
  let (lo, hi) := windowRange s
  let x := freeVal s &&& W 0xFFFF
  drawn (wr P.WPK R.WPK_WIN_STAT (setBit 31 b (if b && lo ≤ hi then W (lo + x.toNat % (hi + 1 - lo)) else x)) s)

/-- The Woodpecker works: its page is served. -/
def wpkRuns (s : State) : Bool := !pageOff P.WPK s

/-! ## Signatures and verdicts (R371, R372) -/

/-- Values folded into a signature register, in order. -/
def folded (xs : List (BitVec 64)) : BitVec 64 := xs.foldl Config.signatureFold Config.signatureSeed

/-- The fixed end marker. -/
abbrev endMarker : BitVec 64 := 0xE0D5

/-- A bank, logic or crossbar slice folds its responses and their number; a Configuration Store or Code/Data Flash slice
the lines it has read, the uncorrectable ones among them, and the number of patterns, which is that of the lines. -/
def sliceFolds (cls : Nat) (lines uncorrectable : Nat) (responses : List Word) : List (BitVec 64) :=
  if cls < 3 then responses.map (·.setWidth 64) ++ [BitVec.ofNat 64 responses.length]
  else [BitVec.ofNat 64 lines, BitVec.ofNat 64 uncorrectable, BitVec.ofNat 64 lines]

/-- The signature register at the end of a slice: the end marker is folded once the last pattern has been applied. -/
def sliceSignature (cls : Nat) (x : SliceRun) : BitVec 64 :=
  folded (sliceFolds cls x.lines x.uncorrectable x.responses ++ if x.marker then [endMarker] else [])

/-- The value a slice's signature is compared with: from the ROM, or, of a line-checking slice, with no uncorrectable
line. -/
def sliceExpected (test cls block slice : Nat) (x : SliceRun) : BitVec 64 :=
  if cls < 3 then Config.romSignature test cls block slice else folded (sliceFolds cls x.lines 0 [] ++ [endMarker])

/-- Class 4: no boot pointer copy in bank 0 passes its CRC, or, in the bank of the boot slot, the slot record fails
its own (R320, R321, R371). -/
def recordFails (cls block : Nat) (s : State) : Bool :=
  cls == 4 && ((block == 0 && !s.upd.pointerValid) ||
    (block == b2n s.upd.running + 1 && (slotRecord s.upd.running s).isNone))

/-- The verdict of a slice: a definite error is a FAIL, and prevails; a slice without its completion marker is
INCOMPLETE. -/
def sliceVerdict (test cls block slice : Nat) (x : SliceRun) (s : State) : Verdict :=
  if x.definite || x.uncorrectable != 0 || recordFails cls block s then .fail
  else if !x.marker then .incomplete
  else if sliceSignature cls x = sliceExpected test cls block slice x then .pass
  else .fail

/-- The signature register of the slice that ends. -/
def signed (cls : Nat) (x : SliceRun) (s : State) : State :=
  setWpk { s.wpk with signature := sliceSignature cls x } s

/-! ## Power-up slices (R372, R375, R377) -/

/-- Slices of a class: fast test, or full test (Table 16.2). -/
def sliceTotal (fast : Bool) (cls : Nat) : Nat :=
  if fast then [1024 * 8, 16384 + 2048, 520 + 64 + 7, 64, 10].getD cls 0
  else [1024 * 32, (16384 + 2048) * 32, (520 + 64 + 7) * 8, 64 * 32, 4 * 128 + 8].getD cls 0

def verdictCode : Verdict → Nat
  | .pass => 1 | .fail => 2 | .incomplete => 3

/-- n slices of a class ended with a verdict other than PASS. -/
def puCounted (cls n : Nat) (fail : Bool) (s : State) : State :=
  let m : BitVec 5 := 1#5 <<< cls
  let add (hi lo : Nat) (w : Word) : Word := setFld hi lo (min 0xFFFF (fld hi lo w + n)) w
  s |> setWpk (if fail then { s.wpk with failed := s.wpk.failed ||| m }
        else { s.wpk with incomplete := s.wpk.incomplete ||| m })
    |> md P.WPK R.WPK_PU_COUNTS (if fail then add 31 16 else add 15 0)

/-- PU_FIRST, if no slice has been named yet. -/
def puFirst (w : Word) (s : State) : State :=
  if rd P.WPK R.WPK_PU_FIRST s = 0 then wr P.WPK R.WPK_PU_FIRST w s else s

/-- A power-up slice has ended with a verdict: the records of its class (R377). -/
def sliceTaken (cls block slice cell : Nat) (v : Verdict) (s : State) : State :=
  let t := setWpk { s.wpk with ended := tput 0 cls (tget 0 s.wpk.ended cls + 1) s.wpk.ended } s
  match v with
  | .pass => t
  | _ =>
    t |> puFirst (W (cls * 2 ^ 28 + verdictCode v * 2 ^ 26 + block * 2 ^ 16 + slice * 2 ^ 8 + cell))
      |> puCounted cls 1 (v == .fail)

/-- The power-up test that the straps select: 0 fast, 1 full (R282). -/
def powerUpTest (s : State) : Nat := if strapTest s == 0 then 0 else 1

/-- A power-up slice ends. -/
def sliceEnd (cls block slice cell : Nat) (x : SliceRun) (s : State) : State :=
  if s.dev.mode ≠ .selftest then s
  else s |> signed cls x |> sliceTaken cls block slice cell (sliceVerdict (powerUpTest s) cls block slice x s)

def execSliceEnd (cls : Fin 5) (block : BitVec 10) (slice cell : Byte) (run : SliceRun) (s : State) : Out :=
  .next (sliceEnd cls.val block.toNat slice.toNat cell.toNat run s)

/-- The window has not been met 1.0 ms after SELFTEST began: slices not yet started end INCOMPLETE (R377). The
spec does not say which of them ends first: its block, slice and cell in PU_FIRST are a free value. -/
def windowTimeout (s : State) : State :=
  if s.dev.mode ≠ .selftest ∨ inWindow s = true then s
  else
    (List.range 5).foldl (fun t c =>
      let total := sliceTotal (strapTest s == 0) c
      let left := total - tget 0 t.wpk.ended c
      if left = 0 then t
      else
        t |> puFirst (W (c * 2 ^ 28 + 3 * 2 ^ 26 + (freeVal t).toNat % 2 ^ 26)) |> drawn
          |> puCounted c left false
          |> (fun t => setWpk { t.wpk with ended := tput 0 c total t.wpk.ended } t)) s

def execSelftestWindowTimeout (s : State) : Out := .next (windowTimeout s)

/-- SELFTEST begins: the records of the power-up test are written afresh. -/
def beginSelftest (s : State) : State :=
  s |> enterMode .selftest
    |> (fun t => setWpk { t.wpk with ended := [], failed := 0, incomplete := 0 } t)
    |> wr P.WPK R.WPK_PU_FIRST 0 |> wr P.WPK R.WPK_PU_COUNTS 0
    |> wr P.WPK R.WPK_PU_STAT (W (strapTest s * 2 ^ 12))
    |> wrf P.RST R.RST_STARTUP_STAT 19 16 3

/-- The verdict code of a class: 1 PASS, 2 FAIL, 3 INCOMPLETE. -/
def classVerdict (c : Nat) (s : State) : Nat :=
  if s.wpk.failed.getLsbD c then 2 else if s.wpk.incomplete.getLsbD c then 3 else 1

/-- The verdicts of the classes go to PU_STAT. -/
def putVerdicts (s : State) : State :=
  (List.range 5).foldl (fun t c => wrf P.WPK R.WPK_PU_STAT (2 * c + 1) (2 * c) (classVerdict c s) t) s

/-- Every class has the verdict PASS in PU_STAT. -/
def allPass (s : State) : Bool := fld 9 0 (rd P.WPK R.WPK_PU_STAT s) == 0x155

/-! ## Background slices (R378–R382) -/

/-- Regions open to background test. -/
def bgRegion (r : Nat) (s : State) : Bool :=
  inMask (rd64 P.WPK R.WPK_BG_REGIONS_LO s) r && regionOn r s

/-- A word is usable at an input port of cell c, or the region asserts GSR or drains: a service request. -/
def cellWanted (c : Nat) (s : State) : Bool :=
  (inWord c 0 s).isSome || (inWord c 1 s).isSome || (rgn (c / 256) s).gsr || (rgn (c / 256) s).draining

/-- A HEAD at the port's input, or one routed to its output. -/
def portWanted (p : Nat) (s : State) : Bool :=
  p < 512 && ((chan (.portUp (portId p)) s).buffer ≠ [] || (chan (.portDown (portId p)) s).waiting ≠ [] ||
    (chan (.portDown (portId p)) s).holder.isSome)

/-- The block of a class is eligible (R378): a cell enabled and waiting for input counts as having waited
long enough (assumption log 53). -/
def bgEligible (cls b : Nat) (s : State) : Bool :=
  match cls with
  | 0 => bgRegion (b / 16) s && !bankRetired b s && !bankAbsent b s
  | 1 =>
    let i := curInsn b s
    bgRegion (b / 256) s && !(cell b s).halted && !cellWanted b s && (cell b s).stall.isNone && (cell b s).issued.isNone &&
      (!cellEnabled b s || !inputsReady b i s)
  | _ =>
    if b < 512 then
      bgRegion (b / 8) s && !portRetired b s && !portWanted b s && (chan (.portUp (portId b)) s).route.isNone &&
        (chan (.portUp (portId b)) s).sendq.isEmpty && (chan (.portDown (portId b)) s).sendq.isEmpty
    else !bit 31 (rd P.XB (R.XB_SPARE + 4 * (b - 512)) s) && !bit (8 + (b - 512)) (rd P.XB R.XB_STAT s)

def bgBlocks (cls : Nat) : Nat := [1024, 16384, 520].getD cls 0

/-- The next enabled class after the last one, in turn. -/
def bgNextClass (s : State) : Option Nat :=
  let en := rdf P.WPK R.WPK_CTL 2 0 s
  ([1, 2, 3].map fun d => (s.wpk.lastClass + d) % 3).find? fun c => en.testBit c

/-- The next eligible block of a class after the one tried last, wrapping. -/
def bgNextBlock (cls : Nat) (s : State) : Option Nat :=
  let n := bgBlocks cls
  let last := tget (n - 1) s.wpk.lastBlock cls
  let ok (b : Nat) : Bool := bgEligible cls b s
  match ((List.range n).filter fun b => last < b).find? ok with
  | some b => some b
  | none => (List.range n).find? ok

def putSlice (b : BgSlice) (s : State) : State :=
  s |> setWpk { s.wpk with bg := some b }
    |> wr P.WPK R.WPK_BG_STAT (W (2 ^ 31 + b.cls * 2 ^ 28 + b.block))

/-- BG_PERIOD has elapsed: the next slice starts, or is skipped. -/
def bgStart (s : State) : State :=
  if s.dev.mode ≠ .run ∨ s.wpk.bg.isSome = true ∨ entering s = true ∨ takesWork P.WPK s = false then s
  else match bgNextClass s with
    | none => s
    | some cls =>
      let t := setWpk { s.wpk with lastClass := cls } s
      match bgNextBlock cls s with
      | none => t
      | some b =>
        if !inWindow s || !clockInWindow (bgIsland cls b) s then t
        else
          let g := tget 0 s.wpk.nextGroup b
          let w := { t.wpk with
            lastBlock := tins cls b t.wpk.lastBlock
            nextGroup := if cls = 0 then tput 0 b ((g + 1) % 32) t.wpk.nextGroup else t.wpk.nextGroup }
          putSlice { cls := cls, block := b, group := if cls = 0 then g else 0,
                     phase := if cls = 0 then .evacuate else .test, retest := false, cut := false }
            (setWpk w t)

def execBgSliceStart (s : State) : Out := .next (bgStart s)

/-- A phase of a bank slice ends (R379). -/
def bgPhaseDone (s : State) : State :=
  match s.wpk.bg with
  | some b =>
    let go (p : BgPhase) : State := setWpk { s.wpk with bg := some { b with phase := p } } s
    if b.cls ≠ 0 then s
    else match b.phase with
      | .evacuate => go .test
      | .test => go .restore
      | .restore => go .returned
      | .returned => s
  | none => s

def execBgPhaseDone (s : State) : Out := .next (bgPhaseDone s)

/-- A service request aborts a cell or port slice: counted, and retried when the block is next eligible
(R380). -/
def bgAbort (s : State) : State :=
  match s.wpk.bg with
  | some b =>
    if (b.cls = 1 ∧ cellWanted b.block s = true) ∨ (b.cls = 2 ∧ portWanted b.block s = true) then
      let n := bgBlocks b.cls
      let t := s |> count P.WPK R.WPK_BG_ABORTS |> sliceOver
      bgResume b (setWpk { t.wpk with
        lastBlock := tins b.cls ((b.block + n - 1) % n) t.wpk.lastBlock, lastClass := (b.cls + 2) % 3 } t)
    else s
  | none => s

def execBgSliceAbort (s : State) : Out := .next (bgAbort s)

/-- The budget of a background slice (R374). A power-up slice that the budget stops is named by its
SLICE_END. -/
def budgetExpiry (s : State) : State :=
  if s.dev.mode = .run ∧ bit 3 (rd P.WPK R.WPK_CTL s) = true then bgCut s else s

def execBudgetExpiry (s : State) : Out := .next (budgetExpiry s)

/-- A block leaves the window (R373). -/
def execWindowExit (s : State) : Out :=
  .next (if wpkRuns s then bgCut (setWindow false s) else s)

/-- A block is inside the window again (R373). -/
def execWindowEntry (s : State) : Out :=
  .next (if wpkRuns s then setWindow true s else s)

/-- BG_LAST_FAIL and the interrupt source of a FAIL. -/
def bgFailed (b : BgSlice) (permanent : Bool) (s : State) : State :=
  s |> wr P.WPK R.WPK_BG_LAST_FAIL (W (b.cls * 2 ^ 30 + b2n permanent * 2 ^ 29 + b.block))
    |> irq P.WPK (b2n permanent)

/-- The block is permanently faulty (R381). -/
def bgPermanent (b : BgSlice) (s : State) : State :=
  match b.cls with
  | 0 => retireBankFor E.BIST_FAIL b.block s
  | 1 =>
    let r := b.block / 256
    s |> setArr (P.RGN r) R.RGN_BIST_HALTED (b.block % 256) true |> haltCell b.block E.BIST_FAIL
      |> regionFaulty r 3 E.BIST_FAIL
  | _ =>
    if b.block < 512 then
      let p := portId b.block
      retire (.portUp p) s
    else md P.XB R.XB_STAT (setBit (8 + (b.block - 512)) true) s

/-- The verdict of a slice that was cut: a definite error is still a FAIL (R372). -/
def cutVerdict (cut : Bool) (v : Verdict) : Verdict :=
  match v with
  | .pass => if cut then .incomplete else .pass
  | .fail => .fail
  | .incomplete => .incomplete

/-- A background slice ends, and takes its verdict (R372, R381). -/
def bgEnd (x : SliceRun) (s : State) : State :=
  match s.wpk.bg with
  | none => s
  | some b =>
    if b.cls = 0 ∧ b.phase ≠ .returned then s
    else
      let v := cutVerdict b.cut (sliceVerdict 2 b.cls b.block b.group x s)
      let s := signed b.cls x s
      let t := sliceCounted b (verdictCode v) s
      match v with
      | .fail =>
        if b.retest then
          t |> sliceOver |> bgResume b |> bgPermanent b |> bgFailed b true
        else
          putSlice { b with retest := true, cut := false, phase := if b.cls = 0 then .evacuate else .test } t
      | _ =>
        let u := t |> sliceOver |> bgResume b
        if b.retest then bgFailed b false u else u

def execBgSliceEnd (run : SliceRun) (s : State) : Out := .next (bgEnd run s)

end Sys2Proof.Machine
end

