-- ==== Sys2Proof/Machine/Ring.lean ====
section
/-! DEFINITION. The Zhevulada link: segments, enumeration, the ring port's queues, absent ring destinations, lane
retirement (R386–R394), and the commands of the word channels. -/
namespace Sys2Proof.Machine

open Sys2Proof

/-! ## Straps, states, quality (R8, R390, R399) -/

/-- The device leads its ring: node 1 by strap, or a ring of one. -/
def ringLeader (s : State) : Bool := strapRing s != 2
/-- The device is one of a ring of several. -/
def ringStrapped (s : State) : Bool := strapRing s == 1 || strapRing s == 2
def ringState (s : State) : Nat := rdf P.RING R.RING_STAT 2 0 s
def ringNodes (s : State) : Nat := rdf P.RING R.RING_STAT 23 16 s

/-- The modes in which a node trains its segments, from strap sampling on (R390). -/
def ringServed (s : State) : Bool :=
  ringStrapped s && s.dev.sampled &&
    match s.dev.mode with
    | .off => false | .recovery => false | .scan => false | .sleep => false | .bear => false
    | _ => true

/-- TIME.STAT.QUALITY takes a value; source 0 of TIME where it changed. -/
def setQuality (q : Nat) (s : State) : State :=
  if rdf P.TIME R.TIME_STAT 2 0 s = q then s else irq P.TIME 0 (wrf P.TIME R.TIME_STAT 2 0 q s)

/-- The offset lay within ±20 ns at the last 3 corrections. -/
def lastThreeGood (s : State) : Bool := s.time.lastGood.length == 3 && s.time.lastGood.all id

/-- The quality that a SYNC or a reference decides (R399). -/
def decideQuality (s : State) : State :=
  if ringLeader s then
    let c := rd P.TIME R.TIME_CTL s
    setQuality (if !bit 0 c then 2 else if !bit 2 c then 0 else if lastThreeGood s then 2 else 1) s
  else setQuality (if !ringUp s || s.time.lastGood.isEmpty then 0 else if lastThreeGood s then 2 else 1) s

/-! ## The ring-out (R389, R393, R394) -/

/-- The ring-level classes of Table 17.2. -/
def ringLevelClass (cls : Nat) : Bool := [0x30, 0x31, 0x40, 0x41, 0x42, 0x43, 0x50, 0x51].contains cls

def clsOf (ws : List TWord) : Nat := fld 31 24 (ws.headD zeroWord).data
def routeOf (ws : List TWord) : Word := (ws.getD 1 zeroWord).data

/-- The content of an ORIGIN character (Table 17.1). -/
def originChar (node kind index : Nat) : Nat := node + kind * 2 ^ 8 + index * 2 ^ 10

/-- Of a local and a forwarded message that wait, the one whose turn it is. -/
def inTurn (lastMine : Bool) (a b : Option (Nat × List TWord)) : Option (Bool × (Nat × List TWord)) :=
  match a, b with
  | some x, some y => if lastMine then some (false, y) else some (true, x)
  | some x, none => some (true, x)
  | none, some y => some (false, y)
  | none, none => none

/-- The message served next: ring-level classes first (R394). -/
def nextOut (x : RingPort) : Option (Bool × (Nat × List TWord)) :=
  let lvl (e : Nat × List TWord) : Bool := ringLevelClass (clsOf e.2)
  match inTurn x.lastMine (x.mine.find? lvl) (x.fwd.find? lvl) with
  | some e => some e
  | none => inTurn x.lastMine x.mine.head? x.fwd.head?

/-- The route word of a message of this node as it stood at the ring port. -/
def portRoute (e : Nat × List TWord) : Word :=
  ringWord (routeOf e.2) (W (e.1 / 2 ^ 8 % 4 * 2 ^ 30 + e.1 / 2 ^ 10))

/-- A message leaves the queues for the ring-out; a request of this node awaits its answer. -/
def outTaken (m : Bool) (e : Nat × List TWord) (x : RingPort) : RingPort :=
  let ask := m && requestClass (clsOf e.2) && fld 29 22 (routeOf e.2) != 255
  { x with
    mine := if m then x.mine.erase e else x.mine
    fwd := if m then x.fwd else x.fwd.erase e
    lastMine := m
    sent := x.sent ++ [e]
    openRequests := if ask then x.openRequests ++ [(portRoute e, (e.2.headD zeroWord).data)] else x.openRequests }

/-- Launch messages while the segment is up and the last one has left; `fuel` bounds their number. -/
def ringServe (fuel : Nat) (s : State) : State :=
  match fuel with
  | 0 => s
  | fuel + 1 =>
    if !s.ring.outUp || (chan .ringOut s).sendq != [] then s
    else match nextOut s.ring with
      | none => s
      | some (m, e) => ringServe fuel (send .ringOut e.2 (setRing (outTaken m e s.ring) s))

def sendChar (kind : Nat) (v : BitVec 64) (s : State) : State :=
  setRing { s.ring with chars := s.ring.chars ++ [(kind, v)] } s

/-- SYNC pairs that wait leave between messages, as two WORD characters; each is later by the time that it has waited
here (R394, R397). -/
def launchSyncs (s : State) : State :=
  if !s.ring.outUp || (chan .ringOut s).sendq != [] then s
  else s.ring.syncs.foldl (fun t e =>
    t |> sendChar 0 (e.1 + (t.time.ringTime - e.2)) |> countN P.RING R.RING_WORDS_OUT 2) (setRing { s.ring with syncs := [] } s)

def ringPump (s : State) : State := ringServe (s.ring.mine.length + s.ring.fwd.length) (launchSyncs s)

/-- A message of this node for the ring, from the port or service that a local route word names. -/
def ringLaunch (loc : Word) (ws : List TWord) (s : State) : State :=
  let e := (originChar (ownNode s) (fld 31 30 loc) (fld 8 0 loc), ws)
  let t := if !s.ring.outUp || (chan .ringOut s).sendq != [] then count P.RING R.RING_LOCAL_WAITS s else s
  ringPump (setRing { t.ring with mine := t.ring.mine ++ [e] } t)

/-- A message on its way to another node. -/
def ringForward (origin : Nat) (ws : List TWord) (s : State) : State :=
  ringPump (setRing { s.ring with fwd := s.ring.fwd ++ [(origin, ws)] } s)

/-- A ring-level message of this node to every node (R395, R402, R407). -/
def ringBroadcast (cls svc : Nat) (payload : List TWord) (s : State) : State :=
  ringLaunch (routeSvc svc) (message cls (ownNode s) (W (0xBFF00000 + svc)) payload 0) s

/-- A ring message is handled as absent (R47, R392, R393): the route word as it stood at the ring port. -/
def absentRing (route head : Word) (s : State) : State :=
  let t := s |> count P.RING R.RING_ABSENT |> wr P.XB R.XB_ABSENT_LAST (ringRoute route)
  if requestClass (fld 31 24 head) then send (.svcUp 6) (stageReply head route [nullWord] E.ABSENT_TARGET) t
  else t |> count P.XB R.XB_ABSENT_DISCARDS |> irq P.XB 3

/-- A message at the ring port that is discarded as malformed (R42, R48): its origin is recorded, and a request is
answered as at an absent destination, with the route word that it carried. -/
def ringRefused (m : Msg) (s : State) : State :=
  let onRing := fld 31 30 m.route = 2
  let t := malformed (if onRing then ringLocal m.route else m.route) s
  if requestClass m.cls then
    send (.svcUp 6) (stageReply m.head (if onRing then m.route else ringWord (routeSvc 6) m.route) [nullWord]
      E.ABSENT_TARGET) t
  else t

/-- A message for the ring that has arrived whole at attachment 0x06 (R48, R392, R393). DESIGN CHOICE (assumption log
108): the trailer goes on with its STATUS alone, its bits [23:0] zero. -/
def ringPortTake (fuel : Nat) (s : State) : State :=
  match fuel with
  | 0 => s
  | fuel + 1 =>
    match sinkMsg (.svcDown 6) s with
    | none => s
    | some m =>
      let t := dropMsg (.svcDown 6) s
      let node := fld 29 22 m.route
      let cut := m.status ≠ 0 ∧ !statusIsOutcome 0 m.cls
      let u :=
        if m.status = E.UNTERMINATED ∨ cut then t
        else if fld 31 30 m.route ≠ 2 ∨ (m.status = 0 ∧ m.payload.length ≠ m.len) then ringRefused m t
        else if !ringUp t || node == 0 || (node != 255 && ringNodes t != 0 && ringNodes t < node) then
          absentRing m.route m.head t
        else ringLaunch (ringLocal m.route)
          ([tw .head m.head, tw .data (ringRoute m.route)] ++ m.payload ++ [trailer m.status]) t
      ringPortTake fuel u

/-! ## Segments (R390–R392) -/

/-- The words of the message that the ring-out holds in part are discarded with the segment. -/
def stopOut (s : State) : State := setChan .ringOut (Channel.free 512) s

/-- The node leaves UP: each unanswered request of its own is answered (R392). -/
def leaveUp (s : State) : State :=
  let t := s.ring.openRequests.foldl (fun t e =>
    send (.svcUp 6) (stageReply e.2 e.1 [nullWord] E.ABSENT_TARGET) t) s
  let t := setRing { t.ring with openRequests := [], awaitTmax := false } t
  if ringLeader t then t else setQuality 0 (setTime { t.time with lastGood := [] } t)

/-- RING.STAT.STATE takes a value. -/
def setRingState (n : Nat) (s : State) : State :=
  if ringState s = n then s
  else
    let t := irq P.RING 0 (wrf P.RING R.RING_STAT 2 0 n s)
    if ringState s = 3 then leaveUp t else t

/-- A segment has come up: with both, OPEN, and the leader enumerates (R390, R391). -/
def segmentUp (out : Bool) (live : Nat) (s : State) : State :=
  if !ringServed s || live == 0 || (if out then s.ring.outUp else s.ring.inUp) then s
  else
    let t := if out then stopOut (setRing { s.ring with outUp := true } s) else setRing { s.ring with inUp := true } s
    let t := if out then wrf P.RING R.RING_STAT 31 28 live t else wrf P.RING R.RING_STAT 27 24 live t
    if t.ring.inUp && t.ring.outUp then
      let u := setRingState 2 t
      let u := if ringLeader u then sendChar 6 1 u else u
      ringPump u
    else ringPump (setRingState 1 t)

def execSegmentUp (out : Bool) (live : BitVec 4) (s : State) : Out := .next (segmentUp out live.toNat s)

/-- A segment goes down. -/
def segmentDown (out : Bool) (s : State) : State :=
  if !(if out then s.ring.outUp else s.ring.inUp) then s
  else
    let t := if out then stopOut (setRing { s.ring with outUp := false, syncs := [] } s)
      else setRing { s.ring with inUp := false } s
    let t := if out then wrf P.RING R.RING_STAT 31 28 0 t else wrf P.RING R.RING_STAT 27 24 0 t
    setRingState 1 t

def execSegmentDown (out : Bool) (s : State) : Out := .next (segmentDown out s)

/-- ENUM: the leader takes the count as the highest node and sends TMAX; a follower takes its number and forwards.
A follower that would be node 251 stays at node 0 and forwards the character as it came. -/
def enumChar (count : Nat) (s : State) : State :=
  if !ringServed s || !s.ring.inUp || !s.ring.outUp then s
  else if ringLeader s then
    s |> wrf P.RING R.RING_STAT 23 16 count
      |> sendChar 9 ((ringTime s >>> 28) &&& 0xFFFFFFFFF)
      |> (fun t => setRing { t.ring with awaitTmax := true } t)
  else if 250 ≤ count then s |> wrf P.RING R.RING_STAT 15 8 0 |> sendChar 6 (BitVec.ofNat 64 count)
  else s |> wrf P.RING R.RING_STAT 15 8 (count + 1) |> sendChar 6 (BitVec.ofNat 64 (count + 1))

def execEnumChar (n : Byte) (s : State) : Out := .next (enumChar n.toNat s)

/-- The node is UP. -/
def ringEntersUp (s : State) : State := s |> setRingState 3 |> count P.RING R.RING_ENUMS

/-- TMAX: forwarded with the larger time; on its return the leader, which must not be behind, is UP too. -/
def tmax (v : BitVec 36) (s : State) : State :=
  let own : BitVec 36 := (ringTime s >>> 28).setWidth 36
  if !ringServed s || !s.ring.inUp || !s.ring.outUp then s
  else if ringLeader s then
    if !s.ring.awaitTmax then s
    else
      let t := ringEntersUp (setRing { s.ring with awaitTmax := false } s)
      if own < v then setTime { t.time with ringTime := (v.setWidth 64 + 1) <<< 28 } t else t
  else if ownNode s = 0 then sendChar 9 (v.setWidth 64) s
  else ringEntersUp (sendChar 9 ((if own < v then v else own).setWidth 64) s)

def execTmax (v : BitVec 36) (s : State) : Out := .next (tmax v s)

/-! ## Lane retirement (R389) -/

/-- The lanes of ring-out that are live. -/
def liveOut (s : State) : List Nat := (List.range 4).filter fun k => bit (28 + k) (rd P.RING R.RING_STAT s)

/-- A word of a lane has failed three replays: the lane retires. Which live lane carried the word follows from the
striping of R388, whose phase the spec leaves open: a free value. The segment runs on with the other lanes. -/
def laneRetired (s : State) : State :=
  let ls := liveOut s
  let k := ls.getD ((freeVal s).toNat % ls.length) 0
  let t := s |> drawn |> md P.RING R.RING_STAT (setBit (28 + k) false)
             |> err P.RING E.REPLAY_FAIL (2 * 2 ^ 20 + 4 + k) 0 |> irq P.RING 1
  if liveOut t = [] then segmentDown true t
  else
    let x := chan .ringOut t
    let again := match x.retained with
      | [] => []
      | w :: r => (w, true) :: r.map (fun w => (w, false))
    setChan .ringOut { x with verdicts := x.verdicts.tail, fails := 0, flight := x.flight ++ again } t

/-! ## Commands of the word channels -/

/-- The oldest word on the way reaches the receiver of a channel (R11, R15, R35, R36). The receiver of the
ring-out is the next node, which keeps the word and returns its credit. A message that is whole at the ring port goes
on, and one at the time and snapshot unit is discarded. -/
def crossWord (c : ChanId) (upset : Bool) (s : State) : State :=
  if !chanLive c s then s
  else match c with
    | .tpIn j => tilePortWord j upset s
    | .ringOut =>
      mdChan .ringOut (fun x => { x with buffer := [], owed := x.owed + x.buffer.length }) (arrive c upset s)
    | .svcDown k =>
      let t := arrive c upset s
      if k = 6 then ringPortTake 17 t else if k = 5 then timeService t else t
    | _ => arrive c upset s

def execCrossingWord (c : ChanId) (upset : Bool) (s : State) : Out := .next (settleTap c (crossWord c upset s))

/-- A credit reaches the sender (R11); the ring-out then serves the next message. -/
def creditReturned (c : ChanId) (s : State) : State :=
  if !chanLive c s then s
  else
    let t := creditBack c s
    if c = .ringOut then ringPump t else t

def execCreditReturn (c : ChanId) (s : State) : Out := .next (settleTap c (creditReturned c s))

/-- A verdict reaches the sender (R35, R36, R38, R389). -/
def verdictReturned (c : ChanId) (s : State) : State :=
  if !chanLive c s then s
  else if c = .ringOut then
    let x := chan .ringOut s
    if x.verdicts.head? = some false ∧ 3 ≤ x.fails then laneRetired s else ringPump (verdict .ringOut s)
  else verdict c s

def execParityVerdict (c : ChanId) (s : State) : Out := .next (verdictReturned c s)

end Sys2Proof.Machine
end

