-- ==== Sys2Proof/Machine/Time.lean ====
section
/-! DEFINITION. Ring time, SYNC, the hop delay, IEEE 1588 adjustments and timestamps, snapshots, the device
digest and the roll-call (R396–R407). -/
namespace Sys2Proof.Machine

open Sys2Proof

/-! ## The counter (R396, R399) -/

/-- Ring time runs: not in OFF, SLEEP and BEAR (R401). -/
def timeRuns (s : State) : Bool :=
  match s.dev.mode with
  | .off => false | .sleep => false | .bear => false
  | _ => true

/-- One more or less in `per` ns, where per is 10^k ÷ rate. -/
def nudges (scale rate now : Nat) : Bool := rate != 0 && now % (scale / rate + 1) == 0

/-- One nanosecond passes: the slew in progress makes the counter gain or lose at most SLEW_MAX ppm, and the
leader's RATE its ppb. The counter never decreases. -/
def tick (s : State) : State :=
  if !timeRuns s then s
  else
    let now := s.time.ringTime.toNat
    let slew := s.time.slew.toInt
    let rate := (rd P.TIME R.TIME_RATE s).toInt
    let act := slew ≠ 0 && nudges 1000000 (rd P.TIME R.TIME_SLEW_MAX s).toNat now
    let d : Int := if act then (if slew < 0 then -1 else 1) else 0
    let e : Int := if ringLeader s && nudges 1000000000 rate.natAbs now then (if rate < 0 then -1 else 1) else 0
    let step := (1 + d + e).toNat
    setTime { s.time with ringTime := s.time.ringTime + BitVec.ofNat 64 step,
                          slew := BitVec.ofInt 64 (slew - d) } s

/-- Whether an offset lay within ±20 ns, kept for the last three. -/
def noteOffset (d : Int) (s : State) : State :=
  setTime { s.time with lastGood := (decide (d.natAbs ≤ 20) :: s.time.lastGood).take 3 } s

/-- Correct an offset of d ns, positive where this node is behind (R399). -/
def correct (d : Int) (s : State) : State :=
  let limit : Int := (rd P.TIME R.TIME_STEP_LIMIT s).toNat * 1000
  if limit < d then
    irq P.TIME 1 (setTime { s.time with ringTime := s.time.ringTime + BitVec.ofInt 64 d, slew := 0 } s)
  else setTime { s.time with slew := BitVec.ofInt 64 d } s

/-- A signed value in 32 bits, saturating. -/
def sat32 (d : Int) : Word :=
  if d < -2147483648 then W 0x80000000 else if 2147483647 < d then W 0x7FFFFFFF else BitVec.ofInt 32 d

/-! ## SYNC (R397) -/

/-- A SYNC pair of the present instant goes to the ring-out, and leaves between messages (R394). -/
def sendSync (v : BitVec 64) (s : State) : State :=
  launchSyncs (setRing { s.ring with syncs := s.ring.syncs ++ [(v, s.time.ringTime)] } s)

/-- SYNC_PERIOD elapses at the leader. -/
def syncSend (s : State) : State :=
  if !timeRuns s || !ringLeader s || !s.dev.sampled then s
  else decideQuality (if ringUp s && s.ring.outUp then sendSync (ringTime s) s else s)

def execSyncSend (s : State) : Out := .next (syncSend s)

/-- The delay of the ring-in segment in ns. -/
def hopNs (s : State) : Nat := rdf P.RING R.RING_HOP_DELAY 15 0 s / 1000

/-- A SYNC pair arrives. The leader removes its own; a follower that is UP corrects itself, and forwards the pair
increased by the hop delay and by the time that it then waits behind a message at the ring-out. -/
def syncPair (v : BitVec 64) (s : State) : State :=
  if !ringServed s || !s.ring.inUp then s
  else
    let s := countN P.RING R.RING_WORDS_IN 2 s
    if ringLeader s then s
    else
      let w := v + BitVec.ofNat 64 (hopNs s)
      let t :=
        if ringUp s && ownNode s != 0 then
          let d : Int := (w.toNat : Int) - (ringTime s).toNat
          s |> wr P.TIME R.TIME_OFFSET (sat32 d) |> count P.TIME R.TIME_SYNC_RX |> noteOffset d |> correct d
            |> decideQuality
        else s
      if t.ring.outUp then sendSync w t else t

def execSyncPair (v : BitVec 64) (s : State) : Out := .next (syncPair v s)

/-- Four SYNC periods without a pair: a follower is FREE; at a leader the reference decides (R399, R401). -/
def syncTimeout (s : State) : State :=
  if !timeRuns s || !s.dev.sampled then s
  else if ringLeader s then decideQuality s
  else s |> countN P.TIME R.TIME_SYNC_MISSED 4 |> (fun t => setTime { t.time with lastGood := [] } t) |> setQuality 0

def execSyncTimeout (s : State) : Out := .next (syncTimeout s)

/-- An ECHO has measured the delay of the ring-in segment: the average over the last 16. -/
def echoDone (ps : Nat) (s : State) : State :=
  if !ringServed s || !s.ring.inUp then s
  else
    let l := (ps :: s.ring.echoes).take 16
    wrf P.RING R.RING_HOP_DELAY 15 0 (l.sum / l.length) (setRing { s.ring with echoes := l } s)

def execEchoCharacter (delayPs : BitVec 16) (s : State) : Out := .next (echoDone delayPs.toNat s)

/-- A write of TIME.ADJ: the leader applies a signed correction; refused on a follower (R399, R400). -/
def adjWrite (v : Word) (s : State) : State :=
  if !ringLeader s then permFault P.TIME R.TIME_ADJ s
  else
    let t := s |> noteOffset v.toInt |> correct v.toInt
    if bit 0 (rd P.TIME R.TIME_CTL t) then decideQuality t else t

def execAdj (rq : Requester) (v : Word) (s : State) : Out := .next (onPage rq P.TIME R.TIME_ADJ (adjWrite v) s)

/-- A PTP event message crosses the pins of an Ethernet port: its ring time and sequenceId (R400). -/
def ptpStamp (port : Nat) (tx overUdp : Bool) (stamp : BitVec 64) (seq : Nat) (s : State) : State :=
  let pg := P.ETH port
  let c := rd pg R.ETH_PTP_CTL s
  if pageOff pg s || !bit 0 (rd pg R.PAGE_CTL s) || !bit 0 c || !(if overUdp then bit 2 c else bit 1 c) then s
  else if tx then s |> wr64 pg R.ETH_TX_TS_LO stamp |> wr pg R.ETH_TX_TS_ID (W seq) |> irq pg 1
  else s |> wr64 pg R.ETH_RX_TS_LO stamp |> wr pg R.ETH_RX_TS_ID (W seq) |> irq pg 1

def execPtpTimestamp (port : Fin 2) (tx overUdp : Bool) (stamp : BitVec 64) (seq : BitVec 16) (s : State) : Out :=
  .next (ptpStamp port.val tx overUdp stamp seq.toNat s)

/-! ## Snapshots (R402–R405) -/

/-- Registers with a shadow in a scope: page, first counter, first shadow, number. -/
def snapScope (b : Nat) : List (Nat × Nat × Nat × Nat) :=
  match b with
  | 0 => (List.range 64).map fun r => (P.RGN r, 0x500, 0x700, 64)
  | 1 => (List.range 64).map fun r => (P.RGN r, 0x2A0, 0x2C0, 3)
  | 2 => [(P.SCH0, 0x060, 0x0E0, 9), (P.SCH2, 0x050, 0x054, 1)]
  | 3 => (List.range 32).map fun c => (P.DMA c, 0x0A0, 0x0E0, 3)
  | 4 => [(P.XB, 0x100, 0x180, 8)]
  | _ => [(P.RING, 0x050, 0x060, 4)]

/-- Those of a scope word. -/
def inScope (scope : Word) : List (Nat × Nat × Nat × Nat) :=
  (List.range 6).flatMap fun b => if bit b scope then snapScope b else []

/-- Arm a request; one whose time has passed is late (R405). -/
def armSnap (at_ : BitVec 64) (scope : Word) (s : State) : State :=
  let late := at_ ≤ ringTime s
  s |> setTime { s.time with snap := some (at_, scope), captured := [], captureDone := false }
    |> wrf P.SNAP R.SNAP_STAT 0 0 1
    |> (fun t => if late then wrf P.SNAP R.SNAP_STAT 1 1 1 t else t)

/-- A request is refused while one is armed, and while it names reserved bits. -/
def snapRefused (scope : Word) (s : State) : Bool := s.time.snap.isSome || fld 15 6 scope != 0

/-- A write of SNAP.CTL.ARM; with RING the request goes round the ring too. -/
def snapArm (s : State) : State :=
  let c := rd P.SNAP R.SNAP_CTL s
  let at_ := rd64 P.SNAP R.SNAP_AT_LO s
  let scope : Word := c &&& W 0xFFFF003F
  if !takesWork P.SNAP s then s
  else if snapRefused scope s then s |> wrf P.SNAP R.SNAP_STAT 15 8 E.PERM_FAULT |> irq P.SNAP 1
  else
    let t := s |> wrf P.SNAP R.SNAP_STAT 15 8 0 |> armSnap at_ scope
    if bit 8 c then
      let ws := [tw .data (lo32 at_), tw .data (hi32 at_), tw .data scope]
      if ringUp t then ringBroadcast 0x30 5 ws t else absentRing (W 0xBFF00005) (headWord 0x30 0 3).data t
    else t

def execSnapArm (rq : Requester) (s : State) : Out := .next (onPage rq P.SNAP R.SNAP_CTL snapArm s)

def disarmSnap (s : State) : State :=
  wrf P.SNAP R.SNAP_STAT 0 0 0 (setTime { s.time with snap := none, captured := [], captureDone := false } s)

/-- A write of SNAP.CTL.CANCEL. -/
def execSnapCancel (rq : Requester) (s : State) : Out :=
  .next (onPage rq P.SNAP R.SNAP_CTL (fun s => if s.time.snap.isSome then disarmSnap s else s) s)

/-- A SNAP message at the node (Table 17.2, R402). -/
def snapMessage (at_ : BitVec 64) (scope : Word) (s : State) : State :=
  if snapRefused scope s then s |> count P.SNAP R.SNAP_REFUSED |> irq P.SNAP 1 else armSnap at_ scope s

/-- The captured values of one entry of the scope; a block that is off captures nothing. -/
def captureOne (s : State) (m : SMap Word) (e : Nat × Nat × Nat × Nat) : SMap Word :=
  if pageOff e.1 s then m
  else (List.range e.2.2.2).foldl (fun m k => tins (rkey e.1 (e.2.2.1 + 4 * k)) (rd e.1 (e.2.1 + 4 * k) s) m) m

/-- Ring time has reached AT: the islands capture their counters in scope into the other halves. -/
def snapCapture (s : State) : State :=
  match s.time.snap with
  | none => s
  | some (at_, scope) =>
    if s.time.captureDone || ringTime s < at_ || !timeRuns s then s
    else setTime { s.time with captured := (inScope scope).foldl (captureOne s) [], captureDone := true } s

def execSnapshotCapture (s : State) : Out := .next (snapCapture s)

/-- The halves exchange: the captured values become readable, and the epoch changes with them. -/
def snapExchange (s : State) : State :=
  match s.time.snap with
  | none => s
  | some (_, scope) =>
    if !s.time.captureDone then s
    else
      let epoch := fld 31 16 scope
      let t := setRegs (s.time.captured.foldl (fun m e =>
        tput (regReset (e.1 / 1024) (e.1 % 1024 * 4)) e.1 e.2 m) s.regs) s
      let t := (inScope scope).foldl (fun t e =>
        if (tfind s.time.captured (rkey e.1 e.2.2.1)).isSome then wrf e.1 R.SNAP_EPOCH 15 0 epoch t else t) t
      t |> wrf P.SNAP R.SNAP_STAT 31 16 epoch |> wr64 P.SNAP R.SNAP_TAKEN_LO (ringTime s) |> disarmSnap
        |> irq P.SNAP 0

def execSnapshotExchange (s : State) : Out := .next (snapExchange s)

/-! ## Device digest and roll-call (R406, R407) -/

/-- Bytes of a word, most significant first. -/
def beBytes (w : Word) : List Nat := [fld 31 24 w, fld 23 16 w, fld 15 8 w, fld 7 0 w]

/-- Words of a byte list, each least significant byte first. -/
def leWords : List Nat → List Word
  | a :: b :: c :: d :: r => W (a + b * 2 ^ 8 + c * 2 ^ 16 + d * 2 ^ 24) :: leWords r
  | _ => []

/-- The 584 bytes of the device digest. -/
def digestBytes (s : State) : List Nat :=
  ((List.range 64).flatMap fun r =>
    if regionOn r s then
      1 :: (beBytes (rd (P.RGN r) R.RGN_DIGEST_HI s) ++ beBytes (rd (P.RGN r) R.RGN_DIGEST_LO s))
    else List.replicate 9 0) ++ (beBytes (fwRunning s)).reverse ++ (beBytes (schemaId s)).reverse

def deviceDigest (s : State) : List Word := sha256 (leWords (digestBytes s))

def digestValid (s : State) : Bool :=
  (List.range 64).all fun r => !regionOn r s || bit 31 (rd (P.RGN r) R.RGN_DIGEST_STAT s)

/-- The device digest is brought up to date, where its inputs have changed: a recomputation is counted. -/
def refreshDigest (s : State) : State :=
  let d := deviceDigest s
  let now := (List.range 8).map fun i => rd P.RING (R.RING_DEV_DIGEST + 4 * i) s
  let t := wrf P.RING R.RING_DIGEST_STAT 31 31 (b2n (digestValid s)) s
  if d = now then t
  else
    let u := (List.range 8).foldl (fun u i => wr P.RING (R.RING_DEV_DIGEST + 4 * i) (d.getD i 0) u) t
    md P.RING R.RING_DIGEST_STAT (satFld 15 0) u

/-- This node's device digest differs from the one expected, or is not valid. -/
def digestDiffers (expect : List Word) (s : State) : Bool :=
  !digestValid s || (List.range 8).any fun i => rd P.RING (R.RING_DEV_DIGEST + 4 * i) s != expect.getD i 0

/-- Set a node's bit in a bitmap that begins at word k of a payload. -/
def setNodeBit (k node : Nat) (ws : List TWord) : List TWord :=
  ws.modify (k + node / 32) fun w => tw w.tag (setBit (node % 32) true w.data)

/-- A write of ROLLCALL_CTL.GO. -/
def rollcallGo (s : State) : State :=
  if !takesWork P.RING s then s
  else if !ringLeader s || !ringUp s || bit 1 (rd P.RING R.RING_ROLLCALL_CTL s) then
    wrf P.RING R.RING_ROLLCALL_CTL 31 24 E.PERM_FAULT s
  else
    let t := refreshDigest s
    let expect := (List.range 8).map fun i => rd P.RING (R.RING_EXPECT + 4 * i) t
    let ws := (expect ++ List.replicate 8 0).map (tw .data)
    let ws := if digestDiffers expect t then setNodeBit 8 (ownNode t) ws else ws
    t |> wrf P.RING R.RING_ROLLCALL_CTL 1 1 1 |> ringBroadcast 0x31 6 ws

def execRollcallGo (rq : Requester) (s : State) : Out :=
  .next (onPage rq P.RING R.RING_ROLLCALL_CTL rollcallGo s)

/-- The roll-call ends with a code. -/
def rollcallEnds (code : Nat) (s : State) : State :=
  md P.RING R.RING_ROLLCALL_CTL (fun w => setFld 31 24 code (setBit 2 true (setBit 1 false w))) s

/-- The query is back at the leader with its bitmap, words 8 to 15. -/
def rollcallReturn (bitmap : List Word) (s : State) : State :=
  if !bit 1 (rd P.RING R.RING_ROLLCALL_CTL s) then s
  else
    let t := (List.range 8).foldl (fun t i => wr P.RING (R.RING_MAP + 4 * i) (bitmap.getD i 0) t) s
    t |> rollcallEnds 0 |> irq P.RING 2

def execRollcallReturn (bitmap : List Word) (s : State) : Out := .next (rollcallReturn bitmap s)

/-- ROLLCALL_LIMIT passes. -/
def execRollcallTimeout (s : State) : Out :=
  .next (if bit 1 (rd P.RING R.RING_ROLLCALL_CTL s) then rollcallEnds E.ABSENT_TARGET s else s)

end Sys2Proof.Machine
end

