-- ==== Sys2Proof/Machine/UpdCore.lean ====
section
/-! DEFINITION. Update state, preparation, commitment, and the update's part in a start-up (R320, R321, R329–R334,
R339). -/
namespace Sys2Proof.Machine

open Sys2Proof

/-! ## State of an update (Table 14.8) -/

abbrev U.IDLE : Nat := 0
abbrev U.DOWNLOAD : Nat := 1
abbrev U.VERIFY : Nat := 2
abbrev U.VERIFIED : Nat := 3
abbrev U.READY : Nat := 4
abbrev U.COMMITTED : Nat := 5
abbrev U.ACTIVATING : Nat := 6
abbrev U.TRIAL : Nat := 7
abbrev U.CONFIRMING : Nat := 8
abbrev U.FALLBACK_WAIT : Nat := 9

def updState (s : State) : Nat := rdf P.UPD R.UPD_STAT 3 0 s
def setUpdState (n : Nat) (s : State) : State := wrf P.UPD R.UPD_STAT 3 0 n s
def updCode (c : Nat) (s : State) : State := wrf P.UPD R.UPD_STAT 31 24 c s
def updHold (b : Bool) (s : State) : State := wrf P.UPD R.UPD_STAT 11 11 (b2n b) s
def mdUpd (f : Upd → Upd) (s : State) : State := setUpd (f s.upd) s

/-- The pair that a bundle goes to: the inactive one; in RECOVERY pair A (R319, R340). -/
def targetPair (s : State) : Bool := if s.dev.mode = .recovery then false else !s.upd.running

/-- The source code of the device image of a pair (Table 11.2). -/
def imageSrc (b : Bool) : Nat := if b then 3 else 2

/-- The pointer as the writes in progress will leave it. -/
def latestPointer (s : State) : BootPointer :=
  match s.upd.ptrWrite.getLast? with
  | some e => e.2
  | none => s.upd.pointer

/-- A pointer write begins, or waits for those before it. -/
def writePointer (why : PtrFor) (f : BootPointer → BootPointer) (s : State) : State :=
  mdUpd (fun u => { u with ptrWrite := u.ptrWrite ++ [(why, f (latestPointer s))] }) s

/-! ## Swap set and staging planes (R329) -/

/-- IMAGE_DIGEST of the area of region r in an image. -/
def areaDigest (b : Bool) (r : Nat) (s : State) : List Word := ((area (areaOf (imageSrc b) 0 r) s).drop 9).take 8

/-- The active plane of region r is sourced from the active device image. -/
def fromActiveImage (r : Nat) (s : State) : Bool :=
  recSrc (rd (P.RGN r) R.RGN_ACTIVE_SRC s) == imageSrc s.upd.running

/-- The swap set: ON regions whose active plane comes from the active image, and whose area differs. -/
def swapSetOf (s : State) : BitVec 64 :=
  maskOf ((List.range 64).filter fun r =>
    regionOn r s && fromActiveImage r s && areaDigest s.upd.running r s != areaDigest (!s.upd.running) r s)

/-- The staging plane of region r holds what a pair's image gives. -/
def stagedFrom (b : Bool) (r : Nat) (s : State) : Bool :=
  stageValid r s && recSrc (rd (P.RGN r) R.RGN_STAGE_STAT s) == imageSrc b

/-- Preparation: the steward loads the staging planes of the swap set from the inactive image. -/
def prepare (s : State) : State :=
  let m := swapSetOf s
  (maskList m).foldl (fun t r =>
    if stagedFrom (!t.upd.running) r t || locked r t || loading r t then t
    else startLoad r { src := imageSrc (!t.upd.running), slot := 0, rq := .steward } t)
    (mdUpd (fun u => { u with swapSet := m }) s)

/-- No region of the swap set is LOCKED or loading, and each has its staging plane. -/
def planesReady (s : State) : Bool :=
  (maskList s.upd.swapSet).all fun r => !locked r s && !loading r s && stagedFrom (!s.upd.running) r s

/-- Every condition of R329. -/
def readyNow (s : State) : Bool := planesReady s && pointerReady s && s.upd.ptrWrite.isEmpty

/-- The swap set is armed for T, or NOW where T has passed (R330, R334). -/
def armUpdate (s : State) : State :=
  let m := s.upd.swapSet
  if s.fox.armed.isSome || m == 0 || (setFault m s).isSome then s
  else
    let t0 := rd64 P.UPD R.UPD_T_LO s
    let u := (maskList m).foldl (fun t r => swapState 1 r t) s
    u |> setFox { u.fox with
          armed := some (m, if t0 ≤ ringTime s then ringTime s else t0)
          drainAt := none
          gone := false
          drainedSet := 0
          swappedSet := 0 }
      |> mdUpd (fun x => { x with swapArmed := true })

/-- The staging planes that the preparation loaded are invalidated, and loads in progress dropped (R332). -/
def dropStaging (s : State) : State :=
  (maskList s.upd.swapSet).foldl (fun t r =>
    let t := if loading r t then dropLoad r E.ABSENT_TARGET t else t
    if stagedFrom (!t.upd.running) r t && !locked r t then invalidateStage r t else t) s

/-! ## Commitment (R330, R333) -/

/-- The manifest of the inactive pair is held verified and has not failed its trial. -/
def holdsVerified (m : BitVec 64) (s : State) : Bool :=
  let p := s.upd.pointer
  p.otherVerified && !p.rejected && p.otherManifest == m

/-- The commitment is recorded for T, and the swap set armed, its preparation completed first. A node that had
not made itself ready rolls forward (R333). -/
def commitLocal (t0 : BitVec 64) (s : State) : State :=
  let rolled := updState s == U.VERIFIED
  let t := s |> wr64 P.UPD R.UPD_T_LO t0 |> setUpdState U.COMMITTED
  let t := if rolled then mdUpd (fun u => { u with rollForward := true }) (prepare t) else t
  armUpdate (mdUpd (fun u => { u with arming := none }) t)

/-- COMMIT to every node: manifest and T (Table 2.8). -/
def sendCommit (m t0 : BitVec 64) (s : State) : State :=
  if ringUp s then ringBroadcast 0x41 6 ([lo32 m, hi32 m, lo32 t0, hi32 t0].map (tw .data)) s else s

/-- T of a COMMIT sent now: COMMIT_LEAD from here. -/
def leadFrom (base : BitVec 64) (s : State) : BitVec 64 :=
  base + BitVec.ofNat 64 ((rd P.UPD R.UPD_COMMIT_LEAD s).toNat * 1000)

/-- A leader whose pointer has COMMITTED set sends COMMIT again with a new T, and activates with its followers
(R333). -/
def resendCommit (s : State) : State :=
  let p := s.upd.pointer
  if ringLeader s && p.committed && updState s == U.VERIFIED && holdsVerified p.otherManifest s then
    let t0 := leadFrom (ringTime s) s
    s |> mdUpd (fun u => { u with commitSent := true }) |> sendCommit p.otherManifest t0 |> commitLocal t0
      |> mdUpd (fun u => { u with rollForward := false })
  else s

/-! ## The update in a start-up (R321, R336, R339) -/

/-- Settings pair A is P2 and P3, pair B P4 and P5; P6 stands for a retired one of them (R314). -/
def settingsSectors (b : Bool) (s : State) : List Nat :=
  (if b then [0x84, 0x85] else [0x82, 0x83]).map fun x => if s.upd.pointer.p6Map.toNat = x then 0x86 else x

def eraseSettings (b : Bool) (s : State) : State :=
  (settingsSectors b s).foldl (fun t x => stewardErase x t) s

/-- New firmware writes its settings into a pair: what it writes is its own, so the pages hold free values
(R338). -/
def newSettings (b : Bool) (s : State) : State := (settingsSectors b s).foldl (fun t x => undefSector x t) s

/-- RUN after a start-up: the state that the pointer gives. The firmware of a start-up that fell back from a trial
writes its pointer; outside a trial the unreferenced settings pair is erased, a committed leader commits again, and a
verification that was interrupted starts again (R328). -/
def resumeUpdate (s : State) : State :=
  let p := s.upd.pointer
  if !s.upd.pointerValid then s
  else if p.trial && s.upd.running == p.activeB then
    s |> setUpdState U.TRIAL
      |> mdUpd (fun u => { u with trialStart := p.commitT, attemptDue := p.attempts == 0 })
  else if p.trial then
    writePointer .bootFallback (fun q =>
      { q with
        activeB := s.upd.running
        trial := false
        attempts := 0
        settingsB := !q.settingsB
        rejected := true
        activeManifest := q.otherManifest
        otherManifest := q.activeManifest }) s
  else
    let t := eraseSettings (!p.settingsB) s
    if p.otherVerified && s.upd.running == p.activeB then resendCommit (setUpdState U.VERIFIED t)
    else if t.upd.verifyDue then setUpdState U.VERIFY (mdUpd (fun u => { u with headerPart := u.oldHeader }) t)
    else t

/-- The set that an update armed for T, and that a device reset disarmed, is armed again in RUN (R334): as long as
its planes have not changed places. -/
def rearmUpdate (s : State) : State :=
  if s.upd.swapArmed && s.fox.armed.isNone && planesReady s then armUpdate s else s

end Sys2Proof.Machine
end

