-- ==== Sys2Proof/Machine/Startup.lean ====
section
/-! DEFINITION. Start-up, staged release, resets, SAFE and RECOVERY, reload of planes and region power,
and SCAN (R22–R28, R271, R280–R293, R321, R354, R361, R362, R383, R435). -/
namespace Sys2Proof.Machine

open Sys2Proof

/-! ## Reload of an active plane (R271, R286) -/

/-- The active planes after a load of region r from a source (1 library, 2 image A, 3 image B), or the code of
the first check of R255 that fails. -/
def imagePlane (src n r : Nat) (s : State) : Except Nat (SMap Word) :=
  let ws := area (areaOf src n r) s
  let k := slot (8 * r + n) s
  if src = 1 ∧ k.retired = true then .error E.RETIRED
  else if src = 1 ∧ (!k.valid || k.corrupt || k.busy) = true then .error E.PERM_FAULT
  else if src = 2 ∧ s.store.aValid = false ∨ src = 3 ∧ s.store.bValid = false then .error E.PERM_FAULT
  else if !headerGood ws then .error E.PERM_FAULT
  else if imageFence ws != maskOf [r] then .error E.FENCE_BREACH
  else match recordsFault true (maskOf [r]) none (recordsOf (plainWords ws)) with
    | some (c, _) => .error c
    | none => match sealFault ws with
      | some c => .error c
      | none =>
        let m := planeFrom src r ws s s.planes.active
        if (planesFault [r] m).isSome then .error E.DRIVE_CONFLICT else .ok m

/-- The source code of the boot device image. -/
def bootSrc (s : State) : Nat := if s.store.bootB then 3 else 2

/-- Region r has a new active plane: its source is recorded, the staging plane is invalid, immediates take
their configured values and GSR is asserted (R100, R125, R271). -/
def planeLoaded (r src n : Nat) (m : SMap Word) (s : State) : State :=
  s |> setActive m |> wr (P.RGN r) R.RGN_ACTIVE_SRC (W (src * 2 ^ 8 + n))
    |> invalidateStage r
    |> mdRgn r (fun x => { x with unreferenced := [], frameTimes := [], rcStopped := 0, scrubStaging := false, scrubCut := false })
    |> wrf (P.RGN r) R.RGN_DIGEST_STAT 31 31 0
    |> resetImmediates r |> assertGsr r false

/-- Load region r from its area of the boot device image: the code of a failed check. -/
def loadBoot (r : Nat) (s : State) : Option Nat × State :=
  match imagePlane (bootSrc s) 0 r s with
  | .error c => (some c, s)
  | .ok m => (none, planeLoaded r (bootSrc s) 0 m s)

/-- Reload region r from its recorded source, or from the boot image where that fails (R271). -/
def reload (r : Nat) (s : State) : Option Nat × State :=
  let w := rd (P.RGN r) R.RGN_ACTIVE_SRC s
  let src := recSrc w
  if src = 0 ∨ 4 ≤ src ∨ src = bootSrc s then loadBoot r s
  else match imagePlane src (recSlot w) r s with
    | .ok m => (none, planeLoaded r src (recSlot w) m s)
    | .error c =>
      let (f, t) := loadBoot r s
      (f, err (P.RGN r) c 0 0 t)

/-- The result of loading the regions rs, lowest first, each by `f`: the first code that fails. -/
def loadAll (f : Nat → State → Option Nat × State) (rs : List Nat) (s : State) : Option Nat × State :=
  rs.foldl (fun (bad, t) r =>
    let (c, t) := f r t
    (bad <|> c, t)) (none, s)

/-! ## Region power (R354) -/

/-- Region r goes off: fenced, its work discarded, bank contents lost, staging plane invalid. -/
def powerOff (r : Nat) (s : State) : State :=
  s |> abandonSlice (fun b => sliceRegion b == some r) |> dropLoad r E.ABSENT_TARGET |> fenceRegion r
    |> invalidateStage r
    |> assertGsr r false
    |> mdRgn r (fun x => { x with power := .off, sq := [], draining := false, drained := false, inHeld := 0 })
    |> answerBanks r |> clearTaps r
    |> (List.range 16).foldl (fun t l => setBankPort (16 * r + l) Bank.idle (zeroBank (16 * r + l) t))
    |> wr (P.RGN r) R.IRQ_PEND 0

def pwrCode (c : Nat) (s : State) : State := wrf P.PMU R.PMU_RGN_PWR_CTL 23 16 c s

/-- Region r is powered and loaded: its lanes and its switch are closed until its release. -/
def powerOn (r : Nat) (s : State) : State :=
  let t := s |> mdRgn r (fun x => { x with power := .on }) |> unfenceRegion r |> clearTaps r
             |> (List.range 16).foldl (fun t l => zeroBank (16 * r + l) t)
  let (f, t) := reload r t
  match f with
  | some c => t |> powerOff r |> pwrCode c
  | none =>
    (List.range 4).foldl (fun t d => holdSide r d t)
      (t |> rcCheck r |> mdRgn r (fun x => { x with draining := true, drained := true }))

/-- A write of RGN_PWR_CTL with GO = 1. -/
def regionPower (r : Nat) (on : Bool) (s : State) : State :=
  let held := (rgn r s).power == (if on then Power.on else Power.off)
  if s.pwr.region.isSome then permFault P.PMU R.PMU_RGN_PWR_CTL s
  else if s.dev.mode ≠ .run then pwrCode E.PERM_FAULT s
  else if entering s then pwrCode E.ENTRY_REFUSED s
  else if locked r s || loading r s then pwrCode E.PERM_FAULT s
  else if (rgn r s).power == .retired then pwrCode E.RETIRED s
  else
    let t := wr P.PMU R.PMU_RGN_PWR_CTL (W (b2n on * 2 ^ 8 + r)) s
    if held then irq P.PMU 5 t
    else
      let u := if on then powerOn r t else powerOff r t
      setPwr { u.pwr with region := some (r, on) } (wrf P.PMU R.PMU_RGN_PWR_CTL 30 30 1 u)

def execRegionPowerOn (rq : Requester) (r : RegionId) (s : State) : Out :=
  .next (settleAll (onPage rq P.PMU R.PMU_RGN_PWR_CTL (regionPower r.val true) s))
def execRegionPowerOff (rq : Requester) (r : RegionId) (s : State) : Out :=
  .next (settleAll (onPage rq P.PMU R.PMU_RGN_PWR_CTL (regionPower r.val false) s))

/-- GSR is released and the region releases in its plane's order (R125, R269). -/
def releaseRegion (r : Nat) (s : State) : State :=
  [0, 1, 2].foldl (fun t k => releaseStepOf r k t) (mdRgn r (fun x => { x with gsr := false }) s)

/-- The change of region power completes. -/
def regionPowerDone (s : State) : State :=
  match s.pwr.region with
  | none => s
  | some (r, on) =>
    let t := if on && regionOn r s then releaseRegion r s else s
    t |> wrf P.PMU R.PMU_RGN_PWR_CTL 30 30 0 |> irq P.PMU 5
      |> (fun t => setPwr { t.pwr with region := none } t)

def execRegionPowerDone (s : State) : Out := .next (settleAll (regionPowerDone s))

/-! ## Records of the RST page (R293, R361) -/

def setCause (n : Nat) (s : State) : State :=
  md P.RST R.RST_CAUSE (fun w => W (fld 3 0 w * 16 + n)) s

def setPhase (n : Nat) (s : State) : State := wrf P.RST R.RST_STARTUP_STAT 19 16 n s

/-- A time of the start-up records: the model has no clock there, so it is a free value. -/
def stamp (off hi lo : Nat) (s : State) : State := drawn (wrf P.RST off hi lo (freeVal s).toNat s)

/-- The start-up records are written afresh. -/
def freshStartup (s : State) : State :=
  s |> wr P.RST R.RST_STARTUP_STAT 0 |> wr P.RST R.RST_STARTUP_T0 0 |> wr P.RST R.RST_STARTUP_T1 0
    |> wr P.RST R.RST_STARTUP_T2 0 |> wr P.RST R.RST_RELEASE_EFF 0

/-- Start-up stops with a code. -/
def stopped (c : Nat) (s : State) : State :=
  s |> setPhase 10 |> wrf P.RST R.RST_STARTUP_STAT 31 24 c

/-- A sleep entry in progress ends with the mode that it started from. -/
def dropEntry (s : State) : State :=
  if entering s then setPwr { s.pwr with entering := none } (wrf P.PMU R.PMU_ENTER_STAT 0 0 0 s) else s

/-- SAFE, RECOVERY: user I/O in the STRAP_SAFE state, SAFE_N low, DONE pulled low (R22, R285). -/
def fabricStopped (s : State) : State :=
  s |> setDev { s.dev with outReleased := false, weReleased := false, srReleased := false, doneReleased := false,
                           doneSeen := false, relStep := 0, rerun := false }
    |> dropEntry |> wrf P.RST R.RST_DONE_STAT 0 0 1

/-- SAFE from a mode other than RUN. -/
def stopSafe (c : Nat) (s : State) : State :=
  (fun t => setDev { t.dev with safeFromRun := false } t)
    (s |> fabricStopped |> enterMode .safe |> stopped c)

/-! ## Device-level resets (Table 15.8) -/

/-- A program or erase of a library slot that power ends leaves the slot invalid. -/
def endSlots (x : Store) : Store :=
  { x with slots := x.slots.filterMap fun e =>
      let y := if e.2.busy then { e.2 with busy := false, valid := false } else e.2
      if y = Slot.blank then none else some (e.1, y) }

/-- Bits of a register that RST_N keeps: the records of PMU and RST, and the guard's LOCKOUT and FAILS. -/
def rstKeep (k : Nat) : Word :=
  let p := k / 1024
  let off := k % 1024 * 4
  if p = P.GUARD ∧ off = R.GUARD_STAT then W 0x10F
  else if P.IOB 0 ≤ p ∧ p < P.IOB 12 ∧ off = R.IOB_BANK_STAT then W 0xFFFF0000
  else if p = P.RST ∧ off = R.RST_WDT_STAT then W 0xFFFF0000
  else if p = P.RST ∧ off = R.RST_DONE_STAT then W 0xFFFF0000
  else if p = P.RST ∧ R.RST_STARTUP_STAT ≤ off ∧ off ≤ R.RST_STARTUP_T2 then 0
  else if p = P.PMU ∧ (off = R.PMU_LEVEL_STAT ∨ off = R.PMU_RGN_PWR_CTL ∨ off = R.PMU_ENTER_STAT ∨
      off = R.PMU_PMBUS_CFG ∨ (R.PMU_VOUT ≤ off ∧ off < R.PMU_VOUT + 16)) then 0
  else if p = P.PMU ∨ p = P.RST then ~~~(settingBits p off)
  else 0

/-- The registers after RST_N. -/
def rstRegs (m : SMap Word) : SMap Word :=
  m.filterMap fun e =>
    let d := regReset (e.1 / 1024) (e.1 % 1024 * 4)
    let v := (e.2 &&& rstKeep e.1) ||| (d &&& ~~~(rstKeep e.1))
    if v = d then none else some (e.1, v)

/-- The update state that is not volatile (Table 15.8). -/
def keepUpd (u : Upd) : Upd :=
  { Upd.reset with
    pointer := u.pointer
    pointerValid := u.pointerValid
    chunks := u.chunks
    oldHeader := if u.headerPart = [] then u.oldHeader else u.headerPart
    partRefused := u.partRefused
    verifyDue := u.verifyDue }

/-- What POR (or a loss of supplies) and RST_N leave, but the mode: non-volatile contents, and on RST_N what
its column keeps. -/
def coldState (rstN : Bool) (s : State) : State :=
  let f := (abortFlash true s).2.flash
  { State.reset with
    pending := s.pending
    regs := if rstN then rstRegs s.regs else []
    dev := { Dev.reset with liveSafe := s.dev.liveSafe, previous := if rstN then s.dev.previous else 0 }
    store := endSlots s.store
    flash := { f with key := 0, newPw := 0 }
    upd := keepUpd s.upd
    io := if rstN then { Io.reset with tap := s.io.tap, taken := s.io.taken, boundary := s.io.boundary, tdo := s.io.tdo } else Io.reset
    free := s.free }

/-- An event that Table 1.6 does not list for the present mode (R23); OFF runs nothing. -/
def unlisted (src : Nat) (s : State) : State := if s.dev.mode = .off then s else ignored src s

/-- POR: supplies have become valid, or, in SCAN, the device leaves it. -/
def por (s : State) : State :=
  if s.dev.mode = .off ∨ s.dev.mode = .scan then coldState false s else unlisted 0 s

def execPor (s : State) : Out := .next (por s)

/-- Supplies leave their valid range. -/
def suppliesInvalid (s : State) : State :=
  if s.dev.mode = .off then s
  else
    let t := coldState false s
    setDev { t.dev with mode := .off } t

def execSuppliesInvalid (s : State) : Out := .next (suppliesInvalid s)

/-- RST_N acts (R284). -/
def rstN (s : State) : State :=
  if s.dev.mode = .off then s
  else if s.dev.mode = .scan then ignored Ev.RST_N s
  else
    let t := coldState true s
    setCause 1 (setDev { t.dev with previous :=
      if s.dev.mode = .hold then s.dev.previous else BitVec.ofNat 4 (modeCode s.dev.mode) } t)

def execRstN (s : State) : Out := .next (rstN s)

/-! ## Straps and boot selection (R283, R321) -/

def imageValid (b : Bool) (s : State) : Bool := if b then s.store.bValid else s.store.aValid

/-- A pair is bootable (R321). -/
def bootable (b : Bool) (s : State) : Bool := (slotRecord b s).isSome && imageValid b s

/-- The pair that the ROM boots. -/
def bootPair (s : State) : Option Bool :=
  let p := s.upd.pointer
  let act := p.activeB
  if strapBoot s = 2 then (if bootable (!act) s then some (!act) else none)
  else if p.trial ∧ p.attempts = 1 ∧ bootable (!act) s = true then some (!act)
  else if bootable act s then some act
  else if p.otherVerified ∧ bootable (!act) s = true then some (!act)
  else none

def enterRecovery (c : Nat) (s : State) : State := s |> fabricStopped |> enterMode .recovery |> stopped c

/-- Every region is powered, its crossings released (R16) and its GSR asserted (R280, R435). -/
def allRegionsOn (s : State) : State :=
  (List.range 64).foldl (fun t r =>
    if (rgn r t).power == .retired then t
    else
      let t := mdRgn r (fun x => { x with power := .on, gsr := true }) t
      if (chan (.portDown (portId (8 * r))) t).fenced then unfenceRegion r t else t) s

/-- LOAD begins with the banks' hardware clear. -/
def enterLoad (k : LoadKind) (s : State) : State :=
  let t := s |> enterMode .load |> setPhase 2
  setPwr { t.pwr with hare := true }
    (setDev { t.dev with loadKind := k, bankClear := true, rerun := false, relStep := 0, outReleased := false,
                         weReleased := false, srReleased := false } t)

/-- The chosen pair boots. -/
def bootInto (k : LoadKind) (b : Bool) (s : State) : State :=
  s |> setStore { s.store with bootB := b } |> setUpd { s.upd with running := b }
    |> setFwBanks s.upd.pointer.trial |> allRegionsOn |> enterLoad k

/-- Ring state and node number before any segment is up: a ring of one is node 1, as the leader is (R8, R390); a
leader without a reference of its own is LOCKED (R399). -/
def ringStraps (s : State) : State :=
  s |> wrf P.RING R.RING_STAT 15 8 (if strapRing s = 2 then 0 else 1)
    |> wrf P.RING R.RING_STAT 2 0 (if strapRing s = 1 ∨ strapRing s = 2 then 1 else 0)

/-- Values that follow from the straps (R282, R342, Table 15.11). -/
def applyStraps (s : State) : State :=
  s |> wrf P.PMU R.PMU_LEVEL_STAT 1 0 (strapPl s) |> wrf P.PMU R.PMU_LEVEL_STAT 5 4 (strapPl s)
    |> wrf P.UPD R.UPD_STAT 8 8 (if strapRing s = 2 then 0 else 1) |> ringStraps |> decideQuality

/-- The MAC addresses come from the fuses (Table 17.8). -/
def fuseMacs (s : State) : State :=
  [0, 1].foldl (fun t k => t |> wr (P.ETH k) R.ETH_MAC_LO ((Config.macAddress k).setWidth 32)
                              |> wr (P.ETH k) R.ETH_MAC_HI (((Config.macAddress k) >>> 32).setWidth 32)) s

/-- The fuse read and, where it applies, the strap sampling are complete. -/
def strapSampling (pins : BitVec 15) (s : State) : State :=
  if s.dev.mode ≠ .hold then unlisted 0 s
  else match s.dev.holdKind with
    | .test => s
    | .reboot => if bootable false s then bootInto .powerUp false (loadPointer s) else enterRecovery E.ABSENT_TARGET s
    | .boot =>
      if s.dev.sampled then s
      else
        let t := s |> setDev { s.dev with straps := pins &&& 0x77FF, sampled := true } |> applyStraps
                   |> freshStartup |> stamp R.RST_STARTUP_T0 15 0 |> fuseMacs |> loadPointer
        if strapBoot t = 3 then stopped E.PERM_FAULT t
        else if strapBoot t = 1 then enterRecovery E.NONE t
        else match bootPair t with
          | some b => bootInto .powerUp b t
          | none => enterRecovery E.ABSENT_TARGET t

def execStrapSampling (pins : BitVec 15) (s : State) : Out := .next (strapSampling pins s)

/-- The live STRAP_SAFE pins change (R283). -/
def execStrapSafePins (pins : BitVec 2) (s : State) : Out := .next (setDev { s.dev with liveSafe := pins } s)

/-! ## Release (R289–R291) -/

def relRecord (s : State) : List Word := tget [] s.store.relRec (b2n s.store.bootB)

/-- POWER of the release record; an image without a record keeps every region. -/
def relPower (s : State) : BitVec 64 :=
  match relRecord s with
  | [] => BitVec.allOnes 64
  | ws => join64 (ws.getD 1 0) (ws.getD 2 0)

/-- ORDER in use, 1 to 6. -/
def relOrder (s : State) : Nat :=
  match fld 2 0 ((relRecord s).getD 0 0) with
  | 0 => [1, 4, 6, 3].getD (strapOrder s) 1
  | n => n

/-- The item of a release step: 0 OUT, 1 WE, 2 SR. -/
def relItem (order k : Nat) : Nat :=
  ([[0, 1, 2], [0, 2, 1], [1, 0, 2], [1, 2, 0], [2, 0, 1], [2, 1, 0]].getD (order - 1) [0, 1, 2]).getD k 0

/-- RELEASE_EFF of the boot image's record. -/
def putEff (s : State) : State :=
  let w := (relRecord s).getD 0 0
  wr P.RST R.RST_RELEASE_EFF
    (W (fld 23 16 w * 2 ^ 16 + fld 15 8 w * 2 ^ 8 + (if fld 2 0 w = 0 then 8 else 0) + relOrder s)) s

/-- RELEASE of a start-up or a wake begins; after a power-up test the regions outside POWER go off. -/
def beginRelease (s : State) : State :=
  let t := s |> enterMode .release |> setPhase 4 |> putEff
  let t := setDev { t.dev with rerun := false, relStep := 0 } t
  if t.dev.loadKind = .wakeSleep then t
  else (List.range 64).foldl (fun u r =>
    if inMask (relPower u) r || !regionOn r u then u else powerOff r u) t

/-- A set whose swap the reset of a device disarms or aborts (R270); one that has gone goes on. -/
def resetSet (s : State) : State :=
  match s.fox.armed with
  | none => s
  | some (m, _) =>
    if s.fox.gone then s
    else if s.fox.drainAt.isSome then
      let late := (maskList m).find? fun r => !inMask s.fox.drainedSet r || !s.sched.reported.contains r
      abortSet E.ABSENT_TARGET (late.getD ((maskList m).headD 0)) s
    else disarmSet ((maskList m).foldl (fun t r => swapState 0 r t) s)

/-- Registers that a host, watchdog or ring reset leaves on each page: they show state that the reset keeps
(Table 15.8). -/
def keepOnReset (p off : Nat) : Bool :=
  match pageKind p with
  | some .dev => off == R.DEV_MODE || off == R.DEV_MBX_H_CTL || off == R.DEV_MBX_F_CTL || 0x100 ≤ off
  | some .rgn => keepRgn off
  | some .xb => off == R.XB_STAT || (R.XB_SPARE ≤ off && off < R.XB_SPARE + 32) || (0x080 ≤ off && off < 0x100)
  | some .fox => off == R.FOX_LOCK
  | some .csc => off == R.CSC_PROG_STAT
  | some .cdf => off == R.CDF_FW_BANKS || (R.CDF_BANK_STAT ≤ off && off < R.CDF_BANK_STAT + 16)
  | some .guard => off == R.GUARD_STAT
  | some .upd => true
  | some .clk => off == R.CLK_STEWARD_CLK || (R.CLK_CL_STAT ≤ off && off < 0x080)
  | some .iob => off == R.IOB_HOLD || off == R.IOB_BANK_STAT || 0x400 ≤ off
  | some .ring => off == R.RING_STAT || off == R.RING_HOP_DELAY || 0x080 ≤ off
  | some .time => off == R.TIME_STAT || off == R.TIME_OFFSET || off == R.TIME_RATIO
  | some .pcie => off == R.PCIE_LINK_STAT
  | some .eth => off == R.ETH_STAT
  | some .wpk => off == R.WPK_SCAN_STAT || off == R.WPK_WIN_STAT || off == R.WPK_BG_STAT
  | some .owl => off == R.OWL_STAT
  | some .sch2 => 0x400 ≤ off
  | _ => false

/-- Status, counters and records of every page but PMU and RST return to their reset values (Table 15.8). -/
def clearAllStatus (s : State) : State :=
  let pages := allPages.filter fun p => p != P.PMU && p != P.RST
  let t := pages.foldl (fun t p => clearStatus p (keepOnReset p) t) s
  let t := (List.range 8).foldl (fun t n => wrf P.CLK (R.CLK_CL_STAT + 8 * n) 30 30 0 t) t
  let t := (List.range 64).foldl (fun t r => clearHistories r t) t
  setTime { t.time with snap := none, captured := [], captureDone := false } t

/-- The request that the memory agent serves is discarded, and answered so (R56). -/
def agentGone (s : State) : State :=
  match s.dma.agent with
  | some j => svcReply 3 ⟨j.head, j.route, [], 0⟩ [] E.ABSENT_TARGET (setDma { s.dma with agent := none } s)
  | none => s

/-- Scheduler and DMA state is discarded as their soft resets discard it. -/
def discardWork (s : State) : State :=
  let t := schedSoftReset s
  let t := agentGone ((List.range 32).foldl (fun t c => dmaReset c t) t)
  setDma { t.dma with agent := none, hra := none, hraRemote := false, invalWait := [] } t

/-- The watchdog count at its reset value. -/
def clearWatchdog (s : State) : State := wrf P.RST R.RST_WDT_STAT 15 0 0 s

/-- Reset of a running device: the release runs again (R292, Table 12.4). -/
def rerunRelease (cause : Nat) (s : State) : State :=
  let t := s |> dropEntry |> resetSet |> discardWork |> clearAllStatus |> clearWatchdog
  let t := (List.range 64).foldl (fun u r => if regionOn r u then assertGsr r false u else u) t
  let t := t |> setCause cause |> wrf P.RST R.RST_STARTUP_STAT 8 8 1 |> putEff
  enterMode .release (setDev { t.dev with rerun := true, relStep := 0, outReleased := false, weReleased := false,
                                          srReleased := false, resetWaiting := none } t)

/-- Registers that show ring time or a link, which a restart from SAFE keeps: the MSI-X table is part of the host link. -/
def linkRegs (k : Nat) : Bool :=
  let p := k / 1024
  let off := k % 1024 * 4
  ((p == P.RING || p == P.TIME) && keepOnReset p off) ||
    (p == P.PCIE && (off == R.PCIE_LINK_STAT || (R.PCIE_MSIX_TABLE ≤ off && off < R.PCIE_MSIX_TABLE + 0x408)))

/-- The blocks of a restart through SAFE: a cold state that keeps the straps, ring time and the links (R435). -/
def restartState (s : State) : State :=
  let t := coldState true s
  { t with
    dev := { t.dev with mode := .safe, previous := s.dev.previous, straps := s.dev.straps, sampled := true }
    regs := (s.regs.filter fun e => linkRegs e.1).foldl (fun m e => tins e.1 e.2 m) t.regs
    time := { s.time with snap := none, captured := [], captureDone := false }
    ring := s.ring
    io := { t.io with qspi := s.io.qspi, qspiDropped := s.io.qspiDropped, qspiWait := s.io.qspiWait,
                      qspiOut := s.io.qspiOut,
                      msixSent := s.io.msixSent, msixEnable := s.io.msixEnable,
                      msixMask := s.io.msixMask, doneLine := s.io.doneLine } }

/-- A restart from SAFE (R435): state as after RST_N, but the straps, ring time and the links stay. -/
def restartSafe (cause : Nat) (s : State) : State :=
  let t := restartState s |> fuseMacs |> freshStartup |> setCause cause
             |> wrf P.PMU R.PMU_LEVEL_STAT 1 0 (strapPl s) |> wrf P.PMU R.PMU_LEVEL_STAT 5 4 (strapPl s)
             |> wrf P.UPD R.UPD_STAT 8 8 (if strapRing s = 2 then 0 else 1) |> loadPointer
  match bootPair t with
  | some b => bootInto .restart b t
  | none => enterRecovery E.ABSENT_TARGET t

/-- A host soft (2), watchdog (3) or ring (4) reset. In SLEEP and BEAR a ring reset wakes the device first: the
wake is in Sleep.lean. -/
def deviceReset (cause : Nat) (s : State) : State :=
  let src := match cause with
    | 2 => Ev.HOST_SOFT_RESET
    | 3 => Ev.WATCHDOG
    | _ => Ev.RING_RESET
  match s.dev.mode with
  | .run | .doze =>
    if s.fox.gone then setDev { s.dev with resetWaiting := some cause } s else rerunRelease cause s
  | .safe => if cause = 2 then restartSafe 2 s else ignored src s
  | .off => s
  | _ => ignored src s

def execHostSoftReset (rq : Requester) (s : State) : Out :=
  .next (onPage rq P.DEV R.PAGE_CTL (deviceReset 2) s)

/-- The release notice of a region; a device reset that waited for the end of the swap then acts (R270). -/
def execSwapRelease (r : RegionId) (s : State) : Out :=
  let t := swapRelease r.val s
  .next (match t.dev.resetWaiting with
    | some c => if t.fox.gone then t else deviceReset c (setDev { t.dev with resetWaiting := none } t)
    | none => t)

/-! ## LOAD, SELFTEST and release steps -/

/-- The power-up load ends (R286). -/
def powerUpLoadDone (s : State) : State :=
  if s.dev.mode ≠ .load then unlisted 0 s
  else if s.dev.loadKind = .wakeSleep ∨ s.dev.loadKind = .wakeBear then s
  else
    let (f, t) := loadAll loadBoot (List.range 64) s
    let t := stamp R.RST_STARTUP_T0 31 16 t
    match f with
    | some c => stopSafe c t
    | none => t |> loadIoRecord |> beginSelftest

def execPowerUpLoadDone (s : State) : Out := .next (powerUpLoadDone s)

/-- Blocks leave the test re-initialised (R376). -/
def afterTest (s : State) : State :=
  let t := setBanks Banks.reset s
  (List.range 64).foldl (fun t r => assertGsr r false t) t

/-- Every power-up slice has ended (R377, R286). -/
def selftestDone (s : State) : State :=
  if s.dev.mode ≠ .selftest then unlisted 0 s
  else
    let t := s |> putVerdicts |> afterTest |> stamp R.RST_STARTUP_T1 15 0
    let code := if t.wpk.failed ≠ 0 then E.BIST_FAIL else if t.wpk.incomplete ≠ 0 then E.BIST_INCOMPLETE else E.NONE
    if strapTest t = 3 then
      let u := enterMode .hold t
      stopped code (setDev { u.dev with holdKind := .test } u)
    else if code = E.NONE then beginRelease t
    else stopSafe code t

def execSelftestDone (s : State) : Out := .next (selftestDone s)

/-- DONE is released (step 7 of Table 12.1). -/
def releaseDone (s : State) : State :=
  let t := s |> wrf P.RST R.RST_DONE_STAT 0 0 0 |> setPhase 5
  let t := setDev { t.dev with doneReleased := true, doneSeen := !strapSync s } t
  if strapSync s then t else stamp R.RST_STARTUP_T2 15 0 t

/-- The islands leave the Hare clock for their bytes of the present level, and every loop is locked. -/
def leaveHare (s : State) : State :=
  let t := takeAll s
  let t := setPwr { t.pwr with hare := false } t
  (List.range 64).foldl (fun t r => if regionOn r t then rcCheck r t else t) (lockAll t)

/-- Power-good and clock-loop lock of a start-up or a wake (R280, R349, R353, Table 15.7). -/
def lockDone (linear : Bool) (exponent : BitVec 5) (retried : Bool) (s : State) : State :=
  if s.dev.mode ≠ .release then unlisted 0 s
  else if s.dev.rerun ∨ !s.pwr.hare then s
  else
    let locked (t : State) : State :=
      t |> leaveHare |> stamp R.RST_STARTUP_T1 31 16
        |> (fun t => if retried then wrf P.RST R.RST_STARTUP_STAT 6 6 1 t else t)
    match s.dev.loadKind with
    | .wakeSleep => locked s
    | .wakeBear =>
      let (bad, t) := loadClockRecord s
      if bad then stopSafe E.LEVEL_REFUSED t
      else
        let u := locked t
        let l := currentLevel u
        if l = 0 then u
        else u |> wrf P.PMU R.PMU_LEVEL_STAT 8 8 1 |> voutSend l
               |> setChange (some { target := l, source := l, slower := true, step := .ack, left := [] })
    | _ =>
      if !linear then stopSafe E.LEVEL_REFUSED s
      else
        let (bad, t) := loadClockRecord (setVouts exponent s)
        if bad then stopSafe E.LEVEL_REFUSED t
        else t |> voutSend (strapPl t) |> wrf P.PMU R.PMU_LEVEL_STAT 9 9 1 |> locked |> releaseDone

def execStartupLockDone (linear : Bool) (exponent : BitVec 5) (retried : Bool) (s : State) : Out :=
  .next (lockDone linear exponent retried s)

/-- The DONE line has been high for 1.0 µs (R287). -/
def doneSeenHigh (s : State) : State :=
  if s.dev.mode = .off then s
  else
    let t := setIo { s.io with doneLine := true } s
    if t.dev.mode = .release ∧ t.dev.doneReleased ∧ !t.dev.doneSeen then
      t |> setDev { t.dev with doneSeen := true } |> wrf P.RST R.RST_STARTUP_STAT 7 7 1
        |> stamp R.RST_STARTUP_T2 15 0
    else t

def execDoneSeenHigh (s : State) : Out := .next (doneSeenHigh s)

/-- The DONE line falls; counted in RUN (R288). -/
def doneFall (s : State) : State :=
  if s.dev.mode = .off then s
  else
    let t := setIo { s.io with doneLine := false } s
    if t.dev.mode = .run then md P.RST R.RST_DONE_STAT (satFld 31 16) t else t

def execDoneFall (s : State) : Out := .next (doneFall s)

/-- The release may make its next step: a re-run at once, else after the clocks and the DONE step. -/
def releaseReady (s : State) : Bool :=
  s.dev.rerun || (!s.pwr.hare && s.pwr.change.isNone &&
    (s.dev.loadKind == .wakeSleep || s.dev.loadKind == .wakeBear || (s.dev.doneReleased && s.dev.doneSeen)))

/-- The last release step is complete: RUN. -/
def enterRun (s : State) : State :=
  let rerun := s.dev.rerun
  let wake := !rerun && (s.dev.loadKind == .wakeSleep || s.dev.loadKind == .wakeBear)
  let t := enterMode .run s
  let t := if rerun then
      let w := rd P.RST R.RST_RELEASE_EFF t
      wr P.RST R.RST_REL_LAST (W (5 + fld 15 8 w + fld 23 16 w)) t
    else t |> setPhase 9 |> stamp R.RST_STARTUP_T2 31 16
  let t := if wake then irq P.PMU 3 t else t
  let t := if rerun then rearmUpdate t else if s.dev.loadKind == .wakeSleep then t else resumeUpdate t
  if t.dev.ringResetWaiting then deviceReset 4 (setDev { t.dev with ringResetWaiting := false } t) else t

/-- One release step. -/
def releaseStep (s : State) : State :=
  if s.dev.mode ≠ .release then unlisted 0 s
  else if !releaseReady s then s
  else
    let k := s.dev.relStep
    let d := { s.dev with relStep := k + 1 }
    let d := match relItem (fld 2 0 (rd P.RST R.RST_RELEASE_EFF s)) k with
      | 0 => { d with outReleased := true }
      | 1 => { d with weReleased := true }
      | _ => { d with srReleased := true }
    let t := setDev d s
    let t := if s.dev.rerun then t else setPhase (6 + k) t
    if k = 2 then enterRun t else t

def execReleaseStep (s : State) : Out := .next (releaseStep s)

/-! ## Commands of DEV.CMD (R66) -/

/-- CONTINUE from HOLD after a self-test that passed. -/
def cmdContinue (rq : Requester) (s : State) : State :=
  if s.dev.mode = .hold ∧ s.dev.holdKind = .test ∧ rq = .host ∧ allPass s = true then beginRelease s
  else ignored Ev.CONTINUE s

def execContinueCmd (rq : Requester) (s : State) : Out := .next (onPage rq P.DEV R.DEV_CMD (cmdContinue rq) s)

/-- SAFE from RUN: the fabric stops. -/
def enterSafe (s : State) : State :=
  (fun t => setDev { t.dev with safeFromRun := true } t) (enterMode .safe (fabricStopped s))

def cmdEnterSafe (rq : Requester) (s : State) : State :=
  if s.dev.mode = .run ∧ rq = .host then enterSafe s else ignored Ev.ENTER_SAFE s

def execEnterSafe (rq : Requester) (s : State) : Out := .next (onPage rq P.DEV R.DEV_CMD (cmdEnterSafe rq) s)

/-- REBOOT from RECOVERY: with the download into slot A verified, HOLD. -/
def cmdReboot (rq : Requester) (s : State) : State :=
  if s.dev.mode = .recovery ∧ rq = .host ∧ rdf P.UPD R.UPD_STAT 3 0 s = 3 then
    let t := enterMode .hold s
    freshStartup (setDev { t.dev with holdKind := .reboot } t)
  else ignored Ev.REBOOT s

def execReboot (rq : Requester) (s : State) : Out := .next (onPage rq P.DEV R.DEV_CMD (cmdReboot rq) s)

/-! ## SCAN (R383) -/

/-- The JTAG SCAN instruction: the secrets are zeroised. -/
def scan (s : State) : State :=
  if s.dev.mode = .hold ∨ s.dev.mode = .safe then
    let u : Upd := { keepUpd s.upd with running := s.upd.running }
    let f : Fox := { s.fox with stream := none, buffer := [], heldWrites := [], loads := s.fox.loads.filter fun e => e.2.src < 4 }
    let t := s |> setIo { s.io with tap := .scan } |> zeroiseKeys |> setUpd u |> setFox f
    t |> setWpk { t.wpk with zeroising := true } |> wrf P.WPK R.WPK_SCAN_STAT 0 0 1
  else unlisted Ev.SCAN s

def execScan (s : State) : Out := .next (scan s)

/-- Zeroisation is complete: the key-fuse read path locks, and the device enters SCAN. -/
def zeroised (s : State) : State :=
  if s.wpk.zeroising ∧ (s.dev.mode = .hold ∨ s.dev.mode = .safe) then
    let t := wrf P.WPK R.WPK_SCAN_STAT 1 1 1 s
    t |> setWpk { t.wpk with zeroising := false } |> fabricStopped |> enterMode .scan
  else unlisted 0 s

def execZeroisationDone (s : State) : Out := .next (zeroised s)

end Sys2Proof.Machine
end

