-- ==== Sys2Proof/Machine/Sleep.lean ====
section
/-! DEFINITION. Sleep entry, wake, pad holds and the watchdog (R26, R27, R355–R361, R401). -/
namespace Sys2Proof.Machine

open Sys2Proof

/-! ## Pads (R283, R285, R360, R416) -/

/-- What the device puts beneath the latch of user pad c of bank b: output enable and value. Before the OUT step
it is in the STRAP_SAFE state, which drives nothing. An Owl port prevails over an Ethernet MAC, and that over the
region's lanes (R420, R421). The lanes can drive each half of the IOB cycle (R417). -/
def padLive (b c : Nat) (second : Bool) (s : State) : Bool × Bool :=
  if s.dev.outReleased then
    match owlDrive b c s with
    | some v => (true, v)
    | none => if (macServes b c s).isSome then macDrive b c s else padHalf b c second s
  else (false, false)

def padHeld (b : Nat) (s : State) : Bool := bit 0 (rd (P.IOB b) R.IOB_HOLD s)

/-- The place of user pin c of bank b in the boundary register. -/
def pinIndex (b c : Nat) : Nat := if b < 8 then 48 * b + c else 384 + 36 * (b - 8) + c

/-- What the TAP drives on a pin it has taken (R426). -/
def tapDrive (pin : Nat) (s : State) : Option (Bool × Bool) :=
  match s.io.taken with
  | none => none
  | some .highz => some (false, false)
  | some _ => some (s.io.boundary.getD (2 * pin) false, s.io.boundary.getD (2 * pin + 1) false)

/-- What user pad c of bank b drives: nothing without VCCO (R428); a latched pad keeps its latch (R360). -/
def padOut (b c : Nat) (second : Bool) (s : State) : Bool × Bool :=
  if !vccoOk b s then (false, false)
  else match tapDrive (pinIndex b c) s with
    | some d => d
    | none => if padHeld b s then tget (false, false) s.io.latched (b * 64 + c) else padLive b c second s

/-- What a pad drives at an instant: which half of the IOB cycle that is, is open where the halves differ. -/
def padNow (b c : Nat) (s : State) : Bool × Bool :=
  padOut b c ((Config.freeWord (s.free + 600 + pinIndex b c)).getLsbD 0) s

/-- The free values that a view of the pins draws. -/
def viewDrawn (s : State) : State := setFree (s.free + 1300) s

/-- Every pad is latched with what it drives (step 3 of Table 15.6). -/
def latchPads (s : State) : State :=
  let ps := (List.range 12).flatMap fun b => (List.range (bankCells b)).map fun c => (b, c)
  let m := ps.foldl (fun m e => tput (false, false) (e.1 * 64 + e.2) (padNow e.1 e.2 s) m) ([] : SMap (Bool × Bool))
  (List.range 12).foldl (fun t b => wr (P.IOB b) R.IOB_HOLD 1 t) (viewDrawn (setIo { s.io with latched := m } s))

/-- The latches of bank b are released. -/
def unlatch (b : Nat) (s : State) : State :=
  setIo { s.io with latched := tclear (b * 64) (b * 64 + 64) s.io.latched } (wr (P.IOB b) R.IOB_HOLD 0 s)

/-- A write of HOLD_RELEASE (R360). -/
def holdRelease (b : Nat) (s : State) : State :=
  if !s.dev.outReleased then permFault (P.IOB b) R.IOB_HOLD_RELEASE s else unlatch b s

def execHoldRelease (rq : Requester) (b : IobId) (s : State) : Out :=
  .next (onPage rq (P.IOB b.val) R.IOB_HOLD_RELEASE (holdRelease b.val) s)

/-! ## Refusal of an entry (R356, R357) -/

/-- The ring port has a message in flight. -/
def ringInFlight (s : State) : Bool :=
  let i := chan .ringIn s
  let o := chan .ringOut s
  i.buffer ≠ [] || i.flight ≠ [] || i.route.isSome || o.sendq ≠ [] || o.flight ≠ [] ||
    s.ring.mine ≠ [] || s.ring.fwd ≠ []

/-- Transceiver quads in training: TQ0 and TQ1 carry the ring segments, TQ2 PCI Express (R390, R424). -/
def quadTraining (s : State) : List Nat :=
  let ring := strapRing s == 1 || strapRing s == 2
  let link := rd P.PCIE R.PCIE_LINK_STAT s
  (if ring && !s.ring.inUp then [0xFE00] else []) ++ (if ring && !s.ring.outUp then [0xFE01] else []) ++
    (if !strapQspi s && !bit 7 link && fld 13 8 link != 0 then [0xFE02] else [])

/-- The refusers of an entry to a state (Table 15.5), lowest logged value first. -/
def refusers (state : Nat) (s : State) : List Nat :=
  let cdf := (List.range 4).any fun b =>
    let x := fbank b s
    x.op.isSome || x.suspended.isSome || x.load.isSome || x.resumeWaits
  let fox := s.fox.loads ≠ [] || s.fox.stream.isSome || s.fox.programs ≠ [] || s.fox.erasing ≠ [] || s.fox.armed.isSome
  let st := rdf P.UPD R.UPD_STAT 3 0 s
  let dma (c : Nat) : Bool :=
    let x := dchan c s
    x.cur.isSome || x.queue ≠ [] || x.chain.isSome || descWaits c s
  (if s.pwr.change.isSome || s.pwr.region.isSome then [P.PMU] else []) ++
  (if s.wpk.bg.isSome then [P.WPK] else []) ++
  (if cdf then [P.CDF] else []) ++
  (if fox then [P.FOX] else []) ++
  (if 4 ≤ st && st ≤ 6 then [P.UPD] else []) ++
  ((List.range 32).filter dma).map (fun c => P.DMA c) ++
  (if state ≠ 1 ∧ ringInFlight s = true then [P.RING] else []) ++
  quadTraining s

/-- An entry is refused or aborted: the counter, the refusal log and the outcome. -/
def entryEnded (state : Nat) (aborted : Bool) (refuser : Nat) (s : State) : State :=
  let p := rd P.PMU R.PMU_REFUSAL_PTR s
  let n := fld 3 0 p
  s |> count P.PMU (if aborted then R.PMU_ENTRY_ABORTED else R.PMU_ENTRY_REFUSED)
    |> wr P.PMU (R.PMU_REFUSAL_LOG + 4 * n) (W (state * 2 ^ 30 + b2n aborted * 2 ^ 29 + refuser))
    |> wr P.PMU R.PMU_REFUSAL_PTR (W (b2n (bit 31 p || n == 15) * 2 ^ 31 + (n + 1) % 16))
    |> wr P.PMU R.PMU_ENTER_STAT (W (E.ENTRY_REFUSED * 2 ^ 24 + state * 2 ^ 16))
    |> err P.PMU E.ENTRY_REFUSED 0 0 |> irq P.PMU 2

/-! ## What the sleep states keep (Table 15.8) -/

/-- Retirements and fences of the word channels survive; words and credits do not. -/
def keepChannels (m : SMap Channel) : SMap Channel :=
  m.filterMap fun e =>
    if e.2.retired || e.2.fenced then
      some (e.1, { Channel.free e.2.credits with retired := e.2.retired, fenced := e.2.fenced })
    else none

/-- The time unit at step 3: the ratio, a measured value, is a free value (R401). -/
def freezeTime (s : State) : State :=
  let t := drawn (wr P.TIME R.TIME_RATIO (freeVal s) s)
  setTime { t.time with frozen := t.time.ringTime } t

/-- An armed snapshot request is discarded (R405). -/
def missSnap (armed : Bool) (s : State) : State :=
  if armed then md P.SNAP R.SNAP_STAT (fun w => setBit 0 false (setBit 2 true w)) s else s

/-- The banks that SLEEP keeps: those of the selected regions, without ports and upsets. -/
def sleepBanks (keep : BitVec 64) (x : Banks) : Banks :=
  { words := x.words.filter (fun e => inMask keep (e.1 / 8192 / 16))
    ports := x.ports.filterMap fun e =>
      if inMask keep (e.1 / 16) && e.2.uncleared ≠ [] then some (e.1, { Bank.idle with uncleared := e.2.uncleared })
      else none
    upsets := []
    engines := [] }

/-- The registers and regions at the entry of SLEEP: settings kept, status cleared. -/
def sleepStatus (s : State) : State :=
  let armed := s.time.snap.isSome
  let t := s |> latchPads |> freezeTime |> schedClear |> clearAllStatus |> clearWatchdog |> missSnap armed
  let t := (List.range 64).foldl (fun t r => invalidateStage r t) t
  let t := (List.range 64).foldl (fun t r => mdRgn r (fun x =>
    { x with gsr := true, sq := [], draining := false, drained := false, inHeld := 0, frameTimes := [] }) t) t
  t |> wr P.RING R.RING_STAT 0 |> wr P.PCIE R.PCIE_LINK_STAT 0 |> wr (P.ETH 0) R.ETH_STAT 0
    |> wr (P.ETH 1) R.ETH_STAT 0 |> wr P.CLK R.CLK_STEWARD_CLK 0

/-- SLEEP: settings, selected banks and steward memory are kept. -/
def intoSleep (s : State) : State :=
  let keep := rd64 P.PMU R.PMU_RETAIN_LO s
  let t := sleepStatus s
  t |> setNet (keepChannels t.net) |> setFab Fabric.reset |> setMacs [] |> setLogic Logic.reset
    |> setBanks (sleepBanks keep t.banks) |> setDma Dma.reset |> setRing RingPort.reset
    |> setIo { t.io with qspi := [], qspiWait := none, qspiDropped := false, msixEnable := false, msixMask := false }
    |> enterMode .sleep

/-- Registers that BEAR leaves: the always-on pages, but the settings of RST; LOCK and the region table;
ignored events, retirements, the guard's lockout. -/
def bearKeeps (k : Nat) : Word :=
  let p := k / 1024
  let off := k % 1024 * 4
  match pageKind p with
  | some .pmu => BitVec.allOnes 32
  | some .rst => if off = R.RST_WDT_STAT then W 0xFFFF0000 else ~~~(settingBits p off)
  | some .fox => if off = R.FOX_LOCK ∨ (R.FOX_ALLOW_HOST_LO ≤ off ∧ off ≤ R.FOX_ALLOW_FABRIC_HI) then
      BitVec.allOnes 32 else 0
  | some .dev => if off = R.DEV_MODE then BitVec.allOnes 32 else 0
  | some .guard => if off = R.GUARD_STAT then W 0x10F else 0
  | some .rgn => if (R.RGN_TAP_RETIRED ≤ off ∧ off < R.RGN_TAP_RETIRED + 16) ∨ off = R.RGN_BANK_RETIRED ∨
      off = R.RGN_TP_DISABLED then BitVec.allOnes 32 else if off = R.RGN_SW_STAT then W 0xFFFF0000 else 0
  | some .xb => if off = R.XB_STAT ∨ (R.XB_SPARE ≤ off ∧ off < R.XB_SPARE + 32) ∨ (0x080 ≤ off ∧ off < 0x100) then
      BitVec.allOnes 32 else 0
  | some .time => if off = R.TIME_RATIO then BitVec.allOnes 32 else 0
  | some .iob => if off = R.IOB_HOLD then 1 else if off = R.IOB_BANK_STAT then W 0xFFFF0000 else 0
  | _ => 0

def bearRegs (m : SMap Word) : SMap Word :=
  m.filterMap fun e =>
    let d := regReset (e.1 / 1024) (e.1 % 1024 * 4)
    let v := (e.2 &&& bearKeeps e.1) ||| (d &&& ~~~(bearKeeps e.1))
    if v = d then none else some (e.1, v)

/-- What BEAR keeps of state s, whose pads and time are frozen in t. -/
def bearState (s t : State) : State :=
  { State.reset with
    pending := t.pending
    dev := { Dev.reset with
      mode := s.dev.mode
      previous := s.dev.previous
      straps := s.dev.straps
      liveSafe := s.dev.liveSafe
      sampled := true
      doneReleased := s.dev.doneReleased
      doneSeen := s.dev.doneSeen }
    regs := bearRegs t.regs
    net := keepChannels t.net
    rgns := s.rgns.filterMap fun e =>
      if e.2.power == .retired then some (e.1, { Rgn.blank with power := .retired }) else none
    store := t.store
    flash := { t.flash with key := 0, newPw := 0, seq := [] }
    upd := keepUpd t.upd
    time := { TimeUnit.reset with ringTime := t.time.ringTime, frozen := t.time.frozen }
    io := { Io.reset with
      latched := t.io.latched
      lanesRetired := t.io.lanesRetired
      tap := t.io.tap
      taken := t.io.taken
      boundary := t.io.boundary
      tdo := t.io.tdo
      doneLine := t.io.doneLine
      msixSent := t.io.msixSent
      pmbus := t.io.pmbus }
    free := t.free }

/-- BEAR: only the always-on pages, non-volatile contents, straps, ring time and retirements are kept. -/
def intoBear (s : State) : State :=
  let armed := s.time.snap.isSome
  let u := bearState s (freezeTime (latchPads s)) |> clearWatchdog |> missSnap armed
  let u := if bit 0 (rd P.PMU R.PMU_BEAR_CFG u) then pmbusSend 0x01 0 u else u
  enterMode .bear (fuseMacs u)

/-- The entry in progress reaches its state (steps 4 to 6 of Table 15.6). -/
def entryReached (s : State) : State :=
  match s.pwr.entering with
  | none => s
  | some st =>
    let t := s |> wrf P.PMU R.PMU_ENTER_STAT 0 0 0
    let t := setPwr { t.pwr with entering := none, entryLevel := currentLevel t } t
    match st with
    | 1 => enterMode .doze t
    | 2 => intoSleep t
    | _ => intoBear t

/-- A write of PMU.ENTER: from the host only (R355); STATE 0 has no effect. `reached` says that nothing comes before step 4 of the entry, so that the state is
reached; else the entry is in progress, and a wake may still abort it. -/
def enterState (rq : Requester) (state : Nat) (reached : Bool) (s : State) : State :=
  if rq ≠ .host then permFault P.PMU R.PMU_ENTER s
  else if state = 0 then s
  else if s.dev.mode ≠ .run then ignored Ev.PMU_ENTER s
  else if entering s then s
  else match refusers state s with
    | r :: _ => entryEnded state false r s
    | [] =>
      let t := wr P.PMU R.PMU_ENTER_STAT (W (state * 2 ^ 16 + 1)) s
      let t := setPwr { t.pwr with entering := some state } t
      if reached then entryReached t else t

def execEnterDoze (rq : Requester) (reached : Bool) (s : State) : Out :=
  .next (onPage rq P.PMU R.PMU_ENTER (enterState rq 1 reached) s)
def execEnterSleep (rq : Requester) (reached : Bool) (s : State) : Out :=
  .next (onPage rq P.PMU R.PMU_ENTER (enterState rq 2 reached) s)
def execEnterBear (rq : Requester) (reached : Bool) (s : State) : Out :=
  .next (onPage rq P.PMU R.PMU_ENTER (enterState rq 3 reached) s)

/-! ## Wake (R359, R401) -/

/-- Ring time after a sleep (R401). -/
def wakeTime (tally : Nat) (s : State) : State :=
  let v := s.time.frozen.toNat + tally * (rd P.TIME R.TIME_RATIO s).toNat / 2 ^ 16
  let q := rdf P.TIME R.TIME_STAT 2 0 s
  let t := s |> setTime { s.time with ringTime := BitVec.ofNat 64 v } |> wr P.TIME R.TIME_TALLY (satAdd 0 tally)
             |> wrf P.TIME R.TIME_STAT 2 0 3
  if q = 3 then t else irq P.TIME 0 t

/-- A wake source acts: 1 ring, 2 pin, 3 timer, 4 host. -/
def wakeRecorded (source reason : Nat) (dur : Word) (s : State) : State :=
  s |> wr P.PMU R.PMU_WAKE_CAUSE (W (reason * 2 ^ 8 + source)) |> wr P.PMU R.PMU_LAST_SLEEP dur
    |> wrf P.CLK R.CLK_STEWARD_CLK 0 0 0

/-- Wake from SLEEP: LOAD of the planes of powered regions. -/
def wakeSleep (tally : Nat) (s : State) : State :=
  s |> wakeTime tally |> ringStraps |> freshStartup |> setCause 5 |> enterLoad .wakeSleep

/-- Wake from BEAR: VCCINT returns to 0.90 V, the ROM boots, and every region is loaded. -/
def wakeBear (tally : Nat) (s : State) : State :=
  let t := s |> wakeTime tally |> ringStraps |> freshStartup |> setCause 6 |> voutSend 0
  let t := if bit 0 (rd P.PMU R.PMU_BEAR_CFG t) then pmbusSend 0x01 0x80 t else t
  let t := wrf P.UPD R.UPD_STAT 8 8 (if strapRing t = 2 then 0 else 1) (loadPointer t)
  bootInto .wakeBear ((bootPair t).getD t.upd.running) t

/-- A wake event from an enabled source. -/
def wakeUp (source reason : Nat) (tally : Option Nat) (s : State) : State :=
  let dur := match tally with
    | some n => satAdd 0 n
    | none => freeVal s
  let n := tally.getD (freeVal s).toNat
  let s := if tally.isNone then drawn s else s
  match s.dev.mode with
  | .doze => s |> wakeRecorded source reason dur |> enterMode .run |> irq P.PMU 3
  | .sleep => s |> wakeSleep n |> wakeRecorded source reason dur
  | .bear => s |> wakeBear n |> wakeRecorded source reason dur
  | _ =>
    match s.pwr.entering with
    | some st => entryEnded st true (0xFF00 + source) (setPwr { s.pwr with entering := none } s)
    | none => unlisted Ev.WAKE s

def wakeEnabled (b : Nat) (s : State) : Bool := bit b (rd P.PMU R.PMU_WAKE_EN s)

def execWakeRing (reason : Byte) (tally : Nat) (s : State) : Out :=
  .next (if s.dev.mode ≠ .off ∧ wakeEnabled 0 s = true then wakeUp 1 reason.toNat (some tally) s else s)
def execWakePin (tally : Nat) (s : State) : Out :=
  .next (if s.dev.mode ≠ .off ∧ wakeEnabled 1 s = true then wakeUp 2 0 (some tally) s else s)
def execWakeTimer (tally : Nat) (s : State) : Out :=
  .next (if s.dev.mode ≠ .off ∧ wakeEnabled 2 s = true ∧ rd P.PMU R.PMU_WAKE_TIMER s ≠ 0 then
      wakeUp 3 0 (some tally) s else s)

/-- A write of 1 to WAKE_NOW: by the host, in DOZE, or during an entry; elsewhere it is an event that the mode
does not list. -/
def wakeNowCmd (rq : Requester) (s : State) : State :=
  if rq ≠ .host ∨ wakeEnabled 3 s = false then s else wakeUp 4 0 none s

def execWakeNow (rq : Requester) (s : State) : Out :=
  .next (onPage rq P.PMU R.PMU_WAKE_NOW (wakeNowCmd rq) s)

/-- The reload of a wake ends (R271, Table 15.7). -/
def wakeLoadDone (s : State) : State :=
  if s.dev.mode ≠ .load then unlisted 0 s
  else match s.dev.loadKind with
    | .wakeSleep =>
      let (f, t) := loadAll reload ((List.range 64).filter fun r => regionOn r s) s
      let t := stamp R.RST_STARTUP_T0 31 16 t
      match f with
      | some c => stopSafe c t
      | none => beginRelease t
    | .wakeBear =>
      let (f, t) := loadAll loadBoot ((List.range 64).filter fun r => regionOn r s) s
      let t := stamp R.RST_STARTUP_T0 31 16 t
      match f with
      | some c => stopSafe c t
      | none => t |> loadIoRecord |> beginSelftest
    | _ => s

def execWakeLoadDone (s : State) : Out := .next (wakeLoadDone s)

/-- A ring reset: in SLEEP and BEAR it wakes the device first, where ring wakes are enabled, and acts in RUN
(R27). -/
def ringReset (s : State) : State :=
  if s.dev.mode = .sleep ∨ s.dev.mode = .bear then
    if wakeEnabled 0 s then
      let t := wakeUp 1 0 none s
      setDev { t.dev with ringResetWaiting := true } t
    else s
  else deviceReset 4 s

/-! ## Watchdog (R361) -/

/-- The period is reloaded. -/
def reloadWatchdog (s : State) : State :=
  wrf P.RST R.RST_WDT_STAT 15 0 (rdf P.RST R.RST_WDT_PERIOD 15 0 s) (setDev { s.dev with wdtNs := 0 } s)

def execWdtKick (rq : Requester) (s : State) : Out :=
  .next (onPage rq P.RST R.RST_WDT_KICK reloadWatchdog s)

/-- The watchdog count expires; it stops in SLEEP and BEAR (R358). -/
def watchdogExpiry (s : State) : State :=
  if s.dev.mode = .off ∨ s.dev.mode = .sleep ∨ s.dev.mode = .bear ∨ bit 1 (rd P.RST R.RST_CTL s) = false then s
  else
    s |> md P.RST R.RST_WDT_STAT (satFld 31 16) |> reloadWatchdog |> irq P.RST 0 |> deviceReset 3

def execWatchdogExpiry (s : State) : Out := .next (watchdogExpiry s)

end Sys2Proof.Machine
end

