-- ==== Sys2Proof/Machine/Mailbox.lean ====
section
/-! DEFINITION. The two halves of the steward mailbox: request, response, GO (R67, R68). -/
namespace Sys2Proof.Machine

open Sys2Proof

def mbxCtl : Half → Nat
  | .hostHalf => R.DEV_MBX_H_CTL
  | .fabricHalf => R.DEV_MBX_F_CTL
def mbxReqOff : Half → Nat
  | .hostHalf => R.DEV_MBX_H_REQ
  | .fabricHalf => R.DEV_MBX_F_REQ
def mbxRspOff : Half → Nat
  | .hostHalf => R.DEV_MBX_H_RSP
  | .fabricHalf => R.DEV_MBX_F_RSP
def mbxIrq : Half → Nat
  | .hostHalf => 0
  | .fabricHalf => 1

/-- REQn. -/
def mbxReq (h : Half) (n : Nat) (s : State) : Word := rd P.DEV (mbxReqOff h + 4 * n) s
def mbxBusy (h : Half) (s : State) : Bool := bit 1 (rd P.DEV (mbxCtl h) s)
def mbxCode (h : Half) (s : State) : Nat := fld 31 16 (mbxReq h 0 s)
def mbxArgs (h : Half) (s : State) : Nat := fld 7 0 (mbxReq h 0 s)

/-- A write of 1 to GO: refused and counted while BUSY. DESIGN CHOICE (assumption log 112): DONE of a response that still
stands keeps its value. -/
def mbxGo (h : Half) (s : State) : State :=
  if mbxBusy h s then md P.DEV (mbxCtl h) (satFld 31 16) s
  else md P.DEV (mbxCtl h) (fun w => setFld 15 8 (fld 15 8 (mbxReq h 0 s)) (setBit 1 true w)) s

def execMbxGo (rq : Requester) (h : Half) (s : State) : Out := .next (onPage rq P.DEV (mbxCtl h) (mbxGo h) s)

/-- The response: status, sequence number, results; DONE sets and BUSY clears in the same write. -/
def respond (h : Half) (status : Nat) (results : List Word) (s : State) : State :=
  let seq := rdf P.DEV (mbxCtl h) 15 8 s
  let t := wr P.DEV (mbxRspOff h) (W (status * 2 ^ 24 + seq * 2 ^ 16 + results.length)) s
  let t := results.zipIdx.foldl (fun t (e : Word × Nat) => wr P.DEV (mbxRspOff h + 4 + 4 * e.2) e.1 t) t
  t |> md P.DEV (mbxCtl h) (fun w => setBit 2 true (setBit 1 false w)) |> irq P.DEV (mbxIrq h)

/-- What a command answers: status, result words, state. -/
abbrev Served := Nat × List Word × State

/-- The modes in which the steward answers; while it hands over, responses are held (R68, R330). -/
def stewardAnswers (s : State) : Bool :=
  !s.upd.handoverDue &&
    match s.dev.mode with
    | .hold => true | .load => true | .selftest => true | .release => true | .run => true | .safe => true
    | .recovery => true
    | _ => false

/-- ROM commands (Tables 13.6 and 14.7, R68). -/
def romCommand (code : Nat) : Bool := [0x0001, 0x0002, 0x0101, 0x0104, 0x0107, 0x0201].contains code

/-- The steward runs from ROM (R68). -/
def romOnly (s : State) : Bool := romModes s || s.dev.mode == .recovery

/-- The commands of this chapter. -/
def serveVersion (s : State) : Served :=
  (0, [fwRunning s, pairVersion 2 s.upd.running s, schemaId s, Config.romVersion], s)

def serveEcho (h : Half) (s : State) : Served := (0, (List.range (mbxArgs h s)).map fun n => mbxReq h (n + 1) s, s)

end Sys2Proof.Machine
end

