-- ==== Sys2Proof/Machine/Update.lean ====
section
/-! DEFINITION. Bundles, distribution, verification, activation across the ring, handover, trial, confirmation and
fallback (R322–R341). -/
namespace Sys2Proof.Machine

open Sys2Proof

/-! ## Intake (R325) -/

def intakeOpen (s : State) : Bool := bit 31 (rd P.UPD R.UPD_BUNDLE_STAT s)
def intakeOwner (s : State) : Nat := rdf P.UPD R.UPD_BUNDLE_STAT 30 29 s

/-- A follower that takes a bundle from its own host or steward hands it on to node 1 and stores none (R326). -/
def handsOn (s : State) : Bool := !ringLeader s && s.dev.mode != .recovery && intakeOwner s != 2

/-- The chunks of this device's role, lowest first. -/
def roleChunks (rec : List Word) (s : State) : List Nat :=
  ((partsOf rec).filter fun e => partRole e == role s && (s.dev.mode != .recovery || partType e == 1 || partType e == 2)).flatMap
    fun e => (List.range (partChunks e)).map (partFirst e + ·)

/-- PROGRESS. -/
def showProgress (s : State) : State :=
  let want := roleChunks s.upd.headerPart s
  let have_ := want.filter fun i => (tfind s.upd.chunks i).isSome
  wr P.UPD R.UPD_PROGRESS (W (want.length % 2 ^ 16 * 2 ^ 16 + have_.length % 2 ^ 16)) s

def closeIntake (s : State) : State :=
  mdUpd (fun u => { u with intake := [], buffer := [], heldWords := [] }) (wrf P.UPD R.UPD_BUNDLE_STAT 31 31 0 s)

/-- Regions whose plane comes from the image that the bundle would replace. -/
def activeFromTarget (s : State) : Bool :=
  (List.range 64).any fun r =>
    regionOn r s && recSrc (rd (P.RGN r) R.RGN_ACTIVE_SRC s) == imageSrc (targetPair s)

def armedFromTarget (s : State) : Bool :=
  match s.fox.armed with
  | some (m, _) => (maskList m).any fun r => stagedFrom (targetPair s) r s
  | none => false

/-- BUNDLE_BEGIN is refused: in which states, and for which planes (R325). -/
def beginRefused (s : State) : Bool := (updState s != U.IDLE && updState s != U.VERIFIED) || armedFromTarget s

/-- An accepted BUNDLE_BEGIN, or the header part of a bundle that comes by the ring. -/
def beginBundle (owner : Nat) (s : State) : State :=
  let b := targetPair s
  let t := if s.dev.mode = .recovery then s
    else writePointer .begin_ (fun p => { p with otherVerified := false, committed := false }) s
  let t := (List.range 64).foldl (fun t r => if stagedFrom b r t then invalidateStage r t else t) t
  let t := setStore (if b then { t.store with bValid := false } else { t.store with aValid := false }) t
  t |> wr P.UPD R.UPD_BUNDLE_STAT (W (2 ^ 31 + owner * 2 ^ 29 + 0x400)) |> setUpdState U.DOWNLOAD |> updCode 0
    |> mdUpd (fun u => { u with
        intake := []
        buffer := []
        heldWords := []
        arming := if ringLeader s then u.arming else none
        verifyDue := false
        oldHeader := if u.headerPart = [] then u.oldHeader else u.headerPart
        headerPart := []
        partRefused := false
        swapSet := 0
        swapArmed := false
        rollForward := false
        buffers := [] })

/-- Mailbox command BUNDLE_BEGIN. -/
def serveBegin (h : Half) (s : State) : Served :=
  if beginRefused s then (E.PERM_FAULT, [], s)
  else if s.dev.mode ≠ .recovery ∧ activeFromTarget s = true then (E.PERM_FAULT, [], updCode E.PERM_FAULT s)
  else
    let t := if s.dev.mode = .recovery then
        mdUpd (fun u => { u with recoveryRole := BitVec.ofNat 8 (fld 7 0 (mbxReq h 1 s)) }) s
      else s
    (0, [], beginBundle (if h = .hostHalf then 0 else 1) t)

/-- Mailbox command BUNDLE_CANCEL. -/
def serveCancel (s : State) : Served :=
  if U.READY ≤ updState s then (E.PERM_FAULT, [], s)
  else (0, [], s |> closeIntake |> setUpdState U.IDLE |> mdUpd (fun u => { u with buffers := [], verifyDue := false }))

/-! ## Header part (R322, R323) -/

/-- The code with which a header part is refused. -/
def headerPartFault (ws : List Word) : Option Nat :=
  let m := manifestOf ws
  if !bundleHeaderGood ws || join64 (m.getD 0 0) (m.getD 1 0) != manifestId ws then some E.PERM_FAULT
  else if !Config.signatureGood ws then some E.AUTH_FAIL
  else if Config.romVersion < m.getD 3 0 ∨ Config.stepping.toNat < (m.getD 4 0).toNat then some E.PERM_FAULT
  else none

/-- A checked header part: a bundle that was begun before is resumed with its first chunks that are stored, any
other starts afresh (R327). -/
def headerAccepted (ws : List Word) (s : State) : State :=
  let t := mdUpd (fun u => { u with headerPart := ws, intake := [] }) s
  if handsOn s then t
  else
    let first := (roleChunks ws t).takeWhile fun i => (tfind t.upd.chunks i).isSome
    let keep := if s.upd.oldHeader = ws then t.upd.chunks.filter fun e => first.contains e.1 else []
    t |> stewardErase (slotSector (targetPair t)) |> mdUpd (fun u => { u with chunks := keep }) |> showProgress

/-- The bundle is refused before any chunk is stored. -/
def headerRefused (c : Nat) (s : State) : State := s |> closeIntake |> updCode c |> setUpdState U.IDLE

/-! ## Chunks (R322, R324, R327) -/

/-- Words of a chunk record, and its parts. -/
def chunkWords : Nat := 16392
def chunkPayload (rec : List Word) : List Word := (rec.drop 4).take 16384
def chunkKey (hdr rec : List Word) : List Word := hdr.getD 1 0 :: rec.take 4
def chunkTagGood (hdr rec : List Word) : Bool :=
  Config.gcmTag (chunkKey hdr rec) (chunkPayload rec) == (rec.drop 16388).take 4
def chunkPlain (hdr rec : List Word) : List Word :=
  (chunkPayload rec).mapIdx fun n c => c ^^^ Config.keystream (chunkKey hdr rec) n

/-- The plaintext words of a part, from its stored chunks. -/
def partPlain (e : List Word) (s : State) : List Word :=
  (List.range (partChunks e)).flatMap fun i =>
    chunkPlain s.upd.headerPart (tget [] s.upd.chunks (partFirst e + i))

def partBytes (e : List Word) (s : State) : List Nat := ((partPlain e s).flatMap leBytes).take (e.getD 4 0).toNat

/-- A firmware chunk goes to the slot as received: two chunks a sector, the sector erased for the first. -/
def storeFirmware (i : Nat) (rec : List Word) (s : State) : State :=
  let x := (if targetPair s then 64 else 32) + i / 2
  let t := if i % 2 = 0 then stewardErase x s else s
  (List.range 128).foldl (fun t p =>
    let page := i % 2 * 128 + p
    t |> storePage x page (pageBuf (((chunkPayload rec).drop (128 * p)).take 128)) |> markProgrammed x page) t

/-- The areas of a device image, one after the other. -/
def splitAreas : Nat → List Word → List (List Word)
  | 0, _ => []
  | n + 1, ws => ws.take (imageLength ws) :: splitAreas n (ws.drop (imageLength ws))

/-- A whole device image goes to its 64 areas, and its records to the directory (R290, R353, R420). -/
def storeImage (e : List Word) (s : State) : State :=
  let b := targetPair s
  let ws := partPlain e s
  let t := setStore { s.store with
    relRec := tins (b2n b) (Config.releaseRecord ws) s.store.relRec,
    clkRec := tins (b2n b) (Config.clockRecord ws) s.store.clkRec,
    ioRec := tins (b2n b) (Config.ioRecord ws) s.store.ioRec } s
  (splitAreas 64 ws).zipIdx.foldl (fun t (a : List Word × Nat) =>
    setArea (areaOf (imageSrc b) 0 a.2) a.1 t) t

/-- A release record without a reserved bit or code, or none (R290, Table 12.3). -/
def releaseRecordGood (ws : List Word) : Bool :=
  ws == [] || (ws.length == 4 && (ws.getD 0 0 &&& W 0xFF0000F8) == 0 && fld 2 0 (ws.getD 0 0) != 7 && ws.getD 3 0 == 0)

/-- A whole library personality is programmed into its slot; a slot that is REF or RETIRED refuses it. -/
def storeLibrary (e : List Word) (s : State) : State :=
  let k := 8 * fld 13 8 (e.getD 0 0) + fld 2 0 (e.getD 0 0)
  if slotRef k s || (slot k s).retired then
    s |> updCode E.PERM_FAULT |> mdUpd (fun u => { u with partRefused := true })
  else
    let ws := partPlain e s
    let t := slotStarted k s
    setFox { t.fox with programs := t.fox.programs ++ [(k, ws.take (imageLength ws))], erasing := t.fox.erasing ++ [k] } t

/-- Every chunk of a part is stored. -/
def partWhole (e : List Word) (s : State) : Bool :=
  (List.range (partChunks e)).all fun i => (tfind s.upd.chunks (partFirst e + i)).isSome

/-- The part of this device's role that holds a chunk. -/
def partOfChunk (i : Nat) (s : State) : Option (List Word) :=
  (partsOf s.upd.headerPart).find? fun e =>
    partRole e == role s && partFirst e ≤ i && i < partFirst e + partChunks e &&
      (s.dev.mode != .recovery || partType e == 1 || partType e == 2)

/-- Every chunk of the role is stored: verification begins (R328). -/
def allStored (s : State) : State :=
  if (roleChunks s.upd.headerPart s).all (fun i => (tfind s.upd.chunks i).isSome) then
    setUpdState U.VERIFY (mdUpd (fun u => { u with verifyDue := s.dev.mode != .recovery }) s)
  else s

/-- A chunk of the role with a good tag is stored; one that is held already is ignored. -/
def storeChunk (i : Nat) (rec e : List Word) (s : State) : State :=
  if (tfind s.upd.chunks i).isSome then s
  else
    let t := mdUpd (fun u => { u with chunks := tins i rec u.chunks }) s
    let t := if partType e = 1 then storeFirmware (i - partFirst e) rec t
      else if !partWhole e t then t
      else if partType e = 2 then storeImage e t
      else if partType e = 3 then storeLibrary e t
      else t
    t |> showProgress |> allStored

/-- The next node is to be given the bundle too: node 1 by a follower whose host sends it; else the next node, as
long as this one is not the last (R326). -/
def forwards (s : State) : Bool :=
  s.dev.mode != .recovery && ringUp s && (handsOn s || ringNodes s == 0 || ownNode s < ringNodes s)

def buffer (i : Nat) (ws : List Word) (s : State) : State :=
  if forwards s then mdUpd (fun u => { u with buffers := u.buffers ++ [(i, ws)] }) s else s

/-- A chunk record arrives: false where its tag fails. -/
def chunkArrived (rec : List Word) (s : State) : Bool × State :=
  let i := (rec.headD 0).toNat
  let keep := if handsOn s then none else partOfChunk i s
  match keep with
  | some e =>
    if (tfind s.upd.chunks i).isSome then (true, buffer i rec s)
    else if chunkTagGood s.upd.headerPart rec then (true, buffer i rec (storeChunk i rec e s))
    else (false, s)
  | none => (true, buffer i rec s)

/-- The number of the header part among the chunks (Table 14.7). -/
def headerIndex : Nat := 0xFFFFFFFF

/-- What the intake makes of the words it holds. -/
def takeIntake (s : State) : State :=
  let ws := s.upd.intake
  if s.upd.headerPart = [] then
    if ws.length < 8 then s
    else if !bundleHeaderGood ws then headerRefused E.PERM_FAULT s
    else if ws.length < headerLength ws then s
    else match headerPartFault ws with
      | some c => headerRefused c s
      | none =>
        let t := buffer headerIndex ws (headerAccepted ws s)
        if handsOn t || s.dev.mode == .recovery || roleChunks ws t != [] then t else allStored t
  else if ws.length < chunkWords then s
  else
    let (ok, t) := chunkArrived ws (mdUpd (fun u => { u with intake := [] }) s)
    if !ok then updCode E.AUTH_FAIL t
    else if (ws.headD 0).toNat + 1 = fld 15 0 (s.upd.headerPart.getD 5 0) then
      let u := closeIntake t
      if handsOn s then setUpdState U.IDLE u else u
    else t

/-- The classes that may write the words of an open intake. -/
def intakeFrom (rq : Requester) (s : State) : Bool :=
  intakeOpen s && (match intakeOwner s, rq with
    | 0, .host => true
    | 1, .steward => true
    | 1, .fabric => true
    | _, _ => false)

/-- The steward takes no word while both its chunk buffers wait to be forwarded (R326). -/
def intakeWaits (s : State) : Bool := forwards s && decide (2 ≤ s.upd.buffers.length)

/-- The steward takes words out of the buffer of BUNDLE_DATA as far as it can; each lets in a write held at the page.
`fuel` bounds the words. -/
def drainIntake (fuel : Nat) (s : State) : State :=
  match fuel with
  | 0 => s
  | fuel + 1 =>
    match s.upd.buffer with
    | [] => s
    | w :: rest =>
      if intakeWaits s then s
      else drainIntake fuel (takeIntake (mdUpd (fun u => { u with
        buffer := rest ++ u.heldWords.take 1
        heldWords := u.heldWords.drop 1
        intake := u.intake ++ [w] }) s))

/-- Every word that waits. -/
def drainBundle (s : State) : State := drainIntake (s.upd.buffer.length + s.upd.heldWords.length) s

/-- A word written to BUNDLE_DATA (R325): dropped while no intake of the class is open; held while the buffer of 1,024
words is full. -/
def bundleWord (rq : Requester) (w : Word) (s : State) : State :=
  if !intakeFrom rq s then s
  else if 1024 ≤ s.upd.buffer.length then mdUpd (fun u => { u with heldWords := u.heldWords ++ [w] }) s
  else drainBundle (mdUpd (fun u => { u with buffer := u.buffer ++ [w] }) s)

def execBundleData (rq : Requester) (w : Word) (s : State) : Out :=
  .next (onPage rq P.UPD R.UPD_BUNDLE_DATA (bundleWord rq w) s)

/-! ## Distribution (R326) -/

/-- Bytes of a remote request: address word, then the words. -/
def remoteWrite (node svc : Nat) (addr : Nat) (ws : List Word) : List TWord :=
  message 0x21 0 (W (2 ^ 31 + node * 2 ^ 22 + 3 * 2 ^ 20 + svc)) ((W addr :: ws).map (tw .data)) 0

/-- The steward sends a request, whose reply it awaits (R42). -/
def stewardAsks (ws : List TWord) (s : State) : State :=
  send (.svcUp 4) ws (mdUpd (fun u => { u with awaited := u.awaited ++ [routeOf ws] }) s)

/-- A mailbox command to another node's fabric mailbox, from this steward. -/
def remoteCommand (node code : Nat) (args : List Word) (s : State) : State :=
  s |> stewardAsks (remoteWrite node 4 R.DEV_MBX_F_REQ (W (code * 2 ^ 16 + args.length) :: args))
    |> stewardAsks (remoteWrite node 4 R.DEV_MBX_F_CTL [1])

/-- The node that this one forwards to. -/
def nextNode (s : State) : Nat := if handsOn s then 1 else ownNode s + 1

/-- One forwarding step: the payload into the next node's ring buffer, then RING_CHUNK. -/
def forwardChunk (s : State) : State :=
  match s.upd.buffers with
  | [] => s
  | (i, rec) :: rest =>
    if !ringUp s then s
    else
      let node := nextNode s
      let b := rdf P.UPD R.UPD_RING_BUF 9 0 s
      let payload := if i = headerIndex then rec else chunkPayload rec
      let t := (List.range ((payload.length + 255) / 256)).foldl (fun t k =>
        stewardAsks (remoteWrite node 3 (b * 0x8000 + 1024 * k) ((payload.drop (256 * k)).take 256)) t) s
      let args := [W i, W payload.length] ++ (if i = headerIndex then List.replicate 7 0
        else (rec.drop 1).take 3 ++ (rec.drop 16388).take 4)
      remoteCommand node 0x0106 args (mdUpd (fun u => { u with buffers := rest }) t)

def execChunkForward (s : State) : Out := .next (drainBundle (forwardChunk s))

/-- Words of the ring buffer, banks b and b + 1, read in order. -/
def ringBufWords (n : Nat) (s : State) : List Word × State :=
  let b := rdf P.UPD R.UPD_RING_BUF 9 0 s
  (List.range n).foldl (fun (acc, t) k =>
    let (w, t) := readBank (b + k / 8192) (k % 8192) t
    (acc ++ [w.data], t)) ([], s)

/-- Mailbox command RING_CHUNK. -/
def serveRingChunk (h : Half) (s : State) : Served :=
  let i := (mbxReq h 1 s).toNat
  let n := (mbxReq h 2 s).toNat
  if !bit 31 (rd P.UPD R.UPD_RING_BUF s) then (E.ABSENT_TARGET, [], s)
  else if 2 ≤ s.upd.buffers.length then (E.BANK_BUSY, [], s)
  else if i = headerIndex then
    if beginRefused s || activeFromTarget s then (E.PERM_FAULT, [], s)
    else
      let (ws, t) := ringBufWords (min n 16384) s
      let t := beginBundle 2 t
      if ws.length < 8 ∨ ws.length ≠ headerLength ws then (E.PERM_FAULT, [], headerRefused E.PERM_FAULT t)
      else match headerPartFault ws with
        | some c => (c, [], headerRefused c t)
        | none => (0, [], buffer headerIndex ws (headerAccepted ws t))
  else if !intakeOpen s || intakeOwner s != 2 || s.upd.headerPart = [] then (E.PERM_FAULT, [], s)
  else
    let (ws, t) := ringBufWords 16384 s
    let rec_ := [W i] ++ (List.range 3).map (fun k => mbxReq h (3 + k) s) ++ ws
      ++ (List.range 4).map (fun k => mbxReq h (6 + k) s)
    let (ok, t) := chunkArrived rec_ t
    if !ok then (E.PERM_FAULT, [], t)
    else (0, [], if i + 1 = fld 15 0 (s.upd.headerPart.getD 5 0) then closeIntake t else t)

/-! ## Verification (R328, R340) -/

/-- Checks 1 and 4 to 9 of R255 on every area of the target image: the first code that fails. -/
def imageFault (s : State) : Option Nat :=
  let src := imageSrc (targetPair s)
  let one (r : Nat) : Option Nat :=
    let ws := area (areaOf src 0 r) s
    if !headerGood ws then some E.PERM_FAULT
    else if imageFence ws != maskOf [r] then some E.FENCE_BREACH
    else match recordsFault true (maskOf [r]) none (recordsOf (plainWords ws)) with
      | some (c, _) => some c
      | none => sealFault ws
  match (List.range 64).findSome? one with
  | some c => some c
  | none =>
    let m := (List.range 64).foldl (fun m r => planeFrom src r (area (areaOf src 0 r) s) s m) ([] : SMap Word)
    if (planesFault (List.range 64) m).isSome then some E.DRIVE_CONFLICT else none

/-- The code of the first check of R328 that fails. -/
def verifyFault (s : State) : Option Nat :=
  let hdr := s.upd.headerPart
  let mine := (partsOf hdr).filter fun e => partRole e == role s && (s.dev.mode != .recovery || partType e == 1 || partType e == 2)
  let types := if s.dev.mode = .recovery then [1, 2] else [1, 2, 4]
  if s.upd.partRefused || types.any (fun ty => (mine.filter fun e => partType e == ty).length != 1) then some E.PERM_FAULT
  else if mine.any (fun e => sha256Bytes (partBytes e s) != (e.drop 8).take 8) then some E.DIGEST_MISMATCH
  else if s.dev.mode ≠ .recovery ∧ mine.any (fun e => fwRunning s < e.getD 5 0) = true then some E.PERM_FAULT
  else if !releaseRecordGood (tget [] s.store.relRec (b2n (targetPair s))) then some E.PERM_FAULT
  else imageFault s

/-- Tag and IV of chunk i in a slot record; those of a chunk that this device does not store stay erased. -/
def chunkSeal (i : Nat) (s : State) : List Word :=
  match tfind s.upd.chunks i with
  | some c => (c.drop 16388).take 4 ++ (c.drop 1).take 3
  | none => List.replicate 7 (W 0xFFFFFFFF)

/-- The record of the new pair, and the validity of its image (R319). -/
def pairVerified (s : State) : State :=
  let b := targetPair s
  let hdr := s.upd.headerPart
  let seals := (List.range (fld 15 0 (hdr.getD 5 0))).flatMap fun i => chunkSeal i s
  storeRecord b (hdr ++ seals) (setStore (if b then { s.store with bValid := true } else { s.store with aValid := true }) s)

/-- Verification ends. -/
def verifyDone (s : State) : State :=
  if updState s ≠ U.VERIFY then s
  else match verifyFault s with
    | some c => s |> updCode c |> closeIntake |> setUpdState U.IDLE |> mdUpd (fun u => { u with verifyDue := false })
    | none =>
      let hdr := s.upd.headerPart
      let id := manifestId hdr
      let v := match rolePart 1 hdr s with
        | some e => partVersion e
        | none => 0
      let b := targetPair s
      let versions (p : BootPointer) : BootPointer := if b then { p with fwVersionB := v } else { p with fwVersionA := v }
      let t := pairVerified s
      if s.dev.mode = .recovery then
        writePointer .recovery (fun p =>
          versions { p with activeB := false, trial := false, otherVerified := false, activeManifest := id }) t
      else writePointer .verified (fun p =>
          versions { p with otherVerified := true, rejected := false, committed := false, otherManifest := id }) t

def execBundleVerifyDone (s : State) : Out := .next (verifyDone s)

/-! ## ARM and readiness (R329, R332) -/

/-- The nodes whose bits the leader awaits. -/
def enumeratedNodes (s : State) : List Nat :=
  if ringUp s && ringNodes s != 0 then (List.range (ringNodes s)).map (· + 1) else [1]

def bitmapOf (ws : List Word) : BitVec 256 :=
  BitVec.ofNat 256 ((ws.take 8).zipIdx.foldl (fun n (e : Word × Nat) => n + e.1.toNat * 2 ^ (32 * e.2)) 0)

/-- Is this device in READY for a manifest? -/
def readyFor (m : BitVec 64) (s : State) : Bool := updState s == U.READY && holdsVerified m s

/-- The leader sends ARM, with its own bit where it is ready. -/
def sendArm (s : State) : State :=
  match s.upd.arming with
  | none => s
  | some (m, d) =>
    let ws := ([lo32 m, hi32 m, lo32 d, hi32 d] ++ List.replicate 8 0).map (tw .data)
    let ws := if readyFor m s then setNodeBit 4 (ownNode s) ws else ws
    if ringUp s then ringBroadcast 0x40 6 ws s else s

/-- An ARM for the manifest of the verified inactive pair starts the preparation. -/
def armServed (m d : BitVec 64) (s : State) : State :=
  if (updState s == U.VERIFIED || updState s == U.READY) && holdsVerified m s then
    let t := mdUpd (fun u => { u with arming := some (m, d) }) s
    if updState s == U.VERIFIED && s.upd.arming.isNone then prepare t else t
  else s

/-- Mailbox command ACTIVATE. -/
def serveActivate (s : State) : Served :=
  let m := s.upd.pointer.otherManifest
  if entering s then (E.ENTRY_REFUSED, [], s)
  else if !ringLeader s || updState s != U.VERIFIED || !holdsVerified m s || s.upd.arming.isSome then (E.PERM_FAULT, [], s)
  else
    let d := ringTime s + BitVec.ofNat 64 ((rd P.UPD R.UPD_ARM_DEADLINE s).toNat * 1000000)
    (0, [], s |> mdUpd (fun u => { u with readyMap := 0, commitSent := false }) |> armServed m d |> sendArm)

/-- The leader repeats ARM until the deadline. -/
def armRepeat (s : State) : State :=
  match s.upd.arming with
  | some (_, d) => if ringLeader s && !s.upd.commitSent && ringTime s ≤ d then sendArm s else s
  | none => s

def execArmRepeat (s : State) : Out := .next (armRepeat s)

/-- After a fallback, regions that the update swapped still wait to swap back (R337). -/
def backDue (s : State) : Bool :=
  let b := s.upd.pointer.activeB
  !s.upd.pointer.trial && (maskList s.upd.swapSet).any (fun r =>
    regionOn r s && recSrc (rd (P.RGN r) R.RGN_ACTIVE_SRC s) == imageSrc (!b)) &&
    (maskList s.upd.swapSet).all fun r => stagedFrom b r s

/-- The preparation is complete: READY with the update hold; or, after COMMIT or FALLBACK, the set is armed. -/
def updateReady (s : State) : State :=
  let t := pointerUpkeep s
  if entering s then s
  else if updState t = U.VERIFIED ∧ t.upd.arming.isSome ∧ readyNow t = true then
    t |> setUpdState U.READY |> updHold true |> irq P.UPD 1
  else if !t.upd.swapArmed && (backDue t || (updState t == U.COMMITTED && planesReady t)) then armUpdate t
  else t

def execUpdateReady (s : State) : Out := .next (updateReady s)

/-- ARM is back at the leader: with every bit set by the deadline it writes its COMMITTED pointer. T is the present
ring time, the 1.40 ms of the write and COMMIT_LEAD (R330). -/
def armReturned (bitmap : List Word) (s : State) : State :=
  match s.upd.arming with
  | none => s
  | some (m, d) =>
    if !ringLeader s || s.upd.commitSent then s
    else
      let map := bitmapOf bitmap
      let t := mdUpd (fun u => { u with readyMap := map }) s
      if (enumeratedNodes s).all (fun n => map.getLsbD n) && ringTime s ≤ d && readyFor m s then
        let t0 := leadFrom (ringTime s + 1400000) s
        t |> mdUpd (fun u => { u with commitSent := true, arming := none })
          |> writePointer .committed (fun p => { p with committed := true, commitT := t0 })
      else t

def execArmReturn (bitmap : List Word) (s : State) : Out := .next (armReturned bitmap s)

/-- The device leaves the update hold with its verified pair kept; a leader that has begun a download since only stops
awaiting the ARM. -/
def activationEnds (s : State) : State :=
  if updState s ≠ U.VERIFIED ∧ updState s ≠ U.READY then mdUpd (fun u => { u with arming := none }) s
  else s |> dropStaging |> updHold false |> setUpdState U.VERIFIED |> updCode E.ARM_TIMEOUT
    |> mdUpd (fun u => { u with arming := none, swapSet := 0, swapArmed := false }) |> irq P.UPD 3

/-- NOT_READY0 to 7. -/
def putNotReady (nodes : List Nat) (s : State) : State :=
  let t := (List.range 8).foldl (fun t i => wr P.UPD (R.UPD_NOT_READY + 4 * i) 0 t) s
  nodes.foldl (fun t n => setArr P.UPD R.UPD_NOT_READY n true t) t

def sendAbort (cls : Nat) (m : BitVec 64) (reason : Word) (s : State) : State :=
  if ringUp s then ringBroadcast cls 6 ([lo32 m, hi32 m, reason].map (tw .data)) s else s

/-- The deadline of the ARM passes without a commitment. -/
def armDeadline (s : State) : State :=
  match s.upd.arming with
  | none => s
  | some (m, d) =>
    if ringTime s ≤ d || s.upd.commitSent && ringLeader s then s
    else if ringLeader s then
      let own : BitVec 256 := if readyFor m s then 1#256 <<< ownNode s else 0
      let map := s.upd.readyMap ||| own
      let missing := (enumeratedNodes s).filter fun n => !map.getLsbD n
      s |> putNotReady missing |> err P.UPD E.ARM_TIMEOUT 0 0
        |> sendAbort 0x42 m (W (1 + missing.headD 0 * 2 ^ 8)) |> activationEnds
    else activationEnds s

def execArmDeadline (s : State) : Out := .next (armDeadline s)

/-- An ABORT at a device. -/
def abortServed (m : BitVec 64) (s : State) : State :=
  if (updState s = U.READY ∨ (updState s = U.VERIFIED ∧ s.upd.arming.isSome)) ∧ s.upd.pointer.otherManifest = m then
    activationEnds s
  else s

/-! ## COMMIT and activation (R330, R331, R333) -/

/-- The device cannot roll forward: SAFE, with FALLBACK_WAIT. -/
def cannotRoll (s : State) : State :=
  if s.dev.mode = .run then
    s |> setUpdState U.FALLBACK_WAIT |> updHold false |> mdUpd (fun u => { u with arming := none, swapArmed := false })
      |> enterSafe
  else unlisted Ev.ROLL_FORWARD s

/-- A COMMIT at a device: ignored where the manifest is active already. -/
def commitServed (m t0 : BitVec 64) (s : State) : State :=
  let p := latestPointer s
  if p.activeManifest = m ∨ updState s = U.COMMITTED ∨ updState s = U.ACTIVATING then s
  else if holdsVerified m s && (updState s == U.VERIFIED || updState s == U.READY) then commitLocal t0 s
  else cannotRoll s

/-- The recorded source of the regions that keep their frames changes to the other image (R331). -/
def resource (old new : Bool) (m : BitVec 64) (s : State) : State :=
  (maskList m).foldl (fun t r =>
    let w := rd (P.RGN r) R.RGN_ACTIVE_SRC t
    if recSrc w = imageSrc old then wr (P.RGN r) R.RGN_ACTIVE_SRC (setFld 10 8 (imageSrc new) w) t else t) s

/-- T: the armed set swaps by itself, and the activation pointer write begins. -/
def activationTime (s : State) : State :=
  if updState s ≠ U.COMMITTED ∨ ringTime s < rd64 P.UPD R.UPD_T_LO s ∨ s.dev.mode ≠ .run then s
  else
    let t := if s.upd.swapArmed then s else armUpdate s
    if t.upd.swapSet ≠ 0 ∧ t.upd.swapArmed = false then cannotRoll t
    else
      let keep := maskOf ((List.range 64).filter fun r =>
        !inMask t.upd.swapSet r && recSrc (rd (P.RGN r) R.RGN_ACTIVE_SRC t) == imageSrc t.upd.running)
      t |> setUpdState U.ACTIVATING |> resource t.upd.running (!t.upd.running) keep
        |> mdUpd (fun u => { u with resourced := keep })
        |> writePointer .activate (fun p =>
            { p with
              activeB := !p.activeB
              trial := true
              attempts := 0
              settingsB := !p.settingsB
              otherVerified := false
              committed := false
              activeManifest := p.otherManifest
              otherManifest := p.activeManifest
              commitT := rd64 P.UPD R.UPD_T_LO t })

def execActivationTime (s : State) : Out := .next (activationTime s)

/-! ## Handover (R330, R335, R338) -/

def tcmWord (n : Nat) (s : State) : Word := tget (0 : Word) s.upd.tcm n

/-- Words stored from the start of the tightly coupled memory. -/
def tcmStore (ws : List Word) (s : State) : State :=
  mdUpd (fun u => { u with tcm := (ws.zip (List.range ws.length)).foldl (fun m e => tput 0 e.2 e.1 m) u.tcm }) s

/-- The state sections of the handover record: the mailbox requests, the interrupt routing, the watchdog period, the
update state and the settings pair. DESIGN CHOICE (assumption log 125): their order, in whole registers. -/
def handoverSections (s : State) : List Word :=
  let regs (off n : Nat) : List Word := (List.range n).map fun k => rd P.DEV (off + 4 * k) s
  regs R.DEV_MBX_H_CTL 1 ++ regs R.DEV_MBX_H_REQ 16 ++ regs R.DEV_MBX_F_CTL 1 ++ regs R.DEV_MBX_F_REQ 16 ++
    (allPages.map fun p => rd p R.IRQ_ROUTE s) ++
    [rd P.RST R.RST_WDT_PERIOD s, rd P.UPD R.UPD_STAT s, W (b2n s.upd.pointer.settingsB)]

/-- The handover record as the steward writes it at the start of its tightly coupled memory (R335). -/
def handoverRecord (s : State) : List Word :=
  let body := handoverSections s
  let head : List Word := [W 0x48485231, Config.handoverVersion, W (5 + body.length), fwRunning s]
  head ++ [crc32 (head ++ body)] ++ body

/-- A jump to other firmware is due: the record is written for it. -/
def handoverPrepared (s : State) : State :=
  s |> tcmStore (handoverRecord s) |> mdUpd (fun u => { u with handoverDue := true })

/-- The record in the memory has its mark, and its CRC passes over the length that it gives. -/
def handoverIntact (s : State) : Bool :=
  let n := (tcmWord 2 s).toNat
  tcmWord 0 s == W 0x48485231 && decide (5 ≤ n ∧ n ≤ 65536) &&
    tcmWord 4 s == crc32 ((List.range n).filterMap fun k => if k = 4 then none else some (tcmWord k s))

/-- Every mailbox request in progress is answered ABSENT_TARGET by a cold steward. -/
def coldMailbox (s : State) : State :=
  [Half.hostHalf, Half.fabricHalf].foldl (fun t h => if mbxBusy h t then respond h E.ABSENT_TARGET [] t else t) s

/-- The steward jumps to the firmware that the pointer names: from the handover record, or cold where that firmware
cannot read the record's format version or finds its CRC failing. -/
def handoverDone (canRead : Bool) (s : State) : State :=
  if s.upd.handoverDue = false then s
  else
    let p := s.upd.pointer
    let canRead := canRead && handoverIntact s
    let t := mdUpd (fun u => { u with running := p.activeB, handoverDue := false, arming := none }) s
    let t := wrf P.UPD R.UPD_STAT 9 9 (b2n !canRead) t
    let t := if canRead then t else coldMailbox t
    if p.trial then
      let t := t |> newSettings p.settingsB |> setUpdState U.TRIAL |> updHold false |> updCode 0 |> setFwBanks true
                 |> mdUpd (fun u => { u with trialStart := rd64 P.UPD R.UPD_T_LO t, swapArmed := false, confirming := [] })
                 |> irq P.UPD 2
      if t.upd.rollForward then
        t |> wrf P.UPD R.UPD_STAT 10 10 1 |> updCode E.ROLL_FORWARD |> err P.UPD E.ROLL_FORWARD 0 0
          |> mdUpd (fun u => { u with rollForward := false })
      else t
    else t |> setUpdState U.IDLE |> updHold false |> setFwBanks false

def execFirmwareHandover (canRead : Bool) (s : State) : Out := .next (handoverDone canRead s)

/-! ## Trial, confirmation (R321, R336) -/

/-- A start-up in TRIAL is counted. -/
def attemptCount (s : State) : State :=
  if s.dev.mode = .run ∧ s.upd.attemptDue ∧ updState s = U.TRIAL then
    s |> mdUpd (fun u => { u with attemptDue := false }) |> writePointer .attempt (fun p => { p with attempts := 1 })
  else s

def execAttemptCount (s : State) : Out := .next (attemptCount s)

/-- The end of the confirm window. -/
def windowEnd (s : State) : BitVec 64 :=
  s.upd.trialStart + BitVec.ofNat 64 ((rd P.UPD R.UPD_CONFIRM_WINDOW s).toNat * 1000000000)

/-- CONFIRM to another node: request, GO, and a read of the response word, whose answer is awaited. -/
def askConfirm (node : Nat) (s : State) : State :=
  s |> remoteCommand node 0x0103 []
    |> stewardAsks (message 0x20 0 (W (2 ^ 31 + node * 2 ^ 22 + 3 * 2 ^ 20 + 4))
        [tw .data (W R.DEV_MBX_F_RSP), tw .data 1] 0)

/-- All nodes have answered and the leader's own pointer is written. -/
def confirmEnds (s : State) : State :=
  if updState s = U.CONFIRMING ∧ s.upd.confirming = [] ∧ s.upd.pointer.trial = false then
    s |> setUpdState U.IDLE |> irq P.UPD 5
  else s

/-- Mailbox command CONFIRM: at the leader from anyone; at a follower from the leader, through its fabric mailbox. -/
def serveConfirm (h : Half) (s : State) : Served :=
  let trialOff (t : State) : State := writePointer .confirm (fun p => { p with trial := false, attempts := 0 }) t
  if updState s ≠ U.TRIAL then (E.PERM_FAULT, [], s)
  else if ringLeader s then
    if windowEnd s ≤ ringTime s then (E.PERM_FAULT, [], s)
    else
      let others := (enumeratedNodes s).filter fun n => n != ownNode s
      let t := others.foldl (fun t n => askConfirm n t) (setUpdState U.CONFIRMING s)
      (0, [], trialOff (mdUpd (fun u => { u with confirming := others }) t))
  else if h = .hostHalf then (E.PERM_FAULT, [], s)
  else (0, [], trialOff (setUpdState U.CONFIRMING s))

/-- The answer of a node to CONFIRM, read at its fabric mailbox: one that is not yet the answer is asked for
again. -/
def confirmAnswer (node : Nat) (rsp : Word) (s : State) : State :=
  if !s.upd.confirming.contains node then s
  else if fld 31 24 rsp = 0 then
    confirmEnds (mdUpd (fun u => { u with confirming := u.confirming.filter fun n => n != node }) s)
  else askConfirm node s

/-! ## Fallback (R337) -/

/-- The regions that the update had swapped swap back, NOW; a plane that is no longer valid is loaded from the
previous image first, and UPDATE_READY then arms the set. -/
def swapBack (prev : Bool) (s : State) : State :=
  let t := mdUpd (fun u => { u with swapArmed := false }) (wr64 P.UPD R.UPD_T_LO (ringTime s) s)
  let t := (maskList s.upd.swapSet).foldl (fun t r =>
    if stagedFrom prev r t || locked r t || loading r t then t
    else startLoad r { src := imageSrc prev, slot := 0, rq := .steward } t) t
  if (maskList t.upd.swapSet).all (fun r => stagedFrom prev r t) then armUpdate t else t

/-- A set that is armed and has not gone is disarmed. -/
def undoSwap (was : Nat) (s : State) : State :=
  if was = U.COMMITTED ∨ was = U.ACTIVATING then
    if s.fox.gone then s
    else if s.upd.swapArmed && s.fox.armed.isSome then
      dropStaging (disarmSet ((maskList s.upd.swapSet).foldl (fun t r => swapState 0 r t)
        (mdUpd (fun u => { u with swapArmed := false }) s)))
    else s
  else s

/-- FALLBACK at a device: the pair that does not hold the manifest abandoned is active again, with its settings. -/
def fallBack (m : BitVec 64) (s : State) : State :=
  let was := updState s
  let t := s |> updCode E.FALLBACK |> err P.UPD E.FALLBACK 0 0 |> irq P.UPD 4
             |> writePointer .fallback (fun p =>
                 if p.activeManifest = m then
                   { p with
                     activeB := !p.activeB
                     trial := false
                     attempts := 0
                     settingsB := !p.settingsB
                     committed := false
                     activeManifest := p.otherManifest
                     otherManifest := p.activeManifest }
                 else { p with trial := false, committed := false, otherVerified := false })
             |> mdUpd (fun u => { u with arming := none, confirming := [], attemptDue := false })
  undoSwap was t

/-- Which devices a FALLBACK concerns (R337). One in SAFE that it does not concern restarts all the same (Table 1.6,
R435). -/
def fallbackServed (m : BitVec 64) (s : State) : State :=
  let p := latestPointer s
  let st := updState s
  if st = U.FALLBACK_WAIT then fallBack m s
  else if (st = U.TRIAL ∨ st = U.ACTIVATING) ∧ p.activeManifest = m then fallBack m s
  else if st = U.COMMITTED ∧ p.otherManifest = m then fallBack m s
  else if s.dev.mode = .safe then restartSafe (fld 3 0 (freeVal s)) (drawn s)
  else abortServed m s

/-- The leader orders a fallback, and falls back itself. -/
def orderFallback (reason : Word) (s : State) : State :=
  let m := s.upd.pointer.activeManifest
  s |> sendAbort 0x43 m reason |> fallbackServed m

def confirmWindowExpiry (s : State) : State :=
  if ringLeader s && updState s == U.TRIAL && windowEnd s ≤ ringTime s then orderFallback 1 s else s

def execConfirmWindowExpiry (s : State) : Out := .next (confirmWindowExpiry s)

/-- Mailbox command FALLBACK_REQUEST. -/
def serveFallbackRequest (s : State) : Served :=
  if !ringLeader s || updState s != U.TRIAL then (E.PERM_FAULT, [], s) else (0, [], orderFallback 2 s)

/-! ## Pointer writes (R320) -/

/-- The step that a finished pointer write lets proceed; `old` is the record before it. -/
def afterPointer (why : PtrFor) (old : BootPointer) (s : State) : State :=
  match why with
  | .verified => s |> mdUpd (fun u => { u with verifyDue := false }) |> setUpdState U.VERIFIED |> updCode 0 |> irq P.UPD 0
  | .recovery => s |> setUpdState U.VERIFIED |> updCode 0 |> irq P.UPD 0
  | .begin_ => s
  | .committed =>
    let p := s.upd.pointer
    s |> sendCommit p.otherManifest p.commitT |> commitServed p.otherManifest p.commitT
  | .activate => s |> setFwBanks true |> handoverPrepared
  | .confirm =>
    let t := s |> eraseSettings (!s.upd.pointer.settingsB) |> setFwBanks false
               |> mdUpd (fun u => { u with swapSet := 0, resourced := 0 })
    if ringLeader t then confirmEnds t else setUpdState U.IDLE t
  | .fallback =>
    let p := s.upd.pointer
    let t := if p.settingsB != old.settingsB then eraseSettings old.settingsB s else s
    if t.dev.mode = .safe then restartSafe (fld 3 0 (freeVal t)) (drawn t)
    else
      let b := p.activeB
      let t := t |> resource (!b) b t.upd.resourced |> mdUpd (fun u => { u with resourced := 0, swapArmed := false })
      let t := if (maskList t.upd.swapSet).any (fun r =>
          regionOn r t && recSrc (rd (P.RGN r) R.RGN_ACTIVE_SRC t) == imageSrc (!b)) then swapBack b t else t
      if b != t.upd.running then handoverPrepared t
      else t |> setUpdState U.IDLE |> updHold false
  | .attempt => s
  | .bootFallback => s

/-- The oldest pointer write completes, unless its sector is still being erased. -/
def pointerWritten (s : State) : State :=
  match s.upd.ptrWrite with
  | [] => s
  | (why, p) :: rest =>
    let old := s.upd.pointer
    match programPointer p s with
    | none => pointerUpkeep s
    | some t => afterPointer why old (mdUpd (fun u => { u with ptrWrite := rest }) t)

def execPointerWriteDone (s : State) : Out := .next (pointerWritten s)

/-! ## A node joins (R333) -/

/-- The leader has read the manifests of a node that joined: ACTIVE_MANIFEST, OTHER_MANIFEST and BOOT. -/
def nodeJoined (node : Nat) (act oth : BitVec 64) (boot : Word) (s : State) : State :=
  if s.dev.mode = .off then s
  else if s.dev.mode ≠ .run ∨ ringLeader s = false ∨ ringUp s = false ∨ node = ownNode s then s
  else
    let t := resendCommit s
    let ring := t.upd.pointer.activeManifest
    if act = ring then t
    else if oth = ring ∧ bit 5 boot = true ∧ bit 7 boot = false then sendCommit ring (leadFrom (ringTime t) t) t
    else if updState t = U.TRIAL then orderFallback (W (3 + node * 2 ^ 8)) t
    else err P.UPD E.ROLL_FORWARD node 0 t

def execNodeJoin (node : Fin 256) (act oth : BitVec 64) (boot : Word) (s : State) : Out :=
  .next (nodeJoined node.val act oth boot s)

/-! ## MANIFEST_QUERY (R341) -/

def bootWord (s : State) : Word := pointerFlags s.upd.pointer &&& W 0xFF

def updStat (s : State) : Word := rd P.UPD R.UPD_STAT s

def serveQuery (s : State) : Served :=
  let p := s.upd.pointer
  (0, [updStat s, lo32 p.activeManifest, hi32 p.activeManifest, lo32 p.otherManifest, hi32 p.otherManifest,
       bootWord s], s)

end Sys2Proof.Machine
end

