-- ==== Sys2Proof/Machine/RingMsg.lean ====
section
/-! DEFINITION. Messages at ring-in: taken off, delivered, forwarded, removed; the ring-level classes at each node
(R390, R393–R395, Table 17.2). -/
namespace Sys2Proof.Machine

open Sys2Proof

/-- Where a ring message comes from: the content of its ORIGIN character (Table 17.1). -/
structure RingOrigin where
  node : Nat
  kind : Nat
  index : Nat
  deriving DecidableEq, Repr

def RingOrigin.char (o : RingOrigin) : Nat := originChar o.node o.kind o.index
/-- The origin as a route word (R41). -/
def RingOrigin.route (o : RingOrigin) : Word := W (2 ^ 31 + o.node * 2 ^ 22 + o.kind * 2 ^ 20 + o.index)

/-- The modes of a start-up, in which no service takes a message of the ring (R390). -/
def startingUp (s : State) : Bool :=
  match s.dev.mode with
  | .hold => true | .load => true | .selftest => true | .release => true
  | _ => false

/-! ## Ring-level classes (Table 17.2) -/

/-- A WAKE message: it wakes the device from DOZE, or aborts a sleep entry; no effect in RUN. -/
def wakeMessage (reason : Nat) (s : State) : State :=
  if !wakeEnabled 0 s then s
  else match s.dev.mode with
    | .run => if entering s then wakeUp 1 reason none s else s
    | _ => wakeUp 1 reason none s

/-- A RESET message: kind 1 is a ring reset where RING_RESET_EN = 1 (R361, R395). -/
def resetMessage (o : RingOrigin) (kind : Word) (s : State) : State :=
  if kind ≠ 1 then malformed o.route s
  else if !bit 0 (rd P.RST R.RST_CTL s) then unlisted Ev.RING_RESET s
  else ringReset s

/-- Payload words of each class (Table 2.8). -/
def levelLength (cls : Nat) : Nat :=
  match cls with
  | 0x30 => 3 | 0x31 => 16 | 0x40 => 12 | 0x41 => 4 | 0x42 => 3 | 0x43 => 3 | _ => 1

/-- The copy that a unit of this node takes. -/
def levelCopy (o : RingOrigin) (cls : Nat) (ws : List Word) (s : State) : State :=
  let w (n : Nat) : Word := ws.getD n 0
  if startingUp s then (if cls = 0x51 then unlisted Ev.RING_RESET s else s)
  else match cls with
    | 0x30 => snapMessage (join64 (w 0) (w 1)) (w 2) s
    | 0x40 => armServed (join64 (w 0) (w 1)) (join64 (w 2) (w 3)) s
    | 0x41 => commitServed (join64 (w 0) (w 1)) (join64 (w 2) (w 3)) s
    | 0x42 => abortServed (join64 (w 0) (w 1)) s
    | 0x43 => fallbackServed (join64 (w 0) (w 1)) s
    | 0x50 => wakeMessage (fld 7 0 (w 0)) s
    | 0x51 => resetMessage o (w 0) s
    | _ => s

/-- The node's bit in the bitmap of a passing DIGEST_QUERY or ARM (R395). -/
def levelBits (cls : Nat) (ws : List TWord) (s : State) : List TWord :=
  let w (n : Nat) : Word := (ws.getD n zeroWord).data
  match cls with
  | 0x31 => if digestDiffers ((ws.take 8).map (·.data)) s then setNodeBit 8 (ownNode s) ws else ws
  | 0x40 => if !startingUp s && readyFor (join64 (w 0) (w 1)) s then setNodeBit 4 (ownNode s) ws else ws
  | _ => ws

/-- A ring-level message at this node: its payload as it goes on, and the state. One that carries a word that is no
data is not acted on here (R31; assumption log 109). DESIGN CHOICE (assumption log 110): a malformed broadcast is
counted, and goes on to the next node all the same. -/
def levelAt (o : RingOrigin) (m : Msg) (s : State) : List TWord × State :=
  if m.status ≠ 0 then (m.payload, s)
  else if m.payload.length ≠ levelLength m.cls ∨ m.payload.length ≠ m.len then (m.payload, malformed o.route s)
  else if (wordsFail m.payload).isSome then (m.payload, s)
  else
    let t := levelCopy o m.cls (m.payload.map (·.data)) (if m.cls = 0x31 then refreshDigest s else s)
    (levelBits m.cls m.payload t, t)

/-! ## Delivery (R393) -/

/-- An RD_REPLY answers the request that it names. -/
def answered (o : RingOrigin) (m : Msg) (s : State) : State :=
  if m.cls ≠ 0x22 then s
  else
    let hit (e : Word × Word) : Bool :=
      ringRoute e.1 == o.route && ringLocal e.1 == W (fld 21 20 m.route * 2 ^ 30 + fld 8 0 m.route) &&
        fld 23 12 e.2 == m.task
    match s.ring.openRequests.find? hit with
    | some e => setRing { s.ring with openRequests := s.ring.openRequests.erase e } s
    | none => s

/-- A message for a port, engine or service of this node: through attachment 0x06, or handled as absent while the
device starts up. -/
def ringDeliver (o : RingOrigin) (m : Msg) (s : State) : State :=
  let loc := W (fld 21 20 m.route * 2 ^ 30 + fld 8 0 m.route)
  if startingUp s ∧ fld 21 20 m.route = 3 then
    let t := wr P.XB R.XB_ABSENT_LAST m.route s
    if requestClass m.cls then ringLaunch loc (stageReply m.head o.route [nullWord] E.ABSENT_TARGET) t
    else t |> count P.XB R.XB_ABSENT_DISCARDS |> irq P.XB 3
  else if fld 21 20 m.route = 3 ∧ fld 8 0 m.route = 6 then malformed o.route s
  else
    s |> answered o m
      |> send (.svcUp 6) ([tw .head m.head, tw .data (ringWord o.route loc)] ++ m.payload ++ [trailer m.status])

/-- The message back at its origin (R393, R407, R330). -/
def ringReturned (o : RingOrigin) (m : Msg) (s : State) : State :=
  let ws := m.payload.map (·.data)
  if fld 29 22 m.route = 255 then
    if m.cls = 0x31 then rollcallReturn (ws.drop 8) s
    else if m.cls = 0x40 then armReturned (ws.drop 4) s
    else s
  else
    let r := ringWord m.route (W (o.kind * 2 ^ 30 + o.index))
    absentRing r m.head (setRing { s.ring with openRequests := s.ring.openRequests.filter fun e => e.1 != r } s)

/-- A message that has passed the checks of ring-in. -/
def ringHandle (o : RingOrigin) (m : Msg) (s : State) : State :=
  let words (ws : List TWord) : List TWord :=
    [tw .head m.head, tw .data m.route] ++ ws ++ [trailer m.status]
  let node := fld 29 22 m.route
  if ownNode s = 0 then ringForward o.char (words m.payload) s
  else if o.node = ownNode s then ringReturned o m s
  else if node = 255 then
    if ringLevelClass m.cls then
      let (ws, t) := levelAt o m s
      ringForward o.char (words ws) t
    else ringForward o.char (words m.payload) (ringDeliver o m s)
  else if node = ownNode s then
    if ringLevelClass m.cls then (levelAt o m s).2 else ringDeliver o m s
  else ringForward o.char (words m.payload) s

/-- Ring-in activity in SLEEP or BEAR wakes the device where ring wakes are enabled; the message that makes it is lost
(R359). The reason is that of a WAKE message. -/
def ringActivity (reason : Nat) (s : State) : State :=
  if (s.dev.mode = .sleep ∨ s.dev.mode = .bear) ∧ ringStrapped s = true ∧ wakeEnabled 0 s = true then wakeUp 1 reason none s
  else s

/-- The reason code of the message, where it is a WAKE message. -/
def wakeReason : Option Msg → Nat
  | some m => if m.cls = 0x50 then fld 7 0 (m.payload.getD 0 zeroWord).data else 0
  | none => 0

/-- Words that arrive at ring-in as one message; what stands before its HEAD is no part of it (R394). A word whose parity fails is replayed by its lane, and counted. -/
def ringArrive (o : RingOrigin) (ws : List TWord) (s : State) : State :=
  let first := firstMsg ((ws.map fun w => tw w.tag w.data).dropWhile fun w => w.tag != .head)
  if !ringServed s then ringActivity (wakeReason (first.map (·.1))) s
  else if !s.ring.inUp then s
  else
    let bad := (ws.filter fun w => !parGood w).length
    let t := countN P.RING R.RING_WORDS_IN ws.length s
    let t := (List.range bad).foldl (fun t _ => errTransient P.RING t) (countN P.RING R.RING_REPLAYS bad t)
    match first with
    | some (m, _) => if m.status = E.UNTERMINATED then t else ringHandle o m t
    | none => t

def execRingMessage (origin : Byte) (kind : BitVec 2) (index : BitVec 9) (ws : List TWord) (s : State) : Out :=
  .next (ringArrive ⟨origin.toNat, kind.toNat, index.toNat⟩ ws s)

/-! ## A ring-level message to every node -/

/-- The words of a ring-level message as its origin sends it. -/
def levelWords (origin cls svc : Nat) (ws : List Word) : List TWord :=
  message cls origin (W (0xBFF00000 + svc)) (ws.map (tw .data)) 0

def levelArrives (origin cls svc : Nat) (ws : List Word) (s : State) : State :=
  ringArrive ⟨origin, 3, svc⟩ (levelWords origin cls svc ws) s

def execSnap (origin : Byte) (at_ : BitVec 64) (scope : Word) (s : State) : Out :=
  .next (levelArrives origin.toNat 0x30 5 [lo32 at_, hi32 at_, scope] s)

def execWake (origin reason : Byte) (s : State) : Out :=
  .next (levelArrives origin.toNat 0x50 6 [reason.setWidth 32] s)

/-- A RESET message in SLEEP or BEAR: ring-in activity that wakes the device first, where ring wakes are enabled
(R27, R359); it is a ring reset as in any other mode, or discarded and counted (R361). -/
def resetAsleep (o : RingOrigin) (kind : Word) (s : State) : State :=
  if !ringStrapped s || !wakeEnabled 0 s then s
  else if kind = 1 ∧ bit 0 (rd P.RST R.RST_CTL s) = true then ringReset s
  else resetMessage o kind (wakeUp 1 0 none s)

def execReset (origin : Byte) (kind : Word) (s : State) : Out :=
  .next (if s.dev.mode = .sleep ∨ s.dev.mode = .bear then resetAsleep ⟨origin.toNat, 3, 6⟩ kind s
    else levelArrives origin.toNat 0x51 6 [kind] s)

def execArm (origin : Byte) (payload : List Word) (s : State) : Out :=
  .next (levelArrives origin.toNat 0x40 6 payload s)

def execCommit (origin : Byte) (m t0 : BitVec 64) (s : State) : Out :=
  .next (levelArrives origin.toNat 0x41 6 [lo32 m, hi32 m, lo32 t0, hi32 t0] s)

def execAbort (origin : Byte) (m : BitVec 64) (reason : Word) (s : State) : Out :=
  .next (levelArrives origin.toNat 0x42 6 [lo32 m, hi32 m, reason] s)

def execFallback (origin : Byte) (m : BitVec 64) (reason : Word) (s : State) : Out :=
  .next (levelArrives origin.toNat 0x43 6 [lo32 m, hi32 m, reason] s)

end Sys2Proof.Machine
end

