-- ==== Sys2Proof/Machine/Steward.lean ====
section
/-! DEFINITION. What the steward serves: the mailbox commands of R68, Table 13.6 and Table 14.7, and the fabric half
as service 0x04 (R69). -/
namespace Sys2Proof.Machine

open Sys2Proof

/-! ## Code/Data Flash commands (R316) -/

def sectorCode (x : Nat) : Bool := x < 128 || (0x80 ≤ x && x < 0x88)

def serveWear (h : Half) (s : State) : Served :=
  let x := (mbxReq h 1 s).toNat
  if sectorCode x then (0, [wearData x s], s) else (E.PERM_FAULT, [], s)

/-- The physical address of a page in the array, as an offset of the array. -/
def arrayOff (w : Word) : Nat := (w - W 0x40000000).toNat

/-- PAGE_PROGRAM: the page is programmed from 128 words of the banks, under the rules for host commands. -/
def servePage (h : Half) (s : State) : Served :=
  let off := arrayOff (mbxReq h 1 s)
  let src := (mbxReq h 2 s).toNat
  match sectorOf off with
  | none => (E.PERM_FAULT, [], s)
  | some x =>
    if !takesWork P.CDF s then (E.PERM_FAULT, [], s)
    else if (mbxReq h 1 s).toNat < 0x40000000 ∨ off % 0x200 ≠ 0 ∨ src % 4 ≠ 0 ∨ src < 0x10000000 ∨ 0x12000000 < src + 512 then
      (E.PERM_FAULT, [], s)
    else
      let b := sectorBank x
      let p := pageIn x off
      match cdfRefusal .steward true none Cdf.PROGRAM b x p s with
      | some c => (c, [], cdfRefused .steward Cdf.PROGRAM b x c s)
      | none =>
        let k := (mbxReq h 2 s - W 0x10000000).toNat / 4
        let (ws, t) := (List.range 128).foldl (fun (acc, t) i =>
          let (w, t) := readBank ((k + i) / 8192) ((k + i) % 8192) t
          (acc ++ [w.data], t)) (([] : List Word), s)
        (0, [], startProgram b x p (pageBuf ws) t)

/-- SECTOR_ERASE under the rules for host commands. -/
def serveErase (h : Half) (s : State) : Served :=
  let x := (mbxReq h 1 s).toNat
  if !sectorCode x || !takesWork P.CDF s then (E.PERM_FAULT, [], s)
  else
    let b := sectorBank x
    match cdfRefusal .steward true none Cdf.ERASE_SECTOR b x 0 s with
    | some c => (c, [], cdfRefused .steward Cdf.ERASE_SECTOR b x c s)
    | none => (0, [], cdfAccepted .steward Cdf.ERASE_SECTOR b x 0 s)

/-! ## Serving a request (R67, R68) -/

/-- What a command answers, by its code. -/
def serve (h : Half) (code : Nat) (s : State) : Served :=
  match code with
  | 0x0001 => serveVersion s
  | 0x0002 => serveEcho h s
  | 0x0101 => serveBegin h s
  | 0x0102 => serveActivate s
  | 0x0103 => serveConfirm h s
  | 0x0104 => serveQuery s
  | 0x0105 => serveFallbackRequest s
  | 0x0106 => serveRingChunk h s
  | 0x0107 => serveCancel s
  | 0x0201 => serveWear h s
  | 0x0202 => servePage h s
  | 0x0203 => serveErase h s
  | _ => (E.PERM_FAULT, [], s)

/-- The steward answers the request of a half: carried out where the mode serves it. -/
def stewardServes (h : Half) (s : State) : State :=
  let code := mbxCode h s
  if 15 < mbxArgs h s || (romOnly s && !romCommand code) then respond h E.PERM_FAULT [] s
  else
    let (status, results, t) := serve h code s
    respond h status results t

/-- The steward answers the request in progress at a half, if it has the code `only`. -/
def mbxServed (h : Half) (only : Option Nat) (s : State) : State :=
  if mbxBusy h s && stewardAnswers s && only.all (fun c => c == mbxCode h s) then stewardServes h s else s

def execMbxResponse (h : Half) (s : State) : Out := .next (mbxServed h none s)
def execVersion (h : Half) (s : State) : Out := .next (mbxServed h (some 0x0001) s)
def execEcho (h : Half) (s : State) : Out := .next (mbxServed h (some 0x0002) s)
def execBundleBegin (h : Half) (s : State) : Out := .next (mbxServed h (some 0x0101) s)
def execActivate (h : Half) (s : State) : Out := .next (mbxServed h (some 0x0102) s)
def execConfirm (h : Half) (s : State) : Out := .next (mbxServed h (some 0x0103) s)
def execManifestQuery (h : Half) (s : State) : Out := .next (mbxServed h (some 0x0104) s)
def execFallbackRequest (h : Half) (s : State) : Out := .next (mbxServed h (some 0x0105) s)
def execRingChunk (h : Half) (s : State) : Out := .next (mbxServed h (some 0x0106) s)
def execBundleCancel (h : Half) (s : State) : Out := .next (mbxServed h (some 0x0107) s)
def execWearReport (h : Half) (s : State) : Out := .next (mbxServed h (some 0x0201) s)
def execPageProgram (h : Half) (s : State) : Out := .next (mbxServed h (some 0x0202) s)
def execSectorErase (h : Half) (s : State) : Out := .next (mbxServed h (some 0x0203) s)

/-! ## Service 0x04 (R69) -/

/-- A DEV page offset that the service accepts. -/
def mbxOffset (off : Nat) : Bool :=
  off % 4 == 0 && (off == R.DEV_MBX_F_CTL || (R.DEV_MBX_F_REQ ≤ off && off < 0x200))

/-- A write of MBX_H_CTL or MBX_F_CTL: DONE is cleared by writing 1, GO submits the request. -/
def mbxCtlWrite (h : Half) (v : Word) (s : State) : State :=
  let t := if bit 2 v then wrf P.DEV (mbxCtl h) 2 2 0 s else s
  if bit 0 v then mbxGo h t else t

/-- A write of a request register, dropped while BUSY (R67). -/
def mbxReqWrite (h : Half) (off : Nat) (v : Word) (s : State) : State :=
  if mbxBusy h s then s else wr P.DEV off v s

/-- A write at an offset of the fabric half; the response registers are read-only. -/
def fabricWrite (off : Nat) (v : Word) (s : State) : State :=
  if off = R.DEV_MBX_F_CTL then mbxCtlWrite .fabricHalf v s
  else if off < R.DEV_MBX_F_RSP then mbxReqWrite .fabricHalf off v s
  else s

/-- A read; REJECTS clears when it is read. -/
def fabricRead (off : Nat) (s : State) : Word × State :=
  (rd P.DEV off s, if off = R.DEV_MBX_F_CTL then wrf P.DEV off 31 16 0 s else s)

/-- A REMOTE_RD or REMOTE_WR of the fabric half. DESIGN CHOICE (assumption log 111): a request without payload, or with
a count of 0 or above 256, is answered with PERM_FAULT and no payload. -/
def mbxRemote (m : Msg) (s : State) : State :=
  let a := addrWord m
  let body := m.payload.tail
  let refuse := svcReply 4 m [] E.PERM_FAULT s
  let offs (n : Nat) : List Nat := (List.range n).map fun k => a + 4 * k
  if let some code := wordsFail m.payload then svcReply 4 m [] code s
  else if m.cls = 0x20 then
    let n := fld 8 0 (body.headD nullWord).data
    if body.length ≠ 1 ∨ n = 0 ∨ 256 < n ∨ !(offs n).all mbxOffset then refuse
    else
      let (ws, t) := (offs n).foldl (fun (acc, t) off =>
        let (w, t) := fabricRead off t
        (acc ++ [tw .data w], t)) (([] : List TWord), s)
      svcReply 4 m ws 0 t
  else if body = [] ∨ !(offs body.length).all mbxOffset then refuse
  else
    svcReply 4 m [] 0 ((List.zip (offs body.length) body).foldl (fun t e => fabricWrite e.1 e.2.data t) s)

/-- The messages that the mailbox takes: requests, and a reply to a request of the steward's own that is still open
(R42, R69). -/
def mbxKnown (m : Msg) (s : State) (cls : Nat) : Bool :=
  requestClass cls || (cls == 0x22 && s.upd.awaited.contains m.route)

/-- A reply to the steward: its request is answered. For an access of its own to another node's banks (task 1) it is given
the word, or the code (R17, R244). The word read by a CONFIRM is judged; an error, or a word that is no data, reads as no
answer yet. -/
def stewardReplied (m : Msg) (s : State) : State :=
  let t := mdUpd (fun u => { u with awaited := u.awaited.erase m.route }) s
  if m.task = 1 then
    (if m.status ≠ 0 then pushRead .steward (faultWord m.status 0) t
     else match m.payload with
       | [w] => deliver .steward w t
       | _ => t)
  else match m.payload with
  | [w] => confirmAnswer (fld 29 22 m.route) (if m.status = 0 ∧ w.tag = .data then w.data else W 0xFF000000) t
  | _ => t

/-- The message at service 0x04: an access, or a reply to the steward. -/
def mailboxService (s : State) : State :=
  if !deviceRuns s && s.dev.mode != .safe then s
  else match sinkMsg (.svcDown 4) s with
    | none => s
    | some m =>
      let t := dropMsg (.svcDown 4) s
      match receiverCheck 4 (mbxKnown m t) m t with
      | some u => u
      | none => if m.cls = 0x22 then stewardReplied m t else mbxRemote m t

def execFabricMailboxAccess (s : State) : Out := .next (mailboxService s)

end Sys2Proof.Machine
end

