-- ==== Sys2Proof/Machine/RegRead.lean ====
section
/-! DEFINITION. What a register reads as: the common page registers, the values that a page derives from the
state of its block, the reads that have an effect, and 64-bit registers (R50, R51, R53, R55, R57, R59). -/
namespace Sys2Proof.Machine

open Sys2Proof

/-- A word from its bits. -/
def bitsWord (f : Nat → Bool) : Word := (List.range 32).foldl (fun w n => setBit n (f n) w) 0

/-- Halves of a mask. -/
def maskHalf (hi : Bool) (m : BitVec 64) : Word := if hi then hi32 m else lo32 m

/-! ## The common registers (Tables 3.2a–3.2f) -/

/-- The interrupt sources a page type implements (R55): the sources of its table, and bit 31. -/
def irqSources : PageKind → List Nat
  | .dev | .pmu | .upd | .sch0 => [0, 1, 2, 3, 4, 5]
  | .clk | .time | .snap | .wpk | .guard | .sch2 | .sch3 | .eth => [0, 1]
  | .rst | .pcie | .iob => [0]
  | .cdf | .fox => [0, 1, 2, 3, 4]
  | .csc | .xb => [0, 1, 2, 3]
  | .mmu | .dma | .ring => [0, 1, 2]
  | .owl | .sch1 => []
  | .rgn => [0, 1, 8, 9, 10, 12, 13, 16, 17, 20, 21, 22, 24, 25, 26, 27, 28]

/-- The bits of IRQ_PEND that a page type implements. -/
def irqMask (k : PageKind) : Word := bitsWord fun n => n == 31 || (irqSources k).contains n

/-- PAGE_CAP. -/
def pageCap (k : PageKind) : Word :=
  W ((irqSources k).length + 1)
    |> setBit 8 (freezeImpl k) |> setBit 9 (snapImpl k)
    |> setBit 10 (alwaysOnPage k) |> setBit 11 (k == .dev)

/-- PAGE_STAT: the error records as stored, and the power and clock state of the page's island. -/
def pageStat (k : PageKind) (p : Nat) (s : State) : Word :=
  let w := rd p R.PAGE_STAT s &&& W 0xFF10
  setFld 1 0 (pagePower k p s) (setFld 3 2 (pageClock k p s) (setBit 5 (pagePower k p s == 3) w))

/-- SOFT_RST reads 1 while the reset that a write asked for is held back by the start-up flow or by a swap (R56, R270,
R291). -/
def resetHeld (k : PageKind) (p : Nat) (s : State) : Bool :=
  match k with
  | .dev => s.dev.resetWaiting.isSome
  | .rgn => (rgn (p - 0x100) s).resetWaiting
  | _ => false

def commonValue (k : PageKind) (p off : Nat) (s : State) : Word :=
  if off = R.PAGE_ID then W (pageType k * 2 ^ 16 + pageInstance k p * 2 ^ 8 + 1)
  else if off = R.PAGE_CAP then pageCap k
  else if off = R.PAGE_CTL then setBit 1 (resetHeld k p s) (rd p off s)
  else if off = R.PAGE_STAT then pageStat k p s
  else if off = R.IRQ_FORCE ∨ R.IRQ_FORCE < off then 0
  else rd p off s

/-! ## Derived values, by page type: none where the register holds its value itself -/

def devDerived (off : Nat) (s : State) : Option Word :=
  if off = R.DEV_DEVICE_ID then
    some (W (0x4B960000 + Config.stepping.toNat * 2 ^ 8 + b2n Config.gradeE * 2 ^ 7))
  else if off = R.DEV_SERIAL_LO then some (lo32 Config.serial)
  else if off = R.DEV_SERIAL_HI then some (hi32 Config.serial)
  else if off = R.DEV_STRAPS then some (s.dev.straps.setWidth 32 &&& W 0x77FF)
  else if off = R.DEV_MODE then
    some (setFld 3 0 (modeCode s.dev.mode) (setFld 7 4 s.dev.previous.toNat (rd P.DEV off s &&& W 0xFFFF0F00)))
  else if off = R.DEV_IRQ_VEC_PEND then some (bitsWord fun v => vecPend v s)
  else if off = R.DEV_IRQ_VEC_PEND + 4 then some (bitsWord fun v => vecPend (32 + v) s)
  else none

/-- The cell waits for its bank: an access of its instruction, or an earlier posted write, is not granted yet (R83). -/
def bankWaits (x : Cell) : Bool :=
  (x.issued.bind (·.wait)).isSome || x.stall.any (·.dst == 6)

/-- The item of a cell that PEEK_DATA returns (Table 4.10). -/
def peekCell (c item : Nat) (s : State) : Word :=
  let x := cell c s
  match item with
  | 0 => x.d0.data
  | 1 => x.d1.data
  | 2 => x.d2.data
  | 3 => x.d3.data
  | 4 => W (Tag.code x.d0.tag)
  | 5 => W (Tag.code x.d1.tag)
  | 6 => W (Tag.code x.d2.tag)
  | 7 => W (Tag.code x.d3.tag)
  | 8 => x.cnt.setWidth 32
  | 9 => W (b2n x.z + 2 * b2n x.n + 4 * b2n x.c + 8 * b2n x.v)
  | 10 => x.bp.setWidth 32
  | 11 => x.entry.setWidth 32
  | 12 => W (Tag.code x.ltag)
  | 13 => x.tapOut.setWidth 32
  | 14 => (tapInput c s).setWidth 32
  | _ =>
    if !cellEnabled c s then 5
    else if x.halted then 4
    else if bankWaits x then 3
    else if x.stall.isSome then 2
    else if !inputsReady c (curInsn c s) s then 1
    else 0

/-- The item of a MAC slice that its PEEK_DATA returns (Table 6.8). -/
def peekMac (m item : Nat) (s : State) : Word :=
  let x := mac m s
  match item with
  | 0 => x.p.setWidth 32
  | 1 => (x.p >>> 32).setWidth 32
  | 2 => setBit 31 x.pf (W ((x.p >>> 64).toNat % 2 ^ 16))
  | 3 => (latchVal m 0 s).data
  | 4 => (latchVal m 1 s).data
  | 5 => (latchVal m 2 s).data
  | _ => 0

/-- The neighbour of a side is draining or swapping. -/
def sideSwapping (r side : Nat) (s : State) : Bool :=
  match regionNext r (sideDir side) with
  | some n => 2 ≤ rdf (P.RGN n) R.RGN_SWAP_STATE 2 0 s
  | none => false

/-- BANK_REPAIR: two bits a bank, 0 to 2 spare columns in use (R189, Table 8.6); what the fuses say beyond 2 reads as
2. -/
def bankRepair (r : Nat) : Word :=
  W ((List.range 16).foldl (fun a l => a + min 2 (fld (2 * l + 1) (2 * l) (Config.bankRepair r)) * 4 ^ l) 0)

def rgnDerived (r off : Nat) (s : State) : Option Word :=
  let g := P.RGN r
  if off = R.RGN_GEOM then some (W (r / 8 * 2 ^ 8 + r % 8 * 2 ^ 4 + pinSides r))
  else if off = R.RGN_RCLK_STAT then some (frameWord r 0 0 s)
  else if off = R.RGN_TAP_STAT then
    some (bitsWord fun n => if n < 4 then !neighbourOn r n s else n < 8 && sideSwapping r (n - 4) s)
  else if off = R.RGN_BANK_MODE then
    some (bitsWord fun n => if n < 16 then mirrored (r * 16 + n) s
      else n % 2 == 0 && mirrored (r * 16 + (n - 16)) s && (copies (r * 16 + (n - 16)) s).length == 1)
  else if off = R.RGN_BANK_REPAIR then some (bankRepair r)
  else if off = R.RGN_MAC_PEEK_DATA then
    some (peekMac (r * 32 + rdf g R.RGN_MAC_PEEK_SEL 4 0 s) (rdf g R.RGN_MAC_PEEK_SEL 10 8 s) s)
  else if off = R.RGN_SW_STAT then
    some (bitsWord fun n =>
      if n < 8 then (chan (.portUp (portId (8 * r + n))) s).holder.isSome
      else if n < 16 then (chan (.portDown (portId (8 * r + (n - 8)))) s).route.isSome
      else bit n (rd g off s))
  else if off = R.RGN_ACTIVE_ID then some (frameWord r 0 6 s)
  else if off = R.RGN_STAGE_STAT then
    some (setBit 30 (loading r s) (setBit 29 (locked r s) (rd g off s &&& W 0x80FF0707)))
  else if off = R.RGN_STAGE_ID then
    some (if stageValid r s then planeWord s.planes.staging r 0 6 else 0)
  else if off = R.RGN_SQ_STAT then some (setFld 9 0 (rgn r s).sq.length (rd g off s &&& W 0x03FF0000))
  else if off = R.RGN_PARAM_STAT then
    some (W ((allPending s).filter fun e => e.1 / 2048 == r).length)
  else if R.RGN_HALTED ≤ off ∧ off < R.RGN_HALTED + 32 ∧ off % 4 = 0 then
    some (bitsWord fun n => (cell (256 * r + 8 * (off - R.RGN_HALTED) + n) s).halted)
  else if off = R.RGN_PEEK_DATA then
    some (peekCell (256 * r + rdf g R.RGN_PEEK_SEL 11 4 s) (rdf g R.RGN_PEEK_SEL 3 0 s) s)
  else none

def sch0Derived (off : Nat) (s : State) : Option Word :=
  if off = R.SCH0_DOORBELL_CREDITS then some (W (64 - (queue 16 s).length))
  else if off = R.SCH0_CMD_STAT then some (setBit 16 s.sched.cmd.isSome (rd P.SCH0 off s))
  else if off = R.SCH0_TASK_COUNTS then
    some (W ((tasks Ctx.onEngine s).length * 2 ^ 16 + (tasks Ctx.onList s).length))
  else if R.SCH0_ENGINE ≤ off ∧ off < R.SCH0_ENGINE + 1024 then some (engineEntry ((off - R.SCH0_ENGINE) / 4) s)
  else if R.SCH0_ENGINE_STAT ≤ off ∧ off < R.SCH0_ENGINE_STAT + 1024 then
    some (engineStat ((off - R.SCH0_ENGINE_STAT) / 4) s)
  else none

def sch1Derived (off : Nat) (s : State) : Option Word :=
  if R.SCH1_CTX_W ≤ off ∧ off < R.SCH1_CTX_W + 56 then
    some (ctxWord (rdf P.SCH1 R.SCH1_CTX_SEL 11 0 s) ((off - R.SCH1_CTX_W) / 4) s)
  else if off = R.SCH1_ARG_DATA then some (argWord (rdf P.SCH1 R.SCH1_ARG_ADDR 13 0 s) s).data
  else if off = R.SCH1_SAVE_DATA then some (saveWord (rdf P.SCH1 R.SCH1_SAVE_ADDR 15 0 s) s).data
  else none

def sch2Derived (off : Nat) (s : State) : Option Word :=
  if off = R.SCH2_BIND_DATA then some (bindWord (rdf P.SCH2 R.SCH2_BIND_SEL 9 0 s) s)
  else if R.SCH2_QSTAT ≤ off ∧ off < R.SCH2_QSTAT + 72 then
    let fill := (queue ((off - R.SCH2_QSTAT) / 4) s).length
    some (W (max (fld 15 8 (rd P.SCH2 off s)) fill * 2 ^ 8 + fill))
  else none

def sch3Derived (off : Nat) (s : State) : Option Word :=
  let e := tget ((0 : Word), (0 : Word)) s.sched.trace (rdf P.SCH3 R.SCH3_TRACE_SEL 12 0 s)
  if off = R.SCH3_TRACE_TIME then some e.1
  else if off = R.SCH3_TRACE_INFO then some e.2
  else none

def dmaDerived (c off : Nat) (s : State) : Option Word :=
  let x := dchan c s
  if off = R.DMA_STAT then
    some (rd (P.DMA c) off s &&& W 0xFF000000
      |> setFld 19 16 x.queue.length |> setBit 2 x.halted |> setBit 1 (waitsForEvents c s)
      |> setBit 0 x.cur.isSome)
  else if off = R.DMA_CUR_ID then
    some (match x.cur with
      | some c => W c.desc.id
      | none => 0)
  else if off = R.DMA_CUR_DONE then
    some (match x.cur with
      | some c => W (c.done % 2 ^ 22)
      | none => 0)
  else none

def foxDerived (off : Nat) (s : State) : Option Word :=
  let half := off % 8 == 4
  if off = R.FOX_STREAM_STAT then
    some (match s.fox.stream with
      | some x => W (2 ^ 31 + rqCode x.owner % 4 * 2 ^ 29 + (1024 - s.fox.buffer.length))
      | none => rd P.FOX off s)
  else if off = R.FOX_LOADING_LO ∨ off = R.FOX_LOADING_HI then
    some (maskHalf half (maskOf (s.fox.loads.map (·.1))))
  else if off = R.FOX_STAGED_LO ∨ off = R.FOX_STAGED_HI then
    some (maskHalf half (maskOf ((List.range 64).filter fun r => stageValid r s)))
  else if off = R.FOX_ARM_CTL then
    some (setBit 4 s.fox.drainAt.isSome (setBit 3 s.fox.armed.isSome (rd P.FOX off s &&& W 0xFF000000)))
  else none

/-- SLOT_STAT of slot k. -/
def slotStat (k : Nat) (s : State) : Word :=
  let x := slot k s
  W x.programs.toNat
    |> setBit 31 x.valid |> setBit 30 x.busy |> setBit 29 (slotRef k s) |> setBit 28 x.corrupt
    |> setBit 27 x.retired |> setBit 26 x.wearWarn

/-- The slot that SLOT_SEL selects. -/
def slotSel (s : State) : Nat := 8 * rdf P.CSC R.CSC_SLOT_SEL 13 8 s + rdf P.CSC R.CSC_SLOT_SEL 2 0 s

/-- PERSONALITY_ID of the image stored in slot k: word 6 of frame 0 of the plane it gives (R252, Table 11.7);
zero in an empty slot. -/
def slotId (k : Nat) (s : State) : Word :=
  match area (128 + k) s with
  | [] => 0
  | ws => planeWord (planeFrom 1 (k / 8) ws s []) (k / 8) 0 6

def cscDerived (off : Nat) (s : State) : Option Word :=
  if off = R.CSC_SLOT_STAT then some (slotStat (slotSel s) s)
  else if off = R.CSC_SLOT_ID then some (slotId (slotSel s) s)
  else if off = R.CSC_RETIRED_SLOTS then some (W (s.store.slots.filter fun e => e.2.retired).length)
  else if R.CSC_LIB_VALID ≤ off ∧ off < R.CSC_LIB_VALID + 64 then
    some (bitsWord fun n => (slot (8 * (off - R.CSC_LIB_VALID) + n) s).valid)
  else if off = R.CSC_IMAGE_STAT then
    some (W (b2n s.store.bootB * 16 + b2n s.store.bValid * 2 + b2n s.store.aValid))
  else none

def rstDerived (off : Nat) (s : State) : Option Word :=
  if off = R.RST_DONE_STAT then some (setBit 1 s.io.doneLine (rd P.RST off s)) else none

def cdfDerived (rq : Requester) (off : Nat) (s : State) : Option Word :=
  if R.CDF_BANK_STAT ≤ off ∧ off < R.CDF_BANK_STAT + 16 then some (bankStat rq ((off - R.CDF_BANK_STAT) / 4) s)
  else if off = R.CDF_WEAR_DATA then some (wearData (rdf P.CDF R.CDF_WEAR_SEL 7 0 s) s)
  else if R.CDF_WARN ≤ off ∧ off < R.CDF_WARN + 16 then
    some (bitsWord fun n => (wearOf (8 * (off - R.CDF_WARN) + n) s).warn)
  else if off = R.CDF_WARN_P then some (bitsWord fun n => n < 8 && (wearOf (0x80 + n) s).warn)
  else if R.CDF_RETIRED ≤ off ∧ off < R.CDF_RETIRED + 16 then
    some (bitsWord fun n => (wearOf (8 * (off - R.CDF_RETIRED) + n) s).retired)
  else if off = R.CDF_RETIRED_P then some (bitsWord fun n => n < 8 && (wearOf (0x80 + n) s).retired)
  else none

def guardDerived (off : Nat) (s : State) : Option Word :=
  if off = R.GUARD_GROUPS0 then some (s.flash.guardBits.setWidth 32)
  else if off = R.GUARD_GROUPS_P then some (W (s.flash.guardBits.toNat / 2 ^ 32))
  else none

/-- Seconds of the confirm window that remain, at the leader. -/
def trialLeft (s : State) : Word :=
  if ringLeader s && (updState s == U.TRIAL || updState s == U.CONFIRMING) then
    W (((windowEnd s).toNat - s.time.ringTime.toNat) / 1000000000)
  else 0

def updDerived (off : Nat) (s : State) : Option Word :=
  let p := s.upd.pointer
  if off = R.UPD_BUNDLE_STAT then some (setFld 10 0 (1024 - s.upd.buffer.length) (rd P.UPD off s)) else
  if off = R.UPD_BOOT then some (bootWord s)
  else if off = R.UPD_ACTIVE_MANIFEST_LO then some (lo32 p.activeManifest)
  else if off = R.UPD_ACTIVE_MANIFEST_HI then some (hi32 p.activeManifest)
  else if off = R.UPD_OTHER_MANIFEST_LO then some (lo32 p.otherManifest)
  else if off = R.UPD_OTHER_MANIFEST_HI then some (hi32 p.otherManifest)
  else if off = R.UPD_FW_ACTIVE then some (fwVersion p.activeB s)
  else if off = R.UPD_FW_OTHER then some (fwVersion (!p.activeB) s)
  else if off = R.UPD_TRIAL_LEFT then some (trialLeft s)
  else none

/-- RGN_ON: the regions that have power. -/
def regionsPowered (s : State) : BitVec 64 :=
  maskOf ((List.range 64).filter fun r => (rgn r s).power == .on || (rgn r s).power == .gated)

def pmuDerived (off : Nat) (s : State) : Option Word :=
  if off = R.PMU_RGN_ON_LO then some (lo32 (regionsPowered s))
  else if off = R.PMU_RGN_ON_HI then some (hi32 (regionsPowered s))
  else none

def timeDerived (off : Nat) (s : State) : Option Word :=
  if off = R.TIME_NOW_LO then some (ringLo s)
  else if off = R.TIME_NOW_HI then some (hi32 (ringTime s))
  else none

/-- The register arrays of an IOB page run to the cells the bank has. -/
def cellAbsent (b off : Nat) : Bool :=
  off ≥ R.IOB_CFG && off < R.IOB_CFG + 0x400 && bankCells b ≤ off % 0x100 / 4

def iobDerived (b off : Nat) (s : State) : Option Word :=
  if off = R.IOB_BANK_STAT then some (setBit 0 (8 ≤ b) (rd (P.IOB b) off s))
  else if cellAbsent b off then some 0
  else none

/-- IN_WINDOW is of the service island: the voltage, and in RUN its clock too (R373, Table 16.4). -/
def wpkDerived (off : Nat) (s : State) : Option Word :=
  if off = R.WPK_PU_WINDOW then some Config.puWindow
  else if off = R.WPK_WIN_STAT then
    some (setBit 31 (inWindow s && (s.dev.mode != .run || clockInWindow 66 s)) (rd P.WPK off s))
  else none

def derived (rq : Requester) (k : PageKind) (p off : Nat) (s : State) : Option Word :=
  match k with
  | .dev => devDerived off s
  | .rgn => rgnDerived (p - 0x100) off s
  | .sch0 => sch0Derived off s
  | .sch1 => sch1Derived off s
  | .sch2 => sch2Derived off s
  | .sch3 => sch3Derived off s
  | .dma => dmaDerived (p - 0x020) off s
  | .fox => foxDerived off s
  | .csc => cscDerived off s
  | .rst => rstDerived off s
  | .cdf => cdfDerived rq off s
  | .guard => guardDerived off s
  | .upd => updDerived off s
  | .pmu => pmuDerived off s
  | .time => timeDerived off s
  | .iob => iobDerived (p - 0x050) off s
  | .wpk => wpkDerived off s
  | .owl => if off = R.OWL_STAT then some (owlStat s) else none
  | .pcie => if off = R.PCIE_ID then some (W (0x4B960000 + Config.pciVendor.toNat)) else none
  | .clk | .snap | .xb | .mmu | .ring | .eth => none

/-- The bits of a register that a read shows: all but the WO and RSV fields (Table 3.1). -/
def RegRow.shown (r : RegRow) : Word := r.rw ||| r.ro ||| r.w1c ||| r.w1s ||| r.rc

/-- What a register reads as; an offset that the page does not define reads as zero (R49). -/
def regValue (rq : Requester) (p off : Nat) (s : State) : Word :=
  match pageKind p with
  | none => 0
  | some k =>
    if off < 0x40 then commonValue k p off s
    else match regRow p off with
      | none => 0
      | some r =>
        match derived rq k p off s with
        | some v => v
        | none => rd p off s &&& r.shown

/-! ## Reads with an effect -/

/-- The latched high word of a requester class. -/
def highLatched (rq : Requester) (p lowOff : Nat) (s : State) : Option Word :=
  tfind s.dev.highLatch (pairKey rq p lowOff)
def latchHigh (rq : Requester) (p lowOff : Nat) (v : Word) (s : State) : State :=
  setDev { s.dev with highLatch := tins (pairKey rq p lowOff) v s.dev.highLatch } s
def dropLatch (rq : Requester) (p lowOff : Nat) (s : State) : State :=
  setDev { s.dev with highLatch := tdel (pairKey rq p lowOff) s.dev.highLatch } s

/-- An RC field clears when it is read (R53, Table 3.1). -/
def clearRc (p off : Nat) (s : State) : State :=
  match regRow p off with
  | some r => if r.rc = 0 then s else md p off (fun w => w &&& ~~~r.rc) s
  | none => s

/-- A 32-bit read of a register of a page that is not off: the value delivered and the effects of the read.
A low word of a 64-bit register latches the high word; the following read of the high word takes it (R51). -/
def regRead (rq : Requester) (p off : Nat) (s : State) : State :=
  let s := if p = P.RING ∧ R.RING_DEV_DIGEST ≤ off then refreshDigest s else s
  match pageKind p with
  | none => s
  | some k =>
    if k = .sch1 ∧ off = R.SCH1_ARG_DATA then argAccess rq none s
    else if k = .sch1 ∧ off = R.SCH1_SAVE_DATA then saveRead rq s
    else if k = .sch2 ∧ off = R.SCH2_BIND_DATA then bindAccess rq none s
    else if wideLow k off then
      deliverReg rq (regValue rq p off s) (latchHigh rq p off (regValue rq p (off + 4) s) s)
    else if 4 ≤ off ∧ wideLow k (off - 4) then
      match highLatched rq p (off - 4) s with
      | some v => deliverReg rq v (dropLatch rq p (off - 4) s)
      | none => deliverReg rq (regValue rq p off s) s
    else deliverReg rq (regValue rq p off s) (clearRc p off s)

/-- A read of one register: reserved pages are refused (R49), a page that is off answers PAGE_ID and
PAGE_STAT only (R59), and in SCAN nothing is served (R383). -/
def pageRead (rq : Requester) (p off : Nat) (s : State) : State :=
  match pageKind p with
  | none => if attached rq s && s.dev.mode != .scan then reservedAccess rq (p * 4096 + off) false s else s
  | some k =>
    if !attached rq s then s
    else if s.dev.mode == .scan then deliver rq (offWord rq) s
    else if off = R.PAGE_ID ∨ off = R.PAGE_STAT then deliverReg rq (commonValue k p off s) s
    else onPageRead rq p off (regRead rq p off) s

def execReg64LowRead (rq : Requester) (page : Fin 16384) (off : Fin 1024) (s : State) : Out :=
  .next (pageRead rq page.val (4 * off.val) s)
def execRcRead (rq : Requester) (page : Fin 16384) (off : Fin 1024) (s : State) : Out :=
  .next (pageRead rq page.val (4 * off.val) s)

end Sys2Proof.Machine
end

