-- ==== Sys2Proof/Machine/SoftReset.lean ====
section
/-! DEFINITION. A write of PAGE_CTL.SOFT_RST, page by page: status, counters and work in progress return to
their reset values, work in flight is discarded with ABSENT_TARGET, and settings keep their values (R56). A soft
reset completes in the command that starts it, so that SOFT_RST reads 0 after it. -/
namespace Sys2Proof.Machine

open Sys2Proof

/-! ## Crossbar -/

/-- The inputs and outputs of the crossbar. -/
def xbInputs : List ChanId :=
  ((List.range 512).map fun p => ChanId.portUp (portId p)) ++ (List.range 7).map fun k => .svcUp (svcId k)
def xbOutputs : List ChanId :=
  ((List.range 512).map fun p => ChanId.portDown (portId p)) ++ (List.range 7).map fun k => .svcDown (svcId k)

/-- An input of the crossbar is emptied; the message open at it is closed at its output, and each requester is
answered with ABSENT_TARGET (R56). -/
def dropInput (s : State) (inp : ChanId) : State :=
  if tfind s.net (chanKey inp) = none then s
  else
    let x := chan inp s
    let t := match x.route with
      | some (.out o) =>
        if (chan o s).holder = some inp then
          release o (if x.headSent then send o [trailer E.ABSENT_TARGET] s else s)
        else s
      | _ => s
    let t := mdChan inp (fun y => { y with
      buffer := []
      inMsg := false
      owed := y.owed + y.buffer.length
      marks := y.marks.drop (heads y.buffer)
      route := if tailOpen y then some .discard else none }) t
    (inputMsgs x).foldl (fun t m =>
      if requestClass (fld 31 24 m.1) then
        replyAs none inp (stageReply m.1 m.2 [nullWord] E.ABSENT_TARGET) t
      else t) t

/-- No HEAD waits at an output any more. -/
def dropWaiting (s : State) (o : ChanId) : State :=
  if tfind s.net (chanKey o) = none then s else mdChan o (fun y => { y with waiting := [], gen := [] }) s

def xbReset (s : State) : State :=
  (xbInputs.foldl dropInput (xbOutputs.foldl dropWaiting s))
    |> clearStatus P.XB (keepOnReset P.XB)

/-! ## Translation -/

/-- Walks in progress fault, a host-initiated access ends, the caches are emptied and an invalidation in progress
is over. -/
def mmuReset (s : State) : State :=
  let t := clearStatus P.MMU (fun _ => false) s
  let t := (List.range 4).foldl (fun t m => match (mover m t).walk with
    | some k => walkFault m E.ABSENT_TARGET k.write k.va (mdMover m (fun y => { y with walk := none }) t)
    | none => t) t
  let t := mdMover 4 (fun y => { y with walk := none }) (hraEnd E.ABSENT_TARGET 0 t)
  setDma { t.dma with caches := [], invalWait := [] } t

/-! ## Fox port and Configuration Store -/

/-- The stream closes, loads in progress are refused, library programs end, and a set that has not passed its go
notice is given up. -/
def foxReset (s : State) : State :=
  let t := clearStatus P.FOX (fun off => off == R.FOX_LOCK || off == R.FOX_FAULTY_LO || off == R.FOX_FAULTY_HI) s
  let t := abortStream t
  let t := (t.fox.loads.map (·.1)).foldl (fun t r => dropLoad r E.ABSENT_TARGET t) t
  resetSet t

/-- Programs and erases of slots end with ABSENT_TARGET; their slots stay invalid. -/
def cscReset (s : State) : State :=
  let t := clearStatus P.CSC (fun _ => false) s
  let busy := t.fox.programs.map (·.1) ++ t.fox.erasing
  let t := match t.fox.stream with
    | some x => if x.target.isSome then abortStream t else t
    | none => t
  let t := busy.foldl (fun t k => slotEnded k E.ABSENT_TARGET t) t
  setStore (endSlots t.store) (setFox { t.fox with programs := [], erasing := [] } t)

/-! ## Update, self-test, guard, ring, time -/

/-- A download or a verification is given up, and so is a preparation that is not committed. -/
def updReset (s : State) : State :=
  let keep (off : Nat) : Bool := off == R.UPD_STAT || off == R.UPD_PROGRESS || off == R.UPD_BUNDLE_STAT ||
    off == R.UPD_T_LO || off == R.UPD_T_HI
  let t := clearStatus P.UPD keep s
  let st := updState s
  if st = U.DOWNLOAD ∨ st = U.VERIFY then updCode E.ABSENT_TARGET (serveCancel t).2.2
  else if st = U.READY then
    t |> dropStaging |> updHold false |> mdUpd (fun u => { u with arming := none, swapSet := 0 })
      |> setUpdState U.VERIFIED |> updCode E.ABSENT_TARGET
  else t

def wpkReset (s : State) : State := s |> abandonSlice (fun _ => true) |> clearStatus P.WPK (keepOnReset P.WPK)

/-- LOCKOUT and FAILS are cleared only by a match or POR (R312). -/
def guardReset (s : State) : State :=
  s |> clearStatus P.GUARD (fun off => off == R.GUARD_STAT) |> wrf P.GUARD R.GUARD_STAT 31 24 0 |> zeroiseKeys

/-- The ring port drops what it holds and its segments train again. -/
def ringSoftReset (s : State) : State :=
  let t := s |> segmentDown true |> segmentDown false
  let t := setRing { t.ring with mine := [], fwd := [] } t
  clearStatus P.RING (fun off => off == R.RING_STAT) t

def timeReset (s : State) : State :=
  s |> clearStatus P.TIME (fun off => off == R.TIME_STAT || off == R.TIME_RATIO)
    |> (fun t => setTime { t.time with slew := 0 } t)

/-! ## Always-on pages, clocks -/

/-- A sleep entry in progress is given up; a level change and a region power change run on. -/
def pmuReset (s : State) : State :=
  let keep (off : Nat) : Bool := off == R.PMU_LEVEL_STAT || off == R.PMU_PMBUS_CFG || off == R.PMU_RGN_PWR_CTL ||
    (R.PMU_VOUT ≤ off && off < R.PMU_VOUT + 16)
  s |> dropEntry |> clearStatus P.PMU keep |> wrf P.PMU R.PMU_LEVEL_STAT 31 24 0

/-- The start-up records are kept (R362); the watchdog count restarts from its reset value. -/
def rstReset (s : State) : State :=
  s |> clearStatus P.RST (fun off => R.RST_STARTUP_STAT ≤ off && off < R.RST_DONE_STAT + 4)
    |> wrf P.RST R.RST_DONE_STAT 31 16 0

def clkReset (s : State) : State :=
  let t := clearStatus P.CLK (keepOnReset P.CLK) s
  (List.range 8).foldl (fun t n => wrf P.CLK (R.CLK_CL_STAT + 8 * n) 30 30 0 t) t

/-! ## By page -/

/-- SOFT_RST of a page. -/
def softReset (k : PageKind) (p : Nat) (s : State) : State :=
  match k with
  | .dev => deviceReset 2 s
  | .rgn => regionReset (p - 0x100) s
  | .sch0 | .sch1 | .sch2 | .sch3 => schedSoftReset s
  | .dma => dmaReset (p - 0x020) s
  | .cdf => cdfReset s
  | .xb => xbReset s
  | .mmu => mmuReset s
  | .fox => foxReset s
  | .csc => cscReset s
  | .upd => updReset s
  | .wpk => wpkReset s
  | .guard => guardReset s
  | .ring => ringSoftReset s
  | .time => timeReset s
  | .snap => clearStatus P.SNAP (fun _ => false) (disarmSnap s)
  | .pmu => pmuReset s
  | .rst => rstReset s
  | .clk => clkReset s
  | .owl | .pcie | .eth | .iob => clearStatus p (keepOnReset p) s

/-- A write of 1 to PAGE_CTL.SOFT_RST of a page. -/
def execPageSoftRst (rq : Requester) (page : Fin 16384) (s : State) : Out :=
  .next (match pageKind page.val with
    | some k => onPage rq page.val R.PAGE_CTL (softReset k page.val) s
    | none =>
      if attached rq s && s.dev.mode != .scan then
        reservedAccess rq (page.val * 4096 + R.PAGE_CTL) true s
      else s)

end Sys2Proof.Machine
end

