-- ==== Sys2Proof/Machine/RegWrite.lean ====
section
/-! DEFINITION. A 32-bit write of a register: the common page registers, registers that start an action, reserved
encodings (R53), 64-bit registers (R51), and the plain access codes of Table 3.1. -/
namespace Sys2Proof.Machine

open Sys2Proof

/-! ## Plain access codes -/

/-- RW fields take the value written, W1C fields clear where a 1 is written; nothing else changes. -/
def RegRow.apply (r : RegRow) (old v : Word) : Word :=
  ((old &&& ~~~r.rw) ||| (v &&& r.rw)) &&& ~~~(v &&& r.w1c)

/-- A write of a register without an action. -/
def plainWrite (p off : Nat) (v : Word) (s : State) : State :=
  match regRow p off with
  | some r => md p off (fun w => r.apply w v) s
  | none => s

/-- The RW bits of a register. -/
def rwBits (p off : Nat) : Word :=
  match regRow p off with
  | some r => r.rw
  | none => 0

/-- One half of a 64-bit register whose RW value the register store holds; a bit that is not RW keeps 0 (R53). -/
def wideWrite (rq : Requester) (p low : Nat) (high : Bool) (v : Word) (s : State) : State :=
  match pairWrite rq p low high v (rd64 p low s) s with
  | (t, some x) => wr64 p low (x &&& join64 (rwBits p low) (rwBits p (low + 4))) t
  | (t, none) => t

/-- The low-word offset of the 64-bit register that an offset belongs to, and whether it is its high word. -/
def wideHalf (k : PageKind) (off : Nat) : Option (Nat × Bool) :=
  if wideLow k off then some (off, false)
  else if 4 ≤ off ∧ wideLow k (off - 4) then some (off - 4, true)
  else none

/-! ## The common registers -/

/-- PAGE_CTL: ENABLE (fixed on DEV) and, where it is implemented, FREEZE; then SOFT_RST. -/
def pageCtlWrite (k : PageKind) (p : Nat) (v : Word) (s : State) : State :=
  let mask : Word := (if k = .dev then 0 else 1) ||| (if freezeImpl k then 4 else 0)
  let t := md p R.PAGE_CTL (fun w => (w &&& ~~~mask) ||| (v &&& mask)) s
  if bit 1 v then softReset k p t else t

/-- IRQ_FORCE sets implemented bits of IRQ_PEND. -/
def irqForce (k : PageKind) (p : Nat) (v : Word) (s : State) : State :=
  irqChange p false (md p R.IRQ_PEND fun w => w ||| (v &&& irqMask k)) s

def commonWrite (k : PageKind) (p off : Nat) (v : Word) (s : State) : State :=
  if off = R.PAGE_CTL then pageCtlWrite k p v s
  else if off = R.PAGE_STAT then (if bit 4 v then errClearRegs p s else s)
  else if off = R.IRQ_PEND then irqChange p true (md p off fun w => w &&& ~~~v) s
  else if off = R.IRQ_EN then irqChange p true (wr p off v) s
  else if off = R.IRQ_ROUTE then irqChange p true (wr p off (v &&& W 0x13F)) s
  else if off = R.IRQ_FORCE then irqForce k p v s
  else s

/-! ## Registers that start an action, or refuse a reserved encoding: none for a plain write -/

/-- DEV.CMD (R66). -/
def devCmd (rq : Requester) (code : Nat) (s : State) : State :=
  match code with
  | 0 => s
  | 1 => cmdContinue rq s
  | 2 => cmdEnterSafe rq s
  | 3 => cmdReboot rq s
  | _ => permFault P.DEV R.DEV_CMD s

def devWrite (rq : Requester) (off : Nat) (v : Word) (s : State) : Option State :=
  if off = R.DEV_CMD then some (devCmd rq (fld 7 0 v) s)
  else if off = R.DEV_MBX_H_CTL then some (mbxCtlWrite .hostHalf v s)
  else if off = R.DEV_MBX_F_CTL then some (mbxCtlWrite .fabricHalf v s)
  else if R.DEV_MBX_H_REQ ≤ off ∧ off < R.DEV_MBX_H_RSP then some (mbxReqWrite .hostHalf off v s)
  else if R.DEV_MBX_F_REQ ≤ off ∧ off < R.DEV_MBX_F_RSP then some (mbxReqWrite .fabricHalf off v s)
  else none

/-- A write that is refused where `bad` holds, and plain otherwise. -/
def unlessBad (p off : Nat) (bad : Bool) (s : State) : Option State :=
  if bad then some (permFault p off s) else none

def rgnWrite (rq : Requester) (r off : Nat) (v : Word) (s : State) : Option State :=
  if off = R.RGN_STAGE_CTL then some (if bit 0 v then stageCtl rq r s else s)
  else if off = R.RGN_MAC_PEEK_SEL then unlessBad (P.RGN r) off (6 ≤ fld 10 8 v) s
  else if R.RGN_TILE_CNT_SEL ≤ off ∧ off < R.RGN_TILE_CNT_SEL + 64 then
    unlessBad (P.RGN r) off ((List.range 4).any fun k => 0x0C < fld (8 * k + 7) (8 * k) v) s
  else none

/-- SCH0.CMD (R202): operations 1 to 5. -/
def schCmdWrite (v : Word) (s : State) : State :=
  let op := fld 31 28 v
  if 1 ≤ op ∧ op ≤ 5 then schCmdPut op (fld 11 0 v) s else schCmdRefused s

def sch0Write (rq : Requester) (off : Nat) (v : Word) (s : State) : Option State :=
  if off = R.SCH0_CMD then some (schCmdWrite v s)
  else if R.SCH0_DOORBELL ≤ off ∧ off < R.SCH0_DOORBELL + 256 then
    some (doorbellWrite rq ((off - R.SCH0_DOORBELL) / 4) v s)
  else if R.SCH0_ENGINE ≤ off ∧ off < R.SCH0_ENGINE + 1024 then some (engineWrite ((off - R.SCH0_ENGINE) / 4) v s)
  else none

def sch1Write (rq : Requester) (off : Nat) (v : Word) (s : State) : Option State :=
  if R.SCH1_CTX_W ≤ off ∧ off < R.SCH1_CTX_W + 56 then some (ctxWrite rq ((off - R.SCH1_CTX_W) / 4) v s)
  else if off = R.SCH1_ARG_DATA then some (argAccess rq (some v) s)
  else none

def sch2Write (rq : Requester) (off : Nat) (v : Word) (s : State) : Option State :=
  if off = R.SCH2_BIND_DATA then some (bindAccess rq (some v) s) else none

/-- The range that SPILL_RANGE may take. -/
def spillRangeBad (v : Word) : Bool :=
  fld 12 0 v % 2 == 1 || fld 29 16 v % 2 == 1 || fld 29 16 v < 2 || 8192 < fld 29 16 v

def sch3Write (off : Nat) (v : Word) (s : State) : Option State :=
  if off = R.SCH3_TRACE_CTL then
    let t := plainWrite P.SCH3 off v s
    some (if bit 0 v && !bit 0 (rd P.SCH3 off s) then wrf P.SCH3 R.SCH3_TRACE_WPTR 31 31 0 t else t)
  else if off = R.SCH3_SPILL_RANGE then
    some (if spillRangeBad v then permFault P.SCH3 off s
      else s |> plainWrite P.SCH3 off v |> wr P.SCH3 R.SCH3_SPILL_WPTR (W (fld 12 0 v)))
  else none

/-- INVAL (R234): operation 0 does nothing, but while BUSY any write is refused. -/
def invalWrite (rq : Requester) (v : Word) (s : State) : State :=
  let n := fld 3 0 v
  match fld 31 30 v with
  | 1 => invalCmd rq R.MMU_INVAL (invalidate fun _ => true) s
  | 2 => invalCmd rq R.MMU_INVAL (invalidate fun e => e.space == n) s
  | 3 => invalCmd rq R.MMU_INVAL (invalidatePage n) s
  | _ => invalCmd rq R.MMU_INVAL id s

/-- HRA_CTL: WRITE and SPACE, DONE cleared by writing 1, then GO, which is refused while BUSY (R246). -/
def hraCtlWrite (v : Word) (s : State) : State :=
  if bit 3 v && bit 1 (rd P.MMU R.MMU_HRA_CTL s) then permFault P.MMU R.MMU_HRA_CTL s
  else
    let t := plainWrite P.MMU R.MMU_HRA_CTL v s
    if bit 3 v then hraGo (bit 0 v) t else t

def mmuWrite (rq : Requester) (off : Nat) (v : Word) (s : State) : Option State :=
  if off = R.MMU_INVAL then some (invalWrite rq v s)
  else if R.MMU_SPACE_CFG ≤ off ∧ off < R.MMU_SPACE_CFG + 128 then
    let n := (off - R.MMU_SPACE_CFG) / 8
    some (invalCmd rq off (spaceWrite n (off % 8 == 4) v) s)
  else if off = R.MMU_HRA_CTL then some (hraCtlWrite v s)
  else none

/-- CTL of a DMA channel: settings, then RESTART and FLUSH. -/
def dmaCtlWrite (c : Nat) (v : Word) (s : State) : State :=
  let t := plainWrite (P.DMA c) R.DMA_CTL v s
  let t := if bit 6 v then restartChan c t else t
  if bit 7 v then flushChan c t else t

def dmaWrite (c off : Nat) (v : Word) (s : State) : Option State :=
  if off = R.DMA_CTL then some (dmaCtlWrite c v s)
  else if off = R.DMA_SUBMIT then some (if bit 0 v then submit c s else s)
  else none

/-- ARM_CTL: DISARM, then ARM or NOW (R262). -/
def armCtlWrite (rq : Requester) (v : Word) (s : State) : State :=
  let t := if bit 1 v then disarmCmd s else s
  if bit 2 v then armSet rq true t else if bit 0 v then armSet rq false t else t

def foxWrite (rq : Requester) (off : Nat) (v : Word) (s : State) : Option State :=
  if off = R.FOX_LOAD_CTL then some (loadCtl rq v s)
  else if off = R.FOX_STREAM_CTL then some (streamCtl rq v s)
  else if off = R.FOX_STREAM_DATA then some (streamWord rq v s)
  else if off = R.FOX_ARM_CTL then some (armCtlWrite rq v s)
  else if off = R.FOX_DRAIN_LIMIT then unlessBad P.FOX off (fld 19 0 v < 100) s
  else if R.FOX_ALLOW_HOST_LO ≤ off ∧ off ≤ R.FOX_ALLOW_FABRIC_HI ∧ foxLocked s = true then some s
  else if off = R.FOX_LOCK then some (if bit 0 v then foxLock s else s)
  else none

/-- RST.CTL: the watchdog that is enabled starts from its whole period (R361). -/
def rstCtlWrite (v : Word) (s : State) : State :=
  let t := plainWrite P.RST R.RST_CTL v s
  if bit 1 v && !bit 1 (rd P.RST R.RST_CTL s) then reloadWatchdog t else t

def rstWrite (off : Nat) (v : Word) (s : State) : Option State :=
  if off = R.RST_CTL then some (rstCtlWrite v s)
  else if off = R.RST_WDT_PERIOD then unlessBad P.RST off (fld 15 0 v == 0) s
  else if off = R.RST_WDT_KICK then some (reloadWatchdog s)
  else none

/-- KEY and NEW_PW are 64-bit registers that the flash unit holds (R51, R311). -/
def guardWrite (rq : Requester) (off : Nat) (v : Word) (s : State) : Option State :=
  if off = R.GUARD_KEY_LO ∨ off = R.GUARD_KEY_HI then
    some (match pairWrite rq P.GUARD R.GUARD_KEY_LO (off == R.GUARD_KEY_HI) v s.flash.key s with
      | (t, some x) => setFlash { t.flash with key := x } t
      | (t, none) => t)
  else if off = R.GUARD_NEW_PW_LO ∨ off = R.GUARD_NEW_PW_HI then
    some (match pairWrite rq P.GUARD R.GUARD_NEW_PW_LO (off == R.GUARD_NEW_PW_HI) v s.flash.newPw s with
      | (t, some x) => setFlash { t.flash with newPw := x } t
      | (t, none) => t)
  else if off = R.GUARD_CTL then some (if bit 0 v then setPassword s else s)
  else none

def updWrite (rq : Requester) (off : Nat) (v : Word) (s : State) : Option State :=
  if off = R.UPD_BUNDLE_DATA then some (bundleWord rq v s)
  else if off = R.UPD_COMMIT_LEAD then unlessBad P.UPD off (v.toNat < 1000) s
  else if off = R.UPD_RING_BUF then unlessBad P.UPD off (bit 0 v) s
  else none

/-- RGN_PWR_CTL: GO while BUSY is refused whole; without GO the settings are kept for it (R354). -/
def rgnPwrWrite (v : Word) (s : State) : State :=
  if bit 31 v then regionPower (fld 5 0 v) (bit 8 v) s else plainWrite P.PMU R.PMU_RGN_PWR_CTL v s

def pmuWrite (rq : Requester) (off : Nat) (v : Word) (s : State) : Option State :=
  if off = R.PMU_LEVEL_REQ then some (levelReq (fld 1 0 v) s)
  else if off = R.PMU_ENTER then some (enterState rq (fld 1 0 v) false s)
  else if off = R.PMU_WAKE_NOW then some (if bit 0 v then wakeNowCmd rq s else s)
  else if off = R.PMU_RGN_PWR_CTL then some (rgnPwrWrite v s)
  else none

def clkWrite (off : Nat) (v : Word) (s : State) : Option State :=
  if R.CLK_CL_CFG ≤ off ∧ off < R.CLK_CL_CFG + 64 ∧ off % 8 = 0 then some (clCfgWrite ((off - R.CLK_CL_CFG) / 8) v s)
  else if R.CLK_ISL ≤ off ∧ off < R.CLK_ISL + 4 * 79 then some (islWrite ((off - R.CLK_ISL) / 4) v s)
  else if off = R.CLK_STEWARD_CLK then some (stewardClkWrite (bit 0 v) s)
  else none

/-- CFG of cell c of bank b (Table 18.4): fields that a wide bank does not have are reserved; DRIVE 3 in a fast
bank, and OE_LANE of a cell without an OE lane, are refused (R416). -/
def cellCfgWrite (b c : Nat) (v : Word) (s : State) : State :=
  let off := R.IOB_CFG + 4 * c
  if (8 ≤ b ∧ fld 5 4 v = 3) ∨ (bit 8 v ∧ hasOeLane b c = false) then permFault (P.IOB b) off s
  else wr (P.IOB b) off (v &&& W (if 8 ≤ b then 0x1FFF else 0x073F)) s

def iobWrite (b off : Nat) (v : Word) (s : State) : Option State :=
  if off = R.IOB_HOLD_RELEASE then some (if bit 0 v then holdRelease b s else s)
  else if off = R.IOB_BANK_CFG then
    some (if (stdNominal b (fld 3 0 v)).isNone then permFault (P.IOB b) off s
      else (fun t => vccoUpdate b (vccoOf b t) t) (plainWrite (P.IOB b) off v s))
  else if cellAbsent b off then some s
  else if R.IOB_CFG ≤ off ∧ off < R.IOB_CFG + 256 then some (cellCfgWrite b ((off - R.IOB_CFG) / 4) v s)
  else if R.IOB_DLY ≤ off ∧ off < R.IOB_DLY + 256 then some (dlyWrite b ((off - R.IOB_DLY) / 4) v s)
  else none

def wpkWrite (off : Nat) (v : Word) (s : State) : Option State :=
  if off = R.WPK_BUDGET then unlessBad P.WPK off (fld 15 0 v == 0) s
  else if off = R.WPK_BG_PERIOD then unlessBad P.WPK off (v.toNat < 100) s
  else none

def ringWrite (off : Nat) (v : Word) (s : State) : Option State :=
  if off = R.RING_ROLLCALL_CTL then
    let t := plainWrite P.RING off v s
    some (if bit 0 v then rollcallGo t else t)
  else none

def timeWrite (off : Nat) (v : Word) (s : State) : Option State :=
  if off = R.TIME_ADJ then some (adjWrite v s)
  else if off = R.TIME_RATE then unlessBad P.TIME off (!ringLeader s) s
  else if off = R.TIME_CTL then some (decideQuality (plainWrite P.TIME off v s))
  else if off = R.TIME_SYNC_PERIOD then unlessBad P.TIME off (v.toNat < 10) s
  else if off = R.TIME_SLEW_MAX then unlessBad P.TIME off (v == 0) s
  else none

/-- SNAP.CTL: settings, then CANCEL, then ARM (R402). -/
def snapCtlWrite (v : Word) (s : State) : State :=
  let t := plainWrite P.SNAP R.SNAP_CTL v s
  let t := if bit 10 v && t.time.snap.isSome then disarmSnap t else t
  if bit 9 v then snapArm t else t

def owlWrite (off : Nat) (v : Word) (s : State) : Option State :=
  if R.OWL_PORT_SEL ≤ off ∧ off < R.OWL_PORT_SEL + 32 then
    some (owlPortWrite ((off - R.OWL_PORT_SEL) / 8) (off % 8 == 4) v s)
  else none

/-- Vector v is unmasked: its pending bit clears, and its message is sent where its bit of IRQ_VEC_PEND is
still 1 (R61). -/
def msixUnmask (v : Nat) (s : State) : State :=
  if getArr P.PCIE R.PCIE_MSIX_PBA v s && s.io.msixEnable && !s.io.msixMask then
    let t := setArr P.PCIE R.PCIE_MSIX_PBA v false s
    if vecPend v t then msixSend v t else t
  else s

/-- The MSI-X table: entry v has its vector control at byte 12, whose bit 0 masks it. -/
def pcieWrite (off : Nat) (v : Word) (s : State) : Option State :=
  if R.PCIE_MSIX_TABLE ≤ off ∧ off < R.PCIE_MSIX_TABLE + 1024 ∧ off % 16 = 12 then
    let t := plainWrite P.PCIE off v s
    some (if bit 0 v then t else msixUnmask ((off - R.PCIE_MSIX_TABLE) / 16) t)
  else none

/-- The action of a register's page, or none where the register is written plainly. -/
def actionWrite (rq : Requester) (k : PageKind) (p off : Nat) (v : Word) (s : State) : Option State :=
  match k with
  | .dev => devWrite rq off v s
  | .rgn => rgnWrite rq (p - 0x100) off v s
  | .sch0 => sch0Write rq off v s
  | .sch1 => sch1Write rq off v s
  | .sch2 => sch2Write rq off v s
  | .sch3 => sch3Write off v s
  | .mmu => mmuWrite rq off v s
  | .dma => dmaWrite (p - 0x020) off v s
  | .fox => foxWrite rq off v s
  | .csc => if off = R.CSC_SLOT_ERASE then some (if bit 0 v then slotErase s else s) else none
  | .rst => rstWrite off v s
  | .cdf => if off = R.CDF_WEAR_SEL then unlessBad p off (0x88 ≤ fld 7 0 v) s else none
  | .guard => guardWrite rq off v s
  | .upd => updWrite rq off v s
  | .pmu => pmuWrite rq off v s
  | .clk => clkWrite off v s
  | .iob => iobWrite (p - 0x050) off v s
  | .wpk => wpkWrite off v s
  | .ring => ringWrite off v s
  | .time => timeWrite off v s
  | .snap => if off = R.SNAP_CTL then some (snapCtlWrite v s) else none
  | .owl => owlWrite off v s
  | .pcie => pcieWrite off v s
  | .xb | .eth => none

/-- A write of a register of a page that is not off. -/
def regWrite (rq : Requester) (k : PageKind) (p off : Nat) (v : Word) (s : State) : State :=
  if off < 0x40 then commonWrite k p off v s
  else match actionWrite rq k p off v s with
    | some t => t
    | none =>
      match wideHalf k off with
      | some (low, high) =>
        match regRow p off with
        | some r => if r.rw = 0 then s else wideWrite rq p low high v s
        | none => s
      | none => plainWrite p off v s

/-- A 32-bit write in the register window. -/
def pageWrite (rq : Requester) (p off : Nat) (v : Word) (s : State) : State :=
  match pageKind p with
  | none => if attached rq s && s.dev.mode != .scan then reservedAccess rq (p * 4096 + off) true s else s
  | some k => onPage rq p off (regWrite rq k p off v) s

/-- A write of 1 to PAGE_STAT.ERR (R57). -/
def execErrClear (rq : Requester) (page : Fin 16384) (s : State) : Out :=
  .next (pageWrite rq page.val R.PAGE_STAT (W 0x10) s)

/-- A write of IRQ_FORCE (Table 3.2f). -/
def execIrqForce (rq : Requester) (page : Fin 16384) (v : Word) (s : State) : Out :=
  .next (pageWrite rq page.val R.IRQ_FORCE v s)

/-- A register access that R50 refuses: PERM_FAULT in DEV, with the address. -/
def sizeRefused (addr : Nat) (s : State) : State := err P.DEV E.PERM_FAULT 0 addr s

/-- A write of `size` bytes in the register window (R50): 4 bytes aligned to 4, or from the host 8 bytes, split
into two, the lower address first. -/
def windowWrite (rq : Requester) (addr size : Nat) (v : BitVec 64) (s : State) : State :=
  if addr % 4 = 0 ∧ size = 4 then pageWrite rq (addr / 4096) (addr % 4096) (lo32 v) s
  else if addr % 4 = 0 ∧ size = 8 ∧ rq = .host then
    s |> pageWrite rq (addr / 4096) (addr % 4096) (lo32 v)
      |> pageWrite rq ((addr + 4) / 4096) ((addr + 4) % 4096) (hi32 v)
  else if attached rq s && s.dev.mode != .scan then sizeRefused addr s
  else s

def execRegisterWrite (rq : Requester) (addr : BitVec 26) (size : Nat) (v : BitVec 64) (s : State) : Out :=
  .next (windowWrite rq addr.toNat size v s)

end Sys2Proof.Machine
end

