-- ==== Sys2Proof/Machine/Bus.lean ====
section
/-! DEFINITION. An access at a device address (Table 1.4, R20, R21), and the QSPI host port (R423). -/
namespace Sys2Proof.Machine

open Sys2Proof

/-- The windows of the device address map that a requester without translation reaches (Table 1.4). -/
inductive Window where
  | regs (o : Nat)
  | banks
  | flash (o : Nat)
  | reserved
  deriving DecidableEq, Repr

def windowOf (a : Nat) : Window :=
  if a < 0x4000000 then .regs a
  else match bankRange a with
    | .plain _ => .banks
    | .alias_ _ _ => .banks
    | .outside => if 0x40000000 ≤ a ∧ a < 0x41010000 then .flash (a - 0x40000000) else .reserved

/-- A write of `size` bytes at a device address. In SCAN it is dropped (R383). -/
def busWrite (rq : Requester) (a size : Nat) (v : BitVec 64) (s : State) : State :=
  if !attached rq s || s.dev.mode == .scan then s
  else match windowOf a with
    | .regs o => windowWrite rq o size v s
    | .banks => bankAccess rq a size true v s
    | .flash o => if size = 2 then arrayWrite rq o (v.setWidth 16) none s
        else if flashServed s then arrayWriteRefused o s else s
    | .reserved => reservedAccess rq a true s

/-- A read of `size` bytes in the register window (R50). -/
def windowRead (rq : Requester) (addr size : Nat) (s : State) : State :=
  if addr % 4 = 0 ∧ size = 4 then pageRead rq (addr / 4096) (addr % 4096) s
  else if addr % 4 = 0 ∧ size = 8 ∧ rq = .host then
    s |> pageRead rq (addr / 4096) (addr % 4096) |> pageRead rq ((addr + 4) / 4096) ((addr + 4) % 4096)
  else deliver rq zeroWord (sizeRefused addr s)

/-- A read of `size` bytes at a device address; where the array is not served, and in SCAN, it gives zero. -/
def busRead (rq : Requester) (a size : Nat) (s : State) : State :=
  if !attached rq s then s
  else if s.dev.mode == .scan then deliver rq (offWord rq) s
  else match windowOf a with
    | .regs o => windowRead rq o size s
    | .banks => bankAccess rq a size false 0 s
    | .flash o => if flashServed s then arrayRead rq o size s else deliver rq (offWord rq) s
    | .reserved => reservedAccess rq a false s

/-- A read of the host. Host reads end in order: one behind a read that a bank has still to serve waits for it (R177).
64 bits of a bank are two reads, the lower address first (R174). -/
def hostRead (a size : Nat) (s : State) : State :=
  if hostReading s || !s.io.hostWait.isEmpty then setIo { s.io with hostWait := s.io.hostWait ++ [(a, size)] } s
  else if size = 8 ∧ a % 4 = 0 ∧ windowOf a = .banks then
    let t := busRead .host a 4 s
    if hostReading t then setIo { t.io with hostWait := [(a + 4, 4)] } t else busRead .host (a + 4) 4 t
  else busRead .host a size s

/-- The host reads that waited, as far as the banks let them go on. -/
def hostResume : Nat → State → State
  | 0, s => s
  | n + 1, s =>
    match s.io.hostWait with
    | (a, size) :: rest =>
      if hostReading s then s else hostResume n (busRead .host a size (setIo { s.io with hostWait := rest } s))
    | [] => s

/-! ## The QSPI host port (R423) -/

/-- The port is in use: STRAP_HOST selects it, and the straps have been sampled (R285). -/
def qspiOn (s : State) : Bool := strapQspi s && s.dev.sampled && s.dev.mode != .off

/-- The device address of a QSPI address, where its window reaches one. -/
def qspiAddr (a : Word) : Option Nat :=
  let o := fld 30 0 a
  if bit 31 a then (if o < 0x40000000 then some (0x10000000 + o) else none)
  else if o < 0x4000000 then some o else none

/-- The device address that a refused access records. -/
def qspiReach (a : Word) : Nat := fld 30 0 a + (if bit 31 a then 0x10000000 else 0)

/-- A word of the write buffer is applied. -/
def qspiApply (a w : Word) (s : State) : State :=
  match qspiAddr a with
  | some d => busWrite .host d 4 (w.setWidth 64) s
  | none => if s.dev.mode == .scan then s else reservedAccess .host (qspiReach a) true s

/-- The oldest word of the write buffer is applied. -/
def qspiDrainOne (s : State) : State :=
  match s.io.qspi with
  | [] => s
  | (a, w) :: rest => qspiApply a w (setIo { s.io with qspi := rest } s)

/-- Every earlier write is applied. -/
def qspiDrain : Nat → State → State
  | 0, s => s
  | n + 1, s => qspiDrain n (qspiDrainOne s)

/-- WRITE: the words enter the 256-word write buffer; one that finds it full is dropped. -/
def qspiWrite (addr : Word) (words : List Word) (s : State) : State :=
  if !qspiOn s then s
  else
    let put (t : State) (e : Word × Nat) : State :=
      if t.io.qspi.length < 256 then setIo { t.io with qspi := t.io.qspi ++ [(addr + W (4 * e.2), e.1)] } t
      else setIo { t.io with qspiDropped := true } t
    words.zipIdx.foldl put s

def execQspiWrite (addr : Word) (words : List Word) (s : State) : Out := .next (qspiWrite addr words s)

/-- READ of one word, after every earlier write. -/
def qspiRead (addr : Word) (s : State) : State :=
  if !qspiOn s then s
  else
    let t := qspiDrain s.io.qspi.length s
    let t := setIo { t.io with qspiWait := some addr } t
    match qspiAddr addr with
    | some d => hostRead d 4 t
    | none => if t.dev.mode == .scan then deliver .host zeroWord t else reservedAccess .host (qspiReach addr) false t

def execQspiRead (addr : Word) (s : State) : Out := .next (qspiRead addr s)

/-- A word that is not ready within 100 µs: 0x5A and four zero bytes, and DEV records ABSENT_TARGET. -/
def qspiReadTimeout (s : State) : State :=
  match s.io.qspiWait with
  | none => s
  | some a =>
    let t := setIo { s.io with qspiWait := none, qspiOut := [0x5A, 0, 0, 0, 0], qspiLate := s.io.qspiLate + 1 } s
    err P.DEV E.ABSENT_TARGET 0 (qspiReach a) t

def execQspiReadTimeout (s : State) : Out := .next (qspiReadTimeout s)

/-- The status byte: the buffer is empty, a write was dropped since the last STATUS, free entries ÷ 4. -/
def qspiStatusByte (s : State) : Byte :=
  BitVec.ofNat 8 (b2n s.io.qspi.isEmpty + 2 * b2n s.io.qspiDropped + 4 * min 63 ((256 - s.io.qspi.length) / 4))

def qspiStatus (s : State) : State :=
  if !qspiOn s then s else setIo { s.io with qspiDropped := false, qspiOut := [qspiStatusByte s] } s

def execQspiStatus (s : State) : Out := .next (qspiStatus s)

end Sys2Proof.Machine
end

