-- ==== Sys2Proof/Machine/Mover.lean ====
section
/-! DEFINITION. The movers of DMA, remote requests and their replies, host-initiated accesses, and the
memory agent (R18, R19, R235, R239–R246). -/
namespace Sys2Proof.Machine

open Sys2Proof

/-! ## Words at a physical address -/

/-- What a translated address reaches (Table 10.1, R18): the own node's window is served locally. -/
inductive Place where
  | reg (p off : Nat)
  | bank (b w : Nat)
  | alias_ (k : AliasKind) (b w : Nat)
  | flash (o : Nat)
  | host (o : Nat)
  | remote (node off : Nat)
  | absent
  deriving DecidableEq, Repr

/-- A local address of the bank range or of an alias range. -/
def bankPlace (a : Nat) : Place :=
  match bankRange a with
  | .plain o => .bank (o / 0x8000) (o % 0x8000 / 4)
  | .alias_ k o => .alias_ k (o / 0x8000) (o % 0x8000 / 4)
  | .outside => .absent

/-- The local address of a window offset (R18). -/
def windowPlace (off : Nat) : Place := bankPlace (0x1000_0000 + off)

def place (pa : Nat) (s : State) : Place :=
  match physKind pa with
  | .regs => .reg (pa / 4096) (pa % 4096)
  | .bank => bankPlace pa
  | .flash => .flash (pa - 0x4000_0000)
  | .window k off => if k = ownNode s then windowPlace off else .remote k off
  | .host o => .host o
  | .reserved => .absent

/-- Read one word outside the banks. Host memory delivers a word of the host's: a free value (R19). -/
def readPlace (pl : Place) (s : State) : TWord × State :=
  match pl with
  | .reg p off =>
    let t := pageRead .fabric p off s
    ((tget [] t.io.readData (rqCode .fabric)).headD nullWord, t)
  | .flash o => flashRead .fabric o s
  | .host o => (tw .data (freeVal s), drawn (setIo { s.io with pcieReads := s.io.pcieReads ++ [o] } s))
  | _ => (faultWord E.ABSENT_TARGET 0, s)

/-- Write one word: the outcome code. Registers and host memory take the data only (R241). -/
def writePlace (pl : Place) (x : TWord) (s : State) : Nat × State :=
  match pl with
  | .reg p off =>
    match pageKind p with
    | some _ => (E.NONE, pageWrite .fabric p off x.data s)
    | none => (E.ABSENT_TARGET, s)
  | .flash _ => (E.PERM_FAULT, s)
  | .host o => (E.NONE, setIo { s.io with pcieWrites := s.io.pcieWrites ++ [(o, x.data)] } s)
  | _ => (E.ABSENT_TARGET, s)

/-- Engine e reads a word; none until the word's bank has served the request (R176, R177). -/
def readAt (e : Nat) (pl : Place) (s : State) : Option TWord × State :=
  match pl with
  | .bank b w => let (r, t) := viaPort e b w .read s; (r.map (·.1), t)
  | .alias_ .tagView b w => let (r, t) := viaPort e b w .tagRead s; (r.map (·.1), t)
  | .alias_ _ b w => let (r, t) := viaPort e b w .read s; (r.map (·.1), t)
  | pl => let (x, t) := readPlace pl s; (some x, t)

/-- Engine e writes a word: the outcome code, none until the word's bank has served the request. -/
def writeAt (e : Nat) (pl : Place) (x : TWord) (s : State) : Option Nat × State :=
  match pl with
  | .bank b w => let (r, t) := viaPort e b w (.write x) s; (r.map (·.2), t)
  | .alias_ k b w => let (r, t) := viaPort e b w (.rmw k x.data) s; (r.map (·.2), t)
  | pl => let (c, t) := writePlace pl x s; (some c, t)

/-- The address lies in the window of the device's own node, which is served as the memory agent serves it (R18, R244,
R245). -/
def inOwnWindow (pa : Nat) (s : State) : Bool :=
  match physKind pa with
  | .window k _ => k == ownNode s
  | _ => false

/-- The bank that a place names. -/
def placeBank : Place → Option Nat
  | .bank b _ => some b
  | .alias_ _ b _ => some b
  | _ => none

/-- A bank whose AGENT_WP bit is set is among those named (R245). -/
def agentProtected (ps : List Place) (s : State) : Bool :=
  ps.any fun pl => match placeBank pl with
    | some b => getArr P.MMU R.MMU_AGENT_WP b s
    | none => false

def agentRefused (s : State) : State := s |> count P.MMU R.MMU_AGENT_REFUSED |> irq P.MMU 1

/-- Engine e writes a word at physical address pa, in its own node's window under AGENT_WP. -/
def writeVia (e pa : Nat) (x : TWord) (s : State) : Option Nat × State :=
  let pl := place pa s
  if inOwnWindow pa s && agentProtected [pl] s then (some E.PERM_FAULT, agentRefused s) else writeAt e pl x s

/-- The bank word that a write changes. -/
def placeKey : Place → List Nat
  | .bank b w => [wordKey b w]
  | .alias_ _ b w => [wordKey b w]
  | _ => []

/-! ## The choice of the next block (R240) -/

/-- The register that a write changes. -/
def placeReg : Place → List (Nat × Nat)
  | .reg p off => [(p, off)]
  | _ => []

/-- The channel has a current descriptor that a mover can take. -/
def chanReady (c : Nat) (s : State) : Bool :=
  let x := dchan c s
  x.cur.isSome && !x.halted && x.waitEvt.isNone && (servedBy c s).isNone

def curPrio (c : Nat) (s : State) : Nat :=
  match (dchan c s).cur with
  | some cur => cur.desc.prio
  | none => 8

/-- The channel that a mover takes: the lowest PRIO value, ties in turn after the one it served last. -/
def nextChan (last : Nat) (s : State) : Option Nat :=
  let cs := ((List.range 32).map fun i => (last + 1 + i) % 32).filter fun c => chanReady c s
  cs.find? fun c => cs.all fun d => decide (curPrio c s ≤ curPrio d s)

/-- The mover takes its next block. Each descriptor whose next block is passed over in favour of it has been pre-empted
(R240; assumption log 120). -/
def choose (m : Nat) (s : State) : State :=
  match nextChan (mover m s).last s with
  | none => s
  | some c =>
    let passed := (List.range 32).filter fun q => chanReady q s && decide (curPrio c s < curPrio q s)
    passed.foldl (fun t q => count (P.DMA q) R.DMA_PREEMPTS t)
      (mdMover m (fun x => { x with serving := some c, last := c }) s)

/-! ## Moving words (R235, R239, R241) -/

def mdCur (c : Nat) (f : Cur → Cur) (s : State) : State :=
  mdDchan c (fun x => { x with cur := x.cur.map f }) s

/-- Words of the block in progress. -/
def blockLen (cur : Cur) : Nat := min 64 (cur.desc.count - cur.done)

/-- The virtual addresses of the next word. -/
def curIndex (cur : Cur) : Nat := cur.done + cur.inBlock + cur.gather.length
def srcVa (cur : Cur) : Nat :=
  if cur.desc.srcFixed then cur.desc.src else (cur.desc.src + 4 * curIndex cur) % 2 ^ 40
def dstVa (cur : Cur) : Nat :=
  if cur.desc.dstFixed then cur.desc.dst else (cur.desc.dst + 4 * curIndex cur) % 2 ^ 40

/-- Source and destination overlap with DST above SRC: the result is undefined (R235). -/
def overlaps (d : Desc) : Bool :=
  !d.fill && !d.srcFixed && decide (d.src < d.dst) && decide (d.dst < d.src + 4 * d.count)

/-- The word that is written for source word x. -/
def movedWord (d : Desc) (x : TWord) (s : State) : TWord × State :=
  if overlaps d then (freeTWord s, drawn (drawn s))
  else (if d.fill || d.tagMode == 1 then tw .data x.data else tw x.tag x.data, s)

/-- The address space of a channel. -/
def chanSpace (c : Nat) (s : State) : Nat := rdf (P.DMA c) R.DMA_CTL 3 0 s

/-- What a step of a mover leads to: it goes on with the block, or it waits (for a walk, for a reply) or the
descriptor has stopped. -/
inductive Moved where
  | more
  | held
  deriving DecidableEq, Repr

/-- Translate for channel c at mover m; a miss starts a walk, and a fault stops the descriptor. -/
def xlateFor (m c va : Nat) (write : Bool) (s : State) : Option Nat × State :=
  match translate m (c / 8) (chanSpace c s) va write s with
  | (.ok pa, t) => (some pa, t)
  | (.walk, t) => (none, startWalk m (c / 8) (chanSpace c s) va write t)
  | (.fault code, t) => (none, descFault c code write false va t)

/-- The words that one remote request takes from the one at va on: those of the block that lie at
physically consecutive addresses. A run that crosses the end of the window faults before it is sent (R244). -/
def remoteRun (m c va pa off left : Nat) (fixed write : Bool) (s : State) : Option Nat × State :=
  let page := min left ((4096 - va % 4096) / 4)
  let (len, t) : Option Nat × State :=
    if fixed ∨ page = left then (some left, s)
    else
      match xlateFor m c ((va + 4 * page) % 2 ^ 40) write s with
      | (some pb, t) => (some (if pb = pa + 4 * page then left else page), t)
      | (none, t) => (none, t)
  match len with
  | some n =>
    if !fixed ∧ 0x4000_0000 < off + 4 * n then (none, descFault c E.ABSENT_TARGET write true off t)
    else (some n, t)
  | none => (none, t)

/-- The route word of the memory agent of a node (Table 2.6). -/
def agentRoute (node : Nat) : Word := W (2 ^ 31 + node * 2 ^ 22 + 3 * 2 ^ 20 + 3)

/-- Send a remote request with a tag (R244). -/
def remoteRequest (write : Bool) (node tag off len : Nat) (ws : List TWord) (s : State) : State :=
  send (.svcUp 1) (message (if write then 0x21 else 0x20) tag (agentRoute node)
    (tw .data (W off) :: (if write then ws else [tw .data (W len)])) 0) s

/-- The gathered words leave as one REMOTE_WR; to a fixed address only the last of them. -/
def sendGather (c : Nat) (cur : Cur) (s : State) : State :=
  let (node, off, _) := cur.gatherAt
  let ws := if cur.desc.dstFixed then cur.gather.drop (cur.gather.length - 1) else cur.gather
  s |> mdCur c (fun x => { x with remote := some false }) |> remoteRequest true node c off 0 ws

/-- The block is complete (R239, R240, R242). -/
def endBlock (c : Nat) (cur : Cur) (s : State) : State :=
  let done := cur.done + blockLen cur
  let t := mdCur c (fun x => { x with done := done, inBlock := 0, fetched := [] }) s
  if done = cur.desc.count then descDone c t else unserve c t

/-- One word has its source x: it goes to its place, or to the words gathered for a remote one. -/
def putWord (m c : Nat) (cur : Cur) (pa : Nat) (x : TWord) (s : State) : Moved × State :=
  match (if cur.desc.fill then none else wordStops x) with
  | some code => (.held, descFault c code false false (srcVa cur) s)
  | none =>
    let (y, t) := movedWord cur.desc x s
    let took (u : Cur) : Cur := { u with fetched := u.fetched.drop 1 }
    match place pa t with
    | .remote node off =>
      if cur.gather ≠ [] then (.more, mdCur c (fun u => took { u with gather := u.gather ++ [y] }) t)
      else
        match remoteRun m c (dstVa cur) pa off (blockLen cur - cur.inBlock) cur.desc.dstFixed true t with
        | (some n, t) =>
          (.more, mdCur c (fun u => took { u with gather := [y], gatherAt := (node, off, n) }) t)
        | (none, t) => (.held, t)
    | pl =>
      match writeVia m pa y t with
      | (none, t) => (.held, t)
      | (some code, t) =>
        if code ≠ 0 then (.held, descFault c code true false (dstVa cur) t)
        else
          (.more, t |> mdCur c (fun u => took { u with
                        inBlock := u.inBlock + 1, written := u.written ++ placeKey pl,
                        writtenRegs := u.writtenRegs ++ placeReg pl })
                    |> count (P.DMA c) R.DMA_WORDS)

/-- The source word at physical address pa: read, or asked of a remote node. -/
def getWord (m c : Nat) (cur : Cur) (pa : Nat) (s : State) : Moved × State :=
  match place pa s with
  | .remote node off =>
    match remoteRun m c (srcVa cur) pa off (blockLen cur - cur.inBlock - cur.gather.length)
        cur.desc.srcFixed false s with
    | (some n, t) =>
      let len := if cur.desc.srcFixed then 1 else n
      (.held, t |> mdCur c (fun x => { x with remote := some true, asked := (off, len) })
                |> remoteRequest false node c off len [])
    | (none, t) => (.held, t)
  | pl =>
    match readAt m pl s with
    | (none, t) => (.held, t)
    | (some x, t) => (.more, mdCur c (fun u => { u with fetched := [x] }) t)

/-- One step of mover m on channel c. -/
def moveStep (m c : Nat) (s : State) : Moved × State :=
  match (dchan c s).cur with
  | none => (.held, s)
  | some cur =>
    if (mover m s).walk.isSome || cur.remote.isSome then (.held, s)
    else if cur.gather ≠ [] ∧ cur.gather.length = cur.gatherAt.2.2 then (.held, sendGather c cur s)
    else if cur.inBlock = blockLen cur then (.held, endBlock c cur s)
    else
      let word : Option TWord := if cur.desc.fill then some (tw .data (cur.desc.w 6)) else cur.fetched.head?
      match word with
      | some x =>
        match xlateFor m c (dstVa cur) true s with
        | (none, t) => (.held, t)
        | (some dst, t) => putWord m c cur dst x t
      | none =>
        match xlateFor m c (srcVa cur) false s with
        | (none, t) => (.held, t)
        | (some pa, t) =>
          match xlateFor m c (dstVa cur) true t with
          | (none, t) => (.held, t)
          | (some _, t) => getWord m c cur pa t

/-- The mover works on its block until it waits or the block has ended. -/
def moveLoop : Nat → Nat → Nat → State → State
  | 0, _, _, s => s
  | n + 1, m, c, s =>
    match moveStep m c s with
    | (.more, t) => moveLoop n m c t
    | (.held, t) => t

/-- A mover without a block takes one; a mover with one moves it as far as it gets, and chooses the next
when it has ended. -/
def moverWork (m : Nat) (s : State) : State :=
  match (mover m s).serving with
  | none => choose m s
  | some c =>
    let t := moveLoop 200 m c s
    if (mover m t).serving.isNone then choose m t else t

def execMoverBlockDone (m : Fin 4) (s : State) : Out := .next (if dmaRuns s then moverWork m.val s else s)

/-! ## Replies to remote requests (R244) -/

/-- The code with which a reply stops its descriptor. -/
def replyStops (m : Msg) (want : Nat) : Option Nat :=
  if m.status ≠ 0 then some m.status
  else match m.payload.findSome? wordStops with
    | some c => some c
    | none => if m.payload.length = want then none else some E.ABSENT_TARGET

/-- The reply of channel c's remote request. -/
def chanReply (c : Nat) (m : Msg) (s : State) : State :=
  match (dchan c s).cur with
  | none => s
  | some cur =>
    match cur.remote with
    | none => s
    | some true =>
      match replyStops m cur.asked.2 with
      | some code => descFault c code false true cur.asked.1 s
      | none =>
        let ws := if cur.desc.srcFixed then List.replicate 64 (m.payload.headD nullWord) else m.payload
        mdCur c (fun x => { x with remote := none, fetched := ws }) s
    | some false =>
      match replyStops m 0 with
      | some code => descFault c code true true cur.gatherAt.2.1 s
      | none =>
        s |> mdCur c (fun x => { x with remote := none, gather := [], inBlock := x.inBlock + x.gather.length })
          |> countN (P.DMA c) R.DMA_WORDS cur.gather.length

/-- The RD_REPLY at service 0x01: that of a channel, and the work of its mover goes on. -/
def remoteReply (s : State) : State :=
  match sinkMsg (.svcDown 1) s with
  | none => s
  | some m =>
    if m.cls ≠ 0x22 ∨ m.task = 32 then s
    else
      let t := dropMsg (.svcDown 1) s
      match receiverCheck 1 (fun k => k == 0x22) m t with
      | some u => u
      | none =>
        let mv := servedBy m.task t
        let t := chanReply m.task m t
        match mv with
        | some k => if (servedBy m.task t) = some k then moverWork k t else choose k t
        | none => t

def execRemoteReply (s : State) : Out := .next (if dmaRuns s then remoteReply s else s)

/-! ## Host-initiated access (R246) -/

/-- End of a read that gave word x. -/
def hraGot (x : TWord) (s : State) : State :=
  match wordStops x with
  | some code => hraEnd code 0 s
  | none => hraEnd E.NONE x.data s

/-- The reply of the remote node. -/
def hraReply (write : Bool) (s : State) : State :=
  match sinkMsg (.svcDown 1) s with
  | none => s
  | some m =>
    if m.cls ≠ 0x22 ∨ m.task ≠ 32 then s
    else
      let t := dropMsg (.svcDown 1) s
      match receiverCheck 1 (fun k => k == 0x22) m t with
      | some u => u
      | none =>
        if write then hraEnd ((replyStops m 0).getD E.NONE) 0 t
        else match replyStops m 1 with
          | some code => hraEnd code 0 t
          | none => hraGot (m.payload.headD nullWord) t

/-- A misaligned physical address is refused where it leads: in the region page of the bank, or in DEV for the register
window (R50, R174). -/
def misaligned (pa : Nat) (s : State) : State :=
  match bankRange pa, physKind pa with
  | .plain o, _ | .alias_ _ o, _ => err (P.RGN (o / 0x8000 / 16)) E.PERM_FAULT 0 pa s
  | .outside, .regs => sizeRefused pa s
  | .outside, _ => s

/-- The access at its physical address: one word, tagged DATA for a write. -/
def hraAt (write : Bool) (pa : Nat) (s : State) : State :=
  let x := tw .data (rd P.MMU R.MMU_HRA_DATA s)
  if pa % 4 ≠ 0 then hraEnd E.PERM_FAULT 0 (misaligned pa s)
  else match place pa s with
  | .remote node off =>
    s |> setDma { s.dma with hraRemote := true } |> remoteRequest write node 32 off 1 [x]
  | pl =>
    if write then
      match writeVia 4 pa x s with
      | (some code, t) => hraEnd code 0 t
      | (none, t) => t
    else
      match readAt 4 pl s with
      | (some y, t) => hraGot y t
      | (none, t) => t

/-- The access is translated and made (R246). -/
def hraWork (s : State) : State :=
  match s.dma.hra with
  | none => s
  | some (va, write) =>
    if s.dma.hraRemote then hraReply write s
    else if (mover 4 s).walk.isSome then s
    else
      let space := rdf P.MMU R.MMU_HRA_CTL 19 16 s
      match translate 4 0 space va write s with
      | (.walk, t) => startWalk 4 0 space va write t
      | (.fault code, t) => hraEnd code 0 t
      | (.ok pa, t) => hraAt write pa t

def execHraDone (s : State) : Out := .next (if dmaRuns s then hraWork s else s)

/-! ## The memory agent (R245) -/

/-- The agent works while the device runs and its island has a clock. -/
def agentRuns (s : State) : Bool := deviceRuns s && (s.pwr.hare || !islandStopped 66 s)

/-- The places of n words from a window offset on. -/
def agentPlaces (off n : Nat) : List Place := (List.range n).map fun k => windowPlace (off + 4 * k)

/-- The work of the agent goes on: the words are read or written in order, each once its bank has served it, and the
request is answered when all have been (R245). The outcome of a write is the first failure. -/
def agentLoop : Nat → State → State
  | 0, s => s
  | n + 1, s =>
    match s.dma.agent with
    | none => s
    | some j =>
      let pl := windowPlace (j.off + 4 * j.served)
      let go (u : AgentJob) (t : State) : State := agentLoop n (setDma { t.dma with agent := some u } t)
      if j.served = j.count then
        svcReply 3 ⟨j.head, j.route, [], 0⟩ (if j.write then [] else j.words) j.code (setDma { s.dma with agent := none } s)
      else if j.write then
        match writeAt agentEngine pl (j.words.getD j.served zeroWord) s with
        | (none, t) => t
        | (some code, t) => go { j with served := j.served + 1, code := if j.code = 0 then code else j.code } t
      else
        match readAt agentEngine pl s with
        | (none, t) => t
        | (some x, t) => go { j with served := j.served + 1, words := j.words ++ [x] } t

def agentWork (s : State) : State := agentLoop 257 s

/-- The request at the front of the agent is checked, and its work begins. -/
def agentBegin (m : Msg) (s : State) : State :=
  let write := m.cls == 0x21
  let off := addrWord m
  let body := m.payload.tail
  let n := if write then body.length else fld 8 0 (body.headD nullWord).data
  if let some code := wordsFail (if write then m.payload.take 1 else m.payload) then svcReply 3 m [] code s
  else if m.payload = [] ∨ n = 0 ∨ 256 < n ∨ (!write ∧ body.length ≠ 1) then svcReply 3 m [] E.PERM_FAULT s
  else if off % 4 ≠ 0 then svcReply 3 m [] E.PERM_FAULT (misaligned (0x1000_0000 + off) s)
  else
    let ps := agentPlaces off n
    if ps.any (· == .absent) then svcReply 3 m [] E.ABSENT_TARGET s
    else if write && agentProtected ps s then svcReply 3 m [] E.PERM_FAULT (agentRefused s)
    else agentWork (setDma { s.dma with
      agent := some ⟨m.head, m.route, write, off, n, if write then body else [], 0, E.NONE⟩ } s)

/-- The agent goes on with the request in progress, or takes the one at the front, of the class that the command
names. -/
def agentServe (cls : Nat) (s : State) : State :=
  if !agentRuns s then s
  else match s.dma.agent with
  | some j => if j.write = (cls == 0x21) then agentWork s else s
  | none =>
    match sinkMsg (.svcDown 3) s with
    | none => s
    | some m =>
      if requestClass m.cls ∧ m.cls ≠ cls then s
      else if m.cls = 0x21 ∧ !s.dev.weReleased then s
      else
        let t := dropMsg (.svcDown 3) s
        match receiverCheck 3 requestClass m t with
        | some u => u
        | none => agentBegin m t

def execRemoteRd (s : State) : Out := .next (agentServe 0x20 s)
def execRemoteWr (s : State) : Out := .next (agentServe 0x21 s)

end Sys2Proof.Machine
end

