-- ==== Sys2Proof/Machine/Direct.lean ====
section
/-! DEFINITION. A bank cycle, and the accesses of the host and of the steward at a device address: the steward reaches
the whole map of Table 1.4 without translation (R17–R21, R50, R173, R174, R176). -/
namespace Sys2Proof.Machine

open Sys2Proof

/-- A bank cycle: the port grants one request, the tile's logic sees what it presents, and host reads that waited go on
(R111, R176, R177). -/
def bankCycle (b : Nat) (s : State) : State :=
  if !bankClocked b s then s
  else
    let t := settleLogic (b / 16) (grant b s)
    hostResume t.io.hostWait.length t

def execBankGrant (b : BankId) (s : State) : Out := .next (bankCycle b.val s)

/-- The steward's access faults inside the device: a FAULT word for a read, a code for a write (R20). -/
def stewardFault (code : Nat) (s : State) : State := pushRead .steward (faultWord code 0) s

/-- The steward asks the memory agent of another node: the reply brings the word or the code (R18, R244; task 1 marks
it). -/
def stewardRemote (node off : Nat) (isWrite : Bool) (v : Word) (s : State) : State :=
  stewardAsks (message (if isWrite then 0x21 else 0x20) 1 (agentRoute node)
    [tw .data (W off), tw .data (if isWrite then v else 1)] 0) s

/-- The steward's access in a remote window (R18): the own node's is local, others are reached while the ring is UP. -/
def stewardWindow (k off : Nat) (isWrite : Bool) (v : Word) (s : State) : State :=
  if ownNode s = 0 ∨ k = 0 ∨ 250 < k ∨ 0x4000_0000 ≤ off then stewardFault E.ABSENT_TARGET s
  else if k = ownNode s then
    (if bankRange (0x1000_0000 + off) = .outside then stewardFault E.ABSENT_TARGET s
     else bankAccess .steward (0x1000_0000 + off) 4 isWrite (v.setWidth 64) s)
  else if ringUp s then stewardRemote k off isWrite v s
  else stewardFault E.ABSENT_TARGET s

/-- The steward's access of host memory (R19): the word that a read brings is the host's, a free value. -/
def stewardHost (o : Nat) (isWrite : Bool) (v : Word) (s : State) : State :=
  if strapQspi s then stewardFault E.ABSENT_TARGET s
  else if isWrite then (writePlace (.host o) (tw .data v) s).2
  else
    let (x, t) := readPlace (.host o) s
    pushRead .steward x t

/-- An access of the steward at a device address of the 40-bit map (R17). Beyond the registers, the banks and the array
it is of one word (R174; assumption log 124). -/
def stewardAccess (a size : Nat) (isWrite : Bool) (v : BitVec 64) (s : State) : State :=
  if !attached .steward s then s
  else
    let local_ := if isWrite then busWrite .steward a size v s else busRead .steward a size s
    match physKind a with
    | .window k off =>
      if s.dev.mode == .scan then local_
      else if size ≠ 4 ∨ a % 4 ≠ 0 then stewardFault E.PERM_FAULT s
      else stewardWindow k off isWrite (lo32 v) s
    | .host o =>
      if s.dev.mode == .scan then local_
      else if size ≠ 4 ∨ a % 4 ≠ 0 then stewardFault E.PERM_FAULT s
      else stewardHost o isWrite (lo32 v) s
    | _ => local_

/-- An access at a device address. The host's reads end in order (R177). -/
def directAccess (rq : Requester) (a size : Nat) (isWrite : Bool) (v : BitVec 64) (s : State) : State :=
  if rq = .steward then stewardAccess a size isWrite v s
  else if isWrite then busWrite rq a size v s
  else if rq = .host then hostRead a size s
  else busRead rq a size s

def execHostBankAccess (rq : Requester) (addr : BitVec 40) (size : Nat) (isWrite : Bool) (v : BitVec 64)
    (s : State) : Out :=
  .next (directAccess rq addr.toNat size isWrite v s)

end Sys2Proof.Machine
end

