-- ==== Sys2Proof/Machine/FoxSvc.lean ====
section
/-! DEFINITION. Service 0x02 and the Fox taps: REMOTE_RD and REMOTE_WR messages to the FOX page and the
stream (R259). -/
namespace Sys2Proof.Machine

open Sys2Proof

/-- An offset of the FOX page that the service reaches. -/
def foxOffset (o : Nat) : Bool := o % 4 == 0 && 0x40 ≤ o && o < 0x1000

/-- Registers that are read-only to the fabric: the masks of the region table, and LOCK. -/
def foxReadOnly (o : Nat) : Bool :=
  (R.FOX_ALLOW_HOST_LO ≤ o && o ≤ R.FOX_ALLOW_FABRIC_HI) || o == R.FOX_LOCK

/-- A read of consecutive registers: the words, and the state after it. -/
def foxReads (rq : Requester) (os : List Nat) (s : State) : List TWord × State :=
  os.foldl (fun (a : List TWord × State) o =>
    let t := pageRead rq P.FOX o a.2
    (a.1 ++ [(tget [] t.io.readData (rqCode rq)).headD nullWord], t)) ([], s)

/-- A write of consecutive registers. -/
def foxWrites (rq : Requester) (es : List (Nat × TWord)) (s : State) : State :=
  es.foldl (fun t e => if foxReadOnly e.1 then t else pageWrite rq P.FOX e.1 e.2.data t) s

/-- What a message does: the words of its reply, the status, the state. A refused message changes nothing; the words of a
stream write have gone to STREAM_DATA as they came. -/
def foxServe (rq : Requester) (m : Msg) (s : State) : List TWord × Nat × State :=
  let a := addrWord m
  let body := m.payload.tail
  let n := if m.cls = 0x20 then fld 8 0 (body.headD nullWord).data else body.length
  let os := (List.range n).map fun k => a + 4 * k
  if let some code := wordsFail m.payload then ([], code, s)
  else if m.payload = [] ∨ n = 0 ∨ 256 < n then ([], E.PERM_FAULT, s)
  else if m.cls = 0x20 then
    if body.length ≠ 1 ∨ !os.all foxOffset then ([], E.PERM_FAULT, s)
    else
      let (ws, t) := foxReads rq os s
      (ws, E.NONE, t)
  else if a = 0x10000 then ([], E.NONE, s)
  else if os.all foxOffset then ([], E.NONE, foxWrites rq (os.zip body) s)
  else ([], E.PERM_FAULT, s)

/-- The channel on which the Fox port receives, and the one on which it answers. -/
def foxIn : Option RegionId → ChanId
  | some r => .foxTapUp r
  | none => .svcDown (svcId 2)
def foxOut : Option RegionId → ChanId
  | some r => .foxTapDown r
  | none => .svcUp (svcId 2)

/-- Answer on the way that the message came: over the crossbar with the origin as route word, over a Fox tap with the
origin of the reply itself, which no stage rewrites there (R41, R259). -/
def foxReply (tap : Option RegionId) (m : Msg) (payload : List TWord) (status : Nat) (s : State) : State :=
  send (foxOut tap) (message 0x22 m.task (if tap.isSome then routeSvc 2 else m.route) payload status) s

/-- The requester class of a message: the ring for one of another node, else the fabric. -/
def foxRequester (tap : Option RegionId) (m : Msg) : Requester :=
  if tap.isNone && fromRing m.route then .ring else .fabric

/-- The checks of a receiver (R42, R45, R48), with the reply on the way that the message came. DESIGN CHOICE
(assumption log 105): of a malformed message from a Fox tap, which has no origin in route-word form,
MSG_MALFORMED_ORIGIN records the route word that the message carried. -/
def foxCheck (tap : Option RegionId) (m : Msg) (s : State) : Option State :=
  if m.status ≠ 0 then some s
  else if m.payload.length ≠ m.len ∧ requestClass m.cls then
    some (foxReply tap m [nullWord] E.ABSENT_TARGET (malformed m.route s))
  else if m.payload.length ≠ m.len ∨ !requestClass m.cls then some (malformed m.route s)
  else none

/-- Payload words of a stream write go to STREAM_DATA one by one while its buffer has room, up to the trailer; those behind
wait in the buffer of the channel, so that back-pressure reaches the sender (R11, R259). `fuel` bounds the words. -/
def foxLoop (fuel : Nat) (tap : Option RegionId) (s : State) : State :=
  match fuel with
  | 0 => s
  | fuel + 1 =>
    let x := chan (foxIn tap) s
    match x.gathered, x.buffer with
    | h :: rt :: ad :: body, w :: _ =>
      if !streamOpen x.gathered then s
      else
        let image := body.length < fld 11 0 h.data - 1 && w.tag != .last && w.tag != .head && (wordsFail [w]).isNone
        if image && streamFull s then s
        else
          let rq := foxRequester tap ⟨h.data, rt.data, [ad], 0⟩
          let t := takeOne (foxIn tap) w s
          foxLoop fuel tap (if image then pageWrite rq P.FOX R.FOX_STREAM_DATA w.data t else t)
    | _, _ => s

/-- The message at the front of service 0x02 or of a Fox tap: image words as far as the stream has room, any other message
whole. The Fox port begins work in RUN (R285). -/
def foxService (tap : Option RegionId) (s : State) : State :=
  if !dmaRuns s then s
  else
    let s := takeMsg (foxIn tap) (foxLoop 16 tap s)
    match sinkMsg (foxIn tap) s with
    | none => s
    | some m =>
      let t := dropMsg (foxIn tap) s
      match foxCheck tap m t with
      | some u => u
      | none =>
        let (ws, status, t) := foxServe (foxRequester tap m) m t
        foxReply tap m ws status t

def execFoxServiceAccess (tap : Option RegionId) (s : State) : Out := .next (foxService tap s)

end Sys2Proof.Machine
end

