-- ==== Sys2Proof/Machine/Pins.lean ====
section
/-! DEFINITION. The IEEE 1149.1 TAP, the PCI Express link and function-level reset, and the Ethernet links
and frames (R22, R413, R425, R426). -/
namespace Sys2Proof.Machine

open Sys2Proof

/-! ## The TAP (R426) -/

/-- Boundary scan is available in every mode except OFF (R22). -/
def tapLive (s : State) : Bool := s.dev.mode != .off

/-- Single-ended pins in the boundary register: 528 user I/O, then 28 dedicated pins (assumption log 71). -/
abbrev boundaryPins : Nat := 556

def padBoundary (l : List Bool) : List Bool := (l ++ List.replicate (2 * boundaryPins) false).take (2 * boundaryPins)

/-- The bank and cell of a user pin's place in the boundary register. -/
def pinAt (i : Nat) : Nat × Nat := if i < 384 then (i / 48, i % 48) else (8 + (i - 384) / 36, (i - 384) % 36)

/-- SAFE_N: low before release and in SAFE, RECOVERY and SCAN (R22, R285, Table 18.5). -/
def safeN (s : State) : Bool :=
  s.dev.outReleased && s.dev.mode != .safe && s.dev.mode != .recovery && s.dev.mode != .scan

/-- What the device drives on the dedicated pin k, in the order of row BC of Table 18.13 without the TAP: DONE (1) is
pulled low before its release (R288), SAFE_N (3) is an output, QIRQ_N (13) is pulled low under R62. The others are
inputs, or outputs that no command leaves driven. -/
def dedicatedOut (k : Nat) (s : State) : Bool × Bool :=
  if k = 1 then (bit 0 (rd P.RST R.RST_DONE_STAT s), false)
  else if k = 3 then (true, safeN s)
  else if k = 13 then (qspiInterrupt s, false)
  else (false, false)

/-- Dedicated pins with an output: DONE, SAFE_N, PMB_SCL, PMB_SDA, QIO0 to QIO3, QIRQ_N (Table 18.5). -/
def dedicatedDrives (k : Nat) : Bool := [1, 3, 4, 5, 9, 10, 11, 12, 13].contains k

/-- What pin i of the boundary register drives: output enable and value. -/
def pinOut (i : Nat) (s : State) : Bool × Bool :=
  if i < 528 then padNow (pinAt i).1 (pinAt i).2 s
  else if dedicatedDrives (i - 528) then (tapDrive i s).getD (dedicatedOut (i - 528) s)
  else (false, false)

/-- What is sampled at pin i: output enable and level. The level of a pin that the device does not drive is the
board's: a free value. -/
def samplePin (i : Nat) (s : State) : Bool × Bool :=
  let d := pinOut i s
  if d.1 then d else (false, (Config.freeWord (s.free + i)).getLsbD 0)

/-- The pins are sampled into the register that is shifted out. -/
def capturePins (s : State) : State :=
  let bits := (List.range boundaryPins).flatMap fun i => [(samplePin i s).1, (samplePin i s).2]
  viewDrawn (setIo { s.io with tdo := bits } s)

/-- IDCODE. -/
def idcodeValue : Word := W (Config.stepping.toNat % 16 * 2 ^ 28 + 0x4B96 * 2 ^ 12 + 0x7FF * 2 + 1)

/-- IDCODE is selected and captured, least significant bit first. -/
def selectIdcode (s : State) : State :=
  setIo { s.io with tap := .idcode, tdo := (List.range 32).map fun n => idcodeValue.getLsbD n } s

/-- An instruction that selects the bypass register, whose one bit captures 0. -/
def selectBypass (t : TapInstr) (s : State) : State := setIo { s.io with tap := t, tdo := [false] } s

/-- The instruction takes the pins until Test-Logic-Reset. -/
def takePins (t : TapInstr) (s : State) : State := setIo { s.io with taken := some t } s

def extest (s : State) : State :=
  if tapLive s then
    let t := capturePins s
    takePins .extest (setIo { t.io with tap := .extest } t)
  else s
def execExtest (s : State) : Out := .next (extest s)

def execIdcode (s : State) : Out := .next (if tapLive s then selectIdcode s else s)

def samplePreload (preload : List Bool) (s : State) : State :=
  if tapLive s then
    let t := capturePins s
    setIo { t.io with tap := .sample, boundary := padBoundary preload } t
  else s
def execSamplePreload (preload : List Bool) (s : State) : Out := .next (samplePreload preload s)

def execClamp (s : State) : Out := .next (if tapLive s then takePins .clamp (selectBypass .clamp s) else s)
def execHighz (s : State) : Out := .next (if tapLive s then takePins .highz (selectBypass .highz s) else s)

/-- The codes of the other instructions (R426). -/
def otherTapCode (ir : Byte) : Bool := [0x00, 0x01, 0x02, 0x04, 0x05, 0x3C].contains ir.toNat

/-- BYPASS, and every code that names no other instruction. -/
def execBypass (ir : Byte) (s : State) : Out :=
  .next (if tapLive s && !otherTapCode ir then selectBypass .bypass s else s)

/-- Test-Logic-Reset returns the pins. -/
def testLogicReset (s : State) : State :=
  if tapLive s then
    let t := selectIdcode s
    setIo { t.io with taken := none } t
  else s
def execTestLogicReset (s : State) : Out := .next (testLogicReset s)

/-! ## PCI Express (R425) -/

/-- The endpoint is in use: STRAP_HOST selects it, and the straps have been sampled. -/
def pcieOn (s : State) : Bool :=
  !strapQspi s && s.dev.sampled && s.dev.mode != .off && s.dev.mode != .bear && s.dev.mode != .scan

/-- A function-level reset: the MSI-X table, its pending bits and the capability's masks. -/
def functionLevelReset (s : State) : State :=
  if !pcieOn s then s
  else
    let inTable (k : Nat) : Bool := decide (rkey P.PCIE R.PCIE_MSIX_TABLE ≤ k) && decide (k < rkey P.PCIE R.PCIE_MSIX_TABLE + 258)
    s |> setRegs (s.regs.filter fun e => !inTable e.1)
      |> setIo { s.io with msixEnable := false, msixMask := false }
def execFunctionLevelReset (s : State) : Out := .next (functionLevelReset s)

/-- The host's configuration software enables MSI-X (bit 1) and masks the function (bit 0); what is pending and no
longer masked is sent (R61). -/
def msixControl (ctl : BitVec 2) (s : State) : State :=
  let t := setIo { s.io with msixEnable := ctl.getLsbD 1, msixMask := ctl.getLsbD 0 } s
  (List.range 64).foldl (fun t v => if bit 0 (rd P.PCIE (R.PCIE_MSIX_TABLE + 16 * v + 12) t) then t else msixUnmask v t) t

/-- A new state of the link, and the MSI-X control that the host's configuration software leaves there (assumption log
14). A report of a link that is up and was up, without a change of that control, is a retraining. -/
def pcieLinkChange (up : Bool) (width : BitVec 3) (speed : BitVec 4) (ltssm : BitVec 6) (msix : BitVec 2) (s : State) :
    State :=
  if !pcieOn s then s
  else
    let was := bit 7 (rd P.PCIE R.PCIE_LINK_STAT s)
    let same := s.io.msixEnable == msix.getLsbD 1 && s.io.msixMask == msix.getLsbD 0
    let t := wr P.PCIE R.PCIE_LINK_STAT
      (W (ltssm.toNat * 2 ^ 8 + b2n up * 2 ^ 7 + width.toNat * 2 ^ 4 + speed.toNat)) s
    let t := if up && was && same then count P.PCIE R.PCIE_RETRAINS t else t
    msixControl msix (if up != was then irq P.PCIE 0 t else t)
def execPcieLinkChange (up : Bool) (width : BitVec 3) (speed : BitVec 4) (link : LinkState) (s : State) : Out :=
  .next (pcieLinkChange up width speed link.ltssm link.msix s)

/-! ## Ethernet (R413) -/

/-- The MAC works: its page is served and not off. -/
def macLive (p : Nat) (s : State) : Bool := !pageOff (P.ETH p) s

def ethLinkChange (port : Nat) (up : Bool) (speed : BitVec 2) (s : State) : State :=
  let pg := P.ETH port
  if !macLive port s || speed == 3 then s
  else
    let was := bit 0 (rd pg R.ETH_STAT s)
    let t := wr pg R.ETH_STAT (W (speed.toNat * 2 + b2n up)) s
    if up != was then irq pg 0 t else t
def execEthLinkChange (port : Fin 2) (up : Bool) (speed : BitVec 2) (s : State) : Out :=
  .next (ethLinkChange port.val up speed s)

/-- A frame received: passed to steward memory, or counted as received with errors. -/
def frameReceived (port : Nat) (frame : List Byte) (good : Bool) (s : State) : State :=
  let pg := P.ETH port
  if !macLive port s || !takesWork pg s then s
  else if good then
    s |> setIo { s.io with frames := s.io.frames ++ [(port, frame)] } |> count pg R.ETH_FRAMES_RX
  else count pg R.ETH_FRAMES_ERR s
def execFrameReceived (port : Fin 2) (frame : List Byte) (good : Bool) (s : State) : Out :=
  .next (frameReceived port.val frame good s)

end Sys2Proof.Machine
end

