-- ==== Sys2Proof/Machine/Dispatch.lean ====
section
/-! DEFINITION. The dispatch of commands: one arm per constructor of Instr. -/
namespace Sys2Proof.Machine

open Sys2Proof

def exec (i : Instr) (s : State) : Host.Outcome State Fault Refusal :=
  match i with
  | .por => Sys2Proof.Machine.execPor s
  | .suppliesInvalid => Sys2Proof.Machine.execSuppliesInvalid s
  | .rstN => Sys2Proof.Machine.execRstN s
  | .strapSampling x1 => Sys2Proof.Machine.execStrapSampling x1 s
  | .powerUpLoadDone => Sys2Proof.Machine.execPowerUpLoadDone s
  | .selftestDone => Sys2Proof.Machine.execSelftestDone s
  | .selftestWindowTimeout => Sys2Proof.Machine.execSelftestWindowTimeout s
  | .startupLockDone x1 x2 x3 => Sys2Proof.Machine.execStartupLockDone x1 x2 x3 s
  | .doneSeenHigh => Sys2Proof.Machine.execDoneSeenHigh s
  | .releaseStep => Sys2Proof.Machine.execReleaseStep s
  | .doneFall => Sys2Proof.Machine.execDoneFall s
  | .continueCmd x1 => Sys2Proof.Machine.execContinueCmd x1 s
  | .enterSafe x1 => Sys2Proof.Machine.execEnterSafe x1 s
  | .reboot x1 => Sys2Proof.Machine.execReboot x1 s
  | .hostSoftReset x1 => Sys2Proof.Machine.execHostSoftReset x1 s
  | .pageSoftRst x1 x2 => Sys2Proof.Machine.execPageSoftRst x1 x2 s
  | .regionReset x1 x2 => Sys2Proof.Machine.execRegionReset x1 x2 s
  | .gsrRelease x1 => Sys2Proof.Machine.execGsrRelease x1 s
  | .errClear x1 x2 => Sys2Proof.Machine.execErrClear x1 x2 s
  | .irqForce x1 x2 x3 => Sys2Proof.Machine.execIrqForce x1 x2 x3 s
  | .registerWrite x1 x2 x3 x4 => Sys2Proof.Machine.execRegisterWrite x1 x2 x3 x4 s
  | .reg64LowRead x1 x2 x3 => Sys2Proof.Machine.execReg64LowRead x1 x2 x3 s
  | .rcRead x1 x2 x3 => Sys2Proof.Machine.execRcRead x1 x2 x3 s
  | .mbxGo x1 x2 => Sys2Proof.Machine.execMbxGo x1 x2 s
  | .mbxResponse x1 => Sys2Proof.Machine.execMbxResponse x1 s
  | .version x1 => Sys2Proof.Machine.execVersion x1 s
  | .echo x1 => Sys2Proof.Machine.execEcho x1 s
  | .fabricMailboxAccess => Sys2Proof.Machine.execFabricMailboxAccess s
  | .pass x1 => Sys2Proof.Machine.execPass x1 s
  | .add x1 => Sys2Proof.Machine.execAdd x1 s
  | .adc x1 => Sys2Proof.Machine.execAdc x1 s
  | .sub x1 => Sys2Proof.Machine.execSub x1 s
  | .sbc x1 => Sys2Proof.Machine.execSbc x1 s
  | .addss x1 => Sys2Proof.Machine.execAddss x1 s
  | .subss x1 => Sys2Proof.Machine.execSubss x1 s
  | .addus x1 => Sys2Proof.Machine.execAddus x1 s
  | .subus x1 => Sys2Proof.Machine.execSubus x1 s
  | .muls x1 => Sys2Proof.Machine.execMuls x1 s
  | .mulu x1 => Sys2Proof.Machine.execMulu x1 s
  | .mulsu x1 => Sys2Proof.Machine.execMulsu x1 s
  | .and x1 => Sys2Proof.Machine.execAnd x1 s
  | .or x1 => Sys2Proof.Machine.execOr x1 s
  | .xor x1 => Sys2Proof.Machine.execXor x1 s
  | .andn x1 => Sys2Proof.Machine.execAndn x1 s
  | .shl x1 => Sys2Proof.Machine.execShl x1 s
  | .shr x1 => Sys2Proof.Machine.execShr x1 s
  | .sar x1 => Sys2Proof.Machine.execSar x1 s
  | .rol x1 => Sys2Proof.Machine.execRol x1 s
  | .ror x1 => Sys2Proof.Machine.execRor x1 s
  | .min x1 => Sys2Proof.Machine.execMin x1 s
  | .max x1 => Sys2Proof.Machine.execMax x1 s
  | .minu x1 => Sys2Proof.Machine.execMinu x1 s
  | .maxu x1 => Sys2Proof.Machine.execMaxu x1 s
  | .abs x1 => Sys2Proof.Machine.execAbs x1 s
  | .cmp x1 => Sys2Proof.Machine.execCmp x1 s
  | .tst x1 => Sys2Proof.Machine.execTst x1 s
  | .sel x1 => Sys2Proof.Machine.execSel x1 s
  | .clz x1 => Sys2Proof.Machine.execClz x1 s
  | .lcnt x1 => Sys2Proof.Machine.execLcnt x1 s
  | .dbnz x1 => Sys2Proof.Machine.execDbnz x1 s
  | .ld x1 => Sys2Proof.Machine.execLd x1 s
  | .st x1 => Sys2Proof.Machine.execSt x1 s
  | .emit x1 => Sys2Proof.Machine.execEmit x1 s
  | .wait x1 => Sys2Proof.Machine.execWait x1 s
  | .tapo x1 => Sys2Proof.Machine.execTapo x1 s
  | .halt x1 => Sys2Proof.Machine.execHalt x1 s
  | .cellReservedHalt x1 => Sys2Proof.Machine.execCellReservedHalt x1 s
  | .cellOutputAccept x1 => Sys2Proof.Machine.execCellOutputAccept x1 s
  | .param x1 => Sys2Proof.Machine.execParam x1 s
  | .paramCommit x1 => Sys2Proof.Machine.execParamCommit x1 s
  | .heldCommitApply x1 => Sys2Proof.Machine.execHeldCommitApply x1 s
  | .paramLatchParity x1 x2 x3 => Sys2Proof.Machine.execParamLatchParity x1 x2 x3 s
  | .tapItemTransfer x1 x2 x3 x4 x5 => Sys2Proof.Machine.execTapItemTransfer x1 x2 x3 x4 x5 s
  | .macIssue x1 x2 => Sys2Proof.Machine.execMacIssue x1 x2 s
  | .crossingWord x1 x2 => Sys2Proof.Machine.execCrossingWord x1 x2 s
  | .creditReturn x1 => Sys2Proof.Machine.execCreditReturn x1 s
  | .parityVerdict x1 => Sys2Proof.Machine.execParityVerdict x1 s
  | .spareRemap x1 => Sys2Proof.Machine.execSpareRemap x1 s
  | .switchMessageRoute x1 => Sys2Proof.Machine.execSwitchMessageRoute x1 s
  | .crossbarRoute x1 => Sys2Proof.Machine.execCrossbarRoute x1 s
  | .headOutputGrant x1 => Sys2Proof.Machine.execHeadOutputGrant x1 s
  | .bankGrant x1 => Sys2Proof.Machine.execBankGrant x1 s
  | .hostBankAccess x1 x2 x3 x4 x5 => Sys2Proof.Machine.execHostBankAccess x1 x2 x3 x4 x5 s
  | .aliasWrite x1 x2 x3 x4 x5 => Sys2Proof.Machine.execAliasWrite x1 x2 x3 x4 x5 s
  | .bankClearDone => Sys2Proof.Machine.execBankClearDone s
  | .walkerReady => Sys2Proof.Machine.execWalkerReady s
  | .walkerCancel => Sys2Proof.Machine.execWalkerCancel s
  | .unboundEvent => Sys2Proof.Machine.execUnboundEvent s
  | .schCmdReady x1 x2 => Sys2Proof.Machine.execSchCmdReady x1 x2 s
  | .schCmdCancel x1 x2 => Sys2Proof.Machine.execSchCmdCancel x1 x2 s
  | .abandon x1 x2 => Sys2Proof.Machine.execAbandon x1 x2 s
  | .disable x1 x2 => Sys2Proof.Machine.execDisable x1 x2 s
  | .enable x1 x2 => Sys2Proof.Machine.execEnable x1 x2 s
  | .dispatchDecision => Sys2Proof.Machine.execDispatchDecision s
  | .complete => Sys2Proof.Machine.execComplete s
  | .suspendReply => Sys2Proof.Machine.execSuspendReply s
  | .timerFire x1 => Sys2Proof.Machine.execTimerFire x1 s
  | .ioEdgeEvent x1 x2 x3 x4 => Sys2Proof.Machine.execIoEdgeEvent x1 x2 x3 x4 s
  | .doorbell x1 x2 x3 => Sys2Proof.Machine.execDoorbell x1 x2 x3 s
  | .schServiceAccess => Sys2Proof.Machine.execSchServiceAccess s
  | .runLimitHit x1 => Sys2Proof.Machine.execRunLimitHit x1 s
  | .suspendLimitHit x1 => Sys2Proof.Machine.execSuspendLimitHit x1 s
  | .schedulerDrainNotice x1 => Sys2Proof.Machine.execSchedulerDrainNotice x1 s
  | .drainSuspend x1 => Sys2Proof.Machine.execDrainSuspend x1 s
  | .schedulerDrainedReport x1 => Sys2Proof.Machine.execSchedulerDrainedReport x1 s
  | .engineAbsent x1 => Sys2Proof.Machine.execEngineAbsent x1 s
  | .absenceEventPost => Sys2Proof.Machine.execAbsenceEventPost s
  | .traceSpill => Sys2Proof.Machine.execTraceSpill s
  | .contextWrite x1 x2 x3 => Sys2Proof.Machine.execContextWrite x1 x2 x3 s
  | .engineMapWrite x1 x2 x3 => Sys2Proof.Machine.execEngineMapWrite x1 x2 x3 s
  | .bindDataAccess x1 x2 => Sys2Proof.Machine.execBindDataAccess x1 x2 s
  | .argDataAccess x1 x2 => Sys2Proof.Machine.execArgDataAccess x1 x2 s
  | .saveDataRead x1 => Sys2Proof.Machine.execSaveDataRead x1 s
  | .schSoftReset x1 x2 => Sys2Proof.Machine.execSchSoftReset x1 x2 s
  | .dmaSubmit x1 x2 => Sys2Proof.Machine.execDmaSubmit x1 x2 s
  | .dmaDesc => Sys2Proof.Machine.execDmaDesc s
  | .dmaDescAdmit => Sys2Proof.Machine.execDmaDescAdmit s
  | .descriptorStart x1 => Sys2Proof.Machine.execDescriptorStart x1 s
  | .moverBlockDone x1 => Sys2Proof.Machine.execMoverBlockDone x1 s
  | .pageWalkRead x1 => Sys2Proof.Machine.execPageWalkRead x1 s
  | .chainRead x1 => Sys2Proof.Machine.execChainRead x1 s
  | .dmaEventPost x1 => Sys2Proof.Machine.execDmaEventPost x1 s
  | .remoteReply => Sys2Proof.Machine.execRemoteReply s
  | .restart x1 x2 => Sys2Proof.Machine.execRestart x1 x2 s
  | .flush x1 x2 => Sys2Proof.Machine.execFlush x1 x2 s
  | .dmaSoftReset x1 x2 => Sys2Proof.Machine.execDmaSoftReset x1 x2 s
  | .invalAll x1 => Sys2Proof.Machine.execInvalAll x1 s
  | .invalSpace x1 x2 => Sys2Proof.Machine.execInvalSpace x1 x2 s
  | .invalPage x1 x2 => Sys2Proof.Machine.execInvalPage x1 x2 s
  | .invalDone => Sys2Proof.Machine.execInvalDone s
  | .spaceConfigWrite x1 x2 x3 x4 => Sys2Proof.Machine.execSpaceConfigWrite x1 x2 x3 x4 s
  | .hraRead x1 => Sys2Proof.Machine.execHraRead x1 s
  | .hraWrite x1 => Sys2Proof.Machine.execHraWrite x1 s
  | .hraDone => Sys2Proof.Machine.execHraDone s
  | .remoteRd => Sys2Proof.Machine.execRemoteRd s
  | .remoteWr => Sys2Proof.Machine.execRemoteWr s
  | .foxLoad x1 x2 => Sys2Proof.Machine.execFoxLoad x1 x2 s
  | .foxLoadDone x1 => Sys2Proof.Machine.execFoxLoadDone x1 s
  | .streamOpen x1 x2 => Sys2Proof.Machine.execStreamOpen x1 x2 s
  | .libraryProgramOpen x1 x2 => Sys2Proof.Machine.execLibraryProgramOpen x1 x2 s
  | .streamData x1 x2 => Sys2Proof.Machine.execStreamData x1 x2 s
  | .streamAbort x1 => Sys2Proof.Machine.execStreamAbort x1 s
  | .streamIdleTimeout => Sys2Proof.Machine.execStreamIdleTimeout s
  | .libraryProgramDone x1 x2 => Sys2Proof.Machine.execLibraryProgramDone x1 x2 s
  | .slotErase x1 => Sys2Proof.Machine.execSlotErase x1 s
  | .slotEraseDone x1 x2 => Sys2Proof.Machine.execSlotEraseDone x1 x2 s
  | .foxServiceAccess x1 => Sys2Proof.Machine.execFoxServiceAccess x1 s
  | .foxLock x1 => Sys2Proof.Machine.execFoxLock x1 s
  | .stageInvalidate x1 x2 => Sys2Proof.Machine.execStageInvalidate x1 x2 s
  | .armCtlArm x1 => Sys2Proof.Machine.execArmCtlArm x1 s
  | .now x1 => Sys2Proof.Machine.execNow x1 s
  | .disarm x1 => Sys2Proof.Machine.execDisarm x1 s
  | .swapDrainStart => Sys2Proof.Machine.execSwapDrainStart s
  | .regionDrainNotice x1 => Sys2Proof.Machine.execRegionDrainNotice x1 s
  | .regionDrained x1 => Sys2Proof.Machine.execRegionDrained x1 s
  | .setDrained => Sys2Proof.Machine.execSetDrained s
  | .drainTimeout => Sys2Proof.Machine.execDrainTimeout s
  | .swapGo x1 => Sys2Proof.Machine.execSwapGo x1 s
  | .swapRelease x1 => Sys2Proof.Machine.execSwapRelease x1 s
  | .handover x1 => Sys2Proof.Machine.execHandover x1 s
  | .scrubFrameFail x1 x2 x3 x4 => Sys2Proof.Machine.execScrubFrameFail x1 x2 x3 x4 s
  | .scrubPassEnd x1 x2 => Sys2Proof.Machine.execScrubPassEnd x1 x2 s
  | .cdfSequenceWrite x1 x2 x3 => Sys2Proof.Machine.execCdfSequenceWrite x1 x2 x3 s
  | .program x1 x2 x3 => Sys2Proof.Machine.execProgram x1 x2 x3 s
  | .eraseSector x1 x2 x3 => Sys2Proof.Machine.execEraseSector x1 x2 x3 s
  | .eraseBank x1 x2 x3 => Sys2Proof.Machine.execEraseBank x1 x2 x3 s
  | .suspend x1 x2 x3 => Sys2Proof.Machine.execSuspend x1 x2 x3 s
  | .resume x1 x2 x3 => Sys2Proof.Machine.execResume x1 x2 x3 s
  | .readId x1 x2 x3 => Sys2Proof.Machine.execReadId x1 x2 x3 s
  | .guardSet x1 x2 x3 => Sys2Proof.Machine.execGuardSet x1 x2 x3 s
  | .guardUnlock x1 x2 x3 => Sys2Proof.Machine.execGuardUnlock x1 x2 x3 s
  | .statusClear x1 x2 x3 => Sys2Proof.Machine.execStatusClear x1 x2 x3 s
  | .setPw x1 => Sys2Proof.Machine.execSetPw x1 s
  | .pageBufferWrite x1 x2 x3 => Sys2Proof.Machine.execPageBufferWrite x1 x2 x3 s
  | .pageLoadTimeout x1 => Sys2Proof.Machine.execPageLoadTimeout x1 s
  | .cdfOpDone x1 x2 x3 x4 => Sys2Proof.Machine.execCdfOpDone x1 x2 x3 x4 s
  | .suspendHonoured x1 => Sys2Proof.Machine.execSuspendHonoured x1 s
  | .suspendedReached x1 => Sys2Proof.Machine.execSuspendedReached x1 s
  | .cdfArrayRead x1 x2 x3 => Sys2Proof.Machine.execCdfArrayRead x1 x2 x3 s
  | .cdfSoftReset x1 => Sys2Proof.Machine.execCdfSoftReset x1 s
  | .wearReport x1 => Sys2Proof.Machine.execWearReport x1 s
  | .pageProgram x1 => Sys2Proof.Machine.execPageProgram x1 s
  | .sectorErase x1 => Sys2Proof.Machine.execSectorErase x1 s
  | .bundleBegin x1 => Sys2Proof.Machine.execBundleBegin x1 s
  | .bundleData x1 x2 => Sys2Proof.Machine.execBundleData x1 x2 s
  | .bundleVerifyDone => Sys2Proof.Machine.execBundleVerifyDone s
  | .chunkForward => Sys2Proof.Machine.execChunkForward s
  | .ringChunk x1 => Sys2Proof.Machine.execRingChunk x1 s
  | .bundleCancel x1 => Sys2Proof.Machine.execBundleCancel x1 s
  | .manifestQuery x1 => Sys2Proof.Machine.execManifestQuery x1 s
  | .activate x1 => Sys2Proof.Machine.execActivate x1 s
  | .arm x1 x2 => Sys2Proof.Machine.execArm x1 x2 s
  | .armRepeat => Sys2Proof.Machine.execArmRepeat s
  | .updateReady => Sys2Proof.Machine.execUpdateReady s
  | .armReturn x1 => Sys2Proof.Machine.execArmReturn x1 s
  | .pointerWriteDone => Sys2Proof.Machine.execPointerWriteDone s
  | .commit x1 x2 x3 => Sys2Proof.Machine.execCommit x1 x2 x3 s
  | .activationTime => Sys2Proof.Machine.execActivationTime s
  | .firmwareHandover x1 => Sys2Proof.Machine.execFirmwareHandover x1 s
  | .attemptCount => Sys2Proof.Machine.execAttemptCount s
  | .armDeadline => Sys2Proof.Machine.execArmDeadline s
  | .abort x1 x2 x3 => Sys2Proof.Machine.execAbort x1 x2 x3 s
  | .confirm x1 => Sys2Proof.Machine.execConfirm x1 s
  | .confirmWindowExpiry => Sys2Proof.Machine.execConfirmWindowExpiry s
  | .fallbackRequest x1 => Sys2Proof.Machine.execFallbackRequest x1 s
  | .fallback x1 x2 x3 => Sys2Proof.Machine.execFallback x1 x2 x3 s
  | .nodeJoin x1 x2 x3 x4 => Sys2Proof.Machine.execNodeJoin x1 x2 x3 x4 s
  | .levelReq x1 x2 => Sys2Proof.Machine.execLevelReq x1 x2 s
  | .islandSwitch x1 => Sys2Proof.Machine.execIslandSwitch x1 s
  | .pmbusAck => Sys2Proof.Machine.execPmbusAck s
  | .powerGood => Sys2Proof.Machine.execPowerGood s
  | .settleElapsed => Sys2Proof.Machine.execSettleElapsed s
  | .pgTimeout => Sys2Proof.Machine.execPgTimeout s
  | .islWrite x1 x2 x3 => Sys2Proof.Machine.execIslWrite x1 x2 x3 s
  | .clCfgWrite x1 x2 x3 => Sys2Proof.Machine.execClCfgWrite x1 x2 x3 s
  | .loopLock x1 => Sys2Proof.Machine.execLoopLock x1 s
  | .lossOfReference x1 => Sys2Proof.Machine.execLossOfReference x1 s
  | .stewardClkWrite x1 x2 => Sys2Proof.Machine.execStewardClkWrite x1 x2 s
  | .pmbusAlert x1 => Sys2Proof.Machine.execPmbusAlert x1 s
  | .regionPowerOn x1 x2 => Sys2Proof.Machine.execRegionPowerOn x1 x2 s
  | .regionPowerOff x1 x2 => Sys2Proof.Machine.execRegionPowerOff x1 x2 s
  | .regionPowerDone => Sys2Proof.Machine.execRegionPowerDone s
  | .enterDoze x1 x2 => Sys2Proof.Machine.execEnterDoze x1 x2 s
  | .enterSleep x1 x2 => Sys2Proof.Machine.execEnterSleep x1 x2 s
  | .enterBear x1 x2 => Sys2Proof.Machine.execEnterBear x1 x2 s
  | .wakeRing x1 x2 => Sys2Proof.Machine.execWakeRing x1 x2 s
  | .wakePin x1 => Sys2Proof.Machine.execWakePin x1 s
  | .wakeTimer x1 => Sys2Proof.Machine.execWakeTimer x1 s
  | .wakeNow x1 => Sys2Proof.Machine.execWakeNow x1 s
  | .wakeLoadDone => Sys2Proof.Machine.execWakeLoadDone s
  | .holdRelease x1 x2 => Sys2Proof.Machine.execHoldRelease x1 x2 s
  | .wdtKick x1 => Sys2Proof.Machine.execWdtKick x1 s
  | .watchdogExpiry => Sys2Proof.Machine.execWatchdogExpiry s
  | .sliceEnd x1 x2 x3 x4 x5 => Sys2Proof.Machine.execSliceEnd x1 x2 x3 x4 x5 s
  | .budgetExpiry => Sys2Proof.Machine.execBudgetExpiry s
  | .windowExit => Sys2Proof.Machine.execWindowExit s
  | .bgSliceStart => Sys2Proof.Machine.execBgSliceStart s
  | .bgPhaseDone => Sys2Proof.Machine.execBgPhaseDone s
  | .bgSliceAbort => Sys2Proof.Machine.execBgSliceAbort s
  | .bgSliceEnd x1 => Sys2Proof.Machine.execBgSliceEnd x1 s
  | .scan => Sys2Proof.Machine.execScan s
  | .zeroisationDone => Sys2Proof.Machine.execZeroisationDone s
  | .extest => Sys2Proof.Machine.execExtest s
  | .idcode => Sys2Proof.Machine.execIdcode s
  | .samplePreload x1 => Sys2Proof.Machine.execSamplePreload x1 s
  | .clamp => Sys2Proof.Machine.execClamp s
  | .highz => Sys2Proof.Machine.execHighz s
  | .bypass x1 => Sys2Proof.Machine.execBypass x1 s
  | .testLogicReset => Sys2Proof.Machine.execTestLogicReset s
  | .segmentUp x1 x2 => Sys2Proof.Machine.execSegmentUp x1 x2 s
  | .segmentDown x1 => Sys2Proof.Machine.execSegmentDown x1 s
  | .enumChar x1 => Sys2Proof.Machine.execEnumChar x1 s
  | .tmax x1 => Sys2Proof.Machine.execTmax x1 s
  | .ringMessage x1 x2 x3 x4 => Sys2Proof.Machine.execRingMessage x1 x2 x3 x4 s
  | .snap x1 x2 x3 => Sys2Proof.Machine.execSnap x1 x2 x3 s
  | .wake x1 x2 => Sys2Proof.Machine.execWake x1 x2 s
  | .reset x1 x2 => Sys2Proof.Machine.execReset x1 x2 s
  | .syncSend => Sys2Proof.Machine.execSyncSend s
  | .syncPair x1 => Sys2Proof.Machine.execSyncPair x1 s
  | .syncTimeout => Sys2Proof.Machine.execSyncTimeout s
  | .echoCharacter x1 => Sys2Proof.Machine.execEchoCharacter x1 s
  | .adj x1 x2 => Sys2Proof.Machine.execAdj x1 x2 s
  | .ptpTimestamp x1 x2 x3 x4 x5 => Sys2Proof.Machine.execPtpTimestamp x1 x2 x3 x4 x5 s
  | .snapArm x1 => Sys2Proof.Machine.execSnapArm x1 s
  | .snapCancel x1 => Sys2Proof.Machine.execSnapCancel x1 s
  | .snapshotCapture => Sys2Proof.Machine.execSnapshotCapture s
  | .snapshotExchange => Sys2Proof.Machine.execSnapshotExchange s
  | .rollcallGo x1 => Sys2Proof.Machine.execRollcallGo x1 s
  | .rollcallReturn x1 => Sys2Proof.Machine.execRollcallReturn x1 s
  | .rollcallTimeout => Sys2Proof.Machine.execRollcallTimeout s
  | .owlPortWrite x1 x2 x3 x4 => Sys2Proof.Machine.execOwlPortWrite x1 x2 x3 x4 s
  | .qspiWrite x1 x2 => Sys2Proof.Machine.execQspiWrite x1 x2 s
  | .qspiRead x1 => Sys2Proof.Machine.execQspiRead x1 s
  | .qspiReadTimeout => Sys2Proof.Machine.execQspiReadTimeout s
  | .qspiStatus => Sys2Proof.Machine.execQspiStatus s
  | .dlyWrite x1 x2 x3 x4 => Sys2Proof.Machine.execDlyWrite x1 x2 x3 x4 s
  | .vccoChange x1 x2 => Sys2Proof.Machine.execVccoChange x1 x2 s
  | .functionLevelReset => Sys2Proof.Machine.execFunctionLevelReset s
  | .pcieLinkChange x1 x2 x3 x4 => Sys2Proof.Machine.execPcieLinkChange x1 x2 x3 x4 s
  | .islandClockEdge x1 x2 => Sys2Proof.Machine.execIslandClockEdge x1 x2 s
  | .windowEntry => Sys2Proof.Machine.execWindowEntry s
  | .strapSafePins x1 => Sys2Proof.Machine.execStrapSafePins x1 s
  | .ethLinkChange x1 x2 x3 => Sys2Proof.Machine.execEthLinkChange x1 x2 x3 s
  | .frameReceived x1 x2 x3 => Sys2Proof.Machine.execFrameReceived x1 x2 x3 s

end Sys2Proof.Machine
end

