-- ==== Sys2Proof/Machine/Idle.lean ====
section
/-! DEFINITION. What the block does while no command waits: one nanosecond of ring time passes, delays in
movement take a tap, the watchdog counts, a sleep entry in progress is reached, and the oldest word of the QSPI write buffer is
applied (assumption log 4). -/
namespace Sys2Proof.Machine

open Sys2Proof

/-- The QSPI write buffer empties while the block can take its words. -/
def idleQspi (s : State) : State := if qspiOn s then qspiDrainOne s else s

/-- A sleep entry past its acceptance reaches its state. -/
def idleEntry (s : State) : State := if entering s then entryReached s else s

/-- A nanosecond of the watchdog, which stops in SLEEP and BEAR (R358): REMAIN falls by one every millisecond, and its
expiry is a command (R361; assumption log 4). -/
def idleWatchdog (s : State) : State :=
  if s.dev.mode = .sleep ∨ s.dev.mode = .bear ∨ bit 1 (rd P.RST R.RST_CTL s) = false then s
  else if s.dev.wdtNs + 1 < 1000000 then setDev { s.dev with wdtNs := s.dev.wdtNs + 1 } s
  else
    let t := setDev { s.dev with wdtNs := 0 } s
    wrf P.RST R.RST_WDT_STAT 15 0 (rdf P.RST R.RST_WDT_STAT 15 0 t - 1) t

/-- One step without a command. -/
def idleStep (s : State) : State :=
  if s.dev.mode = .off then s else s |> tick |> moveDelays |> idleWatchdog |> idleQspi |> idleEntry

end Sys2Proof.Machine
end

