-- ==== Sys2Proof/Safety.lean ====
section
/-! DEFINITION. The terms in which claims are made: the canonical form of the bank memory, the invariants of a
state. -/
namespace Sys2Proof.Machine

open Sys2Proof

/-- The canonical form of a sparse table: keys strictly rising, and no entry equal to what an unlisted key
reads as. -/
def canonical {α : Type} [DecidableEq α] (dflt : α) (m : SMap α) : Bool :=
  rising m && m.all fun e => e.2 != dflt

/-- The bank memory is in canonical form. -/
def Memory.wf (s : State) : Bool := canonical zeroWord s.banks.words

/-- A stored word tagged NULL has data zero and the PAR of such a word (R32, R175). -/
def nullClean (m : SMap TWord) : Bool := m.all fun e => e.2.tag != .null || e.2 == nullWord

/-- The invariant of the bank memory: its canonical form, and NULL words with data zero. -/
def BankInv (s : State) : Prop := Memory.wf s = true ∧ nullClean s.banks.words = true

/-- The register store lists its registers in order, each once. -/
def RegsInv (s : State) : Prop := rising s.regs = true

/-- What holds of every state that a run reaches. -/
def Inv (s : State) : Prop := BankInv s ∧ RegsInv s

/-! ## Terms of statements about register pages and word cells -/

/-- A requester's access of page p reaches the page's block: the device answers the requester, it is not in
SCAN, and the page is not off (R51, R59, R285, R383, R434). -/
abbrev Reaches (rq : Requester) (p : Nat) (s : State) : Prop :=
  attached rq s = true ∧ s.dev.mode ≠ .scan ∧ pageOff p s = false

/-- The instruction of cell c that a command completes, what it has read, and the word that the bank gave LD: those of
the instruction that has issued and waited for the bank, else those of the one that issues now. -/
def cellInsn (c : Nat) (s : State) : Insn :=
  match (cell c s).issued with
  | some q => q.insn
  | none => curInsn c s
def cellFetched (c : Nat) (s : State) : Fetched :=
  match (cell c s).issued with
  | some q => q.fetched s
  | none => fetch c (curInsn c s) s
def cellWord (c : Nat) (s : State) : TWord :=
  match (cell c s).issued with
  | some q => q.word
  | none => zeroWord

/-- Cell c completes an instruction of opcode op: it has issued and the bank has given it all its words, or it issues now
and needs no bank access (R83, R84). -/
abbrev CellRuns (c op : Nat) (s : State) : Prop :=
  (match (cell c s).issued with
    | some q => q.insn.opcode == op && q.wait.isNone && cellReady c s
    | none => issues c op s && !namesBank (curInsn c s) &&
        (memAccess c (curInsn c s) (fetch c (curInsn c s) s)).isNone) = true

/-- It completes it, and no operand in use is a FAULT word that stops it (R91). -/
abbrev CellGo (c op : Nat) (s : State) : Prop :=
  CellRuns c op s ∧ faultOperand c (cellInsn c s) (cellFetched c s) = none

/-- Operands A and B of that instruction, and the cell once they have been read. -/
def cellA (c : Nat) (s : State) : Word := (cellFetched c s).a.data
def cellB (c : Nat) (s : State) : Word := (cellFetched c s).b.data
def cellX (c : Nat) (s : State) : Cell := cell c (cellFetched c s).st

/-- The instruction ends with result r, tagged as TAGACT says, at its destination, and with x as the cell's
flags and counters; BP steps past a BANK operand (R75, R78, R84, R87). -/
def cellDone (c : Nat) (r : Word) (x : Cell) (s : State) : State :=
  let i := cellInsn c s
  let f := cellFetched c s
  writeResult c i (some (resultWord (resTag i f) r)) f.consumed none (setCell c (bumpBp (advancesBp i) x) f.st)

/-- The same for an instruction without a result. -/
def cellQuiet (c : Nat) (x : Cell) (s : State) : State :=
  let i := cellInsn c s
  let f := cellFetched c s
  complete c i f.consumed none (setCell c (bumpBp (advancesBp i) x) f.st)

/-- The third write of a command sequence of a requester reaches the bank that holds sector x: the array is
served to it, no PROGRAM is loading there, the first two writes have been made, and the page takes work (R296,
R300, R302). -/
abbrev FlashTakes (rq : Requester) (code off x : Nat) (s : State) : Prop :=
  flashServed s = true ∧ (rq = .steward ∨ (rq = .host ∧ s.dev.sampled = true)) ∧ sectorOf off = some x ∧
    off % 2 = 0 ∧ (fbank (sectorBank x) s).load = none ∧ 2 ≤ tget 0 s.flash.seq (seqKey rq (sectorBank x)) ∧
    (changesFlash code = true → takesWork P.CDF s = true)

/-- The steward takes up the request of a mailbox half, which has a command code (R67, R68). -/
abbrev MailboxAsks (h : Half) (code : Nat) (s : State) : Prop :=
  mbxBusy h s = true ∧ stewardAnswers s = true ∧ mbxArgs h s ≤ 15 ∧ mbxCode h s = code ∧
    (romOnly s = true → romCommand code = true)

/-- A ring message of node `origin` passes this node: the segment is up, the node has a number, is not the origin,
and does not start up (R390, R393, R395). -/
abbrev RingPasses (origin : Nat) (s : State) : Prop :=
  ringServed s = true ∧ s.ring.inUp = true ∧ ownNode s ≠ 0 ∧ origin ≠ ownNode s ∧ startingUp s = false

/-- n words with good parity have arrived at ring-in and are counted. -/
def ringCounted (n : Nat) (s : State) : State := countN P.RING R.RING_REPLAYS 0 (countN P.RING R.RING_WORDS_IN n s)

/-- A ring-level message of node `origin` goes on to the next node as it came. -/
def levelForward (origin cls svc : Nat) (ws : List Word) (s : State) : State :=
  ringForward (originChar origin 3 svc) (levelWords origin cls svc ws) s

/-- TAPO drives the tap, and the asynchronous resets of the region follow it; no other opcode does (R88, R111). -/
def cellSettle (op c : Nat) (s : State) : State := if op = 0x24 then settleLogic (c / 256) s else s

/-- The commands whose opcode has operands, with their opcodes. -/
def cellCommands (c : CellId) : List (Nat × Instr) :=
  [(0x00, .pass c), (0x01, .add c), (0x02, .adc c), (0x03, .sub c), (0x04, .sbc c), (0x05, .addss c), (0x06, .subss c),
   (0x07, .addus c), (0x08, .subus c), (0x09, .muls c), (0x0A, .mulu c), (0x0B, .mulsu c), (0x0C, .and c), (0x0D, .or c),
   (0x0E, .xor c), (0x0F, .andn c), (0x10, .shl c), (0x11, .shr c), (0x12, .sar c), (0x13, .rol c), (0x14, .ror c),
   (0x15, .min c), (0x16, .max c), (0x17, .minu c), (0x18, .maxu c), (0x19, .abs c), (0x1A, .cmp c), (0x1B, .tst c),
   (0x1C, .sel c), (0x1D, .clz c), (0x1E, .lcnt c), (0x20, .ld c), (0x21, .st c), (0x22, .emit c), (0x24, .tapo c)]

/-- Commands that write no bank, no configuration plane and no Configuration Store area, and change no mode. -/
def storesNothing : Instr → Bool
  | .absenceEventPost | .adj _ _ | .armCtlArm _ | .armReturn _ | .attemptCount | .bgPhaseDone | .budgetExpiry
  | .bypass _ | .cdfOpDone _ _ _ _ | .cdfSequenceWrite _ _ _ | .clCfgWrite _ _ _ | .clamp | .contextWrite _ _ _
  | .creditReturn _ | .disarm _ | .dlyWrite _ _ _ _ | .dmaDescAdmit | .dmaEventPost _ | .doneFall | .doneSeenHigh
  | .doorbell _ _ _ | .echoCharacter _ | .enumChar _ | .eraseBank _ _ _ | .eraseSector _ _ _ | .ethLinkChange _ _ _
  | .extest | .firmwareHandover _ | .flush _ _ | .foxLock _ | .frameReceived _ _ _ | .functionLevelReset
  | .guardSet _ _ _ | .guardUnlock _ _ _ | .handover _ | .heldCommitApply _ | .highz | .holdRelease _ _ | .idcode
  | .invalDone | .ioEdgeEvent _ _ _ _ | .islWrite _ _ _ | .loopLock _ | .lossOfReference _ | .macIssue _ _
  | .mbxGo _ _ | .now _ | .owlPortWrite _ _ _ _ | .pageBufferWrite _ _ _ | .pageLoadTimeout _
  | .paramLatchParity _ _ _ | .pcieLinkChange _ _ _ _ | .pgTimeout | .pmbusAck | .pmbusAlert _ | .powerGood
  | .program _ _ _ | .ptpTimestamp _ _ _ _ _ | .qspiReadTimeout | .qspiStatus | .qspiWrite _ _ | .readId _ _ _
  | .regionDrained _ | .regionPowerDone | .resume _ _ _ | .rollcallGo _ | .rollcallReturn _ | .rollcallTimeout
  | .runLimitHit _ | .samplePreload _ | .scan | .schedulerDrainNotice _ | .schedulerDrainedReport _
  | .scrubPassEnd _ _ | .selftestWindowTimeout | .setDrained | .setPw _ | .settleElapsed | .sliceEnd _ _ _ _ _
  | .snapArm _ | .snapCancel _ | .snapshotExchange | .stageInvalidate _ _ | .statusClear _ _ _ | .stewardClkWrite _ _
  | .strapSafePins _ | .suspend _ _ _ | .suspendHonoured _ | .suspendLimitHit _ | .suspendedReached _ | .syncPair _
  | .syncSend | .syncTimeout | .testLogicReset | .timerFire _ | .unboundEvent | .vccoChange _ _ | .wdtKick _ => true
  | _ => false

end Sys2Proof.Machine
end

