-- ==== Sys2Proof/Certificates/Slice0/Obligations.lean ====
section
/-! DEFINITION. The obligations: statements about the block, for the provers. -/

open Sys2Proof Sys2Proof.Machine

/-- A step takes the command at the front of the queue and runs it; on an empty queue a nanosecond passes. Spec:
95_what_each_step_holds.md; 17_ring_time_observation.md, Ring time; 15_power_and_clocks.md, Resets. The queue and the
step on an empty queue are the model's choice (log entry 4). -/
def Obligations.StepRunsTheFrontCommand : Prop :=
  (∀ (c : Instr) (rest : List Instr) (s : State), s.pending = c :: rest → step s = exec c (setPending rest s)) ∧
  (∀ (s : State), s.pending = [] → ∃ t, step s = .next t ∧ t.pending = [] ∧ (s.dev.mode = .off → t = s) ∧
    (s.dev.mode = .run → s.dev.sampled = true → entering s = false → s.io.qspi = [] → s.time.slew = 0 →
      rd P.TIME R.TIME_RATE s = 0 → t.time.ringTime = s.time.ringTime + 1 ∧ t.banks = s.banks ∧
      (bit 1 (rd P.RST R.RST_CTL s) = false → t.dev = s.dev) ∧
      (bit 1 (rd P.RST R.RST_CTL s) = true → s.dev.wdtNs < 999999 →
        t.dev = { s.dev with wdtNs := s.dev.wdtNs + 1 } ∧
        rd P.RST R.RST_WDT_STAT t = rd P.RST R.RST_WDT_STAT s) ∧
      (bit 1 (rd P.RST R.RST_CTL s) = true → s.dev.wdtNs = 999999 → rdf P.RST R.RST_WDT_STAT 15 0 s ≠ 0 →
        t.dev = { s.dev with wdtNs := 0 } ∧
        rdf P.RST R.RST_WDT_STAT 15 0 t = rdf P.RST R.RST_WDT_STAT 15 0 s - 1)))

/-- After reset the device is in HOLD, its gates are closed, its banks read zero and its registers hold their reset
values. Spec: 01_levels_and_islands.md, Operating modes; 08_memory_banks.md, Clearing and repair;
12_startup_and_release.md, The device before release. That reset is the instant after POR, and the register values the
spec does not give, are the model's choice (log entries 1, 2 and 3). -/
def Obligations.ResetLeavesTheDeviceInHold : Prop :=
  Machine.Inv State.reset ∧ State.reset.pending = [] ∧ State.reset.dev.mode = .hold ∧ State.reset.dev.previous = 0 ∧
    State.reset.dev.sampled = false ∧ State.reset.dev.outReleased = false ∧ State.reset.dev.weReleased = false ∧
    State.reset.dev.srReleased = false ∧ State.reset.io.doneLine = false ∧
    (∀ b w, bankWord b w State.reset = tw .data 0 ∧ parGood (bankWord b w State.reset) = true) ∧
    (∀ p off, rd p off State.reset = regReset p off) ∧ rd P.RST R.RST_WDT_PERIOD State.reset = 1000 ∧
    (∀ t, (ctx t State.reset).state = .disabled) ∧ (∀ q, queue q State.reset = []) ∧
    (∀ c, dchan c State.reset = DmaChan.idle) ∧ (∀ r, r < 64 → (rgn r State.reset).power = .on)

/-- Every step keeps the canonical form of bank memory and register store, and no NULL word with data is ever stored.
Spec: 02_tagged_words.md, Tags; 08_memory_banks.md, Organisation and addressing. -/
def Obligations.EveryStepKeepsTheInvariant : Prop :=
  ∀ (s t : State), Machine.Inv s → step s = .next t → Machine.Inv t

/-- Every command answers a next state in every state, and leaves the queue of waiting commands alone. Spec:
95_what_each_step_holds.md; 01_levels_and_islands.md, Operating modes. That an event whose condition does not hold
changes nothing is the model's choice (log entry 6). -/
def Obligations.EveryCommandAnswersAndLeavesTheQueue : Prop :=
  ∀ (c : Instr) (s : State), ∃ t, exec c s = .next t ∧ t.pending = s.pending

/-- Commands that store nothing leave every bank word, plane and Configuration Store area, and the mode, unchanged.
Spec: 08_memory_banks.md, Organisation and addressing; 11_personalities_and_fox.md, Planes and their sources;
01_levels_and_islands.md, Operating modes. -/
def Obligations.MemoriesAreKeptByCommandsThatStoreNothing : Prop :=
  ∀ (c : Instr) (s t : State), storesNothing c = true → exec c s = .next t →
    (∀ b w, bankWord b w t = bankWord b w s) ∧ (c ≠ .invalDone → t.banks = s.banks) ∧ t.planes = s.planes ∧ t.store = s.store ∧
      t.dev.mode = s.dev.mode

/-- An instruction of a word cell leaves every unit outside the fabric unchanged. Spec: 04_word_cells.md, Opcodes;
04_word_cells.md, Execution and stalls; 16_self_test_and_faults.md, The retry-and-retire threshold table. -/
def Obligations.CellCommandsLeaveTheOtherUnits : Prop :=
  ∀ (c : CellId) (s t : State), ∀ p ∈ cellCommands c, exec p.2 s = .next t →
    (bit 0 (rd (P.RGN (c.val / 256)) R.RGN_CTL s) = false ∨ ∀ n < 4, parGood (cellReg n (cell c.val s)) = true) →
    t.dev = s.dev ∧ (p.1 ≠ 0x24 → t.logic = s.logic) ∧ t.sched = s.sched ∧ t.dma = s.dma ∧ t.planes = s.planes ∧ t.store = s.store ∧
      t.flash = s.flash ∧ t.pwr = s.pwr ∧ t.ring = s.ring ∧ t.time = s.time ∧ t.free = s.free

/-- Host doorbells take credits of queue 16; without a credit they are dropped and counted; no other requester posts
one. Rules: R205. -/
def Obligations.DoorbellsAreCreditBased : Prop :=
  ∀ (rq : Requester) (n : Fin 64) (v : Word) (s : State), Reaches rq P.SCH0 s →
    (exec (.reg64LowRead rq ⟨P.SCH0, by decide⟩ ⟨R.SCH0_DOORBELL_CREDITS / 4, by decide⟩) s = .next (deliverReg rq (W (64 - (queue 16 s).length)) s)) ∧
    (rq = .host → (queue 16 s).length < 64 → ∃ t, exec (.doorbell rq n v) s = .next t ∧
      queue 16 t = queue 16 s ++ [⟨n.val, v, 0⟩] ∧ (∀ q, q ≠ 16 → queue q t = queue q s)) ∧
    (rq = .host → 64 ≤ (queue 16 s).length → ∃ t, exec (.doorbell rq n v) s = .next t ∧ t.sched = s.sched ∧
      rd P.SCH0 R.SCH0_DOORBELL_DROPS t = satAdd (rd P.SCH0 R.SCH0_DOORBELL_DROPS s) 1 ∧
      bit 5 (rd P.SCH0 R.IRQ_PEND t) = true) ∧
    (rq ≠ .host → exec (.doorbell rq n v) s = .next (permFault P.SCH0 (R.SCH0_DOORBELL + 4 * n.val) s) ∧
      (permFault P.SCH0 (R.SCH0_DOORBELL + 4 * n.val) s).sched = s.sched)

/-- Resets in LOAD, SELFTEST and RELEASE are ignored and counted; a wake during a sleep entry aborts it. Rules: R28;
R26. -/
def Obligations.ResetsDuringStartUpAndWakesDuringAnEntry : Prop :=
  ∀ (s : State),
    ((s.dev.mode = .load ∨ s.dev.mode = .selftest ∨ s.dev.mode = .release) →
      (∀ rq, Reaches rq P.DEV s → exec (.hostSoftReset rq) s = .next (ignored 2 s)) ∧
      (bit 1 (rd P.RST R.RST_CTL s) = true → exec .watchdogExpiry s = .next (ignored 3
        (irq P.RST 0 (reloadWatchdog (md P.RST R.RST_WDT_STAT (satFld 31 16) s))))) ∧
      (∀ origin : Byte, ringServed s = true → s.ring.inUp = true → ownNode s ≠ 0 → origin.toNat ≠ ownNode s →
        exec (.reset origin 1) s = .next (levelForward origin.toNat 0x51 6 [1] (ignored 4 (ringCounted 4 s)))) ∧
      (∀ src u, (ignored src u).dev = u.dev)) ∧
    (∀ st, s.dev.mode = .run → s.pwr.entering = some st → st < 4 →
      let n := fld 3 0 (rd P.PMU R.PMU_REFUSAL_PTR s)
      let aborted (source : Nat) (o : Out) : Prop := ∃ t, o = .next t ∧ entering t = false ∧ t.dev.mode = .run ∧
        rd P.PMU R.PMU_ENTRY_ABORTED t = rd P.PMU R.PMU_ENTRY_ABORTED (count P.PMU R.PMU_ENTRY_ABORTED s) ∧
        rd P.PMU (R.PMU_REFUSAL_LOG + 4 * n) t = W (st * 2 ^ 30 + 2 ^ 29 + 0xFF00 + source)
      (∀ why m, bit 0 (rd P.PMU R.PMU_WAKE_EN s) = true → aborted 1 (exec (.wakeRing why m) s)) ∧
      (∀ m, bit 1 (rd P.PMU R.PMU_WAKE_EN s) = true → aborted 2 (exec (.wakePin m) s)) ∧
      (∀ m, bit 2 (rd P.PMU R.PMU_WAKE_EN s) = true → rd P.PMU R.PMU_WAKE_TIMER s ≠ 0 →
        aborted 3 (exec (.wakeTimer m) s)) ∧
      (∀ rq, Reaches rq P.PMU s → rq = .host → bit 3 (rd P.PMU R.PMU_WAKE_EN s) = true →
        aborted 4 (exec (.wakeNow rq) s)))

/-- PASS, ADD, ADC, SUB, SBC, CMP, ADDSS, SUBSS, ADDUS, SUBUS and ABS give the sum of Table 4.8, wrapped or clamped,
and its flags. Spec: 04_word_cells.md, Opcodes. -/
def Obligations.CellSumsAndSaturation : Prop :=
  (∀ (c : CellId) (s : State),
    let a := cellA c.val s
    let b := cellB c.val s
    let x := cellX c.val s
    let k := b2n x.c
    (CellGo c.val 0x00 s → exec (.pass c) s = .next (cellDone c.val a { x with z := a == 0, n := a.msb } s)) ∧
    (CellGo c.val 0x01 s → exec (.add c) s = .next (cellDone c.val (a + b) { x with
      z := a + b == 0, n := (a + b).msb, c := decide (2 ^ 32 ≤ a.toNat + b.toNat),
      v := decide ((a + b).toInt ≠ a.toInt + b.toInt) } s)) ∧
    (CellGo c.val 0x02 s → exec (.adc c) s = .next (cellDone c.val (a + b + W k) { x with
      z := a + b + W k == 0, n := (a + b + W k).msb, c := decide (2 ^ 32 ≤ a.toNat + b.toNat + k),
      v := decide ((a + b + W k).toInt ≠ a.toInt + b.toInt + (k : Int)) } s)) ∧
    (CellGo c.val 0x03 s → exec (.sub c) s = .next (cellDone c.val (a - b) { x with
      z := a - b == 0, n := (a - b).msb, c := decide (b.toNat ≤ a.toNat),
      v := decide ((a - b).toInt ≠ a.toInt - b.toInt) } s)) ∧
    (CellGo c.val 0x04 s → exec (.sbc c) s = .next (cellDone c.val (a + ~~~b + W k) { x with
      z := a + ~~~b + W k == 0, n := (a + ~~~b + W k).msb, c := decide (b.toNat + 1 ≤ a.toNat + k),
      v := decide ((a + ~~~b + W k).toInt ≠ a.toInt - b.toInt - 1 + (k : Int)) } s)) ∧
    (CellGo c.val 0x1A s → exec (.cmp c) s = .next (cellQuiet c.val { x with
      z := a - b == 0, n := (a - b).msb, c := decide (b.toNat ≤ a.toNat),
      v := decide ((a - b).toInt ≠ a.toInt - b.toInt) } s))) ∧
  (∀ (c : CellId) (s : State),
    let a := cellA c.val s
    let b := cellB c.val s
    let x := cellX c.val s
    (CellGo c.val 0x05 s → ∃ (r : Word) (v : Bool),
      exec (.addss c) s = .next (cellDone c.val r { x with z := r == 0, n := r.msb, v := v } s) ∧
      r.toInt = max (-(2 ^ 31)) (min (2 ^ 31 - 1) (a.toInt + b.toInt)) ∧ (v = true ↔ r.toInt ≠ a.toInt + b.toInt)) ∧
    (CellGo c.val 0x06 s → ∃ (r : Word) (v : Bool),
      exec (.subss c) s = .next (cellDone c.val r { x with z := r == 0, n := r.msb, v := v } s) ∧
      r.toInt = max (-(2 ^ 31)) (min (2 ^ 31 - 1) (a.toInt - b.toInt)) ∧ (v = true ↔ r.toInt ≠ a.toInt - b.toInt)) ∧
    (CellGo c.val 0x07 s → ∃ (r : Word) (d : Bool),
      exec (.addus c) s = .next (cellDone c.val r { x with z := r == 0, n := r.msb, c := d } s) ∧
      r.toNat = min (2 ^ 32 - 1) (a.toNat + b.toNat) ∧ (d = true ↔ r.toNat ≠ a.toNat + b.toNat)) ∧
    (CellGo c.val 0x08 s → ∃ (r : Word) (d : Bool),
      exec (.subus c) s = .next (cellDone c.val r { x with z := r == 0, n := r.msb, c := d } s) ∧
      r.toNat = a.toNat - b.toNat ∧ (d = true ↔ a.toNat < b.toNat)) ∧
    (CellGo c.val 0x19 s → ∃ (r : Word) (v : Bool),
      exec (.abs c) s = .next (cellDone c.val r { x with z := r == 0, n := r.msb, v := v } s) ∧
      r.toInt = min (2 ^ 31 - 1) (a.toInt.natAbs : Int) ∧ (v = true ↔ a = 0x80000000)))

/-- MULS, MULU and MULSU give the exact product, AND, OR, XOR, ANDN and TST the bitwise result, MIN, MAX, MINU and
MAXU the bound. Spec: 04_word_cells.md, Opcodes. -/
def Obligations.CellProductsLogicAndExtrema : Prop :=
  (∀ (c : CellId) (s : State),
    let a := cellA c.val s
    let b := cellB c.val s
    let x := cellX c.val s
    (CellGo c.val 0x09 s → ∃ r : Word,
      exec (.muls c) s = .next (cellDone c.val r { x with z := r == 0, n := r.msb } s) ∧
      r.toInt = (a.setWidth 16).toInt * (b.setWidth 16).toInt) ∧
    (CellGo c.val 0x0A s → ∃ r : Word,
      exec (.mulu c) s = .next (cellDone c.val r { x with z := r == 0, n := r.msb } s) ∧
      r.toNat = (a.toNat % 2 ^ 16) * (b.toNat % 2 ^ 16)) ∧
    (CellGo c.val 0x0B s → ∃ r : Word,
      exec (.mulsu c) s = .next (cellDone c.val r { x with z := r == 0, n := r.msb } s) ∧
      r.toInt = (a.setWidth 16).toInt * ((b.toNat % 2 ^ 16 : Nat) : Int))) ∧
  (∀ (c : CellId) (s : State),
    let a := cellA c.val s
    let b := cellB c.val s
    let x := cellX c.val s
    (CellGo c.val 0x0C s → exec (.and c) s = .next (cellDone c.val (a &&& b) { x with z := a &&& b == 0, n := (a &&& b).msb } s)) ∧
    (CellGo c.val 0x0D s → exec (.or c) s = .next (cellDone c.val (a ||| b) { x with z := a ||| b == 0, n := (a ||| b).msb } s)) ∧
    (CellGo c.val 0x0E s → exec (.xor c) s = .next (cellDone c.val (a ^^^ b) { x with z := a ^^^ b == 0, n := (a ^^^ b).msb } s)) ∧
    (CellGo c.val 0x0F s → exec (.andn c) s =
      .next (cellDone c.val (a &&& ~~~b) { x with z := a &&& ~~~b == 0, n := (a &&& ~~~b).msb } s)) ∧
    (CellGo c.val 0x1B s → exec (.tst c) s = .next (cellQuiet c.val { x with z := a &&& b == 0, n := (a &&& b).msb } s))) ∧
  (∀ (c : CellId) (s : State),
    let a := cellA c.val s
    let b := cellB c.val s
    let x := cellX c.val s
    (CellGo c.val 0x15 s → ∃ r : Word,
      exec (.min c) s = .next (cellDone c.val r { x with z := r == 0, n := r.msb } s) ∧
      r.toInt = min a.toInt b.toInt) ∧
    (CellGo c.val 0x16 s → ∃ r : Word,
      exec (.max c) s = .next (cellDone c.val r { x with z := r == 0, n := r.msb } s) ∧
      r.toInt = max a.toInt b.toInt) ∧
    (CellGo c.val 0x17 s → ∃ r : Word,
      exec (.minu c) s = .next (cellDone c.val r { x with z := r == 0, n := r.msb } s) ∧
      r.toNat = min a.toNat b.toNat) ∧
    (CellGo c.val 0x18 s → ∃ r : Word,
      exec (.maxu c) s = .next (cellDone c.val r { x with z := r == 0, n := r.msb } s) ∧
      r.toNat = max a.toNat b.toNat))

/-- Shifts and rotates move the last bit to C; CLZ, LCNT, TAPO, SEL, EMIT and DBNZ give the results of Table 4.8.
Spec: 04_word_cells.md, Opcodes; 04_word_cells.md, Instruction format. -/
def Obligations.CellShiftsCountsAndChoices : Prop :=
  (∀ (c : CellId) (s : State),
    let a := cellA c.val s
    let k := (cellB c.val s).toNat % 32
    let x := cellX c.val s
    (CellGo c.val 0x10 s → ∃ r : Word,
      exec (.shl c) s = .next (cellDone c.val r { x with
        z := r == 0, n := r.msb, c := if k = 0 then x.c else (a.toNat / 2 ^ (32 - k)) % 2 == 1 } s) ∧
      r.toNat = a.toNat * 2 ^ k % 2 ^ 32) ∧
    (CellGo c.val 0x11 s → ∃ r : Word,
      exec (.shr c) s = .next (cellDone c.val r { x with
        z := r == 0, n := r.msb, c := if k = 0 then x.c else (a.toNat / 2 ^ (k - 1)) % 2 == 1 } s) ∧
      r.toNat = a.toNat / 2 ^ k) ∧
    (CellGo c.val 0x12 s → ∃ r : Word,
      exec (.sar c) s = .next (cellDone c.val r { x with
        z := r == 0, n := r.msb, c := if k = 0 then x.c else (a.toNat / 2 ^ (k - 1)) % 2 == 1 } s) ∧
      r.toInt = a.toInt / 2 ^ k) ∧
    (CellGo c.val 0x13 s → ∃ r : Word,
      exec (.rol c) s = .next (cellDone c.val r { x with
        z := r == 0, n := r.msb, c := if k = 0 then x.c else r.getLsbD 0 } s) ∧
      ∀ j, j < 32 → r.getLsbD ((j + k) % 32) = a.getLsbD j) ∧
    (CellGo c.val 0x14 s → ∃ r : Word,
      exec (.ror c) s = .next (cellDone c.val r { x with
        z := r == 0, n := r.msb, c := if k = 0 then x.c else r.msb } s) ∧
      ∀ j, j < 32 → r.getLsbD j = a.getLsbD ((j + k) % 32))) ∧
  (∀ (c : CellId) (s : State),
    let i := cellInsn c.val s
    let f := cellFetched c.val s
    let a := cellA c.val s
    let b := cellB c.val s
    let x := cellX c.val s
    (CellGo c.val 0x1D s → ∃ r : Word,
      exec (.clz c) s = .next (cellDone c.val r { x with z := r == 0, n := false } s) ∧ r.toNat ≤ 32 ∧
      (∀ j, j < r.toNat → a.getLsbD (31 - j) = false) ∧ (r.toNat < 32 → a.getLsbD (31 - r.toNat) = true)) ∧
    (CellGo c.val 0x1E s → exec (.lcnt c) s = .next (cellDone c.val a { x with cnt := a.setWidth 16 } s)) ∧
    (CellGo c.val 0x24 s → exec (.tapo c) s =
      .next (settleLogic (c.val / 256) (cellDone c.val a { x with tapNext := some (a.setWidth 16) } s))) ∧
    (CellGo c.val 0x1C s → ∃ yes : Bool,
      yes = condHolds i.cond x f.consumed (inWord c.val (rdySel c.val f.st) f.st).isSome ∧
      exec (.sel c) s = .next (writeResult c.val i (some (resultWord (resTag i f) (if yes then a else b))) f.consumed
        (some yes) (setCell c.val (bumpBp (advancesBp i) x) f.st))) ∧
    (CellGo c.val 0x22 s → exec (.emit c) s = .next (writeResult c.val i
      (some (resultWord (tagOf (b.toNat % 8)) a)) f.consumed none (setCell c.val (bumpBp (advancesBp i) x) f.st)))) ∧
  (∀ (c : CellId) (s : State), issues c.val 0x1F s = true →
    ∃ k : BitVec 16, k.toNat = (cell c.val s).cnt.toNat - 1 ∧
      exec (.dbnz c) s = .next (writeResult c.val (curInsn c.val s)
        (some (resultWord (tagact (curInsn c.val s).tagact .data .data) (k.setWidth 32))) none (some (!(k == 0)))
        (setCell c.val { cell c.val s with cnt := k, z := k == 0 } s)))

/-- BANK operands, LD and ST wait for the tile's bank; LD and ST access it at A plus the immediate, and set BP to the
word after it. Spec: 04_word_cells.md, Opcodes; 04_word_cells.md, Execution and stalls. -/
def Obligations.CellBankAccessSetsBp : Prop :=
  ∀ (c : CellId) (s : State),
    let i := curInsn c.val s
    let f := fetch c.val i s
    let adr := (f.a.data.toNat + i.imm.toNat) % 8192
    let waits (w : BankWait) : State :=
      mdCell c.val (fun x => { x with issued := some ⟨i, f.a, f.b, f.consumed, some w, zeroWord⟩ }) f.st
    let j := cellInsn c.val s
    let g := cellFetched c.val s
    let u := mdCell c.val (fun x => { x with
      bp := BitVec.ofNat 13 (((cellA c.val s).toNat + j.imm.toNat) % 8192 + 1) }) g.st
    (∀ p ∈ cellCommands c, issues c.val p.1 s = true → namesBank i = true →
      exec p.2 s = .next (cellSettle p.1 c.val (waits .operand))) ∧
    (issues c.val 0x20 s = true → namesBank i = false → faultOperand c.val i f = none →
      exec (.ld c) s = .next (waits (.load adr))) ∧
    (issues c.val 0x21 s = true → namesBank i = false → faultOperand c.val i f = none →
      exec (.st c) s = .next (waits (.store adr (resultWord (resTag i f) f.b.data)))) ∧
    (CellGo c.val 0x20 s →
      let w := cellWord c.val s
      let d := if w.tag = .null then 0 else w.data
      (w.tag = .fault ∧ fltPass c.val u = false → exec (.ld c) s =
        .next (writeResult c.val j (some (tw .fault w.data)) g.consumed none u)) ∧
      (¬(w.tag = .fault ∧ fltPass c.val u = false) → exec (.ld c) s =
        .next (writeResult c.val j (some (resultWord (resTag j g) d)) g.consumed none
          (mdCell c.val (fun x => { x with z := d == 0, n := d.msb }) u)))) ∧
    (CellGo c.val 0x21 s → exec (.st c) s = .next (complete c.val j g.consumed none u))

/-- WAIT, HALT, reserved entries and stalled outputs; FAULT operands; a cell that does not issue. Spec:
04_word_cells.md, Instruction format; 04_word_cells.md, Execution and stalls; 04_word_cells.md, Tags at the ports.
That a command of an opcode that the cell does not issue changes nothing is the model's choice (log entry 6), and so
is the DETAIL 0 of a reserved entry (log entry 107). -/
def Obligations.CellWaitsHaltsAndFaultOperands : Prop :=
  (∀ (c : CellId) (s : State),
    let pg := P.RGN (c.val / 256)
    let h := setCell c.val { cell c.val s with halted := true } s
    (issues c.val 0x23 s = true → exec (.wait c) s = .next (complete c.val (curInsn c.val s) none none s)) ∧
    (issues c.val 0x25 s = true → exec (.halt c) s =
      .next (irq pg 8 (wr pg R.RGN_HALT_CAUSE_LAST (W (c.val % 256)) h))) ∧
    (cellReady c.val s = true → (cell c.val s).issued = none → reservedInsn (curInsn c.val s) = true →
      exec (.cellReservedHalt c) s = .next (err pg E.PERM_FAULT 0 0 (irq pg 8
        (wr pg R.RGN_HALT_CAUSE_LAST (W (E.PERM_FAULT * 2 ^ 24 + c.val % 256)) h)))) ∧
    (∀ st, (cell c.val s).stall = some st → regionRuns (c.val / 256) s = true → st.dst ≠ 6 →
      outRoom c.val (st.dst - 4) s = true → exec (.cellOutputAccept c) s =
        .next (settleLogic (c.val / 256)
          (complete c.val (curInsn c.val s) st.consumed st.taken (putOut c.val (st.dst - 4) st.word s)))) ∧
    (∀ st, (cell c.val s).stall = some st → regionRuns (c.val / 256) s = true → st.dst = 6 →
      (cell c.val s).posted = none → exec (.cellOutputAccept c) s =
        .next (settleLogic (c.val / 256)
          (complete c.val (curInsn c.val s) st.consumed st.taken (setCell c.val { cell c.val s with
            posted := some ((cell c.val s).bp, st.word), bp := (cell c.val s).bp + 1 } s))))) ∧
  (∀ (c : CellId) (s : State) (w : TWord),
    let i := cellInsn c.val s
    let f := cellFetched c.val s
    faultOperand c.val i f = some w →
    ∀ p ∈ cellCommands c, CellRuns c.val p.1 s →
      exec p.2 s = .next (cellSettle p.1 c.val
        (if p.1 ∈ [0x1A, 0x1B, 0x21, 0x24, 0x1E] then complete c.val i f.consumed none f.st
         else writeResult c.val i (some (tw .fault w.data)) f.consumed none
           (setCell c.val (bumpBp (advancesBp i) (cell c.val f.st)) f.st)))) ∧
  (∀ (c : CellId) (s : State),
    (∀ p ∈ cellCommands c, issues c.val p.1 s = false → ¬CellRuns c.val p.1 s →
      exec p.2 s = .next (cellSettle p.1 c.val s)) ∧
    (issues c.val 0x1F s = false → exec (.dbnz c) s = .next s) ∧
    (issues c.val 0x23 s = false → exec (.wait c) s = .next s) ∧
    (issues c.val 0x25 s = false → exec (.halt c) s = .next s))

/-- A crossing checks each word, returns credits and verdicts, replays and retires; a retired port takes the lowest
free spare. Spec: 02_tagged_words.md, Parity checking and replay; 01_levels_and_islands.md, Handshake crossings;
07_word_crossbar.md, Replays, retirement and spare ports. -/
def Obligations.CrossingsCreditsAndSpares : Prop :=
  (∀ (c : ChanId) (upset : Bool) (s : State) (w : TWord) (replay : Bool) (rest : List (TWord × Bool)),
    chanLive c s = true → (chan c s).flight = (w, replay) :: rest →
    let x := chan c s
    let v := if upset then corrupt w else w
    (c ≠ .ringOut → c ≠ .svcDown 5 → c ≠ .svcDown 6 →
      (x.rejecting = true → replay = false →
        exec (.crossingWord c upset) s = .next (settleTap c (setChan c { x with flight := rest } s))) ∧
      (x.rejecting = false ∨ replay = true → parGood v = false →
        let y := setChan c { x with flight := rest, rejecting := true, verdicts := x.verdicts ++ [false] } s
        exec (.crossingWord c upset) s = .next (settleTap c (match c with
          | .mesh q _ => tileEvent (q.val / 16) 0x0C (errTransient (chanPage c) y)
          | .tpIn j => tileEvent (j.val / 2) 0x0C (errTransient (chanPage c) y)
          | _ => errTransient (chanPage c) y)))) ∧
    (c ≠ .svcDown 5 → c ≠ .svcDown 6 → x.rejecting = false ∨ replay = true → parGood v = true → x.route = none →
      let y := { x with flight := rest, rejecting := false, verdicts := x.verdicts ++ [true], buffer := x.buffer ++ [v] }
      ∃ t, exec (.crossingWord c upset) s = .next t ∧ t.banks = s.banks ∧
        (c = .ringOut → chan c t = { y with buffer := [], owed := x.owed + (x.buffer.length + 1) }) ∧
        (c ≠ .ringOut → gathers c = false → chan c t = y) ∧
        (gathers c = true → chan c t = chan c (takeMsg c (setChan c y s))))) ∧
  (∀ (c : ChanId) (s : State), chanLive c s = true →
    let x := chan c s
    (x.owed ≠ 0 → exec (.creditReturn c) s =
      (let t := advanceHolder c (pump c (setChan c { x with owed := x.owed - 1, credits := min (x.credits + 1) (creditsOf c) } s))
       .next (settleTap c (if c = .ringOut then ringPump t else t)))) ∧
    (x.owed = 0 → c ≠ .ringOut → exec (.creditReturn c) s = .next (settleTap c s)) ∧
    (∀ vs, x.verdicts = true :: vs → c ≠ .ringOut → exec (.parityVerdict c) s =
      .next (pump c (setChan c { x with verdicts := vs, retained := x.retained.tail, fails := 0 } s))) ∧
    (∀ vs w r, x.verdicts = false :: vs → x.retained = w :: r → x.fails < 3 → c ≠ .ringOut → c ≠ .ringIn →
      exec (.parityVerdict c) s = .next (setChan c { x with
        verdicts := vs, fails := x.fails + 1,
        flight := x.flight ++ (w, true) :: r.map (fun y => (y, false)) } s)) ∧
    (∀ vs, x.verdicts = false :: vs → 3 ≤ x.fails → c ≠ .ringOut →
      exec (.parityVerdict c) s = .next (retire c s))) ∧
  (∀ (p : PortId) (s : State), remapping p.val s = true →
    let free (k : Nat) : Bool := !bit k (rd P.XB R.XB_STAT s) && !bit (8 + k) (rd P.XB R.XB_STAT s)
    let pg := P.RGN (p.val / 8)
    (∀ k, k < 8 → free k = true → (∀ j, j < k → free j = false) →
      let t := s |> wr P.XB (R.XB_SPARE + 4 * k) (setBit 31 true (W p.val))
                 |> md P.XB R.XB_STAT (setBit k true)
                 |> md pg R.RGN_SW_STAT (setBit (16 + p.val % 8) true)
                 |> irq pg 16
                 |> mdChan (.portUp p) (fun x => { x with retired := false, credits := 16 - x.buffer.length })
                 |> mdChan (.portDown p) (fun x => { x with retired := false, credits := 16 - x.buffer.length })
                 |> pump (.portUp p) |> pump (.portDown p) |> release (.portUp p) |> release (.portDown p)
      exec (.spareRemap p) s = .next (grantNext (.portDown p) (grantNext (.portUp p) t))) ∧
    ((∀ k, k < 8 → free k = false) → exec (.spareRemap p) s = .next (s
      |> setArr P.XB R.XB_PORT_ABSENT p.val true
      |> md pg R.RGN_SW_STAT (setBit (24 + p.val % 8) true)
      |> irq pg 16 |> irq P.XB 1 |> forsake (.portUp p) |> forsake (.portDown p))))

/-- Region switches and the crossbar decode the route word, drop absent routes and stray words, and grant freed
outputs in order. Spec: 07_word_crossbar.md, Routing; 02_tagged_words.md, Messages; 02_tagged_words.md, Routing and
ordering. -/
def Obligations.SwitchesRouteMessages : Prop :=
  (∀ (s : State) (h r : TWord) (rest : List TWord), h.tag = .head → r.tag = .data →
    (∀ (j : Fin 2048), let inp : ChanId := .tpOut j
      let up := replyPort j.val s
      chanLive inp s = true → (chan inp s).route = none → (chan inp s).buffer = h :: r :: rest →
      tileHeadHeld (j.val / 32) s = false → portAbsent up s = false →
      (∀ p o, decodeRoute (ownNode s) r.data = .port p → p / 8 = j.val / 32 → uplinkEn p s = true → portAbsent p s = false →
        uplinkOut p (fld 31 24 h.data) s = some o →
        exec (.switchMessageRoute inp) s = .next (openMsg inp o h.data r.data (routePort up) s)) ∧
      (∀ p, decodeRoute (ownNode s) r.data = .port p → p / 8 ≠ j.val / 32 → remapping up s = false →
        exec (.switchMessageRoute inp) s = .next (openMsg inp (.portUp (portId up)) h.data r.data r.data s)) ∧
      (decodeRoute (ownNode s) r.data = .absent →
        exec (.switchMessageRoute inp) s = .next (dropAbsent inp h.data r.data s))) ∧
    (∀ (p : PortId) (k : Nat), let inp : ChanId := .portUp p
      let u := (List.range k).foldl (fun t _ => errTransient P.XB t) s
      chanLive inp s = true → portUnderSlice p.val s = false → k < 4 → takesWork P.XB u = true →
      (chan inp s).route = none → (chan inp s).buffer = h :: r :: rest → remapping p.val s = false →
      (∀ q, crossbarOut r.data u = some (.portDown q) → remapping q.val u = false → exec (.crossbarRoute ⟨inp, k⟩) s =
        .next (openMsg inp (.portDown q) h.data r.data (deliveredAs inp (routePort p.val) s) u)) ∧
      (crossbarOut r.data u = none → exec (.crossbarRoute ⟨inp, k⟩) s = .next (dropAbsent inp h.data r.data u)))) ∧
  (∀ (s : State),
    (∀ (j : Fin 2048) (w : TWord) (rest : List TWord), let inp : ChanId := .tpOut j
      chanLive inp s = true → (chan inp s).route = none → (chan inp s).buffer = w :: rest → w.tag ≠ .head →
      exec (.switchMessageRoute inp) s = .next (popBuffer inp s
        |> count (P.RGN (j.val / 32)) R.RGN_SW_STRAY |> irq (P.RGN (j.val / 32)) 17
        |> count P.XB R.XB_STRAY_WORDS |> irq P.XB 2)) ∧
    (∀ (o i : ChanId) (d : BitVec 64), let x := chan o s
      let turn (k : ChanId) : Nat := (inputNo k + 1023 - x.served) % 1024
      chanLive o s = true → x.holder = none → x.retired = false → x.waiting.head?.map (·.2) = some d → (i, d) ∈ x.waiting →
      (∀ e ∈ x.waiting, e.2 = d → e.1 ≠ i → turn i < turn e.1) → exec (.headOutputGrant o) s =
        .next (advanceAll i (setChan o { x with
          holder := some i, served := inputNo i, waiting := x.waiting.filter (fun e => e.1 != i) } s))))

/-- PARAM pends its rewrites, a commit makes them live at once or at the next HEAD, a latch that fails twice falls
back. Spec: 04_word_cells.md, Live parameter update. What a held commit takes, and how a further commit merges with
it, is log entry 100; a commit with a payload is log entry 106. -/
def Obligations.ParamsArePendedAndCommitted : Prop :=
  (∀ (p : PortId) (s : State) (m : Msg),
    let r := p.val / 8
    let t := dropMsg (.paramUnit (regionId r)) s
    unitMsg p.val s = some m → m.status = 0 → uplinkMask p.val s ≠ 0 → m.payload.length = m.len →
    (m.cls = 0x03 → m.len ≠ 0 → (∀ w ∈ m.payload, rewriteOk (uplinkMask p.val s) (rewriteWord w) = true) →
      exec (.param p) s = .next (setFab { t.fab with
        pend := m.payload.foldl (fun pd w => tins (rewriteKey r (rewriteWord w)) ((rewriteWord w).setWidth 16) pd) t.fab.pend } t)) ∧
    (m.cls = 0x03 → (∃ w ∈ m.payload, rewriteOk (uplinkMask p.val s) (rewriteWord w) = false) →
      exec (.param p) s = .next (irq (P.RGN r) 9 (count (P.RGN r) R.RGN_PARAM_REJECTS t))) ∧
    (m.cls = 0x04 → commitAtHead p.val s = false →
      let vs := pendingIn p.val (allPending t) t
      exec (.paramCommit p) s = .next (applyCommit r vs (setFab { t.fab with
        pend := clearPending vs t.fab.pend, held := t.fab.held.map (fun h => (h.1, clearPending vs h.2)) } t))) ∧
    (m.cls = 0x04 → commitAtHead p.val s = true →
      (∀ vs, tfind t.fab.held p.val = some vs → exec (.paramCommit p) s = .next t) ∧
      (tfind t.fab.held p.val = none →
        let vs := pendingIn p.val t.fab.pend t
        exec (.paramCommit p) s = .next (setFab { t.fab with
          held := tins p.val vs t.fab.held, pend := clearPending vs t.fab.pend } t)))) ∧
  (∀ (p : PortId) (s : State) (vs : SMap (BitVec 16)),
    let j := tpId (uplinkTp p.val s)
    tfind s.fab.held p.val = some vs → chanLive (.tpIn j) s = true → headArrives j false s = true →
    (∀ q, q / 8 = p.val / 8 → q ≠ p.val → uplinkTp q s = uplinkTp p.val s → tfind s.fab.held q = none) →
    ∃ t, exec (.heldCommitApply p) s = .next t ∧ exec (.crossingWord (.tpIn j) false) s = .next t ∧
      tfind t.fab.held p.val = none ∧
      (∀ k v, tfind vs k = some v → liveImm (k / 8) (k % 8) t = v) ∧
      (∀ k, tfind vs k = none → liveImm (k / 8) (k % 8) t = liveImm (k / 8) (k % 8) s) ∧
      t.fab.pend = s.fab.pend ∧
      rd (P.RGN (p.val / 8)) R.RGN_PARAM_GEN t = satAdd (rd (P.RGN (p.val / 8)) R.RGN_PARAM_GEN s) 1 ∧
      t.fab.cells = s.fab.cells ∧ t.banks = s.banks) ∧
  (∀ (c : CellId) (e : Fin 8) (s : State),
    let pg := P.RGN (c.val / 256)
    exec (.paramLatchParity c e false) s = .next (tileEvent (c.val / 16) 0x0C (errTransient pg s)) ∧
    exec (.paramLatchParity c e true) s = .next (s
      |> setFab { s.fab with live := tdel (c.val * 8 + e.val) s.fab.live }
      |> md pg R.RGN_PARAM_LOST (fun w => setFld 10 0 (c.val % 256 * 8 + e.val) (satFld 31 16 w))
      |> err pg E.PARITY 0 0 |> irq pg 10) ∧
    (∃ t, exec (.paramLatchParity c e true) s = .next t ∧ liveImm c.val e.val t = configImm c.val e.val s))

/-- A MAC operation accumulates the exact product in 80 bits, saturated where AS is set and wrapped where it is not.
Spec: 06_mac_slices.md, The datapath. -/
def Obligations.MacAccumulatesExactly : Prop :=
  ∀ (m : MacId) (lost : Bool) (s : State) (g : MacTrig) (rest : List MacTrig),
    (mac m.val s).trig = g :: rest → regionRuns (m.val / 32) s = true → macEnabled m.val s = true →
    let t := setMac m.val { mac m.val s with trig := rest } s |> tileEvent (m.val / 2) 0x08
    exec (.macIssue m lost) s = .next (triggerSucc m.val g.tag (macOp m.val g lost t)) ∧
    (let cfg := macWord m.val 0 t
     let z : Int := if usesP (fld 8 7 cfg) (bit 10 cfg && g.tag == .head) then (mac m.val t).p.toInt else 0
     let prod : Int := (if bit 3 cfg then g.a.data.toInt else (g.a.data.toNat : Int)) * b24 (bit 4 cfg) g.b1.data
     let v := if bit 9 cfg then z - prod else z + prod
     g.a.tag ≠ .fault → g.b1.tag ≠ .fault → fld 6 5 cfg = 0 → usesCin (fld 8 7 cfg) = false →
     parity80 (mac m.val t).p = (mac m.val t).ppar → (mac m.val t).pf = false →
     let x := mac m.val (macOp m.val g lost t)
     x.pf = false ∧ x.ppar = parity80 x.p ∧ x.p = BitVec.ofInt 80
       (if bit 11 cfg then max (-(2 ^ 79)) (min (2 ^ 79 - 1) v) else v))

/-- A tap item crosses to the neighbour region; a clock edge settles and clocks the groups of its line, and none while
GSR is asserted. Spec: 05_tiles_logic_routing.md, Border taps and pin taps; 05_tiles_logic_routing.md, Clocks, GSR and
keep slots; 05_tiles_logic_routing.md, Logic slices. The credits of a tap group and the length of a settling follow
log entries 17 and 18. -/
def Obligations.TapItemsAndClockEdges : Prop :=
  (∀ (r : RegionId) (side : Dir) (g : Fin 8) (pins : BitVec 16) (s : State) (m : Nat),
    let back := dirCode (opposite side)
    let k := tapKey m back g.val
    g.val < 4 → regionNext r.val side = some m → clockRuns r.val 0 s = true → regionOn m s = true →
    inboundHeld m back s = false → outStream r.val (dirCode side) g.val s = false →
    (tapGroup k s).items.length < 16 → (tapGroup k s).replay = none →
    ∃ t, exec (.tapItemTransfer r side g 0 pins) s = .next t ∧
      (tapGroup k t).items = (tapGroup k s).items ++ [groupItem r.val (dirCode side) g.val s] ∧
      t.banks = s.banks ∧ t.fab = s.fab ∧ t.regs = s.regs) ∧
  (∀ (r : RegionId) (cg : Fin 5) (s : State),
    let sl := slicesInUse r.val s
    (clockRuns r.val cg.val s = false → exec (.islandClockEdge r cg) s = .next s) ∧
    (clockRuns r.val cg.val s = true → cg.val ≠ 0 → (rgn r.val s).gsr = true →
      exec (.islandClockEdge r cg) s = .next s) ∧
    (clockRuns r.val cg.val s = true → cg.val ≠ 0 → (rgn r.val s).gsr = false → exec (.islandClockEdge r cg) s =
      .next (asyncSettle 1536 r.val sl (clockGroups r.val cg.val sl (asyncSettle 1536 r.val sl s)))) ∧
    (clockRuns r.val 0 s = true → ∃ t, exec (.islandClockEdge r 0) s = .next t ∧
      t.banks.words = s.banks.words ∧ t.sched = s.sched ∧ t.planes = s.planes ∧ t.flash = s.flash))

/-- A bank write stores the word in every copy, NULL with data zero, leaves every other word, and a read gives it
back. Spec: 08_memory_banks.md, Organisation and addressing; 08_memory_banks.md, Stored parity, mirroring and
retirement; 02_tagged_words.md, Tags. -/
def Obligations.BankWriteStoresAndKeepsOtherWords : Prop :=
  ∀ (b w : Nat) (x : TWord) (s : State), w < 8192 → parGood x = true → bankAbsent b s = false → copies b s ≠ [] →
    (∀ c, c ∈ copies b s → bankWord c w (writeBank b w x s).2 = (if x.tag = .null then nullWord else x)) ∧
    (∀ b' w', w' < 8192 → (b' ∉ copies b s ∨ w' ≠ w) → bankWord b' w' (writeBank b w x s).2 = bankWord b' w' s) ∧
    (readBank b w (writeBank b w x s).2).1 = (if x.tag = .null then nullWord else x)

/-- Accesses of the bank range and its aliases enter the bank's port as requests; misaligned ones are refused. Spec:
08_memory_banks.md, Organisation and addressing; 08_memory_banks.md, Aliases; 01_levels_and_islands.md, The device
address map. -/
def Obligations.BankAccessesAndAliases : Prop :=
  (∀ (rq : Requester) (o : Nat) (v : BitVec 64) (s : State), o < 0x2000000 → attached rq s = true → s.dev.mode ≠ .scan →
    let b := o / 0x8000
    let w := o % 0x8000 / 4
    let at_ (a : Nat) : BitVec 40 := BitVec.ofNat 40 (a + o)
    (o % 4 ≠ 0 → banksServed s = true → exec (.hostBankAccess rq (at_ 0x10000000) 4 true v) s =
      .next (deliverCode rq E.PERM_FAULT (err (P.RGN (b / 16)) E.PERM_FAULT 0 (0x10000000 + o) s))) ∧
    (o % 4 = 0 → banksServed s = true →
      exec (.hostBankAccess rq (at_ 0x10000000) 4 true v) s =
        .next (enterReq ⟨rq, none, w, .write (tw .data (lo32 v)), false, 0⟩ b s) ∧
      exec (.hostBankAccess rq (at_ 0x20000000) 4 true v) s =
        .next (enterReq ⟨rq, none, w, .rmw .bitSet (lo32 v), false, 0⟩ b s) ∧
      exec (.hostBankAccess rq (at_ 0x30000000) 4 true v) s =
        .next (enterReq ⟨rq, none, w, .rmw .bitClear (lo32 v), false, 0⟩ b s) ∧
      exec (.hostBankAccess rq (at_ 0x38000000) 4 true v) s =
        .next (enterReq ⟨rq, none, w, .rmw .tagView (lo32 v), false, 0⟩ b s)) ∧
    (rq = .host → o % 4 = 0 → o + 4 < 0x2000000 → banksServed s = true →
      exec (.hostBankAccess rq (at_ 0x10000000) 8 true v) s =
        .next (enterReq ⟨.host, none, (o + 4) % 0x8000 / 4, .write (tw .data (hi32 v)), false, 0⟩ ((o + 4) / 0x8000)
          (enterReq ⟨.host, none, w, .write (tw .data (lo32 v)), false, 0⟩ b s))) ∧
    (o % 4 = 0 → banksServed s = true → (rq = .host → hostReading s = false ∧ s.io.hostWait = []) →
      exec (.hostBankAccess rq (at_ 0x10000000) 4 false v) s = .next (enterReq ⟨rq, none, w, .read, false, 0⟩ b s) ∧
      exec (.hostBankAccess rq (at_ 0x38000000) 4 false v) s = .next (enterReq ⟨rq, none, w, .tagRead, false, 0⟩ b s)) ∧
    (rq = .host → hostReading s = true → exec (.hostBankAccess rq (at_ 0x10000000) 4 false v) s =
      .next (setIo { s.io with hostWait := s.io.hostWait ++ [(0x10000000 + o, 4)] } s))) ∧
  (∀ (rq : Requester) (k : AliasKind) (b : BankId) (w : Fin 8192) (v : Word) (s : State),
    attached rq s = true → s.dev.mode ≠ .scan → bankAbsent b.val s = false → copies b.val s ≠ [] →
    (banksServed s = true → (k ≠ .tagView ∨ fld 31 3 v = 0) → exec (.aliasWrite rq k b w v) s = .next
      (mdBankPort b.val (fun x => if rq = .steward then { x with stew := x.stew ++ [⟨rq, none, w.val, .rmw k v, false, 0⟩] }
        else { x with queue := x.queue ++ [⟨rq, none, w.val, .rmw k v, false, 0⟩] }) s)) ∧
    (banksServed s = true → k = .tagView → fld 31 3 v ≠ 0 →
      exec (.aliasWrite rq k b w v) s = .next (deliverCode rq E.PERM_FAULT s)) ∧
    (banksServed s = false → (rq = .steward → s.dev.bankClear = false) → exec (.aliasWrite rq k b w v) s =
      .next (if rq = .host ∧ beforeWe s = true then err P.DEV E.PERM_FAULT 0 (aliasAddr k b.val w.val) s else s)))

/-- A bank port grants the steward, then cells and LUT logic in rotation, then the queue; the hardware clear zeroes
every bank not retained. Spec: 08_memory_banks.md, The bank port and its arbitration; 08_memory_banks.md, Clearing and
repair; 04_word_cells.md, Execution and stalls. A bank cycle is one BANK_GRANT (log entry 39); the order of the
rotation is log entry 114. -/
def Obligations.BankPortsGrantAndClear : Prop :=
  (∀ (b : BankId) (s : State), bankClocked b.val s = true → s.dev.bankClear = false →
    let r := rerank b.val s
    let x := bankPort b.val r
    let ends (g : State) : Out :=
      let u := settleLogic (b.val / 16) (settleExcl b.val g)
      .next (hostResume u.io.hostWait.length u)
    (∀ q rest, x.stew = q :: rest → q.op = .read →
      let t := readBank b.val q.word (mdBankPort b.val (fun y => { y with stew := rest }) r)
      exec (.bankGrant b) s = ends (denyCycles (1 + readCost b.val q.word r) b.val (giveWord q t.1 t.2))) ∧
    (∀ k w v, x.stew = [] → k < 16 → nextCompute b.val r = some k → (cell (16 * b.val + k) r).posted = some (w, v) →
      let t := tileEvent b.val 0x05 (mdBankPort b.val (fun y => { y with last := k }) r)
      exec (.bankGrant b) s = ends (denyCycles 1 b.val (writeBank b.val w.toNat v
        (setCell (16 * b.val + k) { cell (16 * b.val + k) t with posted := none } t)).2)) ∧
    (∀ q, x.stew = [] → nextCompute b.val r = some 16 → x.lut = some q → q.op = .read →
      let t := readBank b.val q.word (mdBankPort b.val (fun y => { y with lut := none, lutGnt := true })
        (tileEvent b.val 0x05 (mdBankPort b.val (fun y => { y with last := 16 }) r)))
      exec (.bankGrant b) s = ends (denyCycles (1 + readCost b.val q.word r) b.val
        (mdBankPort b.val (fun y => { y with lutReads := y.lutReads ++ [(3, t.1)] }) t.2))) ∧
    (∀ q rest v, x.stew = [] → nextCompute b.val r = none → x.queue = q :: rest → q.op = .write v →
      let t := writeBank b.val q.word v (mdBankPort b.val (fun y => { y with queue := rest }) r)
      exec (.bankGrant b) s = ends (tileEvent b.val 0x06 (starveCheck b.val q (waitRank3 b.val
        (giveCode q (if t.1 then E.NONE else E.ABSENT_TARGET) t.2))))) ∧
    (x.stew = [] → nextCompute b.val r = none → x.queue = [] → exec (.bankGrant b) s = ends r)) ∧
  (∀ (s : State), s.dev.bankClear = true →
    ∃ t, exec .bankClearDone s = .next t ∧ t.dev.bankClear = false ∧
      ∀ b w, w < 8192 → bankWord b w t =
        (if s.dev.loadKind = .wakeSleep ∧ inMask (rd64 P.PMU R.PMU_RETAIN_LO s) (b / 16) = true then bankWord b w s
         else zeroWord))

/-- READY, CANCEL, ABANDON, DISABLE and ENABLE act in their stage or wait for it, and change one task; a reset keeps
the configuration. Spec: 09_task_scheduler.md, Tasks and their contexts; 09_task_scheduler.md, One scheduler cycle;
09_task_scheduler.md, Swaps, absent engines and stuck tasks. How commands of the table make up a scheduler cycle is
log entry 22. -/
def Obligations.SchedulerCommandsAndReset : Prop :=
  (∀ (rq : Requester) (t : TaskId) (s : State), Reaches rq P.SCH0 s →
    let c := ctx t.val s
    let x := s.sched.cyc
    let rest (u : State) : Prop := (∀ j, j ≠ t.val → ctx j u = ctx j s) ∧ u.banks = s.banks ∧ u.sched.args = s.sched.args
    let waits (op : Nat) : State :=
      setSched { s.sched with cmd := some (op, t.val) } (wr P.SCH0 R.SCH0_CMD_STAT (W (op * 2 ^ 12 + t.val)) s)
    (s.sched.cmd = none → schedRuns s = true → x.stage < 3 → x.cancelled ≠ some t.val →
      (c.state = .idle → ∃ u, exec (.schCmdReady rq t) s = .next u ∧ rest u ∧ ctx t.val u =
        { c with state := .ready, evtWord := 0, overruns := sat16 c.overruns 0, deadline := activeDeadline c s }) ∧
      (c.state = .ready → ∃ u, exec (.schCmdReady rq t) s = .next u ∧ rest u ∧
        ctx t.val u = { c with overruns := sat16 c.overruns 1 })) ∧
    (s.sched.cmd = none → schedRuns s = true → x.stage < 1 →
      (c.state = .ready → ∃ u, exec (.schCmdCancel rq t) s = .next u ∧ rest u ∧
        ctx t.val u = { c with state := .idle, again := false } ∧ u.sched.cyc.cancelled = some t.val) ∧
      (c.state = .running → ∃ u, exec (.schCmdCancel rq t) s = .next u ∧ rest u ∧
        ctx t.val u = { c with cancelPending := true } ∧ u.sched.cyc.cancelled = some t.val) ∧
      (c.onEngine = true → ∃ u, exec (.abandon rq t) s = .next u ∧ rest u ∧ ctx t.val u =
        { c with state := .idle, lastStatus := 0x04, cancelPending := false, again := false }) ∧
      (c.onEngine = true → ∃ u, exec (.disable rq t) s = .next u ∧ rest u ∧ ctx t.val u =
        { c with state := .disabled, lastStatus := 0x04, cancelPending := false, again := false }) ∧
      (c.state = .idle → ∃ u, exec (.disable rq t) s = .next u ∧ rest u ∧ ctx t.val u = { c with state := .disabled }) ∧
      (c.state = .disabled → ∃ u, exec (.enable rq t) s = .next u ∧ rest u ∧ ctx t.val u = { c with state := .idle })) ∧
    (s.sched.cmd = none →
      (schedRuns s = false ∨ 3 ≤ x.stage → exec (.schCmdReady rq t) s = .next (waits 1)) ∧
      (schedRuns s = false ∨ 1 ≤ x.stage → exec (.schCmdCancel rq t) s = .next (waits 2) ∧
        exec (.abandon rq t) s = .next (waits 3) ∧ exec (.disable rq t) s = .next (waits 4) ∧
        exec (.enable rq t) s = .next (waits 5))) ∧
    (s.sched.cmd ≠ none → ∀ i ∈ [Instr.schCmdReady rq t, .schCmdCancel rq t, .abandon rq t, .disable rq t, .enable rq t],
      exec i s = .next (permFault P.SCH0 R.SCH0_CMD (wrf P.SCH0 R.SCH0_CMD_STAT 31 24 E.PERM_FAULT s)))) ∧
  (∀ (rq : Requester) (page : Fin 4) (s : State), Reaches rq (P.SCH0 + page.val) s → s.fox.armed = none →
    ∃ t, exec (.schSoftReset rq page) s = .next t ∧ t.sched.queues = [] ∧ t.sched.args = [] ∧ t.sched.saves = [] ∧
      t.sched.walk = none ∧ t.sched.binds = s.sched.binds ∧ t.sched.emap = s.sched.emap ∧ t.banks = s.banks ∧
      t.flash = s.flash ∧ (∀ x ∈ t.sched.ctx, x.2.state = .disabled ∨ x.2.state = .idle))

/-- I/O edges, timers and absences enter their queues; the walker readies or cancels the bound tasks or counts the
unbound event. Spec: 09_task_scheduler.md, Events. How commands of the table make up a scheduler cycle is log entry
22. -/
def Obligations.EventsReachTheirTasks : Prop :=
  (∀ (s : State) (w : Walk), schedRuns s = true → s.sched.cmd = none → s.sched.walk = some w →
    let cyc (k : Nat) : State :=
      openStage k true (if s.sched.cyc.walker ∨ (k ≠ 0 ∧ k ≤ s.sched.cyc.stage) then endCycle s else s)
    (∀ b rest, w.todo = b :: rest →
      let left : Option Walk := if rest.isEmpty then none else some { w with todo := rest }
      let t (k : Nat) : State := setSched { (cyc k).sched with walk := left } (cyc k)
      (bit 30 b = false → exec .walkerReady s =
        .next (readyTask (fld 11 0 b) w.entry.word w.entry.coalesced 0 (t 3)) ∧ exec .walkerCancel s = .next s) ∧
      (bit 30 b = true →
        exec .walkerCancel s = .next (cancelTask (fld 11 0 b) (t 1)) ∧ exec .walkerReady s = .next s)) ∧
    (w.todo = [] → exec .unboundEvent s = .next (irq P.SCH2 0
      (count P.SCH2 R.SCH2_UNBOUND_EVENTS (setSched { (cyc 0).sched with walk := none } (cyc 0)))))) ∧
  (∀ (s : State),
    (∀ (b : IobId) (c : Fin 48) (stamp : BitVec 64), s.dev.mode = .run → c.val < bankCells b.val →
      fld 0 0 (rd (P.IOB b.val) (R.IOB_CFG + 4 * c.val) s) = 1 → bit 1 (rd (P.IOB b.val) R.IOB_BANK_STAT s) = true →
      pairedCell b.val c.val s = false → (queue (1 + b.val) s).any (fun e => e.index == c.val) = false →
      ∃ t, exec (.ioEdgeEvent b c true stamp) s = .next t ∧
        queue (1 + b.val) t = queue (1 + b.val) s ++ [⟨c.val, lo32 stamp, 0⟩] ∧
        rd (P.IOB b.val) (R.IOB_TS + 4 * c.val) t = lo32 stamp) ∧
    (∀ (n : Fin 64), schedRuns s = true → bit 0 (rd P.SCH2 (R.SCH2_TM_TCTL + 16 * n.val) s) = true →
      (rd64 P.SCH2 (R.SCH2_TM_AT_LO + 16 * n.val) s).toNat ≤ s.time.ringTime.toNat →
      rd P.SCH2 (R.SCH2_TM_PERIOD + 16 * n.val) s = 0 → (queue 0 s).any (fun e => e.index == n.val) = false →
      ∃ t, exec (.timerFire n) s = .next t ∧
        queue 0 t = queue 0 s ++ [⟨n.val, lo32 (rd64 P.SCH2 (R.SCH2_TM_AT_LO + 16 * n.val) s), 0⟩] ∧
        t.banks = s.banks ∧ t.sched.ctx = s.sched.ctx) ∧
    (∀ a rest, schedRuns s = true → s.sched.absentEvts = a :: rest →
      (queueFull 13 s = false → exec .absenceEventPost s =
        .next (pushEvent 13 a.task (W (a.code * 2 ^ 24)) 0 (setSched { s.sched with absentEvts := rest } s))) ∧
      (queueFull 13 s = true → exec .absenceEventPost s = .next (if s.sched.cyc.stalled then s
        else setCyc { s.sched.cyc with stalled := true } (count P.SCH2 R.SCH2_STALL_CYCLES s)))))

/-- COMPLETE returns its task to IDLE, SUSPEND makes it PREEMPTED or IDLE, a stray reply is counted, a blocked event
holds it back. Spec: 09_task_scheduler.md, Completion and deadlines; 09_task_scheduler.md, Pre-emption. The order of
what an activation's end writes is log entry 23. -/
def Obligations.RepliesEndAnActivation : Prop :=
  (∀ (s : State) (m : Msg),
    let s0 := enterStage 2 false s
    let t := dropMsg (.svcDown 0) s0
    let c := ctx m.task t
    let fits : Prop := m.payload.length = m.len
    schedRuns s = true → sinkMsg (.svcDown 0) s = some m → m.status ≠ E.UNTERMINATED →
    (m.cls = 0x02 → (m.status = 0 → fits) → stray m t = false → completeHeld m s0 = false →
      exec .complete s = .next (applyComplete m t)) ∧
    (m.cls = 0x02 → (m.status = 0 → fits) → stray m t = true → exec .complete s =
      .next (irq P.SCH0 4 (count P.SCH0 R.SCH0_STRAY_MSGS t))) ∧
    (m.cls = 0x02 → (m.status = 0 → fits) → stray m t = false → completeHeld m s0 = true →
      exec .complete s = .next (queueStall s0)) ∧
    (m.cls = 0x02 → m.status = 0 → ¬fits → exec .complete s = .next (malformed m.route t)) ∧
    (m.cls = 0x05 → m.status = 0 → fits → stray m t = false → payloadFault m = none → completeHeld m s0 = false →
      (c.cancelPending = false → ∃ u, exec .suspendReply s = .next u ∧
        ctx m.task u = { c with state := .preempted, slot := 0, saved := m.payload.length } ∧
        (∀ j, j ≠ m.task → ctx j u = ctx j t)) ∧
      (c.cancelPending = true → ∃ u, exec .suspendReply s = .next u ∧
        ctx m.task u = { c with state := .idle, slot := 0, cancelPending := false, again := false } ∧
        (∀ j, j ≠ m.task → ctx j u = ctx j t))) ∧
    (m.cls = 0x05 → m.status ≠ 0 → stray m t = false → completeHeld m s0 = false →
      exec .suspendReply s = .next (applySuspend m t))) ∧
  (∀ (s : State) (m : Msg), (ctx m.task s).again = false → (ctx m.task s).completeEvt = false → m.status = 0 →
    payloadFault m = none →
    let c := ctx m.task s
    let late := decide (c.deadline.toNat < s.time.ringTime.toNat)
    let u := applyComplete m s
    ctx m.task u = { c with state := .idle, lastStatus := 0, slot := 0, completeTime := lo32 s.time.ringTime,
                            cancelPending := false, misses := if late then sat16 c.misses 1 else c.misses } ∧
    (∀ j, j ≠ m.task → ctx j u = ctx j s) ∧ u.sched.queues = s.sched.queues ∧ u.banks = s.banks ∧
    (c.resEn = false ∨ c.cancelPending = true → u.sched.args = s.sched.args))

/-- Service 0x00 answers reads and writes of the argument memory, and refuses reads beyond it. Spec:
09_task_scheduler.md, Arguments, posts and results. -/
def Obligations.SchedulerServiceAnswersRequests : Prop :=
  ∀ (s : State) (m : Msg) (w : TWord) (body : List TWord),
    let t := dropMsg (.svcDown 0) s
    let a := fld 29 0 w.data
    schedRuns s = true → sinkMsg (.svcDown 0) s = some m → m.status = 0 →
    m.payload = w :: body → m.payload.length = m.len → wordsFail m.payload = none → a % 4 = 0 →
    (∀ n : TWord, m.cls = 0x20 → body = [n] → 1 ≤ n.data.toNat → n.data.toNat ≤ 256 → a / 4 + n.data.toNat ≤ 16384 →
      exec .schServiceAccess s =
        .next (svcReply 0 m ((List.range n.data.toNat).map fun k => argWord (a / 4 + k) t) 0 t)) ∧
    (m.cls = 0x21 → body ≠ [] → body.length ≤ 256 → a / 4 + body.length ≤ 16384 →
      exec .schServiceAccess s = .next (svcReply 0 m [] 0 (setArgs (a / 4) body t))) ∧
    (m.cls = 0x20 → 0x10000 ≤ a → exec .schServiceAccess s = .next (svcReply 0 m [] E.PERM_FAULT t))

/-- Dispatch takes the ready list in priority order; drains, absent engines and limits act on the tasks of their
engine. Spec: 09_task_scheduler.md, Dispatch; 09_task_scheduler.md, Swaps, absent engines and stuck tasks. The order
of a drain's suspends is log entry 24. -/
def Obligations.DispatchAndEngineLimits : Prop :=
  (∀ (s : State), schedRuns s = true → s.sched.cmd = none →
    let victim := s.sched.heldRegions.findSome? fun r => drainVictim r s
    (outputIdle s = true → victim = none → takesWork P.SCH0 s = true →
      exec .dispatchDecision s = .next (closeCycle (decide_ (readyList s) s)) ∧
      (∀ x ∈ readyList s, ∀ y ∈ (readyList s).head?, y.2.prio ≤ x.2.prio) ∧
      (∀ j c l k, readyList s = (j, c) :: l → engineHeld c.engine s = false → engineAbsence c.engine s = none →
        freeSlot c.engine s = some k → exec .dispatchDecision s = .next (closeCycle (launchTask j k s))) ∧
      (∀ j c l code, readyList s = (j, c) :: l → engineHeld c.engine s = false →
        engineAbsence c.engine s = some code → exec .dispatchDecision s = .next (closeCycle (blockTask j s)))) ∧
    (∀ v, outputIdle s = true → victim = some v → exec .dispatchDecision s = .next (closeCycle (suspendTask v s))) ∧
    (outputIdle s = false → exec .dispatchDecision s = .next (closeCycle s)) ∧
    (∀ (r : RegionId) v, outputIdle s = true → drainVictim r.val s = some v →
      ∃ t, exec (.drainSuspend r) s = .next t ∧
        ctx v t = { ctx v s with state := .suspending, preempts := sat16 (ctx v s).preempts 1, suspendHit := false })) ∧
  (∀ (s : State),
    (∀ (r : RegionId) m at_, s.fox.drainAt.isSome = true → s.fox.armed = some (m, at_) → inMask m r.val = true →
      s.sched.heldRegions.contains r.val = false →
      let u := finishCycle s
      exec (.schedulerDrainNotice r) s = .next (setSched { u.sched with
        heldRegions := u.sched.heldRegions ++ [r.val], reported := u.sched.reported.filter (· != r.val) } u)) ∧
    (∀ (r : RegionId), s.sched.heldRegions.contains r.val = true → s.sched.reported.contains r.val = false →
      (∀ x ∈ s.sched.ctx, x.2.onEngine = true → schedPort x.2.engine s / 8 ≠ r.val) →
      exec (.schedulerDrainedReport r) s = .next (mdRgn r.val (fun x => { x with schReport := true })
        (setSched { s.sched with reported := s.sched.reported ++ [r.val] } s))) ∧
    (∀ (e : Fin 255), schedRuns s = true → engineAbsence e.val s = none → exec (.engineAbsent e) s = .next s) ∧
    (∀ (e : Fin 255) t c code, schedRuns s = true → engineAbsence e.val s = some code →
      tasks (fun c => c.onEngine && c.engine == e.val) s = [(t, c)] → c.completeEvt = false →
      ∃ u, exec (.engineAbsent e) s = .next u ∧ ctx t u = { c with
        state := .blocked, lastStatus := BitVec.ofNat 8 code, slot := 0, cancelPending := false, again := false } ∧
        (∀ j, j ≠ t → ctx j u = ctx j s)) ∧
    (∀ (t : TaskId), schedRuns s = true → (ctx t.val s).state = .running → (ctx t.val s).runHit = false →
      rd P.SCH0 R.SCH0_RUN_LIMIT s ≠ 0 → exec (.runLimitHit t) s = .next (irq P.SCH0 3
        (countF P.SCH0 R.SCH0_LIMIT_HITS 15 0 (setCtx t.val { ctx t.val s with runHit := true } s)))) ∧
    (∀ (t : TaskId), schedRuns s = true → (ctx t.val s).state = .suspending → (ctx t.val s).suspendHit = false →
      rdf P.SCH0 R.SCH0_SUSPEND_LIMIT 23 0 s ≠ 0 → exec (.suspendLimitHit t) s = .next (irq P.SCH0 3
        (countF P.SCH0 R.SCH0_LIMIT_HITS 31 16 (setCtx t.val { ctx t.val s with suspendHit := true } s)))))

/-- The trace spills into a bank; the windows of argument, save, binding and context memory and the engine map are
read and written. Spec: 09_task_scheduler.md, The Owl scheduling trace; 09_task_scheduler.md, SCH pages;
09_task_scheduler.md, Tasks and their contexts; 09_task_scheduler.md, Engines. What a spill at the end of its range
does is log entry 25. -/
def Obligations.SchedulerMemoriesTraceAndContexts : Prop :=
  (∀ (s : State), schedRuns s = true →
    let ctl := rd P.SCH3 R.SCH3_TRACE_CTL s
    let base := rdf P.SCH3 R.SCH3_SPILL_RANGE 12 0 s
    let len := rdf P.SCH3 R.SCH3_SPILL_RANGE 29 16 s
    let next := rdf P.SCH3 R.SCH3_SPILL_WPTR 12 0 s
    let bank := rdf P.SCH3 R.SCH3_SPILL_BANK 9 0 s
    let e := tget (0, 0) s.sched.trace ((rdf P.SCH3 R.SCH3_TRACE_WPTR 12 0 s + 8192 - s.sched.unspilled) % 8192)
    (bit 1 ctl = true → s.sched.unspilled ≠ 0 → len ≠ 0 → base ≤ next → next < base + len → spillPending s = false →
      exec .traceSpill s = .next (s
        |> setSched { s.sched with unspilled := s.sched.unspilled - 1 }
        |> spillWord 12 bank (next % 8192) (tw .sync e.1)
        |> spillWord 13 bank ((next + 1) % 8192) (tw .data e.2)
        |> wr P.SCH3 R.SCH3_SPILL_WPTR (W ((base + (next - base + 2) % len) % 8192)))) ∧
    (bit 1 ctl = false ∨ s.sched.unspilled = 0 ∨ spillPending s = true → exec .traceSpill s = .next s)) ∧
  (∀ (rq : Requester) (v : Word) (s : State),
    (Reaches rq P.SCH1 s →
      let n := rdf P.SCH1 R.SCH1_ARG_ADDR 13 0 s
      let k := rdf P.SCH1 R.SCH1_SAVE_ADDR 15 0 s
      (exec (.argDataAccess rq (some v)) s =
        .next (bumpIndex P.SCH1 R.SCH1_ARG_ADDR 14 (setArg n (tw .data v) s))) ∧
      (exec (.argDataAccess rq none) s = .next (bumpIndex P.SCH1 R.SCH1_ARG_ADDR 14 (deliver rq (argWord n s) s))) ∧
      (exec (.saveDataRead rq) s = .next (bumpIndex P.SCH1 R.SCH1_SAVE_ADDR 16 (deliver rq (saveWord k s) s)))) ∧
    (Reaches rq P.SCH2 s →
      let n := rdf P.SCH2 R.SCH2_BIND_SEL 9 0 s
      (fld 29 25 v < 18 → exec (.bindDataAccess rq (some v)) s = .next (bumpIndex P.SCH2 R.SCH2_BIND_SEL 10
        (setSched { s.sched with binds := tput 0 n (v &&& W 0xFEFFFFFF) s.sched.binds } s))) ∧
      (18 ≤ fld 29 25 v → exec (.bindDataAccess rq (some v)) s =
        .next (bumpIndex P.SCH2 R.SCH2_BIND_SEL 10 (permFault P.SCH2 R.SCH2_BIND_DATA s))) ∧
      (exec (.bindDataAccess rq none) s =
        .next (bumpIndex P.SCH2 R.SCH2_BIND_SEL 10 (deliverReg rq (bindWord n s) s)))) ∧
    (Reaches rq P.SCH0 s → ∀ (e : Fin 256),
      (e.val ≠ 255 → (∀ x ∈ s.sched.ctx, x.2.onEngine = true → x.2.engine ≠ e.val) →
        ∃ u, exec (.engineMapWrite rq e v) s = .next u ∧ engineEntry e.val u = v &&& W 0x80001DFF ∧
          (∀ k, k ≠ e.val → engineEntry k u = engineEntry k s) ∧ u.sched.ctx = s.sched.ctx ∧ u.banks = s.banks ∧
          (s.sched.cyc.time ≠ none → schedEntry e.val u = schedEntry e.val s)) ∧
      (e.val ≠ 255 → (∃ x ∈ s.sched.ctx, x.2.onEngine = true ∧ x.2.engine = e.val) →
        exec (.engineMapWrite rq e v) s = .next (permFault P.SCH0 (R.SCH0_ENGINE + 4 * e.val) s)))) ∧
  (∀ (rq : Requester) (v : Word) (s : State), Reaches rq P.SCH1 s →
    let t := rdf P.SCH1 R.SCH1_CTX_SEL 11 0 s
    let c := ctx t s
    let c0 := { c with w0 := v &&& W 0x3FF7FFFF }
    ((c.state = .disabled ∨ c.state = .idle) → ctxRefused c0 = false →
      exec (.contextWrite rq 0 v) s = .next (setCtx t c0 s)) ∧
    (((c.state ≠ .disabled ∧ c.state ≠ .idle) ∨ ctxRefused c0 = true) →
      exec (.contextWrite rq 0 v) s = .next (permFault P.SCH1 R.SCH1_CTX_W s)) ∧
    (exec (.contextWrite rq 7 v) s = .next (setCtx t { c with dispatches := v } s)) ∧
    (exec (.contextWrite rq 8 v) s =
      .next (setCtx t { c with overruns := (v >>> 16).setWidth 16, preempts := v.setWidth 16 } s)) ∧
    (exec (.contextWrite rq 6 v) s = .next s))

/-- SUBMIT and DMA_DESC queue a descriptor, a full queue refuses or holds it, and the next one starts when the channel
is free. Spec: 10_translation_and_dma.md, Descriptors. -/
def Obligations.DescriptorsEnterTheirChannels : Prop :=
  ∀ (ch : DmaId) (s : State),
    let c := ch.val
    let x := dchan c s
    let refused (u : State) : State := irq (P.DMA c) 2 (count (P.DMA c) R.DMA_SUBMIT_REFUSED u)
    (∀ rq, Reaches rq (P.DMA c) s →
      (entering s = false → dmaEnabled c s = true → x.queue.length < 8 →
        exec (.dmaSubmit rq ch) s = .next (setDchan c { x with queue := x.queue ++
          [⟨(List.range 8).map fun n => rd (P.DMA c) (R.DMA_DESC + 4 * n) s, false, 0⟩] } s)) ∧
      (entering s = false → (dmaEnabled c s = false ∨ 8 ≤ x.queue.length) →
        exec (.dmaSubmit rq ch) s = .next (refused s)) ∧
      (entering s = true → exec (.dmaSubmit rq ch) s = .next (refused (err (P.DMA c) E.ENTRY_REFUSED 0 0 s)))) ∧
    (∀ m : Msg, dmaRuns s = true → sinkMsg (.svcDown 1) s = some m → m.cls = 0x10 → m.status = 0 → m.len = 8 →
      m.payload.length = 8 → wordsFail m.payload = none → descChan m = c →
      let t := dropMsg (.svcDown 1) s
      let d : Desc := ⟨m.payload.map (·.data), true, BitVec.ofNat 12 m.task⟩
      ∀ i ∈ [Instr.dmaDesc, .dmaDescAdmit],
        (entering s = false → dmaEnabled c s = true → originAccepted c m.route s = true →
          (x.queue.length < 8 → exec i s = .next (setDchan c { dchan c t with queue := (dchan c t).queue ++ [d] } t)) ∧
          (8 ≤ x.queue.length → exec i s = .next (count (P.DMA c) R.DMA_DESC_WAIT s))) ∧
        (entering s = false → (dmaEnabled c s = false ∨ originAccepted c m.route s = false) →
          exec i s = .next (refused t)) ∧
        (entering s = true → exec i s = .next (refused (err (P.DMA c) E.ENTRY_REFUSED 0 0 t)))) ∧
    (∀ d rest, dmaRuns s = true → x.cur = none → x.halted = false → waitsForEvents c s = false → x.chain = none →
      x.queue = d :: rest → (descBad d = none → ∃ t, exec (.descriptorStart ch) s = .next t ∧
        (dchan c t).queue = rest ∧ (dchan c t).halted = false ∧ t.regs = s.regs ∧ t.banks = s.banks ∧
        (dchan c t).cur.map (fun u => (u.desc, u.done, u.inBlock)) = some (d, 0, 0)) ∧
      (∀ e, descBad d = some e → d.evt = false → servedBy c s = none →
        ∃ t, exec (.descriptorStart ch) s = .next t ∧
        (dchan c t).queue = rest ∧ (dchan c t).halted = true ∧ (dchan c t).cur = none ∧ t.banks = s.banks))

/-- Completion events wait for queue 17, chains are read from their bank, and RESTART, FLUSH and SOFT_RST act on the
channel. Spec: 10_translation_and_dma.md, Completion and faults; 10_translation_and_dma.md, Descriptors;
10_translation_and_dma.md, The DMA pages. Where an event word waits is log entry 27. -/
def Obligations.DmaEventsChainsAndChannelResets : Prop :=
  ∀ (ch : DmaId) (s : State),
    let c := ch.val
    let x := dchan c s
    (∀ w, dmaRuns s = true → x.waitEvt = some w →
      (queueFull 17 s = false → exec (.dmaEventPost ch) s =
        .next (pushEvent 17 c w 0 (setDchan c { x with waitEvt := none } s))) ∧
      (queueFull 17 s = true → exec (.dmaEventPost ch) s = .next (if s.sched.cyc.stalled then s
        else setCyc { s.sched.cyc with stalled := true } (count P.SCH2 R.SCH2_STALL_CYCLES s)))) ∧
    (∀ p parent, dmaRuns s = true → x.chain = some (p, parent) → x.halted = false → x.cur = none →
      waitsForEvents c s = false →
      let r := viaPort (16 + c) (p / 8192) ((p + x.chainGot.length) % 8192) .read s
      (x.chainGot.length = 8 → exec (.chainRead ch) s =
        .next (beginDesc c ⟨x.chainGot.map (·.data), parent.fromMessage, parent.task⟩
          (setDchan c { x with chain := none, chainGot := [] } s))) ∧
      (x.chainGot.length < 8 → r.1 = none → exec (.chainRead ch) s = .next r.2) ∧
      (∀ y code, x.chainGot.length < 8 → r.1 = some y → wordStops y.1 = some code →
        ∃ u, exec (.chainRead ch) s = .next u ∧ (dchan c u).halted = true ∧ (dchan c u).cur = none ∧
          rd (P.DMA c) R.DMA_FAULT_NEXT u = W (2 ^ 31 + p))) ∧
    (∀ rq, Reaches rq (P.DMA c) s →
      exec (.restart rq ch) s = .next (setDchan c { x with halted := false } s) ∧
      exec (.flush rq ch) s = .next (setDchan c { x with halted := false, queue := [] } s) ∧
      (x.cur = none → exec (.dmaSoftReset rq ch) s = .next (clearStatus (P.DMA c) (fun _ => false)
        (setDchan c DmaChan.idle (dropEngine (16 + c) (unserve c s))))) ∧
      (∀ cur, x.cur = some cur → ∃ t, exec (.dmaSoftReset rq ch) s = .next t ∧ dchan c t = DmaChan.idle ∧
        rd (P.DMA c) R.DMA_FAULT_INFO t = W (E.ABSENT_TARGET * 2 ^ 24 + cur.desc.id) ∧
        t.banks.words = s.banks.words))

/-- Page walks follow the tables, invalidations drop their translations, and host-initiated accesses read or write one
word. Spec: 10_translation_and_dma.md, Page tables; 10_translation_and_dma.md, Translation caches and invalidation;
10_translation_and_dma.md, Host-initiated remote access. -/
def Obligations.TranslationAndHostAccess : Prop :=
  (∀ (s : State),
    (∀ (q : Fin 5) (k : PtWalk), dmaRuns s = true → (mover q.val s).walk = some k →
      let r := viaPort (8 + q.val) (k.entry / 8192) (k.entry % 8192) .read s
      let t := count P.MMU R.MMU_WALK_READS r.2
      (r.1 = none → exec (.pageWalkRead q) s = .next r.2) ∧
      (∀ y e, r.1 = some y → walkEntry k y.1 = .next e → exec (.pageWalkRead q) s = .next (setMover q.val
        { mover q.val t with walk := some { k with level := k.level + 1, entry := e } } t)) ∧
      (∀ y e, r.1 = some y → walkEntry k y.1 = .leaf e → k.stale = true → exec (.pageWalkRead q) s = .next (setMover q.val
        { mover q.val t with walk := none, own := (mover q.val t).own ++ [(k.write, e)] } t))) ∧
    (∀ (k : PtWalk) (x : TWord), k.level = 2 → x.tag = .data → bit 31 x.data = true → bit 30 x.data = true →
      walkEntry k x = .leaf ⟨k.space, k.va / 2 ^ 12, false, bit 28 x.data, bit 29 x.data, fld 27 0 x.data⟩) ∧
    (∀ rq (n : Fin 16), Reaches rq P.MMU s → bit 0 (rd P.MMU R.MMU_INVAL_STAT s) = false →
      (∃ t, exec (.invalAll rq) s = .next t ∧ (∀ g, g < 4 → cache g t = []) ∧
        bit 0 (rd P.MMU R.MMU_INVAL_STAT t) = true ∧
        t.dma.invalWait = (List.range 4).filter fun m => (mover m s).serving.isSome) ∧
      (∃ t, exec (.invalSpace rq n) s = .next t ∧
        ∀ g, g < 4 → cache g t = (cache g s).filter fun e => e.space != n.val) ∧
      (∃ t, exec (.invalPage rq n) s = .next t ∧ ∀ g, g < 4 → cache g t =
        (cache g s).filter fun e => !e.covers n.val (rdf P.MMU R.MMU_INVAL_VA 27 0 s * 2 ^ 12)) ∧
      (∀ v, fld 1 0 v ≠ 3 → ∃ t, exec (.spaceConfigWrite rq n false v) s = .next t ∧ spaceCfg n.val t = v &&& W 0x1F ∧
        spaceRoot n.val t = spaceRoot n.val s ∧ ∀ g, g < 4 → cache g t = (cache g s).filter fun e => e.space != n.val) ∧
      (∀ v, fld 1 0 v = 3 → exec (.spaceConfigWrite rq n false v) s =
        .next (permFault P.MMU (R.MMU_SPACE_CFG + 8 * n.val) s))) ∧
    (∀ rq, Reaches rq P.MMU s → bit 0 (rd P.MMU R.MMU_INVAL_STAT s) = true →
      exec (.invalAll rq) s = .next (permFault P.MMU R.MMU_INVAL s)) ∧
    (bit 0 (rd P.MMU R.MMU_INVAL_STAT s) = true → s.dma.invalWait = [] → exec .invalDone s =
      .next (irq P.MMU 2 (md P.MMU R.MMU_INVAL_STAT (setBit 0 false)
        (dropEngine 12 (setMover 4 { mover 4 s with walk := none, own := [] } s)))))) ∧
  (∀ (s : State),
    let ctl := rd P.MMU R.MMU_HRA_CTL s
    let va := (rd P.MMU R.MMU_HRA_ADDR_LO s).toNat + 2 ^ 32 * rdf P.MMU R.MMU_HRA_ADDR_HI 7 0 s
    (∀ rq, Reaches rq P.MMU s → takesWork P.MMU s = true →
      (bit 1 ctl = false →
        exec (.hraRead rq) s = .next (setDma { s.dma with hra := some (va, false), hraRemote := false }
          (wr P.MMU R.MMU_HRA_CTL (setBit 0 false (setBit 1 true ctl)) s)) ∧
        exec (.hraWrite rq) s = .next (setDma { s.dma with hra := some (va, true), hraRemote := false }
          (wr P.MMU R.MMU_HRA_CTL (setBit 0 true (setBit 1 true ctl)) s))) ∧
      (bit 1 ctl = true → exec (.hraRead rq) s = .next (permFault P.MMU R.MMU_HRA_CTL s) ∧
        exec (.hraWrite rq) s = .next (permFault P.MMU R.MMU_HRA_CTL s))) ∧
    (∀ a, dmaRuns s = true → s.dma.hraRemote = false → (mover 4 s).walk = none → a % 4 = 0 →
      fld 1 0 (spaceCfg (fld 19 16 ctl) s) = 1 → 0x10000000 ≤ a → a < 0x12000000 →
      let b := (a - 0x10000000) / 0x8000
      let w := (a - 0x10000000) % 0x8000 / 4
      let rw_ := viaPort 4 b w (.write (tw .data (rd P.MMU R.MMU_HRA_DATA s))) s
      let rr := viaPort 4 b w .read s
      (s.dma.hra = some (a, true) →
        (rw_.1 = none → exec .hraDone s = .next rw_.2) ∧
        (∀ y, rw_.1 = some y → ∃ t, exec .hraDone s = .next t ∧ t.dma.hra = none ∧ t.banks.words = rw_.2.banks.words ∧
          fld 31 24 (rd P.MMU R.MMU_HRA_CTL t) = y.2 % 256 ∧ fld 2 1 (rd P.MMU R.MMU_HRA_CTL t) = 2)) ∧
      (s.dma.hra = some (a, false) →
        (rr.1 = none → exec .hraDone s = .next rr.2) ∧
        (∀ y, rr.1 = some y → y.1.tag = .data → ∃ t, exec .hraDone s = .next t ∧ t.dma.hra = none ∧
          rd P.MMU R.MMU_HRA_DATA t = y.1.data ∧ fld 31 24 (rd P.MMU R.MMU_HRA_CTL t) = 0))))

/-- A mover serves the next channel, ends a block of 64 words, stores the words of a fill, and takes the replies of
remote windows. Spec: 10_translation_and_dma.md, Movers, blocks and priority; 10_translation_and_dma.md, Remote
windows and the memory agent. That PREEMPTS counts every channel passed so is log entry 120. -/
def Obligations.MoversMoveTheirBlocks : Prop :=
  ∀ (m : Fin 4) (s : State), dmaRuns s = true →
    (∀ c, (mover m.val s).serving = none → nextChan (mover m.val s).last s = some c →
      exec (.moverBlockDone m) s = .next
        (((List.range 32).filter fun q => chanReady q s && decide (curPrio c s < curPrio q s)).foldl
          (fun t q => count (P.DMA q) R.DMA_PREEMPTS t)
          (setMover m.val { mover m.val s with serving := some c, last := c } s))) ∧
    (∀ c cur, (mover m.val s).serving = some c → servedBy c s = some m.val → (mover m.val s).walk = none →
      (dchan c s).cur = some cur →
      cur.remote = none → cur.gather = [] → cur.done + cur.inBlock < cur.desc.count → cur.inBlock = 64 →
      ∃ t, exec (.moverBlockDone m) s = .next t ∧ t.banks.words = s.banks.words ∧
        (dchan c t).cur = some { cur with done := cur.done + 64, inBlock := 0, fetched := [] }) ∧
    (∀ c cur b w, (mover m.val s).serving = some c → servedBy c s = some m.val → (mover m.val s).walk = none →
      (dchan c s).cur = some cur → cur.remote = none → cur.gather = [] → cur.done = 0 → cur.inBlock = 0 →
      cur.desc.fill = true → cur.desc.count = 1 → cur.desc.chained = false → cur.desc.evt = false →
      fld 1 0 (spaceCfg (chanSpace c s) s) = 1 → b < 1024 → w < 8192 → cur.desc.dst = bankAddr b w →
      let r := viaPort m.val b w (.write (tw .data (cur.desc.w 6))) s
      (r.1 = none → exec (.moverBlockDone m) s = .next r.2) ∧
      (∀ y, r.1 = some y → y.2 = 0 → ∃ t, exec (.moverBlockDone m) s = .next t ∧ t.banks.words = r.2.banks.words ∧
        (dchan c t).cur = none ∧ (dchan c t).halted = (dchan c s).halted ∧
        rd (P.DMA c) R.DMA_DONE_COUNT t = rd (P.DMA c) R.DMA_DONE_COUNT (count (P.DMA c) R.DMA_DONE_COUNT s))) ∧
    (∀ (r : Msg) cur, sinkMsg (.svcDown 1) s = some r → r.cls = 0x22 → r.task ≠ 32 → r.status = 0 →
      r.payload.length = r.len → servedBy r.task (dropMsg (.svcDown 1) s) = none →
      (dchan r.task s).cur = some cur →
      let t := dropMsg (.svcDown 1) s
      (cur.remote = some true → r.payload.findSome? wordStops = none → r.len = cur.asked.2 →
        cur.desc.srcFixed = false → exec .remoteReply s = .next (setDchan r.task
          { dchan r.task t with cur := some { cur with remote := none, fetched := r.payload } } t)) ∧
      (cur.remote = some false → r.len = 0 → exec .remoteReply s = .next
        (countN (P.DMA r.task) R.DMA_WORDS cur.gather.length (setDchan r.task { dchan r.task t with
          cur := some { cur with remote := none, gather := [], inBlock := cur.inBlock + cur.gather.length } } t))))

/-- The memory agent answers REMOTE_RD with the words of the banks and REMOTE_WR with its outcome, or refuses a
protected place. Spec: 10_translation_and_dma.md, Remote windows and the memory agent. -/
def Obligations.MemoryAgentServesTheRing : Prop :=
  ∀ (s : State), agentRuns s = true →
    (∀ (m : Msg) (a : TWord) (body : List TWord), let t := dropMsg (.svcDown 3) s
      let off := fld 29 0 a.data
      let job (write : Bool) (n : Nat) : AgentJob := ⟨m.head, m.route, write, off, n, if write then body else [], 0, 0⟩
      let begins (write : Bool) (n : Nat) : State := agentWork (setDma { t.dma with agent := some (job write n) } t)
      s.dma.agent = none → sinkMsg (.svcDown 3) s = some m → m.status = 0 → m.payload = a :: body →
      m.payload.length = m.len → off % 4 = 0 →
      (∀ n : TWord, m.cls = 0x20 → body = [n] → wordsFail m.payload = none → 1 ≤ fld 8 0 n.data → fld 8 0 n.data ≤ 256 →
        off + 4 * fld 8 0 n.data ≤ 0x2000000 → exec .remoteRd s = .next (begins false (fld 8 0 n.data))) ∧
      (m.cls = 0x21 → wordsFail [a] = none → s.dev.weReleased = true → body ≠ [] → body.length ≤ 256 →
        off + 4 * body.length ≤ 0x2000000 →
        (agentProtected (agentPlaces off body.length) t = false → exec .remoteWr s = .next (begins true body.length)) ∧
        (agentProtected (agentPlaces off body.length) t = true → exec .remoteWr s =
          .next (svcReply 3 m [] E.PERM_FAULT (irq P.MMU 1 (count P.MMU R.MMU_AGENT_REFUSED t)))))) ∧
    (∀ (j : AgentJob), s.dma.agent = some j →
      let i : Instr := if j.write then .remoteWr else .remoteRd
      let ends (ws : List TWord) (code : Nat) (u : State) : Out :=
        .next (svcReply 3 ⟨j.head, j.route, [], 0⟩ ws code (setDma { u.dma with agent := none } u))
      (j.served = j.count → exec i s = ends (if j.write then [] else j.words) j.code s) ∧
      (∀ b w, j.served < j.count → windowPlace (j.off + 4 * j.served) = .bank b w →
        let r := viaPort 5 b w (if j.write then .write (j.words.getD j.served zeroWord) else .read) s
        (r.1 = none → exec i s = .next r.2) ∧
        (∀ y, r.1 = some y → j.served + 1 = j.count → exec i s =
          ends (if j.write then [] else j.words ++ [y.1]) (if j.write ∧ j.code = 0 then y.2 else j.code) r.2)))

/-- A register write changes its RW fields, clears its W1C bits and no others; ERR_CLEAR, IRQ_FORCE and SOFT_RST act
on their page. Spec: 03_register_pages.md, Access codes; 03_register_pages.md, The common page layout;
03_register_pages.md, Where pages are and who reaches them. -/
def Obligations.RegisterWritesFollowTheirCodes : Prop :=
  ∀ (rq : Requester) (p : Fin 16384) (k : PageKind) (s : State), pageKind p.val = some k → Reaches rq p.val s →
    (∀ (a : BitVec 26) off (r : RegRow) (v : BitVec 64), a.toNat = p.val * 4096 + off → off < 4096 → off % 4 = 0 →
      0x40 ≤ off → actionWrite rq k p.val off (lo32 v) s = none → wideHalf k off = none → regRow p.val off = some r →
      exec (.registerWrite rq a 4 v) s = .next (wr p.val off
        ((((rd p.val off s &&& ~~~r.rw) ||| (lo32 v &&& r.rw)) &&& ~~~(lo32 v &&& r.w1c))) s)) ∧
    (∀ (a : BitVec 26) (size : Nat) (v : BitVec 64), (a.toNat % 4 ≠ 0 ∨ (size ≠ 4 ∧ size ≠ 8) ∨ (size = 8 ∧ rq ≠ .host)) →
      exec (.registerWrite rq a size v) s = .next (err P.DEV E.PERM_FAULT 0 a.toNat s)) ∧
    (exec (.errClear rq p) s = .next (errClearRegs p.val s)) ∧
    (∀ v, exec (.irqForce rq p v) s =
      .next (irqChange p.val false (md p.val R.IRQ_PEND fun w => w ||| (v &&& irqMask k)) s)) ∧
    (k = .iob ∨ k = .owl ∨ k = .pcie ∨ k = .eth →
      exec (.pageSoftRst rq p) s = .next (clearStatus p.val (keepOnReset p.val) s)) ∧
    (∀ off r, RegsInv s → off < 4096 → off % 4 = 0 → regRow p.val off = some r → keepOnReset p.val off = false →
      rd p.val off (clearStatus p.val (keepOnReset p.val) s) =
        (rd p.val off s &&& (r.rw &&& ~~~r.cnt)) ||| (regReset p.val off &&& ~~~(r.rw &&& ~~~r.cnt)))

/-- 64-bit registers are written whole by their high half and read whole from their low half; RC fields clear when
they are read. Spec: 03_register_pages.md, Where pages are and who reaches them; 03_register_pages.md, Access codes;
03_register_pages.md, Pages of blocks that are off. Which registers form pairs is log entry 11. -/
def Obligations.WideRegistersAndReadEffects : Prop :=
  (∀ (rq : Requester) (p : Fin 16384) (k : PageKind) (off : Nat) (r r' : RegRow) (a a' : BitVec 26) (v w : Word)
      (s t : State), pageKind p.val = some k → Reaches rq p.val s → Reaches rq p.val t → wideLow k off = true →
    0x40 ≤ off → off % 8 = 0 → off + 4 < 4096 → regRow p.val off = some r → regRow p.val (off + 4) = some r' →
    r.rw ≠ 0 → r'.rw ≠ 0 → a.toNat = p.val * 4096 + off → a'.toNat = p.val * 4096 + off + 4 →
    (∀ u x, actionWrite rq k p.val off x u = none ∧ actionWrite rq k p.val (off + 4) x u = none) →
    exec (.registerWrite rq a 4 (v.setWidth 64)) s = .next (holdLow rq p.val off v s) ∧
    (lowPending rq p.val off t = some v →
      exec (.registerWrite rq a' 4 (w.setWidth 64)) t = .next (wr64 p.val off (join64 v w &&& join64 r.rw r'.rw) (clearLow rq p.val off t))) ∧
    (lowPending rq p.val off t = none → exec (.registerWrite rq a' 4 (w.setWidth 64)) t =
      .next (wr64 p.val off (join64 (rd p.val off t) w &&& join64 r.rw r'.rw) t))) ∧
  (∀ (rq : Requester) (p : Fin 16384) (o : Fin 1024) (k : PageKind) (s : State), pageKind p.val = some k →
    attached rq s = true → s.dev.mode ≠ .scan → p.val ≠ P.RING → k ≠ .sch1 → k ≠ .sch2 →
    4 * o.val ≠ R.PAGE_ID → 4 * o.val ≠ R.PAGE_STAT →
    let off := 4 * o.val
    (pageOff p.val s = false → wideLow k off = true → exec (.reg64LowRead rq p o) s =
      .next (deliverReg rq (regValue rq p.val off s) (latchHigh rq p.val off (regValue rq p.val (off + 4) s) s))) ∧
    (∀ h, pageOff p.val s = false → wideLow k off = false → 4 ≤ off → wideLow k (off - 4) = true →
      highLatched rq p.val (off - 4) s = some h →
      exec (.reg64LowRead rq p o) s = .next (deliverReg rq h (dropLatch rq p.val (off - 4) s))) ∧
    (∀ r, pageOff p.val s = false → regRow p.val off = some r → r.rc ≠ 0 → wideLow k off = false →
      (4 ≤ off → wideLow k (off - 4) = false) → exec (.rcRead rq p o) s =
        .next (deliverReg rq (regValue rq p.val off s) (wr p.val off (rd p.val off s &&& ~~~r.rc) s))) ∧
    (pageOff p.val s = true → exec (.rcRead rq p o) s =
      .next (deliver rq (if rq = .host ∨ rq = .steward then zeroWord else nullWord) (offAccess rq p.val off false s))))

/-- GO takes a mailbox half; VERSION, ECHO, MANIFEST_QUERY, wear reports and refused codes are answered; service 0x04
reaches the fabric half. Spec: 03_register_pages.md, The steward mailbox; 13_code_data_flash.md, Mailbox commands;
14_update_and_recovery.md, Mailbox commands. What the steward's own data hold where the spec gives none is log entry
95; that DONE of an earlier response stays at GO is log entry 112. -/
def Obligations.MailboxRequestsAreAnswered : Prop :=
  ∀ (h : Half) (s : State),
    let ctl := rd P.DEV (mbxCtl h) s
    (∀ rq, Reaches rq P.DEV s →
      (bit 1 ctl = false → exec (.mbxGo rq h) s =
        .next (wr P.DEV (mbxCtl h) (setFld 15 8 (fld 15 8 (mbxReq h 0 s)) (setBit 1 true ctl)) s)) ∧
      (bit 1 ctl = true → exec (.mbxGo rq h) s = .next (wr P.DEV (mbxCtl h) (satFld 31 16 ctl) s))) ∧
    (bit 1 ctl = true → stewardAnswers s = true → mbxArgs h s ≤ 15 →
      (mbxCode h s = 1 → exec (.version h) s =
        .next (respond h 0 [fwRunning s, pairVersion 2 s.upd.running s, schemaId s, Config.romVersion] s)) ∧
      (mbxCode h s = 2 → exec (.echo h) s =
        .next (respond h 0 ((List.range (mbxArgs h s)).map fun n => mbxReq h (n + 1) s) s)) ∧
      (mbxCode h s = 0x104 → exec (.manifestQuery h) s = .next (respond h 0
        [rd P.UPD R.UPD_STAT s, lo32 s.upd.pointer.activeManifest, hi32 s.upd.pointer.activeManifest,
         lo32 s.upd.pointer.otherManifest, hi32 s.upd.pointer.otherManifest, pointerFlags s.upd.pointer &&& W 0xFF] s)) ∧
      (mbxCode h s ∉ [1, 2, 0x101, 0x102, 0x103, 0x104, 0x105, 0x106, 0x107, 0x201, 0x202, 0x203] →
        exec (.mbxResponse h) s = .next (respond h E.PERM_FAULT [] s)) ∧
      (romOnly s = true → romCommand (mbxCode h s) = false →
        exec (.mbxResponse h) s = .next (respond h E.PERM_FAULT [] s)) ∧
      (mbxCode h s = 1 → exec (.mbxResponse h) s = exec (.version h) s) ∧
      (mbxCode h s = 2 → exec (.mbxResponse h) s = exec (.echo h) s) ∧
      (mbxCode h s = 0x201 → sectorCode (mbxReq h 1 s).toNat = true →
        exec (.wearReport h) s = .next (respond h 0 [wearData (mbxReq h 1 s).toNat s] s)) ∧
      (mbxCode h s = 0x201 → sectorCode (mbxReq h 1 s).toNat = false →
        exec (.wearReport h) s = .next (respond h E.PERM_FAULT [] s))) ∧
    (bit 1 ctl = true → stewardAnswers s = true → 15 < mbxArgs h s →
      exec (.mbxResponse h) s = .next (respond h E.PERM_FAULT [] s)) ∧
    (bit 1 ctl = false → exec (.mbxResponse h) s = .next s) ∧
    (∀ (code : Nat) (ws : List Word), code < 256 → ws.length ≤ 15 → let t := respond h code ws s
      rd P.DEV (mbxRspOff h) t = W (code * 2 ^ 24 + fld 15 8 ctl * 2 ^ 16 + ws.length) ∧
      (∀ n, n < ws.length → rd P.DEV (mbxRspOff h + 4 + 4 * n) t = ws.getD n 0) ∧
      bit 1 (rd P.DEV (mbxCtl h) t) = false ∧ bit 2 (rd P.DEV (mbxCtl h) t) = true ∧ t.banks = s.banks) ∧
    (∀ (m : Msg) (a : TWord) (w : TWord), s.dev.mode = .run → sinkMsg (.svcDown 4) s = some m → m.status = 0 →
      m.payload = [a, w] → wordsFail [a, w] = none → m.len = 2 → fld 29 0 a.data = R.DEV_MBX_F_REQ →
      let t := dropMsg (.svcDown 4) s
      (m.cls = 0x21 → bit 1 (rd P.DEV R.DEV_MBX_F_CTL s) = false → exec .fabricMailboxAccess s =
        .next (svcReply 4 m [] 0 (wr P.DEV R.DEV_MBX_F_REQ w.data t))) ∧
      (m.cls = 0x20 → w.data = 1 → exec .fabricMailboxAccess s =
        .next (svcReply 4 m [tw .data (rd P.DEV R.DEV_MBX_F_REQ s)] 0 t)))

/-- POR, loss of supplies and RST_N clear the device, strap sampling leaves HOLD, a host soft reset re-runs the
release. Spec: 12_startup_and_release.md, From supplies valid to RUN; 12_startup_and_release.md, Straps;
12_startup_and_release.md, Resets that re-run the release; 01_levels_and_islands.md, Operating modes. Which events
count as ignored is log entry 7. -/
def Obligations.SuppliesResetsAndStraps : Prop :=
  ∀ (s : State),
    ((s.dev.mode = .off ∨ s.dev.mode = .scan) → ∃ t, exec .por s = .next t ∧ t.dev.mode = .hold ∧
      t.dev.sampled = false ∧ t.banks = Banks.reset ∧ t.regs = [] ∧ t.store.areas = s.store.areas ∧
      t.upd.pointer = s.upd.pointer ∧ t.pending = s.pending) ∧
    (s.dev.mode ≠ .off → s.dev.mode ≠ .scan → exec .por s = .next (ignored 0 s)) ∧
    (s.dev.mode ≠ .off → ∃ t, exec .suppliesInvalid s = .next t ∧ t.dev.mode = .off ∧ t.banks = Banks.reset ∧
      t.regs = [] ∧ t.store.areas = s.store.areas) ∧
    (s.dev.mode ≠ .off → s.dev.mode ≠ .scan → ∃ t, exec .rstN s = .next t ∧ t.dev.mode = .hold ∧
      t.banks = Banks.reset ∧ t.store.areas = s.store.areas ∧ fld 3 0 (rd P.RST R.RST_CAUSE t) = 1 ∧
      (s.dev.mode ≠ .hold → t.dev.previous = BitVec.ofNat 4 (modeCode s.dev.mode))) ∧
    (s.dev.mode = .scan → exec .rstN s = .next (ignored 1 s)) ∧
    (∀ pins : BitVec 15, s.dev.mode = .hold → s.dev.holdKind = .boot → s.dev.sampled = false →
      ∃ t, exec (.strapSampling pins) s = .next t ∧ t.dev.straps = pins &&& 0x77FF ∧ t.dev.sampled = true ∧
        (pins.toNat % 4 = 3 → t.dev.mode = .hold ∧ rdf P.RST R.RST_STARTUP_STAT 31 24 t = E.PERM_FAULT) ∧
        (pins.toNat % 4 = 1 → t.dev.mode = .recovery)) ∧
    (∀ rq, Reaches rq P.DEV s → s.dev.mode = .run →
      (s.fox.gone = true → exec (.hostSoftReset rq) s = .next (setDev { s.dev with resetWaiting := some 2 } s)) ∧
      (s.fox.armed = none → s.fox.gone = false → ∃ t, exec (.hostSoftReset rq) s = .next t ∧ t.dev.mode = .release ∧ t.dev.rerun = true ∧
        t.dev.relStep = 0 ∧ t.dev.outReleased = false ∧ t.dev.weReleased = false ∧ t.dev.srReleased = false ∧
        t.banks.words = s.banks.words ∧ t.planes = s.planes ∧ t.flash = s.flash ∧ t.store = s.store ∧
        fld 3 0 (rd P.RST R.RST_CAUSE t) = 2))

/-- The power-up load leads to SELFTEST or SAFE, the self-test to RELEASE, SAFE or HOLD, and the locks end start-up or
refuse it. Spec: 12_startup_and_release.md, From supplies valid to RUN; 16_self_test_and_faults.md, The power-up test;
15_power_and_clocks.md, Clock loops, trees and the Hare oscillator. -/
def Obligations.StartupLoadsTestsAndLocks : Prop :=
  ∀ (s : State),
    (s.dev.mode = .load → s.dev.loadKind ≠ .wakeSleep → s.dev.loadKind ≠ .wakeBear →
      let r := loadAll loadBoot (List.range 64) s
      (r.1 = none → ∃ t, exec .powerUpLoadDone s = .next t ∧ t.dev.mode = .selftest ∧ t.wpk.failed = 0 ∧
        t.wpk.incomplete = 0 ∧ rd P.WPK R.WPK_PU_FIRST t = 0 ∧ rd P.WPK R.WPK_PU_COUNTS t = 0) ∧
      (∀ c, r.1 = some c → ∃ t, exec .powerUpLoadDone s = .next t ∧ t.dev.mode = .safe ∧
        rdf P.RST R.RST_STARTUP_STAT 31 24 t = c % 256)) ∧
    (s.dev.mode = .selftest →
      let t := stamp R.RST_STARTUP_T1 15 0 (afterTest (putVerdicts s))
      (strapTest s ≠ 3 → s.wpk.failed = 0 → s.wpk.incomplete = 0 → exec .selftestDone s = .next (beginRelease t) ∧
        fld 9 0 (rd P.WPK R.WPK_PU_STAT (putVerdicts s)) = 0x155) ∧
      (strapTest s ≠ 3 → s.wpk.failed ≠ 0 → exec .selftestDone s = .next (stopSafe E.BIST_FAIL t)) ∧
      (strapTest s = 3 → ∃ u, exec .selftestDone s = .next u ∧ u.dev.mode = .hold ∧ u.dev.holdKind = .test)) ∧
    (∀ e, s.dev.mode = .release → s.dev.rerun = false → s.pwr.hare = true → s.dev.loadKind = .powerUp →
      (exec (.startupLockDone false e false) s = .next (stopSafe E.LEVEL_REFUSED s)) ∧
      (let r := loadClockRecord (setVouts e s)
       r.1 = false → exec (.startupLockDone true e false) s = .next (r.2 |> voutSend (strapPl r.2)
         |> wrf P.PMU R.PMU_LEVEL_STAT 9 9 1 |> leaveHare |> stamp R.RST_STARTUP_T1 31 16 |> releaseDone))) ∧
    (∀ e, s.dev.mode = .release → s.dev.rerun = false → s.pwr.hare = true → s.dev.loadKind = .wakeSleep →
      exec (.startupLockDone true e false) s = .next (stamp R.RST_STARTUP_T1 31 16 (leaveHare s)))

/-- DONE seen high, the release steps in their order, and the commands CONTINUE, ENTER_SAFE and REBOOT. Spec:
12_startup_and_release.md, Staged release; 12_startup_and_release.md, The shared DONE line; 01_levels_and_islands.md,
Operating modes. Which events count as ignored is log entry 7. -/
def Obligations.ReleaseStepsOpenTheGates : Prop :=
  ∀ (s : State),
    (s.dev.mode = .release → s.dev.doneReleased = true → s.dev.doneSeen = false →
      ∃ t, exec .doneSeenHigh s = .next t ∧ t.dev.doneSeen = true ∧ t.io.doneLine = true ∧
        rdf P.RST R.RST_STARTUP_STAT 7 7 t = 1) ∧
    (s.dev.mode = .run → exec .doneSeenHigh s = .next (setIo { s.io with doneLine := true } s) ∧
      exec .doneFall s = .next (md P.RST R.RST_DONE_STAT (satFld 31 16) (setIo { s.io with doneLine := false } s))) ∧
    (s.dev.mode = .release → releaseReady s = true → s.dev.relStep < 2 →
      let item := relItem (rdf P.RST R.RST_RELEASE_EFF 2 0 s) s.dev.relStep
      ∃ t, exec .releaseStep s = .next t ∧ t.dev.mode = .release ∧ t.dev.relStep = s.dev.relStep + 1 ∧
        t.dev.outReleased = (s.dev.outReleased || item == 0) ∧ t.dev.weReleased = (s.dev.weReleased || item == 1) ∧
        t.dev.srReleased = (s.dev.srReleased || item != 0 && item != 1) ∧ t.banks = s.banks) ∧
    (s.dev.mode = .release → releaseReady s = true → s.dev.relStep = 2 → s.dev.rerun = true →
      relItem (rdf P.RST R.RST_RELEASE_EFF 2 0 s) 2 = 2 →
      exec .releaseStep s = .next (enterRun (setDev { s.dev with relStep := 3, srReleased := true } s))) ∧
    (s.dev.mode = .release → releaseReady s = false → exec .releaseStep s = .next s) ∧
    (∀ rq, Reaches rq P.DEV s →
      (s.dev.mode = .hold → s.dev.holdKind = .test → rq = .host → allPass s = true →
        exec (.continueCmd rq) s = .next (beginRelease s)) ∧
      (s.dev.mode ≠ .hold → exec (.continueCmd rq) s = .next (ignored 9 s)) ∧
      (s.dev.mode = .run → rq = .host → ∃ t, exec (.enterSafe rq) s = .next t ∧ t.dev.mode = .safe ∧
        t.dev.previous = 5 ∧ t.dev.safeFromRun = true ∧ t.dev.outReleased = false ∧ t.dev.weReleased = false ∧
        t.dev.srReleased = false ∧ rdf P.RST R.RST_DONE_STAT 0 0 t = 1 ∧ t.banks = s.banks) ∧
      (rq ≠ .host → exec (.enterSafe rq) s = .next (ignored 5 s)) ∧
      (s.dev.mode = .recovery → rq = .host → rdf P.UPD R.UPD_STAT 3 0 s = 3 →
        ∃ t, exec (.reboot rq) s = .next t ∧ t.dev.mode = .hold ∧ t.dev.holdKind = .reboot ∧
          rd P.RST R.RST_STARTUP_STAT t = 0) ∧
      (s.dev.mode ≠ .recovery → exec (.reboot rq) s = .next (ignored 0xA s)))

/-- A load fills the region's staging plane or is refused; a stream opens, takes its words, and closes or is aborted.
Spec: 11_personalities_and_fox.md, Reaching the Fox port; 11_personalities_and_fox.md, Image format;
11_personalities_and_fox.md, Library programming. -/
def Obligations.LoadsAndStreamsFillStagingPlanes : Prop :=
  (∀ (s : State),
    (∀ rq (v : Word), Reaches rq P.FOX s → bit 0 (rd P.FOX R.PAGE_CTL s) = true → entering s = false → bit 31 v = true →
      1 ≤ recSrc v → recSrc v ≤ 3 →
      let r := fld 21 16 v
      let t := wr P.FOX R.FOX_LOAD_CTL (v &&& W 0x003F0707) s
      (loadHeaderFault rq (recSrc v) (fld 2 0 v) r t = none → ∃ u, exec (.foxLoad rq v) s = .next u ∧
        tfind u.fox.loads r = some ⟨recSrc v, fld 2 0 v, rq⟩ ∧ stageValid r u = false ∧ u.planes = s.planes) ∧
      (∀ c, loadHeaderFault rq (recSrc v) (fld 2 0 v) r t = some c →
        exec (.foxLoad rq v) s = .next (loadRefused [r] false c (frameAddr r 0) t))) ∧
    (∀ (r : RegionId) (l : Load), tfind s.fox.loads r.val = some l → l.src < 4 →
      let ws := area (areaOf l.src l.slot r.val) s
      let m := planeFrom l.src r.val ws s s.planes.staging
      recordsFault true (maskOf [r.val]) none (recordsOf (plainWords ws)) = none →
      (sealFault ws = none → planesFault [r.val] m = none → ∃ t, exec (.foxLoadDone r) s = .next t ∧
        t.planes.staging = m ∧ t.planes.active = s.planes.active ∧ tfind t.fox.loads r.val = none ∧
        rd (P.RGN r.val) R.RGN_STAGE_STAT t = W (2 ^ 31 + l.src * 2 ^ 8 + l.slot)) ∧
      (∀ c, sealFault ws = some c → l.src ≠ 1 →
        exec (.foxLoadDone r) s = .next (loadRefused [r.val] true c (frameAddr r.val 0) s)) ∧
      (∀ c, sealFault ws = some c → l.src = 1 → exec (.foxLoadDone r) s =
        .next (markCorrupt (8 * r.val + l.slot) (loadRefused [r.val] true c (frameAddr r.val 0) s))))) ∧
  (∀ (rq : Requester) (s : State), Reaches rq P.FOX s →
    (∀ v : Word, bit 0 (rd P.FOX R.PAGE_CTL s) = true → entering s = false → bit 30 v = false → s.fox.stream = none →
      (∃ t, exec (.streamOpen rq v) s = .next t ∧ t.fox.stream = some ⟨streamClass rq, none, [], false, false⟩ ∧
        t.planes = s.planes ∧ t.store = s.store) ∧
      (∃ t, exec (.libraryProgramOpen rq v) s = .next t ∧ t.fox.stream = some ⟨streamClass rq,
        some (8 * fld 13 8 v + fld 2 0 v), [], false, false⟩ ∧
        t.planes = s.planes ∧ t.store = s.store)) ∧
    (∀ w, s.fox.stream = none → exec (.streamData rq w) s = .next (countN P.FOX R.FOX_STREAM_DROPPED 1 s) ∧
      exec (.streamAbort rq) s = .next s ∧ exec .streamIdleTimeout s = .next s) ∧
    (∀ (x : Stream) (w : Word), s.fox.stream = some x →
      (x.owner ≠ streamClass rq ∨ streamWritten x s = true →
        exec (.streamData rq w) s = .next (countN P.FOX R.FOX_STREAM_DROPPED 1 s)) ∧
      (x.owner = streamClass rq → streamWritten x s = false → 1024 ≤ s.fox.buffer.length →
        exec (.streamData rq w) s = .next (setFox { s.fox with heldWrites := s.fox.heldWrites ++ [w] } s)) ∧
      (x.owner = streamClass rq → streamWritten x s = false → s.fox.buffer.length < 1024 → streamWaits s = true →
        exec (.streamData rq w) s = .next (setFox { s.fox with buffer := s.fox.buffer ++ [w] } s)) ∧
      (let y := { x with words := x.words ++ [w] }
       let t := setFox { s.fox with stream := some y } s
       let u := match x.target with
         | some k => if x.started then setArea (128 + k) y.words t else t
         | none => t
       x.owner = streamClass rq → s.fox.buffer = [] → s.fox.heldWrites = [] → streamWritten x s = false →
         streamWaits s = false → x.refused = false →
         (y.words.length = 24 → exec (.streamData rq w) s = .next (closeEnded (streamHeader y u))) ∧
         (24 < y.words.length → (y.words.length - 24) % 33 = 0 →
           exec (.streamData rq w) s = .next (closeEnded (streamRecord y u))) ∧
         (y.words.length < 24 ∨ (24 < y.words.length ∧ (y.words.length - 24) % 33 ≠ 0) →
           exec (.streamData rq w) s = .next u)) ∧
      (streamEnded x = false → x.refused = false → ∃ t, exec (.streamAbort rq) s = .next t ∧ t.fox.stream = none ∧
        t.fox.buffer = [] ∧ t.fox.heldWrites = [] ∧
        rdf P.FOX R.FOX_LOAD_STAT 31 24 t = E.ABSENT_TARGET ∧ exec .streamIdleTimeout s = .next t)))

/-- Library slots are programmed, erased or retired; service 0x02, the lock and the invalidation of a staging plane
act as given. Spec: 11_personalities_and_fox.md, Library programming; 11_personalities_and_fox.md, Reaching the Fox
port; 11_personalities_and_fox.md, Registers. What service 0x02 does beyond the spec's words is log entries 91 and 92;
an erase before a program is log entry 123. -/
def Obligations.LibrarySlotsAndFoxService : Prop :=
  (∀ (s : State),
    (∀ k ws rest, s.fox.programs = (k, ws) :: rest → s.fox.erasing.contains k = false →
      (sealFault ws = none → ∃ t, exec (.libraryProgramDone false false) s = .next t ∧ t.fox.programs = rest ∧
        area (128 + k) t = ws ∧ (slot k t).valid = true ∧ (slot k t).busy = false ∧ (slot k t).corrupt = false ∧
        rd P.CSC R.CSC_PROG_STAT t = W (k / 8 * 2 ^ 8 + k % 8)) ∧
      (∃ t, exec (.libraryProgramDone true false) s = .next t ∧ t.fox.programs = rest ∧ (slot k t).retired = true ∧
        (slot k t).valid = (slot k s).valid ∧ (slot k t).busy = false)) ∧
    (∀ k rest, s.fox.erasing = k :: rest → programming k s = false →
      (∃ t, exec (.slotEraseDone false false) s = .next t ∧ t.fox.erasing = rest ∧ area (128 + k) t = [] ∧
        (slot k t).busy = false ∧ (slot k t).corrupt = false ∧ (slot k t).retired = (slot k s).retired) ∧
      (∃ t, exec (.slotEraseDone true false) s = .next t ∧ (slot k t).retired = true)) ∧
    (∀ k rest, s.fox.erasing = k :: rest → programming k s = true → exec (.slotEraseDone false false) s =
      .next (drainAll (mdSlot k (fun x => { x with corrupt := false }) (setArea (128 + k) []
        (setFox { s.fox with erasing := rest } s))))) ∧
    (∀ rq, Reaches rq P.CSC s → bit 0 (rd P.CSC R.PAGE_CTL s) = true → entering s = false →
      let k := 8 * rdf P.CSC R.CSC_SLOT_SEL 13 8 s + rdf P.CSC R.CSC_SLOT_SEL 2 0 s
      ((slot k s).busy = false → slotRef k s = false → (slot k s).retired = false →
        ∃ t, exec (.slotErase rq) s = .next t ∧ t.fox.erasing = s.fox.erasing ++ [k] ∧ (slot k t).valid = false ∧
          (slot k t).busy = true ∧ t.store.areas = s.store.areas) ∧
      ((slot k s).busy = true ∨ slotRef k s = true →
        exec (.slotErase rq) s = .next (permFault P.CSC R.CSC_SLOT_ERASE s)))) ∧
  (∀ (s : State),
    (∀ (tap : Option RegionId) (m : Msg) (a : TWord) (body : List TWord), dmaRuns s = true →
      (chan (foxIn tap) s).buffer = [] → sinkMsg (foxIn tap) s = some m → m.status = 0 → m.payload = a :: body →
      m.payload.length = m.len → wordsFail m.payload = none →
      let t := dropMsg (foxIn tap) s
      let rq := foxRequester tap m
      (m.cls = 0x21 → fld 29 0 a.data = 0x10000 → body ≠ [] → body.length ≤ 256 →
        exec (.foxServiceAccess tap) s = .next (foxReply tap m [] 0 t)) ∧
      (∀ w : TWord, m.cls = 0x21 → body = [w] → foxOffset (fld 29 0 a.data) = true →
        foxReadOnly (fld 29 0 a.data) = false → exec (.foxServiceAccess tap) s =
          .next (foxReply tap m [] 0 (pageWrite rq P.FOX (fld 29 0 a.data) w.data t))) ∧
      (∀ w : TWord, m.cls = 0x21 → body = [w] → foxOffset (fld 29 0 a.data) = true →
        foxReadOnly (fld 29 0 a.data) = true →
        exec (.foxServiceAccess tap) s = .next (foxReply tap m [] 0 t)) ∧
      (m.cls = 0x20 → body.length ≠ 1 →
        exec (.foxServiceAccess tap) s = .next (foxReply tap m [] E.PERM_FAULT t))) ∧
    (∀ (tap : Option RegionId) (h rt ad : TWord) (body : List TWord) (w : TWord), dmaRuns s = true →
      (chan (foxIn tap) s).gathered = h :: rt :: ad :: body → streamOpen (h :: rt :: ad :: body) = true →
      (chan (foxIn tap) s).buffer = [w] → w.tag = .data → body.length < fld 11 0 h.data - 1 →
      let u := pageWrite (foxRequester tap ⟨h.data, rt.data, [ad], 0⟩) P.FOX R.FOX_STREAM_DATA w.data
        (takeOne (foxIn tap) w s)
      (1024 ≤ s.fox.buffer.length → exec (.foxServiceAccess tap) s = .next s) ∧
      (s.fox.buffer.length < 1024 → (chan (foxIn tap) u).buffer = [] → sinkMsg (foxIn tap) u = none →
        exec (.foxServiceAccess tap) s = .next u)) ∧
    (∀ rq, Reaches rq P.FOX s → exec (.foxLock rq) s = .next (wr P.FOX R.FOX_LOCK 1 s)) ∧
    (∀ rq v, Reaches rq P.FOX s → bit 0 (rd P.FOX R.FOX_LOCK s) = true →
      exec (.registerWrite rq (BitVec.ofNat 26 (P.FOX * 4096 + R.FOX_ALLOW_HOST_LO)) 4 v) s = .next s) ∧
    (∀ rq (r : RegionId), Reaches rq (P.RGN r.val) s →
      (loading r.val s = false → locked r.val s = false → inMask (allowed rq s) r.val = true →
        ∃ t, exec (.stageInvalidate rq r) s = .next t ∧ stageValid r.val t = false ∧ t.planes = s.planes ∧
          t.fox = s.fox) ∧
      (loading r.val s = true ∨ locked r.val s = true ∨ inMask (allowed rq s) r.val = false →
        exec (.stageInvalidate rq r) s = .next (permFault (P.RGN r.val) R.RGN_STAGE_CTL s))))

/-- A swap set is armed, disarmed, drained, found drained, or aborted at its drain limit. Spec:
11_personalities_and_fox.md, The swap. -/
def Obligations.SetsAreArmedAndDrained : Prop :=
  ∀ (s : State),
    (∀ rq, Reaches rq P.FOX s → bit 0 (rd P.FOX R.PAGE_CTL s) = true →
      let m := rd64 P.FOX R.FOX_ARM_MASK_LO s
      let at_ := rd64 P.FOX R.FOX_ARM_AT_LO s
      (armFault rq m (some at_) s = none → ∃ t, exec (.armCtlArm rq) s = .next t ∧ t.fox.armed = some (m, at_) ∧
        t.fox.drainAt = none ∧ t.fox.gone = false ∧ t.planes = s.planes ∧ t.banks = s.banks) ∧
      (armFault rq m none s = none → ∃ t, exec (.now rq) s = .next t ∧ t.fox.armed = some (m, s.time.ringTime) ∧
        t.fox.drainAt = none ∧ t.fox.gone = false ∧ t.planes = s.planes ∧ t.banks = s.banks) ∧
      (∀ c, armFault rq m (some at_) s = some c →
        exec (.armCtlArm rq) s = .next (wrf P.FOX R.FOX_ARM_CTL 31 24 c s))) ∧
    (∀ rq m a, Reaches rq P.FOX s → s.fox.armed = some (m, a) →
      (s.fox.drainAt = none → ∃ t, exec (.disarm rq) s = .next t ∧ t.fox.armed = none ∧ t.planes = s.planes) ∧
      (∀ d, s.fox.drainAt = some d →
        exec (.disarm rq) s = .next (wrf P.FOX R.FOX_ARM_CTL 31 24 E.PERM_FAULT s))) ∧
    (∀ m a, s.fox.armed = some (m, a) → s.fox.drainAt = none →
      (a ≤ s.time.ringTime → setFault m s = none → ∃ t, exec .swapDrainStart s = .next t ∧
        t.fox.drainAt = some s.time.ringTime ∧ t.fox.armed = some (m, a) ∧ t.regs = s.regs ∧ t.banks = s.banks) ∧
      (∀ c low, a ≤ s.time.ringTime → setFault m s = some (c, low) →
        exec .swapDrainStart s = .next (abortSet c low s)) ∧
      (s.time.ringTime < a → exec .swapDrainStart s = .next s)) ∧
    (∀ r : RegionId, inDrain r.val s = true → regionOn r.val s = true → (rgn r.val s).draining = false →
      ∃ t, exec (.regionDrainNotice r) s = .next t ∧ (rgn r.val t).draining = true ∧ (rgn r.val t).drained = false ∧
        rdf (P.RGN r.val) R.RGN_SWAP_STATE 2 0 t = 2 ∧ t.fox = s.fox ∧ t.banks = s.banks ∧ t.planes = s.planes) ∧
    (∀ r : RegionId, inDrain r.val s = true → (rgn r.val s).draining = true → (rgn r.val s).drained = false →
      (rgn r.val s).schReport = true → switchIdle r.val s = true → ∃ t, exec (.regionDrained r) s = .next t ∧
        (rgn r.val t).drained = true ∧ rdf (P.RGN r.val) R.RGN_SWAP_STATE 2 0 t = 3 ∧
        t.fox.drainedSet = s.fox.drainedSet ||| maskOf [r.val] ∧ t.banks = s.banks) ∧
    (setIsDrained s = true → ∃ t, exec .setDrained s = .next t ∧ t.fox.gone = true ∧ t.fox.armed = s.fox.armed ∧
      t.planes = s.planes ∧ t.banks = s.banks) ∧
    (∀ m a d, s.fox.armed = some (m, a) → s.fox.drainAt = some d → s.fox.gone = false → setIsDrained s = false →
      (d.toNat + rdf P.FOX R.FOX_DRAIN_LIMIT 19 0 s < s.time.ringTime.toNat → ∃ low, exec .drainTimeout s =
        .next (settleAll (abortSet E.DRAIN_TIMEOUT low s)) ∧ (abortSet E.DRAIN_TIMEOUT low s).fox.armed = none) ∧
      (s.time.ringTime.toNat ≤ d.toNat + rdf P.FOX R.FOX_DRAIN_LIMIT 19 0 s → exec .drainTimeout s = .next (settleAll s)))

/-- A swap exchanges the two planes of its region word for word and releases it step by step; handovers and resets of
the region. Spec: 11_personalities_and_fox.md, The swap; 11_personalities_and_fox.md, The Squirrel buffer;
05_tiles_logic_routing.md, Clocks, GSR and keep slots; 12_startup_and_release.md, Resets that re-run the release. -/
def Obligations.SwapExchangesPlanesAndReleases : Prop :=
  ∀ (r : RegionId) (s : State),
    let x := rgn r.val s
    let st := rdf (P.RGN r.val) R.RGN_SWAP_STATE 2 0 s
    (swapping r.val s = true → regionOn r.val s = true → st = 3 → ∃ t, exec (.swapGo r) s = .next t ∧
      (∀ f w, f < 1536 → w < 32 → planeWord t.planes.active r.val f w = planeWord s.planes.staging r.val f w ∧
        planeWord t.planes.staging r.val f w = planeWord s.planes.active r.val f w) ∧
      (∀ q f w, q ≠ r.val → f < 1536 → w < 32 → planeWord t.planes.active q f w = planeWord s.planes.active q f w ∧
        planeWord t.planes.staging q f w = planeWord s.planes.staging q f w) ∧
      (rgn r.val t).gsr = true ∧ rdf (P.RGN r.val) R.RGN_SWAP_STATE 2 0 t = 5) ∧
    (swapping r.val s = true → regionOn r.val s = true → st = 6 →
      let u := mdRgn r.val (fun y => { y with released := y.released + 1 }) (releaseStepOf r.val x.released s)
      (x.released = 1 → exec (.swapGo r) s = .next (settleAll u)) ∧
      (x.released = 2 → x.resetWaiting = false → exec (.swapGo r) s = .next (settleAll (regionSwapped r.val u)))) ∧
    (swapping r.val s = false → exec (.swapGo r) s = .next (settleAll s)) ∧
    (x.gsr = true → regionOn r.val s = true → swapping r.val s = true → exec (.gsrRelease r) s = .next
      (settleAll (squirrelDeliver r.val (releaseStepOf r.val 0 (swapState 6 r.val
        (mdRgn r.val (fun y => { y with gsr := false, released := 1 }) s)))))) ∧
    (x.gsr = true → regionOn r.val s = true → swapping r.val s = false → s.dev.srReleased = true →
      s.dev.mode = .run → (s.pwr.hare = true ∨ islandStopped r.val s = false) →
      exec (.gsrRelease r) s = .next (settleAll (setRgn r.val { x with gsr := false } s))) ∧
    (∀ m a, s.fox.armed = some (m, a) → s.dev.resetWaiting = none → inMask m r.val = true → s.fox.swappedSet = m →
      s.fox.drainedSet = maskOf [r.val] → ∃ t, exec (.swapRelease r) s = .next t ∧ t.fox.armed = none ∧
        t.fox.gone = false ∧ rd P.FOX R.FOX_SWAP_STAT t = 0 ∧ t.sched.heldRegions.contains r.val = false ∧
        t.planes = s.planes ∧ t.banks = s.banks) ∧
    (∀ m : Msg, s.dev.mode = .run → sinkMsg (.squirrel r) s = some m → m.status = 0 → m.cls = 7 →
      m.payload.length = m.len →
      let t := dropMsg (.squirrel r) s
      (x.sq.length + m.len ≤ 512 → exec (.handover r) s =
        .next (setRgn r.val { rgn r.val t with sq := (rgn r.val t).sq ++ m.payload } t)) ∧
      (512 < x.sq.length + m.len → exec (.handover r) s = .next (sqDrop r.val m.len t))) ∧
    (∀ rq, Reaches rq (P.RGN r.val) s →
      (swapping r.val s = true → exec (.regionReset rq r) s =
        .next (settleAll (setRgn r.val { x with resetWaiting := true } s))) ∧
      (swapping r.val s = false → ∃ t, exec (.regionReset rq r) s = .next t ∧
        (rgn r.val t).gsr = true ∧ (rgn r.val t).sq = [] ∧ t.planes = s.planes ∧ t.banks.words = s.banks.words))

/-- The scrub counts or records a frame that fails and gives the digest of each plane at the end of a pass. Spec:
11_personalities_and_fox.md, Scrub and region digest. -/
def Obligations.ScrubRepairsAndDigestsPlanes : Prop :=
  ∀ (r : RegionId) (f : Fin 1536) (s : State), scrubRuns r.val s = true →
    let pg := P.RGN r.val
    let t := wr pg R.RGN_SCRUB_LAST (W (frameAddr r.val f.val)) s
    let act := (rgn r.val s).scrubStaging = false
    (act → (rgn r.val s).unreferenced.contains f.val = false → exec (.scrubFrameFail r .active f true) s =
      .next (frameFailed r.val f.val (errTransient pg (irq pg 26 (count pg R.RGN_SCRUB_FIXES t))))) ∧
    (act → exec (.scrubFrameFail r .active f false) s = .next
      (frameFailed r.val f.val (err pg E.PARITY 0 0 (md pg R.RGN_SCRUB_STAT (satFld 15 0) t)))) ∧
    (¬act → stageValid r.val s = true → ∀ b, ∃ u, exec (.scrubFrameFail r .staging f b) s = .next u ∧
      stageValid r.val u = false ∧ u.planes = s.planes) ∧
    (act → ∃ u, exec (.scrubPassEnd r .active) s = .next u ∧ u.planes = s.planes ∧ u.banks = s.banks ∧
      (rgn r.val u).scrubStaging = true ∧
      rd pg R.RGN_DIGEST_HI u = (planeDigest r.val s.planes.active).1 ∧
      rd pg R.RGN_DIGEST_LO u = (planeDigest r.val s.planes.active).2 ∧ bit 31 (rd pg R.RGN_DIGEST_STAT u) = true) ∧
    (¬act → stageValid r.val s = true → (rgn r.val s).scrubCut = false → ∃ u,
      exec (.scrubPassEnd r .staging) s = .next u ∧ (rgn r.val u).scrubStaging = false ∧ u.planes = s.planes ∧
      rd pg R.RGN_STAGE_DIGEST_HI u = (planeDigest r.val s.planes.staging).1 ∧
      rd pg R.RGN_STAGE_DIGEST_LO u = (planeDigest r.val s.planes.staging).2)

/-- PROGRAM, ERASE_SECTOR, GUARD_SET and GUARD_UNLOCK take effect with their third write; a refused PROGRAM is
recorded with its code. Spec: 13_code_data_flash.md, Commands; 13_code_data_flash.md, The Hedgehog guard. -/
def Obligations.FlashCommandsTakeEffect : Prop :=
  ∀ (rq : Requester) (off : BitVec 25) (x : Nat) (fb : Option (Fin 4)) (s : State),
    let b := sectorBank x
    let o := off.toNat
    let p := pageIn x o
    let t := setSeq rq b 0 s
    let from_ := if rq = .steward then fb.map (·.val) else none
    let refusal (code : Nat) := cdfRefusal rq (rq == .host) from_ code b x p t
    (FlashTakes rq Cdf.PROGRAM o x s → refusal Cdf.PROGRAM = none → exec (.program rq off fb) s =
      .next (mdFbank b (fun y => { y with idMode := false, load := some ⟨rq, x, p, []⟩ }) t)) ∧
    (FlashTakes rq Cdf.PROGRAM o x s → ∀ c, refusal Cdf.PROGRAM = some c → exec (.program rq off fb) s =
      .next (t |> wrf P.CDF (R.CDF_BANK_STAT + 4 * b) 15 8 c |> count P.CDF R.CDF_REFUSED
        |> wr P.CDF R.CDF_LAST_REFUSED (W (c * 2 ^ 24 + rqCode rq * 2 ^ 16 + Cdf.PROGRAM * 2 ^ 8 + x)))) ∧
    (FlashTakes rq Cdf.ERASE_SECTOR o x s → refusal Cdf.ERASE_SECTOR = none →
      exec (.eraseSector rq off fb) s = .next (startOp b Cdf.ERASE_SECTOR x 0 [] t)) ∧
    (FlashTakes rq Cdf.GUARD_SET o x s → refusal Cdf.GUARD_SET = none →
      ∃ u, exec (.guardSet rq off fb) s = .next u ∧ guarded x u = true ∧
        (fbank b u).op.map (·.code) = some Cdf.GUARD_SET ∧ u.flash.cells = s.flash.cells) ∧
    (FlashTakes rq Cdf.GUARD_UNLOCK o x s → refusal Cdf.GUARD_UNLOCK = none →
      (s.flash.key = s.flash.password → ∃ u, exec (.guardUnlock rq off fb) s = .next u ∧ guarded x u = false ∧
        (∀ g, g < 34 → g ≠ guardGroup x → u.flash.guardBits.getLsbD g = s.flash.guardBits.getLsbD g) ∧
        u.flash.key = 0) ∧
      (s.flash.key ≠ s.flash.password → ∃ u, exec (.guardUnlock rq off fb) s = .next u ∧
        u.flash.guardBits = s.flash.guardBits ∧ u.flash.key = 0 ∧
        rdf P.GUARD R.GUARD_STAT 31 24 u = E.GUARD_LOCKED)) ∧
    (∀ v : BitVec 16, flashServed s = true → (rq = .steward ∨ (rq = .host ∧ s.dev.sampled = true)) →
      sectorOf o = some x → o % 2 = 0 →
      (fbank b s).load = none → tget 0 s.flash.seq (seqKey rq b) = 0 →
      (o = flashBase b + 0x1D88 → v = 0x6C → exec (.cdfSequenceWrite rq off v) s = .next (setSeq rq b 1 s)) ∧
      (o ≠ flashBase b + 0x1D88 ∨ v ≠ 0x6C →
        exec (.cdfSequenceWrite rq off v) s = .next (count P.CDF R.CDF_SEQ_ERRORS s)))

/-- ERASE_BANK, SUSPEND, RESUME, READ_ID and STATUS_CLEAR act on their bank; a suspend is honoured and reached. Spec:
13_code_data_flash.md, Commands. Where an operation honours a suspend is log entry 47. -/
def Obligations.FlashBankCommandsTakeEffect : Prop :=
  ∀ (rq : Requester) (b : Fin 4) (fb : Option (Fin 4)) (s : State),
    let x := 32 * b.val
    let o := flashBase b.val + 0x1D88
    let t := setSeq rq b.val 0 s
    let go (code : Nat) : Prop := FlashTakes rq code o x s ∧
      cdfRefusal rq (rq == .host) (if rq = .steward then fb.map (·.val) else none) code b.val x (pageIn x o) t = none
    (go Cdf.ERASE_BANK → exec (.eraseBank rq b fb) s = .next (startOp b.val Cdf.ERASE_BANK x 0 [] t)) ∧
    (go Cdf.SUSPEND → exec (.suspend rq b fb) s = .next (mdFbank b.val (fun y => { y with
      idMode := false
      op := y.op.map fun q => if q.suspending || y.suspended.isSome then q else { q with pendingSuspend := true } }) t)) ∧
    (∀ q, go Cdf.RESUME → (fbank b.val s).suspended = some q → (fbank b.val s).op = none →
      ∃ u, exec (.resume rq b fb) s = .next u ∧ (fbank b.val u).suspended = none ∧
        (fbank b.val u).op = some { q with suspending := false, pendingSuspend := false } ∧
        u.flash.cells = s.flash.cells) ∧
    (go Cdf.READ_ID → exec (.readId rq b fb) s = .next (mdFbank b.val (fun y => { y with idMode := true }) t)) ∧
    (go Cdf.STATUS_CLEAR → exec (.statusClear rq b fb) s = .next (mdFbank b.val (fun y => { y with idMode := false })
      (wrf P.CDF (R.CDF_BANK_STAT + 4 * b.val) 15 8 0 t))) ∧
    (∀ q, (fbank b.val s).op = some q → q.pendingSuspend = true → ∃ u, exec (.suspendHonoured b) s = .next u ∧
      (fbank b.val u).op = some { q with pendingSuspend := false, suspending := true } ∧ u.regs = s.regs) ∧
    (∀ q, (fbank b.val s).op = some q → q.suspending = true → ∃ u, exec (.suspendedReached b) s = .next u ∧
      (fbank b.val u).op = none ∧ (fbank b.val u).suspended = some { q with suspending := false } ∧
      u.flash.cells = s.flash.cells)

/-- A page buffer takes its halfwords, an operation ends with its sector programmed, erased or retired, and the array
is read. Spec: 13_code_data_flash.md, Commands; 13_code_data_flash.md, Reading; 13_code_data_flash.md, Wear,
retirement and retention. The sizes that a read may have are log entry 48. -/
def Obligations.FlashPagesLoadAndOperationsEnd : Prop :=
  ∀ (s : State),
    (∀ rq (off : BitVec 25) (v : BitVec 16) x (l : PageLoad), flashServed s = true →
      (rq = .steward ∨ (rq = .host ∧ s.dev.sampled = true)) → sectorOf off.toNat = some x → off.toNat % 2 = 0 → (fbank (sectorBank x) s).load = some l → l.rq = rq →
      let lo := sectorBase l.sector + 0x200 * l.page
      let buf := tput 0xFFFF ((off.toNat - lo) / 2) v l.buf
      (lo ≤ off.toNat → off.toNat < lo + 0x1FE → exec (.pageBufferWrite rq off v) s =
        .next (mdFbank (sectorBank x) (fun y => { y with load := some { l with buf := buf } }) s)) ∧
      (off.toNat = lo + 0x1FE → exec (.pageBufferWrite rq off v) s =
        .next (startProgram (sectorBank x) l.sector l.page buf s)) ∧
      (off.toNat < lo ∨ lo + 0x200 ≤ off.toNat →
        exec (.pageBufferWrite rq off v) s = .next (endLoad (sectorBank x) s))) ∧
    (∀ b : Fin 4, (fbank b.val s).load.isSome = true → ∃ t, exec (.pageLoadTimeout b) s = .next t ∧
      (fbank b.val t).load = none ∧ rdf P.CDF (R.CDF_BANK_STAT + 4 * b.val) 15 8 t = E.PERM_FAULT ∧
      t.flash.cells = s.flash.cells) ∧
    (∀ (b : Fin 4) (o : FlashOp) n, (fbank b.val s).op = some o → (fbank b.val s).suspended = none →
      (o.code = Cdf.PROGRAM → n ≤ 2 → ∃ t, exec (.cdfOpDone b n true 0) s = .next t ∧ (fbank b.val t).op = none ∧
        t.flash.cells = (storePage o.sector o.page o.buf s).flash.cells ∧
        rdf P.CDF (R.CDF_BANK_STAT + 4 * b.val) 15 8 t = 0) ∧
      (o.code = Cdf.ERASE_SECTOR → n ≤ 8 → o.sector < 128 → ∃ t, exec (.cdfOpDone b n true 0) s = .next t ∧
        (fbank b.val t).op = none ∧ (∀ a, sectorOf a = some o.sector → flashHw a t = 0xFFFF) ∧
        (∀ p, programmed o.sector p t = false ∨ 256 ≤ p) ∧
        rdf P.CDF (R.CDF_BANK_STAT + 4 * b.val) 15 8 t = 0) ∧
      (o.code = Cdf.PROGRAM → ∃ t, exec (.cdfOpDone b n false 0) s = .next t ∧
        (wearOf o.sector t).retired = true ∧
        (o.sector < 128 → rdf P.CDF (R.CDF_BANK_STAT + 4 * b.val) 15 8 t = E.PROG_FAIL))) ∧
    (∀ rq (off : BitVec 25) size x, flashServed s = true → (rq = .host → s.dev.sampled = true) →
      sectorOf off.toNat = some x →
      let b := sectorBank x
      let t := prefetch b (off.toNat / 32) s
      let p := pageIn x off.toNat
      (size ≠ 8 → flashReadable rq off.toNat size = true → readBusy rq b x p s = false → (fbank b s).idMode = false →
        tget 0 s.flash.badBits (off.toNat / 32) = 0 → exec (.cdfArrayRead rq off size) s =
          .next (deliver rq (narrow off.toNat size (tw .data (flashWord (off.toNat / 4 * 4) t))) t)) ∧
      (size ≠ 8 → flashReadable rq off.toNat size = true → readBusy rq b x p s = true →
        exec (.cdfArrayRead rq off size) s = .next (deliver rq (tw .stat (bankStat rq b s)) s)) ∧
      (flashReadable rq off.toNat 8 = true → exec (.cdfArrayRead rq off 8) s =
        .next (let r := flashRead rq off.toNat s
               let q := flashRead rq (off.toNat + 4) (deliver rq r.1 r.2)
               deliver rq q.1 q.2)) ∧
      (flashReadable rq off.toNat size = false → exec (.cdfArrayRead rq off size) s =
        .next (deliver rq zeroWord (err P.CDF E.PERM_FAULT 0 (0x40000000 + off.toNat) s))))

/-- SET_PW compares and replaces the password or counts the failure; mailbox flash commands and CDF's SOFT_RST act as
given. Spec: 13_code_data_flash.md, The Hedgehog guard; 13_code_data_flash.md, Mailbox commands;
13_code_data_flash.md, The CDF page. -/
def Obligations.PasswordsAndStewardFlashCommands : Prop :=
  ∀ (s : State),
    (∀ rq, Reaches rq P.GUARD s → lockout s = false →
      (s.flash.key = s.flash.password → ∃ t, exec (.setPw rq) s = .next t ∧ t.flash.password = s.flash.newPw ∧
        t.flash.key = 0 ∧ t.flash.newPw = 0 ∧ rdf P.GUARD R.GUARD_STAT 3 0 t = 0 ∧
        t.flash.guardBits = s.flash.guardBits) ∧
      (s.flash.key ≠ s.flash.password → rdf P.GUARD R.GUARD_STAT 3 0 s < 15 → ∃ t, exec (.setPw rq) s = .next t ∧
        t.flash.password = s.flash.password ∧ t.flash.key = 0 ∧ t.flash.newPw = 0 ∧
        rdf P.GUARD R.GUARD_STAT 3 0 t = rdf P.GUARD R.GUARD_STAT 3 0 s + 1 ∧
        lockout t = (rdf P.GUARD R.GUARD_STAT 3 0 s == 7))) ∧
    (∀ rq, Reaches rq P.GUARD s → lockout s = true →
      exec (.setPw rq) s = .next (wrf P.GUARD R.GUARD_STAT 31 24 E.GUARD_LOCKED s)) ∧
    (∀ h, MailboxAsks h 0x203 s → takesWork P.CDF s = true →
      let x := (mbxReq h 1 s).toNat
      sectorCode x = true → cdfRefusal .steward true none Cdf.ERASE_SECTOR (sectorBank x) x 0 s = none →
        exec (.sectorErase h) s = .next (respond h 0 [] (startOp (sectorBank x) Cdf.ERASE_SECTOR x 0 [] s))) ∧
    (∀ h x, MailboxAsks h 0x202 s → takesWork P.CDF s = true →
      let a := (mbxReq h 1 s).toNat
      let src := (mbxReq h 2 s).toNat
      0x40000000 ≤ a → sectorOf (a - 0x40000000) = some x → a % 0x200 = 0 → src % 4 = 0 → 0x10000000 ≤ src →
      src + 512 ≤ 0x12000000 →
      let b := sectorBank x
      let p := pageIn x (a - 0x40000000)
      (∀ c, cdfRefusal .steward true none Cdf.PROGRAM b x p s = some c →
        exec (.pageProgram h) s = .next (respond h c [] (cdfRefused .steward Cdf.PROGRAM b x c s))) ∧
      (cdfRefusal .steward true none Cdf.PROGRAM b x p s = none → ∃ t, exec (.pageProgram h) s = .next t ∧
        (fbank b t).op.map (fun o => (o.code, o.sector, o.page)) = some (Cdf.PROGRAM, x, p) ∧
        programmed x p t = true)) ∧
    (∀ rq, Reaches rq P.CDF s → ∃ t, exec (.cdfSoftReset rq) s = .next t ∧ t.flash.banks = [] ∧ t.flash.seq = [] ∧
      t.flash.guardBits = s.flash.guardBits ∧
      ((∀ b, b < 4 → (fbank b s).op = none ∧ (fbank b s).suspended = none) → t.flash.cells = s.flash.cells))

/-- A bundle is opened, taken in word by word, forwarded, checked at its end, and dropped by a cancel before READY.
Spec: 14_update_and_recovery.md, Bundles; 14_update_and_recovery.md, Download and distribution;
14_update_and_recovery.md, Mailbox commands. Signature, decryption and chunk checks are free values (log entries 93
and 94); what an intake keeps is log entry 72. -/
def Obligations.BundlesAreTakenInAndVerified : Prop :=
  ∀ (h : Half) (s : State),
    (MailboxAsks h 0x101 s → beginRefused s = false →
      (s.dev.mode = .recovery ∨ activeFromTarget s = false → ∃ t, exec (.bundleBegin h) s = .next t ∧ updState t = U.DOWNLOAD ∧
        intakeOpen t = true ∧ t.upd.headerPart = [] ∧ t.upd.intake = [] ∧ imageValid (targetPair s) t = false ∧
        imageValid (!targetPair s) t = imageValid (!targetPair s) s) ∧
      (s.dev.mode ≠ .recovery → activeFromTarget s = true → exec (.bundleBegin h) s =
        .next (respond h E.PERM_FAULT [] (updCode E.PERM_FAULT s)))) ∧
    (MailboxAsks h 0x101 s → beginRefused s = true → exec (.bundleBegin h) s = .next (respond h E.PERM_FAULT [] s)) ∧
    (∀ rq w, Reaches rq P.UPD s →
      let t := setUpd { s.upd with intake := s.upd.intake ++ [w] } s
      (intakeFrom rq s = false → exec (.bundleData rq w) s = .next s) ∧
      (intakeFrom rq s = true → 1024 ≤ s.upd.buffer.length → exec (.bundleData rq w) s =
        .next (setUpd { s.upd with heldWords := s.upd.heldWords ++ [w] } s)) ∧
      (intakeFrom rq s = true → s.upd.buffer.length < 1024 → intakeWaits s = true → exec (.bundleData rq w) s =
        .next (setUpd { s.upd with buffer := s.upd.buffer ++ [w] } s)) ∧
      let go := intakeFrom rq s = true ∧ intakeWaits s = false ∧ s.upd.buffer = [] ∧ s.upd.heldWords = []
      (go → s.upd.headerPart = [] → s.upd.intake.length + 1 < 8 → exec (.bundleData rq w) s = .next t) ∧
      (go → s.upd.headerPart ≠ [] → s.upd.intake.length + 1 < 16392 → exec (.bundleData rq w) s = .next t) ∧
      (go → s.upd.headerPart ≠ [] → s.upd.intake.length + 1 = 16392 →
        (chunkArrived t.upd.intake (setUpd { s.upd with intake := [] } s)).1 = false → exec (.bundleData rq w) s =
          .next (updCode E.AUTH_FAIL (chunkArrived t.upd.intake (setUpd { s.upd with intake := [] } s)).2))) ∧
    (updState s = U.VERIFY →
      (∀ c, verifyFault s = some c → ∃ t, exec .bundleVerifyDone s = .next t ∧ updState t = U.IDLE ∧
        rdf P.UPD R.UPD_STAT 31 24 t = c % 256 ∧ t.upd.ptrWrite = s.upd.ptrWrite) ∧
      (verifyFault s = none → s.dev.mode ≠ .recovery → ∃ t p, exec .bundleVerifyDone s = .next t ∧
        t.upd.ptrWrite = s.upd.ptrWrite ++ [(.verified, p)] ∧ p.otherVerified = true ∧ p.rejected = false ∧
        p.otherManifest = manifestId s.upd.headerPart ∧ p.activeB = (latestPointer s).activeB ∧
        imageValid (targetPair s) t = true)) ∧
    (∀ e rest, s.upd.buffers = e :: rest → s.upd.buffer = [] → s.upd.heldWords = [] →
      (ringUp s = true → ∃ t, exec .chunkForward s = .next t ∧ t.upd.buffers = rest ∧ t.banks = s.banks ∧
        t.flash = s.flash) ∧
      (ringUp s = false → exec .chunkForward s = .next s)) ∧
    (MailboxAsks h 0x106 s →
      let i := (mbxReq h 1 s).toNat
      let r := ringBufWords 16384 s
      let rec_ := [W i] ++ (List.range 3).map (fun k => mbxReq h (3 + k) s) ++ r.1 ++
        (List.range 4).map (fun k => mbxReq h (6 + k) s)
      (bit 31 (rd P.UPD R.UPD_RING_BUF s) = false → exec (.ringChunk h) s = .next (respond h E.ABSENT_TARGET [] s)) ∧
      (bit 31 (rd P.UPD R.UPD_RING_BUF s) = true → s.upd.buffers.length < 2 → i ≠ 0xFFFFFFFF → intakeOpen s = true →
        intakeOwner s = 2 → s.upd.headerPart ≠ [] → i + 1 ≠ fld 15 0 (s.upd.headerPart.getD 5 0) →
        (chunkArrived rec_ r.2).1 = true →
        exec (.ringChunk h) s = .next (respond h 0 [] (chunkArrived rec_ r.2).2)) ∧
      (bit 31 (rd P.UPD R.UPD_RING_BUF s) = true → 2 ≤ s.upd.buffers.length →
        exec (.ringChunk h) s = .next (respond h E.BANK_BUSY [] s))) ∧
    (MailboxAsks h 0x107 s →
      (updState s < U.READY → ∃ t, exec (.bundleCancel h) s = .next t ∧ updState t = U.IDLE ∧ intakeOpen t = false ∧
        t.upd.intake = [] ∧ t.upd.buffers = [] ∧ t.upd.chunks = s.upd.chunks) ∧
      (U.READY ≤ updState s → exec (.bundleCancel h) s = .next (respond h E.PERM_FAULT [] s)))

/-- ACTIVATE starts the arming, the leader commits when every node is ready, and a committed node activates at T.
Spec: 14_update_and_recovery.md, Activation across the ring. -/
def Obligations.PreparationLeadsToCommitment : Prop :=
  ∀ (s : State),
    (∀ h, MailboxAsks h 0x102 s → entering s = true →
      exec (.activate h) s = .next (respond h E.ENTRY_REFUSED [] s)) ∧
    (∀ h, MailboxAsks h 0x102 s → entering s = false →
      let m := s.upd.pointer.otherManifest
      let d := s.time.ringTime + BitVec.ofNat 64 ((rd P.UPD R.UPD_ARM_DEADLINE s).toNat * 1000000)
      (ringLeader s = true → updState s = U.VERIFIED → holdsVerified m s = true → s.upd.arming = none →
        exec (.activate h) s = .next (respond h 0 [] (sendArm (armServed m d
          (setUpd { s.upd with readyMap := 0, commitSent := false } s))))) ∧
      (ringLeader s = false ∨ updState s ≠ U.VERIFIED →
        exec (.activate h) s = .next (respond h E.PERM_FAULT [] s))) ∧
    (∀ (origin : Byte) (ws : List Word), RingPasses origin.toNat s → ws.length = 12 →
      let t := armServed (join64 (ws.getD 0 0) (ws.getD 1 0)) (join64 (ws.getD 2 0) (ws.getD 3 0)) (ringCounted 15 s)
      exec (.arm origin ws) s = .next (ringForward (originChar origin.toNat 3 6) ([headWord 0x40 origin.toNat 12,
        tw .data (W 0xBFF00006)] ++ levelBits 0x40 (ws.map (tw .data)) t ++ [trailer 0]) t)) ∧
    (∀ m d, s.upd.arming = some (m, d) →
      (ringLeader s = true → s.upd.commitSent = false → s.time.ringTime ≤ d →
        exec .armRepeat s = .next (sendArm s)) ∧
      (ringLeader s = false → exec .armRepeat s = .next s) ∧
      (s.time.ringTime ≤ d → exec .armDeadline s = .next s) ∧
      (ringLeader s = false → d < s.time.ringTime → updState s = U.VERIFIED ∨ updState s = U.READY →
        ∃ t, exec .armDeadline s = .next t ∧ updState t = U.VERIFIED ∧
        t.upd.arming = none ∧ rdf P.UPD R.UPD_STAT 31 24 t = E.ARM_TIMEOUT ∧ t.upd.pointer = s.upd.pointer) ∧
      (∀ bitmap : List Word, ringLeader s = true → s.upd.commitSent = false → s.time.ringTime ≤ d →
        readyFor m s = true → (∀ n ∈ enumeratedNodes s, (bitmapOf bitmap).getLsbD n = true) →
        ∃ t, exec (.armReturn bitmap) s = .next t ∧ t.upd.arming = none ∧ t.upd.commitSent = true ∧
          t.upd.ptrWrite = s.upd.ptrWrite ++ [(.committed, { latestPointer s with
            committed := true
            commitT := s.time.ringTime + 1400000 +
              BitVec.ofNat 64 ((rd P.UPD R.UPD_COMMIT_LEAD s).toNat * 1000) })])) ∧
    (let t := pointerUpkeep s
     entering s = false → updState t = U.VERIFIED → t.upd.arming.isSome = true → readyNow t = true → exec .updateReady s =
       .next (irq P.UPD 1 (wrf P.UPD R.UPD_STAT 11 11 1 (wrf P.UPD R.UPD_STAT 3 0 U.READY t)))) ∧
    (∀ (origin : Byte) (m t0 : BitVec 64), RingPasses origin.toNat s → exec (.commit origin m t0) s =
      .next (levelForward origin.toNat 0x41 6 [lo32 m, hi32 m, lo32 t0, hi32 t0]
        (commitServed m t0 (ringCounted 7 s)))) ∧
    (∀ m t0, updState s = U.READY → holdsVerified m s = true → (latestPointer s).activeManifest ≠ m →
      updState (commitServed m t0 s) = U.COMMITTED ∧ rd64 P.UPD R.UPD_T_LO (commitServed m t0 s) = t0 ∧
        (commitServed m t0 s).upd.arming = none) ∧
    (updState s = U.COMMITTED → s.dev.mode = .run → s.upd.swapArmed = true →
      (rd64 P.UPD R.UPD_T_LO s ≤ s.time.ringTime → ∃ t p, exec .activationTime s = .next t ∧
        updState t = U.ACTIVATING ∧ t.upd.ptrWrite = s.upd.ptrWrite ++ [(.activate, p)] ∧
        p.activeB = !(latestPointer s).activeB ∧ p.trial = true ∧ p.attempts = 0 ∧
        p.activeManifest = (latestPointer s).otherManifest ∧ p.otherManifest = (latestPointer s).activeManifest) ∧
      (s.time.ringTime < rd64 P.UPD R.UPD_T_LO s → exec .activationTime s = .next s)) ∧
    (∀ (origin : Byte) (m : BitVec 64) (reason : Word), RingPasses origin.toNat s →
      exec (.abort origin m reason) s = .next (levelForward origin.toNat 0x42 6 [lo32 m, hi32 m, reason]
        (abortServed m (ringCounted 6 s)))) ∧
    (∀ m, updState s = U.READY → (s.upd.pointer.otherManifest ≠ m → abortServed m s = s) ∧
      (s.upd.pointer.otherManifest = m → updState (abortServed m s) = U.VERIFIED ∧
        (abortServed m s).upd.arming = none ∧ (abortServed m s).upd.pointer = s.upd.pointer))

/-- The handover starts a trial, CONFIRM ends it, and the window, a request or a joining node orders the fallback.
Spec: 14_update_and_recovery.md, Trial, confirmation and fallback; 14_update_and_recovery.md, Activation across the
ring; 14_update_and_recovery.md, The handover record; 14_update_and_recovery.md, Slots and the boot pointer. -/
def Obligations.TrialsAreConfirmedOrFallBack : Prop :=
  ∀ (s : State),
    (∀ canRead, s.upd.handoverDue = true → s.upd.rollForward = false → ∃ t,
      exec (.firmwareHandover canRead) s = .next t ∧ rdf P.UPD R.UPD_STAT 9 9 t = b2n (!(canRead && handoverIntact s)) ∧
      t.upd.running = s.upd.pointer.activeB ∧ t.upd.handoverDue = false ∧ t.store = s.store ∧
      (s.upd.pointer.trial = true → updState t = U.TRIAL ∧ rd P.CDF R.CDF_FW_BANKS t = 6) ∧
      (s.upd.pointer.trial = false → updState t = U.IDLE ∧ t.flash = s.flash ∧
        rd P.CDF R.CDF_FW_BANKS t = (if s.upd.pointer.activeB then 4 else 2))) ∧
    (s.dev.mode = .run → updState s = U.TRIAL → s.upd.attemptDue = true → exec .attemptCount s = .next (setUpd
      { s.upd with
        attemptDue := false
        ptrWrite := s.upd.ptrWrite ++ [(.attempt, { latestPointer s with attempts := 1 })] } s)) ∧
    (∀ why p rest t, s.upd.ptrWrite = (why, p) :: rest → programPointer p s = some t →
      exec .pointerWriteDone s = .next (afterPointer why s.upd.pointer (setUpd { t.upd with ptrWrite := rest } t)) ∧
      t.upd.pointer.seq = s.upd.pointer.seq + 1 ∧ t.upd.pointer.activeB = p.activeB ∧
      t.upd.pointer.activeManifest = p.activeManifest) ∧
    (∀ why p rest, s.upd.ptrWrite = (why, p) :: rest → programPointer p s = none →
      exec .pointerWriteDone s = .next (pointerUpkeep s)) ∧
    (s.upd.ptrWrite = [] → exec .pointerWriteDone s = .next s) ∧
    (∀ h, MailboxAsks h 0x103 s →
      (updState s ≠ U.TRIAL → exec (.confirm h) s = .next (respond h E.PERM_FAULT [] s)) ∧
      (updState s = U.TRIAL → ringLeader s = false → h = .fabricHalf → ∃ t, exec (.confirm h) s = .next t ∧
        updState t = U.CONFIRMING ∧ t.upd.ptrWrite = s.upd.ptrWrite ++ [(.confirm, { latestPointer s with
          trial := false
          attempts := 0 })]) ∧
      (updState s = U.TRIAL → ringLeader s = true → s.time.ringTime < windowEnd s → ∃ t,
        exec (.confirm h) s = .next t ∧ updState t = U.CONFIRMING ∧
        t.upd.confirming = (enumeratedNodes s).filter (fun n => n != ownNode s) ∧
        t.upd.ptrWrite = s.upd.ptrWrite ++ [(.confirm, { latestPointer s with
          trial := false
          attempts := 0 })]) ∧
      (updState s = U.TRIAL → ringLeader s = true → windowEnd s ≤ s.time.ringTime →
        exec (.confirm h) s = .next (respond h E.PERM_FAULT [] s)) ∧
      (updState s = U.TRIAL → ringLeader s = false → h = .hostHalf →
        exec (.confirm h) s = .next (respond h E.PERM_FAULT [] s))) ∧
    (ringLeader s = true → updState s = U.TRIAL →
      (windowEnd s ≤ s.time.ringTime → exec .confirmWindowExpiry s = .next (orderFallback 1 s)) ∧
      (s.time.ringTime < windowEnd s → exec .confirmWindowExpiry s = .next s) ∧
      (∀ h, MailboxAsks h 0x105 s → exec (.fallbackRequest h) s = .next (respond h 0 [] (orderFallback 2 s)))) ∧
    (ringLeader s = false → ∀ h, MailboxAsks h 0x105 s →
      exec (.fallbackRequest h) s = .next (respond h E.PERM_FAULT [] s)) ∧
    (∀ (origin : Byte) (m : BitVec 64) (reason : Word), RingPasses origin.toNat s →
      exec (.fallback origin m reason) s = .next (levelForward origin.toNat 0x43 6 [lo32 m, hi32 m, reason]
        (fallbackServed m (ringCounted 6 s)))) ∧
    (∀ m, updState s = U.TRIAL → s.dev.mode = .run → (latestPointer s).activeManifest = m →
      ∃ p, (fallbackServed m s).upd.ptrWrite = s.upd.ptrWrite ++ [(.fallback, p)] ∧
        p.activeB = !(latestPointer s).activeB ∧ p.trial = false ∧
        p.activeManifest = (latestPointer s).otherManifest) ∧
    (∀ (node : Fin 256) a o (boot : Word), s.dev.mode = .run → ringLeader s = true → ringUp s = true →
      node.val ≠ ownNode s → s.upd.pointer.committed = false →
      (a = s.upd.pointer.activeManifest → exec (.nodeJoin node a o boot) s = .next s) ∧
      (a ≠ s.upd.pointer.activeManifest → o = s.upd.pointer.activeManifest → bit 5 boot = true → bit 7 boot = false →
        exec (.nodeJoin node a o boot) s =
          .next (sendCommit s.upd.pointer.activeManifest (leadFrom s.time.ringTime s) s)) ∧
      (a ≠ s.upd.pointer.activeManifest → o ≠ s.upd.pointer.activeManifest → updState s ≠ U.TRIAL →
        exec (.nodeJoin node a o boot) s = .next (err P.UPD E.ROLL_FORWARD node.val 0 s)) ∧
      (a ≠ s.upd.pointer.activeManifest → o ≠ s.upd.pointer.activeManifest → updState s = U.TRIAL →
        exec (.nodeJoin node a o boot) s = .next (orderFallback (W (3 + node.val * 2 ^ 8)) s)))

/-- A level change runs its steps in order for slower and faster levels, refuses a forbidden target, and ends at its
timeout. Spec: 15_power_and_clocks.md, Changing the level; 15_power_and_clocks.md, Performance levels. That VCCINT
follows into its window at once is log entry 56. -/
def Obligations.LevelChangesRunTheirSteps : Prop :=
  ∀ (s : State),
    (∀ rq (l : Fin 4), Reaches rq P.PMU s →
      let cur := currentLevel s
      let t := wrf P.PMU R.PMU_LEVEL_STAT 31 24 0 (wrf P.PMU R.PMU_LEVEL_STAT 5 4 l.val s)
      (levelForbidden l.val s = true → exec (.levelReq rq l) s =
        .next (outOfWindow (levelRefused (P.PMU * 4096 + R.PMU_LEVEL_REQ) s))) ∧
      (levelForbidden l.val s = false → l.val = cur → exec (.levelReq rq l) s =
        .next (outOfWindow (irq P.PMU 0 t))) ∧
      (levelForbidden l.val s = false → l.val < cur → ∃ u, exec (.levelReq rq l) s = .next u ∧
        u.pwr.change = some ⟨l.val, cur, false, .ack, []⟩ ∧ currentLevel u = cur ∧
        u.io.pmbus = s.io.pmbus ++ [(rdf P.PMU R.PMU_PMBUS_CFG 6 0 s, 0x21, voutWord l.val s)] ∧ rdf P.PMU R.PMU_LEVEL_STAT 8 8 u = 1) ∧
      (levelForbidden l.val s = false → cur < l.val → exec (.levelReq rq l) s =
        .next (outOfWindow (moveIslands ⟨l.val, cur, true, .ack, []⟩ (wrf P.PMU R.PMU_LEVEL_STAT 8 8 1 t))))) ∧
    (∀ c, s.pwr.change = some c →
      (∀ i : Fin 79, c.step = .islands → c.left.contains i.val = true → c.left ≠ [i.val] → c.left.Nodup →
        exec (.islandSwitch i) s = .next (irqRise s (setChange (some { c with left := c.left.filter (· != i.val) })
          (setNow i.val (islByte (isl i.val s) c.target) s)))) ∧
      (∀ i : Fin 79, c.step = .islands → c.left = [i.val] → exec (.islandSwitch i) s =
        .next (irqRise s (islandsMoved c (setNow i.val (islByte (isl i.val s) c.target) s)))) ∧
      (c.step = .ack → exec .pmbusAck s = .next (setPwr { s.pwr with change := some { c with step := .powerGood } } s)) ∧
      (c.step = .powerGood → exec .powerGood s = .next (setChange (some { c with step := .settle })
        (wrf P.PMU R.PMU_LEVEL_STAT 9 9 1 s))) ∧
      (c.step = .settle → c.slower = true → ∃ t, exec .settleElapsed s = .next t ∧ t.pwr.change = none ∧
        rdf P.PMU R.PMU_LEVEL_STAT 8 8 t = 0 ∧ currentLevel t = currentLevel s) ∧
      (c.step = .settle → c.slower = false → exec .settleElapsed s = .next (moveIslands c s)) ∧
      (c.step = .powerGood → ∃ t, exec .pgTimeout s = .next t ∧ t.pwr.change = none ∧
        rdf P.PMU R.PMU_LEVEL_STAT 9 8 t = 0 ∧ rdf P.PMU R.PMU_LEVEL_STAT 31 24 t = E.LEVEL_REFUSED ∧
        t.io.pmbus = s.io.pmbus ++
          (if c.slower then [] else [(rdf P.PMU R.PMU_PMBUS_CFG 6 0 s, 0x21, voutWord c.source s)]))) ∧
    (∀ status, s.dev.mode ≠ .off → exec (.pmbusAlert status) s =
      .next (irq P.PMU 4 (wr P.PMU R.PMU_PMBUS_ALERT (status.setWidth 32) s)))

/-- ISL and CL_CFG writes, loop lock and loss of reference, the steward's clock, and the power of a region. Spec:
15_power_and_clocks.md, Changing the level; 15_power_and_clocks.md, Clock loops, trees and the Hare oscillator;
15_power_and_clocks.md, Region power. The INDEX that a refusal of the steward's clock records is a free value (log
entry 54). -/
def Obligations.ClocksAndRegionPower : Prop :=
  (∀ (s : State),
    (∀ rq (i : Fin 79) (v : Word), Reaches rq P.CLK s → s.pwr.change = none →
      let off := R.CLK_ISL + 4 * i.val
      (∀ l, islBad (fun n => clCfg n s) i.val v = some l →
        exec (.islWrite rq i v) s =
        .next (outOfWindow (clkRefused false false i.val l (P.CLK * 4096 + off) s))) ∧
      (islBad (fun n => clCfg n s) i.val v = none → ∃ t, exec (.islWrite rq i v) s = .next t ∧ isl i.val t = v ∧
        t.pwr.now = s.pwr.now ∧ t.pwr.switching.contains i.val =
          (islByte v (currentLevel s) != tget 7 s.pwr.now i.val))) ∧
    (∀ rq (i : Fin 79) (v : Word), Reaches rq P.CLK s → s.pwr.change.isSome = true → exec (.islWrite rq i v) s =
      .next (outOfWindow (clkRefused false false i.val (currentLevel s) (P.CLK * 4096 + (R.CLK_ISL + 4 * i.val)) s))) ∧
    (∀ rq (n : Fin 8) (v : Word), Reaches rq P.CLK s → s.pwr.change = none →
      let w := v &&& W 0xC00F0FFF
      let off := R.CLK_CL_CFG + 8 * n.val
      (loopEnabled w = true → loopFieldsGood w = false →
        exec (.clCfgWrite rq n v) s = .next (permFault P.CLK off s)) ∧
      (loopEnabled w = true → loopFieldsGood w = true → loopLimitsGood w = false → exec (.clCfgWrite rq n v) s =
        .next (clkRefused false true n.val (currentLevel s) (P.CLK * 4096 + off) s)) ∧
      ((loopEnabled w = true → loopFieldsGood w = true ∧ loopLimitsGood w = true) →
        (loopEnabled (clCfg n.val s) = true → treeNamed n.val s = false) → treeAbove n.val w s = none →
        ∃ t, exec (.clCfgWrite rq n v) s = .next t ∧ clCfg n.val t = w ∧ loopLocked n.val t = false)) ∧
    (∀ n : Fin 8, loopsPowered s = true →
      (loopLocked n.val s = false → loopEnabled (clCfg n.val s) = true → ∃ t,
        exec (.loopLock (n.castLE (by decide))) s = .next t ∧ loopLocked n.val t = true ∧ t.pwr = s.pwr) ∧
      (loopLocked n.val s = true → exec (.lossOfReference n) s = .next (outOfWindow (irq P.CLK 0
        (md P.CLK (R.CLK_CL_STAT + 8 * n.val) (setFld 31 29 3) s)))) ∧
      (loopLocked n.val s = false → exec (.lossOfReference n) s = .next (outOfWindow s))) ∧
    (loopsPowered s = true → exec (.loopLock 8) s = .next (wrf P.CLK R.CLK_STEWARD_CLK 1 1 1 s)) ∧
    (∀ rq src, Reaches rq P.CLK s →
      ((src = false ∨ bit 1 (rd P.CLK R.CLK_STEWARD_CLK s) = true) →
        exec (.stewardClkWrite rq src) s = .next (wrf P.CLK R.CLK_STEWARD_CLK 0 0 (if src then 1 else 0) s)) ∧
      (src = true → bit 1 (rd P.CLK R.CLK_STEWARD_CLK s) = false → exec (.stewardClkWrite rq src) s =
        .next (clkRefused false true ((freeVal s).toNat % 8) (currentLevel s) (P.CLK * 4096 + R.CLK_STEWARD_CLK)
          (drawn s))))) ∧
  (∀ (s : State),
    (∀ rq (r : RegionId), Reaches rq P.PMU s → s.dev.mode = .run → s.pwr.region = none → entering s = false →
      locked r.val s = false → loading r.val s = false →
      let t (on : Bool) := wr P.PMU R.PMU_RGN_PWR_CTL (W (b2n on * 2 ^ 8 + r.val)) s
      ((rgn r.val s).power = .off → exec (.regionPowerOff rq r) s =
        .next (settleAll (irq P.PMU 5 (t false)))) ∧
      ((rgn r.val s).power = .on → exec (.regionPowerOn rq r) s =
        .next (settleAll (irq P.PMU 5 (t true)))) ∧
      ((rgn r.val s).power = .on → ∃ u, exec (.regionPowerOff rq r) s = .next u ∧
        (rgn r.val u).power = .off ∧ u.pwr.region = some (r.val, false) ∧ (rgn r.val u).gsr = true ∧
        u.planes = s.planes ∧ rdf P.PMU R.PMU_RGN_PWR_CTL 30 30 u = 1) ∧
      ((rgn r.val s).power = .off → ∃ u, exec (.regionPowerOn rq r) s = .next u ∧
        u.pwr.region = some (r.val, true) ∧ rdf P.PMU R.PMU_RGN_PWR_CTL 30 30 u = 1) ∧
      ((rgn r.val s).power = .retired →
        exec (.regionPowerOn rq r) s = .next (settleAll (wrf P.PMU R.PMU_RGN_PWR_CTL 23 16 E.RETIRED s)))) ∧
    (∀ rq (r : RegionId), Reaches rq P.PMU s → s.pwr.region.isSome = true →
      exec (.regionPowerOn rq r) s = .next (settleAll (permFault P.PMU R.PMU_RGN_PWR_CTL s)) ∧
      exec (.regionPowerOff rq r) s = .next (settleAll (permFault P.PMU R.PMU_RGN_PWR_CTL s))) ∧
    (∀ r on, s.pwr.region = some (r, on) → ∃ t, exec .regionPowerDone s = .next t ∧ t.pwr.region = none ∧
      rdf P.PMU R.PMU_RGN_PWR_CTL 30 30 t = 0 ∧ t.banks.words = s.banks.words ∧
      (on = true → regionOn r s = true → (rgn r t).gsr = false)))

/-- DOZE, SLEEP and BEAR are entered by the host, refused where a block refuses, and keep what Table 15.4 gives. Spec:
15_power_and_clocks.md, Sleep states. That an entry may be reached by the command that starts it is the model's choice
(log entry 62). -/
def Obligations.SleepEntriesAreReachedOrRefused : Prop :=
  ∀ (rq : Requester) (s : State), Reaches rq P.PMU s →
    let started (k : Nat) := setPwr { s.pwr with entering := some k } (wr P.PMU R.PMU_ENTER_STAT (W (k * 2 ^ 16 + 1)) s)
    (rq ≠ .host → ∀ b, exec (.enterDoze rq b) s = .next (permFault P.PMU R.PMU_ENTER s)) ∧
    (rq = .host → s.dev.mode ≠ .run → ∀ b, exec (.enterSleep rq b) s = .next (ignored 8 s)) ∧
    (rq = .host → s.dev.mode = .run → entering s = false →
      (refusers 1 s = [] → exec (.enterDoze rq false) s = .next (started 1) ∧
        ∃ t, exec (.enterDoze rq true) s = .next t ∧ t.dev.mode = .doze ∧ t.dev.previous = 5 ∧ entering t = false ∧
          t.banks = s.banks ∧ t.sched = s.sched ∧ t.planes = s.planes) ∧
      (refusers 2 s = [] → exec (.enterSleep rq false) s = .next (started 2) ∧
        ∃ t, exec (.enterSleep rq true) s = .next t ∧ t.dev.mode = .sleep ∧ t.planes = s.planes ∧ t.store = s.store ∧
          t.fab = Fabric.reset ∧ (∀ b w, w < 8192 → inMask (rd64 P.PMU R.PMU_RETAIN_LO s) (b / 16) = true →
            bankWord b w t = bankWord b w s) ∧
          (∀ b w, w < 8192 → inMask (rd64 P.PMU R.PMU_RETAIN_LO s) (b / 16) = false → bankWord b w t = zeroWord)) ∧
      (refusers 3 s = [] → exec (.enterBear rq false) s = .next (started 3) ∧
        ∃ t, exec (.enterBear rq true) s = .next t ∧ t.dev.mode = .bear ∧ t.banks = Banks.reset ∧ t.store = s.store ∧
          t.sched = Sched.reset ∧ t.dev.straps = s.dev.straps ∧ t.flash.guardBits = s.flash.guardBits) ∧
      (∀ r rest, refusers 2 s = r :: rest → exec (.enterSleep rq true) s = .next (entryEnded 2 false r s)))

/-- Enabled wake sources resume DOZE or reload SLEEP and BEAR; HOLD_RELEASE frees the pads; the watchdog is kicked and
expires. Spec: 15_power_and_clocks.md, Wake; 15_power_and_clocks.md, Resets; 15_power_and_clocks.md, Sleep states. -/
def Obligations.WakesResumeTheDevice : Prop :=
  ∀ (s : State) (n : Nat),
    (s.dev.mode = .doze →
      (∀ why : Byte, bit 0 (rd P.PMU R.PMU_WAKE_EN s) = true → ∃ t, exec (.wakeRing why n) s = .next t ∧
        t.dev.mode = .run ∧ rd P.PMU R.PMU_WAKE_CAUSE t = W (why.toNat * 2 ^ 8 + 1) ∧ t.banks = s.banks ∧
        t.sched = s.sched) ∧
      (bit 1 (rd P.PMU R.PMU_WAKE_EN s) = true → ∃ t, exec (.wakePin n) s = .next t ∧ t.dev.mode = .run ∧
        rd P.PMU R.PMU_WAKE_CAUSE t = 2) ∧
      (bit 2 (rd P.PMU R.PMU_WAKE_EN s) = true → rd P.PMU R.PMU_WAKE_TIMER s ≠ 0 →
        ∃ t, exec (.wakeTimer n) s = .next t ∧ t.dev.mode = .run ∧ rd P.PMU R.PMU_WAKE_CAUSE t = 3) ∧
      (∀ rq, Reaches rq P.PMU s → rq = .host → bit 3 (rd P.PMU R.PMU_WAKE_EN s) = true →
        ∃ t, exec (.wakeNow rq) s = .next t ∧ t.dev.mode = .run ∧ rd P.PMU R.PMU_WAKE_CAUSE t = 4)) ∧
    (s.dev.mode = .sleep → bit 1 (rd P.PMU R.PMU_WAKE_EN s) = true → ∃ t, exec (.wakePin n) s = .next t ∧
      t.dev.mode = .load ∧ t.dev.loadKind = .wakeSleep ∧ t.dev.bankClear = true ∧ t.banks = s.banks ∧
      t.time.ringTime = BitVec.ofNat 64 (s.time.frozen.toNat + n * (rd P.TIME R.TIME_RATIO s).toNat / 2 ^ 16)) ∧
    (bit 1 (rd P.PMU R.PMU_WAKE_EN s) = false → exec (.wakePin n) s = .next s) ∧
    (s.dev.mode = .load →
      (s.dev.loadKind = .wakeSleep →
        let r := loadAll reload ((List.range 64).filter fun r => regionOn r s) s
        (r.1 = none → exec .wakeLoadDone s = .next (beginRelease (stamp R.RST_STARTUP_T0 31 16 r.2))) ∧
        (∀ c, r.1 = some c → exec .wakeLoadDone s = .next (stopSafe c (stamp R.RST_STARTUP_T0 31 16 r.2)))) ∧
      (s.dev.loadKind = .wakeBear →
        let r := loadAll loadBoot ((List.range 64).filter fun r => regionOn r s) s
        r.1 = none → exec .wakeLoadDone s = .next (beginSelftest (loadIoRecord (stamp R.RST_STARTUP_T0 31 16 r.2))))) ∧
    (∀ rq (b : IobId), Reaches rq (P.IOB b.val) s →
      (s.dev.outReleased = true → exec (.holdRelease rq b) s = .next (setIo
        { s.io with latched := tclear (b.val * 64) (b.val * 64 + 64) s.io.latched } (wr (P.IOB b.val) R.IOB_HOLD 0 s))) ∧
      (s.dev.outReleased = false → exec (.holdRelease rq b) s =
        .next (permFault (P.IOB b.val) R.IOB_HOLD_RELEASE s))) ∧
    (∀ rq, Reaches rq P.RST s → ∃ t, exec (.wdtKick rq) s = .next t ∧
      rdf P.RST R.RST_WDT_STAT 15 0 t = rdf P.RST R.RST_WDT_PERIOD 15 0 s ∧
      rdf P.RST R.RST_WDT_STAT 31 16 t = rdf P.RST R.RST_WDT_STAT 31 16 s ∧ t.banks = s.banks) ∧
    (s.dev.mode = .run → bit 1 (rd P.RST R.RST_CTL s) = true → exec .watchdogExpiry s = .next (deviceReset 3
      (irq P.RST 0 (reloadWatchdog (md P.RST R.RST_WDT_STAT (satFld 31 16) s))))) ∧
    (bit 1 (rd P.RST R.RST_CTL s) = false → exec .watchdogExpiry s = .next s)

/-- Slices end with their verdicts in the power-up test and in background; the window, the budget and SCAN act on
them. Spec: 16_self_test_and_faults.md, Slices, verdicts and the window; 16_self_test_and_faults.md, The power-up
test; 16_self_test_and_faults.md, Background test; 16_self_test_and_faults.md, Scan and secrets. What a slice measures
stands in its command (log entry 98). -/
def Obligations.SelfTestSlicesAndVerdicts : Prop :=
  ∀ (s : State),
    (∀ (cls : Fin 5) (blk : BitVec 10) (sl cl : Byte) (x : SliceRun), s.dev.mode = .selftest →
      let v := sliceVerdict (powerUpTest s) cls.val blk.toNat sl.toNat x s
      let n := tput 0 cls.val (tget 0 s.wpk.ended cls.val + 1) s.wpk.ended
      (v = .pass → exec (.sliceEnd cls blk sl cl x) s =
        .next (setWpk { s.wpk with ended := n, signature := sliceSignature cls.val x } s)) ∧
      (v = .fail → ∃ t, exec (.sliceEnd cls blk sl cl x) s = .next t ∧ t.wpk.failed.getLsbD cls.val = true ∧
        t.wpk.incomplete = s.wpk.incomplete ∧ t.wpk.ended = n ∧ (rd P.WPK R.WPK_PU_FIRST s ≠ 0 →
          rd P.WPK R.WPK_PU_FIRST t = rd P.WPK R.WPK_PU_FIRST s)) ∧
      (v = .incomplete → ∃ t, exec (.sliceEnd cls blk sl cl x) s = .next t ∧
        t.wpk.incomplete.getLsbD cls.val = true ∧ t.wpk.failed = s.wpk.failed ∧ t.wpk.ended = n)) ∧
    (∀ test cls block slice (x : SliceRun),
      (x.definite = true ∨ x.uncorrectable ≠ 0 → sliceVerdict test cls block slice x s = .fail) ∧
      (x.definite = false → x.uncorrectable = 0 → recordFails cls block s = false → x.marker = false →
        sliceVerdict test cls block slice x s = .incomplete)) ∧
    (s.dev.mode = .selftest → inWindow s = true → exec .selftestWindowTimeout s = .next s) ∧
    (s.dev.mode = .selftest → inWindow s = false → ∃ t, exec .selftestWindowTimeout s = .next t ∧
      (∀ c, c < 5 → tget 0 s.wpk.ended c < sliceTotal (strapTest s == 0) c → t.wpk.incomplete.getLsbD c = true) ∧
      t.wpk.failed = s.wpk.failed) ∧
    (∀ c b, s.dev.mode = .run → s.wpk.bg = none → entering s = false → bit 0 (rd P.WPK R.PAGE_CTL s) = true →
      bgNextClass s = some c → bgNextBlock c s = some b → inWindow s = true → clockInWindow (bgIsland c b) s = true →
      ∃ t, exec .bgSliceStart s = .next t ∧ t.wpk.bg.map (fun x => (x.cls, x.block, x.retest, x.cut)) =
        some (c, b, false, false) ∧ rd P.WPK R.WPK_BG_STAT t = W (2 ^ 31 + c * 2 ^ 28 + b) ∧ t.banks = s.banks) ∧
    (∀ b, s.wpk.bg = some b →
      (b.cls = 0 → b.phase = .evacuate → exec .bgPhaseDone s =
        .next (setWpk { s.wpk with bg := some { b with phase := .test } } s)) ∧
      (b.cls = 1 → cellWanted b.block s = true → ∃ t, exec .bgSliceAbort s = .next t ∧ t.wpk.bg = none ∧
        t.fab = s.fab) ∧
      (b.cls = 1 → cellWanted b.block s = false → exec .bgSliceAbort s = .next s) ∧
      (b.cls = 1 → s.dev.mode = .run → bit 3 (rd P.WPK R.WPK_CTL s) = true → exec .budgetExpiry s =
        .next (sliceOver (sliceCounted b 3 s))) ∧
      (∀ x, b.cls = 1 → b.cut = false → b.retest = false → sliceVerdict 2 1 b.block b.group x s = .pass → ∃ t,
        exec (.bgSliceEnd x) s = .next t ∧ t.wpk.bg = none ∧ t.wpk.signature = sliceSignature 1 x ∧
        t.fab = s.fab ∧ t.banks = s.banks) ∧
      (∀ x, b.cls = 1 → b.cut = false → b.retest = false → sliceVerdict 2 1 b.block b.group x s = .fail → ∃ t,
        exec (.bgSliceEnd x) s = .next t ∧ t.wpk.bg = some { b with retest := true, cut := false, phase := .test } ∧ t.fab = s.fab)) ∧
    (pageOff P.WPK s = false →
      (∃ t, exec .windowEntry s = .next t ∧ inWindow t = true ∧ t.wpk = s.wpk) ∧
      (s.wpk.bg = none → ∃ t, exec .windowExit s = .next t ∧ inWindow t = false ∧ t.wpk = s.wpk)) ∧
    ((s.dev.mode = .hold ∨ s.dev.mode = .safe) → ∃ t, exec .scan s = .next t ∧ t.wpk.zeroising = true ∧
      t.flash.key = 0 ∧ t.flash.newPw = 0 ∧ t.dev.mode = s.dev.mode) ∧
    (s.dev.mode = .run → exec .scan s = .next (ignored 0xB s)) ∧
    ((s.dev.mode = .hold ∨ s.dev.mode = .safe) → s.wpk.zeroising = true → ∃ t, exec .zeroisationDone s = .next t ∧
      t.dev.mode = .scan ∧ t.wpk.zeroising = false ∧ bit 1 (rd P.WPK R.WPK_SCAN_STAT t) = true)

/-- Segments come up and go down, enumeration numbers the nodes, and messages pass on or act here by their
destination. Spec: 17_ring_time_observation.md, Ring states and enumeration; 17_ring_time_observation.md, Messages on
the ring. -/
def Obligations.RingSegmentsEnumerateAndDeliver : Prop :=
  ∀ (s : State),
    (∀ live : BitVec 4, ringServed s = true → live ≠ 0 → s.ring.inUp = false → s.ring.outUp = false →
      ∃ t, exec (.segmentUp false live) s = .next t ∧ t.ring.inUp = true ∧ t.ring.outUp = false ∧ ringState t = 1 ∧
        rdf P.RING R.RING_STAT 27 24 t = live.toNat) ∧
    (∀ live : BitVec 4, ringServed s = true → live ≠ 0 → s.ring.inUp = false → s.ring.outUp = true →
      ∃ t, exec (.segmentUp false live) s = .next t ∧ t.ring.inUp = true ∧ ringState t = 2 ∧
        (ringLeader s = true → s.ring.syncs = [] → t.ring.chars = s.ring.chars ++ [(6, 1)])) ∧
    (∀ out, (if out then s.ring.outUp else s.ring.inUp) = true → ∃ t, exec (.segmentDown out) s = .next t ∧
      (if out then t.ring.outUp else t.ring.inUp) = false ∧ ringState t = 1 ∧ t.banks = s.banks) ∧
    (∀ n : Byte, ringServed s = true → s.ring.inUp = true → s.ring.outUp = true →
      (ringLeader s = true → ∃ t, exec (.enumChar n) s = .next t ∧ ringNodes t = n.toNat ∧
        t.ring.chars = s.ring.chars ++ [(9, (s.time.ringTime >>> 28) &&& 0xFFFFFFFFF)] ∧ t.ring.awaitTmax = true) ∧
      (ringLeader s = false → n.toNat < 250 → ∃ t, exec (.enumChar n) s = .next t ∧ ownNode t = n.toNat + 1 ∧
        t.ring.chars = s.ring.chars ++ [(6, BitVec.ofNat 64 (n.toNat + 1))]) ∧
      (ringLeader s = false → 250 ≤ n.toNat → ∃ t, exec (.enumChar n) s = .next t ∧ ownNode t = 0 ∧
        t.ring.chars = s.ring.chars ++ [(6, BitVec.ofNat 64 n.toNat)])) ∧
    (∀ v : BitVec 36, ringServed s = true → s.ring.inUp = true → s.ring.outUp = true → ringLeader s = false →
      ownNode s ≠ 0 → let own : BitVec 36 := (s.time.ringTime >>> 28).setWidth 36
      ∃ t, exec (.tmax v) s = .next t ∧ ringState t = 3 ∧
        t.ring.chars = s.ring.chars ++ [(9, (if own < v then v else own).setWidth 64)]) ∧
    (∀ origin kind index ws, (ringServed s = true → s.ring.inUp = false) → (ringServed s = false →
      (s.dev.mode ≠ .sleep ∧ s.dev.mode ≠ .bear) ∨ ringStrapped s = false ∨ wakeEnabled 0 s = false) →
      exec (.ringMessage origin kind index ws) s = .next s) ∧
    (∀ (origin : Byte) (kind : BitVec 2) (index : BitVec 9) (cls node dst : Nat) (ws : List Word),
      RingPasses origin.toNat s → cls < 256 → node < 251 → node ≠ 0 → node ≠ ownNode s → dst < 512 →
      ws.length < 4096 → let route := W (2 ^ 31 + node * 2 ^ 22 + dst)
      exec (.ringMessage origin kind index (message cls 0 route (ws.map (tw .data)) 0)) s =
        .next (ringForward (originChar origin.toNat kind.toNat index.toNat)
          (message cls 0 route (ws.map (tw .data)) 0) (ringCounted (ws.length + 3) s))) ∧
    (∀ (origin : Byte) (at_ : BitVec 64) (scope : Word), RingPasses origin.toNat s →
      exec (.snap origin at_ scope) s = .next (levelForward origin.toNat 0x30 5 [lo32 at_, hi32 at_, scope]
        (snapMessage at_ scope (ringCounted 6 s)))) ∧
    (∀ origin reason : Byte, RingPasses origin.toNat s → exec (.wake origin reason) s =
      .next (levelForward origin.toNat 0x50 6 [reason.setWidth 32] (wakeMessage reason.toNat (ringCounted 4 s)))) ∧
    (∀ (origin : Byte), RingPasses origin.toNat s → s.dev.mode = .run → bit 0 (rd P.RST R.RST_CTL s) = true →
      exec (.reset origin 1) s = .next (levelForward origin.toNat 0x51 6 [1] (deviceReset 4 (ringCounted 4 s))))

/-- The leader sends SYNC, a follower slews or steps by its offset, echoes give the hop delay, ADJ and PTP stamps act
as given. Spec: 17_ring_time_observation.md, Ring time; 17_ring_time_observation.md, Registers. What a PTP stamp
latches is log entry 99. -/
def Obligations.RingTimeIsSentAndCorrected : Prop :=
  ∀ (s : State),
    (s.dev.mode = .run → s.dev.sampled = true → ringLeader s = true → ringUp s = true → s.ring.outUp = true →
      (chan .ringOut s).sendq = [] → s.ring.syncs = [] →
      ∃ t, exec .syncSend s = .next t ∧ t.ring.chars = s.ring.chars ++ [(0, s.time.ringTime)] ∧
        t.time.ringTime = s.time.ringTime) ∧
    (∀ v : BitVec 64, ringServed s = true → s.ring.inUp = true → ringLeader s = false → ringUp s = true →
      ownNode s ≠ 0 → let w := v + BitVec.ofNat 64 (rdf P.RING R.RING_HOP_DELAY 15 0 s / 1000)
      let d : Int := (w.toNat : Int) - s.time.ringTime.toNat
      ∃ t, exec (.syncPair v) s = .next t ∧ rd P.TIME R.TIME_OFFSET t = sat32 d ∧
        (s.ring.outUp = true → (chan .ringOut s).sendq = [] → s.ring.syncs = [] →
          t.ring.chars = s.ring.chars ++ [(0, w)]) ∧
        (d ≤ (rd P.TIME R.TIME_STEP_LIMIT s).toNat * 1000 → t.time.ringTime = s.time.ringTime ∧
          t.time.slew = BitVec.ofInt 64 d) ∧
        ((rd P.TIME R.TIME_STEP_LIMIT s).toNat * 1000 < d →
          t.time.ringTime = s.time.ringTime + BitVec.ofInt 64 d)) ∧
    (s.dev.mode = .run → s.dev.sampled = true → ringLeader s = false → ∃ t, exec .syncTimeout s = .next t ∧
      rdf P.TIME R.TIME_STAT 2 0 t = 0 ∧ t.time.lastGood = [] ∧ t.time.ringTime = s.time.ringTime) ∧
    (∀ ps : BitVec 16, ringServed s = true → s.ring.inUp = true → ∃ t, exec (.echoCharacter ps) s = .next t ∧
      (s.ring.echoes = [] → rdf P.RING R.RING_HOP_DELAY 15 0 t = ps.toNat) ∧
      t.ring.echoes = (ps.toNat :: s.ring.echoes).take 16) ∧
    (∀ rq v, Reaches rq P.TIME s →
      (ringLeader s = false → exec (.adj rq v) s = .next (permFault P.TIME R.TIME_ADJ s)) ∧
      (ringLeader s = true → bit 0 (rd P.TIME R.TIME_CTL s) = false →
        exec (.adj rq v) s = .next (correct v.toInt (noteOffset v.toInt s))) ∧
      (ringLeader s = true → bit 0 (rd P.TIME R.TIME_CTL s) = true →
        exec (.adj rq v) s = .next (decideQuality (correct v.toInt (noteOffset v.toInt s))))) ∧
    (∀ (p : Fin 2) (udp : Bool) (stamp : BitVec 64) (seq : BitVec 16), pageOff (P.ETH p.val) s = false →
      bit 0 (rd (P.ETH p.val) R.PAGE_CTL s) = true → bit 0 (rd (P.ETH p.val) R.ETH_PTP_CTL s) = true →
      (if udp then bit 2 (rd (P.ETH p.val) R.ETH_PTP_CTL s) else bit 1 (rd (P.ETH p.val) R.ETH_PTP_CTL s)) = true →
      (∃ t, exec (.ptpTimestamp p true udp stamp seq) s = .next t ∧ rd64 (P.ETH p.val) R.ETH_TX_TS_LO t = stamp ∧
        rd (P.ETH p.val) R.ETH_TX_TS_ID t = seq.setWidth 32 ∧
        rd64 (P.ETH p.val) R.ETH_RX_TS_LO t = rd64 (P.ETH p.val) R.ETH_RX_TS_LO s) ∧
      (∃ t, exec (.ptpTimestamp p false udp stamp seq) s = .next t ∧ rd64 (P.ETH p.val) R.ETH_RX_TS_LO t = stamp ∧
        rd (P.ETH p.val) R.ETH_RX_TS_ID t = seq.setWidth 32))

/-- A snapshot is armed, captured at its time and exchanged; a roll-call goes out at the leader and returns or times
out. Spec: 17_ring_time_observation.md, Snapshots; 17_ring_time_observation.md, Device digest and roll-call. -/
def Obligations.SnapshotsAndRollCallsComplete : Prop :=
  ∀ (s : State),
    (∀ rq, Reaches rq P.SNAP s → bit 0 (rd P.SNAP R.PAGE_CTL s) = true →
      let at_ := rd64 P.SNAP R.SNAP_AT_LO s
      let scope : Word := rd P.SNAP R.SNAP_CTL s &&& W 0xFFFF003F
      (s.time.snap = none → bit 8 (rd P.SNAP R.SNAP_CTL s) = false → ∃ t, exec (.snapArm rq) s = .next t ∧
        t.time.snap = some (at_, scope) ∧ bit 0 (rd P.SNAP R.SNAP_STAT t) = true ∧ t.ring = s.ring) ∧
      (s.time.snap.isSome = true → exec (.snapArm rq) s =
        .next (irq P.SNAP 1 (wrf P.SNAP R.SNAP_STAT 15 8 E.PERM_FAULT s)))) ∧
    (∀ rq, Reaches rq P.SNAP s →
      (s.time.snap.isSome = true → ∃ t, exec (.snapCancel rq) s = .next t ∧ t.time.snap = none ∧
        bit 0 (rd P.SNAP R.SNAP_STAT t) = false) ∧
      (s.time.snap = none → exec (.snapCancel rq) s = .next s)) ∧
    (∀ at_ scope, s.time.snap = some (at_, scope) →
      (s.dev.mode = .run → s.time.captureDone = false → at_ ≤ s.time.ringTime →
        ∃ t, exec .snapshotCapture s = .next t ∧ t.time.captureDone = true ∧ t.regs = s.regs ∧
          (fld 5 0 scope = 16 → pageOff P.XB s = false → ∀ k, k < 8 →
            tfind t.time.captured (rkey P.XB (0x180 + 4 * k)) = some (rd P.XB (0x100 + 4 * k) s))) ∧
      (s.time.captureDone = false → s.time.ringTime < at_ → exec .snapshotCapture s = .next s) ∧
      (s.time.captureDone = true → ∃ t, exec .snapshotExchange s = .next t ∧ t.time.snap = none ∧
        rdf P.SNAP R.SNAP_STAT 31 16 t = fld 31 16 scope ∧
        rd64 P.SNAP R.SNAP_TAKEN_LO t = s.time.ringTime ∧ t.banks = s.banks) ∧
      (s.time.captureDone = false → exec .snapshotExchange s = .next s)) ∧
    (∀ rq, Reaches rq P.RING s → bit 0 (rd P.RING R.PAGE_CTL s) = true →
      (ringLeader s = true → ringUp s = true → bit 1 (rd P.RING R.RING_ROLLCALL_CTL s) = false →
        ∃ t, exec (.rollcallGo rq) s = .next t ∧ bit 1 (rd P.RING R.RING_ROLLCALL_CTL t) = true ∧
          t.banks = s.banks) ∧
      (ringLeader s = false → exec (.rollcallGo rq) s =
        .next (wrf P.RING R.RING_ROLLCALL_CTL 31 24 E.PERM_FAULT s))) ∧
    (bit 1 (rd P.RING R.RING_ROLLCALL_CTL s) = true →
      (∀ bitmap : List Word, ∃ t, exec (.rollcallReturn bitmap) s = .next t ∧
        (∀ i, i < 8 → rd P.RING (R.RING_MAP + 4 * i) t = bitmap.getD i 0) ∧
        bit 1 (rd P.RING R.RING_ROLLCALL_CTL t) = false ∧ rdf P.RING R.RING_ROLLCALL_CTL 31 24 t = 0) ∧
      (∃ t, exec .rollcallTimeout s = .next t ∧ bit 1 (rd P.RING R.RING_ROLLCALL_CTL t) = false ∧
        rdf P.RING R.RING_ROLLCALL_CTL 31 24 t = E.ABSENT_TARGET)) ∧
    (bit 1 (rd P.RING R.RING_ROLLCALL_CTL s) = false → exec .rollcallTimeout s = .next s)

/-- Owl ports, I/O delays, VCCO, strap pins, PCI Express resets and links, Ethernet links and frames follow their
commands. Spec: 17_ring_time_observation.md, Owl probes; 18_pins_and_electrical.md, I/O banks and the pin sides that
serve them; 18_pins_and_electrical.md, Delays, timestamps and events; 18_pins_and_electrical.md, Transceivers and PCI
Express. When VCCO_OK is computed and how fast a delay moves are log entries 77 and 78; the MSI-X control of a link
change is log entry 14. -/
def Obligations.ProbesPinsAndLinks : Prop :=
  ∀ (s : State),
    (∀ rq (n : Fin 4) (v : Word), Reaches rq P.OWL s →
      (fld 11 8 v < 12 → owlTaken n.val v s = false →
        exec (.owlPortWrite rq n true v) s = .next (wr P.OWL (R.OWL_PORT_PIN + 8 * n.val) (v &&& W 0xF3F) s)) ∧
      (12 ≤ fld 11 8 v ∨ owlTaken n.val v s = true →
        exec (.owlPortWrite rq n true v) s = .next (permFault P.OWL (R.OWL_PORT_PIN + 8 * n.val) s)) ∧
      (bit 31 v = false ∨ owlTaken n.val (owlPin n.val s) s = false → exec (.owlPortWrite rq n false v) s =
        .next (wr P.OWL (R.OWL_PORT_SEL + 8 * n.val) (v &&& W 0x80003F3F) s)) ∧
      (bit 31 v = true → owlTaken n.val (owlPin n.val s) s = true → exec (.owlPortWrite rq n false v) s =
        .next (permFault P.OWL (R.OWL_PORT_SEL + 8 * n.val) s))) ∧
    (∀ rq (b : IobId) (c : Fin 48) (v : Word), Reaches rq (P.IOB b.val) s →
      (bankCells b.val ≤ c.val → exec (.dlyWrite rq b c v) s = .next s) ∧
      (c.val < bankCells b.val → s.pwr.hare = true → exec (.dlyWrite rq b c v) s =
        .next (moveDelay b.val c.val (wr (P.IOB b.val) (R.IOB_DLY + 4 * c.val) (v &&& W 0xFFFF) s)))) ∧
    (∀ (b : IobId) (mv : BitVec 16), s.dev.mode ≠ .off → ∃ t, exec (.vccoChange b mv) s = .next t ∧
      rdf (P.IOB b.val) R.IOB_BANK_STAT 31 16 t = mv.toNat ∧
      vccoOk b.val t = vccoInRange b.val (rdf (P.IOB b.val) R.IOB_BANK_CFG 3 0 s) mv.toNat ∧ t.banks = s.banks) ∧
    (∀ pins, exec (.strapSafePins pins) s = .next (setDev { s.dev with liveSafe := pins } s)) ∧
    (pcieOn s = true → ∃ t, exec .functionLevelReset s = .next t ∧ t.io.msixMask = false ∧ t.io.msixEnable = false ∧
      (∀ v, v < 256 → rd P.PCIE (R.PCIE_MSIX_TABLE + 4 * v) t = regReset P.PCIE (R.PCIE_MSIX_TABLE + 4 * v)) ∧
      t.dev = s.dev ∧ t.banks = s.banks) ∧
    (∀ up (w : BitVec 3) (sp : BitVec 4) (l : BitVec 6) (m : BitVec 2), pcieOn s = true → ∃ t,
      exec (.pcieLinkChange up w sp ⟨l, m⟩) s = .next t ∧ bit 7 (rd P.PCIE R.PCIE_LINK_STAT t) = up ∧
      rdf P.PCIE R.PCIE_LINK_STAT 13 8 t = l.toNat ∧ rdf P.PCIE R.PCIE_LINK_STAT 6 4 t = w.toNat ∧
      rdf P.PCIE R.PCIE_LINK_STAT 3 0 t = sp.toNat ∧ t.io.msixEnable = m.getLsbD 1 ∧
      t.io.msixMask = m.getLsbD 0 ∧ t.banks = s.banks) ∧
    (∀ (p : Fin 2) up (sp : BitVec 2), macLive p.val s = true → sp ≠ 3 → ∃ t, exec (.ethLinkChange p up sp) s = .next t ∧
      bit 0 (rd (P.ETH p.val) R.ETH_STAT t) = up ∧ rdf (P.ETH p.val) R.ETH_STAT 2 1 t = sp.toNat) ∧
    (∀ (p : Fin 2) (f : List Byte), macLive p.val s = true → bit 0 (rd (P.ETH p.val) R.PAGE_CTL s) = true →
      exec (.frameReceived p f true) s = .next (count (P.ETH p.val) R.ETH_FRAMES_RX
        (setIo { s.io with frames := s.io.frames ++ [(p.val, f)] } s)) ∧
      exec (.frameReceived p f false) s = .next (count (P.ETH p.val) R.ETH_FRAMES_ERR s))

/-- The QSPI port buffers writes, answers reads and status; the TAP takes its instructions and gives the pins back at
reset. Spec: 18_pins_and_electrical.md, Dedicated pins; 18_pins_and_electrical.md, Boundary scan. The order of the
boundary register, what the TAP captures and the pace of the buffer are log entries 71, 76 and 85. -/
def Obligations.QspiPortAndTapAnswer : Prop :=
  ∀ (s : State),
    (qspiOn s = true →
      (∀ (a : Word) (ws : List Word), s.io.qspi.length + ws.length ≤ 256 → ∃ t, exec (.qspiWrite a ws) s = .next t ∧
        t.io.qspi = s.io.qspi ++ ws.mapIdx (fun k w => (a + W (4 * k), w)) ∧ t.io.qspiDropped = s.io.qspiDropped ∧
        t.regs = s.regs ∧ t.banks = s.banks) ∧
      (∀ (a w : Word), s.io.qspi.length = 256 → ∃ t, exec (.qspiWrite a [w]) s = .next t ∧ t.io.qspi = s.io.qspi ∧
        t.io.qspiDropped = true) ∧
      (∀ a : Word, s.io.qspi = [] → hostReading s = false → s.io.hostWait = [] → s.dev.mode ≠ .scan → fld 30 0 a < 0x4000000 → bit 31 a = false →
        exec (.qspiRead a) s = .next (busRead .host (fld 30 0 a) 4 (setIo { s.io with qspiWait := some a } s))) ∧
      (∃ t, exec .qspiStatus s = .next t ∧ t.io.qspiDropped = false ∧ t.io.qspiOut = [qspiStatusByte s] ∧
        t.io.qspi = s.io.qspi)) ∧
    (∀ a, s.io.qspiWait = some a → exec .qspiReadTimeout s = .next (err P.DEV E.ABSENT_TARGET 0 (qspiReach a)
      (setIo { s.io with qspiWait := none, qspiOut := [0x5A, 0, 0, 0, 0], qspiLate := s.io.qspiLate + 1 } s))) ∧
    (qspiOn s = false → ∀ a ws, exec (.qspiWrite a ws) s = .next s) ∧
    (s.dev.mode ≠ .off →
      (∃ t, exec .idcode s = .next t ∧ t.io.tap = .idcode ∧ t.io.taken = s.io.taken ∧
        t.io.tdo = (List.range 32).map fun n => idcodeValue.getLsbD n) ∧
      (∃ t, exec .extest s = .next t ∧ t.io.tap = .extest ∧ t.io.taken = some .extest ∧
        t.io.boundary = s.io.boundary ∧ t.banks = s.banks ∧ t.regs = s.regs) ∧
      (∀ l, ∃ t, exec (.samplePreload l) s = .next t ∧ t.io.tap = .sample ∧ t.io.taken = s.io.taken ∧
        t.io.boundary = padBoundary l ∧ t.regs = s.regs) ∧
      (∃ t, exec .clamp s = .next t ∧ t.io.tap = .clamp ∧ t.io.taken = some .clamp ∧ t.io.tdo = [false]) ∧
      (∃ t, exec .highz s = .next t ∧ t.io.tap = .highz ∧ t.io.taken = some .highz ∧ t.io.tdo = [false]) ∧
      (∀ ir, otherTapCode ir = false → ∃ t, exec (.bypass ir) s = .next t ∧ t.io.tap = .bypass ∧
        t.io.tdo = [false] ∧ t.io.taken = s.io.taken ∧ t.regs = s.regs) ∧
      (∃ t, exec .testLogicReset s = .next t ∧ t.io.tap = .idcode ∧ t.io.taken = none ∧ t.regs = s.regs ∧
        t.banks = s.banks))
end

