-- ==== Sys2Proof/Laws/Access.lean ====
section
/-! SUPPORT. An access that reaches its page runs on it. -/
namespace Sys2Proof.Machine

open Sys2Proof

theorem onPage_reaches {rq : Requester} {p : Nat} {s : State} (h : Reaches rq p s) (off : Nat) (f : State → State) :
    onPage rq p off f s = f s := by
  unfold onPage; simp [h.1, h.2.1, h.2.2]

theorem onPageRead_reaches {rq : Requester} {p : Nat} {s : State} (h : Reaches rq p s) (off : Nat)
    (f : State → State) : onPageRead rq p off f s = f s := by
  unfold onPageRead; simp [h.1, h.2.1, h.2.2]

end Sys2Proof.Machine
end

