-- ==== Sys2Proof/Laws/State.lean ====
section
/-! SUPPORT. One lemma per component per setter of State. -/
namespace Sys2Proof.Machine

open Sys2Proof

@[simp] theorem setPending_pending (x : List Instr) (s : State) : (setPending x s).pending = x := rfl
@[simp] theorem setPending_dev (x : List Instr) (s : State) : (setPending x s).dev = s.dev := rfl
@[simp] theorem setPending_regs (x : List Instr) (s : State) : (setPending x s).regs = s.regs := rfl
@[simp] theorem setPending_net (x : List Instr) (s : State) : (setPending x s).net = s.net := rfl
@[simp] theorem setPending_fab (x : List Instr) (s : State) : (setPending x s).fab = s.fab := rfl
@[simp] theorem setPending_macs (x : List Instr) (s : State) : (setPending x s).macs = s.macs := rfl
@[simp] theorem setPending_logic (x : List Instr) (s : State) : (setPending x s).logic = s.logic := rfl
@[simp] theorem setPending_banks (x : List Instr) (s : State) : (setPending x s).banks = s.banks := rfl
@[simp] theorem setPending_sched (x : List Instr) (s : State) : (setPending x s).sched = s.sched := rfl
@[simp] theorem setPending_dma (x : List Instr) (s : State) : (setPending x s).dma = s.dma := rfl
@[simp] theorem setPending_rgns (x : List Instr) (s : State) : (setPending x s).rgns = s.rgns := rfl
@[simp] theorem setPending_planes (x : List Instr) (s : State) : (setPending x s).planes = s.planes := rfl
@[simp] theorem setPending_fox (x : List Instr) (s : State) : (setPending x s).fox = s.fox := rfl
@[simp] theorem setPending_store (x : List Instr) (s : State) : (setPending x s).store = s.store := rfl
@[simp] theorem setPending_flash (x : List Instr) (s : State) : (setPending x s).flash = s.flash := rfl
@[simp] theorem setPending_upd (x : List Instr) (s : State) : (setPending x s).upd = s.upd := rfl
@[simp] theorem setPending_pwr (x : List Instr) (s : State) : (setPending x s).pwr = s.pwr := rfl
@[simp] theorem setPending_wpk (x : List Instr) (s : State) : (setPending x s).wpk = s.wpk := rfl
@[simp] theorem setPending_ring (x : List Instr) (s : State) : (setPending x s).ring = s.ring := rfl
@[simp] theorem setPending_time (x : List Instr) (s : State) : (setPending x s).time = s.time := rfl
@[simp] theorem setPending_io (x : List Instr) (s : State) : (setPending x s).io = s.io := rfl
@[simp] theorem setPending_free (x : List Instr) (s : State) : (setPending x s).free = s.free := rfl
@[simp] theorem setDev_pending (x : Dev) (s : State) : (setDev x s).pending = s.pending := rfl
@[simp] theorem setDev_dev (x : Dev) (s : State) : (setDev x s).dev = x := rfl
@[simp] theorem setDev_regs (x : Dev) (s : State) : (setDev x s).regs = s.regs := rfl
@[simp] theorem setDev_net (x : Dev) (s : State) : (setDev x s).net = s.net := rfl
@[simp] theorem setDev_fab (x : Dev) (s : State) : (setDev x s).fab = s.fab := rfl
@[simp] theorem setDev_macs (x : Dev) (s : State) : (setDev x s).macs = s.macs := rfl
@[simp] theorem setDev_logic (x : Dev) (s : State) : (setDev x s).logic = s.logic := rfl
@[simp] theorem setDev_banks (x : Dev) (s : State) : (setDev x s).banks = s.banks := rfl
@[simp] theorem setDev_sched (x : Dev) (s : State) : (setDev x s).sched = s.sched := rfl
@[simp] theorem setDev_dma (x : Dev) (s : State) : (setDev x s).dma = s.dma := rfl
@[simp] theorem setDev_rgns (x : Dev) (s : State) : (setDev x s).rgns = s.rgns := rfl
@[simp] theorem setDev_planes (x : Dev) (s : State) : (setDev x s).planes = s.planes := rfl
@[simp] theorem setDev_fox (x : Dev) (s : State) : (setDev x s).fox = s.fox := rfl
@[simp] theorem setDev_store (x : Dev) (s : State) : (setDev x s).store = s.store := rfl
@[simp] theorem setDev_flash (x : Dev) (s : State) : (setDev x s).flash = s.flash := rfl
@[simp] theorem setDev_upd (x : Dev) (s : State) : (setDev x s).upd = s.upd := rfl
@[simp] theorem setDev_pwr (x : Dev) (s : State) : (setDev x s).pwr = s.pwr := rfl
@[simp] theorem setDev_wpk (x : Dev) (s : State) : (setDev x s).wpk = s.wpk := rfl
@[simp] theorem setDev_ring (x : Dev) (s : State) : (setDev x s).ring = s.ring := rfl
@[simp] theorem setDev_time (x : Dev) (s : State) : (setDev x s).time = s.time := rfl
@[simp] theorem setDev_io (x : Dev) (s : State) : (setDev x s).io = s.io := rfl
@[simp] theorem setDev_free (x : Dev) (s : State) : (setDev x s).free = s.free := rfl
@[simp] theorem setRegs_pending (x : SMap Word) (s : State) : (setRegs x s).pending = s.pending := rfl
@[simp] theorem setRegs_dev (x : SMap Word) (s : State) : (setRegs x s).dev = s.dev := rfl
@[simp] theorem setRegs_regs (x : SMap Word) (s : State) : (setRegs x s).regs = x := rfl
@[simp] theorem setRegs_net (x : SMap Word) (s : State) : (setRegs x s).net = s.net := rfl
@[simp] theorem setRegs_fab (x : SMap Word) (s : State) : (setRegs x s).fab = s.fab := rfl
@[simp] theorem setRegs_macs (x : SMap Word) (s : State) : (setRegs x s).macs = s.macs := rfl
@[simp] theorem setRegs_logic (x : SMap Word) (s : State) : (setRegs x s).logic = s.logic := rfl
@[simp] theorem setRegs_banks (x : SMap Word) (s : State) : (setRegs x s).banks = s.banks := rfl
@[simp] theorem setRegs_sched (x : SMap Word) (s : State) : (setRegs x s).sched = s.sched := rfl
@[simp] theorem setRegs_dma (x : SMap Word) (s : State) : (setRegs x s).dma = s.dma := rfl
@[simp] theorem setRegs_rgns (x : SMap Word) (s : State) : (setRegs x s).rgns = s.rgns := rfl
@[simp] theorem setRegs_planes (x : SMap Word) (s : State) : (setRegs x s).planes = s.planes := rfl
@[simp] theorem setRegs_fox (x : SMap Word) (s : State) : (setRegs x s).fox = s.fox := rfl
@[simp] theorem setRegs_store (x : SMap Word) (s : State) : (setRegs x s).store = s.store := rfl
@[simp] theorem setRegs_flash (x : SMap Word) (s : State) : (setRegs x s).flash = s.flash := rfl
@[simp] theorem setRegs_upd (x : SMap Word) (s : State) : (setRegs x s).upd = s.upd := rfl
@[simp] theorem setRegs_pwr (x : SMap Word) (s : State) : (setRegs x s).pwr = s.pwr := rfl
@[simp] theorem setRegs_wpk (x : SMap Word) (s : State) : (setRegs x s).wpk = s.wpk := rfl
@[simp] theorem setRegs_ring (x : SMap Word) (s : State) : (setRegs x s).ring = s.ring := rfl
@[simp] theorem setRegs_time (x : SMap Word) (s : State) : (setRegs x s).time = s.time := rfl
@[simp] theorem setRegs_io (x : SMap Word) (s : State) : (setRegs x s).io = s.io := rfl
@[simp] theorem setRegs_free (x : SMap Word) (s : State) : (setRegs x s).free = s.free := rfl
@[simp] theorem setNet_pending (x : SMap Channel) (s : State) : (setNet x s).pending = s.pending := rfl
@[simp] theorem setNet_dev (x : SMap Channel) (s : State) : (setNet x s).dev = s.dev := rfl
@[simp] theorem setNet_regs (x : SMap Channel) (s : State) : (setNet x s).regs = s.regs := rfl
@[simp] theorem setNet_net (x : SMap Channel) (s : State) : (setNet x s).net = x := rfl
@[simp] theorem setNet_fab (x : SMap Channel) (s : State) : (setNet x s).fab = s.fab := rfl
@[simp] theorem setNet_macs (x : SMap Channel) (s : State) : (setNet x s).macs = s.macs := rfl
@[simp] theorem setNet_logic (x : SMap Channel) (s : State) : (setNet x s).logic = s.logic := rfl
@[simp] theorem setNet_banks (x : SMap Channel) (s : State) : (setNet x s).banks = s.banks := rfl
@[simp] theorem setNet_sched (x : SMap Channel) (s : State) : (setNet x s).sched = s.sched := rfl
@[simp] theorem setNet_dma (x : SMap Channel) (s : State) : (setNet x s).dma = s.dma := rfl
@[simp] theorem setNet_rgns (x : SMap Channel) (s : State) : (setNet x s).rgns = s.rgns := rfl
@[simp] theorem setNet_planes (x : SMap Channel) (s : State) : (setNet x s).planes = s.planes := rfl
@[simp] theorem setNet_fox (x : SMap Channel) (s : State) : (setNet x s).fox = s.fox := rfl
@[simp] theorem setNet_store (x : SMap Channel) (s : State) : (setNet x s).store = s.store := rfl
@[simp] theorem setNet_flash (x : SMap Channel) (s : State) : (setNet x s).flash = s.flash := rfl
@[simp] theorem setNet_upd (x : SMap Channel) (s : State) : (setNet x s).upd = s.upd := rfl
@[simp] theorem setNet_pwr (x : SMap Channel) (s : State) : (setNet x s).pwr = s.pwr := rfl
@[simp] theorem setNet_wpk (x : SMap Channel) (s : State) : (setNet x s).wpk = s.wpk := rfl
@[simp] theorem setNet_ring (x : SMap Channel) (s : State) : (setNet x s).ring = s.ring := rfl
@[simp] theorem setNet_time (x : SMap Channel) (s : State) : (setNet x s).time = s.time := rfl
@[simp] theorem setNet_io (x : SMap Channel) (s : State) : (setNet x s).io = s.io := rfl
@[simp] theorem setNet_free (x : SMap Channel) (s : State) : (setNet x s).free = s.free := rfl
@[simp] theorem setFab_pending (x : Fabric) (s : State) : (setFab x s).pending = s.pending := rfl
@[simp] theorem setFab_dev (x : Fabric) (s : State) : (setFab x s).dev = s.dev := rfl
@[simp] theorem setFab_regs (x : Fabric) (s : State) : (setFab x s).regs = s.regs := rfl
@[simp] theorem setFab_net (x : Fabric) (s : State) : (setFab x s).net = s.net := rfl
@[simp] theorem setFab_fab (x : Fabric) (s : State) : (setFab x s).fab = x := rfl
@[simp] theorem setFab_macs (x : Fabric) (s : State) : (setFab x s).macs = s.macs := rfl
@[simp] theorem setFab_logic (x : Fabric) (s : State) : (setFab x s).logic = s.logic := rfl
@[simp] theorem setFab_banks (x : Fabric) (s : State) : (setFab x s).banks = s.banks := rfl
@[simp] theorem setFab_sched (x : Fabric) (s : State) : (setFab x s).sched = s.sched := rfl
@[simp] theorem setFab_dma (x : Fabric) (s : State) : (setFab x s).dma = s.dma := rfl
@[simp] theorem setFab_rgns (x : Fabric) (s : State) : (setFab x s).rgns = s.rgns := rfl
@[simp] theorem setFab_planes (x : Fabric) (s : State) : (setFab x s).planes = s.planes := rfl
@[simp] theorem setFab_fox (x : Fabric) (s : State) : (setFab x s).fox = s.fox := rfl
@[simp] theorem setFab_store (x : Fabric) (s : State) : (setFab x s).store = s.store := rfl
@[simp] theorem setFab_flash (x : Fabric) (s : State) : (setFab x s).flash = s.flash := rfl
@[simp] theorem setFab_upd (x : Fabric) (s : State) : (setFab x s).upd = s.upd := rfl
@[simp] theorem setFab_pwr (x : Fabric) (s : State) : (setFab x s).pwr = s.pwr := rfl
@[simp] theorem setFab_wpk (x : Fabric) (s : State) : (setFab x s).wpk = s.wpk := rfl
@[simp] theorem setFab_ring (x : Fabric) (s : State) : (setFab x s).ring = s.ring := rfl
@[simp] theorem setFab_time (x : Fabric) (s : State) : (setFab x s).time = s.time := rfl
@[simp] theorem setFab_io (x : Fabric) (s : State) : (setFab x s).io = s.io := rfl
@[simp] theorem setFab_free (x : Fabric) (s : State) : (setFab x s).free = s.free := rfl
@[simp] theorem setMacs_pending (x : SMap Mac) (s : State) : (setMacs x s).pending = s.pending := rfl
@[simp] theorem setMacs_dev (x : SMap Mac) (s : State) : (setMacs x s).dev = s.dev := rfl
@[simp] theorem setMacs_regs (x : SMap Mac) (s : State) : (setMacs x s).regs = s.regs := rfl
@[simp] theorem setMacs_net (x : SMap Mac) (s : State) : (setMacs x s).net = s.net := rfl
@[simp] theorem setMacs_fab (x : SMap Mac) (s : State) : (setMacs x s).fab = s.fab := rfl
@[simp] theorem setMacs_macs (x : SMap Mac) (s : State) : (setMacs x s).macs = x := rfl
@[simp] theorem setMacs_logic (x : SMap Mac) (s : State) : (setMacs x s).logic = s.logic := rfl
@[simp] theorem setMacs_banks (x : SMap Mac) (s : State) : (setMacs x s).banks = s.banks := rfl
@[simp] theorem setMacs_sched (x : SMap Mac) (s : State) : (setMacs x s).sched = s.sched := rfl
@[simp] theorem setMacs_dma (x : SMap Mac) (s : State) : (setMacs x s).dma = s.dma := rfl
@[simp] theorem setMacs_rgns (x : SMap Mac) (s : State) : (setMacs x s).rgns = s.rgns := rfl
@[simp] theorem setMacs_planes (x : SMap Mac) (s : State) : (setMacs x s).planes = s.planes := rfl
@[simp] theorem setMacs_fox (x : SMap Mac) (s : State) : (setMacs x s).fox = s.fox := rfl
@[simp] theorem setMacs_store (x : SMap Mac) (s : State) : (setMacs x s).store = s.store := rfl
@[simp] theorem setMacs_flash (x : SMap Mac) (s : State) : (setMacs x s).flash = s.flash := rfl
@[simp] theorem setMacs_upd (x : SMap Mac) (s : State) : (setMacs x s).upd = s.upd := rfl
@[simp] theorem setMacs_pwr (x : SMap Mac) (s : State) : (setMacs x s).pwr = s.pwr := rfl
@[simp] theorem setMacs_wpk (x : SMap Mac) (s : State) : (setMacs x s).wpk = s.wpk := rfl
@[simp] theorem setMacs_ring (x : SMap Mac) (s : State) : (setMacs x s).ring = s.ring := rfl
@[simp] theorem setMacs_time (x : SMap Mac) (s : State) : (setMacs x s).time = s.time := rfl
@[simp] theorem setMacs_io (x : SMap Mac) (s : State) : (setMacs x s).io = s.io := rfl
@[simp] theorem setMacs_free (x : SMap Mac) (s : State) : (setMacs x s).free = s.free := rfl
@[simp] theorem setLogic_pending (x : Logic) (s : State) : (setLogic x s).pending = s.pending := rfl
@[simp] theorem setLogic_dev (x : Logic) (s : State) : (setLogic x s).dev = s.dev := rfl
@[simp] theorem setLogic_regs (x : Logic) (s : State) : (setLogic x s).regs = s.regs := rfl
@[simp] theorem setLogic_net (x : Logic) (s : State) : (setLogic x s).net = s.net := rfl
@[simp] theorem setLogic_fab (x : Logic) (s : State) : (setLogic x s).fab = s.fab := rfl
@[simp] theorem setLogic_macs (x : Logic) (s : State) : (setLogic x s).macs = s.macs := rfl
@[simp] theorem setLogic_logic (x : Logic) (s : State) : (setLogic x s).logic = x := rfl
@[simp] theorem setLogic_banks (x : Logic) (s : State) : (setLogic x s).banks = s.banks := rfl
@[simp] theorem setLogic_sched (x : Logic) (s : State) : (setLogic x s).sched = s.sched := rfl
@[simp] theorem setLogic_dma (x : Logic) (s : State) : (setLogic x s).dma = s.dma := rfl
@[simp] theorem setLogic_rgns (x : Logic) (s : State) : (setLogic x s).rgns = s.rgns := rfl
@[simp] theorem setLogic_planes (x : Logic) (s : State) : (setLogic x s).planes = s.planes := rfl
@[simp] theorem setLogic_fox (x : Logic) (s : State) : (setLogic x s).fox = s.fox := rfl
@[simp] theorem setLogic_store (x : Logic) (s : State) : (setLogic x s).store = s.store := rfl
@[simp] theorem setLogic_flash (x : Logic) (s : State) : (setLogic x s).flash = s.flash := rfl
@[simp] theorem setLogic_upd (x : Logic) (s : State) : (setLogic x s).upd = s.upd := rfl
@[simp] theorem setLogic_pwr (x : Logic) (s : State) : (setLogic x s).pwr = s.pwr := rfl
@[simp] theorem setLogic_wpk (x : Logic) (s : State) : (setLogic x s).wpk = s.wpk := rfl
@[simp] theorem setLogic_ring (x : Logic) (s : State) : (setLogic x s).ring = s.ring := rfl
@[simp] theorem setLogic_time (x : Logic) (s : State) : (setLogic x s).time = s.time := rfl
@[simp] theorem setLogic_io (x : Logic) (s : State) : (setLogic x s).io = s.io := rfl
@[simp] theorem setLogic_free (x : Logic) (s : State) : (setLogic x s).free = s.free := rfl
@[simp] theorem setBanks_pending (x : Banks) (s : State) : (setBanks x s).pending = s.pending := rfl
@[simp] theorem setBanks_dev (x : Banks) (s : State) : (setBanks x s).dev = s.dev := rfl
@[simp] theorem setBanks_regs (x : Banks) (s : State) : (setBanks x s).regs = s.regs := rfl
@[simp] theorem setBanks_net (x : Banks) (s : State) : (setBanks x s).net = s.net := rfl
@[simp] theorem setBanks_fab (x : Banks) (s : State) : (setBanks x s).fab = s.fab := rfl
@[simp] theorem setBanks_macs (x : Banks) (s : State) : (setBanks x s).macs = s.macs := rfl
@[simp] theorem setBanks_logic (x : Banks) (s : State) : (setBanks x s).logic = s.logic := rfl
@[simp] theorem setBanks_banks (x : Banks) (s : State) : (setBanks x s).banks = x := rfl
@[simp] theorem setBanks_sched (x : Banks) (s : State) : (setBanks x s).sched = s.sched := rfl
@[simp] theorem setBanks_dma (x : Banks) (s : State) : (setBanks x s).dma = s.dma := rfl
@[simp] theorem setBanks_rgns (x : Banks) (s : State) : (setBanks x s).rgns = s.rgns := rfl
@[simp] theorem setBanks_planes (x : Banks) (s : State) : (setBanks x s).planes = s.planes := rfl
@[simp] theorem setBanks_fox (x : Banks) (s : State) : (setBanks x s).fox = s.fox := rfl
@[simp] theorem setBanks_store (x : Banks) (s : State) : (setBanks x s).store = s.store := rfl
@[simp] theorem setBanks_flash (x : Banks) (s : State) : (setBanks x s).flash = s.flash := rfl
@[simp] theorem setBanks_upd (x : Banks) (s : State) : (setBanks x s).upd = s.upd := rfl
@[simp] theorem setBanks_pwr (x : Banks) (s : State) : (setBanks x s).pwr = s.pwr := rfl
@[simp] theorem setBanks_wpk (x : Banks) (s : State) : (setBanks x s).wpk = s.wpk := rfl
@[simp] theorem setBanks_ring (x : Banks) (s : State) : (setBanks x s).ring = s.ring := rfl
@[simp] theorem setBanks_time (x : Banks) (s : State) : (setBanks x s).time = s.time := rfl
@[simp] theorem setBanks_io (x : Banks) (s : State) : (setBanks x s).io = s.io := rfl
@[simp] theorem setBanks_free (x : Banks) (s : State) : (setBanks x s).free = s.free := rfl
@[simp] theorem setSched_pending (x : Sched) (s : State) : (setSched x s).pending = s.pending := rfl
@[simp] theorem setSched_dev (x : Sched) (s : State) : (setSched x s).dev = s.dev := rfl
@[simp] theorem setSched_regs (x : Sched) (s : State) : (setSched x s).regs = s.regs := rfl
@[simp] theorem setSched_net (x : Sched) (s : State) : (setSched x s).net = s.net := rfl
@[simp] theorem setSched_fab (x : Sched) (s : State) : (setSched x s).fab = s.fab := rfl
@[simp] theorem setSched_macs (x : Sched) (s : State) : (setSched x s).macs = s.macs := rfl
@[simp] theorem setSched_logic (x : Sched) (s : State) : (setSched x s).logic = s.logic := rfl
@[simp] theorem setSched_banks (x : Sched) (s : State) : (setSched x s).banks = s.banks := rfl
@[simp] theorem setSched_sched (x : Sched) (s : State) : (setSched x s).sched = x := rfl
@[simp] theorem setSched_dma (x : Sched) (s : State) : (setSched x s).dma = s.dma := rfl
@[simp] theorem setSched_rgns (x : Sched) (s : State) : (setSched x s).rgns = s.rgns := rfl
@[simp] theorem setSched_planes (x : Sched) (s : State) : (setSched x s).planes = s.planes := rfl
@[simp] theorem setSched_fox (x : Sched) (s : State) : (setSched x s).fox = s.fox := rfl
@[simp] theorem setSched_store (x : Sched) (s : State) : (setSched x s).store = s.store := rfl
@[simp] theorem setSched_flash (x : Sched) (s : State) : (setSched x s).flash = s.flash := rfl
@[simp] theorem setSched_upd (x : Sched) (s : State) : (setSched x s).upd = s.upd := rfl
@[simp] theorem setSched_pwr (x : Sched) (s : State) : (setSched x s).pwr = s.pwr := rfl
@[simp] theorem setSched_wpk (x : Sched) (s : State) : (setSched x s).wpk = s.wpk := rfl
@[simp] theorem setSched_ring (x : Sched) (s : State) : (setSched x s).ring = s.ring := rfl
@[simp] theorem setSched_time (x : Sched) (s : State) : (setSched x s).time = s.time := rfl
@[simp] theorem setSched_io (x : Sched) (s : State) : (setSched x s).io = s.io := rfl
@[simp] theorem setSched_free (x : Sched) (s : State) : (setSched x s).free = s.free := rfl
@[simp] theorem setDma_pending (x : Dma) (s : State) : (setDma x s).pending = s.pending := rfl
@[simp] theorem setDma_dev (x : Dma) (s : State) : (setDma x s).dev = s.dev := rfl
@[simp] theorem setDma_regs (x : Dma) (s : State) : (setDma x s).regs = s.regs := rfl
@[simp] theorem setDma_net (x : Dma) (s : State) : (setDma x s).net = s.net := rfl
@[simp] theorem setDma_fab (x : Dma) (s : State) : (setDma x s).fab = s.fab := rfl
@[simp] theorem setDma_macs (x : Dma) (s : State) : (setDma x s).macs = s.macs := rfl
@[simp] theorem setDma_logic (x : Dma) (s : State) : (setDma x s).logic = s.logic := rfl
@[simp] theorem setDma_banks (x : Dma) (s : State) : (setDma x s).banks = s.banks := rfl
@[simp] theorem setDma_sched (x : Dma) (s : State) : (setDma x s).sched = s.sched := rfl
@[simp] theorem setDma_dma (x : Dma) (s : State) : (setDma x s).dma = x := rfl
@[simp] theorem setDma_rgns (x : Dma) (s : State) : (setDma x s).rgns = s.rgns := rfl
@[simp] theorem setDma_planes (x : Dma) (s : State) : (setDma x s).planes = s.planes := rfl
@[simp] theorem setDma_fox (x : Dma) (s : State) : (setDma x s).fox = s.fox := rfl
@[simp] theorem setDma_store (x : Dma) (s : State) : (setDma x s).store = s.store := rfl
@[simp] theorem setDma_flash (x : Dma) (s : State) : (setDma x s).flash = s.flash := rfl
@[simp] theorem setDma_upd (x : Dma) (s : State) : (setDma x s).upd = s.upd := rfl
@[simp] theorem setDma_pwr (x : Dma) (s : State) : (setDma x s).pwr = s.pwr := rfl
@[simp] theorem setDma_wpk (x : Dma) (s : State) : (setDma x s).wpk = s.wpk := rfl
@[simp] theorem setDma_ring (x : Dma) (s : State) : (setDma x s).ring = s.ring := rfl
@[simp] theorem setDma_time (x : Dma) (s : State) : (setDma x s).time = s.time := rfl
@[simp] theorem setDma_io (x : Dma) (s : State) : (setDma x s).io = s.io := rfl
@[simp] theorem setDma_free (x : Dma) (s : State) : (setDma x s).free = s.free := rfl
@[simp] theorem setRgns_pending (x : SMap Rgn) (s : State) : (setRgns x s).pending = s.pending := rfl
@[simp] theorem setRgns_dev (x : SMap Rgn) (s : State) : (setRgns x s).dev = s.dev := rfl
@[simp] theorem setRgns_regs (x : SMap Rgn) (s : State) : (setRgns x s).regs = s.regs := rfl
@[simp] theorem setRgns_net (x : SMap Rgn) (s : State) : (setRgns x s).net = s.net := rfl
@[simp] theorem setRgns_fab (x : SMap Rgn) (s : State) : (setRgns x s).fab = s.fab := rfl
@[simp] theorem setRgns_macs (x : SMap Rgn) (s : State) : (setRgns x s).macs = s.macs := rfl
@[simp] theorem setRgns_logic (x : SMap Rgn) (s : State) : (setRgns x s).logic = s.logic := rfl
@[simp] theorem setRgns_banks (x : SMap Rgn) (s : State) : (setRgns x s).banks = s.banks := rfl
@[simp] theorem setRgns_sched (x : SMap Rgn) (s : State) : (setRgns x s).sched = s.sched := rfl
@[simp] theorem setRgns_dma (x : SMap Rgn) (s : State) : (setRgns x s).dma = s.dma := rfl
@[simp] theorem setRgns_rgns (x : SMap Rgn) (s : State) : (setRgns x s).rgns = x := rfl
@[simp] theorem setRgns_planes (x : SMap Rgn) (s : State) : (setRgns x s).planes = s.planes := rfl
@[simp] theorem setRgns_fox (x : SMap Rgn) (s : State) : (setRgns x s).fox = s.fox := rfl
@[simp] theorem setRgns_store (x : SMap Rgn) (s : State) : (setRgns x s).store = s.store := rfl
@[simp] theorem setRgns_flash (x : SMap Rgn) (s : State) : (setRgns x s).flash = s.flash := rfl
@[simp] theorem setRgns_upd (x : SMap Rgn) (s : State) : (setRgns x s).upd = s.upd := rfl
@[simp] theorem setRgns_pwr (x : SMap Rgn) (s : State) : (setRgns x s).pwr = s.pwr := rfl
@[simp] theorem setRgns_wpk (x : SMap Rgn) (s : State) : (setRgns x s).wpk = s.wpk := rfl
@[simp] theorem setRgns_ring (x : SMap Rgn) (s : State) : (setRgns x s).ring = s.ring := rfl
@[simp] theorem setRgns_time (x : SMap Rgn) (s : State) : (setRgns x s).time = s.time := rfl
@[simp] theorem setRgns_io (x : SMap Rgn) (s : State) : (setRgns x s).io = s.io := rfl
@[simp] theorem setRgns_free (x : SMap Rgn) (s : State) : (setRgns x s).free = s.free := rfl
@[simp] theorem setPlanes_pending (x : Planes) (s : State) : (setPlanes x s).pending = s.pending := rfl
@[simp] theorem setPlanes_dev (x : Planes) (s : State) : (setPlanes x s).dev = s.dev := rfl
@[simp] theorem setPlanes_regs (x : Planes) (s : State) : (setPlanes x s).regs = s.regs := rfl
@[simp] theorem setPlanes_net (x : Planes) (s : State) : (setPlanes x s).net = s.net := rfl
@[simp] theorem setPlanes_fab (x : Planes) (s : State) : (setPlanes x s).fab = s.fab := rfl
@[simp] theorem setPlanes_macs (x : Planes) (s : State) : (setPlanes x s).macs = s.macs := rfl
@[simp] theorem setPlanes_logic (x : Planes) (s : State) : (setPlanes x s).logic = s.logic := rfl
@[simp] theorem setPlanes_banks (x : Planes) (s : State) : (setPlanes x s).banks = s.banks := rfl
@[simp] theorem setPlanes_sched (x : Planes) (s : State) : (setPlanes x s).sched = s.sched := rfl
@[simp] theorem setPlanes_dma (x : Planes) (s : State) : (setPlanes x s).dma = s.dma := rfl
@[simp] theorem setPlanes_rgns (x : Planes) (s : State) : (setPlanes x s).rgns = s.rgns := rfl
@[simp] theorem setPlanes_planes (x : Planes) (s : State) : (setPlanes x s).planes = x := rfl
@[simp] theorem setPlanes_fox (x : Planes) (s : State) : (setPlanes x s).fox = s.fox := rfl
@[simp] theorem setPlanes_store (x : Planes) (s : State) : (setPlanes x s).store = s.store := rfl
@[simp] theorem setPlanes_flash (x : Planes) (s : State) : (setPlanes x s).flash = s.flash := rfl
@[simp] theorem setPlanes_upd (x : Planes) (s : State) : (setPlanes x s).upd = s.upd := rfl
@[simp] theorem setPlanes_pwr (x : Planes) (s : State) : (setPlanes x s).pwr = s.pwr := rfl
@[simp] theorem setPlanes_wpk (x : Planes) (s : State) : (setPlanes x s).wpk = s.wpk := rfl
@[simp] theorem setPlanes_ring (x : Planes) (s : State) : (setPlanes x s).ring = s.ring := rfl
@[simp] theorem setPlanes_time (x : Planes) (s : State) : (setPlanes x s).time = s.time := rfl
@[simp] theorem setPlanes_io (x : Planes) (s : State) : (setPlanes x s).io = s.io := rfl
@[simp] theorem setPlanes_free (x : Planes) (s : State) : (setPlanes x s).free = s.free := rfl
@[simp] theorem setFox_pending (x : Fox) (s : State) : (setFox x s).pending = s.pending := rfl
@[simp] theorem setFox_dev (x : Fox) (s : State) : (setFox x s).dev = s.dev := rfl
@[simp] theorem setFox_regs (x : Fox) (s : State) : (setFox x s).regs = s.regs := rfl
@[simp] theorem setFox_net (x : Fox) (s : State) : (setFox x s).net = s.net := rfl
@[simp] theorem setFox_fab (x : Fox) (s : State) : (setFox x s).fab = s.fab := rfl
@[simp] theorem setFox_macs (x : Fox) (s : State) : (setFox x s).macs = s.macs := rfl
@[simp] theorem setFox_logic (x : Fox) (s : State) : (setFox x s).logic = s.logic := rfl
@[simp] theorem setFox_banks (x : Fox) (s : State) : (setFox x s).banks = s.banks := rfl
@[simp] theorem setFox_sched (x : Fox) (s : State) : (setFox x s).sched = s.sched := rfl
@[simp] theorem setFox_dma (x : Fox) (s : State) : (setFox x s).dma = s.dma := rfl
@[simp] theorem setFox_rgns (x : Fox) (s : State) : (setFox x s).rgns = s.rgns := rfl
@[simp] theorem setFox_planes (x : Fox) (s : State) : (setFox x s).planes = s.planes := rfl
@[simp] theorem setFox_fox (x : Fox) (s : State) : (setFox x s).fox = x := rfl
@[simp] theorem setFox_store (x : Fox) (s : State) : (setFox x s).store = s.store := rfl
@[simp] theorem setFox_flash (x : Fox) (s : State) : (setFox x s).flash = s.flash := rfl
@[simp] theorem setFox_upd (x : Fox) (s : State) : (setFox x s).upd = s.upd := rfl
@[simp] theorem setFox_pwr (x : Fox) (s : State) : (setFox x s).pwr = s.pwr := rfl
@[simp] theorem setFox_wpk (x : Fox) (s : State) : (setFox x s).wpk = s.wpk := rfl
@[simp] theorem setFox_ring (x : Fox) (s : State) : (setFox x s).ring = s.ring := rfl
@[simp] theorem setFox_time (x : Fox) (s : State) : (setFox x s).time = s.time := rfl
@[simp] theorem setFox_io (x : Fox) (s : State) : (setFox x s).io = s.io := rfl
@[simp] theorem setFox_free (x : Fox) (s : State) : (setFox x s).free = s.free := rfl
@[simp] theorem setStore_pending (x : Store) (s : State) : (setStore x s).pending = s.pending := rfl
@[simp] theorem setStore_dev (x : Store) (s : State) : (setStore x s).dev = s.dev := rfl
@[simp] theorem setStore_regs (x : Store) (s : State) : (setStore x s).regs = s.regs := rfl
@[simp] theorem setStore_net (x : Store) (s : State) : (setStore x s).net = s.net := rfl
@[simp] theorem setStore_fab (x : Store) (s : State) : (setStore x s).fab = s.fab := rfl
@[simp] theorem setStore_macs (x : Store) (s : State) : (setStore x s).macs = s.macs := rfl
@[simp] theorem setStore_logic (x : Store) (s : State) : (setStore x s).logic = s.logic := rfl
@[simp] theorem setStore_banks (x : Store) (s : State) : (setStore x s).banks = s.banks := rfl
@[simp] theorem setStore_sched (x : Store) (s : State) : (setStore x s).sched = s.sched := rfl
@[simp] theorem setStore_dma (x : Store) (s : State) : (setStore x s).dma = s.dma := rfl
@[simp] theorem setStore_rgns (x : Store) (s : State) : (setStore x s).rgns = s.rgns := rfl
@[simp] theorem setStore_planes (x : Store) (s : State) : (setStore x s).planes = s.planes := rfl
@[simp] theorem setStore_fox (x : Store) (s : State) : (setStore x s).fox = s.fox := rfl
@[simp] theorem setStore_store (x : Store) (s : State) : (setStore x s).store = x := rfl
@[simp] theorem setStore_flash (x : Store) (s : State) : (setStore x s).flash = s.flash := rfl
@[simp] theorem setStore_upd (x : Store) (s : State) : (setStore x s).upd = s.upd := rfl
@[simp] theorem setStore_pwr (x : Store) (s : State) : (setStore x s).pwr = s.pwr := rfl
@[simp] theorem setStore_wpk (x : Store) (s : State) : (setStore x s).wpk = s.wpk := rfl
@[simp] theorem setStore_ring (x : Store) (s : State) : (setStore x s).ring = s.ring := rfl
@[simp] theorem setStore_time (x : Store) (s : State) : (setStore x s).time = s.time := rfl
@[simp] theorem setStore_io (x : Store) (s : State) : (setStore x s).io = s.io := rfl
@[simp] theorem setStore_free (x : Store) (s : State) : (setStore x s).free = s.free := rfl
@[simp] theorem setFlash_pending (x : Flash) (s : State) : (setFlash x s).pending = s.pending := rfl
@[simp] theorem setFlash_dev (x : Flash) (s : State) : (setFlash x s).dev = s.dev := rfl
@[simp] theorem setFlash_regs (x : Flash) (s : State) : (setFlash x s).regs = s.regs := rfl
@[simp] theorem setFlash_net (x : Flash) (s : State) : (setFlash x s).net = s.net := rfl
@[simp] theorem setFlash_fab (x : Flash) (s : State) : (setFlash x s).fab = s.fab := rfl
@[simp] theorem setFlash_macs (x : Flash) (s : State) : (setFlash x s).macs = s.macs := rfl
@[simp] theorem setFlash_logic (x : Flash) (s : State) : (setFlash x s).logic = s.logic := rfl
@[simp] theorem setFlash_banks (x : Flash) (s : State) : (setFlash x s).banks = s.banks := rfl
@[simp] theorem setFlash_sched (x : Flash) (s : State) : (setFlash x s).sched = s.sched := rfl
@[simp] theorem setFlash_dma (x : Flash) (s : State) : (setFlash x s).dma = s.dma := rfl
@[simp] theorem setFlash_rgns (x : Flash) (s : State) : (setFlash x s).rgns = s.rgns := rfl
@[simp] theorem setFlash_planes (x : Flash) (s : State) : (setFlash x s).planes = s.planes := rfl
@[simp] theorem setFlash_fox (x : Flash) (s : State) : (setFlash x s).fox = s.fox := rfl
@[simp] theorem setFlash_store (x : Flash) (s : State) : (setFlash x s).store = s.store := rfl
@[simp] theorem setFlash_flash (x : Flash) (s : State) : (setFlash x s).flash = x := rfl
@[simp] theorem setFlash_upd (x : Flash) (s : State) : (setFlash x s).upd = s.upd := rfl
@[simp] theorem setFlash_pwr (x : Flash) (s : State) : (setFlash x s).pwr = s.pwr := rfl
@[simp] theorem setFlash_wpk (x : Flash) (s : State) : (setFlash x s).wpk = s.wpk := rfl
@[simp] theorem setFlash_ring (x : Flash) (s : State) : (setFlash x s).ring = s.ring := rfl
@[simp] theorem setFlash_time (x : Flash) (s : State) : (setFlash x s).time = s.time := rfl
@[simp] theorem setFlash_io (x : Flash) (s : State) : (setFlash x s).io = s.io := rfl
@[simp] theorem setFlash_free (x : Flash) (s : State) : (setFlash x s).free = s.free := rfl
@[simp] theorem setUpd_pending (x : Upd) (s : State) : (setUpd x s).pending = s.pending := rfl
@[simp] theorem setUpd_dev (x : Upd) (s : State) : (setUpd x s).dev = s.dev := rfl
@[simp] theorem setUpd_regs (x : Upd) (s : State) : (setUpd x s).regs = s.regs := rfl
@[simp] theorem setUpd_net (x : Upd) (s : State) : (setUpd x s).net = s.net := rfl
@[simp] theorem setUpd_fab (x : Upd) (s : State) : (setUpd x s).fab = s.fab := rfl
@[simp] theorem setUpd_macs (x : Upd) (s : State) : (setUpd x s).macs = s.macs := rfl
@[simp] theorem setUpd_logic (x : Upd) (s : State) : (setUpd x s).logic = s.logic := rfl
@[simp] theorem setUpd_banks (x : Upd) (s : State) : (setUpd x s).banks = s.banks := rfl
@[simp] theorem setUpd_sched (x : Upd) (s : State) : (setUpd x s).sched = s.sched := rfl
@[simp] theorem setUpd_dma (x : Upd) (s : State) : (setUpd x s).dma = s.dma := rfl
@[simp] theorem setUpd_rgns (x : Upd) (s : State) : (setUpd x s).rgns = s.rgns := rfl
@[simp] theorem setUpd_planes (x : Upd) (s : State) : (setUpd x s).planes = s.planes := rfl
@[simp] theorem setUpd_fox (x : Upd) (s : State) : (setUpd x s).fox = s.fox := rfl
@[simp] theorem setUpd_store (x : Upd) (s : State) : (setUpd x s).store = s.store := rfl
@[simp] theorem setUpd_flash (x : Upd) (s : State) : (setUpd x s).flash = s.flash := rfl
@[simp] theorem setUpd_upd (x : Upd) (s : State) : (setUpd x s).upd = x := rfl
@[simp] theorem setUpd_pwr (x : Upd) (s : State) : (setUpd x s).pwr = s.pwr := rfl
@[simp] theorem setUpd_wpk (x : Upd) (s : State) : (setUpd x s).wpk = s.wpk := rfl
@[simp] theorem setUpd_ring (x : Upd) (s : State) : (setUpd x s).ring = s.ring := rfl
@[simp] theorem setUpd_time (x : Upd) (s : State) : (setUpd x s).time = s.time := rfl
@[simp] theorem setUpd_io (x : Upd) (s : State) : (setUpd x s).io = s.io := rfl
@[simp] theorem setUpd_free (x : Upd) (s : State) : (setUpd x s).free = s.free := rfl
@[simp] theorem setPwr_pending (x : Pwr) (s : State) : (setPwr x s).pending = s.pending := rfl
@[simp] theorem setPwr_dev (x : Pwr) (s : State) : (setPwr x s).dev = s.dev := rfl
@[simp] theorem setPwr_regs (x : Pwr) (s : State) : (setPwr x s).regs = s.regs := rfl
@[simp] theorem setPwr_net (x : Pwr) (s : State) : (setPwr x s).net = s.net := rfl
@[simp] theorem setPwr_fab (x : Pwr) (s : State) : (setPwr x s).fab = s.fab := rfl
@[simp] theorem setPwr_macs (x : Pwr) (s : State) : (setPwr x s).macs = s.macs := rfl
@[simp] theorem setPwr_logic (x : Pwr) (s : State) : (setPwr x s).logic = s.logic := rfl
@[simp] theorem setPwr_banks (x : Pwr) (s : State) : (setPwr x s).banks = s.banks := rfl
@[simp] theorem setPwr_sched (x : Pwr) (s : State) : (setPwr x s).sched = s.sched := rfl
@[simp] theorem setPwr_dma (x : Pwr) (s : State) : (setPwr x s).dma = s.dma := rfl
@[simp] theorem setPwr_rgns (x : Pwr) (s : State) : (setPwr x s).rgns = s.rgns := rfl
@[simp] theorem setPwr_planes (x : Pwr) (s : State) : (setPwr x s).planes = s.planes := rfl
@[simp] theorem setPwr_fox (x : Pwr) (s : State) : (setPwr x s).fox = s.fox := rfl
@[simp] theorem setPwr_store (x : Pwr) (s : State) : (setPwr x s).store = s.store := rfl
@[simp] theorem setPwr_flash (x : Pwr) (s : State) : (setPwr x s).flash = s.flash := rfl
@[simp] theorem setPwr_upd (x : Pwr) (s : State) : (setPwr x s).upd = s.upd := rfl
@[simp] theorem setPwr_pwr (x : Pwr) (s : State) : (setPwr x s).pwr = x := rfl
@[simp] theorem setPwr_wpk (x : Pwr) (s : State) : (setPwr x s).wpk = s.wpk := rfl
@[simp] theorem setPwr_ring (x : Pwr) (s : State) : (setPwr x s).ring = s.ring := rfl
@[simp] theorem setPwr_time (x : Pwr) (s : State) : (setPwr x s).time = s.time := rfl
@[simp] theorem setPwr_io (x : Pwr) (s : State) : (setPwr x s).io = s.io := rfl
@[simp] theorem setPwr_free (x : Pwr) (s : State) : (setPwr x s).free = s.free := rfl
@[simp] theorem setWpk_pending (x : Wpk) (s : State) : (setWpk x s).pending = s.pending := rfl
@[simp] theorem setWpk_dev (x : Wpk) (s : State) : (setWpk x s).dev = s.dev := rfl
@[simp] theorem setWpk_regs (x : Wpk) (s : State) : (setWpk x s).regs = s.regs := rfl
@[simp] theorem setWpk_net (x : Wpk) (s : State) : (setWpk x s).net = s.net := rfl
@[simp] theorem setWpk_fab (x : Wpk) (s : State) : (setWpk x s).fab = s.fab := rfl
@[simp] theorem setWpk_macs (x : Wpk) (s : State) : (setWpk x s).macs = s.macs := rfl
@[simp] theorem setWpk_logic (x : Wpk) (s : State) : (setWpk x s).logic = s.logic := rfl
@[simp] theorem setWpk_banks (x : Wpk) (s : State) : (setWpk x s).banks = s.banks := rfl
@[simp] theorem setWpk_sched (x : Wpk) (s : State) : (setWpk x s).sched = s.sched := rfl
@[simp] theorem setWpk_dma (x : Wpk) (s : State) : (setWpk x s).dma = s.dma := rfl
@[simp] theorem setWpk_rgns (x : Wpk) (s : State) : (setWpk x s).rgns = s.rgns := rfl
@[simp] theorem setWpk_planes (x : Wpk) (s : State) : (setWpk x s).planes = s.planes := rfl
@[simp] theorem setWpk_fox (x : Wpk) (s : State) : (setWpk x s).fox = s.fox := rfl
@[simp] theorem setWpk_store (x : Wpk) (s : State) : (setWpk x s).store = s.store := rfl
@[simp] theorem setWpk_flash (x : Wpk) (s : State) : (setWpk x s).flash = s.flash := rfl
@[simp] theorem setWpk_upd (x : Wpk) (s : State) : (setWpk x s).upd = s.upd := rfl
@[simp] theorem setWpk_pwr (x : Wpk) (s : State) : (setWpk x s).pwr = s.pwr := rfl
@[simp] theorem setWpk_wpk (x : Wpk) (s : State) : (setWpk x s).wpk = x := rfl
@[simp] theorem setWpk_ring (x : Wpk) (s : State) : (setWpk x s).ring = s.ring := rfl
@[simp] theorem setWpk_time (x : Wpk) (s : State) : (setWpk x s).time = s.time := rfl
@[simp] theorem setWpk_io (x : Wpk) (s : State) : (setWpk x s).io = s.io := rfl
@[simp] theorem setWpk_free (x : Wpk) (s : State) : (setWpk x s).free = s.free := rfl
@[simp] theorem setRing_pending (x : RingPort) (s : State) : (setRing x s).pending = s.pending := rfl
@[simp] theorem setRing_dev (x : RingPort) (s : State) : (setRing x s).dev = s.dev := rfl
@[simp] theorem setRing_regs (x : RingPort) (s : State) : (setRing x s).regs = s.regs := rfl
@[simp] theorem setRing_net (x : RingPort) (s : State) : (setRing x s).net = s.net := rfl
@[simp] theorem setRing_fab (x : RingPort) (s : State) : (setRing x s).fab = s.fab := rfl
@[simp] theorem setRing_macs (x : RingPort) (s : State) : (setRing x s).macs = s.macs := rfl
@[simp] theorem setRing_logic (x : RingPort) (s : State) : (setRing x s).logic = s.logic := rfl
@[simp] theorem setRing_banks (x : RingPort) (s : State) : (setRing x s).banks = s.banks := rfl
@[simp] theorem setRing_sched (x : RingPort) (s : State) : (setRing x s).sched = s.sched := rfl
@[simp] theorem setRing_dma (x : RingPort) (s : State) : (setRing x s).dma = s.dma := rfl
@[simp] theorem setRing_rgns (x : RingPort) (s : State) : (setRing x s).rgns = s.rgns := rfl
@[simp] theorem setRing_planes (x : RingPort) (s : State) : (setRing x s).planes = s.planes := rfl
@[simp] theorem setRing_fox (x : RingPort) (s : State) : (setRing x s).fox = s.fox := rfl
@[simp] theorem setRing_store (x : RingPort) (s : State) : (setRing x s).store = s.store := rfl
@[simp] theorem setRing_flash (x : RingPort) (s : State) : (setRing x s).flash = s.flash := rfl
@[simp] theorem setRing_upd (x : RingPort) (s : State) : (setRing x s).upd = s.upd := rfl
@[simp] theorem setRing_pwr (x : RingPort) (s : State) : (setRing x s).pwr = s.pwr := rfl
@[simp] theorem setRing_wpk (x : RingPort) (s : State) : (setRing x s).wpk = s.wpk := rfl
@[simp] theorem setRing_ring (x : RingPort) (s : State) : (setRing x s).ring = x := rfl
@[simp] theorem setRing_time (x : RingPort) (s : State) : (setRing x s).time = s.time := rfl
@[simp] theorem setRing_io (x : RingPort) (s : State) : (setRing x s).io = s.io := rfl
@[simp] theorem setRing_free (x : RingPort) (s : State) : (setRing x s).free = s.free := rfl
@[simp] theorem setTime_pending (x : TimeUnit) (s : State) : (setTime x s).pending = s.pending := rfl
@[simp] theorem setTime_dev (x : TimeUnit) (s : State) : (setTime x s).dev = s.dev := rfl
@[simp] theorem setTime_regs (x : TimeUnit) (s : State) : (setTime x s).regs = s.regs := rfl
@[simp] theorem setTime_net (x : TimeUnit) (s : State) : (setTime x s).net = s.net := rfl
@[simp] theorem setTime_fab (x : TimeUnit) (s : State) : (setTime x s).fab = s.fab := rfl
@[simp] theorem setTime_macs (x : TimeUnit) (s : State) : (setTime x s).macs = s.macs := rfl
@[simp] theorem setTime_logic (x : TimeUnit) (s : State) : (setTime x s).logic = s.logic := rfl
@[simp] theorem setTime_banks (x : TimeUnit) (s : State) : (setTime x s).banks = s.banks := rfl
@[simp] theorem setTime_sched (x : TimeUnit) (s : State) : (setTime x s).sched = s.sched := rfl
@[simp] theorem setTime_dma (x : TimeUnit) (s : State) : (setTime x s).dma = s.dma := rfl
@[simp] theorem setTime_rgns (x : TimeUnit) (s : State) : (setTime x s).rgns = s.rgns := rfl
@[simp] theorem setTime_planes (x : TimeUnit) (s : State) : (setTime x s).planes = s.planes := rfl
@[simp] theorem setTime_fox (x : TimeUnit) (s : State) : (setTime x s).fox = s.fox := rfl
@[simp] theorem setTime_store (x : TimeUnit) (s : State) : (setTime x s).store = s.store := rfl
@[simp] theorem setTime_flash (x : TimeUnit) (s : State) : (setTime x s).flash = s.flash := rfl
@[simp] theorem setTime_upd (x : TimeUnit) (s : State) : (setTime x s).upd = s.upd := rfl
@[simp] theorem setTime_pwr (x : TimeUnit) (s : State) : (setTime x s).pwr = s.pwr := rfl
@[simp] theorem setTime_wpk (x : TimeUnit) (s : State) : (setTime x s).wpk = s.wpk := rfl
@[simp] theorem setTime_ring (x : TimeUnit) (s : State) : (setTime x s).ring = s.ring := rfl
@[simp] theorem setTime_time (x : TimeUnit) (s : State) : (setTime x s).time = x := rfl
@[simp] theorem setTime_io (x : TimeUnit) (s : State) : (setTime x s).io = s.io := rfl
@[simp] theorem setTime_free (x : TimeUnit) (s : State) : (setTime x s).free = s.free := rfl
@[simp] theorem setIo_pending (x : Io) (s : State) : (setIo x s).pending = s.pending := rfl
@[simp] theorem setIo_dev (x : Io) (s : State) : (setIo x s).dev = s.dev := rfl
@[simp] theorem setIo_regs (x : Io) (s : State) : (setIo x s).regs = s.regs := rfl
@[simp] theorem setIo_net (x : Io) (s : State) : (setIo x s).net = s.net := rfl
@[simp] theorem setIo_fab (x : Io) (s : State) : (setIo x s).fab = s.fab := rfl
@[simp] theorem setIo_macs (x : Io) (s : State) : (setIo x s).macs = s.macs := rfl
@[simp] theorem setIo_logic (x : Io) (s : State) : (setIo x s).logic = s.logic := rfl
@[simp] theorem setIo_banks (x : Io) (s : State) : (setIo x s).banks = s.banks := rfl
@[simp] theorem setIo_sched (x : Io) (s : State) : (setIo x s).sched = s.sched := rfl
@[simp] theorem setIo_dma (x : Io) (s : State) : (setIo x s).dma = s.dma := rfl
@[simp] theorem setIo_rgns (x : Io) (s : State) : (setIo x s).rgns = s.rgns := rfl
@[simp] theorem setIo_planes (x : Io) (s : State) : (setIo x s).planes = s.planes := rfl
@[simp] theorem setIo_fox (x : Io) (s : State) : (setIo x s).fox = s.fox := rfl
@[simp] theorem setIo_store (x : Io) (s : State) : (setIo x s).store = s.store := rfl
@[simp] theorem setIo_flash (x : Io) (s : State) : (setIo x s).flash = s.flash := rfl
@[simp] theorem setIo_upd (x : Io) (s : State) : (setIo x s).upd = s.upd := rfl
@[simp] theorem setIo_pwr (x : Io) (s : State) : (setIo x s).pwr = s.pwr := rfl
@[simp] theorem setIo_wpk (x : Io) (s : State) : (setIo x s).wpk = s.wpk := rfl
@[simp] theorem setIo_ring (x : Io) (s : State) : (setIo x s).ring = s.ring := rfl
@[simp] theorem setIo_time (x : Io) (s : State) : (setIo x s).time = s.time := rfl
@[simp] theorem setIo_io (x : Io) (s : State) : (setIo x s).io = x := rfl
@[simp] theorem setIo_free (x : Io) (s : State) : (setIo x s).free = s.free := rfl
@[simp] theorem setFree_pending (x : Nat) (s : State) : (setFree x s).pending = s.pending := rfl
@[simp] theorem setFree_dev (x : Nat) (s : State) : (setFree x s).dev = s.dev := rfl
@[simp] theorem setFree_regs (x : Nat) (s : State) : (setFree x s).regs = s.regs := rfl
@[simp] theorem setFree_net (x : Nat) (s : State) : (setFree x s).net = s.net := rfl
@[simp] theorem setFree_fab (x : Nat) (s : State) : (setFree x s).fab = s.fab := rfl
@[simp] theorem setFree_macs (x : Nat) (s : State) : (setFree x s).macs = s.macs := rfl
@[simp] theorem setFree_logic (x : Nat) (s : State) : (setFree x s).logic = s.logic := rfl
@[simp] theorem setFree_banks (x : Nat) (s : State) : (setFree x s).banks = s.banks := rfl
@[simp] theorem setFree_sched (x : Nat) (s : State) : (setFree x s).sched = s.sched := rfl
@[simp] theorem setFree_dma (x : Nat) (s : State) : (setFree x s).dma = s.dma := rfl
@[simp] theorem setFree_rgns (x : Nat) (s : State) : (setFree x s).rgns = s.rgns := rfl
@[simp] theorem setFree_planes (x : Nat) (s : State) : (setFree x s).planes = s.planes := rfl
@[simp] theorem setFree_fox (x : Nat) (s : State) : (setFree x s).fox = s.fox := rfl
@[simp] theorem setFree_store (x : Nat) (s : State) : (setFree x s).store = s.store := rfl
@[simp] theorem setFree_flash (x : Nat) (s : State) : (setFree x s).flash = s.flash := rfl
@[simp] theorem setFree_upd (x : Nat) (s : State) : (setFree x s).upd = s.upd := rfl
@[simp] theorem setFree_pwr (x : Nat) (s : State) : (setFree x s).pwr = s.pwr := rfl
@[simp] theorem setFree_wpk (x : Nat) (s : State) : (setFree x s).wpk = s.wpk := rfl
@[simp] theorem setFree_ring (x : Nat) (s : State) : (setFree x s).ring = s.ring := rfl
@[simp] theorem setFree_time (x : Nat) (s : State) : (setFree x s).time = s.time := rfl
@[simp] theorem setFree_io (x : Nat) (s : State) : (setFree x s).io = s.io := rfl
@[simp] theorem setFree_free (x : Nat) (s : State) : (setFree x s).free = x := rfl

end Sys2Proof.Machine
end

