-- ==== Sys2Proof/Laws/Table.lean ====
section
/-! SUPPORT. Sparse tables: reading after writing, and the canonical form under every operation. -/
namespace Sys2Proof.Machine

open Sys2Proof

/-! ## Reading after writing -/

theorem tfind_tins_same {α : Type} (k : Nat) (v : α) (m : SMap α) : tfind (tins k v m) k = some v := by
  induction m with
  | nil => simp [tins, tfind]
  | cons e r ih =>
    obtain ⟨a, x⟩ := e
    unfold tins
    split
    · simp [tfind]
    · split
      · simp [tfind]
      · next h1 h2 => simp [tfind, Ne.symm h2, ih]

theorem tfind_tins_other {α : Type} {j k : Nat} (h : j ≠ k) (v : α) (m : SMap α) :
    tfind (tins k v m) j = tfind m j := by
  induction m with
  | nil => simp [tins, tfind, Ne.symm h]
  | cons e r ih =>
    obtain ⟨a, x⟩ := e
    unfold tins
    split
    · simp [tfind, Ne.symm h]
    · split
      · next h2 => subst h2; simp [tfind, Ne.symm h]
      · simp only [tfind, ih]

theorem tfind_tdel_same {α : Type} (k : Nat) (m : SMap α) : tfind (tdel k m) k = none := by
  induction m with
  | nil => simp [tdel, tfind]
  | cons e r ih =>
    obtain ⟨a, x⟩ := e
    by_cases h : a = k
    · subst h; simpa [tdel] using ih
    · have : tdel k ((a, x) :: r) = (a, x) :: tdel k r := by simp [tdel, h]
      simp [this, tfind, h, ih]

theorem tfind_tdel_other {α : Type} {j k : Nat} (h : j ≠ k) (m : SMap α) :
    tfind (tdel k m) j = tfind m j := by
  induction m with
  | nil => simp [tdel, tfind]
  | cons e r ih =>
    obtain ⟨a, x⟩ := e
    by_cases hk : a = k
    · subst hk
      have : tdel a ((a, x) :: r) = tdel a r := by simp [tdel]
      simp [this, ih, tfind, Ne.symm h]
    · have : tdel k ((a, x) :: r) = (a, x) :: tdel k r := by simp [tdel, hk]
      simp [this, tfind, ih]

@[simp] theorem tget_tins_same {α : Type} (d : α) (k : Nat) (v : α) (m : SMap α) :
    tget d (tins k v m) k = v := by simp [tget, tfind_tins_same]

theorem tget_tins_other {α : Type} (d : α) {j k : Nat} (h : j ≠ k) (v : α) (m : SMap α) :
    tget d (tins k v m) j = tget d m j := by simp [tget, tfind_tins_other h]

@[simp] theorem tget_tput_same {α : Type} [DecidableEq α] (d : α) (k : Nat) (v : α) (m : SMap α) :
    tget d (tput d k v m) k = v := by
  unfold tput tget
  split
  · next h => simp [tfind_tdel_same, h]
  · simp [tfind_tins_same]

theorem tget_tput_other {α : Type} [DecidableEq α] (c d : α) {j k : Nat} (h : j ≠ k) (v : α) (m : SMap α) :
    tget c (tput d k v m) j = tget c m j := by
  unfold tput tget
  split
  · rw [tfind_tdel_other h]
  · rw [tfind_tins_other h]

/-! ## The canonical form -/

/-- Every key lies above k. -/
theorem rising_cons {α : Type} (e : Nat × α) (m : SMap α) :
    rising (e :: m) = true ↔ (∀ x ∈ m, e.1 < x.1) ∧ rising m = true := by
  induction m generalizing e with
  | nil => simp [rising]
  | cons f r ih =>
    obtain ⟨a, x⟩ := e
    obtain ⟨b, y⟩ := f
    have hb := ih (b, y)
    simp only [rising, Bool.and_eq_true, decide_eq_true_eq, List.mem_cons, forall_eq_or_imp]
    constructor
    · rintro ⟨h1, h2⟩
      exact ⟨⟨h1, fun z hz => lt_trans h1 ((hb.1 h2).1 z hz)⟩, h2⟩
    · rintro ⟨⟨h1, _⟩, h2⟩
      exact ⟨h1, h2⟩

theorem rising_filter {α : Type} (p : Nat × α → Bool) (m : SMap α) (h : rising m = true) :
    rising (m.filter p) = true := by
  induction m with
  | nil => rfl
  | cons e r ih =>
    rw [rising_cons] at h
    by_cases hp : p e
    · rw [List.filter_cons_of_pos hp, rising_cons]
      exact ⟨fun x hx => h.1 x (List.mem_of_mem_filter hx), ih h.2⟩
    · rw [List.filter_cons_of_neg hp]
      exact ih h.2

theorem mem_tins {α : Type} {k : Nat} {v : α} {m : SMap α} {e : Nat × α} (h : e ∈ tins k v m) :
    e = (k, v) ∨ e ∈ m := by
  induction m with
  | nil => simpa [tins] using h
  | cons f r ih =>
    obtain ⟨a, x⟩ := f
    unfold tins at h
    split at h
    · simpa using h
    · split at h
      · rcases List.mem_cons.1 h with h | h
        · exact .inl h
        · exact .inr (List.mem_cons_of_mem _ h)
      · rcases List.mem_cons.1 h with h | h
        · exact .inr (h ▸ List.mem_cons_self)
        · rcases ih h with h | h
          · exact .inl h
          · exact .inr (List.mem_cons_of_mem _ h)

theorem rising_tins {α : Type} (k : Nat) (v : α) (m : SMap α) (h : rising m = true) :
    rising (tins k v m) = true := by
  induction m with
  | nil => rfl
  | cons f r ih =>
    obtain ⟨a, x⟩ := f
    have hc := (rising_cons (a, x) r).1 h
    unfold tins
    split
    · next hk =>
      rw [rising_cons]
      refine ⟨?_, h⟩
      intro y hy
      rcases List.mem_cons.1 hy with hy | hy
      · subst hy; exact hk
      · exact lt_trans hk (hc.1 y hy)
    · split
      · next hk =>
        subst hk
        rw [rising_cons]
        exact hc
      · next h1 h2 =>
        rw [rising_cons]
        refine ⟨?_, ih hc.2⟩
        intro y hy
        rcases mem_tins hy with hy | hy
        · subst hy
          change a < k
          omega
        · exact hc.1 y hy

theorem canonical_filter {α : Type} [DecidableEq α] (d : α) (p : Nat × α → Bool) (m : SMap α)
    (h : canonical d m = true) : canonical d (m.filter p) = true := by
  simp only [canonical, Bool.and_eq_true, List.all_eq_true] at h ⊢
  exact ⟨rising_filter p m h.1, fun x hx => h.2 x (List.mem_of_mem_filter hx)⟩

/-- Writing an entry keeps the canonical form. -/
theorem canonical_tput {α : Type} [DecidableEq α] (d : α) (k : Nat) (v : α) (m : SMap α)
    (h : canonical d m = true) : canonical d (tput d k v m) = true := by
  unfold tput
  split
  · exact canonical_filter d _ m h
  · next hv =>
    simp only [canonical, Bool.and_eq_true, List.all_eq_true] at h ⊢
    refine ⟨rising_tins k v m h.1, fun x hx => ?_⟩
    rcases mem_tins hx with hx | hx
    · subst hx; simpa using hv
    · exact h.2 x hx

/-- Clearing a range of keys keeps the canonical form. -/
theorem canonical_tclear {α : Type} [DecidableEq α] (d : α) (lo hi : Nat) (m : SMap α)
    (h : canonical d m = true) : canonical d (tclear lo hi m) = true := canonical_filter d _ m h

end Sys2Proof.Machine
end

