-- ==== Sys2Proof/Laws/Keeps.lean ====
section
/-! SUPPORT. The relation Keeps: a state has the same queue of commands as another one and keeps its invariant.
Every operation of the machine keeps; the lemmas stand in the files Laws/Keeps<Module>.lean. -/
namespace Sys2Proof.Machine

open Sys2Proof

/-- State t comes from u with the queue unchanged and the invariant kept. -/
structure Keeps (u t : State) : Prop where
  pending : t.pending = u.pending
  inv : Inv u → Inv t

/-- The same for a result that may be absent. -/
structure KeepsOpt (u : State) (o : Option State) : Prop where
  some : ∀ t, o = some t → Keeps u t
/-- The outcome of a command. -/
structure KeepsOut (u : State) (o : Out) : Prop where
  next : ∀ t, o = .next t → Keeps u t

theorem Keeps.refl (u : State) : Keeps u u := ⟨rfl, id⟩
theorem Keeps.trans {u v t : State} (h : Keeps u v) (k : Keeps v t) : Keeps u t :=
  ⟨k.pending.trans h.pending, k.inv ∘ h.inv⟩

/-! ## Shapes of results -/

theorem keeps_of_pair {α : Type} {u t : State} {p : α × State} {x : α} (e : p = (x, t)) (h : Keeps u p.2) :
    Keeps u t := by subst e; exact h
theorem keeps_of_first {α : Type} {u t : State} {p : State × α} {x : α} (e : p = (t, x)) (h : Keeps u p.1) :
    Keeps u t := by subst e; exact h
theorem keeps_of_pair3 {α β : Type} {u t : State} {p : α × β × State} {x : α} {y : β} (e : p = (x, y, t))
    (h : Keeps u p.2.2) : Keeps u t := by subst e; exact h
theorem keeps_of_opt {u t : State} {o : Option State} (e : o = some t) (h : KeepsOpt u o) : Keeps u t := h.some t e
theorem keepsOpt_none {u : State} : KeepsOpt u none := ⟨fun _ e => by cases e⟩
theorem keepsOpt_some {u t : State} (h : Keeps u t) : KeepsOpt u (some t) :=
  ⟨fun _ e => by cases e; exact h⟩
theorem keeps_getD {u d : State} {o : Option State} (h : KeepsOpt u o) (hd : Keeps u d) : Keeps u (o.getD d) := by
  cases o with
  | none => exact hd
  | some t => exact h.some t rfl
theorem keepsOut_next {u t : State} (h : Keeps u t) : KeepsOut u (.next t) :=
  ⟨fun _ e => by cases e; exact h⟩

theorem keeps_ite {u a b : State} {c : Prop} [Decidable c] (ha : Keeps u a) (hb : Keeps u b) :
    Keeps u (if c then a else b) := by split <;> assumption
theorem keepsOpt_ite {u : State} {a b : Option State} {c : Prop} [Decidable c] (ha : KeepsOpt u a) (hb : KeepsOpt u b) :
    KeepsOpt u (if c then a else b) := by split <;> assumption
theorem keepsOut_ite {u : State} {a b : Out} {c : Prop} [Decidable c] (ha : KeepsOut u a) (hb : KeepsOut u b) :
    KeepsOut u (if c then a else b) := by split <;> assumption
theorem keeps_ite_snd {α : Type} {u : State} {a b : α × State} {c : Prop} [Decidable c] (ha : Keeps u a.2)
    (hb : Keeps u b.2) : Keeps u (if c then a else b).2 := by split <;> assumption

theorem keeps_foldl {α : Type} {u : State} {f : State → α → State} (hf : ∀ t x, Keeps u t → Keeps u (f t x)) (l : List α)
    {s : State} (h : Keeps u s) : Keeps u (l.foldl f s) := by
  induction l generalizing s with
  | nil => exact h
  | cons a r ih => exact ih (hf _ _ h)

theorem keeps_foldr {α : Type} {u : State} {f : α → State → State} (hf : ∀ x t, Keeps u t → Keeps u (f x t)) (l : List α)
    {s : State} (h : Keeps u s) : Keeps u (l.foldr f s) := by
  induction l with
  | nil => exact h
  | cons a r ih => exact hf _ _ ih

theorem keeps_foldl_snd {α β : Type} {u : State} {f : β × State → α → β × State}
    (hf : ∀ p x, Keeps u p.2 → Keeps u (f p x).2) (l : List α) {p : β × State} (h : Keeps u p.2) :
    Keeps u (l.foldl f p).2 := by
  induction l generalizing p with
  | nil => exact h
  | cons a r ih => exact ih (hf _ _ h)

/-! ## Setters -/

/-- A change of components other than the queue, the registers and the banks. -/
theorem keeps_of_same {u s t : State} (hp : t.pending = s.pending) (hb : t.banks.words = s.banks.words)
    (hr : t.regs = s.regs) (h : Keeps u s) : Keeps u t := by
  refine ⟨hp.trans h.pending, fun hu => ?_⟩
  have hs := h.inv hu
  unfold Inv BankInv RegsInv Memory.wf at hs ⊢
  rw [hb, hr]
  exact hs

section setters
variable {u s : State}
theorem keeps_setDev (x : Dev) (h : Keeps u s) : Keeps u (setDev x s) := keeps_of_same (s := s) rfl rfl rfl h
theorem keeps_setNet (x : SMap Channel) (h : Keeps u s) : Keeps u (setNet x s) := keeps_of_same (s := s) rfl rfl rfl h
theorem keeps_setFab (x : Fabric) (h : Keeps u s) : Keeps u (setFab x s) := keeps_of_same (s := s) rfl rfl rfl h
theorem keeps_setMacs (x : SMap Mac) (h : Keeps u s) : Keeps u (setMacs x s) := keeps_of_same (s := s) rfl rfl rfl h
theorem keeps_setLogic (x : Logic) (h : Keeps u s) : Keeps u (setLogic x s) := keeps_of_same (s := s) rfl rfl rfl h
theorem keeps_setSched (x : Sched) (h : Keeps u s) : Keeps u (setSched x s) := keeps_of_same (s := s) rfl rfl rfl h
theorem keeps_setDma (x : Dma) (h : Keeps u s) : Keeps u (setDma x s) := keeps_of_same (s := s) rfl rfl rfl h
theorem keeps_setRgns (x : SMap Rgn) (h : Keeps u s) : Keeps u (setRgns x s) := keeps_of_same (s := s) rfl rfl rfl h
theorem keeps_setPlanes (x : Planes) (h : Keeps u s) : Keeps u (setPlanes x s) := keeps_of_same (s := s) rfl rfl rfl h
theorem keeps_setFox (x : Fox) (h : Keeps u s) : Keeps u (setFox x s) := keeps_of_same (s := s) rfl rfl rfl h
theorem keeps_setStore (x : Store) (h : Keeps u s) : Keeps u (setStore x s) := keeps_of_same (s := s) rfl rfl rfl h
theorem keeps_setFlash (x : Flash) (h : Keeps u s) : Keeps u (setFlash x s) := keeps_of_same (s := s) rfl rfl rfl h
theorem keeps_setUpd (x : Upd) (h : Keeps u s) : Keeps u (setUpd x s) := keeps_of_same (s := s) rfl rfl rfl h
theorem keeps_setPwr (x : Pwr) (h : Keeps u s) : Keeps u (setPwr x s) := keeps_of_same (s := s) rfl rfl rfl h
theorem keeps_setWpk (x : Wpk) (h : Keeps u s) : Keeps u (setWpk x s) := keeps_of_same (s := s) rfl rfl rfl h
theorem keeps_setRing (x : RingPort) (h : Keeps u s) : Keeps u (setRing x s) := keeps_of_same (s := s) rfl rfl rfl h
theorem keeps_setTime (x : TimeUnit) (h : Keeps u s) : Keeps u (setTime x s) := keeps_of_same (s := s) rfl rfl rfl h
theorem keeps_setIo (x : Io) (h : Keeps u s) : Keeps u (setIo x s) := keeps_of_same (s := s) rfl rfl rfl h
theorem keeps_setFree (x : Nat) (h : Keeps u s) : Keeps u (setFree x s) := keeps_of_same (s := s) rfl rfl rfl h
end setters

/-- A change of the register store that keeps its order. -/
theorem keeps_setRegs {u s : State} (x : SMap Word) (hx : rising s.regs = true → rising x = true) (h : Keeps u s) :
    Keeps u (setRegs x s) := by
  refine ⟨h.pending, fun hu => ?_⟩
  have hs := h.inv hu
  exact ⟨hs.1, hx hs.2⟩

/-- A change of the banks that leaves or keeps the stored words. -/
theorem keeps_setBanks {u s : State} (x : Banks)
    (hx : BankInv s → canonical zeroWord x.words = true ∧ nullClean x.words = true) (h : Keeps u s) :
    Keeps u (setBanks x s) := by
  refine ⟨h.pending, fun hu => ?_⟩
  have hs := h.inv hu
  exact ⟨hx hs.1, hs.2⟩

theorem keeps_setBanks_same {u s : State} (x : Banks) (hx : x.words = s.banks.words) (h : Keeps u s) :
    Keeps u (setBanks x s) := keeps_of_same (s := s) rfl hx rfl h

theorem keeps_setBanks_filter {u s : State} (x : Banks) (p : Nat × TWord → Bool)
    (hx : x.words = s.banks.words.filter p) (h : Keeps u s) : Keeps u (setBanks x s) := by
  refine keeps_setBanks x (fun hb => ?_) h
  rw [hx]
  refine ⟨canonical_filter _ p _ hb.1, ?_⟩
  have h2 := hb.2
  simp only [nullClean, List.all_eq_true] at h2 ⊢
  exact fun e he => h2 e (List.mem_of_mem_filter he)

/-- Writing one word that is clean. -/
theorem nullClean_tput (k : Nat) (x : TWord) (m : SMap TWord) (hx : x.tag ≠ .null ∨ x = nullWord)
    (h : nullClean m = true) : nullClean (tput zeroWord k x m) = true := by
  simp only [nullClean, List.all_eq_true] at h ⊢
  intro e he
  unfold tput at he
  split at he
  · exact h e (List.mem_of_mem_filter he)
  · rcases mem_tins he with he | he
    · subst he
      rcases hx with hx | hx <;> simp [hx]
    · exact h e he

/-! ## The register store -/

theorem rising_tput {α : Type} [DecidableEq α] (d : α) (k : Nat) (v : α) (m : SMap α) (h : rising m = true) :
    rising (tput d k v m) = true := by
  unfold tput
  split
  · exact rising_filter _ m h
  · exact rising_tins k v m h

theorem keeps_wr {u s : State} (p off : Nat) (v : Word) (h : Keeps u s) : Keeps u (wr p off v s) :=
  keeps_setRegs _ (rising_tput _ _ _ _) h

theorem mem_filterMap_key {α β : Type} {f : Nat × α → Option (Nat × β)} (hf : ∀ e x, f e = some x → x.1 = e.1)
    {m : SMap α} {x : Nat × β} (h : x ∈ m.filterMap f) : ∃ e ∈ m, x.1 = e.1 := by
  obtain ⟨e, he, hx⟩ := List.mem_filterMap.1 h
  exact ⟨e, he, hf e x hx⟩

/-- Changing or dropping entries in place keeps the order of keys. -/
theorem rising_filterMap {α β : Type} (f : Nat × α → Option (Nat × β)) (hf : ∀ e x, f e = some x → x.1 = e.1)
    (m : SMap α) (h : rising m = true) : rising (m.filterMap f) = true := by
  induction m with
  | nil => rfl
  | cons e r ih =>
    rw [rising_cons] at h
    cases hx : f e with
    | none => rw [List.filterMap_cons_none hx]; exact ih h.2
    | some y =>
      rw [List.filterMap_cons_some hx, rising_cons]
      refine ⟨fun z hz => ?_, ih h.2⟩
      obtain ⟨e', he', hk⟩ := mem_filterMap_key hf hz
      rw [hf e y hx, hk]
      exact h.1 e' he'

theorem keeps_setRegs_filter {u s : State} (x : SMap Word) (p : Nat × Word → Bool) (hx : x = s.regs.filter p)
    (h : Keeps u s) : Keeps u (setRegs x s) :=
  keeps_setRegs x (fun hr => hx ▸ rising_filter p _ hr) h

theorem keeps_setRegs_filterMap {u s : State} (x : SMap Word) (f : Nat × Word → Option (Nat × Word))
    (hf : ∀ e y, f e = some y → y.1 = e.1) (hx : x = s.regs.filterMap f) (h : Keeps u s) : Keeps u (setRegs x s) :=
  keeps_setRegs x (fun hr => hx ▸ rising_filterMap f hf _ hr) h

theorem nullClean_filter (p : Nat × TWord → Bool) {m : SMap TWord} (h : nullClean m = true) :
    nullClean (m.filter p) = true := by
  simp only [nullClean, List.all_eq_true] at h ⊢
  exact fun e he => h e (List.mem_of_mem_filter he)

theorem keeps_setBanks_clear {u s : State} (x : Banks) (lo hi : Nat) (hx : x.words = tclear lo hi s.banks.words)
    (h : Keeps u s) : Keeps u (setBanks x s) := keeps_setBanks_filter x _ hx h

/-- A state built anew: the queue stays, no word is listed, the registers keep their order. -/
theorem keeps_rebuild {u s t : State} (hp : t.pending = s.pending) (hb : t.banks.words = [])
    (hr : rising s.regs = true → rising t.regs = true) (h : Keeps u s) : Keeps u t := by
  refine ⟨hp.trans h.pending, fun hu => ?_⟩
  have hs := h.inv hu
  refine ⟨⟨?_, ?_⟩, hr hs.2⟩
  · unfold Memory.wf
    rw [hb]
    rfl
  · rw [hb]
    rfl

end Sys2Proof.Machine
end

