-- ==== Sys2Proof/Laws/KeepsOps.lean ====
section
/-! SUPPORT. Every operation of Machine/Ops.lean keeps (Laws/Keeps.lean). -/
set_option linter.unusedTactic false
set_option linter.unreachableTactic false
set_option linter.unusedVariables false

namespace Sys2Proof.Machine

open Sys2Proof

theorem keeps_md {u : State} (p off : Nat) (f : Word → Word) {s : State} (h : Keeps u s) :
 Keeps u (md p off f s) := by
  unfold md
  repeat' (first
    | with_reducible assumption
    | with_reducible apply keeps_wr
    | intro _
    | with_reducible apply keeps_ite
    | split
    | (with_reducible refine keeps_of_pair (by assumption) ?_)
    | (with_reducible refine keeps_of_opt (by assumption) ?_)
    | dsimp only)

theorem keeps_wrf {u : State} (p off hi lo v : Nat) {s : State} (h : Keeps u s) :
 Keeps u (wrf p off hi lo v s) := by
  unfold wrf
  repeat' (first
    | with_reducible assumption
    | with_reducible apply keeps_md
    | intro _
    | with_reducible apply keeps_ite
    | split
    | (with_reducible refine keeps_of_pair (by assumption) ?_)
    | (with_reducible refine keeps_of_opt (by assumption) ?_)
    | dsimp only)

theorem keeps_wr64 {u : State} (p off : Nat) (v : BitVec 64) {s : State} (h : Keeps u s) :
 Keeps u (wr64 p off v s) := by
  unfold wr64
  repeat' (first
    | with_reducible assumption
    | with_reducible apply keeps_wr
    | intro _
    | with_reducible apply keeps_ite
    | split
    | (with_reducible refine keeps_of_pair (by assumption) ?_)
    | (with_reducible refine keeps_of_opt (by assumption) ?_)
    | dsimp only)

theorem keeps_setArr {u : State} (p off n : Nat) (b : Bool) {s : State} (h : Keeps u s) :
 Keeps u (setArr p off n b s) := by
  unfold setArr
  repeat' (first
    | with_reducible assumption
    | with_reducible apply keeps_md
    | intro _
    | with_reducible apply keeps_ite
    | split
    | (with_reducible refine keeps_of_pair (by assumption) ?_)
    | (with_reducible refine keeps_of_opt (by assumption) ?_)
    | dsimp only)

theorem keeps_countN {u : State} (p off n : Nat) {s : State} (h : Keeps u s) :
 Keeps u (countN p off n s) := by
  unfold countN
  repeat' (first
    | with_reducible assumption
    | with_reducible apply keeps_md
    | intro _
    | with_reducible apply keeps_ite
    | split
    | (with_reducible refine keeps_of_pair (by assumption) ?_)
    | (with_reducible refine keeps_of_opt (by assumption) ?_)
    | dsimp only)

theorem keeps_count {u : State} (p off : Nat) {s : State} (h : Keeps u s) :
 Keeps u (count p off s) := by
  unfold count
  repeat' (first
    | with_reducible assumption
    | with_reducible apply keeps_countN
    | intro _
    | with_reducible apply keeps_ite
    | split
    | (with_reducible refine keeps_of_pair (by assumption) ?_)
    | (with_reducible refine keeps_of_opt (by assumption) ?_)
    | dsimp only)

theorem keeps_countF {u : State} (p off hi lo : Nat) {s : State} (h : Keeps u s) :
 Keeps u (countF p off hi lo s) := by
  unfold countF
  repeat' (first
    | with_reducible assumption
    | with_reducible apply keeps_md
    | intro _
    | with_reducible apply keeps_ite
    | split
    | (with_reducible refine keeps_of_pair (by assumption) ?_)
    | (with_reducible refine keeps_of_opt (by assumption) ?_)
    | dsimp only)

theorem keeps_count64 {u : State} (p off n : Nat) {s : State} (h : Keeps u s) :
 Keeps u (count64 p off n s) := by
  unfold count64
  repeat' (first
    | with_reducible assumption
    | with_reducible apply keeps_wr64
    | intro _
    | with_reducible apply keeps_ite
    | split
    | (with_reducible refine keeps_of_pair (by assumption) ?_)
    | (with_reducible refine keeps_of_opt (by assumption) ?_)
    | dsimp only)

theorem keeps_setRgn {u : State} (r : Nat) (x : Rgn) {s : State} (h : Keeps u s) :
 Keeps u (setRgn r x s) := by
  unfold setRgn
  repeat' (first
    | with_reducible assumption
    | with_reducible apply keeps_setRgns
    | intro _
    | with_reducible apply keeps_ite
    | split
    | (with_reducible refine keeps_of_pair (by assumption) ?_)
    | (with_reducible refine keeps_of_opt (by assumption) ?_)
    | dsimp only)

theorem keeps_mdRgn {u : State} (r : Nat) (f : Rgn → Rgn) {s : State} (h : Keeps u s) :
 Keeps u (mdRgn r f s) := by
  unfold mdRgn
  repeat' (first
    | with_reducible assumption
    | with_reducible apply keeps_setRgn
    | intro _
    | with_reducible apply keeps_ite
    | split
    | (with_reducible refine keeps_of_pair (by assumption) ?_)
    | (with_reducible refine keeps_of_opt (by assumption) ?_)
    | dsimp only)

theorem keeps_msixSend {u : State} (v : Nat) {s : State} (h : Keeps u s) :
 Keeps u (msixSend v s) := by
  unfold msixSend
  repeat' (first
    | with_reducible assumption
    | with_reducible apply keeps_setIo
    | with_reducible apply keeps_setArr
    | intro _
    | with_reducible apply keeps_ite
    | split
    | (with_reducible refine keeps_of_pair (by assumption) ?_)
    | (with_reducible refine keeps_of_opt (by assumption) ?_)
    | dsimp only)

theorem keeps_irqChange {u : State} (p : Nat) (always : Bool) (f : State → State) {s : State} (hf : ∀ t, Keeps u t → Keeps u (f t)) (h : Keeps u s) :
 Keeps u (irqChange p always f s) := by
  unfold irqChange
  repeat' (first
    | with_reducible assumption
    | with_reducible apply hf
    | with_reducible apply keeps_msixSend
    | intro _
    | with_reducible apply keeps_ite
    | split
    | (with_reducible refine keeps_of_pair (by assumption) ?_)
    | (with_reducible refine keeps_of_opt (by assumption) ?_)
    | dsimp only)

theorem keeps_irqRise {u : State} (s : State) {t : State} (h : Keeps u t) :
 Keeps u (irqRise s t) := by
  unfold irqRise
  repeat' (first
    | with_reducible assumption
    | with_reducible apply keeps_msixSend
    | with_reducible apply keeps_foldl
    | with_reducible apply keeps_foldl_snd
    | intro _
    | with_reducible apply keeps_ite
    | split
    | (with_reducible refine keeps_of_pair (by assumption) ?_)
    | (with_reducible refine keeps_of_opt (by assumption) ?_)
    | dsimp only)

theorem keeps_irq {u : State} (p b : Nat) {s : State} (h : Keeps u s) :
 Keeps u (irq p b s) := by
  unfold irq
  repeat' (first
    | with_reducible assumption
    | with_reducible apply keeps_md
    | with_reducible apply keeps_irqChange
    | intro _
    | with_reducible apply keeps_ite
    | split
    | (with_reducible refine keeps_of_pair (by assumption) ?_)
    | (with_reducible refine keeps_of_opt (by assumption) ?_)
    | dsimp only)

theorem keeps_errTransient {u : State} (p : Nat) {s : State} (h : Keeps u s) :
 Keeps u (errTransient p s) := by
  unfold errTransient
  repeat' (first
    | with_reducible assumption
    | with_reducible apply keeps_md
    | intro _
    | with_reducible apply keeps_ite
    | split
    | (with_reducible refine keeps_of_pair (by assumption) ?_)
    | (with_reducible refine keeps_of_opt (by assumption) ?_)
    | dsimp only)

theorem keeps_err {u : State} (p code detail addr : Nat) {s : State} (h : Keeps u s) :
 Keeps u (err p code detail addr s) := by
  unfold err
  repeat' (first
    | with_reducible assumption
    | with_reducible apply keeps_wr
    | with_reducible apply keeps_irq
    | with_reducible apply keeps_errTransient
    | intro _
    | with_reducible apply keeps_ite
    | split
    | (with_reducible refine keeps_of_pair (by assumption) ?_)
    | (with_reducible refine keeps_of_opt (by assumption) ?_)
    | dsimp only)

theorem keeps_errClearRegs {u : State} (p : Nat) {s : State} (h : Keeps u s) :
 Keeps u (errClearRegs p s) := by
  unfold errClearRegs
  repeat' (first
    | with_reducible assumption
    | with_reducible apply keeps_wr
    | intro _
    | with_reducible apply keeps_ite
    | split
    | (with_reducible refine keeps_of_pair (by assumption) ?_)
    | (with_reducible refine keeps_of_opt (by assumption) ?_)
    | dsimp only)

theorem keeps_retireLast {u : State} (p code : Nat) {s : State} (h : Keeps u s) :
 Keeps u (retireLast p code s) := by
  unfold retireLast
  repeat' (first
    | with_reducible assumption
    | with_reducible apply keeps_wr
    | with_reducible apply keeps_irq
    | intro _
    | with_reducible apply keeps_ite
    | split
    | (with_reducible refine keeps_of_pair (by assumption) ?_)
    | (with_reducible refine keeps_of_opt (by assumption) ?_)
    | dsimp only)

theorem keeps_offAccess {u : State} (rq : Requester) (p off : Nat) (write : Bool) {s : State} (h : Keeps u s) :
 Keeps u (offAccess rq p off write s) := by
  unfold offAccess
  repeat' (first
    | with_reducible assumption
    | with_reducible apply keeps_wr
    | with_reducible apply keeps_count
    | with_reducible apply keeps_irq
    | intro _
    | with_reducible apply keeps_ite
    | split
    | (with_reducible refine keeps_of_pair (by assumption) ?_)
    | (with_reducible refine keeps_of_opt (by assumption) ?_)
    | dsimp only)

theorem keeps_malformed {u : State} (origin : Word) {s : State} (h : Keeps u s) :
 Keeps u (malformed origin s) := by
  unfold malformed
  repeat' (first
    | with_reducible assumption
    | with_reducible apply keeps_wr
    | with_reducible apply keeps_count
    | with_reducible apply keeps_irq
    | intro _
    | with_reducible apply keeps_ite
    | split
    | (with_reducible refine keeps_of_pair (by assumption) ?_)
    | (with_reducible refine keeps_of_opt (by assumption) ?_)
    | dsimp only)

theorem keeps_drawn {u : State} {s : State} (h : Keeps u s) :
 Keeps u (drawn s) := by
  unfold drawn
  repeat' (first
    | with_reducible assumption
    | with_reducible apply keeps_setFree
    | intro _
    | with_reducible apply keeps_ite
    | split
    | (with_reducible refine keeps_of_pair (by assumption) ?_)
    | (with_reducible refine keeps_of_opt (by assumption) ?_)
    | dsimp only)

theorem keeps_enterMode {u : State} (m : Mode) {s : State} (h : Keeps u s) :
 Keeps u (enterMode m s) := by
  unfold enterMode
  repeat' (first
    | with_reducible assumption
    | with_reducible apply keeps_setDev
    | with_reducible apply keeps_irqRise
    | with_reducible apply keeps_irq
    | intro _
    | with_reducible apply keeps_ite
    | split
    | (with_reducible refine keeps_of_pair (by assumption) ?_)
    | (with_reducible refine keeps_of_opt (by assumption) ?_)
    | dsimp only)

theorem keeps_ignored {u : State} (src : Nat) {s : State} (h : Keeps u s) :
 Keeps u (ignored src s) := by
  unfold ignored
  repeat' (first
    | with_reducible assumption
    | with_reducible apply keeps_md
    | intro _
    | with_reducible apply keeps_ite
    | split
    | (with_reducible refine keeps_of_pair (by assumption) ?_)
    | (with_reducible refine keeps_of_opt (by assumption) ?_)
    | dsimp only)

theorem keeps_sliceCounted {u : State} (b : BgSlice) (verdict : Nat) {s : State} (h : Keeps u s) :
 Keeps u (sliceCounted b verdict s) := by
  unfold sliceCounted
  repeat' (first
    | with_reducible assumption
    | with_reducible apply keeps_wr
    | with_reducible apply keeps_count
    | intro _
    | with_reducible apply keeps_ite
    | split
    | (with_reducible refine keeps_of_pair (by assumption) ?_)
    | (with_reducible refine keeps_of_opt (by assumption) ?_)
    | dsimp only)

theorem keeps_sliceOver {u : State} {s : State} (h : Keeps u s) :
 Keeps u (sliceOver s) := by
  unfold sliceOver
  repeat' (first
    | with_reducible assumption
    | with_reducible apply keeps_setWpk
    | with_reducible apply keeps_wrf
    | intro _
    | with_reducible apply keeps_ite
    | split
    | (with_reducible refine keeps_of_pair (by assumption) ?_)
    | (with_reducible refine keeps_of_opt (by assumption) ?_)
    | dsimp only)

theorem keeps_abandonSlice {u : State} (p : BgSlice → Bool) {s : State} (h : Keeps u s) :
 Keeps u (abandonSlice p s) := by
  unfold abandonSlice
  repeat' (first
    | with_reducible assumption
    | with_reducible apply keeps_sliceCounted
    | with_reducible apply keeps_sliceOver
    | intro _
    | with_reducible apply keeps_ite
    | split
    | (with_reducible refine keeps_of_pair (by assumption) ?_)
    | (with_reducible refine keeps_of_opt (by assumption) ?_)
    | dsimp only)

end Sys2Proof.Machine
end

