-- ==== Sys2Proof/Laws/KeepsNet.lean ====
section
/-! SUPPORT. Every operation of Machine/Net.lean keeps (Laws/Keeps.lean). -/
set_option linter.unusedTactic false
set_option linter.unreachableTactic false
set_option linter.unusedVariables false

namespace Sys2Proof.Machine

open Sys2Proof

theorem keeps_setChan {u : State} (c : ChanId) (x : Channel) {s : State} (h : Keeps u s) :
 Keeps u (setChan c x s) := by
  unfold setChan
  repeat' (first
    | with_reducible assumption
    | with_reducible apply keeps_setNet
    | intro _
    | with_reducible apply keeps_ite
    | split
    | (with_reducible refine keeps_of_pair (by assumption) ?_)
    | (with_reducible refine keeps_of_opt (by assumption) ?_)
    | dsimp only)

theorem keeps_mdChan {u : State} (c : ChanId) (f : Channel → Channel) {s : State} (h : Keeps u s) :
 Keeps u (mdChan c f s) := by
  unfold mdChan
  repeat' (first
    | with_reducible assumption
    | with_reducible apply keeps_setChan
    | intro _
    | with_reducible apply keeps_ite
    | split
    | (with_reducible refine keeps_of_pair (by assumption) ?_)
    | (with_reducible refine keeps_of_opt (by assumption) ?_)
    | dsimp only)

theorem keeps_tileEventN {u : State} (t code n : Nat) {s : State} (h : Keeps u s) :
 Keeps u (tileEventN t code n s) := by
  unfold tileEventN
  repeat' (first
    | with_reducible assumption
    | with_reducible apply keeps_countN
    | with_reducible apply keeps_foldl
    | with_reducible apply keeps_foldl_snd
    | intro _
    | with_reducible apply keeps_ite
    | split
    | (with_reducible refine keeps_of_pair (by assumption) ?_)
    | (with_reducible refine keeps_of_opt (by assumption) ?_)
    | dsimp only)

theorem keeps_tileEvent {u : State} (t code : Nat) {s : State} (h : Keeps u s) :
 Keeps u (tileEvent t code s) := by
  unfold tileEvent
  repeat' (first
    | with_reducible assumption
    | with_reducible apply keeps_tileEventN
    | intro _
    | with_reducible apply keeps_ite
    | split
    | (with_reducible refine keeps_of_pair (by assumption) ?_)
    | (with_reducible refine keeps_of_opt (by assumption) ?_)
    | dsimp only)

theorem keeps_countLaunched {u : State} (c : ChanId) (n : Nat) {s : State} (h : Keeps u s) :
 Keeps u (countLaunched c n s) := by
  cases c <;> unfold countLaunched <;> repeat' (first
    | dsimp only
    | with_reducible assumption
    | with_reducible apply keeps_countN
    | with_reducible apply keeps_count64
    | intro _
    | with_reducible apply keeps_ite
    | split
    | (with_reducible refine keeps_of_pair (by assumption) ?_)
    | (with_reducible refine keeps_of_opt (by assumption) ?_)
    | dsimp only)

theorem keeps_pump {u : State} (c : ChanId) {s : State} (h : Keeps u s) :
 Keeps u (pump c s) := by
  unfold pump
  repeat' (first
    | with_reducible assumption
    | with_reducible apply keeps_setChan
    | with_reducible apply keeps_countLaunched
    | intro _
    | with_reducible apply keeps_ite
    | split
    | (with_reducible refine keeps_of_pair (by assumption) ?_)
    | (with_reducible refine keeps_of_opt (by assumption) ?_)
    | dsimp only)

theorem keeps_sendAs {u : State} (m : Option Word) (c : ChanId) (ws : List TWord) {s : State} (h : Keeps u s) :
 Keeps u (sendAs m c ws s) := by
  unfold sendAs
  repeat' (first
    | with_reducible assumption
    | with_reducible apply keeps_mdChan
    | with_reducible apply keeps_pump
    | intro _
    | with_reducible apply keeps_ite
    | split
    | (with_reducible refine keeps_of_pair (by assumption) ?_)
    | (with_reducible refine keeps_of_opt (by assumption) ?_)
    | dsimp only)

theorem keeps_send {u : State} (c : ChanId) (ws : List TWord) {s : State} (h : Keeps u s) :
 Keeps u (send c ws s) := by
  unfold send
  repeat' (first
    | with_reducible assumption
    | with_reducible apply keeps_sendAs
    | intro _
    | with_reducible apply keeps_ite
    | split
    | (with_reducible refine keeps_of_pair (by assumption) ?_)
    | (with_reducible refine keeps_of_opt (by assumption) ?_)
    | dsimp only)

theorem keeps_sendGen {u : State} (m : Option Word) (c : ChanId) (ws : List TWord) {s : State} (h : Keeps u s) :
 Keeps u (sendGen m c ws s) := by
  unfold sendGen
  repeat' (first
    | with_reducible assumption
    | with_reducible apply keeps_setChan
    | with_reducible apply keeps_sendAs
    | intro _
    | with_reducible apply keeps_ite
    | split
    | (with_reducible refine keeps_of_pair (by assumption) ?_)
    | (with_reducible refine keeps_of_opt (by assumption) ?_)
    | dsimp only)

theorem keeps_release {u : State} (c : ChanId) {s : State} (h : Keeps u s) :
 Keeps u (release c s) := by
  unfold release
  repeat' (first
    | with_reducible assumption
    | with_reducible apply keeps_setChan
    | with_reducible apply keeps_sendAs
    | with_reducible apply keeps_foldl
    | with_reducible apply keeps_foldl_snd
    | intro _
    | with_reducible apply keeps_ite
    | split
    | (with_reducible refine keeps_of_pair (by assumption) ?_)
    | (with_reducible refine keeps_of_opt (by assumption) ?_)
    | dsimp only)

theorem keeps_popBuffer {u : State} (c : ChanId) {s : State} (h : Keeps u s) :
 Keeps u (popBuffer c s) := by
  unfold popBuffer
  repeat' (first
    | with_reducible assumption
    | with_reducible apply keeps_mdChan
    | intro _
    | with_reducible apply keeps_ite
    | split
    | (with_reducible refine keeps_of_pair (by assumption) ?_)
    | (with_reducible refine keeps_of_opt (by assumption) ?_)
    | dsimp only)

theorem keeps_takeWords {u : State} (fuel : Nat) (c : ChanId) {s : State} (h : Keeps u s) :
 Keeps u (takeWords fuel c s) := by
  induction fuel generalizing s with
  | zero => exact h
  | succ fuel ih =>
    unfold takeWords
    repeat' (first
      | with_reducible assumption
      | with_reducible apply ih
      | with_reducible apply keeps_mdChan
      | with_reducible apply keeps_popBuffer
      | intro _
      | with_reducible apply keeps_ite
      | split
      | (with_reducible refine keeps_of_pair (by assumption) ?_)
      | (with_reducible refine keeps_of_opt (by assumption) ?_)
      | dsimp only)

theorem keeps_takeMsg {u : State} (c : ChanId) {s : State} (h : Keeps u s) :
 Keeps u (takeMsg c s) := by
  unfold takeMsg
  repeat' (first
    | with_reducible assumption
    | with_reducible apply keeps_takeWords
    | intro _
    | with_reducible apply keeps_ite
    | split
    | (with_reducible refine keeps_of_pair (by assumption) ?_)
    | (with_reducible refine keeps_of_opt (by assumption) ?_)
    | dsimp only)

theorem keeps_takeOne {u : State} (c : ChanId) (w : TWord) {s : State} (h : Keeps u s) :
 Keeps u (takeOne c w s) := by
  unfold takeOne
  repeat' (first
    | with_reducible assumption
    | with_reducible apply keeps_mdChan
    | with_reducible apply keeps_popBuffer
    | intro _
    | with_reducible apply keeps_ite
    | split
    | (with_reducible refine keeps_of_pair (by assumption) ?_)
    | (with_reducible refine keeps_of_opt (by assumption) ?_)
    | dsimp only)

theorem keeps_dropMsg {u : State} (c : ChanId) {s : State} (h : Keeps u s) :
 Keeps u (dropMsg c s) := by
  unfold dropMsg
  repeat' (first
    | with_reducible assumption
    | with_reducible apply keeps_mdChan
    | with_reducible apply keeps_takeMsg
    | intro _
    | with_reducible apply keeps_ite
    | split
    | (with_reducible refine keeps_of_pair (by assumption) ?_)
    | (with_reducible refine keeps_of_opt (by assumption) ?_)
    | dsimp only)

theorem keeps_replyAs {u : State} (k : Option Word) (inp : ChanId) (m : List TWord) {s : State} (h : Keeps u s) :
 Keeps u (replyAs k inp m s) := by
  unfold replyAs
  repeat' (first
    | with_reducible assumption
    | with_reducible apply keeps_sendGen
    | intro _
    | with_reducible apply keeps_ite
    | split
    | (with_reducible refine keeps_of_pair (by assumption) ?_)
    | (with_reducible refine keeps_of_opt (by assumption) ?_)
    | dsimp only)

theorem keeps_replyBack {u : State} (inp : ChanId) (m : List TWord) {s : State} (h : Keeps u s) :
 Keeps u (replyBack inp m s) := by
  unfold replyBack
  repeat' (first
    | with_reducible assumption
    | with_reducible apply keeps_replyAs
    | intro _
    | with_reducible apply keeps_ite
    | split
    | (with_reducible refine keeps_of_pair (by assumption) ?_)
    | (with_reducible refine keeps_of_opt (by assumption) ?_)
    | dsimp only)

theorem keeps_absentMsg {u : State} (inp : ChanId) (head route : Word) {s : State} (h : Keeps u s) :
 Keeps u (absentMsg inp head route s) := by
  unfold absentMsg
  repeat' (first
    | with_reducible assumption
    | with_reducible apply keeps_wr
    | with_reducible apply keeps_count
    | with_reducible apply keeps_irq
    | with_reducible apply keeps_replyBack
    | intro _
    | with_reducible apply keeps_ite
    | split
    | (with_reducible refine keeps_of_pair (by assumption) ?_)
    | (with_reducible refine keeps_of_opt (by assumption) ?_)
    | dsimp only)

theorem keeps_strayWord {u : State} (inp : ChanId) {s : State} (h : Keeps u s) :
 Keeps u (strayWord inp s) := by
  unfold strayWord
  repeat' (first
    | with_reducible assumption
    | with_reducible apply keeps_count
    | with_reducible apply keeps_irq
    | intro _
    | with_reducible apply keeps_ite
    | split
    | (with_reducible refine keeps_of_pair (by assumption) ?_)
    | (with_reducible refine keeps_of_opt (by assumption) ?_)
    | dsimp only)

theorem keeps_unterminated {u : State} (inp : ChanId) {s : State} (h : Keeps u s) :
 Keeps u (unterminated inp s) := by
  unfold unterminated
  repeat' (first
    | with_reducible assumption
    | with_reducible apply keeps_count
    | intro _
    | with_reducible apply keeps_ite
    | split
    | (with_reducible refine keeps_of_pair (by assumption) ?_)
    | (with_reducible refine keeps_of_opt (by assumption) ?_)
    | dsimp only)

theorem keeps_countCreditWait {u : State} (inp : ChanId) {s : State} (h : Keeps u s) :
 Keeps u (countCreditWait inp s) := by
  unfold countCreditWait
  repeat' (first
    | with_reducible assumption
    | with_reducible apply keeps_count
    | with_reducible apply keeps_mdChan
    | intro _
    | with_reducible apply keeps_ite
    | split
    | (with_reducible refine keeps_of_pair (by assumption) ?_)
    | (with_reducible refine keeps_of_opt (by assumption) ?_)
    | dsimp only)

theorem keeps_advance {u : State} (fuel : Nat) (inp : ChanId) {s : State} (h : Keeps u s) :
 Keeps u (advance fuel inp s) := by
  induction fuel generalizing s with
  | zero => exact h
  | succ fuel ih =>
    unfold advance
    repeat' (first
      | with_reducible assumption
      | with_reducible apply ih
      | with_reducible apply keeps_mdChan
      | with_reducible apply keeps_sendAs
      | with_reducible apply keeps_send
      | with_reducible apply keeps_release
      | with_reducible apply keeps_popBuffer
      | with_reducible apply keeps_unterminated
      | with_reducible apply keeps_countCreditWait
      | intro _
      | with_reducible apply keeps_ite
      | split
      | (with_reducible refine keeps_of_pair (by assumption) ?_)
      | (with_reducible refine keeps_of_opt (by assumption) ?_)
      | dsimp only)

theorem keeps_advanceAll {u : State} (inp : ChanId) {s : State} (h : Keeps u s) :
 Keeps u (advanceAll inp s) := by
  unfold advanceAll
  repeat' (first
    | with_reducible assumption
    | with_reducible apply keeps_advance
    | intro _
    | with_reducible apply keeps_ite
    | split
    | (with_reducible refine keeps_of_pair (by assumption) ?_)
    | (with_reducible refine keeps_of_opt (by assumption) ?_)
    | dsimp only)

theorem keeps_grantNext {u : State} (o : ChanId) {s : State} (h : Keeps u s) :
 Keeps u (grantNext o s) := by
  unfold grantNext
  repeat' (first
    | with_reducible assumption
    | with_reducible apply keeps_setChan
    | with_reducible apply keeps_advanceAll
    | intro _
    | with_reducible apply keeps_ite
    | split
    | (with_reducible refine keeps_of_pair (by assumption) ?_)
    | (with_reducible refine keeps_of_opt (by assumption) ?_)
    | dsimp only)

theorem keeps_countHeadWait {u : State} (o : ChanId) {s : State} (h : Keeps u s) :
 Keeps u (countHeadWait o s) := by
  unfold countHeadWait
  repeat' (first
    | with_reducible assumption
    | with_reducible apply keeps_count
    | intro _
    | with_reducible apply keeps_ite
    | split
    | (with_reducible refine keeps_of_pair (by assumption) ?_)
    | (with_reducible refine keeps_of_opt (by assumption) ?_)
    | dsimp only)

theorem keeps_openMsg {u : State} (inp o : ChanId) (head route newRoute : Word) {s : State} (h : Keeps u s) :
 Keeps u (openMsg inp o head route newRoute s) := by
  unfold openMsg
  repeat' (first
    | with_reducible assumption
    | with_reducible apply keeps_setChan
    | with_reducible apply keeps_advanceAll
    | with_reducible apply keeps_countHeadWait
    | intro _
    | with_reducible apply keeps_ite
    | split
    | (with_reducible refine keeps_of_pair (by assumption) ?_)
    | (with_reducible refine keeps_of_opt (by assumption) ?_)
    | dsimp only)

theorem keeps_dropAbsent {u : State} (inp : ChanId) (head route : Word) {s : State} (h : Keeps u s) :
 Keeps u (dropAbsent inp head route s) := by
  unfold dropAbsent
  repeat' (first
    | with_reducible assumption
    | with_reducible apply keeps_mdChan
    | with_reducible apply keeps_popBuffer
    | with_reducible apply keeps_absentMsg
    | with_reducible apply keeps_advanceAll
    | intro _
    | with_reducible apply keeps_ite
    | split
    | (with_reducible refine keeps_of_pair (by assumption) ?_)
    | (with_reducible refine keeps_of_opt (by assumption) ?_)
    | dsimp only)

theorem keeps_routeFront {u : State} (inp : ChanId) (go : Word → Word → State → State) {s : State} (hgo : ∀ a0 a1 t, Keeps u t → Keeps u (go a0 a1 t)) (h : Keeps u s) :
 Keeps u (routeFront inp go s) := by
  unfold routeFront
  repeat' (first
    | with_reducible assumption
    | with_reducible apply hgo
    | with_reducible apply keeps_popBuffer
    | with_reducible apply keeps_absentMsg
    | with_reducible apply keeps_strayWord
    | with_reducible apply keeps_unterminated
    | with_reducible apply keeps_dropAbsent
    | intro _
    | with_reducible apply keeps_ite
    | split
    | (with_reducible refine keeps_of_pair (by assumption) ?_)
    | (with_reducible refine keeps_of_opt (by assumption) ?_)
    | dsimp only)

theorem keeps_routeTilePort {u : State} (j : Nat) (inp : ChanId) (head route : Word) {s : State} (h : Keeps u s) :
 Keeps u (routeTilePort j inp head route s) := by
  unfold routeTilePort
  repeat' (first
    | with_reducible assumption
    | with_reducible apply keeps_openMsg
    | with_reducible apply keeps_dropAbsent
    | intro _
    | with_reducible apply keeps_ite
    | split
    | (with_reducible refine keeps_of_pair (by assumption) ?_)
    | (with_reducible refine keeps_of_opt (by assumption) ?_)
    | dsimp only)

theorem keeps_routeUplink {u : State} (p : Nat) (inp : ChanId) (head route : Word) {s : State} (h : Keeps u s) :
 Keeps u (routeUplink p inp head route s) := by
  unfold routeUplink
  repeat' (first
    | with_reducible assumption
    | with_reducible apply keeps_openMsg
    | with_reducible apply keeps_dropAbsent
    | intro _
    | with_reducible apply keeps_ite
    | split
    | (with_reducible refine keeps_of_pair (by assumption) ?_)
    | (with_reducible refine keeps_of_opt (by assumption) ?_)
    | dsimp only)

theorem keeps_routeCrossbar {u : State} (inp : ChanId) (origin : Word) (head route : Word) {s : State} (h : Keeps u s) :
 Keeps u (routeCrossbar inp origin head route s) := by
  unfold routeCrossbar
  repeat' (first
    | with_reducible assumption
    | with_reducible apply keeps_openMsg
    | with_reducible apply keeps_dropAbsent
    | intro _
    | with_reducible apply keeps_ite
    | split
    | (with_reducible refine keeps_of_pair (by assumption) ?_)
    | (with_reducible refine keeps_of_opt (by assumption) ?_)
    | dsimp only)

theorem keeps_routeFromRing {u : State} (inp : ChanId) (head route : Word) {s : State} (h : Keeps u s) :
 Keeps u (routeFromRing inp head route s) := by
  unfold routeFromRing
  repeat' (first
    | with_reducible assumption
    | with_reducible apply keeps_openMsg
    | with_reducible apply keeps_dropAbsent
    | intro _
    | with_reducible apply keeps_ite
    | split
    | (with_reducible refine keeps_of_pair (by assumption) ?_)
    | (with_reducible refine keeps_of_opt (by assumption) ?_)
    | dsimp only)

theorem keeps_checkFailed {u : State} (c : ChanId) {s : State} (h : Keeps u s) :
 Keeps u (checkFailed c s) := by
  unfold checkFailed
  repeat' (first
    | with_reducible assumption
    | with_reducible apply keeps_errTransient
    | with_reducible apply keeps_tileEvent
    | intro _
    | with_reducible apply keeps_ite
    | split
    | (with_reducible refine keeps_of_pair (by assumption) ?_)
    | (with_reducible refine keeps_of_opt (by assumption) ?_)
    | dsimp only)

theorem keeps_arrive {u : State} (c : ChanId) (upset : Bool) {s : State} (h : Keeps u s) :
 Keeps u (arrive c upset s) := by
  cases c <;> unfold arrive <;> repeat' (first
    | dsimp only
    | with_reducible assumption
    | with_reducible apply keeps_count
    | with_reducible apply keeps_setChan
    | with_reducible apply keeps_takeMsg
    | with_reducible apply keeps_advanceAll
    | with_reducible apply keeps_checkFailed
    | intro _
    | with_reducible apply keeps_ite
    | split
    | (with_reducible refine keeps_of_pair (by assumption) ?_)
    | (with_reducible refine keeps_of_opt (by assumption) ?_)
    | dsimp only)

theorem keeps_unroute {u : State} (i : ChanId) {s : State} (h : Keeps u s) :
 Keeps u (unroute i s) := by
  unfold unroute
  repeat' (first
    | with_reducible assumption
    | with_reducible apply keeps_mdChan
    | intro _
    | with_reducible apply keeps_ite
    | split
    | (with_reducible refine keeps_of_pair (by assumption) ?_)
    | (with_reducible refine keeps_of_opt (by assumption) ?_)
    | dsimp only)

theorem keeps_unwait {u : State} (o : ChanId) {s : State} (h : Keeps u s) :
 Keeps u (unwait o s) := by
  unfold unwait
  repeat' (first
    | with_reducible assumption
    | with_reducible apply keeps_mdChan
    | with_reducible apply keeps_unroute
    | with_reducible apply keeps_foldl
    | with_reducible apply keeps_foldl_snd
    | intro _
    | with_reducible apply keeps_ite
    | split
    | (with_reducible refine keeps_of_pair (by assumption) ?_)
    | (with_reducible refine keeps_of_opt (by assumption) ?_)
    | dsimp only)

theorem keeps_cutInput {u : State} (i : ChanId) {s : State} (h : Keeps u s) :
 Keeps u (cutInput i s) := by
  unfold cutInput
  repeat' (first
    | with_reducible assumption
    | with_reducible apply keeps_mdChan
    | with_reducible apply keeps_advanceAll
    | intro _
    | with_reducible apply keeps_ite
    | split
    | (with_reducible refine keeps_of_pair (by assumption) ?_)
    | (with_reducible refine keeps_of_opt (by assumption) ?_)
    | dsimp only)

theorem keeps_answerCut {u : State} (c i : ChanId) {s : State} (h : Keeps u s) :
 Keeps u (answerCut c i s) := by
  unfold answerCut
  repeat' (first
    | with_reducible assumption
    | with_reducible apply keeps_replyBack
    | intro _
    | with_reducible apply keeps_ite
    | split
    | (with_reducible refine keeps_of_pair (by assumption) ?_)
    | (with_reducible refine keeps_of_opt (by assumption) ?_)
    | dsimp only)

theorem keeps_cutChan {u : State} (c : ChanId) {s : State} (h : Keeps u s) :
 Keeps u (cutChan c s) := by
  unfold cutChan
  repeat' (first
    | with_reducible assumption
    | with_reducible apply keeps_setChan
    | with_reducible apply keeps_takeMsg
    | with_reducible apply keeps_replyAs
    | with_reducible apply keeps_advanceAll
    | with_reducible apply keeps_cutInput
    | with_reducible apply keeps_answerCut
    | intro _
    | with_reducible apply keeps_ite
    | split
    | (with_reducible refine keeps_of_pair (by assumption) ?_)
    | (with_reducible refine keeps_of_opt (by assumption) ?_)
    | dsimp only)

theorem keeps_afterRetire {u : State} (c : ChanId) {s : State} (h : Keeps u s) :
 Keeps u (afterRetire c s) := by
  unfold afterRetire
  repeat' (first
    | with_reducible assumption
    | with_reducible apply keeps_wr
    | with_reducible apply keeps_md
    | with_reducible apply keeps_setArr
    | with_reducible apply keeps_irq
    | with_reducible apply keeps_abandonSlice
    | with_reducible apply keeps_unwait
    | intro _
    | with_reducible apply keeps_ite
    | split
    | (with_reducible refine keeps_of_pair (by assumption) ?_)
    | (with_reducible refine keeps_of_opt (by assumption) ?_)
    | dsimp only)

theorem keeps_retire {u : State} (c : ChanId) {s : State} (h : Keeps u s) :
 Keeps u (retire c s) := by
  unfold retire
  repeat' (first
    | with_reducible assumption
    | with_reducible apply keeps_err
    | with_reducible apply keeps_mdChan
    | with_reducible apply keeps_cutChan
    | with_reducible apply keeps_afterRetire
    | with_reducible apply keeps_foldl
    | with_reducible apply keeps_foldl_snd
    | intro _
    | with_reducible apply keeps_ite
    | split
    | (with_reducible refine keeps_of_pair (by assumption) ?_)
    | (with_reducible refine keeps_of_opt (by assumption) ?_)
    | dsimp only)

theorem keeps_verdict {u : State} (c : ChanId) {s : State} (h : Keeps u s) :
 Keeps u (verdict c s) := by
  unfold verdict
  repeat' (first
    | with_reducible assumption
    | with_reducible apply keeps_count
    | with_reducible apply keeps_setChan
    | with_reducible apply keeps_pump
    | with_reducible apply keeps_retire
    | intro _
    | with_reducible apply keeps_ite
    | split
    | (with_reducible refine keeps_of_pair (by assumption) ?_)
    | (with_reducible refine keeps_of_opt (by assumption) ?_)
    | dsimp only)

theorem keeps_coreChecks {u : State} (inp : ChanId) (k : Nat) {s : State} (h : Keeps u s) :
 Keeps u (coreChecks inp k s) := by
  unfold coreChecks
  repeat' (first
    | with_reducible assumption
    | with_reducible apply keeps_errTransient
    | with_reducible apply keeps_setChan
    | with_reducible apply keeps_replyAs
    | with_reducible apply keeps_retire
    | with_reducible apply keeps_foldl
    | with_reducible apply keeps_foldl_snd
    | intro _
    | with_reducible apply keeps_ite
    | split
    | (with_reducible refine keeps_of_pair (by assumption) ?_)
    | (with_reducible refine keeps_of_opt (by assumption) ?_)
    | dsimp only)

theorem keeps_advanceHolder {u : State} (o : ChanId) {s : State} (h : Keeps u s) :
 Keeps u (advanceHolder o s) := by
  unfold advanceHolder
  repeat' (first
    | with_reducible assumption
    | with_reducible apply keeps_advanceAll
    | intro _
    | with_reducible apply keeps_ite
    | split
    | (with_reducible refine keeps_of_pair (by assumption) ?_)
    | (with_reducible refine keeps_of_opt (by assumption) ?_)
    | dsimp only)

theorem keeps_creditBack {u : State} (c : ChanId) {s : State} (h : Keeps u s) :
 Keeps u (creditBack c s) := by
  unfold creditBack
  repeat' (first
    | with_reducible assumption
    | with_reducible apply keeps_setChan
    | with_reducible apply keeps_pump
    | with_reducible apply keeps_advanceHolder
    | intro _
    | with_reducible apply keeps_ite
    | split
    | (with_reducible refine keeps_of_pair (by assumption) ?_)
    | (with_reducible refine keeps_of_opt (by assumption) ?_)
    | dsimp only)

theorem keeps_forsake {u : State} (c : ChanId) {s : State} (h : Keeps u s) :
 Keeps u (forsake c s) := by
  unfold forsake
  repeat' (first
    | with_reducible assumption
    | with_reducible apply keeps_mdChan
    | with_reducible apply keeps_pump
    | with_reducible apply keeps_unwait
    | intro _
    | with_reducible apply keeps_ite
    | split
    | (with_reducible refine keeps_of_pair (by assumption) ?_)
    | (with_reducible refine keeps_of_opt (by assumption) ?_)
    | dsimp only)

theorem keeps_remap {u : State} (p : Nat) {s : State} (h : Keeps u s) :
 Keeps u (remap p s) := by
  unfold remap
  repeat' (first
    | with_reducible assumption
    | with_reducible apply keeps_wr
    | with_reducible apply keeps_md
    | with_reducible apply keeps_setArr
    | with_reducible apply keeps_irq
    | with_reducible apply keeps_mdChan
    | with_reducible apply keeps_pump
    | with_reducible apply keeps_release
    | with_reducible apply keeps_grantNext
    | with_reducible apply keeps_forsake
    | intro _
    | with_reducible apply keeps_ite
    | split
    | (with_reducible refine keeps_of_pair (by assumption) ?_)
    | (with_reducible refine keeps_of_opt (by assumption) ?_)
    | dsimp only)

theorem keeps_closeOpen {u : State} (c : ChanId) {s : State} (h : Keeps u s) :
 Keeps u (closeOpen c s) := by
  unfold closeOpen
  repeat' (first
    | with_reducible assumption
    | with_reducible apply keeps_setChan
    | with_reducible apply keeps_takeMsg
    | with_reducible apply keeps_advanceAll
    | intro _
    | with_reducible apply keeps_ite
    | split
    | (with_reducible refine keeps_of_pair (by assumption) ?_)
    | (with_reducible refine keeps_of_opt (by assumption) ?_)
    | dsimp only)

theorem keeps_clearInside {u : State} (r : Nat) {s : State} (h : Keeps u s) :
 Keeps u (clearInside r s) := by
  unfold clearInside
  repeat' (first
    | with_reducible assumption
    | with_reducible apply keeps_setNet
    | intro _
    | with_reducible apply keeps_ite
    | split
    | (with_reducible refine keeps_of_pair (by assumption) ?_)
    | (with_reducible refine keeps_of_opt (by assumption) ?_)
    | dsimp only)

theorem keeps_forPorts {u : State} (r : Nat) (f : Nat → State → State) {s : State} (hf : ∀ a0 t, Keeps u t → Keeps u (f a0 t)) (h : Keeps u s) :
 Keeps u (forPorts r f s) := by
  unfold forPorts
  repeat' (first
    | with_reducible assumption
    | with_reducible apply hf
    | with_reducible apply keeps_foldl
    | with_reducible apply keeps_foldl_snd
    | intro _
    | with_reducible apply keeps_ite
    | split
    | (with_reducible refine keeps_of_pair (by assumption) ?_)
    | (with_reducible refine keeps_of_opt (by assumption) ?_)
    | dsimp only)

theorem keeps_fenceHolder {u : State} (dn : ChanId) {s : State} (h : Keeps u s) :
 Keeps u (fenceHolder dn s) := by
  unfold fenceHolder
  repeat' (first
    | with_reducible assumption
    | with_reducible apply keeps_replyBack
    | with_reducible apply keeps_unroute
    | with_reducible apply keeps_cutInput
    | intro _
    | with_reducible apply keeps_ite
    | split
    | (with_reducible refine keeps_of_pair (by assumption) ?_)
    | (with_reducible refine keeps_of_opt (by assumption) ?_)
    | dsimp only)

theorem keeps_fenceRegion {u : State} (r : Nat) {s : State} (h : Keeps u s) :
 Keeps u (fenceRegion r s) := by
  unfold fenceRegion
  repeat' (first
    | with_reducible assumption
    | with_reducible apply keeps_setChan
    | with_reducible apply keeps_mdChan
    | with_reducible apply keeps_unwait
    | with_reducible apply keeps_closeOpen
    | with_reducible apply keeps_clearInside
    | with_reducible apply keeps_forPorts
    | with_reducible apply keeps_fenceHolder
    | intro _
    | with_reducible apply keeps_ite
    | split
    | (with_reducible refine keeps_of_pair (by assumption) ?_)
    | (with_reducible refine keeps_of_opt (by assumption) ?_)
    | dsimp only)

theorem keeps_unfenceRegion {u : State} (r : Nat) {s : State} (h : Keeps u s) :
 Keeps u (unfenceRegion r s) := by
  unfold unfenceRegion
  repeat' (first
    | with_reducible assumption
    | with_reducible apply keeps_mdChan
    | with_reducible apply keeps_forPorts
    | intro _
    | with_reducible apply keeps_ite
    | split
    | (with_reducible refine keeps_of_pair (by assumption) ?_)
    | (with_reducible refine keeps_of_opt (by assumption) ?_)
    | dsimp only)

theorem keeps_resetSwitch {u : State} (r : Nat) {s : State} (h : Keeps u s) :
 Keeps u (resetSwitch r s) := by
  unfold resetSwitch
  repeat' (first
    | with_reducible assumption
    | with_reducible apply keeps_mdChan
    | with_reducible apply keeps_send
    | with_reducible apply keeps_release
    | with_reducible apply keeps_unroute
    | with_reducible apply keeps_clearInside
    | with_reducible apply keeps_forPorts
    | intro _
    | with_reducible apply keeps_ite
    | split
    | (with_reducible refine keeps_of_pair (by assumption) ?_)
    | (with_reducible refine keeps_of_opt (by assumption) ?_)
    | dsimp only)

end Sys2Proof.Machine
end

