-- ==== Sys2Proof/Laws/KeepsBanks.lean ====
section
/-! SUPPORT. Every operation of Machine/Banks.lean keeps (Laws/Keeps.lean). -/
set_option linter.unusedTactic false
set_option linter.unreachableTactic false
set_option linter.unusedVariables false

namespace Sys2Proof.Machine

open Sys2Proof

theorem keeps_setBankPort {u : State} (b : Nat) (x : Bank) {s : State} (h : Keeps u s) :
 Keeps u (setBankPort b x s) := by
  unfold setBankPort
  repeat' (first
    | with_reducible assumption
    | (with_reducible refine keeps_setBanks_same _ rfl ?_)
    | (with_reducible refine keeps_setBanks_clear _ _ _ rfl ?_)
    | (with_reducible refine keeps_setBanks_filter _ _ rfl ?_)
    | intro _
    | with_reducible apply keeps_ite
    | split
    | (with_reducible refine keeps_of_pair (by assumption) ?_)
    | (with_reducible refine keeps_of_opt (by assumption) ?_)
    | dsimp only)

theorem keeps_mdBankPort {u : State} (b : Nat) (f : Bank → Bank) {s : State} (h : Keeps u s) :
 Keeps u (mdBankPort b f s) := by
  unfold mdBankPort
  repeat' (first
    | with_reducible assumption
    | with_reducible apply keeps_setBankPort
    | intro _
    | with_reducible apply keeps_ite
    | split
    | (with_reducible refine keeps_of_pair (by assumption) ?_)
    | (with_reducible refine keeps_of_opt (by assumption) ?_)
    | dsimp only)

theorem keeps_setBankWord {u : State} (b w : Nat) (x : TWord) {s : State} (h : Keeps u s) :
    Keeps u (setBankWord b w x s) := by
  unfold setBankWord
  dsimp only
  refine keeps_setBanks _ (fun hb => ⟨canonical_tput _ _ _ _ hb.1, nullClean_tput _ _ _ ?_ hb.2⟩) h
  split
  · exact .inr rfl
  · exact .inl (by assumption)

theorem keeps_rereadOk {u : State} (b w : Nat) {s : State} (h : Keeps u s) :
 Keeps u (rereadOk b w s) := by
  unfold rereadOk
  repeat' (first
    | with_reducible assumption
    | with_reducible apply keeps_count
    | with_reducible apply keeps_errTransient
    | with_reducible apply keeps_tileEvent
    | (with_reducible refine keeps_setBanks_same _ rfl ?_)
    | (with_reducible refine keeps_setBanks_clear _ _ _ rfl ?_)
    | (with_reducible refine keeps_setBanks_filter _ _ rfl ?_)
    | intro _
    | with_reducible apply keeps_ite
    | split
    | (with_reducible refine keeps_of_pair (by assumption) ?_)
    | (with_reducible refine keeps_of_opt (by assumption) ?_)
    | dsimp only)

theorem keeps_retireBankFor {u : State} (code b : Nat) {s : State} (h : Keeps u s) :
 Keeps u (retireBankFor code b s) := by
  unfold retireBankFor
  repeat' (first
    | with_reducible assumption
    | with_reducible apply keeps_md
    | with_reducible apply keeps_irq
    | with_reducible apply keeps_retireLast
    | with_reducible apply keeps_abandonSlice
    | intro _
    | with_reducible apply keeps_ite
    | split
    | (with_reducible refine keeps_of_pair (by assumption) ?_)
    | (with_reducible refine keeps_of_opt (by assumption) ?_)
    | dsimp only)

theorem keeps_retireBank {u : State} (b : Nat) {s : State} (h : Keeps u s) :
 Keeps u (retireBank b s) := by
  unfold retireBank
  repeat' (first
    | with_reducible assumption
    | with_reducible apply keeps_retireBankFor
    | intro _
    | with_reducible apply keeps_ite
    | split
    | (with_reducible refine keeps_of_pair (by assumption) ?_)
    | (with_reducible refine keeps_of_opt (by assumption) ?_)
    | dsimp only)

theorem keeps_countBankFail {u : State} (b : Nat) {s : State} (h : Keeps u s) :
 Keeps u (countBankFail b s) := by
  unfold countBankFail
  repeat' (first
    | with_reducible assumption
    | with_reducible apply keeps_mdBankPort
    | with_reducible apply keeps_retireBank
    | intro _
    | with_reducible apply keeps_ite
    | split
    | (with_reducible refine keeps_of_pair (by assumption) ?_)
    | (with_reducible refine keeps_of_opt (by assumption) ?_)
    | dsimp only)

theorem keeps_restartRmw {u : State} (b w : Nat) {s : State} (h : Keeps u s) :
 Keeps u (restartRmw b w s) := by
  unfold restartRmw
  repeat' (first
    | with_reducible assumption
    | with_reducible apply keeps_countN
    | with_reducible apply keeps_setBankPort
    | intro _
    | with_reducible apply keeps_ite
    | split
    | (with_reducible refine keeps_of_pair (by assumption) ?_)
    | (with_reducible refine keeps_of_opt (by assumption) ?_)
    | dsimp only)

theorem keeps_unrecoverable {u : State} (b w : Nat) (cs : List Nat) {s : State} (h : Keeps u s) :
 Keeps u (unrecoverable b w cs s) := by
  unfold unrecoverable
  repeat' (first
    | with_reducible assumption
    | with_reducible apply keeps_wr
    | with_reducible apply keeps_count
    | with_reducible apply keeps_irq
    | with_reducible apply keeps_err
    | with_reducible apply keeps_setBankWord
    | with_reducible apply keeps_countBankFail
    | with_reducible apply keeps_restartRmw
    | with_reducible apply keeps_foldl
    | with_reducible apply keeps_foldl_snd
    | intro _
    | with_reducible apply keeps_ite
    | split
    | (with_reducible refine keeps_of_pair (by assumption) ?_)
    | (with_reducible refine keeps_of_opt (by assumption) ?_)
    | dsimp only)

theorem keeps_rewriteCopy {u : State} (c w : Nat) (x : TWord) {s : State} (h : Keeps u s) :
 Keeps u (rewriteCopy c w x s) := by
  unfold rewriteCopy
  repeat' (first
    | with_reducible assumption
    | with_reducible apply keeps_setBankWord
    | with_reducible apply keeps_countBankFail
    | with_reducible apply keeps_restartRmw
    | intro _
    | with_reducible apply keeps_ite
    | split
    | (with_reducible refine keeps_of_pair (by assumption) ?_)
    | (with_reducible refine keeps_of_opt (by assumption) ?_)
    | dsimp only)

theorem keeps_readBank {u : State} (b w : Nat) {s : State} (h : Keeps u s) :
 Keeps u (readBank b w s).2 := by
  unfold readBank
  repeat' (first
    | with_reducible assumption
    | with_reducible apply keeps_count
    | with_reducible apply keeps_err
    | with_reducible apply keeps_rereadOk
    | with_reducible apply keeps_unrecoverable
    | with_reducible apply keeps_rewriteCopy
    | intro _
    | with_reducible apply keeps_ite_snd
    | with_reducible apply keeps_ite
    | split
    | (with_reducible refine keeps_of_pair (by assumption) ?_)
    | (with_reducible refine keeps_of_opt (by assumption) ?_)
    | dsimp only)

theorem keeps_writeCopy {u : State} (w : Nat) (x : TWord) {s : State} (c : Nat) (h : Keeps u s) :
 Keeps u (writeCopy w x s c) := by
  unfold writeCopy
  repeat' (first
    | with_reducible assumption
    | with_reducible apply keeps_mdBankPort
    | with_reducible apply keeps_setBankWord
    | (with_reducible refine keeps_setBanks_same _ rfl ?_)
    | (with_reducible refine keeps_setBanks_clear _ _ _ rfl ?_)
    | (with_reducible refine keeps_setBanks_filter _ _ rfl ?_)
    | intro _
    | with_reducible apply keeps_ite
    | split
    | (with_reducible refine keeps_of_pair (by assumption) ?_)
    | (with_reducible refine keeps_of_opt (by assumption) ?_)
    | dsimp only)

theorem keeps_writeBank {u : State} (b w : Nat) (x : TWord) {s : State} (h : Keeps u s) :
 Keeps u (writeBank b w x s).2 := by
  unfold writeBank
  repeat' (first
    | with_reducible assumption
    | with_reducible apply keeps_err
    | with_reducible apply keeps_restartRmw
    | with_reducible apply keeps_writeCopy
    | with_reducible apply keeps_foldl
    | with_reducible apply keeps_foldl_snd
    | intro _
    | with_reducible apply keeps_ite_snd
    | with_reducible apply keeps_ite
    | split
    | (with_reducible refine keeps_of_pair (by assumption) ?_)
    | (with_reducible refine keeps_of_opt (by assumption) ?_)
    | dsimp only)

theorem keeps_clearBankAtSwap {u : State} (b : Nat) {s : State} (h : Keeps u s) :
 Keeps u (clearBankAtSwap b s) := by
  unfold clearBankAtSwap
  repeat' (first
    | with_reducible assumption
    | with_reducible apply keeps_countN
    | with_reducible apply keeps_abandonSlice
    | with_reducible apply keeps_mdBankPort
    | (with_reducible refine keeps_setBanks_same _ rfl ?_)
    | (with_reducible refine keeps_setBanks_clear _ _ _ rfl ?_)
    | (with_reducible refine keeps_setBanks_filter _ _ rfl ?_)
    | intro _
    | with_reducible apply keeps_ite
    | split
    | (with_reducible refine keeps_of_pair (by assumption) ?_)
    | (with_reducible refine keeps_of_opt (by assumption) ?_)
    | dsimp only)

theorem keeps_zeroBank {u : State} (b : Nat) {s : State} (h : Keeps u s) :
 Keeps u (zeroBank b s) := by
  unfold zeroBank
  repeat' (first
    | with_reducible assumption
    | with_reducible apply keeps_mdBankPort
    | (with_reducible refine keeps_setBanks_same _ rfl ?_)
    | (with_reducible refine keeps_setBanks_clear _ _ _ rfl ?_)
    | (with_reducible refine keeps_setBanks_filter _ _ rfl ?_)
    | intro _
    | with_reducible apply keeps_ite
    | split
    | (with_reducible refine keeps_of_pair (by assumption) ?_)
    | (with_reducible refine keeps_of_opt (by assumption) ?_)
    | dsimp only)

theorem keeps_pushRead {u : State} (rq : Requester) (y : TWord) {s : State} (h : Keeps u s) :
 Keeps u (pushRead rq y s) := by
  unfold pushRead
  repeat' (first
    | with_reducible assumption
    | with_reducible apply keeps_setIo
    | intro _
    | with_reducible apply keeps_ite
    | split
    | (with_reducible refine keeps_of_pair (by assumption) ?_)
    | (with_reducible refine keeps_of_opt (by assumption) ?_)
    | dsimp only)

theorem keeps_deliver {u : State} (rq : Requester) (x : TWord) {s : State} (h : Keeps u s) :
 Keeps u (deliver rq x s) := by
  unfold deliver
  repeat' (first
    | with_reducible assumption
    | with_reducible apply keeps_pushRead
    | intro _
    | with_reducible apply keeps_ite
    | split
    | (with_reducible refine keeps_of_pair (by assumption) ?_)
    | (with_reducible refine keeps_of_opt (by assumption) ?_)
    | dsimp only)

theorem keeps_deliverCode {u : State} (rq : Requester) (code : Nat) {s : State} (h : Keeps u s) :
 Keeps u (deliverCode rq code s) := by
  unfold deliverCode
  repeat' (first
    | with_reducible assumption
    | with_reducible apply keeps_pushRead
    | intro _
    | with_reducible apply keeps_ite
    | split
    | (with_reducible refine keeps_of_pair (by assumption) ?_)
    | (with_reducible refine keeps_of_opt (by assumption) ?_)
    | dsimp only)

theorem keeps_giveWord {u : State} (q : BankReq) (x : TWord) {s : State} (h : Keeps u s) :
 Keeps u (giveWord q x s) := by
  unfold giveWord
  repeat' (first
    | with_reducible assumption
    | with_reducible apply keeps_deliver
    | (with_reducible refine keeps_setBanks_same _ rfl ?_)
    | (with_reducible refine keeps_setBanks_clear _ _ _ rfl ?_)
    | (with_reducible refine keeps_setBanks_filter _ _ rfl ?_)
    | intro _
    | with_reducible apply keeps_ite
    | split
    | (with_reducible refine keeps_of_pair (by assumption) ?_)
    | (with_reducible refine keeps_of_opt (by assumption) ?_)
    | dsimp only)

theorem keeps_giveCode {u : State} (q : BankReq) (code : Nat) {s : State} (h : Keeps u s) :
 Keeps u (giveCode q code s) := by
  unfold giveCode
  repeat' (first
    | with_reducible assumption
    | with_reducible apply keeps_deliverCode
    | (with_reducible refine keeps_setBanks_same _ rfl ?_)
    | (with_reducible refine keeps_setBanks_clear _ _ _ rfl ?_)
    | (with_reducible refine keeps_setBanks_filter _ _ rfl ?_)
    | intro _
    | with_reducible apply keeps_ite
    | split
    | (with_reducible refine keeps_of_pair (by assumption) ?_)
    | (with_reducible refine keeps_of_opt (by assumption) ?_)
    | dsimp only)

theorem keeps_serveReq {u : State} (b : Nat) (q : BankReq) {s : State} (h : Keeps u s) :
 Keeps u (serveReq b q s).1 := by
  unfold serveReq
  repeat' (first
    | with_reducible assumption
    | with_reducible apply keeps_readBank
    | with_reducible apply keeps_writeBank
    | with_reducible apply keeps_giveWord
    | with_reducible apply keeps_giveCode
    | intro _
    | intro _
    | with_reducible apply keeps_ite
    | split
    | (with_reducible refine keeps_of_pair (by assumption) ?_)
    | (with_reducible refine keeps_of_opt (by assumption) ?_)
    | dsimp only)

theorem keeps_denyRank3 {u : State} (b : Nat) {s : State} (h : Keeps u s) :
 Keeps u (denyRank3 b s) := by
  unfold denyRank3
  repeat' (first
    | with_reducible assumption
    | with_reducible apply keeps_tileEvent
    | with_reducible apply keeps_mdBankPort
    | intro _
    | with_reducible apply keeps_ite
    | split
    | (with_reducible refine keeps_of_pair (by assumption) ?_)
    | (with_reducible refine keeps_of_opt (by assumption) ?_)
    | dsimp only)

theorem keeps_denyCycles {u : State} (n b : Nat) {s : State} (h : Keeps u s) : Keeps u (denyCycles n b s) := by
  induction n generalizing s with
  | zero => exact h
  | succ n ih =>
    unfold denyCycles
    repeat' (first
      | with_reducible assumption
      | with_reducible apply ih
      | with_reducible apply keeps_denyRank3
      | (with_reducible refine keeps_of_pair (by assumption) ?_)
      | split
      | dsimp only)

theorem keeps_waitRank3 {u : State} (b : Nat) {s : State} (h : Keeps u s) :
 Keeps u (waitRank3 b s) := by
  unfold waitRank3
  repeat' (first
    | with_reducible assumption
    | with_reducible apply keeps_mdBankPort
    | intro _
    | with_reducible apply keeps_ite
    | split
    | (with_reducible refine keeps_of_pair (by assumption) ?_)
    | (with_reducible refine keeps_of_opt (by assumption) ?_)
    | dsimp only)

theorem keeps_starveCheck {u : State} (b : Nat) (q : BankReq) {s : State} (h : Keeps u s) :
 Keeps u (starveCheck b q s) := by
  unfold starveCheck
  repeat' (first
    | with_reducible assumption
    | with_reducible apply keeps_wr
    | with_reducible apply keeps_count
    | with_reducible apply keeps_irq
    | intro _
    | with_reducible apply keeps_ite
    | split
    | (with_reducible refine keeps_of_pair (by assumption) ?_)
    | (with_reducible refine keeps_of_opt (by assumption) ?_)
    | dsimp only)

theorem keeps_refuseExcluded {u : State} (b : Nat) {s : State} (q : BankReq) (h : Keeps u s) :
 Keeps u (refuseExcluded b s q) := by
  unfold refuseExcluded
  repeat' (first
    | with_reducible assumption
    | with_reducible apply keeps_count
    | with_reducible apply keeps_err
    | with_reducible apply keeps_giveCode
    | intro _
    | with_reducible apply keeps_ite
    | split
    | (with_reducible refine keeps_of_pair (by assumption) ?_)
    | (with_reducible refine keeps_of_opt (by assumption) ?_)
    | dsimp only)

theorem keeps_rerank {u : State} (b : Nat) {s : State} (h : Keeps u s) :
 Keeps u (rerank b s) := by
  unfold rerank
  repeat' (first
    | with_reducible assumption
    | with_reducible apply keeps_setBankPort
    | with_reducible apply keeps_refuseExcluded
    | with_reducible apply keeps_foldl
    | with_reducible apply keeps_foldl_snd
    | intro _
    | with_reducible apply keeps_ite
    | split
    | (with_reducible refine keeps_of_pair (by assumption) ?_)
    | (with_reducible refine keeps_of_opt (by assumption) ?_)
    | dsimp only)

theorem keeps_settleExcl {u : State} (b : Nat) {s : State} (h : Keeps u s) :
 Keeps u (settleExcl b s) := by
  unfold settleExcl
  repeat' (first
    | with_reducible assumption
    | with_reducible apply keeps_mdBankPort
    | intro _
    | with_reducible apply keeps_ite
    | split
    | (with_reducible refine keeps_of_pair (by assumption) ?_)
    | (with_reducible refine keeps_of_opt (by assumption) ?_)
    | dsimp only)

theorem keeps_grantSteward {u : State} (b : Nat) (q : BankReq) (rest : List BankReq) {s : State} (h : Keeps u s) :
 Keeps u (grantSteward b q rest s) := by
  unfold grantSteward
  repeat' (first
    | with_reducible assumption
    | with_reducible apply keeps_mdBankPort
    | with_reducible apply keeps_serveReq
    | with_reducible apply keeps_denyCycles
    | intro _
    | with_reducible apply keeps_ite
    | split
    | (with_reducible refine keeps_of_pair (by assumption) ?_)
    | (with_reducible refine keeps_of_opt (by assumption) ?_)
    | (with_reducible refine keeps_of_first (by assumption) ?_)
    | dsimp only)

theorem keeps_grantIdle {u : State} (b : Nat) (q : BankReq) (rest : List BankReq) {s : State} (h : Keeps u s) :
 Keeps u (grantIdle b q rest s) := by
  unfold grantIdle
  repeat' (first
    | with_reducible assumption
    | with_reducible apply keeps_tileEvent
    | with_reducible apply keeps_mdBankPort
    | with_reducible apply keeps_serveReq
    | with_reducible apply keeps_denyCycles
    | with_reducible apply keeps_waitRank3
    | with_reducible apply keeps_starveCheck
    | intro _
    | with_reducible apply keeps_ite
    | split
    | (with_reducible refine keeps_of_pair (by assumption) ?_)
    | (with_reducible refine keeps_of_opt (by assumption) ?_)
    | (with_reducible refine keeps_of_first (by assumption) ?_)
    | dsimp only)

theorem keeps_enterReq {u : State} (q : BankReq) (b : Nat) {s : State} (h : Keeps u s) :
 Keeps u (enterReq q b s) := by
  unfold enterReq
  repeat' (first
    | with_reducible assumption
    | with_reducible apply keeps_mdBankPort
    | with_reducible apply keeps_giveCode
    | with_reducible apply keeps_serveReq
    | intro _
    | with_reducible apply keeps_ite
    | split
    | (with_reducible refine keeps_of_pair (by assumption) ?_)
    | (with_reducible refine keeps_of_opt (by assumption) ?_)
    | (with_reducible refine keeps_of_first (by assumption) ?_)
    | dsimp only)

theorem keeps_viaPort {u : State} (e b w : Nat) (op : BankOp) {s : State} (h : Keeps u s) :
 Keeps u (viaPort e b w op s).2 := by
  unfold viaPort
  repeat' (first
    | with_reducible assumption
    | with_reducible apply keeps_enterReq
    | (with_reducible refine keeps_setBanks_same _ rfl ?_)
    | (with_reducible refine keeps_setBanks_clear _ _ _ rfl ?_)
    | (with_reducible refine keeps_setBanks_filter _ _ rfl ?_)
    | intro _
    | with_reducible apply keeps_ite_snd
    | with_reducible apply keeps_ite
    | split
    | (with_reducible refine keeps_of_pair (by assumption) ?_)
    | (with_reducible refine keeps_of_opt (by assumption) ?_)
    | dsimp only)

theorem keeps_answerBank {u : State} (b : Nat) {s : State} (h : Keeps u s) :
 Keeps u (answerBank b s) := by
  unfold answerBank
  repeat' (first
    | with_reducible assumption
    | with_reducible apply keeps_setBankPort
    | with_reducible apply keeps_serveReq
    | with_reducible apply keeps_foldl
    | with_reducible apply keeps_foldl_snd
    | intro _
    | with_reducible apply keeps_ite
    | split
    | (with_reducible refine keeps_of_pair (by assumption) ?_)
    | (with_reducible refine keeps_of_opt (by assumption) ?_)
    | (with_reducible refine keeps_of_first (by assumption) ?_)
    | dsimp only)

theorem keeps_dropEngine {u : State} (e : Nat) {s : State} (h : Keeps u s) :
 Keeps u (dropEngine e s) := by
  unfold dropEngine
  repeat' (first
    | with_reducible assumption
    | (with_reducible refine keeps_setBanks_same _ rfl ?_)
    | (with_reducible refine keeps_setBanks_clear _ _ _ rfl ?_)
    | (with_reducible refine keeps_setBanks_filter _ _ rfl ?_)
    | intro _
    | with_reducible apply keeps_ite
    | split
    | (with_reducible refine keeps_of_pair (by assumption) ?_)
    | (with_reducible refine keeps_of_opt (by assumption) ?_)
    | dsimp only)

end Sys2Proof.Machine
end

