-- ==== Sys2Proof/Laws/KeepsRegion.lean ====
section
/-! SUPPORT. Every operation of Machine/Region.lean keeps (Laws/Keeps.lean). -/
set_option linter.unusedTactic false
set_option linter.unreachableTactic false
set_option linter.unusedVariables false

namespace Sys2Proof.Machine

open Sys2Proof

theorem keeps_invalidateStage {u : State} (r : Nat) {s : State} (h : Keeps u s) :
 Keeps u (invalidateStage r s) := by
  unfold invalidateStage
  repeat' (first
    | with_reducible assumption
    | with_reducible apply keeps_wrf
    | with_reducible apply keeps_mdRgn
    | intro _
    | with_reducible apply keeps_ite
    | split
    | (with_reducible refine keeps_of_pair (by assumption) ?_)
    | (with_reducible refine keeps_of_opt (by assumption) ?_)
    | dsimp only)

theorem keeps_loadRefused {u : State} (rs : List Nat) (started : Bool) (code frame : Nat) {s : State} (h : Keeps u s) :
 Keeps u (loadRefused rs started code frame s) := by
  unfold loadRefused
  repeat' (first
    | with_reducible assumption
    | with_reducible apply keeps_setFox
    | with_reducible apply keeps_wr
    | with_reducible apply keeps_wrf
    | with_reducible apply keeps_irq
    | with_reducible apply keeps_err
    | with_reducible apply keeps_invalidateStage
    | with_reducible apply keeps_foldl
    | with_reducible apply keeps_foldl_snd
    | intro _
    | with_reducible apply keeps_ite
    | split
    | (with_reducible refine keeps_of_pair (by assumption) ?_)
    | (with_reducible refine keeps_of_opt (by assumption) ?_)
    | dsimp only)

theorem keeps_streamRefused {u : State} (code frame : Nat) {s : State} (h : Keeps u s) :
 Keeps u (streamRefused code frame s) := by
  unfold streamRefused
  repeat' (first
    | with_reducible assumption
    | with_reducible apply keeps_setFox
    | with_reducible apply keeps_loadRefused
    | intro _
    | with_reducible apply keeps_ite
    | split
    | (with_reducible refine keeps_of_pair (by assumption) ?_)
    | (with_reducible refine keeps_of_opt (by assumption) ?_)
    | dsimp only)

theorem keeps_dropLoad {u : State} (r code : Nat) {s : State} (h : Keeps u s) :
 Keeps u (dropLoad r code s) := by
  unfold dropLoad
  repeat' (first
    | with_reducible assumption
    | with_reducible apply keeps_loadRefused
    | with_reducible apply keeps_streamRefused
    | intro _
    | with_reducible apply keeps_ite
    | split
    | (with_reducible refine keeps_of_pair (by assumption) ?_)
    | (with_reducible refine keeps_of_opt (by assumption) ?_)
    | dsimp only)

theorem keeps_answerBanks {u : State} (r : Nat) {s : State} (h : Keeps u s) :
 Keeps u (answerBanks r s) := by
  unfold answerBanks
  repeat' (first
    | with_reducible assumption
    | with_reducible apply keeps_answerBank
    | with_reducible apply keeps_foldl
    | with_reducible apply keeps_foldl_snd
    | intro _
    | with_reducible apply keeps_ite
    | split
    | (with_reducible refine keeps_of_pair (by assumption) ?_)
    | (with_reducible refine keeps_of_opt (by assumption) ?_)
    | dsimp only)

theorem keeps_clearTaps {u : State} (r : Nat) {s : State} (h : Keeps u s) :
 Keeps u (clearTaps r s) := by
  unfold clearTaps
  repeat' (first
    | with_reducible assumption
    | with_reducible apply keeps_setLogic
    | intro _
    | with_reducible apply keeps_ite
    | split
    | (with_reducible refine keeps_of_pair (by assumption) ?_)
    | (with_reducible refine keeps_of_opt (by assumption) ?_)
    | dsimp only)

theorem keeps_retireRegion {u : State} (r code : Nat) {s : State} (h : Keeps u s) :
 Keeps u (retireRegion r code s) := by
  unfold retireRegion
  repeat' (first
    | with_reducible assumption
    | with_reducible apply keeps_wr
    | with_reducible apply keeps_mdRgn
    | with_reducible apply keeps_retireLast
    | with_reducible apply keeps_abandonSlice
    | with_reducible apply keeps_fenceRegion
    | with_reducible apply keeps_invalidateStage
    | with_reducible apply keeps_dropLoad
    | with_reducible apply keeps_answerBanks
    | with_reducible apply keeps_clearTaps
    | intro _
    | with_reducible apply keeps_ite
    | split
    | (with_reducible refine keeps_of_pair (by assumption) ?_)
    | (with_reducible refine keeps_of_opt (by assumption) ?_)
    | dsimp only)

theorem keeps_regionFaulty {u : State} (r source code : Nat) {s : State} (h : Keeps u s) :
 Keeps u (regionFaulty r source code s) := by
  unfold regionFaulty
  repeat' (first
    | with_reducible assumption
    | with_reducible apply keeps_wr
    | with_reducible apply keeps_wrf
    | with_reducible apply keeps_setArr
    | with_reducible apply keeps_irq
    | with_reducible apply keeps_retireRegion
    | intro _
    | with_reducible apply keeps_ite
    | split
    | (with_reducible refine keeps_of_pair (by assumption) ?_)
    | (with_reducible refine keeps_of_opt (by assumption) ?_)
    | dsimp only)

end Sys2Proof.Machine
end

