-- ==== Sys2Proof/Laws/KeepsOperands.lean ====
section
/-! SUPPORT. Every operation of Machine/Operands.lean keeps (Laws/Keeps.lean). -/
set_option linter.unusedTactic false
set_option linter.unreachableTactic false
set_option linter.unusedVariables false

namespace Sys2Proof.Machine

open Sys2Proof

theorem keeps_setCell {u : State} (c : Nat) (x : Cell) {s : State} (h : Keeps u s) :
 Keeps u (setCell c x s) := by
  unfold setCell
  repeat' (first
    | with_reducible assumption
    | with_reducible apply keeps_setFab
    | intro _
    | with_reducible apply keeps_ite
    | split
    | (with_reducible refine keeps_of_pair (by assumption) ?_)
    | (with_reducible refine keeps_of_opt (by assumption) ?_)
    | dsimp only)

theorem keeps_mdCell {u : State} (c : Nat) (f : Cell → Cell) {s : State} (h : Keeps u s) :
 Keeps u (mdCell c f s) := by
  unfold mdCell
  repeat' (first
    | with_reducible assumption
    | with_reducible apply keeps_setCell
    | intro _
    | with_reducible apply keeps_ite
    | split
    | (with_reducible refine keeps_of_pair (by assumption) ?_)
    | (with_reducible refine keeps_of_opt (by assumption) ?_)
    | dsimp only)

theorem keeps_takeIn {u : State} (c k : Nat) {s : State} (h : Keeps u s) :
 Keeps u (takeIn c k s) := by
  unfold takeIn
  repeat' (first
    | with_reducible assumption
    | with_reducible apply keeps_tileEvent
    | with_reducible apply keeps_popBuffer
    | intro _
    | with_reducible apply keeps_ite
    | split
    | (with_reducible refine keeps_of_pair (by assumption) ?_)
    | (with_reducible refine keeps_of_opt (by assumption) ?_)
    | dsimp only)

theorem keeps_putOut {u : State} (c k : Nat) (w : TWord) {s : State} (h : Keeps u s) :
 Keeps u (putOut c k w s) := by
  unfold putOut
  repeat' (first
    | with_reducible assumption
    | with_reducible apply keeps_count
    | with_reducible apply keeps_tileEvent
    | with_reducible apply keeps_send
    | intro _
    | with_reducible apply keeps_ite
    | split
    | (with_reducible refine keeps_of_pair (by assumption) ?_)
    | (with_reducible refine keeps_of_opt (by assumption) ?_)
    | dsimp only)

theorem keeps_repairReg {u : State} (c n : Nat) {s : State} (h : Keeps u s) :
 Keeps u (repairReg c n s) := by
  unfold repairReg
  repeat' (first
    | with_reducible assumption
    | with_reducible apply keeps_setFab
    | with_reducible apply keeps_err
    | with_reducible apply keeps_regionFaulty
    | with_reducible apply keeps_setCell
    | intro _
    | with_reducible apply keeps_ite
    | split
    | (with_reducible refine keeps_of_pair (by assumption) ?_)
    | (with_reducible refine keeps_of_opt (by assumption) ?_)
    | dsimp only)

end Sys2Proof.Machine
end

