-- ==== Sys2Proof/Laws/KeepsMac.lean ====
section
/-! SUPPORT. Every operation of Machine/Mac.lean keeps (Laws/Keeps.lean). -/
set_option linter.unusedTactic false
set_option linter.unreachableTactic false
set_option linter.unusedVariables false

namespace Sys2Proof.Machine

open Sys2Proof

theorem keeps_setMac {u : State} (m : Nat) (x : Mac) {s : State} (h : Keeps u s) :
 Keeps u (setMac m x s) := by
  unfold setMac
  repeat' (first
    | with_reducible assumption
    | with_reducible apply keeps_setMacs
    | intro _
    | with_reducible apply keeps_ite
    | split
    | (with_reducible refine keeps_of_pair (by assumption) ?_)
    | (with_reducible refine keeps_of_opt (by assumption) ?_)
    | dsimp only)

theorem keeps_snoopLatch {u : State} (m k c n : Nat) (w : TWord) {s : State} (h : Keeps u s) :
 Keeps u (snoopLatch m k c n w s) := by
  unfold snoopLatch
  repeat' (first
    | with_reducible assumption
    | with_reducible apply keeps_setMac
    | intro _
    | with_reducible apply keeps_ite
    | split
    | (with_reducible refine keeps_of_pair (by assumption) ?_)
    | (with_reducible refine keeps_of_opt (by assumption) ?_)
    | dsimp only)

theorem keeps_trigger {u : State} (m : Nat) (tag : Tag) (after : Nat) {s : State} (h : Keeps u s) :
 Keeps u (trigger m tag after s) := by
  unfold trigger
  repeat' (first
    | with_reducible assumption
    | with_reducible apply keeps_setMac
    | intro _
    | with_reducible apply keeps_ite
    | split
    | (with_reducible refine keeps_of_pair (by assumption) ?_)
    | (with_reducible refine keeps_of_opt (by assumption) ?_)
    | dsimp only)

theorem keeps_snoopTrigger {u : State} (m c n : Nat) (w : TWord) (before : State) {s : State} (h : Keeps u s) :
 Keeps u (snoopTrigger m c n w before s) := by
  unfold snoopTrigger
  repeat' (first
    | with_reducible assumption
    | with_reducible apply keeps_trigger
    | intro _
    | with_reducible apply keeps_ite
    | split
    | (with_reducible refine keeps_of_pair (by assumption) ?_)
    | (with_reducible refine keeps_of_opt (by assumption) ?_)
    | dsimp only)

theorem keeps_snoopWrite {u : State} (c n : Nat) (w : TWord) {s : State} (h : Keeps u s) :
 Keeps u (snoopWrite c n w s) := by
  unfold snoopWrite
  repeat' (first
    | with_reducible assumption
    | with_reducible apply keeps_snoopLatch
    | with_reducible apply keeps_snoopTrigger
    | with_reducible apply keeps_foldl
    | with_reducible apply keeps_foldl_snd
    | intro _
    | with_reducible apply keeps_ite
    | split
    | (with_reducible refine keeps_of_pair (by assumption) ?_)
    | (with_reducible refine keeps_of_opt (by assumption) ?_)
    | dsimp only)

theorem keeps_macResult {u : State} (m : Nat) (w : TWord) (lost : Bool) {s : State} (h : Keeps u s) :
 Keeps u (macResult m w lost s) := by
  unfold macResult
  repeat' (first
    | with_reducible assumption
    | with_reducible apply keeps_count
    | with_reducible apply keeps_irq
    | with_reducible apply keeps_mdCell
    | intro _
    | with_reducible apply keeps_ite
    | split
    | (with_reducible refine keeps_of_pair (by assumption) ?_)
    | (with_reducible refine keeps_of_opt (by assumption) ?_)
    | dsimp only)

theorem keeps_macSticky {u : State} (off m : Nat) (raise : Bool) {s : State} (h : Keeps u s) :
 Keeps u (macSticky off m raise s) := by
  unfold macSticky
  repeat' (first
    | with_reducible assumption
    | with_reducible apply keeps_md
    | with_reducible apply keeps_irq
    | intro _
    | with_reducible apply keeps_ite
    | split
    | (with_reducible refine keeps_of_pair (by assumption) ?_)
    | (with_reducible refine keeps_of_opt (by assumption) ?_)
    | dsimp only)

theorem keeps_macFault {u : State} (m : Nat) (w : Word) (lost : Bool) {s : State} (h : Keeps u s) :
 Keeps u (macFault m w lost s) := by
  unfold macFault
  repeat' (first
    | with_reducible assumption
    | with_reducible apply keeps_setMac
    | with_reducible apply keeps_macResult
    | with_reducible apply keeps_macSticky
    | intro _
    | with_reducible apply keeps_ite
    | split
    | (with_reducible refine keeps_of_pair (by assumption) ?_)
    | (with_reducible refine keeps_of_opt (by assumption) ?_)
    | dsimp only)

theorem keeps_macOp {u : State} (m : Nat) (g : MacTrig) (lost : Bool) {s : State} (h : Keeps u s) :
 Keeps u (macOp m g lost s) := by
  unfold macOp
  repeat' (first
    | with_reducible assumption
    | with_reducible apply keeps_err
    | with_reducible apply keeps_setMac
    | with_reducible apply keeps_macResult
    | with_reducible apply keeps_macSticky
    | with_reducible apply keeps_macFault
    | intro _
    | with_reducible apply keeps_ite
    | split
    | (with_reducible refine keeps_of_pair (by assumption) ?_)
    | (with_reducible refine keeps_of_opt (by assumption) ?_)
    | dsimp only)

theorem keeps_triggerSucc {u : State} (m : Nat) (tag : Tag) {s : State} (h : Keeps u s) :
 Keeps u (triggerSucc m tag s) := by
  unfold triggerSucc
  repeat' (first
    | with_reducible assumption
    | with_reducible apply keeps_setMac
    | with_reducible apply keeps_trigger
    | intro _
    | with_reducible apply keeps_ite
    | split
    | (with_reducible refine keeps_of_pair (by assumption) ?_)
    | (with_reducible refine keeps_of_opt (by assumption) ?_)
    | dsimp only)

theorem keeps_macIssueOp {u : State} (m : Nat) (lost : Bool) {s : State} (h : Keeps u s) :
 Keeps u (macIssueOp m lost s) := by
  unfold macIssueOp
  repeat' (first
    | with_reducible assumption
    | with_reducible apply keeps_tileEvent
    | with_reducible apply keeps_setMac
    | with_reducible apply keeps_macOp
    | with_reducible apply keeps_triggerSucc
    | intro _
    | with_reducible apply keeps_ite
    | split
    | (with_reducible refine keeps_of_pair (by assumption) ?_)
    | (with_reducible refine keeps_of_opt (by assumption) ?_)
    | dsimp only)

theorem keeps_clearMacs {u : State} (r : Nat) {s : State} (h : Keeps u s) :
 Keeps u (clearMacs r s) := by
  unfold clearMacs
  repeat' (first
    | with_reducible assumption
    | with_reducible apply keeps_setMacs
    | intro _
    | with_reducible apply keeps_ite
    | split
    | (with_reducible refine keeps_of_pair (by assumption) ?_)
    | (with_reducible refine keeps_of_opt (by assumption) ?_)
    | dsimp only)

end Sys2Proof.Machine
end

