-- ==== Sys2Proof/Laws/KeepsCells.lean ====
section
/-! SUPPORT. Every operation of Machine/Cells.lean keeps (Laws/Keeps.lean). -/
set_option linter.unusedTactic false
set_option linter.unreachableTactic false
set_option linter.unusedVariables false

namespace Sys2Proof.Machine

open Sys2Proof

theorem keeps_checkOperand {u : State} (c : Nat) (used : Bool) (code : Nat) {s : State} (h : Keeps u s) :
 Keeps u (checkOperand c used code s) := by
  unfold checkOperand
  repeat' (first
    | with_reducible assumption
    | with_reducible apply keeps_repairReg
    | intro _
    | with_reducible apply keeps_ite
    | split
    | (with_reducible refine keeps_of_pair (by assumption) ?_)
    | (with_reducible refine keeps_of_opt (by assumption) ?_)
    | dsimp only)

theorem keeps_fetch {u : State} (c : Nat) (i : Insn) {s : State} (h : Keeps u s) : Keeps u (fetch c i s).st := by
  unfold fetch
  repeat' (first
    | with_reducible assumption
    | with_reducible apply keeps_mdCell
    | with_reducible apply keeps_takeIn
    | with_reducible apply keeps_tileEvent
    | with_reducible apply keeps_checkOperand
    | with_reducible apply keeps_ite
    | with_reducible apply keeps_ite_snd
    | (with_reducible refine keeps_of_pair (by assumption) ?_)
    | split
    | dsimp only)

theorem keeps_complete {u : State} (c : Nat) (i : Insn) (consumed : Option Tag) (taken : Option Bool) {s : State} (h : Keeps u s) :
 Keeps u (complete c i consumed taken s) := by
  unfold complete
  repeat' (first
    | with_reducible assumption
    | with_reducible apply keeps_tileEvent
    | with_reducible apply keeps_setCell
    | intro _
    | with_reducible apply keeps_ite
    | split
    | (with_reducible refine keeps_of_pair (by assumption) ?_)
    | (with_reducible refine keeps_of_opt (by assumption) ?_)
    | dsimp only)

theorem keeps_holdCell {u : State} (c : Nat) (x : Stall) {s : State} (h : Keeps u s) :
 Keeps u (holdCell c x s) := by
  unfold holdCell
  repeat' (first
    | with_reducible assumption
    | with_reducible apply keeps_mdCell
    | intro _
    | with_reducible apply keeps_ite
    | split
    | (with_reducible refine keeps_of_pair (by assumption) ?_)
    | (with_reducible refine keeps_of_opt (by assumption) ?_)
    | dsimp only)

theorem keeps_postWrite {u : State} (c : Nat) (w : TWord) {s : State} (h : Keeps u s) :
 Keeps u (postWrite c w s) := by
  unfold postWrite
  repeat' (first
    | with_reducible assumption
    | with_reducible apply keeps_mdCell
    | intro _
    | with_reducible apply keeps_ite
    | split
    | (with_reducible refine keeps_of_pair (by assumption) ?_)
    | (with_reducible refine keeps_of_opt (by assumption) ?_)
    | dsimp only)

theorem keeps_writeResult {u : State} (c : Nat) (i : Insn) (res : Option TWord) (consumed : Option Tag) (taken : Option Bool) {s : State} (h : Keeps u s) :
 Keeps u (writeResult c i res consumed taken s) := by
  unfold writeResult
  repeat' (first
    | with_reducible assumption
    | with_reducible apply keeps_mdCell
    | with_reducible apply keeps_putOut
    | with_reducible apply keeps_snoopWrite
    | with_reducible apply keeps_complete
    | with_reducible apply keeps_holdCell
    | with_reducible apply keeps_postWrite
    | intro _
    | with_reducible apply keeps_ite
    | split
    | (with_reducible refine keeps_of_pair (by assumption) ?_)
    | (with_reducible refine keeps_of_opt (by assumption) ?_)
    | dsimp only)

theorem keeps_finishFault {u : State} (c : Nat) (i : Insn) (f : Fetched) (w : TWord) (h : Keeps u f.st) :
 Keeps u (finishFault c i f w) := by
  unfold finishFault
  repeat' (first
    | with_reducible assumption
    | with_reducible apply keeps_mdCell
    | with_reducible apply keeps_complete
    | with_reducible apply keeps_writeResult
    | intro _
    | with_reducible apply keeps_ite
    | split
    | (with_reducible refine keeps_of_pair (by assumption) ?_)
    | (with_reducible refine keeps_of_opt (by assumption) ?_)
    | dsimp only)

theorem keeps_issueWait {u : State} (c : Nat) (i : Insn) (f : Fetched) (w : BankWait) (h : Keeps u f.st) :
 Keeps u (issueWait c i f w) := by
  unfold issueWait
  repeat' (first
    | with_reducible assumption
    | with_reducible apply keeps_mdCell
    | intro _
    | with_reducible apply keeps_ite
    | split
    | (with_reducible refine keeps_of_pair (by assumption) ?_)
    | (with_reducible refine keeps_of_opt (by assumption) ?_)
    | dsimp only)

theorem keeps_runCell {u : State} (c op : Nat) (fin : Insn → Fetched → TWord → State) {s : State} (hfin : ∀ i f w, Keeps u f.st → Keeps u (fin i f w)) (h : Keeps u s) :
 Keeps u (runCell c op fin s) := by
  unfold runCell
  repeat' (first
    | with_reducible assumption
    | with_reducible apply hfin
    | with_reducible apply keeps_fetch
    | with_reducible apply keeps_issueWait
    | with_reducible apply keeps_fetch
    | exact h
    | intro _
    | with_reducible apply keeps_ite
    | split
    | (with_reducible refine keeps_of_pair (by assumption) ?_)
    | (with_reducible refine keeps_of_opt (by assumption) ?_)
    | dsimp only)

theorem keeps_finAlu {u : State} (c op : Nat) (alu : Word → Word → Cell → Word × Cell) (i : Insn) (f : Fetched) (w0 : TWord) (h : Keeps u f.st) :
 Keeps u (finAlu c op alu i f w0) := by
  unfold finAlu
  repeat' (first
    | with_reducible assumption
    | with_reducible apply keeps_setCell
    | with_reducible apply keeps_writeResult
    | with_reducible apply keeps_finishFault
    | intro _
    | with_reducible apply keeps_ite
    | split
    | (with_reducible refine keeps_of_pair (by assumption) ?_)
    | (with_reducible refine keeps_of_opt (by assumption) ?_)
    | dsimp only)

theorem keeps_cellAlu {u : State} (c op : Nat) (alu : Word → Word → Cell → Word × Cell) {s : State} (h : Keeps u s) :
 Keeps u (cellAlu c op alu s) := by
  unfold cellAlu
  repeat' (first
    | with_reducible assumption
    | with_reducible apply keeps_runCell
    | with_reducible apply keeps_finAlu
    | intro _
    | with_reducible apply keeps_ite
    | split
    | (with_reducible refine keeps_of_pair (by assumption) ?_)
    | (with_reducible refine keeps_of_opt (by assumption) ?_)
    | dsimp only)

theorem keeps_finSel {u : State} (c : Nat) (i : Insn) (f : Fetched) (w0 : TWord) (h : Keeps u f.st) :
 Keeps u (finSel c i f w0) := by
  unfold finSel
  repeat' (first
    | with_reducible assumption
    | with_reducible apply keeps_setCell
    | with_reducible apply keeps_writeResult
    | with_reducible apply keeps_finishFault
    | intro _
    | with_reducible apply keeps_ite
    | split
    | (with_reducible refine keeps_of_pair (by assumption) ?_)
    | (with_reducible refine keeps_of_opt (by assumption) ?_)
    | dsimp only)

theorem keeps_cellSel {u : State} (c : Nat) {s : State} (h : Keeps u s) :
 Keeps u (cellSel c s) := by
  unfold cellSel
  repeat' (first
    | with_reducible assumption
    | with_reducible apply keeps_runCell
    | with_reducible apply keeps_finSel
    | intro _
    | with_reducible apply keeps_ite
    | split
    | (with_reducible refine keeps_of_pair (by assumption) ?_)
    | (with_reducible refine keeps_of_opt (by assumption) ?_)
    | dsimp only)

theorem keeps_cellDbnz {u : State} (c : Nat) {s : State} (h : Keeps u s) :
 Keeps u (cellDbnz c s) := by
  unfold cellDbnz
  repeat' (first
    | with_reducible assumption
    | with_reducible apply keeps_setCell
    | with_reducible apply keeps_writeResult
    | intro _
    | with_reducible apply keeps_ite
    | split
    | (with_reducible refine keeps_of_pair (by assumption) ?_)
    | (with_reducible refine keeps_of_opt (by assumption) ?_)
    | dsimp only)

theorem keeps_finEmit {u : State} (c : Nat) (i : Insn) (f : Fetched) (w0 : TWord) (h : Keeps u f.st) :
 Keeps u (finEmit c i f w0) := by
  unfold finEmit
  repeat' (first
    | with_reducible assumption
    | with_reducible apply keeps_mdCell
    | with_reducible apply keeps_writeResult
    | with_reducible apply keeps_finishFault
    | intro _
    | with_reducible apply keeps_ite
    | split
    | (with_reducible refine keeps_of_pair (by assumption) ?_)
    | (with_reducible refine keeps_of_opt (by assumption) ?_)
    | dsimp only)

theorem keeps_cellEmit {u : State} (c : Nat) {s : State} (h : Keeps u s) :
 Keeps u (cellEmit c s) := by
  unfold cellEmit
  repeat' (first
    | with_reducible assumption
    | with_reducible apply keeps_runCell
    | with_reducible apply keeps_finEmit
    | intro _
    | with_reducible apply keeps_ite
    | split
    | (with_reducible refine keeps_of_pair (by assumption) ?_)
    | (with_reducible refine keeps_of_opt (by assumption) ?_)
    | dsimp only)

theorem keeps_afterAccess {u : State} (c : Nat) (i : Insn) (f : Fetched) (h : Keeps u f.st) :
 Keeps u (afterAccess c i f) := by
  unfold afterAccess
  repeat' (first
    | with_reducible assumption
    | with_reducible apply keeps_mdCell
    | intro _
    | with_reducible apply keeps_ite
    | split
    | (with_reducible refine keeps_of_pair (by assumption) ?_)
    | (with_reducible refine keeps_of_opt (by assumption) ?_)
    | dsimp only)

theorem keeps_finLd {u : State} (c : Nat) (i : Insn) (f : Fetched) (w : TWord) (h : Keeps u f.st) :
 Keeps u (finLd c i f w) := by
  unfold finLd
  repeat' (first
    | with_reducible assumption
    | with_reducible apply keeps_mdCell
    | with_reducible apply keeps_writeResult
    | with_reducible apply keeps_finishFault
    | with_reducible apply keeps_afterAccess
    | intro _
    | with_reducible apply keeps_ite
    | split
    | (with_reducible refine keeps_of_pair (by assumption) ?_)
    | (with_reducible refine keeps_of_opt (by assumption) ?_)
    | dsimp only)

theorem keeps_cellLd {u : State} (c : Nat) {s : State} (h : Keeps u s) :
 Keeps u (cellLd c s) := by
  unfold cellLd
  repeat' (first
    | with_reducible assumption
    | with_reducible apply keeps_runCell
    | with_reducible apply keeps_finLd
    | intro _
    | with_reducible apply keeps_ite
    | split
    | (with_reducible refine keeps_of_pair (by assumption) ?_)
    | (with_reducible refine keeps_of_opt (by assumption) ?_)
    | dsimp only)

theorem keeps_finSt {u : State} (c : Nat) (i : Insn) (f : Fetched) (w0 : TWord) (h : Keeps u f.st) :
 Keeps u (finSt c i f w0) := by
  unfold finSt
  repeat' (first
    | with_reducible assumption
    | with_reducible apply keeps_writeResult
    | with_reducible apply keeps_finishFault
    | with_reducible apply keeps_afterAccess
    | intro _
    | with_reducible apply keeps_ite
    | split
    | (with_reducible refine keeps_of_pair (by assumption) ?_)
    | (with_reducible refine keeps_of_opt (by assumption) ?_)
    | dsimp only)

theorem keeps_cellSt {u : State} (c : Nat) {s : State} (h : Keeps u s) :
 Keeps u (cellSt c s) := by
  unfold cellSt
  repeat' (first
    | with_reducible assumption
    | with_reducible apply keeps_runCell
    | with_reducible apply keeps_finSt
    | intro _
    | with_reducible apply keeps_ite
    | split
    | (with_reducible refine keeps_of_pair (by assumption) ?_)
    | (with_reducible refine keeps_of_opt (by assumption) ?_)
    | dsimp only)

theorem keeps_cellWait {u : State} (c : Nat) {s : State} (h : Keeps u s) :
 Keeps u (cellWait c s) := by
  unfold cellWait
  repeat' (first
    | with_reducible assumption
    | with_reducible apply keeps_writeResult
    | intro _
    | with_reducible apply keeps_ite
    | split
    | (with_reducible refine keeps_of_pair (by assumption) ?_)
    | (with_reducible refine keeps_of_opt (by assumption) ?_)
    | dsimp only)

theorem keeps_haltCell {u : State} (c code : Nat) {s : State} (h : Keeps u s) :
 Keeps u (haltCell c code s) := by
  unfold haltCell
  repeat' (first
    | with_reducible assumption
    | with_reducible apply keeps_wr
    | with_reducible apply keeps_irq
    | with_reducible apply keeps_mdCell
    | intro _
    | with_reducible apply keeps_ite
    | split
    | (with_reducible refine keeps_of_pair (by assumption) ?_)
    | (with_reducible refine keeps_of_opt (by assumption) ?_)
    | dsimp only)

theorem keeps_cellHalt {u : State} (c : Nat) {s : State} (h : Keeps u s) :
 Keeps u (cellHalt c s) := by
  unfold cellHalt
  repeat' (first
    | with_reducible assumption
    | with_reducible apply keeps_haltCell
    | intro _
    | with_reducible apply keeps_ite
    | split
    | (with_reducible refine keeps_of_pair (by assumption) ?_)
    | (with_reducible refine keeps_of_opt (by assumption) ?_)
    | dsimp only)

theorem keeps_cellReserved {u : State} (c : Nat) {s : State} (h : Keeps u s) :
 Keeps u (cellReserved c s) := by
  unfold cellReserved
  repeat' (first
    | with_reducible assumption
    | with_reducible apply keeps_err
    | with_reducible apply keeps_haltCell
    | intro _
    | with_reducible apply keeps_ite
    | split
    | (with_reducible refine keeps_of_pair (by assumption) ?_)
    | (with_reducible refine keeps_of_opt (by assumption) ?_)
    | dsimp only)

theorem keeps_acceptOutput {u : State} (c : Nat) {s : State} (h : Keeps u s) :
 Keeps u (acceptOutput c s) := by
  unfold acceptOutput
  repeat' (first
    | with_reducible assumption
    | with_reducible apply keeps_putOut
    | with_reducible apply keeps_complete
    | with_reducible apply keeps_postWrite
    | intro _
    | with_reducible apply keeps_ite
    | split
    | (with_reducible refine keeps_of_pair (by assumption) ?_)
    | (with_reducible refine keeps_of_opt (by assumption) ?_)
    | dsimp only)

theorem keeps_rejectParam {u : State} (r : Nat) {s : State} (h : Keeps u s) :
 Keeps u (rejectParam r s) := by
  unfold rejectParam
  repeat' (first
    | with_reducible assumption
    | with_reducible apply keeps_count
    | with_reducible apply keeps_irq
    | intro _
    | with_reducible apply keeps_ite
    | split
    | (with_reducible refine keeps_of_pair (by assumption) ?_)
    | (with_reducible refine keeps_of_opt (by assumption) ?_)
    | dsimp only)

theorem keeps_takeParam {u : State} (p : Nat) {s : State} (h : Keeps u s) :
 Keeps u (takeParam p s) := by
  unfold takeParam
  repeat' (first
    | with_reducible assumption
    | with_reducible apply keeps_setFab
    | with_reducible apply keeps_malformed
    | with_reducible apply keeps_dropMsg
    | with_reducible apply keeps_rejectParam
    | with_reducible apply keeps_foldl
    | with_reducible apply keeps_foldl_snd
    | intro _
    | with_reducible apply keeps_ite
    | split
    | (with_reducible refine keeps_of_pair (by assumption) ?_)
    | (with_reducible refine keeps_of_opt (by assumption) ?_)
    | dsimp only)

theorem keeps_makeLive {u : State} (k : Nat) (v : BitVec 16) {s : State} (h : Keeps u s) :
 Keeps u (makeLive k v s) := by
  unfold makeLive
  repeat' (first
    | with_reducible assumption
    | with_reducible apply keeps_setFab
    | intro _
    | with_reducible apply keeps_ite
    | split
    | (with_reducible refine keeps_of_pair (by assumption) ?_)
    | (with_reducible refine keeps_of_opt (by assumption) ?_)
    | dsimp only)

theorem keeps_applyCommit {u : State} (r : Nat) (vs : SMap (BitVec 16)) {s : State} (h : Keeps u s) :
 Keeps u (applyCommit r vs s) := by
  unfold applyCommit
  repeat' (first
    | with_reducible assumption
    | with_reducible apply keeps_md
    | with_reducible apply keeps_makeLive
    | with_reducible apply keeps_foldr
    | intro _
    | with_reducible apply keeps_ite
    | split
    | (with_reducible refine keeps_of_pair (by assumption) ?_)
    | (with_reducible refine keeps_of_opt (by assumption) ?_)
    | dsimp only)

theorem keeps_takeCommit {u : State} (p : Nat) {s : State} (h : Keeps u s) :
 Keeps u (takeCommit p s) := by
  unfold takeCommit
  repeat' (first
    | with_reducible assumption
    | with_reducible apply keeps_setFab
    | with_reducible apply keeps_malformed
    | with_reducible apply keeps_dropMsg
    | with_reducible apply keeps_applyCommit
    | intro _
    | with_reducible apply keeps_ite
    | split
    | (with_reducible refine keeps_of_pair (by assumption) ?_)
    | (with_reducible refine keeps_of_opt (by assumption) ?_)
    | dsimp only)

theorem keeps_applyHeld {u : State} (p : Nat) {s : State} (h : Keeps u s) :
 Keeps u (applyHeld p s) := by
  unfold applyHeld
  repeat' (first
    | with_reducible assumption
    | with_reducible apply keeps_setFab
    | with_reducible apply keeps_applyCommit
    | intro _
    | with_reducible apply keeps_ite
    | split
    | (with_reducible refine keeps_of_pair (by assumption) ?_)
    | (with_reducible refine keeps_of_opt (by assumption) ?_)
    | dsimp only)

theorem keeps_latchParity {u : State} (c e : Nat) (both : Bool) {s : State} (h : Keeps u s) :
 Keeps u (latchParity c e both s) := by
  unfold latchParity
  repeat' (first
    | with_reducible assumption
    | with_reducible apply keeps_setFab
    | with_reducible apply keeps_md
    | with_reducible apply keeps_irq
    | with_reducible apply keeps_errTransient
    | with_reducible apply keeps_err
    | with_reducible apply keeps_tileEvent
    | intro _
    | with_reducible apply keeps_ite
    | split
    | (with_reducible refine keeps_of_pair (by assumption) ?_)
    | (with_reducible refine keeps_of_opt (by assumption) ?_)
    | dsimp only)

theorem keeps_gsrCells {u : State} (r : Nat) (keep : Nat → Nat → Bool) {s : State} (h : Keeps u s) :
 Keeps u (gsrCells r keep s) := by
  unfold gsrCells
  repeat' (first
    | with_reducible assumption
    | with_reducible apply keeps_setFab
    | with_reducible apply keeps_setCell
    | with_reducible apply keeps_clearMacs
    | with_reducible apply keeps_foldl
    | with_reducible apply keeps_foldl_snd
    | intro _
    | with_reducible apply keeps_ite
    | split
    | (with_reducible refine keeps_of_pair (by assumption) ?_)
    | (with_reducible refine keeps_of_opt (by assumption) ?_)
    | dsimp only)

theorem keeps_resetImmediates {u : State} (r : Nat) {s : State} (h : Keeps u s) :
 Keeps u (resetImmediates r s) := by
  unfold resetImmediates
  repeat' (first
    | with_reducible assumption
    | with_reducible apply keeps_setFab
    | with_reducible apply keeps_wr
    | intro _
    | with_reducible apply keeps_ite
    | split
    | (with_reducible refine keeps_of_pair (by assumption) ?_)
    | (with_reducible refine keeps_of_opt (by assumption) ?_)
    | dsimp only)

theorem keeps_execPass {u : State} (c : CellId) {s : State} (h : Keeps u s) :
 KeepsOut u (execPass c s) := by
  unfold execPass
  repeat' (first
    | with_reducible assumption
    | with_reducible apply keeps_cellAlu
    | with_reducible apply keepsOut_next
    | intro _
    | with_reducible apply keepsOut_ite
    | with_reducible apply keeps_ite
    | split
    | (with_reducible refine keeps_of_pair (by assumption) ?_)
    | (with_reducible refine keeps_of_opt (by assumption) ?_)
    | dsimp only)

theorem keeps_execAdd {u : State} (c : CellId) {s : State} (h : Keeps u s) :
 KeepsOut u (execAdd c s) := by
  unfold execAdd
  repeat' (first
    | with_reducible assumption
    | with_reducible apply keeps_cellAlu
    | with_reducible apply keepsOut_next
    | intro _
    | with_reducible apply keepsOut_ite
    | with_reducible apply keeps_ite
    | split
    | (with_reducible refine keeps_of_pair (by assumption) ?_)
    | (with_reducible refine keeps_of_opt (by assumption) ?_)
    | dsimp only)

theorem keeps_execAdc {u : State} (c : CellId) {s : State} (h : Keeps u s) :
 KeepsOut u (execAdc c s) := by
  unfold execAdc
  repeat' (first
    | with_reducible assumption
    | with_reducible apply keeps_cellAlu
    | with_reducible apply keepsOut_next
    | intro _
    | with_reducible apply keepsOut_ite
    | with_reducible apply keeps_ite
    | split
    | (with_reducible refine keeps_of_pair (by assumption) ?_)
    | (with_reducible refine keeps_of_opt (by assumption) ?_)
    | dsimp only)

theorem keeps_execSub {u : State} (c : CellId) {s : State} (h : Keeps u s) :
 KeepsOut u (execSub c s) := by
  unfold execSub
  repeat' (first
    | with_reducible assumption
    | with_reducible apply keeps_cellAlu
    | with_reducible apply keepsOut_next
    | intro _
    | with_reducible apply keepsOut_ite
    | with_reducible apply keeps_ite
    | split
    | (with_reducible refine keeps_of_pair (by assumption) ?_)
    | (with_reducible refine keeps_of_opt (by assumption) ?_)
    | dsimp only)

theorem keeps_execSbc {u : State} (c : CellId) {s : State} (h : Keeps u s) :
 KeepsOut u (execSbc c s) := by
  unfold execSbc
  repeat' (first
    | with_reducible assumption
    | with_reducible apply keeps_cellAlu
    | with_reducible apply keepsOut_next
    | intro _
    | with_reducible apply keepsOut_ite
    | with_reducible apply keeps_ite
    | split
    | (with_reducible refine keeps_of_pair (by assumption) ?_)
    | (with_reducible refine keeps_of_opt (by assumption) ?_)
    | dsimp only)

theorem keeps_execAddss {u : State} (c : CellId) {s : State} (h : Keeps u s) :
 KeepsOut u (execAddss c s) := by
  unfold execAddss
  repeat' (first
    | with_reducible assumption
    | with_reducible apply keeps_cellAlu
    | with_reducible apply keepsOut_next
    | intro _
    | with_reducible apply keepsOut_ite
    | with_reducible apply keeps_ite
    | split
    | (with_reducible refine keeps_of_pair (by assumption) ?_)
    | (with_reducible refine keeps_of_opt (by assumption) ?_)
    | dsimp only)

theorem keeps_execSubss {u : State} (c : CellId) {s : State} (h : Keeps u s) :
 KeepsOut u (execSubss c s) := by
  unfold execSubss
  repeat' (first
    | with_reducible assumption
    | with_reducible apply keeps_cellAlu
    | with_reducible apply keepsOut_next
    | intro _
    | with_reducible apply keepsOut_ite
    | with_reducible apply keeps_ite
    | split
    | (with_reducible refine keeps_of_pair (by assumption) ?_)
    | (with_reducible refine keeps_of_opt (by assumption) ?_)
    | dsimp only)

theorem keeps_execAddus {u : State} (c : CellId) {s : State} (h : Keeps u s) :
 KeepsOut u (execAddus c s) := by
  unfold execAddus
  repeat' (first
    | with_reducible assumption
    | with_reducible apply keeps_cellAlu
    | with_reducible apply keepsOut_next
    | intro _
    | with_reducible apply keepsOut_ite
    | with_reducible apply keeps_ite
    | split
    | (with_reducible refine keeps_of_pair (by assumption) ?_)
    | (with_reducible refine keeps_of_opt (by assumption) ?_)
    | dsimp only)

theorem keeps_execSubus {u : State} (c : CellId) {s : State} (h : Keeps u s) :
 KeepsOut u (execSubus c s) := by
  unfold execSubus
  repeat' (first
    | with_reducible assumption
    | with_reducible apply keeps_cellAlu
    | with_reducible apply keepsOut_next
    | intro _
    | with_reducible apply keepsOut_ite
    | with_reducible apply keeps_ite
    | split
    | (with_reducible refine keeps_of_pair (by assumption) ?_)
    | (with_reducible refine keeps_of_opt (by assumption) ?_)
    | dsimp only)

theorem keeps_execMuls {u : State} (c : CellId) {s : State} (h : Keeps u s) :
 KeepsOut u (execMuls c s) := by
  unfold execMuls
  repeat' (first
    | with_reducible assumption
    | with_reducible apply keeps_cellAlu
    | with_reducible apply keepsOut_next
    | intro _
    | with_reducible apply keepsOut_ite
    | with_reducible apply keeps_ite
    | split
    | (with_reducible refine keeps_of_pair (by assumption) ?_)
    | (with_reducible refine keeps_of_opt (by assumption) ?_)
    | dsimp only)

theorem keeps_execMulu {u : State} (c : CellId) {s : State} (h : Keeps u s) :
 KeepsOut u (execMulu c s) := by
  unfold execMulu
  repeat' (first
    | with_reducible assumption
    | with_reducible apply keeps_cellAlu
    | with_reducible apply keepsOut_next
    | intro _
    | with_reducible apply keepsOut_ite
    | with_reducible apply keeps_ite
    | split
    | (with_reducible refine keeps_of_pair (by assumption) ?_)
    | (with_reducible refine keeps_of_opt (by assumption) ?_)
    | dsimp only)

theorem keeps_execMulsu {u : State} (c : CellId) {s : State} (h : Keeps u s) :
 KeepsOut u (execMulsu c s) := by
  unfold execMulsu
  repeat' (first
    | with_reducible assumption
    | with_reducible apply keeps_cellAlu
    | with_reducible apply keepsOut_next
    | intro _
    | with_reducible apply keepsOut_ite
    | with_reducible apply keeps_ite
    | split
    | (with_reducible refine keeps_of_pair (by assumption) ?_)
    | (with_reducible refine keeps_of_opt (by assumption) ?_)
    | dsimp only)

theorem keeps_execAnd {u : State} (c : CellId) {s : State} (h : Keeps u s) :
 KeepsOut u (execAnd c s) := by
  unfold execAnd
  repeat' (first
    | with_reducible assumption
    | with_reducible apply keeps_cellAlu
    | with_reducible apply keepsOut_next
    | intro _
    | with_reducible apply keepsOut_ite
    | with_reducible apply keeps_ite
    | split
    | (with_reducible refine keeps_of_pair (by assumption) ?_)
    | (with_reducible refine keeps_of_opt (by assumption) ?_)
    | dsimp only)

theorem keeps_execOr {u : State} (c : CellId) {s : State} (h : Keeps u s) :
 KeepsOut u (execOr c s) := by
  unfold execOr
  repeat' (first
    | with_reducible assumption
    | with_reducible apply keeps_cellAlu
    | with_reducible apply keepsOut_next
    | intro _
    | with_reducible apply keepsOut_ite
    | with_reducible apply keeps_ite
    | split
    | (with_reducible refine keeps_of_pair (by assumption) ?_)
    | (with_reducible refine keeps_of_opt (by assumption) ?_)
    | dsimp only)

theorem keeps_execXor {u : State} (c : CellId) {s : State} (h : Keeps u s) :
 KeepsOut u (execXor c s) := by
  unfold execXor
  repeat' (first
    | with_reducible assumption
    | with_reducible apply keeps_cellAlu
    | with_reducible apply keepsOut_next
    | intro _
    | with_reducible apply keepsOut_ite
    | with_reducible apply keeps_ite
    | split
    | (with_reducible refine keeps_of_pair (by assumption) ?_)
    | (with_reducible refine keeps_of_opt (by assumption) ?_)
    | dsimp only)

theorem keeps_execAndn {u : State} (c : CellId) {s : State} (h : Keeps u s) :
 KeepsOut u (execAndn c s) := by
  unfold execAndn
  repeat' (first
    | with_reducible assumption
    | with_reducible apply keeps_cellAlu
    | with_reducible apply keepsOut_next
    | intro _
    | with_reducible apply keepsOut_ite
    | with_reducible apply keeps_ite
    | split
    | (with_reducible refine keeps_of_pair (by assumption) ?_)
    | (with_reducible refine keeps_of_opt (by assumption) ?_)
    | dsimp only)

theorem keeps_execShl {u : State} (c : CellId) {s : State} (h : Keeps u s) :
 KeepsOut u (execShl c s) := by
  unfold execShl
  repeat' (first
    | with_reducible assumption
    | with_reducible apply keeps_cellAlu
    | with_reducible apply keepsOut_next
    | intro _
    | with_reducible apply keepsOut_ite
    | with_reducible apply keeps_ite
    | split
    | (with_reducible refine keeps_of_pair (by assumption) ?_)
    | (with_reducible refine keeps_of_opt (by assumption) ?_)
    | dsimp only)

theorem keeps_execShr {u : State} (c : CellId) {s : State} (h : Keeps u s) :
 KeepsOut u (execShr c s) := by
  unfold execShr
  repeat' (first
    | with_reducible assumption
    | with_reducible apply keeps_cellAlu
    | with_reducible apply keepsOut_next
    | intro _
    | with_reducible apply keepsOut_ite
    | with_reducible apply keeps_ite
    | split
    | (with_reducible refine keeps_of_pair (by assumption) ?_)
    | (with_reducible refine keeps_of_opt (by assumption) ?_)
    | dsimp only)

theorem keeps_execSar {u : State} (c : CellId) {s : State} (h : Keeps u s) :
 KeepsOut u (execSar c s) := by
  unfold execSar
  repeat' (first
    | with_reducible assumption
    | with_reducible apply keeps_cellAlu
    | with_reducible apply keepsOut_next
    | intro _
    | with_reducible apply keepsOut_ite
    | with_reducible apply keeps_ite
    | split
    | (with_reducible refine keeps_of_pair (by assumption) ?_)
    | (with_reducible refine keeps_of_opt (by assumption) ?_)
    | dsimp only)

theorem keeps_execRol {u : State} (c : CellId) {s : State} (h : Keeps u s) :
 KeepsOut u (execRol c s) := by
  unfold execRol
  repeat' (first
    | with_reducible assumption
    | with_reducible apply keeps_cellAlu
    | with_reducible apply keepsOut_next
    | intro _
    | with_reducible apply keepsOut_ite
    | with_reducible apply keeps_ite
    | split
    | (with_reducible refine keeps_of_pair (by assumption) ?_)
    | (with_reducible refine keeps_of_opt (by assumption) ?_)
    | dsimp only)

theorem keeps_execRor {u : State} (c : CellId) {s : State} (h : Keeps u s) :
 KeepsOut u (execRor c s) := by
  unfold execRor
  repeat' (first
    | with_reducible assumption
    | with_reducible apply keeps_cellAlu
    | with_reducible apply keepsOut_next
    | intro _
    | with_reducible apply keepsOut_ite
    | with_reducible apply keeps_ite
    | split
    | (with_reducible refine keeps_of_pair (by assumption) ?_)
    | (with_reducible refine keeps_of_opt (by assumption) ?_)
    | dsimp only)

theorem keeps_execMin {u : State} (c : CellId) {s : State} (h : Keeps u s) :
 KeepsOut u (execMin c s) := by
  unfold execMin
  repeat' (first
    | with_reducible assumption
    | with_reducible apply keeps_cellAlu
    | with_reducible apply keepsOut_next
    | intro _
    | with_reducible apply keepsOut_ite
    | with_reducible apply keeps_ite
    | split
    | (with_reducible refine keeps_of_pair (by assumption) ?_)
    | (with_reducible refine keeps_of_opt (by assumption) ?_)
    | dsimp only)

theorem keeps_execMax {u : State} (c : CellId) {s : State} (h : Keeps u s) :
 KeepsOut u (execMax c s) := by
  unfold execMax
  repeat' (first
    | with_reducible assumption
    | with_reducible apply keeps_cellAlu
    | with_reducible apply keepsOut_next
    | intro _
    | with_reducible apply keepsOut_ite
    | with_reducible apply keeps_ite
    | split
    | (with_reducible refine keeps_of_pair (by assumption) ?_)
    | (with_reducible refine keeps_of_opt (by assumption) ?_)
    | dsimp only)

theorem keeps_execMinu {u : State} (c : CellId) {s : State} (h : Keeps u s) :
 KeepsOut u (execMinu c s) := by
  unfold execMinu
  repeat' (first
    | with_reducible assumption
    | with_reducible apply keeps_cellAlu
    | with_reducible apply keepsOut_next
    | intro _
    | with_reducible apply keepsOut_ite
    | with_reducible apply keeps_ite
    | split
    | (with_reducible refine keeps_of_pair (by assumption) ?_)
    | (with_reducible refine keeps_of_opt (by assumption) ?_)
    | dsimp only)

theorem keeps_execMaxu {u : State} (c : CellId) {s : State} (h : Keeps u s) :
 KeepsOut u (execMaxu c s) := by
  unfold execMaxu
  repeat' (first
    | with_reducible assumption
    | with_reducible apply keeps_cellAlu
    | with_reducible apply keepsOut_next
    | intro _
    | with_reducible apply keepsOut_ite
    | with_reducible apply keeps_ite
    | split
    | (with_reducible refine keeps_of_pair (by assumption) ?_)
    | (with_reducible refine keeps_of_opt (by assumption) ?_)
    | dsimp only)

theorem keeps_execAbs {u : State} (c : CellId) {s : State} (h : Keeps u s) :
 KeepsOut u (execAbs c s) := by
  unfold execAbs
  repeat' (first
    | with_reducible assumption
    | with_reducible apply keeps_cellAlu
    | with_reducible apply keepsOut_next
    | intro _
    | with_reducible apply keepsOut_ite
    | with_reducible apply keeps_ite
    | split
    | (with_reducible refine keeps_of_pair (by assumption) ?_)
    | (with_reducible refine keeps_of_opt (by assumption) ?_)
    | dsimp only)

theorem keeps_execCmp {u : State} (c : CellId) {s : State} (h : Keeps u s) :
 KeepsOut u (execCmp c s) := by
  unfold execCmp
  repeat' (first
    | with_reducible assumption
    | with_reducible apply keeps_cellAlu
    | with_reducible apply keepsOut_next
    | intro _
    | with_reducible apply keepsOut_ite
    | with_reducible apply keeps_ite
    | split
    | (with_reducible refine keeps_of_pair (by assumption) ?_)
    | (with_reducible refine keeps_of_opt (by assumption) ?_)
    | dsimp only)

theorem keeps_execTst {u : State} (c : CellId) {s : State} (h : Keeps u s) :
 KeepsOut u (execTst c s) := by
  unfold execTst
  repeat' (first
    | with_reducible assumption
    | with_reducible apply keeps_cellAlu
    | with_reducible apply keepsOut_next
    | intro _
    | with_reducible apply keepsOut_ite
    | with_reducible apply keeps_ite
    | split
    | (with_reducible refine keeps_of_pair (by assumption) ?_)
    | (with_reducible refine keeps_of_opt (by assumption) ?_)
    | dsimp only)

theorem keeps_execSel {u : State} (c : CellId) {s : State} (h : Keeps u s) :
 KeepsOut u (execSel c s) := by
  unfold execSel
  repeat' (first
    | with_reducible assumption
    | with_reducible apply keeps_cellSel
    | with_reducible apply keepsOut_next
    | intro _
    | with_reducible apply keepsOut_ite
    | with_reducible apply keeps_ite
    | split
    | (with_reducible refine keeps_of_pair (by assumption) ?_)
    | (with_reducible refine keeps_of_opt (by assumption) ?_)
    | dsimp only)

theorem keeps_execClz {u : State} (c : CellId) {s : State} (h : Keeps u s) :
 KeepsOut u (execClz c s) := by
  unfold execClz
  repeat' (first
    | with_reducible assumption
    | with_reducible apply keeps_cellAlu
    | with_reducible apply keepsOut_next
    | intro _
    | with_reducible apply keepsOut_ite
    | with_reducible apply keeps_ite
    | split
    | (with_reducible refine keeps_of_pair (by assumption) ?_)
    | (with_reducible refine keeps_of_opt (by assumption) ?_)
    | dsimp only)

theorem keeps_execLcnt {u : State} (c : CellId) {s : State} (h : Keeps u s) :
 KeepsOut u (execLcnt c s) := by
  unfold execLcnt
  repeat' (first
    | with_reducible assumption
    | with_reducible apply keeps_cellAlu
    | with_reducible apply keepsOut_next
    | intro _
    | with_reducible apply keepsOut_ite
    | with_reducible apply keeps_ite
    | split
    | (with_reducible refine keeps_of_pair (by assumption) ?_)
    | (with_reducible refine keeps_of_opt (by assumption) ?_)
    | dsimp only)

theorem keeps_execDbnz {u : State} (c : CellId) {s : State} (h : Keeps u s) :
 KeepsOut u (execDbnz c s) := by
  unfold execDbnz
  repeat' (first
    | with_reducible assumption
    | with_reducible apply keeps_cellDbnz
    | with_reducible apply keepsOut_next
    | intro _
    | with_reducible apply keepsOut_ite
    | with_reducible apply keeps_ite
    | split
    | (with_reducible refine keeps_of_pair (by assumption) ?_)
    | (with_reducible refine keeps_of_opt (by assumption) ?_)
    | dsimp only)

theorem keeps_execLd {u : State} (c : CellId) {s : State} (h : Keeps u s) :
 KeepsOut u (execLd c s) := by
  unfold execLd
  repeat' (first
    | with_reducible assumption
    | with_reducible apply keeps_cellLd
    | with_reducible apply keepsOut_next
    | intro _
    | with_reducible apply keepsOut_ite
    | with_reducible apply keeps_ite
    | split
    | (with_reducible refine keeps_of_pair (by assumption) ?_)
    | (with_reducible refine keeps_of_opt (by assumption) ?_)
    | dsimp only)

theorem keeps_execSt {u : State} (c : CellId) {s : State} (h : Keeps u s) :
 KeepsOut u (execSt c s) := by
  unfold execSt
  repeat' (first
    | with_reducible assumption
    | with_reducible apply keeps_cellSt
    | with_reducible apply keepsOut_next
    | intro _
    | with_reducible apply keepsOut_ite
    | with_reducible apply keeps_ite
    | split
    | (with_reducible refine keeps_of_pair (by assumption) ?_)
    | (with_reducible refine keeps_of_opt (by assumption) ?_)
    | dsimp only)

theorem keeps_execEmit {u : State} (c : CellId) {s : State} (h : Keeps u s) :
 KeepsOut u (execEmit c s) := by
  unfold execEmit
  repeat' (first
    | with_reducible assumption
    | with_reducible apply keeps_cellEmit
    | with_reducible apply keepsOut_next
    | intro _
    | with_reducible apply keepsOut_ite
    | with_reducible apply keeps_ite
    | split
    | (with_reducible refine keeps_of_pair (by assumption) ?_)
    | (with_reducible refine keeps_of_opt (by assumption) ?_)
    | dsimp only)

theorem keeps_execWait {u : State} (c : CellId) {s : State} (h : Keeps u s) :
 KeepsOut u (execWait c s) := by
  unfold execWait
  repeat' (first
    | with_reducible assumption
    | with_reducible apply keeps_cellWait
    | with_reducible apply keepsOut_next
    | intro _
    | with_reducible apply keepsOut_ite
    | with_reducible apply keeps_ite
    | split
    | (with_reducible refine keeps_of_pair (by assumption) ?_)
    | (with_reducible refine keeps_of_opt (by assumption) ?_)
    | dsimp only)

theorem keeps_execHalt {u : State} (c : CellId) {s : State} (h : Keeps u s) :
 KeepsOut u (execHalt c s) := by
  unfold execHalt
  repeat' (first
    | with_reducible assumption
    | with_reducible apply keeps_cellHalt
    | with_reducible apply keepsOut_next
    | intro _
    | with_reducible apply keepsOut_ite
    | with_reducible apply keeps_ite
    | split
    | (with_reducible refine keeps_of_pair (by assumption) ?_)
    | (with_reducible refine keeps_of_opt (by assumption) ?_)
    | dsimp only)

theorem keeps_execCellReservedHalt {u : State} (c : CellId) {s : State} (h : Keeps u s) :
 KeepsOut u (execCellReservedHalt c s) := by
  unfold execCellReservedHalt
  repeat' (first
    | with_reducible assumption
    | with_reducible apply keeps_cellReserved
    | with_reducible apply keepsOut_next
    | intro _
    | with_reducible apply keepsOut_ite
    | with_reducible apply keeps_ite
    | split
    | (with_reducible refine keeps_of_pair (by assumption) ?_)
    | (with_reducible refine keeps_of_opt (by assumption) ?_)
    | dsimp only)

theorem keeps_execParam {u : State} (p : PortId) {s : State} (h : Keeps u s) :
 KeepsOut u (execParam p s) := by
  unfold execParam
  repeat' (first
    | with_reducible assumption
    | with_reducible apply keeps_takeParam
    | with_reducible apply keepsOut_next
    | intro _
    | with_reducible apply keepsOut_ite
    | with_reducible apply keeps_ite
    | split
    | (with_reducible refine keeps_of_pair (by assumption) ?_)
    | (with_reducible refine keeps_of_opt (by assumption) ?_)
    | dsimp only)

theorem keeps_execParamCommit {u : State} (p : PortId) {s : State} (h : Keeps u s) :
 KeepsOut u (execParamCommit p s) := by
  unfold execParamCommit
  repeat' (first
    | with_reducible assumption
    | with_reducible apply keeps_takeCommit
    | with_reducible apply keepsOut_next
    | intro _
    | with_reducible apply keepsOut_ite
    | with_reducible apply keeps_ite
    | split
    | (with_reducible refine keeps_of_pair (by assumption) ?_)
    | (with_reducible refine keeps_of_opt (by assumption) ?_)
    | dsimp only)

theorem keeps_execParamLatchParity {u : State} (c : CellId) (e : Fin 8) (both : Bool) {s : State} (h : Keeps u s) :
 KeepsOut u (execParamLatchParity c e both s) := by
  unfold execParamLatchParity
  repeat' (first
    | with_reducible assumption
    | with_reducible apply keeps_latchParity
    | with_reducible apply keepsOut_next
    | intro _
    | with_reducible apply keepsOut_ite
    | with_reducible apply keeps_ite
    | split
    | (with_reducible refine keeps_of_pair (by assumption) ?_)
    | (with_reducible refine keeps_of_opt (by assumption) ?_)
    | dsimp only)

theorem keeps_execMacIssue {u : State} (m : MacId) (cellWritesResult : Bool) {s : State} (h : Keeps u s) :
 KeepsOut u (execMacIssue m cellWritesResult s) := by
  unfold execMacIssue
  repeat' (first
    | with_reducible assumption
    | with_reducible apply keeps_macIssueOp
    | with_reducible apply keepsOut_next
    | intro _
    | with_reducible apply keepsOut_ite
    | with_reducible apply keeps_ite
    | split
    | (with_reducible refine keeps_of_pair (by assumption) ?_)
    | (with_reducible refine keeps_of_opt (by assumption) ?_)
    | dsimp only)

end Sys2Proof.Machine
end

