-- ==== Sys2Proof/Laws/KeepsPort.lean ====
section
/-! SUPPORT. Every operation of Machine/Port.lean keeps (Laws/Keeps.lean). -/
set_option linter.unusedTactic false
set_option linter.unreachableTactic false
set_option linter.unusedVariables false

namespace Sys2Proof.Machine

open Sys2Proof

theorem keeps_grantCell {u : State} (c : Nat) {s : State} (h : Keeps u s) :
 Keeps u (grantCell c s) := by
  unfold grantCell
  repeat' (first
    | with_reducible assumption
    | with_reducible apply keeps_readBank
    | with_reducible apply keeps_writeBank
    | with_reducible apply keeps_setCell
    | with_reducible apply keeps_mdCell
    | intro _
    | with_reducible apply keeps_ite
    | split
    | (with_reducible refine keeps_of_pair (by assumption) ?_)
    | (with_reducible refine keeps_of_opt (by assumption) ?_)
    | dsimp only)

theorem keeps_grantLut {u : State} (b : Nat) (q : BankReq) {s : State} (h : Keeps u s) :
 Keeps u (grantLut b q s) := by
  unfold grantLut
  repeat' (first
    | with_reducible assumption
    | with_reducible apply keeps_mdBankPort
    | with_reducible apply keeps_readBank
    | with_reducible apply keeps_writeBank
    | intro _
    | with_reducible apply keeps_ite
    | split
    | (with_reducible refine keeps_of_pair (by assumption) ?_)
    | (with_reducible refine keeps_of_opt (by assumption) ?_)
    | dsimp only)

theorem keeps_grantCompute {u : State} (b k : Nat) {s : State} (h : Keeps u s) :
 Keeps u (grantCompute b k s) := by
  unfold grantCompute
  repeat' (first
    | with_reducible assumption
    | with_reducible apply keeps_tileEvent
    | with_reducible apply keeps_mdBankPort
    | with_reducible apply keeps_denyCycles
    | with_reducible apply keeps_grantCell
    | with_reducible apply keeps_grantLut
    | intro _
    | with_reducible apply keeps_ite
    | split
    | (with_reducible refine keeps_of_pair (by assumption) ?_)
    | (with_reducible refine keeps_of_opt (by assumption) ?_)
    | dsimp only)

theorem keeps_grant {u : State} (b : Nat) {s : State} (h : Keeps u s) :
 Keeps u (grant b s) := by
  unfold grant
  repeat' (first
    | with_reducible assumption
    | with_reducible apply keeps_rerank
    | with_reducible apply keeps_settleExcl
    | with_reducible apply keeps_grantSteward
    | with_reducible apply keeps_grantIdle
    | with_reducible apply keeps_grantCompute
    | intro _
    | with_reducible apply keeps_ite
    | split
    | (with_reducible refine keeps_of_pair (by assumption) ?_)
    | (with_reducible refine keeps_of_opt (by assumption) ?_)
    | dsimp only)

end Sys2Proof.Machine
end

