-- ==== Sys2Proof/Laws/Banks.lean ====
section
/-! SUPPORT. The bank memory: reading a word after storing one, and that every memory operation keeps the
canonical form. -/
namespace Sys2Proof.Machine

open Sys2Proof

/-- The memory after reset is in canonical form. -/
theorem reset_wf : Memory.wf State.reset = true := by decide

/-- The state after reset meets the invariant. -/
theorem reset_inv : Inv State.reset := ⟨⟨by decide, by decide⟩, by unfold RegsInv; decide⟩

/-- Storing a word keeps the canonical form. -/
theorem setBankWord_wf (b w : Nat) (x : TWord) {s : State} (h : Memory.wf s = true) :
    Memory.wf (setBankWord b w x s) = true :=
  canonical_tput _ _ _ _ h

/-- The word just stored is read back, a NULL word with data zero. -/
theorem bankWord_setBankWord_same (b w : Nat) (x : TWord) (s : State) :
    bankWord b w (setBankWord b w x s) = if x.tag = .null then nullWord else x := by
  simp [bankWord, setBankWord]

/-- Storing one word leaves every word at another place. -/
theorem bankWord_setBankWord_other {b w b' w' : Nat} (h : wordKey b' w' ≠ wordKey b w) (x : TWord) (s : State) :
    bankWord b' w' (setBankWord b w x s) = bankWord b' w' s :=
  tget_tput_other _ _ h _ _

/-- Places within two banks differ where the bank or the word does. -/
theorem wordKey_ne {b w b' w' : Nat} (hw : w < 8192) (hw' : w' < 8192) (h : b' ≠ b ∨ w' ≠ w) :
    wordKey b' w' ≠ wordKey b w := by
  unfold wordKey; omega

/-- The operations over bank memory keep the invariant, and with it the canonical form. -/
theorem readBank_inv (b w : Nat) {s : State} (h : Inv s) : Inv (readBank b w s).2 :=
  (keeps_readBank b w (Keeps.refl s)).inv h
theorem writeBank_inv (b w : Nat) (x : TWord) {s : State} (h : Inv s) : Inv (writeBank b w x s).2 :=
  (keeps_writeBank b w x (Keeps.refl s)).inv h
theorem zeroBank_inv (b : Nat) {s : State} (h : Inv s) : Inv (zeroBank b s) :=
  (keeps_zeroBank b (Keeps.refl s)).inv h
theorem clearBankAtSwap_inv (b : Nat) {s : State} (h : Inv s) : Inv (clearBankAtSwap b s) :=
  (keeps_clearBankAtSwap b (Keeps.refl s)).inv h
theorem grant_inv (b : Nat) {s : State} (h : Inv s) : Inv (grant b s) :=
  (keeps_grant b (Keeps.refl s)).inv h

end Sys2Proof.Machine
end

