-- ==== Sys2Proof/Laws/Cells.lean ====
section
/-! SUPPORT. What the cell opcodes compute, in the terms of integers and bit vectors. -/
namespace Sys2Proof.Machine

open Sys2Proof

theorem W_toNat (a : Word) : W a.toNat = a := by simp [W]

/-- Signed overflow of a sum, seen from its sign bits. -/
theorem overflow_of_signs (a b r : Word) (cin : Bool) (h : r.toNat = (a.toNat + b.toNat + b2n cin) % 2 ^ 32) :
    (a.msb == b.msb && r.msb != a.msb) = decide (r.toInt ≠ a.toInt + b.toInt + (b2n cin : Int)) := by
  have ha := BitVec.isLt a
  have hb := BitVec.isLt b
  have hr := BitVec.isLt r
  have hc : b2n cin ≤ 1 := by cases cin <;> simp [b2n]
  rw [Bool.eq_iff_iff]
  simp only [BitVec.msb_eq_decide, BitVec.toInt_eq_toNat_cond, Bool.and_eq_true, beq_iff_eq, bne_iff_ne, decide_eq_true_eq,
    ne_eq, decide_eq_decide]
  generalize a.toNat = x at *
  generalize b.toNat = y at *
  generalize r.toNat = z at *
  generalize b2n cin = k at *
  split <;> split <;> split <;> omega

theorem sum3_toNat (a b : Word) (cin : Bool) :
    (sum3 a b cin).1.toNat = (a.toNat + b.toNat + b2n cin) % 2 ^ 32 := by
  simp [sum3, W]

/-- A sum with carry: the result modulo 2^32, the carry out, and signed overflow. -/
theorem sum3_eq (a b : Word) (cin : Bool) : sum3 a b cin =
    (W (a.toNat + b.toNat + b2n cin), decide (2 ^ 32 ≤ a.toNat + b.toNat + b2n cin),
      decide ((W (a.toNat + b.toNat + b2n cin)).toInt ≠ a.toInt + b.toInt + (b2n cin : Int))) := by
  rw [← overflow_of_signs a b _ cin (by simp [W])]
  rfl

/-- A cell that completes an instruction of the opcode ends as the opcode says. -/
theorem runCell_runs {c op : Nat} {fin : Insn → Fetched → TWord → State} {s : State} (h : CellRuns c op s) :
    runCell c op fin s = fin (cellInsn c s) (cellFetched c s) (cellWord c s) := by
  unfold runCell cellInsn cellFetched cellWord
  unfold CellRuns at h
  cases e : (cell c s).issued with
  | some q =>
    simp only [e, Bool.and_eq_true, beq_iff_eq, Option.isNone_iff_eq_none] at h
    simp [h.1.1, h.1.2, h.2]
  | none =>
    simp only [e, Bool.and_eq_true, Bool.not_eq_true', Option.isNone_iff_eq_none] at h
    simp [h.1.1, h.1.2, h.2]

/-- One that issues an instruction with an access or a BANK operand waits for the bank. -/
theorem runCell_waits {c op : Nat} {fin : Insn → Fetched → TWord → State} {s : State} {w : BankWait}
    (hi : issues c op s = true) (hw : (namesBank (curInsn c s) = true ∧ w = .operand) ∨
      (namesBank (curInsn c s) = false ∧ memAccess c (curInsn c s) (fetch c (curInsn c s) s) = some w)) :
    runCell c op fin s = issueWait c (curInsn c s) (fetch c (curInsn c s) s) w := by
  have hn : (cell c s).issued = none := by simp [issues] at hi; tauto
  unfold runCell
  rcases hw with ⟨h1, rfl⟩ | ⟨h1, h2⟩
  · simp [hn, hi, h1]
  · simp [hn, hi, h1, h2]

/-- One that neither issues nor completes the opcode is left as it is. -/
theorem runCell_idle {c op : Nat} {fin : Insn → Fetched → TWord → State} {s : State} (hi : issues c op s = false)
    (hr : ¬CellRuns c op s) : runCell c op fin s = s := by
  unfold runCell
  unfold CellRuns at hr
  cases e : (cell c s).issued with
  | some q =>
    simp only [e] at hr
    simp only [ite_eq_right_iff]
    intro h
    exact absurd (by simpa [and_assoc] using h) hr
  | none => simp [hi]

/-- An opcode with a result ends with what its function gives. -/
theorem cellAlu_go {c op : Nat} {alu : Word → Word → Cell → Word × Cell} {s : State} (h : CellGo c op s)
    (hn : noResult op = false) : cellAlu c op alu s =
      cellDone c (alu (cellA c s) (cellB c s) (cellX c s)).1 (alu (cellA c s) (cellB c s) (cellX c s)).2 s := by
  unfold cellAlu cellDone
  rw [runCell_runs h.1]
  simp [finAlu, h.2, hn, cellA, cellB, cellX]

/-- A FAULT operand ends an instruction of the opcode as R91 says. -/
theorem cellAlu_fault {c op : Nat} {alu : Word → Word → Cell → Word × Cell} {s : State} {w : TWord} (h : CellRuns c op s)
    (hf : faultOperand c (cellInsn c s) (cellFetched c s) = some w) :
    cellAlu c op alu s = finishFault c (cellInsn c s) (cellFetched c s) w := by
  unfold cellAlu
  rw [runCell_runs h]
  simp [finAlu, hf]

end Sys2Proof.Machine
end

