-- ==== Sys2Proof/Laws/KeepsLogic.lean ====
section
/-! SUPPORT. Every operation of Machine/Logic.lean keeps (Laws/Keeps.lean). -/
set_option linter.unusedTactic false
set_option linter.unreachableTactic false
set_option linter.unusedVariables false

namespace Sys2Proof.Machine

open Sys2Proof

theorem keeps_setTapGroup {u : State} (k : Nat) (x : TapGroup) {s : State} (h : Keeps u s) :
 Keeps u (setTapGroup k x s) := by
  unfold setTapGroup
  repeat' (first
    | with_reducible assumption
    | with_reducible apply keeps_setLogic
    | intro _
    | with_reducible apply keeps_ite
    | split
    | (with_reducible refine keeps_of_pair (by assumption) ?_)
    | (with_reducible refine keeps_of_opt (by assumption) ?_)
    | dsimp only)

theorem keeps_contention {u : State} (r : Nat) {s : State} (h : Keeps u s) :
 Keeps u (contention r s) := by
  unfold contention
  repeat' (first
    | with_reducible assumption
    | with_reducible apply keeps_wr
    | with_reducible apply keeps_countN
    | with_reducible apply keeps_irq
    | with_reducible apply keeps_foldl
    | with_reducible apply keeps_foldl_snd
    | intro _
    | with_reducible apply keeps_ite
    | split
    | (with_reducible refine keeps_of_pair (by assumption) ?_)
    | (with_reducible refine keeps_of_opt (by assumption) ?_)
    | dsimp only)

theorem keeps_latchLines {u : State} (r : Nat) {s : State} (h : Keeps u s) :
 Keeps u (latchLines r s) := by
  unfold latchLines
  repeat' (first
    | with_reducible assumption
    | with_reducible apply keeps_setLogic
    | with_reducible apply keeps_foldl
    | with_reducible apply keeps_foldl_snd
    | intro _
    | with_reducible apply keeps_ite
    | split
    | (with_reducible refine keeps_of_pair (by assumption) ?_)
    | (with_reducible refine keeps_of_opt (by assumption) ?_)
    | dsimp only)

theorem keeps_setFf {u : State} (r i n : Nat) (v : Bool) {s : State} (h : Keeps u s) :
 Keeps u (setFf r i n v s) := by
  unfold setFf
  repeat' (first
    | with_reducible assumption
    | with_reducible apply keeps_setLogic
    | intro _
    | with_reducible apply keeps_ite
    | split
    | (with_reducible refine keeps_of_pair (by assumption) ?_)
    | (with_reducible refine keeps_of_opt (by assumption) ?_)
    | dsimp only)

theorem keeps_asyncPass {u : State} (r : Nat) (slices : List Nat) {s : State} (h : Keeps u s) :
 Keeps u (asyncPass r slices s) := by
  unfold asyncPass
  repeat' (first
    | with_reducible assumption
    | with_reducible apply keeps_setLogic
    | with_reducible apply keeps_setFf
    | with_reducible apply keeps_foldl
    | with_reducible apply keeps_foldl_snd
    | intro _
    | with_reducible apply keeps_ite
    | split
    | (with_reducible refine keeps_of_pair (by assumption) ?_)
    | (with_reducible refine keeps_of_opt (by assumption) ?_)
    | dsimp only)

theorem keeps_asyncSettle {u : State} (fuel r : Nat) (slices : List Nat) {s : State} (h : Keeps u s) :
 Keeps u (asyncSettle fuel r slices s) := by
  induction fuel generalizing s with
  | zero => exact h
  | succ fuel ih =>
    unfold asyncSettle
    repeat' (first
      | with_reducible assumption
      | with_reducible apply ih
      | with_reducible apply keeps_asyncPass
      | intro _
      | with_reducible apply keeps_ite
      | split
      | (with_reducible refine keeps_of_pair (by assumption) ?_)
      | (with_reducible refine keeps_of_opt (by assumption) ?_)
      | dsimp only)

theorem keeps_settleLogic {u : State} (r : Nat) {s : State} (h : Keeps u s) :
 Keeps u (settleLogic r s) := by
  unfold settleLogic
  repeat' (first
    | with_reducible assumption
    | with_reducible apply keeps_asyncSettle
    | intro _
    | with_reducible apply keeps_ite
    | split
    | (with_reducible refine keeps_of_pair (by assumption) ?_)
    | (with_reducible refine keeps_of_opt (by assumption) ?_)
    | dsimp only)

theorem keeps_settleAll {u : State} {s : State} (h : Keeps u s) :
 Keeps u (settleAll s) := by
  unfold settleAll
  repeat' (first
    | with_reducible assumption
    | with_reducible apply keeps_settleLogic
    | with_reducible apply keeps_foldl
    | with_reducible apply keeps_foldl_snd
    | intro _
    | with_reducible apply keeps_ite
    | split
    | (with_reducible refine keeps_of_pair (by assumption) ?_)
    | (with_reducible refine keeps_of_opt (by assumption) ?_)
    | dsimp only)

theorem keeps_settleTap {u : State} (c : ChanId) {s : State} (h : Keeps u s) :
 Keeps u (settleTap c s) := by
  unfold settleTap
  repeat' (first
    | with_reducible assumption
    | with_reducible apply keeps_settleLogic
    | intro _
    | with_reducible apply keeps_ite
    | split
    | (with_reducible refine keeps_of_pair (by assumption) ?_)
    | (with_reducible refine keeps_of_opt (by assumption) ?_)
    | dsimp only)

theorem keeps_clockGroups {u : State} (r cg : Nat) (slices : List Nat) {s : State} (h : Keeps u s) :
 Keeps u (clockGroups r cg slices s) := by
  unfold clockGroups
  repeat' (first
    | with_reducible assumption
    | with_reducible apply keeps_setLogic
    | with_reducible apply keeps_setFf
    | with_reducible apply keeps_foldl
    | with_reducible apply keeps_foldl_snd
    | intro _
    | with_reducible apply keeps_ite
    | split
    | (with_reducible refine keeps_of_pair (by assumption) ?_)
    | (with_reducible refine keeps_of_opt (by assumption) ?_)
    | dsimp only)

theorem keeps_presentTaps {u : State} (r : Nat) {s : State} (h : Keeps u s) :
 Keeps u (presentTaps r s) := by
  unfold presentTaps
  repeat' (first
    | with_reducible assumption
    | with_reducible apply keeps_setTapGroup
    | with_reducible apply keeps_foldl
    | with_reducible apply keeps_foldl_snd
    | intro _
    | with_reducible apply keeps_ite
    | split
    | (with_reducible refine keeps_of_pair (by assumption) ?_)
    | (with_reducible refine keeps_of_opt (by assumption) ?_)
    | dsimp only)

theorem keeps_lutPorts {u : State} (r : Nat) {s : State} (h : Keeps u s) :
 Keeps u (lutPorts r s) := by
  unfold lutPorts
  repeat' (first
    | with_reducible assumption
    | with_reducible apply keeps_mdBankPort
    | with_reducible apply keeps_foldl
    | with_reducible apply keeps_foldl_snd
    | intro _
    | with_reducible apply keeps_ite
    | split
    | (with_reducible refine keeps_of_pair (by assumption) ?_)
    | (with_reducible refine keeps_of_opt (by assumption) ?_)
    | dsimp only)

theorem keeps_foxEdge {u : State} (r : Nat) (v : State) {s : State} (h : Keeps u s) :
 Keeps u (foxEdge r v s) := by
  unfold foxEdge
  repeat' (first
    | with_reducible assumption
    | with_reducible apply keeps_send
    | with_reducible apply keeps_popBuffer
    | intro _
    | with_reducible apply keeps_ite
    | split
    | (with_reducible refine keeps_of_pair (by assumption) ?_)
    | (with_reducible refine keeps_of_opt (by assumption) ?_)
    | dsimp only)

theorem keeps_tileCycles {u : State} (r : Nat) {s : State} (h : Keeps u s) :
 Keeps u (tileCycles r s) := by
  unfold tileCycles
  repeat' (first
    | with_reducible assumption
    | with_reducible apply keeps_tileEventN
    | with_reducible apply keeps_tileEvent
    | with_reducible apply keeps_foldl
    | with_reducible apply keeps_foldl_snd
    | intro _
    | with_reducible apply keeps_ite
    | split
    | (with_reducible refine keeps_of_pair (by assumption) ?_)
    | (with_reducible refine keeps_of_opt (by assumption) ?_)
    | dsimp only)

theorem keeps_clockEdge {u : State} (r cg : Nat) {s : State} (h : Keeps u s) :
 Keeps u (clockEdge r cg s) := by
  unfold clockEdge
  repeat' (first
    | with_reducible assumption
    | with_reducible apply keeps_setLogic
    | with_reducible apply keeps_contention
    | with_reducible apply keeps_latchLines
    | with_reducible apply keeps_asyncSettle
    | with_reducible apply keeps_clockGroups
    | with_reducible apply keeps_presentTaps
    | with_reducible apply keeps_lutPorts
    | with_reducible apply keeps_foxEdge
    | with_reducible apply keeps_tileCycles
    | (with_reducible refine keeps_setBanks_same _ rfl ?_)
    | (with_reducible refine keeps_setBanks_clear _ _ _ rfl ?_)
    | (with_reducible refine keeps_setBanks_filter _ _ rfl ?_)
    | intro _
    | with_reducible apply keeps_ite
    | split
    | (with_reducible refine keeps_of_pair (by assumption) ?_)
    | (with_reducible refine keeps_of_opt (by assumption) ?_)
    | dsimp only)

theorem keeps_execIslandClockEdge {u : State} (r : RegionId) (cg : Fin 5) {s : State} (h : Keeps u s) :
 KeepsOut u (execIslandClockEdge r cg s) := by
  unfold execIslandClockEdge
  repeat' (first
    | with_reducible assumption
    | with_reducible apply keeps_clockEdge
    | with_reducible apply keepsOut_next
    | intro _
    | with_reducible apply keepsOut_ite
    | with_reducible apply keeps_ite
    | split
    | (with_reducible refine keeps_of_pair (by assumption) ?_)
    | (with_reducible refine keeps_of_opt (by assumption) ?_)
    | dsimp only)

theorem keeps_startHold {u : State} (r side : Nat) {s : State} (h : Keeps u s) :
 Keeps u (startHold r side s) := by
  unfold startHold
  repeat' (first
    | with_reducible assumption
    | with_reducible apply keeps_setLogic
    | with_reducible apply keeps_foldl
    | with_reducible apply keeps_foldl_snd
    | intro _
    | with_reducible apply keeps_ite
    | split
    | (with_reducible refine keeps_of_pair (by assumption) ?_)
    | (with_reducible refine keeps_of_opt (by assumption) ?_)
    | dsimp only)

theorem keeps_endHold {u : State} (r side : Nat) {s : State} (h : Keeps u s) :
 Keeps u (endHold r side s) := by
  unfold endHold
  repeat' (first
    | with_reducible assumption
    | with_reducible apply keeps_setLogic
    | intro _
    | with_reducible apply keeps_ite
    | split
    | (with_reducible refine keeps_of_pair (by assumption) ?_)
    | (with_reducible refine keeps_of_opt (by assumption) ?_)
    | dsimp only)

theorem keeps_retireLane {u : State} (r side lane : Nat) {s : State} (h : Keeps u s) :
 Keeps u (retireLane r side lane s) := by
  unfold retireLane
  repeat' (first
    | with_reducible assumption
    | with_reducible apply keeps_setIo
    | with_reducible apply keeps_md
    | with_reducible apply keeps_irq
    | with_reducible apply keeps_err
    | intro _
    | with_reducible apply keeps_ite
    | split
    | (with_reducible refine keeps_of_pair (by assumption) ?_)
    | (with_reducible refine keeps_of_opt (by assumption) ?_)
    | dsimp only)

theorem keeps_receiveItem {u : State} (k r side lane0 : Nat) (retired : Nat → Bool) (item upset : Byte) (ok : Byte → State → State) {s : State} (hok : ∀ a0 t, Keeps u t → Keeps u (ok a0 t)) (h : Keeps u s) :
 Keeps u (receiveItem k r side lane0 retired item upset ok s) := by
  unfold receiveItem
  repeat' (first
    | with_reducible assumption
    | with_reducible apply hok
    | with_reducible apply keeps_errTransient
    | with_reducible apply keeps_setTapGroup
    | with_reducible apply keeps_retireLane
    | with_reducible apply keeps_foldl
    | with_reducible apply keeps_foldl_snd
    | intro _
    | with_reducible apply keeps_ite
    | split
    | (with_reducible refine keeps_of_pair (by assumption) ?_)
    | (with_reducible refine keeps_of_opt (by assumption) ?_)
    | dsimp only)

theorem keeps_sendItem {u : State} (r side g : Nat) (upset : Byte) {s : State} (h : Keeps u s) :
 Keeps u (sendItem r side g upset s) := by
  unfold sendItem
  repeat' (first
    | with_reducible assumption
    | with_reducible apply keeps_setIo
    | with_reducible apply keeps_setTapGroup
    | with_reducible apply keeps_receiveItem
    | intro _
    | with_reducible apply keeps_ite
    | split
    | (with_reducible refine keeps_of_pair (by assumption) ?_)
    | (with_reducible refine keeps_of_opt (by assumption) ?_)
    | dsimp only)

theorem keeps_padsIn {u : State} (r side g : Nat) (upset : Byte) (pins : BitVec 16) {s : State} (h : Keeps u s) :
 Keeps u (padsIn r side g upset pins s) := by
  unfold padsIn
  repeat' (first
    | with_reducible assumption
    | with_reducible apply keeps_setTapGroup
    | with_reducible apply keeps_receiveItem
    | intro _
    | with_reducible apply keeps_ite
    | split
    | (with_reducible refine keeps_of_pair (by assumption) ?_)
    | (with_reducible refine keeps_of_opt (by assumption) ?_)
    | dsimp only)

theorem keeps_tapItem {u : State} (r side g : Nat) (upset : Byte) (pins : BitVec 16) {s : State} (h : Keeps u s) :
 Keeps u (tapItem r side g upset pins s) := by
  unfold tapItem
  repeat' (first
    | with_reducible assumption
    | with_reducible apply keeps_sendItem
    | with_reducible apply keeps_padsIn
    | intro _
    | with_reducible apply keeps_ite
    | split
    | (with_reducible refine keeps_of_pair (by assumption) ?_)
    | (with_reducible refine keeps_of_opt (by assumption) ?_)
    | dsimp only)

theorem keeps_execTapItemTransfer {u : State} (r : RegionId) (side : Dir) (g : Fin 8) (upset : BitVec 8) (pins : BitVec 16) {s : State} (h : Keeps u s) :
 KeepsOut u (execTapItemTransfer r side g upset pins s) := by
  unfold execTapItemTransfer
  repeat' (first
    | with_reducible assumption
    | with_reducible apply keeps_settleAll
    | with_reducible apply keeps_tapItem
    | with_reducible apply keepsOut_next
    | intro _
    | with_reducible apply keepsOut_ite
    | with_reducible apply keeps_ite
    | split
    | (with_reducible refine keeps_of_pair (by assumption) ?_)
    | (with_reducible refine keeps_of_opt (by assumption) ?_)
    | dsimp only)

theorem keeps_gsrLogic {u : State} (r : Nat) (keep : Bool) {s : State} (h : Keeps u s) :
 Keeps u (gsrLogic r keep s) := by
  unfold gsrLogic
  repeat' (first
    | with_reducible assumption
    | with_reducible apply keeps_setLogic
    | intro _
    | with_reducible apply keeps_ite
    | split
    | (with_reducible refine keeps_of_pair (by assumption) ?_)
    | (with_reducible refine keeps_of_opt (by assumption) ?_)
    | dsimp only)

theorem keeps_pinKeepSlots {u : State} (r : Nat) {s : State} (h : Keeps u s) :
 Keeps u (pinKeepSlots r s) := by
  unfold pinKeepSlots
  repeat' (first
    | with_reducible assumption
    | with_reducible apply keeps_setLogic
    | with_reducible apply keeps_foldl
    | with_reducible apply keeps_foldl_snd
    | intro _
    | with_reducible apply keeps_ite
    | split
    | (with_reducible refine keeps_of_pair (by assumption) ?_)
    | (with_reducible refine keeps_of_opt (by assumption) ?_)
    | dsimp only)

theorem keeps_execTapo {u : State} (c : CellId) {s : State} (h : Keeps u s) :
 KeepsOut u (execTapo c s) := by
  unfold execTapo
  repeat' (first
    | with_reducible assumption
    | with_reducible apply keeps_cellAlu
    | with_reducible apply keeps_settleLogic
    | with_reducible apply keepsOut_next
    | intro _
    | with_reducible apply keepsOut_ite
    | with_reducible apply keeps_ite
    | split
    | (with_reducible refine keeps_of_pair (by assumption) ?_)
    | (with_reducible refine keeps_of_opt (by assumption) ?_)
    | dsimp only)

theorem keeps_execCellOutputAccept {u : State} (c : CellId) {s : State} (h : Keeps u s) :
 KeepsOut u (execCellOutputAccept c s) := by
  unfold execCellOutputAccept
  repeat' (first
    | with_reducible assumption
    | with_reducible apply keeps_acceptOutput
    | with_reducible apply keeps_settleLogic
    | with_reducible apply keepsOut_next
    | intro _
    | with_reducible apply keepsOut_ite
    | with_reducible apply keeps_ite
    | split
    | (with_reducible refine keeps_of_pair (by assumption) ?_)
    | (with_reducible refine keeps_of_opt (by assumption) ?_)
    | dsimp only)

end Sys2Proof.Machine
end

