-- ==== Sys2Proof/Laws/KeepsCrossings.lean ====
section
/-! SUPPORT. Every operation of Machine/Crossings.lean keeps (Laws/Keeps.lean). -/
set_option linter.unusedTactic false
set_option linter.unreachableTactic false
set_option linter.unusedVariables false

namespace Sys2Proof.Machine

open Sys2Proof

theorem keeps_tilePortWord {u : State} (j : Fin 2048) (upset : Bool) {s : State} (h : Keeps u s) :
 Keeps u (tilePortWord j upset s) := by
  unfold tilePortWord
  repeat' (first
    | with_reducible assumption
    | with_reducible apply keeps_arrive
    | with_reducible apply keeps_forPorts
    | with_reducible apply keeps_applyHeld
    | intro _
    | with_reducible apply keeps_ite
    | split
    | (with_reducible refine keeps_of_pair (by assumption) ?_)
    | (with_reducible refine keeps_of_opt (by assumption) ?_)
    | dsimp only)

theorem keeps_heldCommit {u : State} (p : Nat) {s : State} (h : Keeps u s) :
 Keeps u (heldCommit p s) := by
  unfold heldCommit
  repeat' (first
    | with_reducible assumption
    | with_reducible apply keeps_tilePortWord
    | intro _
    | with_reducible apply keeps_ite
    | split
    | (with_reducible refine keeps_of_pair (by assumption) ?_)
    | (with_reducible refine keeps_of_opt (by assumption) ?_)
    | dsimp only)

theorem keeps_execHeldCommitApply {u : State} (p : PortId) {s : State} (h : Keeps u s) :
 KeepsOut u (execHeldCommitApply p s) := by
  unfold execHeldCommitApply
  repeat' (first
    | with_reducible assumption
    | with_reducible apply keeps_heldCommit
    | with_reducible apply keepsOut_next
    | intro _
    | with_reducible apply keepsOut_ite
    | with_reducible apply keeps_ite
    | split
    | (with_reducible refine keeps_of_pair (by assumption) ?_)
    | (with_reducible refine keeps_of_opt (by assumption) ?_)
    | dsimp only)

theorem keeps_execSpareRemap {u : State} (p : PortId) {s : State} (h : Keeps u s) :
 KeepsOut u (execSpareRemap p s) := by
  unfold execSpareRemap
  repeat' (first
    | with_reducible assumption
    | with_reducible apply keeps_remap
    | with_reducible apply keepsOut_next
    | intro _
    | with_reducible apply keepsOut_ite
    | with_reducible apply keeps_ite
    | split
    | (with_reducible refine keeps_of_pair (by assumption) ?_)
    | (with_reducible refine keeps_of_opt (by assumption) ?_)
    | dsimp only)

theorem keeps_switchRoute {u : State} (inp : ChanId) {s : State} (h : Keeps u s) :
 Keeps u (switchRoute inp s) := by
  unfold switchRoute
  repeat' (first
    | with_reducible assumption
    | with_reducible apply keeps_routeFront
    | with_reducible apply keeps_routeTilePort
    | with_reducible apply keeps_routeUplink
    | intro _
    | with_reducible apply keeps_ite
    | split
    | (with_reducible refine keeps_of_pair (by assumption) ?_)
    | (with_reducible refine keeps_of_opt (by assumption) ?_)
    | dsimp only)

theorem keeps_execSwitchMessageRoute {u : State} (inp : ChanId) {s : State} (h : Keeps u s) :
 KeepsOut u (execSwitchMessageRoute inp s) := by
  unfold execSwitchMessageRoute
  repeat' (first
    | with_reducible assumption
    | with_reducible apply keeps_switchRoute
    | with_reducible apply keepsOut_next
    | intro _
    | with_reducible apply keepsOut_ite
    | with_reducible apply keeps_ite
    | split
    | (with_reducible refine keeps_of_pair (by assumption) ?_)
    | (with_reducible refine keeps_of_opt (by assumption) ?_)
    | dsimp only)

theorem keeps_crossbarStage {u : State} (inp : ChanId) (fails : Nat) {s : State} (h : Keeps u s) :
 Keeps u (crossbarStage inp fails s) := by
  unfold crossbarStage
  repeat' (first
    | with_reducible assumption
    | with_reducible apply keeps_advanceAll
    | with_reducible apply keeps_routeFront
    | with_reducible apply keeps_routeCrossbar
    | with_reducible apply keeps_routeFromRing
    | with_reducible apply keeps_coreChecks
    | intro _
    | with_reducible apply keeps_ite
    | split
    | (with_reducible refine keeps_of_pair (by assumption) ?_)
    | (with_reducible refine keeps_of_opt (by assumption) ?_)
    | dsimp only)

theorem keeps_execCrossbarRoute {u : State} (core : CoreInput) {s : State} (h : Keeps u s) :
 KeepsOut u (execCrossbarRoute core s) := by
  unfold execCrossbarRoute
  repeat' (first
    | with_reducible assumption
    | with_reducible apply keeps_crossbarStage
    | with_reducible apply keepsOut_next
    | intro _
    | with_reducible apply keepsOut_ite
    | with_reducible apply keeps_ite
    | split
    | (with_reducible refine keeps_of_pair (by assumption) ?_)
    | (with_reducible refine keeps_of_opt (by assumption) ?_)
    | dsimp only)

theorem keeps_execHeadOutputGrant {u : State} (o : ChanId) {s : State} (h : Keeps u s) :
 KeepsOut u (execHeadOutputGrant o s) := by
  unfold execHeadOutputGrant
  repeat' (first
    | with_reducible assumption
    | with_reducible apply keeps_grantNext
    | with_reducible apply keepsOut_next
    | intro _
    | with_reducible apply keepsOut_ite
    | with_reducible apply keeps_ite
    | split
    | (with_reducible refine keeps_of_pair (by assumption) ?_)
    | (with_reducible refine keeps_of_opt (by assumption) ?_)
    | dsimp only)

end Sys2Proof.Machine
end

