-- ==== Sys2Proof/Laws/KeepsBankCmds.lean ====
section
/-! SUPPORT. Every operation of Machine/BankCmds.lean keeps (Laws/Keeps.lean). -/
set_option linter.unusedTactic false
set_option linter.unreachableTactic false
set_option linter.unusedVariables false

namespace Sys2Proof.Machine

open Sys2Proof

theorem keeps_bankNotServed {u : State} (rq : Requester) (a : Nat) (isWrite : Bool) {s : State} (h : Keeps u s) :
 Keeps u (bankNotServed rq a isWrite s) := by
  unfold bankNotServed
  repeat' (first
    | with_reducible assumption
    | with_reducible apply keeps_err
    | with_reducible apply keeps_deliver
    | intro _
    | with_reducible apply keeps_ite
    | split
    | (with_reducible refine keeps_of_pair (by assumption) ?_)
    | (with_reducible refine keeps_of_opt (by assumption) ?_)
    | dsimp only)

theorem keeps_refuseBank {u : State} (rq : Requester) (a : Nat) (isWrite : Bool) (b : Nat) {s : State} (h : Keeps u s) :
 Keeps u (refuseBank rq a isWrite b s) := by
  unfold refuseBank
  repeat' (first
    | with_reducible assumption
    | with_reducible apply keeps_err
    | with_reducible apply keeps_deliver
    | with_reducible apply keeps_deliverCode
    | intro _
    | with_reducible apply keeps_ite
    | split
    | (with_reducible refine keeps_of_pair (by assumption) ?_)
    | (with_reducible refine keeps_of_opt (by assumption) ?_)
    | dsimp only)

theorem keeps_reservedAccess {u : State} (rq : Requester) (a : Nat) (isWrite : Bool) {s : State} (h : Keeps u s) :
 Keeps u (reservedAccess rq a isWrite s) := by
  unfold reservedAccess
  repeat' (first
    | with_reducible assumption
    | with_reducible apply keeps_err
    | with_reducible apply keeps_deliver
    | with_reducible apply keeps_deliverCode
    | intro _
    | with_reducible apply keeps_ite
    | split
    | (with_reducible refine keeps_of_pair (by assumption) ?_)
    | (with_reducible refine keeps_of_opt (by assumption) ?_)
    | dsimp only)

theorem keeps_bankWordAccess {u : State} (rq : Requester) (k : Option AliasKind) (o : Nat) (isWrite : Bool) (v : Word) {s : State} (h : Keeps u s) :
 Keeps u (bankWordAccess rq k o isWrite v s) := by
  unfold bankWordAccess
  repeat' (first
    | with_reducible assumption
    | with_reducible apply keeps_enterReq
    | intro _
    | with_reducible apply keeps_ite
    | split
    | (with_reducible refine keeps_of_pair (by assumption) ?_)
    | (with_reducible refine keeps_of_opt (by assumption) ?_)
    | dsimp only)

theorem keeps_bankRangeAccess {u : State} (rq : Requester) (k : Option AliasKind) (a o size : Nat) (isWrite : Bool) (v : BitVec 64) {s : State} (h : Keeps u s) :
 Keeps u (bankRangeAccess rq k a o size isWrite v s) := by
  unfold bankRangeAccess
  repeat' (first
    | with_reducible assumption
    | with_reducible apply keeps_bankNotServed
    | with_reducible apply keeps_refuseBank
    | with_reducible apply keeps_bankWordAccess
    | intro _
    | with_reducible apply keeps_ite
    | split
    | (with_reducible refine keeps_of_pair (by assumption) ?_)
    | (with_reducible refine keeps_of_opt (by assumption) ?_)
    | dsimp only)

theorem keeps_bankAccess {u : State} (rq : Requester) (a size : Nat) (isWrite : Bool) (v : BitVec 64) {s : State} (h : Keeps u s) :
 Keeps u (bankAccess rq a size isWrite v s) := by
  unfold bankAccess
  repeat' (first
    | with_reducible assumption
    | with_reducible apply keeps_reservedAccess
    | with_reducible apply keeps_bankRangeAccess
    | intro _
    | with_reducible apply keeps_ite
    | split
    | (with_reducible refine keeps_of_pair (by assumption) ?_)
    | (with_reducible refine keeps_of_opt (by assumption) ?_)
    | dsimp only)

theorem keeps_execAliasWrite {u : State} (rq : Requester) (k : AliasKind) (b : BankId) (w : Fin 8192) (v : Word) {s : State} (h : Keeps u s) :
 KeepsOut u (execAliasWrite rq k b w v s) := by
  unfold execAliasWrite
  repeat' (first
    | with_reducible assumption
    | with_reducible apply keeps_bankAccess
    | with_reducible apply keepsOut_next
    | intro _
    | with_reducible apply keepsOut_ite
    | with_reducible apply keeps_ite
    | split
    | (with_reducible refine keeps_of_pair (by assumption) ?_)
    | (with_reducible refine keeps_of_opt (by assumption) ?_)
    | dsimp only)

theorem keeps_clearBanks {u : State} {s : State} (h : Keeps u s) :
 Keeps u (clearBanks s) := by
  unfold clearBanks
  repeat' (first
    | with_reducible assumption
    | (with_reducible refine keeps_setBanks_same _ rfl ?_)
    | (with_reducible refine keeps_setBanks_clear _ _ _ rfl ?_)
    | (with_reducible refine keeps_setBanks_filter _ _ rfl ?_)
    | intro _
    | with_reducible apply keeps_ite
    | split
    | (with_reducible refine keeps_of_pair (by assumption) ?_)
    | (with_reducible refine keeps_of_opt (by assumption) ?_)
    | dsimp only)

theorem keeps_answerWaiting {u : State} (b : Nat) {s : State} (h : Keeps u s) :
 Keeps u (answerWaiting b s) := by
  unfold answerWaiting
  repeat' (first
    | with_reducible assumption
    | with_reducible apply keeps_setBankPort
    | with_reducible apply keeps_giveWord
    | with_reducible apply keeps_foldl
    | with_reducible apply keeps_foldl_snd
    | intro _
    | with_reducible apply keeps_ite
    | split
    | (with_reducible refine keeps_of_pair (by assumption) ?_)
    | (with_reducible refine keeps_of_opt (by assumption) ?_)
    | dsimp only)

theorem keeps_bankClearDone {u : State} {s : State} (h : Keeps u s) :
 Keeps u (bankClearDone s) := by
  unfold bankClearDone
  repeat' (first
    | with_reducible assumption
    | with_reducible apply keeps_setDev
    | with_reducible apply keeps_clearBanks
    | with_reducible apply keeps_answerWaiting
    | with_reducible apply keeps_foldl
    | with_reducible apply keeps_foldl_snd
    | intro _
    | with_reducible apply keeps_ite
    | split
    | (with_reducible refine keeps_of_pair (by assumption) ?_)
    | (with_reducible refine keeps_of_opt (by assumption) ?_)
    | dsimp only)

theorem keeps_execBankClearDone {u : State} {s : State} (h : Keeps u s) :
 KeepsOut u (execBankClearDone s) := by
  unfold execBankClearDone
  repeat' (first
    | with_reducible assumption
    | with_reducible apply keeps_bankClearDone
    | with_reducible apply keepsOut_next
    | intro _
    | with_reducible apply keepsOut_ite
    | with_reducible apply keeps_ite
    | split
    | (with_reducible refine keeps_of_pair (by assumption) ?_)
    | (with_reducible refine keeps_of_opt (by assumption) ?_)
    | dsimp only)

end Sys2Proof.Machine
end

