-- ==== Sys2Proof/Laws/KeepsAccess.lean ====
section
/-! SUPPORT. Every operation of Machine/Access.lean keeps (Laws/Keeps.lean). -/
set_option linter.unusedTactic false
set_option linter.unreachableTactic false
set_option linter.unusedVariables false

namespace Sys2Proof.Machine

open Sys2Proof

theorem keeps_onPage {u : State} (rq : Requester) (p off : Nat) (f : State → State) {s : State} (hf : ∀ t, Keeps u t → Keeps u (f t)) (h : Keeps u s) :
 Keeps u (onPage rq p off f s) := by
  unfold onPage
  repeat' (first
    | with_reducible assumption
    | with_reducible apply hf
    | with_reducible apply keeps_offAccess
    | intro _
    | with_reducible apply keeps_ite
    | split
    | (with_reducible refine keeps_of_pair (by assumption) ?_)
    | (with_reducible refine keeps_of_opt (by assumption) ?_)
    | dsimp only)

theorem keeps_onPageRead {u : State} (rq : Requester) (p off : Nat) (f : State → State) {s : State} (hf : ∀ t, Keeps u t → Keeps u (f t)) (h : Keeps u s) :
 Keeps u (onPageRead rq p off f s) := by
  unfold onPageRead
  repeat' (first
    | with_reducible assumption
    | with_reducible apply hf
    | with_reducible apply keeps_offAccess
    | with_reducible apply keeps_deliver
    | intro _
    | with_reducible apply keeps_ite
    | split
    | (with_reducible refine keeps_of_pair (by assumption) ?_)
    | (with_reducible refine keeps_of_opt (by assumption) ?_)
    | dsimp only)

theorem keeps_permFault {u : State} (p off : Nat) {s : State} (h : Keeps u s) :
 Keeps u (permFault p off s) := by
  unfold permFault
  repeat' (first
    | with_reducible assumption
    | with_reducible apply keeps_err
    | intro _
    | with_reducible apply keeps_ite
    | split
    | (with_reducible refine keeps_of_pair (by assumption) ?_)
    | (with_reducible refine keeps_of_opt (by assumption) ?_)
    | dsimp only)

theorem keeps_deliverReg {u : State} (rq : Requester) (v : Word) {s : State} (h : Keeps u s) :
 Keeps u (deliverReg rq v s) := by
  unfold deliverReg
  repeat' (first
    | with_reducible assumption
    | with_reducible apply keeps_deliver
    | intro _
    | with_reducible apply keeps_ite
    | split
    | (with_reducible refine keeps_of_pair (by assumption) ?_)
    | (with_reducible refine keeps_of_opt (by assumption) ?_)
    | dsimp only)

theorem keeps_holdLow {u : State} (rq : Requester) (p lowOff : Nat) (v : Word) {s : State} (h : Keeps u s) :
 Keeps u (holdLow rq p lowOff v s) := by
  unfold holdLow
  repeat' (first
    | with_reducible assumption
    | with_reducible apply keeps_setDev
    | intro _
    | with_reducible apply keeps_ite
    | split
    | (with_reducible refine keeps_of_pair (by assumption) ?_)
    | (with_reducible refine keeps_of_opt (by assumption) ?_)
    | dsimp only)

theorem keeps_clearLow {u : State} (rq : Requester) (p lowOff : Nat) {s : State} (h : Keeps u s) :
 Keeps u (clearLow rq p lowOff s) := by
  unfold clearLow
  repeat' (first
    | with_reducible assumption
    | with_reducible apply keeps_setDev
    | intro _
    | with_reducible apply keeps_ite
    | split
    | (with_reducible refine keeps_of_pair (by assumption) ?_)
    | (with_reducible refine keeps_of_opt (by assumption) ?_)
    | dsimp only)

theorem keeps_pairWrite {u : State} (rq : Requester) (p lowOff : Nat) (high : Bool) (v : Word) (cur : BitVec 64) {s : State} (h : Keeps u s) :
 Keeps u (pairWrite rq p lowOff high v cur s).1 := by
  unfold pairWrite
  repeat' (first
    | with_reducible assumption
    | with_reducible apply keeps_holdLow
    | with_reducible apply keeps_clearLow
    | intro _
    | intro _
    | with_reducible apply keeps_ite
    | split
    | (with_reducible refine keeps_of_pair (by assumption) ?_)
    | (with_reducible refine keeps_of_opt (by assumption) ?_)
    | dsimp only)

theorem keeps_dropPairs {u : State} (p : Nat) {s : State} (h : Keeps u s) :
 Keeps u (dropPairs p s) := by
  unfold dropPairs
  repeat' (first
    | with_reducible assumption
    | with_reducible apply keeps_setDev
    | intro _
    | with_reducible apply keeps_ite
    | split
    | (with_reducible refine keeps_of_pair (by assumption) ?_)
    | (with_reducible refine keeps_of_opt (by assumption) ?_)
    | dsimp only)

theorem keeps_clearStatus {u : State} (p : Nat) (keep : Nat → Bool) {s : State} (h : Keeps u s) :
    Keeps u (clearStatus p keep s) := by
  unfold clearStatus
  refine keeps_dropPairs _ (keeps_setRegs_filterMap _ _ (fun e y he => ?_) rfl h)
  dsimp only at he
  split at he
  · cases he; rfl
  · split at he
    · cases he; rfl
    · split at he
      · cases he
      · cases he; rfl

theorem keeps_clearPage {u : State} (p : Nat) {s : State} (h : Keeps u s) :
 Keeps u (clearPage p s) := by
  unfold clearPage
  repeat' (first
    | with_reducible assumption
    | with_reducible apply keeps_dropPairs
    | (with_reducible refine keeps_setRegs_filter _ _ rfl ?_)
    | intro _
    | with_reducible apply keeps_ite
    | split
    | (with_reducible refine keeps_of_pair (by assumption) ?_)
    | (with_reducible refine keeps_of_opt (by assumption) ?_)
    | dsimp only)

theorem keeps_svcReply {u : State} (k : Nat) (m : Msg) (payload : List TWord) (status : Nat) {s : State} (h : Keeps u s) :
 Keeps u (svcReply k m payload status s) := by
  unfold svcReply
  repeat' (first
    | with_reducible assumption
    | with_reducible apply keeps_send
    | intro _
    | with_reducible apply keeps_ite
    | split
    | (with_reducible refine keeps_of_pair (by assumption) ?_)
    | (with_reducible refine keeps_of_opt (by assumption) ?_)
    | dsimp only)

theorem keeps_discardMsg {u : State} (k : Nat) (m : Msg) {s : State} (h : Keeps u s) :
 Keeps u (discardMsg k m s) := by
  unfold discardMsg
  repeat' (first
    | with_reducible assumption
    | with_reducible apply keeps_malformed
    | with_reducible apply keeps_svcReply
    | intro _
    | with_reducible apply keeps_ite
    | split
    | (with_reducible refine keeps_of_pair (by assumption) ?_)
    | (with_reducible refine keeps_of_opt (by assumption) ?_)
    | dsimp only)

theorem keeps_receiverCheck {u : State} (k : Nat) (known : Nat → Bool) (m : Msg) {s : State} (h : Keeps u s) :
 KeepsOpt u (receiverCheck k known m s) := by
  unfold receiverCheck
  repeat' (first
    | with_reducible assumption
    | with_reducible apply keeps_discardMsg
    | with_reducible apply keepsOpt_none
    | with_reducible apply keepsOpt_some
    | intro _
    | with_reducible apply keepsOpt_ite
    | with_reducible apply keeps_ite
    | split
    | (with_reducible refine keeps_of_pair (by assumption) ?_)
    | (with_reducible refine keeps_of_opt (by assumption) ?_)
    | dsimp only)

theorem keeps_timeService {u : State} {s : State} (h : Keeps u s) :
 Keeps u (timeService s) := by
  unfold timeService
  repeat' (first
    | with_reducible assumption
    | with_reducible apply keeps_dropMsg
    | with_reducible apply keeps_receiverCheck
    | intro _
    | with_reducible apply keeps_ite
    | split
    | (with_reducible refine keeps_of_pair (by assumption) ?_)
    | (with_reducible refine keeps_of_opt (by assumption) ?_)
    | dsimp only)

end Sys2Proof.Machine
end

