-- ==== Sys2Proof/Laws/KeepsIob.lean ====
section
/-! SUPPORT. Every operation of Machine/Iob.lean keeps (Laws/Keeps.lean). -/
set_option linter.unusedTactic false
set_option linter.unreachableTactic false
set_option linter.unusedVariables false

namespace Sys2Proof.Machine

open Sys2Proof

theorem keeps_vccoUpdate {u : State} (b mv : Nat) {s : State} (h : Keeps u s) :
 Keeps u (vccoUpdate b mv s) := by
  unfold vccoUpdate
  repeat' (first
    | with_reducible assumption
    | with_reducible apply keeps_wrf
    | with_reducible apply keeps_irq
    | intro _
    | with_reducible apply keeps_ite
    | split
    | (with_reducible refine keeps_of_pair (by assumption) ?_)
    | (with_reducible refine keeps_of_opt (by assumption) ?_)
    | dsimp only)

theorem keeps_execVccoChange {u : State} (b : IobId) (mv : BitVec 16) {s : State} (h : Keeps u s) :
 KeepsOut u (execVccoChange b mv s) := by
  unfold execVccoChange
  repeat' (first
    | with_reducible assumption
    | with_reducible apply keeps_vccoUpdate
    | with_reducible apply keepsOut_next
    | intro _
    | with_reducible apply keepsOut_ite
    | with_reducible apply keeps_ite
    | split
    | (with_reducible refine keeps_of_pair (by assumption) ?_)
    | (with_reducible refine keeps_of_opt (by assumption) ?_)
    | dsimp only)

theorem keeps_ioSetting {u : State} {s : State} (e : Nat × Word) (h : Keeps u s) :
 Keeps u (ioSetting s e) := by
  unfold ioSetting
  repeat' (first
    | with_reducible assumption
    | with_reducible apply keeps_wr
    | intro _
    | with_reducible apply keeps_ite
    | split
    | (with_reducible refine keeps_of_pair (by assumption) ?_)
    | (with_reducible refine keeps_of_opt (by assumption) ?_)
    | dsimp only)

theorem keeps_loadIoRecord {u : State} {s : State} (h : Keeps u s) :
 Keeps u (loadIoRecord s) := by
  unfold loadIoRecord
  repeat' (first
    | with_reducible assumption
    | with_reducible apply keeps_vccoUpdate
    | with_reducible apply keeps_ioSetting
    | with_reducible apply keeps_foldl
    | with_reducible apply keeps_foldl_snd
    | intro _
    | with_reducible apply keeps_ite
    | split
    | (with_reducible refine keeps_of_pair (by assumption) ?_)
    | (with_reducible refine keeps_of_opt (by assumption) ?_)
    | dsimp only)

theorem keeps_moveDelay {u : State} (b c : Nat) {s : State} (h : Keeps u s) :
 Keeps u (moveDelay b c s) := by
  unfold moveDelay
  repeat' (first
    | with_reducible assumption
    | with_reducible apply keeps_wr
    | intro _
    | with_reducible apply keeps_ite
    | split
    | (with_reducible refine keeps_of_pair (by assumption) ?_)
    | (with_reducible refine keeps_of_opt (by assumption) ?_)
    | dsimp only)

theorem keeps_delayStep {u : State} {s : State} (e : Nat × Nat) (h : Keeps u s) :
 Keeps u (delayStep s e) := by
  unfold delayStep
  repeat' (first
    | with_reducible assumption
    | with_reducible apply keeps_moveDelay
    | intro _
    | with_reducible apply keeps_ite
    | split
    | (with_reducible refine keeps_of_pair (by assumption) ?_)
    | (with_reducible refine keeps_of_opt (by assumption) ?_)
    | dsimp only)

theorem keeps_moveDelays {u : State} {s : State} (h : Keeps u s) :
 Keeps u (moveDelays s) := by
  unfold moveDelays
  repeat' (first
    | with_reducible assumption
    | with_reducible apply keeps_delayStep
    | with_reducible apply keeps_foldl
    | with_reducible apply keeps_foldl_snd
    | intro _
    | with_reducible apply keeps_ite
    | split
    | (with_reducible refine keeps_of_pair (by assumption) ?_)
    | (with_reducible refine keeps_of_opt (by assumption) ?_)
    | dsimp only)

theorem keeps_dlyWrite {u : State} (b c : Nat) (v : Word) {s : State} (h : Keeps u s) :
 Keeps u (dlyWrite b c v s) := by
  unfold dlyWrite
  repeat' (first
    | with_reducible assumption
    | with_reducible apply keeps_wr
    | with_reducible apply keeps_delayStep
    | intro _
    | with_reducible apply keeps_ite
    | split
    | (with_reducible refine keeps_of_pair (by assumption) ?_)
    | (with_reducible refine keeps_of_opt (by assumption) ?_)
    | dsimp only)

theorem keeps_execDlyWrite {u : State} (rq : Requester) (b : IobId) (c : Fin 48) (v : Word) {s : State} (h : Keeps u s) :
 KeepsOut u (execDlyWrite rq b c v s) := by
  unfold execDlyWrite
  repeat' (first
    | with_reducible assumption
    | with_reducible apply keeps_onPage
    | with_reducible apply keeps_dlyWrite
    | with_reducible apply keepsOut_next
    | intro _
    | with_reducible apply keepsOut_ite
    | with_reducible apply keeps_ite
    | split
    | (with_reducible refine keeps_of_pair (by assumption) ?_)
    | (with_reducible refine keeps_of_opt (by assumption) ?_)
    | dsimp only)

end Sys2Proof.Machine
end

