-- ==== Sys2Proof/Laws/KeepsRing.lean ====
section
/-! SUPPORT. Every operation of Machine/Ring.lean keeps (Laws/Keeps.lean). -/
set_option linter.unusedTactic false
set_option linter.unreachableTactic false
set_option linter.unusedVariables false

namespace Sys2Proof.Machine

open Sys2Proof

theorem keeps_setQuality {u : State} (q : Nat) {s : State} (h : Keeps u s) :
 Keeps u (setQuality q s) := by
  unfold setQuality
  repeat' (first
    | with_reducible assumption
    | with_reducible apply keeps_wrf
    | with_reducible apply keeps_irq
    | intro _
    | with_reducible apply keeps_ite
    | split
    | (with_reducible refine keeps_of_pair (by assumption) ?_)
    | (with_reducible refine keeps_of_opt (by assumption) ?_)
    | dsimp only)

theorem keeps_decideQuality {u : State} {s : State} (h : Keeps u s) :
 Keeps u (decideQuality s) := by
  unfold decideQuality
  repeat' (first
    | with_reducible assumption
    | with_reducible apply keeps_setQuality
    | intro _
    | with_reducible apply keeps_ite
    | split
    | (with_reducible refine keeps_of_pair (by assumption) ?_)
    | (with_reducible refine keeps_of_opt (by assumption) ?_)
    | dsimp only)

theorem keeps_ringServe {u : State} (fuel : Nat) {s : State} (h : Keeps u s) :
 Keeps u (ringServe fuel s) := by
  induction fuel generalizing s with
  | zero => exact h
  | succ fuel ih =>
    unfold ringServe
    repeat' (first
      | with_reducible assumption
      | with_reducible apply ih
      | with_reducible apply keeps_setRing
      | with_reducible apply keeps_send
      | intro _
      | with_reducible apply keeps_ite
      | split
      | (with_reducible refine keeps_of_pair (by assumption) ?_)
      | (with_reducible refine keeps_of_opt (by assumption) ?_)
      | dsimp only)

theorem keeps_sendChar {u : State} (kind : Nat) (v : BitVec 64) {s : State} (h : Keeps u s) :
 Keeps u (sendChar kind v s) := by
  unfold sendChar
  repeat' (first
    | with_reducible assumption
    | with_reducible apply keeps_setRing
    | intro _
    | with_reducible apply keeps_ite
    | split
    | (with_reducible refine keeps_of_pair (by assumption) ?_)
    | (with_reducible refine keeps_of_opt (by assumption) ?_)
    | dsimp only)

theorem keeps_launchSyncs {u : State} {s : State} (h : Keeps u s) :
 Keeps u (launchSyncs s) := by
  unfold launchSyncs
  repeat' (first
    | with_reducible assumption
    | with_reducible apply keeps_setRing
    | with_reducible apply keeps_countN
    | with_reducible apply keeps_sendChar
    | with_reducible apply keeps_foldl
    | with_reducible apply keeps_foldl_snd
    | intro _
    | with_reducible apply keeps_ite
    | split
    | (with_reducible refine keeps_of_pair (by assumption) ?_)
    | (with_reducible refine keeps_of_opt (by assumption) ?_)
    | dsimp only)

theorem keeps_ringPump {u : State} {s : State} (h : Keeps u s) :
 Keeps u (ringPump s) := by
  unfold ringPump
  repeat' (first
    | with_reducible assumption
    | with_reducible apply keeps_ringServe
    | with_reducible apply keeps_launchSyncs
    | intro _
    | with_reducible apply keeps_ite
    | split
    | (with_reducible refine keeps_of_pair (by assumption) ?_)
    | (with_reducible refine keeps_of_opt (by assumption) ?_)
    | dsimp only)

theorem keeps_ringLaunch {u : State} (loc : Word) (ws : List TWord) {s : State} (h : Keeps u s) :
 Keeps u (ringLaunch loc ws s) := by
  unfold ringLaunch
  repeat' (first
    | with_reducible assumption
    | with_reducible apply keeps_setRing
    | with_reducible apply keeps_count
    | with_reducible apply keeps_ringPump
    | intro _
    | with_reducible apply keeps_ite
    | split
    | (with_reducible refine keeps_of_pair (by assumption) ?_)
    | (with_reducible refine keeps_of_opt (by assumption) ?_)
    | dsimp only)

theorem keeps_ringForward {u : State} (origin : Nat) (ws : List TWord) {s : State} (h : Keeps u s) :
 Keeps u (ringForward origin ws s) := by
  unfold ringForward
  repeat' (first
    | with_reducible assumption
    | with_reducible apply keeps_setRing
    | with_reducible apply keeps_ringPump
    | intro _
    | with_reducible apply keeps_ite
    | split
    | (with_reducible refine keeps_of_pair (by assumption) ?_)
    | (with_reducible refine keeps_of_opt (by assumption) ?_)
    | dsimp only)

theorem keeps_ringBroadcast {u : State} (cls svc : Nat) (payload : List TWord) {s : State} (h : Keeps u s) :
 Keeps u (ringBroadcast cls svc payload s) := by
  unfold ringBroadcast
  repeat' (first
    | with_reducible assumption
    | with_reducible apply keeps_ringLaunch
    | intro _
    | with_reducible apply keeps_ite
    | split
    | (with_reducible refine keeps_of_pair (by assumption) ?_)
    | (with_reducible refine keeps_of_opt (by assumption) ?_)
    | dsimp only)

theorem keeps_absentRing {u : State} (route head : Word) {s : State} (h : Keeps u s) :
 Keeps u (absentRing route head s) := by
  unfold absentRing
  repeat' (first
    | with_reducible assumption
    | with_reducible apply keeps_wr
    | with_reducible apply keeps_count
    | with_reducible apply keeps_irq
    | with_reducible apply keeps_send
    | intro _
    | with_reducible apply keeps_ite
    | split
    | (with_reducible refine keeps_of_pair (by assumption) ?_)
    | (with_reducible refine keeps_of_opt (by assumption) ?_)
    | dsimp only)

theorem keeps_ringRefused {u : State} (m : Msg) {s : State} (h : Keeps u s) :
 Keeps u (ringRefused m s) := by
  unfold ringRefused
  repeat' (first
    | with_reducible assumption
    | with_reducible apply keeps_malformed
    | with_reducible apply keeps_send
    | intro _
    | with_reducible apply keeps_ite
    | split
    | (with_reducible refine keeps_of_pair (by assumption) ?_)
    | (with_reducible refine keeps_of_opt (by assumption) ?_)
    | dsimp only)

theorem keeps_ringPortTake {u : State} (fuel : Nat) {s : State} (h : Keeps u s) :
 Keeps u (ringPortTake fuel s) := by
  induction fuel generalizing s with
  | zero => exact h
  | succ fuel ih =>
    unfold ringPortTake
    repeat' (first
      | with_reducible assumption
      | with_reducible apply ih
      | with_reducible apply keeps_dropMsg
      | with_reducible apply keeps_ringLaunch
      | with_reducible apply keeps_absentRing
      | with_reducible apply keeps_ringRefused
      | intro _
      | with_reducible apply keeps_ite
      | split
      | (with_reducible refine keeps_of_pair (by assumption) ?_)
      | (with_reducible refine keeps_of_opt (by assumption) ?_)
      | dsimp only)

theorem keeps_stopOut {u : State} {s : State} (h : Keeps u s) :
 Keeps u (stopOut s) := by
  unfold stopOut
  repeat' (first
    | with_reducible assumption
    | with_reducible apply keeps_setChan
    | intro _
    | with_reducible apply keeps_ite
    | split
    | (with_reducible refine keeps_of_pair (by assumption) ?_)
    | (with_reducible refine keeps_of_opt (by assumption) ?_)
    | dsimp only)

theorem keeps_leaveUp {u : State} {s : State} (h : Keeps u s) :
 Keeps u (leaveUp s) := by
  unfold leaveUp
  repeat' (first
    | with_reducible assumption
    | with_reducible apply keeps_setRing
    | with_reducible apply keeps_setTime
    | with_reducible apply keeps_send
    | with_reducible apply keeps_setQuality
    | with_reducible apply keeps_foldl
    | with_reducible apply keeps_foldl_snd
    | intro _
    | with_reducible apply keeps_ite
    | split
    | (with_reducible refine keeps_of_pair (by assumption) ?_)
    | (with_reducible refine keeps_of_opt (by assumption) ?_)
    | dsimp only)

theorem keeps_setRingState {u : State} (n : Nat) {s : State} (h : Keeps u s) :
 Keeps u (setRingState n s) := by
  unfold setRingState
  repeat' (first
    | with_reducible assumption
    | with_reducible apply keeps_wrf
    | with_reducible apply keeps_irq
    | with_reducible apply keeps_leaveUp
    | intro _
    | with_reducible apply keeps_ite
    | split
    | (with_reducible refine keeps_of_pair (by assumption) ?_)
    | (with_reducible refine keeps_of_opt (by assumption) ?_)
    | dsimp only)

theorem keeps_segmentUp {u : State} (out : Bool) (live : Nat) {s : State} (h : Keeps u s) :
 Keeps u (segmentUp out live s) := by
  unfold segmentUp
  repeat' (first
    | with_reducible assumption
    | with_reducible apply keeps_setRing
    | with_reducible apply keeps_wrf
    | with_reducible apply keeps_sendChar
    | with_reducible apply keeps_ringPump
    | with_reducible apply keeps_stopOut
    | with_reducible apply keeps_setRingState
    | intro _
    | with_reducible apply keeps_ite
    | split
    | (with_reducible refine keeps_of_pair (by assumption) ?_)
    | (with_reducible refine keeps_of_opt (by assumption) ?_)
    | dsimp only)

theorem keeps_execSegmentUp {u : State} (out : Bool) (live : BitVec 4) {s : State} (h : Keeps u s) :
 KeepsOut u (execSegmentUp out live s) := by
  unfold execSegmentUp
  repeat' (first
    | with_reducible assumption
    | with_reducible apply keeps_segmentUp
    | with_reducible apply keepsOut_next
    | intro _
    | with_reducible apply keepsOut_ite
    | with_reducible apply keeps_ite
    | split
    | (with_reducible refine keeps_of_pair (by assumption) ?_)
    | (with_reducible refine keeps_of_opt (by assumption) ?_)
    | dsimp only)

theorem keeps_segmentDown {u : State} (out : Bool) {s : State} (h : Keeps u s) :
 Keeps u (segmentDown out s) := by
  unfold segmentDown
  repeat' (first
    | with_reducible assumption
    | with_reducible apply keeps_setRing
    | with_reducible apply keeps_wrf
    | with_reducible apply keeps_stopOut
    | with_reducible apply keeps_setRingState
    | intro _
    | with_reducible apply keeps_ite
    | split
    | (with_reducible refine keeps_of_pair (by assumption) ?_)
    | (with_reducible refine keeps_of_opt (by assumption) ?_)
    | dsimp only)

theorem keeps_execSegmentDown {u : State} (out : Bool) {s : State} (h : Keeps u s) :
 KeepsOut u (execSegmentDown out s) := by
  unfold execSegmentDown
  repeat' (first
    | with_reducible assumption
    | with_reducible apply keeps_segmentDown
    | with_reducible apply keepsOut_next
    | intro _
    | with_reducible apply keepsOut_ite
    | with_reducible apply keeps_ite
    | split
    | (with_reducible refine keeps_of_pair (by assumption) ?_)
    | (with_reducible refine keeps_of_opt (by assumption) ?_)
    | dsimp only)

theorem keeps_enumChar {u : State} (count : Nat) {s : State} (h : Keeps u s) :
 Keeps u (enumChar count s) := by
  unfold enumChar
  repeat' (first
    | with_reducible assumption
    | with_reducible apply keeps_setRing
    | with_reducible apply keeps_wrf
    | with_reducible apply keeps_count
    | with_reducible apply keeps_sendChar
    | intro _
    | with_reducible apply keeps_ite
    | split
    | (with_reducible refine keeps_of_pair (by assumption) ?_)
    | (with_reducible refine keeps_of_opt (by assumption) ?_)
    | dsimp only)

theorem keeps_execEnumChar {u : State} (n : Byte) {s : State} (h : Keeps u s) :
 KeepsOut u (execEnumChar n s) := by
  unfold execEnumChar
  repeat' (first
    | with_reducible assumption
    | with_reducible apply keeps_enumChar
    | with_reducible apply keepsOut_next
    | intro _
    | with_reducible apply keepsOut_ite
    | with_reducible apply keeps_ite
    | split
    | (with_reducible refine keeps_of_pair (by assumption) ?_)
    | (with_reducible refine keeps_of_opt (by assumption) ?_)
    | dsimp only)

theorem keeps_ringEntersUp {u : State} {s : State} (h : Keeps u s) :
 Keeps u (ringEntersUp s) := by
  unfold ringEntersUp
  repeat' (first
    | with_reducible assumption
    | with_reducible apply keeps_count
    | with_reducible apply keeps_setRingState
    | intro _
    | with_reducible apply keeps_ite
    | split
    | (with_reducible refine keeps_of_pair (by assumption) ?_)
    | (with_reducible refine keeps_of_opt (by assumption) ?_)
    | dsimp only)

theorem keeps_tmax {u : State} (v : BitVec 36) {s : State} (h : Keeps u s) :
 Keeps u (tmax v s) := by
  unfold tmax
  repeat' (first
    | with_reducible assumption
    | with_reducible apply keeps_setRing
    | with_reducible apply keeps_setTime
    | with_reducible apply keeps_sendChar
    | with_reducible apply keeps_ringEntersUp
    | intro _
    | with_reducible apply keeps_ite
    | split
    | (with_reducible refine keeps_of_pair (by assumption) ?_)
    | (with_reducible refine keeps_of_opt (by assumption) ?_)
    | dsimp only)

theorem keeps_execTmax {u : State} (v : BitVec 36) {s : State} (h : Keeps u s) :
 KeepsOut u (execTmax v s) := by
  unfold execTmax
  repeat' (first
    | with_reducible assumption
    | with_reducible apply keeps_tmax
    | with_reducible apply keepsOut_next
    | intro _
    | with_reducible apply keepsOut_ite
    | with_reducible apply keeps_ite
    | split
    | (with_reducible refine keeps_of_pair (by assumption) ?_)
    | (with_reducible refine keeps_of_opt (by assumption) ?_)
    | dsimp only)

theorem keeps_laneRetired {u : State} {s : State} (h : Keeps u s) :
 Keeps u (laneRetired s) := by
  unfold laneRetired
  repeat' (first
    | with_reducible assumption
    | with_reducible apply keeps_md
    | with_reducible apply keeps_irq
    | with_reducible apply keeps_err
    | with_reducible apply keeps_drawn
    | with_reducible apply keeps_setChan
    | with_reducible apply keeps_segmentDown
    | intro _
    | with_reducible apply keeps_ite
    | split
    | (with_reducible refine keeps_of_pair (by assumption) ?_)
    | (with_reducible refine keeps_of_opt (by assumption) ?_)
    | dsimp only)

theorem keeps_crossWord {u : State} (c : ChanId) (upset : Bool) {s : State} (h : Keeps u s) :
    Keeps u (crossWord c upset s) := by
  have ha := keeps_arrive c upset h
  refine keeps_ite h ?_
  cases c
  case tpIn => exact keeps_tilePortWord _ _ h
  case ringOut => exact keeps_mdChan _ _ ha
  case svcDown => exact keeps_ite (keeps_ringPortTake _ ha) (keeps_ite (keeps_timeService ha) ha)
  all_goals exact ha

theorem keeps_execCrossingWord {u : State} (c : ChanId) (upset : Bool) {s : State} (h : Keeps u s) :
 KeepsOut u (execCrossingWord c upset s) := by
  unfold execCrossingWord
  repeat' (first
    | with_reducible assumption
    | with_reducible apply keeps_settleTap
    | with_reducible apply keeps_crossWord
    | with_reducible apply keepsOut_next
    | intro _
    | with_reducible apply keepsOut_ite
    | with_reducible apply keeps_ite
    | split
    | (with_reducible refine keeps_of_pair (by assumption) ?_)
    | (with_reducible refine keeps_of_opt (by assumption) ?_)
    | dsimp only)

theorem keeps_creditReturned {u : State} (c : ChanId) {s : State} (h : Keeps u s) :
 Keeps u (creditReturned c s) := by
  unfold creditReturned
  repeat' (first
    | with_reducible assumption
    | with_reducible apply keeps_creditBack
    | with_reducible apply keeps_ringPump
    | intro _
    | with_reducible apply keeps_ite
    | split
    | (with_reducible refine keeps_of_pair (by assumption) ?_)
    | (with_reducible refine keeps_of_opt (by assumption) ?_)
    | dsimp only)

theorem keeps_execCreditReturn {u : State} (c : ChanId) {s : State} (h : Keeps u s) :
 KeepsOut u (execCreditReturn c s) := by
  unfold execCreditReturn
  repeat' (first
    | with_reducible assumption
    | with_reducible apply keeps_settleTap
    | with_reducible apply keeps_creditReturned
    | with_reducible apply keepsOut_next
    | intro _
    | with_reducible apply keepsOut_ite
    | with_reducible apply keeps_ite
    | split
    | (with_reducible refine keeps_of_pair (by assumption) ?_)
    | (with_reducible refine keeps_of_opt (by assumption) ?_)
    | dsimp only)

theorem keeps_verdictReturned {u : State} (c : ChanId) {s : State} (h : Keeps u s) :
 Keeps u (verdictReturned c s) := by
  unfold verdictReturned
  repeat' (first
    | with_reducible assumption
    | with_reducible apply keeps_verdict
    | with_reducible apply keeps_ringPump
    | with_reducible apply keeps_laneRetired
    | intro _
    | with_reducible apply keeps_ite
    | split
    | (with_reducible refine keeps_of_pair (by assumption) ?_)
    | (with_reducible refine keeps_of_opt (by assumption) ?_)
    | dsimp only)

theorem keeps_execParityVerdict {u : State} (c : ChanId) {s : State} (h : Keeps u s) :
 KeepsOut u (execParityVerdict c s) := by
  unfold execParityVerdict
  repeat' (first
    | with_reducible assumption
    | with_reducible apply keeps_verdictReturned
    | with_reducible apply keepsOut_next
    | intro _
    | with_reducible apply keepsOut_ite
    | with_reducible apply keeps_ite
    | split
    | (with_reducible refine keeps_of_pair (by assumption) ?_)
    | (with_reducible refine keeps_of_opt (by assumption) ?_)
    | dsimp only)

end Sys2Proof.Machine
end

