-- ==== Sys2Proof/Laws/KeepsOwl.lean ====
section
/-! SUPPORT. Every operation of Machine/Owl.lean keeps (Laws/Keeps.lean). -/
set_option linter.unusedTactic false
set_option linter.unreachableTactic false
set_option linter.unusedVariables false

namespace Sys2Proof.Machine

open Sys2Proof

theorem keeps_owlPortWrite {u : State} (n : Nat) (pin : Bool) (v : Word) {s : State} (h : Keeps u s) :
 Keeps u (owlPortWrite n pin v s) := by
  unfold owlPortWrite
  repeat' (first
    | with_reducible assumption
    | with_reducible apply keeps_wr
    | with_reducible apply keeps_permFault
    | intro _
    | with_reducible apply keeps_ite
    | split
    | (with_reducible refine keeps_of_pair (by assumption) ?_)
    | (with_reducible refine keeps_of_opt (by assumption) ?_)
    | dsimp only)

theorem keeps_execOwlPortWrite {u : State} (rq : Requester) (n : Fin 4) (pin : Bool) (v : Word) {s : State} (h : Keeps u s) :
 KeepsOut u (execOwlPortWrite rq n pin v s) := by
  unfold execOwlPortWrite
  repeat' (first
    | with_reducible assumption
    | with_reducible apply keeps_onPage
    | with_reducible apply keeps_owlPortWrite
    | with_reducible apply keepsOut_next
    | intro _
    | with_reducible apply keepsOut_ite
    | with_reducible apply keeps_ite
    | split
    | (with_reducible refine keeps_of_pair (by assumption) ?_)
    | (with_reducible refine keeps_of_opt (by assumption) ?_)
    | dsimp only)

end Sys2Proof.Machine
end

