-- ==== Sys2Proof/Laws/KeepsSched.lean ====
section
/-! SUPPORT. Every operation of Machine/Sched.lean keeps (Laws/Keeps.lean). -/
set_option linter.unusedTactic false
set_option linter.unreachableTactic false
set_option linter.unusedVariables false

namespace Sys2Proof.Machine

open Sys2Proof

theorem keeps_setCtx {u : State} (t : Nat) (x : Ctx) {s : State} (h : Keeps u s) :
 Keeps u (setCtx t x s) := by
  unfold setCtx
  repeat' (first
    | with_reducible assumption
    | with_reducible apply keeps_setSched
    | intro _
    | with_reducible apply keeps_ite
    | split
    | (with_reducible refine keeps_of_pair (by assumption) ?_)
    | (with_reducible refine keeps_of_opt (by assumption) ?_)
    | dsimp only)

theorem keeps_mdCtx {u : State} (t : Nat) (f : Ctx → Ctx) {s : State} (h : Keeps u s) :
 Keeps u (mdCtx t f s) := by
  unfold mdCtx
  repeat' (first
    | with_reducible assumption
    | with_reducible apply keeps_setCtx
    | intro _
    | with_reducible apply keeps_ite
    | split
    | (with_reducible refine keeps_of_pair (by assumption) ?_)
    | (with_reducible refine keeps_of_opt (by assumption) ?_)
    | dsimp only)

theorem keeps_setArg {u : State} (n : Nat) (w : TWord) {s : State} (h : Keeps u s) :
 Keeps u (setArg n w s) := by
  unfold setArg
  repeat' (first
    | with_reducible assumption
    | with_reducible apply keeps_setSched
    | intro _
    | with_reducible apply keeps_ite
    | split
    | (with_reducible refine keeps_of_pair (by assumption) ?_)
    | (with_reducible refine keeps_of_opt (by assumption) ?_)
    | dsimp only)

theorem keeps_setArgs {u : State} (base : Nat) (ws : List TWord) {s : State} (h : Keeps u s) :
 Keeps u (setArgs base ws s) := by
  unfold setArgs
  repeat' (first
    | with_reducible assumption
    | with_reducible apply keeps_setArg
    | with_reducible apply keeps_foldl
    | with_reducible apply keeps_foldl_snd
    | intro _
    | with_reducible apply keeps_ite
    | split
    | (with_reducible refine keeps_of_pair (by assumption) ?_)
    | (with_reducible refine keeps_of_opt (by assumption) ?_)
    | dsimp only)

theorem keeps_dropSaved {u : State} (slot : Nat) {s : State} (h : Keeps u s) :
 Keeps u (dropSaved slot s) := by
  unfold dropSaved
  repeat' (first
    | with_reducible assumption
    | with_reducible apply keeps_setSched
    | intro _
    | with_reducible apply keeps_ite
    | split
    | (with_reducible refine keeps_of_pair (by assumption) ?_)
    | (with_reducible refine keeps_of_opt (by assumption) ?_)
    | dsimp only)

theorem keeps_putSaved {u : State} (slot : Nat) (ws : List TWord) {s : State} (h : Keeps u s) :
 Keeps u (putSaved slot ws s) := by
  unfold putSaved
  repeat' (first
    | with_reducible assumption
    | with_reducible apply keeps_setSched
    | with_reducible apply keeps_dropSaved
    | with_reducible apply keeps_foldl
    | with_reducible apply keeps_foldl_snd
    | intro _
    | with_reducible apply keeps_ite
    | split
    | (with_reducible refine keeps_of_pair (by assumption) ?_)
    | (with_reducible refine keeps_of_opt (by assumption) ?_)
    | dsimp only)

theorem keeps_record {u : State} (time info : Word) {s : State} (h : Keeps u s) :
 Keeps u (record time info s) := by
  unfold record
  repeat' (first
    | with_reducible assumption
    | with_reducible apply keeps_setSched
    | with_reducible apply keeps_wr
    | with_reducible apply keeps_count
    | with_reducible apply keeps_irq
    | intro _
    | with_reducible apply keeps_ite
    | split
    | (with_reducible refine keeps_of_pair (by assumption) ?_)
    | (with_reducible refine keeps_of_opt (by assumption) ?_)
    | dsimp only)

theorem keeps_setCyc {u : State} (x : SchedCycle) {s : State} (h : Keeps u s) :
 Keeps u (setCyc x s) := by
  unfold setCyc
  repeat' (first
    | with_reducible assumption
    | with_reducible apply keeps_setSched
    | intro _
    | with_reducible apply keeps_ite
    | split
    | (with_reducible refine keeps_of_pair (by assumption) ?_)
    | (with_reducible refine keeps_of_opt (by assumption) ?_)
    | dsimp only)

theorem keeps_trace {u : State} (kind task detail : Nat) {s : State} (h : Keeps u s) :
 Keeps u (trace kind task detail s) := by
  unfold trace
  repeat' (first
    | with_reducible assumption
    | with_reducible apply keeps_record
    | intro _
    | with_reducible apply keeps_ite
    | split
    | (with_reducible refine keeps_of_pair (by assumption) ?_)
    | (with_reducible refine keeps_of_opt (by assumption) ?_)
    | dsimp only)

theorem keeps_passAbsence {u : State} {s : State} (h : Keeps u s) :
 Keeps u (passAbsence s) := by
  unfold passAbsence
  repeat' (first
    | with_reducible assumption
    | with_reducible apply keeps_setSched
    | with_reducible apply keeps_record
    | intro _
    | with_reducible apply keeps_ite
    | split
    | (with_reducible refine keeps_of_pair (by assumption) ?_)
    | (with_reducible refine keeps_of_opt (by assumption) ?_)
    | dsimp only)

theorem keeps_spillWord {u : State} (e b w : Nat) (v : TWord) {s : State} (h : Keeps u s) :
 Keeps u (spillWord e b w v s) := by
  unfold spillWord
  repeat' (first
    | with_reducible assumption
    | with_reducible apply keeps_enterReq
    | (with_reducible refine keeps_setBanks_same _ rfl ?_)
    | (with_reducible refine keeps_setBanks_clear _ _ _ rfl ?_)
    | (with_reducible refine keeps_setBanks_filter _ _ rfl ?_)
    | intro _
    | with_reducible apply keeps_ite
    | split
    | (with_reducible refine keeps_of_pair (by assumption) ?_)
    | (with_reducible refine keeps_of_opt (by assumption) ?_)
    | dsimp only)

theorem keeps_spillOne {u : State} {s : State} (h : Keeps u s) :
 Keeps u (spillOne s) := by
  unfold spillOne
  repeat' (first
    | with_reducible assumption
    | with_reducible apply keeps_setSched
    | with_reducible apply keeps_wr
    | with_reducible apply keeps_trace
    | with_reducible apply keeps_spillWord
    | intro _
    | with_reducible apply keeps_ite
    | split
    | (with_reducible refine keeps_of_pair (by assumption) ?_)
    | (with_reducible refine keeps_of_opt (by assumption) ?_)
    | dsimp only)

theorem keeps_execTraceSpill {u : State} {s : State} (h : Keeps u s) :
 KeepsOut u (execTraceSpill s) := by
  unfold execTraceSpill
  repeat' (first
    | with_reducible assumption
    | with_reducible apply keeps_spillOne
    | with_reducible apply keepsOut_next
    | intro _
    | with_reducible apply keepsOut_ite
    | with_reducible apply keeps_ite
    | split
    | (with_reducible refine keeps_of_pair (by assumption) ?_)
    | (with_reducible refine keeps_of_opt (by assumption) ?_)
    | dsimp only)

theorem keeps_setQueue {u : State} (q : Nat) (l : List QEntry) {s : State} (h : Keeps u s) :
 Keeps u (setQueue q l s) := by
  unfold setQueue
  repeat' (first
    | with_reducible assumption
    | with_reducible apply keeps_setSched
    | intro _
    | with_reducible apply keeps_ite
    | split
    | (with_reducible refine keeps_of_pair (by assumption) ?_)
    | (with_reducible refine keeps_of_opt (by assumption) ?_)
    | dsimp only)

theorem keeps_queueStall {u : State} {s : State} (h : Keeps u s) :
 Keeps u (queueStall s) := by
  unfold queueStall
  repeat' (first
    | with_reducible assumption
    | with_reducible apply keeps_count
    | with_reducible apply keeps_setCyc
    | intro _
    | with_reducible apply keeps_ite
    | split
    | (with_reducible refine keeps_of_pair (by assumption) ?_)
    | (with_reducible refine keeps_of_opt (by assumption) ?_)
    | dsimp only)

theorem keeps_pushEvent {u : State} (q index : Nat) (word : Word) (coalesced : Nat) {s : State} (h : Keeps u s) :
 Keeps u (pushEvent q index word coalesced s) := by
  unfold pushEvent
  repeat' (first
    | with_reducible assumption
    | with_reducible apply keeps_md
    | with_reducible apply keeps_setQueue
    | intro _
    | with_reducible apply keeps_ite
    | split
    | (with_reducible refine keeps_of_pair (by assumption) ?_)
    | (with_reducible refine keeps_of_opt (by assumption) ?_)
    | dsimp only)

theorem keeps_coalesce {u : State} (q index : Nat) (word : Word) (extra : Nat) {s : State} (h : Keeps u s) :
 Keeps u (coalesce q index word extra s) := by
  unfold coalesce
  repeat' (first
    | with_reducible assumption
    | with_reducible apply keeps_count
    | with_reducible apply keeps_irq
    | with_reducible apply keeps_setQueue
    | with_reducible apply keeps_pushEvent
    | intro _
    | with_reducible apply keeps_ite
    | split
    | (with_reducible refine keeps_of_pair (by assumption) ?_)
    | (with_reducible refine keeps_of_opt (by assumption) ?_)
    | dsimp only)

theorem keeps_readyTask {u : State} (t : Nat) (word : Word) (extra src : Nat) {s : State} (h : Keeps u s) :
 Keeps u (readyTask t word extra src s) := by
  unfold readyTask
  repeat' (first
    | with_reducible assumption
    | with_reducible apply keeps_count
    | with_reducible apply keeps_irq
    | with_reducible apply keeps_setCtx
    | with_reducible apply keeps_trace
    | intro _
    | with_reducible apply keeps_ite
    | split
    | (with_reducible refine keeps_of_pair (by assumption) ?_)
    | (with_reducible refine keeps_of_opt (by assumption) ?_)
    | dsimp only)

theorem keeps_cancelEffect {u : State} (t : Nat) {s : State} (h : Keeps u s) :
 Keeps u (cancelEffect t s).2 := by
  unfold cancelEffect
  repeat' (first
    | with_reducible assumption
    | with_reducible apply keeps_setCtx
    | with_reducible apply keeps_dropSaved
    | intro _
    | with_reducible apply keeps_ite_snd
    | with_reducible apply keeps_ite
    | split
    | (with_reducible refine keeps_of_pair (by assumption) ?_)
    | (with_reducible refine keeps_of_opt (by assumption) ?_)
    | dsimp only)

theorem keeps_markCancelled {u : State} (t : Nat) {s : State} (h : Keeps u s) :
 Keeps u (markCancelled t s) := by
  unfold markCancelled
  repeat' (first
    | with_reducible assumption
    | with_reducible apply keeps_setCyc
    | intro _
    | with_reducible apply keeps_ite
    | split
    | (with_reducible refine keeps_of_pair (by assumption) ?_)
    | (with_reducible refine keeps_of_opt (by assumption) ?_)
    | dsimp only)

theorem keeps_cancelTask {u : State} (t : Nat) {s : State} (h : Keeps u s) :
 Keeps u (cancelTask t s) := by
  unfold cancelTask
  repeat' (first
    | with_reducible assumption
    | with_reducible apply keeps_trace
    | with_reducible apply keeps_cancelEffect
    | with_reducible apply keeps_markCancelled
    | intro _
    | with_reducible apply keeps_ite
    | split
    | (with_reducible refine keeps_of_pair (by assumption) ?_)
    | (with_reducible refine keeps_of_opt (by assumption) ?_)
    | dsimp only)

theorem keeps_abandonTask {u : State} (t : Nat) {s : State} (h : Keeps u s) :
 Keeps u (abandonTask t s) := by
  unfold abandonTask
  repeat' (first
    | with_reducible assumption
    | with_reducible apply keeps_setCtx
    | with_reducible apply keeps_trace
    | with_reducible apply keeps_cancelEffect
    | with_reducible apply keeps_markCancelled
    | intro _
    | with_reducible apply keeps_ite
    | split
    | (with_reducible refine keeps_of_pair (by assumption) ?_)
    | (with_reducible refine keeps_of_opt (by assumption) ?_)
    | dsimp only)

theorem keeps_disableTask {u : State} (t : Nat) {s : State} (h : Keeps u s) :
 Keeps u (disableTask t s) := by
  unfold disableTask
  repeat' (first
    | with_reducible assumption
    | with_reducible apply keeps_mdCtx
    | with_reducible apply keeps_abandonTask
    | intro _
    | with_reducible apply keeps_ite
    | split
    | (with_reducible refine keeps_of_pair (by assumption) ?_)
    | (with_reducible refine keeps_of_opt (by assumption) ?_)
    | dsimp only)

theorem keeps_enableTask {u : State} (t : Nat) {s : State} (h : Keeps u s) :
 Keeps u (enableTask t s) := by
  unfold enableTask
  repeat' (first
    | with_reducible assumption
    | with_reducible apply keeps_mdCtx
    | intro _
    | with_reducible apply keeps_ite
    | split
    | (with_reducible refine keeps_of_pair (by assumption) ?_)
    | (with_reducible refine keeps_of_opt (by assumption) ?_)
    | dsimp only)

theorem keeps_nextWalk {u s t : State} {w : Walk} (e : nextWalk s = some (w, t)) (h : Keeps u s) : Keeps u t := by
  unfold nextWalk at e
  repeat' (first
    | with_reducible assumption
    | with_reducible apply keeps_setSched
    | with_reducible apply keeps_setQueue
    | split at e
    | cases e
    | dsimp only at e)

theorem keeps_timerDue {u : State} (n : Nat) {s : State} (h : Keeps u s) :
 Keeps u (timerDue n s) := by
  unfold timerDue
  repeat' (first
    | with_reducible assumption
    | with_reducible apply keeps_md
    | with_reducible apply keeps_wr64
    | with_reducible apply keeps_countF
    | with_reducible apply keeps_coalesce
    | intro _
    | with_reducible apply keeps_ite
    | split
    | (with_reducible refine keeps_of_pair (by assumption) ?_)
    | (with_reducible refine keeps_of_opt (by assumption) ?_)
    | dsimp only)

theorem keeps_execTimerFire {u : State} (n : Fin 64) {s : State} (h : Keeps u s) :
 KeepsOut u (execTimerFire n s) := by
  unfold execTimerFire
  repeat' (first
    | with_reducible assumption
    | with_reducible apply keeps_timerDue
    | with_reducible apply keepsOut_next
    | intro _
    | with_reducible apply keepsOut_ite
    | with_reducible apply keeps_ite
    | split
    | (with_reducible refine keeps_of_pair (by assumption) ?_)
    | (with_reducible refine keeps_of_opt (by assumption) ?_)
    | dsimp only)

theorem keeps_ioEdge {u : State} (b c : Nat) (rising : Bool) (stamp : BitVec 64) {s : State} (h : Keeps u s) :
 Keeps u (ioEdge b c rising stamp s) := by
  unfold ioEdge
  repeat' (first
    | with_reducible assumption
    | with_reducible apply keeps_wr
    | with_reducible apply keeps_count
    | with_reducible apply keeps_coalesce
    | intro _
    | with_reducible apply keeps_ite
    | split
    | (with_reducible refine keeps_of_pair (by assumption) ?_)
    | (with_reducible refine keeps_of_opt (by assumption) ?_)
    | dsimp only)

theorem keeps_execIoEdgeEvent {u : State} (b : IobId) (c : Fin 48) (rising : Bool) (stamp : BitVec 64) {s : State} (h : Keeps u s) :
 KeepsOut u (execIoEdgeEvent b c rising stamp s) := by
  unfold execIoEdgeEvent
  repeat' (first
    | with_reducible assumption
    | with_reducible apply keeps_ioEdge
    | with_reducible apply keepsOut_next
    | intro _
    | with_reducible apply keepsOut_ite
    | with_reducible apply keeps_ite
    | split
    | (with_reducible refine keeps_of_pair (by assumption) ?_)
    | (with_reducible refine keeps_of_opt (by assumption) ?_)
    | dsimp only)

theorem keeps_doorbellWrite {u : State} (rq : Requester) (n : Nat) (v : Word) {s : State} (h : Keeps u s) :
 Keeps u (doorbellWrite rq n v s) := by
  unfold doorbellWrite
  repeat' (first
    | with_reducible assumption
    | with_reducible apply keeps_count
    | with_reducible apply keeps_irq
    | with_reducible apply keeps_onPage
    | with_reducible apply keeps_permFault
    | with_reducible apply keeps_pushEvent
    | intro _
    | with_reducible apply keeps_ite
    | split
    | (with_reducible refine keeps_of_pair (by assumption) ?_)
    | (with_reducible refine keeps_of_opt (by assumption) ?_)
    | dsimp only)

theorem keeps_execDoorbell {u : State} (rq : Requester) (n : Fin 64) (v : Word) {s : State} (h : Keeps u s) :
 KeepsOut u (execDoorbell rq n v s) := by
  unfold execDoorbell
  repeat' (first
    | with_reducible assumption
    | with_reducible apply keeps_doorbellWrite
    | with_reducible apply keepsOut_next
    | intro _
    | with_reducible apply keepsOut_ite
    | with_reducible apply keeps_ite
    | split
    | (with_reducible refine keeps_of_pair (by assumption) ?_)
    | (with_reducible refine keeps_of_opt (by assumption) ?_)
    | dsimp only)

theorem keeps_schRemote {u : State} (m : Msg) {s : State} (h : Keeps u s) :
 Keeps u (schRemote m s) := by
  unfold schRemote
  repeat' (first
    | with_reducible assumption
    | with_reducible apply keeps_svcReply
    | with_reducible apply keeps_setArgs
    | intro _
    | with_reducible apply keeps_ite
    | split
    | (with_reducible refine keeps_of_pair (by assumption) ?_)
    | (with_reducible refine keeps_of_opt (by assumption) ?_)
    | dsimp only)

theorem keeps_postLoop {u : State} (fuel : Nat) {s : State} (h : Keeps u s) :
 Keeps u (postLoop fuel s) := by
  induction fuel generalizing s with
  | zero => exact h
  | succ fuel ih =>
    unfold postLoop
    repeat' (first
      | with_reducible assumption
      | with_reducible apply ih
      | with_reducible apply keeps_takeOne
      | with_reducible apply keeps_queueStall
      | with_reducible apply keeps_pushEvent
      | intro _
      | with_reducible apply keeps_ite
      | split
      | (with_reducible refine keeps_of_pair (by assumption) ?_)
      | (with_reducible refine keeps_of_opt (by assumption) ?_)
      | dsimp only)

theorem keeps_schService {u : State} {s : State} (h : Keeps u s) :
 Keeps u (schService s) := by
  unfold schService
  repeat' (first
    | with_reducible assumption
    | with_reducible apply keeps_takeMsg
    | with_reducible apply keeps_dropMsg
    | with_reducible apply keeps_receiverCheck
    | with_reducible apply keeps_schRemote
    | with_reducible apply keeps_postLoop
    | intro _
    | with_reducible apply keeps_ite
    | split
    | (with_reducible refine keeps_of_pair (by assumption) ?_)
    | (with_reducible refine keeps_of_opt (by assumption) ?_)
    | dsimp only)

theorem keeps_execSchServiceAccess {u : State} {s : State} (h : Keeps u s) :
 KeepsOut u (execSchServiceAccess s) := by
  unfold execSchServiceAccess
  repeat' (first
    | with_reducible assumption
    | with_reducible apply keeps_schService
    | with_reducible apply keepsOut_next
    | intro _
    | with_reducible apply keepsOut_ite
    | with_reducible apply keeps_ite
    | split
    | (with_reducible refine keeps_of_pair (by assumption) ?_)
    | (with_reducible refine keeps_of_opt (by assumption) ?_)
    | dsimp only)

theorem keeps_strayMsg {u : State} {s : State} (h : Keeps u s) :
 Keeps u (strayMsg s) := by
  unfold strayMsg
  repeat' (first
    | with_reducible assumption
    | with_reducible apply keeps_count
    | with_reducible apply keeps_irq
    | intro _
    | with_reducible apply keeps_ite
    | split
    | (with_reducible refine keeps_of_pair (by assumption) ?_)
    | (with_reducible refine keeps_of_opt (by assumption) ?_)
    | dsimp only)

theorem keeps_postCompletion {u : State} (t : Nat) (c : Ctx) (code : Nat) {s : State} (h : Keeps u s) :
 Keeps u (postCompletion t c code s) := by
  unfold postCompletion
  repeat' (first
    | with_reducible assumption
    | with_reducible apply keeps_pushEvent
    | intro _
    | with_reducible apply keeps_ite
    | split
    | (with_reducible refine keeps_of_pair (by assumption) ?_)
    | (with_reducible refine keeps_of_opt (by assumption) ?_)
    | dsimp only)

theorem keeps_openStage {u : State} (k : Nat) (walker : Bool) {s : State} (h : Keeps u s) :
 Keeps u (openStage k walker s) := by
  unfold openStage
  repeat' (first
    | with_reducible assumption
    | with_reducible apply keeps_setCyc
    | intro _
    | with_reducible apply keeps_ite
    | split
    | (with_reducible refine keeps_of_pair (by assumption) ?_)
    | (with_reducible refine keeps_of_opt (by assumption) ?_)
    | dsimp only)

theorem keeps_runCommand {u : State} (op t : Nat) {s : State} (h : Keeps u s) :
 Keeps u (runCommand op t s) := by
  unfold runCommand
  repeat' (first
    | with_reducible assumption
    | with_reducible apply keeps_readyTask
    | with_reducible apply keeps_cancelTask
    | with_reducible apply keeps_abandonTask
    | with_reducible apply keeps_disableTask
    | with_reducible apply keeps_enableTask
    | intro _
    | with_reducible apply keeps_ite
    | split
    | (with_reducible refine keeps_of_pair (by assumption) ?_)
    | (with_reducible refine keeps_of_opt (by assumption) ?_)
    | dsimp only)

theorem keeps_startCommand {u : State} {s : State} (h : Keeps u s) :
 Keeps u (startCommand s) := by
  unfold startCommand
  repeat' (first
    | with_reducible assumption
    | with_reducible apply keeps_setSched
    | with_reducible apply keeps_wrf
    | with_reducible apply keeps_openStage
    | with_reducible apply keeps_runCommand
    | intro _
    | with_reducible apply keeps_ite
    | split
    | (with_reducible refine keeps_of_pair (by assumption) ?_)
    | (with_reducible refine keeps_of_opt (by assumption) ?_)
    | dsimp only)

theorem keeps_applyComplete {u : State} (m : Msg) {s : State} (h : Keeps u s) :
 Keeps u (applyComplete m s) := by
  unfold applyComplete
  repeat' (first
    | with_reducible assumption
    | with_reducible apply keeps_count
    | with_reducible apply keeps_irq
    | with_reducible apply keeps_setCtx
    | with_reducible apply keeps_setArgs
    | with_reducible apply keeps_trace
    | with_reducible apply keeps_readyTask
    | with_reducible apply keeps_postCompletion
    | with_reducible apply keeps_openStage
    | intro _
    | with_reducible apply keeps_ite
    | split
    | (with_reducible refine keeps_of_pair (by assumption) ?_)
    | (with_reducible refine keeps_of_opt (by assumption) ?_)
    | dsimp only)

theorem keeps_applySuspend {u : State} (m : Msg) {s : State} (h : Keeps u s) :
 Keeps u (applySuspend m s) := by
  unfold applySuspend
  repeat' (first
    | with_reducible assumption
    | with_reducible apply keeps_setCtx
    | with_reducible apply keeps_putSaved
    | with_reducible apply keeps_trace
    | with_reducible apply keeps_postCompletion
    | intro _
    | with_reducible apply keeps_ite
    | split
    | (with_reducible refine keeps_of_pair (by assumption) ?_)
    | (with_reducible refine keeps_of_opt (by assumption) ?_)
    | dsimp only)

theorem keeps_argErrors {u : State} (c : Ctx) {s : State} (h : Keeps u s) :
 Keeps u (argErrors c s) := by
  unfold argErrors
  repeat' (first
    | with_reducible assumption
    | with_reducible apply keeps_err
    | with_reducible apply keeps_foldl
    | with_reducible apply keeps_foldl_snd
    | intro _
    | with_reducible apply keeps_ite
    | split
    | (with_reducible refine keeps_of_pair (by assumption) ?_)
    | (with_reducible refine keeps_of_opt (by assumption) ?_)
    | dsimp only)

theorem keeps_launchTask {u : State} (t k : Nat) {s : State} (h : Keeps u s) :
 Keeps u (launchTask t k s) := by
  unfold launchTask
  repeat' (first
    | with_reducible assumption
    | with_reducible apply keeps_setSched
    | with_reducible apply keeps_count
    | with_reducible apply keeps_send
    | with_reducible apply keeps_setCtx
    | with_reducible apply keeps_dropSaved
    | with_reducible apply keeps_trace
    | with_reducible apply keeps_argErrors
    | intro _
    | with_reducible apply keeps_ite
    | split
    | (with_reducible refine keeps_of_pair (by assumption) ?_)
    | (with_reducible refine keeps_of_opt (by assumption) ?_)
    | dsimp only)

theorem keeps_suspendTask {u : State} (v : Nat) {s : State} (h : Keeps u s) :
 Keeps u (suspendTask v s) := by
  unfold suspendTask
  repeat' (first
    | with_reducible assumption
    | with_reducible apply keeps_count
    | with_reducible apply keeps_send
    | with_reducible apply keeps_setCtx
    | with_reducible apply keeps_trace
    | intro _
    | with_reducible apply keeps_ite
    | split
    | (with_reducible refine keeps_of_pair (by assumption) ?_)
    | (with_reducible refine keeps_of_opt (by assumption) ?_)
    | dsimp only)

theorem keeps_blockTask {u : State} (t : Nat) {s : State} (h : Keeps u s) :
 Keeps u (blockTask t s) := by
  unfold blockTask
  repeat' (first
    | with_reducible assumption
    | with_reducible apply keeps_count
    | with_reducible apply keeps_irq
    | with_reducible apply keeps_setCtx
    | with_reducible apply keeps_dropSaved
    | with_reducible apply keeps_trace
    | intro _
    | with_reducible apply keeps_ite
    | split
    | (with_reducible refine keeps_of_pair (by assumption) ?_)
    | (with_reducible refine keeps_of_opt (by assumption) ?_)
    | dsimp only)

theorem keeps_decide_ {u : State} (l : List (Nat × Ctx)) {s : State} (h : Keeps u s) :
 Keeps u (decide_ l s) := by
  induction l generalizing s with
  | nil => exact h
  | cons x rest ih =>
    unfold decide_
    repeat' (first
      | with_reducible assumption
      | with_reducible apply ih
      | with_reducible apply keeps_launchTask
      | with_reducible apply keeps_suspendTask
      | with_reducible apply keeps_blockTask
      | intro _
      | with_reducible apply keeps_ite
      | split
      | (with_reducible refine keeps_of_pair (by assumption) ?_)
      | (with_reducible refine keeps_of_opt (by assumption) ?_)
      | dsimp only)

theorem keeps_closeCycle {u : State} {s : State} (h : Keeps u s) :
 Keeps u (closeCycle s) := by
  unfold closeCycle
  repeat' (first
    | with_reducible assumption
    | with_reducible apply keeps_setCyc
    | with_reducible apply keeps_passAbsence
    | with_reducible apply keeps_queueStall
    | with_reducible apply keeps_startCommand
    | intro _
    | with_reducible apply keeps_ite
    | split
    | (with_reducible refine keeps_of_pair (by assumption) ?_)
    | (with_reducible refine keeps_of_opt (by assumption) ?_)
    | dsimp only)

theorem keeps_dispatchStage {u : State} {s : State} (h : Keeps u s) :
 Keeps u (dispatchStage s) := by
  unfold dispatchStage
  repeat' (first
    | with_reducible assumption
    | with_reducible apply keeps_suspendTask
    | with_reducible apply keeps_decide_
    | intro _
    | with_reducible apply keeps_ite
    | split
    | (with_reducible refine keeps_of_pair (by assumption) ?_)
    | (with_reducible refine keeps_of_opt (by assumption) ?_)
    | dsimp only)

theorem keeps_endCycle {u : State} {s : State} (h : Keeps u s) :
 Keeps u (endCycle s) := by
  unfold endCycle
  repeat' (first
    | with_reducible assumption
    | with_reducible apply keeps_closeCycle
    | with_reducible apply keeps_dispatchStage
    | intro _
    | with_reducible apply keeps_ite
    | split
    | (with_reducible refine keeps_of_pair (by assumption) ?_)
    | (with_reducible refine keeps_of_opt (by assumption) ?_)
    | dsimp only)

theorem keeps_enterStage {u : State} (k : Nat) (walker : Bool) {s : State} (h : Keeps u s) :
 Keeps u (enterStage k walker s) := by
  unfold enterStage
  repeat' (first
    | with_reducible assumption
    | with_reducible apply keeps_openStage
    | with_reducible apply keeps_startCommand
    | with_reducible apply keeps_endCycle
    | intro _
    | with_reducible apply keeps_ite
    | split
    | (with_reducible refine keeps_of_pair (by assumption) ?_)
    | (with_reducible refine keeps_of_opt (by assumption) ?_)
    | dsimp only)

theorem keeps_finishCycle {u : State} {s : State} (h : Keeps u s) :
 Keeps u (finishCycle s) := by
  unfold finishCycle
  repeat' (first
    | with_reducible assumption
    | with_reducible apply keeps_endCycle
    | intro _
    | with_reducible apply keeps_ite
    | split
    | (with_reducible refine keeps_of_pair (by assumption) ?_)
    | (with_reducible refine keeps_of_opt (by assumption) ?_)
    | dsimp only)

theorem keeps_execDispatchDecision {u : State} {s : State} (h : Keeps u s) :
 KeepsOut u (execDispatchDecision s) := by
  unfold execDispatchDecision
  repeat' (first
    | with_reducible assumption
    | with_reducible apply keeps_startCommand
    | with_reducible apply keeps_endCycle
    | with_reducible apply keepsOut_next
    | intro _
    | with_reducible apply keepsOut_ite
    | with_reducible apply keeps_ite
    | split
    | (with_reducible refine keeps_of_pair (by assumption) ?_)
    | (with_reducible refine keeps_of_opt (by assumption) ?_)
    | dsimp only)

theorem keeps_schCmdRefused {u : State} {s : State} (h : Keeps u s) :
 Keeps u (schCmdRefused s) := by
  unfold schCmdRefused
  repeat' (first
    | with_reducible assumption
    | with_reducible apply keeps_wrf
    | with_reducible apply keeps_permFault
    | intro _
    | with_reducible apply keeps_ite
    | split
    | (with_reducible refine keeps_of_pair (by assumption) ?_)
    | (with_reducible refine keeps_of_opt (by assumption) ?_)
    | dsimp only)

theorem keeps_schCmdPut {u : State} (op t : Nat) {s : State} (h : Keeps u s) :
 Keeps u (schCmdPut op t s) := by
  unfold schCmdPut
  repeat' (first
    | with_reducible assumption
    | with_reducible apply keeps_setSched
    | with_reducible apply keeps_wr
    | with_reducible apply keeps_startCommand
    | with_reducible apply keeps_schCmdRefused
    | intro _
    | with_reducible apply keeps_ite
    | split
    | (with_reducible refine keeps_of_pair (by assumption) ?_)
    | (with_reducible refine keeps_of_opt (by assumption) ?_)
    | dsimp only)

theorem keeps_schCmd {u : State} (rq : Requester) (op t : Nat) {s : State} (h : Keeps u s) :
 Keeps u (schCmd rq op t s) := by
  unfold schCmd
  repeat' (first
    | with_reducible assumption
    | with_reducible apply keeps_onPage
    | with_reducible apply keeps_schCmdPut
    | intro _
    | with_reducible apply keeps_ite
    | split
    | (with_reducible refine keeps_of_pair (by assumption) ?_)
    | (with_reducible refine keeps_of_opt (by assumption) ?_)
    | dsimp only)

theorem keeps_execSchCmdReady {u : State} (rq : Requester) (t : TaskId) {s : State} (h : Keeps u s) :
 KeepsOut u (execSchCmdReady rq t s) := by
  unfold execSchCmdReady
  repeat' (first
    | with_reducible assumption
    | with_reducible apply keeps_schCmd
    | with_reducible apply keepsOut_next
    | intro _
    | with_reducible apply keepsOut_ite
    | with_reducible apply keeps_ite
    | split
    | (with_reducible refine keeps_of_pair (by assumption) ?_)
    | (with_reducible refine keeps_of_opt (by assumption) ?_)
    | dsimp only)

theorem keeps_execSchCmdCancel {u : State} (rq : Requester) (t : TaskId) {s : State} (h : Keeps u s) :
 KeepsOut u (execSchCmdCancel rq t s) := by
  unfold execSchCmdCancel
  repeat' (first
    | with_reducible assumption
    | with_reducible apply keeps_schCmd
    | with_reducible apply keepsOut_next
    | intro _
    | with_reducible apply keepsOut_ite
    | with_reducible apply keeps_ite
    | split
    | (with_reducible refine keeps_of_pair (by assumption) ?_)
    | (with_reducible refine keeps_of_opt (by assumption) ?_)
    | dsimp only)

theorem keeps_execAbandon {u : State} (rq : Requester) (t : TaskId) {s : State} (h : Keeps u s) :
 KeepsOut u (execAbandon rq t s) := by
  unfold execAbandon
  repeat' (first
    | with_reducible assumption
    | with_reducible apply keeps_schCmd
    | with_reducible apply keepsOut_next
    | intro _
    | with_reducible apply keepsOut_ite
    | with_reducible apply keeps_ite
    | split
    | (with_reducible refine keeps_of_pair (by assumption) ?_)
    | (with_reducible refine keeps_of_opt (by assumption) ?_)
    | dsimp only)

theorem keeps_execDisable {u : State} (rq : Requester) (t : TaskId) {s : State} (h : Keeps u s) :
 KeepsOut u (execDisable rq t s) := by
  unfold execDisable
  repeat' (first
    | with_reducible assumption
    | with_reducible apply keeps_schCmd
    | with_reducible apply keepsOut_next
    | intro _
    | with_reducible apply keepsOut_ite
    | with_reducible apply keeps_ite
    | split
    | (with_reducible refine keeps_of_pair (by assumption) ?_)
    | (with_reducible refine keeps_of_opt (by assumption) ?_)
    | dsimp only)

theorem keeps_execEnable {u : State} (rq : Requester) (t : TaskId) {s : State} (h : Keeps u s) :
 KeepsOut u (execEnable rq t s) := by
  unfold execEnable
  repeat' (first
    | with_reducible assumption
    | with_reducible apply keeps_schCmd
    | with_reducible apply keepsOut_next
    | intro _
    | with_reducible apply keepsOut_ite
    | with_reducible apply keeps_ite
    | split
    | (with_reducible refine keeps_of_pair (by assumption) ?_)
    | (with_reducible refine keeps_of_opt (by assumption) ?_)
    | dsimp only)

theorem keeps_walkerBind {u : State} {s : State} (h : Keeps u s) :
 Keeps u (walkerBind s) := by
  unfold walkerBind
  repeat' (first
    | with_reducible assumption
    | with_reducible apply keeps_setSched
    | with_reducible apply keeps_readyTask
    | with_reducible apply keeps_cancelTask
    | (with_reducible refine keeps_nextWalk (by assumption) ?_)
    | intro _
    | with_reducible apply keeps_ite
    | split
    | (with_reducible refine keeps_of_pair (by assumption) ?_)
    | (with_reducible refine keeps_of_opt (by assumption) ?_)
    | dsimp only)

theorem keeps_walkerApply {u : State} (cancel : Bool) {s : State} (h : Keeps u s) :
 Keeps u (walkerApply cancel s) := by
  unfold walkerApply
  repeat' (first
    | with_reducible assumption
    | with_reducible apply keeps_enterStage
    | with_reducible apply keeps_walkerBind
    | intro _
    | with_reducible apply keeps_ite
    | split
    | (with_reducible refine keeps_of_pair (by assumption) ?_)
    | (with_reducible refine keeps_of_opt (by assumption) ?_)
    | dsimp only)

theorem keeps_walkerUnbound {u : State} {s : State} (h : Keeps u s) :
 Keeps u (walkerUnbound s) := by
  unfold walkerUnbound
  repeat' (first
    | with_reducible assumption
    | with_reducible apply keeps_setSched
    | with_reducible apply keeps_count
    | with_reducible apply keeps_irq
    | with_reducible apply keeps_enterStage
    | (with_reducible refine keeps_nextWalk (by assumption) ?_)
    | intro _
    | with_reducible apply keeps_ite
    | split
    | (with_reducible refine keeps_of_pair (by assumption) ?_)
    | (with_reducible refine keeps_of_opt (by assumption) ?_)
    | dsimp only)

theorem keeps_execWalkerReady {u : State} {s : State} (h : Keeps u s) :
 KeepsOut u (execWalkerReady s) := by
  unfold execWalkerReady
  repeat' (first
    | with_reducible assumption
    | with_reducible apply keeps_walkerApply
    | with_reducible apply keepsOut_next
    | intro _
    | with_reducible apply keepsOut_ite
    | with_reducible apply keeps_ite
    | split
    | (with_reducible refine keeps_of_pair (by assumption) ?_)
    | (with_reducible refine keeps_of_opt (by assumption) ?_)
    | dsimp only)

theorem keeps_execWalkerCancel {u : State} {s : State} (h : Keeps u s) :
 KeepsOut u (execWalkerCancel s) := by
  unfold execWalkerCancel
  repeat' (first
    | with_reducible assumption
    | with_reducible apply keeps_walkerApply
    | with_reducible apply keepsOut_next
    | intro _
    | with_reducible apply keepsOut_ite
    | with_reducible apply keeps_ite
    | split
    | (with_reducible refine keeps_of_pair (by assumption) ?_)
    | (with_reducible refine keeps_of_opt (by assumption) ?_)
    | dsimp only)

theorem keeps_execUnboundEvent {u : State} {s : State} (h : Keeps u s) :
 KeepsOut u (execUnboundEvent s) := by
  unfold execUnboundEvent
  repeat' (first
    | with_reducible assumption
    | with_reducible apply keeps_walkerUnbound
    | with_reducible apply keepsOut_next
    | intro _
    | with_reducible apply keepsOut_ite
    | with_reducible apply keeps_ite
    | split
    | (with_reducible refine keeps_of_pair (by assumption) ?_)
    | (with_reducible refine keeps_of_opt (by assumption) ?_)
    | dsimp only)

theorem keeps_completeStage {u : State} (cls : Nat) (apply : Msg → State → State) {s : State} (happly : ∀ a0 t, Keeps u t → Keeps u (apply a0 t)) (h : Keeps u s) :
 Keeps u (completeStage cls apply s) := by
  unfold completeStage
  repeat' (first
    | with_reducible assumption
    | with_reducible apply happly
    | with_reducible apply keeps_malformed
    | with_reducible apply keeps_dropMsg
    | with_reducible apply keeps_queueStall
    | with_reducible apply keeps_strayMsg
    | with_reducible apply keeps_enterStage
    | intro _
    | with_reducible apply keeps_ite
    | split
    | (with_reducible refine keeps_of_pair (by assumption) ?_)
    | (with_reducible refine keeps_of_opt (by assumption) ?_)
    | dsimp only)

theorem keeps_execComplete {u : State} {s : State} (h : Keeps u s) :
 KeepsOut u (execComplete s) := by
  unfold execComplete
  repeat' (first
    | with_reducible assumption
    | with_reducible apply keeps_applyComplete
    | with_reducible apply keeps_completeStage
    | with_reducible apply keepsOut_next
    | intro _
    | with_reducible apply keepsOut_ite
    | with_reducible apply keeps_ite
    | split
    | (with_reducible refine keeps_of_pair (by assumption) ?_)
    | (with_reducible refine keeps_of_opt (by assumption) ?_)
    | dsimp only)

theorem keeps_execSuspendReply {u : State} {s : State} (h : Keeps u s) :
 KeepsOut u (execSuspendReply s) := by
  unfold execSuspendReply
  repeat' (first
    | with_reducible assumption
    | with_reducible apply keeps_applySuspend
    | with_reducible apply keeps_completeStage
    | with_reducible apply keepsOut_next
    | intro _
    | with_reducible apply keepsOut_ite
    | with_reducible apply keeps_ite
    | split
    | (with_reducible refine keeps_of_pair (by assumption) ?_)
    | (with_reducible refine keeps_of_opt (by assumption) ?_)
    | dsimp only)

theorem keeps_drainNotice {u : State} (r : Nat) {s : State} (h : Keeps u s) :
 Keeps u (drainNotice r s) := by
  unfold drainNotice
  repeat' (first
    | with_reducible assumption
    | with_reducible apply keeps_setSched
    | with_reducible apply keeps_finishCycle
    | intro _
    | with_reducible apply keeps_ite
    | split
    | (with_reducible refine keeps_of_pair (by assumption) ?_)
    | (with_reducible refine keeps_of_opt (by assumption) ?_)
    | dsimp only)

theorem keeps_execSchedulerDrainNotice {u : State} (r : RegionId) {s : State} (h : Keeps u s) :
 KeepsOut u (execSchedulerDrainNotice r s) := by
  unfold execSchedulerDrainNotice
  repeat' (first
    | with_reducible assumption
    | with_reducible apply keeps_drainNotice
    | with_reducible apply keepsOut_next
    | intro _
    | with_reducible apply keepsOut_ite
    | with_reducible apply keeps_ite
    | split
    | (with_reducible refine keeps_of_pair (by assumption) ?_)
    | (with_reducible refine keeps_of_opt (by assumption) ?_)
    | dsimp only)

theorem keeps_drainSuspend {u : State} (r : Nat) {s : State} (h : Keeps u s) :
 Keeps u (drainSuspend r s) := by
  unfold drainSuspend
  repeat' (first
    | with_reducible assumption
    | with_reducible apply keeps_suspendTask
    | with_reducible apply keeps_closeCycle
    | intro _
    | with_reducible apply keeps_ite
    | split
    | (with_reducible refine keeps_of_pair (by assumption) ?_)
    | (with_reducible refine keeps_of_opt (by assumption) ?_)
    | dsimp only)

theorem keeps_execDrainSuspend {u : State} (r : RegionId) {s : State} (h : Keeps u s) :
 KeepsOut u (execDrainSuspend r s) := by
  unfold execDrainSuspend
  repeat' (first
    | with_reducible assumption
    | with_reducible apply keeps_drainSuspend
    | with_reducible apply keepsOut_next
    | intro _
    | with_reducible apply keepsOut_ite
    | with_reducible apply keeps_ite
    | split
    | (with_reducible refine keeps_of_pair (by assumption) ?_)
    | (with_reducible refine keeps_of_opt (by assumption) ?_)
    | dsimp only)

theorem keeps_drainedReport {u : State} (r : Nat) {s : State} (h : Keeps u s) :
 Keeps u (drainedReport r s) := by
  unfold drainedReport
  repeat' (first
    | with_reducible assumption
    | with_reducible apply keeps_setSched
    | with_reducible apply keeps_mdRgn
    | intro _
    | with_reducible apply keeps_ite
    | split
    | (with_reducible refine keeps_of_pair (by assumption) ?_)
    | (with_reducible refine keeps_of_opt (by assumption) ?_)
    | dsimp only)

theorem keeps_execSchedulerDrainedReport {u : State} (r : RegionId) {s : State} (h : Keeps u s) :
 KeepsOut u (execSchedulerDrainedReport r s) := by
  unfold execSchedulerDrainedReport
  repeat' (first
    | with_reducible assumption
    | with_reducible apply keeps_drainedReport
    | with_reducible apply keepsOut_next
    | intro _
    | with_reducible apply keepsOut_ite
    | with_reducible apply keeps_ite
    | split
    | (with_reducible refine keeps_of_pair (by assumption) ?_)
    | (with_reducible refine keeps_of_opt (by assumption) ?_)
    | dsimp only)

theorem keeps_releaseHold {u : State} (r : Nat) {s : State} (h : Keeps u s) :
 Keeps u (releaseHold r s) := by
  unfold releaseHold
  repeat' (first
    | with_reducible assumption
    | with_reducible apply keeps_setSched
    | intro _
    | with_reducible apply keeps_ite
    | split
    | (with_reducible refine keeps_of_pair (by assumption) ?_)
    | (with_reducible refine keeps_of_opt (by assumption) ?_)
    | dsimp only)

theorem keeps_engineGone {u : State} (e : Nat) {s : State} (h : Keeps u s) :
 Keeps u (engineGone e s) := by
  unfold engineGone
  repeat' (first
    | with_reducible assumption
    | with_reducible apply keeps_setSched
    | with_reducible apply keeps_count
    | with_reducible apply keeps_irq
    | with_reducible apply keeps_setCtx
    | with_reducible apply keeps_pushEvent
    | with_reducible apply keeps_foldl
    | with_reducible apply keeps_foldl_snd
    | intro _
    | with_reducible apply keeps_ite
    | split
    | (with_reducible refine keeps_of_pair (by assumption) ?_)
    | (with_reducible refine keeps_of_opt (by assumption) ?_)
    | dsimp only)

theorem keeps_execEngineAbsent {u : State} (e : Fin 255) {s : State} (h : Keeps u s) :
 KeepsOut u (execEngineAbsent e s) := by
  unfold execEngineAbsent
  repeat' (first
    | with_reducible assumption
    | with_reducible apply keeps_engineGone
    | with_reducible apply keepsOut_next
    | intro _
    | with_reducible apply keepsOut_ite
    | with_reducible apply keeps_ite
    | split
    | (with_reducible refine keeps_of_pair (by assumption) ?_)
    | (with_reducible refine keeps_of_opt (by assumption) ?_)
    | dsimp only)

theorem keeps_absencePost {u : State} {s : State} (h : Keeps u s) :
 Keeps u (absencePost s) := by
  unfold absencePost
  repeat' (first
    | with_reducible assumption
    | with_reducible apply keeps_setSched
    | with_reducible apply keeps_queueStall
    | with_reducible apply keeps_pushEvent
    | intro _
    | with_reducible apply keeps_ite
    | split
    | (with_reducible refine keeps_of_pair (by assumption) ?_)
    | (with_reducible refine keeps_of_opt (by assumption) ?_)
    | dsimp only)

theorem keeps_execAbsenceEventPost {u : State} {s : State} (h : Keeps u s) :
 KeepsOut u (execAbsenceEventPost s) := by
  unfold execAbsenceEventPost
  repeat' (first
    | with_reducible assumption
    | with_reducible apply keeps_absencePost
    | with_reducible apply keepsOut_next
    | intro _
    | with_reducible apply keepsOut_ite
    | with_reducible apply keeps_ite
    | split
    | (with_reducible refine keeps_of_pair (by assumption) ?_)
    | (with_reducible refine keeps_of_opt (by assumption) ?_)
    | dsimp only)

theorem keeps_runLimit {u : State} (t : Nat) {s : State} (h : Keeps u s) :
 Keeps u (runLimit t s) := by
  unfold runLimit
  repeat' (first
    | with_reducible assumption
    | with_reducible apply keeps_countF
    | with_reducible apply keeps_irq
    | with_reducible apply keeps_setCtx
    | intro _
    | with_reducible apply keeps_ite
    | split
    | (with_reducible refine keeps_of_pair (by assumption) ?_)
    | (with_reducible refine keeps_of_opt (by assumption) ?_)
    | dsimp only)

theorem keeps_execRunLimitHit {u : State} (t : TaskId) {s : State} (h : Keeps u s) :
 KeepsOut u (execRunLimitHit t s) := by
  unfold execRunLimitHit
  repeat' (first
    | with_reducible assumption
    | with_reducible apply keeps_runLimit
    | with_reducible apply keepsOut_next
    | intro _
    | with_reducible apply keepsOut_ite
    | with_reducible apply keeps_ite
    | split
    | (with_reducible refine keeps_of_pair (by assumption) ?_)
    | (with_reducible refine keeps_of_opt (by assumption) ?_)
    | dsimp only)

theorem keeps_suspendLimit {u : State} (t : Nat) {s : State} (h : Keeps u s) :
 Keeps u (suspendLimit t s) := by
  unfold suspendLimit
  repeat' (first
    | with_reducible assumption
    | with_reducible apply keeps_countF
    | with_reducible apply keeps_irq
    | with_reducible apply keeps_setCtx
    | intro _
    | with_reducible apply keeps_ite
    | split
    | (with_reducible refine keeps_of_pair (by assumption) ?_)
    | (with_reducible refine keeps_of_opt (by assumption) ?_)
    | dsimp only)

theorem keeps_execSuspendLimitHit {u : State} (t : TaskId) {s : State} (h : Keeps u s) :
 KeepsOut u (execSuspendLimitHit t s) := by
  unfold execSuspendLimitHit
  repeat' (first
    | with_reducible assumption
    | with_reducible apply keeps_suspendLimit
    | with_reducible apply keepsOut_next
    | intro _
    | with_reducible apply keepsOut_ite
    | with_reducible apply keeps_ite
    | split
    | (with_reducible refine keeps_of_pair (by assumption) ?_)
    | (with_reducible refine keeps_of_opt (by assumption) ?_)
    | dsimp only)

theorem keeps_ctxWrite {u : State} (rq : Requester) (w : Nat) (v : Word) {s : State} (h : Keeps u s) :
 Keeps u (ctxWrite rq w v s) := by
  unfold ctxWrite
  repeat' (first
    | with_reducible assumption
    | with_reducible apply keeps_permFault
    | with_reducible apply keeps_pairWrite
    | with_reducible apply keeps_setCtx
    | intro _
    | with_reducible apply keeps_ite
    | split
    | (with_reducible refine keeps_of_pair (by assumption) ?_)
    | (with_reducible refine keeps_of_opt (by assumption) ?_)
    | (with_reducible refine keeps_of_first (by assumption) ?_)
    | dsimp only)

theorem keeps_execContextWrite {u : State} (rq : Requester) (w : Fin 14) (v : Word) {s : State} (h : Keeps u s) :
 KeepsOut u (execContextWrite rq w v s) := by
  unfold execContextWrite
  repeat' (first
    | with_reducible assumption
    | with_reducible apply keeps_onPage
    | with_reducible apply keeps_ctxWrite
    | with_reducible apply keepsOut_next
    | intro _
    | with_reducible apply keepsOut_ite
    | with_reducible apply keeps_ite
    | split
    | (with_reducible refine keeps_of_pair (by assumption) ?_)
    | (with_reducible refine keeps_of_opt (by assumption) ?_)
    | dsimp only)

theorem keeps_engineWrite {u : State} (e : Nat) (v : Word) {s : State} (h : Keeps u s) :
 Keeps u (engineWrite e v s) := by
  unfold engineWrite
  repeat' (first
    | with_reducible assumption
    | with_reducible apply keeps_setSched
    | with_reducible apply keeps_permFault
    | intro _
    | with_reducible apply keeps_ite
    | split
    | (with_reducible refine keeps_of_pair (by assumption) ?_)
    | (with_reducible refine keeps_of_opt (by assumption) ?_)
    | dsimp only)

theorem keeps_execEngineMapWrite {u : State} (rq : Requester) (e : Fin 256) (v : Word) {s : State} (h : Keeps u s) :
 KeepsOut u (execEngineMapWrite rq e v s) := by
  unfold execEngineMapWrite
  repeat' (first
    | with_reducible assumption
    | with_reducible apply keeps_onPage
    | with_reducible apply keeps_engineWrite
    | with_reducible apply keepsOut_next
    | intro _
    | with_reducible apply keepsOut_ite
    | with_reducible apply keeps_ite
    | split
    | (with_reducible refine keeps_of_pair (by assumption) ?_)
    | (with_reducible refine keeps_of_opt (by assumption) ?_)
    | dsimp only)

theorem keeps_bumpIndex {u : State} (p off bits : Nat) {s : State} (h : Keeps u s) :
 Keeps u (bumpIndex p off bits s) := by
  unfold bumpIndex
  repeat' (first
    | with_reducible assumption
    | with_reducible apply keeps_md
    | intro _
    | with_reducible apply keeps_ite
    | split
    | (with_reducible refine keeps_of_pair (by assumption) ?_)
    | (with_reducible refine keeps_of_opt (by assumption) ?_)
    | dsimp only)

theorem keeps_bindAccess {u : State} (rq : Requester) (wv : Option Word) {s : State} (h : Keeps u s) :
 Keeps u (bindAccess rq wv s) := by
  unfold bindAccess
  repeat' (first
    | with_reducible assumption
    | with_reducible apply keeps_setSched
    | with_reducible apply keeps_permFault
    | with_reducible apply keeps_deliverReg
    | with_reducible apply keeps_bumpIndex
    | intro _
    | with_reducible apply keeps_ite
    | split
    | (with_reducible refine keeps_of_pair (by assumption) ?_)
    | (with_reducible refine keeps_of_opt (by assumption) ?_)
    | dsimp only)

theorem keeps_execBindDataAccess {u : State} (rq : Requester) (wv : Option Word) {s : State} (h : Keeps u s) :
 KeepsOut u (execBindDataAccess rq wv s) := by
  unfold execBindDataAccess
  repeat' (first
    | with_reducible assumption
    | with_reducible apply keeps_onPage
    | with_reducible apply keeps_onPageRead
    | with_reducible apply keeps_bindAccess
    | with_reducible apply keepsOut_next
    | intro _
    | with_reducible apply keepsOut_ite
    | with_reducible apply keeps_ite
    | split
    | (with_reducible refine keeps_of_pair (by assumption) ?_)
    | (with_reducible refine keeps_of_opt (by assumption) ?_)
    | dsimp only)

theorem keeps_argAccess {u : State} (rq : Requester) (wv : Option Word) {s : State} (h : Keeps u s) :
 Keeps u (argAccess rq wv s) := by
  unfold argAccess
  repeat' (first
    | with_reducible assumption
    | with_reducible apply keeps_deliver
    | with_reducible apply keeps_setArg
    | with_reducible apply keeps_bumpIndex
    | intro _
    | with_reducible apply keeps_ite
    | split
    | (with_reducible refine keeps_of_pair (by assumption) ?_)
    | (with_reducible refine keeps_of_opt (by assumption) ?_)
    | dsimp only)

theorem keeps_execArgDataAccess {u : State} (rq : Requester) (wv : Option Word) {s : State} (h : Keeps u s) :
 KeepsOut u (execArgDataAccess rq wv s) := by
  unfold execArgDataAccess
  repeat' (first
    | with_reducible assumption
    | with_reducible apply keeps_onPage
    | with_reducible apply keeps_onPageRead
    | with_reducible apply keeps_argAccess
    | with_reducible apply keepsOut_next
    | intro _
    | with_reducible apply keepsOut_ite
    | with_reducible apply keeps_ite
    | split
    | (with_reducible refine keeps_of_pair (by assumption) ?_)
    | (with_reducible refine keeps_of_opt (by assumption) ?_)
    | dsimp only)

theorem keeps_saveRead {u : State} (rq : Requester) {s : State} (h : Keeps u s) :
 Keeps u (saveRead rq s) := by
  unfold saveRead
  repeat' (first
    | with_reducible assumption
    | with_reducible apply keeps_deliver
    | with_reducible apply keeps_bumpIndex
    | intro _
    | with_reducible apply keeps_ite
    | split
    | (with_reducible refine keeps_of_pair (by assumption) ?_)
    | (with_reducible refine keeps_of_opt (by assumption) ?_)
    | dsimp only)

theorem keeps_execSaveDataRead {u : State} (rq : Requester) {s : State} (h : Keeps u s) :
 KeepsOut u (execSaveDataRead rq s) := by
  unfold execSaveDataRead
  repeat' (first
    | with_reducible assumption
    | with_reducible apply keeps_onPageRead
    | with_reducible apply keeps_saveRead
    | with_reducible apply keepsOut_next
    | intro _
    | with_reducible apply keepsOut_ite
    | with_reducible apply keeps_ite
    | split
    | (with_reducible refine keeps_of_pair (by assumption) ?_)
    | (with_reducible refine keeps_of_opt (by assumption) ?_)
    | dsimp only)

theorem keeps_closeOutput {u : State} (k : Nat) {s : State} (h : Keeps u s) :
 Keeps u (closeOutput k s) := by
  unfold closeOutput
  repeat' (first
    | with_reducible assumption
    | with_reducible apply keeps_mdChan
    | intro _
    | with_reducible apply keeps_ite
    | split
    | (with_reducible refine keeps_of_pair (by assumption) ?_)
    | (with_reducible refine keeps_of_opt (by assumption) ?_)
    | dsimp only)

theorem keeps_schedClear {u : State} {s : State} (h : Keeps u s) :
 Keeps u (schedClear s) := by
  unfold schedClear
  repeat' (first
    | with_reducible assumption
    | with_reducible apply keeps_setSched
    | with_reducible apply keeps_trace
    | intro _
    | with_reducible apply keeps_ite
    | split
    | (with_reducible refine keeps_of_pair (by assumption) ?_)
    | (with_reducible refine keeps_of_opt (by assumption) ?_)
    | dsimp only)

theorem keeps_schedResetReports {u : State} {s : State} (h : Keeps u s) :
 Keeps u (schedResetReports s) := by
  unfold schedResetReports
  repeat' (first
    | with_reducible assumption
    | with_reducible apply keeps_setSched
    | with_reducible apply keeps_mdRgn
    | with_reducible apply keeps_foldl
    | with_reducible apply keeps_foldl_snd
    | intro _
    | with_reducible apply keeps_ite
    | split
    | (with_reducible refine keeps_of_pair (by assumption) ?_)
    | (with_reducible refine keeps_of_opt (by assumption) ?_)
    | dsimp only)

theorem keeps_closePosts {u : State} {s : State} (h : Keeps u s) :
 Keeps u (closePosts s) := by
  unfold closePosts
  repeat' (first
    | with_reducible assumption
    | with_reducible apply keeps_mdChan
    | with_reducible apply keeps_takeMsg
    | with_reducible apply keeps_svcReply
    | intro _
    | with_reducible apply keeps_ite
    | split
    | (with_reducible refine keeps_of_pair (by assumption) ?_)
    | (with_reducible refine keeps_of_opt (by assumption) ?_)
    | dsimp only)

theorem keeps_schedSoftReset {u : State} {s : State} (h : Keeps u s) :
 Keeps u (schedSoftReset s) := by
  unfold schedSoftReset
  repeat' (first
    | with_reducible assumption
    | with_reducible apply keeps_clearStatus
    | with_reducible apply keeps_closeOutput
    | with_reducible apply keeps_schedClear
    | with_reducible apply keeps_schedResetReports
    | with_reducible apply keeps_closePosts
    | intro _
    | with_reducible apply keeps_ite
    | split
    | (with_reducible refine keeps_of_pair (by assumption) ?_)
    | (with_reducible refine keeps_of_opt (by assumption) ?_)
    | dsimp only)

theorem keeps_execSchSoftReset {u : State} (rq : Requester) (page : Fin 4) {s : State} (h : Keeps u s) :
 KeepsOut u (execSchSoftReset rq page s) := by
  unfold execSchSoftReset
  repeat' (first
    | with_reducible assumption
    | with_reducible apply keeps_onPage
    | with_reducible apply keeps_schedSoftReset
    | with_reducible apply keepsOut_next
    | intro _
    | with_reducible apply keepsOut_ite
    | with_reducible apply keeps_ite
    | split
    | (with_reducible refine keeps_of_pair (by assumption) ?_)
    | (with_reducible refine keeps_of_opt (by assumption) ?_)
    | dsimp only)

end Sys2Proof.Machine
end

