-- ==== Sys2Proof/Laws/KeepsDma.lean ====
section
/-! SUPPORT. Every operation of Machine/Dma.lean keeps (Laws/Keeps.lean). -/
set_option linter.unusedTactic false
set_option linter.unreachableTactic false
set_option linter.unusedVariables false

namespace Sys2Proof.Machine

open Sys2Proof

theorem keeps_setDchan {u : State} (c : Nat) (x : DmaChan) {s : State} (h : Keeps u s) :
 Keeps u (setDchan c x s) := by
  unfold setDchan
  repeat' (first
    | with_reducible assumption
    | with_reducible apply keeps_setDma
    | intro _
    | with_reducible apply keeps_ite
    | split
    | (with_reducible refine keeps_of_pair (by assumption) ?_)
    | (with_reducible refine keeps_of_opt (by assumption) ?_)
    | dsimp only)

theorem keeps_mdDchan {u : State} (c : Nat) (f : DmaChan → DmaChan) {s : State} (h : Keeps u s) :
 Keeps u (mdDchan c f s) := by
  unfold mdDchan
  repeat' (first
    | with_reducible assumption
    | with_reducible apply keeps_setDchan
    | intro _
    | with_reducible apply keeps_ite
    | split
    | (with_reducible refine keeps_of_pair (by assumption) ?_)
    | (with_reducible refine keeps_of_opt (by assumption) ?_)
    | dsimp only)

theorem keeps_setMover {u : State} (m : Nat) (x : Mover) {s : State} (h : Keeps u s) :
 Keeps u (setMover m x s) := by
  unfold setMover
  repeat' (first
    | with_reducible assumption
    | with_reducible apply keeps_setDma
    | intro _
    | with_reducible apply keeps_ite
    | split
    | (with_reducible refine keeps_of_pair (by assumption) ?_)
    | (with_reducible refine keeps_of_opt (by assumption) ?_)
    | dsimp only)

theorem keeps_mdMover {u : State} (m : Nat) (f : Mover → Mover) {s : State} (h : Keeps u s) :
 Keeps u (mdMover m f s) := by
  unfold mdMover
  repeat' (first
    | with_reducible assumption
    | with_reducible apply keeps_setMover
    | intro _
    | with_reducible apply keeps_ite
    | split
    | (with_reducible refine keeps_of_pair (by assumption) ?_)
    | (with_reducible refine keeps_of_opt (by assumption) ?_)
    | dsimp only)

theorem keeps_blockEnded {u : State} (m : Nat) {s : State} (h : Keeps u s) :
 Keeps u (blockEnded m s) := by
  unfold blockEnded
  repeat' (first
    | with_reducible assumption
    | with_reducible apply keeps_setDma
    | with_reducible apply keeps_dropEngine
    | with_reducible apply keeps_mdMover
    | intro _
    | with_reducible apply keeps_ite
    | split
    | (with_reducible refine keeps_of_pair (by assumption) ?_)
    | (with_reducible refine keeps_of_opt (by assumption) ?_)
    | dsimp only)

theorem keeps_unserve {u : State} (c : Nat) {s : State} (h : Keeps u s) :
 Keeps u (unserve c s) := by
  unfold unserve
  repeat' (first
    | with_reducible assumption
    | with_reducible apply keeps_mdMover
    | with_reducible apply keeps_blockEnded
    | intro _
    | with_reducible apply keeps_ite
    | split
    | (with_reducible refine keeps_of_pair (by assumption) ?_)
    | (with_reducible refine keeps_of_opt (by assumption) ?_)
    | dsimp only)

theorem keeps_undefineWord {u : State} (k : Nat) {s : State} (h : Keeps u s) :
 Keeps u (undefineWord k s) := by
  unfold undefineWord
  repeat' (first
    | with_reducible assumption
    | with_reducible apply keeps_drawn
    | with_reducible apply keeps_writeBank
    | intro _
    | with_reducible apply keeps_ite
    | split
    | (with_reducible refine keeps_of_pair (by assumption) ?_)
    | (with_reducible refine keeps_of_opt (by assumption) ?_)
    | dsimp only)

theorem keeps_undefineReg {u : State} (p off : Nat) {s : State} (h : Keeps u s) :
 Keeps u (undefineReg p off s) := by
  unfold undefineReg
  repeat' (first
    | with_reducible assumption
    | with_reducible apply keeps_md
    | with_reducible apply keeps_drawn
    | intro _
    | with_reducible apply keeps_ite
    | split
    | (with_reducible refine keeps_of_pair (by assumption) ?_)
    | (with_reducible refine keeps_of_opt (by assumption) ?_)
    | dsimp only)

theorem keeps_dmaEvent {u : State} (c : Nat) (w : Word) {s : State} (h : Keeps u s) :
 Keeps u (dmaEvent c w s) := by
  unfold dmaEvent
  repeat' (first
    | with_reducible assumption
    | with_reducible apply keeps_queueStall
    | with_reducible apply keeps_pushEvent
    | with_reducible apply keeps_mdDchan
    | intro _
    | with_reducible apply keeps_ite
    | split
    | (with_reducible refine keeps_of_pair (by assumption) ?_)
    | (with_reducible refine keeps_of_opt (by assumption) ?_)
    | dsimp only)

theorem keeps_lastCode {u : State} (c code : Nat) {s : State} (h : Keeps u s) :
 Keeps u (lastCode c code s) := by
  unfold lastCode
  repeat' (first
    | with_reducible assumption
    | with_reducible apply keeps_wrf
    | intro _
    | with_reducible apply keeps_ite
    | split
    | (with_reducible refine keeps_of_pair (by assumption) ?_)
    | (with_reducible refine keeps_of_opt (by assumption) ?_)
    | dsimp only)

theorem keeps_faultRecords {u : State} (c : Nat) (d : Desc) (code : Nat) (side chain phys : Bool) (addr next : Nat) {s : State} (h : Keeps u s) :
 Keeps u (faultRecords c d code side chain phys addr next s) := by
  unfold faultRecords
  repeat' (first
    | with_reducible assumption
    | with_reducible apply keeps_wr
    | with_reducible apply keeps_irq
    | with_reducible apply keeps_err
    | with_reducible apply keeps_lastCode
    | intro _
    | with_reducible apply keeps_ite
    | split
    | (with_reducible refine keeps_of_pair (by assumption) ?_)
    | (with_reducible refine keeps_of_opt (by assumption) ?_)
    | dsimp only)

theorem keeps_descFault {u : State} (c code : Nat) (side phys : Bool) (addr : Nat) {s : State} (h : Keeps u s) :
 Keeps u (descFault c code side phys addr s) := by
  unfold descFault
  repeat' (first
    | with_reducible assumption
    | with_reducible apply keeps_mdDchan
    | with_reducible apply keeps_unserve
    | with_reducible apply keeps_undefineWord
    | with_reducible apply keeps_undefineReg
    | with_reducible apply keeps_dmaEvent
    | with_reducible apply keeps_faultRecords
    | with_reducible apply keeps_foldl
    | with_reducible apply keeps_foldl_snd
    | intro _
    | with_reducible apply keeps_ite
    | split
    | (with_reducible refine keeps_of_pair (by assumption) ?_)
    | (with_reducible refine keeps_of_opt (by assumption) ?_)
    | dsimp only)

theorem keeps_descDone {u : State} (c : Nat) {s : State} (h : Keeps u s) :
 Keeps u (descDone c s) := by
  unfold descDone
  repeat' (first
    | with_reducible assumption
    | with_reducible apply keeps_count
    | with_reducible apply keeps_irq
    | with_reducible apply keeps_mdDchan
    | with_reducible apply keeps_unserve
    | with_reducible apply keeps_dmaEvent
    | with_reducible apply keeps_lastCode
    | intro _
    | with_reducible apply keeps_ite
    | split
    | (with_reducible refine keeps_of_pair (by assumption) ?_)
    | (with_reducible refine keeps_of_opt (by assumption) ?_)
    | dsimp only)

theorem keeps_beginDesc {u : State} (c : Nat) (d : Desc) {s : State} (h : Keeps u s) :
 Keeps u (beginDesc c d s) := by
  unfold beginDesc
  repeat' (first
    | with_reducible assumption
    | with_reducible apply keeps_mdDchan
    | with_reducible apply keeps_descFault
    | intro _
    | with_reducible apply keeps_ite
    | split
    | (with_reducible refine keeps_of_pair (by assumption) ?_)
    | (with_reducible refine keeps_of_opt (by assumption) ?_)
    | dsimp only)

theorem keeps_submitRefused {u : State} (c : Nat) {s : State} (h : Keeps u s) :
 Keeps u (submitRefused c s) := by
  unfold submitRefused
  repeat' (first
    | with_reducible assumption
    | with_reducible apply keeps_count
    | with_reducible apply keeps_irq
    | intro _
    | with_reducible apply keeps_ite
    | split
    | (with_reducible refine keeps_of_pair (by assumption) ?_)
    | (with_reducible refine keeps_of_opt (by assumption) ?_)
    | dsimp only)

theorem keeps_enqueue {u : State} (c : Nat) (d : Desc) {s : State} (h : Keeps u s) :
 Keeps u (enqueue c d s) := by
  unfold enqueue
  repeat' (first
    | with_reducible assumption
    | with_reducible apply keeps_mdDchan
    | intro _
    | with_reducible apply keeps_ite
    | split
    | (with_reducible refine keeps_of_pair (by assumption) ?_)
    | (with_reducible refine keeps_of_opt (by assumption) ?_)
    | dsimp only)

theorem keeps_submit {u : State} (c : Nat) {s : State} (h : Keeps u s) :
 Keeps u (submit c s) := by
  unfold submit
  repeat' (first
    | with_reducible assumption
    | with_reducible apply keeps_err
    | with_reducible apply keeps_submitRefused
    | with_reducible apply keeps_enqueue
    | intro _
    | with_reducible apply keeps_ite
    | split
    | (with_reducible refine keeps_of_pair (by assumption) ?_)
    | (with_reducible refine keeps_of_opt (by assumption) ?_)
    | dsimp only)

theorem keeps_execDmaSubmit {u : State} (rq : Requester) (ch : DmaId) {s : State} (h : Keeps u s) :
 KeepsOut u (execDmaSubmit rq ch s) := by
  unfold execDmaSubmit
  repeat' (first
    | with_reducible assumption
    | with_reducible apply keeps_onPage
    | with_reducible apply keeps_submit
    | with_reducible apply keepsOut_next
    | intro _
    | with_reducible apply keepsOut_ite
    | with_reducible apply keeps_ite
    | split
    | (with_reducible refine keeps_of_pair (by assumption) ?_)
    | (with_reducible refine keeps_of_opt (by assumption) ?_)
    | dsimp only)

theorem keeps_descWait {u : State} (c : Nat) {s : State} (h : Keeps u s) :
 Keeps u (descWait c s) := by
  unfold descWait
  repeat' (first
    | with_reducible assumption
    | with_reducible apply keeps_count
    | intro _
    | with_reducible apply keeps_ite
    | split
    | (with_reducible refine keeps_of_pair (by assumption) ?_)
    | (with_reducible refine keeps_of_opt (by assumption) ?_)
    | dsimp only)

theorem keeps_descEnters {u : State} (m : Msg) {s : State} (h : Keeps u s) :
 Keeps u (descEnters m s) := by
  unfold descEnters
  repeat' (first
    | with_reducible assumption
    | with_reducible apply keeps_err
    | with_reducible apply keeps_dropMsg
    | with_reducible apply keeps_submitRefused
    | with_reducible apply keeps_enqueue
    | with_reducible apply keeps_descWait
    | intro _
    | with_reducible apply keeps_ite
    | split
    | (with_reducible refine keeps_of_pair (by assumption) ?_)
    | (with_reducible refine keeps_of_opt (by assumption) ?_)
    | dsimp only)

theorem keeps_dmaDescMsg {u : State} {s : State} (h : Keeps u s) :
 Keeps u (dmaDescMsg s) := by
  unfold dmaDescMsg
  repeat' (first
    | with_reducible assumption
    | with_reducible apply keeps_malformed
    | with_reducible apply keeps_dropMsg
    | with_reducible apply keeps_receiverCheck
    | with_reducible apply keeps_descEnters
    | intro _
    | with_reducible apply keeps_ite
    | split
    | (with_reducible refine keeps_of_pair (by assumption) ?_)
    | (with_reducible refine keeps_of_opt (by assumption) ?_)
    | dsimp only)

theorem keeps_execDmaDesc {u : State} {s : State} (h : Keeps u s) :
 KeepsOut u (execDmaDesc s) := by
  unfold execDmaDesc
  repeat' (first
    | with_reducible assumption
    | with_reducible apply keeps_dmaDescMsg
    | with_reducible apply keepsOut_next
    | intro _
    | with_reducible apply keepsOut_ite
    | with_reducible apply keeps_ite
    | split
    | (with_reducible refine keeps_of_pair (by assumption) ?_)
    | (with_reducible refine keeps_of_opt (by assumption) ?_)
    | dsimp only)

theorem keeps_execDmaDescAdmit {u : State} {s : State} (h : Keeps u s) :
 KeepsOut u (execDmaDescAdmit s) := by
  unfold execDmaDescAdmit
  repeat' (first
    | with_reducible assumption
    | with_reducible apply keeps_dmaDescMsg
    | with_reducible apply keepsOut_next
    | intro _
    | with_reducible apply keepsOut_ite
    | with_reducible apply keeps_ite
    | split
    | (with_reducible refine keeps_of_pair (by assumption) ?_)
    | (with_reducible refine keeps_of_opt (by assumption) ?_)
    | dsimp only)

theorem keeps_startNext {u : State} (c : Nat) {s : State} (h : Keeps u s) :
 Keeps u (startNext c s) := by
  unfold startNext
  repeat' (first
    | with_reducible assumption
    | with_reducible apply keeps_setDchan
    | with_reducible apply keeps_beginDesc
    | intro _
    | with_reducible apply keeps_ite
    | split
    | (with_reducible refine keeps_of_pair (by assumption) ?_)
    | (with_reducible refine keeps_of_opt (by assumption) ?_)
    | dsimp only)

theorem keeps_execDescriptorStart {u : State} (ch : DmaId) {s : State} (h : Keeps u s) :
 KeepsOut u (execDescriptorStart ch s) := by
  unfold execDescriptorStart
  repeat' (first
    | with_reducible assumption
    | with_reducible apply keeps_startNext
    | with_reducible apply keepsOut_next
    | intro _
    | with_reducible apply keepsOut_ite
    | with_reducible apply keeps_ite
    | split
    | (with_reducible refine keeps_of_pair (by assumption) ?_)
    | (with_reducible refine keeps_of_opt (by assumption) ?_)
    | dsimp only)

theorem keeps_eventPost {u : State} (c : Nat) {s : State} (h : Keeps u s) :
 Keeps u (eventPost c s) := by
  unfold eventPost
  repeat' (first
    | with_reducible assumption
    | with_reducible apply keeps_queueStall
    | with_reducible apply keeps_pushEvent
    | with_reducible apply keeps_mdDchan
    | intro _
    | with_reducible apply keeps_ite
    | split
    | (with_reducible refine keeps_of_pair (by assumption) ?_)
    | (with_reducible refine keeps_of_opt (by assumption) ?_)
    | dsimp only)

theorem keeps_execDmaEventPost {u : State} (ch : DmaId) {s : State} (h : Keeps u s) :
 KeepsOut u (execDmaEventPost ch s) := by
  unfold execDmaEventPost
  repeat' (first
    | with_reducible assumption
    | with_reducible apply keeps_eventPost
    | with_reducible apply keepsOut_next
    | intro _
    | with_reducible apply keepsOut_ite
    | with_reducible apply keeps_ite
    | split
    | (with_reducible refine keeps_of_pair (by assumption) ?_)
    | (with_reducible refine keeps_of_opt (by assumption) ?_)
    | dsimp only)

theorem keeps_chainFault {u : State} (c code p : Nat) (parent : Desc) {s : State} (h : Keeps u s) :
 Keeps u (chainFault c code p parent s) := by
  unfold chainFault
  repeat' (first
    | with_reducible assumption
    | with_reducible apply keeps_mdDchan
    | with_reducible apply keeps_dmaEvent
    | with_reducible apply keeps_faultRecords
    | intro _
    | with_reducible apply keeps_ite
    | split
    | (with_reducible refine keeps_of_pair (by assumption) ?_)
    | (with_reducible refine keeps_of_opt (by assumption) ?_)
    | dsimp only)

theorem keeps_chainLoop {u : State} (fuel c p : Nat) (parent : Desc) {s : State} (h : Keeps u s) :
 Keeps u (chainLoop fuel c p parent s) := by
  induction fuel generalizing s with
  | zero => exact h
  | succ fuel ih =>
    unfold chainLoop
    repeat' (first
      | with_reducible assumption
      | with_reducible apply ih
      | with_reducible apply keeps_viaPort
      | with_reducible apply keeps_mdDchan
      | with_reducible apply keeps_beginDesc
      | with_reducible apply keeps_chainFault
      | intro _
      | with_reducible apply keeps_ite
      | split
      | (with_reducible refine keeps_of_pair (by assumption) ?_)
      | (with_reducible refine keeps_of_opt (by assumption) ?_)
      | dsimp only)

theorem keeps_chainRead {u : State} (c : Nat) {s : State} (h : Keeps u s) :
 Keeps u (chainRead c s) := by
  unfold chainRead
  repeat' (first
    | with_reducible assumption
    | with_reducible apply keeps_chainLoop
    | intro _
    | with_reducible apply keeps_ite
    | split
    | (with_reducible refine keeps_of_pair (by assumption) ?_)
    | (with_reducible refine keeps_of_opt (by assumption) ?_)
    | dsimp only)

theorem keeps_execChainRead {u : State} (ch : DmaId) {s : State} (h : Keeps u s) :
 KeepsOut u (execChainRead ch s) := by
  unfold execChainRead
  repeat' (first
    | with_reducible assumption
    | with_reducible apply keeps_chainRead
    | with_reducible apply keepsOut_next
    | intro _
    | with_reducible apply keepsOut_ite
    | with_reducible apply keeps_ite
    | split
    | (with_reducible refine keeps_of_pair (by assumption) ?_)
    | (with_reducible refine keeps_of_opt (by assumption) ?_)
    | dsimp only)

theorem keeps_restartChan {u : State} (c : Nat) {s : State} (h : Keeps u s) :
 Keeps u (restartChan c s) := by
  unfold restartChan
  repeat' (first
    | with_reducible assumption
    | with_reducible apply keeps_mdDchan
    | intro _
    | with_reducible apply keeps_ite
    | split
    | (with_reducible refine keeps_of_pair (by assumption) ?_)
    | (with_reducible refine keeps_of_opt (by assumption) ?_)
    | dsimp only)

theorem keeps_flushChan {u : State} (c : Nat) {s : State} (h : Keeps u s) :
 Keeps u (flushChan c s) := by
  unfold flushChan
  repeat' (first
    | with_reducible assumption
    | with_reducible apply keeps_mdDchan
    | intro _
    | with_reducible apply keeps_ite
    | split
    | (with_reducible refine keeps_of_pair (by assumption) ?_)
    | (with_reducible refine keeps_of_opt (by assumption) ?_)
    | dsimp only)

theorem keeps_execRestart {u : State} (rq : Requester) (ch : DmaId) {s : State} (h : Keeps u s) :
 KeepsOut u (execRestart rq ch s) := by
  unfold execRestart
  repeat' (first
    | with_reducible assumption
    | with_reducible apply keeps_onPage
    | with_reducible apply keeps_restartChan
    | with_reducible apply keepsOut_next
    | intro _
    | with_reducible apply keepsOut_ite
    | with_reducible apply keeps_ite
    | split
    | (with_reducible refine keeps_of_pair (by assumption) ?_)
    | (with_reducible refine keeps_of_opt (by assumption) ?_)
    | dsimp only)

theorem keeps_execFlush {u : State} (rq : Requester) (ch : DmaId) {s : State} (h : Keeps u s) :
 KeepsOut u (execFlush rq ch s) := by
  unfold execFlush
  repeat' (first
    | with_reducible assumption
    | with_reducible apply keeps_onPage
    | with_reducible apply keeps_flushChan
    | with_reducible apply keepsOut_next
    | intro _
    | with_reducible apply keepsOut_ite
    | with_reducible apply keeps_ite
    | split
    | (with_reducible refine keeps_of_pair (by assumption) ?_)
    | (with_reducible refine keeps_of_opt (by assumption) ?_)
    | dsimp only)

theorem keeps_dmaReset {u : State} (c : Nat) {s : State} (h : Keeps u s) :
 Keeps u (dmaReset c s) := by
  unfold dmaReset
  repeat' (first
    | with_reducible assumption
    | with_reducible apply keeps_wr
    | with_reducible apply keeps_dropEngine
    | with_reducible apply keeps_clearStatus
    | with_reducible apply keeps_setDchan
    | with_reducible apply keeps_unserve
    | intro _
    | with_reducible apply keeps_ite
    | split
    | (with_reducible refine keeps_of_pair (by assumption) ?_)
    | (with_reducible refine keeps_of_opt (by assumption) ?_)
    | dsimp only)

theorem keeps_execDmaSoftReset {u : State} (rq : Requester) (ch : DmaId) {s : State} (h : Keeps u s) :
 KeepsOut u (execDmaSoftReset rq ch s) := by
  unfold execDmaSoftReset
  repeat' (first
    | with_reducible assumption
    | with_reducible apply keeps_onPage
    | with_reducible apply keeps_dmaReset
    | with_reducible apply keepsOut_next
    | intro _
    | with_reducible apply keepsOut_ite
    | with_reducible apply keeps_ite
    | split
    | (with_reducible refine keeps_of_pair (by assumption) ?_)
    | (with_reducible refine keeps_of_opt (by assumption) ?_)
    | dsimp only)

theorem keeps_setCache {u : State} (g : Nat) (l : List Tlb) {s : State} (h : Keeps u s) :
 Keeps u (setCache g l s) := by
  unfold setCache
  repeat' (first
    | with_reducible assumption
    | with_reducible apply keeps_setDma
    | intro _
    | with_reducible apply keeps_ite
    | split
    | (with_reducible refine keeps_of_pair (by assumption) ?_)
    | (with_reducible refine keeps_of_opt (by assumption) ?_)
    | dsimp only)

theorem keeps_resolve {u : State} (m g space va : Nat) (write : Bool) {s : State} (h : Keeps u s) :
 Keeps u (resolve m g space va write s).2 := by
  unfold resolve
  repeat' (first
    | with_reducible assumption
    | with_reducible apply keeps_count
    | with_reducible apply keeps_mdMover
    | with_reducible apply keeps_setCache
    | intro _
    | with_reducible apply keeps_ite_snd
    | with_reducible apply keeps_ite
    | split
    | (with_reducible refine keeps_of_pair (by assumption) ?_)
    | (with_reducible refine keeps_of_opt (by assumption) ?_)
    | dsimp only)

theorem keeps_translate {u : State} (m g space va : Nat) (write : Bool) {s : State} (h : Keeps u s) :
 Keeps u (translate m g space va write s).2 := by
  unfold translate
  repeat' (first
    | with_reducible assumption
    | with_reducible apply keeps_resolve
    | intro _
    | with_reducible apply keeps_ite_snd
    | with_reducible apply keeps_ite
    | split
    | (with_reducible refine keeps_of_pair (by assumption) ?_)
    | (with_reducible refine keeps_of_opt (by assumption) ?_)
    | dsimp only)

theorem keeps_startWalk {u : State} (m g space va : Nat) (write : Bool) {s : State} (h : Keeps u s) :
 Keeps u (startWalk m g space va write s) := by
  unfold startWalk
  repeat' (first
    | with_reducible assumption
    | with_reducible apply keeps_count
    | with_reducible apply keeps_mdMover
    | intro _
    | with_reducible apply keeps_ite
    | split
    | (with_reducible refine keeps_of_pair (by assumption) ?_)
    | (with_reducible refine keeps_of_opt (by assumption) ?_)
    | dsimp only)

theorem keeps_hraEnd {u : State} (code : Nat) (data : Word) {s : State} (h : Keeps u s) :
 Keeps u (hraEnd code data s) := by
  unfold hraEnd
  repeat' (first
    | with_reducible assumption
    | with_reducible apply keeps_setDma
    | with_reducible apply keeps_wr
    | with_reducible apply keeps_md
    | with_reducible apply keeps_irq
    | with_reducible apply keeps_blockEnded
    | intro _
    | with_reducible apply keeps_ite
    | split
    | (with_reducible refine keeps_of_pair (by assumption) ?_)
    | (with_reducible refine keeps_of_opt (by assumption) ?_)
    | dsimp only)

theorem keeps_walkFault {u : State} (m code : Nat) (write : Bool) (va : Nat) {s : State} (h : Keeps u s) :
 Keeps u (walkFault m code write va s) := by
  unfold walkFault
  repeat' (first
    | with_reducible assumption
    | with_reducible apply keeps_descFault
    | with_reducible apply keeps_hraEnd
    | intro _
    | with_reducible apply keeps_ite
    | split
    | (with_reducible refine keeps_of_pair (by assumption) ?_)
    | (with_reducible refine keeps_of_opt (by assumption) ?_)
    | dsimp only)

theorem keeps_walkWord {u : State} (m : Nat) (k : PtWalk) (x : TWord) {s : State} (h : Keeps u s) :
 Keeps u (walkWord m k x s) := by
  unfold walkWord
  repeat' (first
    | with_reducible assumption
    | with_reducible apply keeps_mdMover
    | with_reducible apply keeps_setCache
    | with_reducible apply keeps_walkFault
    | intro _
    | with_reducible apply keeps_ite
    | split
    | (with_reducible refine keeps_of_pair (by assumption) ?_)
    | (with_reducible refine keeps_of_opt (by assumption) ?_)
    | dsimp only)

theorem keeps_walkRead {u : State} (m : Nat) {s : State} (h : Keeps u s) :
 Keeps u (walkRead m s) := by
  unfold walkRead
  repeat' (first
    | with_reducible assumption
    | with_reducible apply keeps_count
    | with_reducible apply keeps_viaPort
    | with_reducible apply keeps_walkWord
    | intro _
    | with_reducible apply keeps_ite
    | split
    | (with_reducible refine keeps_of_pair (by assumption) ?_)
    | (with_reducible refine keeps_of_opt (by assumption) ?_)
    | dsimp only)

theorem keeps_execPageWalkRead {u : State} (requester : Fin 5) {s : State} (h : Keeps u s) :
 KeepsOut u (execPageWalkRead requester s) := by
  unfold execPageWalkRead
  repeat' (first
    | with_reducible assumption
    | with_reducible apply keeps_walkRead
    | with_reducible apply keepsOut_next
    | intro _
    | with_reducible apply keepsOut_ite
    | with_reducible apply keeps_ite
    | split
    | (with_reducible refine keeps_of_pair (by assumption) ?_)
    | (with_reducible refine keeps_of_opt (by assumption) ?_)
    | dsimp only)

theorem keeps_invalidate {u : State} (gone : Tlb → Bool) {s : State} (h : Keeps u s) :
 Keeps u (invalidate gone s) := by
  unfold invalidate
  repeat' (first
    | with_reducible assumption
    | with_reducible apply keeps_setDma
    | with_reducible apply keeps_md
    | with_reducible apply keeps_mdMover
    | with_reducible apply keeps_setCache
    | with_reducible apply keeps_foldl
    | with_reducible apply keeps_foldl_snd
    | intro _
    | with_reducible apply keeps_ite
    | split
    | (with_reducible refine keeps_of_pair (by assumption) ?_)
    | (with_reducible refine keeps_of_opt (by assumption) ?_)
    | dsimp only)

theorem keeps_invalCmd {u : State} (rq : Requester) (off : Nat) (f : State → State) {s : State} (hf : ∀ t, Keeps u t → Keeps u (f t)) (h : Keeps u s) :
 Keeps u (invalCmd rq off f s) := by
  unfold invalCmd
  repeat' (first
    | with_reducible assumption
    | with_reducible apply hf
    | with_reducible apply keeps_onPage
    | with_reducible apply keeps_permFault
    | intro _
    | with_reducible apply keeps_ite
    | split
    | (with_reducible refine keeps_of_pair (by assumption) ?_)
    | (with_reducible refine keeps_of_opt (by assumption) ?_)
    | dsimp only)

theorem keeps_execInvalAll {u : State} (rq : Requester) {s : State} (h : Keeps u s) :
 KeepsOut u (execInvalAll rq s) := by
  unfold execInvalAll
  repeat' (first
    | with_reducible assumption
    | with_reducible apply keeps_invalidate
    | with_reducible apply keeps_invalCmd
    | with_reducible apply keepsOut_next
    | intro _
    | with_reducible apply keepsOut_ite
    | with_reducible apply keeps_ite
    | split
    | (with_reducible refine keeps_of_pair (by assumption) ?_)
    | (with_reducible refine keeps_of_opt (by assumption) ?_)
    | dsimp only)

theorem keeps_execInvalSpace {u : State} (rq : Requester) (space : Fin 16) {s : State} (h : Keeps u s) :
 KeepsOut u (execInvalSpace rq space s) := by
  unfold execInvalSpace
  repeat' (first
    | with_reducible assumption
    | with_reducible apply keeps_invalidate
    | with_reducible apply keeps_invalCmd
    | with_reducible apply keepsOut_next
    | intro _
    | with_reducible apply keepsOut_ite
    | with_reducible apply keeps_ite
    | split
    | (with_reducible refine keeps_of_pair (by assumption) ?_)
    | (with_reducible refine keeps_of_opt (by assumption) ?_)
    | dsimp only)

theorem keeps_invalidatePage {u : State} (space : Nat) {s : State} (h : Keeps u s) :
 Keeps u (invalidatePage space s) := by
  unfold invalidatePage
  repeat' (first
    | with_reducible assumption
    | with_reducible apply keeps_invalidate
    | intro _
    | with_reducible apply keeps_ite
    | split
    | (with_reducible refine keeps_of_pair (by assumption) ?_)
    | (with_reducible refine keeps_of_opt (by assumption) ?_)
    | dsimp only)

theorem keeps_execInvalPage {u : State} (rq : Requester) (space : Fin 16) {s : State} (h : Keeps u s) :
 KeepsOut u (execInvalPage rq space s) := by
  unfold execInvalPage
  repeat' (first
    | with_reducible assumption
    | with_reducible apply keeps_invalCmd
    | with_reducible apply keeps_invalidatePage
    | with_reducible apply keepsOut_next
    | intro _
    | with_reducible apply keepsOut_ite
    | with_reducible apply keeps_ite
    | split
    | (with_reducible refine keeps_of_pair (by assumption) ?_)
    | (with_reducible refine keeps_of_opt (by assumption) ?_)
    | dsimp only)

theorem keeps_hraAgain {u : State} {s : State} (h : Keeps u s) :
 Keeps u (hraAgain s) := by
  unfold hraAgain
  repeat' (first
    | with_reducible assumption
    | with_reducible apply keeps_dropEngine
    | with_reducible apply keeps_mdMover
    | intro _
    | with_reducible apply keeps_ite
    | split
    | (with_reducible refine keeps_of_pair (by assumption) ?_)
    | (with_reducible refine keeps_of_opt (by assumption) ?_)
    | dsimp only)

theorem keeps_invalEnd {u : State} {s : State} (h : Keeps u s) :
 Keeps u (invalEnd s) := by
  unfold invalEnd
  repeat' (first
    | with_reducible assumption
    | with_reducible apply keeps_md
    | with_reducible apply keeps_irq
    | with_reducible apply keeps_hraAgain
    | intro _
    | with_reducible apply keeps_ite
    | split
    | (with_reducible refine keeps_of_pair (by assumption) ?_)
    | (with_reducible refine keeps_of_opt (by assumption) ?_)
    | dsimp only)

theorem keeps_execInvalDone {u : State} {s : State} (h : Keeps u s) :
 KeepsOut u (execInvalDone s) := by
  unfold execInvalDone
  repeat' (first
    | with_reducible assumption
    | with_reducible apply keeps_invalEnd
    | with_reducible apply keepsOut_next
    | intro _
    | with_reducible apply keepsOut_ite
    | with_reducible apply keeps_ite
    | split
    | (with_reducible refine keeps_of_pair (by assumption) ?_)
    | (with_reducible refine keeps_of_opt (by assumption) ?_)
    | dsimp only)

theorem keeps_spaceWrite {u : State} (n : Nat) (root : Bool) (v : Word) {s : State} (h : Keeps u s) :
 Keeps u (spaceWrite n root v s) := by
  unfold spaceWrite
  repeat' (first
    | with_reducible assumption
    | with_reducible apply keeps_wr
    | with_reducible apply keeps_permFault
    | with_reducible apply keeps_invalidate
    | intro _
    | with_reducible apply keeps_ite
    | split
    | (with_reducible refine keeps_of_pair (by assumption) ?_)
    | (with_reducible refine keeps_of_opt (by assumption) ?_)
    | dsimp only)

theorem keeps_execSpaceConfigWrite {u : State} (rq : Requester) (space : Fin 16) (root : Bool) (v : Word) {s : State} (h : Keeps u s) :
 KeepsOut u (execSpaceConfigWrite rq space root v s) := by
  unfold execSpaceConfigWrite
  repeat' (first
    | with_reducible assumption
    | with_reducible apply keeps_invalCmd
    | with_reducible apply keeps_spaceWrite
    | with_reducible apply keepsOut_next
    | intro _
    | with_reducible apply keepsOut_ite
    | with_reducible apply keeps_ite
    | split
    | (with_reducible refine keeps_of_pair (by assumption) ?_)
    | (with_reducible refine keeps_of_opt (by assumption) ?_)
    | dsimp only)

theorem keeps_hraGo {u : State} (write : Bool) {s : State} (h : Keeps u s) :
 Keeps u (hraGo write s) := by
  unfold hraGo
  repeat' (first
    | with_reducible assumption
    | with_reducible apply keeps_setDma
    | with_reducible apply keeps_wr
    | with_reducible apply keeps_permFault
    | intro _
    | with_reducible apply keeps_ite
    | split
    | (with_reducible refine keeps_of_pair (by assumption) ?_)
    | (with_reducible refine keeps_of_opt (by assumption) ?_)
    | dsimp only)

theorem keeps_execHraRead {u : State} (rq : Requester) {s : State} (h : Keeps u s) :
 KeepsOut u (execHraRead rq s) := by
  unfold execHraRead
  repeat' (first
    | with_reducible assumption
    | with_reducible apply keeps_onPage
    | with_reducible apply keeps_hraGo
    | with_reducible apply keepsOut_next
    | intro _
    | with_reducible apply keepsOut_ite
    | with_reducible apply keeps_ite
    | split
    | (with_reducible refine keeps_of_pair (by assumption) ?_)
    | (with_reducible refine keeps_of_opt (by assumption) ?_)
    | dsimp only)

theorem keeps_execHraWrite {u : State} (rq : Requester) {s : State} (h : Keeps u s) :
 KeepsOut u (execHraWrite rq s) := by
  unfold execHraWrite
  repeat' (first
    | with_reducible assumption
    | with_reducible apply keeps_onPage
    | with_reducible apply keeps_hraGo
    | with_reducible apply keepsOut_next
    | intro _
    | with_reducible apply keepsOut_ite
    | with_reducible apply keeps_ite
    | split
    | (with_reducible refine keeps_of_pair (by assumption) ?_)
    | (with_reducible refine keeps_of_opt (by assumption) ?_)
    | dsimp only)

end Sys2Proof.Machine
end

