-- ==== Sys2Proof/Laws/KeepsFox.lean ====
section
/-! SUPPORT. Every operation of Machine/Fox.lean keeps (Laws/Keeps.lean). -/
set_option linter.unusedTactic false
set_option linter.unreachableTactic false
set_option linter.unusedVariables false

namespace Sys2Proof.Machine

open Sys2Proof

theorem keeps_mdSlot {u : State} (k : Nat) (f : Slot → Slot) {s : State} (h : Keeps u s) :
 Keeps u (mdSlot k f s) := by
  unfold mdSlot
  repeat' (first
    | with_reducible assumption
    | with_reducible apply keeps_setStore
    | intro _
    | with_reducible apply keeps_ite
    | split
    | (with_reducible refine keeps_of_pair (by assumption) ?_)
    | (with_reducible refine keeps_of_opt (by assumption) ?_)
    | dsimp only)

theorem keeps_setArea {u : State} (k : Nat) (ws : List Word) {s : State} (h : Keeps u s) :
 Keeps u (setArea k ws s) := by
  unfold setArea
  repeat' (first
    | with_reducible assumption
    | with_reducible apply keeps_setStore
    | intro _
    | with_reducible apply keeps_ite
    | split
    | (with_reducible refine keeps_of_pair (by assumption) ?_)
    | (with_reducible refine keeps_of_opt (by assumption) ?_)
    | dsimp only)

theorem keeps_setStaging {u : State} (m : SMap Word) {s : State} (h : Keeps u s) :
 Keeps u (setStaging m s) := by
  unfold setStaging
  repeat' (first
    | with_reducible assumption
    | with_reducible apply keeps_setPlanes
    | intro _
    | with_reducible apply keeps_ite
    | split
    | (with_reducible refine keeps_of_pair (by assumption) ?_)
    | (with_reducible refine keeps_of_opt (by assumption) ?_)
    | dsimp only)

theorem keeps_setActive {u : State} (m : SMap Word) {s : State} (h : Keeps u s) :
 Keeps u (setActive m s) := by
  unfold setActive
  repeat' (first
    | with_reducible assumption
    | with_reducible apply keeps_setPlanes
    | intro _
    | with_reducible apply keeps_ite
    | split
    | (with_reducible refine keeps_of_pair (by assumption) ?_)
    | (with_reducible refine keeps_of_opt (by assumption) ?_)
    | dsimp only)

theorem keeps_startLoad {u : State} (r : Nat) (l : Load) {s : State} (h : Keeps u s) :
 Keeps u (startLoad r l s) := by
  unfold startLoad
  repeat' (first
    | with_reducible assumption
    | with_reducible apply keeps_setFox
    | with_reducible apply keeps_invalidateStage
    | intro _
    | with_reducible apply keeps_ite
    | split
    | (with_reducible refine keeps_of_pair (by assumption) ?_)
    | (with_reducible refine keeps_of_opt (by assumption) ?_)
    | dsimp only)

theorem keeps_loadCtl {u : State} (rq : Requester) (v : Word) {s : State} (h : Keeps u s) :
 Keeps u (loadCtl rq v s) := by
  unfold loadCtl
  repeat' (first
    | with_reducible assumption
    | with_reducible apply keeps_wr
    | with_reducible apply keeps_loadRefused
    | with_reducible apply keeps_permFault
    | with_reducible apply keeps_startLoad
    | intro _
    | with_reducible apply keeps_ite
    | split
    | (with_reducible refine keeps_of_pair (by assumption) ?_)
    | (with_reducible refine keeps_of_opt (by assumption) ?_)
    | dsimp only)

theorem keeps_execFoxLoad {u : State} (rq : Requester) (v : Word) {s : State} (h : Keeps u s) :
 KeepsOut u (execFoxLoad rq v s) := by
  unfold execFoxLoad
  repeat' (first
    | with_reducible assumption
    | with_reducible apply keeps_onPage
    | with_reducible apply keeps_loadCtl
    | with_reducible apply keepsOut_next
    | intro _
    | with_reducible apply keepsOut_ite
    | with_reducible apply keeps_ite
    | split
    | (with_reducible refine keeps_of_pair (by assumption) ?_)
    | (with_reducible refine keeps_of_opt (by assumption) ?_)
    | dsimp only)

theorem keeps_stageLoaded {u : State} (src n : Nat) (unref : List Nat) {s : State} (r : Nat) (h : Keeps u s) :
 Keeps u (stageLoaded src n unref s r) := by
  unfold stageLoaded
  repeat' (first
    | with_reducible assumption
    | with_reducible apply keeps_setFox
    | with_reducible apply keeps_wr
    | with_reducible apply keeps_mdRgn
    | intro _
    | with_reducible apply keeps_ite
    | split
    | (with_reducible refine keeps_of_pair (by assumption) ?_)
    | (with_reducible refine keeps_of_opt (by assumption) ?_)
    | dsimp only)

theorem keeps_loadCompleted {u : State} (r : Nat) {s : State} (h : Keeps u s) :
 Keeps u (loadCompleted r s) := by
  unfold loadCompleted
  repeat' (first
    | with_reducible assumption
    | with_reducible apply keeps_wr
    | with_reducible apply keeps_irq
    | intro _
    | with_reducible apply keeps_ite
    | split
    | (with_reducible refine keeps_of_pair (by assumption) ?_)
    | (with_reducible refine keeps_of_opt (by assumption) ?_)
    | dsimp only)

theorem keeps_markCorrupt {u : State} (k : Nat) {s : State} (h : Keeps u s) :
 Keeps u (markCorrupt k s) := by
  unfold markCorrupt
  repeat' (first
    | with_reducible assumption
    | with_reducible apply keeps_irq
    | with_reducible apply keeps_mdSlot
    | intro _
    | with_reducible apply keeps_ite
    | split
    | (with_reducible refine keeps_of_pair (by assumption) ?_)
    | (with_reducible refine keeps_of_opt (by assumption) ?_)
    | dsimp only)

theorem keeps_finishLoad {u : State} (r : Nat) (l : Load) {s : State} (h : Keeps u s) :
 Keeps u (finishLoad r l s) := by
  unfold finishLoad
  repeat' (first
    | with_reducible assumption
    | with_reducible apply keeps_loadRefused
    | with_reducible apply keeps_setStaging
    | with_reducible apply keeps_stageLoaded
    | with_reducible apply keeps_loadCompleted
    | with_reducible apply keeps_markCorrupt
    | intro _
    | with_reducible apply keeps_ite
    | split
    | (with_reducible refine keeps_of_pair (by assumption) ?_)
    | (with_reducible refine keeps_of_opt (by assumption) ?_)
    | dsimp only)

theorem keeps_finishStream {u : State} (x : Stream) {s : State} (h : Keeps u s) :
 Keeps u (finishStream x s) := by
  unfold finishStream
  repeat' (first
    | with_reducible assumption
    | with_reducible apply keeps_setFox
    | with_reducible apply keeps_streamRefused
    | with_reducible apply keeps_stageLoaded
    | with_reducible apply keeps_loadCompleted
    | with_reducible apply keeps_foldl
    | with_reducible apply keeps_foldl_snd
    | intro _
    | with_reducible apply keeps_ite
    | split
    | (with_reducible refine keeps_of_pair (by assumption) ?_)
    | (with_reducible refine keeps_of_opt (by assumption) ?_)
    | dsimp only)

theorem keeps_loadDone {u : State} (r : Nat) {s : State} (h : Keeps u s) :
 Keeps u (loadDone r s) := by
  unfold loadDone
  repeat' (first
    | with_reducible assumption
    | with_reducible apply keeps_finishLoad
    | with_reducible apply keeps_finishStream
    | intro _
    | with_reducible apply keeps_ite
    | split
    | (with_reducible refine keeps_of_pair (by assumption) ?_)
    | (with_reducible refine keeps_of_opt (by assumption) ?_)
    | dsimp only)

theorem keeps_execFoxLoadDone {u : State} (r : RegionId) {s : State} (h : Keeps u s) :
 KeepsOut u (execFoxLoadDone r s) := by
  unfold execFoxLoadDone
  repeat' (first
    | with_reducible assumption
    | with_reducible apply keeps_loadDone
    | with_reducible apply keepsOut_next
    | intro _
    | with_reducible apply keepsOut_ite
    | with_reducible apply keeps_ite
    | split
    | (with_reducible refine keeps_of_pair (by assumption) ?_)
    | (with_reducible refine keeps_of_opt (by assumption) ?_)
    | dsimp only)

theorem keeps_dropped {u : State} (n : Nat) {s : State} (h : Keeps u s) :
 Keeps u (dropped n s) := by
  unfold dropped
  repeat' (first
    | with_reducible assumption
    | with_reducible apply keeps_countN
    | intro _
    | with_reducible apply keeps_ite
    | split
    | (with_reducible refine keeps_of_pair (by assumption) ?_)
    | (with_reducible refine keeps_of_opt (by assumption) ?_)
    | dsimp only)

theorem keeps_openStream {u : State} (rq : Requester) (target : Option Nat) {s : State} (h : Keeps u s) :
 Keeps u (openStream rq target s) := by
  unfold openStream
  repeat' (first
    | with_reducible assumption
    | with_reducible apply keeps_setFox
    | with_reducible apply keeps_err
    | with_reducible apply keeps_permFault
    | intro _
    | with_reducible apply keeps_ite
    | split
    | (with_reducible refine keeps_of_pair (by assumption) ?_)
    | (with_reducible refine keeps_of_opt (by assumption) ?_)
    | dsimp only)

theorem keeps_slotEnded {u : State} (k code : Nat) {s : State} (h : Keeps u s) :
 Keeps u (slotEnded k code s) := by
  unfold slotEnded
  repeat' (first
    | with_reducible assumption
    | with_reducible apply keeps_wr
    | with_reducible apply keeps_irq
    | with_reducible apply keeps_mdSlot
    | intro _
    | with_reducible apply keeps_ite
    | split
    | (with_reducible refine keeps_of_pair (by assumption) ?_)
    | (with_reducible refine keeps_of_opt (by assumption) ?_)
    | dsimp only)

theorem keeps_slotStarted {u : State} (k : Nat) {s : State} (h : Keeps u s) :
 Keeps u (slotStarted k s) := by
  unfold slotStarted
  repeat' (first
    | with_reducible assumption
    | with_reducible apply keeps_wr
    | with_reducible apply keeps_mdSlot
    | intro _
    | with_reducible apply keeps_ite
    | split
    | (with_reducible refine keeps_of_pair (by assumption) ?_)
    | (with_reducible refine keeps_of_opt (by assumption) ?_)
    | dsimp only)

theorem keeps_endProgram {u : State} (k code : Nat) {s : State} (h : Keeps u s) :
 Keeps u (endProgram k code s) := by
  unfold endProgram
  repeat' (first
    | with_reducible assumption
    | with_reducible apply keeps_setFox
    | with_reducible apply keeps_setArea
    | with_reducible apply keeps_slotEnded
    | intro _
    | with_reducible apply keeps_ite
    | split
    | (with_reducible refine keeps_of_pair (by assumption) ?_)
    | (with_reducible refine keeps_of_opt (by assumption) ?_)
    | dsimp only)

theorem keeps_refuseStream {u : State} (code frame : Nat) {s : State} (h : Keeps u s) :
 Keeps u (refuseStream code frame s) := by
  unfold refuseStream
  repeat' (first
    | with_reducible assumption
    | with_reducible apply keeps_streamRefused
    | with_reducible apply keeps_endProgram
    | intro _
    | with_reducible apply keeps_ite
    | split
    | (with_reducible refine keeps_of_pair (by assumption) ?_)
    | (with_reducible refine keeps_of_opt (by assumption) ?_)
    | dsimp only)

theorem keeps_startErase {u : State} (k : Nat) {s : State} (h : Keeps u s) :
 Keeps u (startErase k s) := by
  unfold startErase
  repeat' (first
    | with_reducible assumption
    | with_reducible apply keeps_setFox
    | intro _
    | with_reducible apply keeps_ite
    | split
    | (with_reducible refine keeps_of_pair (by assumption) ?_)
    | (with_reducible refine keeps_of_opt (by assumption) ?_)
    | dsimp only)

theorem keeps_streamHeader {u : State} (x : Stream) {s : State} (h : Keeps u s) :
 Keeps u (streamHeader x s) := by
  unfold streamHeader
  repeat' (first
    | with_reducible assumption
    | with_reducible apply keeps_setFox
    | with_reducible apply keeps_setStaging
    | with_reducible apply keeps_startLoad
    | with_reducible apply keeps_slotStarted
    | with_reducible apply keeps_refuseStream
    | with_reducible apply keeps_startErase
    | with_reducible apply keeps_foldl
    | with_reducible apply keeps_foldl_snd
    | intro _
    | with_reducible apply keeps_ite
    | split
    | (with_reducible refine keeps_of_pair (by assumption) ?_)
    | (with_reducible refine keeps_of_opt (by assumption) ?_)
    | dsimp only)

theorem keeps_streamRecord {u : State} (x : Stream) {s : State} (h : Keeps u s) :
 Keeps u (streamRecord x s) := by
  unfold streamRecord
  repeat' (first
    | with_reducible assumption
    | with_reducible apply keeps_setStaging
    | with_reducible apply keeps_refuseStream
    | intro _
    | with_reducible apply keeps_ite
    | split
    | (with_reducible refine keeps_of_pair (by assumption) ?_)
    | (with_reducible refine keeps_of_opt (by assumption) ?_)
    | dsimp only)

theorem keeps_closeEnded {u : State} {s : State} (h : Keeps u s) :
 Keeps u (closeEnded s) := by
  unfold closeEnded
  repeat' (first
    | with_reducible assumption
    | with_reducible apply keeps_setFox
    | intro _
    | with_reducible apply keeps_ite
    | split
    | (with_reducible refine keeps_of_pair (by assumption) ?_)
    | (with_reducible refine keeps_of_opt (by assumption) ?_)
    | dsimp only)

theorem keeps_takeStreamWord {u : State} (w : Word) {s : State} (h : Keeps u s) :
 Keeps u (takeStreamWord w s) := by
  unfold takeStreamWord
  repeat' (first
    | with_reducible assumption
    | with_reducible apply keeps_setFox
    | with_reducible apply keeps_setArea
    | with_reducible apply keeps_dropped
    | with_reducible apply keeps_streamHeader
    | with_reducible apply keeps_streamRecord
    | with_reducible apply keeps_closeEnded
    | intro _
    | with_reducible apply keeps_ite
    | split
    | (with_reducible refine keeps_of_pair (by assumption) ?_)
    | (with_reducible refine keeps_of_opt (by assumption) ?_)
    | dsimp only)

theorem keeps_drainStream {u : State} (fuel : Nat) {s : State} (h : Keeps u s) :
 Keeps u (drainStream fuel s) := by
  induction fuel generalizing s with
  | zero => exact h
  | succ fuel ih =>
    unfold drainStream
    repeat' (first
      | with_reducible assumption
      | with_reducible apply ih
      | with_reducible apply keeps_setFox
      | with_reducible apply keeps_takeStreamWord
      | intro _
      | with_reducible apply keeps_ite
      | split
      | (with_reducible refine keeps_of_pair (by assumption) ?_)
      | (with_reducible refine keeps_of_opt (by assumption) ?_)
      | dsimp only)

theorem keeps_drainAll {u : State} {s : State} (h : Keeps u s) :
 Keeps u (drainAll s) := by
  unfold drainAll
  repeat' (first
    | with_reducible assumption
    | with_reducible apply keeps_drainStream
    | intro _
    | with_reducible apply keeps_ite
    | split
    | (with_reducible refine keeps_of_pair (by assumption) ?_)
    | (with_reducible refine keeps_of_opt (by assumption) ?_)
    | dsimp only)

theorem keeps_streamWord {u : State} (rq : Requester) (w : Word) {s : State} (h : Keeps u s) :
 Keeps u (streamWord rq w s) := by
  unfold streamWord
  repeat' (first
    | with_reducible assumption
    | with_reducible apply keeps_setFox
    | with_reducible apply keeps_dropped
    | with_reducible apply keeps_drainAll
    | intro _
    | with_reducible apply keeps_ite
    | split
    | (with_reducible refine keeps_of_pair (by assumption) ?_)
    | (with_reducible refine keeps_of_opt (by assumption) ?_)
    | dsimp only)

theorem keeps_abortStream {u : State} {s : State} (h : Keeps u s) :
 Keeps u (abortStream s) := by
  unfold abortStream
  repeat' (first
    | with_reducible assumption
    | with_reducible apply keeps_setFox
    | with_reducible apply keeps_dropped
    | with_reducible apply keeps_refuseStream
    | intro _
    | with_reducible apply keeps_ite
    | split
    | (with_reducible refine keeps_of_pair (by assumption) ?_)
    | (with_reducible refine keeps_of_opt (by assumption) ?_)
    | dsimp only)

theorem keeps_streamCtl {u : State} (rq : Requester) (v : Word) {s : State} (h : Keeps u s) :
 Keeps u (streamCtl rq v s) := by
  unfold streamCtl
  repeat' (first
    | with_reducible assumption
    | with_reducible apply keeps_wr
    | with_reducible apply keeps_openStream
    | with_reducible apply keeps_abortStream
    | intro _
    | with_reducible apply keeps_ite
    | split
    | (with_reducible refine keeps_of_pair (by assumption) ?_)
    | (with_reducible refine keeps_of_opt (by assumption) ?_)
    | dsimp only)

theorem keeps_execStreamOpen {u : State} (rq : Requester) (v : Word) {s : State} (h : Keeps u s) :
 KeepsOut u (execStreamOpen rq v s) := by
  unfold execStreamOpen
  repeat' (first
    | with_reducible assumption
    | with_reducible apply keeps_onPage
    | with_reducible apply keeps_streamCtl
    | with_reducible apply keepsOut_next
    | intro _
    | with_reducible apply keepsOut_ite
    | with_reducible apply keeps_ite
    | split
    | (with_reducible refine keeps_of_pair (by assumption) ?_)
    | (with_reducible refine keeps_of_opt (by assumption) ?_)
    | dsimp only)

theorem keeps_execLibraryProgramOpen {u : State} (rq : Requester) (v : Word) {s : State} (h : Keeps u s) :
 KeepsOut u (execLibraryProgramOpen rq v s) := by
  unfold execLibraryProgramOpen
  repeat' (first
    | with_reducible assumption
    | with_reducible apply keeps_onPage
    | with_reducible apply keeps_streamCtl
    | with_reducible apply keepsOut_next
    | intro _
    | with_reducible apply keepsOut_ite
    | with_reducible apply keeps_ite
    | split
    | (with_reducible refine keeps_of_pair (by assumption) ?_)
    | (with_reducible refine keeps_of_opt (by assumption) ?_)
    | dsimp only)

theorem keeps_execStreamData {u : State} (rq : Requester) (w : Word) {s : State} (h : Keeps u s) :
 KeepsOut u (execStreamData rq w s) := by
  unfold execStreamData
  repeat' (first
    | with_reducible assumption
    | with_reducible apply keeps_onPage
    | with_reducible apply keeps_streamWord
    | with_reducible apply keepsOut_next
    | intro _
    | with_reducible apply keepsOut_ite
    | with_reducible apply keeps_ite
    | split
    | (with_reducible refine keeps_of_pair (by assumption) ?_)
    | (with_reducible refine keeps_of_opt (by assumption) ?_)
    | dsimp only)

theorem keeps_execStreamAbort {u : State} (rq : Requester) {s : State} (h : Keeps u s) :
 KeepsOut u (execStreamAbort rq s) := by
  unfold execStreamAbort
  repeat' (first
    | with_reducible assumption
    | with_reducible apply keeps_onPage
    | with_reducible apply keeps_abortStream
    | with_reducible apply keepsOut_next
    | intro _
    | with_reducible apply keepsOut_ite
    | with_reducible apply keeps_ite
    | split
    | (with_reducible refine keeps_of_pair (by assumption) ?_)
    | (with_reducible refine keeps_of_opt (by assumption) ?_)
    | dsimp only)

theorem keeps_execStreamIdleTimeout {u : State} {s : State} (h : Keeps u s) :
 KeepsOut u (execStreamIdleTimeout s) := by
  unfold execStreamIdleTimeout
  repeat' (first
    | with_reducible assumption
    | with_reducible apply keeps_abortStream
    | with_reducible apply keepsOut_next
    | intro _
    | with_reducible apply keepsOut_ite
    | with_reducible apply keeps_ite
    | split
    | (with_reducible refine keeps_of_pair (by assumption) ?_)
    | (with_reducible refine keeps_of_opt (by assumption) ?_)
    | dsimp only)

theorem keeps_slotWear {u : State} (k : Nat) (fail : Option Nat) (warn : Bool) {s : State} (h : Keeps u s) :
 Keeps u (slotWear k fail warn s).2 := by
  unfold slotWear
  repeat' (first
    | with_reducible assumption
    | with_reducible apply keeps_count
    | with_reducible apply keeps_irq
    | with_reducible apply keeps_mdSlot
    | intro _
    | with_reducible apply keeps_ite_snd
    | with_reducible apply keeps_ite
    | split
    | (with_reducible refine keeps_of_pair (by assumption) ?_)
    | (with_reducible refine keeps_of_opt (by assumption) ?_)
    | dsimp only)

theorem keeps_programDone {u : State} (progFail warn : Bool) {s : State} (h : Keeps u s) :
 Keeps u (programDone progFail warn s) := by
  unfold programDone
  repeat' (first
    | with_reducible assumption
    | with_reducible apply keeps_setFox
    | with_reducible apply keeps_loadRefused
    | with_reducible apply keeps_mdSlot
    | with_reducible apply keeps_setArea
    | with_reducible apply keeps_slotEnded
    | with_reducible apply keeps_slotWear
    | intro _
    | with_reducible apply keeps_ite
    | split
    | (with_reducible refine keeps_of_pair (by assumption) ?_)
    | (with_reducible refine keeps_of_opt (by assumption) ?_)
    | dsimp only)

theorem keeps_execLibraryProgramDone {u : State} (progFail wearWarn : Bool) {s : State} (h : Keeps u s) :
 KeepsOut u (execLibraryProgramDone progFail wearWarn s) := by
  unfold execLibraryProgramDone
  repeat' (first
    | with_reducible assumption
    | with_reducible apply keeps_programDone
    | with_reducible apply keepsOut_next
    | intro _
    | with_reducible apply keepsOut_ite
    | with_reducible apply keeps_ite
    | split
    | (with_reducible refine keeps_of_pair (by assumption) ?_)
    | (with_reducible refine keeps_of_opt (by assumption) ?_)
    | dsimp only)

theorem keeps_slotErase {u : State} {s : State} (h : Keeps u s) :
 Keeps u (slotErase s) := by
  unfold slotErase
  repeat' (first
    | with_reducible assumption
    | with_reducible apply keeps_err
    | with_reducible apply keeps_permFault
    | with_reducible apply keeps_slotStarted
    | with_reducible apply keeps_startErase
    | intro _
    | with_reducible apply keeps_ite
    | split
    | (with_reducible refine keeps_of_pair (by assumption) ?_)
    | (with_reducible refine keeps_of_opt (by assumption) ?_)
    | dsimp only)

theorem keeps_execSlotErase {u : State} (rq : Requester) {s : State} (h : Keeps u s) :
 KeepsOut u (execSlotErase rq s) := by
  unfold execSlotErase
  repeat' (first
    | with_reducible assumption
    | with_reducible apply keeps_onPage
    | with_reducible apply keeps_slotErase
    | with_reducible apply keepsOut_next
    | intro _
    | with_reducible apply keepsOut_ite
    | with_reducible apply keeps_ite
    | split
    | (with_reducible refine keeps_of_pair (by assumption) ?_)
    | (with_reducible refine keeps_of_opt (by assumption) ?_)
    | dsimp only)

theorem keeps_eraseFailed {u : State} (k : Nat) {s : State} (h : Keeps u s) :
 Keeps u (eraseFailed k s) := by
  unfold eraseFailed
  repeat' (first
    | with_reducible assumption
    | with_reducible apply keeps_setFox
    | with_reducible apply keeps_slotEnded
    | intro _
    | with_reducible apply keeps_ite
    | split
    | (with_reducible refine keeps_of_pair (by assumption) ?_)
    | (with_reducible refine keeps_of_opt (by assumption) ?_)
    | dsimp only)

theorem keeps_eraseDone {u : State} (eraseFail warn : Bool) {s : State} (h : Keeps u s) :
 Keeps u (eraseDone eraseFail warn s) := by
  unfold eraseDone
  repeat' (first
    | with_reducible assumption
    | with_reducible apply keeps_setFox
    | with_reducible apply keeps_mdSlot
    | with_reducible apply keeps_setArea
    | with_reducible apply keeps_slotEnded
    | with_reducible apply keeps_drainAll
    | with_reducible apply keeps_slotWear
    | with_reducible apply keeps_eraseFailed
    | intro _
    | with_reducible apply keeps_ite
    | split
    | (with_reducible refine keeps_of_pair (by assumption) ?_)
    | (with_reducible refine keeps_of_opt (by assumption) ?_)
    | dsimp only)

theorem keeps_execSlotEraseDone {u : State} (eraseFail wearWarn : Bool) {s : State} (h : Keeps u s) :
 KeepsOut u (execSlotEraseDone eraseFail wearWarn s) := by
  unfold execSlotEraseDone
  repeat' (first
    | with_reducible assumption
    | with_reducible apply keeps_eraseDone
    | with_reducible apply keepsOut_next
    | intro _
    | with_reducible apply keepsOut_ite
    | with_reducible apply keeps_ite
    | split
    | (with_reducible refine keeps_of_pair (by assumption) ?_)
    | (with_reducible refine keeps_of_opt (by assumption) ?_)
    | dsimp only)

theorem keeps_foxLock {u : State} {s : State} (h : Keeps u s) :
 Keeps u (foxLock s) := by
  unfold foxLock
  repeat' (first
    | with_reducible assumption
    | with_reducible apply keeps_wr
    | intro _
    | with_reducible apply keeps_ite
    | split
    | (with_reducible refine keeps_of_pair (by assumption) ?_)
    | (with_reducible refine keeps_of_opt (by assumption) ?_)
    | dsimp only)

theorem keeps_execFoxLock {u : State} (rq : Requester) {s : State} (h : Keeps u s) :
 KeepsOut u (execFoxLock rq s) := by
  unfold execFoxLock
  repeat' (first
    | with_reducible assumption
    | with_reducible apply keeps_onPage
    | with_reducible apply keeps_foxLock
    | with_reducible apply keepsOut_next
    | intro _
    | with_reducible apply keepsOut_ite
    | with_reducible apply keeps_ite
    | split
    | (with_reducible refine keeps_of_pair (by assumption) ?_)
    | (with_reducible refine keeps_of_opt (by assumption) ?_)
    | dsimp only)

theorem keeps_stageCtl {u : State} (rq : Requester) (r : Nat) {s : State} (h : Keeps u s) :
 Keeps u (stageCtl rq r s) := by
  unfold stageCtl
  repeat' (first
    | with_reducible assumption
    | with_reducible apply keeps_invalidateStage
    | with_reducible apply keeps_permFault
    | intro _
    | with_reducible apply keeps_ite
    | split
    | (with_reducible refine keeps_of_pair (by assumption) ?_)
    | (with_reducible refine keeps_of_opt (by assumption) ?_)
    | dsimp only)

theorem keeps_execStageInvalidate {u : State} (rq : Requester) (r : RegionId) {s : State} (h : Keeps u s) :
 KeepsOut u (execStageInvalidate rq r s) := by
  unfold execStageInvalidate
  repeat' (first
    | with_reducible assumption
    | with_reducible apply keeps_onPage
    | with_reducible apply keeps_stageCtl
    | with_reducible apply keepsOut_next
    | intro _
    | with_reducible apply keepsOut_ite
    | with_reducible apply keeps_ite
    | split
    | (with_reducible refine keeps_of_pair (by assumption) ?_)
    | (with_reducible refine keeps_of_opt (by assumption) ?_)
    | dsimp only)

end Sys2Proof.Machine
end

