-- ==== Sys2Proof/Laws/KeepsClocks.lean ====
section
/-! SUPPORT. Every operation of Machine/Clocks.lean keeps (Laws/Keeps.lean). -/
set_option linter.unusedTactic false
set_option linter.unreachableTactic false
set_option linter.unusedVariables false

namespace Sys2Proof.Machine

open Sys2Proof

theorem keeps_bgResume {u : State} (b : BgSlice) {s : State} (h : Keeps u s) :
 Keeps u (bgResume b s) := by
  unfold bgResume
  repeat' (first
    | with_reducible assumption
    | with_reducible apply keeps_advanceHolder
    | intro _
    | with_reducible apply keeps_ite
    | split
    | (with_reducible refine keeps_of_pair (by assumption) ?_)
    | (with_reducible refine keeps_of_opt (by assumption) ?_)
    | dsimp only)

theorem keeps_bgCut {u : State} {s : State} (h : Keeps u s) :
 Keeps u (bgCut s) := by
  unfold bgCut
  repeat' (first
    | with_reducible assumption
    | with_reducible apply keeps_setWpk
    | with_reducible apply keeps_sliceCounted
    | with_reducible apply keeps_sliceOver
    | with_reducible apply keeps_bgResume
    | intro _
    | with_reducible apply keeps_ite
    | split
    | (with_reducible refine keeps_of_pair (by assumption) ?_)
    | (with_reducible refine keeps_of_opt (by assumption) ?_)
    | dsimp only)

theorem keeps_outOfWindow {u : State} {s : State} (h : Keeps u s) :
 Keeps u (outOfWindow s) := by
  unfold outOfWindow
  repeat' (first
    | with_reducible assumption
    | with_reducible apply keeps_bgCut
    | intro _
    | with_reducible apply keeps_ite
    | split
    | (with_reducible refine keeps_of_pair (by assumption) ?_)
    | (with_reducible refine keeps_of_opt (by assumption) ?_)
    | dsimp only)

theorem keeps_clkRefused {u : State} (rcline loop : Bool) (index level addr : Nat) {s : State} (h : Keeps u s) :
 Keeps u (clkRefused rcline loop index level addr s) := by
  unfold clkRefused
  repeat' (first
    | with_reducible assumption
    | with_reducible apply keeps_wr
    | with_reducible apply keeps_irq
    | with_reducible apply keeps_err
    | intro _
    | with_reducible apply keeps_ite
    | split
    | (with_reducible refine keeps_of_pair (by assumption) ?_)
    | (with_reducible refine keeps_of_opt (by assumption) ?_)
    | dsimp only)

theorem keeps_setRcStopped {u : State} (r k : Nat) (b : Bool) {s : State} (h : Keeps u s) :
 Keeps u (setRcStopped r k b s) := by
  unfold setRcStopped
  repeat' (first
    | with_reducible assumption
    | with_reducible apply keeps_mdRgn
    | intro _
    | with_reducible apply keeps_ite
    | split
    | (with_reducible refine keeps_of_pair (by assumption) ?_)
    | (with_reducible refine keeps_of_opt (by assumption) ?_)
    | dsimp only)

theorem keeps_rcCheck {u : State} (r : Nat) {s : State} (h : Keeps u s) :
 Keeps u (rcCheck r s) := by
  unfold rcCheck
  repeat' (first
    | with_reducible assumption
    | with_reducible apply keeps_clkRefused
    | with_reducible apply keeps_setRcStopped
    | with_reducible apply keeps_foldl
    | with_reducible apply keeps_foldl_snd
    | intro _
    | with_reducible apply keeps_ite
    | split
    | (with_reducible refine keeps_of_pair (by assumption) ?_)
    | (with_reducible refine keeps_of_opt (by assumption) ?_)
    | dsimp only)

theorem keeps_rcStart {u : State} {s : State} (h : Keeps u s) :
 Keeps u (rcStart s) := by
  unfold rcStart
  repeat' (first
    | with_reducible assumption
    | with_reducible apply keeps_setRcStopped
    | with_reducible apply keeps_foldl
    | with_reducible apply keeps_foldl_snd
    | intro _
    | with_reducible apply keeps_ite
    | split
    | (with_reducible refine keeps_of_pair (by assumption) ?_)
    | (with_reducible refine keeps_of_opt (by assumption) ?_)
    | dsimp only)

theorem keeps_pmbusSend {u : State} (code : Nat) (data : Word) {s : State} (h : Keeps u s) :
 Keeps u (pmbusSend code data s) := by
  unfold pmbusSend
  repeat' (first
    | with_reducible assumption
    | with_reducible apply keeps_setIo
    | intro _
    | with_reducible apply keeps_ite
    | split
    | (with_reducible refine keeps_of_pair (by assumption) ?_)
    | (with_reducible refine keeps_of_opt (by assumption) ?_)
    | dsimp only)

theorem keeps_voutSend {u : State} (l : Nat) {s : State} (h : Keeps u s) :
 Keeps u (voutSend l s) := by
  unfold voutSend
  repeat' (first
    | with_reducible assumption
    | with_reducible apply keeps_pmbusSend
    | intro _
    | with_reducible apply keeps_ite
    | split
    | (with_reducible refine keeps_of_pair (by assumption) ?_)
    | (with_reducible refine keeps_of_opt (by assumption) ?_)
    | dsimp only)

theorem keeps_setVouts {u : State} (exponent : BitVec 5) {s : State} (h : Keeps u s) :
 Keeps u (setVouts exponent s) := by
  unfold setVouts
  repeat' (first
    | with_reducible assumption
    | with_reducible apply keeps_wr
    | with_reducible apply keeps_wrf
    | with_reducible apply keeps_foldl
    | with_reducible apply keeps_foldl_snd
    | intro _
    | with_reducible apply keeps_ite
    | split
    | (with_reducible refine keeps_of_pair (by assumption) ?_)
    | (with_reducible refine keeps_of_opt (by assumption) ?_)
    | dsimp only)

theorem keeps_pmbusAlert {u : State} (status : BitVec 16) {s : State} (h : Keeps u s) :
 Keeps u (pmbusAlert status s) := by
  unfold pmbusAlert
  repeat' (first
    | with_reducible assumption
    | with_reducible apply keeps_wr
    | with_reducible apply keeps_irq
    | intro _
    | with_reducible apply keeps_ite
    | split
    | (with_reducible refine keeps_of_pair (by assumption) ?_)
    | (with_reducible refine keeps_of_opt (by assumption) ?_)
    | dsimp only)

theorem keeps_execPmbusAlert {u : State} (status : BitVec 16) {s : State} (h : Keeps u s) :
 KeepsOut u (execPmbusAlert status s) := by
  unfold execPmbusAlert
  repeat' (first
    | with_reducible assumption
    | with_reducible apply keeps_pmbusAlert
    | with_reducible apply keepsOut_next
    | intro _
    | with_reducible apply keepsOut_ite
    | with_reducible apply keeps_ite
    | split
    | (with_reducible refine keeps_of_pair (by assumption) ?_)
    | (with_reducible refine keeps_of_opt (by assumption) ?_)
    | dsimp only)

theorem keeps_islApply {u : State} (i : Nat) (v : Word) {s : State} (h : Keeps u s) :
 Keeps u (islApply i v s) := by
  unfold islApply
  repeat' (first
    | with_reducible assumption
    | with_reducible apply keeps_setPwr
    | with_reducible apply keeps_wr
    | with_reducible apply keeps_clkRefused
    | intro _
    | with_reducible apply keeps_ite
    | split
    | (with_reducible refine keeps_of_pair (by assumption) ?_)
    | (with_reducible refine keeps_of_opt (by assumption) ?_)
    | dsimp only)

theorem keeps_islWrite {u : State} (i : Nat) (v : Word) {s : State} (h : Keeps u s) :
 Keeps u (islWrite i v s) := by
  unfold islWrite
  repeat' (first
    | with_reducible assumption
    | with_reducible apply keeps_outOfWindow
    | with_reducible apply keeps_islApply
    | intro _
    | with_reducible apply keeps_ite
    | split
    | (with_reducible refine keeps_of_pair (by assumption) ?_)
    | (with_reducible refine keeps_of_opt (by assumption) ?_)
    | dsimp only)

theorem keeps_execIslWrite {u : State} (rq : Requester) (i : Fin 79) (v : Word) {s : State} (h : Keeps u s) :
 KeepsOut u (execIslWrite rq i v s) := by
  unfold execIslWrite
  repeat' (first
    | with_reducible assumption
    | with_reducible apply keeps_onPage
    | with_reducible apply keeps_islWrite
    | with_reducible apply keepsOut_next
    | intro _
    | with_reducible apply keepsOut_ite
    | with_reducible apply keeps_ite
    | split
    | (with_reducible refine keeps_of_pair (by assumption) ?_)
    | (with_reducible refine keeps_of_opt (by assumption) ?_)
    | dsimp only)

theorem keeps_setNow {u : State} (i : Nat) (b : Byte) {s : State} (h : Keeps u s) :
 Keeps u (setNow i b s) := by
  unfold setNow
  repeat' (first
    | with_reducible assumption
    | with_reducible apply keeps_setPwr
    | intro _
    | with_reducible apply keeps_ite
    | split
    | (with_reducible refine keeps_of_pair (by assumption) ?_)
    | (with_reducible refine keeps_of_opt (by assumption) ?_)
    | dsimp only)

theorem keeps_takeAll {u : State} {s : State} (h : Keeps u s) :
 Keeps u (takeAll s) := by
  unfold takeAll
  repeat' (first
    | with_reducible assumption
    | with_reducible apply keeps_setPwr
    | with_reducible apply keeps_irqRise
    | with_reducible apply keeps_setNow
    | with_reducible apply keeps_foldl
    | with_reducible apply keeps_foldl_snd
    | intro _
    | with_reducible apply keeps_ite
    | split
    | (with_reducible refine keeps_of_pair (by assumption) ?_)
    | (with_reducible refine keeps_of_opt (by assumption) ?_)
    | dsimp only)

theorem keeps_setChange {u : State} (c : Option LvlChange) {s : State} (h : Keeps u s) :
 Keeps u (setChange c s) := by
  unfold setChange
  repeat' (first
    | with_reducible assumption
    | with_reducible apply keeps_setPwr
    | intro _
    | with_reducible apply keeps_ite
    | split
    | (with_reducible refine keeps_of_pair (by assumption) ?_)
    | (with_reducible refine keeps_of_opt (by assumption) ?_)
    | dsimp only)

theorem keeps_levelDone {u : State} {s : State} (h : Keeps u s) :
 Keeps u (levelDone s) := by
  unfold levelDone
  repeat' (first
    | with_reducible assumption
    | with_reducible apply keeps_wrf
    | with_reducible apply keeps_irq
    | with_reducible apply keeps_setChange
    | intro _
    | with_reducible apply keeps_ite
    | split
    | (with_reducible refine keeps_of_pair (by assumption) ?_)
    | (with_reducible refine keeps_of_opt (by assumption) ?_)
    | dsimp only)

theorem keeps_islandsMoved {u : State} (c : LvlChange) {s : State} (h : Keeps u s) :
 Keeps u (islandsMoved c s) := by
  unfold islandsMoved
  repeat' (first
    | with_reducible assumption
    | with_reducible apply keeps_wrf
    | with_reducible apply keeps_rcStart
    | with_reducible apply keeps_voutSend
    | with_reducible apply keeps_setChange
    | with_reducible apply keeps_levelDone
    | intro _
    | with_reducible apply keeps_ite
    | split
    | (with_reducible refine keeps_of_pair (by assumption) ?_)
    | (with_reducible refine keeps_of_opt (by assumption) ?_)
    | dsimp only)

theorem keeps_moveIslands {u : State} (c : LvlChange) {s : State} (h : Keeps u s) :
 Keeps u (moveIslands c s) := by
  unfold moveIslands
  repeat' (first
    | with_reducible assumption
    | with_reducible apply keeps_setPwr
    | with_reducible apply keeps_setChange
    | with_reducible apply keeps_islandsMoved
    | intro _
    | with_reducible apply keeps_ite
    | split
    | (with_reducible refine keeps_of_pair (by assumption) ?_)
    | (with_reducible refine keeps_of_opt (by assumption) ?_)
    | dsimp only)

theorem keeps_levelRefused {u : State} (addr : Nat) {s : State} (h : Keeps u s) :
 Keeps u (levelRefused addr s) := by
  unfold levelRefused
  repeat' (first
    | with_reducible assumption
    | with_reducible apply keeps_wrf
    | with_reducible apply keeps_count
    | with_reducible apply keeps_irq
    | with_reducible apply keeps_err
    | intro _
    | with_reducible apply keeps_ite
    | split
    | (with_reducible refine keeps_of_pair (by assumption) ?_)
    | (with_reducible refine keeps_of_opt (by assumption) ?_)
    | dsimp only)

theorem keeps_levelChange {u : State} (target : Nat) {s : State} (h : Keeps u s) :
 Keeps u (levelChange target s) := by
  unfold levelChange
  repeat' (first
    | with_reducible assumption
    | with_reducible apply keeps_wrf
    | with_reducible apply keeps_irq
    | with_reducible apply keeps_voutSend
    | with_reducible apply keeps_setChange
    | with_reducible apply keeps_moveIslands
    | with_reducible apply keeps_levelRefused
    | intro _
    | with_reducible apply keeps_ite
    | split
    | (with_reducible refine keeps_of_pair (by assumption) ?_)
    | (with_reducible refine keeps_of_opt (by assumption) ?_)
    | dsimp only)

theorem keeps_levelReq {u : State} (target : Nat) {s : State} (h : Keeps u s) :
 Keeps u (levelReq target s) := by
  unfold levelReq
  repeat' (first
    | with_reducible assumption
    | with_reducible apply keeps_outOfWindow
    | with_reducible apply keeps_levelChange
    | intro _
    | with_reducible apply keeps_ite
    | split
    | (with_reducible refine keeps_of_pair (by assumption) ?_)
    | (with_reducible refine keeps_of_opt (by assumption) ?_)
    | dsimp only)

theorem keeps_execLevelReq {u : State} (rq : Requester) (level : Fin 4) {s : State} (h : Keeps u s) :
 KeepsOut u (execLevelReq rq level s) := by
  unfold execLevelReq
  repeat' (first
    | with_reducible assumption
    | with_reducible apply keeps_onPage
    | with_reducible apply keeps_levelReq
    | with_reducible apply keepsOut_next
    | intro _
    | with_reducible apply keepsOut_ite
    | with_reducible apply keeps_ite
    | split
    | (with_reducible refine keeps_of_pair (by assumption) ?_)
    | (with_reducible refine keeps_of_opt (by assumption) ?_)
    | dsimp only)

theorem keeps_islandSwitch {u : State} (i : Nat) {s : State} (h : Keeps u s) :
 Keeps u (islandSwitch i s) := by
  unfold islandSwitch
  repeat' (first
    | with_reducible assumption
    | with_reducible apply keeps_setPwr
    | with_reducible apply keeps_setNow
    | with_reducible apply keeps_setChange
    | with_reducible apply keeps_islandsMoved
    | intro _
    | with_reducible apply keeps_ite
    | split
    | (with_reducible refine keeps_of_pair (by assumption) ?_)
    | (with_reducible refine keeps_of_opt (by assumption) ?_)
    | dsimp only)

theorem keeps_execIslandSwitch {u : State} (i : Fin 79) {s : State} (h : Keeps u s) :
 KeepsOut u (execIslandSwitch i s) := by
  unfold execIslandSwitch
  repeat' (first
    | with_reducible assumption
    | with_reducible apply keeps_irqRise
    | with_reducible apply keeps_islandSwitch
    | with_reducible apply keepsOut_next
    | intro _
    | with_reducible apply keepsOut_ite
    | with_reducible apply keeps_ite
    | split
    | (with_reducible refine keeps_of_pair (by assumption) ?_)
    | (with_reducible refine keeps_of_opt (by assumption) ?_)
    | dsimp only)

theorem keeps_levelAck {u : State} {s : State} (h : Keeps u s) :
 Keeps u (levelAck s) := by
  unfold levelAck
  repeat' (first
    | with_reducible assumption
    | with_reducible apply keeps_setChange
    | intro _
    | with_reducible apply keeps_ite
    | split
    | (with_reducible refine keeps_of_pair (by assumption) ?_)
    | (with_reducible refine keeps_of_opt (by assumption) ?_)
    | dsimp only)

theorem keeps_execPmbusAck {u : State} {s : State} (h : Keeps u s) :
 KeepsOut u (execPmbusAck s) := by
  unfold execPmbusAck
  repeat' (first
    | with_reducible assumption
    | with_reducible apply keeps_levelAck
    | with_reducible apply keepsOut_next
    | intro _
    | with_reducible apply keepsOut_ite
    | with_reducible apply keeps_ite
    | split
    | (with_reducible refine keeps_of_pair (by assumption) ?_)
    | (with_reducible refine keeps_of_opt (by assumption) ?_)
    | dsimp only)

theorem keeps_levelGood {u : State} {s : State} (h : Keeps u s) :
 Keeps u (levelGood s) := by
  unfold levelGood
  repeat' (first
    | with_reducible assumption
    | with_reducible apply keeps_wrf
    | with_reducible apply keeps_setChange
    | intro _
    | with_reducible apply keeps_ite
    | split
    | (with_reducible refine keeps_of_pair (by assumption) ?_)
    | (with_reducible refine keeps_of_opt (by assumption) ?_)
    | dsimp only)

theorem keeps_execPowerGood {u : State} {s : State} (h : Keeps u s) :
 KeepsOut u (execPowerGood s) := by
  unfold execPowerGood
  repeat' (first
    | with_reducible assumption
    | with_reducible apply keeps_levelGood
    | with_reducible apply keepsOut_next
    | intro _
    | with_reducible apply keepsOut_ite
    | with_reducible apply keeps_ite
    | split
    | (with_reducible refine keeps_of_pair (by assumption) ?_)
    | (with_reducible refine keeps_of_opt (by assumption) ?_)
    | dsimp only)

theorem keeps_levelSettled {u : State} {s : State} (h : Keeps u s) :
 Keeps u (levelSettled s) := by
  unfold levelSettled
  repeat' (first
    | with_reducible assumption
    | with_reducible apply keeps_levelDone
    | with_reducible apply keeps_moveIslands
    | intro _
    | with_reducible apply keeps_ite
    | split
    | (with_reducible refine keeps_of_pair (by assumption) ?_)
    | (with_reducible refine keeps_of_opt (by assumption) ?_)
    | dsimp only)

theorem keeps_execSettleElapsed {u : State} {s : State} (h : Keeps u s) :
 KeepsOut u (execSettleElapsed s) := by
  unfold execSettleElapsed
  repeat' (first
    | with_reducible assumption
    | with_reducible apply keeps_levelSettled
    | with_reducible apply keepsOut_next
    | intro _
    | with_reducible apply keepsOut_ite
    | with_reducible apply keeps_ite
    | split
    | (with_reducible refine keeps_of_pair (by assumption) ?_)
    | (with_reducible refine keeps_of_opt (by assumption) ?_)
    | dsimp only)

theorem keeps_levelTimeout {u : State} {s : State} (h : Keeps u s) :
 Keeps u (levelTimeout s) := by
  unfold levelTimeout
  repeat' (first
    | with_reducible assumption
    | with_reducible apply keeps_wrf
    | with_reducible apply keeps_voutSend
    | with_reducible apply keeps_setChange
    | with_reducible apply keeps_levelRefused
    | intro _
    | with_reducible apply keeps_ite
    | split
    | (with_reducible refine keeps_of_pair (by assumption) ?_)
    | (with_reducible refine keeps_of_opt (by assumption) ?_)
    | dsimp only)

theorem keeps_execPgTimeout {u : State} {s : State} (h : Keeps u s) :
 KeepsOut u (execPgTimeout s) := by
  unfold execPgTimeout
  repeat' (first
    | with_reducible assumption
    | with_reducible apply keeps_levelTimeout
    | with_reducible apply keepsOut_next
    | intro _
    | with_reducible apply keepsOut_ite
    | with_reducible apply keeps_ite
    | split
    | (with_reducible refine keeps_of_pair (by assumption) ?_)
    | (with_reducible refine keeps_of_opt (by assumption) ?_)
    | dsimp only)

theorem keeps_clCfgWrite {u : State} (n : Nat) (v : Word) {s : State} (h : Keeps u s) :
 Keeps u (clCfgWrite n v s) := by
  unfold clCfgWrite
  repeat' (first
    | with_reducible assumption
    | with_reducible apply keeps_wr
    | with_reducible apply keeps_permFault
    | with_reducible apply keeps_clkRefused
    | intro _
    | with_reducible apply keeps_ite
    | split
    | (with_reducible refine keeps_of_pair (by assumption) ?_)
    | (with_reducible refine keeps_of_opt (by assumption) ?_)
    | dsimp only)

theorem keeps_execClCfgWrite {u : State} (rq : Requester) (n : Fin 8) (v : Word) {s : State} (h : Keeps u s) :
 KeepsOut u (execClCfgWrite rq n v s) := by
  unfold execClCfgWrite
  repeat' (first
    | with_reducible assumption
    | with_reducible apply keeps_onPage
    | with_reducible apply keeps_clCfgWrite
    | with_reducible apply keepsOut_next
    | intro _
    | with_reducible apply keepsOut_ite
    | with_reducible apply keeps_ite
    | split
    | (with_reducible refine keeps_of_pair (by assumption) ?_)
    | (with_reducible refine keeps_of_opt (by assumption) ?_)
    | dsimp only)

theorem keeps_lockLoop {u : State} (n : Nat) {s : State} (h : Keeps u s) :
 Keeps u (lockLoop n s) := by
  unfold lockLoop
  repeat' (first
    | with_reducible assumption
    | with_reducible apply keeps_md
    | intro _
    | with_reducible apply keeps_ite
    | split
    | (with_reducible refine keeps_of_pair (by assumption) ?_)
    | (with_reducible refine keeps_of_opt (by assumption) ?_)
    | dsimp only)

theorem keeps_loopLock {u : State} (n : Nat) {s : State} (h : Keeps u s) :
 Keeps u (loopLock n s) := by
  unfold loopLock
  repeat' (first
    | with_reducible assumption
    | with_reducible apply keeps_wrf
    | with_reducible apply keeps_rcStart
    | with_reducible apply keeps_lockLoop
    | intro _
    | with_reducible apply keeps_ite
    | split
    | (with_reducible refine keeps_of_pair (by assumption) ?_)
    | (with_reducible refine keeps_of_opt (by assumption) ?_)
    | dsimp only)

theorem keeps_execLoopLock {u : State} (n : Fin 9) {s : State} (h : Keeps u s) :
 KeepsOut u (execLoopLock n s) := by
  unfold execLoopLock
  repeat' (first
    | with_reducible assumption
    | with_reducible apply keeps_loopLock
    | with_reducible apply keepsOut_next
    | intro _
    | with_reducible apply keepsOut_ite
    | with_reducible apply keeps_ite
    | split
    | (with_reducible refine keeps_of_pair (by assumption) ?_)
    | (with_reducible refine keeps_of_opt (by assumption) ?_)
    | dsimp only)

theorem keeps_lossOfReference {u : State} (n : Nat) {s : State} (h : Keeps u s) :
 Keeps u (lossOfReference n s) := by
  unfold lossOfReference
  repeat' (first
    | with_reducible assumption
    | with_reducible apply keeps_md
    | with_reducible apply keeps_irq
    | intro _
    | with_reducible apply keeps_ite
    | split
    | (with_reducible refine keeps_of_pair (by assumption) ?_)
    | (with_reducible refine keeps_of_opt (by assumption) ?_)
    | dsimp only)

theorem keeps_execLossOfReference {u : State} (n : Fin 8) {s : State} (h : Keeps u s) :
 KeepsOut u (execLossOfReference n s) := by
  unfold execLossOfReference
  repeat' (first
    | with_reducible assumption
    | with_reducible apply keeps_outOfWindow
    | with_reducible apply keeps_lossOfReference
    | with_reducible apply keepsOut_next
    | intro _
    | with_reducible apply keepsOut_ite
    | with_reducible apply keeps_ite
    | split
    | (with_reducible refine keeps_of_pair (by assumption) ?_)
    | (with_reducible refine keeps_of_opt (by assumption) ?_)
    | dsimp only)

theorem keeps_stewardClkWrite {u : State} (src : Bool) {s : State} (h : Keeps u s) :
 Keeps u (stewardClkWrite src s) := by
  unfold stewardClkWrite
  repeat' (first
    | with_reducible assumption
    | with_reducible apply keeps_wrf
    | with_reducible apply keeps_drawn
    | with_reducible apply keeps_clkRefused
    | intro _
    | with_reducible apply keeps_ite
    | split
    | (with_reducible refine keeps_of_pair (by assumption) ?_)
    | (with_reducible refine keeps_of_opt (by assumption) ?_)
    | dsimp only)

theorem keeps_execStewardClkWrite {u : State} (rq : Requester) (src : Bool) {s : State} (h : Keeps u s) :
 KeepsOut u (execStewardClkWrite rq src s) := by
  unfold execStewardClkWrite
  repeat' (first
    | with_reducible assumption
    | with_reducible apply keeps_onPage
    | with_reducible apply keeps_stewardClkWrite
    | with_reducible apply keepsOut_next
    | intro _
    | with_reducible apply keepsOut_ite
    | with_reducible apply keeps_ite
    | split
    | (with_reducible refine keeps_of_pair (by assumption) ?_)
    | (with_reducible refine keeps_of_opt (by assumption) ?_)
    | dsimp only)

theorem keeps_loadClockRecord {u : State} {s : State} (h : Keeps u s) :
 Keeps u (loadClockRecord s).2 := by
  unfold loadClockRecord
  repeat' (first
    | with_reducible assumption
    | with_reducible apply keeps_wr
    | with_reducible apply keeps_err
    | with_reducible apply keeps_clkRefused
    | with_reducible apply keeps_foldl
    | with_reducible apply keeps_foldl_snd
    | intro _
    | with_reducible apply keeps_ite_snd
    | with_reducible apply keeps_ite
    | split
    | (with_reducible refine keeps_of_pair (by assumption) ?_)
    | (with_reducible refine keeps_of_opt (by assumption) ?_)
    | dsimp only)

theorem keeps_lockAll {u : State} {s : State} (h : Keeps u s) :
 Keeps u (lockAll s) := by
  unfold lockAll
  repeat' (first
    | with_reducible assumption
    | with_reducible apply keeps_lockLoop
    | with_reducible apply keeps_foldl
    | with_reducible apply keeps_foldl_snd
    | intro _
    | with_reducible apply keeps_ite
    | split
    | (with_reducible refine keeps_of_pair (by assumption) ?_)
    | (with_reducible refine keeps_of_opt (by assumption) ?_)
    | dsimp only)

end Sys2Proof.Machine
end

