-- ==== Sys2Proof/Laws/KeepsSwap.lean ====
section
/-! SUPPORT. Every operation of Machine/Swap.lean keeps (Laws/Keeps.lean). -/
set_option linter.unusedTactic false
set_option linter.unreachableTactic false
set_option linter.unusedVariables false

namespace Sys2Proof.Machine

open Sys2Proof

theorem keeps_swapState {u : State} (n r : Nat) {s : State} (h : Keeps u s) :
 Keeps u (swapState n r s) := by
  unfold swapState
  repeat' (first
    | with_reducible assumption
    | with_reducible apply keeps_wrf
    | intro _
    | with_reducible apply keeps_ite
    | split
    | (with_reducible refine keeps_of_pair (by assumption) ?_)
    | (with_reducible refine keeps_of_opt (by assumption) ?_)
    | dsimp only)

theorem keeps_armCode {u : State} (c : Nat) {s : State} (h : Keeps u s) :
 Keeps u (armCode c s) := by
  unfold armCode
  repeat' (first
    | with_reducible assumption
    | with_reducible apply keeps_wrf
    | intro _
    | with_reducible apply keeps_ite
    | split
    | (with_reducible refine keeps_of_pair (by assumption) ?_)
    | (with_reducible refine keeps_of_opt (by assumption) ?_)
    | dsimp only)

theorem keeps_armSet {u : State} (rq : Requester) (now : Bool) {s : State} (h : Keeps u s) :
 Keeps u (armSet rq now s) := by
  unfold armSet
  repeat' (first
    | with_reducible assumption
    | with_reducible apply keeps_setFox
    | with_reducible apply keeps_swapState
    | with_reducible apply keeps_armCode
    | with_reducible apply keeps_foldl
    | with_reducible apply keeps_foldl_snd
    | intro _
    | with_reducible apply keeps_ite
    | split
    | (with_reducible refine keeps_of_pair (by assumption) ?_)
    | (with_reducible refine keeps_of_opt (by assumption) ?_)
    | dsimp only)

theorem keeps_disarmSet {u : State} {s : State} (h : Keeps u s) :
 Keeps u (disarmSet s) := by
  unfold disarmSet
  repeat' (first
    | with_reducible assumption
    | with_reducible apply keeps_setFox
    | intro _
    | with_reducible apply keeps_ite
    | split
    | (with_reducible refine keeps_of_pair (by assumption) ?_)
    | (with_reducible refine keeps_of_opt (by assumption) ?_)
    | dsimp only)

theorem keeps_disarmCmd {u : State} {s : State} (h : Keeps u s) :
 Keeps u (disarmCmd s) := by
  unfold disarmCmd
  repeat' (first
    | with_reducible assumption
    | with_reducible apply keeps_swapState
    | with_reducible apply keeps_armCode
    | with_reducible apply keeps_disarmSet
    | with_reducible apply keeps_foldl
    | with_reducible apply keeps_foldl_snd
    | intro _
    | with_reducible apply keeps_ite
    | split
    | (with_reducible refine keeps_of_pair (by assumption) ?_)
    | (with_reducible refine keeps_of_opt (by assumption) ?_)
    | dsimp only)

theorem keeps_execArmCtlArm {u : State} (rq : Requester) {s : State} (h : Keeps u s) :
 KeepsOut u (execArmCtlArm rq s) := by
  unfold execArmCtlArm
  repeat' (first
    | with_reducible assumption
    | with_reducible apply keeps_onPage
    | with_reducible apply keeps_armSet
    | with_reducible apply keepsOut_next
    | intro _
    | with_reducible apply keepsOut_ite
    | with_reducible apply keeps_ite
    | split
    | (with_reducible refine keeps_of_pair (by assumption) ?_)
    | (with_reducible refine keeps_of_opt (by assumption) ?_)
    | dsimp only)

theorem keeps_execNow {u : State} (rq : Requester) {s : State} (h : Keeps u s) :
 KeepsOut u (execNow rq s) := by
  unfold execNow
  repeat' (first
    | with_reducible assumption
    | with_reducible apply keeps_onPage
    | with_reducible apply keeps_armSet
    | with_reducible apply keepsOut_next
    | intro _
    | with_reducible apply keepsOut_ite
    | with_reducible apply keeps_ite
    | split
    | (with_reducible refine keeps_of_pair (by assumption) ?_)
    | (with_reducible refine keeps_of_opt (by assumption) ?_)
    | dsimp only)

theorem keeps_execDisarm {u : State} (rq : Requester) {s : State} (h : Keeps u s) :
 KeepsOut u (execDisarm rq s) := by
  unfold execDisarm
  repeat' (first
    | with_reducible assumption
    | with_reducible apply keeps_onPage
    | with_reducible apply keeps_disarmCmd
    | with_reducible apply keepsOut_next
    | intro _
    | with_reducible apply keepsOut_ite
    | with_reducible apply keeps_ite
    | split
    | (with_reducible refine keeps_of_pair (by assumption) ?_)
    | (with_reducible refine keeps_of_opt (by assumption) ?_)
    | dsimp only)

theorem keeps_holdSide {u : State} (r side : Nat) {s : State} (h : Keeps u s) :
 Keeps u (holdSide r side s) := by
  unfold holdSide
  repeat' (first
    | with_reducible assumption
    | with_reducible apply keeps_mdRgn
    | with_reducible apply keeps_startHold
    | intro _
    | with_reducible apply keeps_ite
    | split
    | (with_reducible refine keeps_of_pair (by assumption) ?_)
    | (with_reducible refine keeps_of_opt (by assumption) ?_)
    | dsimp only)

theorem keeps_releaseItem {u : State} (r item : Nat) {s : State} (h : Keeps u s) :
 Keeps u (releaseItem r item s) := by
  unfold releaseItem
  repeat' (first
    | with_reducible assumption
    | with_reducible apply keeps_mdRgn
    | with_reducible apply keeps_endHold
    | with_reducible apply keeps_foldl
    | with_reducible apply keeps_foldl_snd
    | intro _
    | with_reducible apply keeps_ite
    | split
    | (with_reducible refine keeps_of_pair (by assumption) ?_)
    | (with_reducible refine keeps_of_opt (by assumption) ?_)
    | dsimp only)

theorem keeps_releaseStepOf {u : State} (r k : Nat) {s : State} (h : Keeps u s) :
 Keeps u (releaseStepOf r k s) := by
  unfold releaseStepOf
  repeat' (first
    | with_reducible assumption
    | with_reducible apply keeps_releaseItem
    | intro _
    | with_reducible apply keeps_ite
    | split
    | (with_reducible refine keeps_of_pair (by assumption) ?_)
    | (with_reducible refine keeps_of_opt (by assumption) ?_)
    | dsimp only)

theorem keeps_sqDrop {u : State} (r n : Nat) {s : State} (h : Keeps u s) :
 Keeps u (sqDrop r n s) := by
  unfold sqDrop
  repeat' (first
    | with_reducible assumption
    | with_reducible apply keeps_countN
    | with_reducible apply keeps_irq
    | intro _
    | with_reducible apply keeps_ite
    | split
    | (with_reducible refine keeps_of_pair (by assumption) ?_)
    | (with_reducible refine keeps_of_opt (by assumption) ?_)
    | dsimp only)

theorem keeps_sqEmpty {u : State} (r : Nat) {s : State} (h : Keeps u s) :
 Keeps u (sqEmpty r s) := by
  unfold sqEmpty
  repeat' (first
    | with_reducible assumption
    | with_reducible apply keeps_mdRgn
    | with_reducible apply keeps_sqDrop
    | intro _
    | with_reducible apply keeps_ite
    | split
    | (with_reducible refine keeps_of_pair (by assumption) ?_)
    | (with_reducible refine keeps_of_opt (by assumption) ?_)
    | dsimp only)

theorem keeps_squirrelTake {u : State} (r : Nat) {s : State} (h : Keeps u s) :
 Keeps u (squirrelTake r s) := by
  unfold squirrelTake
  repeat' (first
    | with_reducible assumption
    | with_reducible apply keeps_mdRgn
    | with_reducible apply keeps_malformed
    | with_reducible apply keeps_dropMsg
    | with_reducible apply keeps_sqDrop
    | intro _
    | with_reducible apply keeps_ite
    | split
    | (with_reducible refine keeps_of_pair (by assumption) ?_)
    | (with_reducible refine keeps_of_opt (by assumption) ?_)
    | dsimp only)

theorem keeps_execHandover {u : State} (r : RegionId) {s : State} (h : Keeps u s) :
 KeepsOut u (execHandover r s) := by
  unfold execHandover
  repeat' (first
    | with_reducible assumption
    | with_reducible apply keeps_squirrelTake
    | with_reducible apply keepsOut_next
    | intro _
    | with_reducible apply keepsOut_ite
    | with_reducible apply keeps_ite
    | split
    | (with_reducible refine keeps_of_pair (by assumption) ?_)
    | (with_reducible refine keeps_of_opt (by assumption) ?_)
    | dsimp only)

theorem keeps_squirrelDeliver {u : State} (r : Nat) {s : State} (h : Keeps u s) :
 Keeps u (squirrelDeliver r s) := by
  unfold squirrelDeliver
  repeat' (first
    | with_reducible assumption
    | with_reducible apply keeps_wrf
    | with_reducible apply keeps_mdRgn
    | with_reducible apply keeps_sendGen
    | with_reducible apply keeps_sqEmpty
    | intro _
    | with_reducible apply keeps_ite
    | split
    | (with_reducible refine keeps_of_pair (by assumption) ?_)
    | (with_reducible refine keeps_of_opt (by assumption) ?_)
    | dsimp only)

theorem keeps_recordAbort {u : State} (m : BitVec 64) (code low : Nat) {s : State} (h : Keeps u s) :
 Keeps u (recordAbort m code low s) := by
  unfold recordAbort
  repeat' (first
    | with_reducible assumption
    | with_reducible apply keeps_wr
    | with_reducible apply keeps_count
    | with_reducible apply keeps_irq
    | with_reducible apply keeps_err
    | with_reducible apply keeps_disarmSet
    | with_reducible apply keeps_foldl
    | with_reducible apply keeps_foldl_snd
    | intro _
    | with_reducible apply keeps_ite
    | split
    | (with_reducible refine keeps_of_pair (by assumption) ?_)
    | (with_reducible refine keeps_of_opt (by assumption) ?_)
    | dsimp only)

theorem keeps_closeInput {u : State} (inp : ChanId) (code : Nat) {s : State} (h : Keeps u s) :
 Keeps u (closeInput inp code s) := by
  unfold closeInput
  repeat' (first
    | with_reducible assumption
    | with_reducible apply keeps_mdChan
    | with_reducible apply keeps_send
    | with_reducible apply keeps_release
    | intro _
    | with_reducible apply keeps_ite
    | split
    | (with_reducible refine keeps_of_pair (by assumption) ?_)
    | (with_reducible refine keeps_of_opt (by assumption) ?_)
    | dsimp only)

theorem keeps_abortRegion {u : State} (r code : Nat) {s : State} (h : Keeps u s) :
 Keeps u (abortRegion r code s) := by
  unfold abortRegion
  repeat' (first
    | with_reducible assumption
    | with_reducible apply keeps_mdRgn
    | with_reducible apply keeps_releaseHold
    | with_reducible apply keeps_releaseStepOf
    | with_reducible apply keeps_sqEmpty
    | with_reducible apply keeps_closeInput
    | with_reducible apply keeps_foldl
    | with_reducible apply keeps_foldl_snd
    | intro _
    | with_reducible apply keeps_ite
    | split
    | (with_reducible refine keeps_of_pair (by assumption) ?_)
    | (with_reducible refine keeps_of_opt (by assumption) ?_)
    | dsimp only)

theorem keeps_abortSet {u : State} (code low : Nat) {s : State} (h : Keeps u s) :
 Keeps u (abortSet code low s) := by
  unfold abortSet
  repeat' (first
    | with_reducible assumption
    | with_reducible apply keeps_recordAbort
    | with_reducible apply keeps_abortRegion
    | with_reducible apply keeps_foldl
    | with_reducible apply keeps_foldl_snd
    | intro _
    | with_reducible apply keeps_ite
    | split
    | (with_reducible refine keeps_of_pair (by assumption) ?_)
    | (with_reducible refine keeps_of_opt (by assumption) ?_)
    | dsimp only)

theorem keeps_drainStart {u : State} {s : State} (h : Keeps u s) :
 Keeps u (drainStart s) := by
  unfold drainStart
  repeat' (first
    | with_reducible assumption
    | with_reducible apply keeps_setFox
    | with_reducible apply keeps_mdRgn
    | with_reducible apply keeps_abortSet
    | with_reducible apply keeps_foldl
    | with_reducible apply keeps_foldl_snd
    | intro _
    | with_reducible apply keeps_ite
    | split
    | (with_reducible refine keeps_of_pair (by assumption) ?_)
    | (with_reducible refine keeps_of_opt (by assumption) ?_)
    | dsimp only)

theorem keeps_execSwapDrainStart {u : State} {s : State} (h : Keeps u s) :
 KeepsOut u (execSwapDrainStart s) := by
  unfold execSwapDrainStart
  repeat' (first
    | with_reducible assumption
    | with_reducible apply keeps_drainStart
    | with_reducible apply keepsOut_next
    | intro _
    | with_reducible apply keepsOut_ite
    | with_reducible apply keeps_ite
    | split
    | (with_reducible refine keeps_of_pair (by assumption) ?_)
    | (with_reducible refine keeps_of_opt (by assumption) ?_)
    | dsimp only)

theorem keeps_regionNotice {u : State} (r : Nat) {s : State} (h : Keeps u s) :
 Keeps u (regionNotice r s) := by
  unfold regionNotice
  repeat' (first
    | with_reducible assumption
    | with_reducible apply keeps_mdRgn
    | with_reducible apply keeps_swapState
    | with_reducible apply keeps_holdSide
    | with_reducible apply keeps_foldl
    | with_reducible apply keeps_foldl_snd
    | intro _
    | with_reducible apply keeps_ite
    | split
    | (with_reducible refine keeps_of_pair (by assumption) ?_)
    | (with_reducible refine keeps_of_opt (by assumption) ?_)
    | dsimp only)

theorem keeps_execRegionDrainNotice {u : State} (r : RegionId) {s : State} (h : Keeps u s) :
 KeepsOut u (execRegionDrainNotice r s) := by
  unfold execRegionDrainNotice
  repeat' (first
    | with_reducible assumption
    | with_reducible apply keeps_settleAll
    | with_reducible apply keeps_regionNotice
    | with_reducible apply keepsOut_next
    | intro _
    | with_reducible apply keepsOut_ite
    | with_reducible apply keeps_ite
    | split
    | (with_reducible refine keeps_of_pair (by assumption) ?_)
    | (with_reducible refine keeps_of_opt (by assumption) ?_)
    | dsimp only)

theorem keeps_regionDrained {u : State} (r : Nat) {s : State} (h : Keeps u s) :
 Keeps u (regionDrained r s) := by
  unfold regionDrained
  repeat' (first
    | with_reducible assumption
    | with_reducible apply keeps_setFox
    | with_reducible apply keeps_mdRgn
    | with_reducible apply keeps_swapState
    | intro _
    | with_reducible apply keeps_ite
    | split
    | (with_reducible refine keeps_of_pair (by assumption) ?_)
    | (with_reducible refine keeps_of_opt (by assumption) ?_)
    | dsimp only)

theorem keeps_execRegionDrained {u : State} (r : RegionId) {s : State} (h : Keeps u s) :
 KeepsOut u (execRegionDrained r s) := by
  unfold execRegionDrained
  repeat' (first
    | with_reducible assumption
    | with_reducible apply keeps_regionDrained
    | with_reducible apply keepsOut_next
    | intro _
    | with_reducible apply keepsOut_ite
    | with_reducible apply keeps_ite
    | split
    | (with_reducible refine keeps_of_pair (by assumption) ?_)
    | (with_reducible refine keeps_of_opt (by assumption) ?_)
    | dsimp only)

theorem keeps_setDrained {u : State} {s : State} (h : Keeps u s) :
 Keeps u (setDrained s) := by
  unfold setDrained
  repeat' (first
    | with_reducible assumption
    | with_reducible apply keeps_setFox
    | with_reducible apply keeps_wr
    | with_reducible apply keeps_drawn
    | with_reducible apply keeps_foldl
    | with_reducible apply keeps_foldl_snd
    | intro _
    | with_reducible apply keeps_ite
    | split
    | (with_reducible refine keeps_of_pair (by assumption) ?_)
    | (with_reducible refine keeps_of_opt (by assumption) ?_)
    | dsimp only)

theorem keeps_execSetDrained {u : State} {s : State} (h : Keeps u s) :
 KeepsOut u (execSetDrained s) := by
  unfold execSetDrained
  repeat' (first
    | with_reducible assumption
    | with_reducible apply keeps_setDrained
    | with_reducible apply keepsOut_next
    | intro _
    | with_reducible apply keepsOut_ite
    | with_reducible apply keeps_ite
    | split
    | (with_reducible refine keeps_of_pair (by assumption) ?_)
    | (with_reducible refine keeps_of_opt (by assumption) ?_)
    | dsimp only)

theorem keeps_drainTimeout {u : State} {s : State} (h : Keeps u s) :
 Keeps u (drainTimeout s) := by
  unfold drainTimeout
  repeat' (first
    | with_reducible assumption
    | with_reducible apply keeps_abortSet
    | intro _
    | with_reducible apply keeps_ite
    | split
    | (with_reducible refine keeps_of_pair (by assumption) ?_)
    | (with_reducible refine keeps_of_opt (by assumption) ?_)
    | dsimp only)

theorem keeps_execDrainTimeout {u : State} {s : State} (h : Keeps u s) :
 KeepsOut u (execDrainTimeout s) := by
  unfold execDrainTimeout
  repeat' (first
    | with_reducible assumption
    | with_reducible apply keeps_settleAll
    | with_reducible apply keeps_drainTimeout
    | with_reducible apply keepsOut_next
    | intro _
    | with_reducible apply keepsOut_ite
    | with_reducible apply keeps_ite
    | split
    | (with_reducible refine keeps_of_pair (by assumption) ?_)
    | (with_reducible refine keeps_of_opt (by assumption) ?_)
    | dsimp only)

theorem keeps_switchPlanes {u : State} (r : Nat) {s : State} (h : Keeps u s) :
 Keeps u (switchPlanes r s) := by
  unfold switchPlanes
  repeat' (first
    | with_reducible assumption
    | with_reducible apply keeps_setPlanes
    | with_reducible apply keeps_wr
    | with_reducible apply keeps_wrf
    | with_reducible apply keeps_mdRgn
    | intro _
    | with_reducible apply keeps_ite
    | split
    | (with_reducible refine keeps_of_pair (by assumption) ?_)
    | (with_reducible refine keeps_of_opt (by assumption) ?_)
    | dsimp only)

theorem keeps_swapBankClears {u : State} (r : Nat) (old : State) {s : State} (h : Keeps u s) :
 Keeps u (swapBankClears r old s) := by
  unfold swapBankClears
  repeat' (first
    | with_reducible assumption
    | with_reducible apply keeps_clearBankAtSwap
    | with_reducible apply keeps_foldl
    | with_reducible apply keeps_foldl_snd
    | intro _
    | with_reducible apply keeps_ite
    | split
    | (with_reducible refine keeps_of_pair (by assumption) ?_)
    | (with_reducible refine keeps_of_opt (by assumption) ?_)
    | dsimp only)

theorem keeps_clearLutPorts {u : State} (r : Nat) {s : State} (h : Keeps u s) :
 Keeps u (clearLutPorts r s) := by
  unfold clearLutPorts
  repeat' (first
    | with_reducible assumption
    | with_reducible apply keeps_mdBankPort
    | with_reducible apply keeps_foldl
    | with_reducible apply keeps_foldl_snd
    | intro _
    | with_reducible apply keeps_ite
    | split
    | (with_reducible refine keeps_of_pair (by assumption) ?_)
    | (with_reducible refine keeps_of_opt (by assumption) ?_)
    | dsimp only)

theorem keeps_emptyFoxTap {u : State} (r : Nat) {s : State} (h : Keeps u s) :
 Keeps u (emptyFoxTap r s) := by
  unfold emptyFoxTap
  repeat' (first
    | with_reducible assumption
    | with_reducible apply keeps_mdChan
    | intro _
    | with_reducible apply keeps_ite
    | split
    | (with_reducible refine keeps_of_pair (by assumption) ?_)
    | (with_reducible refine keeps_of_opt (by assumption) ?_)
    | dsimp only)

theorem keeps_assertGsr {u : State} (r : Nat) (swap : Bool) {s : State} (h : Keeps u s) :
 Keeps u (assertGsr r swap s) := by
  unfold assertGsr
  repeat' (first
    | with_reducible assumption
    | with_reducible apply keeps_mdRgn
    | with_reducible apply keeps_gsrCells
    | with_reducible apply keeps_gsrLogic
    | with_reducible apply keeps_clearLutPorts
    | with_reducible apply keeps_emptyFoxTap
    | intro _
    | with_reducible apply keeps_ite
    | split
    | (with_reducible refine keeps_of_pair (by assumption) ?_)
    | (with_reducible refine keeps_of_opt (by assumption) ?_)
    | dsimp only)

theorem keeps_swapSwitch {u : State} (r : Nat) {s : State} (h : Keeps u s) :
 Keeps u (swapSwitch r s) := by
  unfold swapSwitch
  repeat' (first
    | with_reducible assumption
    | with_reducible apply keeps_resetImmediates
    | with_reducible apply keeps_pinKeepSlots
    | with_reducible apply keeps_rcCheck
    | with_reducible apply keeps_swapState
    | with_reducible apply keeps_holdSide
    | with_reducible apply keeps_switchPlanes
    | with_reducible apply keeps_swapBankClears
    | with_reducible apply keeps_assertGsr
    | with_reducible apply keeps_foldl
    | with_reducible apply keeps_foldl_snd
    | intro _
    | with_reducible apply keeps_ite
    | split
    | (with_reducible refine keeps_of_pair (by assumption) ?_)
    | (with_reducible refine keeps_of_opt (by assumption) ?_)
    | dsimp only)

theorem keeps_regionSwapped {u : State} (r : Nat) {s : State} (h : Keeps u s) :
 Keeps u (regionSwapped r s) := by
  unfold regionSwapped
  repeat' (first
    | with_reducible assumption
    | with_reducible apply keeps_setFox
    | with_reducible apply keeps_wr
    | with_reducible apply keeps_count
    | with_reducible apply keeps_irq
    | intro _
    | with_reducible apply keeps_ite
    | split
    | (with_reducible refine keeps_of_pair (by assumption) ?_)
    | (with_reducible refine keeps_of_opt (by assumption) ?_)
    | dsimp only)

theorem keeps_clearHistories {u : State} (r : Nat) {s : State} (h : Keeps u s) :
 Keeps u (clearHistories r s) := by
  unfold clearHistories
  repeat' (first
    | with_reducible assumption
    | with_reducible apply keeps_setFab
    | with_reducible apply keeps_mdRgn
    | with_reducible apply keeps_mdBankPort
    | with_reducible apply keeps_foldl
    | with_reducible apply keeps_foldl_snd
    | intro _
    | with_reducible apply keeps_ite
    | split
    | (with_reducible refine keeps_of_pair (by assumption) ?_)
    | (with_reducible refine keeps_of_opt (by assumption) ?_)
    | dsimp only)

theorem keeps_clearRegionStatus {u : State} (r : Nat) {s : State} (h : Keeps u s) :
 Keeps u (clearRegionStatus r s) := by
  unfold clearRegionStatus
  repeat' (first
    | with_reducible assumption
    | with_reducible apply keeps_setArr
    | with_reducible apply keeps_clearStatus
    | with_reducible apply keeps_clearHistories
    | intro _
    | with_reducible apply keeps_ite
    | split
    | (with_reducible refine keeps_of_pair (by assumption) ?_)
    | (with_reducible refine keeps_of_opt (by assumption) ?_)
    | dsimp only)

theorem keeps_resetRegionNow {u : State} (r : Nat) {s : State} (h : Keeps u s) :
 Keeps u (resetRegionNow r s) := by
  unfold resetRegionNow
  repeat' (first
    | with_reducible assumption
    | with_reducible apply keeps_mdRgn
    | with_reducible apply keeps_resetSwitch
    | with_reducible apply keeps_assertGsr
    | with_reducible apply keeps_clearRegionStatus
    | intro _
    | with_reducible apply keeps_ite
    | split
    | (with_reducible refine keeps_of_pair (by assumption) ?_)
    | (with_reducible refine keeps_of_opt (by assumption) ?_)
    | dsimp only)

theorem keeps_regionReset {u : State} (r : Nat) {s : State} (h : Keeps u s) :
 Keeps u (regionReset r s) := by
  unfold regionReset
  repeat' (first
    | with_reducible assumption
    | with_reducible apply keeps_mdRgn
    | with_reducible apply keeps_abortSet
    | with_reducible apply keeps_resetRegionNow
    | intro _
    | with_reducible apply keeps_ite
    | split
    | (with_reducible refine keeps_of_pair (by assumption) ?_)
    | (with_reducible refine keeps_of_opt (by assumption) ?_)
    | dsimp only)

theorem keeps_execRegionReset {u : State} (rq : Requester) (r : RegionId) {s : State} (h : Keeps u s) :
 KeepsOut u (execRegionReset rq r s) := by
  unfold execRegionReset
  repeat' (first
    | with_reducible assumption
    | with_reducible apply keeps_settleAll
    | with_reducible apply keeps_onPage
    | with_reducible apply keeps_regionReset
    | with_reducible apply keepsOut_next
    | intro _
    | with_reducible apply keepsOut_ite
    | with_reducible apply keeps_ite
    | split
    | (with_reducible refine keeps_of_pair (by assumption) ?_)
    | (with_reducible refine keeps_of_opt (by assumption) ?_)
    | dsimp only)

theorem keeps_swapGo {u : State} (r : Nat) {s : State} (h : Keeps u s) :
 Keeps u (swapGo r s) := by
  unfold swapGo
  repeat' (first
    | with_reducible assumption
    | with_reducible apply keeps_mdRgn
    | with_reducible apply keeps_releaseStepOf
    | with_reducible apply keeps_swapSwitch
    | with_reducible apply keeps_regionSwapped
    | with_reducible apply keeps_resetRegionNow
    | intro _
    | with_reducible apply keeps_ite
    | split
    | (with_reducible refine keeps_of_pair (by assumption) ?_)
    | (with_reducible refine keeps_of_opt (by assumption) ?_)
    | dsimp only)

theorem keeps_execSwapGo {u : State} (r : RegionId) {s : State} (h : Keeps u s) :
 KeepsOut u (execSwapGo r s) := by
  unfold execSwapGo
  repeat' (first
    | with_reducible assumption
    | with_reducible apply keeps_settleAll
    | with_reducible apply keeps_swapGo
    | with_reducible apply keepsOut_next
    | intro _
    | with_reducible apply keepsOut_ite
    | with_reducible apply keeps_ite
    | split
    | (with_reducible refine keeps_of_pair (by assumption) ?_)
    | (with_reducible refine keeps_of_opt (by assumption) ?_)
    | dsimp only)

theorem keeps_gsrRelease {u : State} (r : Nat) {s : State} (h : Keeps u s) :
 Keeps u (gsrRelease r s) := by
  unfold gsrRelease
  repeat' (first
    | with_reducible assumption
    | with_reducible apply keeps_mdRgn
    | with_reducible apply keeps_swapState
    | with_reducible apply keeps_releaseStepOf
    | with_reducible apply keeps_squirrelDeliver
    | intro _
    | with_reducible apply keeps_ite
    | split
    | (with_reducible refine keeps_of_pair (by assumption) ?_)
    | (with_reducible refine keeps_of_opt (by assumption) ?_)
    | dsimp only)

theorem keeps_execGsrRelease {u : State} (r : RegionId) {s : State} (h : Keeps u s) :
 KeepsOut u (execGsrRelease r s) := by
  unfold execGsrRelease
  repeat' (first
    | with_reducible assumption
    | with_reducible apply keeps_settleAll
    | with_reducible apply keeps_gsrRelease
    | with_reducible apply keepsOut_next
    | intro _
    | with_reducible apply keepsOut_ite
    | with_reducible apply keeps_ite
    | split
    | (with_reducible refine keeps_of_pair (by assumption) ?_)
    | (with_reducible refine keeps_of_opt (by assumption) ?_)
    | dsimp only)

theorem keeps_swapRelease {u : State} (r : Nat) {s : State} (h : Keeps u s) :
 Keeps u (swapRelease r s) := by
  unfold swapRelease
  repeat' (first
    | with_reducible assumption
    | with_reducible apply keeps_setFox
    | with_reducible apply keeps_wr
    | with_reducible apply keeps_count
    | with_reducible apply keeps_mdRgn
    | with_reducible apply keeps_irq
    | with_reducible apply keeps_releaseHold
    | with_reducible apply keeps_disarmSet
    | intro _
    | with_reducible apply keeps_ite
    | split
    | (with_reducible refine keeps_of_pair (by assumption) ?_)
    | (with_reducible refine keeps_of_opt (by assumption) ?_)
    | dsimp only)

theorem keeps_frameFailed {u : State} (r f : Nat) {s : State} (h : Keeps u s) :
 Keeps u (frameFailed r f s) := by
  unfold frameFailed
  repeat' (first
    | with_reducible assumption
    | with_reducible apply keeps_mdRgn
    | with_reducible apply keeps_regionFaulty
    | intro _
    | with_reducible apply keeps_ite
    | split
    | (with_reducible refine keeps_of_pair (by assumption) ?_)
    | (with_reducible refine keeps_of_opt (by assumption) ?_)
    | dsimp only)

theorem keeps_scrubFail {u : State} (r : Nat) (staging : Bool) (f : Nat) (readable : Bool) {s : State} (h : Keeps u s) :
 Keeps u (scrubFail r staging f readable s) := by
  unfold scrubFail
  repeat' (first
    | with_reducible assumption
    | with_reducible apply keeps_wr
    | with_reducible apply keeps_md
    | with_reducible apply keeps_count
    | with_reducible apply keeps_irq
    | with_reducible apply keeps_errTransient
    | with_reducible apply keeps_err
    | with_reducible apply keeps_invalidateStage
    | with_reducible apply keeps_frameFailed
    | intro _
    | with_reducible apply keeps_ite
    | split
    | (with_reducible refine keeps_of_pair (by assumption) ?_)
    | (with_reducible refine keeps_of_opt (by assumption) ?_)
    | dsimp only)

theorem keeps_execScrubFrameFail {u : State} (r : RegionId) (pl : PlaneSel) (f : Fin 1536) (readable : Bool) {s : State} (h : Keeps u s) :
 KeepsOut u (execScrubFrameFail r pl f readable s) := by
  unfold execScrubFrameFail
  repeat' (first
    | with_reducible assumption
    | with_reducible apply keeps_scrubFail
    | with_reducible apply keepsOut_next
    | intro _
    | with_reducible apply keepsOut_ite
    | with_reducible apply keeps_ite
    | split
    | (with_reducible refine keeps_of_pair (by assumption) ?_)
    | (with_reducible refine keeps_of_opt (by assumption) ?_)
    | dsimp only)

theorem keeps_scrubEnd {u : State} (r : Nat) (staging : Bool) {s : State} (h : Keeps u s) :
 Keeps u (scrubEnd r staging s) := by
  unfold scrubEnd
  repeat' (first
    | with_reducible assumption
    | with_reducible apply keeps_wr
    | with_reducible apply keeps_md
    | with_reducible apply keeps_wrf
    | with_reducible apply keeps_setRgn
    | intro _
    | with_reducible apply keeps_ite
    | split
    | (with_reducible refine keeps_of_pair (by assumption) ?_)
    | (with_reducible refine keeps_of_opt (by assumption) ?_)
    | dsimp only)

theorem keeps_execScrubPassEnd {u : State} (r : RegionId) (pl : PlaneSel) {s : State} (h : Keeps u s) :
 KeepsOut u (execScrubPassEnd r pl s) := by
  unfold execScrubPassEnd
  repeat' (first
    | with_reducible assumption
    | with_reducible apply keeps_scrubEnd
    | with_reducible apply keepsOut_next
    | intro _
    | with_reducible apply keepsOut_ite
    | with_reducible apply keeps_ite
    | split
    | (with_reducible refine keeps_of_pair (by assumption) ?_)
    | (with_reducible refine keeps_of_opt (by assumption) ?_)
    | dsimp only)

end Sys2Proof.Machine
end

