-- ==== Sys2Proof/Laws/KeepsFlash.lean ====
section
/-! SUPPORT. Every operation of Machine/Flash.lean keeps (Laws/Keeps.lean). -/
set_option linter.unusedTactic false
set_option linter.unreachableTactic false
set_option linter.unusedVariables false

namespace Sys2Proof.Machine

open Sys2Proof

theorem keeps_mdWear {u : State} (x : Nat) (f : Wear → Wear) {s : State} (h : Keeps u s) :
 Keeps u (mdWear x f s) := by
  unfold mdWear
  repeat' (first
    | with_reducible assumption
    | with_reducible apply keeps_setFlash
    | intro _
    | with_reducible apply keeps_ite
    | split
    | (with_reducible refine keeps_of_pair (by assumption) ?_)
    | (with_reducible refine keeps_of_opt (by assumption) ?_)
    | dsimp only)

theorem keeps_mdFbank {u : State} (b : Nat) (f : FlashBank → FlashBank) {s : State} (h : Keeps u s) :
 Keeps u (mdFbank b f s) := by
  unfold mdFbank
  repeat' (first
    | with_reducible assumption
    | with_reducible apply keeps_setFlash
    | intro _
    | with_reducible apply keeps_ite
    | split
    | (with_reducible refine keeps_of_pair (by assumption) ?_)
    | (with_reducible refine keeps_of_opt (by assumption) ?_)
    | dsimp only)

theorem keeps_flashCode {u : State} (b code : Nat) {s : State} (h : Keeps u s) :
 Keeps u (flashCode b code s) := by
  unfold flashCode
  repeat' (first
    | with_reducible assumption
    | with_reducible apply keeps_wrf
    | intro _
    | with_reducible apply keeps_ite
    | split
    | (with_reducible refine keeps_of_pair (by assumption) ?_)
    | (with_reducible refine keeps_of_opt (by assumption) ?_)
    | dsimp only)

theorem keeps_flashShow {u : State} (b op x : Nat) {s : State} (h : Keeps u s) :
 Keeps u (flashShow b op x s) := by
  unfold flashShow
  repeat' (first
    | with_reducible assumption
    | with_reducible apply keeps_md
    | intro _
    | with_reducible apply keeps_ite
    | split
    | (with_reducible refine keeps_of_pair (by assumption) ?_)
    | (with_reducible refine keeps_of_opt (by assumption) ?_)
    | dsimp only)

theorem keeps_startOp {u : State} (b code x page : Nat) (buf : SMap (BitVec 16)) {s : State} (h : Keeps u s) :
 Keeps u (startOp b code x page buf s) := by
  unfold startOp
  repeat' (first
    | with_reducible assumption
    | with_reducible apply keeps_mdFbank
    | with_reducible apply keeps_flashCode
    | with_reducible apply keeps_flashShow
    | intro _
    | with_reducible apply keeps_ite
    | split
    | (with_reducible refine keeps_of_pair (by assumption) ?_)
    | (with_reducible refine keeps_of_opt (by assumption) ?_)
    | dsimp only)

theorem keeps_cdfRefused {u : State} (rq : Requester) (code b x c : Nat) {s : State} (h : Keeps u s) :
 Keeps u (cdfRefused rq code b x c s) := by
  unfold cdfRefused
  repeat' (first
    | with_reducible assumption
    | with_reducible apply keeps_wr
    | with_reducible apply keeps_count
    | with_reducible apply keeps_flashCode
    | intro _
    | with_reducible apply keeps_ite
    | split
    | (with_reducible refine keeps_of_pair (by assumption) ?_)
    | (with_reducible refine keeps_of_opt (by assumption) ?_)
    | dsimp only)

theorem keeps_seqError {u : State} {s : State} (h : Keeps u s) :
 Keeps u (seqError s) := by
  unfold seqError
  repeat' (first
    | with_reducible assumption
    | with_reducible apply keeps_count
    | intro _
    | with_reducible apply keeps_ite
    | split
    | (with_reducible refine keeps_of_pair (by assumption) ?_)
    | (with_reducible refine keeps_of_opt (by assumption) ?_)
    | dsimp only)

theorem keeps_zeroiseKeys {u : State} {s : State} (h : Keeps u s) :
 Keeps u (zeroiseKeys s) := by
  unfold zeroiseKeys
  repeat' (first
    | with_reducible assumption
    | with_reducible apply keeps_setFlash
    | intro _
    | with_reducible apply keeps_ite
    | split
    | (with_reducible refine keeps_of_pair (by assumption) ?_)
    | (with_reducible refine keeps_of_opt (by assumption) ?_)
    | dsimp only)

theorem keeps_comparePw {u : State} (onMatch : State → State) {s : State} (honMatch : ∀ t, Keeps u t → Keeps u (onMatch t)) (h : Keeps u s) :
 Keeps u (comparePw onMatch s) := by
  unfold comparePw
  repeat' (first
    | with_reducible assumption
    | with_reducible apply honMatch
    | with_reducible apply keeps_md
    | with_reducible apply keeps_irq
    | with_reducible apply keeps_zeroiseKeys
    | intro _
    | with_reducible apply keeps_ite
    | split
    | (with_reducible refine keeps_of_pair (by assumption) ?_)
    | (with_reducible refine keeps_of_opt (by assumption) ?_)
    | dsimp only)

theorem keeps_setGuard {u : State} (g : Nat) (v : Bool) {s : State} (h : Keeps u s) :
 Keeps u (setGuard g v s) := by
  unfold setGuard
  repeat' (first
    | with_reducible assumption
    | with_reducible apply keeps_setFlash
    | intro _
    | with_reducible apply keeps_ite
    | split
    | (with_reducible refine keeps_of_pair (by assumption) ?_)
    | (with_reducible refine keeps_of_opt (by assumption) ?_)
    | dsimp only)

theorem keeps_setPassword {u : State} {s : State} (h : Keeps u s) :
 Keeps u (setPassword s) := by
  unfold setPassword
  repeat' (first
    | with_reducible assumption
    | with_reducible apply keeps_setFlash
    | with_reducible apply keeps_wrf
    | with_reducible apply keeps_comparePw
    | intro _
    | with_reducible apply keeps_ite
    | split
    | (with_reducible refine keeps_of_pair (by assumption) ?_)
    | (with_reducible refine keeps_of_opt (by assumption) ?_)
    | dsimp only)

theorem keeps_execSetPw {u : State} (rq : Requester) {s : State} (h : Keeps u s) :
 KeepsOut u (execSetPw rq s) := by
  unfold execSetPw
  repeat' (first
    | with_reducible assumption
    | with_reducible apply keeps_onPage
    | with_reducible apply keeps_setPassword
    | with_reducible apply keepsOut_next
    | intro _
    | with_reducible apply keepsOut_ite
    | with_reducible apply keeps_ite
    | split
    | (with_reducible refine keeps_of_pair (by assumption) ?_)
    | (with_reducible refine keeps_of_opt (by assumption) ?_)
    | dsimp only)

theorem keeps_undefPages {u : State} (x lo hi : Nat) {s : State} (h : Keeps u s) :
 Keeps u (undefPages x lo hi s) := by
  unfold undefPages
  repeat' (first
    | with_reducible assumption
    | with_reducible apply keeps_setFlash
    | with_reducible apply keeps_setFree
    | with_reducible apply keeps_foldl
    | with_reducible apply keeps_foldl_snd
    | intro _
    | with_reducible apply keeps_ite
    | split
    | (with_reducible refine keeps_of_pair (by assumption) ?_)
    | (with_reducible refine keeps_of_opt (by assumption) ?_)
    | dsimp only)

theorem keeps_markProgrammed {u : State} (x p : Nat) {s : State} (h : Keeps u s) :
 Keeps u (markProgrammed x p s) := by
  unfold markProgrammed
  repeat' (first
    | with_reducible assumption
    | with_reducible apply keeps_setFlash
    | intro _
    | with_reducible apply keeps_ite
    | split
    | (with_reducible refine keeps_of_pair (by assumption) ?_)
    | (with_reducible refine keeps_of_opt (by assumption) ?_)
    | dsimp only)

theorem keeps_eraseContents {u : State} (x : Nat) {s : State} (h : Keeps u s) :
 Keeps u (eraseContents x s) := by
  unfold eraseContents
  repeat' (first
    | with_reducible assumption
    | with_reducible apply keeps_setFlash
    | intro _
    | with_reducible apply keeps_ite
    | split
    | (with_reducible refine keeps_of_pair (by assumption) ?_)
    | (with_reducible refine keeps_of_opt (by assumption) ?_)
    | dsimp only)

theorem keeps_undefSector {u : State} (x : Nat) {s : State} (h : Keeps u s) :
 Keeps u (undefSector x s) := by
  unfold undefSector
  repeat' (first
    | with_reducible assumption
    | with_reducible apply keeps_undefPages
    | with_reducible apply keeps_markProgrammed
    | with_reducible apply keeps_foldl
    | with_reducible apply keeps_foldl_snd
    | intro _
    | with_reducible apply keeps_ite
    | split
    | (with_reducible refine keeps_of_pair (by assumption) ?_)
    | (with_reducible refine keeps_of_opt (by assumption) ?_)
    | dsimp only)

theorem keeps_storePage {u : State} (x p : Nat) (buf : SMap (BitVec 16)) {s : State} (h : Keeps u s) :
 Keeps u (storePage x p buf s) := by
  unfold storePage
  repeat' (first
    | with_reducible assumption
    | with_reducible apply keeps_setFlash
    | with_reducible apply keeps_foldl
    | with_reducible apply keeps_foldl_snd
    | intro _
    | with_reducible apply keeps_ite
    | split
    | (with_reducible refine keeps_of_pair (by assumption) ?_)
    | (with_reducible refine keeps_of_opt (by assumption) ?_)
    | dsimp only)

theorem keeps_startProgram {u : State} (b x p : Nat) (buf : SMap (BitVec 16)) {s : State} (h : Keeps u s) :
 Keeps u (startProgram b x p buf s) := by
  unfold startProgram
  repeat' (first
    | with_reducible assumption
    | with_reducible apply keeps_mdFbank
    | with_reducible apply keeps_startOp
    | with_reducible apply keeps_markProgrammed
    | intro _
    | with_reducible apply keeps_ite
    | split
    | (with_reducible refine keeps_of_pair (by assumption) ?_)
    | (with_reducible refine keeps_of_opt (by assumption) ?_)
    | dsimp only)

theorem keeps_resumeOp {u : State} (b : Nat) {s : State} (h : Keeps u s) :
 Keeps u (resumeOp b s) := by
  unfold resumeOp
  repeat' (first
    | with_reducible assumption
    | with_reducible apply keeps_mdFbank
    | with_reducible apply keeps_flashShow
    | intro _
    | with_reducible apply keeps_ite
    | split
    | (with_reducible refine keeps_of_pair (by assumption) ?_)
    | (with_reducible refine keeps_of_opt (by assumption) ?_)
    | dsimp only)

theorem keeps_suspendCmd {u : State} (b : Nat) {s : State} (h : Keeps u s) :
 Keeps u (suspendCmd b s) := by
  unfold suspendCmd
  repeat' (first
    | with_reducible assumption
    | with_reducible apply keeps_mdFbank
    | intro _
    | with_reducible apply keeps_ite
    | split
    | (with_reducible refine keeps_of_pair (by assumption) ?_)
    | (with_reducible refine keeps_of_opt (by assumption) ?_)
    | dsimp only)

theorem keeps_resumeCmd {u : State} (b : Nat) {s : State} (h : Keeps u s) :
 Keeps u (resumeCmd b s) := by
  unfold resumeCmd
  repeat' (first
    | with_reducible assumption
    | with_reducible apply keeps_mdFbank
    | with_reducible apply keeps_resumeOp
    | intro _
    | with_reducible apply keeps_ite
    | split
    | (with_reducible refine keeps_of_pair (by assumption) ?_)
    | (with_reducible refine keeps_of_opt (by assumption) ?_)
    | dsimp only)

theorem keeps_cdfAccepted {u : State} (rq : Requester) (code b x page : Nat) {s : State} (h : Keeps u s) :
 Keeps u (cdfAccepted rq code b x page s) := by
  unfold cdfAccepted
  repeat' (first
    | with_reducible assumption
    | with_reducible apply keeps_mdFbank
    | with_reducible apply keeps_flashCode
    | with_reducible apply keeps_startOp
    | with_reducible apply keeps_comparePw
    | with_reducible apply keeps_setGuard
    | with_reducible apply keeps_suspendCmd
    | with_reducible apply keeps_resumeCmd
    | intro _
    | with_reducible apply keeps_ite
    | split
    | (with_reducible refine keeps_of_pair (by assumption) ?_)
    | (with_reducible refine keeps_of_opt (by assumption) ?_)
    | dsimp only)

theorem keeps_cdfCommand {u : State} (rq : Requester) (host : Bool) (fromBank : Option Nat) (code b x page : Nat) {s : State} (h : Keeps u s) :
 Keeps u (cdfCommand rq host fromBank code b x page s).2 := by
  unfold cdfCommand
  repeat' (first
    | with_reducible assumption
    | with_reducible apply keeps_cdfRefused
    | with_reducible apply keeps_cdfAccepted
    | intro _
    | with_reducible apply keeps_ite_snd
    | with_reducible apply keeps_ite
    | split
    | (with_reducible refine keeps_of_pair (by assumption) ?_)
    | (with_reducible refine keeps_of_opt (by assumption) ?_)
    | dsimp only)

theorem keeps_setSeq {u : State} (rq : Requester) (b n : Nat) {s : State} (h : Keeps u s) :
 Keeps u (setSeq rq b n s) := by
  unfold setSeq
  repeat' (first
    | with_reducible assumption
    | with_reducible apply keeps_setFlash
    | intro _
    | with_reducible apply keeps_ite
    | split
    | (with_reducible refine keeps_of_pair (by assumption) ?_)
    | (with_reducible refine keeps_of_opt (by assumption) ?_)
    | dsimp only)

theorem keeps_endLoad {u : State} (b : Nat) {s : State} (h : Keeps u s) :
 Keeps u (endLoad b s) := by
  unfold endLoad
  repeat' (first
    | with_reducible assumption
    | with_reducible apply keeps_mdFbank
    | with_reducible apply keeps_flashCode
    | with_reducible apply keeps_seqError
    | intro _
    | with_reducible apply keeps_ite
    | split
    | (with_reducible refine keeps_of_pair (by assumption) ?_)
    | (with_reducible refine keeps_of_opt (by assumption) ?_)
    | dsimp only)

theorem keeps_loadWrite {u : State} (b : Nat) (l : PageLoad) (off : Nat) (v : BitVec 16) {s : State} (h : Keeps u s) :
 Keeps u (loadWrite b l off v s) := by
  unfold loadWrite
  repeat' (first
    | with_reducible assumption
    | with_reducible apply keeps_mdFbank
    | with_reducible apply keeps_startProgram
    | with_reducible apply keeps_endLoad
    | intro _
    | with_reducible apply keeps_ite
    | split
    | (with_reducible refine keeps_of_pair (by assumption) ?_)
    | (with_reducible refine keeps_of_opt (by assumption) ?_)
    | dsimp only)

theorem keeps_seqWrite {u : State} (rq : Requester) (b x off : Nat) (v : BitVec 16) (fromBank : Option Nat) {s : State} (h : Keeps u s) :
 Keeps u (seqWrite rq b x off v fromBank s) := by
  unfold seqWrite
  repeat' (first
    | with_reducible assumption
    | with_reducible apply keeps_seqError
    | with_reducible apply keeps_cdfCommand
    | with_reducible apply keeps_setSeq
    | intro _
    | with_reducible apply keeps_ite
    | split
    | (with_reducible refine keeps_of_pair (by assumption) ?_)
    | (with_reducible refine keeps_of_opt (by assumption) ?_)
    | dsimp only)

theorem keeps_arrayWrite {u : State} (rq : Requester) (off : Nat) (v : BitVec 16) (fromBank : Option Nat) {s : State} (h : Keeps u s) :
 Keeps u (arrayWrite rq off v fromBank s) := by
  unfold arrayWrite
  repeat' (first
    | with_reducible assumption
    | with_reducible apply keeps_err
    | with_reducible apply keeps_reservedAccess
    | with_reducible apply keeps_loadWrite
    | with_reducible apply keeps_seqWrite
    | intro _
    | with_reducible apply keeps_ite
    | split
    | (with_reducible refine keeps_of_pair (by assumption) ?_)
    | (with_reducible refine keeps_of_opt (by assumption) ?_)
    | dsimp only)

theorem keeps_arrayWriteRefused {u : State} (off : Nat) {s : State} (h : Keeps u s) :
 Keeps u (arrayWriteRefused off s) := by
  unfold arrayWriteRefused
  repeat' (first
    | with_reducible assumption
    | with_reducible apply keeps_err
    | intro _
    | with_reducible apply keeps_ite
    | split
    | (with_reducible refine keeps_of_pair (by assumption) ?_)
    | (with_reducible refine keeps_of_opt (by assumption) ?_)
    | dsimp only)

theorem keeps_stepThree {u : State} (rq : Requester) (off code : Nat) (fromBank : Option (Fin 4)) {s : State} (h : Keeps u s) :
 Keeps u (stepThree rq off code fromBank s) := by
  unfold stepThree
  repeat' (first
    | with_reducible assumption
    | with_reducible apply keeps_arrayWrite
    | intro _
    | with_reducible apply keeps_ite
    | split
    | (with_reducible refine keeps_of_pair (by assumption) ?_)
    | (with_reducible refine keeps_of_opt (by assumption) ?_)
    | dsimp only)

theorem keeps_execCdfSequenceWrite {u : State} (rq : Requester) (off : BitVec 25) (v : BitVec 16) {s : State} (h : Keeps u s) :
 KeepsOut u (execCdfSequenceWrite rq off v s) := by
  unfold execCdfSequenceWrite
  repeat' (first
    | with_reducible assumption
    | with_reducible apply keeps_arrayWrite
    | with_reducible apply keepsOut_next
    | intro _
    | with_reducible apply keepsOut_ite
    | with_reducible apply keeps_ite
    | split
    | (with_reducible refine keeps_of_pair (by assumption) ?_)
    | (with_reducible refine keeps_of_opt (by assumption) ?_)
    | dsimp only)

theorem keeps_execProgram {u : State} (rq : Requester) (off : BitVec 25) (fromBank : Option (Fin 4)) {s : State} (h : Keeps u s) :
 KeepsOut u (execProgram rq off fromBank s) := by
  unfold execProgram
  repeat' (first
    | with_reducible assumption
    | with_reducible apply keeps_stepThree
    | with_reducible apply keepsOut_next
    | intro _
    | with_reducible apply keepsOut_ite
    | with_reducible apply keeps_ite
    | split
    | (with_reducible refine keeps_of_pair (by assumption) ?_)
    | (with_reducible refine keeps_of_opt (by assumption) ?_)
    | dsimp only)

theorem keeps_execEraseSector {u : State} (rq : Requester) (off : BitVec 25) (fromBank : Option (Fin 4)) {s : State} (h : Keeps u s) :
 KeepsOut u (execEraseSector rq off fromBank s) := by
  unfold execEraseSector
  repeat' (first
    | with_reducible assumption
    | with_reducible apply keeps_stepThree
    | with_reducible apply keepsOut_next
    | intro _
    | with_reducible apply keepsOut_ite
    | with_reducible apply keeps_ite
    | split
    | (with_reducible refine keeps_of_pair (by assumption) ?_)
    | (with_reducible refine keeps_of_opt (by assumption) ?_)
    | dsimp only)

theorem keeps_execEraseBank {u : State} (rq : Requester) (b : Fin 4) (fromBank : Option (Fin 4)) {s : State} (h : Keeps u s) :
 KeepsOut u (execEraseBank rq b fromBank s) := by
  unfold execEraseBank
  repeat' (first
    | with_reducible assumption
    | with_reducible apply keeps_stepThree
    | with_reducible apply keepsOut_next
    | intro _
    | with_reducible apply keepsOut_ite
    | with_reducible apply keeps_ite
    | split
    | (with_reducible refine keeps_of_pair (by assumption) ?_)
    | (with_reducible refine keeps_of_opt (by assumption) ?_)
    | dsimp only)

theorem keeps_execSuspend {u : State} (rq : Requester) (b : Fin 4) (fromBank : Option (Fin 4)) {s : State} (h : Keeps u s) :
 KeepsOut u (execSuspend rq b fromBank s) := by
  unfold execSuspend
  repeat' (first
    | with_reducible assumption
    | with_reducible apply keeps_stepThree
    | with_reducible apply keepsOut_next
    | intro _
    | with_reducible apply keepsOut_ite
    | with_reducible apply keeps_ite
    | split
    | (with_reducible refine keeps_of_pair (by assumption) ?_)
    | (with_reducible refine keeps_of_opt (by assumption) ?_)
    | dsimp only)

theorem keeps_execResume {u : State} (rq : Requester) (b : Fin 4) (fromBank : Option (Fin 4)) {s : State} (h : Keeps u s) :
 KeepsOut u (execResume rq b fromBank s) := by
  unfold execResume
  repeat' (first
    | with_reducible assumption
    | with_reducible apply keeps_stepThree
    | with_reducible apply keepsOut_next
    | intro _
    | with_reducible apply keepsOut_ite
    | with_reducible apply keeps_ite
    | split
    | (with_reducible refine keeps_of_pair (by assumption) ?_)
    | (with_reducible refine keeps_of_opt (by assumption) ?_)
    | dsimp only)

theorem keeps_execReadId {u : State} (rq : Requester) (b : Fin 4) (fromBank : Option (Fin 4)) {s : State} (h : Keeps u s) :
 KeepsOut u (execReadId rq b fromBank s) := by
  unfold execReadId
  repeat' (first
    | with_reducible assumption
    | with_reducible apply keeps_stepThree
    | with_reducible apply keepsOut_next
    | intro _
    | with_reducible apply keepsOut_ite
    | with_reducible apply keeps_ite
    | split
    | (with_reducible refine keeps_of_pair (by assumption) ?_)
    | (with_reducible refine keeps_of_opt (by assumption) ?_)
    | dsimp only)

theorem keeps_execGuardSet {u : State} (rq : Requester) (off : BitVec 25) (fromBank : Option (Fin 4)) {s : State} (h : Keeps u s) :
 KeepsOut u (execGuardSet rq off fromBank s) := by
  unfold execGuardSet
  repeat' (first
    | with_reducible assumption
    | with_reducible apply keeps_stepThree
    | with_reducible apply keepsOut_next
    | intro _
    | with_reducible apply keepsOut_ite
    | with_reducible apply keeps_ite
    | split
    | (with_reducible refine keeps_of_pair (by assumption) ?_)
    | (with_reducible refine keeps_of_opt (by assumption) ?_)
    | dsimp only)

theorem keeps_execGuardUnlock {u : State} (rq : Requester) (off : BitVec 25) (fromBank : Option (Fin 4)) {s : State} (h : Keeps u s) :
 KeepsOut u (execGuardUnlock rq off fromBank s) := by
  unfold execGuardUnlock
  repeat' (first
    | with_reducible assumption
    | with_reducible apply keeps_stepThree
    | with_reducible apply keepsOut_next
    | intro _
    | with_reducible apply keepsOut_ite
    | with_reducible apply keeps_ite
    | split
    | (with_reducible refine keeps_of_pair (by assumption) ?_)
    | (with_reducible refine keeps_of_opt (by assumption) ?_)
    | dsimp only)

theorem keeps_execStatusClear {u : State} (rq : Requester) (b : Fin 4) (fromBank : Option (Fin 4)) {s : State} (h : Keeps u s) :
 KeepsOut u (execStatusClear rq b fromBank s) := by
  unfold execStatusClear
  repeat' (first
    | with_reducible assumption
    | with_reducible apply keeps_stepThree
    | with_reducible apply keepsOut_next
    | intro _
    | with_reducible apply keepsOut_ite
    | with_reducible apply keeps_ite
    | split
    | (with_reducible refine keeps_of_pair (by assumption) ?_)
    | (with_reducible refine keeps_of_opt (by assumption) ?_)
    | dsimp only)

theorem keeps_execPageBufferWrite {u : State} (rq : Requester) (off : BitVec 25) (v : BitVec 16) {s : State} (h : Keeps u s) :
 KeepsOut u (execPageBufferWrite rq off v s) := by
  unfold execPageBufferWrite
  repeat' (first
    | with_reducible assumption
    | with_reducible apply keeps_arrayWrite
    | with_reducible apply keepsOut_next
    | intro _
    | with_reducible apply keepsOut_ite
    | with_reducible apply keeps_ite
    | split
    | (with_reducible refine keeps_of_pair (by assumption) ?_)
    | (with_reducible refine keeps_of_opt (by assumption) ?_)
    | dsimp only)

theorem keeps_execPageLoadTimeout {u : State} (b : Fin 4) {s : State} (h : Keeps u s) :
 KeepsOut u (execPageLoadTimeout b s) := by
  unfold execPageLoadTimeout
  repeat' (first
    | with_reducible assumption
    | with_reducible apply keeps_endLoad
    | with_reducible apply keepsOut_next
    | intro _
    | with_reducible apply keepsOut_ite
    | with_reducible apply keeps_ite
    | split
    | (with_reducible refine keeps_of_pair (by assumption) ?_)
    | (with_reducible refine keeps_of_opt (by assumption) ?_)
    | dsimp only)

theorem keeps_warnSector {u : State} (x : Nat) {s : State} (h : Keeps u s) :
 Keeps u (warnSector x s) := by
  unfold warnSector
  repeat' (first
    | with_reducible assumption
    | with_reducible apply keeps_irq
    | with_reducible apply keeps_mdWear
    | intro _
    | with_reducible apply keeps_ite
    | split
    | (with_reducible refine keeps_of_pair (by assumption) ?_)
    | (with_reducible refine keeps_of_opt (by assumption) ?_)
    | dsimp only)

theorem keeps_retireSector {u : State} (x : Nat) {s : State} (h : Keeps u s) :
 Keeps u (retireSector x s) := by
  unfold retireSector
  repeat' (first
    | with_reducible assumption
    | with_reducible apply keeps_irq
    | with_reducible apply keeps_mdWear
    | intro _
    | with_reducible apply keeps_ite
    | split
    | (with_reducible refine keeps_of_pair (by assumption) ?_)
    | (with_reducible refine keeps_of_opt (by assumption) ?_)
    | dsimp only)

theorem keeps_programEnd {u : State} (o : FlashOp) (retries : Nat) (ok : Bool) {s : State} (h : Keeps u s) :
 Keeps u (programEnd o retries ok s).2 := by
  unfold programEnd
  repeat' (first
    | with_reducible assumption
    | with_reducible apply keeps_mdWear
    | with_reducible apply keeps_undefPages
    | with_reducible apply keeps_storePage
    | with_reducible apply keeps_warnSector
    | with_reducible apply keeps_retireSector
    | intro _
    | with_reducible apply keeps_ite_snd
    | with_reducible apply keeps_ite
    | split
    | (with_reducible refine keeps_of_pair (by assumption) ?_)
    | (with_reducible refine keeps_of_opt (by assumption) ?_)
    | dsimp only)

theorem keeps_sectorErased {u : State} (x pulses : Nat) (ok : Bool) {s : State} (h : Keeps u s) :
 Keeps u (sectorErased x pulses ok s).2 := by
  unfold sectorErased
  repeat' (first
    | with_reducible assumption
    | with_reducible apply keeps_mdWear
    | with_reducible apply keeps_eraseContents
    | with_reducible apply keeps_undefSector
    | with_reducible apply keeps_warnSector
    | with_reducible apply keeps_retireSector
    | intro _
    | with_reducible apply keeps_ite_snd
    | with_reducible apply keeps_ite
    | split
    | (with_reducible refine keeps_of_pair (by assumption) ?_)
    | (with_reducible refine keeps_of_opt (by assumption) ?_)
    | dsimp only)

theorem keeps_bankErased {u : State} (b pulses : Nat) (ok : Bool) (failing : BitVec 40) {s : State} (h : Keeps u s) :
 Keeps u (bankErased b pulses ok failing s).2 := by
  unfold bankErased
  repeat' (first
    | with_reducible assumption
    | with_reducible apply keeps_sectorErased
    | with_reducible apply keeps_foldl
    | with_reducible apply keeps_foldl_snd
    | intro _
    | with_reducible apply keeps_ite_snd
    | with_reducible apply keeps_ite
    | split
    | (with_reducible refine keeps_of_pair (by assumption) ?_)
    | (with_reducible refine keeps_of_opt (by assumption) ?_)
    | dsimp only)

theorem keeps_opDone {u : State} (b effort : Nat) (ok : Bool) (failing : BitVec 40) {s : State} (h : Keeps u s) :
 Keeps u (opDone b effort ok failing s) := by
  unfold opDone
  repeat' (first
    | with_reducible assumption
    | with_reducible apply keeps_irq
    | with_reducible apply keeps_mdFbank
    | with_reducible apply keeps_flashCode
    | with_reducible apply keeps_flashShow
    | with_reducible apply keeps_resumeOp
    | with_reducible apply keeps_programEnd
    | with_reducible apply keeps_sectorErased
    | with_reducible apply keeps_bankErased
    | intro _
    | with_reducible apply keeps_ite
    | split
    | (with_reducible refine keeps_of_pair (by assumption) ?_)
    | (with_reducible refine keeps_of_opt (by assumption) ?_)
    | dsimp only)

theorem keeps_execSuspendHonoured {u : State} (b : Fin 4) {s : State} (h : Keeps u s) :
 KeepsOut u (execSuspendHonoured b s) := by
  unfold execSuspendHonoured
  repeat' (first
    | with_reducible assumption
    | with_reducible apply keeps_mdFbank
    | with_reducible apply keepsOut_next
    | intro _
    | with_reducible apply keepsOut_ite
    | with_reducible apply keeps_ite
    | split
    | (with_reducible refine keeps_of_pair (by assumption) ?_)
    | (with_reducible refine keeps_of_opt (by assumption) ?_)
    | dsimp only)

theorem keeps_suspendReached {u : State} (b : Nat) {s : State} (h : Keeps u s) :
 Keeps u (suspendReached b s) := by
  unfold suspendReached
  repeat' (first
    | with_reducible assumption
    | with_reducible apply keeps_mdFbank
    | intro _
    | with_reducible apply keeps_ite
    | split
    | (with_reducible refine keeps_of_pair (by assumption) ?_)
    | (with_reducible refine keeps_of_opt (by assumption) ?_)
    | dsimp only)

theorem keeps_execSuspendedReached {u : State} (b : Fin 4) {s : State} (h : Keeps u s) :
 KeepsOut u (execSuspendedReached b s) := by
  unfold execSuspendedReached
  repeat' (first
    | with_reducible assumption
    | with_reducible apply keeps_suspendReached
    | with_reducible apply keepsOut_next
    | intro _
    | with_reducible apply keepsOut_ite
    | with_reducible apply keeps_ite
    | split
    | (with_reducible refine keeps_of_pair (by assumption) ?_)
    | (with_reducible refine keeps_of_opt (by assumption) ?_)
    | dsimp only)

theorem keeps_prefetch {u : State} (b line : Nat) {s : State} (h : Keeps u s) :
 Keeps u (prefetch b line s) := by
  unfold prefetch
  repeat' (first
    | with_reducible assumption
    | with_reducible apply keeps_count
    | with_reducible apply keeps_mdFbank
    | intro _
    | with_reducible apply keeps_ite
    | split
    | (with_reducible refine keeps_of_pair (by assumption) ?_)
    | (with_reducible refine keeps_of_opt (by assumption) ?_)
    | dsimp only)

theorem keeps_flashRead {u : State} (rq : Requester) (off : Nat) {s : State} (h : Keeps u s) :
 Keeps u (flashRead rq off s).2 := by
  unfold flashRead
  repeat' (first
    | with_reducible assumption
    | with_reducible apply keeps_count
    | with_reducible apply keeps_irq
    | with_reducible apply keeps_errTransient
    | with_reducible apply keeps_err
    | with_reducible apply keeps_prefetch
    | intro _
    | with_reducible apply keeps_ite_snd
    | with_reducible apply keeps_ite
    | split
    | (with_reducible refine keeps_of_pair (by assumption) ?_)
    | (with_reducible refine keeps_of_opt (by assumption) ?_)
    | dsimp only)

theorem keeps_arrayRead {u : State} (rq : Requester) (off size : Nat) {s : State} (h : Keeps u s) :
 Keeps u (arrayRead rq off size s) := by
  unfold arrayRead
  repeat' (first
    | with_reducible assumption
    | with_reducible apply keeps_deliver
    | with_reducible apply keeps_reservedAccess
    | with_reducible apply keeps_arrayWriteRefused
    | with_reducible apply keeps_flashRead
    | intro _
    | with_reducible apply keeps_ite
    | split
    | (with_reducible refine keeps_of_pair (by assumption) ?_)
    | (with_reducible refine keeps_of_opt (by assumption) ?_)
    | dsimp only)

theorem keeps_execCdfArrayRead {u : State} (rq : Requester) (off : BitVec 25) (size : Nat) {s : State} (h : Keeps u s) :
 KeepsOut u (execCdfArrayRead rq off size s) := by
  unfold execCdfArrayRead
  repeat' (first
    | with_reducible assumption
    | with_reducible apply keeps_arrayRead
    | with_reducible apply keepsOut_next
    | intro _
    | with_reducible apply keepsOut_ite
    | with_reducible apply keeps_ite
    | split
    | (with_reducible refine keeps_of_pair (by assumption) ?_)
    | (with_reducible refine keeps_of_opt (by assumption) ?_)
    | dsimp only)

theorem keeps_abortOp {u : State} (power : Bool) (b : Nat) (o : FlashOp) {s : State} (h : Keeps u s) :
 Keeps u (abortOp power b o s) := by
  unfold abortOp
  repeat' (first
    | with_reducible assumption
    | with_reducible apply keeps_undefPages
    | with_reducible apply keeps_undefSector
    | with_reducible apply keeps_foldl
    | with_reducible apply keeps_foldl_snd
    | intro _
    | with_reducible apply keeps_ite
    | split
    | (with_reducible refine keeps_of_pair (by assumption) ?_)
    | (with_reducible refine keeps_of_opt (by assumption) ?_)
    | dsimp only)

theorem keeps_abortFlash {u : State} (power : Bool) {s : State} (h : Keeps u s) :
 Keeps u (abortFlash power s).2 := by
  unfold abortFlash
  repeat' (first
    | with_reducible assumption
    | with_reducible apply keeps_setFlash
    | with_reducible apply keeps_abortOp
    | with_reducible apply keeps_foldl
    | with_reducible apply keeps_foldl_snd
    | intro _
    | with_reducible apply keeps_ite_snd
    | with_reducible apply keeps_ite
    | split
    | (with_reducible refine keeps_of_pair (by assumption) ?_)
    | (with_reducible refine keeps_of_opt (by assumption) ?_)
    | dsimp only)

theorem keeps_cdfReset {u : State} {s : State} (h : Keeps u s) :
 Keeps u (cdfReset s) := by
  unfold cdfReset
  repeat' (first
    | with_reducible assumption
    | with_reducible apply keeps_clearStatus
    | with_reducible apply keeps_flashCode
    | with_reducible apply keeps_abortFlash
    | with_reducible apply keeps_foldl
    | with_reducible apply keeps_foldl_snd
    | intro _
    | with_reducible apply keeps_ite
    | split
    | (with_reducible refine keeps_of_pair (by assumption) ?_)
    | (with_reducible refine keeps_of_opt (by assumption) ?_)
    | dsimp only)

theorem keeps_execCdfSoftReset {u : State} (rq : Requester) {s : State} (h : Keeps u s) :
 KeepsOut u (execCdfSoftReset rq s) := by
  unfold execCdfSoftReset
  repeat' (first
    | with_reducible assumption
    | with_reducible apply keeps_onPage
    | with_reducible apply keeps_cdfReset
    | with_reducible apply keepsOut_next
    | intro _
    | with_reducible apply keepsOut_ite
    | with_reducible apply keeps_ite
    | split
    | (with_reducible refine keeps_of_pair (by assumption) ?_)
    | (with_reducible refine keeps_of_opt (by assumption) ?_)
    | dsimp only)

end Sys2Proof.Machine
end

