-- ==== Sys2Proof/Laws/KeepsPointer.lean ====
section
/-! SUPPORT. Every operation of Machine/Pointer.lean keeps (Laws/Keeps.lean). -/
set_option linter.unusedTactic false
set_option linter.unreachableTactic false
set_option linter.unusedVariables false

namespace Sys2Proof.Machine

open Sys2Proof

theorem keeps_loadPointer {u : State} {s : State} (h : Keeps u s) :
 Keeps u (loadPointer s) := by
  unfold loadPointer
  repeat' (first
    | with_reducible assumption
    | with_reducible apply keeps_setUpd
    | intro _
    | with_reducible apply keeps_ite
    | split
    | (with_reducible refine keeps_of_pair (by assumption) ?_)
    | (with_reducible refine keeps_of_opt (by assumption) ?_)
    | dsimp only)

theorem keeps_pointerUpkeep {u : State} {s : State} (h : Keeps u s) :
 Keeps u (pointerUpkeep s) := by
  unfold pointerUpkeep
  repeat' (first
    | with_reducible assumption
    | with_reducible apply keeps_startOp
    | intro _
    | with_reducible apply keeps_ite
    | split
    | (with_reducible refine keeps_of_pair (by assumption) ?_)
    | (with_reducible refine keeps_of_opt (by assumption) ?_)
    | dsimp only)

theorem keeps_programPointer {u : State} (p : BootPointer) {s : State} (h : Keeps u s) :
 KeepsOpt u (programPointer p s) := by
  unfold programPointer
  repeat' (first
    | with_reducible assumption
    | with_reducible apply keeps_setUpd
    | with_reducible apply keeps_markProgrammed
    | with_reducible apply keeps_storePage
    | with_reducible apply keeps_pointerUpkeep
    | with_reducible apply keepsOpt_none
    | with_reducible apply keepsOpt_some
    | intro _
    | with_reducible apply keepsOpt_ite
    | with_reducible apply keeps_ite
    | split
    | (with_reducible refine keeps_of_pair (by assumption) ?_)
    | (with_reducible refine keeps_of_opt (by assumption) ?_)
    | dsimp only)

theorem keeps_copyToP6 {u : State} (x : Nat) {s : State} (h : Keeps u s) :
 Keeps u (copyToP6 x s) := by
  unfold copyToP6
  repeat' (first
    | with_reducible assumption
    | with_reducible apply keeps_markProgrammed
    | with_reducible apply keeps_storePage
    | with_reducible apply keeps_foldl
    | with_reducible apply keeps_foldl_snd
    | intro _
    | with_reducible apply keeps_ite
    | split
    | (with_reducible refine keeps_of_pair (by assumption) ?_)
    | (with_reducible refine keeps_of_opt (by assumption) ?_)
    | dsimp only)

theorem keeps_relocate {u : State} (x : Nat) {s : State} (h : Keeps u s) :
 Keeps u (relocate x s) := by
  unfold relocate
  repeat' (first
    | with_reducible assumption
    | with_reducible apply keeps_programPointer
    | with_reducible apply keeps_copyToP6
    | with_reducible apply keeps_getD
    | with_reducible apply keeps_programPointer
    | intro _
    | with_reducible apply keeps_ite
    | split
    | (with_reducible refine keeps_of_pair (by assumption) ?_)
    | (with_reducible refine keeps_of_opt (by assumption) ?_)
    | dsimp only)

theorem keeps_cdfOpDone {u : State} (b effort : Nat) (ok : Bool) (failing : BitVec 40) {s : State} (h : Keeps u s) :
 Keeps u (cdfOpDone b effort ok failing s) := by
  unfold cdfOpDone
  repeat' (first
    | with_reducible assumption
    | with_reducible apply keeps_opDone
    | with_reducible apply keeps_relocate
    | with_reducible apply keeps_foldl
    | with_reducible apply keeps_foldl_snd
    | intro _
    | with_reducible apply keeps_ite
    | split
    | (with_reducible refine keeps_of_pair (by assumption) ?_)
    | (with_reducible refine keeps_of_opt (by assumption) ?_)
    | dsimp only)

theorem keeps_execCdfOpDone {u : State} (b : Fin 4) (effort : Nat) (verified : Bool) (failing : BitVec 40) {s : State} (h : Keeps u s) :
 KeepsOut u (execCdfOpDone b effort verified failing s) := by
  unfold execCdfOpDone
  repeat' (first
    | with_reducible assumption
    | with_reducible apply keeps_cdfOpDone
    | with_reducible apply keepsOut_next
    | intro _
    | with_reducible apply keepsOut_ite
    | with_reducible apply keeps_ite
    | split
    | (with_reducible refine keeps_of_pair (by assumption) ?_)
    | (with_reducible refine keeps_of_opt (by assumption) ?_)
    | dsimp only)

theorem keeps_stewardErase {u : State} (x : Nat) {s : State} (h : Keeps u s) :
 Keeps u (stewardErase x s) := by
  unfold stewardErase
  repeat' (first
    | with_reducible assumption
    | with_reducible apply keeps_drawn
    | with_reducible apply keeps_mdWear
    | with_reducible apply keeps_eraseContents
    | intro _
    | with_reducible apply keeps_ite
    | split
    | (with_reducible refine keeps_of_pair (by assumption) ?_)
    | (with_reducible refine keeps_of_opt (by assumption) ?_)
    | dsimp only)

theorem keeps_storeRecord {u : State} (b : Bool) (ws : List Word) {s : State} (h : Keeps u s) :
 Keeps u (storeRecord b ws s) := by
  unfold storeRecord
  repeat' (first
    | with_reducible assumption
    | with_reducible apply keeps_markProgrammed
    | with_reducible apply keeps_storePage
    | with_reducible apply keeps_stewardErase
    | with_reducible apply keeps_foldl
    | with_reducible apply keeps_foldl_snd
    | intro _
    | with_reducible apply keeps_ite
    | split
    | (with_reducible refine keeps_of_pair (by assumption) ?_)
    | (with_reducible refine keeps_of_opt (by assumption) ?_)
    | dsimp only)

theorem keeps_setFwBanks {u : State} (both : Bool) {s : State} (h : Keeps u s) :
 Keeps u (setFwBanks both s) := by
  unfold setFwBanks
  repeat' (first
    | with_reducible assumption
    | with_reducible apply keeps_wr
    | intro _
    | with_reducible apply keeps_ite
    | split
    | (with_reducible refine keeps_of_pair (by assumption) ?_)
    | (with_reducible refine keeps_of_opt (by assumption) ?_)
    | dsimp only)

end Sys2Proof.Machine
end

