-- ==== Sys2Proof/Laws/KeepsTime.lean ====
section
/-! SUPPORT. Every operation of Machine/Time.lean keeps (Laws/Keeps.lean). -/
set_option linter.unusedTactic false
set_option linter.unreachableTactic false
set_option linter.unusedVariables false

namespace Sys2Proof.Machine

open Sys2Proof

theorem keeps_tick {u : State} {s : State} (h : Keeps u s) :
 Keeps u (tick s) := by
  unfold tick
  repeat' (first
    | with_reducible assumption
    | with_reducible apply keeps_setTime
    | intro _
    | with_reducible apply keeps_ite
    | split
    | (with_reducible refine keeps_of_pair (by assumption) ?_)
    | (with_reducible refine keeps_of_opt (by assumption) ?_)
    | dsimp only)

theorem keeps_noteOffset {u : State} (d : Int) {s : State} (h : Keeps u s) :
 Keeps u (noteOffset d s) := by
  unfold noteOffset
  repeat' (first
    | with_reducible assumption
    | with_reducible apply keeps_setTime
    | intro _
    | with_reducible apply keeps_ite
    | split
    | (with_reducible refine keeps_of_pair (by assumption) ?_)
    | (with_reducible refine keeps_of_opt (by assumption) ?_)
    | dsimp only)

theorem keeps_correct {u : State} (d : Int) {s : State} (h : Keeps u s) :
 Keeps u (correct d s) := by
  unfold correct
  repeat' (first
    | with_reducible assumption
    | with_reducible apply keeps_setTime
    | with_reducible apply keeps_irq
    | intro _
    | with_reducible apply keeps_ite
    | split
    | (with_reducible refine keeps_of_pair (by assumption) ?_)
    | (with_reducible refine keeps_of_opt (by assumption) ?_)
    | dsimp only)

theorem keeps_sendSync {u : State} (v : BitVec 64) {s : State} (h : Keeps u s) :
 Keeps u (sendSync v s) := by
  unfold sendSync
  repeat' (first
    | with_reducible assumption
    | with_reducible apply keeps_setRing
    | with_reducible apply keeps_launchSyncs
    | intro _
    | with_reducible apply keeps_ite
    | split
    | (with_reducible refine keeps_of_pair (by assumption) ?_)
    | (with_reducible refine keeps_of_opt (by assumption) ?_)
    | dsimp only)

theorem keeps_syncSend {u : State} {s : State} (h : Keeps u s) :
 Keeps u (syncSend s) := by
  unfold syncSend
  repeat' (first
    | with_reducible assumption
    | with_reducible apply keeps_decideQuality
    | with_reducible apply keeps_sendSync
    | intro _
    | with_reducible apply keeps_ite
    | split
    | (with_reducible refine keeps_of_pair (by assumption) ?_)
    | (with_reducible refine keeps_of_opt (by assumption) ?_)
    | dsimp only)

theorem keeps_execSyncSend {u : State} {s : State} (h : Keeps u s) :
 KeepsOut u (execSyncSend s) := by
  unfold execSyncSend
  repeat' (first
    | with_reducible assumption
    | with_reducible apply keeps_syncSend
    | with_reducible apply keepsOut_next
    | intro _
    | with_reducible apply keepsOut_ite
    | with_reducible apply keeps_ite
    | split
    | (with_reducible refine keeps_of_pair (by assumption) ?_)
    | (with_reducible refine keeps_of_opt (by assumption) ?_)
    | dsimp only)

theorem keeps_syncPair {u : State} (v : BitVec 64) {s : State} (h : Keeps u s) :
 Keeps u (syncPair v s) := by
  unfold syncPair
  repeat' (first
    | with_reducible assumption
    | with_reducible apply keeps_wr
    | with_reducible apply keeps_countN
    | with_reducible apply keeps_count
    | with_reducible apply keeps_decideQuality
    | with_reducible apply keeps_noteOffset
    | with_reducible apply keeps_correct
    | with_reducible apply keeps_sendSync
    | intro _
    | with_reducible apply keeps_ite
    | split
    | (with_reducible refine keeps_of_pair (by assumption) ?_)
    | (with_reducible refine keeps_of_opt (by assumption) ?_)
    | dsimp only)

theorem keeps_execSyncPair {u : State} (v : BitVec 64) {s : State} (h : Keeps u s) :
 KeepsOut u (execSyncPair v s) := by
  unfold execSyncPair
  repeat' (first
    | with_reducible assumption
    | with_reducible apply keeps_syncPair
    | with_reducible apply keepsOut_next
    | intro _
    | with_reducible apply keepsOut_ite
    | with_reducible apply keeps_ite
    | split
    | (with_reducible refine keeps_of_pair (by assumption) ?_)
    | (with_reducible refine keeps_of_opt (by assumption) ?_)
    | dsimp only)

theorem keeps_syncTimeout {u : State} {s : State} (h : Keeps u s) :
 Keeps u (syncTimeout s) := by
  unfold syncTimeout
  repeat' (first
    | with_reducible assumption
    | with_reducible apply keeps_setTime
    | with_reducible apply keeps_countN
    | with_reducible apply keeps_setQuality
    | with_reducible apply keeps_decideQuality
    | intro _
    | with_reducible apply keeps_ite
    | split
    | (with_reducible refine keeps_of_pair (by assumption) ?_)
    | (with_reducible refine keeps_of_opt (by assumption) ?_)
    | dsimp only)

theorem keeps_execSyncTimeout {u : State} {s : State} (h : Keeps u s) :
 KeepsOut u (execSyncTimeout s) := by
  unfold execSyncTimeout
  repeat' (first
    | with_reducible assumption
    | with_reducible apply keeps_syncTimeout
    | with_reducible apply keepsOut_next
    | intro _
    | with_reducible apply keepsOut_ite
    | with_reducible apply keeps_ite
    | split
    | (with_reducible refine keeps_of_pair (by assumption) ?_)
    | (with_reducible refine keeps_of_opt (by assumption) ?_)
    | dsimp only)

theorem keeps_echoDone {u : State} (ps : Nat) {s : State} (h : Keeps u s) :
 Keeps u (echoDone ps s) := by
  unfold echoDone
  repeat' (first
    | with_reducible assumption
    | with_reducible apply keeps_setRing
    | with_reducible apply keeps_wrf
    | intro _
    | with_reducible apply keeps_ite
    | split
    | (with_reducible refine keeps_of_pair (by assumption) ?_)
    | (with_reducible refine keeps_of_opt (by assumption) ?_)
    | dsimp only)

theorem keeps_execEchoCharacter {u : State} (delayPs : BitVec 16) {s : State} (h : Keeps u s) :
 KeepsOut u (execEchoCharacter delayPs s) := by
  unfold execEchoCharacter
  repeat' (first
    | with_reducible assumption
    | with_reducible apply keeps_echoDone
    | with_reducible apply keepsOut_next
    | intro _
    | with_reducible apply keepsOut_ite
    | with_reducible apply keeps_ite
    | split
    | (with_reducible refine keeps_of_pair (by assumption) ?_)
    | (with_reducible refine keeps_of_opt (by assumption) ?_)
    | dsimp only)

theorem keeps_adjWrite {u : State} (v : Word) {s : State} (h : Keeps u s) :
 Keeps u (adjWrite v s) := by
  unfold adjWrite
  repeat' (first
    | with_reducible assumption
    | with_reducible apply keeps_permFault
    | with_reducible apply keeps_decideQuality
    | with_reducible apply keeps_noteOffset
    | with_reducible apply keeps_correct
    | intro _
    | with_reducible apply keeps_ite
    | split
    | (with_reducible refine keeps_of_pair (by assumption) ?_)
    | (with_reducible refine keeps_of_opt (by assumption) ?_)
    | dsimp only)

theorem keeps_execAdj {u : State} (rq : Requester) (v : Word) {s : State} (h : Keeps u s) :
 KeepsOut u (execAdj rq v s) := by
  unfold execAdj
  repeat' (first
    | with_reducible assumption
    | with_reducible apply keeps_onPage
    | with_reducible apply keeps_adjWrite
    | with_reducible apply keepsOut_next
    | intro _
    | with_reducible apply keepsOut_ite
    | with_reducible apply keeps_ite
    | split
    | (with_reducible refine keeps_of_pair (by assumption) ?_)
    | (with_reducible refine keeps_of_opt (by assumption) ?_)
    | dsimp only)

theorem keeps_ptpStamp {u : State} (port : Nat) (tx overUdp : Bool) (stamp : BitVec 64) (seq : Nat) {s : State} (h : Keeps u s) :
 Keeps u (ptpStamp port tx overUdp stamp seq s) := by
  unfold ptpStamp
  repeat' (first
    | with_reducible assumption
    | with_reducible apply keeps_wr
    | with_reducible apply keeps_wr64
    | with_reducible apply keeps_irq
    | intro _
    | with_reducible apply keeps_ite
    | split
    | (with_reducible refine keeps_of_pair (by assumption) ?_)
    | (with_reducible refine keeps_of_opt (by assumption) ?_)
    | dsimp only)

theorem keeps_execPtpTimestamp {u : State} (port : Fin 2) (tx overUdp : Bool) (stamp : BitVec 64) (seq : BitVec 16) {s : State} (h : Keeps u s) :
 KeepsOut u (execPtpTimestamp port tx overUdp stamp seq s) := by
  unfold execPtpTimestamp
  repeat' (first
    | with_reducible assumption
    | with_reducible apply keeps_ptpStamp
    | with_reducible apply keepsOut_next
    | intro _
    | with_reducible apply keepsOut_ite
    | with_reducible apply keeps_ite
    | split
    | (with_reducible refine keeps_of_pair (by assumption) ?_)
    | (with_reducible refine keeps_of_opt (by assumption) ?_)
    | dsimp only)

theorem keeps_armSnap {u : State} (at_ : BitVec 64) (scope : Word) {s : State} (h : Keeps u s) :
 Keeps u (armSnap at_ scope s) := by
  unfold armSnap
  repeat' (first
    | with_reducible assumption
    | with_reducible apply keeps_setTime
    | with_reducible apply keeps_wrf
    | intro _
    | with_reducible apply keeps_ite
    | split
    | (with_reducible refine keeps_of_pair (by assumption) ?_)
    | (with_reducible refine keeps_of_opt (by assumption) ?_)
    | dsimp only)

theorem keeps_snapArm {u : State} {s : State} (h : Keeps u s) :
 Keeps u (snapArm s) := by
  unfold snapArm
  repeat' (first
    | with_reducible assumption
    | with_reducible apply keeps_wrf
    | with_reducible apply keeps_irq
    | with_reducible apply keeps_ringBroadcast
    | with_reducible apply keeps_absentRing
    | with_reducible apply keeps_armSnap
    | intro _
    | with_reducible apply keeps_ite
    | split
    | (with_reducible refine keeps_of_pair (by assumption) ?_)
    | (with_reducible refine keeps_of_opt (by assumption) ?_)
    | dsimp only)

theorem keeps_execSnapArm {u : State} (rq : Requester) {s : State} (h : Keeps u s) :
 KeepsOut u (execSnapArm rq s) := by
  unfold execSnapArm
  repeat' (first
    | with_reducible assumption
    | with_reducible apply keeps_onPage
    | with_reducible apply keeps_snapArm
    | with_reducible apply keepsOut_next
    | intro _
    | with_reducible apply keepsOut_ite
    | with_reducible apply keeps_ite
    | split
    | (with_reducible refine keeps_of_pair (by assumption) ?_)
    | (with_reducible refine keeps_of_opt (by assumption) ?_)
    | dsimp only)

theorem keeps_disarmSnap {u : State} {s : State} (h : Keeps u s) :
 Keeps u (disarmSnap s) := by
  unfold disarmSnap
  repeat' (first
    | with_reducible assumption
    | with_reducible apply keeps_setTime
    | with_reducible apply keeps_wrf
    | intro _
    | with_reducible apply keeps_ite
    | split
    | (with_reducible refine keeps_of_pair (by assumption) ?_)
    | (with_reducible refine keeps_of_opt (by assumption) ?_)
    | dsimp only)

theorem keeps_execSnapCancel {u : State} (rq : Requester) {s : State} (h : Keeps u s) :
 KeepsOut u (execSnapCancel rq s) := by
  unfold execSnapCancel
  repeat' (first
    | with_reducible assumption
    | with_reducible apply keeps_onPage
    | with_reducible apply keeps_disarmSnap
    | with_reducible apply keepsOut_next
    | intro _
    | with_reducible apply keepsOut_ite
    | with_reducible apply keeps_ite
    | split
    | (with_reducible refine keeps_of_pair (by assumption) ?_)
    | (with_reducible refine keeps_of_opt (by assumption) ?_)
    | dsimp only)

theorem keeps_snapMessage {u : State} (at_ : BitVec 64) (scope : Word) {s : State} (h : Keeps u s) :
 Keeps u (snapMessage at_ scope s) := by
  unfold snapMessage
  repeat' (first
    | with_reducible assumption
    | with_reducible apply keeps_count
    | with_reducible apply keeps_irq
    | with_reducible apply keeps_armSnap
    | intro _
    | with_reducible apply keeps_ite
    | split
    | (with_reducible refine keeps_of_pair (by assumption) ?_)
    | (with_reducible refine keeps_of_opt (by assumption) ?_)
    | dsimp only)

theorem keeps_snapCapture {u : State} {s : State} (h : Keeps u s) :
 Keeps u (snapCapture s) := by
  unfold snapCapture
  repeat' (first
    | with_reducible assumption
    | with_reducible apply keeps_setTime
    | with_reducible apply keeps_foldl
    | with_reducible apply keeps_foldl_snd
    | intro _
    | with_reducible apply keeps_ite
    | split
    | (with_reducible refine keeps_of_pair (by assumption) ?_)
    | (with_reducible refine keeps_of_opt (by assumption) ?_)
    | dsimp only)

theorem keeps_execSnapshotCapture {u : State} {s : State} (h : Keeps u s) :
 KeepsOut u (execSnapshotCapture s) := by
  unfold execSnapshotCapture
  repeat' (first
    | with_reducible assumption
    | with_reducible apply keeps_snapCapture
    | with_reducible apply keepsOut_next
    | intro _
    | with_reducible apply keepsOut_ite
    | with_reducible apply keeps_ite
    | split
    | (with_reducible refine keeps_of_pair (by assumption) ?_)
    | (with_reducible refine keeps_of_opt (by assumption) ?_)
    | dsimp only)

theorem keeps_regs_fold {u s : State} (l : SMap Word) (h : Keeps u s) :
    Keeps u (setRegs (l.foldl (fun m e =>
      tput (regReset (e.1 / 1024) (e.1 % 1024 * 4)) e.1 e.2 m) s.regs) s) := by
  refine keeps_setRegs _ (fun hr => ?_) h
  generalize s.regs = m at hr
  induction l generalizing m with
  | nil => exact hr
  | cons a r ih => exact ih _ (rising_tput _ _ _ _ hr)

theorem keeps_snapExchange {u : State} {s : State} (h : Keeps u s) : Keeps u (snapExchange s) := by
  unfold snapExchange
  repeat' (first
    | with_reducible assumption
    | with_reducible apply keeps_irq
    | with_reducible apply keeps_disarmSnap
    | with_reducible apply keeps_wr64
    | with_reducible apply keeps_wrf
    | with_reducible apply keeps_regs_fold
    | with_reducible apply keeps_foldl
    | intro _
    | split
    | dsimp only)

theorem keeps_execSnapshotExchange {u : State} {s : State} (h : Keeps u s) :
 KeepsOut u (execSnapshotExchange s) := by
  unfold execSnapshotExchange
  repeat' (first
    | with_reducible assumption
    | with_reducible apply keeps_snapExchange
    | with_reducible apply keepsOut_next
    | intro _
    | with_reducible apply keepsOut_ite
    | with_reducible apply keeps_ite
    | split
    | (with_reducible refine keeps_of_pair (by assumption) ?_)
    | (with_reducible refine keeps_of_opt (by assumption) ?_)
    | dsimp only)

theorem keeps_refreshDigest {u : State} {s : State} (h : Keeps u s) :
 Keeps u (refreshDigest s) := by
  unfold refreshDigest
  repeat' (first
    | with_reducible assumption
    | with_reducible apply keeps_wr
    | with_reducible apply keeps_md
    | with_reducible apply keeps_wrf
    | with_reducible apply keeps_foldl
    | with_reducible apply keeps_foldl_snd
    | intro _
    | with_reducible apply keeps_ite
    | split
    | (with_reducible refine keeps_of_pair (by assumption) ?_)
    | (with_reducible refine keeps_of_opt (by assumption) ?_)
    | dsimp only)

theorem keeps_rollcallGo {u : State} {s : State} (h : Keeps u s) :
 Keeps u (rollcallGo s) := by
  unfold rollcallGo
  repeat' (first
    | with_reducible assumption
    | with_reducible apply keeps_wrf
    | with_reducible apply keeps_ringBroadcast
    | with_reducible apply keeps_refreshDigest
    | intro _
    | with_reducible apply keeps_ite
    | split
    | (with_reducible refine keeps_of_pair (by assumption) ?_)
    | (with_reducible refine keeps_of_opt (by assumption) ?_)
    | dsimp only)

theorem keeps_execRollcallGo {u : State} (rq : Requester) {s : State} (h : Keeps u s) :
 KeepsOut u (execRollcallGo rq s) := by
  unfold execRollcallGo
  repeat' (first
    | with_reducible assumption
    | with_reducible apply keeps_onPage
    | with_reducible apply keeps_rollcallGo
    | with_reducible apply keepsOut_next
    | intro _
    | with_reducible apply keepsOut_ite
    | with_reducible apply keeps_ite
    | split
    | (with_reducible refine keeps_of_pair (by assumption) ?_)
    | (with_reducible refine keeps_of_opt (by assumption) ?_)
    | dsimp only)

theorem keeps_rollcallEnds {u : State} (code : Nat) {s : State} (h : Keeps u s) :
 Keeps u (rollcallEnds code s) := by
  unfold rollcallEnds
  repeat' (first
    | with_reducible assumption
    | with_reducible apply keeps_md
    | intro _
    | with_reducible apply keeps_ite
    | split
    | (with_reducible refine keeps_of_pair (by assumption) ?_)
    | (with_reducible refine keeps_of_opt (by assumption) ?_)
    | dsimp only)

theorem keeps_rollcallReturn {u : State} (bitmap : List Word) {s : State} (h : Keeps u s) :
 Keeps u (rollcallReturn bitmap s) := by
  unfold rollcallReturn
  repeat' (first
    | with_reducible assumption
    | with_reducible apply keeps_wr
    | with_reducible apply keeps_irq
    | with_reducible apply keeps_rollcallEnds
    | with_reducible apply keeps_foldl
    | with_reducible apply keeps_foldl_snd
    | intro _
    | with_reducible apply keeps_ite
    | split
    | (with_reducible refine keeps_of_pair (by assumption) ?_)
    | (with_reducible refine keeps_of_opt (by assumption) ?_)
    | dsimp only)

theorem keeps_execRollcallReturn {u : State} (bitmap : List Word) {s : State} (h : Keeps u s) :
 KeepsOut u (execRollcallReturn bitmap s) := by
  unfold execRollcallReturn
  repeat' (first
    | with_reducible assumption
    | with_reducible apply keeps_rollcallReturn
    | with_reducible apply keepsOut_next
    | intro _
    | with_reducible apply keepsOut_ite
    | with_reducible apply keeps_ite
    | split
    | (with_reducible refine keeps_of_pair (by assumption) ?_)
    | (with_reducible refine keeps_of_opt (by assumption) ?_)
    | dsimp only)

theorem keeps_execRollcallTimeout {u : State} {s : State} (h : Keeps u s) :
 KeepsOut u (execRollcallTimeout s) := by
  unfold execRollcallTimeout
  repeat' (first
    | with_reducible assumption
    | with_reducible apply keeps_rollcallEnds
    | with_reducible apply keepsOut_next
    | intro _
    | with_reducible apply keepsOut_ite
    | with_reducible apply keeps_ite
    | split
    | (with_reducible refine keeps_of_pair (by assumption) ?_)
    | (with_reducible refine keeps_of_opt (by assumption) ?_)
    | dsimp only)

end Sys2Proof.Machine
end

