-- ==== Sys2Proof/Laws/KeepsUpdCore.lean ====
section
/-! SUPPORT. Every operation of Machine/UpdCore.lean keeps (Laws/Keeps.lean). -/
set_option linter.unusedTactic false
set_option linter.unreachableTactic false
set_option linter.unusedVariables false

namespace Sys2Proof.Machine

open Sys2Proof

theorem keeps_setUpdState {u : State} (n : Nat) {s : State} (h : Keeps u s) :
 Keeps u (setUpdState n s) := by
  unfold setUpdState
  repeat' (first
    | with_reducible assumption
    | with_reducible apply keeps_wrf
    | intro _
    | with_reducible apply keeps_ite
    | split
    | (with_reducible refine keeps_of_pair (by assumption) ?_)
    | (with_reducible refine keeps_of_opt (by assumption) ?_)
    | dsimp only)

theorem keeps_updCode {u : State} (c : Nat) {s : State} (h : Keeps u s) :
 Keeps u (updCode c s) := by
  unfold updCode
  repeat' (first
    | with_reducible assumption
    | with_reducible apply keeps_wrf
    | intro _
    | with_reducible apply keeps_ite
    | split
    | (with_reducible refine keeps_of_pair (by assumption) ?_)
    | (with_reducible refine keeps_of_opt (by assumption) ?_)
    | dsimp only)

theorem keeps_updHold {u : State} (b : Bool) {s : State} (h : Keeps u s) :
 Keeps u (updHold b s) := by
  unfold updHold
  repeat' (first
    | with_reducible assumption
    | with_reducible apply keeps_wrf
    | intro _
    | with_reducible apply keeps_ite
    | split
    | (with_reducible refine keeps_of_pair (by assumption) ?_)
    | (with_reducible refine keeps_of_opt (by assumption) ?_)
    | dsimp only)

theorem keeps_mdUpd {u : State} (f : Upd → Upd) {s : State} (h : Keeps u s) :
 Keeps u (mdUpd f s) := by
  unfold mdUpd
  repeat' (first
    | with_reducible assumption
    | with_reducible apply keeps_setUpd
    | intro _
    | with_reducible apply keeps_ite
    | split
    | (with_reducible refine keeps_of_pair (by assumption) ?_)
    | (with_reducible refine keeps_of_opt (by assumption) ?_)
    | dsimp only)

theorem keeps_writePointer {u : State} (why : PtrFor) (f : BootPointer → BootPointer) {s : State} (h : Keeps u s) :
 Keeps u (writePointer why f s) := by
  unfold writePointer
  repeat' (first
    | with_reducible assumption
    | with_reducible apply keeps_mdUpd
    | intro _
    | with_reducible apply keeps_ite
    | split
    | (with_reducible refine keeps_of_pair (by assumption) ?_)
    | (with_reducible refine keeps_of_opt (by assumption) ?_)
    | dsimp only)

theorem keeps_prepare {u : State} {s : State} (h : Keeps u s) :
 Keeps u (prepare s) := by
  unfold prepare
  repeat' (first
    | with_reducible assumption
    | with_reducible apply keeps_startLoad
    | with_reducible apply keeps_mdUpd
    | with_reducible apply keeps_foldl
    | with_reducible apply keeps_foldl_snd
    | intro _
    | with_reducible apply keeps_ite
    | split
    | (with_reducible refine keeps_of_pair (by assumption) ?_)
    | (with_reducible refine keeps_of_opt (by assumption) ?_)
    | dsimp only)

theorem keeps_armUpdate {u : State} {s : State} (h : Keeps u s) :
 Keeps u (armUpdate s) := by
  unfold armUpdate
  repeat' (first
    | with_reducible assumption
    | with_reducible apply keeps_setFox
    | with_reducible apply keeps_swapState
    | with_reducible apply keeps_mdUpd
    | with_reducible apply keeps_foldl
    | with_reducible apply keeps_foldl_snd
    | intro _
    | with_reducible apply keeps_ite
    | split
    | (with_reducible refine keeps_of_pair (by assumption) ?_)
    | (with_reducible refine keeps_of_opt (by assumption) ?_)
    | dsimp only)

theorem keeps_dropStaging {u : State} {s : State} (h : Keeps u s) :
 Keeps u (dropStaging s) := by
  unfold dropStaging
  repeat' (first
    | with_reducible assumption
    | with_reducible apply keeps_invalidateStage
    | with_reducible apply keeps_dropLoad
    | with_reducible apply keeps_foldl
    | with_reducible apply keeps_foldl_snd
    | intro _
    | with_reducible apply keeps_ite
    | split
    | (with_reducible refine keeps_of_pair (by assumption) ?_)
    | (with_reducible refine keeps_of_opt (by assumption) ?_)
    | dsimp only)

theorem keeps_commitLocal {u : State} (t0 : BitVec 64) {s : State} (h : Keeps u s) :
 Keeps u (commitLocal t0 s) := by
  unfold commitLocal
  repeat' (first
    | with_reducible assumption
    | with_reducible apply keeps_wr64
    | with_reducible apply keeps_setUpdState
    | with_reducible apply keeps_mdUpd
    | with_reducible apply keeps_prepare
    | with_reducible apply keeps_armUpdate
    | intro _
    | with_reducible apply keeps_ite
    | split
    | (with_reducible refine keeps_of_pair (by assumption) ?_)
    | (with_reducible refine keeps_of_opt (by assumption) ?_)
    | dsimp only)

theorem keeps_sendCommit {u : State} (m t0 : BitVec 64) {s : State} (h : Keeps u s) :
 Keeps u (sendCommit m t0 s) := by
  unfold sendCommit
  repeat' (first
    | with_reducible assumption
    | with_reducible apply keeps_ringBroadcast
    | intro _
    | with_reducible apply keeps_ite
    | split
    | (with_reducible refine keeps_of_pair (by assumption) ?_)
    | (with_reducible refine keeps_of_opt (by assumption) ?_)
    | dsimp only)

theorem keeps_resendCommit {u : State} {s : State} (h : Keeps u s) :
 Keeps u (resendCommit s) := by
  unfold resendCommit
  repeat' (first
    | with_reducible assumption
    | with_reducible apply keeps_mdUpd
    | with_reducible apply keeps_commitLocal
    | with_reducible apply keeps_sendCommit
    | intro _
    | with_reducible apply keeps_ite
    | split
    | (with_reducible refine keeps_of_pair (by assumption) ?_)
    | (with_reducible refine keeps_of_opt (by assumption) ?_)
    | dsimp only)

theorem keeps_eraseSettings {u : State} (b : Bool) {s : State} (h : Keeps u s) :
 Keeps u (eraseSettings b s) := by
  unfold eraseSettings
  repeat' (first
    | with_reducible assumption
    | with_reducible apply keeps_stewardErase
    | with_reducible apply keeps_foldl
    | with_reducible apply keeps_foldl_snd
    | intro _
    | with_reducible apply keeps_ite
    | split
    | (with_reducible refine keeps_of_pair (by assumption) ?_)
    | (with_reducible refine keeps_of_opt (by assumption) ?_)
    | dsimp only)

theorem keeps_newSettings {u : State} (b : Bool) {s : State} (h : Keeps u s) :
 Keeps u (newSettings b s) := by
  unfold newSettings
  repeat' (first
    | with_reducible assumption
    | with_reducible apply keeps_undefSector
    | with_reducible apply keeps_foldl
    | with_reducible apply keeps_foldl_snd
    | intro _
    | with_reducible apply keeps_ite
    | split
    | (with_reducible refine keeps_of_pair (by assumption) ?_)
    | (with_reducible refine keeps_of_opt (by assumption) ?_)
    | dsimp only)

theorem keeps_resumeUpdate {u : State} {s : State} (h : Keeps u s) :
 Keeps u (resumeUpdate s) := by
  unfold resumeUpdate
  repeat' (first
    | with_reducible assumption
    | with_reducible apply keeps_setUpdState
    | with_reducible apply keeps_mdUpd
    | with_reducible apply keeps_writePointer
    | with_reducible apply keeps_resendCommit
    | with_reducible apply keeps_eraseSettings
    | intro _
    | with_reducible apply keeps_ite
    | split
    | (with_reducible refine keeps_of_pair (by assumption) ?_)
    | (with_reducible refine keeps_of_opt (by assumption) ?_)
    | dsimp only)

theorem keeps_rearmUpdate {u : State} {s : State} (h : Keeps u s) :
 Keeps u (rearmUpdate s) := by
  unfold rearmUpdate
  repeat' (first
    | with_reducible assumption
    | with_reducible apply keeps_armUpdate
    | intro _
    | with_reducible apply keeps_ite
    | split
    | (with_reducible refine keeps_of_pair (by assumption) ?_)
    | (with_reducible refine keeps_of_opt (by assumption) ?_)
    | dsimp only)

end Sys2Proof.Machine
end

