-- ==== Sys2Proof/Laws/KeepsSelftest.lean ====
section
/-! SUPPORT. Every operation of Machine/Selftest.lean keeps (Laws/Keeps.lean). -/
set_option linter.unusedTactic false
set_option linter.unreachableTactic false
set_option linter.unusedVariables false

namespace Sys2Proof.Machine

open Sys2Proof

theorem keeps_setWindow {u : State} (b : Bool) {s : State} (h : Keeps u s) :
 Keeps u (setWindow b s) := by
  unfold setWindow
  repeat' (first
    | with_reducible assumption
    | with_reducible apply keeps_wr
    | with_reducible apply keeps_drawn
    | intro _
    | with_reducible apply keeps_ite
    | split
    | (with_reducible refine keeps_of_pair (by assumption) ?_)
    | (with_reducible refine keeps_of_opt (by assumption) ?_)
    | dsimp only)

theorem keeps_signed {u : State} (cls : Nat) (x : SliceRun) {s : State} (h : Keeps u s) :
 Keeps u (signed cls x s) := by
  unfold signed
  repeat' (first
    | with_reducible assumption
    | with_reducible apply keeps_setWpk
    | intro _
    | with_reducible apply keeps_ite
    | split
    | (with_reducible refine keeps_of_pair (by assumption) ?_)
    | (with_reducible refine keeps_of_opt (by assumption) ?_)
    | dsimp only)

theorem keeps_puCounted {u : State} (cls n : Nat) (fail : Bool) {s : State} (h : Keeps u s) :
 Keeps u (puCounted cls n fail s) := by
  unfold puCounted
  repeat' (first
    | with_reducible assumption
    | with_reducible apply keeps_setWpk
    | with_reducible apply keeps_md
    | intro _
    | with_reducible apply keeps_ite
    | split
    | (with_reducible refine keeps_of_pair (by assumption) ?_)
    | (with_reducible refine keeps_of_opt (by assumption) ?_)
    | dsimp only)

theorem keeps_puFirst {u : State} (w : Word) {s : State} (h : Keeps u s) :
 Keeps u (puFirst w s) := by
  unfold puFirst
  repeat' (first
    | with_reducible assumption
    | with_reducible apply keeps_wr
    | intro _
    | with_reducible apply keeps_ite
    | split
    | (with_reducible refine keeps_of_pair (by assumption) ?_)
    | (with_reducible refine keeps_of_opt (by assumption) ?_)
    | dsimp only)

theorem keeps_sliceTaken {u : State} (cls block slice cell : Nat) (v : Verdict) {s : State} (h : Keeps u s) :
 Keeps u (sliceTaken cls block slice cell v s) := by
  unfold sliceTaken
  repeat' (first
    | with_reducible assumption
    | with_reducible apply keeps_setWpk
    | with_reducible apply keeps_puCounted
    | with_reducible apply keeps_puFirst
    | intro _
    | with_reducible apply keeps_ite
    | split
    | (with_reducible refine keeps_of_pair (by assumption) ?_)
    | (with_reducible refine keeps_of_opt (by assumption) ?_)
    | dsimp only)

theorem keeps_sliceEnd {u : State} (cls block slice cell : Nat) (x : SliceRun) {s : State} (h : Keeps u s) :
 Keeps u (sliceEnd cls block slice cell x s) := by
  unfold sliceEnd
  repeat' (first
    | with_reducible assumption
    | with_reducible apply keeps_signed
    | with_reducible apply keeps_sliceTaken
    | intro _
    | with_reducible apply keeps_ite
    | split
    | (with_reducible refine keeps_of_pair (by assumption) ?_)
    | (with_reducible refine keeps_of_opt (by assumption) ?_)
    | dsimp only)

theorem keeps_execSliceEnd {u : State} (cls : Fin 5) (block : BitVec 10) (slice cell : Byte) (run : SliceRun) {s : State} (h : Keeps u s) :
 KeepsOut u (execSliceEnd cls block slice cell run s) := by
  unfold execSliceEnd
  repeat' (first
    | with_reducible assumption
    | with_reducible apply keeps_sliceEnd
    | with_reducible apply keepsOut_next
    | intro _
    | with_reducible apply keepsOut_ite
    | with_reducible apply keeps_ite
    | split
    | (with_reducible refine keeps_of_pair (by assumption) ?_)
    | (with_reducible refine keeps_of_opt (by assumption) ?_)
    | dsimp only)

theorem keeps_windowTimeout {u : State} {s : State} (h : Keeps u s) :
 Keeps u (windowTimeout s) := by
  unfold windowTimeout
  repeat' (first
    | with_reducible assumption
    | with_reducible apply keeps_setWpk
    | with_reducible apply keeps_drawn
    | with_reducible apply keeps_puCounted
    | with_reducible apply keeps_puFirst
    | with_reducible apply keeps_foldl
    | with_reducible apply keeps_foldl_snd
    | intro _
    | with_reducible apply keeps_ite
    | split
    | (with_reducible refine keeps_of_pair (by assumption) ?_)
    | (with_reducible refine keeps_of_opt (by assumption) ?_)
    | dsimp only)

theorem keeps_execSelftestWindowTimeout {u : State} {s : State} (h : Keeps u s) :
 KeepsOut u (execSelftestWindowTimeout s) := by
  unfold execSelftestWindowTimeout
  repeat' (first
    | with_reducible assumption
    | with_reducible apply keeps_windowTimeout
    | with_reducible apply keepsOut_next
    | intro _
    | with_reducible apply keepsOut_ite
    | with_reducible apply keeps_ite
    | split
    | (with_reducible refine keeps_of_pair (by assumption) ?_)
    | (with_reducible refine keeps_of_opt (by assumption) ?_)
    | dsimp only)

theorem keeps_beginSelftest {u : State} {s : State} (h : Keeps u s) :
 Keeps u (beginSelftest s) := by
  unfold beginSelftest
  repeat' (first
    | with_reducible assumption
    | with_reducible apply keeps_setWpk
    | with_reducible apply keeps_wr
    | with_reducible apply keeps_wrf
    | with_reducible apply keeps_enterMode
    | intro _
    | with_reducible apply keeps_ite
    | split
    | (with_reducible refine keeps_of_pair (by assumption) ?_)
    | (with_reducible refine keeps_of_opt (by assumption) ?_)
    | dsimp only)

theorem keeps_putVerdicts {u : State} {s : State} (h : Keeps u s) :
 Keeps u (putVerdicts s) := by
  unfold putVerdicts
  repeat' (first
    | with_reducible assumption
    | with_reducible apply keeps_wrf
    | with_reducible apply keeps_foldl
    | with_reducible apply keeps_foldl_snd
    | intro _
    | with_reducible apply keeps_ite
    | split
    | (with_reducible refine keeps_of_pair (by assumption) ?_)
    | (with_reducible refine keeps_of_opt (by assumption) ?_)
    | dsimp only)

theorem keeps_putSlice {u : State} (b : BgSlice) {s : State} (h : Keeps u s) :
 Keeps u (putSlice b s) := by
  unfold putSlice
  repeat' (first
    | with_reducible assumption
    | with_reducible apply keeps_setWpk
    | with_reducible apply keeps_wr
    | intro _
    | with_reducible apply keeps_ite
    | split
    | (with_reducible refine keeps_of_pair (by assumption) ?_)
    | (with_reducible refine keeps_of_opt (by assumption) ?_)
    | dsimp only)

theorem keeps_bgStart {u : State} {s : State} (h : Keeps u s) :
 Keeps u (bgStart s) := by
  unfold bgStart
  repeat' (first
    | with_reducible assumption
    | with_reducible apply keeps_setWpk
    | with_reducible apply keeps_putSlice
    | intro _
    | with_reducible apply keeps_ite
    | split
    | (with_reducible refine keeps_of_pair (by assumption) ?_)
    | (with_reducible refine keeps_of_opt (by assumption) ?_)
    | dsimp only)

theorem keeps_execBgSliceStart {u : State} {s : State} (h : Keeps u s) :
 KeepsOut u (execBgSliceStart s) := by
  unfold execBgSliceStart
  repeat' (first
    | with_reducible assumption
    | with_reducible apply keeps_bgStart
    | with_reducible apply keepsOut_next
    | intro _
    | with_reducible apply keepsOut_ite
    | with_reducible apply keeps_ite
    | split
    | (with_reducible refine keeps_of_pair (by assumption) ?_)
    | (with_reducible refine keeps_of_opt (by assumption) ?_)
    | dsimp only)

theorem keeps_bgPhaseDone {u : State} {s : State} (h : Keeps u s) :
 Keeps u (bgPhaseDone s) := by
  unfold bgPhaseDone
  repeat' (first
    | with_reducible assumption
    | with_reducible apply keeps_setWpk
    | intro _
    | with_reducible apply keeps_ite
    | split
    | (with_reducible refine keeps_of_pair (by assumption) ?_)
    | (with_reducible refine keeps_of_opt (by assumption) ?_)
    | dsimp only)

theorem keeps_execBgPhaseDone {u : State} {s : State} (h : Keeps u s) :
 KeepsOut u (execBgPhaseDone s) := by
  unfold execBgPhaseDone
  repeat' (first
    | with_reducible assumption
    | with_reducible apply keeps_bgPhaseDone
    | with_reducible apply keepsOut_next
    | intro _
    | with_reducible apply keepsOut_ite
    | with_reducible apply keeps_ite
    | split
    | (with_reducible refine keeps_of_pair (by assumption) ?_)
    | (with_reducible refine keeps_of_opt (by assumption) ?_)
    | dsimp only)

theorem keeps_bgAbort {u : State} {s : State} (h : Keeps u s) :
 Keeps u (bgAbort s) := by
  unfold bgAbort
  repeat' (first
    | with_reducible assumption
    | with_reducible apply keeps_setWpk
    | with_reducible apply keeps_count
    | with_reducible apply keeps_sliceOver
    | with_reducible apply keeps_bgResume
    | intro _
    | with_reducible apply keeps_ite
    | split
    | (with_reducible refine keeps_of_pair (by assumption) ?_)
    | (with_reducible refine keeps_of_opt (by assumption) ?_)
    | dsimp only)

theorem keeps_execBgSliceAbort {u : State} {s : State} (h : Keeps u s) :
 KeepsOut u (execBgSliceAbort s) := by
  unfold execBgSliceAbort
  repeat' (first
    | with_reducible assumption
    | with_reducible apply keeps_bgAbort
    | with_reducible apply keepsOut_next
    | intro _
    | with_reducible apply keepsOut_ite
    | with_reducible apply keeps_ite
    | split
    | (with_reducible refine keeps_of_pair (by assumption) ?_)
    | (with_reducible refine keeps_of_opt (by assumption) ?_)
    | dsimp only)

theorem keeps_budgetExpiry {u : State} {s : State} (h : Keeps u s) :
 Keeps u (budgetExpiry s) := by
  unfold budgetExpiry
  repeat' (first
    | with_reducible assumption
    | with_reducible apply keeps_bgCut
    | intro _
    | with_reducible apply keeps_ite
    | split
    | (with_reducible refine keeps_of_pair (by assumption) ?_)
    | (with_reducible refine keeps_of_opt (by assumption) ?_)
    | dsimp only)

theorem keeps_execBudgetExpiry {u : State} {s : State} (h : Keeps u s) :
 KeepsOut u (execBudgetExpiry s) := by
  unfold execBudgetExpiry
  repeat' (first
    | with_reducible assumption
    | with_reducible apply keeps_budgetExpiry
    | with_reducible apply keepsOut_next
    | intro _
    | with_reducible apply keepsOut_ite
    | with_reducible apply keeps_ite
    | split
    | (with_reducible refine keeps_of_pair (by assumption) ?_)
    | (with_reducible refine keeps_of_opt (by assumption) ?_)
    | dsimp only)

theorem keeps_execWindowExit {u : State} {s : State} (h : Keeps u s) :
 KeepsOut u (execWindowExit s) := by
  unfold execWindowExit
  repeat' (first
    | with_reducible assumption
    | with_reducible apply keeps_bgCut
    | with_reducible apply keeps_setWindow
    | with_reducible apply keepsOut_next
    | intro _
    | with_reducible apply keepsOut_ite
    | with_reducible apply keeps_ite
    | split
    | (with_reducible refine keeps_of_pair (by assumption) ?_)
    | (with_reducible refine keeps_of_opt (by assumption) ?_)
    | dsimp only)

theorem keeps_execWindowEntry {u : State} {s : State} (h : Keeps u s) :
 KeepsOut u (execWindowEntry s) := by
  unfold execWindowEntry
  repeat' (first
    | with_reducible assumption
    | with_reducible apply keeps_setWindow
    | with_reducible apply keepsOut_next
    | intro _
    | with_reducible apply keepsOut_ite
    | with_reducible apply keeps_ite
    | split
    | (with_reducible refine keeps_of_pair (by assumption) ?_)
    | (with_reducible refine keeps_of_opt (by assumption) ?_)
    | dsimp only)

theorem keeps_bgFailed {u : State} (b : BgSlice) (permanent : Bool) {s : State} (h : Keeps u s) :
 Keeps u (bgFailed b permanent s) := by
  unfold bgFailed
  repeat' (first
    | with_reducible assumption
    | with_reducible apply keeps_wr
    | with_reducible apply keeps_irq
    | intro _
    | with_reducible apply keeps_ite
    | split
    | (with_reducible refine keeps_of_pair (by assumption) ?_)
    | (with_reducible refine keeps_of_opt (by assumption) ?_)
    | dsimp only)

theorem keeps_bgPermanent {u : State} (b : BgSlice) {s : State} (h : Keeps u s) :
 Keeps u (bgPermanent b s) := by
  unfold bgPermanent
  repeat' (first
    | with_reducible assumption
    | with_reducible apply keeps_md
    | with_reducible apply keeps_setArr
    | with_reducible apply keeps_retire
    | with_reducible apply keeps_retireBankFor
    | with_reducible apply keeps_regionFaulty
    | with_reducible apply keeps_haltCell
    | intro _
    | with_reducible apply keeps_ite
    | split
    | (with_reducible refine keeps_of_pair (by assumption) ?_)
    | (with_reducible refine keeps_of_opt (by assumption) ?_)
    | dsimp only)

theorem keeps_bgEnd {u : State} (x : SliceRun) {s : State} (h : Keeps u s) :
 Keeps u (bgEnd x s) := by
  unfold bgEnd
  repeat' (first
    | with_reducible assumption
    | with_reducible apply keeps_sliceCounted
    | with_reducible apply keeps_sliceOver
    | with_reducible apply keeps_bgResume
    | with_reducible apply keeps_signed
    | with_reducible apply keeps_putSlice
    | with_reducible apply keeps_bgFailed
    | with_reducible apply keeps_bgPermanent
    | intro _
    | with_reducible apply keeps_ite
    | split
    | (with_reducible refine keeps_of_pair (by assumption) ?_)
    | (with_reducible refine keeps_of_opt (by assumption) ?_)
    | dsimp only)

theorem keeps_execBgSliceEnd {u : State} (run : SliceRun) {s : State} (h : Keeps u s) :
 KeepsOut u (execBgSliceEnd run s) := by
  unfold execBgSliceEnd
  repeat' (first
    | with_reducible assumption
    | with_reducible apply keeps_bgEnd
    | with_reducible apply keepsOut_next
    | intro _
    | with_reducible apply keepsOut_ite
    | with_reducible apply keeps_ite
    | split
    | (with_reducible refine keeps_of_pair (by assumption) ?_)
    | (with_reducible refine keeps_of_opt (by assumption) ?_)
    | dsimp only)

end Sys2Proof.Machine
end

