-- ==== Sys2Proof/Laws/KeepsStartup.lean ====
section
/-! SUPPORT. Every operation of Machine/Startup.lean keeps (Laws/Keeps.lean). -/
set_option linter.unusedTactic false
set_option linter.unreachableTactic false
set_option linter.unusedVariables false

namespace Sys2Proof.Machine

open Sys2Proof

theorem keeps_planeLoaded {u : State} (r src n : Nat) (m : SMap Word) {s : State} (h : Keeps u s) :
 Keeps u (planeLoaded r src n m s) := by
  unfold planeLoaded
  repeat' (first
    | with_reducible assumption
    | with_reducible apply keeps_wr
    | with_reducible apply keeps_wrf
    | with_reducible apply keeps_mdRgn
    | with_reducible apply keeps_invalidateStage
    | with_reducible apply keeps_resetImmediates
    | with_reducible apply keeps_setActive
    | with_reducible apply keeps_assertGsr
    | intro _
    | with_reducible apply keeps_ite
    | split
    | (with_reducible refine keeps_of_pair (by assumption) ?_)
    | (with_reducible refine keeps_of_opt (by assumption) ?_)
    | dsimp only)

theorem keeps_loadBoot {u : State} (r : Nat) {s : State} (h : Keeps u s) :
 Keeps u (loadBoot r s).2 := by
  unfold loadBoot
  repeat' (first
    | with_reducible assumption
    | with_reducible apply keeps_planeLoaded
    | intro _
    | with_reducible apply keeps_ite_snd
    | with_reducible apply keeps_ite
    | split
    | (with_reducible refine keeps_of_pair (by assumption) ?_)
    | (with_reducible refine keeps_of_opt (by assumption) ?_)
    | dsimp only)

theorem keeps_reload {u : State} (r : Nat) {s : State} (h : Keeps u s) :
 Keeps u (reload r s).2 := by
  unfold reload
  repeat' (first
    | with_reducible assumption
    | with_reducible apply keeps_err
    | with_reducible apply keeps_planeLoaded
    | with_reducible apply keeps_loadBoot
    | intro _
    | with_reducible apply keeps_ite_snd
    | with_reducible apply keeps_ite
    | split
    | (with_reducible refine keeps_of_pair (by assumption) ?_)
    | (with_reducible refine keeps_of_opt (by assumption) ?_)
    | dsimp only)

theorem keeps_loadAll {u : State} (f : Nat → State → Option Nat × State) (rs : List Nat) {s : State} (hf : ∀ a0 t, Keeps u t → Keeps u (f a0 t).2) (h : Keeps u s) :
 Keeps u (loadAll f rs s).2 := by
  unfold loadAll
  repeat' (first
    | with_reducible assumption
    | with_reducible apply hf
    | with_reducible apply keeps_foldl
    | with_reducible apply keeps_foldl_snd
    | intro _
    | with_reducible apply keeps_ite_snd
    | with_reducible apply keeps_ite
    | split
    | (with_reducible refine keeps_of_pair (by assumption) ?_)
    | (with_reducible refine keeps_of_opt (by assumption) ?_)
    | dsimp only)

theorem keeps_powerOff {u : State} (r : Nat) {s : State} (h : Keeps u s) :
 Keeps u (powerOff r s) := by
  unfold powerOff
  repeat' (first
    | with_reducible assumption
    | with_reducible apply keeps_wr
    | with_reducible apply keeps_mdRgn
    | with_reducible apply keeps_abandonSlice
    | with_reducible apply keeps_fenceRegion
    | with_reducible apply keeps_setBankPort
    | with_reducible apply keeps_zeroBank
    | with_reducible apply keeps_invalidateStage
    | with_reducible apply keeps_dropLoad
    | with_reducible apply keeps_answerBanks
    | with_reducible apply keeps_clearTaps
    | with_reducible apply keeps_assertGsr
    | with_reducible apply keeps_foldl
    | with_reducible apply keeps_foldl_snd
    | intro _
    | with_reducible apply keeps_ite
    | split
    | (with_reducible refine keeps_of_pair (by assumption) ?_)
    | (with_reducible refine keeps_of_opt (by assumption) ?_)
    | dsimp only)

theorem keeps_pwrCode {u : State} (c : Nat) {s : State} (h : Keeps u s) :
 Keeps u (pwrCode c s) := by
  unfold pwrCode
  repeat' (first
    | with_reducible assumption
    | with_reducible apply keeps_wrf
    | intro _
    | with_reducible apply keeps_ite
    | split
    | (with_reducible refine keeps_of_pair (by assumption) ?_)
    | (with_reducible refine keeps_of_opt (by assumption) ?_)
    | dsimp only)

theorem keeps_powerOn {u : State} (r : Nat) {s : State} (h : Keeps u s) :
 Keeps u (powerOn r s) := by
  unfold powerOn
  repeat' (first
    | with_reducible assumption
    | with_reducible apply keeps_mdRgn
    | with_reducible apply keeps_unfenceRegion
    | with_reducible apply keeps_zeroBank
    | with_reducible apply keeps_clearTaps
    | with_reducible apply keeps_rcCheck
    | with_reducible apply keeps_holdSide
    | with_reducible apply keeps_reload
    | with_reducible apply keeps_powerOff
    | with_reducible apply keeps_pwrCode
    | with_reducible apply keeps_foldl
    | with_reducible apply keeps_foldl_snd
    | intro _
    | with_reducible apply keeps_ite
    | split
    | (with_reducible refine keeps_of_pair (by assumption) ?_)
    | (with_reducible refine keeps_of_opt (by assumption) ?_)
    | dsimp only)

theorem keeps_regionPower {u : State} (r : Nat) (on : Bool) {s : State} (h : Keeps u s) :
 Keeps u (regionPower r on s) := by
  unfold regionPower
  repeat' (first
    | with_reducible assumption
    | with_reducible apply keeps_setPwr
    | with_reducible apply keeps_wr
    | with_reducible apply keeps_wrf
    | with_reducible apply keeps_irq
    | with_reducible apply keeps_permFault
    | with_reducible apply keeps_powerOff
    | with_reducible apply keeps_pwrCode
    | with_reducible apply keeps_powerOn
    | intro _
    | with_reducible apply keeps_ite
    | split
    | (with_reducible refine keeps_of_pair (by assumption) ?_)
    | (with_reducible refine keeps_of_opt (by assumption) ?_)
    | dsimp only)

theorem keeps_execRegionPowerOn {u : State} (rq : Requester) (r : RegionId) {s : State} (h : Keeps u s) :
 KeepsOut u (execRegionPowerOn rq r s) := by
  unfold execRegionPowerOn
  repeat' (first
    | with_reducible assumption
    | with_reducible apply keeps_settleAll
    | with_reducible apply keeps_onPage
    | with_reducible apply keeps_regionPower
    | with_reducible apply keepsOut_next
    | intro _
    | with_reducible apply keepsOut_ite
    | with_reducible apply keeps_ite
    | split
    | (with_reducible refine keeps_of_pair (by assumption) ?_)
    | (with_reducible refine keeps_of_opt (by assumption) ?_)
    | dsimp only)

theorem keeps_execRegionPowerOff {u : State} (rq : Requester) (r : RegionId) {s : State} (h : Keeps u s) :
 KeepsOut u (execRegionPowerOff rq r s) := by
  unfold execRegionPowerOff
  repeat' (first
    | with_reducible assumption
    | with_reducible apply keeps_settleAll
    | with_reducible apply keeps_onPage
    | with_reducible apply keeps_regionPower
    | with_reducible apply keepsOut_next
    | intro _
    | with_reducible apply keepsOut_ite
    | with_reducible apply keeps_ite
    | split
    | (with_reducible refine keeps_of_pair (by assumption) ?_)
    | (with_reducible refine keeps_of_opt (by assumption) ?_)
    | dsimp only)

theorem keeps_releaseRegion {u : State} (r : Nat) {s : State} (h : Keeps u s) :
 Keeps u (releaseRegion r s) := by
  unfold releaseRegion
  repeat' (first
    | with_reducible assumption
    | with_reducible apply keeps_mdRgn
    | with_reducible apply keeps_releaseStepOf
    | with_reducible apply keeps_foldl
    | with_reducible apply keeps_foldl_snd
    | intro _
    | with_reducible apply keeps_ite
    | split
    | (with_reducible refine keeps_of_pair (by assumption) ?_)
    | (with_reducible refine keeps_of_opt (by assumption) ?_)
    | dsimp only)

theorem keeps_regionPowerDone {u : State} {s : State} (h : Keeps u s) :
 Keeps u (regionPowerDone s) := by
  unfold regionPowerDone
  repeat' (first
    | with_reducible assumption
    | with_reducible apply keeps_setPwr
    | with_reducible apply keeps_wrf
    | with_reducible apply keeps_irq
    | with_reducible apply keeps_releaseRegion
    | intro _
    | with_reducible apply keeps_ite
    | split
    | (with_reducible refine keeps_of_pair (by assumption) ?_)
    | (with_reducible refine keeps_of_opt (by assumption) ?_)
    | dsimp only)

theorem keeps_execRegionPowerDone {u : State} {s : State} (h : Keeps u s) :
 KeepsOut u (execRegionPowerDone s) := by
  unfold execRegionPowerDone
  repeat' (first
    | with_reducible assumption
    | with_reducible apply keeps_settleAll
    | with_reducible apply keeps_regionPowerDone
    | with_reducible apply keepsOut_next
    | intro _
    | with_reducible apply keepsOut_ite
    | with_reducible apply keeps_ite
    | split
    | (with_reducible refine keeps_of_pair (by assumption) ?_)
    | (with_reducible refine keeps_of_opt (by assumption) ?_)
    | dsimp only)

theorem keeps_setCause {u : State} (n : Nat) {s : State} (h : Keeps u s) :
 Keeps u (setCause n s) := by
  unfold setCause
  repeat' (first
    | with_reducible assumption
    | with_reducible apply keeps_md
    | intro _
    | with_reducible apply keeps_ite
    | split
    | (with_reducible refine keeps_of_pair (by assumption) ?_)
    | (with_reducible refine keeps_of_opt (by assumption) ?_)
    | dsimp only)

theorem keeps_setPhase {u : State} (n : Nat) {s : State} (h : Keeps u s) :
 Keeps u (setPhase n s) := by
  unfold setPhase
  repeat' (first
    | with_reducible assumption
    | with_reducible apply keeps_wrf
    | intro _
    | with_reducible apply keeps_ite
    | split
    | (with_reducible refine keeps_of_pair (by assumption) ?_)
    | (with_reducible refine keeps_of_opt (by assumption) ?_)
    | dsimp only)

theorem keeps_stamp {u : State} (off hi lo : Nat) {s : State} (h : Keeps u s) :
 Keeps u (stamp off hi lo s) := by
  unfold stamp
  repeat' (first
    | with_reducible assumption
    | with_reducible apply keeps_wrf
    | with_reducible apply keeps_drawn
    | intro _
    | with_reducible apply keeps_ite
    | split
    | (with_reducible refine keeps_of_pair (by assumption) ?_)
    | (with_reducible refine keeps_of_opt (by assumption) ?_)
    | dsimp only)

theorem keeps_freshStartup {u : State} {s : State} (h : Keeps u s) :
 Keeps u (freshStartup s) := by
  unfold freshStartup
  repeat' (first
    | with_reducible assumption
    | with_reducible apply keeps_wr
    | intro _
    | with_reducible apply keeps_ite
    | split
    | (with_reducible refine keeps_of_pair (by assumption) ?_)
    | (with_reducible refine keeps_of_opt (by assumption) ?_)
    | dsimp only)

theorem keeps_stopped {u : State} (c : Nat) {s : State} (h : Keeps u s) :
 Keeps u (stopped c s) := by
  unfold stopped
  repeat' (first
    | with_reducible assumption
    | with_reducible apply keeps_wrf
    | with_reducible apply keeps_setPhase
    | intro _
    | with_reducible apply keeps_ite
    | split
    | (with_reducible refine keeps_of_pair (by assumption) ?_)
    | (with_reducible refine keeps_of_opt (by assumption) ?_)
    | dsimp only)

theorem keeps_dropEntry {u : State} {s : State} (h : Keeps u s) :
 Keeps u (dropEntry s) := by
  unfold dropEntry
  repeat' (first
    | with_reducible assumption
    | with_reducible apply keeps_setPwr
    | with_reducible apply keeps_wrf
    | intro _
    | with_reducible apply keeps_ite
    | split
    | (with_reducible refine keeps_of_pair (by assumption) ?_)
    | (with_reducible refine keeps_of_opt (by assumption) ?_)
    | dsimp only)

theorem keeps_fabricStopped {u : State} {s : State} (h : Keeps u s) :
 Keeps u (fabricStopped s) := by
  unfold fabricStopped
  repeat' (first
    | with_reducible assumption
    | with_reducible apply keeps_setDev
    | with_reducible apply keeps_wrf
    | with_reducible apply keeps_dropEntry
    | intro _
    | with_reducible apply keeps_ite
    | split
    | (with_reducible refine keeps_of_pair (by assumption) ?_)
    | (with_reducible refine keeps_of_opt (by assumption) ?_)
    | dsimp only)

theorem keeps_stopSafe {u : State} (c : Nat) {s : State} (h : Keeps u s) :
 Keeps u (stopSafe c s) := by
  unfold stopSafe
  repeat' (first
    | with_reducible assumption
    | with_reducible apply keeps_setDev
    | with_reducible apply keeps_enterMode
    | with_reducible apply keeps_stopped
    | with_reducible apply keeps_fabricStopped
    | intro _
    | with_reducible apply keeps_ite
    | split
    | (with_reducible refine keeps_of_pair (by assumption) ?_)
    | (with_reducible refine keeps_of_opt (by assumption) ?_)
    | dsimp only)

theorem keeps_coldState {u : State} (rstN : Bool) {s : State} (h : Keeps u s) : Keeps u (coldState rstN s) := by
  refine keeps_rebuild (s := s) rfl rfl (fun hr => ?_) h
  unfold coldState
  dsimp only
  split
  · exact rising_filterMap _ (fun e y he => by
      dsimp only at he
      split at he
      · cases he
      · cases he; rfl) _ hr
  · rfl

theorem keeps_unlisted {u : State} (src : Nat) {s : State} (h : Keeps u s) :
 Keeps u (unlisted src s) := by
  unfold unlisted
  repeat' (first
    | with_reducible assumption
    | with_reducible apply keeps_ignored
    | intro _
    | with_reducible apply keeps_ite
    | split
    | (with_reducible refine keeps_of_pair (by assumption) ?_)
    | (with_reducible refine keeps_of_opt (by assumption) ?_)
    | dsimp only)

theorem keeps_por {u : State} {s : State} (h : Keeps u s) :
 Keeps u (por s) := by
  unfold por
  repeat' (first
    | with_reducible assumption
    | with_reducible apply keeps_coldState
    | with_reducible apply keeps_unlisted
    | intro _
    | with_reducible apply keeps_ite
    | split
    | (with_reducible refine keeps_of_pair (by assumption) ?_)
    | (with_reducible refine keeps_of_opt (by assumption) ?_)
    | dsimp only)

theorem keeps_execPor {u : State} {s : State} (h : Keeps u s) :
 KeepsOut u (execPor s) := by
  unfold execPor
  repeat' (first
    | with_reducible assumption
    | with_reducible apply keeps_por
    | with_reducible apply keepsOut_next
    | intro _
    | with_reducible apply keepsOut_ite
    | with_reducible apply keeps_ite
    | split
    | (with_reducible refine keeps_of_pair (by assumption) ?_)
    | (with_reducible refine keeps_of_opt (by assumption) ?_)
    | dsimp only)

theorem keeps_suppliesInvalid {u : State} {s : State} (h : Keeps u s) :
 Keeps u (suppliesInvalid s) := by
  unfold suppliesInvalid
  repeat' (first
    | with_reducible assumption
    | with_reducible apply keeps_setDev
    | with_reducible apply keeps_coldState
    | intro _
    | with_reducible apply keeps_ite
    | split
    | (with_reducible refine keeps_of_pair (by assumption) ?_)
    | (with_reducible refine keeps_of_opt (by assumption) ?_)
    | dsimp only)

theorem keeps_execSuppliesInvalid {u : State} {s : State} (h : Keeps u s) :
 KeepsOut u (execSuppliesInvalid s) := by
  unfold execSuppliesInvalid
  repeat' (first
    | with_reducible assumption
    | with_reducible apply keeps_suppliesInvalid
    | with_reducible apply keepsOut_next
    | intro _
    | with_reducible apply keepsOut_ite
    | with_reducible apply keeps_ite
    | split
    | (with_reducible refine keeps_of_pair (by assumption) ?_)
    | (with_reducible refine keeps_of_opt (by assumption) ?_)
    | dsimp only)

theorem keeps_rstN {u : State} {s : State} (h : Keeps u s) :
 Keeps u (rstN s) := by
  unfold rstN
  repeat' (first
    | with_reducible assumption
    | with_reducible apply keeps_setDev
    | with_reducible apply keeps_ignored
    | with_reducible apply keeps_setCause
    | with_reducible apply keeps_coldState
    | intro _
    | with_reducible apply keeps_ite
    | split
    | (with_reducible refine keeps_of_pair (by assumption) ?_)
    | (with_reducible refine keeps_of_opt (by assumption) ?_)
    | dsimp only)

theorem keeps_execRstN {u : State} {s : State} (h : Keeps u s) :
 KeepsOut u (execRstN s) := by
  unfold execRstN
  repeat' (first
    | with_reducible assumption
    | with_reducible apply keeps_rstN
    | with_reducible apply keepsOut_next
    | intro _
    | with_reducible apply keepsOut_ite
    | with_reducible apply keeps_ite
    | split
    | (with_reducible refine keeps_of_pair (by assumption) ?_)
    | (with_reducible refine keeps_of_opt (by assumption) ?_)
    | dsimp only)

theorem keeps_enterRecovery {u : State} (c : Nat) {s : State} (h : Keeps u s) :
 Keeps u (enterRecovery c s) := by
  unfold enterRecovery
  repeat' (first
    | with_reducible assumption
    | with_reducible apply keeps_enterMode
    | with_reducible apply keeps_stopped
    | with_reducible apply keeps_fabricStopped
    | intro _
    | with_reducible apply keeps_ite
    | split
    | (with_reducible refine keeps_of_pair (by assumption) ?_)
    | (with_reducible refine keeps_of_opt (by assumption) ?_)
    | dsimp only)

theorem keeps_allRegionsOn {u : State} {s : State} (h : Keeps u s) :
 Keeps u (allRegionsOn s) := by
  unfold allRegionsOn
  repeat' (first
    | with_reducible assumption
    | with_reducible apply keeps_mdRgn
    | with_reducible apply keeps_unfenceRegion
    | with_reducible apply keeps_foldl
    | with_reducible apply keeps_foldl_snd
    | intro _
    | with_reducible apply keeps_ite
    | split
    | (with_reducible refine keeps_of_pair (by assumption) ?_)
    | (with_reducible refine keeps_of_opt (by assumption) ?_)
    | dsimp only)

theorem keeps_enterLoad {u : State} (k : LoadKind) {s : State} (h : Keeps u s) :
 Keeps u (enterLoad k s) := by
  unfold enterLoad
  repeat' (first
    | with_reducible assumption
    | with_reducible apply keeps_setDev
    | with_reducible apply keeps_setPwr
    | with_reducible apply keeps_enterMode
    | with_reducible apply keeps_setPhase
    | intro _
    | with_reducible apply keeps_ite
    | split
    | (with_reducible refine keeps_of_pair (by assumption) ?_)
    | (with_reducible refine keeps_of_opt (by assumption) ?_)
    | dsimp only)

theorem keeps_bootInto {u : State} (k : LoadKind) (b : Bool) {s : State} (h : Keeps u s) :
 Keeps u (bootInto k b s) := by
  unfold bootInto
  repeat' (first
    | with_reducible assumption
    | with_reducible apply keeps_setStore
    | with_reducible apply keeps_setUpd
    | with_reducible apply keeps_setFwBanks
    | with_reducible apply keeps_allRegionsOn
    | with_reducible apply keeps_enterLoad
    | intro _
    | with_reducible apply keeps_ite
    | split
    | (with_reducible refine keeps_of_pair (by assumption) ?_)
    | (with_reducible refine keeps_of_opt (by assumption) ?_)
    | dsimp only)

theorem keeps_ringStraps {u : State} {s : State} (h : Keeps u s) :
 Keeps u (ringStraps s) := by
  unfold ringStraps
  repeat' (first
    | with_reducible assumption
    | with_reducible apply keeps_wrf
    | intro _
    | with_reducible apply keeps_ite
    | split
    | (with_reducible refine keeps_of_pair (by assumption) ?_)
    | (with_reducible refine keeps_of_opt (by assumption) ?_)
    | dsimp only)

theorem keeps_applyStraps {u : State} {s : State} (h : Keeps u s) :
 Keeps u (applyStraps s) := by
  unfold applyStraps
  repeat' (first
    | with_reducible assumption
    | with_reducible apply keeps_wrf
    | with_reducible apply keeps_decideQuality
    | with_reducible apply keeps_ringStraps
    | intro _
    | with_reducible apply keeps_ite
    | split
    | (with_reducible refine keeps_of_pair (by assumption) ?_)
    | (with_reducible refine keeps_of_opt (by assumption) ?_)
    | dsimp only)

theorem keeps_fuseMacs {u : State} {s : State} (h : Keeps u s) :
 Keeps u (fuseMacs s) := by
  unfold fuseMacs
  repeat' (first
    | with_reducible assumption
    | with_reducible apply keeps_wr
    | with_reducible apply keeps_foldl
    | with_reducible apply keeps_foldl_snd
    | intro _
    | with_reducible apply keeps_ite
    | split
    | (with_reducible refine keeps_of_pair (by assumption) ?_)
    | (with_reducible refine keeps_of_opt (by assumption) ?_)
    | dsimp only)

theorem keeps_strapSampling {u : State} (pins : BitVec 15) {s : State} (h : Keeps u s) :
 Keeps u (strapSampling pins s) := by
  unfold strapSampling
  repeat' (first
    | with_reducible assumption
    | with_reducible apply keeps_setDev
    | with_reducible apply keeps_loadPointer
    | with_reducible apply keeps_stamp
    | with_reducible apply keeps_freshStartup
    | with_reducible apply keeps_stopped
    | with_reducible apply keeps_unlisted
    | with_reducible apply keeps_enterRecovery
    | with_reducible apply keeps_bootInto
    | with_reducible apply keeps_applyStraps
    | with_reducible apply keeps_fuseMacs
    | intro _
    | with_reducible apply keeps_ite
    | split
    | (with_reducible refine keeps_of_pair (by assumption) ?_)
    | (with_reducible refine keeps_of_opt (by assumption) ?_)
    | dsimp only)

theorem keeps_execStrapSampling {u : State} (pins : BitVec 15) {s : State} (h : Keeps u s) :
 KeepsOut u (execStrapSampling pins s) := by
  unfold execStrapSampling
  repeat' (first
    | with_reducible assumption
    | with_reducible apply keeps_strapSampling
    | with_reducible apply keepsOut_next
    | intro _
    | with_reducible apply keepsOut_ite
    | with_reducible apply keeps_ite
    | split
    | (with_reducible refine keeps_of_pair (by assumption) ?_)
    | (with_reducible refine keeps_of_opt (by assumption) ?_)
    | dsimp only)

theorem keeps_execStrapSafePins {u : State} (pins : BitVec 2) {s : State} (h : Keeps u s) :
 KeepsOut u (execStrapSafePins pins s) := by
  unfold execStrapSafePins
  repeat' (first
    | with_reducible assumption
    | with_reducible apply keeps_setDev
    | with_reducible apply keepsOut_next
    | intro _
    | with_reducible apply keepsOut_ite
    | with_reducible apply keeps_ite
    | split
    | (with_reducible refine keeps_of_pair (by assumption) ?_)
    | (with_reducible refine keeps_of_opt (by assumption) ?_)
    | dsimp only)

theorem keeps_putEff {u : State} {s : State} (h : Keeps u s) :
 Keeps u (putEff s) := by
  unfold putEff
  repeat' (first
    | with_reducible assumption
    | with_reducible apply keeps_wr
    | intro _
    | with_reducible apply keeps_ite
    | split
    | (with_reducible refine keeps_of_pair (by assumption) ?_)
    | (with_reducible refine keeps_of_opt (by assumption) ?_)
    | dsimp only)

theorem keeps_beginRelease {u : State} {s : State} (h : Keeps u s) :
 Keeps u (beginRelease s) := by
  unfold beginRelease
  repeat' (first
    | with_reducible assumption
    | with_reducible apply keeps_setDev
    | with_reducible apply keeps_enterMode
    | with_reducible apply keeps_release
    | with_reducible apply keeps_powerOff
    | with_reducible apply keeps_setPhase
    | with_reducible apply keeps_putEff
    | with_reducible apply keeps_foldl
    | with_reducible apply keeps_foldl_snd
    | intro _
    | with_reducible apply keeps_ite
    | split
    | (with_reducible refine keeps_of_pair (by assumption) ?_)
    | (with_reducible refine keeps_of_opt (by assumption) ?_)
    | dsimp only)

theorem keeps_resetSet {u : State} {s : State} (h : Keeps u s) :
 Keeps u (resetSet s) := by
  unfold resetSet
  repeat' (first
    | with_reducible assumption
    | with_reducible apply keeps_swapState
    | with_reducible apply keeps_disarmSet
    | with_reducible apply keeps_abortSet
    | with_reducible apply keeps_foldl
    | with_reducible apply keeps_foldl_snd
    | intro _
    | with_reducible apply keeps_ite
    | split
    | (with_reducible refine keeps_of_pair (by assumption) ?_)
    | (with_reducible refine keeps_of_opt (by assumption) ?_)
    | dsimp only)

theorem keeps_clearAllStatus {u : State} {s : State} (h : Keeps u s) :
 Keeps u (clearAllStatus s) := by
  unfold clearAllStatus
  repeat' (first
    | with_reducible assumption
    | with_reducible apply keeps_setTime
    | with_reducible apply keeps_wrf
    | with_reducible apply keeps_clearStatus
    | with_reducible apply keeps_clearHistories
    | with_reducible apply keeps_foldl
    | with_reducible apply keeps_foldl_snd
    | intro _
    | with_reducible apply keeps_ite
    | split
    | (with_reducible refine keeps_of_pair (by assumption) ?_)
    | (with_reducible refine keeps_of_opt (by assumption) ?_)
    | dsimp only)

theorem keeps_agentGone {u : State} {s : State} (h : Keeps u s) :
 Keeps u (agentGone s) := by
  unfold agentGone
  repeat' (first
    | with_reducible assumption
    | with_reducible apply keeps_setDma
    | with_reducible apply keeps_svcReply
    | intro _
    | with_reducible apply keeps_ite
    | split
    | (with_reducible refine keeps_of_pair (by assumption) ?_)
    | (with_reducible refine keeps_of_opt (by assumption) ?_)
    | dsimp only)

theorem keeps_discardWork {u : State} {s : State} (h : Keeps u s) :
 Keeps u (discardWork s) := by
  unfold discardWork
  repeat' (first
    | with_reducible assumption
    | with_reducible apply keeps_setDma
    | with_reducible apply keeps_schedSoftReset
    | with_reducible apply keeps_dmaReset
    | with_reducible apply keeps_agentGone
    | with_reducible apply keeps_foldl
    | with_reducible apply keeps_foldl_snd
    | intro _
    | with_reducible apply keeps_ite
    | split
    | (with_reducible refine keeps_of_pair (by assumption) ?_)
    | (with_reducible refine keeps_of_opt (by assumption) ?_)
    | dsimp only)

theorem keeps_clearWatchdog {u : State} {s : State} (h : Keeps u s) :
 Keeps u (clearWatchdog s) := by
  unfold clearWatchdog
  repeat' (first
    | with_reducible assumption
    | with_reducible apply keeps_wrf
    | intro _
    | with_reducible apply keeps_ite
    | split
    | (with_reducible refine keeps_of_pair (by assumption) ?_)
    | (with_reducible refine keeps_of_opt (by assumption) ?_)
    | dsimp only)

theorem keeps_rerunRelease {u : State} (cause : Nat) {s : State} (h : Keeps u s) :
 Keeps u (rerunRelease cause s) := by
  unfold rerunRelease
  repeat' (first
    | with_reducible assumption
    | with_reducible apply keeps_setDev
    | with_reducible apply keeps_wrf
    | with_reducible apply keeps_enterMode
    | with_reducible apply keeps_release
    | with_reducible apply keeps_assertGsr
    | with_reducible apply keeps_setCause
    | with_reducible apply keeps_dropEntry
    | with_reducible apply keeps_putEff
    | with_reducible apply keeps_resetSet
    | with_reducible apply keeps_clearAllStatus
    | with_reducible apply keeps_discardWork
    | with_reducible apply keeps_clearWatchdog
    | with_reducible apply keeps_foldl
    | with_reducible apply keeps_foldl_snd
    | intro _
    | with_reducible apply keeps_ite
    | split
    | (with_reducible refine keeps_of_pair (by assumption) ?_)
    | (with_reducible refine keeps_of_opt (by assumption) ?_)
    | dsimp only)

theorem rising_foldl_tins (l : SMap Word) (m : SMap Word) (h : rising m = true) :
    rising (l.foldl (fun m e => tins e.1 e.2 m) m) = true := by
  induction l generalizing m with
  | nil => exact h
  | cons a r ih => exact ih _ (rising_tins _ _ _ h)

theorem keeps_restartState {u : State} {s : State} (h : Keeps u s) : Keeps u (restartState s) := by
  refine keeps_rebuild (s := coldState true s) rfl rfl (fun hr => ?_) (keeps_coldState true h)
  exact rising_foldl_tins _ _ hr

theorem keeps_restartSafe {u : State} (cause : Nat) {s : State} (h : Keeps u s) :
 Keeps u (restartSafe cause s) := by
  unfold restartSafe
  repeat' (first
    | with_reducible assumption
    | with_reducible apply keeps_wrf
    | with_reducible apply keeps_loadPointer
    | with_reducible apply keeps_setCause
    | with_reducible apply keeps_freshStartup
    | with_reducible apply keeps_enterRecovery
    | with_reducible apply keeps_bootInto
    | with_reducible apply keeps_fuseMacs
    | with_reducible apply keeps_restartState
    | intro _
    | with_reducible apply keeps_ite
    | split
    | (with_reducible refine keeps_of_pair (by assumption) ?_)
    | (with_reducible refine keeps_of_opt (by assumption) ?_)
    | dsimp only)

theorem keeps_deviceReset {u : State} (cause : Nat) {s : State} (h : Keeps u s) :
 Keeps u (deviceReset cause s) := by
  unfold deviceReset
  repeat' (first
    | with_reducible assumption
    | with_reducible apply keeps_setDev
    | with_reducible apply keeps_ignored
    | with_reducible apply keeps_rerunRelease
    | with_reducible apply keeps_restartSafe
    | intro _
    | with_reducible apply keeps_ite
    | split
    | (with_reducible refine keeps_of_pair (by assumption) ?_)
    | (with_reducible refine keeps_of_opt (by assumption) ?_)
    | dsimp only)

theorem keeps_execHostSoftReset {u : State} (rq : Requester) {s : State} (h : Keeps u s) :
 KeepsOut u (execHostSoftReset rq s) := by
  unfold execHostSoftReset
  repeat' (first
    | with_reducible assumption
    | with_reducible apply keeps_onPage
    | with_reducible apply keeps_deviceReset
    | with_reducible apply keepsOut_next
    | intro _
    | with_reducible apply keepsOut_ite
    | with_reducible apply keeps_ite
    | split
    | (with_reducible refine keeps_of_pair (by assumption) ?_)
    | (with_reducible refine keeps_of_opt (by assumption) ?_)
    | dsimp only)

theorem keeps_execSwapRelease {u : State} (r : RegionId) {s : State} (h : Keeps u s) :
 KeepsOut u (execSwapRelease r s) := by
  unfold execSwapRelease
  repeat' (first
    | with_reducible assumption
    | with_reducible apply keeps_setDev
    | with_reducible apply keeps_swapRelease
    | with_reducible apply keeps_deviceReset
    | with_reducible apply keepsOut_next
    | intro _
    | with_reducible apply keepsOut_ite
    | with_reducible apply keeps_ite
    | split
    | (with_reducible refine keeps_of_pair (by assumption) ?_)
    | (with_reducible refine keeps_of_opt (by assumption) ?_)
    | dsimp only)

theorem keeps_powerUpLoadDone {u : State} {s : State} (h : Keeps u s) :
 Keeps u (powerUpLoadDone s) := by
  unfold powerUpLoadDone
  repeat' (first
    | with_reducible assumption
    | with_reducible apply keeps_loadIoRecord
    | with_reducible apply keeps_beginSelftest
    | with_reducible apply keeps_loadBoot
    | with_reducible apply keeps_loadAll
    | with_reducible apply keeps_stamp
    | with_reducible apply keeps_stopSafe
    | with_reducible apply keeps_unlisted
    | intro _
    | with_reducible apply keeps_ite
    | split
    | (with_reducible refine keeps_of_pair (by assumption) ?_)
    | (with_reducible refine keeps_of_opt (by assumption) ?_)
    | dsimp only)

theorem keeps_execPowerUpLoadDone {u : State} {s : State} (h : Keeps u s) :
 KeepsOut u (execPowerUpLoadDone s) := by
  unfold execPowerUpLoadDone
  repeat' (first
    | with_reducible assumption
    | with_reducible apply keeps_powerUpLoadDone
    | with_reducible apply keepsOut_next
    | intro _
    | with_reducible apply keepsOut_ite
    | with_reducible apply keeps_ite
    | split
    | (with_reducible refine keeps_of_pair (by assumption) ?_)
    | (with_reducible refine keeps_of_opt (by assumption) ?_)
    | dsimp only)

theorem keeps_afterTest {u : State} {s : State} (h : Keeps u s) : Keeps u (afterTest s) := by
  unfold afterTest
  exact keeps_foldl (fun t r ht => keeps_assertGsr _ _ ht) _ (keeps_setBanks _ (fun _ => ⟨rfl, rfl⟩) h)

theorem keeps_selftestDone {u : State} {s : State} (h : Keeps u s) :
 Keeps u (selftestDone s) := by
  unfold selftestDone
  repeat' (first
    | with_reducible assumption
    | with_reducible apply keeps_setDev
    | with_reducible apply keeps_enterMode
    | with_reducible apply keeps_putVerdicts
    | with_reducible apply keeps_stamp
    | with_reducible apply keeps_stopped
    | with_reducible apply keeps_stopSafe
    | with_reducible apply keeps_unlisted
    | with_reducible apply keeps_beginRelease
    | with_reducible apply keeps_afterTest
    | intro _
    | with_reducible apply keeps_ite
    | split
    | (with_reducible refine keeps_of_pair (by assumption) ?_)
    | (with_reducible refine keeps_of_opt (by assumption) ?_)
    | dsimp only)

theorem keeps_execSelftestDone {u : State} {s : State} (h : Keeps u s) :
 KeepsOut u (execSelftestDone s) := by
  unfold execSelftestDone
  repeat' (first
    | with_reducible assumption
    | with_reducible apply keeps_selftestDone
    | with_reducible apply keepsOut_next
    | intro _
    | with_reducible apply keepsOut_ite
    | with_reducible apply keeps_ite
    | split
    | (with_reducible refine keeps_of_pair (by assumption) ?_)
    | (with_reducible refine keeps_of_opt (by assumption) ?_)
    | dsimp only)

theorem keeps_releaseDone {u : State} {s : State} (h : Keeps u s) :
 Keeps u (releaseDone s) := by
  unfold releaseDone
  repeat' (first
    | with_reducible assumption
    | with_reducible apply keeps_setDev
    | with_reducible apply keeps_wrf
    | with_reducible apply keeps_setPhase
    | with_reducible apply keeps_stamp
    | intro _
    | with_reducible apply keeps_ite
    | split
    | (with_reducible refine keeps_of_pair (by assumption) ?_)
    | (with_reducible refine keeps_of_opt (by assumption) ?_)
    | dsimp only)

theorem keeps_leaveHare {u : State} {s : State} (h : Keeps u s) :
 Keeps u (leaveHare s) := by
  unfold leaveHare
  repeat' (first
    | with_reducible assumption
    | with_reducible apply keeps_setPwr
    | with_reducible apply keeps_rcCheck
    | with_reducible apply keeps_takeAll
    | with_reducible apply keeps_lockAll
    | with_reducible apply keeps_foldl
    | with_reducible apply keeps_foldl_snd
    | intro _
    | with_reducible apply keeps_ite
    | split
    | (with_reducible refine keeps_of_pair (by assumption) ?_)
    | (with_reducible refine keeps_of_opt (by assumption) ?_)
    | dsimp only)

theorem keeps_lockDone {u : State} (linear : Bool) (exponent : BitVec 5) (retried : Bool) {s : State} (h : Keeps u s) :
 Keeps u (lockDone linear exponent retried s) := by
  unfold lockDone
  repeat' (first
    | with_reducible assumption
    | with_reducible apply keeps_wrf
    | with_reducible apply keeps_release
    | with_reducible apply keeps_voutSend
    | with_reducible apply keeps_setVouts
    | with_reducible apply keeps_setChange
    | with_reducible apply keeps_loadClockRecord
    | with_reducible apply keeps_stamp
    | with_reducible apply keeps_stopSafe
    | with_reducible apply keeps_unlisted
    | with_reducible apply keeps_releaseDone
    | with_reducible apply keeps_leaveHare
    | intro _
    | with_reducible apply keeps_ite
    | split
    | (with_reducible refine keeps_of_pair (by assumption) ?_)
    | (with_reducible refine keeps_of_opt (by assumption) ?_)
    | dsimp only)

theorem keeps_execStartupLockDone {u : State} (linear : Bool) (exponent : BitVec 5) (retried : Bool) {s : State} (h : Keeps u s) :
 KeepsOut u (execStartupLockDone linear exponent retried s) := by
  unfold execStartupLockDone
  repeat' (first
    | with_reducible assumption
    | with_reducible apply keeps_lockDone
    | with_reducible apply keepsOut_next
    | intro _
    | with_reducible apply keepsOut_ite
    | with_reducible apply keeps_ite
    | split
    | (with_reducible refine keeps_of_pair (by assumption) ?_)
    | (with_reducible refine keeps_of_opt (by assumption) ?_)
    | dsimp only)

theorem keeps_doneSeenHigh {u : State} {s : State} (h : Keeps u s) :
 Keeps u (doneSeenHigh s) := by
  unfold doneSeenHigh
  repeat' (first
    | with_reducible assumption
    | with_reducible apply keeps_setDev
    | with_reducible apply keeps_setIo
    | with_reducible apply keeps_wrf
    | with_reducible apply keeps_release
    | with_reducible apply keeps_stamp
    | intro _
    | with_reducible apply keeps_ite
    | split
    | (with_reducible refine keeps_of_pair (by assumption) ?_)
    | (with_reducible refine keeps_of_opt (by assumption) ?_)
    | dsimp only)

theorem keeps_execDoneSeenHigh {u : State} {s : State} (h : Keeps u s) :
 KeepsOut u (execDoneSeenHigh s) := by
  unfold execDoneSeenHigh
  repeat' (first
    | with_reducible assumption
    | with_reducible apply keeps_doneSeenHigh
    | with_reducible apply keepsOut_next
    | intro _
    | with_reducible apply keepsOut_ite
    | with_reducible apply keeps_ite
    | split
    | (with_reducible refine keeps_of_pair (by assumption) ?_)
    | (with_reducible refine keeps_of_opt (by assumption) ?_)
    | dsimp only)

theorem keeps_doneFall {u : State} {s : State} (h : Keeps u s) :
 Keeps u (doneFall s) := by
  unfold doneFall
  repeat' (first
    | with_reducible assumption
    | with_reducible apply keeps_setIo
    | with_reducible apply keeps_md
    | intro _
    | with_reducible apply keeps_ite
    | split
    | (with_reducible refine keeps_of_pair (by assumption) ?_)
    | (with_reducible refine keeps_of_opt (by assumption) ?_)
    | dsimp only)

theorem keeps_execDoneFall {u : State} {s : State} (h : Keeps u s) :
 KeepsOut u (execDoneFall s) := by
  unfold execDoneFall
  repeat' (first
    | with_reducible assumption
    | with_reducible apply keeps_doneFall
    | with_reducible apply keepsOut_next
    | intro _
    | with_reducible apply keepsOut_ite
    | with_reducible apply keeps_ite
    | split
    | (with_reducible refine keeps_of_pair (by assumption) ?_)
    | (with_reducible refine keeps_of_opt (by assumption) ?_)
    | dsimp only)

theorem keeps_enterRun {u : State} {s : State} (h : Keeps u s) :
 Keeps u (enterRun s) := by
  unfold enterRun
  repeat' (first
    | with_reducible assumption
    | with_reducible apply keeps_setDev
    | with_reducible apply keeps_wr
    | with_reducible apply keeps_irq
    | with_reducible apply keeps_enterMode
    | with_reducible apply keeps_resumeUpdate
    | with_reducible apply keeps_rearmUpdate
    | with_reducible apply keeps_setPhase
    | with_reducible apply keeps_stamp
    | with_reducible apply keeps_deviceReset
    | intro _
    | with_reducible apply keeps_ite
    | split
    | (with_reducible refine keeps_of_pair (by assumption) ?_)
    | (with_reducible refine keeps_of_opt (by assumption) ?_)
    | dsimp only)

theorem keeps_releaseStep {u : State} {s : State} (h : Keeps u s) :
 Keeps u (releaseStep s) := by
  unfold releaseStep
  repeat' (first
    | with_reducible assumption
    | with_reducible apply keeps_setDev
    | with_reducible apply keeps_release
    | with_reducible apply keeps_setPhase
    | with_reducible apply keeps_unlisted
    | with_reducible apply keeps_enterRun
    | intro _
    | with_reducible apply keeps_ite
    | split
    | (with_reducible refine keeps_of_pair (by assumption) ?_)
    | (with_reducible refine keeps_of_opt (by assumption) ?_)
    | dsimp only)

theorem keeps_execReleaseStep {u : State} {s : State} (h : Keeps u s) :
 KeepsOut u (execReleaseStep s) := by
  unfold execReleaseStep
  repeat' (first
    | with_reducible assumption
    | with_reducible apply keeps_releaseStep
    | with_reducible apply keepsOut_next
    | intro _
    | with_reducible apply keepsOut_ite
    | with_reducible apply keeps_ite
    | split
    | (with_reducible refine keeps_of_pair (by assumption) ?_)
    | (with_reducible refine keeps_of_opt (by assumption) ?_)
    | dsimp only)

theorem keeps_cmdContinue {u : State} (rq : Requester) {s : State} (h : Keeps u s) :
 Keeps u (cmdContinue rq s) := by
  unfold cmdContinue
  repeat' (first
    | with_reducible assumption
    | with_reducible apply keeps_ignored
    | with_reducible apply keeps_beginRelease
    | intro _
    | with_reducible apply keeps_ite
    | split
    | (with_reducible refine keeps_of_pair (by assumption) ?_)
    | (with_reducible refine keeps_of_opt (by assumption) ?_)
    | dsimp only)

theorem keeps_execContinueCmd {u : State} (rq : Requester) {s : State} (h : Keeps u s) :
 KeepsOut u (execContinueCmd rq s) := by
  unfold execContinueCmd
  repeat' (first
    | with_reducible assumption
    | with_reducible apply keeps_onPage
    | with_reducible apply keeps_cmdContinue
    | with_reducible apply keepsOut_next
    | intro _
    | with_reducible apply keepsOut_ite
    | with_reducible apply keeps_ite
    | split
    | (with_reducible refine keeps_of_pair (by assumption) ?_)
    | (with_reducible refine keeps_of_opt (by assumption) ?_)
    | dsimp only)

theorem keeps_enterSafe {u : State} {s : State} (h : Keeps u s) :
 Keeps u (enterSafe s) := by
  unfold enterSafe
  repeat' (first
    | with_reducible assumption
    | with_reducible apply keeps_setDev
    | with_reducible apply keeps_enterMode
    | with_reducible apply keeps_fabricStopped
    | intro _
    | with_reducible apply keeps_ite
    | split
    | (with_reducible refine keeps_of_pair (by assumption) ?_)
    | (with_reducible refine keeps_of_opt (by assumption) ?_)
    | dsimp only)

theorem keeps_cmdEnterSafe {u : State} (rq : Requester) {s : State} (h : Keeps u s) :
 Keeps u (cmdEnterSafe rq s) := by
  unfold cmdEnterSafe
  repeat' (first
    | with_reducible assumption
    | with_reducible apply keeps_ignored
    | with_reducible apply keeps_enterSafe
    | intro _
    | with_reducible apply keeps_ite
    | split
    | (with_reducible refine keeps_of_pair (by assumption) ?_)
    | (with_reducible refine keeps_of_opt (by assumption) ?_)
    | dsimp only)

theorem keeps_execEnterSafe {u : State} (rq : Requester) {s : State} (h : Keeps u s) :
 KeepsOut u (execEnterSafe rq s) := by
  unfold execEnterSafe
  repeat' (first
    | with_reducible assumption
    | with_reducible apply keeps_onPage
    | with_reducible apply keeps_cmdEnterSafe
    | with_reducible apply keepsOut_next
    | intro _
    | with_reducible apply keepsOut_ite
    | with_reducible apply keeps_ite
    | split
    | (with_reducible refine keeps_of_pair (by assumption) ?_)
    | (with_reducible refine keeps_of_opt (by assumption) ?_)
    | dsimp only)

theorem keeps_cmdReboot {u : State} (rq : Requester) {s : State} (h : Keeps u s) :
 Keeps u (cmdReboot rq s) := by
  unfold cmdReboot
  repeat' (first
    | with_reducible assumption
    | with_reducible apply keeps_setDev
    | with_reducible apply keeps_enterMode
    | with_reducible apply keeps_ignored
    | with_reducible apply keeps_freshStartup
    | intro _
    | with_reducible apply keeps_ite
    | split
    | (with_reducible refine keeps_of_pair (by assumption) ?_)
    | (with_reducible refine keeps_of_opt (by assumption) ?_)
    | dsimp only)

theorem keeps_execReboot {u : State} (rq : Requester) {s : State} (h : Keeps u s) :
 KeepsOut u (execReboot rq s) := by
  unfold execReboot
  repeat' (first
    | with_reducible assumption
    | with_reducible apply keeps_onPage
    | with_reducible apply keeps_cmdReboot
    | with_reducible apply keepsOut_next
    | intro _
    | with_reducible apply keepsOut_ite
    | with_reducible apply keeps_ite
    | split
    | (with_reducible refine keeps_of_pair (by assumption) ?_)
    | (with_reducible refine keeps_of_opt (by assumption) ?_)
    | dsimp only)

theorem keeps_scan {u : State} {s : State} (h : Keeps u s) :
 Keeps u (scan s) := by
  unfold scan
  repeat' (first
    | with_reducible assumption
    | with_reducible apply keeps_setFox
    | with_reducible apply keeps_setUpd
    | with_reducible apply keeps_setWpk
    | with_reducible apply keeps_setIo
    | with_reducible apply keeps_wrf
    | with_reducible apply keeps_zeroiseKeys
    | with_reducible apply keeps_unlisted
    | intro _
    | with_reducible apply keeps_ite
    | split
    | (with_reducible refine keeps_of_pair (by assumption) ?_)
    | (with_reducible refine keeps_of_opt (by assumption) ?_)
    | dsimp only)

theorem keeps_execScan {u : State} {s : State} (h : Keeps u s) :
 KeepsOut u (execScan s) := by
  unfold execScan
  repeat' (first
    | with_reducible assumption
    | with_reducible apply keeps_scan
    | with_reducible apply keepsOut_next
    | intro _
    | with_reducible apply keepsOut_ite
    | with_reducible apply keeps_ite
    | split
    | (with_reducible refine keeps_of_pair (by assumption) ?_)
    | (with_reducible refine keeps_of_opt (by assumption) ?_)
    | dsimp only)

theorem keeps_zeroised {u : State} {s : State} (h : Keeps u s) :
 Keeps u (zeroised s) := by
  unfold zeroised
  repeat' (first
    | with_reducible assumption
    | with_reducible apply keeps_setWpk
    | with_reducible apply keeps_wrf
    | with_reducible apply keeps_enterMode
    | with_reducible apply keeps_fabricStopped
    | with_reducible apply keeps_unlisted
    | with_reducible apply keeps_scan
    | intro _
    | with_reducible apply keeps_ite
    | split
    | (with_reducible refine keeps_of_pair (by assumption) ?_)
    | (with_reducible refine keeps_of_opt (by assumption) ?_)
    | dsimp only)

theorem keeps_execZeroisationDone {u : State} {s : State} (h : Keeps u s) :
 KeepsOut u (execZeroisationDone s) := by
  unfold execZeroisationDone
  repeat' (first
    | with_reducible assumption
    | with_reducible apply keeps_zeroised
    | with_reducible apply keepsOut_next
    | intro _
    | with_reducible apply keepsOut_ite
    | with_reducible apply keeps_ite
    | split
    | (with_reducible refine keeps_of_pair (by assumption) ?_)
    | (with_reducible refine keeps_of_opt (by assumption) ?_)
    | dsimp only)

end Sys2Proof.Machine
end

