-- ==== Sys2Proof/Laws/KeepsSleep.lean ====
section
/-! SUPPORT. Every operation of Machine/Sleep.lean keeps (Laws/Keeps.lean). -/
set_option linter.unusedTactic false
set_option linter.unreachableTactic false
set_option linter.unusedVariables false

namespace Sys2Proof.Machine

open Sys2Proof

theorem keeps_viewDrawn {u : State} {s : State} (h : Keeps u s) :
 Keeps u (viewDrawn s) := by
  unfold viewDrawn
  repeat' (first
    | with_reducible assumption
    | with_reducible apply keeps_setFree
    | intro _
    | with_reducible apply keeps_ite
    | split
    | (with_reducible refine keeps_of_pair (by assumption) ?_)
    | (with_reducible refine keeps_of_opt (by assumption) ?_)
    | dsimp only)

theorem keeps_latchPads {u : State} {s : State} (h : Keeps u s) :
 Keeps u (latchPads s) := by
  unfold latchPads
  repeat' (first
    | with_reducible assumption
    | with_reducible apply keeps_setIo
    | with_reducible apply keeps_wr
    | with_reducible apply keeps_viewDrawn
    | with_reducible apply keeps_foldl
    | with_reducible apply keeps_foldl_snd
    | intro _
    | with_reducible apply keeps_ite
    | split
    | (with_reducible refine keeps_of_pair (by assumption) ?_)
    | (with_reducible refine keeps_of_opt (by assumption) ?_)
    | dsimp only)

theorem keeps_unlatch {u : State} (b : Nat) {s : State} (h : Keeps u s) :
 Keeps u (unlatch b s) := by
  unfold unlatch
  repeat' (first
    | with_reducible assumption
    | with_reducible apply keeps_setIo
    | with_reducible apply keeps_wr
    | intro _
    | with_reducible apply keeps_ite
    | split
    | (with_reducible refine keeps_of_pair (by assumption) ?_)
    | (with_reducible refine keeps_of_opt (by assumption) ?_)
    | dsimp only)

theorem keeps_holdRelease {u : State} (b : Nat) {s : State} (h : Keeps u s) :
 Keeps u (holdRelease b s) := by
  unfold holdRelease
  repeat' (first
    | with_reducible assumption
    | with_reducible apply keeps_permFault
    | with_reducible apply keeps_unlatch
    | intro _
    | with_reducible apply keeps_ite
    | split
    | (with_reducible refine keeps_of_pair (by assumption) ?_)
    | (with_reducible refine keeps_of_opt (by assumption) ?_)
    | dsimp only)

theorem keeps_execHoldRelease {u : State} (rq : Requester) (b : IobId) {s : State} (h : Keeps u s) :
 KeepsOut u (execHoldRelease rq b s) := by
  unfold execHoldRelease
  repeat' (first
    | with_reducible assumption
    | with_reducible apply keeps_onPage
    | with_reducible apply keeps_holdRelease
    | with_reducible apply keepsOut_next
    | intro _
    | with_reducible apply keepsOut_ite
    | with_reducible apply keeps_ite
    | split
    | (with_reducible refine keeps_of_pair (by assumption) ?_)
    | (with_reducible refine keeps_of_opt (by assumption) ?_)
    | dsimp only)

theorem keeps_entryEnded {u : State} (state : Nat) (aborted : Bool) (refuser : Nat) {s : State} (h : Keeps u s) :
 Keeps u (entryEnded state aborted refuser s) := by
  unfold entryEnded
  repeat' (first
    | with_reducible assumption
    | with_reducible apply keeps_wr
    | with_reducible apply keeps_count
    | with_reducible apply keeps_irq
    | with_reducible apply keeps_err
    | intro _
    | with_reducible apply keeps_ite
    | split
    | (with_reducible refine keeps_of_pair (by assumption) ?_)
    | (with_reducible refine keeps_of_opt (by assumption) ?_)
    | dsimp only)

theorem keeps_freezeTime {u : State} {s : State} (h : Keeps u s) :
 Keeps u (freezeTime s) := by
  unfold freezeTime
  repeat' (first
    | with_reducible assumption
    | with_reducible apply keeps_setTime
    | with_reducible apply keeps_wr
    | with_reducible apply keeps_drawn
    | intro _
    | with_reducible apply keeps_ite
    | split
    | (with_reducible refine keeps_of_pair (by assumption) ?_)
    | (with_reducible refine keeps_of_opt (by assumption) ?_)
    | dsimp only)

theorem keeps_missSnap {u : State} (armed : Bool) {s : State} (h : Keeps u s) :
 Keeps u (missSnap armed s) := by
  unfold missSnap
  repeat' (first
    | with_reducible assumption
    | with_reducible apply keeps_md
    | intro _
    | with_reducible apply keeps_ite
    | split
    | (with_reducible refine keeps_of_pair (by assumption) ?_)
    | (with_reducible refine keeps_of_opt (by assumption) ?_)
    | dsimp only)

theorem keeps_sleepStatus {u : State} {s : State} (h : Keeps u s) :
 Keeps u (sleepStatus s) := by
  unfold sleepStatus
  repeat' (first
    | with_reducible assumption
    | with_reducible apply keeps_wr
    | with_reducible apply keeps_mdRgn
    | with_reducible apply keeps_invalidateStage
    | with_reducible apply keeps_schedClear
    | with_reducible apply keeps_clearAllStatus
    | with_reducible apply keeps_clearWatchdog
    | with_reducible apply keeps_latchPads
    | with_reducible apply keeps_freezeTime
    | with_reducible apply keeps_missSnap
    | with_reducible apply keeps_foldl
    | with_reducible apply keeps_foldl_snd
    | intro _
    | with_reducible apply keeps_ite
    | split
    | (with_reducible refine keeps_of_pair (by assumption) ?_)
    | (with_reducible refine keeps_of_opt (by assumption) ?_)
    | dsimp only)

theorem keeps_sleepBlocks {u t : State} (keep : BitVec 64) (h : Keeps u t) :
    Keeps u (t |> setNet (keepChannels t.net) |> setFab Fabric.reset |> setMacs [] |> setLogic Logic.reset
      |> setBanks (sleepBanks keep t.banks) |> setDma Dma.reset |> setRing RingPort.reset
      |> setIo { t.io with qspi := [], qspiWait := none, qspiDropped := false, msixEnable := false, msixMask := false }
      |> enterMode .sleep) := by
  refine keeps_enterMode _ (keeps_setIo _ (keeps_setRing _ (keeps_setDma _ ?_)))
  refine keeps_setBanks_filter _ (fun e => inMask keep (e.1 / 8192 / 16)) rfl ?_
  exact keeps_setLogic _ (keeps_setMacs _ (keeps_setFab _ (keeps_setNet _ h)))

theorem keeps_intoSleep {u : State} {s : State} (h : Keeps u s) : Keeps u (intoSleep s) := by
  unfold intoSleep
  exact keeps_sleepBlocks _ (keeps_sleepStatus h)

theorem rising_bearRegs (m : SMap Word) (h : rising m = true) : rising (bearRegs m) = true :=
  rising_filterMap _ (fun e y he => by
    dsimp only at he
    split at he
    · cases he
    · cases he; rfl) m h

theorem keeps_bearState {u s t : State} (h : Keeps u t) : Keeps u (bearState s t) :=
  keeps_rebuild (s := t) rfl rfl (rising_bearRegs _) h

theorem keeps_intoBear {u : State} {s : State} (h : Keeps u s) : Keeps u (intoBear s) := by
  unfold intoBear
  have ht := keeps_bearState (s := s) (keeps_freezeTime (keeps_latchPads h))
  have hu := keeps_missSnap s.time.snap.isSome (keeps_clearWatchdog ht)
  exact keeps_enterMode _ (keeps_fuseMacs (keeps_ite (keeps_pmbusSend _ _ hu) hu))

theorem keeps_entryReached {u : State} {s : State} (h : Keeps u s) :
 Keeps u (entryReached s) := by
  unfold entryReached
  repeat' (first
    | with_reducible assumption
    | with_reducible apply keeps_setPwr
    | with_reducible apply keeps_wrf
    | with_reducible apply keeps_enterMode
    | with_reducible apply keeps_intoSleep
    | with_reducible apply keeps_intoBear
    | intro _
    | with_reducible apply keeps_ite
    | split
    | (with_reducible refine keeps_of_pair (by assumption) ?_)
    | (with_reducible refine keeps_of_opt (by assumption) ?_)
    | dsimp only)

theorem keeps_enterState {u : State} (rq : Requester) (state : Nat) (reached : Bool) {s : State} (h : Keeps u s) :
 Keeps u (enterState rq state reached s) := by
  unfold enterState
  repeat' (first
    | with_reducible assumption
    | with_reducible apply keeps_setPwr
    | with_reducible apply keeps_wr
    | with_reducible apply keeps_ignored
    | with_reducible apply keeps_permFault
    | with_reducible apply keeps_entryEnded
    | with_reducible apply keeps_entryReached
    | intro _
    | with_reducible apply keeps_ite
    | split
    | (with_reducible refine keeps_of_pair (by assumption) ?_)
    | (with_reducible refine keeps_of_opt (by assumption) ?_)
    | dsimp only)

theorem keeps_execEnterDoze {u : State} (rq : Requester) (reached : Bool) {s : State} (h : Keeps u s) :
 KeepsOut u (execEnterDoze rq reached s) := by
  unfold execEnterDoze
  repeat' (first
    | with_reducible assumption
    | with_reducible apply keeps_onPage
    | with_reducible apply keeps_enterState
    | with_reducible apply keepsOut_next
    | intro _
    | with_reducible apply keepsOut_ite
    | with_reducible apply keeps_ite
    | split
    | (with_reducible refine keeps_of_pair (by assumption) ?_)
    | (with_reducible refine keeps_of_opt (by assumption) ?_)
    | dsimp only)

theorem keeps_execEnterSleep {u : State} (rq : Requester) (reached : Bool) {s : State} (h : Keeps u s) :
 KeepsOut u (execEnterSleep rq reached s) := by
  unfold execEnterSleep
  repeat' (first
    | with_reducible assumption
    | with_reducible apply keeps_onPage
    | with_reducible apply keeps_enterState
    | with_reducible apply keepsOut_next
    | intro _
    | with_reducible apply keepsOut_ite
    | with_reducible apply keeps_ite
    | split
    | (with_reducible refine keeps_of_pair (by assumption) ?_)
    | (with_reducible refine keeps_of_opt (by assumption) ?_)
    | dsimp only)

theorem keeps_execEnterBear {u : State} (rq : Requester) (reached : Bool) {s : State} (h : Keeps u s) :
 KeepsOut u (execEnterBear rq reached s) := by
  unfold execEnterBear
  repeat' (first
    | with_reducible assumption
    | with_reducible apply keeps_onPage
    | with_reducible apply keeps_enterState
    | with_reducible apply keepsOut_next
    | intro _
    | with_reducible apply keepsOut_ite
    | with_reducible apply keeps_ite
    | split
    | (with_reducible refine keeps_of_pair (by assumption) ?_)
    | (with_reducible refine keeps_of_opt (by assumption) ?_)
    | dsimp only)

theorem keeps_wakeTime {u : State} (tally : Nat) {s : State} (h : Keeps u s) :
 Keeps u (wakeTime tally s) := by
  unfold wakeTime
  repeat' (first
    | with_reducible assumption
    | with_reducible apply keeps_setTime
    | with_reducible apply keeps_wr
    | with_reducible apply keeps_wrf
    | with_reducible apply keeps_irq
    | intro _
    | with_reducible apply keeps_ite
    | split
    | (with_reducible refine keeps_of_pair (by assumption) ?_)
    | (with_reducible refine keeps_of_opt (by assumption) ?_)
    | dsimp only)

theorem keeps_wakeRecorded {u : State} (source reason : Nat) (dur : Word) {s : State} (h : Keeps u s) :
 Keeps u (wakeRecorded source reason dur s) := by
  unfold wakeRecorded
  repeat' (first
    | with_reducible assumption
    | with_reducible apply keeps_wr
    | with_reducible apply keeps_wrf
    | intro _
    | with_reducible apply keeps_ite
    | split
    | (with_reducible refine keeps_of_pair (by assumption) ?_)
    | (with_reducible refine keeps_of_opt (by assumption) ?_)
    | dsimp only)

theorem keeps_wakeSleep {u : State} (tally : Nat) {s : State} (h : Keeps u s) :
 Keeps u (wakeSleep tally s) := by
  unfold wakeSleep
  repeat' (first
    | with_reducible assumption
    | with_reducible apply keeps_setCause
    | with_reducible apply keeps_freshStartup
    | with_reducible apply keeps_enterLoad
    | with_reducible apply keeps_ringStraps
    | with_reducible apply keeps_wakeTime
    | intro _
    | with_reducible apply keeps_ite
    | split
    | (with_reducible refine keeps_of_pair (by assumption) ?_)
    | (with_reducible refine keeps_of_opt (by assumption) ?_)
    | dsimp only)

theorem keeps_wakeBear {u : State} (tally : Nat) {s : State} (h : Keeps u s) :
 Keeps u (wakeBear tally s) := by
  unfold wakeBear
  repeat' (first
    | with_reducible assumption
    | with_reducible apply keeps_wrf
    | with_reducible apply keeps_pmbusSend
    | with_reducible apply keeps_voutSend
    | with_reducible apply keeps_loadPointer
    | with_reducible apply keeps_setCause
    | with_reducible apply keeps_freshStartup
    | with_reducible apply keeps_bootInto
    | with_reducible apply keeps_ringStraps
    | with_reducible apply keeps_wakeTime
    | intro _
    | with_reducible apply keeps_ite
    | split
    | (with_reducible refine keeps_of_pair (by assumption) ?_)
    | (with_reducible refine keeps_of_opt (by assumption) ?_)
    | dsimp only)

theorem keeps_wakeUp {u : State} (source reason : Nat) (tally : Option Nat) {s : State} (h : Keeps u s) :
 Keeps u (wakeUp source reason tally s) := by
  unfold wakeUp
  repeat' (first
    | with_reducible assumption
    | with_reducible apply keeps_setPwr
    | with_reducible apply keeps_irq
    | with_reducible apply keeps_drawn
    | with_reducible apply keeps_enterMode
    | with_reducible apply keeps_unlisted
    | with_reducible apply keeps_entryEnded
    | with_reducible apply keeps_wakeRecorded
    | with_reducible apply keeps_wakeSleep
    | with_reducible apply keeps_wakeBear
    | intro _
    | with_reducible apply keeps_ite
    | split
    | (with_reducible refine keeps_of_pair (by assumption) ?_)
    | (with_reducible refine keeps_of_opt (by assumption) ?_)
    | dsimp only)

theorem keeps_execWakeRing {u : State} (reason : Byte) (tally : Nat) {s : State} (h : Keeps u s) :
 KeepsOut u (execWakeRing reason tally s) := by
  unfold execWakeRing
  repeat' (first
    | with_reducible assumption
    | with_reducible apply keeps_wakeUp
    | with_reducible apply keepsOut_next
    | intro _
    | with_reducible apply keepsOut_ite
    | with_reducible apply keeps_ite
    | split
    | (with_reducible refine keeps_of_pair (by assumption) ?_)
    | (with_reducible refine keeps_of_opt (by assumption) ?_)
    | dsimp only)

theorem keeps_execWakePin {u : State} (tally : Nat) {s : State} (h : Keeps u s) :
 KeepsOut u (execWakePin tally s) := by
  unfold execWakePin
  repeat' (first
    | with_reducible assumption
    | with_reducible apply keeps_wakeUp
    | with_reducible apply keepsOut_next
    | intro _
    | with_reducible apply keepsOut_ite
    | with_reducible apply keeps_ite
    | split
    | (with_reducible refine keeps_of_pair (by assumption) ?_)
    | (with_reducible refine keeps_of_opt (by assumption) ?_)
    | dsimp only)

theorem keeps_execWakeTimer {u : State} (tally : Nat) {s : State} (h : Keeps u s) :
 KeepsOut u (execWakeTimer tally s) := by
  unfold execWakeTimer
  repeat' (first
    | with_reducible assumption
    | with_reducible apply keeps_wakeUp
    | with_reducible apply keepsOut_next
    | intro _
    | with_reducible apply keepsOut_ite
    | with_reducible apply keeps_ite
    | split
    | (with_reducible refine keeps_of_pair (by assumption) ?_)
    | (with_reducible refine keeps_of_opt (by assumption) ?_)
    | dsimp only)

theorem keeps_wakeNowCmd {u : State} (rq : Requester) {s : State} (h : Keeps u s) :
 Keeps u (wakeNowCmd rq s) := by
  unfold wakeNowCmd
  repeat' (first
    | with_reducible assumption
    | with_reducible apply keeps_wakeUp
    | intro _
    | with_reducible apply keeps_ite
    | split
    | (with_reducible refine keeps_of_pair (by assumption) ?_)
    | (with_reducible refine keeps_of_opt (by assumption) ?_)
    | dsimp only)

theorem keeps_execWakeNow {u : State} (rq : Requester) {s : State} (h : Keeps u s) :
 KeepsOut u (execWakeNow rq s) := by
  unfold execWakeNow
  repeat' (first
    | with_reducible assumption
    | with_reducible apply keeps_onPage
    | with_reducible apply keeps_wakeNowCmd
    | with_reducible apply keepsOut_next
    | intro _
    | with_reducible apply keepsOut_ite
    | with_reducible apply keeps_ite
    | split
    | (with_reducible refine keeps_of_pair (by assumption) ?_)
    | (with_reducible refine keeps_of_opt (by assumption) ?_)
    | dsimp only)

theorem keeps_wakeLoadDone {u : State} {s : State} (h : Keeps u s) :
 Keeps u (wakeLoadDone s) := by
  unfold wakeLoadDone
  repeat' (first
    | with_reducible assumption
    | with_reducible apply keeps_loadIoRecord
    | with_reducible apply keeps_beginSelftest
    | with_reducible apply keeps_loadBoot
    | with_reducible apply keeps_reload
    | with_reducible apply keeps_loadAll
    | with_reducible apply keeps_stamp
    | with_reducible apply keeps_stopSafe
    | with_reducible apply keeps_unlisted
    | with_reducible apply keeps_beginRelease
    | with_reducible apply keeps_wakeSleep
    | with_reducible apply keeps_wakeBear
    | intro _
    | with_reducible apply keeps_ite
    | split
    | (with_reducible refine keeps_of_pair (by assumption) ?_)
    | (with_reducible refine keeps_of_opt (by assumption) ?_)
    | dsimp only)

theorem keeps_execWakeLoadDone {u : State} {s : State} (h : Keeps u s) :
 KeepsOut u (execWakeLoadDone s) := by
  unfold execWakeLoadDone
  repeat' (first
    | with_reducible assumption
    | with_reducible apply keeps_wakeLoadDone
    | with_reducible apply keepsOut_next
    | intro _
    | with_reducible apply keepsOut_ite
    | with_reducible apply keeps_ite
    | split
    | (with_reducible refine keeps_of_pair (by assumption) ?_)
    | (with_reducible refine keeps_of_opt (by assumption) ?_)
    | dsimp only)

theorem keeps_ringReset {u : State} {s : State} (h : Keeps u s) :
 Keeps u (ringReset s) := by
  unfold ringReset
  repeat' (first
    | with_reducible assumption
    | with_reducible apply keeps_setDev
    | with_reducible apply keeps_deviceReset
    | with_reducible apply keeps_wakeUp
    | intro _
    | with_reducible apply keeps_ite
    | split
    | (with_reducible refine keeps_of_pair (by assumption) ?_)
    | (with_reducible refine keeps_of_opt (by assumption) ?_)
    | dsimp only)

theorem keeps_reloadWatchdog {u : State} {s : State} (h : Keeps u s) :
 Keeps u (reloadWatchdog s) := by
  unfold reloadWatchdog
  repeat' (first
    | with_reducible assumption
    | with_reducible apply keeps_setDev
    | with_reducible apply keeps_wrf
    | intro _
    | with_reducible apply keeps_ite
    | split
    | (with_reducible refine keeps_of_pair (by assumption) ?_)
    | (with_reducible refine keeps_of_opt (by assumption) ?_)
    | dsimp only)

theorem keeps_execWdtKick {u : State} (rq : Requester) {s : State} (h : Keeps u s) :
 KeepsOut u (execWdtKick rq s) := by
  unfold execWdtKick
  repeat' (first
    | with_reducible assumption
    | with_reducible apply keeps_onPage
    | with_reducible apply keeps_reloadWatchdog
    | with_reducible apply keepsOut_next
    | intro _
    | with_reducible apply keepsOut_ite
    | with_reducible apply keeps_ite
    | split
    | (with_reducible refine keeps_of_pair (by assumption) ?_)
    | (with_reducible refine keeps_of_opt (by assumption) ?_)
    | dsimp only)

theorem keeps_watchdogExpiry {u : State} {s : State} (h : Keeps u s) :
 Keeps u (watchdogExpiry s) := by
  unfold watchdogExpiry
  repeat' (first
    | with_reducible assumption
    | with_reducible apply keeps_md
    | with_reducible apply keeps_irq
    | with_reducible apply keeps_deviceReset
    | with_reducible apply keeps_reloadWatchdog
    | intro _
    | with_reducible apply keeps_ite
    | split
    | (with_reducible refine keeps_of_pair (by assumption) ?_)
    | (with_reducible refine keeps_of_opt (by assumption) ?_)
    | dsimp only)

theorem keeps_execWatchdogExpiry {u : State} {s : State} (h : Keeps u s) :
 KeepsOut u (execWatchdogExpiry s) := by
  unfold execWatchdogExpiry
  repeat' (first
    | with_reducible assumption
    | with_reducible apply keeps_watchdogExpiry
    | with_reducible apply keepsOut_next
    | intro _
    | with_reducible apply keepsOut_ite
    | with_reducible apply keeps_ite
    | split
    | (with_reducible refine keeps_of_pair (by assumption) ?_)
    | (with_reducible refine keeps_of_opt (by assumption) ?_)
    | dsimp only)

end Sys2Proof.Machine
end

