-- ==== Sys2Proof/Laws/KeepsMailbox.lean ====
section
/-! SUPPORT. Every operation of Machine/Mailbox.lean keeps (Laws/Keeps.lean). -/
set_option linter.unusedTactic false
set_option linter.unreachableTactic false
set_option linter.unusedVariables false

namespace Sys2Proof.Machine

open Sys2Proof

theorem keeps_mbxGo {u : State} (h : Half) {s : State} (hk : Keeps u s) :
 Keeps u (mbxGo h s) := by
  unfold mbxGo
  repeat' (first
    | with_reducible assumption
    | with_reducible apply keeps_md
    | intro _
    | with_reducible apply keeps_ite
    | split
    | (with_reducible refine keeps_of_pair (by assumption) ?_)
    | (with_reducible refine keeps_of_opt (by assumption) ?_)
    | dsimp only)

theorem keeps_execMbxGo {u : State} (rq : Requester) (h : Half) {s : State} (hk : Keeps u s) :
 KeepsOut u (execMbxGo rq h s) := by
  unfold execMbxGo
  repeat' (first
    | with_reducible assumption
    | with_reducible apply keeps_onPage
    | with_reducible apply keeps_mbxGo
    | with_reducible apply keepsOut_next
    | intro _
    | with_reducible apply keepsOut_ite
    | with_reducible apply keeps_ite
    | split
    | (with_reducible refine keeps_of_pair (by assumption) ?_)
    | (with_reducible refine keeps_of_opt (by assumption) ?_)
    | dsimp only)

theorem keeps_respond {u : State} (h : Half) (status : Nat) (results : List Word) {s : State} (hk : Keeps u s) :
 Keeps u (respond h status results s) := by
  unfold respond
  repeat' (first
    | with_reducible assumption
    | with_reducible apply keeps_wr
    | with_reducible apply keeps_md
    | with_reducible apply keeps_irq
    | with_reducible apply keeps_foldl
    | with_reducible apply keeps_foldl_snd
    | intro _
    | with_reducible apply keeps_ite
    | split
    | (with_reducible refine keeps_of_pair (by assumption) ?_)
    | (with_reducible refine keeps_of_opt (by assumption) ?_)
    | dsimp only)

theorem keeps_serveVersion {u : State} {s : State} (h : Keeps u s) :
 Keeps u (serveVersion s).2.2 := by
  unfold serveVersion
  repeat' (first
    | with_reducible assumption
    | intro _
    | intro _
    | with_reducible apply keeps_ite
    | split
    | (with_reducible refine keeps_of_pair (by assumption) ?_)
    | (with_reducible refine keeps_of_opt (by assumption) ?_)
    | dsimp only)

theorem keeps_serveEcho {u : State} (h : Half) {s : State} (hk : Keeps u s) :
 Keeps u (serveEcho h s).2.2 := by
  unfold serveEcho
  repeat' (first
    | with_reducible assumption
    | intro _
    | intro _
    | with_reducible apply keeps_ite
    | split
    | (with_reducible refine keeps_of_pair (by assumption) ?_)
    | (with_reducible refine keeps_of_opt (by assumption) ?_)
    | dsimp only)

end Sys2Proof.Machine
end

