-- ==== Sys2Proof/Laws/KeepsUpdate.lean ====
section
/-! SUPPORT. Every operation of Machine/Update.lean keeps (Laws/Keeps.lean). -/
set_option linter.unusedTactic false
set_option linter.unreachableTactic false
set_option linter.unusedVariables false

namespace Sys2Proof.Machine

open Sys2Proof

theorem keeps_showProgress {u : State} {s : State} (h : Keeps u s) :
 Keeps u (showProgress s) := by
  unfold showProgress
  repeat' (first
    | with_reducible assumption
    | with_reducible apply keeps_wr
    | intro _
    | with_reducible apply keeps_ite
    | split
    | (with_reducible refine keeps_of_pair (by assumption) ?_)
    | (with_reducible refine keeps_of_opt (by assumption) ?_)
    | dsimp only)

theorem keeps_closeIntake {u : State} {s : State} (h : Keeps u s) :
 Keeps u (closeIntake s) := by
  unfold closeIntake
  repeat' (first
    | with_reducible assumption
    | with_reducible apply keeps_wrf
    | with_reducible apply keeps_mdUpd
    | intro _
    | with_reducible apply keeps_ite
    | split
    | (with_reducible refine keeps_of_pair (by assumption) ?_)
    | (with_reducible refine keeps_of_opt (by assumption) ?_)
    | dsimp only)

theorem keeps_beginBundle {u : State} (owner : Nat) {s : State} (h : Keeps u s) :
 Keeps u (beginBundle owner s) := by
  unfold beginBundle
  repeat' (first
    | with_reducible assumption
    | with_reducible apply keeps_setStore
    | with_reducible apply keeps_wr
    | with_reducible apply keeps_invalidateStage
    | with_reducible apply keeps_setUpdState
    | with_reducible apply keeps_updCode
    | with_reducible apply keeps_mdUpd
    | with_reducible apply keeps_writePointer
    | with_reducible apply keeps_foldl
    | with_reducible apply keeps_foldl_snd
    | intro _
    | with_reducible apply keeps_ite
    | split
    | (with_reducible refine keeps_of_pair (by assumption) ?_)
    | (with_reducible refine keeps_of_opt (by assumption) ?_)
    | dsimp only)

theorem keeps_serveBegin {u : State} (h : Half) {s : State} (hk : Keeps u s) :
 Keeps u (serveBegin h s).2.2 := by
  unfold serveBegin
  repeat' (first
    | with_reducible assumption
    | with_reducible apply keeps_updCode
    | with_reducible apply keeps_mdUpd
    | with_reducible apply keeps_beginBundle
    | intro _
    | intro _
    | with_reducible apply keeps_ite
    | split
    | (with_reducible refine keeps_of_pair (by assumption) ?_)
    | (with_reducible refine keeps_of_opt (by assumption) ?_)
    | dsimp only)

theorem keeps_serveCancel {u : State} {s : State} (h : Keeps u s) :
 Keeps u (serveCancel s).2.2 := by
  unfold serveCancel
  repeat' (first
    | with_reducible assumption
    | with_reducible apply keeps_setUpdState
    | with_reducible apply keeps_mdUpd
    | with_reducible apply keeps_closeIntake
    | intro _
    | intro _
    | with_reducible apply keeps_ite
    | split
    | (with_reducible refine keeps_of_pair (by assumption) ?_)
    | (with_reducible refine keeps_of_opt (by assumption) ?_)
    | dsimp only)

theorem keeps_headerAccepted {u : State} (ws : List Word) {s : State} (h : Keeps u s) :
 Keeps u (headerAccepted ws s) := by
  unfold headerAccepted
  repeat' (first
    | with_reducible assumption
    | with_reducible apply keeps_stewardErase
    | with_reducible apply keeps_mdUpd
    | with_reducible apply keeps_showProgress
    | intro _
    | with_reducible apply keeps_ite
    | split
    | (with_reducible refine keeps_of_pair (by assumption) ?_)
    | (with_reducible refine keeps_of_opt (by assumption) ?_)
    | dsimp only)

theorem keeps_headerRefused {u : State} (c : Nat) {s : State} (h : Keeps u s) :
 Keeps u (headerRefused c s) := by
  unfold headerRefused
  repeat' (first
    | with_reducible assumption
    | with_reducible apply keeps_setUpdState
    | with_reducible apply keeps_updCode
    | with_reducible apply keeps_closeIntake
    | intro _
    | with_reducible apply keeps_ite
    | split
    | (with_reducible refine keeps_of_pair (by assumption) ?_)
    | (with_reducible refine keeps_of_opt (by assumption) ?_)
    | dsimp only)

theorem keeps_storeFirmware {u : State} (i : Nat) (rec : List Word) {s : State} (h : Keeps u s) :
 Keeps u (storeFirmware i rec s) := by
  unfold storeFirmware
  repeat' (first
    | with_reducible assumption
    | with_reducible apply keeps_markProgrammed
    | with_reducible apply keeps_storePage
    | with_reducible apply keeps_stewardErase
    | with_reducible apply keeps_foldl
    | with_reducible apply keeps_foldl_snd
    | intro _
    | with_reducible apply keeps_ite
    | split
    | (with_reducible refine keeps_of_pair (by assumption) ?_)
    | (with_reducible refine keeps_of_opt (by assumption) ?_)
    | dsimp only)

theorem keeps_storeImage {u : State} (e : List Word) {s : State} (h : Keeps u s) :
 Keeps u (storeImage e s) := by
  unfold storeImage
  repeat' (first
    | with_reducible assumption
    | with_reducible apply keeps_setStore
    | with_reducible apply keeps_setArea
    | with_reducible apply keeps_foldl
    | with_reducible apply keeps_foldl_snd
    | intro _
    | with_reducible apply keeps_ite
    | split
    | (with_reducible refine keeps_of_pair (by assumption) ?_)
    | (with_reducible refine keeps_of_opt (by assumption) ?_)
    | dsimp only)

theorem keeps_storeLibrary {u : State} (e : List Word) {s : State} (h : Keeps u s) :
 Keeps u (storeLibrary e s) := by
  unfold storeLibrary
  repeat' (first
    | with_reducible assumption
    | with_reducible apply keeps_setFox
    | with_reducible apply keeps_slotStarted
    | with_reducible apply keeps_updCode
    | with_reducible apply keeps_mdUpd
    | intro _
    | with_reducible apply keeps_ite
    | split
    | (with_reducible refine keeps_of_pair (by assumption) ?_)
    | (with_reducible refine keeps_of_opt (by assumption) ?_)
    | dsimp only)

theorem keeps_allStored {u : State} {s : State} (h : Keeps u s) :
 Keeps u (allStored s) := by
  unfold allStored
  repeat' (first
    | with_reducible assumption
    | with_reducible apply keeps_setUpdState
    | with_reducible apply keeps_mdUpd
    | intro _
    | with_reducible apply keeps_ite
    | split
    | (with_reducible refine keeps_of_pair (by assumption) ?_)
    | (with_reducible refine keeps_of_opt (by assumption) ?_)
    | dsimp only)

theorem keeps_storeChunk {u : State} (i : Nat) (rec e : List Word) {s : State} (h : Keeps u s) :
 Keeps u (storeChunk i rec e s) := by
  unfold storeChunk
  repeat' (first
    | with_reducible assumption
    | with_reducible apply keeps_mdUpd
    | with_reducible apply keeps_showProgress
    | with_reducible apply keeps_storeFirmware
    | with_reducible apply keeps_storeImage
    | with_reducible apply keeps_storeLibrary
    | with_reducible apply keeps_allStored
    | intro _
    | with_reducible apply keeps_ite
    | split
    | (with_reducible refine keeps_of_pair (by assumption) ?_)
    | (with_reducible refine keeps_of_opt (by assumption) ?_)
    | dsimp only)

theorem keeps_buffer {u : State} (i : Nat) (ws : List Word) {s : State} (h : Keeps u s) :
 Keeps u (buffer i ws s) := by
  unfold buffer
  repeat' (first
    | with_reducible assumption
    | with_reducible apply keeps_mdUpd
    | intro _
    | with_reducible apply keeps_ite
    | split
    | (with_reducible refine keeps_of_pair (by assumption) ?_)
    | (with_reducible refine keeps_of_opt (by assumption) ?_)
    | dsimp only)

theorem keeps_chunkArrived {u : State} (rec : List Word) {s : State} (h : Keeps u s) :
 Keeps u (chunkArrived rec s).2 := by
  unfold chunkArrived
  repeat' (first
    | with_reducible assumption
    | with_reducible apply keeps_storeChunk
    | with_reducible apply keeps_buffer
    | intro _
    | with_reducible apply keeps_ite_snd
    | with_reducible apply keeps_ite
    | split
    | (with_reducible refine keeps_of_pair (by assumption) ?_)
    | (with_reducible refine keeps_of_opt (by assumption) ?_)
    | dsimp only)

theorem keeps_takeIntake {u : State} {s : State} (h : Keeps u s) :
 Keeps u (takeIntake s) := by
  unfold takeIntake
  repeat' (first
    | with_reducible assumption
    | with_reducible apply keeps_setUpdState
    | with_reducible apply keeps_updCode
    | with_reducible apply keeps_mdUpd
    | with_reducible apply keeps_closeIntake
    | with_reducible apply keeps_headerAccepted
    | with_reducible apply keeps_headerRefused
    | with_reducible apply keeps_allStored
    | with_reducible apply keeps_buffer
    | with_reducible apply keeps_chunkArrived
    | intro _
    | with_reducible apply keeps_ite
    | split
    | (with_reducible refine keeps_of_pair (by assumption) ?_)
    | (with_reducible refine keeps_of_opt (by assumption) ?_)
    | dsimp only)

theorem keeps_drainIntake {u : State} (fuel : Nat) {s : State} (h : Keeps u s) :
 Keeps u (drainIntake fuel s) := by
  induction fuel generalizing s with
  | zero => exact h
  | succ fuel ih =>
    unfold drainIntake
    repeat' (first
      | with_reducible assumption
      | with_reducible apply ih
      | with_reducible apply keeps_mdUpd
      | with_reducible apply keeps_buffer
      | with_reducible apply keeps_takeIntake
      | intro _
      | with_reducible apply keeps_ite
      | split
      | (with_reducible refine keeps_of_pair (by assumption) ?_)
      | (with_reducible refine keeps_of_opt (by assumption) ?_)
      | dsimp only)

theorem keeps_drainBundle {u : State} {s : State} (h : Keeps u s) :
 Keeps u (drainBundle s) := by
  unfold drainBundle
  repeat' (first
    | with_reducible assumption
    | with_reducible apply keeps_buffer
    | with_reducible apply keeps_drainIntake
    | intro _
    | with_reducible apply keeps_ite
    | split
    | (with_reducible refine keeps_of_pair (by assumption) ?_)
    | (with_reducible refine keeps_of_opt (by assumption) ?_)
    | dsimp only)

theorem keeps_bundleWord {u : State} (rq : Requester) (w : Word) {s : State} (h : Keeps u s) :
 Keeps u (bundleWord rq w s) := by
  unfold bundleWord
  repeat' (first
    | with_reducible assumption
    | with_reducible apply keeps_mdUpd
    | with_reducible apply keeps_buffer
    | with_reducible apply keeps_drainBundle
    | intro _
    | with_reducible apply keeps_ite
    | split
    | (with_reducible refine keeps_of_pair (by assumption) ?_)
    | (with_reducible refine keeps_of_opt (by assumption) ?_)
    | dsimp only)

theorem keeps_execBundleData {u : State} (rq : Requester) (w : Word) {s : State} (h : Keeps u s) :
 KeepsOut u (execBundleData rq w s) := by
  unfold execBundleData
  repeat' (first
    | with_reducible assumption
    | with_reducible apply keeps_onPage
    | with_reducible apply keeps_bundleWord
    | with_reducible apply keepsOut_next
    | intro _
    | with_reducible apply keepsOut_ite
    | with_reducible apply keeps_ite
    | split
    | (with_reducible refine keeps_of_pair (by assumption) ?_)
    | (with_reducible refine keeps_of_opt (by assumption) ?_)
    | dsimp only)

theorem keeps_stewardAsks {u : State} (ws : List TWord) {s : State} (h : Keeps u s) :
 Keeps u (stewardAsks ws s) := by
  unfold stewardAsks
  repeat' (first
    | with_reducible assumption
    | with_reducible apply keeps_send
    | with_reducible apply keeps_mdUpd
    | intro _
    | with_reducible apply keeps_ite
    | split
    | (with_reducible refine keeps_of_pair (by assumption) ?_)
    | (with_reducible refine keeps_of_opt (by assumption) ?_)
    | dsimp only)

theorem keeps_remoteCommand {u : State} (node code : Nat) (args : List Word) {s : State} (h : Keeps u s) :
 Keeps u (remoteCommand node code args s) := by
  unfold remoteCommand
  repeat' (first
    | with_reducible assumption
    | with_reducible apply keeps_stewardAsks
    | intro _
    | with_reducible apply keeps_ite
    | split
    | (with_reducible refine keeps_of_pair (by assumption) ?_)
    | (with_reducible refine keeps_of_opt (by assumption) ?_)
    | dsimp only)

theorem keeps_forwardChunk {u : State} {s : State} (h : Keeps u s) :
 Keeps u (forwardChunk s) := by
  unfold forwardChunk
  repeat' (first
    | with_reducible assumption
    | with_reducible apply keeps_mdUpd
    | with_reducible apply keeps_stewardAsks
    | with_reducible apply keeps_remoteCommand
    | with_reducible apply keeps_foldl
    | with_reducible apply keeps_foldl_snd
    | intro _
    | with_reducible apply keeps_ite
    | split
    | (with_reducible refine keeps_of_pair (by assumption) ?_)
    | (with_reducible refine keeps_of_opt (by assumption) ?_)
    | dsimp only)

theorem keeps_execChunkForward {u : State} {s : State} (h : Keeps u s) :
 KeepsOut u (execChunkForward s) := by
  unfold execChunkForward
  repeat' (first
    | with_reducible assumption
    | with_reducible apply keeps_drainBundle
    | with_reducible apply keeps_forwardChunk
    | with_reducible apply keepsOut_next
    | intro _
    | with_reducible apply keepsOut_ite
    | with_reducible apply keeps_ite
    | split
    | (with_reducible refine keeps_of_pair (by assumption) ?_)
    | (with_reducible refine keeps_of_opt (by assumption) ?_)
    | dsimp only)

theorem keeps_ringBufWords {u : State} (n : Nat) {s : State} (h : Keeps u s) :
 Keeps u (ringBufWords n s).2 := by
  unfold ringBufWords
  repeat' (first
    | with_reducible assumption
    | with_reducible apply keeps_readBank
    | with_reducible apply keeps_foldl
    | with_reducible apply keeps_foldl_snd
    | intro _
    | with_reducible apply keeps_ite_snd
    | with_reducible apply keeps_ite
    | split
    | (with_reducible refine keeps_of_pair (by assumption) ?_)
    | (with_reducible refine keeps_of_opt (by assumption) ?_)
    | dsimp only)

theorem keeps_serveRingChunk {u : State} (h : Half) {s : State} (hk : Keeps u s) :
 Keeps u (serveRingChunk h s).2.2 := by
  unfold serveRingChunk
  repeat' (first
    | with_reducible assumption
    | with_reducible apply keeps_closeIntake
    | with_reducible apply keeps_beginBundle
    | with_reducible apply keeps_headerAccepted
    | with_reducible apply keeps_headerRefused
    | with_reducible apply keeps_buffer
    | with_reducible apply keeps_chunkArrived
    | with_reducible apply keeps_ringBufWords
    | intro _
    | intro _
    | with_reducible apply keeps_ite
    | split
    | (with_reducible refine keeps_of_pair (by assumption) ?_)
    | (with_reducible refine keeps_of_opt (by assumption) ?_)
    | dsimp only)

theorem keeps_pairVerified {u : State} {s : State} (h : Keeps u s) :
 Keeps u (pairVerified s) := by
  unfold pairVerified
  repeat' (first
    | with_reducible assumption
    | with_reducible apply keeps_setStore
    | with_reducible apply keeps_storeRecord
    | intro _
    | with_reducible apply keeps_ite
    | split
    | (with_reducible refine keeps_of_pair (by assumption) ?_)
    | (with_reducible refine keeps_of_opt (by assumption) ?_)
    | dsimp only)

theorem keeps_verifyDone {u : State} {s : State} (h : Keeps u s) :
 Keeps u (verifyDone s) := by
  unfold verifyDone
  repeat' (first
    | with_reducible assumption
    | with_reducible apply keeps_setUpdState
    | with_reducible apply keeps_updCode
    | with_reducible apply keeps_mdUpd
    | with_reducible apply keeps_writePointer
    | with_reducible apply keeps_closeIntake
    | with_reducible apply keeps_pairVerified
    | intro _
    | with_reducible apply keeps_ite
    | split
    | (with_reducible refine keeps_of_pair (by assumption) ?_)
    | (with_reducible refine keeps_of_opt (by assumption) ?_)
    | dsimp only)

theorem keeps_execBundleVerifyDone {u : State} {s : State} (h : Keeps u s) :
 KeepsOut u (execBundleVerifyDone s) := by
  unfold execBundleVerifyDone
  repeat' (first
    | with_reducible assumption
    | with_reducible apply keeps_verifyDone
    | with_reducible apply keepsOut_next
    | intro _
    | with_reducible apply keepsOut_ite
    | with_reducible apply keeps_ite
    | split
    | (with_reducible refine keeps_of_pair (by assumption) ?_)
    | (with_reducible refine keeps_of_opt (by assumption) ?_)
    | dsimp only)

theorem keeps_sendArm {u : State} {s : State} (h : Keeps u s) :
 Keeps u (sendArm s) := by
  unfold sendArm
  repeat' (first
    | with_reducible assumption
    | with_reducible apply keeps_ringBroadcast
    | intro _
    | with_reducible apply keeps_ite
    | split
    | (with_reducible refine keeps_of_pair (by assumption) ?_)
    | (with_reducible refine keeps_of_opt (by assumption) ?_)
    | dsimp only)

theorem keeps_armServed {u : State} (m d : BitVec 64) {s : State} (h : Keeps u s) :
 Keeps u (armServed m d s) := by
  unfold armServed
  repeat' (first
    | with_reducible assumption
    | with_reducible apply keeps_mdUpd
    | with_reducible apply keeps_prepare
    | intro _
    | with_reducible apply keeps_ite
    | split
    | (with_reducible refine keeps_of_pair (by assumption) ?_)
    | (with_reducible refine keeps_of_opt (by assumption) ?_)
    | dsimp only)

theorem keeps_serveActivate {u : State} {s : State} (h : Keeps u s) :
 Keeps u (serveActivate s).2.2 := by
  unfold serveActivate
  repeat' (first
    | with_reducible assumption
    | with_reducible apply keeps_mdUpd
    | with_reducible apply keeps_sendArm
    | with_reducible apply keeps_armServed
    | intro _
    | intro _
    | with_reducible apply keeps_ite
    | split
    | (with_reducible refine keeps_of_pair (by assumption) ?_)
    | (with_reducible refine keeps_of_opt (by assumption) ?_)
    | dsimp only)

theorem keeps_armRepeat {u : State} {s : State} (h : Keeps u s) :
 Keeps u (armRepeat s) := by
  unfold armRepeat
  repeat' (first
    | with_reducible assumption
    | with_reducible apply keeps_sendArm
    | intro _
    | with_reducible apply keeps_ite
    | split
    | (with_reducible refine keeps_of_pair (by assumption) ?_)
    | (with_reducible refine keeps_of_opt (by assumption) ?_)
    | dsimp only)

theorem keeps_execArmRepeat {u : State} {s : State} (h : Keeps u s) :
 KeepsOut u (execArmRepeat s) := by
  unfold execArmRepeat
  repeat' (first
    | with_reducible assumption
    | with_reducible apply keeps_armRepeat
    | with_reducible apply keepsOut_next
    | intro _
    | with_reducible apply keepsOut_ite
    | with_reducible apply keeps_ite
    | split
    | (with_reducible refine keeps_of_pair (by assumption) ?_)
    | (with_reducible refine keeps_of_opt (by assumption) ?_)
    | dsimp only)

theorem keeps_updateReady {u : State} {s : State} (h : Keeps u s) :
 Keeps u (updateReady s) := by
  unfold updateReady
  repeat' (first
    | with_reducible assumption
    | with_reducible apply keeps_irq
    | with_reducible apply keeps_pointerUpkeep
    | with_reducible apply keeps_setUpdState
    | with_reducible apply keeps_updHold
    | with_reducible apply keeps_armUpdate
    | intro _
    | with_reducible apply keeps_ite
    | split
    | (with_reducible refine keeps_of_pair (by assumption) ?_)
    | (with_reducible refine keeps_of_opt (by assumption) ?_)
    | dsimp only)

theorem keeps_execUpdateReady {u : State} {s : State} (h : Keeps u s) :
 KeepsOut u (execUpdateReady s) := by
  unfold execUpdateReady
  repeat' (first
    | with_reducible assumption
    | with_reducible apply keeps_updateReady
    | with_reducible apply keepsOut_next
    | intro _
    | with_reducible apply keepsOut_ite
    | with_reducible apply keeps_ite
    | split
    | (with_reducible refine keeps_of_pair (by assumption) ?_)
    | (with_reducible refine keeps_of_opt (by assumption) ?_)
    | dsimp only)

theorem keeps_armReturned {u : State} (bitmap : List Word) {s : State} (h : Keeps u s) :
 Keeps u (armReturned bitmap s) := by
  unfold armReturned
  repeat' (first
    | with_reducible assumption
    | with_reducible apply keeps_mdUpd
    | with_reducible apply keeps_writePointer
    | intro _
    | with_reducible apply keeps_ite
    | split
    | (with_reducible refine keeps_of_pair (by assumption) ?_)
    | (with_reducible refine keeps_of_opt (by assumption) ?_)
    | dsimp only)

theorem keeps_execArmReturn {u : State} (bitmap : List Word) {s : State} (h : Keeps u s) :
 KeepsOut u (execArmReturn bitmap s) := by
  unfold execArmReturn
  repeat' (first
    | with_reducible assumption
    | with_reducible apply keeps_armReturned
    | with_reducible apply keepsOut_next
    | intro _
    | with_reducible apply keepsOut_ite
    | with_reducible apply keeps_ite
    | split
    | (with_reducible refine keeps_of_pair (by assumption) ?_)
    | (with_reducible refine keeps_of_opt (by assumption) ?_)
    | dsimp only)

theorem keeps_activationEnds {u : State} {s : State} (h : Keeps u s) :
 Keeps u (activationEnds s) := by
  unfold activationEnds
  repeat' (first
    | with_reducible assumption
    | with_reducible apply keeps_irq
    | with_reducible apply keeps_setUpdState
    | with_reducible apply keeps_updCode
    | with_reducible apply keeps_updHold
    | with_reducible apply keeps_mdUpd
    | with_reducible apply keeps_dropStaging
    | intro _
    | with_reducible apply keeps_ite
    | split
    | (with_reducible refine keeps_of_pair (by assumption) ?_)
    | (with_reducible refine keeps_of_opt (by assumption) ?_)
    | dsimp only)

theorem keeps_putNotReady {u : State} (nodes : List Nat) {s : State} (h : Keeps u s) :
 Keeps u (putNotReady nodes s) := by
  unfold putNotReady
  repeat' (first
    | with_reducible assumption
    | with_reducible apply keeps_wr
    | with_reducible apply keeps_setArr
    | with_reducible apply keeps_foldl
    | with_reducible apply keeps_foldl_snd
    | intro _
    | with_reducible apply keeps_ite
    | split
    | (with_reducible refine keeps_of_pair (by assumption) ?_)
    | (with_reducible refine keeps_of_opt (by assumption) ?_)
    | dsimp only)

theorem keeps_sendAbort {u : State} (cls : Nat) (m : BitVec 64) (reason : Word) {s : State} (h : Keeps u s) :
 Keeps u (sendAbort cls m reason s) := by
  unfold sendAbort
  repeat' (first
    | with_reducible assumption
    | with_reducible apply keeps_ringBroadcast
    | intro _
    | with_reducible apply keeps_ite
    | split
    | (with_reducible refine keeps_of_pair (by assumption) ?_)
    | (with_reducible refine keeps_of_opt (by assumption) ?_)
    | dsimp only)

theorem keeps_armDeadline {u : State} {s : State} (h : Keeps u s) :
 Keeps u (armDeadline s) := by
  unfold armDeadline
  repeat' (first
    | with_reducible assumption
    | with_reducible apply keeps_err
    | with_reducible apply keeps_activationEnds
    | with_reducible apply keeps_putNotReady
    | with_reducible apply keeps_sendAbort
    | intro _
    | with_reducible apply keeps_ite
    | split
    | (with_reducible refine keeps_of_pair (by assumption) ?_)
    | (with_reducible refine keeps_of_opt (by assumption) ?_)
    | dsimp only)

theorem keeps_execArmDeadline {u : State} {s : State} (h : Keeps u s) :
 KeepsOut u (execArmDeadline s) := by
  unfold execArmDeadline
  repeat' (first
    | with_reducible assumption
    | with_reducible apply keeps_armDeadline
    | with_reducible apply keepsOut_next
    | intro _
    | with_reducible apply keepsOut_ite
    | with_reducible apply keeps_ite
    | split
    | (with_reducible refine keeps_of_pair (by assumption) ?_)
    | (with_reducible refine keeps_of_opt (by assumption) ?_)
    | dsimp only)

theorem keeps_abortServed {u : State} (m : BitVec 64) {s : State} (h : Keeps u s) :
 Keeps u (abortServed m s) := by
  unfold abortServed
  repeat' (first
    | with_reducible assumption
    | with_reducible apply keeps_activationEnds
    | intro _
    | with_reducible apply keeps_ite
    | split
    | (with_reducible refine keeps_of_pair (by assumption) ?_)
    | (with_reducible refine keeps_of_opt (by assumption) ?_)
    | dsimp only)

theorem keeps_cannotRoll {u : State} {s : State} (h : Keeps u s) :
 Keeps u (cannotRoll s) := by
  unfold cannotRoll
  repeat' (first
    | with_reducible assumption
    | with_reducible apply keeps_setUpdState
    | with_reducible apply keeps_updHold
    | with_reducible apply keeps_mdUpd
    | with_reducible apply keeps_unlisted
    | with_reducible apply keeps_enterSafe
    | intro _
    | with_reducible apply keeps_ite
    | split
    | (with_reducible refine keeps_of_pair (by assumption) ?_)
    | (with_reducible refine keeps_of_opt (by assumption) ?_)
    | dsimp only)

theorem keeps_commitServed {u : State} (m t0 : BitVec 64) {s : State} (h : Keeps u s) :
 Keeps u (commitServed m t0 s) := by
  unfold commitServed
  repeat' (first
    | with_reducible assumption
    | with_reducible apply keeps_commitLocal
    | with_reducible apply keeps_cannotRoll
    | intro _
    | with_reducible apply keeps_ite
    | split
    | (with_reducible refine keeps_of_pair (by assumption) ?_)
    | (with_reducible refine keeps_of_opt (by assumption) ?_)
    | dsimp only)

theorem keeps_resource {u : State} (old new : Bool) (m : BitVec 64) {s : State} (h : Keeps u s) :
 Keeps u (resource old new m s) := by
  unfold resource
  repeat' (first
    | with_reducible assumption
    | with_reducible apply keeps_wr
    | with_reducible apply keeps_foldl
    | with_reducible apply keeps_foldl_snd
    | intro _
    | with_reducible apply keeps_ite
    | split
    | (with_reducible refine keeps_of_pair (by assumption) ?_)
    | (with_reducible refine keeps_of_opt (by assumption) ?_)
    | dsimp only)

theorem keeps_activationTime {u : State} {s : State} (h : Keeps u s) :
 Keeps u (activationTime s) := by
  unfold activationTime
  repeat' (first
    | with_reducible assumption
    | with_reducible apply keeps_setUpdState
    | with_reducible apply keeps_mdUpd
    | with_reducible apply keeps_writePointer
    | with_reducible apply keeps_armUpdate
    | with_reducible apply keeps_cannotRoll
    | with_reducible apply keeps_resource
    | intro _
    | with_reducible apply keeps_ite
    | split
    | (with_reducible refine keeps_of_pair (by assumption) ?_)
    | (with_reducible refine keeps_of_opt (by assumption) ?_)
    | dsimp only)

theorem keeps_execActivationTime {u : State} {s : State} (h : Keeps u s) :
 KeepsOut u (execActivationTime s) := by
  unfold execActivationTime
  repeat' (first
    | with_reducible assumption
    | with_reducible apply keeps_activationTime
    | with_reducible apply keepsOut_next
    | intro _
    | with_reducible apply keepsOut_ite
    | with_reducible apply keeps_ite
    | split
    | (with_reducible refine keeps_of_pair (by assumption) ?_)
    | (with_reducible refine keeps_of_opt (by assumption) ?_)
    | dsimp only)

theorem keeps_tcmStore {u : State} (ws : List Word) {s : State} (h : Keeps u s) :
 Keeps u (tcmStore ws s) := by
  unfold tcmStore
  repeat' (first
    | with_reducible assumption
    | with_reducible apply keeps_mdUpd
    | with_reducible apply keeps_foldl
    | with_reducible apply keeps_foldl_snd
    | intro _
    | with_reducible apply keeps_ite
    | split
    | (with_reducible refine keeps_of_pair (by assumption) ?_)
    | (with_reducible refine keeps_of_opt (by assumption) ?_)
    | dsimp only)

theorem keeps_handoverPrepared {u : State} {s : State} (h : Keeps u s) :
 Keeps u (handoverPrepared s) := by
  unfold handoverPrepared
  repeat' (first
    | with_reducible assumption
    | with_reducible apply keeps_mdUpd
    | with_reducible apply keeps_tcmStore
    | intro _
    | with_reducible apply keeps_ite
    | split
    | (with_reducible refine keeps_of_pair (by assumption) ?_)
    | (with_reducible refine keeps_of_opt (by assumption) ?_)
    | dsimp only)

theorem keeps_coldMailbox {u : State} {s : State} (h : Keeps u s) :
 Keeps u (coldMailbox s) := by
  unfold coldMailbox
  repeat' (first
    | with_reducible assumption
    | with_reducible apply keeps_respond
    | with_reducible apply keeps_foldl
    | with_reducible apply keeps_foldl_snd
    | intro _
    | with_reducible apply keeps_ite
    | split
    | (with_reducible refine keeps_of_pair (by assumption) ?_)
    | (with_reducible refine keeps_of_opt (by assumption) ?_)
    | dsimp only)

theorem keeps_handoverDone {u : State} (canRead : Bool) {s : State} (h : Keeps u s) :
 Keeps u (handoverDone canRead s) := by
  unfold handoverDone
  repeat' (first
    | with_reducible assumption
    | with_reducible apply keeps_wrf
    | with_reducible apply keeps_irq
    | with_reducible apply keeps_err
    | with_reducible apply keeps_setFwBanks
    | with_reducible apply keeps_setUpdState
    | with_reducible apply keeps_updCode
    | with_reducible apply keeps_updHold
    | with_reducible apply keeps_mdUpd
    | with_reducible apply keeps_newSettings
    | with_reducible apply keeps_coldMailbox
    | intro _
    | with_reducible apply keeps_ite
    | split
    | (with_reducible refine keeps_of_pair (by assumption) ?_)
    | (with_reducible refine keeps_of_opt (by assumption) ?_)
    | dsimp only)

theorem keeps_execFirmwareHandover {u : State} (canRead : Bool) {s : State} (h : Keeps u s) :
 KeepsOut u (execFirmwareHandover canRead s) := by
  unfold execFirmwareHandover
  repeat' (first
    | with_reducible assumption
    | with_reducible apply keeps_handoverDone
    | with_reducible apply keepsOut_next
    | intro _
    | with_reducible apply keepsOut_ite
    | with_reducible apply keeps_ite
    | split
    | (with_reducible refine keeps_of_pair (by assumption) ?_)
    | (with_reducible refine keeps_of_opt (by assumption) ?_)
    | dsimp only)

theorem keeps_attemptCount {u : State} {s : State} (h : Keeps u s) :
 Keeps u (attemptCount s) := by
  unfold attemptCount
  repeat' (first
    | with_reducible assumption
    | with_reducible apply keeps_mdUpd
    | with_reducible apply keeps_writePointer
    | intro _
    | with_reducible apply keeps_ite
    | split
    | (with_reducible refine keeps_of_pair (by assumption) ?_)
    | (with_reducible refine keeps_of_opt (by assumption) ?_)
    | dsimp only)

theorem keeps_execAttemptCount {u : State} {s : State} (h : Keeps u s) :
 KeepsOut u (execAttemptCount s) := by
  unfold execAttemptCount
  repeat' (first
    | with_reducible assumption
    | with_reducible apply keeps_attemptCount
    | with_reducible apply keepsOut_next
    | intro _
    | with_reducible apply keepsOut_ite
    | with_reducible apply keeps_ite
    | split
    | (with_reducible refine keeps_of_pair (by assumption) ?_)
    | (with_reducible refine keeps_of_opt (by assumption) ?_)
    | dsimp only)

theorem keeps_askConfirm {u : State} (node : Nat) {s : State} (h : Keeps u s) :
 Keeps u (askConfirm node s) := by
  unfold askConfirm
  repeat' (first
    | with_reducible assumption
    | with_reducible apply keeps_stewardAsks
    | with_reducible apply keeps_remoteCommand
    | intro _
    | with_reducible apply keeps_ite
    | split
    | (with_reducible refine keeps_of_pair (by assumption) ?_)
    | (with_reducible refine keeps_of_opt (by assumption) ?_)
    | dsimp only)

theorem keeps_confirmEnds {u : State} {s : State} (h : Keeps u s) :
 Keeps u (confirmEnds s) := by
  unfold confirmEnds
  repeat' (first
    | with_reducible assumption
    | with_reducible apply keeps_irq
    | with_reducible apply keeps_setUpdState
    | intro _
    | with_reducible apply keeps_ite
    | split
    | (with_reducible refine keeps_of_pair (by assumption) ?_)
    | (with_reducible refine keeps_of_opt (by assumption) ?_)
    | dsimp only)

theorem keeps_serveConfirm {u : State} (h : Half) {s : State} (hk : Keeps u s) :
 Keeps u (serveConfirm h s).2.2 := by
  unfold serveConfirm
  repeat' (first
    | with_reducible assumption
    | with_reducible apply keeps_setUpdState
    | with_reducible apply keeps_mdUpd
    | with_reducible apply keeps_writePointer
    | with_reducible apply keeps_askConfirm
    | with_reducible apply keeps_foldl
    | with_reducible apply keeps_foldl_snd
    | intro _
    | intro _
    | with_reducible apply keeps_ite
    | split
    | (with_reducible refine keeps_of_pair (by assumption) ?_)
    | (with_reducible refine keeps_of_opt (by assumption) ?_)
    | dsimp only)

theorem keeps_confirmAnswer {u : State} (node : Nat) (rsp : Word) {s : State} (h : Keeps u s) :
 Keeps u (confirmAnswer node rsp s) := by
  unfold confirmAnswer
  repeat' (first
    | with_reducible assumption
    | with_reducible apply keeps_mdUpd
    | with_reducible apply keeps_askConfirm
    | with_reducible apply keeps_confirmEnds
    | intro _
    | with_reducible apply keeps_ite
    | split
    | (with_reducible refine keeps_of_pair (by assumption) ?_)
    | (with_reducible refine keeps_of_opt (by assumption) ?_)
    | dsimp only)

theorem keeps_swapBack {u : State} (prev : Bool) {s : State} (h : Keeps u s) :
 Keeps u (swapBack prev s) := by
  unfold swapBack
  repeat' (first
    | with_reducible assumption
    | with_reducible apply keeps_wr64
    | with_reducible apply keeps_startLoad
    | with_reducible apply keeps_mdUpd
    | with_reducible apply keeps_armUpdate
    | with_reducible apply keeps_foldl
    | with_reducible apply keeps_foldl_snd
    | intro _
    | with_reducible apply keeps_ite
    | split
    | (with_reducible refine keeps_of_pair (by assumption) ?_)
    | (with_reducible refine keeps_of_opt (by assumption) ?_)
    | dsimp only)

theorem keeps_undoSwap {u : State} (was : Nat) {s : State} (h : Keeps u s) :
 Keeps u (undoSwap was s) := by
  unfold undoSwap
  repeat' (first
    | with_reducible assumption
    | with_reducible apply keeps_swapState
    | with_reducible apply keeps_disarmSet
    | with_reducible apply keeps_mdUpd
    | with_reducible apply keeps_dropStaging
    | with_reducible apply keeps_foldl
    | with_reducible apply keeps_foldl_snd
    | intro _
    | with_reducible apply keeps_ite
    | split
    | (with_reducible refine keeps_of_pair (by assumption) ?_)
    | (with_reducible refine keeps_of_opt (by assumption) ?_)
    | dsimp only)

theorem keeps_fallBack {u : State} (m : BitVec 64) {s : State} (h : Keeps u s) :
 Keeps u (fallBack m s) := by
  unfold fallBack
  repeat' (first
    | with_reducible assumption
    | with_reducible apply keeps_irq
    | with_reducible apply keeps_err
    | with_reducible apply keeps_updCode
    | with_reducible apply keeps_mdUpd
    | with_reducible apply keeps_writePointer
    | with_reducible apply keeps_undoSwap
    | intro _
    | with_reducible apply keeps_ite
    | split
    | (with_reducible refine keeps_of_pair (by assumption) ?_)
    | (with_reducible refine keeps_of_opt (by assumption) ?_)
    | dsimp only)

theorem keeps_fallbackServed {u : State} (m : BitVec 64) {s : State} (h : Keeps u s) :
 Keeps u (fallbackServed m s) := by
  unfold fallbackServed
  repeat' (first
    | with_reducible assumption
    | with_reducible apply keeps_drawn
    | with_reducible apply keeps_restartSafe
    | with_reducible apply keeps_abortServed
    | with_reducible apply keeps_fallBack
    | intro _
    | with_reducible apply keeps_ite
    | split
    | (with_reducible refine keeps_of_pair (by assumption) ?_)
    | (with_reducible refine keeps_of_opt (by assumption) ?_)
    | dsimp only)

theorem keeps_orderFallback {u : State} (reason : Word) {s : State} (h : Keeps u s) :
 Keeps u (orderFallback reason s) := by
  unfold orderFallback
  repeat' (first
    | with_reducible assumption
    | with_reducible apply keeps_sendAbort
    | with_reducible apply keeps_fallbackServed
    | intro _
    | with_reducible apply keeps_ite
    | split
    | (with_reducible refine keeps_of_pair (by assumption) ?_)
    | (with_reducible refine keeps_of_opt (by assumption) ?_)
    | dsimp only)

theorem keeps_confirmWindowExpiry {u : State} {s : State} (h : Keeps u s) :
 Keeps u (confirmWindowExpiry s) := by
  unfold confirmWindowExpiry
  repeat' (first
    | with_reducible assumption
    | with_reducible apply keeps_orderFallback
    | intro _
    | with_reducible apply keeps_ite
    | split
    | (with_reducible refine keeps_of_pair (by assumption) ?_)
    | (with_reducible refine keeps_of_opt (by assumption) ?_)
    | dsimp only)

theorem keeps_execConfirmWindowExpiry {u : State} {s : State} (h : Keeps u s) :
 KeepsOut u (execConfirmWindowExpiry s) := by
  unfold execConfirmWindowExpiry
  repeat' (first
    | with_reducible assumption
    | with_reducible apply keeps_confirmWindowExpiry
    | with_reducible apply keepsOut_next
    | intro _
    | with_reducible apply keepsOut_ite
    | with_reducible apply keeps_ite
    | split
    | (with_reducible refine keeps_of_pair (by assumption) ?_)
    | (with_reducible refine keeps_of_opt (by assumption) ?_)
    | dsimp only)

theorem keeps_serveFallbackRequest {u : State} {s : State} (h : Keeps u s) :
 Keeps u (serveFallbackRequest s).2.2 := by
  unfold serveFallbackRequest
  repeat' (first
    | with_reducible assumption
    | with_reducible apply keeps_orderFallback
    | intro _
    | intro _
    | with_reducible apply keeps_ite
    | split
    | (with_reducible refine keeps_of_pair (by assumption) ?_)
    | (with_reducible refine keeps_of_opt (by assumption) ?_)
    | dsimp only)

theorem keeps_afterPointer {u : State} (why : PtrFor) (old : BootPointer) {s : State} (h : Keeps u s) :
 Keeps u (afterPointer why old s) := by
  unfold afterPointer
  repeat' (first
    | with_reducible assumption
    | with_reducible apply keeps_irq
    | with_reducible apply keeps_drawn
    | with_reducible apply keeps_setFwBanks
    | with_reducible apply keeps_setUpdState
    | with_reducible apply keeps_updCode
    | with_reducible apply keeps_updHold
    | with_reducible apply keeps_mdUpd
    | with_reducible apply keeps_sendCommit
    | with_reducible apply keeps_eraseSettings
    | with_reducible apply keeps_restartSafe
    | with_reducible apply keeps_commitServed
    | with_reducible apply keeps_resource
    | with_reducible apply keeps_handoverPrepared
    | with_reducible apply keeps_confirmEnds
    | with_reducible apply keeps_swapBack
    | intro _
    | with_reducible apply keeps_ite
    | split
    | (with_reducible refine keeps_of_pair (by assumption) ?_)
    | (with_reducible refine keeps_of_opt (by assumption) ?_)
    | dsimp only)

theorem keeps_pointerWritten {u : State} {s : State} (h : Keeps u s) :
 Keeps u (pointerWritten s) := by
  unfold pointerWritten
  repeat' (first
    | with_reducible assumption
    | with_reducible apply keeps_pointerUpkeep
    | with_reducible apply keeps_programPointer
    | with_reducible apply keeps_mdUpd
    | with_reducible apply keeps_afterPointer
    | with_reducible apply keeps_getD
    | with_reducible apply keeps_programPointer
    | intro _
    | with_reducible apply keeps_ite
    | split
    | (with_reducible refine keeps_of_pair (by assumption) ?_)
    | (with_reducible refine keeps_of_opt (by assumption) ?_)
    | dsimp only)

theorem keeps_execPointerWriteDone {u : State} {s : State} (h : Keeps u s) :
 KeepsOut u (execPointerWriteDone s) := by
  unfold execPointerWriteDone
  repeat' (first
    | with_reducible assumption
    | with_reducible apply keeps_pointerWritten
    | with_reducible apply keepsOut_next
    | intro _
    | with_reducible apply keepsOut_ite
    | with_reducible apply keeps_ite
    | split
    | (with_reducible refine keeps_of_pair (by assumption) ?_)
    | (with_reducible refine keeps_of_opt (by assumption) ?_)
    | dsimp only)

theorem keeps_nodeJoined {u : State} (node : Nat) (act oth : BitVec 64) (boot : Word) {s : State} (h : Keeps u s) :
 Keeps u (nodeJoined node act oth boot s) := by
  unfold nodeJoined
  repeat' (first
    | with_reducible assumption
    | with_reducible apply keeps_err
    | with_reducible apply keeps_sendCommit
    | with_reducible apply keeps_resendCommit
    | with_reducible apply keeps_orderFallback
    | intro _
    | with_reducible apply keeps_ite
    | split
    | (with_reducible refine keeps_of_pair (by assumption) ?_)
    | (with_reducible refine keeps_of_opt (by assumption) ?_)
    | dsimp only)

theorem keeps_execNodeJoin {u : State} (node : Fin 256) (act oth : BitVec 64) (boot : Word) {s : State} (h : Keeps u s) :
 KeepsOut u (execNodeJoin node act oth boot s) := by
  unfold execNodeJoin
  repeat' (first
    | with_reducible assumption
    | with_reducible apply keeps_nodeJoined
    | with_reducible apply keepsOut_next
    | intro _
    | with_reducible apply keepsOut_ite
    | with_reducible apply keeps_ite
    | split
    | (with_reducible refine keeps_of_pair (by assumption) ?_)
    | (with_reducible refine keeps_of_opt (by assumption) ?_)
    | dsimp only)

theorem keeps_serveQuery {u : State} {s : State} (h : Keeps u s) :
 Keeps u (serveQuery s).2.2 := by
  unfold serveQuery
  repeat' (first
    | with_reducible assumption
    | intro _
    | intro _
    | with_reducible apply keeps_ite
    | split
    | (with_reducible refine keeps_of_pair (by assumption) ?_)
    | (with_reducible refine keeps_of_opt (by assumption) ?_)
    | dsimp only)

end Sys2Proof.Machine
end

