-- ==== Sys2Proof/Laws/KeepsRingMsg.lean ====
section
/-! SUPPORT. Every operation of Machine/RingMsg.lean keeps (Laws/Keeps.lean). -/
set_option linter.unusedTactic false
set_option linter.unreachableTactic false
set_option linter.unusedVariables false

namespace Sys2Proof.Machine

open Sys2Proof

theorem keeps_wakeMessage {u : State} (reason : Nat) {s : State} (h : Keeps u s) :
 Keeps u (wakeMessage reason s) := by
  unfold wakeMessage
  repeat' (first
    | with_reducible assumption
    | with_reducible apply keeps_wakeUp
    | intro _
    | with_reducible apply keeps_ite
    | split
    | (with_reducible refine keeps_of_pair (by assumption) ?_)
    | (with_reducible refine keeps_of_opt (by assumption) ?_)
    | dsimp only)

theorem keeps_resetMessage {u : State} (o : RingOrigin) (kind : Word) {s : State} (h : Keeps u s) :
 Keeps u (resetMessage o kind s) := by
  unfold resetMessage
  repeat' (first
    | with_reducible assumption
    | with_reducible apply keeps_malformed
    | with_reducible apply keeps_unlisted
    | with_reducible apply keeps_ringReset
    | intro _
    | with_reducible apply keeps_ite
    | split
    | (with_reducible refine keeps_of_pair (by assumption) ?_)
    | (with_reducible refine keeps_of_opt (by assumption) ?_)
    | dsimp only)

theorem keeps_levelCopy {u : State} (o : RingOrigin) (cls : Nat) (ws : List Word) {s : State} (h : Keeps u s) :
 Keeps u (levelCopy o cls ws s) := by
  unfold levelCopy
  repeat' (first
    | with_reducible assumption
    | with_reducible apply keeps_snapMessage
    | with_reducible apply keeps_unlisted
    | with_reducible apply keeps_armServed
    | with_reducible apply keeps_abortServed
    | with_reducible apply keeps_commitServed
    | with_reducible apply keeps_fallbackServed
    | with_reducible apply keeps_wakeMessage
    | with_reducible apply keeps_resetMessage
    | intro _
    | with_reducible apply keeps_ite
    | split
    | (with_reducible refine keeps_of_pair (by assumption) ?_)
    | (with_reducible refine keeps_of_opt (by assumption) ?_)
    | dsimp only)

theorem keeps_levelAt {u : State} (o : RingOrigin) (m : Msg) {s : State} (h : Keeps u s) :
 Keeps u (levelAt o m s).2 := by
  unfold levelAt
  repeat' (first
    | with_reducible assumption
    | with_reducible apply keeps_malformed
    | with_reducible apply keeps_refreshDigest
    | with_reducible apply keeps_levelCopy
    | intro _
    | with_reducible apply keeps_ite_snd
    | with_reducible apply keeps_ite
    | split
    | (with_reducible refine keeps_of_pair (by assumption) ?_)
    | (with_reducible refine keeps_of_opt (by assumption) ?_)
    | dsimp only)

theorem keeps_answered {u : State} (o : RingOrigin) (m : Msg) {s : State} (h : Keeps u s) :
 Keeps u (answered o m s) := by
  unfold answered
  repeat' (first
    | with_reducible assumption
    | with_reducible apply keeps_setRing
    | intro _
    | with_reducible apply keeps_ite
    | split
    | (with_reducible refine keeps_of_pair (by assumption) ?_)
    | (with_reducible refine keeps_of_opt (by assumption) ?_)
    | dsimp only)

theorem keeps_ringDeliver {u : State} (o : RingOrigin) (m : Msg) {s : State} (h : Keeps u s) :
 Keeps u (ringDeliver o m s) := by
  unfold ringDeliver
  repeat' (first
    | with_reducible assumption
    | with_reducible apply keeps_wr
    | with_reducible apply keeps_count
    | with_reducible apply keeps_irq
    | with_reducible apply keeps_malformed
    | with_reducible apply keeps_send
    | with_reducible apply keeps_ringLaunch
    | with_reducible apply keeps_answered
    | intro _
    | with_reducible apply keeps_ite
    | split
    | (with_reducible refine keeps_of_pair (by assumption) ?_)
    | (with_reducible refine keeps_of_opt (by assumption) ?_)
    | dsimp only)

theorem keeps_ringReturned {u : State} (o : RingOrigin) (m : Msg) {s : State} (h : Keeps u s) :
 Keeps u (ringReturned o m s) := by
  unfold ringReturned
  repeat' (first
    | with_reducible assumption
    | with_reducible apply keeps_setRing
    | with_reducible apply keeps_absentRing
    | with_reducible apply keeps_rollcallReturn
    | with_reducible apply keeps_armReturned
    | intro _
    | with_reducible apply keeps_ite
    | split
    | (with_reducible refine keeps_of_pair (by assumption) ?_)
    | (with_reducible refine keeps_of_opt (by assumption) ?_)
    | dsimp only)

theorem keeps_ringHandle {u : State} (o : RingOrigin) (m : Msg) {s : State} (h : Keeps u s) :
 Keeps u (ringHandle o m s) := by
  unfold ringHandle
  repeat' (first
    | with_reducible assumption
    | with_reducible apply keeps_ringForward
    | with_reducible apply keeps_levelAt
    | with_reducible apply keeps_ringDeliver
    | with_reducible apply keeps_ringReturned
    | intro _
    | with_reducible apply keeps_ite
    | split
    | (with_reducible refine keeps_of_pair (by assumption) ?_)
    | (with_reducible refine keeps_of_opt (by assumption) ?_)
    | dsimp only)

theorem keeps_ringActivity {u : State} (reason : Nat) {s : State} (h : Keeps u s) :
 Keeps u (ringActivity reason s) := by
  unfold ringActivity
  repeat' (first
    | with_reducible assumption
    | with_reducible apply keeps_wakeUp
    | intro _
    | with_reducible apply keeps_ite
    | split
    | (with_reducible refine keeps_of_pair (by assumption) ?_)
    | (with_reducible refine keeps_of_opt (by assumption) ?_)
    | dsimp only)

theorem keeps_ringArrive {u : State} (o : RingOrigin) (ws : List TWord) {s : State} (h : Keeps u s) :
 Keeps u (ringArrive o ws s) := by
  unfold ringArrive
  repeat' (first
    | with_reducible assumption
    | with_reducible apply keeps_countN
    | with_reducible apply keeps_errTransient
    | with_reducible apply keeps_ringHandle
    | with_reducible apply keeps_ringActivity
    | with_reducible apply keeps_foldl
    | with_reducible apply keeps_foldl_snd
    | intro _
    | with_reducible apply keeps_ite
    | split
    | (with_reducible refine keeps_of_pair (by assumption) ?_)
    | (with_reducible refine keeps_of_opt (by assumption) ?_)
    | dsimp only)

theorem keeps_execRingMessage {u : State} (origin : Byte) (kind : BitVec 2) (index : BitVec 9) (ws : List TWord) {s : State} (h : Keeps u s) :
 KeepsOut u (execRingMessage origin kind index ws s) := by
  unfold execRingMessage
  repeat' (first
    | with_reducible assumption
    | with_reducible apply keeps_ringArrive
    | with_reducible apply keepsOut_next
    | intro _
    | with_reducible apply keepsOut_ite
    | with_reducible apply keeps_ite
    | split
    | (with_reducible refine keeps_of_pair (by assumption) ?_)
    | (with_reducible refine keeps_of_opt (by assumption) ?_)
    | dsimp only)

theorem keeps_levelArrives {u : State} (origin cls svc : Nat) (ws : List Word) {s : State} (h : Keeps u s) :
 Keeps u (levelArrives origin cls svc ws s) := by
  unfold levelArrives
  repeat' (first
    | with_reducible assumption
    | with_reducible apply keeps_ringArrive
    | intro _
    | with_reducible apply keeps_ite
    | split
    | (with_reducible refine keeps_of_pair (by assumption) ?_)
    | (with_reducible refine keeps_of_opt (by assumption) ?_)
    | dsimp only)

theorem keeps_execSnap {u : State} (origin : Byte) (at_ : BitVec 64) (scope : Word) {s : State} (h : Keeps u s) :
 KeepsOut u (execSnap origin at_ scope s) := by
  unfold execSnap
  repeat' (first
    | with_reducible assumption
    | with_reducible apply keeps_levelArrives
    | with_reducible apply keepsOut_next
    | intro _
    | with_reducible apply keepsOut_ite
    | with_reducible apply keeps_ite
    | split
    | (with_reducible refine keeps_of_pair (by assumption) ?_)
    | (with_reducible refine keeps_of_opt (by assumption) ?_)
    | dsimp only)

theorem keeps_execWake {u : State} (origin reason : Byte) {s : State} (h : Keeps u s) :
 KeepsOut u (execWake origin reason s) := by
  unfold execWake
  repeat' (first
    | with_reducible assumption
    | with_reducible apply keeps_levelArrives
    | with_reducible apply keepsOut_next
    | intro _
    | with_reducible apply keepsOut_ite
    | with_reducible apply keeps_ite
    | split
    | (with_reducible refine keeps_of_pair (by assumption) ?_)
    | (with_reducible refine keeps_of_opt (by assumption) ?_)
    | dsimp only)

theorem keeps_resetAsleep {u : State} (o : RingOrigin) (kind : Word) {s : State} (h : Keeps u s) :
 Keeps u (resetAsleep o kind s) := by
  unfold resetAsleep
  repeat' (first
    | with_reducible assumption
    | with_reducible apply keeps_wakeUp
    | with_reducible apply keeps_ringReset
    | with_reducible apply keeps_resetMessage
    | intro _
    | with_reducible apply keeps_ite
    | split
    | (with_reducible refine keeps_of_pair (by assumption) ?_)
    | (with_reducible refine keeps_of_opt (by assumption) ?_)
    | dsimp only)

theorem keeps_execReset {u : State} (origin : Byte) (kind : Word) {s : State} (h : Keeps u s) :
 KeepsOut u (execReset origin kind s) := by
  unfold execReset
  repeat' (first
    | with_reducible assumption
    | with_reducible apply keeps_levelArrives
    | with_reducible apply keeps_resetAsleep
    | with_reducible apply keepsOut_next
    | intro _
    | with_reducible apply keepsOut_ite
    | with_reducible apply keeps_ite
    | split
    | (with_reducible refine keeps_of_pair (by assumption) ?_)
    | (with_reducible refine keeps_of_opt (by assumption) ?_)
    | dsimp only)

theorem keeps_execArm {u : State} (origin : Byte) (payload : List Word) {s : State} (h : Keeps u s) :
 KeepsOut u (execArm origin payload s) := by
  unfold execArm
  repeat' (first
    | with_reducible assumption
    | with_reducible apply keeps_levelArrives
    | with_reducible apply keepsOut_next
    | intro _
    | with_reducible apply keepsOut_ite
    | with_reducible apply keeps_ite
    | split
    | (with_reducible refine keeps_of_pair (by assumption) ?_)
    | (with_reducible refine keeps_of_opt (by assumption) ?_)
    | dsimp only)

theorem keeps_execCommit {u : State} (origin : Byte) (m t0 : BitVec 64) {s : State} (h : Keeps u s) :
 KeepsOut u (execCommit origin m t0 s) := by
  unfold execCommit
  repeat' (first
    | with_reducible assumption
    | with_reducible apply keeps_levelArrives
    | with_reducible apply keepsOut_next
    | intro _
    | with_reducible apply keepsOut_ite
    | with_reducible apply keeps_ite
    | split
    | (with_reducible refine keeps_of_pair (by assumption) ?_)
    | (with_reducible refine keeps_of_opt (by assumption) ?_)
    | dsimp only)

theorem keeps_execAbort {u : State} (origin : Byte) (m : BitVec 64) (reason : Word) {s : State} (h : Keeps u s) :
 KeepsOut u (execAbort origin m reason s) := by
  unfold execAbort
  repeat' (first
    | with_reducible assumption
    | with_reducible apply keeps_levelArrives
    | with_reducible apply keepsOut_next
    | intro _
    | with_reducible apply keepsOut_ite
    | with_reducible apply keeps_ite
    | split
    | (with_reducible refine keeps_of_pair (by assumption) ?_)
    | (with_reducible refine keeps_of_opt (by assumption) ?_)
    | dsimp only)

theorem keeps_execFallback {u : State} (origin : Byte) (m : BitVec 64) (reason : Word) {s : State} (h : Keeps u s) :
 KeepsOut u (execFallback origin m reason s) := by
  unfold execFallback
  repeat' (first
    | with_reducible assumption
    | with_reducible apply keeps_levelArrives
    | with_reducible apply keepsOut_next
    | intro _
    | with_reducible apply keepsOut_ite
    | with_reducible apply keeps_ite
    | split
    | (with_reducible refine keeps_of_pair (by assumption) ?_)
    | (with_reducible refine keeps_of_opt (by assumption) ?_)
    | dsimp only)

end Sys2Proof.Machine
end

