-- ==== Sys2Proof/Laws/KeepsSteward.lean ====
section
/-! SUPPORT. Every operation of Machine/Steward.lean keeps (Laws/Keeps.lean). -/
set_option linter.unusedTactic false
set_option linter.unreachableTactic false
set_option linter.unusedVariables false

namespace Sys2Proof.Machine

open Sys2Proof

theorem keeps_serveWear {u : State} (h : Half) {s : State} (hk : Keeps u s) :
 Keeps u (serveWear h s).2.2 := by
  unfold serveWear
  repeat' (first
    | with_reducible assumption
    | intro _
    | intro _
    | with_reducible apply keeps_ite
    | split
    | (with_reducible refine keeps_of_pair (by assumption) ?_)
    | (with_reducible refine keeps_of_opt (by assumption) ?_)
    | dsimp only)

theorem keeps_servePage {u : State} (h : Half) {s : State} (hk : Keeps u s) :
 Keeps u (servePage h s).2.2 := by
  unfold servePage
  repeat' (first
    | with_reducible assumption
    | with_reducible apply keeps_readBank
    | with_reducible apply keeps_cdfRefused
    | with_reducible apply keeps_startProgram
    | with_reducible apply keeps_foldl
    | with_reducible apply keeps_foldl_snd
    | intro _
    | intro _
    | with_reducible apply keeps_ite
    | split
    | (with_reducible refine keeps_of_pair (by assumption) ?_)
    | (with_reducible refine keeps_of_opt (by assumption) ?_)
    | dsimp only)

theorem keeps_serveErase {u : State} (h : Half) {s : State} (hk : Keeps u s) :
 Keeps u (serveErase h s).2.2 := by
  unfold serveErase
  repeat' (first
    | with_reducible assumption
    | with_reducible apply keeps_cdfRefused
    | with_reducible apply keeps_cdfAccepted
    | intro _
    | intro _
    | with_reducible apply keeps_ite
    | split
    | (with_reducible refine keeps_of_pair (by assumption) ?_)
    | (with_reducible refine keeps_of_opt (by assumption) ?_)
    | dsimp only)

theorem keeps_serve {u : State} (h : Half) (code : Nat) {s : State} (hk : Keeps u s) :
 Keeps u (serve h code s).2.2 := by
  unfold serve
  repeat' (first
    | with_reducible assumption
    | with_reducible apply keeps_serveVersion
    | with_reducible apply keeps_serveEcho
    | with_reducible apply keeps_serveBegin
    | with_reducible apply keeps_serveCancel
    | with_reducible apply keeps_serveRingChunk
    | with_reducible apply keeps_serveActivate
    | with_reducible apply keeps_serveConfirm
    | with_reducible apply keeps_serveFallbackRequest
    | with_reducible apply keeps_serveQuery
    | with_reducible apply keeps_serveWear
    | with_reducible apply keeps_servePage
    | with_reducible apply keeps_serveErase
    | intro _
    | intro _
    | with_reducible apply keeps_ite
    | split
    | (with_reducible refine keeps_of_pair (by assumption) ?_)
    | (with_reducible refine keeps_of_opt (by assumption) ?_)
    | (with_reducible refine keeps_of_pair3 (by assumption) ?_)
    | dsimp only)

theorem keeps_stewardServes {u : State} (h : Half) {s : State} (hk : Keeps u s) :
 Keeps u (stewardServes h s) := by
  unfold stewardServes
  repeat' (first
    | with_reducible assumption
    | with_reducible apply keeps_respond
    | with_reducible apply keeps_serve
    | intro _
    | with_reducible apply keeps_ite
    | split
    | (with_reducible refine keeps_of_pair (by assumption) ?_)
    | (with_reducible refine keeps_of_opt (by assumption) ?_)
    | (with_reducible refine keeps_of_pair3 (by assumption) ?_)
    | dsimp only)

theorem keeps_mbxServed {u : State} (h : Half) (only : Option Nat) {s : State} (hk : Keeps u s) :
 Keeps u (mbxServed h only s) := by
  unfold mbxServed
  repeat' (first
    | with_reducible assumption
    | with_reducible apply keeps_stewardServes
    | intro _
    | with_reducible apply keeps_ite
    | split
    | (with_reducible refine keeps_of_pair (by assumption) ?_)
    | (with_reducible refine keeps_of_opt (by assumption) ?_)
    | dsimp only)

theorem keeps_execMbxResponse {u : State} (h : Half) {s : State} (hk : Keeps u s) :
 KeepsOut u (execMbxResponse h s) := by
  unfold execMbxResponse
  repeat' (first
    | with_reducible assumption
    | with_reducible apply keeps_mbxServed
    | with_reducible apply keepsOut_next
    | intro _
    | with_reducible apply keepsOut_ite
    | with_reducible apply keeps_ite
    | split
    | (with_reducible refine keeps_of_pair (by assumption) ?_)
    | (with_reducible refine keeps_of_opt (by assumption) ?_)
    | dsimp only)

theorem keeps_execVersion {u : State} (h : Half) {s : State} (hk : Keeps u s) :
 KeepsOut u (execVersion h s) := by
  unfold execVersion
  repeat' (first
    | with_reducible assumption
    | with_reducible apply keeps_mbxServed
    | with_reducible apply keepsOut_next
    | intro _
    | with_reducible apply keepsOut_ite
    | with_reducible apply keeps_ite
    | split
    | (with_reducible refine keeps_of_pair (by assumption) ?_)
    | (with_reducible refine keeps_of_opt (by assumption) ?_)
    | dsimp only)

theorem keeps_execEcho {u : State} (h : Half) {s : State} (hk : Keeps u s) :
 KeepsOut u (execEcho h s) := by
  unfold execEcho
  repeat' (first
    | with_reducible assumption
    | with_reducible apply keeps_mbxServed
    | with_reducible apply keepsOut_next
    | intro _
    | with_reducible apply keepsOut_ite
    | with_reducible apply keeps_ite
    | split
    | (with_reducible refine keeps_of_pair (by assumption) ?_)
    | (with_reducible refine keeps_of_opt (by assumption) ?_)
    | dsimp only)

theorem keeps_execBundleBegin {u : State} (h : Half) {s : State} (hk : Keeps u s) :
 KeepsOut u (execBundleBegin h s) := by
  unfold execBundleBegin
  repeat' (first
    | with_reducible assumption
    | with_reducible apply keeps_mbxServed
    | with_reducible apply keepsOut_next
    | intro _
    | with_reducible apply keepsOut_ite
    | with_reducible apply keeps_ite
    | split
    | (with_reducible refine keeps_of_pair (by assumption) ?_)
    | (with_reducible refine keeps_of_opt (by assumption) ?_)
    | dsimp only)

theorem keeps_execActivate {u : State} (h : Half) {s : State} (hk : Keeps u s) :
 KeepsOut u (execActivate h s) := by
  unfold execActivate
  repeat' (first
    | with_reducible assumption
    | with_reducible apply keeps_mbxServed
    | with_reducible apply keepsOut_next
    | intro _
    | with_reducible apply keepsOut_ite
    | with_reducible apply keeps_ite
    | split
    | (with_reducible refine keeps_of_pair (by assumption) ?_)
    | (with_reducible refine keeps_of_opt (by assumption) ?_)
    | dsimp only)

theorem keeps_execConfirm {u : State} (h : Half) {s : State} (hk : Keeps u s) :
 KeepsOut u (execConfirm h s) := by
  unfold execConfirm
  repeat' (first
    | with_reducible assumption
    | with_reducible apply keeps_mbxServed
    | with_reducible apply keepsOut_next
    | intro _
    | with_reducible apply keepsOut_ite
    | with_reducible apply keeps_ite
    | split
    | (with_reducible refine keeps_of_pair (by assumption) ?_)
    | (with_reducible refine keeps_of_opt (by assumption) ?_)
    | dsimp only)

theorem keeps_execManifestQuery {u : State} (h : Half) {s : State} (hk : Keeps u s) :
 KeepsOut u (execManifestQuery h s) := by
  unfold execManifestQuery
  repeat' (first
    | with_reducible assumption
    | with_reducible apply keeps_mbxServed
    | with_reducible apply keepsOut_next
    | intro _
    | with_reducible apply keepsOut_ite
    | with_reducible apply keeps_ite
    | split
    | (with_reducible refine keeps_of_pair (by assumption) ?_)
    | (with_reducible refine keeps_of_opt (by assumption) ?_)
    | dsimp only)

theorem keeps_execFallbackRequest {u : State} (h : Half) {s : State} (hk : Keeps u s) :
 KeepsOut u (execFallbackRequest h s) := by
  unfold execFallbackRequest
  repeat' (first
    | with_reducible assumption
    | with_reducible apply keeps_mbxServed
    | with_reducible apply keepsOut_next
    | intro _
    | with_reducible apply keepsOut_ite
    | with_reducible apply keeps_ite
    | split
    | (with_reducible refine keeps_of_pair (by assumption) ?_)
    | (with_reducible refine keeps_of_opt (by assumption) ?_)
    | dsimp only)

theorem keeps_execRingChunk {u : State} (h : Half) {s : State} (hk : Keeps u s) :
 KeepsOut u (execRingChunk h s) := by
  unfold execRingChunk
  repeat' (first
    | with_reducible assumption
    | with_reducible apply keeps_mbxServed
    | with_reducible apply keepsOut_next
    | intro _
    | with_reducible apply keepsOut_ite
    | with_reducible apply keeps_ite
    | split
    | (with_reducible refine keeps_of_pair (by assumption) ?_)
    | (with_reducible refine keeps_of_opt (by assumption) ?_)
    | dsimp only)

theorem keeps_execBundleCancel {u : State} (h : Half) {s : State} (hk : Keeps u s) :
 KeepsOut u (execBundleCancel h s) := by
  unfold execBundleCancel
  repeat' (first
    | with_reducible assumption
    | with_reducible apply keeps_mbxServed
    | with_reducible apply keepsOut_next
    | intro _
    | with_reducible apply keepsOut_ite
    | with_reducible apply keeps_ite
    | split
    | (with_reducible refine keeps_of_pair (by assumption) ?_)
    | (with_reducible refine keeps_of_opt (by assumption) ?_)
    | dsimp only)

theorem keeps_execWearReport {u : State} (h : Half) {s : State} (hk : Keeps u s) :
 KeepsOut u (execWearReport h s) := by
  unfold execWearReport
  repeat' (first
    | with_reducible assumption
    | with_reducible apply keeps_mbxServed
    | with_reducible apply keepsOut_next
    | intro _
    | with_reducible apply keepsOut_ite
    | with_reducible apply keeps_ite
    | split
    | (with_reducible refine keeps_of_pair (by assumption) ?_)
    | (with_reducible refine keeps_of_opt (by assumption) ?_)
    | dsimp only)

theorem keeps_execPageProgram {u : State} (h : Half) {s : State} (hk : Keeps u s) :
 KeepsOut u (execPageProgram h s) := by
  unfold execPageProgram
  repeat' (first
    | with_reducible assumption
    | with_reducible apply keeps_mbxServed
    | with_reducible apply keepsOut_next
    | intro _
    | with_reducible apply keepsOut_ite
    | with_reducible apply keeps_ite
    | split
    | (with_reducible refine keeps_of_pair (by assumption) ?_)
    | (with_reducible refine keeps_of_opt (by assumption) ?_)
    | dsimp only)

theorem keeps_execSectorErase {u : State} (h : Half) {s : State} (hk : Keeps u s) :
 KeepsOut u (execSectorErase h s) := by
  unfold execSectorErase
  repeat' (first
    | with_reducible assumption
    | with_reducible apply keeps_mbxServed
    | with_reducible apply keepsOut_next
    | intro _
    | with_reducible apply keepsOut_ite
    | with_reducible apply keeps_ite
    | split
    | (with_reducible refine keeps_of_pair (by assumption) ?_)
    | (with_reducible refine keeps_of_opt (by assumption) ?_)
    | dsimp only)

theorem keeps_mbxCtlWrite {u : State} (h : Half) (v : Word) {s : State} (hk : Keeps u s) :
 Keeps u (mbxCtlWrite h v s) := by
  unfold mbxCtlWrite
  repeat' (first
    | with_reducible assumption
    | with_reducible apply keeps_wrf
    | with_reducible apply keeps_mbxGo
    | intro _
    | with_reducible apply keeps_ite
    | split
    | (with_reducible refine keeps_of_pair (by assumption) ?_)
    | (with_reducible refine keeps_of_opt (by assumption) ?_)
    | dsimp only)

theorem keeps_mbxReqWrite {u : State} (h : Half) (off : Nat) (v : Word) {s : State} (hk : Keeps u s) :
 Keeps u (mbxReqWrite h off v s) := by
  unfold mbxReqWrite
  repeat' (first
    | with_reducible assumption
    | with_reducible apply keeps_wr
    | intro _
    | with_reducible apply keeps_ite
    | split
    | (with_reducible refine keeps_of_pair (by assumption) ?_)
    | (with_reducible refine keeps_of_opt (by assumption) ?_)
    | dsimp only)

theorem keeps_fabricWrite {u : State} (off : Nat) (v : Word) {s : State} (h : Keeps u s) :
 Keeps u (fabricWrite off v s) := by
  unfold fabricWrite
  repeat' (first
    | with_reducible assumption
    | with_reducible apply keeps_mbxCtlWrite
    | with_reducible apply keeps_mbxReqWrite
    | intro _
    | with_reducible apply keeps_ite
    | split
    | (with_reducible refine keeps_of_pair (by assumption) ?_)
    | (with_reducible refine keeps_of_opt (by assumption) ?_)
    | dsimp only)

theorem keeps_fabricRead {u : State} (off : Nat) {s : State} (h : Keeps u s) :
 Keeps u (fabricRead off s).2 := by
  unfold fabricRead
  repeat' (first
    | with_reducible assumption
    | with_reducible apply keeps_wrf
    | intro _
    | with_reducible apply keeps_ite_snd
    | with_reducible apply keeps_ite
    | split
    | (with_reducible refine keeps_of_pair (by assumption) ?_)
    | (with_reducible refine keeps_of_opt (by assumption) ?_)
    | dsimp only)

theorem keeps_mbxRemote {u : State} (m : Msg) {s : State} (h : Keeps u s) :
 Keeps u (mbxRemote m s) := by
  unfold mbxRemote
  repeat' (first
    | with_reducible assumption
    | with_reducible apply keeps_svcReply
    | with_reducible apply keeps_fabricWrite
    | with_reducible apply keeps_fabricRead
    | with_reducible apply keeps_foldl
    | with_reducible apply keeps_foldl_snd
    | intro _
    | with_reducible apply keeps_ite
    | split
    | (with_reducible refine keeps_of_pair (by assumption) ?_)
    | (with_reducible refine keeps_of_opt (by assumption) ?_)
    | dsimp only)

theorem keeps_stewardReplied {u : State} (m : Msg) {s : State} (h : Keeps u s) :
 Keeps u (stewardReplied m s) := by
  unfold stewardReplied
  repeat' (first
    | with_reducible assumption
    | with_reducible apply keeps_pushRead
    | with_reducible apply keeps_deliver
    | with_reducible apply keeps_mdUpd
    | with_reducible apply keeps_confirmAnswer
    | intro _
    | with_reducible apply keeps_ite
    | split
    | (with_reducible refine keeps_of_pair (by assumption) ?_)
    | (with_reducible refine keeps_of_opt (by assumption) ?_)
    | dsimp only)

theorem keeps_mailboxService {u : State} {s : State} (h : Keeps u s) :
 Keeps u (mailboxService s) := by
  unfold mailboxService
  repeat' (first
    | with_reducible assumption
    | with_reducible apply keeps_dropMsg
    | with_reducible apply keeps_receiverCheck
    | with_reducible apply keeps_mbxRemote
    | with_reducible apply keeps_stewardReplied
    | intro _
    | with_reducible apply keeps_ite
    | split
    | (with_reducible refine keeps_of_pair (by assumption) ?_)
    | (with_reducible refine keeps_of_opt (by assumption) ?_)
    | dsimp only)

theorem keeps_execFabricMailboxAccess {u : State} {s : State} (h : Keeps u s) :
 KeepsOut u (execFabricMailboxAccess s) := by
  unfold execFabricMailboxAccess
  repeat' (first
    | with_reducible assumption
    | with_reducible apply keeps_mailboxService
    | with_reducible apply keepsOut_next
    | intro _
    | with_reducible apply keepsOut_ite
    | with_reducible apply keeps_ite
    | split
    | (with_reducible refine keeps_of_pair (by assumption) ?_)
    | (with_reducible refine keeps_of_opt (by assumption) ?_)
    | dsimp only)

end Sys2Proof.Machine
end

