-- ==== Sys2Proof/Laws/KeepsRegRead.lean ====
section
/-! SUPPORT. Every operation of Machine/RegRead.lean keeps (Laws/Keeps.lean). -/
set_option linter.unusedTactic false
set_option linter.unreachableTactic false
set_option linter.unusedVariables false

namespace Sys2Proof.Machine

open Sys2Proof

theorem keeps_latchHigh {u : State} (rq : Requester) (p lowOff : Nat) (v : Word) {s : State} (h : Keeps u s) :
 Keeps u (latchHigh rq p lowOff v s) := by
  unfold latchHigh
  repeat' (first
    | with_reducible assumption
    | with_reducible apply keeps_setDev
    | intro _
    | with_reducible apply keeps_ite
    | split
    | (with_reducible refine keeps_of_pair (by assumption) ?_)
    | (with_reducible refine keeps_of_opt (by assumption) ?_)
    | dsimp only)

theorem keeps_dropLatch {u : State} (rq : Requester) (p lowOff : Nat) {s : State} (h : Keeps u s) :
 Keeps u (dropLatch rq p lowOff s) := by
  unfold dropLatch
  repeat' (first
    | with_reducible assumption
    | with_reducible apply keeps_setDev
    | intro _
    | with_reducible apply keeps_ite
    | split
    | (with_reducible refine keeps_of_pair (by assumption) ?_)
    | (with_reducible refine keeps_of_opt (by assumption) ?_)
    | dsimp only)

theorem keeps_clearRc {u : State} (p off : Nat) {s : State} (h : Keeps u s) :
 Keeps u (clearRc p off s) := by
  unfold clearRc
  repeat' (first
    | with_reducible assumption
    | with_reducible apply keeps_md
    | intro _
    | with_reducible apply keeps_ite
    | split
    | (with_reducible refine keeps_of_pair (by assumption) ?_)
    | (with_reducible refine keeps_of_opt (by assumption) ?_)
    | dsimp only)

theorem keeps_regRead {u : State} (rq : Requester) (p off : Nat) {s : State} (h : Keeps u s) :
 Keeps u (regRead rq p off s) := by
  unfold regRead
  repeat' (first
    | with_reducible assumption
    | with_reducible apply keeps_deliverReg
    | with_reducible apply keeps_bindAccess
    | with_reducible apply keeps_argAccess
    | with_reducible apply keeps_saveRead
    | with_reducible apply keeps_refreshDigest
    | with_reducible apply keeps_latchHigh
    | with_reducible apply keeps_dropLatch
    | with_reducible apply keeps_clearRc
    | intro _
    | with_reducible apply keeps_ite
    | split
    | (with_reducible refine keeps_of_pair (by assumption) ?_)
    | (with_reducible refine keeps_of_opt (by assumption) ?_)
    | dsimp only)

theorem keeps_pageRead {u : State} (rq : Requester) (p off : Nat) {s : State} (h : Keeps u s) :
 Keeps u (pageRead rq p off s) := by
  unfold pageRead
  repeat' (first
    | with_reducible assumption
    | with_reducible apply keeps_deliver
    | with_reducible apply keeps_reservedAccess
    | with_reducible apply keeps_onPageRead
    | with_reducible apply keeps_deliverReg
    | with_reducible apply keeps_scan
    | with_reducible apply keeps_regRead
    | intro _
    | with_reducible apply keeps_ite
    | split
    | (with_reducible refine keeps_of_pair (by assumption) ?_)
    | (with_reducible refine keeps_of_opt (by assumption) ?_)
    | dsimp only)

theorem keeps_execReg64LowRead {u : State} (rq : Requester) (page : Fin 16384) (off : Fin 1024) {s : State} (h : Keeps u s) :
 KeepsOut u (execReg64LowRead rq page off s) := by
  unfold execReg64LowRead
  repeat' (first
    | with_reducible assumption
    | with_reducible apply keeps_pageRead
    | with_reducible apply keepsOut_next
    | intro _
    | with_reducible apply keepsOut_ite
    | with_reducible apply keeps_ite
    | split
    | (with_reducible refine keeps_of_pair (by assumption) ?_)
    | (with_reducible refine keeps_of_opt (by assumption) ?_)
    | dsimp only)

theorem keeps_execRcRead {u : State} (rq : Requester) (page : Fin 16384) (off : Fin 1024) {s : State} (h : Keeps u s) :
 KeepsOut u (execRcRead rq page off s) := by
  unfold execRcRead
  repeat' (first
    | with_reducible assumption
    | with_reducible apply keeps_pageRead
    | with_reducible apply keepsOut_next
    | intro _
    | with_reducible apply keepsOut_ite
    | with_reducible apply keeps_ite
    | split
    | (with_reducible refine keeps_of_pair (by assumption) ?_)
    | (with_reducible refine keeps_of_opt (by assumption) ?_)
    | dsimp only)

end Sys2Proof.Machine
end

