-- ==== Sys2Proof/Laws/KeepsSoftReset.lean ====
section
/-! SUPPORT. Every operation of Machine/SoftReset.lean keeps (Laws/Keeps.lean). -/
set_option linter.unusedTactic false
set_option linter.unreachableTactic false
set_option linter.unusedVariables false

namespace Sys2Proof.Machine

open Sys2Proof

theorem keeps_dropInput {u : State} {s : State} (inp : ChanId) (h : Keeps u s) :
 Keeps u (dropInput s inp) := by
  unfold dropInput
  repeat' (first
    | with_reducible assumption
    | with_reducible apply keeps_mdChan
    | with_reducible apply keeps_send
    | with_reducible apply keeps_release
    | with_reducible apply keeps_replyAs
    | with_reducible apply keeps_buffer
    | with_reducible apply keeps_foldl
    | with_reducible apply keeps_foldl_snd
    | intro _
    | with_reducible apply keeps_ite
    | split
    | (with_reducible refine keeps_of_pair (by assumption) ?_)
    | (with_reducible refine keeps_of_opt (by assumption) ?_)
    | dsimp only)

theorem keeps_dropWaiting {u : State} {s : State} (o : ChanId) (h : Keeps u s) :
 Keeps u (dropWaiting s o) := by
  unfold dropWaiting
  repeat' (first
    | with_reducible assumption
    | with_reducible apply keeps_mdChan
    | intro _
    | with_reducible apply keeps_ite
    | split
    | (with_reducible refine keeps_of_pair (by assumption) ?_)
    | (with_reducible refine keeps_of_opt (by assumption) ?_)
    | dsimp only)

theorem keeps_xbReset {u : State} {s : State} (h : Keeps u s) :
 Keeps u (xbReset s) := by
  unfold xbReset
  repeat' (first
    | with_reducible assumption
    | with_reducible apply keeps_clearStatus
    | with_reducible apply keeps_dropInput
    | with_reducible apply keeps_dropWaiting
    | with_reducible apply keeps_foldl
    | with_reducible apply keeps_foldl_snd
    | intro _
    | with_reducible apply keeps_ite
    | split
    | (with_reducible refine keeps_of_pair (by assumption) ?_)
    | (with_reducible refine keeps_of_opt (by assumption) ?_)
    | dsimp only)

theorem keeps_mmuReset {u : State} {s : State} (h : Keeps u s) :
 Keeps u (mmuReset s) := by
  unfold mmuReset
  repeat' (first
    | with_reducible assumption
    | with_reducible apply keeps_setDma
    | with_reducible apply keeps_clearStatus
    | with_reducible apply keeps_mdMover
    | with_reducible apply keeps_hraEnd
    | with_reducible apply keeps_walkFault
    | with_reducible apply keeps_foldl
    | with_reducible apply keeps_foldl_snd
    | intro _
    | with_reducible apply keeps_ite
    | split
    | (with_reducible refine keeps_of_pair (by assumption) ?_)
    | (with_reducible refine keeps_of_opt (by assumption) ?_)
    | dsimp only)

theorem keeps_foxReset {u : State} {s : State} (h : Keeps u s) :
 Keeps u (foxReset s) := by
  unfold foxReset
  repeat' (first
    | with_reducible assumption
    | with_reducible apply keeps_dropLoad
    | with_reducible apply keeps_clearStatus
    | with_reducible apply keeps_abortStream
    | with_reducible apply keeps_resetSet
    | with_reducible apply keeps_foldl
    | with_reducible apply keeps_foldl_snd
    | intro _
    | with_reducible apply keeps_ite
    | split
    | (with_reducible refine keeps_of_pair (by assumption) ?_)
    | (with_reducible refine keeps_of_opt (by assumption) ?_)
    | dsimp only)

theorem keeps_cscReset {u : State} {s : State} (h : Keeps u s) :
 Keeps u (cscReset s) := by
  unfold cscReset
  repeat' (first
    | with_reducible assumption
    | with_reducible apply keeps_setFox
    | with_reducible apply keeps_setStore
    | with_reducible apply keeps_clearStatus
    | with_reducible apply keeps_slotEnded
    | with_reducible apply keeps_abortStream
    | with_reducible apply keeps_foldl
    | with_reducible apply keeps_foldl_snd
    | intro _
    | with_reducible apply keeps_ite
    | split
    | (with_reducible refine keeps_of_pair (by assumption) ?_)
    | (with_reducible refine keeps_of_opt (by assumption) ?_)
    | dsimp only)

theorem keeps_updReset {u : State} {s : State} (h : Keeps u s) :
 Keeps u (updReset s) := by
  unfold updReset
  repeat' (first
    | with_reducible assumption
    | with_reducible apply keeps_clearStatus
    | with_reducible apply keeps_setUpdState
    | with_reducible apply keeps_updCode
    | with_reducible apply keeps_updHold
    | with_reducible apply keeps_mdUpd
    | with_reducible apply keeps_dropStaging
    | with_reducible apply keeps_serveCancel
    | intro _
    | with_reducible apply keeps_ite
    | split
    | (with_reducible refine keeps_of_pair (by assumption) ?_)
    | (with_reducible refine keeps_of_opt (by assumption) ?_)
    | (with_reducible refine keeps_of_pair3 (by assumption) ?_)
    | dsimp only)

theorem keeps_wpkReset {u : State} {s : State} (h : Keeps u s) :
 Keeps u (wpkReset s) := by
  unfold wpkReset
  repeat' (first
    | with_reducible assumption
    | with_reducible apply keeps_abandonSlice
    | with_reducible apply keeps_clearStatus
    | intro _
    | with_reducible apply keeps_ite
    | split
    | (with_reducible refine keeps_of_pair (by assumption) ?_)
    | (with_reducible refine keeps_of_opt (by assumption) ?_)
    | dsimp only)

theorem keeps_guardReset {u : State} {s : State} (h : Keeps u s) :
 Keeps u (guardReset s) := by
  unfold guardReset
  repeat' (first
    | with_reducible assumption
    | with_reducible apply keeps_wrf
    | with_reducible apply keeps_clearStatus
    | with_reducible apply keeps_zeroiseKeys
    | intro _
    | with_reducible apply keeps_ite
    | split
    | (with_reducible refine keeps_of_pair (by assumption) ?_)
    | (with_reducible refine keeps_of_opt (by assumption) ?_)
    | dsimp only)

theorem keeps_ringSoftReset {u : State} {s : State} (h : Keeps u s) :
 Keeps u (ringSoftReset s) := by
  unfold ringSoftReset
  repeat' (first
    | with_reducible assumption
    | with_reducible apply keeps_setRing
    | with_reducible apply keeps_clearStatus
    | with_reducible apply keeps_segmentDown
    | intro _
    | with_reducible apply keeps_ite
    | split
    | (with_reducible refine keeps_of_pair (by assumption) ?_)
    | (with_reducible refine keeps_of_opt (by assumption) ?_)
    | dsimp only)

theorem keeps_timeReset {u : State} {s : State} (h : Keeps u s) :
 Keeps u (timeReset s) := by
  unfold timeReset
  repeat' (first
    | with_reducible assumption
    | with_reducible apply keeps_setTime
    | with_reducible apply keeps_clearStatus
    | intro _
    | with_reducible apply keeps_ite
    | split
    | (with_reducible refine keeps_of_pair (by assumption) ?_)
    | (with_reducible refine keeps_of_opt (by assumption) ?_)
    | dsimp only)

theorem keeps_pmuReset {u : State} {s : State} (h : Keeps u s) :
 Keeps u (pmuReset s) := by
  unfold pmuReset
  repeat' (first
    | with_reducible assumption
    | with_reducible apply keeps_wrf
    | with_reducible apply keeps_clearStatus
    | with_reducible apply keeps_dropEntry
    | intro _
    | with_reducible apply keeps_ite
    | split
    | (with_reducible refine keeps_of_pair (by assumption) ?_)
    | (with_reducible refine keeps_of_opt (by assumption) ?_)
    | dsimp only)

theorem keeps_rstReset {u : State} {s : State} (h : Keeps u s) :
 Keeps u (rstReset s) := by
  unfold rstReset
  repeat' (first
    | with_reducible assumption
    | with_reducible apply keeps_wrf
    | with_reducible apply keeps_clearStatus
    | intro _
    | with_reducible apply keeps_ite
    | split
    | (with_reducible refine keeps_of_pair (by assumption) ?_)
    | (with_reducible refine keeps_of_opt (by assumption) ?_)
    | dsimp only)

theorem keeps_clkReset {u : State} {s : State} (h : Keeps u s) :
 Keeps u (clkReset s) := by
  unfold clkReset
  repeat' (first
    | with_reducible assumption
    | with_reducible apply keeps_wrf
    | with_reducible apply keeps_clearStatus
    | with_reducible apply keeps_foldl
    | with_reducible apply keeps_foldl_snd
    | intro _
    | with_reducible apply keeps_ite
    | split
    | (with_reducible refine keeps_of_pair (by assumption) ?_)
    | (with_reducible refine keeps_of_opt (by assumption) ?_)
    | dsimp only)

theorem keeps_softReset {u : State} (k : PageKind) (p : Nat) {s : State} (h : Keeps u s) :
 Keeps u (softReset k p s) := by
  unfold softReset
  repeat' (first
    | with_reducible assumption
    | with_reducible apply keeps_clearStatus
    | with_reducible apply keeps_schedSoftReset
    | with_reducible apply keeps_dmaReset
    | with_reducible apply keeps_regionReset
    | with_reducible apply keeps_cdfReset
    | with_reducible apply keeps_disarmSnap
    | with_reducible apply keeps_deviceReset
    | with_reducible apply keeps_xbReset
    | with_reducible apply keeps_mmuReset
    | with_reducible apply keeps_foxReset
    | with_reducible apply keeps_cscReset
    | with_reducible apply keeps_updReset
    | with_reducible apply keeps_wpkReset
    | with_reducible apply keeps_guardReset
    | with_reducible apply keeps_ringSoftReset
    | with_reducible apply keeps_timeReset
    | with_reducible apply keeps_pmuReset
    | with_reducible apply keeps_rstReset
    | with_reducible apply keeps_clkReset
    | intro _
    | with_reducible apply keeps_ite
    | split
    | (with_reducible refine keeps_of_pair (by assumption) ?_)
    | (with_reducible refine keeps_of_opt (by assumption) ?_)
    | dsimp only)

theorem keeps_execPageSoftRst {u : State} (rq : Requester) (page : Fin 16384) {s : State} (h : Keeps u s) :
 KeepsOut u (execPageSoftRst rq page s) := by
  unfold execPageSoftRst
  repeat' (first
    | with_reducible assumption
    | with_reducible apply keeps_reservedAccess
    | with_reducible apply keeps_onPage
    | with_reducible apply keeps_scan
    | with_reducible apply keeps_softReset
    | with_reducible apply keepsOut_next
    | intro _
    | with_reducible apply keepsOut_ite
    | with_reducible apply keeps_ite
    | split
    | (with_reducible refine keeps_of_pair (by assumption) ?_)
    | (with_reducible refine keeps_of_opt (by assumption) ?_)
    | dsimp only)

end Sys2Proof.Machine
end

