-- ==== Sys2Proof/Laws/KeepsRegWrite.lean ====
section
/-! SUPPORT. Every operation of Machine/RegWrite.lean keeps (Laws/Keeps.lean). -/
set_option linter.unusedTactic false
set_option linter.unreachableTactic false
set_option linter.unusedVariables false

namespace Sys2Proof.Machine

open Sys2Proof

theorem keeps_plainWrite {u : State} (p off : Nat) (v : Word) {s : State} (h : Keeps u s) :
 Keeps u (plainWrite p off v s) := by
  unfold plainWrite
  repeat' (first
    | with_reducible assumption
    | with_reducible apply keeps_md
    | intro _
    | with_reducible apply keeps_ite
    | split
    | (with_reducible refine keeps_of_pair (by assumption) ?_)
    | (with_reducible refine keeps_of_opt (by assumption) ?_)
    | dsimp only)

theorem keeps_wideWrite {u : State} (rq : Requester) (p low : Nat) (high : Bool) (v : Word) {s : State} (h : Keeps u s) :
 Keeps u (wideWrite rq p low high v s) := by
  unfold wideWrite
  repeat' (first
    | with_reducible assumption
    | with_reducible apply keeps_wr64
    | with_reducible apply keeps_pairWrite
    | intro _
    | with_reducible apply keeps_ite
    | split
    | (with_reducible refine keeps_of_pair (by assumption) ?_)
    | (with_reducible refine keeps_of_opt (by assumption) ?_)
    | (with_reducible refine keeps_of_first (by assumption) ?_)
    | dsimp only)

theorem keeps_pageCtlWrite {u : State} (k : PageKind) (p : Nat) (v : Word) {s : State} (h : Keeps u s) :
 Keeps u (pageCtlWrite k p v s) := by
  unfold pageCtlWrite
  repeat' (first
    | with_reducible assumption
    | with_reducible apply keeps_md
    | with_reducible apply keeps_softReset
    | intro _
    | with_reducible apply keeps_ite
    | split
    | (with_reducible refine keeps_of_pair (by assumption) ?_)
    | (with_reducible refine keeps_of_opt (by assumption) ?_)
    | dsimp only)

theorem keeps_irqForce {u : State} (k : PageKind) (p : Nat) (v : Word) {s : State} (h : Keeps u s) :
 Keeps u (irqForce k p v s) := by
  unfold irqForce
  repeat' (first
    | with_reducible assumption
    | with_reducible apply keeps_md
    | with_reducible apply keeps_irqChange
    | intro _
    | with_reducible apply keeps_ite
    | split
    | (with_reducible refine keeps_of_pair (by assumption) ?_)
    | (with_reducible refine keeps_of_opt (by assumption) ?_)
    | dsimp only)

theorem keeps_commonWrite {u : State} (k : PageKind) (p off : Nat) (v : Word) {s : State} (h : Keeps u s) :
 Keeps u (commonWrite k p off v s) := by
  unfold commonWrite
  repeat' (first
    | with_reducible assumption
    | with_reducible apply keeps_wr
    | with_reducible apply keeps_md
    | with_reducible apply keeps_irqChange
    | with_reducible apply keeps_errClearRegs
    | with_reducible apply keeps_pageCtlWrite
    | with_reducible apply keeps_irqForce
    | intro _
    | with_reducible apply keeps_ite
    | split
    | (with_reducible refine keeps_of_pair (by assumption) ?_)
    | (with_reducible refine keeps_of_opt (by assumption) ?_)
    | dsimp only)

theorem keeps_devCmd {u : State} (rq : Requester) (code : Nat) {s : State} (h : Keeps u s) :
 Keeps u (devCmd rq code s) := by
  unfold devCmd
  repeat' (first
    | with_reducible assumption
    | with_reducible apply keeps_permFault
    | with_reducible apply keeps_cmdContinue
    | with_reducible apply keeps_cmdEnterSafe
    | with_reducible apply keeps_cmdReboot
    | intro _
    | with_reducible apply keeps_ite
    | split
    | (with_reducible refine keeps_of_pair (by assumption) ?_)
    | (with_reducible refine keeps_of_opt (by assumption) ?_)
    | dsimp only)

theorem keeps_devWrite {u : State} (rq : Requester) (off : Nat) (v : Word) {s : State} (h : Keeps u s) :
 KeepsOpt u (devWrite rq off v s) := by
  unfold devWrite
  repeat' (first
    | with_reducible assumption
    | with_reducible apply keeps_mbxCtlWrite
    | with_reducible apply keeps_mbxReqWrite
    | with_reducible apply keeps_devCmd
    | with_reducible apply keepsOpt_none
    | with_reducible apply keepsOpt_some
    | intro _
    | with_reducible apply keepsOpt_ite
    | with_reducible apply keeps_ite
    | split
    | (with_reducible refine keeps_of_pair (by assumption) ?_)
    | (with_reducible refine keeps_of_opt (by assumption) ?_)
    | dsimp only)

theorem keeps_unlessBad {u : State} (p off : Nat) (bad : Bool) {s : State} (h : Keeps u s) :
 KeepsOpt u (unlessBad p off bad s) := by
  unfold unlessBad
  repeat' (first
    | with_reducible assumption
    | with_reducible apply keeps_permFault
    | with_reducible apply keepsOpt_none
    | with_reducible apply keepsOpt_some
    | intro _
    | with_reducible apply keepsOpt_ite
    | with_reducible apply keeps_ite
    | split
    | (with_reducible refine keeps_of_pair (by assumption) ?_)
    | (with_reducible refine keeps_of_opt (by assumption) ?_)
    | dsimp only)

theorem keeps_rgnWrite {u : State} (rq : Requester) (r off : Nat) (v : Word) {s : State} (h : Keeps u s) :
 KeepsOpt u (rgnWrite rq r off v s) := by
  unfold rgnWrite
  repeat' (first
    | with_reducible assumption
    | with_reducible apply keeps_stageCtl
    | with_reducible apply keeps_unlessBad
    | with_reducible apply keepsOpt_none
    | with_reducible apply keepsOpt_some
    | intro _
    | with_reducible apply keepsOpt_ite
    | with_reducible apply keeps_ite
    | split
    | (with_reducible refine keeps_of_pair (by assumption) ?_)
    | (with_reducible refine keeps_of_opt (by assumption) ?_)
    | dsimp only)

theorem keeps_schCmdWrite {u : State} (v : Word) {s : State} (h : Keeps u s) :
 Keeps u (schCmdWrite v s) := by
  unfold schCmdWrite
  repeat' (first
    | with_reducible assumption
    | with_reducible apply keeps_schCmdRefused
    | with_reducible apply keeps_schCmdPut
    | intro _
    | with_reducible apply keeps_ite
    | split
    | (with_reducible refine keeps_of_pair (by assumption) ?_)
    | (with_reducible refine keeps_of_opt (by assumption) ?_)
    | dsimp only)

theorem keeps_sch0Write {u : State} (rq : Requester) (off : Nat) (v : Word) {s : State} (h : Keeps u s) :
 KeepsOpt u (sch0Write rq off v s) := by
  unfold sch0Write
  repeat' (first
    | with_reducible assumption
    | with_reducible apply keeps_doorbellWrite
    | with_reducible apply keeps_engineWrite
    | with_reducible apply keeps_schCmdWrite
    | with_reducible apply keepsOpt_none
    | with_reducible apply keepsOpt_some
    | intro _
    | with_reducible apply keepsOpt_ite
    | with_reducible apply keeps_ite
    | split
    | (with_reducible refine keeps_of_pair (by assumption) ?_)
    | (with_reducible refine keeps_of_opt (by assumption) ?_)
    | dsimp only)

theorem keeps_sch1Write {u : State} (rq : Requester) (off : Nat) (v : Word) {s : State} (h : Keeps u s) :
 KeepsOpt u (sch1Write rq off v s) := by
  unfold sch1Write
  repeat' (first
    | with_reducible assumption
    | with_reducible apply keeps_ctxWrite
    | with_reducible apply keeps_argAccess
    | with_reducible apply keepsOpt_none
    | with_reducible apply keepsOpt_some
    | intro _
    | with_reducible apply keepsOpt_ite
    | with_reducible apply keeps_ite
    | split
    | (with_reducible refine keeps_of_pair (by assumption) ?_)
    | (with_reducible refine keeps_of_opt (by assumption) ?_)
    | dsimp only)

theorem keeps_sch2Write {u : State} (rq : Requester) (off : Nat) (v : Word) {s : State} (h : Keeps u s) :
 KeepsOpt u (sch2Write rq off v s) := by
  unfold sch2Write
  repeat' (first
    | with_reducible assumption
    | with_reducible apply keeps_bindAccess
    | with_reducible apply keepsOpt_none
    | with_reducible apply keepsOpt_some
    | intro _
    | with_reducible apply keepsOpt_ite
    | with_reducible apply keeps_ite
    | split
    | (with_reducible refine keeps_of_pair (by assumption) ?_)
    | (with_reducible refine keeps_of_opt (by assumption) ?_)
    | dsimp only)

theorem keeps_sch3Write {u : State} (off : Nat) (v : Word) {s : State} (h : Keeps u s) :
 KeepsOpt u (sch3Write off v s) := by
  unfold sch3Write
  repeat' (first
    | with_reducible assumption
    | with_reducible apply keeps_wr
    | with_reducible apply keeps_wrf
    | with_reducible apply keeps_permFault
    | with_reducible apply keeps_plainWrite
    | with_reducible apply keepsOpt_none
    | with_reducible apply keepsOpt_some
    | intro _
    | with_reducible apply keepsOpt_ite
    | with_reducible apply keeps_ite
    | split
    | (with_reducible refine keeps_of_pair (by assumption) ?_)
    | (with_reducible refine keeps_of_opt (by assumption) ?_)
    | dsimp only)

theorem keeps_invalWrite {u : State} (rq : Requester) (v : Word) {s : State} (h : Keeps u s) :
 Keeps u (invalWrite rq v s) := by
  unfold invalWrite
  repeat' (first
    | with_reducible assumption
    | with_reducible apply keeps_invalidate
    | with_reducible apply keeps_invalCmd
    | with_reducible apply keeps_invalidatePage
    | (show Keeps _ _; assumption)
    | (simp only [id]; assumption)
    | intro _
    | with_reducible apply keeps_ite
    | split
    | (with_reducible refine keeps_of_pair (by assumption) ?_)
    | (with_reducible refine keeps_of_opt (by assumption) ?_)
    | dsimp only)

theorem keeps_hraCtlWrite {u : State} (v : Word) {s : State} (h : Keeps u s) :
 Keeps u (hraCtlWrite v s) := by
  unfold hraCtlWrite
  repeat' (first
    | with_reducible assumption
    | with_reducible apply keeps_permFault
    | with_reducible apply keeps_hraGo
    | with_reducible apply keeps_plainWrite
    | intro _
    | with_reducible apply keeps_ite
    | split
    | (with_reducible refine keeps_of_pair (by assumption) ?_)
    | (with_reducible refine keeps_of_opt (by assumption) ?_)
    | dsimp only)

theorem keeps_mmuWrite {u : State} (rq : Requester) (off : Nat) (v : Word) {s : State} (h : Keeps u s) :
 KeepsOpt u (mmuWrite rq off v s) := by
  unfold mmuWrite
  repeat' (first
    | with_reducible assumption
    | with_reducible apply keeps_invalCmd
    | with_reducible apply keeps_spaceWrite
    | with_reducible apply keeps_invalWrite
    | with_reducible apply keeps_hraCtlWrite
    | with_reducible apply keepsOpt_none
    | with_reducible apply keepsOpt_some
    | intro _
    | with_reducible apply keepsOpt_ite
    | with_reducible apply keeps_ite
    | split
    | (with_reducible refine keeps_of_pair (by assumption) ?_)
    | (with_reducible refine keeps_of_opt (by assumption) ?_)
    | dsimp only)

theorem keeps_dmaCtlWrite {u : State} (c : Nat) (v : Word) {s : State} (h : Keeps u s) :
 Keeps u (dmaCtlWrite c v s) := by
  unfold dmaCtlWrite
  repeat' (first
    | with_reducible assumption
    | with_reducible apply keeps_restartChan
    | with_reducible apply keeps_flushChan
    | with_reducible apply keeps_plainWrite
    | intro _
    | with_reducible apply keeps_ite
    | split
    | (with_reducible refine keeps_of_pair (by assumption) ?_)
    | (with_reducible refine keeps_of_opt (by assumption) ?_)
    | dsimp only)

theorem keeps_dmaWrite {u : State} (c off : Nat) (v : Word) {s : State} (h : Keeps u s) :
 KeepsOpt u (dmaWrite c off v s) := by
  unfold dmaWrite
  repeat' (first
    | with_reducible assumption
    | with_reducible apply keeps_submit
    | with_reducible apply keeps_dmaCtlWrite
    | with_reducible apply keepsOpt_none
    | with_reducible apply keepsOpt_some
    | intro _
    | with_reducible apply keepsOpt_ite
    | with_reducible apply keeps_ite
    | split
    | (with_reducible refine keeps_of_pair (by assumption) ?_)
    | (with_reducible refine keeps_of_opt (by assumption) ?_)
    | dsimp only)

theorem keeps_armCtlWrite {u : State} (rq : Requester) (v : Word) {s : State} (h : Keeps u s) :
 Keeps u (armCtlWrite rq v s) := by
  unfold armCtlWrite
  repeat' (first
    | with_reducible assumption
    | with_reducible apply keeps_armSet
    | with_reducible apply keeps_disarmCmd
    | intro _
    | with_reducible apply keeps_ite
    | split
    | (with_reducible refine keeps_of_pair (by assumption) ?_)
    | (with_reducible refine keeps_of_opt (by assumption) ?_)
    | dsimp only)

theorem keeps_foxWrite {u : State} (rq : Requester) (off : Nat) (v : Word) {s : State} (h : Keeps u s) :
 KeepsOpt u (foxWrite rq off v s) := by
  unfold foxWrite
  repeat' (first
    | with_reducible assumption
    | with_reducible apply keeps_loadCtl
    | with_reducible apply keeps_streamWord
    | with_reducible apply keeps_streamCtl
    | with_reducible apply keeps_foxLock
    | with_reducible apply keeps_unlessBad
    | with_reducible apply keeps_armCtlWrite
    | with_reducible apply keepsOpt_none
    | with_reducible apply keepsOpt_some
    | intro _
    | with_reducible apply keepsOpt_ite
    | with_reducible apply keeps_ite
    | split
    | (with_reducible refine keeps_of_pair (by assumption) ?_)
    | (with_reducible refine keeps_of_opt (by assumption) ?_)
    | dsimp only)

theorem keeps_rstCtlWrite {u : State} (v : Word) {s : State} (h : Keeps u s) :
 Keeps u (rstCtlWrite v s) := by
  unfold rstCtlWrite
  repeat' (first
    | with_reducible assumption
    | with_reducible apply keeps_reloadWatchdog
    | with_reducible apply keeps_plainWrite
    | intro _
    | with_reducible apply keeps_ite
    | split
    | (with_reducible refine keeps_of_pair (by assumption) ?_)
    | (with_reducible refine keeps_of_opt (by assumption) ?_)
    | dsimp only)

theorem keeps_rstWrite {u : State} (off : Nat) (v : Word) {s : State} (h : Keeps u s) :
 KeepsOpt u (rstWrite off v s) := by
  unfold rstWrite
  repeat' (first
    | with_reducible assumption
    | with_reducible apply keeps_reloadWatchdog
    | with_reducible apply keeps_unlessBad
    | with_reducible apply keeps_rstCtlWrite
    | with_reducible apply keepsOpt_none
    | with_reducible apply keepsOpt_some
    | intro _
    | with_reducible apply keepsOpt_ite
    | with_reducible apply keeps_ite
    | split
    | (with_reducible refine keeps_of_pair (by assumption) ?_)
    | (with_reducible refine keeps_of_opt (by assumption) ?_)
    | dsimp only)

theorem keeps_guardWrite {u : State} (rq : Requester) (off : Nat) (v : Word) {s : State} (h : Keeps u s) :
 KeepsOpt u (guardWrite rq off v s) := by
  unfold guardWrite
  repeat' (first
    | with_reducible assumption
    | with_reducible apply keeps_setFlash
    | with_reducible apply keeps_pairWrite
    | with_reducible apply keeps_setPassword
    | with_reducible apply keepsOpt_none
    | with_reducible apply keepsOpt_some
    | intro _
    | with_reducible apply keepsOpt_ite
    | with_reducible apply keeps_ite
    | split
    | (with_reducible refine keeps_of_pair (by assumption) ?_)
    | (with_reducible refine keeps_of_opt (by assumption) ?_)
    | (with_reducible refine keeps_of_first (by assumption) ?_)
    | dsimp only)

theorem keeps_updWrite {u : State} (rq : Requester) (off : Nat) (v : Word) {s : State} (h : Keeps u s) :
 KeepsOpt u (updWrite rq off v s) := by
  unfold updWrite
  repeat' (first
    | with_reducible assumption
    | with_reducible apply keeps_bundleWord
    | with_reducible apply keeps_unlessBad
    | with_reducible apply keepsOpt_none
    | with_reducible apply keepsOpt_some
    | intro _
    | with_reducible apply keepsOpt_ite
    | with_reducible apply keeps_ite
    | split
    | (with_reducible refine keeps_of_pair (by assumption) ?_)
    | (with_reducible refine keeps_of_opt (by assumption) ?_)
    | dsimp only)

theorem keeps_rgnPwrWrite {u : State} (v : Word) {s : State} (h : Keeps u s) :
 Keeps u (rgnPwrWrite v s) := by
  unfold rgnPwrWrite
  repeat' (first
    | with_reducible assumption
    | with_reducible apply keeps_regionPower
    | with_reducible apply keeps_plainWrite
    | intro _
    | with_reducible apply keeps_ite
    | split
    | (with_reducible refine keeps_of_pair (by assumption) ?_)
    | (with_reducible refine keeps_of_opt (by assumption) ?_)
    | dsimp only)

theorem keeps_pmuWrite {u : State} (rq : Requester) (off : Nat) (v : Word) {s : State} (h : Keeps u s) :
 KeepsOpt u (pmuWrite rq off v s) := by
  unfold pmuWrite
  repeat' (first
    | with_reducible assumption
    | with_reducible apply keeps_levelReq
    | with_reducible apply keeps_enterState
    | with_reducible apply keeps_wakeNowCmd
    | with_reducible apply keeps_rgnPwrWrite
    | with_reducible apply keepsOpt_none
    | with_reducible apply keepsOpt_some
    | intro _
    | with_reducible apply keepsOpt_ite
    | with_reducible apply keeps_ite
    | split
    | (with_reducible refine keeps_of_pair (by assumption) ?_)
    | (with_reducible refine keeps_of_opt (by assumption) ?_)
    | dsimp only)

theorem keeps_clkWrite {u : State} (off : Nat) (v : Word) {s : State} (h : Keeps u s) :
 KeepsOpt u (clkWrite off v s) := by
  unfold clkWrite
  repeat' (first
    | with_reducible assumption
    | with_reducible apply keeps_islWrite
    | with_reducible apply keeps_clCfgWrite
    | with_reducible apply keeps_stewardClkWrite
    | with_reducible apply keepsOpt_none
    | with_reducible apply keepsOpt_some
    | intro _
    | with_reducible apply keepsOpt_ite
    | with_reducible apply keeps_ite
    | split
    | (with_reducible refine keeps_of_pair (by assumption) ?_)
    | (with_reducible refine keeps_of_opt (by assumption) ?_)
    | dsimp only)

theorem keeps_cellCfgWrite {u : State} (b c : Nat) (v : Word) {s : State} (h : Keeps u s) :
 Keeps u (cellCfgWrite b c v s) := by
  unfold cellCfgWrite
  repeat' (first
    | with_reducible assumption
    | with_reducible apply keeps_wr
    | with_reducible apply keeps_permFault
    | intro _
    | with_reducible apply keeps_ite
    | split
    | (with_reducible refine keeps_of_pair (by assumption) ?_)
    | (with_reducible refine keeps_of_opt (by assumption) ?_)
    | dsimp only)

theorem keeps_iobWrite {u : State} (b off : Nat) (v : Word) {s : State} (h : Keeps u s) :
 KeepsOpt u (iobWrite b off v s) := by
  unfold iobWrite
  repeat' (first
    | with_reducible assumption
    | with_reducible apply keeps_permFault
    | with_reducible apply keeps_vccoUpdate
    | with_reducible apply keeps_dlyWrite
    | with_reducible apply keeps_holdRelease
    | with_reducible apply keeps_plainWrite
    | with_reducible apply keeps_cellCfgWrite
    | with_reducible apply keepsOpt_none
    | with_reducible apply keepsOpt_some
    | intro _
    | with_reducible apply keepsOpt_ite
    | with_reducible apply keeps_ite
    | split
    | (with_reducible refine keeps_of_pair (by assumption) ?_)
    | (with_reducible refine keeps_of_opt (by assumption) ?_)
    | dsimp only)

theorem keeps_wpkWrite {u : State} (off : Nat) (v : Word) {s : State} (h : Keeps u s) :
 KeepsOpt u (wpkWrite off v s) := by
  unfold wpkWrite
  repeat' (first
    | with_reducible assumption
    | with_reducible apply keeps_unlessBad
    | with_reducible apply keepsOpt_none
    | with_reducible apply keepsOpt_some
    | intro _
    | with_reducible apply keepsOpt_ite
    | with_reducible apply keeps_ite
    | split
    | (with_reducible refine keeps_of_pair (by assumption) ?_)
    | (with_reducible refine keeps_of_opt (by assumption) ?_)
    | dsimp only)

theorem keeps_ringWrite {u : State} (off : Nat) (v : Word) {s : State} (h : Keeps u s) :
 KeepsOpt u (ringWrite off v s) := by
  unfold ringWrite
  repeat' (first
    | with_reducible assumption
    | with_reducible apply keeps_rollcallGo
    | with_reducible apply keeps_plainWrite
    | with_reducible apply keepsOpt_none
    | with_reducible apply keepsOpt_some
    | intro _
    | with_reducible apply keepsOpt_ite
    | with_reducible apply keeps_ite
    | split
    | (with_reducible refine keeps_of_pair (by assumption) ?_)
    | (with_reducible refine keeps_of_opt (by assumption) ?_)
    | dsimp only)

theorem keeps_timeWrite {u : State} (off : Nat) (v : Word) {s : State} (h : Keeps u s) :
 KeepsOpt u (timeWrite off v s) := by
  unfold timeWrite
  repeat' (first
    | with_reducible assumption
    | with_reducible apply keeps_decideQuality
    | with_reducible apply keeps_adjWrite
    | with_reducible apply keeps_plainWrite
    | with_reducible apply keeps_unlessBad
    | with_reducible apply keepsOpt_none
    | with_reducible apply keepsOpt_some
    | intro _
    | with_reducible apply keepsOpt_ite
    | with_reducible apply keeps_ite
    | split
    | (with_reducible refine keeps_of_pair (by assumption) ?_)
    | (with_reducible refine keeps_of_opt (by assumption) ?_)
    | dsimp only)

theorem keeps_snapCtlWrite {u : State} (v : Word) {s : State} (h : Keeps u s) :
 Keeps u (snapCtlWrite v s) := by
  unfold snapCtlWrite
  repeat' (first
    | with_reducible assumption
    | with_reducible apply keeps_snapArm
    | with_reducible apply keeps_disarmSnap
    | with_reducible apply keeps_plainWrite
    | intro _
    | with_reducible apply keeps_ite
    | split
    | (with_reducible refine keeps_of_pair (by assumption) ?_)
    | (with_reducible refine keeps_of_opt (by assumption) ?_)
    | dsimp only)

theorem keeps_owlWrite {u : State} (off : Nat) (v : Word) {s : State} (h : Keeps u s) :
 KeepsOpt u (owlWrite off v s) := by
  unfold owlWrite
  repeat' (first
    | with_reducible assumption
    | with_reducible apply keeps_owlPortWrite
    | with_reducible apply keepsOpt_none
    | with_reducible apply keepsOpt_some
    | intro _
    | with_reducible apply keepsOpt_ite
    | with_reducible apply keeps_ite
    | split
    | (with_reducible refine keeps_of_pair (by assumption) ?_)
    | (with_reducible refine keeps_of_opt (by assumption) ?_)
    | dsimp only)

theorem keeps_msixUnmask {u : State} (v : Nat) {s : State} (h : Keeps u s) :
 Keeps u (msixUnmask v s) := by
  unfold msixUnmask
  repeat' (first
    | with_reducible assumption
    | with_reducible apply keeps_setArr
    | with_reducible apply keeps_msixSend
    | intro _
    | with_reducible apply keeps_ite
    | split
    | (with_reducible refine keeps_of_pair (by assumption) ?_)
    | (with_reducible refine keeps_of_opt (by assumption) ?_)
    | dsimp only)

theorem keeps_pcieWrite {u : State} (off : Nat) (v : Word) {s : State} (h : Keeps u s) :
 KeepsOpt u (pcieWrite off v s) := by
  unfold pcieWrite
  repeat' (first
    | with_reducible assumption
    | with_reducible apply keeps_plainWrite
    | with_reducible apply keeps_msixUnmask
    | with_reducible apply keepsOpt_none
    | with_reducible apply keepsOpt_some
    | intro _
    | with_reducible apply keepsOpt_ite
    | with_reducible apply keeps_ite
    | split
    | (with_reducible refine keeps_of_pair (by assumption) ?_)
    | (with_reducible refine keeps_of_opt (by assumption) ?_)
    | dsimp only)

theorem keeps_actionWrite {u : State} (rq : Requester) (k : PageKind) (p off : Nat) (v : Word) {s : State} (h : Keeps u s) :
 KeepsOpt u (actionWrite rq k p off v s) := by
  unfold actionWrite
  repeat' (first
    | with_reducible assumption
    | with_reducible apply keeps_slotErase
    | with_reducible apply keeps_devWrite
    | with_reducible apply keeps_unlessBad
    | with_reducible apply keeps_rgnWrite
    | with_reducible apply keeps_sch0Write
    | with_reducible apply keeps_sch1Write
    | with_reducible apply keeps_sch2Write
    | with_reducible apply keeps_sch3Write
    | with_reducible apply keeps_mmuWrite
    | with_reducible apply keeps_dmaWrite
    | with_reducible apply keeps_foxWrite
    | with_reducible apply keeps_rstWrite
    | with_reducible apply keeps_guardWrite
    | with_reducible apply keeps_updWrite
    | with_reducible apply keeps_pmuWrite
    | with_reducible apply keeps_clkWrite
    | with_reducible apply keeps_iobWrite
    | with_reducible apply keeps_wpkWrite
    | with_reducible apply keeps_ringWrite
    | with_reducible apply keeps_timeWrite
    | with_reducible apply keeps_snapCtlWrite
    | with_reducible apply keeps_owlWrite
    | with_reducible apply keeps_pcieWrite
    | with_reducible apply keepsOpt_none
    | with_reducible apply keepsOpt_some
    | intro _
    | with_reducible apply keepsOpt_ite
    | with_reducible apply keeps_ite
    | split
    | (with_reducible refine keeps_of_pair (by assumption) ?_)
    | (with_reducible refine keeps_of_opt (by assumption) ?_)
    | dsimp only)

theorem keeps_regWrite {u : State} (rq : Requester) (k : PageKind) (p off : Nat) (v : Word) {s : State} (h : Keeps u s) :
 Keeps u (regWrite rq k p off v s) := by
  unfold regWrite
  repeat' (first
    | with_reducible assumption
    | with_reducible apply keeps_plainWrite
    | with_reducible apply keeps_wideWrite
    | with_reducible apply keeps_commonWrite
    | with_reducible apply keeps_actionWrite
    | intro _
    | with_reducible apply keeps_ite
    | split
    | (with_reducible refine keeps_of_pair (by assumption) ?_)
    | (with_reducible refine keeps_of_opt (by assumption) ?_)
    | dsimp only)

theorem keeps_pageWrite {u : State} (rq : Requester) (p off : Nat) (v : Word) {s : State} (h : Keeps u s) :
 Keeps u (pageWrite rq p off v s) := by
  unfold pageWrite
  repeat' (first
    | with_reducible assumption
    | with_reducible apply keeps_reservedAccess
    | with_reducible apply keeps_onPage
    | with_reducible apply keeps_scan
    | with_reducible apply keeps_regWrite
    | intro _
    | with_reducible apply keeps_ite
    | split
    | (with_reducible refine keeps_of_pair (by assumption) ?_)
    | (with_reducible refine keeps_of_opt (by assumption) ?_)
    | dsimp only)

theorem keeps_execErrClear {u : State} (rq : Requester) (page : Fin 16384) {s : State} (h : Keeps u s) :
 KeepsOut u (execErrClear rq page s) := by
  unfold execErrClear
  repeat' (first
    | with_reducible assumption
    | with_reducible apply keeps_pageWrite
    | with_reducible apply keepsOut_next
    | intro _
    | with_reducible apply keepsOut_ite
    | with_reducible apply keeps_ite
    | split
    | (with_reducible refine keeps_of_pair (by assumption) ?_)
    | (with_reducible refine keeps_of_opt (by assumption) ?_)
    | dsimp only)

theorem keeps_execIrqForce {u : State} (rq : Requester) (page : Fin 16384) (v : Word) {s : State} (h : Keeps u s) :
 KeepsOut u (execIrqForce rq page v s) := by
  unfold execIrqForce
  repeat' (first
    | with_reducible assumption
    | with_reducible apply keeps_pageWrite
    | with_reducible apply keepsOut_next
    | intro _
    | with_reducible apply keepsOut_ite
    | with_reducible apply keeps_ite
    | split
    | (with_reducible refine keeps_of_pair (by assumption) ?_)
    | (with_reducible refine keeps_of_opt (by assumption) ?_)
    | dsimp only)

theorem keeps_sizeRefused {u : State} (addr : Nat) {s : State} (h : Keeps u s) :
 Keeps u (sizeRefused addr s) := by
  unfold sizeRefused
  repeat' (first
    | with_reducible assumption
    | with_reducible apply keeps_err
    | intro _
    | with_reducible apply keeps_ite
    | split
    | (with_reducible refine keeps_of_pair (by assumption) ?_)
    | (with_reducible refine keeps_of_opt (by assumption) ?_)
    | dsimp only)

theorem keeps_windowWrite {u : State} (rq : Requester) (addr size : Nat) (v : BitVec 64) {s : State} (h : Keeps u s) :
 Keeps u (windowWrite rq addr size v s) := by
  unfold windowWrite
  repeat' (first
    | with_reducible assumption
    | with_reducible apply keeps_scan
    | with_reducible apply keeps_pageWrite
    | with_reducible apply keeps_sizeRefused
    | intro _
    | with_reducible apply keeps_ite
    | split
    | (with_reducible refine keeps_of_pair (by assumption) ?_)
    | (with_reducible refine keeps_of_opt (by assumption) ?_)
    | dsimp only)

theorem keeps_execRegisterWrite {u : State} (rq : Requester) (addr : BitVec 26) (size : Nat) (v : BitVec 64) {s : State} (h : Keeps u s) :
 KeepsOut u (execRegisterWrite rq addr size v s) := by
  unfold execRegisterWrite
  repeat' (first
    | with_reducible assumption
    | with_reducible apply keeps_windowWrite
    | with_reducible apply keepsOut_next
    | intro _
    | with_reducible apply keepsOut_ite
    | with_reducible apply keeps_ite
    | split
    | (with_reducible refine keeps_of_pair (by assumption) ?_)
    | (with_reducible refine keeps_of_opt (by assumption) ?_)
    | dsimp only)

end Sys2Proof.Machine
end

