-- ==== Sys2Proof/Laws/KeepsBus.lean ====
section
/-! SUPPORT. Every operation of Machine/Bus.lean keeps (Laws/Keeps.lean). -/
set_option linter.unusedTactic false
set_option linter.unreachableTactic false
set_option linter.unusedVariables false

namespace Sys2Proof.Machine

open Sys2Proof

theorem keeps_busWrite {u : State} (rq : Requester) (a size : Nat) (v : BitVec 64) {s : State} (h : Keeps u s) :
 Keeps u (busWrite rq a size v s) := by
  unfold busWrite
  repeat' (first
    | with_reducible assumption
    | with_reducible apply keeps_reservedAccess
    | with_reducible apply keeps_bankAccess
    | with_reducible apply keeps_arrayWrite
    | with_reducible apply keeps_arrayWriteRefused
    | with_reducible apply keeps_scan
    | with_reducible apply keeps_windowWrite
    | intro _
    | with_reducible apply keeps_ite
    | split
    | (with_reducible refine keeps_of_pair (by assumption) ?_)
    | (with_reducible refine keeps_of_opt (by assumption) ?_)
    | dsimp only)

theorem keeps_windowRead {u : State} (rq : Requester) (addr size : Nat) {s : State} (h : Keeps u s) :
 Keeps u (windowRead rq addr size s) := by
  unfold windowRead
  repeat' (first
    | with_reducible assumption
    | with_reducible apply keeps_deliver
    | with_reducible apply keeps_pageRead
    | with_reducible apply keeps_sizeRefused
    | intro _
    | with_reducible apply keeps_ite
    | split
    | (with_reducible refine keeps_of_pair (by assumption) ?_)
    | (with_reducible refine keeps_of_opt (by assumption) ?_)
    | dsimp only)

theorem keeps_busRead {u : State} (rq : Requester) (a size : Nat) {s : State} (h : Keeps u s) :
 Keeps u (busRead rq a size s) := by
  unfold busRead
  repeat' (first
    | with_reducible assumption
    | with_reducible apply keeps_deliver
    | with_reducible apply keeps_reservedAccess
    | with_reducible apply keeps_bankAccess
    | with_reducible apply keeps_arrayRead
    | with_reducible apply keeps_scan
    | with_reducible apply keeps_windowRead
    | intro _
    | with_reducible apply keeps_ite
    | split
    | (with_reducible refine keeps_of_pair (by assumption) ?_)
    | (with_reducible refine keeps_of_opt (by assumption) ?_)
    | dsimp only)

theorem keeps_hostRead {u : State} (a size : Nat) {s : State} (h : Keeps u s) :
 Keeps u (hostRead a size s) := by
  unfold hostRead
  repeat' (first
    | with_reducible assumption
    | with_reducible apply keeps_setIo
    | with_reducible apply keeps_busRead
    | intro _
    | with_reducible apply keeps_ite
    | split
    | (with_reducible refine keeps_of_pair (by assumption) ?_)
    | (with_reducible refine keeps_of_opt (by assumption) ?_)
    | dsimp only)

theorem keeps_hostResume {u : State} (n : Nat) {s : State} (h : Keeps u s) : Keeps u (hostResume n s) := by
  induction n generalizing s with
  | zero => exact h
  | succ n ih =>
    unfold hostResume
    repeat' (first
      | with_reducible assumption
      | with_reducible apply ih
      | with_reducible apply keeps_busRead
      | with_reducible apply keeps_setIo
      | (with_reducible refine keeps_of_pair (by assumption) ?_)
      | split
      | dsimp only)

theorem keeps_qspiApply {u : State} (a w : Word) {s : State} (h : Keeps u s) :
 Keeps u (qspiApply a w s) := by
  unfold qspiApply
  repeat' (first
    | with_reducible assumption
    | with_reducible apply keeps_reservedAccess
    | with_reducible apply keeps_scan
    | with_reducible apply keeps_busWrite
    | intro _
    | with_reducible apply keeps_ite
    | split
    | (with_reducible refine keeps_of_pair (by assumption) ?_)
    | (with_reducible refine keeps_of_opt (by assumption) ?_)
    | dsimp only)

theorem keeps_qspiDrainOne {u : State} {s : State} (h : Keeps u s) :
 Keeps u (qspiDrainOne s) := by
  unfold qspiDrainOne
  repeat' (first
    | with_reducible assumption
    | with_reducible apply keeps_setIo
    | with_reducible apply keeps_qspiApply
    | intro _
    | with_reducible apply keeps_ite
    | split
    | (with_reducible refine keeps_of_pair (by assumption) ?_)
    | (with_reducible refine keeps_of_opt (by assumption) ?_)
    | dsimp only)

theorem keeps_qspiDrain {u : State} (n : Nat) {s : State} (h : Keeps u s) : Keeps u (qspiDrain n s) := by
  induction n generalizing s with
  | zero => exact h
  | succ n ih => exact ih (keeps_qspiDrainOne h)

theorem keeps_qspiWrite {u : State} (addr : Word) (words : List Word) {s : State} (h : Keeps u s) :
 Keeps u (qspiWrite addr words s) := by
  unfold qspiWrite
  repeat' (first
    | with_reducible assumption
    | with_reducible apply keeps_setIo
    | with_reducible apply keeps_foldl
    | with_reducible apply keeps_foldl_snd
    | intro _
    | with_reducible apply keeps_ite
    | split
    | (with_reducible refine keeps_of_pair (by assumption) ?_)
    | (with_reducible refine keeps_of_opt (by assumption) ?_)
    | dsimp only)

theorem keeps_execQspiWrite {u : State} (addr : Word) (words : List Word) {s : State} (h : Keeps u s) :
 KeepsOut u (execQspiWrite addr words s) := by
  unfold execQspiWrite
  repeat' (first
    | with_reducible assumption
    | with_reducible apply keeps_qspiWrite
    | with_reducible apply keepsOut_next
    | intro _
    | with_reducible apply keepsOut_ite
    | with_reducible apply keeps_ite
    | split
    | (with_reducible refine keeps_of_pair (by assumption) ?_)
    | (with_reducible refine keeps_of_opt (by assumption) ?_)
    | dsimp only)

theorem keeps_qspiRead {u : State} (addr : Word) {s : State} (h : Keeps u s) :
 Keeps u (qspiRead addr s) := by
  unfold qspiRead
  repeat' (first
    | with_reducible assumption
    | with_reducible apply keeps_setIo
    | with_reducible apply keeps_deliver
    | with_reducible apply keeps_reservedAccess
    | with_reducible apply keeps_scan
    | with_reducible apply keeps_hostRead
    | with_reducible apply keeps_qspiDrain
    | intro _
    | with_reducible apply keeps_ite
    | split
    | (with_reducible refine keeps_of_pair (by assumption) ?_)
    | (with_reducible refine keeps_of_opt (by assumption) ?_)
    | dsimp only)

theorem keeps_execQspiRead {u : State} (addr : Word) {s : State} (h : Keeps u s) :
 KeepsOut u (execQspiRead addr s) := by
  unfold execQspiRead
  repeat' (first
    | with_reducible assumption
    | with_reducible apply keeps_qspiRead
    | with_reducible apply keepsOut_next
    | intro _
    | with_reducible apply keepsOut_ite
    | with_reducible apply keeps_ite
    | split
    | (with_reducible refine keeps_of_pair (by assumption) ?_)
    | (with_reducible refine keeps_of_opt (by assumption) ?_)
    | dsimp only)

theorem keeps_qspiReadTimeout {u : State} {s : State} (h : Keeps u s) :
 Keeps u (qspiReadTimeout s) := by
  unfold qspiReadTimeout
  repeat' (first
    | with_reducible assumption
    | with_reducible apply keeps_setIo
    | with_reducible apply keeps_err
    | intro _
    | with_reducible apply keeps_ite
    | split
    | (with_reducible refine keeps_of_pair (by assumption) ?_)
    | (with_reducible refine keeps_of_opt (by assumption) ?_)
    | dsimp only)

theorem keeps_execQspiReadTimeout {u : State} {s : State} (h : Keeps u s) :
 KeepsOut u (execQspiReadTimeout s) := by
  unfold execQspiReadTimeout
  repeat' (first
    | with_reducible assumption
    | with_reducible apply keeps_qspiReadTimeout
    | with_reducible apply keepsOut_next
    | intro _
    | with_reducible apply keepsOut_ite
    | with_reducible apply keeps_ite
    | split
    | (with_reducible refine keeps_of_pair (by assumption) ?_)
    | (with_reducible refine keeps_of_opt (by assumption) ?_)
    | dsimp only)

theorem keeps_qspiStatus {u : State} {s : State} (h : Keeps u s) :
 Keeps u (qspiStatus s) := by
  unfold qspiStatus
  repeat' (first
    | with_reducible assumption
    | with_reducible apply keeps_setIo
    | intro _
    | with_reducible apply keeps_ite
    | split
    | (with_reducible refine keeps_of_pair (by assumption) ?_)
    | (with_reducible refine keeps_of_opt (by assumption) ?_)
    | dsimp only)

theorem keeps_execQspiStatus {u : State} {s : State} (h : Keeps u s) :
 KeepsOut u (execQspiStatus s) := by
  unfold execQspiStatus
  repeat' (first
    | with_reducible assumption
    | with_reducible apply keeps_qspiStatus
    | with_reducible apply keepsOut_next
    | intro _
    | with_reducible apply keepsOut_ite
    | with_reducible apply keeps_ite
    | split
    | (with_reducible refine keeps_of_pair (by assumption) ?_)
    | (with_reducible refine keeps_of_opt (by assumption) ?_)
    | dsimp only)

end Sys2Proof.Machine
end

