-- ==== Sys2Proof/Laws/KeepsMover.lean ====
section
/-! SUPPORT. Every operation of Machine/Mover.lean keeps (Laws/Keeps.lean). -/
set_option linter.unusedTactic false
set_option linter.unreachableTactic false
set_option linter.unusedVariables false

namespace Sys2Proof.Machine

open Sys2Proof

theorem keeps_readPlace {u : State} (pl : Place) {s : State} (h : Keeps u s) :
 Keeps u (readPlace pl s).2 := by
  unfold readPlace
  repeat' (first
    | with_reducible assumption
    | with_reducible apply keeps_setIo
    | with_reducible apply keeps_drawn
    | with_reducible apply keeps_flashRead
    | with_reducible apply keeps_pageRead
    | intro _
    | with_reducible apply keeps_ite_snd
    | with_reducible apply keeps_ite
    | split
    | (with_reducible refine keeps_of_pair (by assumption) ?_)
    | (with_reducible refine keeps_of_opt (by assumption) ?_)
    | dsimp only)

theorem keeps_writePlace {u : State} (pl : Place) (x : TWord) {s : State} (h : Keeps u s) :
 Keeps u (writePlace pl x s).2 := by
  unfold writePlace
  repeat' (first
    | with_reducible assumption
    | with_reducible apply keeps_setIo
    | with_reducible apply keeps_pageWrite
    | intro _
    | with_reducible apply keeps_ite_snd
    | with_reducible apply keeps_ite
    | split
    | (with_reducible refine keeps_of_pair (by assumption) ?_)
    | (with_reducible refine keeps_of_opt (by assumption) ?_)
    | dsimp only)

theorem keeps_readAt {u : State} (e : Nat) (pl : Place) {s : State} (h : Keeps u s) :
 Keeps u (readAt e pl s).2 := by
  unfold readAt
  repeat' (first
    | with_reducible assumption
    | with_reducible apply keeps_viaPort
    | with_reducible apply keeps_readPlace
    | intro _
    | with_reducible apply keeps_ite_snd
    | with_reducible apply keeps_ite
    | split
    | (with_reducible refine keeps_of_pair (by assumption) ?_)
    | (with_reducible refine keeps_of_opt (by assumption) ?_)
    | dsimp only)

theorem keeps_writeAt {u : State} (e : Nat) (pl : Place) (x : TWord) {s : State} (h : Keeps u s) :
 Keeps u (writeAt e pl x s).2 := by
  unfold writeAt
  repeat' (first
    | with_reducible assumption
    | with_reducible apply keeps_viaPort
    | with_reducible apply keeps_writePlace
    | intro _
    | with_reducible apply keeps_ite_snd
    | with_reducible apply keeps_ite
    | split
    | (with_reducible refine keeps_of_pair (by assumption) ?_)
    | (with_reducible refine keeps_of_opt (by assumption) ?_)
    | dsimp only)

theorem keeps_agentRefused {u : State} {s : State} (h : Keeps u s) :
 Keeps u (agentRefused s) := by
  unfold agentRefused
  repeat' (first
    | with_reducible assumption
    | with_reducible apply keeps_count
    | with_reducible apply keeps_irq
    | intro _
    | with_reducible apply keeps_ite
    | split
    | (with_reducible refine keeps_of_pair (by assumption) ?_)
    | (with_reducible refine keeps_of_opt (by assumption) ?_)
    | dsimp only)

theorem keeps_writeVia {u : State} (e pa : Nat) (x : TWord) {s : State} (h : Keeps u s) :
 Keeps u (writeVia e pa x s).2 := by
  unfold writeVia
  repeat' (first
    | with_reducible assumption
    | with_reducible apply keeps_writeAt
    | with_reducible apply keeps_agentRefused
    | intro _
    | with_reducible apply keeps_ite_snd
    | with_reducible apply keeps_ite
    | split
    | (with_reducible refine keeps_of_pair (by assumption) ?_)
    | (with_reducible refine keeps_of_opt (by assumption) ?_)
    | dsimp only)

theorem keeps_choose {u : State} (m : Nat) {s : State} (h : Keeps u s) :
 Keeps u (choose m s) := by
  unfold choose
  repeat' (first
    | with_reducible assumption
    | with_reducible apply keeps_count
    | with_reducible apply keeps_mdMover
    | with_reducible apply keeps_foldl
    | with_reducible apply keeps_foldl_snd
    | intro _
    | with_reducible apply keeps_ite
    | split
    | (with_reducible refine keeps_of_pair (by assumption) ?_)
    | (with_reducible refine keeps_of_opt (by assumption) ?_)
    | dsimp only)

theorem keeps_mdCur {u : State} (c : Nat) (f : Cur → Cur) {s : State} (h : Keeps u s) :
 Keeps u (mdCur c f s) := by
  unfold mdCur
  repeat' (first
    | with_reducible assumption
    | with_reducible apply keeps_mdDchan
    | intro _
    | with_reducible apply keeps_ite
    | split
    | (with_reducible refine keeps_of_pair (by assumption) ?_)
    | (with_reducible refine keeps_of_opt (by assumption) ?_)
    | dsimp only)

theorem keeps_movedWord {u : State} (d : Desc) (x : TWord) {s : State} (h : Keeps u s) :
 Keeps u (movedWord d x s).2 := by
  unfold movedWord
  repeat' (first
    | with_reducible assumption
    | with_reducible apply keeps_drawn
    | intro _
    | with_reducible apply keeps_ite_snd
    | with_reducible apply keeps_ite
    | split
    | (with_reducible refine keeps_of_pair (by assumption) ?_)
    | (with_reducible refine keeps_of_opt (by assumption) ?_)
    | dsimp only)

theorem keeps_xlateFor {u : State} (m c va : Nat) (write : Bool) {s : State} (h : Keeps u s) :
 Keeps u (xlateFor m c va write s).2 := by
  unfold xlateFor
  repeat' (first
    | with_reducible assumption
    | with_reducible apply keeps_descFault
    | with_reducible apply keeps_translate
    | with_reducible apply keeps_startWalk
    | intro _
    | with_reducible apply keeps_ite_snd
    | with_reducible apply keeps_ite
    | split
    | (with_reducible refine keeps_of_pair (by assumption) ?_)
    | (with_reducible refine keeps_of_opt (by assumption) ?_)
    | dsimp only)

theorem keeps_remoteRun {u : State} (m c va pa off left : Nat) (fixed write : Bool) {s : State} (h : Keeps u s) :
 Keeps u (remoteRun m c va pa off left fixed write s).2 := by
  unfold remoteRun
  repeat' (first
    | with_reducible assumption
    | with_reducible apply keeps_descFault
    | with_reducible apply keeps_xlateFor
    | intro _
    | with_reducible apply keeps_ite_snd
    | with_reducible apply keeps_ite
    | split
    | (with_reducible refine keeps_of_pair (by assumption) ?_)
    | (with_reducible refine keeps_of_opt (by assumption) ?_)
    | dsimp only)

theorem keeps_remoteRequest {u : State} (write : Bool) (node tag off len : Nat) (ws : List TWord) {s : State} (h : Keeps u s) :
 Keeps u (remoteRequest write node tag off len ws s) := by
  unfold remoteRequest
  repeat' (first
    | with_reducible assumption
    | with_reducible apply keeps_send
    | intro _
    | with_reducible apply keeps_ite
    | split
    | (with_reducible refine keeps_of_pair (by assumption) ?_)
    | (with_reducible refine keeps_of_opt (by assumption) ?_)
    | dsimp only)

theorem keeps_sendGather {u : State} (c : Nat) (cur : Cur) {s : State} (h : Keeps u s) :
 Keeps u (sendGather c cur s) := by
  unfold sendGather
  repeat' (first
    | with_reducible assumption
    | with_reducible apply keeps_mdCur
    | with_reducible apply keeps_remoteRequest
    | intro _
    | with_reducible apply keeps_ite
    | split
    | (with_reducible refine keeps_of_pair (by assumption) ?_)
    | (with_reducible refine keeps_of_opt (by assumption) ?_)
    | dsimp only)

theorem keeps_endBlock {u : State} (c : Nat) (cur : Cur) {s : State} (h : Keeps u s) :
 Keeps u (endBlock c cur s) := by
  unfold endBlock
  repeat' (first
    | with_reducible assumption
    | with_reducible apply keeps_count
    | with_reducible apply keeps_unserve
    | with_reducible apply keeps_descDone
    | with_reducible apply keeps_mdCur
    | intro _
    | with_reducible apply keeps_ite
    | split
    | (with_reducible refine keeps_of_pair (by assumption) ?_)
    | (with_reducible refine keeps_of_opt (by assumption) ?_)
    | dsimp only)

theorem keeps_putWord {u : State} (m c : Nat) (cur : Cur) (pa : Nat) (x : TWord) {s : State} (h : Keeps u s) :
 Keeps u (putWord m c cur pa x s).2 := by
  unfold putWord
  repeat' (first
    | with_reducible assumption
    | with_reducible apply keeps_count
    | with_reducible apply keeps_descFault
    | with_reducible apply keeps_writeVia
    | with_reducible apply keeps_mdCur
    | with_reducible apply keeps_movedWord
    | with_reducible apply keeps_remoteRun
    | intro _
    | with_reducible apply keeps_ite_snd
    | with_reducible apply keeps_ite
    | split
    | (with_reducible refine keeps_of_pair (by assumption) ?_)
    | (with_reducible refine keeps_of_opt (by assumption) ?_)
    | dsimp only)

theorem keeps_getWord {u : State} (m c : Nat) (cur : Cur) (pa : Nat) {s : State} (h : Keeps u s) :
 Keeps u (getWord m c cur pa s).2 := by
  unfold getWord
  repeat' (first
    | with_reducible assumption
    | with_reducible apply keeps_readAt
    | with_reducible apply keeps_mdCur
    | with_reducible apply keeps_remoteRun
    | with_reducible apply keeps_remoteRequest
    | intro _
    | with_reducible apply keeps_ite_snd
    | with_reducible apply keeps_ite
    | split
    | (with_reducible refine keeps_of_pair (by assumption) ?_)
    | (with_reducible refine keeps_of_opt (by assumption) ?_)
    | dsimp only)

theorem keeps_moveStep {u : State} (m c : Nat) {s : State} (h : Keeps u s) :
 Keeps u (moveStep m c s).2 := by
  unfold moveStep
  repeat' (first
    | with_reducible assumption
    | with_reducible apply keeps_xlateFor
    | with_reducible apply keeps_sendGather
    | with_reducible apply keeps_endBlock
    | with_reducible apply keeps_putWord
    | with_reducible apply keeps_getWord
    | intro _
    | with_reducible apply keeps_ite_snd
    | with_reducible apply keeps_ite
    | split
    | (with_reducible refine keeps_of_pair (by assumption) ?_)
    | (with_reducible refine keeps_of_opt (by assumption) ?_)
    | dsimp only)

theorem keeps_moveLoop {u : State} (n m c : Nat) {s : State} (h : Keeps u s) : Keeps u (moveLoop n m c s) := by
  induction n generalizing s with
  | zero => exact h
  | succ n ih =>
    unfold moveLoop
    repeat' (first
      | with_reducible assumption
      | with_reducible apply ih
      | with_reducible apply keeps_moveStep
      | (with_reducible refine keeps_of_pair (by assumption) ?_)
      | split
      | dsimp only)

theorem keeps_moverWork {u : State} (m : Nat) {s : State} (h : Keeps u s) :
 Keeps u (moverWork m s) := by
  unfold moverWork
  repeat' (first
    | with_reducible assumption
    | with_reducible apply keeps_choose
    | with_reducible apply keeps_moveLoop
    | intro _
    | with_reducible apply keeps_ite
    | split
    | (with_reducible refine keeps_of_pair (by assumption) ?_)
    | (with_reducible refine keeps_of_opt (by assumption) ?_)
    | dsimp only)

theorem keeps_execMoverBlockDone {u : State} (m : Fin 4) {s : State} (h : Keeps u s) :
 KeepsOut u (execMoverBlockDone m s) := by
  unfold execMoverBlockDone
  repeat' (first
    | with_reducible assumption
    | with_reducible apply keeps_moverWork
    | with_reducible apply keepsOut_next
    | intro _
    | with_reducible apply keepsOut_ite
    | with_reducible apply keeps_ite
    | split
    | (with_reducible refine keeps_of_pair (by assumption) ?_)
    | (with_reducible refine keeps_of_opt (by assumption) ?_)
    | dsimp only)

theorem keeps_chanReply {u : State} (c : Nat) (m : Msg) {s : State} (h : Keeps u s) :
 Keeps u (chanReply c m s) := by
  unfold chanReply
  repeat' (first
    | with_reducible assumption
    | with_reducible apply keeps_countN
    | with_reducible apply keeps_descFault
    | with_reducible apply keeps_mdCur
    | intro _
    | with_reducible apply keeps_ite
    | split
    | (with_reducible refine keeps_of_pair (by assumption) ?_)
    | (with_reducible refine keeps_of_opt (by assumption) ?_)
    | dsimp only)

theorem keeps_remoteReply {u : State} {s : State} (h : Keeps u s) :
 Keeps u (remoteReply s) := by
  unfold remoteReply
  repeat' (first
    | with_reducible assumption
    | with_reducible apply keeps_dropMsg
    | with_reducible apply keeps_receiverCheck
    | with_reducible apply keeps_choose
    | with_reducible apply keeps_moverWork
    | with_reducible apply keeps_chanReply
    | intro _
    | with_reducible apply keeps_ite
    | split
    | (with_reducible refine keeps_of_pair (by assumption) ?_)
    | (with_reducible refine keeps_of_opt (by assumption) ?_)
    | dsimp only)

theorem keeps_execRemoteReply {u : State} {s : State} (h : Keeps u s) :
 KeepsOut u (execRemoteReply s) := by
  unfold execRemoteReply
  repeat' (first
    | with_reducible assumption
    | with_reducible apply keeps_remoteReply
    | with_reducible apply keepsOut_next
    | intro _
    | with_reducible apply keepsOut_ite
    | with_reducible apply keeps_ite
    | split
    | (with_reducible refine keeps_of_pair (by assumption) ?_)
    | (with_reducible refine keeps_of_opt (by assumption) ?_)
    | dsimp only)

theorem keeps_hraGot {u : State} (x : TWord) {s : State} (h : Keeps u s) :
 Keeps u (hraGot x s) := by
  unfold hraGot
  repeat' (first
    | with_reducible assumption
    | with_reducible apply keeps_hraEnd
    | intro _
    | with_reducible apply keeps_ite
    | split
    | (with_reducible refine keeps_of_pair (by assumption) ?_)
    | (with_reducible refine keeps_of_opt (by assumption) ?_)
    | dsimp only)

theorem keeps_hraReply {u : State} (write : Bool) {s : State} (h : Keeps u s) :
 Keeps u (hraReply write s) := by
  unfold hraReply
  repeat' (first
    | with_reducible assumption
    | with_reducible apply keeps_dropMsg
    | with_reducible apply keeps_receiverCheck
    | with_reducible apply keeps_hraEnd
    | with_reducible apply keeps_hraGot
    | intro _
    | with_reducible apply keeps_ite
    | split
    | (with_reducible refine keeps_of_pair (by assumption) ?_)
    | (with_reducible refine keeps_of_opt (by assumption) ?_)
    | dsimp only)

theorem keeps_misaligned {u : State} (pa : Nat) {s : State} (h : Keeps u s) :
 Keeps u (misaligned pa s) := by
  unfold misaligned
  repeat' (first
    | with_reducible assumption
    | with_reducible apply keeps_err
    | with_reducible apply keeps_sizeRefused
    | intro _
    | with_reducible apply keeps_ite
    | split
    | (with_reducible refine keeps_of_pair (by assumption) ?_)
    | (with_reducible refine keeps_of_opt (by assumption) ?_)
    | dsimp only)

theorem keeps_hraAt {u : State} (write : Bool) (pa : Nat) {s : State} (h : Keeps u s) :
 Keeps u (hraAt write pa s) := by
  unfold hraAt
  repeat' (first
    | with_reducible assumption
    | with_reducible apply keeps_setDma
    | with_reducible apply keeps_hraEnd
    | with_reducible apply keeps_readAt
    | with_reducible apply keeps_writeVia
    | with_reducible apply keeps_remoteRequest
    | with_reducible apply keeps_hraGot
    | with_reducible apply keeps_misaligned
    | intro _
    | with_reducible apply keeps_ite
    | split
    | (with_reducible refine keeps_of_pair (by assumption) ?_)
    | (with_reducible refine keeps_of_opt (by assumption) ?_)
    | dsimp only)

theorem keeps_hraWork {u : State} {s : State} (h : Keeps u s) :
 Keeps u (hraWork s) := by
  unfold hraWork
  repeat' (first
    | with_reducible assumption
    | with_reducible apply keeps_translate
    | with_reducible apply keeps_startWalk
    | with_reducible apply keeps_hraEnd
    | with_reducible apply keeps_hraReply
    | with_reducible apply keeps_hraAt
    | intro _
    | with_reducible apply keeps_ite
    | split
    | (with_reducible refine keeps_of_pair (by assumption) ?_)
    | (with_reducible refine keeps_of_opt (by assumption) ?_)
    | dsimp only)

theorem keeps_execHraDone {u : State} {s : State} (h : Keeps u s) :
 KeepsOut u (execHraDone s) := by
  unfold execHraDone
  repeat' (first
    | with_reducible assumption
    | with_reducible apply keeps_hraWork
    | with_reducible apply keepsOut_next
    | intro _
    | with_reducible apply keepsOut_ite
    | with_reducible apply keeps_ite
    | split
    | (with_reducible refine keeps_of_pair (by assumption) ?_)
    | (with_reducible refine keeps_of_opt (by assumption) ?_)
    | dsimp only)

theorem keeps_agentLoop {u : State} (n : Nat) {s : State} (h : Keeps u s) : Keeps u (agentLoop n s) := by
  induction n generalizing s with
  | zero => exact h
  | succ n ih =>
    unfold agentLoop
    repeat' (first
      | with_reducible assumption
      | with_reducible apply ih
      | with_reducible apply keeps_setDma
      | with_reducible apply keeps_svcReply
      | with_reducible apply keeps_writeAt
      | with_reducible apply keeps_readAt
      | (with_reducible refine keeps_of_pair (by assumption) ?_)
      | split
      | dsimp only)

theorem keeps_agentWork {u : State} {s : State} (h : Keeps u s) :
 Keeps u (agentWork s) := by
  unfold agentWork
  repeat' (first
    | with_reducible assumption
    | with_reducible apply keeps_agentLoop
    | intro _
    | with_reducible apply keeps_ite
    | split
    | (with_reducible refine keeps_of_pair (by assumption) ?_)
    | (with_reducible refine keeps_of_opt (by assumption) ?_)
    | dsimp only)

theorem keeps_agentBegin {u : State} (m : Msg) {s : State} (h : Keeps u s) :
 Keeps u (agentBegin m s) := by
  unfold agentBegin
  repeat' (first
    | with_reducible assumption
    | with_reducible apply keeps_setDma
    | with_reducible apply keeps_svcReply
    | with_reducible apply keeps_agentRefused
    | with_reducible apply keeps_misaligned
    | with_reducible apply keeps_agentWork
    | intro _
    | with_reducible apply keeps_ite
    | split
    | (with_reducible refine keeps_of_pair (by assumption) ?_)
    | (with_reducible refine keeps_of_opt (by assumption) ?_)
    | dsimp only)

theorem keeps_agentServe {u : State} (cls : Nat) {s : State} (h : Keeps u s) :
 Keeps u (agentServe cls s) := by
  unfold agentServe
  repeat' (first
    | with_reducible assumption
    | with_reducible apply keeps_dropMsg
    | with_reducible apply keeps_receiverCheck
    | with_reducible apply keeps_agentWork
    | with_reducible apply keeps_agentBegin
    | intro _
    | with_reducible apply keeps_ite
    | split
    | (with_reducible refine keeps_of_pair (by assumption) ?_)
    | (with_reducible refine keeps_of_opt (by assumption) ?_)
    | dsimp only)

theorem keeps_execRemoteRd {u : State} {s : State} (h : Keeps u s) :
 KeepsOut u (execRemoteRd s) := by
  unfold execRemoteRd
  repeat' (first
    | with_reducible assumption
    | with_reducible apply keeps_agentServe
    | with_reducible apply keepsOut_next
    | intro _
    | with_reducible apply keepsOut_ite
    | with_reducible apply keeps_ite
    | split
    | (with_reducible refine keeps_of_pair (by assumption) ?_)
    | (with_reducible refine keeps_of_opt (by assumption) ?_)
    | dsimp only)

theorem keeps_execRemoteWr {u : State} {s : State} (h : Keeps u s) :
 KeepsOut u (execRemoteWr s) := by
  unfold execRemoteWr
  repeat' (first
    | with_reducible assumption
    | with_reducible apply keeps_agentServe
    | with_reducible apply keepsOut_next
    | intro _
    | with_reducible apply keepsOut_ite
    | with_reducible apply keeps_ite
    | split
    | (with_reducible refine keeps_of_pair (by assumption) ?_)
    | (with_reducible refine keeps_of_opt (by assumption) ?_)
    | dsimp only)

end Sys2Proof.Machine
end

