-- ==== Sys2Proof/Laws/KeepsDirect.lean ====
section
/-! SUPPORT. Every operation of Machine/Direct.lean keeps (Laws/Keeps.lean). -/
set_option linter.unusedTactic false
set_option linter.unreachableTactic false
set_option linter.unusedVariables false

namespace Sys2Proof.Machine

open Sys2Proof

theorem keeps_bankCycle {u : State} (b : Nat) {s : State} (h : Keeps u s) :
 Keeps u (bankCycle b s) := by
  unfold bankCycle
  repeat' (first
    | with_reducible assumption
    | with_reducible apply keeps_grant
    | with_reducible apply keeps_settleLogic
    | with_reducible apply keeps_hostResume
    | intro _
    | with_reducible apply keeps_ite
    | split
    | (with_reducible refine keeps_of_pair (by assumption) ?_)
    | (with_reducible refine keeps_of_opt (by assumption) ?_)
    | dsimp only)

theorem keeps_execBankGrant {u : State} (b : BankId) {s : State} (h : Keeps u s) :
 KeepsOut u (execBankGrant b s) := by
  unfold execBankGrant
  repeat' (first
    | with_reducible assumption
    | with_reducible apply keeps_bankCycle
    | with_reducible apply keepsOut_next
    | intro _
    | with_reducible apply keepsOut_ite
    | with_reducible apply keeps_ite
    | split
    | (with_reducible refine keeps_of_pair (by assumption) ?_)
    | (with_reducible refine keeps_of_opt (by assumption) ?_)
    | dsimp only)

theorem keeps_stewardFault {u : State} (code : Nat) {s : State} (h : Keeps u s) :
 Keeps u (stewardFault code s) := by
  unfold stewardFault
  repeat' (first
    | with_reducible assumption
    | with_reducible apply keeps_pushRead
    | intro _
    | with_reducible apply keeps_ite
    | split
    | (with_reducible refine keeps_of_pair (by assumption) ?_)
    | (with_reducible refine keeps_of_opt (by assumption) ?_)
    | dsimp only)

theorem keeps_stewardRemote {u : State} (node off : Nat) (isWrite : Bool) (v : Word) {s : State} (h : Keeps u s) :
 Keeps u (stewardRemote node off isWrite v s) := by
  unfold stewardRemote
  repeat' (first
    | with_reducible assumption
    | with_reducible apply keeps_stewardAsks
    | intro _
    | with_reducible apply keeps_ite
    | split
    | (with_reducible refine keeps_of_pair (by assumption) ?_)
    | (with_reducible refine keeps_of_opt (by assumption) ?_)
    | dsimp only)

theorem keeps_stewardWindow {u : State} (k off : Nat) (isWrite : Bool) (v : Word) {s : State} (h : Keeps u s) :
 Keeps u (stewardWindow k off isWrite v s) := by
  unfold stewardWindow
  repeat' (first
    | with_reducible assumption
    | with_reducible apply keeps_bankAccess
    | with_reducible apply keeps_stewardFault
    | with_reducible apply keeps_stewardRemote
    | intro _
    | with_reducible apply keeps_ite
    | split
    | (with_reducible refine keeps_of_pair (by assumption) ?_)
    | (with_reducible refine keeps_of_opt (by assumption) ?_)
    | dsimp only)

theorem keeps_stewardHost {u : State} (o : Nat) (isWrite : Bool) (v : Word) {s : State} (h : Keeps u s) :
 Keeps u (stewardHost o isWrite v s) := by
  unfold stewardHost
  repeat' (first
    | with_reducible assumption
    | with_reducible apply keeps_pushRead
    | with_reducible apply keeps_readPlace
    | with_reducible apply keeps_writePlace
    | with_reducible apply keeps_stewardFault
    | intro _
    | with_reducible apply keeps_ite
    | split
    | (with_reducible refine keeps_of_pair (by assumption) ?_)
    | (with_reducible refine keeps_of_opt (by assumption) ?_)
    | dsimp only)

theorem keeps_stewardAccess {u : State} (a size : Nat) (isWrite : Bool) (v : BitVec 64) {s : State} (h : Keeps u s) :
 Keeps u (stewardAccess a size isWrite v s) := by
  unfold stewardAccess
  repeat' (first
    | with_reducible assumption
    | with_reducible apply keeps_scan
    | with_reducible apply keeps_busWrite
    | with_reducible apply keeps_busRead
    | with_reducible apply keeps_stewardFault
    | with_reducible apply keeps_stewardWindow
    | with_reducible apply keeps_stewardHost
    | intro _
    | with_reducible apply keeps_ite
    | split
    | (with_reducible refine keeps_of_pair (by assumption) ?_)
    | (with_reducible refine keeps_of_opt (by assumption) ?_)
    | dsimp only)

theorem keeps_directAccess {u : State} (rq : Requester) (a size : Nat) (isWrite : Bool) (v : BitVec 64) {s : State} (h : Keeps u s) :
 Keeps u (directAccess rq a size isWrite v s) := by
  unfold directAccess
  repeat' (first
    | with_reducible assumption
    | with_reducible apply keeps_busWrite
    | with_reducible apply keeps_busRead
    | with_reducible apply keeps_hostRead
    | with_reducible apply keeps_stewardAccess
    | intro _
    | with_reducible apply keeps_ite
    | split
    | (with_reducible refine keeps_of_pair (by assumption) ?_)
    | (with_reducible refine keeps_of_opt (by assumption) ?_)
    | dsimp only)

theorem keeps_execHostBankAccess {u : State} (rq : Requester) (addr : BitVec 40) (size : Nat) (isWrite : Bool) (v : BitVec 64) {s : State} (h : Keeps u s) :
 KeepsOut u (execHostBankAccess rq addr size isWrite v s) := by
  unfold execHostBankAccess
  repeat' (first
    | with_reducible assumption
    | with_reducible apply keeps_directAccess
    | with_reducible apply keepsOut_next
    | intro _
    | with_reducible apply keepsOut_ite
    | with_reducible apply keeps_ite
    | split
    | (with_reducible refine keeps_of_pair (by assumption) ?_)
    | (with_reducible refine keeps_of_opt (by assumption) ?_)
    | dsimp only)

end Sys2Proof.Machine
end

