-- ==== Sys2Proof/Laws/KeepsFoxSvc.lean ====
section
/-! SUPPORT. Every operation of Machine/FoxSvc.lean keeps (Laws/Keeps.lean). -/
set_option linter.unusedTactic false
set_option linter.unreachableTactic false
set_option linter.unusedVariables false

namespace Sys2Proof.Machine

open Sys2Proof

theorem keeps_foxReads {u : State} (rq : Requester) (os : List Nat) {s : State} (h : Keeps u s) :
 Keeps u (foxReads rq os s).2 := by
  unfold foxReads
  repeat' (first
    | with_reducible assumption
    | with_reducible apply keeps_pageRead
    | with_reducible apply keeps_foldl
    | with_reducible apply keeps_foldl_snd
    | intro _
    | with_reducible apply keeps_ite_snd
    | with_reducible apply keeps_ite
    | split
    | (with_reducible refine keeps_of_pair (by assumption) ?_)
    | (with_reducible refine keeps_of_opt (by assumption) ?_)
    | dsimp only)

theorem keeps_foxWrites {u : State} (rq : Requester) (es : List (Nat × TWord)) {s : State} (h : Keeps u s) :
 Keeps u (foxWrites rq es s) := by
  unfold foxWrites
  repeat' (first
    | with_reducible assumption
    | with_reducible apply keeps_pageWrite
    | with_reducible apply keeps_foldl
    | with_reducible apply keeps_foldl_snd
    | intro _
    | with_reducible apply keeps_ite
    | split
    | (with_reducible refine keeps_of_pair (by assumption) ?_)
    | (with_reducible refine keeps_of_opt (by assumption) ?_)
    | dsimp only)

theorem keeps_foxServe {u : State} (rq : Requester) (m : Msg) {s : State} (h : Keeps u s) :
 Keeps u (foxServe rq m s).2.2 := by
  unfold foxServe
  repeat' (first
    | with_reducible assumption
    | with_reducible apply keeps_foxReads
    | with_reducible apply keeps_foxWrites
    | intro _
    | intro _
    | with_reducible apply keeps_ite
    | split
    | (with_reducible refine keeps_of_pair (by assumption) ?_)
    | (with_reducible refine keeps_of_opt (by assumption) ?_)
    | dsimp only)

theorem keeps_foxReply {u : State} (tap : Option RegionId) (m : Msg) (payload : List TWord) (status : Nat) {s : State} (h : Keeps u s) :
 Keeps u (foxReply tap m payload status s) := by
  unfold foxReply
  repeat' (first
    | with_reducible assumption
    | with_reducible apply keeps_send
    | intro _
    | with_reducible apply keeps_ite
    | split
    | (with_reducible refine keeps_of_pair (by assumption) ?_)
    | (with_reducible refine keeps_of_opt (by assumption) ?_)
    | dsimp only)

theorem keeps_foxCheck {u : State} (tap : Option RegionId) (m : Msg) {s : State} (h : Keeps u s) :
 KeepsOpt u (foxCheck tap m s) := by
  unfold foxCheck
  repeat' (first
    | with_reducible assumption
    | with_reducible apply keeps_malformed
    | with_reducible apply keeps_foxReply
    | with_reducible apply keepsOpt_none
    | with_reducible apply keepsOpt_some
    | intro _
    | with_reducible apply keepsOpt_ite
    | with_reducible apply keeps_ite
    | split
    | (with_reducible refine keeps_of_pair (by assumption) ?_)
    | (with_reducible refine keeps_of_opt (by assumption) ?_)
    | dsimp only)

theorem keeps_foxLoop {u : State} (fuel : Nat) (tap : Option RegionId) {s : State} (h : Keeps u s) :
 Keeps u (foxLoop fuel tap s) := by
  induction fuel generalizing s with
  | zero => exact h
  | succ fuel ih =>
    unfold foxLoop
    repeat' (first
      | with_reducible assumption
      | with_reducible apply ih
      | with_reducible apply keeps_takeOne
      | with_reducible apply keeps_buffer
      | with_reducible apply keeps_pageWrite
      | intro _
      | with_reducible apply keeps_ite
      | split
      | (with_reducible refine keeps_of_pair (by assumption) ?_)
      | (with_reducible refine keeps_of_opt (by assumption) ?_)
      | dsimp only)

theorem keeps_foxService {u : State} (tap : Option RegionId) {s : State} (h : Keeps u s) :
 Keeps u (foxService tap s) := by
  unfold foxService
  repeat' (first
    | with_reducible assumption
    | with_reducible apply keeps_takeMsg
    | with_reducible apply keeps_dropMsg
    | with_reducible apply keeps_foxServe
    | with_reducible apply keeps_foxReply
    | with_reducible apply keeps_foxCheck
    | with_reducible apply keeps_foxLoop
    | intro _
    | with_reducible apply keeps_ite
    | split
    | (with_reducible refine keeps_of_pair (by assumption) ?_)
    | (with_reducible refine keeps_of_opt (by assumption) ?_)
    | (with_reducible refine keeps_of_pair3 (by assumption) ?_)
    | dsimp only)

theorem keeps_execFoxServiceAccess {u : State} (tap : Option RegionId) {s : State} (h : Keeps u s) :
 KeepsOut u (execFoxServiceAccess tap s) := by
  unfold execFoxServiceAccess
  repeat' (first
    | with_reducible assumption
    | with_reducible apply keeps_foxService
    | with_reducible apply keepsOut_next
    | intro _
    | with_reducible apply keepsOut_ite
    | with_reducible apply keeps_ite
    | split
    | (with_reducible refine keeps_of_pair (by assumption) ?_)
    | (with_reducible refine keeps_of_opt (by assumption) ?_)
    | dsimp only)

end Sys2Proof.Machine
end

