-- ==== Sys2Proof/Laws/KeepsPins.lean ====
section
/-! SUPPORT. Every operation of Machine/Pins.lean keeps (Laws/Keeps.lean). -/
set_option linter.unusedTactic false
set_option linter.unreachableTactic false
set_option linter.unusedVariables false

namespace Sys2Proof.Machine

open Sys2Proof

theorem keeps_capturePins {u : State} {s : State} (h : Keeps u s) :
 Keeps u (capturePins s) := by
  unfold capturePins
  repeat' (first
    | with_reducible assumption
    | with_reducible apply keeps_setIo
    | with_reducible apply keeps_viewDrawn
    | intro _
    | with_reducible apply keeps_ite
    | split
    | (with_reducible refine keeps_of_pair (by assumption) ?_)
    | (with_reducible refine keeps_of_opt (by assumption) ?_)
    | dsimp only)

theorem keeps_selectIdcode {u : State} {s : State} (h : Keeps u s) :
 Keeps u (selectIdcode s) := by
  unfold selectIdcode
  repeat' (first
    | with_reducible assumption
    | with_reducible apply keeps_setIo
    | intro _
    | with_reducible apply keeps_ite
    | split
    | (with_reducible refine keeps_of_pair (by assumption) ?_)
    | (with_reducible refine keeps_of_opt (by assumption) ?_)
    | dsimp only)

theorem keeps_selectBypass {u : State} (t : TapInstr) {s : State} (h : Keeps u s) :
 Keeps u (selectBypass t s) := by
  unfold selectBypass
  repeat' (first
    | with_reducible assumption
    | with_reducible apply keeps_setIo
    | intro _
    | with_reducible apply keeps_ite
    | split
    | (with_reducible refine keeps_of_pair (by assumption) ?_)
    | (with_reducible refine keeps_of_opt (by assumption) ?_)
    | dsimp only)

theorem keeps_takePins {u : State} (t : TapInstr) {s : State} (h : Keeps u s) :
 Keeps u (takePins t s) := by
  unfold takePins
  repeat' (first
    | with_reducible assumption
    | with_reducible apply keeps_setIo
    | intro _
    | with_reducible apply keeps_ite
    | split
    | (with_reducible refine keeps_of_pair (by assumption) ?_)
    | (with_reducible refine keeps_of_opt (by assumption) ?_)
    | dsimp only)

theorem keeps_extest {u : State} {s : State} (h : Keeps u s) :
 Keeps u (extest s) := by
  unfold extest
  repeat' (first
    | with_reducible assumption
    | with_reducible apply keeps_setIo
    | with_reducible apply keeps_capturePins
    | with_reducible apply keeps_takePins
    | intro _
    | with_reducible apply keeps_ite
    | split
    | (with_reducible refine keeps_of_pair (by assumption) ?_)
    | (with_reducible refine keeps_of_opt (by assumption) ?_)
    | dsimp only)

theorem keeps_execExtest {u : State} {s : State} (h : Keeps u s) :
 KeepsOut u (execExtest s) := by
  unfold execExtest
  repeat' (first
    | with_reducible assumption
    | with_reducible apply keeps_extest
    | with_reducible apply keepsOut_next
    | intro _
    | with_reducible apply keepsOut_ite
    | with_reducible apply keeps_ite
    | split
    | (with_reducible refine keeps_of_pair (by assumption) ?_)
    | (with_reducible refine keeps_of_opt (by assumption) ?_)
    | dsimp only)

theorem keeps_execIdcode {u : State} {s : State} (h : Keeps u s) :
 KeepsOut u (execIdcode s) := by
  unfold execIdcode
  repeat' (first
    | with_reducible assumption
    | with_reducible apply keeps_selectIdcode
    | with_reducible apply keepsOut_next
    | intro _
    | with_reducible apply keepsOut_ite
    | with_reducible apply keeps_ite
    | split
    | (with_reducible refine keeps_of_pair (by assumption) ?_)
    | (with_reducible refine keeps_of_opt (by assumption) ?_)
    | dsimp only)

theorem keeps_samplePreload {u : State} (preload : List Bool) {s : State} (h : Keeps u s) :
 Keeps u (samplePreload preload s) := by
  unfold samplePreload
  repeat' (first
    | with_reducible assumption
    | with_reducible apply keeps_setIo
    | with_reducible apply keeps_capturePins
    | intro _
    | with_reducible apply keeps_ite
    | split
    | (with_reducible refine keeps_of_pair (by assumption) ?_)
    | (with_reducible refine keeps_of_opt (by assumption) ?_)
    | dsimp only)

theorem keeps_execSamplePreload {u : State} (preload : List Bool) {s : State} (h : Keeps u s) :
 KeepsOut u (execSamplePreload preload s) := by
  unfold execSamplePreload
  repeat' (first
    | with_reducible assumption
    | with_reducible apply keeps_samplePreload
    | with_reducible apply keepsOut_next
    | intro _
    | with_reducible apply keepsOut_ite
    | with_reducible apply keeps_ite
    | split
    | (with_reducible refine keeps_of_pair (by assumption) ?_)
    | (with_reducible refine keeps_of_opt (by assumption) ?_)
    | dsimp only)

theorem keeps_execClamp {u : State} {s : State} (h : Keeps u s) :
 KeepsOut u (execClamp s) := by
  unfold execClamp
  repeat' (first
    | with_reducible assumption
    | with_reducible apply keeps_selectBypass
    | with_reducible apply keeps_takePins
    | with_reducible apply keepsOut_next
    | intro _
    | with_reducible apply keepsOut_ite
    | with_reducible apply keeps_ite
    | split
    | (with_reducible refine keeps_of_pair (by assumption) ?_)
    | (with_reducible refine keeps_of_opt (by assumption) ?_)
    | dsimp only)

theorem keeps_execHighz {u : State} {s : State} (h : Keeps u s) :
 KeepsOut u (execHighz s) := by
  unfold execHighz
  repeat' (first
    | with_reducible assumption
    | with_reducible apply keeps_selectBypass
    | with_reducible apply keeps_takePins
    | with_reducible apply keepsOut_next
    | intro _
    | with_reducible apply keepsOut_ite
    | with_reducible apply keeps_ite
    | split
    | (with_reducible refine keeps_of_pair (by assumption) ?_)
    | (with_reducible refine keeps_of_opt (by assumption) ?_)
    | dsimp only)

theorem keeps_execBypass {u : State} (ir : Byte) {s : State} (h : Keeps u s) :
 KeepsOut u (execBypass ir s) := by
  unfold execBypass
  repeat' (first
    | with_reducible assumption
    | with_reducible apply keeps_selectBypass
    | with_reducible apply keepsOut_next
    | intro _
    | with_reducible apply keepsOut_ite
    | with_reducible apply keeps_ite
    | split
    | (with_reducible refine keeps_of_pair (by assumption) ?_)
    | (with_reducible refine keeps_of_opt (by assumption) ?_)
    | dsimp only)

theorem keeps_testLogicReset {u : State} {s : State} (h : Keeps u s) :
 Keeps u (testLogicReset s) := by
  unfold testLogicReset
  repeat' (first
    | with_reducible assumption
    | with_reducible apply keeps_setIo
    | with_reducible apply keeps_selectIdcode
    | intro _
    | with_reducible apply keeps_ite
    | split
    | (with_reducible refine keeps_of_pair (by assumption) ?_)
    | (with_reducible refine keeps_of_opt (by assumption) ?_)
    | dsimp only)

theorem keeps_execTestLogicReset {u : State} {s : State} (h : Keeps u s) :
 KeepsOut u (execTestLogicReset s) := by
  unfold execTestLogicReset
  repeat' (first
    | with_reducible assumption
    | with_reducible apply keeps_testLogicReset
    | with_reducible apply keepsOut_next
    | intro _
    | with_reducible apply keepsOut_ite
    | with_reducible apply keeps_ite
    | split
    | (with_reducible refine keeps_of_pair (by assumption) ?_)
    | (with_reducible refine keeps_of_opt (by assumption) ?_)
    | dsimp only)

theorem keeps_functionLevelReset {u : State} {s : State} (h : Keeps u s) :
 Keeps u (functionLevelReset s) := by
  unfold functionLevelReset
  repeat' (first
    | with_reducible assumption
    | with_reducible apply keeps_setIo
    | (with_reducible refine keeps_setRegs_filter _ _ rfl ?_)
    | intro _
    | with_reducible apply keeps_ite
    | split
    | (with_reducible refine keeps_of_pair (by assumption) ?_)
    | (with_reducible refine keeps_of_opt (by assumption) ?_)
    | dsimp only)

theorem keeps_execFunctionLevelReset {u : State} {s : State} (h : Keeps u s) :
 KeepsOut u (execFunctionLevelReset s) := by
  unfold execFunctionLevelReset
  repeat' (first
    | with_reducible assumption
    | with_reducible apply keeps_functionLevelReset
    | with_reducible apply keepsOut_next
    | intro _
    | with_reducible apply keepsOut_ite
    | with_reducible apply keeps_ite
    | split
    | (with_reducible refine keeps_of_pair (by assumption) ?_)
    | (with_reducible refine keeps_of_opt (by assumption) ?_)
    | dsimp only)

theorem keeps_msixControl {u : State} (ctl : BitVec 2) {s : State} (h : Keeps u s) :
 Keeps u (msixControl ctl s) := by
  unfold msixControl
  repeat' (first
    | with_reducible assumption
    | with_reducible apply keeps_setIo
    | with_reducible apply keeps_msixUnmask
    | with_reducible apply keeps_foldl
    | with_reducible apply keeps_foldl_snd
    | intro _
    | with_reducible apply keeps_ite
    | split
    | (with_reducible refine keeps_of_pair (by assumption) ?_)
    | (with_reducible refine keeps_of_opt (by assumption) ?_)
    | dsimp only)

theorem keeps_pcieLinkChange {u : State} (up : Bool) (width : BitVec 3) (speed : BitVec 4) (ltssm : BitVec 6) (msix : BitVec 2) {s : State} (h : Keeps u s) :
 Keeps u (pcieLinkChange up width speed ltssm msix s) := by
  unfold pcieLinkChange
  repeat' (first
    | with_reducible assumption
    | with_reducible apply keeps_wr
    | with_reducible apply keeps_count
    | with_reducible apply keeps_irq
    | with_reducible apply keeps_msixControl
    | intro _
    | with_reducible apply keeps_ite
    | split
    | (with_reducible refine keeps_of_pair (by assumption) ?_)
    | (with_reducible refine keeps_of_opt (by assumption) ?_)
    | dsimp only)

theorem keeps_execPcieLinkChange {u : State} (up : Bool) (width : BitVec 3) (speed : BitVec 4) (link : LinkState) {s : State} (h : Keeps u s) :
 KeepsOut u (execPcieLinkChange up width speed link s) := by
  unfold execPcieLinkChange
  repeat' (first
    | with_reducible assumption
    | with_reducible apply keeps_pcieLinkChange
    | with_reducible apply keepsOut_next
    | intro _
    | with_reducible apply keepsOut_ite
    | with_reducible apply keeps_ite
    | split
    | (with_reducible refine keeps_of_pair (by assumption) ?_)
    | (with_reducible refine keeps_of_opt (by assumption) ?_)
    | dsimp only)

theorem keeps_ethLinkChange {u : State} (port : Nat) (up : Bool) (speed : BitVec 2) {s : State} (h : Keeps u s) :
 Keeps u (ethLinkChange port up speed s) := by
  unfold ethLinkChange
  repeat' (first
    | with_reducible assumption
    | with_reducible apply keeps_wr
    | with_reducible apply keeps_irq
    | intro _
    | with_reducible apply keeps_ite
    | split
    | (with_reducible refine keeps_of_pair (by assumption) ?_)
    | (with_reducible refine keeps_of_opt (by assumption) ?_)
    | dsimp only)

theorem keeps_execEthLinkChange {u : State} (port : Fin 2) (up : Bool) (speed : BitVec 2) {s : State} (h : Keeps u s) :
 KeepsOut u (execEthLinkChange port up speed s) := by
  unfold execEthLinkChange
  repeat' (first
    | with_reducible assumption
    | with_reducible apply keeps_ethLinkChange
    | with_reducible apply keepsOut_next
    | intro _
    | with_reducible apply keepsOut_ite
    | with_reducible apply keeps_ite
    | split
    | (with_reducible refine keeps_of_pair (by assumption) ?_)
    | (with_reducible refine keeps_of_opt (by assumption) ?_)
    | dsimp only)

theorem keeps_frameReceived {u : State} (port : Nat) (frame : List Byte) (good : Bool) {s : State} (h : Keeps u s) :
 Keeps u (frameReceived port frame good s) := by
  unfold frameReceived
  repeat' (first
    | with_reducible assumption
    | with_reducible apply keeps_setIo
    | with_reducible apply keeps_count
    | intro _
    | with_reducible apply keeps_ite
    | split
    | (with_reducible refine keeps_of_pair (by assumption) ?_)
    | (with_reducible refine keeps_of_opt (by assumption) ?_)
    | dsimp only)

theorem keeps_execFrameReceived {u : State} (port : Fin 2) (frame : List Byte) (good : Bool) {s : State} (h : Keeps u s) :
 KeepsOut u (execFrameReceived port frame good s) := by
  unfold execFrameReceived
  repeat' (first
    | with_reducible assumption
    | with_reducible apply keeps_frameReceived
    | with_reducible apply keepsOut_next
    | intro _
    | with_reducible apply keepsOut_ite
    | with_reducible apply keeps_ite
    | split
    | (with_reducible refine keeps_of_pair (by assumption) ?_)
    | (with_reducible refine keeps_of_opt (by assumption) ?_)
    | dsimp only)

end Sys2Proof.Machine
end

