-- ==== Sys2Proof/Laws/KeepsIdle.lean ====
section
/-! SUPPORT. Every operation of Machine/Idle.lean keeps (Laws/Keeps.lean). -/
set_option linter.unusedTactic false
set_option linter.unreachableTactic false
set_option linter.unusedVariables false

namespace Sys2Proof.Machine

open Sys2Proof

theorem keeps_idleQspi {u : State} {s : State} (h : Keeps u s) :
 Keeps u (idleQspi s) := by
  unfold idleQspi
  repeat' (first
    | with_reducible assumption
    | with_reducible apply keeps_qspiDrainOne
    | intro _
    | with_reducible apply keeps_ite
    | split
    | (with_reducible refine keeps_of_pair (by assumption) ?_)
    | (with_reducible refine keeps_of_opt (by assumption) ?_)
    | dsimp only)

theorem keeps_idleEntry {u : State} {s : State} (h : Keeps u s) :
 Keeps u (idleEntry s) := by
  unfold idleEntry
  repeat' (first
    | with_reducible assumption
    | with_reducible apply keeps_entryReached
    | intro _
    | with_reducible apply keeps_ite
    | split
    | (with_reducible refine keeps_of_pair (by assumption) ?_)
    | (with_reducible refine keeps_of_opt (by assumption) ?_)
    | dsimp only)

theorem keeps_idleWatchdog {u : State} {s : State} (h : Keeps u s) :
 Keeps u (idleWatchdog s) := by
  unfold idleWatchdog
  repeat' (first
    | with_reducible assumption
    | with_reducible apply keeps_setDev
    | with_reducible apply keeps_wrf
    | intro _
    | with_reducible apply keeps_ite
    | split
    | (with_reducible refine keeps_of_pair (by assumption) ?_)
    | (with_reducible refine keeps_of_opt (by assumption) ?_)
    | dsimp only)

theorem keeps_idleStep {u : State} {s : State} (h : Keeps u s) :
 Keeps u (idleStep s) := by
  unfold idleStep
  repeat' (first
    | with_reducible assumption
    | with_reducible apply keeps_moveDelays
    | with_reducible apply keeps_tick
    | with_reducible apply keeps_idleQspi
    | with_reducible apply keeps_idleEntry
    | with_reducible apply keeps_idleWatchdog
    | intro _
    | with_reducible apply keeps_ite
    | split
    | (with_reducible refine keeps_of_pair (by assumption) ?_)
    | (with_reducible refine keeps_of_opt (by assumption) ?_)
    | dsimp only)

end Sys2Proof.Machine
end

