-- ==== Sys2Proof/Laws/KeepsExec.lean ====
section
/-! SUPPORT. Every command keeps (Laws/Keeps.lean) and answers a next state. -/
namespace Sys2Proof.Machine

open Sys2Proof

theorem keeps_exec (i : Instr) (s : State) : KeepsOut s (exec i s) := by
  have h : Keeps s s := Keeps.refl s
  cases i with
  | por => exact keeps_execPor h
  | suppliesInvalid => exact keeps_execSuppliesInvalid h
  | rstN => exact keeps_execRstN h
  | strapSampling => exact keeps_execStrapSampling _ h
  | powerUpLoadDone => exact keeps_execPowerUpLoadDone h
  | selftestDone => exact keeps_execSelftestDone h
  | selftestWindowTimeout => exact keeps_execSelftestWindowTimeout h
  | startupLockDone => exact keeps_execStartupLockDone _ _ _ h
  | doneSeenHigh => exact keeps_execDoneSeenHigh h
  | releaseStep => exact keeps_execReleaseStep h
  | doneFall => exact keeps_execDoneFall h
  | continueCmd => exact keeps_execContinueCmd _ h
  | enterSafe => exact keeps_execEnterSafe _ h
  | reboot => exact keeps_execReboot _ h
  | hostSoftReset => exact keeps_execHostSoftReset _ h
  | pageSoftRst => exact keeps_execPageSoftRst _ _ h
  | regionReset => exact keeps_execRegionReset _ _ h
  | gsrRelease => exact keeps_execGsrRelease _ h
  | errClear => exact keeps_execErrClear _ _ h
  | irqForce => exact keeps_execIrqForce _ _ _ h
  | registerWrite => exact keeps_execRegisterWrite _ _ _ _ h
  | reg64LowRead => exact keeps_execReg64LowRead _ _ _ h
  | rcRead => exact keeps_execRcRead _ _ _ h
  | mbxGo => exact keeps_execMbxGo _ _ h
  | mbxResponse => exact keeps_execMbxResponse _ h
  | version => exact keeps_execVersion _ h
  | echo => exact keeps_execEcho _ h
  | fabricMailboxAccess => exact keeps_execFabricMailboxAccess h
  | pass => exact keeps_execPass _ h
  | add => exact keeps_execAdd _ h
  | adc => exact keeps_execAdc _ h
  | sub => exact keeps_execSub _ h
  | sbc => exact keeps_execSbc _ h
  | addss => exact keeps_execAddss _ h
  | subss => exact keeps_execSubss _ h
  | addus => exact keeps_execAddus _ h
  | subus => exact keeps_execSubus _ h
  | muls => exact keeps_execMuls _ h
  | mulu => exact keeps_execMulu _ h
  | mulsu => exact keeps_execMulsu _ h
  | and => exact keeps_execAnd _ h
  | or => exact keeps_execOr _ h
  | xor => exact keeps_execXor _ h
  | andn => exact keeps_execAndn _ h
  | shl => exact keeps_execShl _ h
  | shr => exact keeps_execShr _ h
  | sar => exact keeps_execSar _ h
  | rol => exact keeps_execRol _ h
  | ror => exact keeps_execRor _ h
  | min => exact keeps_execMin _ h
  | max => exact keeps_execMax _ h
  | minu => exact keeps_execMinu _ h
  | maxu => exact keeps_execMaxu _ h
  | abs => exact keeps_execAbs _ h
  | cmp => exact keeps_execCmp _ h
  | tst => exact keeps_execTst _ h
  | sel => exact keeps_execSel _ h
  | clz => exact keeps_execClz _ h
  | lcnt => exact keeps_execLcnt _ h
  | dbnz => exact keeps_execDbnz _ h
  | ld => exact keeps_execLd _ h
  | st => exact keeps_execSt _ h
  | emit => exact keeps_execEmit _ h
  | wait => exact keeps_execWait _ h
  | tapo => exact keeps_execTapo _ h
  | halt => exact keeps_execHalt _ h
  | cellReservedHalt => exact keeps_execCellReservedHalt _ h
  | cellOutputAccept => exact keeps_execCellOutputAccept _ h
  | param => exact keeps_execParam _ h
  | paramCommit => exact keeps_execParamCommit _ h
  | heldCommitApply => exact keeps_execHeldCommitApply _ h
  | paramLatchParity => exact keeps_execParamLatchParity _ _ _ h
  | tapItemTransfer => exact keeps_execTapItemTransfer _ _ _ _ _ h
  | macIssue => exact keeps_execMacIssue _ _ h
  | crossingWord => exact keeps_execCrossingWord _ _ h
  | creditReturn => exact keeps_execCreditReturn _ h
  | parityVerdict => exact keeps_execParityVerdict _ h
  | spareRemap => exact keeps_execSpareRemap _ h
  | switchMessageRoute => exact keeps_execSwitchMessageRoute _ h
  | crossbarRoute => exact keeps_execCrossbarRoute _ h
  | headOutputGrant => exact keeps_execHeadOutputGrant _ h
  | bankGrant => exact keeps_execBankGrant _ h
  | hostBankAccess => exact keeps_execHostBankAccess _ _ _ _ _ h
  | aliasWrite => exact keeps_execAliasWrite _ _ _ _ _ h
  | bankClearDone => exact keeps_execBankClearDone h
  | walkerReady => exact keeps_execWalkerReady h
  | walkerCancel => exact keeps_execWalkerCancel h
  | unboundEvent => exact keeps_execUnboundEvent h
  | schCmdReady => exact keeps_execSchCmdReady _ _ h
  | schCmdCancel => exact keeps_execSchCmdCancel _ _ h
  | abandon => exact keeps_execAbandon _ _ h
  | disable => exact keeps_execDisable _ _ h
  | enable => exact keeps_execEnable _ _ h
  | dispatchDecision => exact keeps_execDispatchDecision h
  | complete => exact keeps_execComplete h
  | suspendReply => exact keeps_execSuspendReply h
  | timerFire => exact keeps_execTimerFire _ h
  | ioEdgeEvent => exact keeps_execIoEdgeEvent _ _ _ _ h
  | doorbell => exact keeps_execDoorbell _ _ _ h
  | schServiceAccess => exact keeps_execSchServiceAccess h
  | runLimitHit => exact keeps_execRunLimitHit _ h
  | suspendLimitHit => exact keeps_execSuspendLimitHit _ h
  | schedulerDrainNotice => exact keeps_execSchedulerDrainNotice _ h
  | drainSuspend => exact keeps_execDrainSuspend _ h
  | schedulerDrainedReport => exact keeps_execSchedulerDrainedReport _ h
  | engineAbsent => exact keeps_execEngineAbsent _ h
  | absenceEventPost => exact keeps_execAbsenceEventPost h
  | traceSpill => exact keeps_execTraceSpill h
  | contextWrite => exact keeps_execContextWrite _ _ _ h
  | engineMapWrite => exact keeps_execEngineMapWrite _ _ _ h
  | bindDataAccess => exact keeps_execBindDataAccess _ _ h
  | argDataAccess => exact keeps_execArgDataAccess _ _ h
  | saveDataRead => exact keeps_execSaveDataRead _ h
  | schSoftReset => exact keeps_execSchSoftReset _ _ h
  | dmaSubmit => exact keeps_execDmaSubmit _ _ h
  | dmaDesc => exact keeps_execDmaDesc h
  | dmaDescAdmit => exact keeps_execDmaDescAdmit h
  | descriptorStart => exact keeps_execDescriptorStart _ h
  | moverBlockDone => exact keeps_execMoverBlockDone _ h
  | pageWalkRead => exact keeps_execPageWalkRead _ h
  | chainRead => exact keeps_execChainRead _ h
  | dmaEventPost => exact keeps_execDmaEventPost _ h
  | remoteReply => exact keeps_execRemoteReply h
  | restart => exact keeps_execRestart _ _ h
  | flush => exact keeps_execFlush _ _ h
  | dmaSoftReset => exact keeps_execDmaSoftReset _ _ h
  | invalAll => exact keeps_execInvalAll _ h
  | invalSpace => exact keeps_execInvalSpace _ _ h
  | invalPage => exact keeps_execInvalPage _ _ h
  | invalDone => exact keeps_execInvalDone h
  | spaceConfigWrite => exact keeps_execSpaceConfigWrite _ _ _ _ h
  | hraRead => exact keeps_execHraRead _ h
  | hraWrite => exact keeps_execHraWrite _ h
  | hraDone => exact keeps_execHraDone h
  | remoteRd => exact keeps_execRemoteRd h
  | remoteWr => exact keeps_execRemoteWr h
  | foxLoad => exact keeps_execFoxLoad _ _ h
  | foxLoadDone => exact keeps_execFoxLoadDone _ h
  | streamOpen => exact keeps_execStreamOpen _ _ h
  | libraryProgramOpen => exact keeps_execLibraryProgramOpen _ _ h
  | streamData => exact keeps_execStreamData _ _ h
  | streamAbort => exact keeps_execStreamAbort _ h
  | streamIdleTimeout => exact keeps_execStreamIdleTimeout h
  | libraryProgramDone => exact keeps_execLibraryProgramDone _ _ h
  | slotErase => exact keeps_execSlotErase _ h
  | slotEraseDone => exact keeps_execSlotEraseDone _ _ h
  | foxServiceAccess => exact keeps_execFoxServiceAccess _ h
  | foxLock => exact keeps_execFoxLock _ h
  | stageInvalidate => exact keeps_execStageInvalidate _ _ h
  | armCtlArm => exact keeps_execArmCtlArm _ h
  | now => exact keeps_execNow _ h
  | disarm => exact keeps_execDisarm _ h
  | swapDrainStart => exact keeps_execSwapDrainStart h
  | regionDrainNotice => exact keeps_execRegionDrainNotice _ h
  | regionDrained => exact keeps_execRegionDrained _ h
  | setDrained => exact keeps_execSetDrained h
  | drainTimeout => exact keeps_execDrainTimeout h
  | swapGo => exact keeps_execSwapGo _ h
  | swapRelease => exact keeps_execSwapRelease _ h
  | handover => exact keeps_execHandover _ h
  | scrubFrameFail => exact keeps_execScrubFrameFail _ _ _ _ h
  | scrubPassEnd => exact keeps_execScrubPassEnd _ _ h
  | cdfSequenceWrite => exact keeps_execCdfSequenceWrite _ _ _ h
  | program => exact keeps_execProgram _ _ _ h
  | eraseSector => exact keeps_execEraseSector _ _ _ h
  | eraseBank => exact keeps_execEraseBank _ _ _ h
  | suspend => exact keeps_execSuspend _ _ _ h
  | resume => exact keeps_execResume _ _ _ h
  | readId => exact keeps_execReadId _ _ _ h
  | guardSet => exact keeps_execGuardSet _ _ _ h
  | guardUnlock => exact keeps_execGuardUnlock _ _ _ h
  | statusClear => exact keeps_execStatusClear _ _ _ h
  | setPw => exact keeps_execSetPw _ h
  | pageBufferWrite => exact keeps_execPageBufferWrite _ _ _ h
  | pageLoadTimeout => exact keeps_execPageLoadTimeout _ h
  | cdfOpDone => exact keeps_execCdfOpDone _ _ _ _ h
  | suspendHonoured => exact keeps_execSuspendHonoured _ h
  | suspendedReached => exact keeps_execSuspendedReached _ h
  | cdfArrayRead => exact keeps_execCdfArrayRead _ _ _ h
  | cdfSoftReset => exact keeps_execCdfSoftReset _ h
  | wearReport => exact keeps_execWearReport _ h
  | pageProgram => exact keeps_execPageProgram _ h
  | sectorErase => exact keeps_execSectorErase _ h
  | bundleBegin => exact keeps_execBundleBegin _ h
  | bundleData => exact keeps_execBundleData _ _ h
  | bundleVerifyDone => exact keeps_execBundleVerifyDone h
  | chunkForward => exact keeps_execChunkForward h
  | ringChunk => exact keeps_execRingChunk _ h
  | bundleCancel => exact keeps_execBundleCancel _ h
  | manifestQuery => exact keeps_execManifestQuery _ h
  | activate => exact keeps_execActivate _ h
  | arm => exact keeps_execArm _ _ h
  | armRepeat => exact keeps_execArmRepeat h
  | updateReady => exact keeps_execUpdateReady h
  | armReturn => exact keeps_execArmReturn _ h
  | pointerWriteDone => exact keeps_execPointerWriteDone h
  | commit => exact keeps_execCommit _ _ _ h
  | activationTime => exact keeps_execActivationTime h
  | firmwareHandover => exact keeps_execFirmwareHandover _ h
  | attemptCount => exact keeps_execAttemptCount h
  | armDeadline => exact keeps_execArmDeadline h
  | abort => exact keeps_execAbort _ _ _ h
  | confirm => exact keeps_execConfirm _ h
  | confirmWindowExpiry => exact keeps_execConfirmWindowExpiry h
  | fallbackRequest => exact keeps_execFallbackRequest _ h
  | fallback => exact keeps_execFallback _ _ _ h
  | nodeJoin => exact keeps_execNodeJoin _ _ _ _ h
  | levelReq => exact keeps_execLevelReq _ _ h
  | islandSwitch => exact keeps_execIslandSwitch _ h
  | pmbusAck => exact keeps_execPmbusAck h
  | powerGood => exact keeps_execPowerGood h
  | settleElapsed => exact keeps_execSettleElapsed h
  | pgTimeout => exact keeps_execPgTimeout h
  | islWrite => exact keeps_execIslWrite _ _ _ h
  | clCfgWrite => exact keeps_execClCfgWrite _ _ _ h
  | loopLock => exact keeps_execLoopLock _ h
  | lossOfReference => exact keeps_execLossOfReference _ h
  | stewardClkWrite => exact keeps_execStewardClkWrite _ _ h
  | pmbusAlert => exact keeps_execPmbusAlert _ h
  | regionPowerOn => exact keeps_execRegionPowerOn _ _ h
  | regionPowerOff => exact keeps_execRegionPowerOff _ _ h
  | regionPowerDone => exact keeps_execRegionPowerDone h
  | enterDoze => exact keeps_execEnterDoze _ _ h
  | enterSleep => exact keeps_execEnterSleep _ _ h
  | enterBear => exact keeps_execEnterBear _ _ h
  | wakeRing => exact keeps_execWakeRing _ _ h
  | wakePin => exact keeps_execWakePin _ h
  | wakeTimer => exact keeps_execWakeTimer _ h
  | wakeNow => exact keeps_execWakeNow _ h
  | wakeLoadDone => exact keeps_execWakeLoadDone h
  | holdRelease => exact keeps_execHoldRelease _ _ h
  | wdtKick => exact keeps_execWdtKick _ h
  | watchdogExpiry => exact keeps_execWatchdogExpiry h
  | sliceEnd => exact keeps_execSliceEnd _ _ _ _ _ h
  | budgetExpiry => exact keeps_execBudgetExpiry h
  | windowExit => exact keeps_execWindowExit h
  | bgSliceStart => exact keeps_execBgSliceStart h
  | bgPhaseDone => exact keeps_execBgPhaseDone h
  | bgSliceAbort => exact keeps_execBgSliceAbort h
  | bgSliceEnd => exact keeps_execBgSliceEnd _ h
  | scan => exact keeps_execScan h
  | zeroisationDone => exact keeps_execZeroisationDone h
  | extest => exact keeps_execExtest h
  | idcode => exact keeps_execIdcode h
  | samplePreload => exact keeps_execSamplePreload _ h
  | clamp => exact keeps_execClamp h
  | highz => exact keeps_execHighz h
  | bypass => exact keeps_execBypass _ h
  | testLogicReset => exact keeps_execTestLogicReset h
  | segmentUp => exact keeps_execSegmentUp _ _ h
  | segmentDown => exact keeps_execSegmentDown _ h
  | enumChar => exact keeps_execEnumChar _ h
  | tmax => exact keeps_execTmax _ h
  | ringMessage => exact keeps_execRingMessage _ _ _ _ h
  | snap => exact keeps_execSnap _ _ _ h
  | wake => exact keeps_execWake _ _ h
  | reset => exact keeps_execReset _ _ h
  | syncSend => exact keeps_execSyncSend h
  | syncPair => exact keeps_execSyncPair _ h
  | syncTimeout => exact keeps_execSyncTimeout h
  | echoCharacter => exact keeps_execEchoCharacter _ h
  | adj => exact keeps_execAdj _ _ h
  | ptpTimestamp => exact keeps_execPtpTimestamp _ _ _ _ _ h
  | snapArm => exact keeps_execSnapArm _ h
  | snapCancel => exact keeps_execSnapCancel _ h
  | snapshotCapture => exact keeps_execSnapshotCapture h
  | snapshotExchange => exact keeps_execSnapshotExchange h
  | rollcallGo => exact keeps_execRollcallGo _ h
  | rollcallReturn => exact keeps_execRollcallReturn _ h
  | rollcallTimeout => exact keeps_execRollcallTimeout h
  | owlPortWrite => exact keeps_execOwlPortWrite _ _ _ _ h
  | qspiWrite => exact keeps_execQspiWrite _ _ h
  | qspiRead => exact keeps_execQspiRead _ h
  | qspiReadTimeout => exact keeps_execQspiReadTimeout h
  | qspiStatus => exact keeps_execQspiStatus h
  | dlyWrite => exact keeps_execDlyWrite _ _ _ _ h
  | vccoChange => exact keeps_execVccoChange _ _ h
  | functionLevelReset => exact keeps_execFunctionLevelReset h
  | pcieLinkChange => exact keeps_execPcieLinkChange _ _ _ _ h
  | islandClockEdge => exact keeps_execIslandClockEdge _ _ h
  | windowEntry => exact keeps_execWindowEntry h
  | strapSafePins => exact keeps_execStrapSafePins _ h
  | ethLinkChange => exact keeps_execEthLinkChange _ _ _ h
  | frameReceived => exact keeps_execFrameReceived _ _ _ h

/-- No command stops: each answers a next state. -/
theorem exec_next (i : Instr) (s : State) : ∃ t, exec i s = .next t := by
  cases i <;> exact ⟨_, rfl⟩

/-- What a command leaves in place: the queue, and the invariant. -/
theorem exec_frame {i : Instr} {s t : State} (h : exec i s = .next t) : t.pending = s.pending ∧ (Inv s → Inv t) :=
  ⟨((keeps_exec i s).next t h).pending, ((keeps_exec i s).next t h).inv⟩

end Sys2Proof.Machine
end

