-- ==== Sys2Proof/Laws/Regs.lean ====
section
/-! SUPPORT. The register store: reading after writing, bit fields, 64-bit pairs, counters. -/
namespace Sys2Proof.Machine

open Sys2Proof

/-! ## One register -/

@[simp] theorem rd_wr_same (p off : Nat) (v : Word) (s : State) : rd p off (wr p off v s) = v := by
  simp [rd, wr]

theorem rd_wr_other {p off q o : Nat} (h : rkey q o ≠ rkey p off) (v : Word) (s : State) :
    rd q o (wr p off v s) = rd q o s := by
  simp [rd, wr, tget_tput_other _ _ h]

/-- A setter of another component leaves every register. -/
theorem rd_of_regs {s t : State} (h : t.regs = s.regs) (p off : Nat) : rd p off t = rd p off s := by
  simp [rd, h]

/-- A register write changes the register store only. -/
theorem wr_frame (p off : Nat) (v : Word) (s : State) : wr p off v s = setRegs (wr p off v s).regs s := rfl

@[simp] theorem rd_md_same (p off : Nat) (f : Word → Word) (s : State) :
    rd p off (md p off f s) = f (rd p off s) := by simp [md]

theorem rd_md_other {p off q o : Nat} (h : rkey q o ≠ rkey p off) (f : Word → Word) (s : State) :
    rd q o (md p off f s) = rd q o s := rd_wr_other h _ _

/-- Offsets of one page that are not in the same word have different keys. -/
theorem rkey_off {p o o' : Nat} (h : o / 4 ≠ o' / 4) : rkey p o ≠ rkey p o' := by
  simp [rkey]; omega

/-- Different pages have different keys for offsets inside a page. -/
theorem rkey_page {p q o o' : Nat} (h : p ≠ q) (ho : o < 4096) (ho' : o' < 4096) : rkey p o ≠ rkey q o' := by
  simp only [rkey, ne_eq]
  intro e
  apply h
  omega

/-! ## Components that a register write leaves -/

@[simp] theorem wr_pending (p off : Nat) (v : Word) (s : State) : (wr p off v s).pending = s.pending := rfl
@[simp] theorem wr_dev (p off : Nat) (v : Word) (s : State) : (wr p off v s).dev = s.dev := rfl
@[simp] theorem wr_net (p off : Nat) (v : Word) (s : State) : (wr p off v s).net = s.net := rfl
@[simp] theorem wr_fab (p off : Nat) (v : Word) (s : State) : (wr p off v s).fab = s.fab := rfl
@[simp] theorem wr_banks (p off : Nat) (v : Word) (s : State) : (wr p off v s).banks = s.banks := rfl
@[simp] theorem wr_sched (p off : Nat) (v : Word) (s : State) : (wr p off v s).sched = s.sched := rfl
@[simp] theorem wr_dma (p off : Nat) (v : Word) (s : State) : (wr p off v s).dma = s.dma := rfl
@[simp] theorem wr_rgns (p off : Nat) (v : Word) (s : State) : (wr p off v s).rgns = s.rgns := rfl
@[simp] theorem wr_fox (p off : Nat) (v : Word) (s : State) : (wr p off v s).fox = s.fox := rfl
@[simp] theorem wr_flash (p off : Nat) (v : Word) (s : State) : (wr p off v s).flash = s.flash := rfl
@[simp] theorem wr_upd (p off : Nat) (v : Word) (s : State) : (wr p off v s).upd = s.upd := rfl
@[simp] theorem wr_pwr (p off : Nat) (v : Word) (s : State) : (wr p off v s).pwr = s.pwr := rfl
@[simp] theorem wr_time (p off : Nat) (v : Word) (s : State) : (wr p off v s).time = s.time := rfl
@[simp] theorem wr_io (p off : Nat) (v : Word) (s : State) : (wr p off v s).io = s.io := rfl
@[simp] theorem wr_free (p off : Nat) (v : Word) (s : State) : (wr p off v s).free = s.free := rfl

/-! ## 64-bit pairs -/

theorem rd64_wr64 (p off : Nat) (v : BitVec 64) (s : State) (h : off % 4 = 0) : rd64 p off (wr64 p off v s) = v := by
  have hk : rkey p off ≠ rkey p (off + 4) := rkey_off (by omega)
  unfold rd64 wr64
  rw [rd_wr_other hk, rd_wr_same, rd_wr_same]
  simp only [join64, hi32, lo32]
  ext i hi
  simp only [BitVec.getElem_append, BitVec.getElem_setWidth, BitVec.getLsbD_ushiftRight]
  split
  · simp [BitVec.getLsbD_eq_getElem, hi]
  · next h32 =>
    have : 32 + (i - 32) = i := by omega
    rw [this, BitVec.getLsbD_eq_getElem hi]

end Sys2Proof.Machine
end

