-- ==== Sys2Proof/Laws/Settle.lean ====
section
/-! SUPPORT. The settling of asynchronous resets changes the logic state alone (R111). -/
namespace Sys2Proof.Machine

open Sys2Proof

/-- t is s but for its logic state. -/
def LogicOnly (s t : State) : Prop := t = { s with logic := t.logic }

theorem logicOnly_setLogic (l : Logic) (s : State) : LogicOnly s (setLogic l s) := rfl

theorem LogicOnly.rfl {s : State} : LogicOnly s s := by cases s; simp [LogicOnly]

theorem LogicOnly.trans {s t u : State} (h : LogicOnly s t) (k : LogicOnly t u) : LogicOnly s u := by
  unfold LogicOnly at *
  rw [k, h]

theorem logicOnly_foldl {α : Type} (f : State → α → State) (hf : ∀ t a, LogicOnly t (f t a)) (l : List α) (s : State) :
    LogicOnly s (l.foldl f s) := by
  induction l generalizing s with
  | nil => exact .rfl
  | cons a l ih => exact (hf s a).trans (ih (f s a))

theorem logicOnly_asyncPass (r : Nat) (slices : List Nat) (s : State) : LogicOnly s (asyncPass r slices s) := by
  refine logicOnly_foldl _ (fun t i => logicOnly_foldl _ (fun t g => ?_) _ _) _ _
  dsimp only
  split
  · exact (logicOnly_foldl _ (fun _ _ => logicOnly_setLogic ..) _ _).trans (logicOnly_setLogic ..)
  · exact .rfl

theorem logicOnly_asyncSettle (fuel r : Nat) (slices : List Nat) (s : State) :
    LogicOnly s (asyncSettle fuel r slices s) := by
  induction fuel generalizing s with
  | zero => exact .rfl
  | succ n ih =>
    unfold asyncSettle
    dsimp only
    split
    · exact .rfl
    · exact (logicOnly_asyncPass ..).trans (ih _)

theorem logicOnly_settleLogic (r : Nat) (s : State) : LogicOnly s (settleLogic r s) := by
  unfold settleLogic
  split
  · exact .rfl
  · exact logicOnly_asyncSettle ..

/-- The settling of every region changes the logic state alone. -/
theorem logicOnly_settleAll (s : State) : LogicOnly s (settleAll s) :=
  logicOnly_foldl _ (fun t r => logicOnly_settleLogic r t) _ _

/-- What settling leaves, in the form that a proof about another part of the state uses. -/
theorem settleAll_eq (s : State) : settleAll s = { s with logic := (settleAll s).logic } := logicOnly_settleAll s

end Sys2Proof.Machine
end

