-- ==== Sys2Proof/WellFormed.lean ====
section
/-! DEFINITION. Which commands the outside world can send: operands that no bus, pin or host can produce are
ill-formed. -/
namespace Sys2Proof

/-- Sizes of a bus access in bytes. -/
def busSize (n : Nat) : Bool := n == 1 || n == 2 || n == 4 || n == 8

/-- User cells of an I/O bank (Table 18.1). -/
def cellsOf (b : IobId) : Nat := if b.val < 8 then 48 else 36

/-- The TAP codes of the instructions other than BYPASS (R426). -/
def namedTapCode (ir : Byte) : Bool := [0x00, 0x01, 0x02, 0x04, 0x05, 0x3C].contains ir.toNat

/-- A command whose operands the hardware can produce. -/
def Instr.wellFormed : Instr → Bool
  | .registerWrite _ _ size _ => busSize size
  | .hostBankAccess _ _ size _ _ => busSize size
  | .cdfArrayRead _ _ size => busSize size
  | .ioEdgeEvent b c _ _ => decide (c.val < cellsOf b)
  | .dlyWrite _ b c _ => decide (c.val < cellsOf b)
  | .samplePreload l => decide (l.length ≤ 1112)
  | .bypass ir => !namedTapCode ir
  | .qspiWrite addr words => addr.toNat % 4 == 0 && !words.isEmpty
  | .qspiRead addr => addr.toNat % 4 == 0
  | .armReturn bitmap => bitmap.length == 8
  | .rollcallReturn bitmap => bitmap.length == 8
  | .ethLinkChange _ _ speed => speed != 3
  | .pcieLinkChange _ width speed _ =>
    (width == 0 || width == 1 || width == 2 || width == 4) && decide (speed.toNat ≤ 3)
  | .frameReceived _ frame _ => !frame.isEmpty
  | .ringMessage origin kind _ words =>
    decide (1 ≤ origin.toNat) && decide (origin.toNat ≤ 250) && kind != 2 && !words.isEmpty
  | _ => true

end Sys2Proof
end

