-- ==== Sys2Proof/Tests/Slice0.lean ====
section
/-! SUPPORT. Tests: terms that no hardware produces are refused by WellFormed; each command on a small state; and
witnesses that the hypotheses of the obligations can be met. Where a hypothesis rests on a free value of the
configuration (a seal, a key, a signature), the witness assumes what it needs of that value. Expected values are
worked out by hand from the spec. -/
namespace Sys2Proof.Tests

open Sys2Proof Sys2Proof.Machine

set_option maxRecDepth 100000
set_option Elab.async false

/-! ## States that the tests use -/

/-- RUN after a power-up start-up, every page served, GSR released in four regions. -/
def runS : State :=
  { State.reset with
    dev := { Dev.reset with mode := .run, sampled := true, doneReleased := true, doneSeen := true, relStep := 3,
                            outReleased := true, weReleased := true, srReleased := true }
    pwr := { Pwr.reset with hare := true }
    rgns := [0, 1, 2, 63].map fun r => (r, { Rgn.blank with gsr := false }) }

/-- A mode with the rest of RUN's state. -/
def modeS (m : Mode) (s : State) : State := setDev { s.dev with mode := m } s

/-- The state after a command. -/
def after (i : Instr) (s : State) : State :=
  match exec i s with
  | .next t => t
  | _ => s

/-- Registers set one by one. -/
def regs (l : List (Nat × Nat × Word)) (s : State) : State := l.foldl (fun s e => wr e.1 e.2.1 e.2.2 s) s

/-- Words of active planes: region, frame, word, value. -/
def plane (l : List (Nat × Nat × Nat × Word)) (s : State) : State :=
  setPlanes { s.planes with active := l.foldl (fun m e => tins (frameKey e.1 e.2.1 e.2.2.1) e.2.2.2 m) s.planes.active } s

/-- Cell 0 enabled, its entry 0 being opcode op with destination, operands A and B and immediate. -/
def cellS (op dst a b imm : Nat) (x : Cell) : State :=
  let w := op * 2 ^ 42 + dst * 2 ^ 39 + a * 2 ^ 35 + b * 2 ^ 31 + imm
  setCell 0 x (plane [(0, 64, 0, W (w % 2 ^ 32)), (0, 64, 1, W (w / 2 ^ 32)), (0, 64, 12, 1)] runS)

/-- The same for the last cell of the device. -/
def lastCellS (op : Nat) : State :=
  let w := op * 2 ^ 42
  let f := 64 + 15 * 92 + 7
  plane [(63, f, 13, W (w % 2 ^ 32)), (63, f, 14, W (w / 2 ^ 32)), (63, f, 25, 1)] runS

/-- A cell with words in d0 and d1. -/
def regsCell (a b : Word) : Cell := { Cell.blank with d0 := tw .data a, d1 := tw .data b }

/-- An instruction of cell 0 that has issued, with what it has read and the word that the bank gave. -/
def issuedS (op dst imm : Nat) (a b w : TWord) : State :=
  let s := cellS op dst 0 1 imm Cell.blank
  setCell 0 { Cell.blank with issued := some ⟨curInsn 0 s, a, b, none, none, w⟩ } s

/-- A channel's buffer at the receiver. -/
def buffered (c : ChanId) (ws : List TWord) (s : State) : State := mdChan c (fun x => { x with buffer := ws }) s

/-- Words that a receiver has taken. -/
def gathered (c : ChanId) (ws : List TWord) (s : State) : State := mdChan c (fun x => { x with gathered := ws }) s

/-- A message that a receiver has taken whole. -/
def msgAt (c : ChanId) (cls task : Nat) (route : Word) (pay : List TWord) (s : State) : State :=
  gathered c (message cls task route pay 0) s

/-! ## Operands that no hardware produces are ill-formed -/

theorem test_wf_write_size : (Instr.registerWrite .host 0 3 0).wellFormed = false := by decide +kernel
theorem test_wf_bank_size : (Instr.hostBankAccess .host 0 5 true 0).wellFormed = false := by decide +kernel
theorem test_wf_array_size : (Instr.cdfArrayRead .host 0 0).wellFormed = false := by decide +kernel
theorem test_wf_edge_cell : (Instr.ioEdgeEvent 8 36 true 0).wellFormed = false := by decide +kernel
theorem test_wf_delay_cell : (Instr.dlyWrite .host 8 36 0).wellFormed = false := by decide +kernel
theorem test_wf_boundary : (Instr.samplePreload (List.replicate 1113 false)).wellFormed = false := by decide +kernel
theorem test_wf_bypass : (Instr.bypass 0x3C).wellFormed = false := by decide +kernel
theorem test_wf_qspi_write : (Instr.qspiWrite 4 []).wellFormed = false := by decide +kernel
theorem test_wf_qspi_read : (Instr.qspiRead 2).wellFormed = false := by decide +kernel
theorem test_wf_arm_return : (Instr.armReturn [0]).wellFormed = false := by decide +kernel
theorem test_wf_rollcall_return : (Instr.rollcallReturn []).wellFormed = false := by decide +kernel
theorem test_wf_eth_speed : (Instr.ethLinkChange 0 true 3).wellFormed = false := by decide +kernel
theorem test_wf_pcie_width : (Instr.pcieLinkChange true 3 1 ⟨0, 0⟩).wellFormed = false := by decide +kernel
theorem test_wf_frame : (Instr.frameReceived 0 [] true).wellFormed = false := by decide +kernel
theorem test_wf_ring_origin : (Instr.ringMessage 251 0 0 [zeroWord]).wellFormed = false := by decide +kernel
theorem test_wf_some : (Instr.registerWrite .host 0 4 0).wellFormed = true := by decide +kernel

/-! ## Word cells -/

/-- Every opcode with operands issues somewhere, in the first cell and in the last. -/
theorem test_witness_cells : ∀ p ∈ cellCommands 0, p.1 = 0x20 ∨ p.1 = 0x21 ∨
    (CellGo 0 p.1 (cellS p.1 0 0 1 0 Cell.blank) ∧ CellGo 16383 p.1 (lastCellS p.1)) := by decide +kernel
theorem test_witness_bank_operand : ∀ p ∈ cellCommands 0, let s := cellS p.1 0 8 8 0 Cell.blank
    issues 0 p.1 s = true ∧ namesBank (curInsn 0 s) = true := by decide +kernel
theorem test_witness_load_and_store : ∀ op ∈ [0x20, 0x21], let s := cellS op 0 0 1 0 Cell.blank
    issues 0 op s = true ∧ namesBank (curInsn 0 s) = false ∧ faultOperand 0 (curInsn 0 s) (fetch 0 (curInsn 0 s) s) = none ∧
      CellGo 0 op (issuedS op 0 0 (tw .data 1) zeroWord zeroWord) := by decide +kernel
theorem test_witness_load_of_a_fault : let s := issuedS 0x20 0 0 (tw .data 1) zeroWord (tw .fault 0)
    CellGo 0 0x20 s ∧ (cellWord 0 s).tag = .fault ∧ fltPass 0 s = false := by decide +kernel
theorem test_witness_dbnz : issues 0 0x1F (cellS 0x1F 0 0 0 0 Cell.blank) = true := by decide +kernel
theorem test_witness_wait : issues 0 0x23 (buffered (.mesh 0 .e) [zeroWord]
    (plane [(0, 64, 1, W ((0x23 * 2 ^ 42 + 4 * 2 ^ 35) / 2 ^ 32)), (0, 64, 12, 0x3)] runS)) = true := by decide +kernel
theorem test_witness_halt : issues 0 0x25 (cellS 0x25 0 0 0 0 Cell.blank) = true := by decide +kernel
theorem test_witness_reserved : let s := cellS 0x3F 0 0 0 0 Cell.blank
    cellReady 0 s = true ∧ (cell 0 s).issued = none ∧ reservedInsn (curInsn 0 s) = true := by decide +kernel
theorem test_witness_output : let x : Stall := ⟨5, zeroWord, none, none⟩
    let s := cellS 0 5 0 0 0 { Cell.blank with stall := some x }
    (cell 0 s).stall = some x ∧ regionRuns 0 s = true ∧ x.dst ≠ 6 ∧ outRoom 0 (x.dst - 4) s = true := by decide +kernel
theorem test_witness_posted : let x : Stall := ⟨6, zeroWord, none, none⟩
    let s := cellS 0 6 0 0 0 { Cell.blank with stall := some x }
    (cell 0 s).stall = some x ∧ regionRuns 0 s = true ∧ x.dst = 6 ∧ (cell 0 s).posted = none := by decide +kernel
theorem test_witness_fault_operand : ∀ p ∈ cellCommands 0,
    let s := cellS p.1 0 0 1 0 { Cell.blank with d0 := tw .fault 0x0A000000 }
    faultOperand 0 (cellInsn 0 s) (cellFetched 0 s) = some (tw .fault 0x0A000000) ∧ CellRuns 0 p.1 s := by decide +kernel
theorem test_witness_not_issued : ∀ p ∈ cellCommands 0,
    issues 0 p.1 runS = false ∧ ¬CellRuns 0 p.1 runS := by decide +kernel
theorem test_witness_good_registers : ∀ n < 4, parGood (cellReg n (cell 0 runS)) = true := by decide +kernel

/-- Sums wrap and saturate (Table 4.8). -/
theorem test_add_wraps : let t := after (.add 0) (cellS 0x01 2 0 1 0 (regsCell 0xFFFFFFFF 1))
    (cell 0 t).d2.data = 0 ∧ (cell 0 t).z = true ∧ (cell 0 t).c = true ∧ (cell 0 t).v = false := by decide +kernel
theorem test_sub_borrows : let t := after (.sub 0) (cellS 0x03 2 0 1 0 (regsCell 0 1))
    (cell 0 t).d2.data = 0xFFFFFFFF ∧ (cell 0 t).n = true ∧ (cell 0 t).c = false := by decide +kernel
theorem test_adc_carries : let t := after (.adc 0) (cellS 0x02 2 0 1 0 { regsCell 1 1 with c := true })
    (cell 0 t).d2.data = 3 := by decide +kernel
theorem test_sbc_borrows : let t := after (.sbc 0) (cellS 0x04 2 0 1 0 (regsCell 5 2))
    (cell 0 t).d2.data = 2 ∧ (cell 0 t).c = true := by decide +kernel
theorem test_addss_clamps : let t := after (.addss 0) (cellS 0x05 2 0 1 0 (regsCell 0x7FFFFFFF 1))
    (cell 0 t).d2.data = 0x7FFFFFFF ∧ (cell 0 t).v = true := by decide +kernel
theorem test_subss_clamps : let t := after (.subss 0) (cellS 0x06 2 0 1 0 (regsCell 0x80000000 1))
    (cell 0 t).d2.data = 0x80000000 ∧ (cell 0 t).v = true := by decide +kernel
theorem test_addus_clamps : let t := after (.addus 0) (cellS 0x07 2 0 1 0 (regsCell 0xFFFFFFFF 2))
    (cell 0 t).d2.data = 0xFFFFFFFF ∧ (cell 0 t).c = true := by decide +kernel
theorem test_subus_clamps : let t := after (.subus 0) (cellS 0x08 2 0 1 0 (regsCell 1 2))
    (cell 0 t).d2.data = 0 ∧ (cell 0 t).c = true := by decide +kernel
theorem test_muls_signed : (cell 0 (after (.muls 0) (cellS 0x09 2 0 1 0 (regsCell 0xFFFF 2)))).d2.data = 0xFFFFFFFE := by
  decide +kernel
theorem test_mulu_unsigned : (cell 0 (after (.mulu 0) (cellS 0x0A 2 0 1 0 (regsCell 0xFFFF 0xFFFF)))).d2.data =
    0xFFFE0001 := by decide +kernel
theorem test_mulsu_mixed : (cell 0 (after (.mulsu 0) (cellS 0x0B 2 0 1 0 (regsCell 0xFFFF 0xFFFF)))).d2.data =
    0xFFFF0001 := by decide +kernel
theorem test_andn : (cell 0 (after (.andn 0) (cellS 0x0F 2 0 1 0 (regsCell 0xFF 0x0F)))).d2.data = 0xF0 := by decide +kernel
theorem test_shl_carry : let t := after (.shl 0) (cellS 0x10 2 0 6 1 (regsCell 0x80000001 0))
    (cell 0 t).d2.data = 2 ∧ (cell 0 t).c = true := by decide +kernel
theorem test_shr_by_zero_keeps_c : let t := after (.shr 0) (cellS 0x11 2 0 6 32 { regsCell 6 0 with c := true })
    (cell 0 t).d2.data = 6 ∧ (cell 0 t).c = true := by decide +kernel
theorem test_sar_sign : (cell 0 (after (.sar 0) (cellS 0x12 2 0 6 4 (regsCell 0x80000000 0)))).d2.data = 0xF8000000 := by
  decide +kernel
theorem test_rol : (cell 0 (after (.rol 0) (cellS 0x13 2 0 6 4 (regsCell 0xF0000001 0)))).d2.data = 0x1F := by decide +kernel
theorem test_ror : let t := after (.ror 0) (cellS 0x14 2 0 6 1 (regsCell 1 0))
    (cell 0 t).d2.data = 0x80000000 ∧ (cell 0 t).c = true := by decide +kernel
theorem test_min_signed : (cell 0 (after (.min 0) (cellS 0x15 2 0 1 0 (regsCell 1 0xFFFFFFFF)))).d2.data = 0xFFFFFFFF := by
  decide +kernel
theorem test_maxu_unsigned : (cell 0 (after (.maxu 0) (cellS 0x18 2 0 1 0 (regsCell 1 0xFFFFFFFF)))).d2.data =
    0xFFFFFFFF := by decide +kernel
theorem test_abs_of_least : let t := after (.abs 0) (cellS 0x19 2 0 1 0 (regsCell 0x80000000 0))
    (cell 0 t).d2.data = 0x7FFFFFFF ∧ (cell 0 t).v = true := by decide +kernel
theorem test_cmp_writes_nothing : let t := after (.cmp 0) (cellS 0x1A 0 0 1 0 (regsCell 7 7))
    (cell 0 t).d0.data = 7 ∧ (cell 0 t).z = true ∧ (cell 0 t).c = true := by decide +kernel
theorem test_clz_of_zero : (cell 0 (after (.clz 0) (cellS 0x1D 2 0 1 0 (regsCell 0 0)))).d2.data = 32 := by decide +kernel
theorem test_lcnt : (cell 0 (after (.lcnt 0) (cellS 0x1E 0 6 0 0xABCD Cell.blank))).cnt = 0xABCD := by decide +kernel
theorem test_dbnz_ends : let t := after (.dbnz 0) (cellS 0x1F 7 0 0 0 { Cell.blank with cnt := 1 })
    (cell 0 t).cnt = 0 ∧ (cell 0 t).z = true := by decide +kernel
theorem test_st_waits : ((cell 0 (after (.st 0) (cellS 0x21 0 0 1 2 (regsCell 5 0xABCD)))).issued.map (·.wait)) =
    some (some (.store 7 (tw .data 0xABCD))) := by decide +kernel
theorem test_st_then_bp : let t := after (.st 0) (issuedS 0x21 0 2 (tw .data 5) (tw .data 0xABCD) zeroWord)
    (cell 0 t).bp = 8 ∧ (cell 0 t).issued = none := by decide +kernel
theorem test_ld_waits : ((cell 0 (after (.ld 0) (cellS 0x20 2 0 1 0x1FFF (regsCell 1 0)))).issued.map (·.wait)) =
    some (some (.load 0)) := by decide +kernel
theorem test_ld_wraps : let t := after (.ld 0) (issuedS 0x20 2 0x1FFF (tw .data 1) zeroWord (tw .sync 9))
    (cell 0 t).bp = 1 ∧ (cell 0 t).d2.data = 9 := by decide +kernel
theorem test_emit_tag : (cell 0 (after (.emit 0) (cellS 0x22 2 0 1 0 (regsCell 5 7)))).d2 = tw .sync 5 := by decide +kernel
theorem test_halt_sets_halted : (cell 0 (after (.halt 0) (cellS 0x25 0 0 0 0 Cell.blank))).halted = true := by decide +kernel
theorem test_bank_operand_waits : ((cell 0 (after (.add 0) (cellS 1 6 8 8 0 Cell.blank))).issued.map (·.wait)) =
    some (some .operand) := by decide +kernel
/-- A bank word that is read and rewritten steps BP once, with the posted write at the address read. -/
theorem test_bank_word_rewritten_once : let s := cellS 1 6 8 8 0 Cell.blank
    let q : Issued := ⟨curInsn 0 s, tw .data 2, tw .data 3, none, none, zeroWord⟩
    let t := after (.add 0) (setCell 0 { Cell.blank with issued := some q } s)
    (cell 0 t).bp = 1 ∧ (cell 0 t).posted = some (0, tw .data 5) := by decide +kernel

/-! ## Channels and switches -/

/-- A word in flight on a channel. -/
def flying (c : ChanId) (w : TWord) (rejecting : Bool) (s : State) : State :=
  mdChan c (fun x => { x with flight := [(w, false)], rejecting := rejecting }) s

theorem test_witness_crossing : let c : ChanId := .portUp 511
    (∀ b : Bool, let s := flying c (tw .data 7) b runS
      chanLive c s = true ∧ (chan c s).flight = [(tw .data 7, false)] ∧ (chan c s).rejecting = b ∧
        (chan c s).route = none) ∧
    parGood (corrupt (tw .data 7)) = false ∧ parGood (tw .data 7) = true := by decide +kernel
/-- The leader of a ring that is UP. -/
def upS : State :=
  setRing { runS.ring with inUp := true, outUp := true }
    (regs [(P.RING, R.RING_STAT, 0xFF000003)] (setDev { runS.dev with straps := 0x100 } runS))
theorem test_witness_crossing_kinds : ∀ c ∈ ([.ringOut, .svcDown 0, .mesh 0 .e, .tpIn 2047] : List ChanId), let t := flying c (tw .data 7) false upS
      chanLive c t = true ∧ (chan c t).flight = [(tw .data 7, false)] ∧ (chan c t).rejecting = false ∧
        (chan c t).route = none ∧ gathers c = (c == .svcDown 0) := by decide +kernel
theorem test_crossing_accepts : let t := after (.crossingWord (.portUp 0) false) (flying (.portUp 0) (tw .data 7) false runS)
    (chan (.portUp 0) t).verdicts = [true] ∧ (chan (.portUp 0) t).buffer = [tw .data 7] := by decide +kernel
theorem test_witness_credits : let c : ChanId := .tpIn 2047
    (let s := mdChan c (fun x => { x with owed := 1 }) runS; chanLive c s = true ∧ (chan c s).owed ≠ 0) ∧
    (let s := mdChan c (fun x => { x with verdicts := [true] }) runS; (chan c s).verdicts = [true]) ∧
    (let s := mdChan c (fun x => { x with verdicts := [false], retained := [zeroWord], fails := 2 }) runS
     (chan c s).retained = [zeroWord] ∧ (chan c s).fails < 3) ∧
    (let s := mdChan c (fun x => { x with verdicts := [false], retained := [zeroWord], fails := 3 }) runS
     (chan c s).verdicts = [false] ∧ 3 ≤ (chan c s).fails) := by decide +kernel
theorem test_credit_returns : (chan (.portUp 1) (after (.creditReturn (.portUp 1))
    (mdChan (.portUp 1) (fun x => { x with owed := 1, credits := 15 }) runS))).credits = 16 := by decide +kernel

/-- Port 511 retired; all spares free, or all in use. -/
theorem test_witness_spares : let s := setArr P.XB R.XB_PORT_RETIRED 511 true runS
    let u := wr P.XB R.XB_STAT 0xFF s
    remapping 511 s = true ∧ (!bit 0 (rd P.XB R.XB_STAT s) && !bit 8 (rd P.XB R.XB_STAT s)) = true ∧
      remapping 511 u = true ∧ ∀ k, k < 8 → (!bit k (rd P.XB R.XB_STAT u) && !bit (8 + k) (rd P.XB R.XB_STAT u)) = false := by
  decide +kernel
theorem test_remap_takes_spare_0 : rd P.XB R.XB_SPARE (after (.spareRemap 511)
    (setArr P.XB R.XB_PORT_RETIRED 511 true runS)) = 0x800001FF := by decide +kernel

/-- Messages at tile port 0 to ports 0 and 511 and to a reserved route, and at the crossbar. -/
theorem test_witness_switches :
    let at_ (c : ChanId) (route : Word) := buffered c [headWord 2 0 0, tw .data route] (plane [(0, 25, 0, 1)] runS)
    ([0x40000000, 0x400001FF, 0x40000200].all fun route => let s := at_ (.tpOut 0) route
      takesWork P.XB s && chanLive (.tpOut 0) s && (chan (.tpOut 0) s).route.isNone && !tileHeadHeld 0 s) = true ∧
    (headWord 2 0 0).tag = .head ∧
    (let s := at_ (.tpOut 0) 0x40000000
     decodeRoute (ownNode s) 0x40000000 = .port 0 ∧ uplinkEn 0 s = true ∧ uplinkOut 0 2 s = some (.tpIn 0)) ∧
    decodeRoute 1 0x400001FF = .port 511 ∧ portAbsent 0 (at_ (.tpOut 0) 0x400001FF) = false ∧
    remapping 0 (at_ (.tpOut 0) 0x400001FF) = false ∧
    decodeRoute 1 0x40000200 = .absent ∧
    (let s := at_ (.portUp 7) 0x40000000
     chanLive (.portUp 7) s = true ∧ portUnderSlice 7 s = false ∧ remapping 7 s = false ∧ crossbarOut 0x40000000 s = some (.portDown 0) ∧
       remapping 0 s = false ∧ crossbarOut 0x40000200 s = none) := by decide +kernel
theorem test_witness_stray : let s := buffered (.tpOut 2047) [tw .data 1] runS
    chanLive (.tpOut 2047) s = true ∧ (chan (.tpOut 2047) s).route = none := by decide +kernel
theorem test_witness_freed : let s := mdChan (.portDown 0) (fun x => { x with waiting := [(.portUp 2, 5), (.portUp 1, 5)] }) runS
    let x := chan (.portDown 0) s
    let turn (k : ChanId) : Nat := (inputNo k + 1023 - x.served) % 1024
    chanLive (.portDown 0) s = true ∧ x.holder = none ∧ x.retired = false ∧ x.waiting.head?.map (·.2) = some 5 ∧
      (ChanId.portUp 1, (5 : BitVec 64)) ∈ x.waiting ∧
      ∀ e ∈ x.waiting, e.2 = 5 → e.1 ≠ .portUp 1 → turn (.portUp 1) < turn e.1 := by decide +kernel
theorem test_stray_is_counted : rd (P.RGN 0) R.RGN_SW_STRAY (after (.switchMessageRoute (.tpOut 0))
    (buffered (.tpOut 0) [tw .data 1] runS)) = 1 := by decide +kernel

/-! ## Parameters, MAC slices, taps and clocks -/

/-- Uplink 7 of region 0 open to tile 15, a PARAM or PARAM_COMMIT at its unit. -/
def paramS (head : Bool) (cls : Nat) (pay : List TWord) : State :=
  mdChan (.paramUnit 0) (fun x => { x with marks := [some 7] })
    (msgAt (.paramUnit 0) cls 0 0x40000007 pay (plane [(0, 25, 7, W (0x80000000 + (if head then 0x41 else 1)))] runS))

theorem test_witness_param :
    ([(0x07800001 : Word), 0xF8000000].all fun w => let s := paramS false 3 [tw .data w]
      (unitMsg 7 s).map (fun m => (m.cls, m.status, m.len, m.payload.length)) == some (3, 0, 1, 1) &&
        uplinkMask 7 s != 0) = true ∧
    rewriteOk (uplinkMask 7 (paramS false 3 [])) (rewriteWord (tw .data 0x07800001)) = true ∧
    rewriteOk (uplinkMask 7 (paramS false 3 [])) (rewriteWord (tw .data 0xF8000000)) = false ∧
    (∀ b : Bool, let s := paramS b 4 []
      (unitMsg 7 s).map (fun m => (m.cls, m.status, m.len)) = some (4, 0, 0) ∧ commitAtHead 7 s = b) ∧
    (let s := paramS true 4 []
     tfind (dropMsg (.paramUnit 0) s).fab.held 7 = none ∧
       tfind (dropMsg (.paramUnit 0) (setFab { s.fab with held := [(7, [(0x780, 1)])] } s)).fab.held 7 =
         some [(0x780, 1)]) := by decide +kernel
theorem test_commit_takes_pending : let s := paramS true 4 []
    let t := after (.paramCommit 7) (setFab { s.fab with pend := [(0x780, 1)] } s)
    t.fab.held = [(7, [(0x780, 1)])] ∧ t.fab.pend = [] := by decide +kernel
/-- A commit held at uplink 0 of region 0, a HEAD on the way to its tile port. -/
def heldS : State :=
  flying (.tpIn 0) (headWord 2 0 0) false (setFab { runS.fab with held := [(0, [(5, 0x1234)])], pend := [(5, 7)] } runS)
theorem test_witness_held : tfind heldS.fab.held 0 = some [(5, 0x1234)] ∧
    uplinkTp 0 heldS = 0 ∧ chanLive (.tpIn 0) heldS = true ∧ headArrives 0 false heldS = true ∧
    heldS.fab.held.length = 1 := by decide +kernel
theorem test_held_commit_is_live : liveImm 0 5 (after (.heldCommitApply 0) heldS) = 0x1234 := by decide +kernel

/-- A trigger that took 3 and -2. -/
def macG : MacTrig := ⟨.data, tw .data 3, tw .data 0xFFFFFE, zeroWord, 0, none⟩
/-- MAC slice 0 with that trigger, enabled. -/
def macS : State :=
  setMac 0 { mac 0 runS with trig := [macG] }
    (plane [(0, 64 + 88, 0, 0x19), (0, 64 + 88, 1, 1), (0, 64 + 88, 2, 1)] runS)
theorem test_witness_mac : let s := macS
    (mac 0 s).trig = [macG] ∧ regionRuns 0 s = true ∧ macEnabled 0 s = true ∧ macG.a.tag ≠ .fault ∧ macG.b1.tag ≠ .fault ∧
      (let t := setMac 0 { mac 0 s with trig := [] } s |> tileEvent 0 0x08
       fld 6 5 (macWord 0 0 t) = 0 ∧ usesCin (fld 8 7 (macWord 0 0 t)) = false ∧ parity80 (mac 0 t).p = (mac 0 t).ppar ∧ (mac 0 t).pf = false) := by decide +kernel
theorem test_mac_product : (mac 0 (after (.macIssue 0 false) macS)).p = BitVec.ofInt 80 (-6) := by decide +kernel

/-- Region 1 sends group 3 to region 0. -/
theorem test_witness_tap : let s := runS
    regionNext 1 .w = some 0 ∧ clockRuns 1 0 s = true ∧ regionOn 0 s = true ∧ inboundHeld 0 (dirCode .e) s = false ∧
      outStream 1 (dirCode .w) 3 s = false ∧ (tapGroup (tapKey 0 (dirCode .e) 3) s).items.length < 16 ∧
      (tapGroup (tapKey 0 (dirCode .e) 3) s).replay = none := by decide +kernel
theorem test_witness_clock : let s := plane [(0, 0, 0, 0x80)] runS
    clockRuns 0 2 s = false ∧ clockRuns 0 1 s = true ∧ (rgn 0 s).gsr = false ∧ clockRuns 0 0 s = true ∧
      clockRuns 3 1 (plane [(3, 0, 0, 0x80)] runS) = true ∧ (rgn 3 s).gsr = true := by decide +kernel

/-! ## Memory banks -/

theorem test_witness_bank_write : let s := runS
    bankAbsent 1023 s = false ∧ copies 1023 s = [1023] ∧ parGood (tw .data 5) = true ∧
      1022 ∉ copies 1023 s := by decide +kernel
theorem test_bank_null : (readBank 0 8191 (writeBank 0 8191 ⟨5, .null, parGood ⟨5, .null, false⟩ |> not⟩ runS).2).1 =
    nullWord := by decide +kernel
theorem test_witness_bank_access : banksServed runS = true ∧ (0x1FFFFFC : Nat) % 4 = 0 ∧ (0x1FFFFF8 : Nat) % 8 = 0 := by decide +kernel
theorem test_witness_host_reads : let q : BankReq := ⟨.host, none, 5, .read, false, 0⟩
    hostReading runS = false ∧ runS.io.hostWait = [] ∧
      hostReading (mdBankPort 0 (fun x => { x with queue := [q] }) runS) = true ∧ attached .host runS = true ∧
      attached .steward runS = true := by decide +kernel
theorem test_bank_access_enters : let t := after (.hostBankAccess .host 0x0011FFFFFC 4 true 7) runS
    (bankPort 1023 t).queue.map (fun q => (q.word, q.op)) = [(8191, .write (tw .data 7))] := by decide +kernel
theorem test_witness_alias : bankAbsent 0 runS = false ∧ copies 0 runS ≠ [] ∧ banksServed runS = true ∧
    fld 31 3 (8 : Word) ≠ 0 ∧ banksServed State.reset = false ∧
    State.reset.dev.bankClear = false ∧ attached .steward State.reset = true := by decide +kernel
theorem test_alias_sets_bits : let s := setBankWord 3 9 (tw .stat 0xF0) runS
    bankWord 3 9 (after (.bankGrant 3) (after (.bankGrant 3) (after (.aliasWrite .host .bitSet 3 9 0x0F) s))) =
      tw .stat 0xFF := by decide +kernel

/-- A request at each rank of bank 0's port. -/
theorem test_witness_grant : let q (op : BankOp) : BankReq := ⟨.host, none, 5, op, false, 0⟩
    bankClocked 0 runS = true ∧ runS.dev.bankClear = false ∧
    (let s := mdBankPort 0 (fun x => { x with stew := [q .read] }) runS
     (bankPort 0 (rerank 0 s)).stew = [q .read]) ∧
    (let s := mdBankPort 0 (fun x => { x with lut := some (q .read) }) runS
     (bankPort 0 (rerank 0 s)).stew = [] ∧ nextCompute 0 (rerank 0 s) = some 16 ∧
       (bankPort 0 (rerank 0 s)).lut = some (q .read)) ∧
    (let s := setCell 3 { Cell.blank with posted := some (9, tw .data 1) } runS
     (bankPort 0 (rerank 0 s)).stew = [] ∧ nextCompute 0 (rerank 0 s) = some 3 ∧
       (cell 3 (rerank 0 s)).posted = some (9, tw .data 1)) ∧
    (let s := mdBankPort 0 (fun x => { x with queue := [q (.write zeroWord)] }) runS
     (bankPort 0 (rerank 0 s)).stew = [] ∧ nextCompute 0 (rerank 0 s) = none ∧
       (bankPort 0 (rerank 0 s)).queue = [q (.write zeroWord)]) ∧
    nextCompute 0 (rerank 0 runS) = none ∧ (bankPort 0 (rerank 0 runS)).queue = [] := by decide +kernel
def clearS : State :=
  setDev { runS.dev with bankClear := true, loadKind := .wakeSleep } (regs [(P.PMU, R.PMU_RETAIN_LO, 1)] runS)
theorem test_witness_clear : clearS.dev.bankClear = true ∧ inMask (rd64 P.PMU R.PMU_RETAIN_LO clearS) 0 = true ∧
    inMask (rd64 P.PMU R.PMU_RETAIN_LO clearS) 1 = false := by decide +kernel

/-! ## Scheduler -/

/-- Engine 7 at port 511 with 4 slots, the suspend protocol implemented. -/
def enginesS (s : State) : State := setSched { s.sched with emap := [(7, 0x80001DFF)] } s
/-- The last task in a state, on engine 7. -/
def taskS (st : TaskState) : State :=
  setCtx 4095 { Ctx.blank with w0 := 0x41C5, state := st } (enginesS runS)
/-- A message at service 0x00 about the last task. -/
def toSched (cls : Nat) (pay : List TWord) (s : State) : State := msgAt (.svcDown 0) cls 4095 0x400001FF pay s

theorem test_witness_commands : Reaches .host P.SCH0 (taskS .idle) ∧ Reaches .host P.SCH3 (taskS .idle) ∧
    (taskS .idle).sched.cmd = none ∧ schedRuns (taskS .idle) = true ∧ (taskS .idle).sched.cyc.stage = 0 ∧
    (taskS .idle).sched.cyc.cancelled = none ∧ (taskS .idle).fox.armed = none ∧
    ([TaskState.idle, .ready, .running, .suspending, .disabled].all fun x => (ctx 4095 (taskS x)).state == x) = true ∧
    (ctx 4095 (taskS .running)).onEngine = true := by decide +kernel
/-- The cycle is past its stages, or a command waits. -/
theorem test_witness_command_waits : let s := setCyc { runS.sched.cyc with stage := 3 } runS
    (s.sched.cmd = none ∧ 3 ≤ s.sched.cyc.stage ∧ schedRuns (modeS .doze runS) = false) ∧
      (setSched { s.sched with cmd := some (1, 5) } s).sched.cmd ≠ none := by decide +kernel
theorem test_command_waits : rd P.SCH0 R.SCH0_CMD_STAT (after (.schCmdCancel .host 5)
    (setCyc { runS.sched.cyc with stage := 3 } runS)) = 0x2005 := by decide +kernel
theorem test_ready_of_idle : (ctx 4095 (after (.schCmdReady .host 4095) (taskS .idle))).state = .ready := by decide +kernel
theorem test_cancel_of_running : (ctx 4095 (after (.schCmdCancel .host 4095) (taskS .running))).cancelPending = true := by
  decide +kernel

/-- The walker at a binding that readies, or cancels, task 5, or at none. -/
def walkS (todo : List Word) : State := setSched { runS.sched with walk := some ⟨17, ⟨3, 9, 0⟩, todo⟩ } runS
theorem test_witness_walker : schedRuns (walkS []) = true ∧ (walkS []).sched.cmd = none ∧ bit 30 (5 : Word) = false ∧ bit 30 (0x40000005 : Word) = true := by
  decide +kernel
theorem test_walker_cancels : (ctx 5 (after .walkerCancel (setCtx 5 { Ctx.blank with state := .ready }
    (walkS [0x40000005])))).state = .idle := by decide +kernel

theorem test_witness_edge : let s := regs [(P.IOB 8, R.IOB_CFG + 4 * 35, 1), (P.IOB 8, R.IOB_BANK_STAT, 2)] runS
    s.dev.mode = .run ∧ (35 : Nat) < bankCells 8 ∧ fld 0 0 (rd (P.IOB 8) (R.IOB_CFG + 4 * 35) s) = 1 ∧
      pairedCell 8 35 s = false ∧ bit 1 (rd (P.IOB 8) R.IOB_BANK_STAT s) = true ∧ (queue 9 s).any (fun e => e.index == 35) = false := by decide +kernel
theorem test_witness_timer : let s := regs [(P.SCH2, R.SCH2_TM_TCTL + 16 * 63, 1)] runS
    schedRuns s = true ∧ bit 0 (rd P.SCH2 (R.SCH2_TM_TCTL + 16 * 63) s) = true ∧
      (rd64 P.SCH2 (R.SCH2_TM_AT_LO + 16 * 63) s).toNat ≤ s.time.ringTime.toNat ∧
      rd P.SCH2 (R.SCH2_TM_PERIOD + 16 * 63) s = 0 ∧ (queue 0 s).any (fun e => e.index == 63) = false := by decide +kernel
theorem test_timer_enters_queue_0 : (queue 0 (after (.timerFire 63)
    (regs [(P.SCH2, R.SCH2_TM_TCTL + 16 * 63, 1)] runS))).map (·.index) = [63] := by decide +kernel
theorem test_witness_absence : let s := setSched { runS.sched with absentEvts := [⟨1, 7, 0, 4⟩] } runS
    let f := setQueue 13 (List.replicate 64 ⟨0, 0, 0⟩) s
    schedRuns s = true ∧ queueFull 13 s = false ∧ queueFull 13 f = true ∧ f.sched.absentEvts = s.sched.absentEvts := by
  decide +kernel

theorem test_witness_complete : let s := toSched 2 [] (taskS .running)
    let t := dropMsg (.svcDown 0) (enterStage 2 false s)
    let c := ctx 4095 t
    schedRuns s = true ∧ ((sinkMsg (.svcDown 0) s).any fun m => m.cls == 2 && m.status == 0 && m.payload.length == m.len &&
      (payloadFault m).isNone && !stray m t && !completeHeld m (enterStage 2 false s)) = true ∧ c.again = false ∧
      c.completeEvt = false := by decide +kernel
/-- A COMPLETE of one payload word, its LENGTH being two. -/
def shortS : State :=
  gathered (.svcDown 0) [headWord 2 4095 1, tw .data 0x400001FF, trailer 0] (taskS .running)
theorem test_witness_short_complete : ((sinkMsg (.svcDown 0) shortS).any fun m =>
    m.cls == 2 && m.status == 0 && m.payload.length != m.len) = true := by decide +kernel
theorem test_witness_stray_at_scheduler : ((sinkMsg (.svcDown 0) (toSched 2 [] (taskS .idle))).any fun m =>
    stray m (dropMsg (.svcDown 0) (enterStage 2 false (toSched 2 [] (taskS .idle))))) = true := by decide +kernel
/-- Its completion event waits for room in queue 13. -/
def blockedS : State :=
  setQueue 13 (List.replicate 64 ⟨0, 0, 0⟩) (setCtx 4095 { Ctx.blank with w0 := 0xC1C5, state := .running } (enginesS runS))
theorem test_witness_blocked : eventBlocked (ctx 4095 blockedS) blockedS = true ∧
    ((sinkMsg (.svcDown 0) (toSched 2 [] blockedS)).any fun m =>
      !stray m blockedS && completeHeld m (enterStage 2 false (toSched 2 [] blockedS))) = true := by decide +kernel
theorem test_witness_suspend_reply : ∀ b : Bool,
    let s := toSched 5 [zeroWord] (mdCtx 4095 (fun c => { c with cancelPending := b }) (taskS .suspending))
    let t := dropMsg (.svcDown 0) (enterStage 2 false s)
    ((sinkMsg (.svcDown 0) s).any fun m => m.cls == 5 && m.status == 0 && m.payload.length == m.len && !stray m t &&
      (payloadFault m).isNone && !completeHeld m (enterStage 2 false s)) = true ∧ (ctx 4095 t).cancelPending = b := by
  decide +kernel
/-- A SUSPEND reply that was closed early because its channel was retired. -/
def cutS : State :=
  gathered (.svcDown 0) [headWord 5 4095 1, tw .data 0x400001FF, trailer E.DRAIN_TIMEOUT] (taskS .suspending)
theorem test_witness_suspend_cut : ((sinkMsg (.svcDown 0) cutS).any fun m => m.cls == 5 && m.status != 0 &&
    !stray m (dropMsg (.svcDown 0) (enterStage 2 false cutS)) && !completeHeld m (enterStage 2 false cutS)) = true := by
  decide +kernel
theorem test_complete_idles : (ctx 4095 (after .complete (toSched 2 [] (taskS .running)))).state = .idle := by decide +kernel
theorem test_suspend_preempts : (ctx 4095 (after .suspendReply (toSched 5 [] (taskS .suspending)))).state = .preempted := by
  decide +kernel

theorem test_witness_service : wordsFail [tw .data 0xFFFC, tw .data 1] = none ∧
    ((sinkMsg (.svcDown 0) (toSched 0x20 [tw .data 0xFFFC, tw .data 1] runS)).any fun m =>
      m.cls == 0x20 && m.payload.length == m.len) = true ∧ 0xFFFC / 4 + 1 ≤ 16384 ∧
    ((sinkMsg (.svcDown 0) (toSched 0x21 [tw .data 0, tw .data 1] runS)).any fun m => m.cls == 0x21) = true ∧
    ((sinkMsg (.svcDown 0) (toSched 0x20 [tw .data 0x10000, tw .data 1] runS)).any fun m => m.status == 0) = true := by
  decide +kernel

theorem test_witness_dispatch : (taskS .ready).sched.cmd = none ∧ outputIdle (taskS .ready) = true ∧ bit 0 (rd P.SCH0 R.PAGE_CTL (taskS .ready)) = true ∧
    ((readyList (taskS .ready)).map (·.1)) = [4095] ∧ engineHeld 7 (taskS .ready) = false ∧
    engineAbsence 7 (taskS .ready) = none ∧ freeSlot 7 (taskS .ready) = some 0 ∧
    engineAbsence 7 (setSched { (taskS .ready).sched with emap := [] } (taskS .ready)) = some 4 ∧
    outputIdle (mdChan (.svcUp 0) (fun x => { x with sendq := [zeroWord, zeroWord] }) runS) = false ∧
    ((taskS .ready).sched.heldRegions.findSome? fun r => drainVictim r (taskS .ready)) = none ∧
    drainVictim 63 (setSched { (taskS .running).sched with heldRegions := [63] } (taskS .running)) = some 4095 := by
  decide +kernel
theorem test_dispatch_runs : (ctx 4095 (after .dispatchDecision (taskS .ready))).state = .running := by decide +kernel

theorem test_witness_drain : let s := setFox { runS.fox with armed := some (1 <<< 63, 0), drainAt := some 0 } runS
    inMask (1 <<< 63) 63 = true ∧ s.fox.drainAt.isSome = true ∧ s.sched.heldRegions.contains 63 = false := by
  decide +kernel
theorem test_witness_limits :
    let s := regs [(P.SCH0, R.SCH0_SUSPEND_LIMIT, 1), (P.SCH0, R.SCH0_RUN_LIMIT, 1)] (taskS .running)
    schedRuns s = true ∧ (ctx 4095 s).state = .running ∧ (ctx 4095 s).runHit = false ∧ rd P.SCH0 R.SCH0_RUN_LIMIT s ≠ 0 ∧
      rdf P.SCH0 R.SCH0_SUSPEND_LIMIT 23 0 s ≠ 0 ∧ (ctx 4095 (taskS .suspending)).suspendHit = false ∧
      (tasks (fun c => c.onEngine && c.engine == 7) s).map (·.1) = [4095] ∧ (ctx 4095 s).completeEvt = false := by
  decide +kernel
theorem test_absent_engine_blocks : (ctx 4095 (after (.engineAbsent 7)
    (setSched { (taskS .running).sched with emap := [] } (taskS .running)))).state = .blocked := by decide +kernel

def spillS : State :=
  setSched { runS.sched with unspilled := 2 } (regs [(P.SCH3, R.SCH3_TRACE_CTL, 2),
    (P.SCH3, R.SCH3_SPILL_RANGE, 0x20001FFF), (P.SCH3, R.SCH3_SPILL_WPTR, 0x1FFF)] runS)
theorem test_witness_spill : let s := spillS
    schedRuns s = true ∧ bit 1 (rd P.SCH3 R.SCH3_TRACE_CTL s) = true ∧ s.sched.unspilled ≠ 0 ∧
      rdf P.SCH3 R.SCH3_SPILL_RANGE 29 16 s ≠ 0 ∧
      rdf P.SCH3 R.SCH3_SPILL_RANGE 12 0 s ≤ rdf P.SCH3 R.SCH3_SPILL_WPTR 12 0 s ∧
      rdf P.SCH3 R.SCH3_SPILL_WPTR 12 0 s < rdf P.SCH3 R.SCH3_SPILL_RANGE 12 0 s + rdf P.SCH3 R.SCH3_SPILL_RANGE 29 16 s ∧
      spillPending s = false := by decide +kernel
theorem test_witness_windows : Reaches .host P.SCH1 runS ∧ Reaches .steward P.SCH2 runS ∧ Reaches .fabric P.SCH0 runS ∧
    (taskS .running).sched.ctx.any (fun x => x.2.onEngine && x.2.engine == 7) = true ∧
    fld 29 25 (0x22000000 : Word) = 17 ∧ 18 ≤ fld 29 25 (0x24000000 : Word) := by decide +kernel
theorem test_arg_window_steps : let t := after (.argDataAccess .host (some 7)) runS
    argWord 0 t = tw .data 7 ∧ rdf P.SCH1 R.SCH1_ARG_ADDR 13 0 t = 1 := by decide +kernel
theorem test_witness_context : (ctx 0 runS).state = .disabled ∧ ctxRefused { ctx 0 runS with w0 := 0 } = false ∧
    ctxRefused { ctx 0 runS with w0 := 0x3FC0 } = true := by decide +kernel

/-! ## DMA, translation, remote memory -/

/-- A descriptor of one fill word to the last word of bank 0. -/
def fillDesc : Desc := ⟨[0x20, 1, 0, 0, W (bankAddr 0 8191), 0, 0xABCD, 0], false, 0⟩
def dmaS (x : DmaChan) : State := setDchan 31 x (regs [(P.DMA 31, R.PAGE_CTL, 1)] runS)
/-- The bank has served the request of an engine. -/
def servedS (e : Nat) (x : TWord) (code : Nat) (s : State) : State :=
  setBanks { s.banks with engines := tins e (some (x, code)) s.banks.engines } s
/-- Mover 3 serves channel 31, whose current descriptor stands at its beginning. -/
def curOf (d : Desc) (inBlock : Nat) : Cur :=
  ⟨d, 0, inBlock, [], [], none, (0, 0), [], [], (0, 0, 0)⟩
def movingS (d : Desc) (inBlock : Nat) : State :=
  setMover 3 { Mover.idle with serving := some 31 }
    (regs [(P.MMU, R.MMU_SPACE_CFG, 1)] (dmaS { DmaChan.idle with cur := some (curOf d inBlock) }))

theorem test_witness_submit : Reaches .host (P.DMA 31) runS ∧ entering runS = false ∧ dmaEnabled 31 (dmaS DmaChan.idle) = true ∧
    (dchan 31 runS).queue.length < 8 ∧
    8 ≤ (dchan 31 (dmaS { DmaChan.idle with queue := List.replicate 8 fillDesc })).queue.length := by decide +kernel
/-- A DMA_DESC for channel 31 from a port of the fabric. -/
def descS (n : Nat) : State :=
  msgAt (.svcDown 1) 0x10 5 0x40000000 ([0x7C20, 1, 0, 0, 0, 0, 0, 0].map (tw .data))
    (regs [(P.DMA 31, R.DMA_CTL, 0x10)] (dmaS { DmaChan.idle with queue := List.replicate n fillDesc }))
theorem test_witness_desc : ([0, 7, 8].all fun n => dmaRuns (descS n) &&
    (sinkMsg (.svcDown 1) (descS n)).any fun m => m.cls == 0x10 && m.status == 0 && m.len == 8 && m.payload.length == 8 &&
      wordsFail m.payload == none && descChan m == 31 && originAccepted 31 m.route (descS n)) = true := by decide +kernel
theorem test_witness_desc_refused : (let s := regs [(P.DMA 31, R.DMA_CTL, 0)] (descS 0)
    entering s = false ∧ (sinkMsg (.svcDown 1) s).any (fun m => !originAccepted 31 m.route s) = true) ∧
    entering (setPwr { (descS 0).pwr with entering := some 0 } (descS 0)) = true := by decide +kernel
theorem test_desc_enters : (dchan 31 (after .dmaDesc (descS 0))).queue.length = 1 := by decide +kernel
theorem test_witness_start : let x := dchan 31 (dmaS { DmaChan.idle with queue := [fillDesc] })
    x.cur = none ∧ x.halted = false ∧ x.chain = none ∧ descBad fillDesc = none ∧
      waitsForEvents 31 (dmaS { DmaChan.idle with queue := [fillDesc] }) = false ∧
      (descBad ⟨[0x20, 0], false, 0⟩).isSome = true ∧ (⟨[0x20, 0], false, 0⟩ : Desc).evt = false ∧ servedBy 31 runS = none := by decide +kernel
theorem test_bad_descriptor_halts : (dchan 31 (after (.descriptorStart 31)
    (dmaS { DmaChan.idle with queue := [⟨[0x20, 0], false, 0⟩] }))).halted = true := by decide +kernel

/-- A chain at word 8184 of bank 0, n words of which have been read. -/
def chainS (n : Nat) : State :=
  dmaS { DmaChan.idle with chain := some (8184, fillDesc), chainGot := List.replicate n zeroWord }
theorem test_witness_chain : ([0, 7, 8].all fun n => dmaRuns (chainS n) && (dchan 31 (chainS n)).cur.isNone &&
      !(dchan 31 (chainS n)).halted && !waitsForEvents 31 (chainS n)) = true ∧
    (viaPort 47 0 8184 .read (chainS 0)).1 = none ∧
    (viaPort 47 0 8191 .read (servedS 47 (tw .fault 0x01000000) 0 (chainS 7))).1 = some (tw .fault 0x01000000, 0) ∧
    wordStops (tw .fault 0x01000000) = some 1 := by decide +kernel
theorem test_chain_read_asks_its_bank : (bankPort 0 (after (.chainRead 31) (chainS 1))).queue.map
    (fun q => (q.engine, q.word)) = [(some 47, 8185)] := by decide +kernel
theorem test_chain_fault_halts : (dchan 31 (after (.chainRead 31)
    (servedS 47 (tw .fault 0x01000000) 0 (chainS 7)))).halted = true := by decide +kernel
theorem test_witness_event : let s := dmaS { DmaChan.idle with waitEvt := some 7 }
    dmaRuns s = true ∧ queueFull 17 s = false ∧ s.sched.cyc.stalled = false := by decide +kernel
theorem test_witness_reset_in_a_descriptor :
    ((dchan 31 (movingS fillDesc 0)).cur.map (·.desc.id)) = some 0 ∧ Reaches .host (P.DMA 31) (movingS fillDesc 0) := by
  decide +kernel
theorem test_event_enters_queue_17 : (queue 17 (after (.dmaEventPost 31)
    (dmaS { DmaChan.idle with waitEvt := some 7 }))).map (·.word) = [7] := by decide +kernel

/-- A walk of space 15 at level 2 whose entry is word 8191 of bank 0. -/
def walkOf : PtWalk := ⟨15, 0xFFFFFFF000, false, 2, 8191, true⟩
theorem test_witness_walk : let s := setMover 4 { Mover.idle with walk := some walkOf } runS
    dmaRuns s = true ∧ (mover 4 s).walk = some walkOf ∧ walkOf.stale = true ∧
      walkEntry walkOf (tw .data 0xF0000001) = .leaf ⟨15, 0xFFFFFFF, false, true, true, 0x0000001⟩ ∧
      (viaPort 12 0 8191 .read s).1 = none ∧
      (viaPort 12 0 8191 .read (servedS 12 (tw .data 0xF0000001) 0 s)).1 = some (tw .data 0xF0000001, 0) ∧
      (match walkEntry { walkOf with level := 0 } (tw .data 0x80000200) with | .next _ => true | _ => false) = true := by
  decide +kernel
theorem test_walk_leaf_is_used_once : let t := after (.pageWalkRead 4) (servedS 12 (tw .data 0xF0000001) 0
      (setMover 4 { Mover.idle with walk := some walkOf } runS))
    (mover 4 t).walk = none ∧ (mover 4 t).own.map (·.2.pfn) = [1] ∧ cache 0 t = [] := by decide +kernel
theorem test_witness_inval : Reaches .host P.MMU runS ∧ bit 0 (rd P.MMU R.MMU_INVAL_STAT runS) = false ∧
    bit 0 (rd P.MMU R.MMU_INVAL_STAT (regs [(P.MMU, R.MMU_INVAL_STAT, 1)] runS)) = true ∧ fld 1 0 (3 : Word) = 3 := by
  decide +kernel
theorem test_witness_inval_ends : let s := regs [(P.MMU, R.MMU_INVAL_STAT, 1)] runS
    bit 0 (rd P.MMU R.MMU_INVAL_STAT s) = true ∧ s.dma.invalWait = [] := by decide +kernel
theorem test_inval_waits_for_its_movers : (after (.invalAll .host) (movingS fillDesc 0)).dma.invalWait = [3] := by
  decide +kernel
theorem test_inval_space_keeps_others : let e (n : Nat) : Tlb := ⟨n, 1, false, true, true, 1⟩
    (cache 3 (after (.invalSpace .host 15) (setCache 3 [e 15, e 14] runS))).map (·.space) = [14] := by decide +kernel

def hraS (write : Bool) (a : Nat) : State :=
  setDma { runS.dma with hra := some (a, write) } (regs [(P.MMU, R.MMU_SPACE_CFG, 1), (P.MMU, R.MMU_HRA_DATA, 0x77)] runS)
theorem test_witness_hra_go : Reaches .host P.MMU runS ∧ takesWork P.MMU runS = true ∧
    bit 1 (rd P.MMU R.MMU_HRA_CTL runS) = false ∧
    bit 1 (rd P.MMU R.MMU_HRA_CTL (regs [(P.MMU, R.MMU_HRA_CTL, 2)] runS)) = true := by decide +kernel
theorem test_witness_hra : let a := 0x11FFFFFC
    ∀ write : Bool, let s := hraS write a
    dmaRuns s = true ∧ s.dma.hraRemote = false ∧ (mover 4 s).walk = none ∧ a % 4 = 0 ∧
      fld 1 0 (spaceCfg (fld 19 16 (rd P.MMU R.MMU_HRA_CTL s)) s) = 1 ∧ s.dma.hra = some (a, write) ∧
      (viaPort 4 1023 8191 .read s).1 = none ∧
      (viaPort 4 1023 8191 .read (servedS 4 (tw .data 9) 0 s)).1 = some (tw .data 9, 0) := by decide +kernel
theorem test_hra_asks_its_bank : (bankPort 0 (after .hraDone (hraS true 0x10000004))).queue.map
    (fun q => (q.engine, q.word, q.op)) = [(some 4, 1, .write (tw .data 0x77))] := by decide +kernel
theorem test_hra_reads : rd P.MMU R.MMU_HRA_DATA (after .hraDone (servedS 4 (tw .data 9) 0 (hraS false 0x10000004))) = 9 := by
  decide +kernel

theorem test_witness_movers :
    (let s := dmaS { DmaChan.idle with cur := some (curOf fillDesc 0) }
     nextChan 31 s = some 31 ∧ (mover 3 s).serving = none ∧ (mover 3 s).last < 32 ∧ dmaRuns s = true) ∧
    (let d : Desc := ⟨[0x20, 65, 0, 0, W (bankAddr 0 0), 0, 1, 0], false, 0⟩
     (mover 3 (movingS d 64)).serving = some 31 ∧ servedBy 31 (movingS d 64) = some 3 ∧
       (mover 3 (movingS d 64)).walk = none ∧ (dchan 31 (movingS d 64)).cur = some (curOf d 64) ∧ 0 + 64 < d.count) ∧
    (let s := movingS fillDesc 0
     servedBy 31 s = some 3 ∧ fillDesc.fill = true ∧ fillDesc.count = 1 ∧ fillDesc.chained = false ∧
       fillDesc.evt = false ∧ fld 1 0 (spaceCfg (chanSpace 31 s) s) = 1 ∧ fillDesc.dst = bankAddr 0 8191 ∧
       (viaPort 3 0 8191 (.write (tw .data 0xABCD)) s).1 = none ∧
       (viaPort 3 0 8191 (.write (tw .data 0xABCD)) (servedS 3 zeroWord 0 s)).1 = some (zeroWord, 0)) := by decide +kernel
theorem test_fill_asks_its_bank : (bankPort 0 (after (.moverBlockDone 3) (movingS fillDesc 0))).queue.map
    (fun q => (q.engine, q.word, q.op)) = [(some 3, 8191, .write (tw .data 0xABCD))] := by decide +kernel
theorem test_fill_ends : let t := after (.moverBlockDone 3) (servedS 3 zeroWord 0 (movingS fillDesc 0))
    (dchan 31 t).cur = none ∧ rd (P.DMA 31) R.DMA_DONE_COUNT t = 1 := by decide +kernel
/-- A reply for channel 31 whose descriptor waits for it. -/
def replyS (rd_ : Bool) (pay : List TWord) : State :=
  let x := curOf fillDesc 0
  msgAt (.svcDown 1) 0x22 31 0xBFF00003 pay (dmaS { DmaChan.idle with
    cur := some { x with remote := some rd_, asked := (0, pay.length), gather := [zeroWord] } })
theorem test_witness_reply : (sinkMsg (.svcDown 1) (replyS true [zeroWord])).any (fun m => m.cls == 0x22 && m.task == 31 &&
      m.status == 0 && m.payload.length == m.len && (m.payload.findSome? wordStops).isNone) = true ∧
    fillDesc.srcFixed = false ∧ (sinkMsg (.svcDown 1) (replyS false [])).any (fun m => m.len == 0) = true ∧
    servedBy 31 (dropMsg (.svcDown 1) (replyS true [zeroWord])) = none := by decide +kernel

def agentS (cls : Nat) (pay : List Word) : State := msgAt (.svcDown 3) cls 0 0x40000000 (pay.map (tw .data)) runS
/-- A request of two words that the agent serves; its first word has been. -/
def agentJobS (write : Bool) : State :=
  setDma { runS.dma with agent := some ⟨(headWord 0x20 0 0).data, 0x40000000, write, 0x1FFFFF8, 2, [tw .data 5], 1, 0⟩ } runS
theorem test_witness_agent : agentRuns runS = true ∧ runS.dev.weReleased = true ∧ runS.dma.agent = none ∧
    (sinkMsg (.svcDown 3) (agentS 0x20 [0x1FFFFFC, 1])).any (fun m => m.cls == 0x20 && m.status == 0 &&
      m.payload.length == m.len && wordsFail m.payload == none) = true ∧
    (sinkMsg (.svcDown 3) (agentS 0x21 [0x1FFFFFC, 5])).any (fun m => m.cls == 0x21 && m.status == 0 &&
      m.payload.length == m.len) = true ∧ wordsFail [tw .data 0x1FFFFFC] = none ∧ fld 29 0 (0x1FFFFFC : Word) = 0x1FFFFFC ∧
    agentProtected (agentPlaces 0x1FFFFFC 1) runS = false ∧
    agentProtected (agentPlaces 0x1FFFFFC 1) (setArr P.MMU R.MMU_AGENT_WP 1023 true runS) = true := by decide +kernel
theorem test_witness_agent_goes_on : windowPlace 0x1FFFFFC = .bank 1023 8191 ∧ ∀ write : Bool, let s := agentJobS write
    agentRuns s = true ∧ (viaPort 5 1023 8191 .read s).1 = none ∧
      (viaPort 5 1023 8191 .read (servedS 5 (tw .data 6) 0 s)).1 = some (tw .data 6, 0) := by decide +kernel
theorem test_agent_asks_its_bank : (bankPort 0 (after .remoteWr (agentS 0x21 [4, 0x55]))).queue.map
    (fun q => (q.engine, q.word, q.op)) = [(some 5, 1, .write (tw .data 0x55))] := by decide +kernel
theorem test_agent_answers : let t := after .remoteRd (servedS 5 (tw .data 6) 0 (agentJobS false))
    t.dma.agent = none ∧ t.net.any (fun p => (p.2.sendq ++ p.2.flight.map (·.1)).any (· == tw .data 6)) = true := by decide +kernel

/-! ## Register pages and the mailbox -/

/-- SNAP's status (1 to clear), PMU's and CLK's own rows, and the last word of a page. -/
theorem test_witness_register_write : Reaches .host P.SNAP runS ∧ pageKind P.SNAP = some .snap ∧
    actionWrite .host .snap P.SNAP 76 6 runS = none ∧ wideHalf .snap 76 = none ∧ (regRow P.SNAP 76).isSome = true ∧
    (0x504C : BitVec 26).toNat = P.SNAP * 4096 + 76 ∧ pageKind (P.RGN 63) = some .rgn ∧
    Reaches .ring (P.RGN 63) runS := by decide +kernel
theorem test_witness_bad_sizes : (0x504D : BitVec 26).toNat % 4 ≠ 0 ∧ (8 = 8 ∧ Requester.fabric ≠ .host) ∧
    Reaches .host P.SNAP runS ∧ Reaches .fabric P.SNAP runS := by decide +kernel
theorem test_write_one_clears : rd P.SNAP 76 (after (.registerWrite .host 0x504C 4 2) (regs [(P.SNAP, 76, 6)] runS)) = 4 := by
  decide +kernel
theorem test_unaligned_write : rd P.DEV R.ERR_FIRST (after (.registerWrite .host 0x504D 4 2) runS) = 0x31000000 := by
  decide +kernel
theorem test_err_clear : let s := regs [(P.CLK, R.PAGE_STAT, 0x10), (P.CLK, R.ERR_COUNT, 3)] runS
    Reaches .host P.CLK s ∧ rd P.CLK R.ERR_COUNT (after (.errClear .host 2) s) = 0 ∧
      rd P.CLK R.PAGE_STAT (after (.errClear .host 2) s) = 0 := by decide +kernel
theorem test_irq_force_masks : rd P.GUARD R.IRQ_PEND (after (.irqForce .host 8 0xFFFFFFFF) runS) = irqMask .guard := by
  decide +kernel
theorem test_witness_soft_reset : pageKind (P.ETH 1) = some .eth ∧ Reaches .host (P.ETH 1) runS ∧
    pageKind P.OWL = some .owl ∧ Reaches .host P.OWL runS ∧ pageKind (P.IOB 11) = some .iob ∧
    Reaches .steward (P.IOB 11) runS ∧ Reaches .host P.PCIE runS := by decide +kernel
theorem test_witness_kept_settings : rising runS.regs = true ∧ (regRow (P.ETH 1) R.PAGE_CTL).isSome = true ∧
    keepOnReset (P.ETH 1) R.PAGE_CTL = false := by decide +kernel
theorem test_witness_regs_inv : rising (regs [(P.ETH 1, R.PAGE_CTL, 3), (P.DEV, R.IRQ_EN, 1)] runS).regs = true := by decide +kernel

theorem test_witness_wide : pageKind P.XB = some .xb ∧ wideLow .xb 256 = true ∧ Reaches .host P.XB runS ∧
    (regRow P.XB 256).any (fun r => r.rw != 0) = true ∧ (regRow P.XB 260).any (fun r => r.rw != 0) = true ∧
    (0xD100 : BitVec 26).toNat = P.XB * 4096 + 256 ∧ (0xD104 : BitVec 26).toNat = P.XB * 4096 + 256 + 4 ∧
    lowPending .host P.XB 256 (holdLow .host P.XB 256 7 runS) = some 7 ∧ lowPending .host P.XB 256 runS = none := by
  decide +kernel
theorem test_witness_wide_plain : ∀ (u : State) (x : Word), actionWrite .host .xb P.XB 256 x u = none ∧
    actionWrite .host .xb P.XB (256 + 4) x u = none := fun _ _ => ⟨rfl, rfl⟩
theorem test_wide_write : let t := after (.registerWrite .host 0xD104 4 9) (after (.registerWrite .host 0xD100 4 7) runS)
    rd64 P.XB 256 t = 0x900000007 ∧ lowPending .host P.XB 256 t = none := by decide +kernel

theorem test_witness_read : attached .host runS = true ∧ pageOff P.XB runS = false ∧ pageKind P.XB = some .xb ∧
    wideLow .xb (4 * (64 : Fin 1024).val) = true ∧ wideLow .xb (4 * (65 : Fin 1024).val) = false ∧
    highLatched .host P.XB 256 (latchHigh .host P.XB 256 5 runS) = some 5 ∧
    (regRow P.SCH0 84).any (fun r => r.rc != 0) = true ∧ wideLow .sch0 84 = false ∧ wideLow .sch0 80 = false := by
  decide +kernel
theorem test_witness_read_off : let s := setRgn 63 { Rgn.blank with power := .off } runS
    pageOff (P.RGN 63) s = true ∧ pageKind (P.RGN 63) = some .rgn := by decide +kernel
theorem test_read_clears : rd P.CDF 80 (after (.rcRead .host 9 20) (regs [(P.CDF, 80, 5)] runS)) = 0 := by decide +kernel
theorem test_read_latches : let t := after (.reg64LowRead .host 13 64) (regs [(P.XB, 256, 5), (P.XB, 260, 6)] runS)
    highLatched .host P.XB 256 t = some 6 ∧ highLatched .host P.XB 256 (after (.reg64LowRead .host 13 65) t) = none := by
  decide +kernel

/-- A request of command code c with one argument at a mailbox half. -/
def mbxS (h : Half) (c : Nat) (arg : Word) : State :=
  regs [(P.DEV, mbxReqOff h, W (c * 2 ^ 16 + 0x701)), (P.DEV, mbxReqOff h + 4, arg), (P.DEV, mbxCtl h, 0x702)] runS
theorem test_witness_mailbox : [(Half.hostHalf, 1), (.fabricHalf, 2), (.hostHalf, 0x104), (.fabricHalf, 0x999),
      (.hostHalf, 0x201)].all (fun e =>
    bit 1 (rd P.DEV (mbxCtl e.1) (mbxS e.1 e.2 0)) && stewardAnswers (mbxS e.1 e.2 0) && mbxCode e.1 (mbxS e.1 e.2 0) == e.2 &&
      decide (mbxArgs e.1 (mbxS e.1 e.2 0) ≤ 15) && !romOnly (mbxS e.1 e.2 0) &&
      sectorCode (mbxReq e.1 1 (mbxS e.1 e.2 0x87)).toNat) = true ∧
    Reaches .host P.DEV runS ∧ bit 1 (rd P.DEV R.DEV_MBX_H_CTL runS) = false := by decide +kernel
theorem test_go_sets_busy : rd P.DEV R.DEV_MBX_H_CTL (after (.mbxGo .host .hostHalf)
    (regs [(P.DEV, R.DEV_MBX_H_REQ, 0x2AB01)] runS)) = 0xAB02 := by decide +kernel
theorem test_echo : let t := after (.echo .fabricHalf) (mbxS .fabricHalf 2 0x1234)
    rd P.DEV R.DEV_MBX_F_RSP t = 0x70001 ∧ rd P.DEV (R.DEV_MBX_F_RSP + 4) t = 0x1234 ∧ mbxBusy .fabricHalf t = false ∧
      bit 1 (rd P.DEV R.IRQ_PEND t) = true := by decide +kernel
def mbxMsgS (cls : Nat) (ws : List Word) : State := msgAt (.svcDown 4) cls 0 0x40000000 (ws.map (tw .data)) runS
theorem test_witness_fabric_mailbox : [(0x21, 9), (0x20, 1)].all (fun e =>
    (sinkMsg (.svcDown 4) (mbxMsgS e.1 [W R.DEV_MBX_F_REQ, W e.2])).any fun m => m.cls == e.1 && m.status == 0 && m.len == 2 &&
      m.payload == [tw .data (W R.DEV_MBX_F_REQ), tw .data (W e.2)]) = true ∧
    bit 1 (rd P.DEV R.DEV_MBX_F_CTL (mbxMsgS 0x21 [W R.DEV_MBX_F_REQ, 9])) = false := by decide +kernel
theorem test_fabric_mailbox_writes : rd P.DEV R.DEV_MBX_F_REQ (after .fabricMailboxAccess (mbxMsgS 0x21 [W R.DEV_MBX_F_REQ, 9])) = 9 := by
  decide +kernel

/-! ## Start-up, modes, resets -/

/-- LOAD of a power-up start-up whose image has no region. -/
def loadS : State := modeS .load runS
/-- RELEASE of a power-up start-up, before the clocks have locked. -/
def releaseS : State := { modeS .release runS with
  dev := { runS.dev with mode := .release, doneReleased := false, doneSeen := false, relStep := 0, outReleased := false,
                         weReleased := false, srReleased := false, loadKind := .powerUp } }
/-- A re-run of the release whose order is OUT, WE, SR, with k steps done. -/
def rerunS (k : Nat) : State :=
  regs [(P.RST, R.RST_RELEASE_EFF, 1)] (setDev { releaseS.dev with rerun := true, relStep := k } releaseS)

theorem test_supplies_and_reset : let b := setBankWord 5 7 (tw .data 9) runS
    bankWord 5 7 (after .suppliesInvalid b) = zeroWord ∧ (after .suppliesInvalid b).dev.mode = .off ∧
    (after .por (modeS .off runS)).dev.mode = .hold ∧ (after .rstN b).dev.mode = .hold ∧
    (after .rstN b).dev.previous = 5 ∧ rdf P.RST R.RST_CAUSE 3 0 (after .rstN b) = 1 := by decide +kernel
theorem test_witness_straps : State.reset.dev.mode = .hold ∧ State.reset.dev.holdKind = .boot ∧ State.reset.dev.sampled = false ∧
    (0x7FF3 : BitVec 15).toNat % 4 = 3 ∧ (1 : BitVec 15).toNat % 4 = 1 := by decide +kernel
theorem test_witness_soft_reset_of_device : Reaches .host P.DEV runS ∧ runS.fox.armed = none ∧ runS.fox.gone = false ∧
    runS.dev.mode = .run := by decide +kernel
theorem test_soft_reset_releases_again : let t := after (.hostSoftReset .host) (setBankWord 5 7 (tw .data 9) runS)
    t.dev.mode = .release ∧ t.dev.previous = 5 ∧ t.dev.rerun = true ∧ bankWord 5 7 t = tw .data 9 := by decide +kernel
theorem test_clocks_leave_hare : let s := regs [(P.CLK, R.CLK_ISL + 4 * 78, 0x38)] releaseS
    tget 7 (leaveHare s).pwr.now 78 = 0x38 := by decide +kernel
theorem test_soft_reset_waits_for_swap : (after (.hostSoftReset .host)
    (setFox { runS.fox with gone := true } runS)).dev.resetWaiting = some 2 := by decide +kernel

theorem test_witness_load : loadS.dev.loadKind ≠ .wakeSleep ∧ loadS.dev.loadKind ≠ .wakeBear ∧
    (loadAll loadBoot (List.range 64) loadS).1 = some E.PERM_FAULT ∧ (stopSafe E.PERM_FAULT loadS).dev.mode = .safe := by
  decide +kernel
theorem test_witness_selftest : let s := modeS .selftest runS
    strapTest s ≠ 3 ∧ s.wpk.failed = 0 ∧ s.wpk.incomplete = 0 ∧
    strapTest (setDev { s.dev with straps := 0xC } s) = 3 := by decide +kernel
theorem test_witness_lock : releaseS.dev.rerun = false ∧ releaseS.pwr.hare = true ∧ releaseS.dev.loadKind = .powerUp ∧
    (loadClockRecord (setVouts 3 releaseS)).1 = false := by decide +kernel
theorem test_lock_releases_done : let t := after (.startupLockDone true 3 false) releaseS
    t.dev.doneReleased = true ∧ t.pwr.hare = false := by decide +kernel
theorem test_nonlinear_regulator : (after (.startupLockDone false 3 false) releaseS).dev.mode = .safe := by decide +kernel

theorem test_done_seen : let s := setDev { releaseS.dev with doneReleased := true } releaseS
    (after .doneSeenHigh s).dev.doneSeen = true ∧ rdf P.RST R.RST_DONE_STAT 31 16 (after .doneFall runS) = 1 := by
  decide +kernel
theorem test_witness_release : releaseReady (rerunS 0) = true ∧ releaseReady (rerunS 2) = true ∧ releaseReady releaseS = false ∧
    relItem (rdf P.RST R.RST_RELEASE_EFF 2 0 (rerunS 2)) 2 = 2 ∧ (rerunS 2).dev.relStep = 2 := by decide +kernel
theorem test_release_reaches_run : (after .releaseStep (rerunS 2)).dev.mode = .run ∧
    (after .releaseStep (rerunS 0)).dev.outReleased = true := by decide +kernel
theorem test_witness_continue : let s := setWpk { runS.wpk with failed := 0 } (setDev { runS.dev with mode := .hold, holdKind := .test } runS)
    Reaches .host P.DEV s ∧ s.dev.holdKind = .test := by decide +kernel
theorem test_witness_all_pass : let s := regs [(P.WPK, R.WPK_PU_STAT, 0x155)] (setDev { runS.dev with mode := .hold, holdKind := .test } runS)
    allPass s = true ∧ (after (.continueCmd .host) s).dev.mode = .release := by decide +kernel
theorem test_enter_safe : let t := after (.enterSafe .host) runS
    t.dev.mode = .safe ∧ t.dev.safeFromRun = true ∧ (after (.enterSafe .fabric) runS).dev.mode = .run := by decide +kernel
theorem test_reboot : let s := regs [(P.UPD, R.UPD_STAT, 3)] (modeS .recovery runS)
    Reaches .host P.DEV s ∧ (after (.reboot .host) s).dev.mode = .hold := by decide +kernel

/-! ## Images without records

What an image's seal and key are is for the configuration to say, so that these witnesses hold where it says that
the key is fused and that the tag has four words. -/

/-- The header words before the tag of an image for the regions of a fence. -/
def imgHead (lo hi : Word) : List Word := [0x465A5031, 0x10000, lo, hi, 0, 0, 0, 0, 0] ++ sha256 []
def imgTag (lo hi : Word) : List Word := Config.gcmTag (imgHead lo hi ++ [0, 0, 0]) []
def image (lo hi : Word) : List Word := imgHead lo hi ++ imgTag lo hi ++ [0, 0, 0]
def fenceLo (r : Nat) : Word := W (2 ^ r)
def fenceHi (r : Nat) : Word := W (2 ^ r / 2 ^ 32)
def imageOf (r : Nat) : List Word := image (fenceLo r) (fenceHi r)

theorem image_words (lo hi : Word) (h : (imgTag lo hi).length = 4) : ∃ a b c d : Word,
    image lo hi = imgHead lo hi ++ [a, b, c, d, 0, 0, 0] ∧ imgTag lo hi = [a, b, c, d] := by
  match e : imgTag lo hi, h with
  | [a, b, c, d], _ => exact ⟨a, b, c, d, by simp [image, e], rfl⟩

theorem image_seal (lo hi : Word) (h : (imgTag lo hi).length = 4) : sealFault (image lo hi) = none := by
  obtain ⟨a, b, c, d, e, k⟩ := image_words lo hi h
  have hc : ((image lo hi).drop headerWords).take (recordWords * imageCount (image lo hi)) = [] := by rw [e]; rfl
  have hp : plainWords (image lo hi) = [] := by rw [plainWords, hc]; rfl
  have ha : (image lo hi).take 17 ++ ((image lo hi).drop 21).take 3 = imgHead lo hi ++ [0, 0, 0] := by rw [e]; rfl
  have ht : ((image lo hi).drop 17).take 4 = [a, b, c, d] := by rw [e]; rfl
  have hd : ((image lo hi).drop 9).take 8 = sha256 [] := by rw [e]; rfl
  unfold sealFault
  rw [hc, ha, ht, hp, hd]
  exact (if_neg (fun n => n k)).trans (if_neg (fun n => n rfl))

theorem fence_words : ∀ r : Fin 64, join64 (fenceLo r.val) (fenceHi r.val) = maskOf [r.val] ∧ maskOf [r.val] ≠ 0 := by
  decide +kernel

theorem image_header (r : Fin 64) (hk : Config.keyFused 0 = true)
    (h : (imgTag (fenceLo r.val) (fenceHi r.val)).length = 4) :
    headerGood (imageOf r.val) = true ∧ imageFence (imageOf r.val) = maskOf [r.val] ∧
      plainWords (imageOf r.val) = [] := by
  obtain ⟨a, b, c, d, e, -⟩ := image_words _ _ h
  have hf := fence_words r
  unfold imageOf
  rw [e]
  have h0 : (imgHead (fenceLo r.val) (fenceHi r.val) ++ [a, b, c, d, 0, 0, 0]).getD 0 0 = 0x465A5031 := rfl
  have h1 : (imgHead (fenceLo r.val) (fenceHi r.val) ++ [a, b, c, d, 0, 0, 0]).getD 1 0 = 0x10000 := rfl
  have h4 : (imgHead (fenceLo r.val) (fenceHi r.val) ++ [a, b, c, d, 0, 0, 0]).getD 4 0 = 0 := rfl
  have h5 : (imgHead (fenceLo r.val) (fenceHi r.val) ++ [a, b, c, d, 0, 0, 0]).getD 5 0 = 0 := rfl
  have h21 : (imgHead (fenceLo r.val) (fenceHi r.val) ++ [a, b, c, d, 0, 0, 0]).getD 21 0 = 0 := rfl
  have h22 : (imgHead (fenceLo r.val) (fenceHi r.val) ++ [a, b, c, d, 0, 0, 0]).getD 22 0 = 0 := rfl
  have h23 : (imgHead (fenceLo r.val) (fenceHi r.val) ++ [a, b, c, d, 0, 0, 0]).getD 23 0 = 0 := rfl
  have hn : imageCount (imgHead (fenceLo r.val) (fenceHi r.val) ++ [a, b, c, d, 0, 0, 0]) = 0 := by
    unfold imageCount; rw [h4]; decide
  have hx : imageFence (imgHead (fenceLo r.val) (fenceHi r.val) ++ [a, b, c, d, 0, 0, 0]) = maskOf [r.val] := hf.1
  refine ⟨?_, hx, ?_⟩
  · unfold headerGood
    rw [hn, hx]
    simp only [h0, h1, h4, h5, h21, h22, h23]
    have k9 : fld 9 8 (0x10000 : Word) = 0 := by decide
    rw [k9, hk]
    simp [fld]
    exact ⟨rfl, hf.2⟩
  · unfold plainWords
    rw [hn]
    simp

theorem empty_plane_good : planeBad (fun _ _ => 0) = none := by decide +kernel
theorem empty_planes_good (r : Nat) : planesFault [r] [] = none := by
  have h : planeBad (planeWord [] r) = none := empty_plane_good
  simp [planesFault, h]

/-- LOAD with device image A, whose 64 areas hold images without records. -/
def imagesS : State := { modeS .load runS with store :=
  { Store.reset with aValid := true, areas := (List.range 64).map fun r => (r, imageOf r) } }

theorem fold_store {α : Type} {x : Store} {y : Planes} (f : State → α → State) (l : List α) (s : State)
    (hs : s.store = x ∧ s.planes = y) (h : ∀ t a, t.store = x ∧ t.planes = y → (f t a).store = x ∧ (f t a).planes = y) :
    (l.foldl f s).store = x ∧ (l.foldl f s).planes = y := by
  induction l generalizing s with
  | nil => exact hs
  | cons a l ih => exact ih _ (h s a hs)
theorem macs_same {x : Store} {y : Planes} (m : SMap Mac) (t : State) (h : t.store = x ∧ t.planes = y) :
    (setMacs m t).store = x ∧ (setMacs m t).planes = y := h
theorem fab_same {x : Store} {y : Planes} (m : Fabric) (t : State) (h : t.store = x ∧ t.planes = y) :
    (setFab m t).store = x ∧ (setFab m t).planes = y := h
theorem net_same {x : Store} {y : Planes} (m : SMap Channel) (t : State) (h : t.store = x ∧ t.planes = y) :
    (setNet m t).store = x ∧ (setNet m t).planes = y := h
theorem logic_same {x : Store} {y : Planes} (m : Logic) (t : State) (h : t.store = x ∧ t.planes = y) :
    (setLogic m t).store = x ∧ (setLogic m t).planes = y := h
theorem ports_same {x : Store} {y : Planes} (m : Banks) (t : State) (h : t.store = x ∧ t.planes = y) :
    (setBanks m t).store = x ∧ (setBanks m t).planes = y := h
theorem gsr_store {x : Store} {y : Planes} (r : Nat) (k : Nat → Nat → Bool) (s : State) (h : s.store = x ∧ s.planes = y) :
    (gsrCells r k s).store = x ∧ (gsrCells r k s).planes = y := by
  unfold gsrCells clearMacs
  generalize List.range 256 = l
  refine macs_same _ _ ?_
  refine fold_store _ l _ ?_ ?_
  · exact fab_same _ _ h
  · intro t c h
    exact fab_same _ _ h
theorem lut_store {x : Store} {y : Planes} (r : Nat) (s : State) (h : s.store = x ∧ s.planes = y) :
    (clearLutPorts r s).store = x ∧ (clearLutPorts r s).planes = y := by
  unfold clearLutPorts
  generalize List.range 16 = l
  refine fold_store _ l _ h ?_
  intro t c h
  exact ports_same _ _ h
theorem assert_store {x : Store} {y : Planes} (r : Nat) (b : Bool) (s : State) (h : s.store = x ∧ s.planes = y) :
    (assertGsr r b s).store = x ∧ (assertGsr r b s).planes = y := by
  unfold assertGsr emptyFoxTap mdChan setChan gsrLogic
  refine net_same _ _ (lut_store r _ (logic_same _ _ (gsr_store r _ _ ?_)))
  exact h
theorem wr_same {x : Store} {y : Planes} (p o : Nat) (v : Word) (t : State) (h : t.store = x ∧ t.planes = y) :
    (wr p o v t).store = x ∧ (wr p o v t).planes = y := h
theorem wrf_same {x : Store} {y : Planes} (p o a b v : Nat) (t : State) (h : t.store = x ∧ t.planes = y) :
    (wrf p o a b v t).store = x ∧ (wrf p o a b v t).planes = y := h
theorem rgn_same {x : Store} {y : Planes} (r : Nat) (f : Rgn → Rgn) (t : State) (h : t.store = x ∧ t.planes = y) :
    (mdRgn r f t).store = x ∧ (mdRgn r f t).planes = y := h
theorem stage_same {x : Store} {y : Planes} (r : Nat) (t : State) (h : t.store = x ∧ t.planes = y) :
    (invalidateStage r t).store = x ∧ (invalidateStage r t).planes = y := h
theorem imm_same {x : Store} {y : Planes} (r : Nat) (t : State) (h : t.store = x ∧ t.planes = y) :
    (resetImmediates r t).store = x ∧ (resetImmediates r t).planes = y := h
theorem loaded_store (r src n : Nat) (m : SMap Word) (s : State) :
    (planeLoaded r src n m s).store = s.store ∧ (planeLoaded r src n m s).planes = { s.planes with active := m } := by
  unfold planeLoaded
  exact assert_store r _ _ (imm_same _ _ (wrf_same _ _ _ _ _ _ (rgn_same _ _ _ (stage_same _ _ (wr_same _ _ _ _ ⟨rfl, rfl⟩)))))

theorem find_area (f : Nat → List Word) (l : List Nat) (r : Nat) (h : r ∈ l) :
    tget [] (l.map fun k => (k, f k)) r = f r := by
  induction l with
  | nil => cases h
  | cons a l ih =>
    by_cases e : a = r
    · subst e; simp [tget, tfind]
    · have := ih (by simpa [Ne.symm e] using h)
      simpa [tget, tfind, e] using this
theorem images_areas : imagesS.store.areas = (List.range 64).map fun k => (k, imageOf k) := rfl
theorem image_area (r : Fin 64) : area r.val imagesS = imageOf r.val := by
  unfold area
  rw [images_areas]
  exact find_area imageOf _ r.val (List.mem_range.mpr r.isLt)
theorem image_good (r : Fin 64) (s : State) (hs : s.store = imagesS.store) (hp : s.planes = ⟨[], []⟩)
    (hk : Config.keyFused 0 = true) (h : (imgTag (fenceLo r.val) (fenceHi r.val)).length = 4) :
    imagePlane 2 0 r.val s = .ok [] := by
  have hw : area (areaOf 2 0 r.val) s = imageOf r.val := by
    have : area (areaOf 2 0 r.val) s = area (areaOf 2 0 r.val) imagesS := by unfold area; rw [hs]
    rw [this]; exact image_area r
  obtain ⟨h1, h2, h3⟩ := image_header r hk h
  have h4 : recordsOf (plainWords (imageOf r.val)) = [] := by rw [h3]; rfl
  have h5 : sealFault (imageOf r.val) = none := image_seal _ _ h
  have h6 : planeFrom 2 r.val (imageOf r.val) s s.planes.active = [] := by
    unfold planeFrom; rw [h4, hp]; rfl
  have h7 : s.store.aValid = true := by rw [hs]; rfl
  unfold imagePlane
  simp only [hw, h1, h2, h4, h5, h6, h7, empty_planes_good, recordsFault]
  simp

theorem loads_boot (l : List (Fin 64)) (s : State) (hs : s.store = imagesS.store) (hp : s.planes = ⟨[], []⟩)
    (hk : Config.keyFused 0 = true) (h : ∀ r : Fin 64, (imgTag (fenceLo r.val) (fenceHi r.val)).length = 4) :
    (loadAll loadBoot (l.map (·.val)) s).1 = none := by
  unfold loadAll
  induction l generalizing s with
  | nil => rfl
  | cons r l ih =>
    have hb : loadBoot r.val s = (none, planeLoaded r.val 2 0 [] s) := by
      have : bootSrc s = 2 := by unfold bootSrc; rw [hs]; rfl
      unfold loadBoot; rw [this, image_good r s hs hp hk (h r)]
    simp only [List.map_cons, List.foldl_cons, hb]
    exact ih _ ((loaded_store ..).1.trans hs) (by rw [(loaded_store ..).2, hp])

/-- Every region loads from such images. -/
theorem test_witness_loads (hk : Config.keyFused 0 = true)
    (h : ∀ r : Fin 64, (imgTag (fenceLo r.val) (fenceHi r.val)).length = 4) :
    imagesS.dev.mode = .load ∧ imagesS.dev.loadKind ≠ .wakeSleep ∧ imagesS.dev.loadKind ≠ .wakeBear ∧
      (loadAll loadBoot (List.range 64) imagesS).1 = none :=
  ⟨rfl, by decide, by decide, by
    have e : List.range 64 = (List.finRange 64).map (·.val) := by decide +kernel
    rw [e]; exact loads_boot _ _ rfl rfl hk h⟩

/-! ## Fox port, swap and scrub -/

/-- RUN with the same device image A. -/
def foxS : State := { runS with store := imagesS.store }
theorem fox_area (r : Fin 64) : area (areaOf 2 0 r.val) foxS = imageOf r.val := image_area r
/-- A load of region 63 from it passes checks 1 to 3. -/
theorem test_witness_load_starts (hk : Config.keyFused 0 = true)
    (h : ∀ r : Fin 64, (imgTag (fenceLo r.val) (fenceHi r.val)).length = 4) : Reaches .host P.FOX foxS ∧
    loadHeaderFault .host 2 0 63 (wr P.FOX R.FOX_LOAD_CTL (0x803F0200 &&& W 0x003F0707) foxS) = none := by
  obtain ⟨h1, h2, -⟩ := image_header 63 hk (h 63)
  have hw : area (areaOf 2 0 63) (wr P.FOX R.FOX_LOAD_CTL (0x803F0200 &&& W 0x003F0707) foxS) = imageOf 63 := fox_area 63
  have ha : inMask (allowed .host (wr P.FOX R.FOX_LOAD_CTL (0x803F0200 &&& W 0x003F0707) foxS)) 63 = true := by decide +kernel
  have hr : regionFault [63] (wr P.FOX R.FOX_LOAD_CTL (0x803F0200 &&& W 0x003F0707) foxS) = none := by decide +kernel
  have hv : (wr P.FOX R.FOX_LOAD_CTL (0x803F0200 &&& W 0x003F0707) foxS).store.aValid = true := rfl
  refine ⟨by decide +kernel, ?_⟩
  unfold loadHeaderFault
  simp only [hw, ha, hr, hv]
  rw [show headerGood (imageOf 63) = true from h1, show imageFence (imageOf 63) = maskOf [63] from h2]
  simp
theorem test_witness_load_refused : recSrc 0x803F0100 = 1 ∧ bit 31 (0x803F0100 : Word) = true ∧ entering runS = false ∧
    loadHeaderFault .host 1 0 63 (wr P.FOX R.FOX_LOAD_CTL (0x803F0100 &&& W 0x003F0707) runS) = some E.PERM_FAULT := by
  decide +kernel
/-- A load that ends well, of an image without records. -/
theorem test_witness_load_done (h : ∀ r : Fin 64, (imgTag (fenceLo r.val) (fenceHi r.val)).length = 4) :
    sealFault (area (areaOf 2 0 63) foxS) = none := by
  rw [show area (areaOf 2 0 63) foxS = imageOf 63 from fox_area 63]; exact image_seal _ _ (h 63)
theorem test_witness_seal_fails (h : Config.gcmTag [] [] ≠ []) : sealFault [] = some E.AUTH_FAIL := if_pos h

theorem test_witness_stream : let x : Stream := ⟨.host, none, List.replicate 23 0, false, false⟩
    let s := setFox { runS.fox with stream := some x } runS
    Reaches .host P.FOX s ∧ streamEnded x = false ∧ (x.words ++ [0]).length = 24 ∧ runS.fox.stream = none := by decide +kernel
/-- A stream of 60 records whose header has come, to library slot 5; n words wait in its buffer while the slot is erased
or not. -/
def bigStream : Stream := ⟨.host, some 5, 0 :: 0 :: 0 :: 0 :: 60 :: List.replicate 19 0, true, false⟩
def streamS (n : Nat) (erasing : Bool) : State :=
  setFox { runS.fox with
    stream := some bigStream
    buffer := List.replicate n 0
    erasing := if erasing then [5] else [] } runS
theorem test_witness_stream_buffer : streamClass .host = .host ∧ streamClass .steward ≠ .host ∧
    [0, 1023, 1024].all (fun n => !streamWritten bigStream (streamS n true) && streamWaits (streamS n true)) = true ∧
    streamWaits (streamS 0 false) = false ∧ streamWritten bigStream (streamS 1980 true) = true := by decide +kernel
theorem test_stream_buffer_fills : (after (.streamData .host 5) (streamS 1023 true)).fox.buffer.length = 1024 ∧
    (after (.streamData .host 5) (streamS 1024 true)).fox.heldWrites = [5] ∧
    (after (.streamData .host 5) (streamS 0 false)).fox.stream.map (·.words.length) = some 25 := by decide +kernel
theorem test_witness_record : let x : Stream := ⟨.host, none, 0 :: 0 :: 0 :: 0 :: 2 :: List.replicate 51 0, true, false⟩
    let s := setFox { runS.fox with stream := some x } runS
    streamEnded x = false ∧ (x.words ++ [0]).length = 57 ∧ Reaches .host P.FOX s := by decide +kernel
theorem test_stream_opens : (after (.streamOpen .host 0) runS).fox.stream = some ⟨.host, none, [], false, false⟩ ∧
    rd P.FOX R.FOX_STREAM_DROPPED (after (.streamData .host 5) runS) = 1 := by decide +kernel

theorem test_witness_program (h : ∀ r : Fin 64, (imgTag (fenceLo r.val) (fenceHi r.val)).length = 4) :
    ∃ k ws rest, (setFox { runS.fox with programs := [(511, imageOf 63)] } runS).fox.programs = (k, ws) :: rest ∧
      sealFault ws = none := ⟨_, _, _, rfl, image_seal _ _ (h 63)⟩
theorem test_erase_empties : let s := setArea (128 + 511) [1] (setFox { runS.fox with erasing := [511] } runS)
    area (128 + 511) (after (.slotEraseDone false false) s) = [] ∧ (slot 511 (after (.slotEraseDone true false) s)).retired = true := by
  decide +kernel
theorem test_witness_slot_erase : let s := regs [(P.CSC, R.CSC_SLOT_SEL, 0x3F07)] runS
    Reaches .host P.CSC s ∧ bit 0 (rd P.CSC R.PAGE_CTL s) = true ∧ (slot 511 s).busy = false ∧ slotRef 511 s = false ∧
      (slot 511 (after (.slotErase .host) s)).busy = true ∧
      slotRef 511 (regs [(P.RGN 63, R.RGN_ACTIVE_SRC, 0x107)] s) = true := by decide +kernel

def foxMsg (tap : Option RegionId) (cls : Nat) (ws : List Word) : State :=
  msgAt (foxIn tap) cls 0 0x40000000 (ws.map (tw .data)) runS
theorem test_witness_fox_service : [(none, 0x21, [0x10000, 5]), (some 63, 0x21, [0x40, 5]), (none, 0x21, [0xA0, 5]),
      (some 0, 0x20, [0x40, 1, 2])].all (fun e => dmaRuns (foxMsg e.1 e.2.1 e.2.2) &&
    (sinkMsg (foxIn e.1) (foxMsg e.1 e.2.1 e.2.2)).any fun m => m.cls == e.2.1 && m.status == 0 && m.payload.length == m.len &&
      m.payload == e.2.2.map (tw .data)) = true ∧
    foxReadOnly 0xA0 = true ∧ foxReadOnly 0x40 = false ∧ foxOffset 0xA0 = true := by decide +kernel
theorem test_fox_lock : let t := after (.foxLock .host) runS
    Reaches .host P.FOX t ∧ bit 0 (rd P.FOX R.FOX_LOCK t) = true := by decide +kernel
theorem test_witness_invalidate : Reaches .host (P.RGN 63) runS ∧ loading 63 runS = false ∧ locked 63 runS = false ∧
    inMask (allowed .host runS) 63 = true ∧ locked 63 (setFox { runS.fox with armed := some (1 <<< 63, 5) } runS) = true := by
  decide +kernel

/-- Regions 0 and 63 staged, named by ARM_MASK, to be armed for ring time 9. -/
def stagedS : State := regs [(P.FOX, R.FOX_ARM_MASK_LO, 1), (P.FOX, R.FOX_ARM_MASK_LO + 4, 0x80000000), (P.FOX, R.FOX_ARM_AT_LO, 9),
  (P.RGN 0, R.RGN_STAGE_STAT, 0x80000200), (P.RGN 63, R.RGN_STAGE_STAT, 0x80000200)] runS
def setMask : BitVec 64 := 0x8000000000000001
/-- That set armed, with the ring time, the drain's start, the go notice and the two sets of its progress. -/
def armedS (now : BitVec 64) (d : Option (BitVec 64)) (gone : Bool) (drained swapped : BitVec 64) : State :=
  { stagedS with
    fox := { stagedS.fox with armed := some (setMask, 9), drainAt := d, gone := gone, drainedSet := drained, swappedSet := swapped }
    time := { stagedS.time with ringTime := now } }
theorem test_witness_arm : rd64 P.FOX R.FOX_ARM_MASK_LO stagedS = setMask ∧ armFault .host setMask (some 9) stagedS = none ∧
    armFault .host setMask none stagedS = none ∧ armFault .host setMask (some 0) stagedS = some E.PERM_FAULT ∧
    (after (.armCtlArm .host) stagedS).fox.armed = some (setMask, 9) := by decide +kernel
theorem test_witness_swap_drain : setFault setMask (armedS 9 none false 0 0) = none ∧ (armedS 8 none false 0 0).time.ringTime < 9 ∧
    (setFault setMask (setRgn 63 { Rgn.blank with power := .off } (armedS 9 none false 0 0))).isSome = true ∧
    inDrain 63 (armedS 9 (some 9) false 0 0) = true ∧ (rgn 63 (armedS 9 (some 9) false 0 0)).draining = false := by decide +kernel
theorem test_disarm : (after (.disarm .host) (armedS 8 none false 0 0)).fox.armed = none ∧
    rdf P.FOX R.FOX_ARM_CTL 31 24 (after (.disarm .host) (armedS 9 (some 9) false 0 0)) = E.PERM_FAULT := by decide +kernel
theorem test_witness_drained : let s := mdRgn 63 (fun x => { x with draining := true, schReport := true }) (armedS 9 (some 9) false 1 0)
    inDrain 63 s = true ∧ switchIdle 63 s = true ∧ (after (.regionDrained 63) s).fox.drainedSet = setMask := by decide +kernel
theorem test_witness_set_drained :
    let s := setSched { runS.sched with reported := [0, 63] } (armedS 9 (some 9) false setMask 0)
    setIsDrained s = true := by decide +kernel
theorem test_witness_drain_timeout : let s := armedS 20000000 (some 9) false 0 0
    setIsDrained s = false ∧ 9 + rdf P.FOX R.FOX_DRAIN_LIMIT 19 0 s < s.time.ringTime.toNat ∧
    (after .drainTimeout s).fox.armed = none ∧
    (armedS 9 (some 9) false 0 0).time.ringTime.toNat ≤ 9 + rdf P.FOX R.FOX_DRAIN_LIMIT 19 0 (armedS 9 (some 9) false 0 0) := by
  decide +kernel

theorem test_witness_go : let s := wrf (P.RGN 63) R.RGN_SWAP_STATE 2 0 3 (armedS 9 (some 9) true setMask 0)
    swapping 63 s = true ∧ regionOn 63 s = true ∧ rdf (P.RGN 63) R.RGN_SWAP_STATE 2 0 s = 3 ∧ swapping 62 s = false := by
  decide +kernel
theorem test_go_exchanges : let s := setStaging [(frameKey 63 1535 31, 7)] (wrf (P.RGN 63) R.RGN_SWAP_STATE 2 0 3 (armedS 9 (some 9) true setMask 0))
    planeWord (swapGo 63 s).planes.active 63 1535 31 = 7 ∧ planeWord (swapGo 63 s).planes.staging 63 1535 31 = 0 := by
  decide +kernel
theorem test_witness_swap_steps : [1, 2].all (fun n =>
    let s := mdRgn 63 (fun x => { x with released := n }) (wrf (P.RGN 63) R.RGN_SWAP_STATE 2 0 6 (armedS 9 (some 9) true setMask 0))
    swapping 63 s && regionOn 63 s && rdf (P.RGN 63) R.RGN_SWAP_STATE 2 0 s == 6 && (rgn 63 s).released == n &&
      !(rgn 63 s).resetWaiting) = true := by decide +kernel
theorem test_witness_gsr : let s := setRgn 63 Rgn.blank (armedS 9 (some 9) true setMask 0)
    (rgn 63 s).gsr = true ∧ regionOn 63 s = true ∧ swapping 63 s = true ∧
    (rgn 62 (setRgn 62 Rgn.blank runS)).gsr = true ∧ swapping 62 runS = false ∧ runS.dev.srReleased = true ∧
    (rgn 62 (after (.gsrRelease 62) (setRgn 62 Rgn.blank runS))).gsr = false := by decide +kernel
theorem test_witness_swap_release : let s := armedS 9 (some 9) true (maskOf [63]) setMask
    s.dev.resetWaiting = none ∧ inMask setMask 63 = true ∧ s.fox.swappedSet = setMask ∧ s.fox.drainedSet = maskOf [63] ∧
    (after (.swapRelease 63) s).fox.armed = none := by decide +kernel
def squirrelS (held : Nat) : State :=
  mdRgn 63 (fun x => { x with sq := List.replicate held zeroWord }) (msgAt (.squirrel 63) 7 0 0x40000000 [tw .data 5] runS)
theorem test_witness_handover : ([511, 512].all fun n => (sinkMsg (.squirrel 63) (squirrelS n)).any fun m =>
    m.cls == 7 && m.status == 0 && m.payload.length == m.len && m.len == 1) = true ∧
    (rgn 63 (after (.handover 63) (squirrelS 511))).sq.length = 512 ∧ (rgn 63 (after (.handover 63) (squirrelS 512))).sq.length = 512 := by
  decide +kernel
theorem test_region_reset : (rgn 63 (after (.regionReset .host 63) (armedS 9 (some 9) true setMask 0))).resetWaiting = true ∧
    (rgn 63 (after (.regionReset .host 63) runS)).gsr = true := by decide +kernel

/-- Region 63 with a valid staging plane, in a pass over one of its planes. -/
def passS (staging : Bool) : State := mdRgn 63 (fun x => { x with scrubStaging := staging })
  (regs [(P.RGN 63, R.RGN_STAGE_STAT, 0x80000200)] runS)
theorem test_witness_scrub : ∀ staging : Bool, let s := passS staging
    scrubRuns 63 s = true ∧ stageValid 63 s = true ∧ (rgn 63 s).unreferenced.contains 1535 = false ∧
      (rgn 63 s).scrubStaging = staging ∧ (rgn 63 s).scrubCut = false := by decide +kernel
theorem test_scrub_failure_invalidates : stageValid 63 (after (.scrubFrameFail 63 .staging 1535 true) (passS true)) = false := by
  decide +kernel

/-! ## Code/Data Flash, the guard, the password -/

/-- The host has made the first two writes of a sequence in every bank. -/
def seqS : State := (List.range 4).foldl (fun t b => setSeq .host b 2 t) runS
/-- The last even page of sector 127, and the same for parameter sector P7. -/
def lastOff : BitVec 25 := 0xFFFC00
def opOf (code x : Nat) : FlashOp := ⟨code, x, 254, [(0, 0x1234)], false, false⟩
def opS (b : Nat) (y : FlashBank) : State := setFlash { seqS.flash with banks := [(b, y)] } seqS

theorem test_witness_flash : ([Cdf.PROGRAM, Cdf.ERASE_SECTOR, Cdf.GUARD_SET, Cdf.GUARD_UNLOCK].all fun k =>
    decide (FlashTakes .host k lastOff.toNat 127 seqS) &&
      (cdfRefusal .host true none k 3 127 (pageIn 127 lastOff.toNat) (setSeq .host 3 0 seqS)).isNone) = true ∧
    cdfRefusal .host true (some 3) Cdf.PROGRAM 3 127 254 (setSeq .host 3 0 seqS) = some E.SELF_BANK ∧
    seqS.flash.key = seqS.flash.password := by decide +kernel
theorem test_witness_wrong_password : (setFlash { seqS.flash with key := 1 } seqS).flash.key ≠ seqS.flash.password := by
  decide +kernel
theorem test_program_loads : ((fbank 3 (after (.program .host lastOff none) seqS)).load).map (fun l => (l.sector, l.page)) =
    some (127, 254) ∧ rd P.CDF R.CDF_LAST_REFUSED
      (after (.program .steward lastOff (some 3)) (setSeq .steward 3 2 seqS)) = 0x2001317F := by decide +kernel
theorem test_witness_sequence : flashServed runS = true ∧ sectorOf 0x1D88 = some 0 ∧ (fbank 0 runS).load = none ∧
    tget 0 runS.flash.seq (seqKey .steward 0) = 0 ∧
    rd P.CDF R.CDF_SEQ_ERRORS (after (.cdfSequenceWrite .steward 0x1D88 0x6D) runS) = 1 := by decide +kernel

theorem test_witness_bank_commands : ([Cdf.ERASE_BANK, Cdf.READ_ID, Cdf.STATUS_CLEAR].all fun k =>
    decide (FlashTakes .host k (flashBase 3 + 0x1D88) 96 seqS) &&
      (cdfRefusal .host true none k 3 96 (pageIn 96 (flashBase 3 + 0x1D88)) (setSeq .host 3 0 seqS)).isNone) = true := by
  decide +kernel
theorem test_witness_suspend : let s := opS 3 { FlashBank.idle with op := some (opOf Cdf.ERASE_SECTOR 127) }
    FlashTakes .host Cdf.SUSPEND (flashBase 3 + 0x1D88) 96 s ∧
      cdfRefusal .host true none Cdf.SUSPEND 3 96 (pageIn 96 (flashBase 3 + 0x1D88)) (setSeq .host 3 0 s) = none := by decide +kernel
theorem test_witness_resume : let s := opS 3 { FlashBank.idle with suspended := some (opOf Cdf.ERASE_SECTOR 127) }
    FlashTakes .host Cdf.RESUME (flashBase 3 + 0x1D88) 96 s ∧
      cdfRefusal .host true none Cdf.RESUME 3 96 (pageIn 96 (flashBase 3 + 0x1D88)) (setSeq .host 3 0 s) = none ∧
      (fbank 3 s).suspended = some (opOf Cdf.ERASE_SECTOR 127) ∧ (fbank 3 s).op = none := by decide +kernel
theorem test_suspend_ends : let o := { opOf Cdf.ERASE_SECTOR 127 with pendingSuspend := true }
    (fbank 3 (after (.suspendedReached 3) (after (.suspendHonoured 3) (opS 3 { FlashBank.idle with op := some o })))).suspended =
      some (opOf Cdf.ERASE_SECTOR 127) := by decide +kernel

/-- The steward loads page 255 of sector 127. -/
def pageS : State := opS 3 { FlashBank.idle with load := some ⟨.steward, 127, 255, []⟩ }
theorem test_witness_page : flashServed pageS = true ∧ sectorOf 0xFFFFFE = some 127 ∧
    sectorBase 127 + 0x200 * 255 + 0x1FE = 0xFFFFFE ∧ (fbank 3 pageS).load = some ⟨.steward, 127, 255, []⟩ ∧
    (fbank 3 (after (.pageBufferWrite .steward 0xFFFFFE 5) pageS)).op.isSome = true ∧
    (fbank 3 (after (.pageBufferWrite .steward 0xFFFBFE 5) pageS)).load = none ∧
    (fbank 3 (after (.pageBufferWrite .steward 0xFFFE00 5) pageS)).load.isSome = true := by decide +kernel
theorem test_page_timeout : (fbank 3 (after (.pageLoadTimeout 3) pageS)).load = none := by decide +kernel
theorem test_operations_end : let p := opS 3 { FlashBank.idle with op := some (opOf Cdf.PROGRAM 127) }
    flashHw 0xFFFC00 (after (.cdfOpDone 3 2 true 0) p) = 0x1234 ∧ (fbank 3 p).suspended = none ∧
      (wearOf 127 (after (.cdfOpDone 3 2 false 0) p)).retired = true := by decide +kernel
theorem test_erase_ends : let e := opS 3 { FlashBank.idle with op := some (opOf Cdf.ERASE_SECTOR 127) }
    flashHw 0xFFFC00 (after (.cdfOpDone 3 8 true 0) (storePage 127 254 [(0, 0x1234)] e)) = 0xFFFF ∧
      (wearOf 127 (after (.cdfOpDone 3 9 true 0) e)).warn = true := by decide +kernel
theorem test_witness_array_read : flashBusy .steward 3 runS = false ∧ (fbank 3 runS).idMode = false ∧
    tget 0 runS.flash.badBits (0xFFFFFC / 32) = 0 ∧ sectorOf (0xFFFFFC : BitVec 25).toNat = some 127 := by decide +kernel

def pwS (fails : Nat) : State := setFlash { runS.flash with key := 1, newPw := 9 } (wrf P.GUARD R.GUARD_STAT 3 0 fails runS)
theorem test_witness_password : Reaches .host P.GUARD (pwS 7) ∧ lockout (pwS 7) = false ∧ (pwS 7).flash.key ≠ (pwS 7).flash.password ∧
    lockout (after (.setPw .host) (pwS 7)) = true ∧ lockout (after (.setPw .host) (pwS 6)) = false := by decide +kernel
theorem test_password_set : (after (.setPw .host) (setFlash { runS.flash with newPw := 9 } runS)).flash.password = 9 := by decide +kernel

/-- A request with a code and two arguments at the host half. -/
def askS (code : Nat) (a b : Word) (s : State) : State :=
  regs [(P.DEV, R.DEV_MBX_H_REQ, W (code * 2 ^ 16 + 2)), (P.DEV, R.DEV_MBX_H_REQ + 4, a), (P.DEV, R.DEV_MBX_H_REQ + 8, b),
    (P.DEV, R.DEV_MBX_H_CTL, 2)] s
theorem test_witness_sector_erase : let s := askS 0x203 127 0 runS
    MailboxAsks .hostHalf 0x203 s ∧ takesWork P.CDF s = true ∧ sectorCode 127 = true ∧
      cdfRefusal .steward true none Cdf.ERASE_SECTOR 3 127 0 s = none ∧ (fbank 3 (after (.sectorErase .hostHalf) s)).op.isSome = true := by
  decide +kernel
theorem test_witness_page_program : let s := askS 0x202 0x40FFFC00 0x11FFFE00 runS
    MailboxAsks .hostHalf 0x202 s ∧ sectorOf (0x40FFFC00 - 0x40000000) = some 127 ∧
      cdfRefusal .steward true none Cdf.PROGRAM 3 127 254 s = none ∧
      (cdfRefusal .steward true none Cdf.PROGRAM 3 127 255 s).isSome = true := by decide +kernel
theorem test_page_program : programmed 127 254 (after (.pageProgram .hostHalf) (askS 0x202 0x40FFFC00 0x11FFFE00 runS)) = true := by
  decide +kernel
theorem test_witness_flash_reset : Reaches .host P.CDF runS ∧ (List.range 4).all (fun b => (fbank b runS).op.isNone) = true ∧
    (after (.cdfSoftReset .host) pageS).flash.banks = [] := by decide +kernel

/-! ## Update -/

/-- RUN in an update state, with a boot pointer and what is kept of the update. -/
def updS (n : Nat) (f : BootPointer → BootPointer) : State :=
  setUpd { runS.upd with pointer := f BootPointer.blank } (regs [(P.UPD, R.UPD_STAT, W n)] runS)
/-- Of a pointer: pair B holds manifest 7 and is verified. -/
def verified (p : BootPointer) : BootPointer := { p with otherVerified := true, otherManifest := 7, activeManifest := 5 }
/-- Node n of a ring of three that is up: node 1 leads. -/
def onRing (n : Nat) (s : State) : State :=
  { regs [(P.RING, R.RING_STAT, W (3 + n * 2 ^ 8 + 3 * 2 ^ 16 + 0xF0000000))] s with
    dev := { s.dev with straps := if n = 1 then 0x100 else 0x200 }
    ring := { s.ring with inUp := true, outUp := true } }

theorem test_witness_begin : let s := askS 0x101 0 0 (updS 0 id)
    MailboxAsks .hostHalf 0x101 s ∧ beginRefused s = false ∧ activeFromTarget s = false ∧
    activeFromTarget (regs [(P.RGN 63, R.RGN_ACTIVE_SRC, 0x300)] s) = true ∧ beginRefused (askS 0x101 0 0 (updS 4 id)) = true := by
  decide +kernel
theorem test_bundle_begins : updState (after (.bundleBegin .hostHalf) (askS 0x101 0 0 (updS 0 id))) = U.DOWNLOAD := by decide +kernel
/-- A header part of 64 manifest words: three parts without a chunk for role 0, or one of a chunk. -/
def partWords (w0 n : Word) : List Word := [w0, 0, 0, n, 0, 0, 0, 0] ++ sha256Bytes []
def bundleOf (n : Word) : List Word := [0, 0, 0, 0, 64, 0, 0, 0] ++ [0, 0, 3] ++ List.replicate 13 0 ++
  partWords 0x01000000 n ++ partWords 0x02000000 0 ++ partWords 0x04000000 0
/-- An intake open for the host, with what it holds. -/
def intakeS (hdr ws : List Word) : State :=
  let s := regs [(P.UPD, R.UPD_STAT, 1), (P.UPD, R.UPD_BUNDLE_STAT, 0x80000000)] runS
  setUpd { s.upd with headerPart := hdr, intake := ws } s
theorem test_witness_intake : Reaches .host P.UPD runS ∧ intakeFrom .host runS = false ∧ intakeFrom .host (intakeS [] [0]) = true ∧
    (intakeS [] (List.replicate 6 0)).upd.intake.length + 1 < 8 ∧ bundleOf 0 ≠ [] := by decide +kernel
theorem test_intake_takes : (after (.bundleData .host 9) (intakeS [] [8])).upd.intake = [8, 9] := by decide +kernel
/-- The last word of a chunk whose tag fails. -/
theorem test_witness_tag_fails (rec : List Word) (hr : rec.headD 0 = 0) (h : chunkTagGood (bundleOf 1) rec = false) :
    (chunkArrived rec (intakeS (bundleOf 1) [])).1 = false := by
  have hn : handsOn (intakeS (bundleOf 1) []) = false := by decide +kernel
  have hp : partOfChunk 0 (intakeS (bundleOf 1) []) = some (partWords 0x01000000 1) := by decide +kernel
  have hf : (tfind (intakeS (bundleOf 1) []).upd.chunks 0).isSome = false := by decide +kernel
  have ht : chunkTagGood (intakeS (bundleOf 1) []).upd.headerPart rec = false := h
  have hi : (rec.headD 0).toNat = 0 := by rw [hr]; rfl
  unfold chunkArrived
  simp only [hi, hn, hp, hf, ht, Bool.false_eq_true, if_false]

/-- A bundle without chunks for the role, to be verified against images of pair B. -/
def verifyS : State := { intakeS (bundleOf 0) [] with
  regs := (regs [(P.UPD, R.UPD_STAT, 2)] runS).regs
  store := { Store.reset with areas := (List.range 64).map fun r => (64 + r, imageOf r) } }
theorem empty_fold (l : List Nat) (s : State) (f : Nat → List Word) (h : ∀ r ∈ l, plainWords (f r) = []) :
    l.foldl (fun m r => planeFrom 3 r (f r) s m) ([] : SMap Word) = [] := by
  induction l with
  | nil => rfl
  | cons a l ih =>
    have e : planeFrom 3 a (f a) s [] = [] := by unfold planeFrom; rw [h a (by simp)]; rfl
    rw [List.foldl_cons, e]
    exact ih fun r hr => h r (by simp [hr])
theorem empty_planes (l : List Nat) : planesFault l [] = none := by
  have h (r : Nat) : planeBad (planeWord [] r) = none := empty_plane_good
  simp [planesFault, h]
theorem find_pair (f : Nat → List Word) (l : List Nat) (r : Nat) (h : r ∈ l) :
    tget [] (l.map fun k => (64 + k, f k)) (64 + r) = f r := by
  induction l with
  | nil => cases h
  | cons a l ih =>
    by_cases e : a = r
    · subst e; simp [tget, tfind]
    · have := ih (by simpa [Ne.symm e] using h)
      simpa [tget, tfind, e] using this
theorem verify_areas : verifyS.store.areas = (List.range 64).map fun k => (64 + k, imageOf k) := rfl
theorem verify_area (r : Nat) (hr : r < 64) : area (areaOf 3 0 r) verifyS = imageOf r := by
  have e : areaOf 3 0 r = 64 + r := rfl
  unfold area
  rw [e, verify_areas]
  exact find_pair imageOf _ r (List.mem_range.mpr hr)
theorem verify_images (hk : Config.keyFused 0 = true)
    (h : ∀ r : Fin 64, (imgTag (fenceLo r.val) (fenceHi r.val)).length = 4) : imageFault verifyS = none := by
  have hs : imageSrc (targetPair verifyS) = 3 := by decide +kernel
  have hg (r : Nat) (hr : r < 64) := image_header ⟨r, hr⟩ hk (h ⟨r, hr⟩)
  have hl : ∀ r ∈ List.range 64, r < 64 := fun r hr => List.mem_range.mp hr
  unfold imageFault
  rw [hs]
  generalize List.range 64 = l at hl ⊢
  have hm : l.foldl (fun m r => planeFrom 3 r (area (areaOf 3 0 r) verifyS) verifyS m) ([] : SMap Word) = [] :=
    empty_fold _ _ (fun r => area (areaOf 3 0 r) verifyS) fun r hr => by
      show plainWords (area (areaOf 3 0 r) verifyS) = []
      rw [verify_area r (hl r hr)]; exact (hg r (hl r hr)).2.2
  dsimp only
  rw [hm, empty_planes]
  split
  · rename_i c hc
    obtain ⟨r, hr, e⟩ := List.exists_of_findSome?_eq_some hc
    obtain ⟨h1, h2, h3⟩ := hg r (hl r hr)
    have h4 : recordsOf (plainWords (imageOf r)) = [] := by rw [show plainWords (imageOf r) = [] from h3]; rfl
    have h5 : sealFault (imageOf r) = none := image_seal _ _ (h ⟨r, hl r hr⟩)
    rw [verify_area r (hl r hr), show headerGood (imageOf r) = true from h1, show imageFence (imageOf r) = maskOf [r] from h2,
      h4, h5] at e
    simp [recordsFault] at e
  · rfl
theorem verify_parts : verifyS.upd.partRefused = false ∧
    ((partsOf verifyS.upd.headerPart).filter fun e => partRole e == role verifyS &&
      (verifyS.dev.mode != .recovery || partType e == 1 || partType e == 2)) =
      [partWords 0x01000000 0, partWords 0x02000000 0, partWords 0x04000000 0] ∧
    updState verifyS = U.VERIFY ∧ verifyS.dev.mode = .run := by decide +kernel
/-- A bundle that verifies. -/
theorem test_witness_verified (hk : Config.keyFused 0 = true)
    (h : ∀ r : Fin 64, (imgTag (fenceLo r.val) (fenceHi r.val)).length = 4) : verifyFault verifyS = none := by
  obtain ⟨h1, -, -, h4⟩ := verify_parts
  have hr : releaseRecordGood (tget [] verifyS.store.relRec (b2n (targetPair verifyS))) = true := by decide +kernel
  unfold verifyFault
  simp only [h1, h4, hr, verify_images hk h]
  rfl
theorem test_witness_verify_fails : verifyFault (regs [(P.UPD, R.UPD_STAT, 2)] runS) = some E.PERM_FAULT ∧
    updState (after .bundleVerifyDone (regs [(P.UPD, R.UPD_STAT, 2)] runS)) = U.IDLE := by decide +kernel

theorem test_witness_forward : let s := setUpd { runS.upd with buffers := [(0, [1])] } (onRing 1 runS)
    ringUp s = true ∧ ringUp runS = false ∧ (after .chunkForward s).upd.buffers = [] := by decide +kernel
/-- RING_CHUNK 0 of a bundle of 9 chunks none of which is for this node, with the ring buffer in banks 0 and 1. -/
def chunkS : State :=
  let s := regs [(P.UPD, R.UPD_STAT, 1), (P.UPD, R.UPD_BUNDLE_STAT, 0xC0000000), (P.UPD, R.UPD_RING_BUF, 0x80000000)]
    (askS 0x106 0 0 (onRing 2 runS))
  setUpd { s.upd with headerPart := [0, 0, 0, 0, 0, 9, 0, 0] } s
theorem test_witness_ring_chunk : MailboxAsks .hostHalf 0x106 chunkS ∧ bit 31 (rd P.UPD R.UPD_RING_BUF chunkS) = true ∧
    chunkS.upd.buffers = [] ∧ intakeOpen chunkS = true ∧ intakeOwner chunkS = 2 ∧ chunkS.upd.headerPart ≠ [] ∧
    (mbxReq .hostHalf 1 chunkS).toNat + 1 ≠ fld 15 0 (chunkS.upd.headerPart.getD 5 0) ∧
    bit 31 (rd P.UPD R.UPD_RING_BUF (askS 0x106 0 0 runS)) = false := by decide +kernel
theorem buffer_reads (b w : Nat) (hb : b = 0 ∨ b = 1) : (readBank b w chunkS).2 = chunkS := by
  have ha : bankAbsent b chunkS = false ∧ copies b chunkS = [b] ∧ bankPort b chunkS = Bank.idle := by
    rcases hb with e | e <;> subst e <;> decide +kernel
  obtain ⟨h1, h2, h3⟩ := ha
  have hw : bankWord b w chunkS = zeroWord := rfl
  have hg : readCopy b w chunkS = .good zeroWord := by
    unfold readCopy
    rw [h3, hw]
    rfl
  unfold readBank
  simp [h1, h2, hg]
theorem buffer_fold (l : List Nat) (a : List Word) (hl : ∀ k ∈ l, k < 16384) :
    (l.foldl (fun (acc : List Word × State) k =>
      ((acc.1 ++ [(readBank (0 + k / 8192) (k % 8192) acc.2).1.data]), (readBank (0 + k / 8192) (k % 8192) acc.2).2))
      (a, chunkS)).2 = chunkS := by
  induction l generalizing a with
  | nil => rfl
  | cons k l ih =>
    have e : (readBank (0 + k / 8192) (k % 8192) chunkS).2 = chunkS :=
      buffer_reads _ _ (by have := hl k (by simp); omega)
    rw [List.foldl_cons]
    simp only [e]
    exact ih _ fun j hj => hl j (by simp [hj])
theorem buffer_same (n : Nat) (hn : n ≤ 16384) : (ringBufWords n chunkS).2 = chunkS := by
  have hb : rdf P.UPD R.UPD_RING_BUF 9 0 chunkS = 0 := by decide +kernel
  have hl : ∀ k ∈ List.range n, k < 16384 := fun k hk => by have := List.mem_range.mp hk; omega
  unfold ringBufWords
  generalize List.range n = l at hl ⊢
  rw [hb]
  exact buffer_fold l [] hl
theorem chunk_taken (rec : List Word) (h : rec.headD 0 = 0) (t : State) (ht : t = chunkS) : (chunkArrived rec t).1 = true := by
  have hi : (rec.headD 0).toNat = 0 := by rw [h]; rfl
  have hp : partOfChunk 0 chunkS = none := by decide +kernel
  unfold chunkArrived
  simp only [hi, ht, hp, ite_self]
theorem test_witness_chunk_taken (rec : List Word) (h : rec.headD 0 = 0) :
    (chunkArrived rec (ringBufWords 16384 chunkS).2).1 = true :=
  chunk_taken rec h _ (buffer_same 16384 (Nat.le_refl _))
theorem test_witness_cancel : MailboxAsks .hostHalf 0x107 (askS 0x107 0 0 (updS 3 id)) ∧ updState (askS 0x107 0 0 (updS 3 id)) < U.READY ∧
    U.READY ≤ updState (askS 0x107 0 0 (updS 4 id)) ∧ MailboxAsks .hostHalf 0x107 (askS 0x107 0 0 (updS 4 id)) ∧
    updState (after (.bundleCancel .hostHalf) (askS 0x107 0 0 (updS 3 id))) = U.IDLE := by decide +kernel

theorem test_witness_activate : let s := askS 0x102 0 0 (updS 3 verified)
    MailboxAsks .hostHalf 0x102 s ∧ ringLeader s = true ∧ updState s = U.VERIFIED ∧ holdsVerified 7 s = true ∧ s.upd.arming = none ∧
    (after (.activate .hostHalf) s).upd.arming.isSome = true ∧ ringLeader (onRing 2 s) = false := by decide +kernel
theorem test_witness_ring_passes : RingPasses 3 (onRing 2 (updS 3 verified)) ∧ RingPasses 0 (onRing 2 runS) := by decide +kernel
/-- An ARM for manifest 7 is being served until ring time 9. -/
def armingS (n : Nat) (now : BitVec 64) (s : State) : State :=
  { onRing n s with upd := { s.upd with arming := some (7, 9) }, time := { s.time with ringTime := now } }
theorem test_witness_arming : ringLeader (armingS 1 9 (updS 3 verified)) = true ∧ ringLeader (armingS 2 10 (updS 3 verified)) = false ∧
    (armingS 2 10 (updS 3 verified)).time.ringTime > 9 ∧ (armingS 1 9 (updS 3 verified)).upd.commitSent = false ∧
    updState (after .armDeadline (armingS 2 10 (updS 3 verified))) = U.VERIFIED := by decide +kernel
theorem test_witness_arm_return : let s := armingS 1 9 (updS 4 verified)
    readyFor 7 s = true ∧ enumeratedNodes s = [1, 2, 3] ∧
    (enumeratedNodes s).all (fun n => (bitmapOf [0xE, 0, 0, 0, 0, 0, 0, 0]).getLsbD n) = true ∧
    (after (.armReturn [0xE, 0, 0, 0, 0, 0, 0, 0]) s).upd.commitSent = true := by decide +kernel
theorem test_witness_ready : let t := pointerUpkeep (armingS 2 9 (updS 3 verified))
    updState t = U.VERIFIED ∧ t.upd.arming.isSome = true ∧ readyNow t = true := by decide +kernel
theorem test_witness_commit : let s := updS 4 verified
    updState s = U.READY ∧ holdsVerified 7 s = true ∧ (latestPointer s).activeManifest ≠ 7 ∧ updState (commitServed 7 9 s) = U.COMMITTED ∧
    s.upd.pointer.otherManifest ≠ 8 := by decide +kernel
theorem test_witness_activation : let s := setUpd { runS.upd with pointer := verified BootPointer.blank, swapArmed := true } (updS 5 verified)
    updState s = U.COMMITTED ∧ s.upd.swapArmed = true ∧ updState (after .activationTime s) = U.ACTIVATING ∧
    updState (after .activationTime (regs [(P.UPD, R.UPD_T_LO, 9)] s)) = U.COMMITTED := by decide +kernel

def trial (p : BootPointer) : BootPointer := { p with trial := true, activeManifest := 7, otherManifest := 5 }
theorem test_witness_firmware_handover : let s (f : BootPointer → BootPointer) := setUpd { (updS 6 f).upd with handoverDue := true } (updS 6 f)
    (s trial).upd.handoverDue = true ∧ (s trial).upd.rollForward = false ∧ (s id).upd.pointer.trial = false ∧
    updState (after (.firmwareHandover true) (s id)) = U.IDLE := by decide +kernel
theorem test_witness_attempt : let s := setUpd { (updS 7 trial).upd with attemptDue := true } (updS 7 trial)
    updState s = U.TRIAL ∧ s.upd.attemptDue = true ∧ (after .attemptCount s).upd.attemptDue = false := by decide +kernel
theorem test_witness_pointer : let s := setUpd { (updS 2 id).upd with ptrWrite := [(.begin_, verified BootPointer.blank)] } (updS 2 id)
    (programPointer (verified BootPointer.blank) s).isSome = true := by decide +kernel
theorem test_pointer_copy_reads_back : parsePointer (pointerWords (trial BootPointer.blank)) = some (trial BootPointer.blank) := by
  decide +kernel
theorem test_witness_confirm : let s := askS 0x103 0 0 (onRing 2 (updS 7 trial))
    let f := regs [(P.DEV, R.DEV_MBX_F_REQ, 0x1030000), (P.DEV, R.DEV_MBX_F_CTL, 2)] (onRing 2 (updS 7 trial))
    MailboxAsks .hostHalf 0x103 s ∧ MailboxAsks .fabricHalf 0x103 f ∧ updState s = U.TRIAL ∧ updState f = U.TRIAL ∧
      ringLeader s = false ∧ ringLeader f = false ∧ updState (after (.confirm .fabricHalf) f) = U.CONFIRMING := by decide +kernel
theorem test_witness_confirm_window : let s := regs [(P.UPD, R.UPD_CONFIRM_WINDOW, 0)] (onRing 1 (updS 7 trial))
    ringLeader s = true ∧ updState s = U.TRIAL ∧ windowEnd s ≤ s.time.ringTime ∧
    (onRing 1 (updS 7 trial)).time.ringTime < windowEnd (onRing 1 (updS 7 trial)) ∧
    MailboxAsks .hostHalf 0x105 (askS 0x105 0 0 s) ∧ MailboxAsks .hostHalf 0x105 (askS 0x105 0 0 (onRing 2 (updS 7 trial))) := by
  decide +kernel
theorem test_witness_fallback : let s := onRing 2 (updS 7 trial)
    RingPasses 1 s ∧ (latestPointer s).activeManifest = 7 ∧
    (fallbackServed 7 s).upd.ptrWrite.map (fun e => (e.2.activeB, e.2.trial)) = [(!(latestPointer s).activeB, false)] := by decide +kernel
theorem test_witness_join : let s := onRing 1 (updS 7 trial)
    ringLeader s = true ∧ ringUp s = true ∧ ownNode s = 1 ∧ s.upd.pointer.committed = false ∧ updState s = U.TRIAL ∧
    updState (onRing 1 (updS 0 id)) ≠ U.TRIAL ∧ (onRing 1 (updS 0 id)).upd.pointer.committed = false ∧
    rd P.UPD R.ERR_FIRST (after (.nodeJoin 2 6 6 0) (onRing 1 (updS 0 id))) = 0x61000002 := by decide +kernel

/-! ## Levels, clocks, region power -/

/-- A level change in progress. -/
def changeS (step : LvlStep) (slower : Bool) (left : List Nat) : State :=
  setChange (some ⟨if slower then 2 else 0, if slower then 0 else 2, slower, step, left⟩) runS
theorem test_witness_level : Reaches .host P.PMU runS ∧ levelForbidden 3 runS = false ∧ currentLevel runS = 0 ∧
    levelForbidden 0 (wrf P.PMU R.PMU_LEVEL_STAT 1 0 3 runS) = false ∧ currentLevel (wrf P.PMU R.PMU_LEVEL_STAT 1 0 3 runS) = 3 ∧
    levelForbidden 3 (changeS .ack true []) = true := by decide +kernel
theorem test_level_faster_first_raises : let s := wrf P.PMU R.PMU_LEVEL_STAT 1 0 2 runS
    (after (.levelReq .host 0) s).pwr.change = some ⟨0, 2, false, .ack, []⟩ ∧
    (after (.levelReq .host 0) s).io.pmbus.length = s.io.pmbus.length + 1 := by decide +kernel
theorem test_witness_islands : (changeS .islands true [0, 78]).pwr.change = some ⟨2, 0, true, .islands, [0, 78]⟩ ∧
    [0, 78].Nodup ∧ ((after (.islandSwitch 78) (changeS .islands true [0, 78])).pwr.change.map (·.left)) = some [0] ∧
    currentLevel (after (.islandSwitch 78) (changeS .islands true [78])) = 2 := by decide +kernel
theorem test_level_steps : ((after .pmbusAck (changeS .ack true [])).pwr.change.map (·.step)) = some .powerGood ∧
    ((after .powerGood (changeS .powerGood false [])).pwr.change.map (·.step)) = some .settle ∧
    (after .settleElapsed (changeS .settle true [])).pwr.change = none ∧
    rdf P.PMU R.PMU_LEVEL_STAT 31 24 (after .pgTimeout (changeS .powerGood false [])) = E.LEVEL_REFUSED := by decide +kernel
theorem test_pmbus_alert : rd P.PMU R.PMU_PMBUS_ALERT (after (.pmbusAlert 0x800) runS) = 0x800 ∧
    bit 4 (rd P.PMU R.IRQ_PEND (after (.pmbusAlert 0x800) runS)) = true := by decide +kernel

/-- Loop 7 enabled: 156.25 MHz times 16 through dividers 1 and 5. -/
def loopWord : Word := 0xC0050110
def loopS (locked : Bool) : State :=
  regs [(P.CLK, R.CLK_CL_CFG + 56, loopWord), (P.CLK, R.CLK_CL_STAT + 56, if locked then 0x80000000 else 0)] runS
theorem test_witness_isl : Reaches .host P.CLK runS ∧ runS.pwr.change = none ∧ islBad (fun n => clCfg n runS) 78 0x07070707 = none ∧
    islBad (fun n => clCfg n runS) 78 0x05070707 = some 3 ∧ islBad (fun n => clCfg n (loopS true)) 78 0x38383838 = some 2 ∧
    islBad (fun n => clCfg n (loopS true)) 78 0x39393838 = none := by decide +kernel
theorem test_isl_applied : (after (.islWrite .host 78 0x39393838) (loopS true)).pwr.switching.contains 78 = true := by decide +kernel
theorem test_witness_loop : loopEnabled loopWord = true ∧ loopFieldsGood loopWord = true ∧ loopLimitsGood loopWord = true ∧
    loopWord &&& W 0xC00F0FFF = loopWord ∧ treeNamed 7 (loopS true) = false ∧ treeAbove 7 loopWord runS = none ∧
    loopFieldsGood 0xC005010F = false ∧ loopLimitsGood 0xC00201FF = false ∧ Reaches .host P.CLK (loopS true) := by decide +kernel
theorem test_loop_locks : loopsPowered runS = true ∧ loopLocked 7 (after (.loopLock 7) (loopS false)) = true ∧
    rdf P.CLK (R.CLK_CL_STAT + 56) 9 0 (after (.loopLock 7) (loopS false)) = 500 ∧
    fld 31 29 (rd P.CLK (R.CLK_CL_STAT + 56) (after (.lossOfReference 7) (loopS true))) = 3 ∧
    bit 1 (rd P.CLK R.CLK_STEWARD_CLK (after (.loopLock 8) runS)) = true := by decide +kernel
theorem test_steward_clock : bit 0 (rd P.CLK R.CLK_STEWARD_CLK (after (.stewardClkWrite .host true) (wrf P.CLK R.CLK_STEWARD_CLK 1 1 1 runS))) =
    true ∧ bit 1 (rd P.CLK R.CLK_STEWARD_CLK (wrf P.CLK R.CLK_STEWARD_CLK 1 1 0 runS)) = false := by decide +kernel

theorem test_witness_region_power : runS.pwr.region = none ∧ entering runS = false ∧ locked 63 runS = false ∧ loading 63 runS = false ∧
    (rgn 63 runS).power = .on ∧ (rgn 63 (setRgn 63 { Rgn.blank with power := .off } runS)).power = .off ∧
    (rgn 63 (setRgn 63 { Rgn.blank with power := .retired } runS)).power = .retired := by decide +kernel
theorem test_region_off : (rgn 63 (after (.regionPowerOff .host 63) runS)).power = .off ∧
    (after .regionPowerDone (after (.regionPowerOff .host 63) runS)).pwr.region = none := by decide +kernel

/-! ## Sleep, wake, watchdog -/

theorem test_witness_enter : refusers 1 runS = [] ∧ refusers 2 runS = [] ∧ refusers 3 runS = [] ∧ entering runS = false ∧
    refusers 2 (changeS .ack true []) = [P.PMU] := by decide +kernel
theorem test_witness_entry_ignored : Reaches .host P.PMU (modeS .doze runS) ∧ (modeS .doze runS).dev.mode ≠ .run ∧
    rdf P.DEV R.DEV_MODE 11 8 (after (.enterSleep .host true) (modeS .doze runS)) = 8 := by decide +kernel
theorem test_doze : (after (.enterDoze .host true) runS).dev.mode = .doze ∧ entering (after (.enterSleep .host false) runS) = true ∧
    rd P.PMU R.PMU_REFUSAL_LOG (after (.enterSleep .host true) (changeS .ack true [])) = 0x80000001 := by decide +kernel
theorem test_wakes_from_doze : let s := regs [(P.PMU, R.PMU_WAKE_EN, 0xF), (P.PMU, R.PMU_WAKE_TIMER, 1)] (modeS .doze runS)
    Reaches .host P.PMU s ∧ rd P.PMU R.PMU_WAKE_CAUSE (after (.wakeRing 9 5) s) = 0x901 ∧
    (after (.wakePin 5) s).dev.mode = .run ∧ rd P.PMU R.PMU_WAKE_CAUSE (after (.wakeTimer 5) s) = 3 ∧
    (after (.wakePin 5) (regs [(P.PMU, R.PMU_WAKE_EN, 0)] s)).dev.mode = .doze ∧ bit 2 (rd P.PMU R.PMU_WAKE_EN s) = true := by decide +kernel
theorem test_wakes_from_sleep : let s := regs [(P.PMU, R.PMU_WAKE_EN, 2), (P.TIME, R.TIME_RATIO, 0x20000)] (modeS .sleep runS)
    (after (.wakePin 5) s).dev.mode = .load ∧ (after (.wakePin 5) s).time.ringTime = 10 := by decide +kernel
theorem test_witness_wake_load : let off : SMap Rgn := (List.range 64).map fun r => (r, { Rgn.blank with power := .off })
    let s (k : LoadKind) := { setDev { runS.dev with mode := .load, loadKind := k } runS with rgns := off }
    (loadAll reload ((List.range 64).filter fun r => regionOn r (s .wakeSleep)) (s .wakeSleep)).1 = none ∧
    (loadAll loadBoot ((List.range 64).filter fun r => regionOn r (s .wakeBear)) (s .wakeBear)).1 = none := by decide +kernel
theorem test_hold_release : Reaches .host (P.IOB 11) runS ∧ rd (P.IOB 11) R.IOB_HOLD (after (.holdRelease .host 11) runS) = 0 ∧
    rd (P.IOB 11) R.ERR_COUNT (after (.holdRelease .host 11) (setDev { runS.dev with outReleased := false } runS)) = 1 := by decide +kernel
theorem test_watchdog : let s := regs [(P.RST, R.RST_WDT_PERIOD, 0x55), (P.RST, R.RST_CTL, 2)] runS
    rdf P.RST R.RST_WDT_STAT 15 0 (after (.wdtKick .host) s) = 0x55 ∧ (after .watchdogExpiry s).dev.mode = .release ∧
    Reaches .host P.RST s ∧ bit 1 (rd P.RST R.RST_CTL runS) = false := by decide +kernel

/-! ## Self-test -/

/-- Slices that end with a definite error, without the completion marker, and with it after one line. -/
def failRun : SliceRun := ⟨[], 0, 0, false, true⟩
def cutRun : SliceRun := ⟨[], 0, 0, false, false⟩
def lineRun (uncorrectable : Nat) : SliceRun := ⟨[], 1, uncorrectable, true, false⟩
theorem test_slices : let s := modeS .selftest runS
    (after (.sliceEnd 4 519 0 0 cutRun) s).wpk.incomplete.getLsbD 4 = true ∧
    (after (.sliceEnd 4 519 0 0 failRun) s).wpk.failed.getLsbD 4 = true ∧
    (after (.sliceEnd 3 0 0 0 (lineRun 1)) s).wpk.failed.getLsbD 3 = true := by decide +kernel
theorem test_witness_slice_verdicts (test cls block slice : Nat) (s : State) :
    sliceVerdict test cls block slice failRun s = .fail ∧ sliceVerdict test 3 block slice cutRun s = .incomplete ∧
      sliceVerdict test 3 block slice (lineRun 0) s = .pass :=
  ⟨rfl, rfl, if_pos rfl⟩
/-- A logic slice passes where the ROM holds the signature of its responses. -/
theorem test_witness_logic_slice_passes (s : State) (x : SliceRun) (hd : x.definite = false) (hu : x.uncorrectable = 0)
    (hm : x.marker = true) (h : sliceSignature 1 x = Config.romSignature 2 1 16383 0) :
    sliceVerdict 2 1 16383 0 x s = .pass := by
  unfold sliceVerdict sliceExpected
  simp [hd, hu, hm, h, recordFails]
/-- The window's verdict. -/
def windowS (b : Bool) (s : State) : State := regs [(P.WPK, R.WPK_WIN_STAT, if b then 0x80000000 else 0)] s
theorem test_witness_power_up_window : let s := modeS .selftest runS
    inWindow (windowS true s) = true ∧ inWindow (windowS false s) = false ∧ tget 0 s.wpk.ended 4 < sliceTotal (strapTest s == 0) 4 := by
  decide +kernel
/-- Background slices of class c enabled for region 63, inside the window. -/
def bgS (c : Nat) : State :=
  setNow 63 0 (setNow 64 0 (windowS true (regs [(P.CLK, R.CLK_CL_STAT, 0x80000000), (P.WPK, R.WPK_CTL, W (2 ^ c + 8)), (P.WPK, R.WPK_BG_REGIONS_LO, 0),
    (P.WPK, R.WPK_BG_REGIONS_LO + 4, 0x80000000)] runS)))
theorem test_witness_slice : entering (bgS 0) = false ∧ bit 0 (rd P.WPK R.PAGE_CTL (bgS 0)) = true ∧ bgNextClass (bgS 0) = some 0 ∧
    bgNextBlock 0 (bgS 0) = some 1008 ∧ inWindow (bgS 0) = true ∧ (bgS 0).wpk.bg = none ∧ clockInWindow (bgIsland 0 1008) (bgS 0) = true ∧ clockInWindow (bgIsland 2 504) (bgS 2) = true ∧
    bgNextBlock 2 (bgS 2) = some 504 := by decide +kernel
def sliceS (cls block : Nat) (p : BgPhase) (retest : Bool) : State :=
  setWpk { (bgS cls).wpk with bg := some ⟨cls, block, 0, p, retest, false⟩ } (bgS cls)
theorem test_slice_phases : (after .bgPhaseDone (sliceS 0 1023 .evacuate false)).wpk.bg.map (·.phase) = some .test ∧
    (after (.bgSliceEnd failRun) (sliceS 1 16383 .test false)).wpk.bg.map (·.retest) = some true := by decide +kernel
theorem test_witness_slice_abort : cellWanted 16383 (sliceS 1 16383 .test false) = false ∧
    cellWanted 16383 (setRgn 63 Rgn.blank (sliceS 1 16383 .test false)) = true ∧ bit 3 (rd P.WPK R.WPK_CTL (sliceS 1 16383 .test false)) = true ∧
    (after .budgetExpiry (sliceS 1 16383 .test false)).wpk.bg = none ∧ pageOff P.WPK runS = false := by decide +kernel
theorem test_window_exit : (setWindow false (sliceS 1 16383 .test false)).wpk.bg.isSome = true ∧
    (after .windowExit (sliceS 1 16383 .test false)).wpk.bg = none := by decide +kernel
theorem test_scan : (after .scan (modeS .safe runS)).wpk.zeroising = true ∧
    (after .zeroisationDone (after .scan (modeS .safe runS))).dev.mode = .scan ∧
    rdf P.DEV R.DEV_MODE 11 8 (after .scan runS) = 0xB := by decide +kernel

/-! ## Ring, ring time, snapshots -/

/-- A strapped node whose segments are down. -/
def downS (lead : Bool) : State := { runS with dev := { runS.dev with straps := if lead then 0x100 else 0x200 } }
theorem test_segments : ringServed (downS true) = true ∧ (downS true).ring.inUp = false ∧ (downS true).ring.outUp = false ∧
    ringState (after (.segmentUp false 15) (downS true)) = 1 ∧ (onRing 2 runS).ring.outUp = true ∧
    ringState (after (.segmentDown true) (onRing 2 runS)) = 1 := by decide +kernel
theorem test_enumeration : ringServed (onRing 1 runS) = true ∧ ringLeader (onRing 1 runS) = true ∧ ringLeader (onRing 2 runS) = false ∧
    ringNodes (after (.enumChar 9) (onRing 1 runS)) = 9 ∧ ownNode (after (.enumChar 249) (onRing 2 runS)) = 250 ∧
    ownNode (after (.enumChar 250) (onRing 2 runS)) = 0 ∧ ringState (after (.tmax 5) (onRing 2 runS)) = 3 := by decide +kernel
theorem test_witness_ring_message : RingPasses 250 (onRing 2 runS) ∧ ownNode (onRing 2 runS) = 2 ∧ ringServed runS = false := by
  decide +kernel
theorem test_ring_forwards : (after (.ringMessage 3 0 511 (message 0x21 0 0x80C00000 [] 0)) (onRing 2 runS)).ring.sent.map (·.1) =
    [originChar 3 0 511] := by decide +kernel
theorem test_witness_reset_message : let s := regs [(P.RST, R.RST_CTL, 1)] (onRing 2 runS)
    RingPasses 3 s ∧ bit 0 (rd P.RST R.RST_CTL s) = true ∧ (after (.reset 3 1) s).dev.mode = .release := by decide +kernel
theorem test_sync : ringUp (onRing 1 runS) = true ∧ (after .syncSend (onRing 1 runS)).ring.chars = [(0, 0)] ∧
    ringUp (onRing 2 runS) = true ∧ rd P.TIME R.TIME_OFFSET (after (.syncPair 100) (onRing 2 runS)) = 100 ∧
    (after (.syncPair 100) (onRing 2 runS)).time.slew = 100 := by decide +kernel
theorem test_sync_steps : let s := regs [(P.TIME, R.TIME_STEP_LIMIT, 1)] (onRing 2 runS)
    (after (.syncPair 1000) s).time.ringTime = 0 ∧ (after (.syncPair 1001) s).time.ringTime = 1001 := by decide +kernel
theorem test_echo_delay : rdf P.RING R.RING_HOP_DELAY 15 0 (after (.echoCharacter 65535) (onRing 2 runS)) = 65535 ∧
    (after .syncTimeout (onRing 2 runS)).time.lastGood = [] := by decide +kernel
theorem test_adj : Reaches .host P.TIME runS ∧ ringLeader runS = true ∧
    (after (.adj .host 0xFFFFFFFF) (regs [(P.TIME, R.TIME_CTL, 0)] runS)).time.slew = 0xFFFFFFFFFFFFFFFF ∧
    rd P.TIME R.ERR_COUNT (after (.adj .host 1) (onRing 2 runS)) = 1 := by decide +kernel
theorem test_ptp : let s := regs [(P.ETH 1, R.PAGE_CTL, 1), (P.ETH 1, R.ETH_PTP_CTL, 7)] runS
    pageOff (P.ETH 1) s = false ∧ rd64 (P.ETH 1) R.ETH_TX_TS_LO (after (.ptpTimestamp 1 true true 0x123456789 7) s) = 0x123456789 := by
  decide +kernel

/-- A snapshot of the crossbar's counters, armed for ring time 0, captured or not. -/
def snapS (done : Bool) : State :=
  { regs [(P.XB, R.XB_WORDS_LO, 7)] runS with time := { runS.time with snap := some (0, 0x120010), captureDone := done } }
theorem test_snapshot : let s := regs [(P.SNAP, R.SNAP_CTL, 0x120010)] runS
    Reaches .host P.SNAP s ∧ s.time.snap = none ∧ bit 8 (rd P.SNAP R.SNAP_CTL s) = false ∧
    (after (.snapArm .host) s).time.snap = some (0, 0x120010) ∧ (after (.snapCancel .host) (snapS false)).time.snap = none := by
  decide +kernel
theorem test_snapshot_completes : let t := after .snapshotExchange (after .snapshotCapture (snapS false))
    rd P.XB R.XB_SNAP_SHADOW t = 7 ∧ rdf P.SNAP R.SNAP_STAT 31 16 t = 0x12 ∧ fld 5 0 (0x120010 : Word) = 16 ∧ t.time.snap = none := by
  decide +kernel
theorem test_witness_snapshot_waits : let s := { snapS false with time := { (snapS false).time with snap := some (9, 0x10) } }
    s.time.ringTime < 9 ∧ s.time.captureDone = false := by decide +kernel
theorem test_witness_rollcall : Reaches .host P.RING (onRing 1 runS) ∧ bit 0 (rd P.RING R.PAGE_CTL (onRing 1 runS)) = true ∧
    bit 1 (rd P.RING R.RING_ROLLCALL_CTL (onRing 1 runS)) = false ∧
    rdf P.RING R.RING_ROLLCALL_CTL 31 24 (after (.rollcallGo .host) (onRing 2 runS)) = E.PERM_FAULT := by decide +kernel
theorem test_rollcall_ends : let s := regs [(P.RING, R.RING_ROLLCALL_CTL, 2)] (onRing 1 runS)
    rd P.RING R.RING_MAP (after (.rollcallReturn [5, 0, 0, 0, 0, 0, 0, 0]) s) = 5 ∧
    rdf P.RING R.RING_ROLLCALL_CTL 31 24 (after .rollcallTimeout s) = E.ABSENT_TARGET := by decide +kernel

/-! ## Probes, pins, links, QSPI, TAP -/

theorem test_witness_probe : Reaches .host P.OWL runS ∧ owlTaken 3 0xB23 runS = false ∧ fld 11 8 (0xB23 : Word) < 12 ∧
    owlTaken 3 0xB23 (regs [(P.OWL, R.OWL_PORT_SEL, 0x80000000), (P.OWL, R.OWL_PORT_PIN, 0xB23)] runS) = true ∧
    rd P.OWL (R.OWL_PORT_PIN + 24) (after (.owlPortWrite .host 3 true 0xB23) runS) = 0xB23 := by decide +kernel
theorem test_witness_delay : Reaches .host (P.IOB 11) runS ∧ bankCells 11 ≤ 36 ∧ (35 : Fin 48).val < bankCells 11 ∧ runS.pwr.hare = true := by
  decide +kernel
theorem test_vcco : rdf (P.IOB 11) R.IOB_BANK_STAT 31 16 (after (.vccoChange 11 1800) runS) = 1800 := by decide +kernel
theorem test_pcie : pcieOn runS = true ∧ rdf P.PCIE R.PCIE_LINK_STAT 13 0 (after (.pcieLinkChange true 3 4 ⟨0x11, 3⟩) runS) = 0x11B4 ∧
    (after (.pcieLinkChange true 3 4 ⟨0x11, 3⟩) runS).io.msixMask = true ∧
    rd P.PCIE R.PCIE_MSIX_TABLE (after .functionLevelReset (regs [(P.PCIE, R.PCIE_MSIX_TABLE, 5)] runS)) = 0 := by decide +kernel
theorem test_ethernet : let s := regs [(P.ETH 1, R.PAGE_CTL, 1)] runS
    macLive 1 s = true ∧ rd (P.ETH 1) R.ETH_STAT (after (.ethLinkChange 1 true 2) s) = 5 ∧
    (after (.frameReceived 1 [1, 2] true) s).io.frames = [(1, [1, 2])] ∧ rd (P.ETH 1) R.ETH_FRAMES_ERR (after (.frameReceived 1 [1] false) s) = 1 := by
  decide +kernel
def qspiS (n : Nat) : State :=
  setIo { runS.io with qspi := List.replicate n (0x40, 5) } (setDev { runS.dev with straps := 0x400 } runS)
theorem test_qspi : qspiOn (qspiS 256) = true ∧ qspiOn runS = false ∧ (after (.qspiWrite 0x40 [1]) (qspiS 255)).io.qspi.length = 256 ∧
    (after (.qspiWrite 0x40 [1]) (qspiS 256)).io.qspiDropped = true ∧ (after .qspiStatus (qspiS 256)).io.qspiOut = [0] := by decide +kernel
theorem test_witness_qspi_read : (qspiS 0).io.qspi = [] ∧ fld 30 0 (0x3FFFFFC : Word) < 0x4000000 ∧ bit 31 (0x3FFFFFC : Word) = false ∧
    (after .qspiReadTimeout (setIo { (qspiS 0).io with qspiWait := some 0x40 } (qspiS 0))).io.qspiOut = [0x5A, 0, 0, 0, 0] := by decide +kernel
theorem test_tap : (after .clamp runS).io.taken = some .clamp ∧ (after (.bypass 0xFF) runS).io.tap = .bypass ∧ otherTapCode 0xFF = false ∧
    (after .testLogicReset (after .highz runS)).io.taken = none ∧ (after .idcode runS).io.tap = .idcode := by decide +kernel
theorem test_idcode_manufacturer : idcodeValue &&& 0xFFF = 0xFFF := by
  unfold idcodeValue; generalize Config.stepping = x; revert x; decide +kernel

/-! ## The whole block -/

/-- The command at the front of the queue is carried out, and the queue's rest stays. -/
theorem test_step_takes_the_front : let s := setPending [.rstN, .suppliesInvalid] runS
    (match step s with | .next t => t.dev.mode == .hold && t.pending == [.suppliesInvalid] | _ => false) = true := by decide +kernel
theorem test_idle_step : (match step State.reset with | .next t => t.pending == [] && t.dev.mode == .hold | _ => false) = true := by
  decide +kernel
theorem test_witness_invariant : Memory.wf runS = true ∧ nullClean runS.banks.words = true ∧ rising runS.regs = true := by
  decide +kernel
theorem test_witness_stores_nothing : storesNothing .doneFall = true ∧ storesNothing (.bypass 0xFF) = true ∧
    storesNothing (.qspiWrite 0 []) = true := by decide +kernel
theorem test_witness_doorbell : let full := setSched { runS.sched with queues := [(16, List.replicate 64 ⟨0, 0, 0⟩)] } runS
    Reaches .host P.SCH0 runS ∧ Reaches .fabric P.SCH0 runS ∧ (queue 16 runS).length < 64 ∧ 64 ≤ (queue 16 full).length ∧
    rd P.SCH0 R.SCH0_DOORBELL_DROPS (after (.doorbell .host 63 9) full) = 1 := by decide +kernel
theorem test_witness_start_up_resets : let s := regs [(P.RST, R.RST_CTL, 3)] (modeS .release (onRing 2 runS))
    ringServed s = true ∧ s.ring.inUp = true ∧ ownNode s ≠ 0 ∧ 3 ≠ ownNode s ∧ Reaches .host P.DEV s ∧
    rdf P.DEV R.DEV_MODE 11 8 (after (.hostSoftReset .host) s) = 2 ∧ (after .watchdogExpiry s).dev.mode = .release := by decide +kernel
def enteringS : State :=
  regs [(P.PMU, R.PMU_WAKE_EN, 0xF), (P.PMU, R.PMU_WAKE_TIMER, 1)] (setPwr { runS.pwr with entering := some 2 } runS)
theorem test_witness_aborted_entry : enteringS.pwr.entering = some 2 ∧ Reaches .host P.PMU enteringS ∧
    rd P.PMU R.PMU_REFUSAL_LOG (after (.wakeNow .host) enteringS) = 0xA000FF04 ∧
    entering (after (.wakePin 0) enteringS) = false := by decide +kernel

/-! ## Clauses met at their boundaries -/

theorem test_witness_mailbox_refusals :
    (let s := modeS .recovery (mbxS .hostHalf 0x102 0)
     bit 1 (rd P.DEV R.DEV_MBX_H_CTL s) = true ∧ stewardAnswers s = true ∧ romOnly s = true ∧ romCommand 0x102 = false ∧
       mbxCode .hostHalf s = 0x102 ∧ mbxArgs .hostHalf s ≤ 15) ∧
    (let s := regs [(P.DEV, R.DEV_MBX_H_REQ, 0x20010), (P.DEV, R.DEV_MBX_H_CTL, 2)] runS
     stewardAnswers s = true ∧ mbxArgs .hostHalf s = 16) ∧
    sectorCode (mbxReq .hostHalf 1 (mbxS .hostHalf 0x201 0x88)).toNat = false ∧
    mbxArgs .fabricHalf (mbxS .fabricHalf 0x999 0) = 1 := by decide +kernel
theorem test_mailbox_refuses : rd P.DEV R.DEV_MBX_H_RSP (after (.mbxResponse .hostHalf)
    (regs [(P.DEV, R.DEV_MBX_H_REQ, 0x20010), (P.DEV, R.DEV_MBX_H_CTL, 2)] runS)) = 0x31000000 := by decide +kernel

theorem test_witness_lock_at_wake : let s := setDev { releaseS.dev with loadKind := .wakeSleep } releaseS
    s.dev.mode = .release ∧ s.dev.rerun = false ∧ s.pwr.hare = true := by decide +kernel

/-- A stream to the staging planes that the Fox service is receiving: HEAD, route word, offset and no image word yet. -/
def wordsS (n : Nat) : State :=
  setFox { runS.fox with buffer := List.replicate n 0 } (buffered (.svcDown 2) [tw .data 9]
    (gathered (.svcDown 2) [headWord 0x21 0 3, tw .data 0x40000000, tw .data 0x10000] runS))
theorem test_witness_stream_words : foxIn none = .svcDown 2 ∧ dmaRuns (wordsS 0) = true ∧
    streamOpen (chan (.svcDown 2) (wordsS 0)).gathered = true ∧ (0 : Nat) < fld 11 0 (headWord 0x21 0 3).data - 1 ∧
    (wordsS 1024).fox.buffer.length = 1024 ∧
    (let u := pageWrite (foxRequester none ⟨(headWord 0x21 0 3).data, 0x40000000, [tw .data 0x10000], 0⟩) P.FOX R.FOX_STREAM_DATA 9
       (takeOne (.svcDown 2) (tw .data 9) (wordsS 0))
     (chan (.svcDown 2) u).buffer = [] ∧ sinkMsg (.svcDown 2) u = none) := by decide +kernel
theorem test_witness_program_waits : let s := setFox { runS.fox with programs := [(511, [])], erasing := [511] } runS
    programming 511 s = true ∧ programming 510 s = false ∧ s.fox.erasing.contains 511 = true := by decide +kernel
theorem test_witness_load_records (hk : Config.keyFused 0 = true)
    (h : ∀ r : Fin 64, (imgTag (fenceLo r.val) (fenceHi r.val)).length = 4) : let ws := area (areaOf 2 0 63) foxS
    recordsFault true (maskOf [63]) none (recordsOf (plainWords ws)) = none ∧
      planesFault [63] (planeFrom 2 63 ws foxS foxS.planes.staging) = none := by
  have h1 : recordsOf (plainWords (imageOf 63)) = [] := by rw [show plainWords (imageOf 63) = [] from (image_header 63 hk (h 63)).2.2]; rfl
  have h2 : planeFrom 2 63 (imageOf 63) foxS foxS.planes.staging = [] := by unfold planeFrom; rw [h1]; rfl
  refine ⟨?_, ?_⟩
  · rw [show area (areaOf 2 0 63) foxS = imageOf 63 from fox_area 63, h1]; simp [recordsFault]
  · rw [show area (areaOf 2 0 63) foxS = imageOf 63 from fox_area 63, h2]; exact empty_planes_good 63

/-- Bank 3 with an operation in progress, or suspended on page 254 of sector 127. -/
def busyS : State := opS 3 { FlashBank.idle with op := some (opOf Cdf.PROGRAM 127) }
def heldOpS : State := opS 3 { FlashBank.idle with suspended := some (opOf Cdf.PROGRAM 127) }
theorem test_witness_reads_while_busy : readBusy .host 3 127 255 busyS = true ∧ readBusy .host 3 127 255 heldOpS = false ∧
    readBusy .host 3 127 254 heldOpS = true ∧ readBusy .steward 3 127 255 runS = false ∧
    flashReadable .host 0xFFFFFC 4 = true ∧ flashReadable .host 0xFFFFFC 8 = true ∧ flashReadable .steward 0xFFFFF8 8 = false ∧
    flashReadable .host 0xFFFFFD 2 = false := by decide +kernel
theorem test_witness_suspend_steps : let o := opOf Cdf.PROGRAM 127
    (fbank 3 (opS 3 { FlashBank.idle with op := some { o with pendingSuspend := true } })).op.any (·.pendingSuspend) = true ∧
    (fbank 3 (opS 3 { FlashBank.idle with op := some { o with suspending := true } })).op.any (·.suspending) = true := by
  decide +kernel

/-- An intake that forwards on a ring, with two chunks held and n words in the buffer. -/
def fullS (n : Nat) : State :=
  let s := regs [(P.UPD, R.UPD_STAT, 1), (P.UPD, R.UPD_BUNDLE_STAT, 0x80000000)] (onRing 1 runS)
  setUpd { s.upd with buffers := [(0, [1]), (1, [2])], buffer := List.replicate n 0 } s
theorem test_witness_intake_waits : Reaches .host P.UPD (fullS 0) ∧ intakeFrom .host (fullS 0) = true ∧
    intakeWaits (fullS 0) = true ∧ intakeWaits (intakeS [] [0]) = false ∧ (fullS 1024).upd.buffer.length = 1024 ∧
    intakeFrom .host (fullS 1024) = true := by decide +kernel
theorem test_intake_buffer : (after (.bundleData .host 7) (fullS 1023)).upd.buffer.length = 1024 ∧
    (after (.bundleData .host 7) (fullS 1024)).upd.heldWords = [7] := by decide +kernel
theorem test_witness_chunk_in_a_body : intakeFrom .host (intakeS (bundleOf 1) [0]) = true ∧ (bundleOf 1) ≠ [] ∧
    intakeWaits (intakeS (bundleOf 1) [0]) = false := by decide +kernel
theorem test_witness_ring_buffers_full : let s := setUpd { chunkS.upd with buffers := [(0, [1]), (1, [2])] } chunkS
    MailboxAsks .hostHalf 0x106 s ∧ 2 ≤ s.upd.buffers.length := by decide +kernel
theorem test_witness_entry_in_activate : let s := setPwr { runS.pwr with entering := some 2 } (askS 0x102 0 0 (updS 3 verified))
    MailboxAsks .hostHalf 0x102 s ∧ entering s = true := by decide +kernel
theorem test_witness_begin_in_recovery : let s := modeS .recovery (askS 0x101 0 0 (updS 0 id))
    MailboxAsks .hostHalf 0x101 s ∧ beginRefused s = false ∧ s.dev.mode = .recovery := by decide +kernel

theorem test_witness_ring_opens : let s := setRing { runS.ring with outUp := true } (downS true)
    ringServed s = true ∧ s.ring.inUp = false ∧ s.ring.outUp = true ∧ ringLeader s = true ∧ s.ring.syncs = [] := by decide +kernel
theorem test_ring_opens : (after (.segmentUp false 15) (setRing { runS.ring with outUp := true } (downS true))).ring.chars = [(6, 1)] := by
  decide +kernel
theorem test_witness_ring_message_lost : (ringServed (downS false) = true ∧ (downS false).ring.inUp = false) ∧
    (ringServed (modeS .sleep (downS false)) = false ∧ wakeEnabled 0 (modeS .sleep (regs [(P.PMU, R.PMU_WAKE_EN, 0)] (downS false))) = false) ∧
    (ringServed (modeS .hold runS) = false ∧ (modeS .hold runS).dev.mode ≠ .sleep) := by decide +kernel
theorem test_witness_sync_sent : let s := onRing 1 runS
    s.dev.mode = .run ∧ s.dev.sampled = true ∧ s.ring.outUp = true ∧ (chan .ringOut s).sendq = [] ∧ s.ring.syncs = [] ∧
    (let t := onRing 2 runS
     ownNode t ≠ 0 ∧ (chan .ringOut t).sendq = [] ∧ t.ring.syncs = [] ∧ t.ring.outUp = true ∧ t.ring.echoes = []) := by decide +kernel
theorem test_witness_corrected_mode : Reaches .host P.TIME (regs [(P.TIME, R.TIME_CTL, 1)] runS) ∧
    bit 0 (rd P.TIME R.TIME_CTL (regs [(P.TIME, R.TIME_CTL, 1)] runS)) = true ∧
    bit 0 (rd P.TIME R.TIME_CTL (regs [(P.TIME, R.TIME_CTL, 0)] runS)) = false := by decide +kernel
theorem test_witness_capture_before_its_time : (snapS false).time.captureDone = false ∧ (0 : BitVec 64) ≤ (snapS false).time.ringTime ∧
    pageOff P.XB (snapS false) = false := by decide +kernel

theorem test_witness_probe_taken : let s := regs [(P.OWL, R.OWL_PORT_SEL, 0x80000000), (P.OWL, R.OWL_PORT_PIN, 0xB23),
      (P.OWL, R.OWL_PORT_PIN + 24, 0xB23)] runS
    Reaches .host P.OWL s ∧ owlTaken 3 (owlPin 3 s) s = true ∧ bit 31 (0x80000000 : Word) = true ∧
      rd P.OWL (R.OWL_PORT_SEL + 24) (after (.owlPortWrite .host 3 false 0x80000000) s) = 0 := by decide +kernel
theorem test_witness_qspi_reads : (qspiS 0).io.qspi = [] ∧ hostReading (qspiS 0) = false ∧ (qspiS 0).io.hostWait = [] ∧
    (qspiS 0).dev.mode ≠ .scan ∧ fld 30 0 (0x3FFFFFC : Word) < 0x4000000 := by decide +kernel

/-- A state in which a millisecond of the watchdog ends. -/
def watchS (ns : Nat) : State :=
  setDev { runS.dev with wdtNs := ns } (regs [(P.RST, R.RST_CTL, 2), (P.RST, R.RST_WDT_STAT, 5)] runS)
theorem test_witness_watchdog_tick : (watchS 999999).pending = [] ∧ (watchS 999999).time.slew = 0 ∧
    rd P.TIME R.TIME_RATE (watchS 999999) = 0 ∧ (watchS 999999).io.qspi = [] ∧ entering (watchS 999999) = false ∧
    bit 1 (rd P.RST R.RST_CTL (watchS 999999)) = true ∧ rdf P.RST R.RST_WDT_STAT 15 0 (watchS 999999) = 5 ∧
    bit 1 (rd P.RST R.RST_CTL runS) = false := by decide +kernel
theorem test_watchdog_tick : (match step (watchS 999999) with
    | .next t => rdf P.RST R.RST_WDT_STAT 15 0 t
    | _ => 0) = 4 := by decide +kernel
theorem test_witness_resets_in_start_up : let s := modeS .selftest (onRing 2 (regs [(P.RST, R.RST_CTL, 2)] runS))
    s.dev.mode = .selftest ∧ Reaches .host P.DEV s ∧ bit 1 (rd P.RST R.RST_CTL s) = true ∧
    (let t := modeS .release (onRing 2 runS)
     ringServed t = true ∧ t.ring.inUp = true ∧ ownNode t = 2) := by decide +kernel
/-- An entry of BEAR in progress, with every wake enabled. -/
def entryS : State :=
  setPwr { runS.pwr with entering := some 3 } (regs [(P.PMU, R.PMU_WAKE_EN, 0xF), (P.PMU, R.PMU_WAKE_TIMER, 1)] runS)
theorem test_witness_entry_aborted : let s := entryS
    s.dev.mode = .run ∧ s.pwr.entering = some 3 ∧ Reaches .host P.PMU s ∧ bit 3 (rd P.PMU R.PMU_WAKE_EN s) = true ∧
      rd P.PMU (R.PMU_REFUSAL_LOG) (after (.wakePin 0) s) = 0xE000FF02 := by decide +kernel
theorem test_witness_region_changes : (let s := setPwr { runS.pwr with region := some (63, true) } runS
     Reaches .host P.PMU s ∧ s.pwr.region.isSome = true ∧ regionOn 63 s = true) ∧ Reaches .host P.PMU runS ∧
    entering runS = false ∧ locked 63 runS = false ∧ loading 63 runS = false ∧
    (rgn 63 (after .regionPowerDone (setPwr { runS.pwr with region := some (63, true) } runS))).gsr = false := by decide +kernel
theorem test_witness_slice_released : cellWanted 16383 (setRgn 63 Rgn.blank (sliceS 1 16383 .test false)) = true ∧
    (sliceS 0 1023 .evacuate false).wpk.bg.map (fun b => (b.cls, b.phase)) = some (0, .evacuate) := by decide +kernel

end Sys2Proof.Tests
end

/-! PROOFS. Resets while the device starts up, and wakes during a sleep entry (01_levels_and_islands.md, R26, R28).
First what the shared operations leave in place, then the refused or aborted entry, then the passage of a ring-level
broadcast, then the obligation. -/

namespace Sys2Proof.Machine

open Sys2Proof

/-! ## Interrupts and errors change the register store and the message port alone (R57, R61) -/

/-- t is s but for its registers and its I/O port. -/
def RegsIoOnly (s t : State) : Prop := t = { s with regs := t.regs, io := t.io }

theorem RegsIoOnly.rfl {s : State} : RegsIoOnly s s := by simp [RegsIoOnly]

theorem RegsIoOnly.trans {s t u : State} (h : RegsIoOnly s t) (k : RegsIoOnly t u) : RegsIoOnly s u := by
  unfold RegsIoOnly at *
  rw [k, h]

theorem RegsIoOnly.dev {s t : State} (h : RegsIoOnly s t) : t.dev = s.dev := by rw [h]

theorem RegsIoOnly.pwr {s t : State} (h : RegsIoOnly s t) : t.pwr = s.pwr := by rw [h]

theorem regsIoOnly_wr (p off : Nat) (v : Word) (s : State) : RegsIoOnly s (wr p off v s) := by
  simp [RegsIoOnly, wr, setRegs]

theorem regsIoOnly_md (p off : Nat) (f : Word → Word) (s : State) : RegsIoOnly s (md p off f s) :=
  regsIoOnly_wr ..

theorem regsIoOnly_countN (p off n : Nat) (s : State) : RegsIoOnly s (countN p off n s) := by
  unfold countN
  split
  · exact .rfl
  · exact regsIoOnly_md ..

/-- What a message request does: nothing, a bit of the pending array, or a message sent. -/
theorem msixSend_cases (v : Nat) (s : State) :
    msixSend v s = s ∨ msixSend v s = setArr P.PCIE R.PCIE_MSIX_PBA v true s ∨ ∃ x, msixSend v s = setIo x s := by
  unfold msixSend
  split
  · exact .inl rfl
  · split
    · exact .inr (.inl rfl)
    · exact .inr (.inr ⟨_, rfl⟩)

/-- What an interrupt does: its bit of IRQ_PEND sets, and a message may be requested. -/
theorem irq_cases (p b : Nat) (s : State) :
    irq p b s = md p R.IRQ_PEND (setBit b true) s ∨
      ∃ v, irq p b s = msixSend v (md p R.IRQ_PEND (setBit b true) s) := by
  simp only [irq, irqChange]
  split
  · exact .inl rfl
  · split
    · exact .inr ⟨_, rfl⟩
    · exact .inl rfl

theorem regsIoOnly_msixSend (v : Nat) (s : State) : RegsIoOnly s (msixSend v s) := by
  obtain h | h | ⟨x, h⟩ := msixSend_cases v s
  · rw [h]; exact .rfl
  · rw [h]; exact regsIoOnly_md ..
  · rw [h]; simp [RegsIoOnly, setIo]

theorem regsIoOnly_irq (p b : Nat) (s : State) : RegsIoOnly s (irq p b s) := by
  obtain h | ⟨v, h⟩ := irq_cases p b s
  · rw [h]; exact regsIoOnly_md ..
  · rw [h]; exact (regsIoOnly_md ..).trans (regsIoOnly_msixSend ..)

theorem regsIoOnly_err (p code detail addr : Nat) (s : State) : RegsIoOnly s (err p code detail addr s) := by
  unfold err errTransient
  dsimp only
  split
  · exact regsIoOnly_md ..
  · exact (regsIoOnly_md ..).trans <| (regsIoOnly_wr ..).trans <| (regsIoOnly_wr ..).trans <|
      (regsIoOnly_wr ..).trans (regsIoOnly_irq ..)

/-! ## Registers that interrupts, errors and counters leave -/

theorem rd_countN_other {p off q o : Nat} (h : rkey q o ≠ rkey p off) (n : Nat) (s : State) :
    rd q o (countN p off n s) = rd q o s := by
  unfold countN
  split
  · rfl
  · exact rd_md_other h _ s

/-- A counter's value depends on the registers alone. -/
theorem rd_countN_of_regs {s t : State} (h : t.regs = s.regs) (p off n q o : Nat) :
    rd q o (countN p off n t) = rd q o (countN p off n s) := by
  have hfrozen : frozen p t = frozen p s := by simp [frozen, rd_of_regs h]
  unfold countN
  rw [hfrozen]
  split
  · exact rd_of_regs h q o
  · exact rd_of_regs (by simp [md, wr, rd, h]) q o

/-- A message request writes no register of a page below the host port's. -/
theorem rd_msixSend_below {q o : Nat} (h : rkey q o < rkey P.PCIE 0) (v : Nat) (s : State) :
    rd q o (msixSend v s) = rd q o s := by
  obtain e | e | ⟨x, e⟩ := msixSend_cases v s
  · rw [e]
  · rw [e]
    refine rd_md_other ?_ _ s
    simp only [rkey] at h ⊢
    omega
  · rw [e]; exact rd_of_regs rfl q o

theorem rd_irq_other {p q o : Nat} (h : rkey q o < rkey P.PCIE 0) (hp : rkey q o ≠ rkey p R.IRQ_PEND) (b : Nat)
    (s : State) : rd q o (irq p b s) = rd q o s := by
  obtain e | ⟨v, e⟩ := irq_cases p b s
  · rw [e, rd_md_other hp]
  · rw [e, rd_msixSend_below h, rd_md_other hp]

/-- An error changes only the first words of its page: its status, its error records and its interrupts. -/
theorem rd_err_above {p o : Nat} (h : rkey p o < rkey P.PCIE 0) (ho : 0x24 ≤ o) (code detail addr : Nat) (s : State) :
    rd p o (err p code detail addr s) = rd p o s := by
  have hk {o' : Nat} (h' : o' < 0x24) : rkey p o ≠ rkey p o' := rkey_off (by omega)
  unfold err errTransient
  dsimp only
  split
  · exact rd_md_other (hk (by decide)) _ s
  · rw [rd_irq_other h (hk (by decide)), rd_wr_other (hk (by decide)), rd_wr_other (hk (by decide)),
      rd_wr_other (hk (by decide)), rd_md_other (hk (by decide))]

/-! ## A sleep entry that a wake ends (R26, R357, R359) -/

theorem regsIoOnly_entryEnded (state : Nat) (aborted : Bool) (refuser : Nat) (s : State) :
    RegsIoOnly s (entryEnded state aborted refuser s) :=
  (regsIoOnly_countN ..).trans <| (regsIoOnly_wr ..).trans <| (regsIoOnly_wr ..).trans <| (regsIoOnly_wr ..).trans <|
    (regsIoOnly_err ..).trans (regsIoOnly_irq ..)

/-- The end of an entry writes PMU's counter, refusal log, its pointer and ENTER_STAT; of the other registers above
the page's common ones it writes none. -/
theorem rd_entryEnded (state : Nat) (aborted : Bool) (refuser : Nat) (s : State) {o : Nat} (hlo : 0x24 ≤ o)
    (hhi : o < 0x1000) (hptr : o / 4 ≠ 0xFC / 4) (hstat : o / 4 ≠ 0x74 / 4) :
    rd P.PMU o (entryEnded state aborted refuser s) =
      rd P.PMU o (wr P.PMU (R.PMU_REFUSAL_LOG + 4 * fld 3 0 (rd P.PMU R.PMU_REFUSAL_PTR s))
        (W (state * 2 ^ 30 + b2n aborted * 2 ^ 29 + refuser))
        (count P.PMU (if aborted then R.PMU_ENTRY_ABORTED else R.PMU_ENTRY_REFUSED) s)) := by
  have hpage : rkey P.PMU o < rkey P.PCIE 0 := by simp only [rkey, P.PMU, P.PCIE]; omega
  have hpend : rkey P.PMU o ≠ rkey P.PMU R.IRQ_PEND := rkey_off (by rw [R.IRQ_PEND]; omega)
  unfold entryEnded
  dsimp only
  rw [rd_irq_other hpage hpend, rd_err_above hpage hlo, rd_wr_other (rkey_off hstat), rd_wr_other (rkey_off hptr)]

theorem fld_lt (hi lo : Nat) (w : Word) : fld hi lo w < 2 ^ (hi + 1 - lo) := Nat.mod_lt _ (by positivity)

/-- The entry of the refusal log that the end of an entry leaves at the old pointer. -/
theorem rd_entryEnded_log (state : Nat) (aborted : Bool) (refuser : Nat) (s : State) :
    rd P.PMU (R.PMU_REFUSAL_LOG + 4 * fld 3 0 (rd P.PMU R.PMU_REFUSAL_PTR s)) (entryEnded state aborted refuser s) =
      W (state * 2 ^ 30 + b2n aborted * 2 ^ 29 + refuser) := by
  have hn : fld 3 0 (rd P.PMU R.PMU_REFUSAL_PTR s) < 16 := fld_lt 3 0 _
  have hlog : R.PMU_REFUSAL_LOG = 0x100 := rfl
  rw [rd_entryEnded _ _ _ _ (by omega) (by omega) (by omega) (by omega), rd_wr_same]

theorem rd_entryEnded_counter (state refuser : Nat) (s : State) :
    rd P.PMU R.PMU_ENTRY_ABORTED (entryEnded state true refuser s) =
      rd P.PMU R.PMU_ENTRY_ABORTED (count P.PMU R.PMU_ENTRY_ABORTED s) := by
  rw [rd_entryEnded _ _ _ _ (by decide) (by decide) (by decide) (by decide), if_pos rfl]
  refine rd_wr_other (rkey_off ?_) _ _
  rw [R.PMU_ENTRY_ABORTED, R.PMU_REFUSAL_LOG]
  omega

/-- In RUN, the wake of a source has ended the entry to state st: counted, and the source logged as its refuser. -/
structure EntryAborted (st source : Nat) (s t : State) : Prop where
  ended : entering t = false
  mode : t.dev.mode = .run
  counted : rd P.PMU R.PMU_ENTRY_ABORTED t = rd P.PMU R.PMU_ENTRY_ABORTED (count P.PMU R.PMU_ENTRY_ABORTED s)
  logged : rd P.PMU (R.PMU_REFUSAL_LOG + 4 * fld 3 0 (rd P.PMU R.PMU_REFUSAL_PTR s)) t =
    W (st * 2 ^ 30 + 2 ^ 29 + 0xFF00 + source)

/-- The entry leaves the power state, and its end is recorded, in a state u with the registers and mode of s. -/
theorem entryAborted_entryEnded {s u : State} (hregs : u.regs = s.regs) (hdev : u.dev = s.dev)
    (hm : s.dev.mode = .run) (st source : Nat) : EntryAborted st source s
      (entryEnded st true (0xFF00 + source) (setPwr { u.pwr with entering := none } u)) where
  ended := by simp [entering, (regsIoOnly_entryEnded ..).pwr]
  mode := by rw [(regsIoOnly_entryEnded ..).dev, setPwr_dev, hdev, hm]
  counted := by rw [rd_entryEnded_counter]; exact rd_countN_of_regs ((setPwr_regs ..).trans hregs) ..
  logged := by
    have hptr := rd_of_regs (s := s) (t := setPwr { u.pwr with entering := none } u) hregs P.PMU R.PMU_REFUSAL_PTR
    rw [← hptr, rd_entryEnded_log]
    exact congrArg W (by rw [b2n, if_pos rfl]; omega)

/-- In RUN a wake during an entry ends it, whether its duration is given or drawn. -/
theorem entryAborted_wakeUp {s : State} {st : Nat} (hm : s.dev.mode = .run) (he : s.pwr.entering = some st)
    (source reason : Nat) (tally : Option Nat) : EntryAborted st source s (wakeUp source reason tally s) := by
  cases tally with
  | some n =>
    have h : wakeUp source reason (some n) s =
        entryEnded st true (0xFF00 + source) (setPwr { s.pwr with entering := none } s) := by
      simp [wakeUp, hm, he]
    rw [h]
    exact entryAborted_entryEnded (u := s) rfl rfl hm st source
  | none =>
    have h : wakeUp source reason none s =
        entryEnded st true (0xFF00 + source) (setPwr { (drawn s).pwr with entering := none } (drawn s)) := by
      simp [wakeUp, drawn, hm, he]
    rw [h]
    exact entryAborted_entryEnded (u := drawn s) (setFree_regs ..) (setFree_dev ..) hm st source

/-! ## A ring-level broadcast passes the node (R393, R395) -/

theorem fld_W (hi lo n : Nat) : fld hi lo (W n) = n % 2 ^ 32 / 2 ^ lo % 2 ^ (hi + 1 - lo) := by
  simp [fld, W, Nat.shiftRight_eq_div_pow]

theorem parGood_tw (t : Tag) (d : Word) : parGood (tw t d) = true := by simp [parGood, tw]

/-- A list is cut at its first word tagged LAST. -/
theorem splitLast_append {l : List TWord} (hl : ∀ w ∈ l, w.tag ≠ .last) {t : TWord} (ht : t.tag = .last)
    (rest : List TWord) : splitLast (l ++ t :: rest) = some (l, t, rest) := by
  induction l with
  | nil => simp [splitLast, ht]
  | cons w l ih =>
    obtain ⟨hw, hl⟩ := List.forall_mem_cons.1 hl
    simp [splitLast, hw, ih hl]

/-- The message that levelWords sends. -/
def levelMsg (origin cls svc : Nat) (ws : List Word) : Msg where
  head := (headWord cls origin ws.length).data
  route := W (0xBFF00000 + svc)
  payload := ws.map (tw .data)
  status := 0

theorem levelWords_eq (origin cls svc : Nat) (ws : List Word) : levelWords origin cls svc ws =
    [tw .head (levelMsg origin cls svc ws).head, tw .data (levelMsg origin cls svc ws).route] ++
      (levelMsg origin cls svc ws).payload ++ [trailer (levelMsg origin cls svc ws).status] := by
  simp [levelWords, message, levelMsg, headWord, tw]

theorem firstMsg_levelWords (origin cls svc : Nat) (ws : List Word) :
    firstMsg (levelWords origin cls svc ws) = some (levelMsg origin cls svc ws, []) := by
  have hcut := splitLast_append (t := trailer 0) (rest := [])
    (l := [tw .head (levelMsg origin cls svc ws).head, tw .data (levelMsg origin cls svc ws).route] ++
      (levelMsg origin cls svc ws).payload) (by simp [levelMsg, tw]) rfl
  have hstatus : fld 31 24 (trailer 0).data = 0 := by decide
  rw [levelWords_eq, show (levelMsg origin cls svc ws).status = 0 from rfl, firstMsg, hcut]
  simp [hstatus, levelMsg, tw]

theorem levelWords_parGood (origin cls svc : Nat) (ws : List Word) :
    ∀ w ∈ levelWords origin cls svc ws, parGood w = true := by
  simp [levelWords, message, headWord, trailer, or_imp, forall_and, parGood_tw]

/-- A word with good parity is the one that a fresh parity gives. -/
theorem tw_of_parGood {w : TWord} (h : parGood w = true) : tw w.tag w.data = w := by
  have hp : w.par = parOf w.tag w.data := by simpa [parGood] using h
  simp [tw, ← hp]

/-- A ring-level message that arrives over a segment that is up is counted and handled. -/
theorem levelArrives_eq {s : State} (hserved : ringServed s = true) (hin : s.ring.inUp = true)
    (origin cls svc : Nat) (ws : List Word) : levelArrives origin cls svc ws s =
      ringHandle ⟨origin, 3, svc⟩ (levelMsg origin cls svc ws) (ringCounted (ws.length + 3) s) := by
  have hgood := levelWords_parGood origin cls svc ws
  have hfresh : (levelWords origin cls svc ws).map (fun w => tw w.tag w.data) = levelWords origin cls svc ws :=
    (List.map_congr_left fun w hw => tw_of_parGood (hgood w hw)).trans (List.map_id _)
  have hhead : (levelWords origin cls svc ws).dropWhile (fun w => w.tag != .head) = levelWords origin cls svc ws := by
    simp [levelWords, message, headWord, tw]
  have hbad : (levelWords origin cls svc ws).filter (fun w => !parGood w) = [] := by
    simpa [List.filter_eq_nil_iff] using hgood
  have hlen : (levelWords origin cls svc ws).length = ws.length + 3 := by simp [levelWords, message]
  have hstatus : (levelMsg origin cls svc ws).status ≠ E.UNTERMINATED := Nat.zero_ne_add_one _
  simp [levelArrives, ringArrive, ringCounted, hserved, hin, hfresh, hhead, hbad, hlen, firstMsg_levelWords, hstatus]

@[simp] theorem ringCounted_dev (n : Nat) (s : State) : (ringCounted n s).dev = s.dev :=
  ((regsIoOnly_countN ..).trans (regsIoOnly_countN ..)).dev

@[simp] theorem ownNode_ringCounted (n : Nat) (s : State) : ownNode (ringCounted n s) = ownNode s := by
  simp only [ownNode, rdf, ringCounted]
  rw [rd_countN_other (by decide), rd_countN_other (by decide)]

/-- A ring-level broadcast of another node is taken here and goes on with the payload that its copy leaves. -/
theorem ringHandle_broadcast {o : RingOrigin} {m : Msg} {s : State} (hown : ownNode s ≠ 0) (ho : o.node ≠ ownNode s)
    (hall : fld 29 22 m.route = 255) (hcls : ringLevelClass m.cls = true) : ringHandle o m s =
      ringForward o.char ([tw .head m.head, tw .data m.route] ++ (levelAt o m s).1 ++ [trailer m.status])
        (levelAt o m s).2 := by
  simp [ringHandle, hown, ho, hall, hcls]

theorem fld_levelMsg_route {svc : Nat} (h : svc < 2 ^ 20) (origin cls : Nat) (ws : List Word) :
    fld 29 22 (levelMsg origin cls svc ws).route = 255 := by
  simp only [levelMsg, fld_W]
  omega

theorem levelMsg_cls {cls : Nat} (h : cls < 256) (origin svc : Nat) (ws : List Word) :
    (levelMsg origin cls svc ws).cls = cls := by
  simp only [Msg.cls, levelMsg, headWord, tw, fld_W]
  omega

theorem levelMsg_len {ws : List Word} (h : ws.length < 4096) (origin cls svc : Nat) :
    (levelMsg origin cls svc ws).len = ws.length := by
  simp only [Msg.len, levelMsg, headWord, tw, fld_W]
  omega

theorem wordsFail_data (ws : List Word) : wordsFail (ws.map (tw .data)) = none := by
  simp [wordsFail, tw]

theorem startingUp_iff {s : State} : startingUp s = true ↔
    s.dev.mode = .hold ∨ s.dev.mode = .load ∨ s.dev.mode = .selftest ∨ s.dev.mode = .release := by
  unfold startingUp
  cases s.dev.mode <;> simp

/-- A RESET that a node starting up takes is an ignored event, and it goes on as it came. -/
theorem levelAt_reset_startingUp {s : State} (hup : startingUp s = true) (o : RingOrigin) (origin svc : Nat)
    (kind : Word) : levelAt o (levelMsg origin 0x51 svc [kind]) s =
      ((levelMsg origin 0x51 svc [kind]).payload, ignored Ev.RING_RESET s) := by
  have hcls := levelMsg_cls (cls := 0x51) (by decide) origin svc [kind]
  have hlen := levelMsg_len (ws := [kind]) (by simp) origin 0x51 svc
  have hstatus : (levelMsg origin 0x51 svc [kind]).status = 0 := rfl
  have hpay : (levelMsg origin 0x51 svc [kind]).payload = [kind].map (tw .data) := rfl
  have hon : s.dev.mode ≠ .off := by
    intro h
    simp [startingUp_iff, h] at hup
  simp only [levelAt, levelCopy, hcls, hlen, hstatus, hpay, wordsFail_data]
  simp [levelLength, levelBits, hup, unlisted, hon]

/-- A RESET broadcast at a node starting up: counted as words, ignored, and forwarded as it came (R28, R395). -/
theorem levelArrives_reset_startingUp {s : State} {origin svc : Nat} (hup : startingUp s = true)
    (hserved : ringServed s = true) (hin : s.ring.inUp = true) (hown : ownNode s ≠ 0) (ho : origin ≠ ownNode s)
    (hsvc : svc < 2 ^ 20) (kind : Word) : levelArrives origin 0x51 svc [kind] s =
      levelForward origin 0x51 svc [kind] (ignored Ev.RING_RESET (ringCounted 4 s)) := by
  have hup' : startingUp (ringCounted 4 s) = true := by simpa [startingUp] using hup
  have hlevel : ringLevelClass (levelMsg origin 0x51 svc [kind]).cls = true := by
    rw [levelMsg_cls (by decide)]
    decide
  rw [levelArrives_eq hserved hin, ringHandle_broadcast (by simpa using hown) (by simpa using ho)
    (fld_levelMsg_route hsvc ..) hlevel, levelForward, levelWords_eq]
  simp only [List.length_singleton, Nat.reduceAdd]
  rw [levelAt_reset_startingUp hup']
  rfl

/-! ## Resets while the device starts up (R28) -/

theorem ignored_dev (src : Nat) (s : State) : (ignored src s).dev = s.dev := (regsIoOnly_md ..).dev

theorem reloadWatchdog_mode (s : State) : (reloadWatchdog s).dev.mode = s.dev.mode := rfl

/-- A host soft reset (2) and a watchdog reset (3) are ignored in LOAD, SELFTEST and RELEASE. -/
theorem deviceReset_startUp {s : State} (h : s.dev.mode = .load ∨ s.dev.mode = .selftest ∨ s.dev.mode = .release) :
    deviceReset 2 s = ignored 2 s ∧ deviceReset 3 s = ignored 3 s := by
  obtain h | h | h := h <;> simp [deviceReset, h]

theorem exec_hostSoftReset_startUp {s : State} {rq : Requester}
    (h : s.dev.mode = .load ∨ s.dev.mode = .selftest ∨ s.dev.mode = .release) (hr : Reaches rq P.DEV s) :
    exec (.hostSoftReset rq) s = .next (ignored 2 s) := by
  change execHostSoftReset rq s = _
  rw [execHostSoftReset, onPage_reaches hr, (deviceReset_startUp h).1]

theorem exec_watchdogExpiry_startUp {s : State}
    (h : s.dev.mode = .load ∨ s.dev.mode = .selftest ∨ s.dev.mode = .release)
    (hen : bit 1 (rd P.RST R.RST_CTL s) = true) : exec .watchdogExpiry s =
      .next (ignored 3 (irq P.RST 0 (reloadWatchdog (md P.RST R.RST_WDT_STAT (satFld 31 16) s)))) := by
  have hmode : (irq P.RST 0 (reloadWatchdog (md P.RST R.RST_WDT_STAT (satFld 31 16) s))).dev.mode = s.dev.mode := by
    rw [(regsIoOnly_irq ..).dev, reloadWatchdog_mode, (regsIoOnly_md ..).dev]
  have hruns : ¬ (s.dev.mode = .off ∨ s.dev.mode = .sleep ∨ s.dev.mode = .bear ∨
      bit 1 (rd P.RST R.RST_CTL s) = false) := by
    obtain h | h | h := h <;> simp [h, hen]
  change execWatchdogExpiry s = _
  rw [execWatchdogExpiry, watchdogExpiry, if_neg hruns, (deviceReset_startUp (by rwa [hmode])).2]

theorem exec_reset_startUp {s : State} (h : s.dev.mode = .load ∨ s.dev.mode = .selftest ∨ s.dev.mode = .release)
    {origin : Byte} (hserved : ringServed s = true) (hin : s.ring.inUp = true) (hown : ownNode s ≠ 0)
    (ho : origin.toNat ≠ ownNode s) : exec (.reset origin 1) s =
      .next (levelForward origin.toNat 0x51 6 [1] (ignored 4 (ringCounted 4 s))) := by
  have hawake : ¬ (s.dev.mode = .sleep ∨ s.dev.mode = .bear) := by
    obtain h | h | h := h <;> simp [h]
  change execReset origin 1 s = _
  rw [execReset, if_neg hawake,
    levelArrives_reset_startingUp (startingUp_iff.2 (.inr h)) hserved hin hown ho (by decide)]

/-! ## Wakes of each source in RUN (R359) -/

section wakes

variable {s : State} {st : Nat} (hm : s.dev.mode = .run) (he : s.pwr.entering = some st)
include hm he

theorem exec_wakeRing_aborts (why : Byte) (m : Nat) (hen : bit 0 (rd P.PMU R.PMU_WAKE_EN s) = true) :
    ∃ t, exec (.wakeRing why m) s = .next t ∧ EntryAborted st 1 s t := by
  refine ⟨_, ?_, entryAborted_wakeUp hm he 1 why.toNat (some m)⟩
  change execWakeRing why m s = _
  simp [execWakeRing, wakeEnabled, hm, hen]

theorem exec_wakePin_aborts (m : Nat) (hen : bit 1 (rd P.PMU R.PMU_WAKE_EN s) = true) :
    ∃ t, exec (.wakePin m) s = .next t ∧ EntryAborted st 2 s t := by
  refine ⟨_, ?_, entryAborted_wakeUp hm he 2 0 (some m)⟩
  change execWakePin m s = _
  simp [execWakePin, wakeEnabled, hm, hen]

theorem exec_wakeTimer_aborts (m : Nat) (hen : bit 2 (rd P.PMU R.PMU_WAKE_EN s) = true)
    (htimer : rd P.PMU R.PMU_WAKE_TIMER s ≠ 0) :
    ∃ t, exec (.wakeTimer m) s = .next t ∧ EntryAborted st 3 s t := by
  refine ⟨_, ?_, entryAborted_wakeUp hm he 3 0 (some m)⟩
  change execWakeTimer m s = _
  rw [execWakeTimer, if_pos ⟨by simp [hm], hen, htimer⟩]

theorem exec_wakeNow_aborts (hr : Reaches .host P.PMU s) (hen : bit 3 (rd P.PMU R.PMU_WAKE_EN s) = true) :
    ∃ t, exec (.wakeNow .host) s = .next t ∧ EntryAborted st 4 s t := by
  refine ⟨_, ?_, entryAborted_wakeUp hm he 4 0 none⟩
  change execWakeNow .host s = _
  rw [execWakeNow, onPage_reaches hr]
  simp [wakeNowCmd, wakeEnabled, hen]

end wakes

/-- The form in which the obligation says that an entry has been aborted. -/
theorem EntryAborted.stated {st source : Nat} {s : State} {o : Out}
    (h : ∃ t, o = .next t ∧ EntryAborted st source s t) :
    ∃ t, o = .next t ∧ entering t = false ∧ t.dev.mode = .run ∧
      rd P.PMU R.PMU_ENTRY_ABORTED t = rd P.PMU R.PMU_ENTRY_ABORTED (count P.PMU R.PMU_ENTRY_ABORTED s) ∧
      rd P.PMU (R.PMU_REFUSAL_LOG + 4 * fld 3 0 (rd P.PMU R.PMU_REFUSAL_PTR s)) t =
        W (st * 2 ^ 30 + 2 ^ 29 + 0xFF00 + source) := by
  obtain ⟨t, ho, ha⟩ := h
  exact ⟨t, ho, ha.ended, ha.mode, ha.counted, ha.logged⟩

/-- Settles O8: a device reset in a start-up mode is an ignored event, and every enabled wake ends the entry in
progress through one shared operation. -/
theorem resetsDuringStartUpAndWakesDuringAnEntry : Obligations.ResetsDuringStartUpAndWakesDuringAnEntry := by
  unfold Obligations.ResetsDuringStartUpAndWakesDuringAnEntry
  intro s
  refine ⟨fun h => ⟨?_, ?_, ?_, ?_⟩, fun st hm he _ => ⟨?_, ?_, ?_, ?_⟩⟩
  · exact fun rq hr => exec_hostSoftReset_startUp h hr
  · exact fun hen => exec_watchdogExpiry_startUp h hen
  · exact fun origin hserved hin hown ho => exec_reset_startUp h hserved hin hown ho
  · exact fun src u => ignored_dev src u
  · exact fun why m hen => EntryAborted.stated (exec_wakeRing_aborts hm he why m hen)
  · exact fun m hen => EntryAborted.stated (exec_wakePin_aborts hm he m hen)
  · exact fun m hen htimer => EntryAborted.stated (exec_wakeTimer_aborts hm he m hen htimer)
  · rintro rq hr rfl hen
    exact EntryAborted.stated (exec_wakeNow_aborts hm he hr hen)

end Sys2Proof.Machine

/-! PROOFS. Host doorbells (09_task_scheduler.md, R205). First one rule per case of a doorbell write, then the
obligation: it fails where PAGE_CTL.FREEZE holds the counters of SCH0 (03_register_pages.md, Table 3.2c), and holds
everywhere else. -/

namespace Sys2Proof.Machine

open Sys2Proof

/-! ## What the shared operations leave to the scheduler -/

theorem RegsIoOnly.sched {s t : State} (h : RegsIoOnly s t) : t.sched = s.sched := by rw [h]

theorem sched_wr (p off : Nat) (v : Word) (s : State) : (wr p off v s).sched = s.sched := (regsIoOnly_wr ..).sched

theorem queue_of_sched {s t : State} (h : t.sched = s.sched) (q : Nat) : queue q t = queue q s := by
  simp only [queue, h]

theorem queue_setQueue_same (q : Nat) (l : List QEntry) (s : State) : queue q (setQueue q l s) = l :=
  tget_tput_same ..

theorem queue_setQueue_other {q r : Nat} (h : r ≠ q) (l : List QEntry) (s : State) :
    queue r (setQueue q l s) = queue r s := tget_tput_other _ _ h ..

/-- A post changes no queue but by its new entry: what follows it is the peak fill, a register. -/
theorem queue_pushEvent (q index : Nat) (word : Word) (n : Nat) (s : State) (r : Nat) :
    queue r (pushEvent q index word n s) = queue r (setQueue q (queue q s ++ [⟨index, word, n⟩]) s) :=
  queue_of_sched (sched_wr ..) r

theorem bit_five_setBit (w : Word) : bit 5 (setBit 5 true w) = true := by
  simp [bit, setBit, setFld, b2n]

/-- A message request leaves the interrupts of SCH0, so its own bit of IRQ_PEND stays set. -/
theorem irqPend_irq_sch0 (s : State) : bit 5 (rd P.SCH0 R.IRQ_PEND (irq P.SCH0 5 s)) = true := by
  obtain h | ⟨v, h⟩ := irq_cases P.SCH0 5 s
  · rw [h, rd_md_same, bit_five_setBit]
  · rw [h, rd_msixSend_below (by decide), rd_md_same, bit_five_setBit]

theorem doorbellDrops_irq (s : State) :
    rd P.SCH0 R.SCH0_DOORBELL_DROPS (irq P.SCH0 5 s) = rd P.SCH0 R.SCH0_DOORBELL_DROPS s :=
  rd_irq_other (by decide) (by decide) 5 s

/-- PAGE_CTL.FREEZE holds a counter of its page at its value (Table 3.2c). -/
theorem count_frozen {p : Nat} {s : State} (h : frozen p s = true) (off : Nat) : count p off s = s := by
  rw [count, countN, if_pos h]

theorem rd_count_running {p : Nat} {s : State} (h : frozen p s = false) (off : Nat) :
    rd p off (count p off s) = satAdd (rd p off s) 1 := by
  rw [count, countN, if_neg (by simp [h]), rd_md_same]

theorem satAdd_zero_one_ne_zero : satAdd 0 1 ≠ 0 := by decide

/-! ## The cases of a doorbell write (R205) -/

theorem pageRead_doorbellCredits {rq : Requester} {s : State} (hr : Reaches rq P.SCH0 s) :
    pageRead rq P.SCH0 R.SCH0_DOORBELL_CREDITS s = deliverReg rq (W (64 - (queue 16 s).length)) s := by
  have hkind : pageKind P.SCH0 = some .sch0 := by decide
  obtain ⟨r, hrow, hrc⟩ : ∃ r, regRow P.SCH0 R.SCH0_DOORBELL_CREDITS = some r ∧ r.rc = 0 := ⟨_, rfl, rfl⟩
  have hown : ¬ R.SCH0_DOORBELL_CREDITS < 0x40 := by decide
  have hvalue : regValue rq P.SCH0 R.SCH0_DOORBELL_CREDITS s = W (64 - (queue 16 s).length) := by
    simp [regValue, hkind, hown, hrow, derived, sch0Derived]
  have hclear : clearRc P.SCH0 R.SCH0_DOORBELL_CREDITS s = s := by simp [clearRc, hrow, hrc]
  have hread : regRead rq P.SCH0 R.SCH0_DOORBELL_CREDITS s = deliverReg rq (W (64 - (queue 16 s).length)) s := by
    simp [regRead, hkind, wideLow, hvalue, hclear]
  obtain ⟨hattached, hscan, -⟩ := id hr
  simp only [pageRead, hkind, onPageRead_reaches hr, hread]
  simp [hattached, hscan]

theorem exec_doorbell_other {rq : Requester} {s : State} (hr : Reaches rq P.SCH0 s) (h : rq ≠ .host) (n : Fin 64)
    (v : Word) :
    exec (.doorbell rq n v) s = .next (permFault P.SCH0 (R.SCH0_DOORBELL + 4 * n.val) s) := by
  change execDoorbell rq n v s = _
  rw [execDoorbell, doorbellWrite, onPage_reaches hr, if_pos h]

theorem exec_doorbell_credit {s : State} (hr : Reaches .host P.SCH0 s) (h : (queue 16 s).length < 64) (n : Fin 64)
    (v : Word) :
    exec (.doorbell .host n v) s = .next (pushEvent 16 n.val v 0 s) := by
  change execDoorbell .host n v s = _
  rw [execDoorbell, doorbellWrite, onPage_reaches hr, if_neg (by simp), if_neg (by simpa [queueFull] using h)]

theorem exec_doorbell_noCredit {s : State} (hr : Reaches .host P.SCH0 s) (h : 64 ≤ (queue 16 s).length) (n : Fin 64)
    (v : Word) :
    exec (.doorbell .host n v) s = .next (irq P.SCH0 5 (count P.SCH0 R.SCH0_DOORBELL_DROPS s)) := by
  change execDoorbell .host n v s = _
  rw [execDoorbell, doorbellWrite, onPage_reaches hr, if_neg (by simp), if_pos (by simpa [queueFull] using h)]

/-! ## The credits of the host while the counters of SCH0 run -/

/-- What R205 gives, with the clause on the count confined to the time when FREEZE does not hold it. -/
theorem doorbells_creditBased_unless_frozen {rq : Requester} {s : State} (hr : Reaches rq P.SCH0 s) (n : Fin 64)
    (v : Word) :
    pageRead rq P.SCH0 R.SCH0_DOORBELL_CREDITS s = deliverReg rq (W (64 - (queue 16 s).length)) s ∧
    (rq = .host → (queue 16 s).length < 64 → ∃ t, exec (.doorbell rq n v) s = .next t ∧
      queue 16 t = queue 16 s ++ [⟨n.val, v, 0⟩] ∧ ∀ q, q ≠ 16 → queue q t = queue q s) ∧
    (rq = .host → 64 ≤ (queue 16 s).length → ∃ t, exec (.doorbell rq n v) s = .next t ∧ t.sched = s.sched ∧
      (frozen P.SCH0 s = false →
        rd P.SCH0 R.SCH0_DOORBELL_DROPS t = satAdd (rd P.SCH0 R.SCH0_DOORBELL_DROPS s) 1) ∧
      bit 5 (rd P.SCH0 R.IRQ_PEND t) = true) ∧
    (rq ≠ .host → exec (.doorbell rq n v) s = .next (permFault P.SCH0 (R.SCH0_DOORBELL + 4 * n.val) s) ∧
      (permFault P.SCH0 (R.SCH0_DOORBELL + 4 * n.val) s).sched = s.sched) := by
  refine ⟨pageRead_doorbellCredits hr, ?_, ?_, ?_⟩
  · rintro rfl h
    refine ⟨_, exec_doorbell_credit hr h n v, ?_, fun q hq => ?_⟩
    · rw [queue_pushEvent, queue_setQueue_same]
    · rw [queue_pushEvent, queue_setQueue_other hq]
  · rintro rfl h
    refine ⟨_, exec_doorbell_noCredit hr h n v, ?_, fun hrun => ?_, irqPend_irq_sch0 _⟩
    · exact ((regsIoOnly_countN ..).trans (regsIoOnly_irq ..)).sched
    · rw [doorbellDrops_irq, rd_count_running hrun]
  · exact fun h => ⟨exec_doorbell_other hr h n v, (regsIoOnly_err ..).sched⟩

/-! ## A dropped doorbell that is not counted -/

/-- RUN with every page clocked from HARE. -/
def runningHare : State :=
  { State.reset with dev := { Dev.reset with mode := .run, sampled := true }, pwr := { Pwr.reset with hare := true } }

/-- The host has rung each doorbell once, which takes the 64 credits, and has then set FREEZE beside ENABLE in
SCH0.PAGE_CTL. -/
def frozenWithoutCredit : State :=
  windowWrite .host 0x10008 4 5 ((List.finRange 64).foldl (fun s n => doorbellWrite .host n.val 0 s) runningHare)

theorem frozenWithoutCredit_facts : Reaches .host P.SCH0 frozenWithoutCredit ∧
    (queue 16 frozenWithoutCredit).length = 64 ∧ frozen P.SCH0 frozenWithoutCredit = true ∧
    rd P.SCH0 R.SCH0_DOORBELL_DROPS frozenWithoutCredit = 0 := by decide +kernel

/-- Where the counters of SCH0 are frozen, DOORBELL_DROPS does not count the drop of a doorbell. -/
theorem doorbellDrops_frozen {s : State} (h : frozen P.SCH0 s = true) :
    rd P.SCH0 R.SCH0_DOORBELL_DROPS (irq P.SCH0 5 (count P.SCH0 R.SCH0_DOORBELL_DROPS s)) =
      rd P.SCH0 R.SCH0_DOORBELL_DROPS s := by
  rw [doorbellDrops_irq, count_frozen h]

/-- Refutes O7: the 65th doorbell is dropped while PAGE_CTL.FREEZE holds the counters of SCH0, and DOORBELL_DROPS
stays 0. Where the counters run, the statement holds (doorbells_creditBased_unless_frozen). -/
theorem not_doorbellsAreCreditBased : ¬ Obligations.DoorbellsAreCreditBased := by
  unfold Obligations.DoorbellsAreCreditBased
  intro h
  obtain ⟨hr, hfull, hfrozen, hzero⟩ := frozenWithoutCredit_facts
  obtain ⟨-, -, hdrop, -⟩ := h .host 0 0 frozenWithoutCredit hr
  obtain ⟨t, hexec, -, hcount, -⟩ := hdrop rfl hfull.ge
  have ht := (exec_doorbell_noCredit hr hfull.ge 0 0).symm.trans hexec
  injection ht with ht
  rw [← ht, doorbellDrops_frozen hfrozen, hzero] at hcount
  exact satAdd_zero_one_ne_zero hcount.symm

end Sys2Proof.Machine

/-! PROOFS. What the shared operations on registers leave in place, and what a field of a word reads after a write
(Machine/Table.lean, Machine/Ops.lean). -/

namespace Sys2Proof.Machine

open Sys2Proof

/-! ## Components that the operations on registers leave -/

/-- Every component but the registers and the I/O port is that of s. -/
abbrev SameButRegsIo (s t : State) : Prop :=
  t.pending = s.pending ∧ t.dev = s.dev ∧ t.net = s.net ∧ t.fab = s.fab ∧ t.macs = s.macs ∧ t.logic = s.logic ∧
  t.banks = s.banks ∧ t.sched = s.sched ∧ t.dma = s.dma ∧ t.rgns = s.rgns ∧ t.planes = s.planes ∧ t.fox = s.fox ∧
  t.store = s.store ∧ t.flash = s.flash ∧ t.upd = s.upd ∧ t.pwr = s.pwr ∧ t.wpk = s.wpk ∧ t.ring = s.ring ∧
  t.time = s.time ∧ t.free = s.free

/-- Every component but the registers is that of s. -/
abbrev SameButRegs (s t : State) : Prop := SameButRegsIo s t ∧ t.io = s.io

theorem sameButRegsIo_of_regsIoOnly {s t : State} (h : RegsIoOnly s t) : SameButRegsIo s t := by
  rw [h]
  exact ⟨rfl, rfl, rfl, rfl, rfl, rfl, rfl, rfl, rfl, rfl, rfl, rfl, rfl, rfl, rfl, rfl, rfl, rfl, rfl, rfl⟩

theorem sameButRegs_setRegs (x : SMap Word) (s : State) : SameButRegs s (setRegs x s) :=
  ⟨⟨rfl, rfl, rfl, rfl, rfl, rfl, rfl, rfl, rfl, rfl, rfl, rfl, rfl, rfl, rfl, rfl, rfl, rfl, rfl, rfl⟩, rfl⟩

@[simp] theorem wr_parts (p off : Nat) (v : Word) (s : State) : SameButRegs s (wr p off v s) :=
  sameButRegs_setRegs ..

@[simp] theorem md_parts (p off : Nat) (f : Word → Word) (s : State) : SameButRegs s (md p off f s) :=
  sameButRegs_setRegs ..

@[simp] theorem wrf_parts (p off hi lo v : Nat) (s : State) : SameButRegs s (wrf p off hi lo v s) :=
  sameButRegs_setRegs ..

@[simp] theorem setArr_parts (p off n : Nat) (b : Bool) (s : State) : SameButRegs s (setArr p off n b s) :=
  sameButRegs_setRegs ..

@[simp] theorem wr64_parts (p off : Nat) (v : BitVec 64) (s : State) : SameButRegs s (wr64 p off v s) :=
  sameButRegs_setRegs ..

@[simp] theorem errTransient_parts (p : Nat) (s : State) : SameButRegs s (errTransient p s) :=
  sameButRegs_setRegs ..

@[simp] theorem ignored_parts (src : Nat) (s : State) : SameButRegs s (ignored src s) :=
  sameButRegs_setRegs ..

@[simp] theorem errClearRegs_parts (p : Nat) (s : State) : SameButRegs s (errClearRegs p s) :=
  sameButRegs_setRegs ..

theorem sameButRegs_rfl (s : State) : SameButRegs s s := sameButRegs_setRegs s.regs s

@[simp] theorem countN_parts (p off n : Nat) (s : State) : SameButRegs s (countN p off n s) := by
  unfold countN
  split
  · exact sameButRegs_rfl s
  · exact md_parts ..

@[simp] theorem count_parts (p off : Nat) (s : State) : SameButRegs s (count p off s) := countN_parts ..

@[simp] theorem countF_parts (p off hi lo : Nat) (s : State) : SameButRegs s (countF p off hi lo s) := by
  unfold countF
  split
  · exact sameButRegs_rfl s
  · exact md_parts ..

@[simp] theorem count64_parts (p off n : Nat) (s : State) : SameButRegs s (count64 p off n s) := by
  unfold count64
  split
  · exact sameButRegs_rfl s
  · exact wr64_parts ..

@[simp] theorem msixSend_parts (v : Nat) (s : State) : SameButRegsIo s (msixSend v s) :=
  sameButRegsIo_of_regsIoOnly (regsIoOnly_msixSend ..)

@[simp] theorem irq_parts (p b : Nat) (s : State) : SameButRegsIo s (irq p b s) :=
  sameButRegsIo_of_regsIoOnly (regsIoOnly_irq ..)

@[simp] theorem err_parts (p code detail addr : Nat) (s : State) : SameButRegsIo s (err p code detail addr s) :=
  sameButRegsIo_of_regsIoOnly (regsIoOnly_err ..)

theorem regsIoOnly_foldl {α : Type} {f : State → α → State} (hf : ∀ t x, RegsIoOnly t (f t x)) (l : List α)
    (s : State) : RegsIoOnly s (l.foldl f s) := by
  induction l generalizing s with
  | nil => exact .rfl
  | cons x l ih => exact (hf s x).trans (ih (f s x))

theorem regsIoOnly_irqRise (s t : State) : RegsIoOnly t (irqRise s t) := by
  refine regsIoOnly_foldl (fun u v => ?_) _ _
  split
  · exact regsIoOnly_msixSend ..
  · exact .rfl

@[simp] theorem irqRise_parts (s t : State) : SameButRegsIo t (irqRise s t) :=
  sameButRegsIo_of_regsIoOnly (regsIoOnly_irqRise ..)

@[simp] theorem malformed_parts (origin : Word) (s : State) : SameButRegsIo s (malformed origin s) := by
  exact sameButRegsIo_of_regsIoOnly ((regsIoOnly_countN ..).trans ((regsIoOnly_wr ..).trans (regsIoOnly_irq ..)))

@[simp] theorem offAccess_parts (rq : Requester) (p off : Nat) (write : Bool) (s : State) :
    SameButRegsIo s (offAccess rq p off write s) := by
  exact sameButRegsIo_of_regsIoOnly ((regsIoOnly_countN ..).trans ((regsIoOnly_wr ..).trans (regsIoOnly_irq ..)))

@[simp] theorem retireLast_parts (p code : Nat) (s : State) : SameButRegsIo s (retireLast p code s) := by
  exact sameButRegsIo_of_regsIoOnly ((regsIoOnly_wr ..).trans (regsIoOnly_irq ..))

/-! ## Fields -/

theorem getLsbD_setFld (hi lo v : Nat) (w : Word) (i : Nat) : (setFld hi lo v w).getLsbD i =
    (decide (i < 32) && if lo ≤ i ∧ i ≤ hi then v.testBit (i - lo) else w.getLsbD i) := by
  unfold setFld
  by_cases h : i < 32
  · have hm : ((BitVec.ofNat 32 (2 ^ (hi + 1 - lo) - 1)) <<< lo).getLsbD i = decide (lo ≤ i ∧ i ≤ hi) := by
      simp only [BitVec.getLsbD_shiftLeft, BitVec.getLsbD_ofNat, Nat.testBit_two_pow_sub_one, h, decide_true,
        Bool.true_and]
      by_cases hlo : i < lo
      · simp [hlo]
      · simp only [hlo, show i - lo < 32 by omega, decide_true, decide_false, Bool.not_false, Bool.true_and]
        exact decide_eq_decide.2 (by omega)
    simp only [BitVec.getLsbD_or, BitVec.getLsbD_and, BitVec.getLsbD_not, hm, h]
    by_cases hin : lo ≤ i ∧ i ≤ hi
    · simp only [hin, BitVec.getLsbD_shiftLeft, BitVec.getLsbD_ofNat, h, show i - lo < 32 by omega,
        show ¬ i < lo by omega, decide_true, decide_false, and_self, if_true, Bool.not_true, Bool.and_false,
        Bool.not_false, Bool.true_and, Bool.and_true, Bool.false_or]
    · simp [hin]
  · simp [h, BitVec.getLsbD_of_ge _ _ (Nat.le_of_not_lt h)]

theorem testBit_fld (hi lo : Nat) (w : Word) (i : Nat) :
    (fld hi lo w).testBit i = (decide (i < hi + 1 - lo) && w.getLsbD (lo + i)) := by
  simp [fld, Nat.testBit_mod_two_pow, BitVec.getLsbD]

theorem fld_setFld_same {hi lo : Nat} (h : hi < 32) (v : Nat) (w : Word) :
    fld hi lo (setFld hi lo v w) = v % 2 ^ (hi + 1 - lo) := by
  refine Nat.eq_of_testBit_eq fun i => ?_
  rw [testBit_fld, getLsbD_setFld, Nat.testBit_mod_two_pow]
  by_cases hi' : i < hi + 1 - lo
  · simp [hi', show lo + i < 32 by omega, show lo + i ≤ hi by omega]
  · simp [hi']

theorem fld_setFld_other {hi lo hi' lo' : Nat} (h : hi' < lo ∨ hi < lo') (hw : hi' < 32) (v : Nat) (w : Word) :
    fld hi' lo' (setFld hi lo v w) = fld hi' lo' w := by
  refine Nat.eq_of_testBit_eq fun i => ?_
  rw [testBit_fld, testBit_fld, getLsbD_setFld]
  by_cases hi' : i < hi' + 1 - lo'
  · simp [hi', show lo' + i < 32 by omega, show ¬ (lo ≤ lo' + i ∧ lo' + i ≤ hi) by omega]
  · simp [hi']

theorem bit_setFld_other {n hi lo : Nat} (h : n < lo ∨ hi < n) (hw : n < 32) (v : Nat) (w : Word) :
    bit n (setFld hi lo v w) = bit n w := by
  rw [bit, getLsbD_setFld, if_neg (by omega), decide_eq_true hw, Bool.true_and, bit]

theorem bit_setFld_mem {n hi lo : Nat} (hlo : lo ≤ n) (hhi : n ≤ hi) (hw : n < 32) (v : Nat) (w : Word) :
    bit n (setFld hi lo v w) = v.testBit (n - lo) := by
  rw [bit, getLsbD_setFld, if_pos ⟨hlo, hhi⟩, decide_eq_true hw, Bool.true_and]

theorem bit_setBit_same {n : Nat} (hw : n < 32) (b : Bool) (w : Word) : bit n (setBit n b w) = b := by
  rw [setBit, bit_setFld_mem le_rfl le_rfl hw, Nat.sub_self]
  cases b <;> rfl

theorem bit_setBit_other {m n : Nat} (h : m ≠ n) (hw : m < 32) (b : Bool) (w : Word) :
    bit m (setBit n b w) = bit m w := bit_setFld_other (by omega) hw ..

theorem fld_setBit_other {hi lo n : Nat} (h : n < lo ∨ hi < n) (hw : hi < 32) (b : Bool) (w : Word) :
    fld hi lo (setBit n b w) = fld hi lo w := fld_setFld_other (by omega) hw ..

/-- A field of one bit is that bit. -/
theorem fld_bit {n : Nat} (w : Word) : fld n n w = b2n (bit n w) := by
  refine Nat.eq_of_testBit_eq fun i => ?_
  rw [testBit_fld]
  by_cases h : i < n + 1 - n
  · obtain rfl : i = 0 := by omega
    cases hb : bit n w <;> simp_all [b2n, bit]
  · obtain ⟨j, rfl⟩ : ∃ j, i = j + 1 := ⟨i - 1, by omega⟩
    cases hb : bit n w <;> simp [b2n, Nat.testBit_succ]

/-! ## Registers under the other setters -/

@[simp] theorem rd_setPending (p off : Nat) (x : List Instr) (s : State) : rd p off (setPending x s) = rd p off s := rfl
@[simp] theorem rd_setDev (p off : Nat) (x : Dev) (s : State) : rd p off (setDev x s) = rd p off s := rfl
@[simp] theorem rd_setNet (p off : Nat) (x : SMap Channel) (s : State) : rd p off (setNet x s) = rd p off s := rfl
@[simp] theorem rd_setFab (p off : Nat) (x : Fabric) (s : State) : rd p off (setFab x s) = rd p off s := rfl
@[simp] theorem rd_setMacs (p off : Nat) (x : SMap Mac) (s : State) : rd p off (setMacs x s) = rd p off s := rfl
@[simp] theorem rd_setLogic (p off : Nat) (x : Logic) (s : State) : rd p off (setLogic x s) = rd p off s := rfl
@[simp] theorem rd_setBanks (p off : Nat) (x : Banks) (s : State) : rd p off (setBanks x s) = rd p off s := rfl
@[simp] theorem rd_setSched (p off : Nat) (x : Sched) (s : State) : rd p off (setSched x s) = rd p off s := rfl
@[simp] theorem rd_setDma (p off : Nat) (x : Dma) (s : State) : rd p off (setDma x s) = rd p off s := rfl
@[simp] theorem rd_setRgns (p off : Nat) (x : SMap Rgn) (s : State) : rd p off (setRgns x s) = rd p off s := rfl
@[simp] theorem rd_setPlanes (p off : Nat) (x : Planes) (s : State) : rd p off (setPlanes x s) = rd p off s := rfl
@[simp] theorem rd_setFox (p off : Nat) (x : Fox) (s : State) : rd p off (setFox x s) = rd p off s := rfl
@[simp] theorem rd_setStore (p off : Nat) (x : Store) (s : State) : rd p off (setStore x s) = rd p off s := rfl
@[simp] theorem rd_setFlash (p off : Nat) (x : Flash) (s : State) : rd p off (setFlash x s) = rd p off s := rfl
@[simp] theorem rd_setUpd (p off : Nat) (x : Upd) (s : State) : rd p off (setUpd x s) = rd p off s := rfl
@[simp] theorem rd_setPwr (p off : Nat) (x : Pwr) (s : State) : rd p off (setPwr x s) = rd p off s := rfl
@[simp] theorem rd_setWpk (p off : Nat) (x : Wpk) (s : State) : rd p off (setWpk x s) = rd p off s := rfl
@[simp] theorem rd_setRing (p off : Nat) (x : RingPort) (s : State) : rd p off (setRing x s) = rd p off s := rfl
@[simp] theorem rd_setTime (p off : Nat) (x : TimeUnit) (s : State) : rd p off (setTime x s) = rd p off s := rfl
@[simp] theorem rd_setIo (p off : Nat) (x : Io) (s : State) : rd p off (setIo x s) = rd p off s := rfl
@[simp] theorem rd_setFree (p off : Nat) (x : Nat) (s : State) : rd p off (setFree x s) = rd p off s := rfl

/-! ## Registers under the operations on registers -/

@[simp] theorem rd_wrf_same (p off hi lo v : Nat) (s : State) :
    rd p off (wrf p off hi lo v s) = setFld hi lo v (rd p off s) := rd_md_same ..

theorem rd_wrf_other {p off q o : Nat} (h : rkey q o ≠ rkey p off) (hi lo v : Nat) (s : State) :
    rd q o (wrf p off hi lo v s) = rd q o s := rd_wr_other h ..

theorem rdf_wrf_same {hi : Nat} (h : hi < 32) (p off lo v : Nat) (s : State) :
    rdf p off hi lo (wrf p off hi lo v s) = v % 2 ^ (hi + 1 - lo) := by
  rw [rdf, rd_wrf_same, fld_setFld_same h]

theorem rdf_wrf_field {hi lo hi' lo' : Nat} (h : hi' < lo ∨ hi < lo') (hw : hi' < 32) (p off v : Nat) (s : State) :
    rdf p off hi' lo' (wrf p off hi lo v s) = rdf p off hi' lo' s := by
  rw [rdf, rd_wrf_same, fld_setFld_other h hw, rdf]

theorem rdf_of_rd {p off : Nat} {s t : State} (h : rd p off t = rd p off s) (hi lo : Nat) :
    rdf p off hi lo t = rdf p off hi lo s := by rw [rdf, h, rdf]

theorem rd_foldl {α : Type} {f : State → α → State} {q o : Nat} (hf : ∀ t x, rd q o (f t x) = rd q o t) (l : List α)
    (s : State) : rd q o (l.foldl f s) = rd q o s := by
  induction l generalizing s with
  | nil => rfl
  | cons x l ih => rw [List.foldl_cons, ih, hf]

theorem rd_irqRise_below {q o : Nat} (h : rkey q o < rkey P.PCIE 0) (s t : State) :
    rd q o (irqRise s t) = rd q o t := by
  refine rd_foldl (fun u v => ?_) _ _
  split
  · exact rd_msixSend_below h v u
  · rfl

theorem rd_errTransient_other {p q o : Nat} (h : rkey q o ≠ rkey p R.ERR_COUNT) (s : State) :
    rd q o (errTransient p s) = rd q o s := rd_md_other h ..

/-- An error leaves the registers of other pages. -/
theorem rd_err_page {p q o : Nat} (hq : rkey q o < rkey P.PCIE 0) (h : q ≠ p) (ho : o < 4096)
    (code detail addr : Nat) (s : State) : rd q o (err p code detail addr s) = rd q o s := by
  have hk {o' : Nat} (h' : o' < 4096) : rkey q o ≠ rkey p o' := rkey_page h ho h'
  unfold err errTransient
  dsimp only
  split
  · exact rd_md_other (hk (by decide)) _ s
  · rw [rd_irq_other hq (hk (by decide)), rd_wr_other (hk (by decide)), rd_wr_other (hk (by decide)),
      rd_wr_other (hk (by decide)), rd_md_other (hk (by decide))]

end Sys2Proof.Machine

/-! PROOFS. The step, the reset state, and what every command keeps (95_what_each_step_holds.md). -/

namespace Sys2Proof.Machine

open Sys2Proof

/-! ## The invariant and the queue -/

theorem inv_setPending {s : State} (l : List Instr) (h : Inv s) : Inv (setPending l s) := h

/-- Settles O3: a command keeps the invariant by what every operation of its meaning keeps, and so does the
nanosecond that passes on an empty queue. -/
theorem everyStepKeepsTheInvariant : Obligations.EveryStepKeepsTheInvariant := by
  unfold Obligations.EveryStepKeepsTheInvariant
  intro s t hinv hstep
  unfold step at hstep
  split at hstep
  · exact (exec_frame hstep).2 (inv_setPending _ hinv)
  · injection hstep with hidle
    exact hidle ▸ (keeps_idleStep (Keeps.refl s)).inv hinv

/-- Settles O4: no command stops, and the queue is among what every operation keeps. -/
theorem everyCommandAnswersAndLeavesTheQueue : Obligations.EveryCommandAnswersAndLeavesTheQueue := by
  unfold Obligations.EveryCommandAnswersAndLeavesTheQueue
  intro c s
  obtain ⟨t, ht⟩ := exec_next c s
  exact ⟨t, ht, (exec_frame ht).1⟩

/-! ## The state after reset -/

/-- Settles O2: nothing is listed in the tables of the reset state, so each reads its default. -/
theorem resetLeavesTheDeviceInHold : Obligations.ResetLeavesTheDeviceInHold := by
  unfold Obligations.ResetLeavesTheDeviceInHold
  refine ⟨⟨⟨rfl, rfl⟩, rfl⟩, rfl, rfl, rfl, rfl, rfl, rfl, rfl, rfl, fun b w => ⟨rfl, parGood_tw .data 0⟩, fun p off => rfl, rfl,
    fun t => rfl, fun q => rfl, fun c => rfl, fun r _ => rfl⟩

/-! ## A nanosecond without a command (R361, R401) -/

/-- The movement of the delays writes registers alone. -/
theorem moveDelays_eq (s : State) : moveDelays s = { s with regs := (moveDelays s).regs } := by
  unfold moveDelays
  generalize ((s.regs.filterMap fun e => delayKey e.1).eraseDups) = l
  induction l generalizing s with
  | nil => rfl
  | cons e l ih =>
    have hstep : delayStep s e = { s with regs := (delayStep s e).regs } := by
      unfold delayStep
      split <;> rfl
    rw [List.foldl_cons, ih (delayStep s e), hstep]

theorem rd_moveDelays_below {p off : Nat} (h : rkey p off < rkey (P.IOB 0) 0) (s : State) :
    rd p off (moveDelays s) = rd p off s := by
  refine rd_foldl (fun t e => ?_) _ _
  unfold delayStep
  split
  · refine rd_wr_other ?_ _ _
    simp only [rkey, P.IOB] at h ⊢
    omega
  · rfl

theorem idleStep_pending (s : State) : (idleStep s).pending = s.pending := (keeps_idleStep (Keeps.refl s)).pending

/-- With the slew at rest and RATE 0, ring time gains one nanosecond. -/
theorem tick_rest {s : State} (hm : s.dev.mode = .run) (hslew : s.time.slew = 0) (hrate : rd P.TIME R.TIME_RATE s = 0) :
    tick s = setTime { s.time with ringTime := s.time.ringTime + 1 } s := by
  simp [tick, timeRuns, hm, hslew, hrate, nudges]

/-- A nanosecond in RUN of a device at rest: no entry in progress, no word in the QSPI buffer. -/
theorem idleStep_rest {s : State} (hm : s.dev.mode = .run) (he : entering s = false) (hq : s.io.qspi = [])
    (hslew : s.time.slew = 0) (hrate : rd P.TIME R.TIME_RATE s = 0) : idleStep s =
      idleWatchdog (moveDelays (setTime { s.time with ringTime := s.time.ringTime + 1 } s)) := by
  have hqspi {t : State} (h : t.io.qspi = []) : idleQspi t = t := by simp [idleQspi, qspiDrainOne, h]
  have hentry {t : State} (h : entering t = false) : idleEntry t = t := by simp [idleEntry, h]
  have hw : ∀ t, (idleWatchdog t).io = t.io ∧ (idleWatchdog t).pwr = t.pwr := by
    intro t
    unfold idleWatchdog
    dsimp only
    split
    · exact ⟨rfl, rfl⟩
    · split <;> exact ⟨rfl, rfl⟩
  rw [idleStep, if_neg (by simp [hm])]
  simp only [tick_rest hm hslew hrate]
  rw [hqspi (by rw [(hw _).1, moveDelays_eq]; exact hq), hentry]
  rw [entering, (hw _).2, moveDelays_eq]
  exact he

/-- Settles O1: the step by its definition, and the nanosecond through the cases of the watchdog. -/
theorem stepRunsTheFrontCommand : Obligations.StepRunsTheFrontCommand := by
  unfold Obligations.StepRunsTheFrontCommand
  refine ⟨fun c rest s h => by simp only [step, h], fun s hp => ⟨idleStep s, by simp only [step, hp], ?_, ?_, ?_⟩⟩
  · rw [idleStep_pending, hp]
  · exact fun hoff => if_pos hoff
  · intro hm _ he hq hslew hrate
    rw [idleStep_rest hm he hq hslew hrate]
    generalize hu : moveDelays (setTime { s.time with ringTime := s.time.ringTime + 1 } s) = u
    have hregs := moveDelays_eq (setTime { s.time with ringTime := s.time.ringTime + 1 } s)
    rw [hu] at hregs
    have htime : u.time = { s.time with ringTime := s.time.ringTime + 1 } := by rw [hregs]; rfl
    have hbanks : u.banks = s.banks := by rw [hregs]; rfl
    have hdev : u.dev = s.dev := by rw [hregs]; rfl
    have hctl : rd P.RST R.RST_CTL u = rd P.RST R.RST_CTL s := by rw [← hu, rd_moveDelays_below (by decide), rd_setTime]
    have hstat : rd P.RST R.RST_WDT_STAT u = rd P.RST R.RST_WDT_STAT s := by
      rw [← hu, rd_moveDelays_below (by decide), rd_setTime]
    unfold idleWatchdog
    simp only [hdev, hm, hctl, reduceCtorEq, false_or]
    cases hen : bit 1 (rd P.RST R.RST_CTL s) with
    | false => simp [htime, hbanks, hdev]
    | true =>
      refine ⟨?_, ?_, by simp, fun _ hn => ?_, fun _ hn hrem => ?_⟩
      · simp only [Bool.true_eq_false, if_false]
        split <;> simp [htime]
      · simp only [Bool.true_eq_false, if_false]
        split <;> simp [hbanks]
      · rw [if_neg (by simp), if_pos (by omega)]
        exact ⟨rfl, hstat⟩
      · rw [if_neg (by simp), if_neg (by omega)]
        have hlt : rdf P.RST R.RST_WDT_STAT 15 0 s < 2 ^ 16 := fld_lt 15 0 _
        refine ⟨by simp, ?_⟩
        rw [rdf_wrf_same (by decide), rdf, rd_setDev, hstat, ← rdf]
        exact Nat.mod_eq_of_lt (by omega)

end Sys2Proof.Machine

/-! PROOFS. What the opcodes of a word cell give (04_word_cells.md, Table 4.8): each function of Machine/Flags.lean in
the terms of integers and bit vectors, then the obligations on results and flags. -/

namespace Sys2Proof.Machine

open Sys2Proof

/-! ## Ends of an instruction -/

/-- An instruction with a result, completed with what its function gives. -/
theorem cellAlu_ends {c op : Nat} {alu : Word → Word → Cell → Word × Cell} {s : State} (h : CellGo c op s)
    (hn : noResult op = false) {r : Word} {y : Cell} (e : alu (cellA c s) (cellB c s) (cellX c s) = (r, y)) :
    cellAlu c op alu s = cellDone c r y s := by
  rw [cellAlu_go h hn, e]

theorem next_cellAlu {c op : Nat} {alu : Word → Word → Cell → Word × Cell} {s : State} (h : CellGo c op s)
    (hn : noResult op = false) {r : Word} {y : Cell} (e : alu (cellA c s) (cellB c s) (cellX c s) = (r, y)) :
    (.next (cellAlu c op alu s) : Out) = .next (cellDone c r y s) := congrArg _ (cellAlu_ends h hn e)

/-- An instruction without a result. -/
theorem next_cellAlu_quiet {c op : Nat} {alu : Word → Word → Cell → Word × Cell} {s : State} (h : CellGo c op s)
    (hn : noResult op = true) {r : Word} {y : Cell} (e : alu (cellA c s) (cellB c s) (cellX c s) = (r, y)) :
    (.next (cellAlu c op alu s) : Out) = .next (cellQuiet c y s) := by
  have hy : (alu (cellFetched c s).a.data (cellFetched c s).b.data (cell c (cellFetched c s).st)) = (r, y) := e
  rw [cellAlu, runCell_runs h.1]
  simp [finAlu, h.2, hn, hy, cellQuiet, writeResult]

/-! ## Sums (R82) -/

theorem toInt_not (b : Word) : (~~~b).toInt = -b.toInt - 1 := by
  have hb := BitVec.isLt b
  simp only [BitVec.toInt_eq_toNat_cond, BitVec.toNat_not]
  split <;> split <;> omega

theorem sumFlags_eq (a b : Word) (cin : Bool) (x : Cell) : sumFlags a b cin x =
    (a + b + W (b2n cin), { x with
      z := a + b + W (b2n cin) == 0, n := (a + b + W (b2n cin)).msb
      c := decide (2 ^ 32 ≤ a.toNat + b.toNat + b2n cin)
      v := decide ((a + b + W (b2n cin)).toInt ≠ a.toInt + b.toInt + (b2n cin : Int)) }) := by
  have hsum : W (a.toNat + b.toNat + b2n cin) = a + b + W (b2n cin) := by
    apply BitVec.eq_of_toNat_eq
    simp [W, Nat.add_mod]
  rw [← hsum, sumFlags, sum3_eq]
  rfl

theorem aluAdd_eq (a b : Word) (x : Cell) : aluAdd a b x = (a + b, { x with
    z := a + b == 0, n := (a + b).msb, c := decide (2 ^ 32 ≤ a.toNat + b.toNat)
    v := decide ((a + b).toInt ≠ a.toInt + b.toInt) }) := by
  rw [aluAdd, sumFlags_eq]
  simp [b2n, W]

theorem aluSbc_eq (a b : Word) (x : Cell) : aluSbc a b x = (a + ~~~b + W (b2n x.c), { x with
    z := a + ~~~b + W (b2n x.c) == 0, n := (a + ~~~b + W (b2n x.c)).msb
    c := decide (b.toNat + 1 ≤ a.toNat + b2n x.c)
    v := decide ((a + ~~~b + W (b2n x.c)).toInt ≠ a.toInt - b.toInt - 1 + (b2n x.c : Int)) }) := by
  have hb := BitVec.isLt b
  have hcarry : (2 ^ 32 ≤ a.toNat + (~~~b).toNat + b2n x.c) = (b.toNat + 1 ≤ a.toNat + b2n x.c) := by
    rw [BitVec.toNat_not]
    exact propext (by omega)
  have hint : a.toInt + (~~~b).toInt = a.toInt - b.toInt - 1 := by
    rw [toInt_not]
    ring
  simp only [aluSbc, sumFlags_eq, hcarry, hint]

theorem aluSub_eq (a b : Word) (x : Cell) : aluSub a b x = (a - b, { x with
    z := a - b == 0, n := (a - b).msb, c := decide (b.toNat ≤ a.toNat)
    v := decide ((a - b).toInt ≠ a.toInt - b.toInt) }) := by
  have hb := BitVec.isLt b
  have hsub : a + ~~~b + W (b2n true) = a - b := by
    have hone : W (b2n true) = 1#32 := rfl
    rw [hone, BitVec.add_assoc, ← BitVec.neg_eq_not_add, BitVec.sub_eq_add_neg]
  have hcarry : (2 ^ 32 ≤ a.toNat + (~~~b).toNat + b2n true) = (b.toNat ≤ a.toNat) := by
    have hone : b2n true = 1 := rfl
    rw [BitVec.toNat_not, hone]
    exact propext (by omega)
  have hint : a.toInt + (~~~b).toInt + (b2n true : Int) = a.toInt - b.toInt := by
    have hone : (b2n true : Int) = 1 := rfl
    rw [toInt_not, hone]
    ring
  simp only [aluSub, sumFlags_eq, hsub, hcarry, hint]

/-! ## Saturation -/

/-- The clamped value, and whether it was clamped. -/
theorem satS_spec (i : Int) : (satS i).1.toInt = max (-(2 ^ 31)) (min (2 ^ 31 - 1) i) ∧
    ((satS i).2 = true ↔ (satS i).1.toInt ≠ i) := by
  unfold satS
  split
  · have hmin : (0x80000000 : Word).toInt = -(2 ^ 31) := by decide
    refine ⟨?_, ?_⟩ <;> dsimp only <;> rw [hmin]
    · omega
    · simp only [true_iff]; omega
  · split
    · have hmax : (0x7FFFFFFF : Word).toInt = 2 ^ 31 - 1 := by decide
      refine ⟨?_, ?_⟩ <;> dsimp only <;> rw [hmax]
      · omega
      · simp only [true_iff]; omega
    · have hin : (BitVec.ofInt 32 i).toInt = i := by
        rw [BitVec.toInt_ofInt, Int.bmod_eq_of_le] <;> omega
      refine ⟨?_, ?_⟩ <;> dsimp only <;> rw [hin]
      · omega
      · simp

theorem aluAddus_spec (a b : Word) (x : Cell) : ∃ (r : Word) (d : Bool),
    aluAddus a b x = (r, { x with z := r == 0, n := r.msb, c := d }) ∧ r.toNat = min (2 ^ 32 - 1) (a.toNat + b.toNat) ∧
      (d = true ↔ r.toNat ≠ a.toNat + b.toNat) := by
  refine ⟨_, _, rfl, ?_⟩
  by_cases h : 2 ^ 32 ≤ a.toNat + b.toNat
  · have hmax : (0xFFFFFFFF : Word).toNat = 2 ^ 32 - 1 := by decide
    simp only [h, decide_true, if_true, hmax, true_iff]
    omega
  · have hw : (W (a.toNat + b.toNat)).toNat = a.toNat + b.toNat := by
      rw [W, BitVec.toNat_ofNat, Nat.mod_eq_of_lt (by omega)]
    simp only [h, decide_false, Bool.false_eq_true, if_false, hw, false_iff]
    omega

theorem aluSubus_spec (a b : Word) (x : Cell) : ∃ (r : Word) (d : Bool),
    aluSubus a b x = (r, { x with z := r == 0, n := r.msb, c := d }) ∧ r.toNat = a.toNat - b.toNat ∧
      (d = true ↔ a.toNat < b.toNat) := by
  refine ⟨_, _, rfl, ?_, by simp⟩
  by_cases h : a.toNat < b.toNat
  · simp [h]
    omega
  · rw [decide_eq_false h, if_neg (by simp), BitVec.toNat_sub_of_le (by simpa [BitVec.le_def] using h)]

theorem aluAbs_spec (a b : Word) (x : Cell) : ∃ (r : Word) (v : Bool),
    aluAbs a b x = (r, { x with z := r == 0, n := r.msb, v := v }) ∧
      r.toInt = min (2 ^ 31 - 1) (a.toInt.natAbs : Int) ∧ (v = true ↔ a = 0x80000000) := by
  refine ⟨_, _, rfl, ?_, by simp⟩
  have ha := BitVec.isLt a
  by_cases h : a = 0x80000000
  · subst h
    decide
  · have hne : a.toNat ≠ 2 ^ 31 := fun e => h (BitVec.eq_of_toNat_eq e)
    simp only [beq_eq_false_iff_ne.2 h, Bool.false_eq_true, if_false]
    split
    · next hneg =>
      rw [BitVec.msb_eq_decide, decide_eq_true_eq] at hneg
      rw [BitVec.toInt_eq_toNat_cond, BitVec.toInt_eq_toNat_cond, BitVec.toNat_neg]
      split <;> split <;> omega
    · next hpos =>
      rw [BitVec.msb_eq_decide, decide_eq_true_eq] at hpos
      rw [BitVec.toInt_eq_toNat_cond]
      split <;> omega

/-- Settles O9: each function of Table 4.8 gives the sum and the flags, and the cell ends with them. -/
theorem cellSumsAndSaturation : Obligations.CellSumsAndSaturation := by
  unfold Obligations.CellSumsAndSaturation
  refine ⟨fun c s => ⟨?_, ?_, ?_, ?_, ?_, ?_⟩, fun c s => ⟨?_, ?_, ?_, ?_, ?_⟩⟩
  · exact fun h => next_cellAlu h rfl rfl
  · exact fun h => next_cellAlu h rfl (aluAdd_eq ..)
  · exact fun h => next_cellAlu h rfl (sumFlags_eq ..)
  · exact fun h => next_cellAlu h rfl (aluSub_eq ..)
  · exact fun h => next_cellAlu h rfl (aluSbc_eq ..)
  · exact fun h => next_cellAlu_quiet h rfl (aluSub_eq ..)
  · exact fun h => ⟨_, _, next_cellAlu h rfl rfl, satS_spec _⟩
  · exact fun h => ⟨_, _, next_cellAlu h rfl rfl, satS_spec _⟩
  · intro h
    obtain ⟨r, d, e, hr⟩ := aluAddus_spec (cellA c s) (cellB c s) (cellX c s)
    exact ⟨r, d, next_cellAlu h rfl e, hr⟩
  · intro h
    obtain ⟨r, d, e, hr⟩ := aluSubus_spec (cellA c s) (cellB c s) (cellX c s)
    exact ⟨r, d, next_cellAlu h rfl e, hr⟩
  · intro h
    obtain ⟨r, v, e, hr⟩ := aluAbs_spec (cellA c s) (cellB c s) (cellX c s)
    exact ⟨r, v, next_cellAlu h rfl e, hr⟩

end Sys2Proof.Machine


namespace Sys2Proof.Machine

open Sys2Proof

/-! ## Products and bounds (R82) -/

theorem toInt_bounds {n : Nat} (a : BitVec (n + 1)) : -(2 ^ n : Int) ≤ a.toInt ∧ a.toInt < 2 ^ n := by
  have h := BitVec.le_toInt a
  have h' := BitVec.toInt_lt (x := a)
  simpa using ⟨h, h'⟩

/-- A product that the 32 bits hold is exact. -/
theorem toInt_ofInt_of_bounds {i : Int} (h : -(2 ^ 31) ≤ i) (h' : i < 2 ^ 31) : (BitVec.ofInt 32 i).toInt = i := by
  rw [BitVec.toInt_ofInt, Int.bmod_eq_of_le] <;> omega

theorem aluMuls_exact (a b : Word) :
    (BitVec.ofInt 32 ((lo16 a).toInt * (lo16 b).toInt)).toInt = (a.setWidth 16).toInt * (b.setWidth 16).toInt := by
  obtain ⟨ha, ha'⟩ := toInt_bounds (n := 15) (lo16 a)
  obtain ⟨hb, hb'⟩ := toInt_bounds (n := 15) (lo16 b)
  refine toInt_ofInt_of_bounds ?_ ?_ <;> nlinarith

theorem aluMulu_exact (a b : Word) :
    (W ((lo16 a).toNat * (lo16 b).toNat)).toNat = a.toNat % 2 ^ 16 * (b.toNat % 2 ^ 16) := by
  have hx : a.toNat % 2 ^ 16 < 2 ^ 16 := Nat.mod_lt _ (by decide)
  have hy : b.toNat % 2 ^ 16 < 2 ^ 16 := Nat.mod_lt _ (by decide)
  rw [W, BitVec.toNat_ofNat, lo16, lo16, BitVec.toNat_setWidth, BitVec.toNat_setWidth, Nat.mod_eq_of_lt]
  calc a.toNat % 2 ^ 16 * (b.toNat % 2 ^ 16) < 2 ^ 16 * 2 ^ 16 := Nat.mul_lt_mul'' hx hy
    _ = 2 ^ 32 := by norm_num

theorem aluMulsu_exact (a b : Word) : (BitVec.ofInt 32 ((lo16 a).toInt * (lo16 b).toNat)).toInt =
    (a.setWidth 16).toInt * ((b.toNat % 2 ^ 16 : Nat) : Int) := by
  obtain ⟨ha, ha'⟩ := toInt_bounds (n := 15) (lo16 a)
  have hb : (lo16 b).toNat = b.toNat % 2 ^ 16 := BitVec.toNat_setWidth ..
  have hlt : b.toNat % 2 ^ 16 < 2 ^ 16 := Nat.mod_lt _ (by decide)
  rw [hb]
  change -2 ^ 15 ≤ (a.setWidth 16).toInt at ha
  change (a.setWidth 16).toInt < 2 ^ 15 at ha'
  change (BitVec.ofInt 32 ((a.setWidth 16).toInt * _)).toInt = _
  generalize (a.setWidth 16).toInt = x at *
  generalize b.toNat % 2 ^ 16 = y at *
  refine toInt_ofInt_of_bounds ?_ ?_ <;> nlinarith

theorem toInt_ite_slt_min (a b : Word) : (if b.slt a then b else a).toInt = min a.toInt b.toInt := by
  simp only [BitVec.slt_eq_decide, decide_eq_true_eq]
  split <;> omega

theorem toInt_ite_slt_max (a b : Word) : (if a.slt b then b else a).toInt = max a.toInt b.toInt := by
  simp only [BitVec.slt_eq_decide, decide_eq_true_eq]
  split <;> omega

theorem toNat_ite_ult_min (a b : Word) : (if b.ult a then b else a).toNat = min a.toNat b.toNat := by
  simp only [BitVec.ult_eq_decide, decide_eq_true_eq]
  split <;> omega

theorem toNat_ite_ult_max (a b : Word) : (if a.ult b then b else a).toNat = max a.toNat b.toNat := by
  simp only [BitVec.ult_eq_decide, decide_eq_true_eq]
  split <;> omega

/-- Settles O10: products fit in 32 bits, and the rest is what Table 4.8 gives. -/
theorem cellProductsLogicAndExtrema : Obligations.CellProductsLogicAndExtrema := by
  unfold Obligations.CellProductsLogicAndExtrema
  refine ⟨fun c s => ⟨?_, ?_, ?_⟩, fun c s => ⟨?_, ?_, ?_, ?_, ?_⟩, fun c s => ⟨?_, ?_, ?_, ?_⟩⟩
  · exact fun h => ⟨_, next_cellAlu h rfl rfl, aluMuls_exact ..⟩
  · exact fun h => ⟨_, next_cellAlu h rfl rfl, aluMulu_exact ..⟩
  · exact fun h => ⟨_, next_cellAlu h rfl rfl, aluMulsu_exact ..⟩
  · exact fun h => next_cellAlu h rfl rfl
  · exact fun h => next_cellAlu h rfl rfl
  · exact fun h => next_cellAlu h rfl rfl
  · exact fun h => next_cellAlu h rfl rfl
  · exact fun h => next_cellAlu_quiet h rfl rfl
  · exact fun h => ⟨_, next_cellAlu h rfl rfl, toInt_ite_slt_min ..⟩
  · exact fun h => ⟨_, next_cellAlu h rfl rfl, toInt_ite_slt_max ..⟩
  · exact fun h => ⟨_, next_cellAlu h rfl rfl, toNat_ite_ult_min ..⟩
  · exact fun h => ⟨_, next_cellAlu h rfl rfl, toNat_ite_ult_max ..⟩

/-! ## Shifts and counts (R82) -/

theorem getLsbD_eq_div_mod (a : Word) (n : Nat) : a.getLsbD n = (a.toNat / 2 ^ n % 2 == 1) := by
  rw [BitVec.getLsbD, Nat.testBit_eq_decide_div_mod_eq]
  rfl

theorem toInt_sshiftRight_div (a : Word) (k : Nat) : (a.sshiftRight k).toInt = a.toInt / 2 ^ k := by
  rw [BitVec.toInt_sshiftRight, Int.shiftRight_eq_div_pow]
  norm_cast

theorem getLsbD_rotateLeft_shifted (a : Word) {j k : Nat} (hj : j < 32) (hk : k < 32) :
    (a.rotateLeft k).getLsbD ((j + k) % 32) = a.getLsbD j := by
  rw [BitVec.getLsbD_rotateLeft, Nat.mod_eq_of_lt hk]
  by_cases h : j + k < 32
  · rw [Nat.mod_eq_of_lt h, decide_eq_false (by omega), decide_eq_true h, cond_false, Nat.add_sub_cancel, Bool.true_and]
  · rw [show (j + k) % 32 = j + k - 32 by omega, decide_eq_true (by omega), cond_true,
      show 32 - k + (j + k - 32) = j by omega]

theorem getLsbD_rotateRight_shifted (a : Word) {j k : Nat} (hj : j < 32) (hk : k < 32) :
    (a.rotateRight k).getLsbD j = a.getLsbD ((j + k) % 32) := by
  rw [BitVec.getLsbD_rotateRight, Nat.mod_eq_of_lt hk]
  by_cases h : j + k < 32
  · rw [Nat.mod_eq_of_lt h, decide_eq_true (by omega), cond_true, Nat.add_comm]
  · rw [show (j + k) % 32 = j - (32 - k) by omega, decide_eq_false (by omega), decide_eq_true hj, cond_false,
      Bool.true_and]

/-- What the search for the first set bit from the top finds. -/
theorem leadingZeros_spec (a : Word) : leadingZeros a ≤ 32 ∧ (∀ j, j < leadingZeros a → a.getLsbD (31 - j) = false) ∧
    (leadingZeros a < 32 → a.getLsbD (31 - leadingZeros a) = true) := by
  unfold leadingZeros
  cases h : (List.range 32).find? fun k => a.getLsbD (31 - k) with
  | none =>
    rw [List.find?_range_eq_none] at h
    refine ⟨le_rfl, fun j hj => ?_, fun h32 => absurd h32 (by simp)⟩
    simpa using h j hj
  | some k =>
    rw [List.find?_range_eq_some] at h
    obtain ⟨hk, hmem, hbefore⟩ := h
    refine ⟨(List.mem_range.1 hmem).le, fun j hj => ?_, fun _ => hk⟩
    simpa using hbefore j hj

/-- DBNZ's counter. -/
theorem toNat_countDown (c : BitVec 16) : (if c = 0 then 0 else c - 1).toNat = c.toNat - 1 := by
  split
  · next h => rw [h]; rfl
  · next h =>
    have hpos : 1 ≤ c.toNat := by
      rcases Nat.eq_zero_or_pos c.toNat with h0 | h0
      · exact absurd (BitVec.eq_of_toNat_eq h0) h
      · exact h0
    rw [BitVec.toNat_sub_of_le (by simpa [BitVec.le_def] using hpos)]
    rfl

/-- Settles O11: each shift and count in the terms of numbers and bits; SEL, EMIT and DBNZ through the end of the
instruction. -/
theorem cellShiftsCountsAndChoices : Obligations.CellShiftsCountsAndChoices := by
  unfold Obligations.CellShiftsCountsAndChoices
  refine ⟨fun c s => ⟨?_, ?_, ?_, ?_, ?_⟩, fun c s => ⟨?_, ?_, ?_, ?_, ?_⟩, fun c s hi => ?_⟩
  · refine fun h => ⟨_, next_cellAlu h rfl (by rw [← getLsbD_eq_div_mod]; rfl), ?_⟩
    rw [BitVec.toNat_shiftLeft, Nat.shiftLeft_eq, shAmt]
  · refine fun h => ⟨_, next_cellAlu h rfl (by rw [← getLsbD_eq_div_mod]; rfl), ?_⟩
    rw [BitVec.toNat_ushiftRight, Nat.shiftRight_eq_div_pow, shAmt]
  · exact fun h => ⟨_, next_cellAlu h rfl (by rw [← getLsbD_eq_div_mod]; rfl), toInt_sshiftRight_div ..⟩
  · exact fun h => ⟨_, next_cellAlu h rfl rfl, fun j hj => getLsbD_rotateLeft_shifted _ hj (Nat.mod_lt _ (by decide))⟩
  · exact fun h => ⟨_, next_cellAlu h rfl rfl, fun j hj => getLsbD_rotateRight_shifted _ hj (Nat.mod_lt _ (by decide))⟩
  · intro h
    have hz := leadingZeros_spec (cellA c.val s)
    have hw : (W (leadingZeros (cellA c.val s))).toNat = leadingZeros (cellA c.val s) := by
      rw [W, BitVec.toNat_ofNat, Nat.mod_eq_of_lt (by omega)]
    exact ⟨_, next_cellAlu h rfl rfl, by rw [hw]; exact hz⟩
  · exact fun h => next_cellAlu h rfl rfl
  · intro h
    exact congrArg (fun t => Host.Outcome.next (settleLogic (c.val / 256) t)) (cellAlu_ends (alu := aluTapo) h rfl rfl)
  · intro h
    refine ⟨_, rfl, ?_⟩
    change (Host.Outcome.next (runCell ..) : Out) = _
    rw [runCell_runs h.1]
    simp only [finSel, h.2]
    rfl
  · intro h
    change (Host.Outcome.next (runCell ..) : Out) = _
    rw [runCell_runs h.1]
    simp only [finEmit, h.2]
    rw [show fld 2 0 (cellFetched c.val s).b.data = (cellB c.val s).toNat % 8 from rfl]
    rfl
  · refine ⟨_, toNat_countDown _, ?_⟩
    change (Host.Outcome.next (cellDbnz ..) : Out) = _
    simp only [cellDbnz, hi, Bool.not_true, Bool.false_eq_true, if_false]
    rfl

end Sys2Proof.Machine

/-! PROOFS. Which components an operation may change: SameBut l s t says that t is s in every component but those of l.
One lemma per operation says which list it has; what it leaves unchanged follows for every component at once. -/

namespace Sys2Proof.Machine

open Sys2Proof

/-- The components of State; the mode stands apart from the rest of `dev`, and the stored words from the ports of the
banks. -/
inductive Part where
  | pending | mode | dev | regs | net | fab | macs | logic | words | ports | sched | dma | rgns | planes | fox | store
  | flash | upd | pwr | wpk | ring | time | io | free
  deriving DecidableEq

/-- Two states have the same component p. -/
def agree (p : Part) (s t : State) : Prop :=
  match p with
  | .pending => t.pending = s.pending
  | .mode => t.dev.mode = s.dev.mode
  | .dev => { t.dev with mode := .hold } = { s.dev with mode := .hold }
  | .regs => t.regs = s.regs
  | .net => t.net = s.net
  | .fab => t.fab = s.fab
  | .macs => t.macs = s.macs
  | .logic => t.logic = s.logic
  | .words => t.banks.words = s.banks.words
  | .ports => { t.banks with words := [] } = { s.banks with words := [] }
  | .sched => t.sched = s.sched
  | .dma => t.dma = s.dma
  | .rgns => t.rgns = s.rgns
  | .planes => t.planes = s.planes
  | .fox => t.fox = s.fox
  | .store => t.store = s.store
  | .flash => t.flash = s.flash
  | .upd => t.upd = s.upd
  | .pwr => t.pwr = s.pwr
  | .wpk => t.wpk = s.wpk
  | .ring => t.ring = s.ring
  | .time => t.time = s.time
  | .io => t.io = s.io
  | .free => t.free = s.free

theorem agree_refl (p : Part) (s : State) : agree p s s := by cases p <;> rfl

theorem agree_symm {p : Part} {s t : State} (h : agree p s t) : agree p t s := by
  cases p <;> exact Eq.symm h

theorem agree_trans {p : Part} {s t u : State} (h : agree p s t) (k : agree p t u) : agree p s u := by
  cases p <;> exact Eq.trans k h

/-- t is s in every component but those of l. -/
def SameBut (l : List Part) (s t : State) : Prop := ∀ p, p ∉ l → agree p s t

/-- Every component of k is one of l. -/
def covers (l k : List Part) : Bool := k.all fun p => l.contains p

@[simp] theorem sameBut_refl (l : List Part) (s : State) : SameBut l s s := fun p _ => agree_refl p s

theorem SameBut.trans {l : List Part} {s t u : State} (h : SameBut l s t) (k : SameBut l t u) : SameBut l s u :=
  fun p hp => agree_trans (h p hp) (k p hp)

theorem SameBut.symm {l : List Part} {s t : State} (h : SameBut l s t) : SameBut l t s :=
  fun p hp => agree_symm (h p hp)

theorem SameBut.weaken {k l : List Part} {s t : State} (h : SameBut k s t) (hk : covers l k = true) : SameBut l s t :=
  fun p hp => h p fun hmem => hp (by simpa using List.all_eq_true.1 hk p hmem)

theorem covers_trans {k l m : List Part} (h : covers l k = true) (hk : covers k m = true) : covers l m = true :=
  List.all_eq_true.2 fun p hp => List.all_eq_true.1 h p (by simpa using List.all_eq_true.1 hk p hp)

/-- An operation that changes only components of l is of no account where these are left out. -/
theorem SameBut.iff {k l : List Part} {s t : State} (h : SameBut k s t) (hk : covers l k = true) (u : State) :
    SameBut l u t ↔ SameBut l u s :=
  ⟨fun hu => hu.trans (h.weaken hk).symm, fun hu => hu.trans (h.weaken hk)⟩

@[simp] theorem sameBut_ite (l : List Part) (u : State) (c : Prop) [Decidable c] (a b : State) :
    SameBut l u (if c then a else b) ↔ if c then SameBut l u a else SameBut l u b := by split <;> rfl

theorem sameBut_foldl {α : Type} {l : List Part} {f : State → α → State} (hf : ∀ t x, SameBut l t (f t x)) (xs : List α)
    (s : State) : SameBut l s (xs.foldl f s) := by
  induction xs generalizing s with
  | nil => exact sameBut_refl l s
  | cons x xs ih => exact (hf s x).trans (ih (f s x))

/-- The same, for a run of operations that may change components of l from another state. -/
theorem sameBut_foldl_iff {α : Type} {l : List Part} {f : State → α → State} (hf : ∀ t x, SameBut l t (f t x))
    (w : State) (xs : List α) (s : State) : SameBut l w (xs.foldl f s) ↔ SameBut l w s :=
  ⟨fun h => h.trans (sameBut_foldl hf xs s).symm, fun h => h.trans (sameBut_foldl hf xs s)⟩

theorem SameBut.banks {l : List Part} {s t : State} (h : SameBut l s t) (hw : Part.words ∉ l) (hp : Part.ports ∉ l) :
    t.banks = s.banks := by
  have hwords : t.banks.words = s.banks.words := h .words hw
  have hports : { t.banks with words := [] } = { s.banks with words := [] } := h .ports hp
  calc t.banks = { { t.banks with words := [] } with words := t.banks.words } := rfl
    _ = s.banks := by rw [hports, hwords]

theorem SameBut.device {l : List Part} {s t : State} (h : SameBut l s t) (hm : Part.mode ∉ l) (hd : Part.dev ∉ l) :
    t.dev = s.dev := by
  have hmode : t.dev.mode = s.dev.mode := h .mode hm
  have hdev : { t.dev with mode := .hold } = { s.dev with mode := .hold } := h .dev hd
  calc t.dev = { { t.dev with mode := .hold } with mode := t.dev.mode } := rfl
    _ = s.dev := by rw [hdev, hmode]

end Sys2Proof.Machine


namespace Sys2Proof.Machine

open Sys2Proof

/-! ## The setters -/

@[simp] theorem sameBut_setDev {ps : List Part} (hps : covers ps [.mode, .dev] = true) (s₀ : State) (x : Dev) (s : State) :
    SameBut ps s₀ (setDev x s) ↔ SameBut ps s₀ s :=
  SameBut.iff (k := [.mode, .dev]) (fun p hp => by cases p <;> simp_all [agree]) hps s₀

/-- A write of the device record that keeps the mode. -/
theorem sameBut_setDev_keeping {ps : List Part} (hps : covers ps [.dev] = true) {x : Dev} {s : State} (hm : x.mode = s.dev.mode) :
    SameBut ps s (setDev x s) :=
  SameBut.weaken (k := [.dev]) (fun p hp => by cases p <;> simp_all [agree]) hps

@[simp] theorem sameBut_setBanks {ps : List Part} (hps : covers ps [.words, .ports] = true) (s₀ : State) (x : Banks)
    (s : State) : SameBut ps s₀ (setBanks x s) ↔ SameBut ps s₀ s :=
  SameBut.iff (k := [.words, .ports]) (fun p hp => by cases p <;> simp_all [agree]) hps s₀

@[simp] theorem sameBut_setPending {ps : List Part} (hps : covers ps [.pending] = true) (s₀ : State) (x : List Instr) (s : State) :
    SameBut ps s₀ (setPending x s) ↔ SameBut ps s₀ s :=
  SameBut.iff (k := [.pending]) (fun p hp => by cases p <;> simp_all [agree]) hps s₀

@[simp] theorem sameBut_setRegs {ps : List Part} (hps : covers ps [.regs] = true) (s₀ : State) (x : SMap Word) (s : State) :
    SameBut ps s₀ (setRegs x s) ↔ SameBut ps s₀ s :=
  SameBut.iff (k := [.regs]) (fun p hp => by cases p <;> simp_all [agree]) hps s₀

@[simp] theorem sameBut_setNet {ps : List Part} (hps : covers ps [.net] = true) (s₀ : State) (x : SMap Channel) (s : State) :
    SameBut ps s₀ (setNet x s) ↔ SameBut ps s₀ s :=
  SameBut.iff (k := [.net]) (fun p hp => by cases p <;> simp_all [agree]) hps s₀

@[simp] theorem sameBut_setFab {ps : List Part} (hps : covers ps [.fab] = true) (s₀ : State) (x : Fabric) (s : State) :
    SameBut ps s₀ (setFab x s) ↔ SameBut ps s₀ s :=
  SameBut.iff (k := [.fab]) (fun p hp => by cases p <;> simp_all [agree]) hps s₀

@[simp] theorem sameBut_setMacs {ps : List Part} (hps : covers ps [.macs] = true) (s₀ : State) (x : SMap Mac) (s : State) :
    SameBut ps s₀ (setMacs x s) ↔ SameBut ps s₀ s :=
  SameBut.iff (k := [.macs]) (fun p hp => by cases p <;> simp_all [agree]) hps s₀

@[simp] theorem sameBut_setLogic {ps : List Part} (hps : covers ps [.logic] = true) (s₀ : State) (x : Logic) (s : State) :
    SameBut ps s₀ (setLogic x s) ↔ SameBut ps s₀ s :=
  SameBut.iff (k := [.logic]) (fun p hp => by cases p <;> simp_all [agree]) hps s₀

@[simp] theorem sameBut_setSched {ps : List Part} (hps : covers ps [.sched] = true) (s₀ : State) (x : Sched) (s : State) :
    SameBut ps s₀ (setSched x s) ↔ SameBut ps s₀ s :=
  SameBut.iff (k := [.sched]) (fun p hp => by cases p <;> simp_all [agree]) hps s₀

@[simp] theorem sameBut_setDma {ps : List Part} (hps : covers ps [.dma] = true) (s₀ : State) (x : Dma) (s : State) :
    SameBut ps s₀ (setDma x s) ↔ SameBut ps s₀ s :=
  SameBut.iff (k := [.dma]) (fun p hp => by cases p <;> simp_all [agree]) hps s₀

@[simp] theorem sameBut_setRgns {ps : List Part} (hps : covers ps [.rgns] = true) (s₀ : State) (x : SMap Rgn) (s : State) :
    SameBut ps s₀ (setRgns x s) ↔ SameBut ps s₀ s :=
  SameBut.iff (k := [.rgns]) (fun p hp => by cases p <;> simp_all [agree]) hps s₀

@[simp] theorem sameBut_setPlanes {ps : List Part} (hps : covers ps [.planes] = true) (s₀ : State) (x : Planes) (s : State) :
    SameBut ps s₀ (setPlanes x s) ↔ SameBut ps s₀ s :=
  SameBut.iff (k := [.planes]) (fun p hp => by cases p <;> simp_all [agree]) hps s₀

@[simp] theorem sameBut_setFox {ps : List Part} (hps : covers ps [.fox] = true) (s₀ : State) (x : Fox) (s : State) :
    SameBut ps s₀ (setFox x s) ↔ SameBut ps s₀ s :=
  SameBut.iff (k := [.fox]) (fun p hp => by cases p <;> simp_all [agree]) hps s₀

@[simp] theorem sameBut_setStore {ps : List Part} (hps : covers ps [.store] = true) (s₀ : State) (x : Store) (s : State) :
    SameBut ps s₀ (setStore x s) ↔ SameBut ps s₀ s :=
  SameBut.iff (k := [.store]) (fun p hp => by cases p <;> simp_all [agree]) hps s₀

@[simp] theorem sameBut_setFlash {ps : List Part} (hps : covers ps [.flash] = true) (s₀ : State) (x : Flash) (s : State) :
    SameBut ps s₀ (setFlash x s) ↔ SameBut ps s₀ s :=
  SameBut.iff (k := [.flash]) (fun p hp => by cases p <;> simp_all [agree]) hps s₀

@[simp] theorem sameBut_setUpd {ps : List Part} (hps : covers ps [.upd] = true) (s₀ : State) (x : Upd) (s : State) :
    SameBut ps s₀ (setUpd x s) ↔ SameBut ps s₀ s :=
  SameBut.iff (k := [.upd]) (fun p hp => by cases p <;> simp_all [agree]) hps s₀

@[simp] theorem sameBut_setPwr {ps : List Part} (hps : covers ps [.pwr] = true) (s₀ : State) (x : Pwr) (s : State) :
    SameBut ps s₀ (setPwr x s) ↔ SameBut ps s₀ s :=
  SameBut.iff (k := [.pwr]) (fun p hp => by cases p <;> simp_all [agree]) hps s₀

@[simp] theorem sameBut_setWpk {ps : List Part} (hps : covers ps [.wpk] = true) (s₀ : State) (x : Wpk) (s : State) :
    SameBut ps s₀ (setWpk x s) ↔ SameBut ps s₀ s :=
  SameBut.iff (k := [.wpk]) (fun p hp => by cases p <;> simp_all [agree]) hps s₀

@[simp] theorem sameBut_setRing {ps : List Part} (hps : covers ps [.ring] = true) (s₀ : State) (x : RingPort) (s : State) :
    SameBut ps s₀ (setRing x s) ↔ SameBut ps s₀ s :=
  SameBut.iff (k := [.ring]) (fun p hp => by cases p <;> simp_all [agree]) hps s₀

@[simp] theorem sameBut_setTime {ps : List Part} (hps : covers ps [.time] = true) (s₀ : State) (x : TimeUnit) (s : State) :
    SameBut ps s₀ (setTime x s) ↔ SameBut ps s₀ s :=
  SameBut.iff (k := [.time]) (fun p hp => by cases p <;> simp_all [agree]) hps s₀

@[simp] theorem sameBut_setIo {ps : List Part} (hps : covers ps [.io] = true) (s₀ : State) (x : Io) (s : State) :
    SameBut ps s₀ (setIo x s) ↔ SameBut ps s₀ s :=
  SameBut.iff (k := [.io]) (fun p hp => by cases p <;> simp_all [agree]) hps s₀

@[simp] theorem sameBut_setFree {ps : List Part} (hps : covers ps [.free] = true) (s₀ : State) (x : Nat) (s : State) :
    SameBut ps s₀ (setFree x s) ↔ SameBut ps s₀ s :=
  SameBut.iff (k := [.free]) (fun p hp => by cases p <;> simp_all [agree]) hps s₀


@[simp] theorem sameBut_wr {ps : List Part} (hps : covers ps [.regs] = true) (s₀ : State) (p off : Nat) (v : Word) (s : State) :
    SameBut ps s₀ (wr p off v s) ↔ SameBut ps s₀ s := by
  refine SameBut.iff (k := [.regs]) ?_ hps s₀
  simp (disch := decide) [wr]

@[simp] theorem sameBut_md {ps : List Part} (hps : covers ps [.regs] = true) (s₀ : State) (p off : Nat) (f : Word → Word) (s : State) :
    SameBut ps s₀ (md p off f s) ↔ SameBut ps s₀ s := by
  refine SameBut.iff (k := [.regs]) ?_ hps s₀
  simp (disch := decide) [md]

@[simp] theorem sameBut_setQueue {ps : List Part} (hps : covers ps [.sched] = true) (s₀ : State) (q : Nat) (l : List QEntry) (s : State) :
    SameBut ps s₀ (setQueue q l s) ↔ SameBut ps s₀ s := by
  refine SameBut.iff (k := [.sched]) ?_ hps s₀
  simp (disch := decide) [setQueue]

@[simp] theorem sameBut_pushEvent {ps : List Part} (hps : covers ps [.regs, .sched] = true) (s₀ : State) (q index : Nat) (word : Word) (coalesced : Nat) (s : State) :
    SameBut ps s₀ (pushEvent q index word coalesced s) ↔ SameBut ps s₀ s := by
  refine SameBut.iff (k := [.regs, .sched]) ?_ hps s₀
  simp (disch := decide) [pushEvent]

@[simp] theorem sameBut_countN {ps : List Part} (hps : covers ps [.regs] = true) (s₀ : State) (p off n : Nat) (s : State) :
    SameBut ps s₀ (countN p off n s) ↔ SameBut ps s₀ s := by
  refine SameBut.iff (k := [.regs]) ?_ hps s₀
  simp (disch := decide) [countN]

@[simp] theorem sameBut_count {ps : List Part} (hps : covers ps [.regs] = true) (s₀ : State) (p off : Nat) (s : State) :
    SameBut ps s₀ (count p off s) ↔ SameBut ps s₀ s := by
  refine SameBut.iff (k := [.regs]) ?_ hps s₀
  simp (disch := decide) [count]

@[simp] theorem sameBut_setCyc {ps : List Part} (hps : covers ps [.sched] = true) (s₀ : State) (x : SchedCycle) (s : State) :
    SameBut ps s₀ (setCyc x s) ↔ SameBut ps s₀ s := by
  refine SameBut.iff (k := [.sched]) ?_ hps s₀
  simp (disch := decide) [setCyc]

@[simp] theorem sameBut_queueStall {ps : List Part} (hps : covers ps [.regs, .sched] = true) (s₀ : State) (s : State) :
    SameBut ps s₀ (queueStall s) ↔ SameBut ps s₀ s := by
  refine SameBut.iff (k := [.regs, .sched]) ?_ hps s₀
  simp (disch := decide) [queueStall]

@[simp] theorem sameBut_absencePost {ps : List Part} (hps : covers ps [.regs, .sched] = true) (s₀ : State) (s : State) :
    SameBut ps s₀ (absencePost s) ↔ SameBut ps s₀ s := by
  refine SameBut.iff (k := [.regs, .sched]) ?_ hps s₀
  unfold absencePost
  split <;> simp (disch := decide)

@[simp] theorem sameBut_setArr {ps : List Part} (hps : covers ps [.regs] = true) (s₀ : State) (p off n : Nat) (b : Bool) (s : State) :
    SameBut ps s₀ (setArr p off n b s) ↔ SameBut ps s₀ s := by
  refine SameBut.iff (k := [.regs]) ?_ hps s₀
  simp (disch := decide) [setArr]

@[simp] theorem sameBut_msixSend {ps : List Part} (hps : covers ps [.regs, .io] = true) (s₀ : State) (v : Nat) (s : State) :
    SameBut ps s₀ (msixSend v s) ↔ SameBut ps s₀ s := by
  refine SameBut.iff (k := [.regs, .io]) ?_ hps s₀
  simp (disch := decide) [msixSend]

theorem sameBut_irqChange {ps : List Part} (hps : covers ps [.regs, .io] = true) {f : State → State} {s : State}
    (hf : SameBut ps s (f s)) (p : Nat) (always : Bool) : SameBut ps s (irqChange p always f s) := by
  unfold irqChange
  dsimp only
  split
  · exact hf
  · split
    · exact (sameBut_msixSend hps ..).2 hf
    · exact hf

@[simp] theorem sameBut_irq {ps : List Part} (hps : covers ps [.regs, .io] = true) (s₀ : State) (p b : Nat) (s : State) :
    SameBut ps s₀ (irq p b s) ↔ SameBut ps s₀ s := by
  refine SameBut.iff (k := [.regs, .io]) ?_ hps s₀
  exact sameBut_irqChange rfl (by simp (disch := decide)) p false

@[simp] theorem sameBut_correct {ps : List Part} (hps : covers ps [.regs, .time, .io] = true) (s₀ : State) (d : Int) (s : State) :
    SameBut ps s₀ (correct d s) ↔ SameBut ps s₀ s := by
  refine SameBut.iff (k := [.regs, .time, .io]) ?_ hps s₀
  simp (disch := decide) [correct]

@[simp] theorem sameBut_wrf {ps : List Part} (hps : covers ps [.regs] = true) (s₀ : State) (p off hi lo v : Nat) (s : State) :
    SameBut ps s₀ (wrf p off hi lo v s) ↔ SameBut ps s₀ s := by
  refine SameBut.iff (k := [.regs]) ?_ hps s₀
  simp (disch := decide) [wrf]

@[simp] theorem sameBut_setQuality {ps : List Part} (hps : covers ps [.regs, .io] = true) (s₀ : State) (q : Nat) (s : State) :
    SameBut ps s₀ (setQuality q s) ↔ SameBut ps s₀ s := by
  refine SameBut.iff (k := [.regs, .io]) ?_ hps s₀
  simp (disch := decide) [setQuality]

@[simp] theorem sameBut_decideQuality {ps : List Part} (hps : covers ps [.regs, .io] = true) (s₀ : State) (s : State) :
    SameBut ps s₀ (decideQuality s) ↔ SameBut ps s₀ s := by
  refine SameBut.iff (k := [.regs, .io]) ?_ hps s₀
  simp (disch := decide) [decideQuality]

@[simp] theorem sameBut_noteOffset {ps : List Part} (hps : covers ps [.time] = true) (s₀ : State) (d : Int) (s : State) :
    SameBut ps s₀ (noteOffset d s) ↔ SameBut ps s₀ s := by
  refine SameBut.iff (k := [.time]) ?_ hps s₀
  simp (disch := decide) [noteOffset]

@[simp] theorem sameBut_errTransient {ps : List Part} (hps : covers ps [.regs] = true) (s₀ : State) (p : Nat) (s : State) :
    SameBut ps s₀ (errTransient p s) ↔ SameBut ps s₀ s := by
  refine SameBut.iff (k := [.regs]) ?_ hps s₀
  simp (disch := decide) [errTransient]

@[simp] theorem sameBut_err {ps : List Part} (hps : covers ps [.regs, .io] = true) (s₀ : State) (p code detail addr : Nat) (s : State) :
    SameBut ps s₀ (err p code detail addr s) ↔ SameBut ps s₀ s := by
  refine SameBut.iff (k := [.regs, .io]) ?_ hps s₀
  simp (disch := decide) [err]

@[simp] theorem sameBut_permFault {ps : List Part} (hps : covers ps [.regs, .io] = true) (s₀ : State) (p off : Nat) (s : State) :
    SameBut ps s₀ (permFault p off s) ↔ SameBut ps s₀ s := by
  refine SameBut.iff (k := [.regs, .io]) ?_ hps s₀
  simp (disch := decide) [permFault]

@[simp] theorem sameBut_adjWrite {ps : List Part} (hps : covers ps [.regs, .time, .io] = true) (s₀ : State) (v : Word) (s : State) :
    SameBut ps s₀ (adjWrite v s) ↔ SameBut ps s₀ s := by
  refine SameBut.iff (k := [.regs, .time, .io]) ?_ hps s₀
  simp (disch := decide) [adjWrite]

@[simp] theorem sameBut_offAccess {ps : List Part} (hps : covers ps [.regs, .io] = true) (s₀ : State) (rq : Requester) (p off : Nat) (write : Bool) (s : State) :
    SameBut ps s₀ (offAccess rq p off write s) ↔ SameBut ps s₀ s := by
  refine SameBut.iff (k := [.regs, .io]) ?_ hps s₀
  simp (disch := decide) [offAccess]

theorem sameBut_onPage {ps : List Part} (hps : covers ps [.regs, .io] = true) {f : State → State} {s : State}
    (hf : SameBut ps s (f s)) (rq : Requester) (p off : Nat) : SameBut ps s (onPage rq p off f s) := by
  unfold onPage
  split
  · exact sameBut_refl ps s
  · split
    · exact (sameBut_offAccess (covers_trans hps rfl) ..).2 (sameBut_refl ps s)
    · exact hf

@[simp] theorem sameBut_armCode {ps : List Part} (hps : covers ps [.regs] = true) (s₀ : State) (c : Nat) (s : State) :
    SameBut ps s₀ (armCode c s) ↔ SameBut ps s₀ s := by
  refine SameBut.iff (k := [.regs]) ?_ hps s₀
  simp (disch := decide) [armCode]

@[simp] theorem sameBut_swapState {ps : List Part} (hps : covers ps [.regs] = true) (s₀ : State) (n r : Nat) (s : State) :
    SameBut ps s₀ (swapState n r s) ↔ SameBut ps s₀ s := by
  refine SameBut.iff (k := [.regs]) ?_ hps s₀
  simp (disch := decide) [swapState]

@[simp] theorem sameBut_armSet {ps : List Part} (hps : covers ps [.regs, .fox] = true) (s₀ : State) (rq : Requester) (now : Bool) (s : State) :
    SameBut ps s₀ (armSet rq now s) ↔ SameBut ps s₀ s := by
  refine SameBut.iff (k := [.regs, .fox]) ?_ hps s₀
  unfold armSet
  dsimp only
  split
  · exact sameBut_refl _ s
  · split
    · simp (disch := decide)
    · rw [sameBut_setFox (by decide), sameBut_foldl_iff fun t x => by simp (disch := decide)]
      simp (disch := decide)

@[simp] theorem sameBut_mdUpd {ps : List Part} (hps : covers ps [.upd] = true) (s₀ : State) (f : Upd → Upd) (s : State) :
    SameBut ps s₀ (mdUpd f s) ↔ SameBut ps s₀ s := by
  refine SameBut.iff (k := [.upd]) ?_ hps s₀
  simp (disch := decide) [mdUpd]

@[simp] theorem sameBut_writePointer {ps : List Part} (hps : covers ps [.upd] = true) (s₀ : State) (why : PtrFor) (f : BootPointer → BootPointer) (s : State) :
    SameBut ps s₀ (writePointer why f s) ↔ SameBut ps s₀ s := by
  refine SameBut.iff (k := [.upd]) ?_ hps s₀
  simp (disch := decide) [writePointer]

@[simp] theorem sameBut_armReturned {ps : List Part} (hps : covers ps [.upd] = true) (s₀ : State) (bitmap : List Word) (s : State) :
    SameBut ps s₀ (armReturned bitmap s) ↔ SameBut ps s₀ s := by
  refine SameBut.iff (k := [.upd]) ?_ hps s₀
  unfold armReturned
  split <;> simp (disch := decide)

@[simp] theorem sameBut_attemptCount {ps : List Part} (hps : covers ps [.upd] = true) (s₀ : State) (s : State) :
    SameBut ps s₀ (attemptCount s) ↔ SameBut ps s₀ s := by
  refine SameBut.iff (k := [.upd]) ?_ hps s₀
  simp (disch := decide) [attemptCount]

@[simp] theorem sameBut_bgPhaseDone {ps : List Part} (hps : covers ps [.wpk] = true) (s₀ : State) (s : State) :
    SameBut ps s₀ (bgPhaseDone s) ↔ SameBut ps s₀ s := by
  refine SameBut.iff (k := [.wpk]) ?_ hps s₀
  unfold bgPhaseDone
  (repeat' split) <;> simp (disch := decide)

@[simp] theorem sameBut_setChan {ps : List Part} (hps : covers ps [.net] = true) (s₀ : State) (c : ChanId) (x : Channel) (s : State) :
    SameBut ps s₀ (setChan c x s) ↔ SameBut ps s₀ s := by
  refine SameBut.iff (k := [.net]) ?_ hps s₀
  simp (disch := decide) [setChan]

@[simp] theorem sameBut_mdChan {ps : List Part} (hps : covers ps [.net] = true) (s₀ : State) (c : ChanId) (f : Channel → Channel) (s : State) :
    SameBut ps s₀ (mdChan c f s) ↔ SameBut ps s₀ s := by
  refine SameBut.iff (k := [.net]) ?_ hps s₀
  simp (disch := decide) [mdChan]

@[simp] theorem sameBut_countCreditWait {ps : List Part} (hps : covers ps [.regs, .net] = true) (s₀ : State) (inp : ChanId) (s : State) :
    SameBut ps s₀ (countCreditWait inp s) ↔ SameBut ps s₀ s := by
  refine SameBut.iff (k := [.regs, .net]) ?_ hps s₀
  unfold countCreditWait
  split <;> simp (disch := decide)

@[simp] theorem sameBut_popBuffer {ps : List Part} (hps : covers ps [.net] = true) (s₀ : State) (c : ChanId) (s : State) :
    SameBut ps s₀ (popBuffer c s) ↔ SameBut ps s₀ s := by
  refine SameBut.iff (k := [.net]) ?_ hps s₀
  simp (disch := decide) [popBuffer]

@[simp] theorem sameBut_wr64 {ps : List Part} (hps : covers ps [.regs] = true) (s₀ : State) (p off : Nat) (v : BitVec 64) (s : State) :
    SameBut ps s₀ (wr64 p off v s) ↔ SameBut ps s₀ s := by
  refine SameBut.iff (k := [.regs]) ?_ hps s₀
  simp (disch := decide) [wr64]

@[simp] theorem sameBut_count64 {ps : List Part} (hps : covers ps [.regs] = true) (s₀ : State) (p off n : Nat) (s : State) :
    SameBut ps s₀ (count64 p off n s) ↔ SameBut ps s₀ s := by
  refine SameBut.iff (k := [.regs]) ?_ hps s₀
  simp (disch := decide) [count64]

@[simp] theorem sameBut_countLaunched {ps : List Part} (hps : covers ps [.regs] = true) (s₀ : State) (c : ChanId) (n : Nat) (s : State) :
    SameBut ps s₀ (countLaunched c n s) ↔ SameBut ps s₀ s := by
  refine SameBut.iff (k := [.regs]) ?_ hps s₀
  unfold countLaunched
  split
  · exact sameBut_refl _ s
  · cases c <;> simp (disch := decide)

@[simp] theorem sameBut_pump {ps : List Part} (hps : covers ps [.regs, .net] = true) (s₀ : State) (c : ChanId) (s : State) :
    SameBut ps s₀ (pump c s) ↔ SameBut ps s₀ s := by
  refine SameBut.iff (k := [.regs, .net]) ?_ hps s₀
  unfold pump
  split <;> simp (disch := decide)

@[simp] theorem sameBut_sendAs {ps : List Part} (hps : covers ps [.regs, .net] = true) (s₀ : State) (m : Option Word) (c : ChanId) (ws : List TWord) (s : State) :
    SameBut ps s₀ (sendAs m c ws s) ↔ SameBut ps s₀ s := by
  refine SameBut.iff (k := [.regs, .net]) ?_ hps s₀
  simp (disch := decide) [sendAs]

@[simp] theorem sameBut_release {ps : List Part} (hps : covers ps [.regs, .net] = true) (s₀ : State) (c : ChanId) (s : State) :
    SameBut ps s₀ (release c s) ↔ SameBut ps s₀ s := by
  refine SameBut.iff (k := [.regs, .net]) ?_ hps s₀
  unfold release
  dsimp only
  rw [sameBut_foldl_iff fun t x => by simp (disch := decide)]
  simp (disch := decide)

@[simp] theorem sameBut_send {ps : List Part} (hps : covers ps [.regs, .net] = true) (s₀ : State) (c : ChanId) (ws : List TWord) (s : State) :
    SameBut ps s₀ (send c ws s) ↔ SameBut ps s₀ s := by
  refine SameBut.iff (k := [.regs, .net]) ?_ hps s₀
  simp (disch := decide) [send]

@[simp] theorem sameBut_unterminated {ps : List Part} (hps : covers ps [.regs] = true) (s₀ : State) (inp : ChanId) (s : State) :
    SameBut ps s₀ (unterminated inp s) ↔ SameBut ps s₀ s := by
  refine SameBut.iff (k := [.regs]) ?_ hps s₀
  unfold unterminated
  split <;> simp (disch := decide)

@[simp] theorem sameBut_advance {ps : List Part} (hps : covers ps [.regs, .net] = true) (s₀ : State) (fuel : Nat) (inp : ChanId) (s : State) :
    SameBut ps s₀ (advance fuel inp s) ↔ SameBut ps s₀ s := by
  refine SameBut.iff (k := [.regs, .net]) ?_ hps s₀
  induction fuel generalizing s with
  | zero => exact sameBut_refl _ s
  | succ fuel ih =>

    have step (t : State) (ht : SameBut [.regs, .net] s t) :
        SameBut [.regs, .net] s (advance fuel inp t) := ht.trans (ih t)
    unfold advance
    dsimp only
    split
    · exact sameBut_refl _ s
    · exact sameBut_refl _ s
    · split
      · simp (disch := decide)
      · split
        · simp (disch := decide)
        · exact step _ (by simp (disch := decide))
    · split
      · exact sameBut_refl _ s
      · split
        · simp (disch := decide)
        · split
          · simp (disch := decide)
          · split
            · simp (disch := decide)
            · exact step _ (by simp (disch := decide))

@[simp] theorem sameBut_advanceAll {ps : List Part} (hps : covers ps [.regs, .net] = true) (s₀ : State) (inp : ChanId) (s : State) :
    SameBut ps s₀ (advanceAll inp s) ↔ SameBut ps s₀ s := by
  refine SameBut.iff (k := [.regs, .net]) ?_ hps s₀
  simp (disch := decide) [advanceAll]

@[simp] theorem sameBut_advanceHolder {ps : List Part} (hps : covers ps [.regs, .net] = true) (s₀ : State) (o : ChanId) (s : State) :
    SameBut ps s₀ (advanceHolder o s) ↔ SameBut ps s₀ s := by
  refine SameBut.iff (k := [.regs, .net]) ?_ hps s₀
  unfold advanceHolder
  split <;> simp (disch := decide)

@[simp] theorem sameBut_bgResume {ps : List Part} (hps : covers ps [.regs, .net] = true) (s₀ : State) (b : BgSlice) (s : State) :
    SameBut ps s₀ (bgResume b s) ↔ SameBut ps s₀ s := by
  refine SameBut.iff (k := [.regs, .net]) ?_ hps s₀
  simp (disch := decide) [bgResume]

@[simp] theorem sameBut_sliceCounted {ps : List Part} (hps : covers ps [.regs] = true) (s₀ : State) (b : BgSlice) (verdict : Nat) (s : State) :
    SameBut ps s₀ (sliceCounted b verdict s) ↔ SameBut ps s₀ s := by
  refine SameBut.iff (k := [.regs]) ?_ hps s₀
  unfold sliceCounted
  (repeat' split) <;> simp (disch := decide)

@[simp] theorem sameBut_sliceOver {ps : List Part} (hps : covers ps [.regs, .wpk] = true) (s₀ : State) (s : State) :
    SameBut ps s₀ (sliceOver s) ↔ SameBut ps s₀ s := by
  refine SameBut.iff (k := [.regs, .wpk]) ?_ hps s₀
  simp (disch := decide) [sliceOver]

@[simp] theorem sameBut_bgCut {ps : List Part} (hps : covers ps [.regs, .net, .wpk] = true) (s₀ : State) (s : State) :
    SameBut ps s₀ (bgCut s) ↔ SameBut ps s₀ s := by
  refine SameBut.iff (k := [.regs, .net, .wpk]) ?_ hps s₀
  unfold bgCut
  split <;> simp (disch := decide)

@[simp] theorem sameBut_budgetExpiry {ps : List Part} (hps : covers ps [.regs, .net, .wpk] = true) (s₀ : State) (s : State) :
    SameBut ps s₀ (budgetExpiry s) ↔ SameBut ps s₀ s := by
  refine SameBut.iff (k := [.regs, .net, .wpk]) ?_ hps s₀
  simp (disch := decide) [budgetExpiry]

@[simp] theorem sameBut_selectBypass {ps : List Part} (hps : covers ps [.io] = true) (s₀ : State) (t : TapInstr) (s : State) :
    SameBut ps s₀ (selectBypass t s) ↔ SameBut ps s₀ s := by
  refine SameBut.iff (k := [.io]) ?_ hps s₀
  simp (disch := decide) [selectBypass]

@[simp] theorem sameBut_eraseContents {ps : List Part} (hps : covers ps [.flash] = true) (s₀ : State) (x : Nat) (s : State) :
    SameBut ps s₀ (eraseContents x s) ↔ SameBut ps s₀ s := by
  refine SameBut.iff (k := [.flash]) ?_ hps s₀
  simp (disch := decide) [eraseContents]

@[simp] theorem sameBut_mdWear {ps : List Part} (hps : covers ps [.flash] = true) (s₀ : State) (x : Nat) (f : Wear → Wear) (s : State) :
    SameBut ps s₀ (mdWear x f s) ↔ SameBut ps s₀ s := by
  refine SameBut.iff (k := [.flash]) ?_ hps s₀
  simp (disch := decide) [mdWear]

@[simp] theorem sameBut_retireSector {ps : List Part} (hps : covers ps [.regs, .flash, .io] = true) (s₀ : State) (x : Nat) (s : State) :
    SameBut ps s₀ (retireSector x s) ↔ SameBut ps s₀ s := by
  refine SameBut.iff (k := [.regs, .flash, .io]) ?_ hps s₀
  simp (disch := decide) [retireSector]

@[simp] theorem sameBut_markProgrammed {ps : List Part} (hps : covers ps [.flash] = true) (s₀ : State) (x p : Nat) (s : State) :
    SameBut ps s₀ (markProgrammed x p s) ↔ SameBut ps s₀ s := by
  refine SameBut.iff (k := [.flash]) ?_ hps s₀
  simp (disch := decide) [markProgrammed]

@[simp] theorem sameBut_undefPages {ps : List Part} (hps : covers ps [.flash, .free] = true) (s₀ : State) (x lo hi : Nat) (s : State) :
    SameBut ps s₀ (undefPages x lo hi s) ↔ SameBut ps s₀ s := by
  refine SameBut.iff (k := [.flash, .free]) ?_ hps s₀
  unfold undefPages
  refine sameBut_foldl (fun t x => ?_) _ _
  (repeat' split) <;> simp (disch := decide)

@[simp] theorem sameBut_undefSector {ps : List Part} (hps : covers ps [.flash, .free] = true) (s₀ : State) (x : Nat) (s : State) :
    SameBut ps s₀ (undefSector x s) ↔ SameBut ps s₀ s := by
  refine SameBut.iff (k := [.flash, .free]) ?_ hps s₀
  unfold undefSector
  rw [sameBut_foldl_iff fun t x => by simp (disch := decide)]
  simp (disch := decide)

@[simp] theorem sameBut_warnSector {ps : List Part} (hps : covers ps [.regs, .flash, .io] = true) (s₀ : State) (x : Nat) (s : State) :
    SameBut ps s₀ (warnSector x s) ↔ SameBut ps s₀ s := by
  refine SameBut.iff (k := [.regs, .flash, .io]) ?_ hps s₀
  simp (disch := decide) [warnSector]

@[simp] theorem sameBut_sectorErased {ps : List Part} (hps : covers ps [.regs, .flash, .io, .free] = true) (s₀ : State) (x pulses : Nat) (ok : Bool) (s : State) :
    SameBut ps s₀ (sectorErased x pulses ok s).2 ↔ SameBut ps s₀ s := by
  refine SameBut.iff (k := [.regs, .flash, .io, .free]) ?_ hps s₀
  unfold sectorErased
  dsimp only
  (repeat' split) <;> simp (disch := decide)

@[simp] theorem sameBut_bankErased {ps : List Part} (hps : covers ps [.regs, .flash, .io, .free] = true) (s₀ : State)
    (b pulses : Nat) (ok : Bool) (failing : BitVec 40) (s : State) :
    SameBut ps s₀ (bankErased b pulses ok failing s).2 ↔ SameBut ps s₀ s := by
  refine SameBut.iff (k := [.regs, .flash, .io, .free]) ?_ hps s₀
  unfold bankErased
  refine List.foldlRecOn (motive := fun a : Nat × State => SameBut [.regs, .flash, .io, .free] s a.2) _ _ (sameBut_refl _ s)
    fun a ha x _ => ?_
  simp (disch := decide) [ha]

@[simp] theorem sameBut_flashCode {ps : List Part} (hps : covers ps [.regs] = true) (s₀ : State) (b code : Nat) (s : State) :
    SameBut ps s₀ (flashCode b code s) ↔ SameBut ps s₀ s := by
  refine SameBut.iff (k := [.regs]) ?_ hps s₀
  simp (disch := decide) [flashCode]

@[simp] theorem sameBut_flashShow {ps : List Part} (hps : covers ps [.regs] = true) (s₀ : State) (b op x : Nat) (s : State) :
    SameBut ps s₀ (flashShow b op x s) ↔ SameBut ps s₀ s := by
  refine SameBut.iff (k := [.regs]) ?_ hps s₀
  simp (disch := decide) [flashShow]

@[simp] theorem sameBut_mdFbank {ps : List Part} (hps : covers ps [.flash] = true) (s₀ : State) (b : Nat) (f : FlashBank → FlashBank) (s : State) :
    SameBut ps s₀ (mdFbank b f s) ↔ SameBut ps s₀ s := by
  refine SameBut.iff (k := [.flash]) ?_ hps s₀
  simp (disch := decide) [mdFbank]

@[simp] theorem sameBut_storePage {ps : List Part} (hps : covers ps [.flash] = true) (s₀ : State) (x p : Nat) (buf : SMap (BitVec 16)) (s : State) :
    SameBut ps s₀ (storePage x p buf s) ↔ SameBut ps s₀ s := by
  refine SameBut.iff (k := [.flash]) ?_ hps s₀
  simp (disch := decide) [storePage]

@[simp] theorem sameBut_programEnd {ps : List Part} (hps : covers ps [.regs, .flash, .io, .free] = true) (s₀ : State) (o : FlashOp) (retries : Nat) (ok : Bool) (s : State) :
    SameBut ps s₀ (programEnd o retries ok s).2 ↔ SameBut ps s₀ s := by
  refine SameBut.iff (k := [.regs, .flash, .io, .free]) ?_ hps s₀
  unfold programEnd
  dsimp only
  (repeat' split) <;> simp (disch := decide)

@[simp] theorem sameBut_resumeOp {ps : List Part} (hps : covers ps [.regs, .flash] = true) (s₀ : State) (b : Nat) (s : State) :
    SameBut ps s₀ (resumeOp b s) ↔ SameBut ps s₀ s := by
  refine SameBut.iff (k := [.regs, .flash]) ?_ hps s₀
  unfold resumeOp
  split <;> simp (disch := decide)

@[simp] theorem sameBut_opDone {ps : List Part} (hps : covers ps [.regs, .flash, .io, .free] = true) (s₀ : State) (b effort : Nat) (ok : Bool) (failing : BitVec 40) (s : State) :
    SameBut ps s₀ (opDone b effort ok failing s) ↔ SameBut ps s₀ s := by
  refine SameBut.iff (k := [.regs, .flash, .io, .free]) ?_ hps s₀
  unfold opDone
  dsimp only
  (repeat' split) <;> simp (disch := decide)

@[simp] theorem sameBut_copyToP6 {ps : List Part} (hps : covers ps [.flash] = true) (s₀ : State) (x : Nat) (s : State) :
    SameBut ps s₀ (copyToP6 x s) ↔ SameBut ps s₀ s := by
  refine SameBut.iff (k := [.flash]) ?_ hps s₀
  unfold copyToP6
  refine sameBut_foldl (fun t x => ?_) _ _
  (repeat' split) <;> simp (disch := decide)

@[simp] theorem sameBut_startOp {ps : List Part} (hps : covers ps [.regs, .flash] = true) (s₀ : State) (b code x page : Nat) (buf : SMap (BitVec 16)) (s : State) :
    SameBut ps s₀ (startOp b code x page buf s) ↔ SameBut ps s₀ s := by
  refine SameBut.iff (k := [.regs, .flash]) ?_ hps s₀
  simp (disch := decide) [startOp]

@[simp] theorem sameBut_pointerUpkeep {ps : List Part} (hps : covers ps [.regs, .flash] = true) (s₀ : State) (s : State) :
    SameBut ps s₀ (pointerUpkeep s) ↔ SameBut ps s₀ s := by
  refine SameBut.iff (k := [.regs, .flash]) ?_ hps s₀
  simp (disch := decide) [pointerUpkeep]

theorem sameBut_programPointer {ps : List Part} (hps : covers ps [.regs, .flash, .upd] = true) {p : BootPointer} {s t : State} (hs : programPointer p s = some t) :
    SameBut ps s t := by
  refine SameBut.weaken (k := [.regs, .flash, .upd]) ?_ hps
  unfold programPointer at hs
  dsimp only at hs
  split at hs
  · cases hs
  · split at hs
    · cases hs
    · cases hs
      simp (disch := decide)

@[simp] theorem sameBut_relocate {ps : List Part} (hps : covers ps [.regs, .flash, .upd] = true) (s₀ : State) (x : Nat) (s : State) :
    SameBut ps s₀ (relocate x s) ↔ SameBut ps s₀ s := by
  refine SameBut.iff (k := [.regs, .flash, .upd]) ?_ hps s₀
  unfold relocate
  dsimp only
  split
  · have hcopy : SameBut [.regs, .flash, .upd] s (copyToP6 x s) := by simp (disch := decide)
    cases hp : programPointer (copyToP6 x s).upd.pointer (copyToP6 x s) with
    | none => exact hcopy
    | some t => exact hcopy.trans (sameBut_programPointer (by decide) hp)
  · exact sameBut_refl _ s

@[simp] theorem sameBut_cdfOpDone {ps : List Part} (hps : covers ps [.regs, .flash, .upd, .io, .free] = true) (s₀ : State) (b effort : Nat) (ok : Bool) (failing : BitVec 40) (s : State) :
    SameBut ps s₀ (cdfOpDone b effort ok failing s) ↔ SameBut ps s₀ s := by
  refine SameBut.iff (k := [.regs, .flash, .upd, .io, .free]) ?_ hps s₀
  unfold cdfOpDone
  dsimp only
  rw [sameBut_foldl_iff fun t x => by simp (disch := decide)]
  simp (disch := decide)

@[simp] theorem sameBut_seqError {ps : List Part} (hps : covers ps [.regs] = true) (s₀ : State) (s : State) :
    SameBut ps s₀ (seqError s) ↔ SameBut ps s₀ s := by
  refine SameBut.iff (k := [.regs]) ?_ hps s₀
  simp (disch := decide) [seqError]

@[simp] theorem sameBut_endLoad {ps : List Part} (hps : covers ps [.regs, .flash] = true) (s₀ : State) (b : Nat) (s : State) :
    SameBut ps s₀ (endLoad b s) ↔ SameBut ps s₀ s := by
  refine SameBut.iff (k := [.regs, .flash]) ?_ hps s₀
  simp (disch := decide) [endLoad]

@[simp] theorem sameBut_startProgram {ps : List Part} (hps : covers ps [.regs, .flash] = true) (s₀ : State) (b x p : Nat) (buf : SMap (BitVec 16)) (s : State) :
    SameBut ps s₀ (startProgram b x p buf s) ↔ SameBut ps s₀ s := by
  refine SameBut.iff (k := [.regs, .flash]) ?_ hps s₀
  simp (disch := decide) [startProgram]

@[simp] theorem sameBut_loadWrite {ps : List Part} (hps : covers ps [.regs, .flash] = true) (s₀ : State) (b : Nat) (l : PageLoad) (off : Nat) (v : BitVec 16) (s : State) :
    SameBut ps s₀ (loadWrite b l off v s) ↔ SameBut ps s₀ s := by
  refine SameBut.iff (k := [.regs, .flash]) ?_ hps s₀
  simp (disch := decide) [loadWrite]

@[simp] theorem sameBut_pushRead {ps : List Part} (hps : covers ps [.io] = true) (s₀ : State) (rq : Requester) (y : TWord) (s : State) :
    SameBut ps s₀ (pushRead rq y s) ↔ SameBut ps s₀ s := by
  refine SameBut.iff (k := [.io]) ?_ hps s₀
  simp (disch := decide) [pushRead]

@[simp] theorem sameBut_deliver {ps : List Part} (hps : covers ps [.io] = true) (s₀ : State) (rq : Requester) (x : TWord) (s : State) :
    SameBut ps s₀ (deliver rq x s) ↔ SameBut ps s₀ s := by
  refine SameBut.iff (k := [.io]) ?_ hps s₀
  simp (disch := decide) [deliver]

@[simp] theorem sameBut_deliverCode {ps : List Part} (hps : covers ps [.io] = true) (s₀ : State) (rq : Requester) (code : Nat) (s : State) :
    SameBut ps s₀ (deliverCode rq code s) ↔ SameBut ps s₀ s := by
  refine SameBut.iff (k := [.io]) ?_ hps s₀
  unfold deliverCode
  split <;> simp (disch := decide)

@[simp] theorem sameBut_reservedAccess {ps : List Part} (hps : covers ps [.regs, .io] = true) (s₀ : State) (rq : Requester) (a : Nat) (isWrite : Bool) (s : State) :
    SameBut ps s₀ (reservedAccess rq a isWrite s) ↔ SameBut ps s₀ s := by
  refine SameBut.iff (k := [.regs, .io]) ?_ hps s₀
  unfold reservedAccess
  split <;> simp (disch := decide)

@[simp] theorem sameBut_zeroiseKeys {ps : List Part} (hps : covers ps [.flash] = true) (s₀ : State) (s : State) :
    SameBut ps s₀ (zeroiseKeys s) ↔ SameBut ps s₀ s := by
  refine SameBut.iff (k := [.flash]) ?_ hps s₀
  simp (disch := decide) [zeroiseKeys]

theorem sameBut_comparePw {ps : List Part} (hps : covers ps [.regs, .flash, .io] = true) {onMatch : State → State}
    (hf : ∀ t, SameBut ps t (onMatch t)) (s : State) : SameBut ps s (comparePw onMatch s) := by
  have hz (t : State) (ht : SameBut ps s t) : SameBut ps s (zeroiseKeys t) :=
    (sameBut_zeroiseKeys (covers_trans hps rfl) s t).2 ht
  have hr (t : State) (ht : SameBut [.regs, .io] s t) : SameBut ps s t := ht.weaken (covers_trans hps rfl)
  unfold comparePw
  dsimp only
  refine hz _ ?_
  split
  · exact (hr _ (by simp (disch := decide))).trans (hf _)
  · split
    · exact hr _ (by simp (disch := decide))
    · exact hr _ (by simp (disch := decide))

@[simp] theorem sameBut_resumeCmd {ps : List Part} (hps : covers ps [.regs, .flash] = true) (s₀ : State) (b : Nat) (s : State) :
    SameBut ps s₀ (resumeCmd b s) ↔ SameBut ps s₀ s := by
  refine SameBut.iff (k := [.regs, .flash]) ?_ hps s₀
  simp (disch := decide) [resumeCmd]

@[simp] theorem sameBut_setGuard {ps : List Part} (hps : covers ps [.flash] = true) (s₀ : State) (g : Nat) (v : Bool) (s : State) :
    SameBut ps s₀ (setGuard g v s) ↔ SameBut ps s₀ s := by
  refine SameBut.iff (k := [.flash]) ?_ hps s₀
  simp (disch := decide) [setGuard]

@[simp] theorem sameBut_suspendCmd {ps : List Part} (hps : covers ps [.flash] = true) (s₀ : State) (b : Nat) (s : State) :
    SameBut ps s₀ (suspendCmd b s) ↔ SameBut ps s₀ s := by
  refine SameBut.iff (k := [.flash]) ?_ hps s₀
  simp (disch := decide) [suspendCmd]

@[simp] theorem sameBut_cdfAccepted {ps : List Part} (hps : covers ps [.regs, .flash, .io] = true) (s₀ : State) (rq : Requester) (code b x page : Nat) (s : State) :
    SameBut ps s₀ (cdfAccepted rq code b x page s) ↔ SameBut ps s₀ s := by
  refine SameBut.iff (k := [.regs, .flash, .io]) ?_ hps s₀
  unfold cdfAccepted
  dsimp only
  have hkey : SameBut [.regs, .flash, .io] s (comparePw (fun t => setGuard (guardGroup x) false (startOp b code x 0 [] t)) s) :=
    sameBut_comparePw (by decide) (fun t => by simp (disch := decide)) s
  (repeat' split) <;> simp (disch := decide) [hkey]

@[simp] theorem sameBut_cdfRefused {ps : List Part} (hps : covers ps [.regs] = true) (s₀ : State) (rq : Requester) (code b x c : Nat) (s : State) :
    SameBut ps s₀ (cdfRefused rq code b x c s) ↔ SameBut ps s₀ s := by
  refine SameBut.iff (k := [.regs]) ?_ hps s₀
  simp (disch := decide) [cdfRefused]

@[simp] theorem sameBut_cdfCommand {ps : List Part} (hps : covers ps [.regs, .flash, .io] = true) (s₀ : State) (rq : Requester) (host : Bool) (fromBank : Option Nat) (code b x page : Nat) (s : State) :
    SameBut ps s₀ (cdfCommand rq host fromBank code b x page s).2 ↔ SameBut ps s₀ s := by
  refine SameBut.iff (k := [.regs, .flash, .io]) ?_ hps s₀
  unfold cdfCommand
  (repeat' split) <;> simp (disch := decide)

@[simp] theorem sameBut_setSeq {ps : List Part} (hps : covers ps [.flash] = true) (s₀ : State) (rq : Requester) (b n : Nat) (s : State) :
    SameBut ps s₀ (setSeq rq b n s) ↔ SameBut ps s₀ s := by
  refine SameBut.iff (k := [.flash]) ?_ hps s₀
  simp (disch := decide) [setSeq]

@[simp] theorem sameBut_seqWrite {ps : List Part} (hps : covers ps [.regs, .flash, .io] = true) (s₀ : State) (rq : Requester) (b x off : Nat) (v : BitVec 16) (fromBank : Option Nat) (s : State) :
    SameBut ps s₀ (seqWrite rq b x off v fromBank s) ↔ SameBut ps s₀ s := by
  refine SameBut.iff (k := [.regs, .flash, .io]) ?_ hps s₀
  unfold seqWrite
  split <;> simp (disch := decide)

@[simp] theorem sameBut_arrayWrite {ps : List Part} (hps : covers ps [.regs, .flash, .io] = true) (s₀ : State) (rq : Requester) (off : Nat) (v : BitVec 16) (fromBank : Option Nat) (s : State) :
    SameBut ps s₀ (arrayWrite rq off v fromBank s) ↔ SameBut ps s₀ s := by
  refine SameBut.iff (k := [.regs, .flash, .io]) ?_ hps s₀
  unfold arrayWrite
  dsimp only
  (repeat' split) <;> simp (disch := decide)

@[simp] theorem sameBut_clkRefused {ps : List Part} (hps : covers ps [.regs, .io] = true) (s₀ : State) (rcline loop : Bool) (index level addr : Nat) (s : State) :
    SameBut ps s₀ (clkRefused rcline loop index level addr s) ↔ SameBut ps s₀ s := by
  refine SameBut.iff (k := [.regs, .io]) ?_ hps s₀
  simp (disch := decide) [clkRefused]

@[simp] theorem sameBut_clCfgWrite {ps : List Part} (hps : covers ps [.regs, .io] = true) (s₀ : State) (n : Nat) (v : Word) (s : State) :
    SameBut ps s₀ (clCfgWrite n v s) ↔ SameBut ps s₀ s := by
  refine SameBut.iff (k := [.regs, .io]) ?_ hps s₀
  unfold clCfgWrite
  dsimp only
  (repeat' split) <;> simp (disch := decide)

@[simp] theorem sameBut_takePins {ps : List Part} (hps : covers ps [.io] = true) (s₀ : State) (t : TapInstr) (s : State) :
    SameBut ps s₀ (takePins t s) ↔ SameBut ps s₀ s := by
  refine SameBut.iff (k := [.io]) ?_ hps s₀
  simp (disch := decide) [takePins]

@[simp] theorem sameBut_clearLow {ps : List Part} (hps : covers ps [.dev] = true) (s₀ : State) (rq : Requester) (p lowOff : Nat) (s : State) :
    SameBut ps s₀ (clearLow rq p lowOff s) ↔ SameBut ps s₀ s := by
  refine SameBut.iff (k := [.dev]) ?_ hps s₀
  exact sameBut_setDev_keeping rfl rfl

@[simp] theorem sameBut_holdLow {ps : List Part} (hps : covers ps [.dev] = true) (s₀ : State) (rq : Requester) (p lowOff : Nat) (v : Word) (s : State) :
    SameBut ps s₀ (holdLow rq p lowOff v s) ↔ SameBut ps s₀ s := by
  refine SameBut.iff (k := [.dev]) ?_ hps s₀
  exact sameBut_setDev_keeping rfl rfl

@[simp] theorem sameBut_pairWrite {ps : List Part} (hps : covers ps [.dev] = true) (s₀ : State) (rq : Requester) (p lowOff : Nat) (high : Bool) (v : Word) (cur : BitVec 64) (s : State) :
    SameBut ps s₀ (pairWrite rq p lowOff high v cur s).1 ↔ SameBut ps s₀ s := by
  refine SameBut.iff (k := [.dev]) ?_ hps s₀
  unfold pairWrite
  (repeat' split) <;> simp (disch := decide)

@[simp] theorem sameBut_setCtx {ps : List Part} (hps : covers ps [.sched] = true) (s₀ : State) (t : Nat) (x : Ctx) (s : State) :
    SameBut ps s₀ (setCtx t x s) ↔ SameBut ps s₀ s := by
  refine SameBut.iff (k := [.sched]) ?_ hps s₀
  simp (disch := decide) [setCtx]

@[simp] theorem sameBut_ctxWrite {ps : List Part} (hps : covers ps [.dev, .regs, .sched, .io] = true) (s₀ : State) (rq : Requester) (w : Nat) (v : Word) (s : State) :
    SameBut ps s₀ (ctxWrite rq w v s) ↔ SameBut ps s₀ s := by
  refine SameBut.iff (k := [.dev, .regs, .sched, .io]) ?_ hps s₀
  unfold ctxWrite
  dsimp only
  split
  · split <;> simp (disch := decide)
  · split <;> simp (disch := decide)
  · split <;> simp (disch := decide)
  · simp (disch := decide)
  · have hp := fun (cur : BitVec 64) => (sameBut_pairWrite (ps := [.dev, .regs, .sched, .io]) (by decide) s rq P.SCH1 (R.SCH1_CTX_W + 12) true v cur s).2
      (sameBut_refl _ s)
    split
    · rename_i u x heq
      have hu := hp (join64 (ctx (rdf P.SCH1 R.SCH1_CTX_SEL 11 0 s) s).w3 (ctx (rdf P.SCH1 R.SCH1_CTX_SEL 11 0 s) s).w4)
      rw [heq] at hu
      exact (sameBut_setCtx (by decide) ..).2 hu
    · rename_i u heq
      have hu := hp (join64 (ctx (rdf P.SCH1 R.SCH1_CTX_SEL 11 0 s) s).w3 (ctx (rdf P.SCH1 R.SCH1_CTX_SEL 11 0 s) s).w4)
      rw [heq] at hu
      exact hu
  all_goals simp (disch := decide)

@[simp] theorem sameBut_creditBack {ps : List Part} (hps : covers ps [.regs, .net] = true) (s₀ : State) (c : ChanId) (s : State) :
    SameBut ps s₀ (creditBack c s) ↔ SameBut ps s₀ s := by
  refine SameBut.iff (k := [.regs, .net]) ?_ hps s₀
  simp (disch := decide) [creditBack]

@[simp] theorem sameBut_sendChar {ps : List Part} (hps : covers ps [.ring] = true) (s₀ : State) (kind : Nat) (v : BitVec 64) (s : State) :
    SameBut ps s₀ (sendChar kind v s) ↔ SameBut ps s₀ s := by
  refine SameBut.iff (k := [.ring]) ?_ hps s₀
  simp (disch := decide) [sendChar]

@[simp] theorem sameBut_launchSyncs {ps : List Part} (hps : covers ps [.regs, .ring] = true) (s₀ : State) (s : State) :
    SameBut ps s₀ (launchSyncs s) ↔ SameBut ps s₀ s := by
  refine SameBut.iff (k := [.regs, .ring]) ?_ hps s₀
  unfold launchSyncs
  split
  · exact sameBut_refl _ s
  · rw [sameBut_foldl_iff fun t x => by simp (disch := decide)]
    simp (disch := decide)

@[simp] theorem sameBut_ringServe {ps : List Part} (hps : covers ps [.regs, .net, .ring] = true) (s₀ : State) (fuel : Nat) (s : State) :
    SameBut ps s₀ (ringServe fuel s) ↔ SameBut ps s₀ s := by
  refine SameBut.iff (k := [.regs, .net, .ring]) ?_ hps s₀
  induction fuel generalizing s with
  | zero => exact sameBut_refl _ s
  | succ fuel ih =>

    unfold ringServe
    split
    · exact sameBut_refl _ s
    · split
      · exact sameBut_refl _ s
      · exact SameBut.trans (by simp (disch := decide)) (ih _)

@[simp] theorem sameBut_ringPump {ps : List Part} (hps : covers ps [.regs, .net, .ring] = true) (s₀ : State) (s : State) :
    SameBut ps s₀ (ringPump s) ↔ SameBut ps s₀ s := by
  refine SameBut.iff (k := [.regs, .net, .ring]) ?_ hps s₀
  simp (disch := decide) [ringPump]

@[simp] theorem sameBut_creditReturned {ps : List Part} (hps : covers ps [.regs, .net, .ring] = true) (s₀ : State) (c : ChanId) (s : State) :
    SameBut ps s₀ (creditReturned c s) ↔ SameBut ps s₀ s := by
  refine SameBut.iff (k := [.regs, .net, .ring]) ?_ hps s₀
  simp (disch := decide) [creditReturned]

@[simp] theorem sameBut_setFf {ps : List Part} (hps : covers ps [.logic] = true) (s₀ : State) (r i n : Nat) (v : Bool) (s : State) :
    SameBut ps s₀ (setFf r i n v s) ↔ SameBut ps s₀ s := by
  refine SameBut.iff (k := [.logic]) ?_ hps s₀
  simp (disch := decide) [setFf]

@[simp] theorem sameBut_asyncPass {ps : List Part} (hps : covers ps [.logic] = true) (s₀ : State) (r : Nat) (slices : List Nat) (s : State) :
    SameBut ps s₀ (asyncPass r slices s) ↔ SameBut ps s₀ s := by
  refine SameBut.iff (k := [.logic]) ?_ hps s₀
  have hl (t : State) (ht : LogicOnly s t) : SameBut [.logic] s t := fun p hp => by
    rw [ht]; cases p <;> simp_all [agree]
  exact hl _ (logicOnly_asyncPass ..)

@[simp] theorem sameBut_asyncSettle {ps : List Part} (hps : covers ps [.logic] = true) (s₀ : State) (fuel r : Nat) (slices : List Nat) (s : State) :
    SameBut ps s₀ (asyncSettle fuel r slices s) ↔ SameBut ps s₀ s := by
  refine SameBut.iff (k := [.logic]) ?_ hps s₀
  have hl (t : State) (ht : LogicOnly s t) : SameBut [.logic] s t := fun p hp => by
    rw [ht]; cases p <;> simp_all [agree]
  exact hl _ (logicOnly_asyncSettle ..)

@[simp] theorem sameBut_settleLogic {ps : List Part} (hps : covers ps [.logic] = true) (s₀ : State) (r : Nat) (s : State) :
    SameBut ps s₀ (settleLogic r s) ↔ SameBut ps s₀ s := by
  refine SameBut.iff (k := [.logic]) ?_ hps s₀
  simp (disch := decide) [settleLogic]

@[simp] theorem sameBut_settleTap {ps : List Part} (hps : covers ps [.logic] = true) (s₀ : State) (c : ChanId) (s : State) :
    SameBut ps s₀ (settleTap c s) ↔ SameBut ps s₀ s := by
  refine SameBut.iff (k := [.logic]) ?_ hps s₀
  unfold settleTap
  split <;> simp (disch := decide)

@[simp] theorem sameBut_disarmSet {ps : List Part} (hps : covers ps [.fox] = true) (s₀ : State) (s : State) :
    SameBut ps s₀ (disarmSet s) ↔ SameBut ps s₀ s := by
  refine SameBut.iff (k := [.fox]) ?_ hps s₀
  simp (disch := decide) [disarmSet]

@[simp] theorem sameBut_disarmCmd {ps : List Part} (hps : covers ps [.regs, .fox] = true) (s₀ : State) (s : State) :
    SameBut ps s₀ (disarmCmd s) ↔ SameBut ps s₀ s := by
  refine SameBut.iff (k := [.regs, .fox]) ?_ hps s₀
  unfold disarmCmd
  split
  · exact sameBut_refl _ s
  · split
    · simp (disch := decide)
    · rw [sameBut_disarmSet (by decide), sameBut_foldl_iff fun t x => by simp (disch := decide)]
      simp (disch := decide)

@[simp] theorem sameBut_moveDelay {ps : List Part} (hps : covers ps [.regs] = true) (s₀ : State) (b c : Nat) (s : State) :
    SameBut ps s₀ (moveDelay b c s) ↔ SameBut ps s₀ s := by
  refine SameBut.iff (k := [.regs]) ?_ hps s₀
  simp (disch := decide) [moveDelay]

@[simp] theorem sameBut_delayStep {ps : List Part} (hps : covers ps [.regs] = true) (s₀ : State) (s : State) (e : Nat × Nat) :
    SameBut ps s₀ (delayStep s e) ↔ SameBut ps s₀ s := by
  refine SameBut.iff (k := [.regs]) ?_ hps s₀
  simp (disch := decide) [delayStep]

@[simp] theorem sameBut_dlyWrite {ps : List Part} (hps : covers ps [.regs] = true) (s₀ : State) (b c : Nat) (v : Word) (s : State) :
    SameBut ps s₀ (dlyWrite b c v s) ↔ SameBut ps s₀ s := by
  refine SameBut.iff (k := [.regs]) ?_ hps s₀
  simp (disch := decide) [dlyWrite]

@[simp] theorem sameBut_descWait {ps : List Part} (hps : covers ps [.regs] = true) (s₀ : State) (c : Nat) (s : State) :
    SameBut ps s₀ (descWait c s) ↔ SameBut ps s₀ s := by
  refine SameBut.iff (k := [.regs]) ?_ hps s₀
  simp (disch := decide) [descWait]

@[simp] theorem sameBut_takeWords {ps : List Part} (hps : covers ps [.net] = true) (s₀ : State) (fuel : Nat) (c : ChanId) (s : State) :
    SameBut ps s₀ (takeWords fuel c s) ↔ SameBut ps s₀ s := by
  refine SameBut.iff (k := [.net]) ?_ hps s₀
  induction fuel generalizing s with
  | zero => exact sameBut_refl _ s
  | succ fuel ih =>

    unfold takeWords
    dsimp only
    split
    · exact sameBut_refl _ s
    · split
      · exact sameBut_refl _ s
      · exact SameBut.trans (by simp (disch := decide)) (ih _)

@[simp] theorem sameBut_takeMsg {ps : List Part} (hps : covers ps [.net] = true) (s₀ : State) (c : ChanId) (s : State) :
    SameBut ps s₀ (takeMsg c s) ↔ SameBut ps s₀ s := by
  refine SameBut.iff (k := [.net]) ?_ hps s₀
  simp (disch := decide) [takeMsg]

@[simp] theorem sameBut_dropMsg {ps : List Part} (hps : covers ps [.net] = true) (s₀ : State) (c : ChanId) (s : State) :
    SameBut ps s₀ (dropMsg c s) ↔ SameBut ps s₀ s := by
  refine SameBut.iff (k := [.net]) ?_ hps s₀
  unfold dropMsg
  split <;> simp (disch := decide)

@[simp] theorem sameBut_setDchan {ps : List Part} (hps : covers ps [.dma] = true) (s₀ : State) (c : Nat) (x : DmaChan) (s : State) :
    SameBut ps s₀ (setDchan c x s) ↔ SameBut ps s₀ s := by
  refine SameBut.iff (k := [.dma]) ?_ hps s₀
  simp (disch := decide) [setDchan]

@[simp] theorem sameBut_mdDchan {ps : List Part} (hps : covers ps [.dma] = true) (s₀ : State) (c : Nat) (f : DmaChan → DmaChan) (s : State) :
    SameBut ps s₀ (mdDchan c f s) ↔ SameBut ps s₀ s := by
  refine SameBut.iff (k := [.dma]) ?_ hps s₀
  simp (disch := decide) [mdDchan]

@[simp] theorem sameBut_enqueue {ps : List Part} (hps : covers ps [.dma] = true) (s₀ : State) (c : Nat) (d : Desc) (s : State) :
    SameBut ps s₀ (enqueue c d s) ↔ SameBut ps s₀ s := by
  refine SameBut.iff (k := [.dma]) ?_ hps s₀
  simp (disch := decide) [enqueue]

@[simp] theorem sameBut_submitRefused {ps : List Part} (hps : covers ps [.regs, .io] = true) (s₀ : State) (c : Nat) (s : State) :
    SameBut ps s₀ (submitRefused c s) ↔ SameBut ps s₀ s := by
  refine SameBut.iff (k := [.regs, .io]) ?_ hps s₀
  simp (disch := decide) [submitRefused]

@[simp] theorem sameBut_descEnters {ps : List Part} (hps : covers ps [.regs, .net, .dma, .io] = true) (s₀ : State) (m : Msg) (s : State) :
    SameBut ps s₀ (descEnters m s) ↔ SameBut ps s₀ s := by
  refine SameBut.iff (k := [.regs, .net, .dma, .io]) ?_ hps s₀
  unfold descEnters
  split <;> simp (disch := decide)

@[simp] theorem sameBut_malformed {ps : List Part} (hps : covers ps [.regs, .io] = true) (s₀ : State) (origin : Word) (s : State) :
    SameBut ps s₀ (malformed origin s) ↔ SameBut ps s₀ s := by
  refine SameBut.iff (k := [.regs, .io]) ?_ hps s₀
  simp (disch := decide) [malformed]

@[simp] theorem sameBut_svcReply {ps : List Part} (hps : covers ps [.regs, .net] = true) (s₀ : State) (k : Nat) (m : Msg) (payload : List TWord) (status : Nat) (s : State) :
    SameBut ps s₀ (svcReply k m payload status s) ↔ SameBut ps s₀ s := by
  refine SameBut.iff (k := [.regs, .net]) ?_ hps s₀
  simp (disch := decide) [svcReply]

@[simp] theorem sameBut_discardMsg {ps : List Part} (hps : covers ps [.regs, .net, .io] = true) (s₀ : State) (k : Nat) (m : Msg) (s : State) :
    SameBut ps s₀ (discardMsg k m s) ↔ SameBut ps s₀ s := by
  refine SameBut.iff (k := [.regs, .net, .io]) ?_ hps s₀
  simp (disch := decide) [discardMsg]

theorem sameBut_receiverCheck {ps : List Part} (hps : covers ps [.regs, .net, .io] = true) {k : Nat} {known : Nat → Bool} {m : Msg} {s t : State} (hs : receiverCheck k known m s = some t) :
    SameBut ps s t := by
  refine SameBut.weaken (k := [.regs, .net, .io]) ?_ hps
  unfold receiverCheck at hs
  split at hs
  · cases hs; exact sameBut_refl _ s
  · split at hs
    · cases hs; exact sameBut_refl _ s
    · split at hs <;> cases hs
      simp (disch := decide)

@[simp] theorem sameBut_dmaDescMsg {ps : List Part} (hps : covers ps [.regs, .net, .dma, .io] = true) (s₀ : State) (s : State) :
    SameBut ps s₀ (dmaDescMsg s) ↔ SameBut ps s₀ s := by
  refine SameBut.iff (k := [.regs, .net, .dma, .io]) ?_ hps s₀
  unfold dmaDescMsg
  split
  · exact sameBut_refl _ s
  · split
    · exact sameBut_refl _ s
    · split
      · rename_i u hu
        simp (disch := decide) [sameBut_receiverCheck (ps := [.regs, .net, .dma, .io]) (by decide) hu]
      · split <;> simp (disch := decide)

@[simp] theorem sameBut_eventPost {ps : List Part} (hps : covers ps [.regs, .sched, .dma] = true) (s₀ : State) (c : Nat) (s : State) :
    SameBut ps s₀ (eventPost c s) ↔ SameBut ps s₀ s := by
  refine SameBut.iff (k := [.regs, .sched, .dma]) ?_ hps s₀
  unfold eventPost
  split <;> simp (disch := decide)

@[simp] theorem sameBut_doneFall {ps : List Part} (hps : covers ps [.regs, .io] = true) (s₀ : State) (s : State) :
    SameBut ps s₀ (doneFall s) ↔ SameBut ps s₀ s := by
  refine SameBut.iff (k := [.regs, .io]) ?_ hps s₀
  unfold doneFall
  dsimp only
  (repeat' split) <;> simp (disch := decide)

@[simp] theorem sameBut_drawn {ps : List Part} (hps : covers ps [.free] = true) (s₀ : State) (s : State) :
    SameBut ps s₀ (drawn s) ↔ SameBut ps s₀ s := by
  refine SameBut.iff (k := [.free]) ?_ hps s₀
  simp (disch := decide) [drawn]

@[simp] theorem sameBut_stamp {ps : List Part} (hps : covers ps [.regs, .free] = true) (s₀ : State) (off hi lo : Nat) (s : State) :
    SameBut ps s₀ (stamp off hi lo s) ↔ SameBut ps s₀ s := by
  refine SameBut.iff (k := [.regs, .free]) ?_ hps s₀
  simp (disch := decide) [stamp]

@[simp] theorem sameBut_doneSeenHigh {ps : List Part} (hps : covers ps [.dev, .regs, .io, .free] = true) (s₀ : State) (s : State) :
    SameBut ps s₀ (doneSeenHigh s) ↔ SameBut ps s₀ s := by
  refine SameBut.iff (k := [.dev, .regs, .io, .free]) ?_ hps s₀
  have hdone (t : State) : SameBut [.dev, .regs, .io, .free] t (setDev { t.dev with doneSeen := true } t) :=
    sameBut_setDev_keeping rfl rfl
  unfold doneSeenHigh
  split
  · exact sameBut_refl _ s
  · dsimp only
    split
    · have hio : SameBut [.dev, .regs, .io, .free] s (setIo { s.io with doneLine := true } s) := by simp (disch := decide)
      simp only [stamp]
      rw [sameBut_drawn (by decide), sameBut_wrf (by decide), sameBut_wrf (by decide)]
      exact hio.trans (hdone _)
    · simp (disch := decide)

@[simp] theorem sameBut_doorbellWrite {ps : List Part} (hps : covers ps [.regs, .sched, .io] = true) (s₀ : State) (rq : Requester) (n : Nat) (v : Word) (s : State) :
    SameBut ps s₀ (doorbellWrite rq n v s) ↔ SameBut ps s₀ s := by
  refine SameBut.iff (k := [.regs, .sched, .io]) ?_ hps s₀
  refine sameBut_onPage (ps := [.regs, .sched, .io]) (by decide) ?_ rq P.SCH0 (R.SCH0_DOORBELL + 4 * n)
  split
  · simp (disch := decide)
  · split <;> simp (disch := decide)

@[simp] theorem sameBut_echoDone {ps : List Part} (hps : covers ps [.regs, .ring] = true) (s₀ : State) (d : Nat) (s : State) :
    SameBut ps s₀ (echoDone d s) ↔ SameBut ps s₀ s := by
  refine SameBut.iff (k := [.regs, .ring]) ?_ hps s₀
  unfold echoDone
  split <;> simp (disch := decide)

@[simp] theorem sameBut_enumChar {ps : List Part} (hps : covers ps [.regs, .ring] = true) (s₀ : State) (count : Nat) (s : State) :
    SameBut ps s₀ (enumChar count s) ↔ SameBut ps s₀ s := by
  refine SameBut.iff (k := [.regs, .ring]) ?_ hps s₀
  simp (disch := decide) [enumChar]

@[simp] theorem sameBut_stepThree {ps : List Part} (hps : covers ps [.regs, .flash, .io] = true) (s₀ : State) (rq : Requester) (off code : Nat) (fromBank : Option (Fin 4)) (s : State) :
    SameBut ps s₀ (stepThree rq off code fromBank s) ↔ SameBut ps s₀ s := by
  refine SameBut.iff (k := [.regs, .flash, .io]) ?_ hps s₀
  simp (disch := decide) [stepThree]

@[simp] theorem sameBut_ethLinkChange {ps : List Part} (hps : covers ps [.regs, .io] = true) (s₀ : State) (port : Nat) (up : Bool) (speed : BitVec 2) (s : State) :
    SameBut ps s₀ (ethLinkChange port up speed s) ↔ SameBut ps s₀ s := by
  refine SameBut.iff (k := [.regs, .io]) ?_ hps s₀
  simp (disch := decide) [ethLinkChange]

@[simp] theorem sameBut_viewDrawn {ps : List Part} (hps : covers ps [.free] = true) (s₀ : State) (s : State) :
    SameBut ps s₀ (viewDrawn s) ↔ SameBut ps s₀ s := by
  refine SameBut.iff (k := [.free]) ?_ hps s₀
  simp (disch := decide) [viewDrawn]

@[simp] theorem sameBut_capturePins {ps : List Part} (hps : covers ps [.io, .free] = true) (s₀ : State) (s : State) :
    SameBut ps s₀ (capturePins s) ↔ SameBut ps s₀ s := by
  refine SameBut.iff (k := [.io, .free]) ?_ hps s₀
  simp (disch := decide) [capturePins]

@[simp] theorem sameBut_extest {ps : List Part} (hps : covers ps [.io, .free] = true) (s₀ : State) (s : State) :
    SameBut ps s₀ (extest s) ↔ SameBut ps s₀ s := by
  refine SameBut.iff (k := [.io, .free]) ?_ hps s₀
  simp (disch := decide) [extest]

@[simp] theorem sameBut_respond {ps : List Part} (hps : covers ps [.regs, .io] = true) (s₀ : State) (h : Half) (status : Nat) (results : List Word) (s : State) :
    SameBut ps s₀ (respond h status results s) ↔ SameBut ps s₀ s := by
  refine SameBut.iff (k := [.regs, .io]) ?_ hps s₀
  unfold respond
  dsimp only
  rw [sameBut_irq (by decide), sameBut_md (by decide), sameBut_foldl_iff fun t x => by simp (disch := decide)]
  simp (disch := decide)

@[simp] theorem sameBut_coldMailbox {ps : List Part} (hps : covers ps [.regs, .io] = true) (s₀ : State) (s : State) :
    SameBut ps s₀ (coldMailbox s) ↔ SameBut ps s₀ s := by
  refine SameBut.iff (k := [.regs, .io]) ?_ hps s₀
  simp (disch := decide) [coldMailbox]

@[simp] theorem sameBut_newSettings {ps : List Part} (hps : covers ps [.flash, .free] = true) (s₀ : State) (b : Bool) (s : State) :
    SameBut ps s₀ (newSettings b s) ↔ SameBut ps s₀ s := by
  refine SameBut.iff (k := [.flash, .free]) ?_ hps s₀
  unfold newSettings
  refine sameBut_foldl (fun t x => ?_) _ _
  (repeat' split) <;> simp (disch := decide)

@[simp] theorem sameBut_setFwBanks {ps : List Part} (hps : covers ps [.regs] = true) (s₀ : State) (both : Bool) (s : State) :
    SameBut ps s₀ (setFwBanks both s) ↔ SameBut ps s₀ s := by
  refine SameBut.iff (k := [.regs]) ?_ hps s₀
  simp (disch := decide) [setFwBanks]

@[simp] theorem sameBut_setUpdState {ps : List Part} (hps : covers ps [.regs] = true) (s₀ : State) (n : Nat) (s : State) :
    SameBut ps s₀ (setUpdState n s) ↔ SameBut ps s₀ s := by
  refine SameBut.iff (k := [.regs]) ?_ hps s₀
  simp (disch := decide) [setUpdState]

@[simp] theorem sameBut_updCode {ps : List Part} (hps : covers ps [.regs] = true) (s₀ : State) (c : Nat) (s : State) :
    SameBut ps s₀ (updCode c s) ↔ SameBut ps s₀ s := by
  refine SameBut.iff (k := [.regs]) ?_ hps s₀
  simp (disch := decide) [updCode]

@[simp] theorem sameBut_updHold {ps : List Part} (hps : covers ps [.regs] = true) (s₀ : State) (b : Bool) (s : State) :
    SameBut ps s₀ (updHold b s) ↔ SameBut ps s₀ s := by
  refine SameBut.iff (k := [.regs]) ?_ hps s₀
  simp (disch := decide) [updHold]

@[simp] theorem sameBut_handoverDone {ps : List Part} (hps : covers ps [.regs, .flash, .upd, .io, .free] = true) (s₀ : State) (canRead : Bool) (s : State) :
    SameBut ps s₀ (handoverDone canRead s) ↔ SameBut ps s₀ s := by
  refine SameBut.iff (k := [.regs, .flash, .upd, .io, .free]) ?_ hps s₀
  simp (disch := decide) [handoverDone]

@[simp] theorem sameBut_flushChan {ps : List Part} (hps : covers ps [.dma] = true) (s₀ : State) (c : Nat) (s : State) :
    SameBut ps s₀ (flushChan c s) ↔ SameBut ps s₀ s := by
  refine SameBut.iff (k := [.dma]) ?_ hps s₀
  simp (disch := decide) [flushChan]

@[simp] theorem sameBut_foxLock {ps : List Part} (hps : covers ps [.regs] = true) (s₀ : State) (s : State) :
    SameBut ps s₀ (foxLock s) ↔ SameBut ps s₀ s := by
  refine SameBut.iff (k := [.regs]) ?_ hps s₀
  simp (disch := decide) [foxLock]

@[simp] theorem sameBut_frameReceived {ps : List Part} (hps : covers ps [.regs, .io] = true) (s₀ : State) (port : Nat) (frame : List Byte) (good : Bool) (s : State) :
    SameBut ps s₀ (frameReceived port frame good s) ↔ SameBut ps s₀ s := by
  refine SameBut.iff (k := [.regs, .io]) ?_ hps s₀
  simp (disch := decide) [frameReceived]

@[simp] theorem sameBut_functionLevelReset {ps : List Part} (hps : covers ps [.regs, .io] = true) (s₀ : State) (s : State) :
    SameBut ps s₀ (functionLevelReset s) ↔ SameBut ps s₀ s := by
  refine SameBut.iff (k := [.regs, .io]) ?_ hps s₀
  simp (disch := decide) [functionLevelReset]

@[simp] theorem sameBut_setRgn {ps : List Part} (hps : covers ps [.rgns] = true) (s₀ : State) (r : Nat) (x : Rgn) (s : State) :
    SameBut ps s₀ (setRgn r x s) ↔ SameBut ps s₀ s := by
  refine SameBut.iff (k := [.rgns]) ?_ hps s₀
  simp (disch := decide) [setRgn]

@[simp] theorem sameBut_mdRgn {ps : List Part} (hps : covers ps [.rgns] = true) (s₀ : State) (r : Nat) (f : Rgn → Rgn) (s : State) :
    SameBut ps s₀ (mdRgn r f s) ↔ SameBut ps s₀ s := by
  refine SameBut.iff (k := [.rgns]) ?_ hps s₀
  simp (disch := decide) [mdRgn]

@[simp] theorem sameBut_sqDrop {ps : List Part} (hps : covers ps [.regs, .io] = true) (s₀ : State) (r n : Nat) (s : State) :
    SameBut ps s₀ (sqDrop r n s) ↔ SameBut ps s₀ s := by
  refine SameBut.iff (k := [.regs, .io]) ?_ hps s₀
  simp (disch := decide) [sqDrop]

@[simp] theorem sameBut_squirrelTake {ps : List Part} (hps : covers ps [.regs, .net, .rgns, .io] = true) (s₀ : State) (r : Nat) (s : State) :
    SameBut ps s₀ (squirrelTake r s) ↔ SameBut ps s₀ s := by
  refine SameBut.iff (k := [.regs, .net, .rgns, .io]) ?_ hps s₀
  unfold squirrelTake
  dsimp only
  (repeat' split) <;> simp (disch := decide)

@[simp] theorem sameBut_makeLive {ps : List Part} (hps : covers ps [.fab] = true) (s₀ : State) (k : Nat) (v : BitVec 16) (s : State) :
    SameBut ps s₀ (makeLive k v s) ↔ SameBut ps s₀ s := by
  refine SameBut.iff (k := [.fab]) ?_ hps s₀
  simp (disch := decide) [makeLive]

@[simp] theorem sameBut_applyCommit {ps : List Part} (hps : covers ps [.regs, .fab] = true) (s₀ : State) (r : Nat) (vs : SMap (BitVec 16)) (s : State) :
    SameBut ps s₀ (applyCommit r vs s) ↔ SameBut ps s₀ s := by
  refine SameBut.iff (k := [.regs, .fab]) ?_ hps s₀
  unfold applyCommit
  rw [sameBut_md (by decide), List.foldr_eq_foldl_reverse, sameBut_foldl_iff fun t x => by simp (disch := decide)]
  exact sameBut_refl _ s

@[simp] theorem sameBut_applyHeld {ps : List Part} (hps : covers ps [.regs, .fab] = true) (s₀ : State) (p : Nat) (s : State) :
    SameBut ps s₀ (applyHeld p s) ↔ SameBut ps s₀ s := by
  refine SameBut.iff (k := [.regs, .fab]) ?_ hps s₀
  unfold applyHeld
  split <;> simp (disch := decide)

@[simp] theorem sameBut_tileEventN {ps : List Part} (hps : covers ps [.regs] = true) (s₀ : State) (t code n : Nat) (s : State) :
    SameBut ps s₀ (tileEventN t code n s) ↔ SameBut ps s₀ s := by
  refine SameBut.iff (k := [.regs]) ?_ hps s₀
  unfold tileEventN
  refine sameBut_foldl (fun t x => ?_) _ _
  (repeat' split) <;> simp (disch := decide)

@[simp] theorem sameBut_tileEvent {ps : List Part} (hps : covers ps [.regs] = true) (s₀ : State) (t code : Nat) (s : State) :
    SameBut ps s₀ (tileEvent t code s) ↔ SameBut ps s₀ s := by
  refine SameBut.iff (k := [.regs]) ?_ hps s₀
  simp (disch := decide) [tileEvent]

@[simp] theorem sameBut_checkFailed {ps : List Part} (hps : covers ps [.regs] = true) (s₀ : State) (c : ChanId) (s : State) :
    SameBut ps s₀ (checkFailed c s) ↔ SameBut ps s₀ s := by
  refine SameBut.iff (k := [.regs]) ?_ hps s₀
  unfold checkFailed
  split <;> simp (disch := decide)

@[simp] theorem sameBut_arrive {ps : List Part} (hps : covers ps [.regs, .net] = true) (s₀ : State) (c : ChanId) (upset : Bool) (s : State) :
    SameBut ps s₀ (arrive c upset s) ↔ SameBut ps s₀ s := by
  refine SameBut.iff (k := [.regs, .net]) ?_ hps s₀
  unfold arrive
  dsimp only
  cases hf : (chan c s).flight with
  | nil => exact sameBut_refl _ s
  | cons f rest =>
    dsimp only
    generalize (if upset then corrupt f.1 else f.1) = v
    split
    · simp (disch := decide)
    · split
      · rw [sameBut_advanceAll (by decide)]
        cases c
        case portUp => dsimp only; split <;> simp (disch := decide)
        all_goals simp (disch := decide)
      · simp (disch := decide)

theorem sameBut_forPorts {ps : List Part} {f : Nat → State → State} (hf : ∀ n t, SameBut ps t (f n t)) (r : Nat) (s : State) :
    SameBut ps s (forPorts r f s) :=
  sameBut_foldl (fun t u => hf (8 * r + u) t) _ s

@[simp] theorem sameBut_tilePortWord {ps : List Part} (hps : covers ps [.regs, .net, .fab] = true) (s₀ : State) (j : Fin 2048) (upset : Bool) (s : State) :
    SameBut ps s₀ (tilePortWord j upset s) ↔ SameBut ps s₀ s := by
  refine SameBut.iff (k := [.regs, .net, .fab]) ?_ hps s₀
  unfold tilePortWord
  rw [sameBut_arrive (by decide)]
  split
  · refine sameBut_forPorts (ps := [.regs, .net, .fab]) (fun n t => ?_) (tpRegion j.val) s
    split <;> simp (disch := decide)
  · exact sameBut_refl _ s

@[simp] theorem sameBut_heldCommit {ps : List Part} (hps : covers ps [.regs, .net, .fab] = true) (s₀ : State) (p : Nat) (s : State) :
    SameBut ps s₀ (heldCommit p s) ↔ SameBut ps s₀ s := by
  refine SameBut.iff (k := [.regs, .net, .fab]) ?_ hps s₀
  simp (disch := decide) [heldCommit]

@[simp] theorem sameBut_unlatch {ps : List Part} (hps : covers ps [.regs, .io] = true) (s₀ : State) (b : Nat) (s : State) :
    SameBut ps s₀ (unlatch b s) ↔ SameBut ps s₀ s := by
  refine SameBut.iff (k := [.regs, .io]) ?_ hps s₀
  simp (disch := decide) [unlatch]

@[simp] theorem sameBut_holdRelease {ps : List Part} (hps : covers ps [.regs, .io] = true) (s₀ : State) (b : Nat) (s : State) :
    SameBut ps s₀ (holdRelease b s) ↔ SameBut ps s₀ s := by
  refine SameBut.iff (k := [.regs, .io]) ?_ hps s₀
  simp (disch := decide) [holdRelease]

@[simp] theorem sameBut_selectIdcode {ps : List Part} (hps : covers ps [.io] = true) (s₀ : State) (s : State) :
    SameBut ps s₀ (selectIdcode s) ↔ SameBut ps s₀ s := by
  refine SameBut.iff (k := [.io]) ?_ hps s₀
  simp (disch := decide) [selectIdcode]

@[simp] theorem sameBut_dropEngine {ps : List Part} (hps : covers ps [.ports] = true) (s₀ : State) (e : Nat) (s : State) :
    SameBut ps s₀ (dropEngine e s) ↔ SameBut ps s₀ s := by
  refine SameBut.iff (k := [.ports]) (fun p hp => ?_) hps s₀
  unfold dropEngine
  split
  · exact agree_refl p s
  · cases p <;> simp_all [agree]

@[simp] theorem sameBut_setMover {ps : List Part} (hps : covers ps [.dma] = true) (s₀ : State) (m : Nat) (x : Mover) (s : State) :
    SameBut ps s₀ (setMover m x s) ↔ SameBut ps s₀ s := by
  refine SameBut.iff (k := [.dma]) ?_ hps s₀
  simp (disch := decide) [setMover]

@[simp] theorem sameBut_mdMover {ps : List Part} (hps : covers ps [.dma] = true) (s₀ : State) (m : Nat) (f : Mover → Mover) (s : State) :
    SameBut ps s₀ (mdMover m f s) ↔ SameBut ps s₀ s := by
  refine SameBut.iff (k := [.dma]) ?_ hps s₀
  simp (disch := decide) [mdMover]

@[simp] theorem sameBut_hraAgain {ps : List Part} (hps : covers ps [.ports, .dma] = true) (s₀ : State) (s : State) :
    SameBut ps s₀ (hraAgain s) ↔ SameBut ps s₀ s := by
  refine SameBut.iff (k := [.ports, .dma]) ?_ hps s₀
  simp (disch := decide) [hraAgain]

@[simp] theorem sameBut_invalEnd {ps : List Part} (hps : covers ps [.regs, .ports, .dma, .io] = true) (s₀ : State) (s : State) :
    SameBut ps s₀ (invalEnd s) ↔ SameBut ps s₀ s := by
  refine SameBut.iff (k := [.regs, .ports, .dma, .io]) ?_ hps s₀
  simp (disch := decide) [invalEnd]

@[simp] theorem sameBut_coalesce {ps : List Part} (hps : covers ps [.regs, .sched, .io] = true) (s₀ : State) (q index : Nat) (word : Word) (extra : Nat) (s : State) :
    SameBut ps s₀ (coalesce q index word extra s) ↔ SameBut ps s₀ s := by
  refine SameBut.iff (k := [.regs, .sched, .io]) ?_ hps s₀
  simp (disch := decide) [coalesce]

@[simp] theorem sameBut_ioEdge {ps : List Part} (hps : covers ps [.regs, .sched, .io] = true) (s₀ : State) (b c : Nat) (rising : Bool) (stamp : BitVec 64) (s : State) :
    SameBut ps s₀ (ioEdge b c rising stamp s) ↔ SameBut ps s₀ s := by
  refine SameBut.iff (k := [.regs, .sched, .io]) ?_ hps s₀
  simp (disch := decide) [ioEdge]

@[simp] theorem sameBut_islApply {ps : List Part} (hps : covers ps [.regs, .pwr, .io] = true) (s₀ : State) (i : Nat) (v : Word) (s : State) :
    SameBut ps s₀ (islApply i v s) ↔ SameBut ps s₀ s := by
  refine SameBut.iff (k := [.regs, .pwr, .io]) ?_ hps s₀
  unfold islApply
  (repeat' split) <;> simp (disch := decide)

@[simp] theorem sameBut_outOfWindow {ps : List Part} (hps : covers ps [.regs, .net, .wpk] = true) (s₀ : State) (s : State) :
    SameBut ps s₀ (outOfWindow s) ↔ SameBut ps s₀ s := by
  refine SameBut.iff (k := [.regs, .net, .wpk]) ?_ hps s₀
  unfold outOfWindow
  split <;> simp (disch := decide)

@[simp] theorem sameBut_islWrite {ps : List Part} (hps : covers ps [.regs, .net, .pwr, .wpk, .io] = true) (s₀ : State) (i : Nat) (v : Word) (s : State) :
    SameBut ps s₀ (islWrite i v s) ↔ SameBut ps s₀ s := by
  refine SameBut.iff (k := [.regs, .net, .pwr, .wpk, .io]) ?_ hps s₀
  simp (disch := decide) [islWrite]

@[simp] theorem sameBut_lockLoop {ps : List Part} (hps : covers ps [.regs] = true) (s₀ : State) (n : Nat) (s : State) :
    SameBut ps s₀ (lockLoop n s) ↔ SameBut ps s₀ s := by
  refine SameBut.iff (k := [.regs]) ?_ hps s₀
  simp (disch := decide) [lockLoop]

@[simp] theorem sameBut_setRcStopped {ps : List Part} (hps : covers ps [.rgns] = true) (s₀ : State) (r k : Nat) (b : Bool) (s : State) :
    SameBut ps s₀ (setRcStopped r k b s) ↔ SameBut ps s₀ s := by
  refine SameBut.iff (k := [.rgns]) ?_ hps s₀
  simp (disch := decide) [setRcStopped]

@[simp] theorem sameBut_rcStart {ps : List Part} (hps : covers ps [.rgns] = true) (s₀ : State) (s : State) :
    SameBut ps s₀ (rcStart s) ↔ SameBut ps s₀ s := by
  refine SameBut.iff (k := [.rgns]) ?_ hps s₀
  unfold rcStart
  refine sameBut_foldl (fun t r => ?_) _ s
  split
  · exact sameBut_refl _ t
  · refine sameBut_foldl (fun u k => ?_) _ t
    split <;> simp (disch := decide)

@[simp] theorem sameBut_loopLock {ps : List Part} (hps : covers ps [.regs, .rgns] = true) (s₀ : State) (n : Nat) (s : State) :
    SameBut ps s₀ (loopLock n s) ↔ SameBut ps s₀ s := by
  refine SameBut.iff (k := [.regs, .rgns]) ?_ hps s₀
  simp (disch := decide) [loopLock]

@[simp] theorem sameBut_lossOfReference {ps : List Part} (hps : covers ps [.regs, .io] = true) (s₀ : State) (n : Nat) (s : State) :
    SameBut ps s₀ (lossOfReference n s) ↔ SameBut ps s₀ s := by
  refine SameBut.iff (k := [.regs, .io]) ?_ hps s₀
  simp (disch := decide) [lossOfReference]

@[simp] theorem sameBut_setCell {ps : List Part} (hps : covers ps [.fab] = true) (s₀ : State) (c : Nat) (x : Cell) (s : State) :
    SameBut ps s₀ (setCell c x s) ↔ SameBut ps s₀ s := by
  refine SameBut.iff (k := [.fab]) ?_ hps s₀
  simp (disch := decide) [setCell]

@[simp] theorem sameBut_mdCell {ps : List Part} (hps : covers ps [.fab] = true) (s₀ : State) (c : Nat) (f : Cell → Cell) (s : State) :
    SameBut ps s₀ (mdCell c f s) ↔ SameBut ps s₀ s := by
  refine SameBut.iff (k := [.fab]) ?_ hps s₀
  simp (disch := decide) [mdCell]

@[simp] theorem sameBut_macResult {ps : List Part} (hps : covers ps [.regs, .fab, .io] = true) (s₀ : State) (m : Nat) (w : TWord) (lost : Bool) (s : State) :
    SameBut ps s₀ (macResult m w lost s) ↔ SameBut ps s₀ s := by
  refine SameBut.iff (k := [.regs, .fab, .io]) ?_ hps s₀
  unfold macResult
  dsimp only
  split
  · exact sameBut_refl _ s
  · split <;> simp (disch := decide)

@[simp] theorem sameBut_macSticky {ps : List Part} (hps : covers ps [.regs, .io] = true) (s₀ : State) (off m : Nat) (raise : Bool) (s : State) :
    SameBut ps s₀ (macSticky off m raise s) ↔ SameBut ps s₀ s := by
  refine SameBut.iff (k := [.regs, .io]) ?_ hps s₀
  simp (disch := decide) [macSticky]

@[simp] theorem sameBut_setMac {ps : List Part} (hps : covers ps [.macs] = true) (s₀ : State) (m : Nat) (x : Mac) (s : State) :
    SameBut ps s₀ (setMac m x s) ↔ SameBut ps s₀ s := by
  refine SameBut.iff (k := [.macs]) ?_ hps s₀
  simp (disch := decide) [setMac]

@[simp] theorem sameBut_macFault {ps : List Part} (hps : covers ps [.regs, .fab, .macs, .io] = true) (s₀ : State) (m : Nat) (w : Word) (lost : Bool) (s : State) :
    SameBut ps s₀ (macFault m w lost s) ↔ SameBut ps s₀ s := by
  refine SameBut.iff (k := [.regs, .fab, .macs, .io]) ?_ hps s₀
  simp (disch := decide) [macFault]

@[simp] theorem sameBut_macOp {ps : List Part} (hps : covers ps [.regs, .fab, .macs, .io] = true) (s₀ : State) (m : Nat) (g : MacTrig) (lost : Bool) (s : State) :
    SameBut ps s₀ (macOp m g lost s) ↔ SameBut ps s₀ s := by
  refine SameBut.iff (k := [.regs, .fab, .macs, .io]) ?_ hps s₀
  unfold macOp
  extract_lets cfg x pre zsel cleared cin badP badC
  split
  · simp (disch := decide)
  · split
    · simp (disch := decide)
    · split
      · simp (disch := decide)
      · split
        · simp (disch := decide)
        · split
          · simp (disch := decide)
          · split
            · simp (disch := decide)
            · split
              extract_lets
              split
              dsimp only
              rw [sameBut_macResult (by decide)]
              (repeat' split) <;> simp (disch := decide)

@[simp] theorem sameBut_trigger {ps : List Part} (hps : covers ps [.macs] = true) (s₀ : State) (m : Nat) (tag : Tag) (after : Nat) (s : State) :
    SameBut ps s₀ (trigger m tag after s) ↔ SameBut ps s₀ s := by
  refine SameBut.iff (k := [.macs]) ?_ hps s₀
  simp (disch := decide) [trigger]

@[simp] theorem sameBut_triggerSucc {ps : List Part} (hps : covers ps [.macs] = true) (s₀ : State) (m : Nat) (tag : Tag) (s : State) :
    SameBut ps s₀ (triggerSucc m tag s) ↔ SameBut ps s₀ s := by
  refine SameBut.iff (k := [.macs]) ?_ hps s₀
  unfold triggerSucc
  split <;> simp (disch := decide)

@[simp] theorem sameBut_macIssueOp {ps : List Part} (hps : covers ps [.regs, .fab, .macs, .io] = true) (s₀ : State) (m : Nat) (lost : Bool) (s : State) :
    SameBut ps s₀ (macIssueOp m lost s) ↔ SameBut ps s₀ s := by
  refine SameBut.iff (k := [.regs, .fab, .macs, .io]) ?_ hps s₀
  unfold macIssueOp
  dsimp only
  (repeat' split) <;> simp (disch := decide)

@[simp] theorem sameBut_mbxGo {ps : List Part} (hps : covers ps [.regs] = true) (s₀ : State) (h : Half) (s : State) :
    SameBut ps s₀ (mbxGo h s) ↔ SameBut ps s₀ s := by
  refine SameBut.iff (k := [.regs]) ?_ hps s₀
  unfold mbxGo
  split <;> simp (disch := decide)

@[simp] theorem sameBut_owlPortWrite {ps : List Part} (hps : covers ps [.regs, .io] = true) (s₀ : State) (n : Nat) (pin : Bool) (v : Word) (s : State) :
    SameBut ps s₀ (owlPortWrite n pin v s) ↔ SameBut ps s₀ s := by
  refine SameBut.iff (k := [.regs, .io]) ?_ hps s₀
  simp (disch := decide) [owlPortWrite]

@[simp] theorem sameBut_latchParity {ps : List Part} (hps : covers ps [.regs, .fab, .io] = true) (s₀ : State) (c e : Nat) (both : Bool) (s : State) :
    SameBut ps s₀ (latchParity c e both s) ↔ SameBut ps s₀ s := by
  refine SameBut.iff (k := [.regs, .fab, .io]) ?_ hps s₀
  simp (disch := decide) [latchParity]

@[simp] theorem sameBut_msixUnmask {ps : List Part} (hps : covers ps [.regs, .io] = true) (s₀ : State) (v : Nat) (s : State) :
    SameBut ps s₀ (msixUnmask v s) ↔ SameBut ps s₀ s := by
  refine SameBut.iff (k := [.regs, .io]) ?_ hps s₀
  simp (disch := decide) [msixUnmask]

@[simp] theorem sameBut_msixControl {ps : List Part} (hps : covers ps [.regs, .io] = true) (s₀ : State) (ctl : BitVec 2) (s : State) :
    SameBut ps s₀ (msixControl ctl s) ↔ SameBut ps s₀ s := by
  refine SameBut.iff (k := [.regs, .io]) ?_ hps s₀
  unfold msixControl
  dsimp only
  rw [sameBut_foldl_iff fun t x => by split <;> simp (disch := decide)]
  simp (disch := decide)

@[simp] theorem sameBut_pcieLinkChange {ps : List Part} (hps : covers ps [.regs, .io] = true) (s₀ : State) (up : Bool) (width : BitVec 3) (speed : BitVec 4) (ltssm : BitVec 6) (msix : BitVec 2) (s : State) :
    SameBut ps s₀ (pcieLinkChange up width speed ltssm msix s) ↔ SameBut ps s₀ s := by
  refine SameBut.iff (k := [.regs, .io]) ?_ hps s₀
  simp (disch := decide) [pcieLinkChange]

@[simp] theorem sameBut_levelRefused {ps : List Part} (hps : covers ps [.regs, .io] = true) (s₀ : State) (addr : Nat) (s : State) :
    SameBut ps s₀ (levelRefused addr s) ↔ SameBut ps s₀ s := by
  refine SameBut.iff (k := [.regs, .io]) ?_ hps s₀
  simp (disch := decide) [levelRefused]

@[simp] theorem sameBut_setChange {ps : List Part} (hps : covers ps [.pwr] = true) (s₀ : State) (c : Option LvlChange) (s : State) :
    SameBut ps s₀ (setChange c s) ↔ SameBut ps s₀ s := by
  refine SameBut.iff (k := [.pwr]) ?_ hps s₀
  simp (disch := decide) [setChange]

@[simp] theorem sameBut_pmbusSend {ps : List Part} (hps : covers ps [.io] = true) (s₀ : State) (code : Nat) (data : Word) (s : State) :
    SameBut ps s₀ (pmbusSend code data s) ↔ SameBut ps s₀ s := by
  refine SameBut.iff (k := [.io]) ?_ hps s₀
  simp (disch := decide) [pmbusSend]

@[simp] theorem sameBut_voutSend {ps : List Part} (hps : covers ps [.io] = true) (s₀ : State) (l : Nat) (s : State) :
    SameBut ps s₀ (voutSend l s) ↔ SameBut ps s₀ s := by
  refine SameBut.iff (k := [.io]) ?_ hps s₀
  simp (disch := decide) [voutSend]

@[simp] theorem sameBut_levelTimeout {ps : List Part} (hps : covers ps [.regs, .pwr, .io] = true) (s₀ : State) (s : State) :
    SameBut ps s₀ (levelTimeout s) ↔ SameBut ps s₀ s := by
  refine SameBut.iff (k := [.regs, .pwr, .io]) ?_ hps s₀
  unfold levelTimeout
  split <;> simp (disch := decide)

@[simp] theorem sameBut_levelAck {ps : List Part} (hps : covers ps [.pwr] = true) (s₀ : State) (s : State) :
    SameBut ps s₀ (levelAck s) ↔ SameBut ps s₀ s := by
  refine SameBut.iff (k := [.pwr]) ?_ hps s₀
  unfold levelAck
  split <;> simp (disch := decide)

@[simp] theorem sameBut_pmbusAlert {ps : List Part} (hps : covers ps [.regs, .io] = true) (s₀ : State) (status : BitVec 16) (s : State) :
    SameBut ps s₀ (pmbusAlert status s) ↔ SameBut ps s₀ s := by
  refine SameBut.iff (k := [.regs, .io]) ?_ hps s₀
  simp (disch := decide) [pmbusAlert]

@[simp] theorem sameBut_levelGood {ps : List Part} (hps : covers ps [.regs, .pwr] = true) (s₀ : State) (s : State) :
    SameBut ps s₀ (levelGood s) ↔ SameBut ps s₀ s := by
  refine SameBut.iff (k := [.regs, .pwr]) ?_ hps s₀
  unfold levelGood
  split <;> simp (disch := decide)

@[simp] theorem sameBut_ptpStamp {ps : List Part} (hps : covers ps [.regs, .io] = true) (s₀ : State) (port : Nat) (tx overUdp : Bool) (stamp : BitVec 64) (seq : Nat) (s : State) :
    SameBut ps s₀ (ptpStamp port tx overUdp stamp seq s) ↔ SameBut ps s₀ s := by
  refine SameBut.iff (k := [.regs, .io]) ?_ hps s₀
  simp (disch := decide) [ptpStamp]

@[simp] theorem sameBut_qspiReadTimeout {ps : List Part} (hps : covers ps [.regs, .io] = true) (s₀ : State) (s : State) :
    SameBut ps s₀ (qspiReadTimeout s) ↔ SameBut ps s₀ s := by
  refine SameBut.iff (k := [.regs, .io]) ?_ hps s₀
  unfold qspiReadTimeout
  split <;> simp (disch := decide)

@[simp] theorem sameBut_qspiStatus {ps : List Part} (hps : covers ps [.io] = true) (s₀ : State) (s : State) :
    SameBut ps s₀ (qspiStatus s) ↔ SameBut ps s₀ s := by
  refine SameBut.iff (k := [.io]) ?_ hps s₀
  simp (disch := decide) [qspiStatus]

@[simp] theorem sameBut_qspiWrite {ps : List Part} (hps : covers ps [.io] = true) (s₀ : State) (addr : Word) (words : List Word) (s : State) :
    SameBut ps s₀ (qspiWrite addr words s) ↔ SameBut ps s₀ s := by
  refine SameBut.iff (k := [.io]) ?_ hps s₀
  unfold qspiWrite
  dsimp only
  split
  · exact sameBut_refl _ s
  · refine sameBut_foldl (fun t x => ?_) _ s
    split <;> simp (disch := decide)

@[simp] theorem sameBut_regionDrained {ps : List Part} (hps : covers ps [.regs, .rgns, .fox] = true) (s₀ : State) (r : Nat) (s : State) :
    SameBut ps s₀ (regionDrained r s) ↔ SameBut ps s₀ s := by
  refine SameBut.iff (k := [.regs, .rgns, .fox]) ?_ hps s₀
  simp (disch := decide) [regionDrained]

@[simp] theorem sameBut_endHold {ps : List Part} (hps : covers ps [.logic] = true) (s₀ : State) (r side : Nat) (s : State) :
    SameBut ps s₀ (endHold r side s) ↔ SameBut ps s₀ s := by
  refine SameBut.iff (k := [.logic]) ?_ hps s₀
  simp (disch := decide) [endHold]

@[simp] theorem sameBut_releaseItem {ps : List Part} (hps : covers ps [.logic, .rgns] = true) (s₀ : State) (r item : Nat) (s : State) :
    SameBut ps s₀ (releaseItem r item s) ↔ SameBut ps s₀ s := by
  refine SameBut.iff (k := [.logic, .rgns]) ?_ hps s₀
  unfold releaseItem
  split
  · exact sameBut_foldl (fun t x => by simp (disch := decide)) _ s
  all_goals simp (disch := decide)

@[simp] theorem sameBut_releaseStepOf {ps : List Part} (hps : covers ps [.logic, .rgns] = true) (s₀ : State) (r k : Nat) (s : State) :
    SameBut ps s₀ (releaseStepOf r k s) ↔ SameBut ps s₀ s := by
  refine SameBut.iff (k := [.logic, .rgns]) ?_ hps s₀
  simp (disch := decide) [releaseStepOf]

@[simp] theorem sameBut_releaseRegion {ps : List Part} (hps : covers ps [.logic, .rgns] = true) (s₀ : State) (r : Nat) (s : State) :
    SameBut ps s₀ (releaseRegion r s) ↔ SameBut ps s₀ s := by
  refine SameBut.iff (k := [.logic, .rgns]) ?_ hps s₀
  simp (disch := decide) [releaseRegion]

@[simp] theorem sameBut_regionPowerDone {ps : List Part} (hps : covers ps [.regs, .logic, .rgns, .pwr, .io] = true) (s₀ : State) (s : State) :
    SameBut ps s₀ (regionPowerDone s) ↔ SameBut ps s₀ s := by
  refine SameBut.iff (k := [.regs, .logic, .rgns, .pwr, .io]) ?_ hps s₀
  unfold regionPowerDone
  split <;> simp (disch := decide)

@[simp] theorem sameBut_settleAll {ps : List Part} (hps : covers ps [.logic] = true) (s₀ : State) (s : State) :
    SameBut ps s₀ (settleAll s) ↔ SameBut ps s₀ s := by
  refine SameBut.iff (k := [.logic]) ?_ hps s₀
  unfold settleAll
  refine sameBut_foldl (fun t x => ?_) _ _
  (repeat' split) <;> simp (disch := decide)

@[simp] theorem sameBut_refreshDigest {ps : List Part} (hps : covers ps [.regs] = true) (s₀ : State) (s : State) :
    SameBut ps s₀ (refreshDigest s) ↔ SameBut ps s₀ s := by
  refine SameBut.iff (k := [.regs]) ?_ hps s₀
  unfold refreshDigest
  dsimp only
  split
  · simp (disch := decide)
  · rw [sameBut_md (by decide), sameBut_foldl_iff fun t x => by simp (disch := decide)]
    simp (disch := decide)

@[simp] theorem sameBut_ringLaunch {ps : List Part} (hps : covers ps [.regs, .net, .ring] = true) (s₀ : State) (loc : Word) (ws : List TWord) (s : State) :
    SameBut ps s₀ (ringLaunch loc ws s) ↔ SameBut ps s₀ s := by
  refine SameBut.iff (k := [.regs, .net, .ring]) ?_ hps s₀
  simp (disch := decide) [ringLaunch]

@[simp] theorem sameBut_ringBroadcast {ps : List Part} (hps : covers ps [.regs, .net, .ring] = true) (s₀ : State) (cls svc : Nat) (payload : List TWord) (s : State) :
    SameBut ps s₀ (ringBroadcast cls svc payload s) ↔ SameBut ps s₀ s := by
  refine SameBut.iff (k := [.regs, .net, .ring]) ?_ hps s₀
  simp (disch := decide) [ringBroadcast]

@[simp] theorem sameBut_rollcallGo {ps : List Part} (hps : covers ps [.regs, .net, .ring] = true) (s₀ : State) (s : State) :
    SameBut ps s₀ (rollcallGo s) ↔ SameBut ps s₀ s := by
  refine SameBut.iff (k := [.regs, .net, .ring]) ?_ hps s₀
  simp (disch := decide) [rollcallGo]

@[simp] theorem sameBut_rollcallEnds {ps : List Part} (hps : covers ps [.regs] = true) (s₀ : State) (code : Nat) (s : State) :
    SameBut ps s₀ (rollcallEnds code s) ↔ SameBut ps s₀ s := by
  refine SameBut.iff (k := [.regs]) ?_ hps s₀
  simp (disch := decide) [rollcallEnds]

@[simp] theorem sameBut_rollcallReturn {ps : List Part} (hps : covers ps [.regs, .io] = true) (s₀ : State) (bitmap : List Word) (s : State) :
    SameBut ps s₀ (rollcallReturn bitmap s) ↔ SameBut ps s₀ s := by
  refine SameBut.iff (k := [.regs, .io]) ?_ hps s₀
  unfold rollcallReturn
  dsimp only
  split
  · exact sameBut_refl _ s
  · rw [sameBut_irq (by decide), sameBut_rollcallEnds (by decide), sameBut_foldl_iff fun t x => by simp (disch := decide)]
    exact sameBut_refl _ s

@[simp] theorem sameBut_countF {ps : List Part} (hps : covers ps [.regs] = true) (s₀ : State) (p off hi lo : Nat) (s : State) :
    SameBut ps s₀ (countF p off hi lo s) ↔ SameBut ps s₀ s := by
  refine SameBut.iff (k := [.regs]) ?_ hps s₀
  simp (disch := decide) [countF]

@[simp] theorem sameBut_runLimit {ps : List Part} (hps : covers ps [.regs, .sched, .io] = true) (s₀ : State) (t : Nat) (s : State) :
    SameBut ps s₀ (runLimit t s) ↔ SameBut ps s₀ s := by
  refine SameBut.iff (k := [.regs, .sched, .io]) ?_ hps s₀
  simp (disch := decide) [runLimit]

@[simp] theorem sameBut_samplePreload {ps : List Part} (hps : covers ps [.io, .free] = true) (s₀ : State) (preload : List Bool) (s : State) :
    SameBut ps s₀ (samplePreload preload s) ↔ SameBut ps s₀ s := by
  refine SameBut.iff (k := [.io, .free]) ?_ hps s₀
  simp (disch := decide) [samplePreload]

@[simp] theorem sameBut_ignored {ps : List Part} (hps : covers ps [.regs] = true) (s₀ : State) (src : Nat) (s : State) :
    SameBut ps s₀ (ignored src s) ↔ SameBut ps s₀ s := by
  refine SameBut.iff (k := [.regs]) ?_ hps s₀
  simp (disch := decide) [ignored]

@[simp] theorem sameBut_unlisted {ps : List Part} (hps : covers ps [.regs] = true) (s₀ : State) (src : Nat) (s : State) :
    SameBut ps s₀ (unlisted src s) ↔ SameBut ps s₀ s := by
  refine SameBut.iff (k := [.regs]) ?_ hps s₀
  simp (disch := decide) [unlisted]

@[simp] theorem sameBut_scan {ps : List Part} (hps : covers ps [.regs, .fox, .flash, .upd, .wpk, .io] = true) (s₀ : State) (s : State) :
    SameBut ps s₀ (scan s) ↔ SameBut ps s₀ s := by
  refine SameBut.iff (k := [.regs, .fox, .flash, .upd, .wpk, .io]) ?_ hps s₀
  simp (disch := decide) [scan]

@[simp] theorem sameBut_record {ps : List Part} (hps : covers ps [.regs, .sched, .io] = true) (s₀ : State) (time info : Word) (s : State) :
    SameBut ps s₀ (record time info s) ↔ SameBut ps s₀ s := by
  refine SameBut.iff (k := [.regs, .sched, .io]) ?_ hps s₀
  simp (disch := decide) [record]

@[simp] theorem sameBut_passAbsence {ps : List Part} (hps : covers ps [.regs, .sched, .io] = true) (s₀ : State) (s : State) :
    SameBut ps s₀ (passAbsence s) ↔ SameBut ps s₀ s := by
  refine SameBut.iff (k := [.regs, .sched, .io]) ?_ hps s₀
  unfold passAbsence
  split <;> simp (disch := decide)

@[simp] theorem sameBut_openStage {ps : List Part} (hps : covers ps [.sched] = true) (s₀ : State) (k : Nat) (walker : Bool) (s : State) :
    SameBut ps s₀ (openStage k walker s) ↔ SameBut ps s₀ s := by
  refine SameBut.iff (k := [.sched]) ?_ hps s₀
  simp (disch := decide) [openStage]

@[simp] theorem sameBut_dropSaved {ps : List Part} (hps : covers ps [.sched] = true) (s₀ : State) (slot : Nat) (s : State) :
    SameBut ps s₀ (dropSaved slot s) ↔ SameBut ps s₀ s := by
  refine SameBut.iff (k := [.sched]) ?_ hps s₀
  simp (disch := decide) [dropSaved]

@[simp] theorem sameBut_cancelEffect {ps : List Part} (hps : covers ps [.sched] = true) (s₀ : State) (t : Nat) (s : State) :
    SameBut ps s₀ (cancelEffect t s).2 ↔ SameBut ps s₀ s := by
  refine SameBut.iff (k := [.sched]) ?_ hps s₀
  unfold cancelEffect
  dsimp only
  (repeat' split) <;> simp (disch := decide)

@[simp] theorem sameBut_markCancelled {ps : List Part} (hps : covers ps [.sched] = true) (s₀ : State) (t : Nat) (s : State) :
    SameBut ps s₀ (markCancelled t s) ↔ SameBut ps s₀ s := by
  refine SameBut.iff (k := [.sched]) ?_ hps s₀
  simp (disch := decide) [markCancelled]

@[simp] theorem sameBut_trace {ps : List Part} (hps : covers ps [.regs, .sched, .io] = true) (s₀ : State) (kind task detail : Nat) (s : State) :
    SameBut ps s₀ (trace kind task detail s) ↔ SameBut ps s₀ s := by
  refine SameBut.iff (k := [.regs, .sched, .io]) ?_ hps s₀
  simp (disch := decide) [trace]

@[simp] theorem sameBut_abandonTask {ps : List Part} (hps : covers ps [.regs, .sched, .io] = true) (s₀ : State) (t : Nat) (s : State) :
    SameBut ps s₀ (abandonTask t s) ↔ SameBut ps s₀ s := by
  refine SameBut.iff (k := [.regs, .sched, .io]) ?_ hps s₀
  simp (disch := decide) [abandonTask]

@[simp] theorem sameBut_cancelTask {ps : List Part} (hps : covers ps [.regs, .sched, .io] = true) (s₀ : State) (t : Nat) (s : State) :
    SameBut ps s₀ (cancelTask t s) ↔ SameBut ps s₀ s := by
  refine SameBut.iff (k := [.regs, .sched, .io]) ?_ hps s₀
  simp (disch := decide) [cancelTask]

@[simp] theorem sameBut_mdCtx {ps : List Part} (hps : covers ps [.sched] = true) (s₀ : State) (t : Nat) (f : Ctx → Ctx) (s : State) :
    SameBut ps s₀ (mdCtx t f s) ↔ SameBut ps s₀ s := by
  refine SameBut.iff (k := [.sched]) ?_ hps s₀
  simp (disch := decide) [mdCtx]

@[simp] theorem sameBut_disableTask {ps : List Part} (hps : covers ps [.regs, .sched, .io] = true) (s₀ : State) (t : Nat) (s : State) :
    SameBut ps s₀ (disableTask t s) ↔ SameBut ps s₀ s := by
  refine SameBut.iff (k := [.regs, .sched, .io]) ?_ hps s₀
  simp (disch := decide) [disableTask]

@[simp] theorem sameBut_enableTask {ps : List Part} (hps : covers ps [.sched] = true) (s₀ : State) (t : Nat) (s : State) :
    SameBut ps s₀ (enableTask t s) ↔ SameBut ps s₀ s := by
  refine SameBut.iff (k := [.sched]) ?_ hps s₀
  simp (disch := decide) [enableTask]

@[simp] theorem sameBut_readyTask {ps : List Part} (hps : covers ps [.regs, .sched, .io] = true) (s₀ : State) (t : Nat) (word : Word) (extra src : Nat) (s : State) :
    SameBut ps s₀ (readyTask t word extra src s) ↔ SameBut ps s₀ s := by
  refine SameBut.iff (k := [.regs, .sched, .io]) ?_ hps s₀
  unfold readyTask
  dsimp only
  (repeat' split) <;> simp (disch := decide)

@[simp] theorem sameBut_runCommand {ps : List Part} (hps : covers ps [.regs, .sched, .io] = true) (s₀ : State) (op t : Nat) (s : State) :
    SameBut ps s₀ (runCommand op t s) ↔ SameBut ps s₀ s := by
  refine SameBut.iff (k := [.regs, .sched, .io]) ?_ hps s₀
  unfold runCommand
  split <;> simp (disch := decide)

@[simp] theorem sameBut_startCommand {ps : List Part} (hps : covers ps [.regs, .sched, .io] = true) (s₀ : State) (s : State) :
    SameBut ps s₀ (startCommand s) ↔ SameBut ps s₀ s := by
  refine SameBut.iff (k := [.regs, .sched, .io]) ?_ hps s₀
  unfold startCommand
  split <;> simp (disch := decide)

@[simp] theorem sameBut_closeCycle {ps : List Part} (hps : covers ps [.regs, .sched, .io] = true) (s₀ : State) (s : State) :
    SameBut ps s₀ (closeCycle s) ↔ SameBut ps s₀ s := by
  refine SameBut.iff (k := [.regs, .sched, .io]) ?_ hps s₀
  simp (disch := decide) [closeCycle]

@[simp] theorem sameBut_blockTask {ps : List Part} (hps : covers ps [.regs, .sched, .io] = true) (s₀ : State) (t : Nat) (s : State) :
    SameBut ps s₀ (blockTask t s) ↔ SameBut ps s₀ s := by
  refine SameBut.iff (k := [.regs, .sched, .io]) ?_ hps s₀
  simp (disch := decide) [blockTask]

@[simp] theorem sameBut_argErrors {ps : List Part} (hps : covers ps [.regs, .io] = true) (s₀ : State) (c : Ctx) (s : State) :
    SameBut ps s₀ (argErrors c s) ↔ SameBut ps s₀ s := by
  refine SameBut.iff (k := [.regs, .io]) ?_ hps s₀
  unfold argErrors
  split
  · exact sameBut_refl _ s
  · exact sameBut_foldl (fun t x => by simp (disch := decide)) _ s

@[simp] theorem sameBut_launchTask {ps : List Part} (hps : covers ps [.regs, .net, .sched, .io] = true) (s₀ : State) (t k : Nat) (s : State) :
    SameBut ps s₀ (launchTask t k s) ↔ SameBut ps s₀ s := by
  refine SameBut.iff (k := [.regs, .net, .sched, .io]) ?_ hps s₀
  simp (disch := decide) [launchTask]

@[simp] theorem sameBut_suspendTask {ps : List Part} (hps : covers ps [.regs, .net, .sched, .io] = true) (s₀ : State) (v : Nat) (s : State) :
    SameBut ps s₀ (suspendTask v s) ↔ SameBut ps s₀ s := by
  refine SameBut.iff (k := [.regs, .net, .sched, .io]) ?_ hps s₀
  simp (disch := decide) [suspendTask]

@[simp] theorem sameBut_decide_ {ps : List Part} (hps : covers ps [.regs, .net, .sched, .io] = true) (s₀ : State) (l : List (Nat × Ctx)) (s : State) :
    SameBut ps s₀ (decide_ l s) ↔ SameBut ps s₀ s := by
  refine SameBut.iff (k := [.regs, .net, .sched, .io]) ?_ hps s₀
  induction l generalizing s with
  | nil => exact sameBut_refl _ s
  | cons x rest ih =>
    unfold decide_
    dsimp only
    split
    · exact ih s
    · split
      · simp (disch := decide)
      · split
        · simp (disch := decide)
        · split
          · simp (disch := decide)
          · exact ih s

@[simp] theorem sameBut_dispatchStage {ps : List Part} (hps : covers ps [.regs, .net, .sched, .io] = true) (s₀ : State) (s : State) :
    SameBut ps s₀ (dispatchStage s) ↔ SameBut ps s₀ s := by
  refine SameBut.iff (k := [.regs, .net, .sched, .io]) ?_ hps s₀
  unfold dispatchStage
  (repeat' split) <;> simp (disch := decide)

@[simp] theorem sameBut_endCycle {ps : List Part} (hps : covers ps [.regs, .net, .sched, .io] = true) (s₀ : State) (s : State) :
    SameBut ps s₀ (endCycle s) ↔ SameBut ps s₀ s := by
  refine SameBut.iff (k := [.regs, .net, .sched, .io]) ?_ hps s₀
  simp (disch := decide) [endCycle]

@[simp] theorem sameBut_finishCycle {ps : List Part} (hps : covers ps [.regs, .net, .sched, .io] = true) (s₀ : State) (s : State) :
    SameBut ps s₀ (finishCycle s) ↔ SameBut ps s₀ s := by
  refine SameBut.iff (k := [.regs, .net, .sched, .io]) ?_ hps s₀
  simp (disch := decide) [finishCycle]

@[simp] theorem sameBut_drainNotice {ps : List Part} (hps : covers ps [.regs, .net, .sched, .io] = true) (s₀ : State) (r : Nat) (s : State) :
    SameBut ps s₀ (drainNotice r s) ↔ SameBut ps s₀ s := by
  refine SameBut.iff (k := [.regs, .net, .sched, .io]) ?_ hps s₀
  simp (disch := decide) [drainNotice]

@[simp] theorem sameBut_drainedReport {ps : List Part} (hps : covers ps [.sched, .rgns] = true) (s₀ : State) (r : Nat) (s : State) :
    SameBut ps s₀ (drainedReport r s) ↔ SameBut ps s₀ s := by
  refine SameBut.iff (k := [.sched, .rgns]) ?_ hps s₀
  simp (disch := decide) [drainedReport]

@[simp] theorem sameBut_scrubEnd {ps : List Part} (hps : covers ps [.regs, .rgns] = true) (s₀ : State) (r : Nat) (staging : Bool) (s : State) :
    SameBut ps s₀ (scrubEnd r staging s) ↔ SameBut ps s₀ s := by
  refine SameBut.iff (k := [.regs, .rgns]) ?_ hps s₀
  simp (disch := decide) [scrubEnd]

@[simp] theorem sameBut_puCounted {ps : List Part} (hps : covers ps [.regs, .wpk] = true) (s₀ : State) (cls n : Nat) (fail : Bool) (s : State) :
    SameBut ps s₀ (puCounted cls n fail s) ↔ SameBut ps s₀ s := by
  refine SameBut.iff (k := [.regs, .wpk]) ?_ hps s₀
  simp (disch := decide) [puCounted]

@[simp] theorem sameBut_puFirst {ps : List Part} (hps : covers ps [.regs] = true) (s₀ : State) (w : Word) (s : State) :
    SameBut ps s₀ (puFirst w s) ↔ SameBut ps s₀ s := by
  refine SameBut.iff (k := [.regs]) ?_ hps s₀
  unfold puFirst
  split <;> simp (disch := decide)

@[simp] theorem sameBut_windowTimeout {ps : List Part} (hps : covers ps [.regs, .wpk, .free] = true) (s₀ : State) (s : State) :
    SameBut ps s₀ (windowTimeout s) ↔ SameBut ps s₀ s := by
  refine SameBut.iff (k := [.regs, .wpk, .free]) ?_ hps s₀
  unfold windowTimeout
  split
  · exact sameBut_refl _ s
  · refine sameBut_foldl (fun t c => ?_) _ s
    dsimp only
    split <;> simp (disch := decide)

@[simp] theorem sameBut_setDrained {ps : List Part} (hps : covers ps [.regs, .fox, .free] = true) (s₀ : State) (s : State) :
    SameBut ps s₀ (setDrained s) ↔ SameBut ps s₀ s := by
  refine SameBut.iff (k := [.regs, .fox, .free]) ?_ hps s₀
  unfold setDrained
  split
  · exact sameBut_refl _ s
  · split
    · exact sameBut_refl _ s
    · rw [sameBut_setFox (by decide), sameBut_foldl_iff fun t x => by simp (disch := decide)]
      simp (disch := decide)

@[simp] theorem sameBut_setPassword {ps : List Part} (hps : covers ps [.regs, .flash, .io] = true) (s₀ : State) (s : State) :
    SameBut ps s₀ (setPassword s) ↔ SameBut ps s₀ s := by
  refine SameBut.iff (k := [.regs, .flash, .io]) ?_ hps s₀
  unfold setPassword
  split
  · simp (disch := decide)
  · exact sameBut_comparePw (by decide) (fun t => by simp (disch := decide)) s

@[simp] theorem sameBut_levelDone {ps : List Part} (hps : covers ps [.regs, .pwr, .io] = true) (s₀ : State) (s : State) :
    SameBut ps s₀ (levelDone s) ↔ SameBut ps s₀ s := by
  refine SameBut.iff (k := [.regs, .pwr, .io]) ?_ hps s₀
  simp (disch := decide) [levelDone]

@[simp] theorem sameBut_islandsMoved {ps : List Part} (hps : covers ps [.regs, .rgns, .pwr, .io] = true) (s₀ : State) (c : LvlChange) (s : State) :
    SameBut ps s₀ (islandsMoved c s) ↔ SameBut ps s₀ s := by
  refine SameBut.iff (k := [.regs, .rgns, .pwr, .io]) ?_ hps s₀
  simp (disch := decide) [islandsMoved]

@[simp] theorem sameBut_moveIslands {ps : List Part} (hps : covers ps [.regs, .rgns, .pwr, .io] = true) (s₀ : State) (c : LvlChange) (s : State) :
    SameBut ps s₀ (moveIslands c s) ↔ SameBut ps s₀ s := by
  refine SameBut.iff (k := [.regs, .rgns, .pwr, .io]) ?_ hps s₀
  simp (disch := decide) [moveIslands]

@[simp] theorem sameBut_levelSettled {ps : List Part} (hps : covers ps [.regs, .rgns, .pwr, .io] = true) (s₀ : State) (s : State) :
    SameBut ps s₀ (levelSettled s) ↔ SameBut ps s₀ s := by
  refine SameBut.iff (k := [.regs, .rgns, .pwr, .io]) ?_ hps s₀
  unfold levelSettled
  split <;> simp (disch := decide)

@[simp] theorem sameBut_signed {ps : List Part} (hps : covers ps [.wpk] = true) (s₀ : State) (cls : Nat) (x : SliceRun) (s : State) :
    SameBut ps s₀ (signed cls x s) ↔ SameBut ps s₀ s := by
  refine SameBut.iff (k := [.wpk]) ?_ hps s₀
  simp (disch := decide) [signed]

@[simp] theorem sameBut_sliceTaken {ps : List Part} (hps : covers ps [.regs, .wpk] = true) (s₀ : State) (cls block slice cell : Nat) (v : Verdict) (s : State) :
    SameBut ps s₀ (sliceTaken cls block slice cell v s) ↔ SameBut ps s₀ s := by
  refine SameBut.iff (k := [.regs, .wpk]) ?_ hps s₀
  unfold sliceTaken
  cases v <;> simp (disch := decide)

@[simp] theorem sameBut_sliceEnd {ps : List Part} (hps : covers ps [.regs, .wpk] = true) (s₀ : State) (cls block slice cell : Nat) (x : SliceRun) (s : State) :
    SameBut ps s₀ (sliceEnd cls block slice cell x s) ↔ SameBut ps s₀ s := by
  refine SameBut.iff (k := [.regs, .wpk]) ?_ hps s₀
  simp (disch := decide) [sliceEnd]

@[simp] theorem sameBut_absentRing {ps : List Part} (hps : covers ps [.regs, .net, .io] = true) (s₀ : State) (route head : Word) (s : State) :
    SameBut ps s₀ (absentRing route head s) ↔ SameBut ps s₀ s := by
  refine SameBut.iff (k := [.regs, .net, .io]) ?_ hps s₀
  simp (disch := decide) [absentRing]

@[simp] theorem sameBut_armSnap {ps : List Part} (hps : covers ps [.regs, .time] = true) (s₀ : State) (at_ : BitVec 64) (scope : Word) (s : State) :
    SameBut ps s₀ (armSnap at_ scope s) ↔ SameBut ps s₀ s := by
  refine SameBut.iff (k := [.regs, .time]) ?_ hps s₀
  simp (disch := decide) [armSnap]

@[simp] theorem sameBut_snapArm {ps : List Part} (hps : covers ps [.regs, .net, .ring, .time, .io] = true) (s₀ : State) (s : State) :
    SameBut ps s₀ (snapArm s) ↔ SameBut ps s₀ s := by
  refine SameBut.iff (k := [.regs, .net, .ring, .time, .io]) ?_ hps s₀
  simp (disch := decide) [snapArm]

@[simp] theorem sameBut_disarmSnap {ps : List Part} (hps : covers ps [.regs, .time] = true) (s₀ : State) (s : State) :
    SameBut ps s₀ (disarmSnap s) ↔ SameBut ps s₀ s := by
  refine SameBut.iff (k := [.regs, .time]) ?_ hps s₀
  simp (disch := decide) [disarmSnap]

@[simp] theorem sameBut_snapExchange {ps : List Part} (hps : covers ps [.regs, .time, .io] = true) (s₀ : State) (s : State) :
    SameBut ps s₀ (snapExchange s) ↔ SameBut ps s₀ s := by
  refine SameBut.iff (k := [.regs, .time, .io]) ?_ hps s₀
  unfold snapExchange
  split
  · exact sameBut_refl _ s
  · dsimp only
    split
    · exact sameBut_refl _ s
    · rw [sameBut_irq (by decide), sameBut_disarmSnap (by decide), sameBut_wr64 (by decide), sameBut_wrf (by decide),
        sameBut_foldl_iff fun t x => by split <;> simp (disch := decide)]
      simp (disch := decide)

@[simp] theorem sameBut_invalidateStage {ps : List Part} (hps : covers ps [.regs, .rgns] = true) (s₀ : State) (r : Nat) (s : State) :
    SameBut ps s₀ (invalidateStage r s) ↔ SameBut ps s₀ s := by
  refine SameBut.iff (k := [.regs, .rgns]) ?_ hps s₀
  simp (disch := decide) [invalidateStage]

@[simp] theorem sameBut_stageCtl {ps : List Part} (hps : covers ps [.regs, .rgns, .io] = true) (s₀ : State) (rq : Requester) (r : Nat) (s : State) :
    SameBut ps s₀ (stageCtl rq r s) ↔ SameBut ps s₀ s := by
  refine SameBut.iff (k := [.regs, .rgns, .io]) ?_ hps s₀
  simp (disch := decide) [stageCtl]

@[simp] theorem sameBut_stewardClkWrite {ps : List Part} (hps : covers ps [.regs, .io, .free] = true) (s₀ : State) (src : Bool) (s : State) :
    SameBut ps s₀ (stewardClkWrite src s) ↔ SameBut ps s₀ s := by
  refine SameBut.iff (k := [.regs, .io, .free]) ?_ hps s₀
  simp (disch := decide) [stewardClkWrite]

@[simp] theorem sameBut_suspendLimit {ps : List Part} (hps : covers ps [.regs, .sched, .io] = true) (s₀ : State) (t : Nat) (s : State) :
    SameBut ps s₀ (suspendLimit t s) ↔ SameBut ps s₀ s := by
  refine SameBut.iff (k := [.regs, .sched, .io]) ?_ hps s₀
  simp (disch := decide) [suspendLimit]

@[simp] theorem sameBut_suspendReached {ps : List Part} (hps : covers ps [.flash] = true) (s₀ : State) (b : Nat) (s : State) :
    SameBut ps s₀ (suspendReached b s) ↔ SameBut ps s₀ s := by
  refine SameBut.iff (k := [.flash]) ?_ hps s₀
  unfold suspendReached
  split <;> simp (disch := decide)

@[simp] theorem sameBut_sendSync {ps : List Part} (hps : covers ps [.regs, .ring] = true) (s₀ : State) (v : BitVec 64) (s : State) :
    SameBut ps s₀ (sendSync v s) ↔ SameBut ps s₀ s := by
  refine SameBut.iff (k := [.regs, .ring]) ?_ hps s₀
  simp (disch := decide) [sendSync]

@[simp] theorem sameBut_syncPair {ps : List Part} (hps : covers ps [.regs, .ring, .time, .io] = true) (s₀ : State) (v : BitVec 64) (s : State) :
    SameBut ps s₀ (syncPair v s) ↔ SameBut ps s₀ s := by
  refine SameBut.iff (k := [.regs, .ring, .time, .io]) ?_ hps s₀
  simp (disch := decide) [syncPair]

@[simp] theorem sameBut_syncSend {ps : List Part} (hps : covers ps [.regs, .ring, .io] = true) (s₀ : State) (s : State) :
    SameBut ps s₀ (syncSend s) ↔ SameBut ps s₀ s := by
  refine SameBut.iff (k := [.regs, .ring, .io]) ?_ hps s₀
  simp (disch := decide) [syncSend]

@[simp] theorem sameBut_syncTimeout {ps : List Part} (hps : covers ps [.regs, .time, .io] = true) (s₀ : State) (s : State) :
    SameBut ps s₀ (syncTimeout s) ↔ SameBut ps s₀ s := by
  refine SameBut.iff (k := [.regs, .time, .io]) ?_ hps s₀
  simp (disch := decide) [syncTimeout]

@[simp] theorem sameBut_testLogicReset {ps : List Part} (hps : covers ps [.io] = true) (s₀ : State) (s : State) :
    SameBut ps s₀ (testLogicReset s) ↔ SameBut ps s₀ s := by
  refine SameBut.iff (k := [.io]) ?_ hps s₀
  simp (disch := decide) [testLogicReset]

@[simp] theorem sameBut_timerDue {ps : List Part} (hps : covers ps [.regs, .sched, .io] = true) (s₀ : State) (n : Nat) (s : State) :
    SameBut ps s₀ (timerDue n s) ↔ SameBut ps s₀ s := by
  refine SameBut.iff (k := [.regs, .sched, .io]) ?_ hps s₀
  simp (disch := decide) [timerDue]

@[simp] theorem sameBut_enterStage {ps : List Part} (hps : covers ps [.regs, .net, .sched, .io] = true) (s₀ : State) (k : Nat) (walker : Bool) (s : State) :
    SameBut ps s₀ (enterStage k walker s) ↔ SameBut ps s₀ s := by
  refine SameBut.iff (k := [.regs, .net, .sched, .io]) ?_ hps s₀
  simp (disch := decide) [enterStage]

theorem sameBut_nextWalk {ps : List Part} (hps : covers ps [.sched] = true) {s t : State} {x : Walk} (hs : nextWalk s = some (x, t)) :
    SameBut ps s t := by
  refine SameBut.weaken (k := [.sched]) ?_ hps
  unfold nextWalk at hs
  split at hs
  · cases hs; exact sameBut_refl _ s
  · dsimp only at hs
    split at hs
    · cases hs
    · split at hs
      · cases hs
      · cases hs
        simp (disch := decide)

@[simp] theorem sameBut_walkerUnbound {ps : List Part} (hps : covers ps [.regs, .net, .sched, .io] = true) (s₀ : State) (s : State) :
    SameBut ps s₀ (walkerUnbound s) ↔ SameBut ps s₀ s := by
  refine SameBut.iff (k := [.regs, .net, .sched, .io]) ?_ hps s₀
  unfold walkerUnbound
  dsimp only
  split
  · exact sameBut_refl _ s
  · have he : SameBut [.regs, .net, .sched, .io] s (enterStage 0 true s) := by simp (disch := decide)
    split
    · exact he
    · rename_i x t ht
      simp (disch := decide) [he.trans (sameBut_nextWalk (by decide) ht)]

@[simp] theorem sameBut_vccoUpdate {ps : List Part} (hps : covers ps [.regs, .io] = true) (s₀ : State) (b mv : Nat) (s : State) :
    SameBut ps s₀ (vccoUpdate b mv s) ↔ SameBut ps s₀ s := by
  refine SameBut.iff (k := [.regs, .io]) ?_ hps s₀
  simp (disch := decide) [vccoUpdate]

@[simp] theorem sameBut_reloadWatchdog {ps : List Part} (hps : covers ps [.dev, .regs] = true) (s₀ : State) (s : State) :
    SameBut ps s₀ (reloadWatchdog s) ↔ SameBut ps s₀ s := by
  refine SameBut.iff (k := [.dev, .regs]) ?_ hps s₀
  unfold reloadWatchdog
  rw [sameBut_wrf (by decide)]
  exact sameBut_setDev_keeping rfl rfl

@[simp] theorem sameBut_takeIn {ps : List Part} (hps : covers ps [.regs, .net] = true) (s₀ : State) (c k : Nat) (s : State) :
    SameBut ps s₀ (takeIn c k s) ↔ SameBut ps s₀ s := by
  refine SameBut.iff (k := [.regs, .net]) ?_ hps s₀
  unfold takeIn
  split
  · exact sameBut_refl _ s
  · split
    · exact sameBut_refl _ s
    · dsimp only
      split <;> simp (disch := decide)

@[simp] theorem sameBut_complete {ps : List Part} (hps : covers ps [.regs, .fab] = true) (s₀ : State) (c : Nat) (i : Insn) (consumed : Option Tag) (taken : Option Bool) (s : State) :
    SameBut ps s₀ (complete c i consumed taken s) ↔ SameBut ps s₀ s := by
  refine SameBut.iff (k := [.regs, .fab]) ?_ hps s₀
  simp (disch := decide) [complete]

@[simp] theorem sameBut_holdCell {ps : List Part} (hps : covers ps [.fab] = true) (s₀ : State) (c : Nat) (x : Stall) (s : State) :
    SameBut ps s₀ (holdCell c x s) ↔ SameBut ps s₀ s := by
  refine SameBut.iff (k := [.fab]) ?_ hps s₀
  simp (disch := decide) [holdCell]

@[simp] theorem sameBut_postWrite {ps : List Part} (hps : covers ps [.fab] = true) (s₀ : State) (c : Nat) (w : TWord) (s : State) :
    SameBut ps s₀ (postWrite c w s) ↔ SameBut ps s₀ s := by
  refine SameBut.iff (k := [.fab]) ?_ hps s₀
  simp (disch := decide) [postWrite]

@[simp] theorem sameBut_putOut {ps : List Part} (hps : covers ps [.regs, .net] = true) (s₀ : State) (c k : Nat) (w : TWord) (s : State) :
    SameBut ps s₀ (putOut c k w s) ↔ SameBut ps s₀ s := by
  refine SameBut.iff (k := [.regs, .net]) ?_ hps s₀
  unfold putOut
  split
  · simp (disch := decide)
  · dsimp only
    split <;> simp (disch := decide)

@[simp] theorem sameBut_snoopLatch {ps : List Part} (hps : covers ps [.macs] = true) (s₀ : State) (m k c n : Nat) (w : TWord) (s : State) :
    SameBut ps s₀ (snoopLatch m k c n w s) ↔ SameBut ps s₀ s := by
  refine SameBut.iff (k := [.macs]) ?_ hps s₀
  simp (disch := decide) [snoopLatch]

@[simp] theorem sameBut_snoopTrigger {ps : List Part} (hps : covers ps [.macs] = true) (s₀ : State) (m c n : Nat) (w : TWord) (before s : State) :
    SameBut ps s₀ (snoopTrigger m c n w before s) ↔ SameBut ps s₀ s := by
  refine SameBut.iff (k := [.macs]) ?_ hps s₀
  simp (disch := decide) [snoopTrigger]

@[simp] theorem sameBut_snoopWrite {ps : List Part} (hps : covers ps [.macs] = true) (s₀ : State) (c n : Nat) (w : TWord) (s : State) :
    SameBut ps s₀ (snoopWrite c n w s) ↔ SameBut ps s₀ s := by
  refine SameBut.iff (k := [.macs]) ?_ hps s₀
  unfold snoopWrite
  dsimp only
  rw [sameBut_snoopTrigger (by decide), sameBut_snoopTrigger (by decide), sameBut_foldl_iff fun t x => by simp (disch := decide)]
  exact sameBut_refl _ s

@[simp] theorem sameBut_writeResult {ps : List Part} (hps : covers ps [.regs, .net, .fab, .macs] = true) (s₀ : State) (c : Nat) (i : Insn) (res : Option TWord) (consumed : Option Tag) (taken : Option Bool) (s : State) :
    SameBut ps s₀ (writeResult c i res consumed taken s) ↔ SameBut ps s₀ s := by
  refine SameBut.iff (k := [.regs, .net, .fab, .macs]) ?_ hps s₀
  unfold writeResult
  (repeat' split) <;> simp (disch := decide)

@[simp] theorem sameBut_finishFault {ps : List Part} (hps : covers ps [.regs, .net, .fab, .macs] = true) (s₀ : State) (c : Nat) (i : Insn) (f : Fetched) (x : TWord) :
    SameBut ps s₀ (finishFault c i f x) ↔ SameBut ps s₀ f.st := by
  refine SameBut.iff (k := [.regs, .net, .fab, .macs]) ?_ hps s₀
  unfold finishFault
  split <;> simp (disch := decide)

@[simp] theorem sameBut_finAlu {ps : List Part} (hps : covers ps [.regs, .net, .fab, .macs] = true) (s₀ : State) (c op : Nat) (alu : Word → Word → Cell → Word × Cell) (i : Insn) (f : Fetched) (x : TWord) :
    SameBut ps s₀ (finAlu c op alu i f x) ↔ SameBut ps s₀ f.st := by
  refine SameBut.iff (k := [.regs, .net, .fab, .macs]) ?_ hps s₀
  unfold finAlu
  split <;> simp (disch := decide)

@[simp] theorem sameBut_finSel {ps : List Part} (hps : covers ps [.regs, .net, .fab, .macs] = true) (s₀ : State) (c : Nat) (i : Insn) (f : Fetched) (x : TWord) :
    SameBut ps s₀ (finSel c i f x) ↔ SameBut ps s₀ f.st := by
  refine SameBut.iff (k := [.regs, .net, .fab, .macs]) ?_ hps s₀
  unfold finSel
  split <;> simp (disch := decide)

@[simp] theorem sameBut_afterAccess {ps : List Part} (hps : covers ps [.fab] = true) (s₀ : State) (c : Nat) (i : Insn) (f : Fetched) :
    SameBut ps s₀ (afterAccess c i f) ↔ SameBut ps s₀ f.st := by
  refine SameBut.iff (k := [.fab]) ?_ hps s₀
  simp (disch := decide) [afterAccess]

@[simp] theorem sameBut_finLd {ps : List Part} (hps : covers ps [.regs, .net, .fab, .macs] = true) (s₀ : State) (c : Nat) (i : Insn) (f : Fetched) (x : TWord) :
    SameBut ps s₀ (finLd c i f x) ↔ SameBut ps s₀ f.st := by
  refine SameBut.iff (k := [.regs, .net, .fab, .macs]) ?_ hps s₀
  unfold finLd
  dsimp only
  split
  · simp (disch := decide)
  · split <;> simp (disch := decide)

@[simp] theorem sameBut_finSt {ps : List Part} (hps : covers ps [.regs, .net, .fab, .macs] = true) (s₀ : State) (c : Nat) (i : Insn) (f : Fetched) (x : TWord) :
    SameBut ps s₀ (finSt c i f x) ↔ SameBut ps s₀ f.st := by
  refine SameBut.iff (k := [.regs, .net, .fab, .macs]) ?_ hps s₀
  unfold finSt
  split <;> simp (disch := decide)

@[simp] theorem sameBut_finEmit {ps : List Part} (hps : covers ps [.regs, .net, .fab, .macs] = true) (s₀ : State) (c : Nat) (i : Insn) (f : Fetched) (x : TWord) :
    SameBut ps s₀ (finEmit c i f x) ↔ SameBut ps s₀ f.st := by
  refine SameBut.iff (k := [.regs, .net, .fab, .macs]) ?_ hps s₀
  unfold finEmit
  split <;> simp (disch := decide)

@[simp] theorem sameBut_issueWait {ps : List Part} (hps : covers ps [.fab] = true) (s₀ : State) (c : Nat) (i : Insn) (f : Fetched) (x : BankWait) :
    SameBut ps s₀ (issueWait c i f x) ↔ SameBut ps s₀ f.st := by
  refine SameBut.iff (k := [.fab]) ?_ hps s₀
  simp (disch := decide) [issueWait]


end Sys2Proof.Machine

/-! PROOFS. O5: the commands that store nothing. -/

namespace Sys2Proof.Machine

open Sys2Proof

/-- Every component but the stored words, the bank ports, the planes, the Configuration Store and the mode. -/
abbrev notStored : List Part :=
  [.pending, .dev, .regs, .net, .fab, .macs, .logic, .sched, .dma, .rgns, .fox, .flash, .upd, .pwr, .wpk, .ring, .time, .io,
    .free]

/-- INVAL_DONE may also end accesses of movers that wait at a bank port. -/
theorem sameBut_execInvalDone {s t : State} (h : execInvalDone s = .next t) : SameBut (.ports :: notStored) s t := by
  cases h
  simp (disch := decide)

theorem sameBut_of_storesNothing {c : Instr} {s t : State} (hc : storesNothing c = true) (hne : c ≠ .invalDone)
    (h : exec c s = .next t) : SameBut notStored s t := by
  have quiet {u : State} (hu : SameBut notStored s u) (h : (Host.Outcome.next u : Out) = .next t) : SameBut notStored s t := by
    cases h; exact hu
  cases c <;> cases hc
  case invalDone => exact absurd rfl hne
  case adj | armCtlArm | clCfgWrite | contextWrite | disarm | dlyWrite | flush | foxLock | holdRelease |
      islWrite | mbxGo | now | owlPortWrite | rollcallGo | setPw | snapArm | snapCancel | stageInvalidate |
      stewardClkWrite | wdtKick =>
    exact quiet (sameBut_onPage (by decide) (by simp (disch := decide)) _ _ _) h
  case absenceEventPost | bypass | clamp | dmaEventPost | handover | highz | idcode | pageLoadTimeout |
      rollcallTimeout | runLimitHit | suspendLimitHit | vccoChange =>
    exact quiet (by split <;> simp (disch := decide)) h
  case strapSafePins pins => exact quiet (u := setDev { s.dev with liveSafe := pins } s) (sameBut_setDev_keeping (by decide) rfl) h
  all_goals exact quiet (by simp (disch := decide)) h

theorem bankWord_of_words {s t : State} (h : t.banks.words = s.banks.words) (b w : Nat) :
    bankWord b w t = bankWord b w s := by simp only [bankWord, h]

/-- Settles O5: by the components that each command may change. -/
theorem memoriesAreKeptByCommandsThatStoreNothing : Obligations.MemoriesAreKeptByCommandsThatStoreNothing := by
  intro c s t hc h
  have kept (hs : SameBut (.ports :: notStored) s t) : (∀ b w, bankWord b w t = bankWord b w s) ∧ t.planes = s.planes ∧
      t.store = s.store ∧ t.dev.mode = s.dev.mode :=
    ⟨bankWord_of_words (hs .words (by decide)), hs .planes (by decide), hs .store (by decide), hs .mode (by decide)⟩
  by_cases hne : c = .invalDone
  · subst hne
    obtain ⟨hw, hp, hst, hm⟩ := kept (sameBut_execInvalDone h)
    exact ⟨hw, fun hn => absurd rfl hn, hp, hst, hm⟩
  · have hs := sameBut_of_storesNothing hc hne h
    obtain ⟨hw, hp, hst, hm⟩ := kept (hs.weaken (by decide))
    exact ⟨hw, fun _ => hs.banks (by decide) (by decide), hp, hst, hm⟩

end Sys2Proof.Machine

/-! PROOFS. Registers of any page under interrupts and errors: an interrupt writes its page's pending bits and at most the
MSI-X pending array of the host port. -/

namespace Sys2Proof.Machine

open Sys2Proof

/-- Register o of page q is no word of the MSI-X pending array. -/
abbrev NoPba (q o : Nat) : Prop := rkey q o ≠ rkey P.PCIE 0xC00 ∧ rkey q o ≠ rkey P.PCIE 0xC04

theorem noPba_page {q o : Nat} (h : q ≠ P.PCIE) (ho : o < 4096) : NoPba q o :=
  ⟨rkey_page h ho (by decide), rkey_page h ho (by decide)⟩

theorem noPba_below {q o : Nat} (h : rkey q o < rkey P.PCIE 0) : NoPba q o := by
  simp only [NoPba, rkey, P.PCIE] at h ⊢; omega

theorem rkey_pba {q o v : Nat} (h : NoPba q o) (hv : v < 64) : rkey q o ≠ rkey P.PCIE (R.PCIE_MSIX_PBA + 4 * (v / 32)) := by
  have hcase : v / 32 = 0 ∨ v / 32 = 1 := by omega
  obtain e | e := hcase <;> rw [e]
  · exact h.1
  · exact h.2

theorem rd_msixSend_other {q o v : Nat} (h : NoPba q o) (hv : v < 64) (s : State) :
    rd q o (msixSend v s) = rd q o s := by
  unfold msixSend
  split
  · rfl
  · split
    · exact rd_md_other (rkey_pba h hv) ..
    · rfl

theorem irqVector_lt {p v : Nat} {s : State} (h : irqVector p s = some v) : v < 64 := by
  unfold irqVector at h
  dsimp only at h
  split at h
  · cases h
  · cases h; exact fld_lt 5 0 _

theorem rd_irqChange_other {q o : Nat} (h : NoPba q o) {f : State → State} {s : State} (hf : rd q o (f s) = rd q o s)
    (p : Nat) (always : Bool) : rd q o (irqChange p always f s) = rd q o s := by
  unfold irqChange
  dsimp only
  split
  · exact hf
  · rename_i v hv
    split
    · rw [rd_msixSend_other h (irqVector_lt hv), hf]
    · exact hf

/-- An interrupt leaves every register but the pending bits of its page and the MSI-X pending array. -/
theorem rd_irq_off {p q o : Nat} (h : NoPba q o) (hp : rkey q o ≠ rkey p R.IRQ_PEND) (b : Nat) (s : State) :
    rd q o (irq p b s) = rd q o s := rd_irqChange_other h (rd_md_other hp ..) ..

theorem rd_irqRise_other {q o : Nat} (h : NoPba q o) (s t : State) : rd q o (irqRise s t) = rd q o t := by
  refine List.foldlRecOn (motive := fun u => rd q o u = rd q o t) _ _ rfl fun u hu v hv => ?_
  split
  · rw [rd_msixSend_other h (List.mem_range.1 hv), hu]
  · exact hu

/-- An error leaves every register but those of the common layout of its page and the MSI-X pending array. -/
theorem rd_err_off {p q o : Nat} (h : NoPba q o) (hp : ∀ o' < 0x24, rkey q o ≠ rkey p o') (code detail addr : Nat)
    (s : State) : rd q o (err p code detail addr s) = rd q o s := by
  unfold err errTransient
  dsimp only
  split
  · exact rd_md_other (hp _ (by decide)) ..
  · rw [rd_irq_off h (hp _ (by decide)), rd_wr_other (hp _ (by decide)), rd_wr_other (hp _ (by decide)),
      rd_wr_other (hp _ (by decide)), rd_md_other (hp _ (by decide))]

/-- Registers above the common layout. -/
theorem rkey_above {p o o' : Nat} (ho : 0x24 ≤ o) (h : o' < 0x24) : rkey p o ≠ rkey p o' := rkey_off (by omega)

theorem rd_err_own {p o : Nat} (h : NoPba p o) (ho : 0x24 ≤ o) (code detail addr : Nat) (s : State) :
    rd p o (err p code detail addr s) = rd p o s := rd_err_off h (fun _ h' => rkey_above ho h') ..

end Sys2Proof.Machine

/-! PROOFS. Frames of the word cells: what an instruction of a cell leaves, while its region is not retired. -/

namespace Sys2Proof.Machine

open Sys2Proof

/-- No parity failure of cell c retires its region: the region does not retire on failures, or the registers are good. -/
def NoRetire (c : CellId) (s : State) : Prop :=
  bit 0 (rd (P.RGN (c.val / 256)) R.RGN_CTL s) = false ∨ ∀ n < 4, parGood (cellReg n (cell c.val s)) = true

theorem noPba_rgn {r : Nat} {o : Nat} (ho : o < 4096) : NoPba (P.RGN r) o :=
  noPba_page (by simp only [P.RGN, P.PCIE]; omega) ho

/-- Without retirement a faulty region is marked, and its control register stays. -/
theorem regionFaulty_keeping {r : Nat} (h : r < 64) (source code : Nat) {s : State}
    (hctl : bit 0 (rd (P.RGN r) R.RGN_CTL s) = false) :
    SameBut [.regs, .io] s (regionFaulty r source code s) ∧
      rd (P.RGN r) R.RGN_CTL (regionFaulty r source code s) = rd (P.RGN r) R.RGN_CTL s := by
  have hne : P.RGN r ≠ P.FOX := by simp only [P.RGN, P.FOX]; omega
  have hoff : R.FOX_FAULTY_LO + 4 * (r / 32) < 4096 := by simp only [R.FOX_FAULTY_LO]; omega
  have hb : NoPba (P.RGN r) R.RGN_CTL := noPba_rgn (by decide)
  unfold regionFaulty
  extract_lets t u
  have ht : SameBut [.regs, .io] s t := by simp only [t]; split <;> simp (disch := decide)
  have hrt : rd (P.RGN r) R.RGN_CTL t = rd (P.RGN r) R.RGN_CTL s := by
    simp only [t]
    split
    · rfl
    · exact rd_wr_other (rkey_off (by decide)) ..
  have hu : SameBut [.regs, .io] s u := by simpa (disch := decide) [u] using ht
  have hru : rd (P.RGN r) R.RGN_CTL u = rd (P.RGN r) R.RGN_CTL s := by
    simp only [u]
    rw [rd_irq_off hb (rkey_page hne (by decide) (by decide)), rd_irq_off hb (rkey_off (by decide)),
      setArr, rd_md_other (rkey_page hne (by decide) hoff), rd_wrf_other (rkey_off (by decide)), hrt]
  have hno : ¬bit 0 (rd (P.RGN r) R.RGN_CTL s) = true := by rw [hctl]; decide
  rw [if_neg hno]
  exact ⟨hu, hru⟩

theorem checkOperand_keeping {c : CellId} {s : State} (h : NoRetire c s) (used : Bool) (code : Nat) :
    SameBut [.regs, .fab, .io] s (checkOperand c.val used code s) ∧ NoRetire c (checkOperand c.val used code s) := by
  unfold checkOperand
  split
  · rename_i hu
    have hn : code < 4 := by simp at hu; omega
    unfold repairReg
    dsimp only
    split
    · exact ⟨sameBut_refl _ s, h⟩
    · rename_i hbad
      have hctl := h.resolve_right fun hg => hbad (hg code hn)
      have hr : c.val / 256 < 64 := by omega
      generalize ht : err (P.RGN (cellRegion c.val)) E.PARITY (c.val % 256) 0 _ = t
      have hst : SameBut [.regs, .fab, .io] s t := by rw [← ht]; simp (disch := decide)
      have hrt : bit 0 (rd (P.RGN (c.val / 256)) R.RGN_CTL t) = false := by
        rw [← ht, cellRegion, rd_err_own (noPba_rgn (by decide)) (by decide)]
        exact hctl
      split
      · obtain ⟨hf, hrf⟩ := regionFaulty_keeping hr 2 E.PARITY hrt
        exact ⟨hst.trans (hf.weaken rfl), .inl (by rw [cellRegion, hrf]; exact hrt)⟩
      · exact ⟨hst, .inl hrt⟩
  · exact ⟨sameBut_refl _ s, h⟩

theorem sameBut_fetch {c : CellId} {s : State} (h : NoRetire c s) (i : Insn) :
    SameBut [.regs, .net, .fab, .io] s (fetch c.val i s).st := by
  obtain ⟨ha, h'⟩ := checkOperand_keeping h (usesA i.opcode) i.srcA
  obtain ⟨hb, -⟩ := checkOperand_keeping h' (usesB i.opcode) i.srcB
  have hab : SameBut [.regs, .net, .fab, .io] s _ := (ha.trans hb).weaken rfl
  unfold fetch
  dsimp only
  split
  · rw [sameBut_mdCell (by decide)]
    split
    · rw [sameBut_takeIn (by decide)]
      split <;> simpa (disch := decide) using hab
    · split <;> simpa (disch := decide) using hab
  · split
    · rw [sameBut_takeIn (by decide)]
      split <;> simpa (disch := decide) using hab
    · split <;> simpa (disch := decide) using hab

/-- What an instruction of a cell may change, while its region is not retired. -/
abbrev cellParts : List Part := [.regs, .net, .fab, .macs, .io]

theorem sameBut_runCell {c : CellId} {s : State} (h : NoRetire c s) (op : Nat) {fin : Insn → Fetched → TWord → State}
    (hfin : ∀ i f w, SameBut cellParts f.st (fin i f w)) : SameBut cellParts s (runCell c.val op fin s) := by
  have hf (i : Insn) : SameBut cellParts s (fetch c.val i s).st := (sameBut_fetch h i).weaken rfl
  unfold runCell
  split
  · rename_i q _
    split
    · exact hfin q.insn (q.fetched s) q.word
    · exact sameBut_refl _ s
  · dsimp only
    split
    · exact sameBut_refl _ s
    · split
      · simpa (disch := decide) using hf _
      · split
        · simpa (disch := decide) using hf _
        · exact (hf _).trans (hfin (curInsn c.val s) _ zeroWord)

end Sys2Proof.Machine


namespace Sys2Proof.Machine

open Sys2Proof

/-! ## The commands of the opcodes that have operands -/

/-- The command p of cell c runs its opcode, ends with R91 on a FAULT operand, changes cells, network and registers
alone, and lets the logic settle where it drives the tap. -/
def RunsItsOpcode (c : CellId) (p : Nat × Instr) : Prop :=
  ∃ fin : Insn → Fetched → TWord → State,
    (∀ s, exec p.2 s = .next (cellSettle p.1 c.val (runCell c.val p.1 fin s))) ∧
    (∀ i f w x, faultOperand c.val i f = some x → fin i f w = finishFault c.val i f x) ∧
    ∀ i f w, SameBut cellParts f.st (fin i f w)

theorem runsItsOpcode_alu {c : CellId} {op : Nat} {i : Instr} (alu : Word → Word → Cell → Word × Cell)
    (h : ∀ s, exec i s = .next (cellSettle op c.val (cellAlu c.val op alu s))) : RunsItsOpcode c (op, i) :=
  ⟨finAlu c.val op alu, h, fun i f w x hx => by simp [finAlu, hx], fun i f w => by simp (disch := decide)⟩

theorem cellCommands_runTheirOpcode (c : CellId) : ∀ p ∈ cellCommands c, RunsItsOpcode c p := by
  simp only [cellCommands, List.forall_mem_cons]
  have hsel : RunsItsOpcode c (0x1C, .sel c) :=
    ⟨finSel c.val, fun _ => rfl, fun i f w x hx => by simp [finSel, hx], fun i f w => by simp (disch := decide)⟩
  have hld : RunsItsOpcode c (0x20, .ld c) :=
    ⟨finLd c.val, fun _ => rfl, fun i f w x hx => by simp [finLd, hx], fun i f w => by simp (disch := decide)⟩
  have hst : RunsItsOpcode c (0x21, .st c) :=
    ⟨finSt c.val, fun _ => rfl, fun i f w x hx => by simp [finSt, hx], fun i f w => by simp (disch := decide)⟩
  have hemit : RunsItsOpcode c (0x22, .emit c) :=
    ⟨finEmit c.val, fun _ => rfl, fun i f w x hx => by simp [finEmit, hx], fun i f w => by simp (disch := decide)⟩
  exact ⟨runsItsOpcode_alu aluPass fun _ => rfl, runsItsOpcode_alu aluAdd fun _ => rfl,
    runsItsOpcode_alu aluAdc fun _ => rfl, runsItsOpcode_alu aluSub fun _ => rfl,
    runsItsOpcode_alu aluSbc fun _ => rfl, runsItsOpcode_alu aluAddss fun _ => rfl,
    runsItsOpcode_alu aluSubss fun _ => rfl, runsItsOpcode_alu aluAddus fun _ => rfl,
    runsItsOpcode_alu aluSubus fun _ => rfl, runsItsOpcode_alu aluMuls fun _ => rfl,
    runsItsOpcode_alu aluMulu fun _ => rfl, runsItsOpcode_alu aluMulsu fun _ => rfl,
    runsItsOpcode_alu aluAnd fun _ => rfl, runsItsOpcode_alu aluOr fun _ => rfl,
    runsItsOpcode_alu aluXor fun _ => rfl, runsItsOpcode_alu aluAndn fun _ => rfl,
    runsItsOpcode_alu aluShl fun _ => rfl, runsItsOpcode_alu aluShr fun _ => rfl,
    runsItsOpcode_alu aluSar fun _ => rfl, runsItsOpcode_alu aluRol fun _ => rfl,
    runsItsOpcode_alu aluRor fun _ => rfl, runsItsOpcode_alu aluMin fun _ => rfl,
    runsItsOpcode_alu aluMax fun _ => rfl, runsItsOpcode_alu aluMinu fun _ => rfl,
    runsItsOpcode_alu aluMaxu fun _ => rfl, runsItsOpcode_alu aluAbs fun _ => rfl,
    runsItsOpcode_alu aluSub fun _ => rfl, runsItsOpcode_alu aluAnd fun _ => rfl, hsel,
    runsItsOpcode_alu aluClz fun _ => rfl, runsItsOpcode_alu aluLcnt fun _ => rfl, hld, hst, hemit,
    runsItsOpcode_alu aluTapo fun _ => rfl, by simp⟩

/-! ## Waiting for the bank (R83, R84, R87) -/

theorem opcode_of_issues {c op : Nat} {s : State} (h : issues c op s = true) : (curInsn c s).opcode = op := by
  simp only [issues, Bool.and_eq_true, beq_iff_eq] at h
  exact h.1.1.2

theorem memAccess_ld {c : Nat} {s : State} (h : issues c 0x20 s = true)
    (hf : faultOperand c (curInsn c s) (fetch c (curInsn c s) s) = none) :
    memAccess c (curInsn c s) (fetch c (curInsn c s) s) =
      some (.load (((fetch c (curInsn c s) s).a.data.toNat + (curInsn c s).imm.toNat) % 8192)) := by
  simp [memAccess, hf, opcode_of_issues h, ldAddr]

theorem memAccess_st {c : Nat} {s : State} (h : issues c 0x21 s = true)
    (hf : faultOperand c (curInsn c s) (fetch c (curInsn c s) s) = none) :
    memAccess c (curInsn c s) (fetch c (curInsn c s) s) =
      some (.store (((fetch c (curInsn c s) s).a.data.toNat + (curInsn c s).imm.toNat) % 8192)
        (resultWord (resTag (curInsn c s) (fetch c (curInsn c s) s)) (fetch c (curInsn c s) s).b.data)) := by
  simp [memAccess, hf, opcode_of_issues h, ldAddr]

/-- Settles O12: the instruction waits where it needs the bank, and ends with the word that the bank gave. -/
theorem cellBankAccessSetsBp : Obligations.CellBankAccessSetsBp := by
  unfold Obligations.CellBankAccessSetsBp
  intro c s
  refine ⟨fun p hp hi hb => ?_, fun hi hb hf => ?_, fun hi hb hf => ?_, fun hgo => ⟨fun hw => ?_, fun hw => ?_⟩,
    fun hgo => ?_⟩
  · obtain ⟨fin, hexec, -⟩ := cellCommands_runTheirOpcode c p hp
    rw [hexec, runCell_waits hi (.inl ⟨hb, rfl⟩)]
    rfl
  · exact congrArg Host.Outcome.next (runCell_waits hi (.inr ⟨hb, memAccess_ld hi hf⟩))
  · exact congrArg Host.Outcome.next (runCell_waits hi (.inr ⟨hb, memAccess_st hi hf⟩))
  · refine congrArg Host.Outcome.next ((runCell_runs hgo.1).trans ?_)
    simp only [finLd, hgo.2]
    exact if_pos ⟨hw.1, by simpa [afterAccess, ldAddr, cellA] using hw.2⟩
  · refine congrArg Host.Outcome.next ((runCell_runs hgo.1).trans ?_)
    simp only [finLd, hgo.2]
    exact if_neg fun h => hw ⟨h.1, by simpa [afterAccess, ldAddr, cellA] using h.2⟩
  · refine congrArg Host.Outcome.next ((runCell_runs hgo.1).trans ?_)
    simp only [finSt, hgo.2]
    rfl

/-! ## Waits, halts and FAULT operands (R80, R84, R85, R89, R91) -/

/-- The opcodes with operands are not those that R91 leaves quiet, but for the five that write no result. -/
theorem quietOnFault_of_cellCommands {c : CellId} {p : Nat × Instr} (hp : p ∈ cellCommands c) :
    quietOnFault p.1 = decide (p.1 ∈ [0x1A, 0x1B, 0x21, 0x24, 0x1E]) := by
  have hall : (cellCommands c).all (fun p => quietOnFault p.1 == decide (p.1 ∈ [0x1A, 0x1B, 0x21, 0x24, 0x1E])) = true := rfl
  simpa using List.all_eq_true.1 hall p hp

theorem opcode_of_cellRuns {c op : Nat} {s : State} (h : CellRuns c op s) : (cellInsn c s).opcode = op := by
  unfold CellRuns at h
  unfold cellInsn
  cases e : (cell c s).issued with
  | some q =>
    simp only [e, Bool.and_eq_true, beq_iff_eq] at h
    exact h.1.1
  | none =>
    simp only [e, Bool.and_eq_true] at h
    exact opcode_of_issues h.1.1

/-- Settles O13: the operations that end, halt or hold an instruction by their definitions, and R91 for every opcode with
operands at once. -/
theorem cellWaitsHaltsAndFaultOperands : Obligations.CellWaitsHaltsAndFaultOperands := by
  unfold Obligations.CellWaitsHaltsAndFaultOperands
  refine ⟨fun c s => ⟨fun hi => ?_, fun hi => ?_, fun hr hn hres => ?_, fun st hst hrun hdst hroom => ?_,
    fun st hst hrun hdst hpost => ?_⟩, fun c s w => ?_, fun c s => ⟨fun p hp hi hr => ?_, fun hi => ?_, fun hi => ?_,
    fun hi => ?_⟩⟩
  · change (Host.Outcome.next (cellWait ..) : Out) = _
    simp [cellWait, hi, writeResult]
  · change (Host.Outcome.next (cellHalt ..) : Out) = _
    simp [cellHalt, hi, haltCell, cellRegion, mdCell]
  · change (Host.Outcome.next (cellReserved ..) : Out) = _
    rw [cellReserved, if_pos (by simp [hr, hn, hres])]
    simp only [haltCell, cellRegion, mdCell]
  · change (Host.Outcome.next (settleLogic _ (acceptOutput ..)) : Out) = _
    simp only [acceptOutput, hst, cellRegion, hrun, hdst, hroom]
    rfl
  · change (Host.Outcome.next (settleLogic _ (acceptOutput ..)) : Out) = _
    simp [acceptOutput, hst, cellRegion, hrun, hdst, hpost, postWrite, mdCell]
  · intro i f hf p hp hruns
    obtain ⟨fin, hexec, hfault, -⟩ := cellCommands_runTheirOpcode c p hp
    rw [hexec, runCell_runs hruns, hfault _ _ _ _ hf, finishFault, opcode_of_cellRuns hruns,
      quietOnFault_of_cellCommands hp]
    simp only [decide_eq_true_eq]
    rfl
  · obtain ⟨fin, hexec, -⟩ := cellCommands_runTheirOpcode c p hp
    rw [hexec, runCell_idle hi hr]
  · exact congrArg Host.Outcome.next (if_pos (by simp [hi]))
  · exact congrArg Host.Outcome.next (if_pos (by simp [hi]))
  · exact congrArg Host.Outcome.next (if_pos (by simp [hi]))

/-! ## What an instruction leaves (R84, R88) -/

theorem sameBut_cellCommand {c : CellId} {p : Nat × Instr} (hp : p ∈ cellCommands c) {s : State} (h : NoRetire c s) :
    ∃ t, exec p.2 s = .next t ∧ SameBut (.logic :: cellParts) s t ∧ (p.1 ≠ 0x24 → SameBut cellParts s t) := by
  obtain ⟨fin, hexec, -, hfin⟩ := cellCommands_runTheirOpcode c p hp
  have hrun := sameBut_runCell h p.1 hfin
  refine ⟨_, hexec s, ?_, fun hop => ?_⟩
  · unfold cellSettle
    split
    · simpa (disch := decide) using hrun.weaken (l := .logic :: cellParts) rfl
    · exact hrun.weaken rfl
  · rw [cellSettle, if_neg hop]
    exact hrun

/-- Settles O6: by the components that the end of each instruction may change; no parity failure retires the region. -/
theorem cellCommandsLeaveTheOtherUnits : Obligations.CellCommandsLeaveTheOtherUnits := by
  intro c s t p hp ht hgood
  obtain ⟨u, hu, hsame, hlogic⟩ := sameBut_cellCommand hp (s := s) hgood
  cases hu.symm.trans ht
  exact ⟨hsame.device (by decide) (by decide), fun hop => hlogic hop .logic (by decide), hsame .sched (by decide),
    hsame .dma (by decide), hsame .planes (by decide), hsame .store (by decide), hsame .flash (by decide),
    hsame .pwr (by decide), hsame .ring (by decide), hsame .time (by decide), hsame .free (by decide)⟩

end Sys2Proof.Machine

/-! PROOFS. Channels: what a channel reads after a write, and which channels a taken message changes. O14. -/

namespace Sys2Proof.Machine

open Sys2Proof

@[simp] theorem chan_setChan_same (c : ChanId) (x : Channel) (s : State) : chan c (setChan c x s) = x :=
  tget_tput_same ..

@[simp] theorem chan_mdChan_same (c : ChanId) (f : Channel → Channel) (s : State) :
    chan c (mdChan c f s) = f (chan c s) := chan_setChan_same ..

theorem chan_of_net {s t : State} (h : t.net = s.net) (c : ChanId) : chan c t = chan c s := by rw [chan, h, chan]

theorem SameBut.chan {l : List Part} {s t : State} (h : SameBut l s t) (hl : Part.net ∉ l) (c : ChanId) :
    chan c t = chan c s := chan_of_net (h .net hl) c

/-- Taking the words of a message leaves the route of its channel. -/
theorem route_takeMsg (c : ChanId) (s : State) : (chan c (takeMsg c s)).route = (chan c s).route := by
  have hpopped (x : Channel) : x.popped.route = x.route := by
    unfold Channel.popped; dsimp only; split <;> rfl
  have htake (fuel : Nat) (s : State) : (chan c (takeWords fuel c s)).route = (chan c s).route := by
    induction fuel generalizing s with
    | zero => rfl
    | succ fuel ih =>
      unfold takeWords
      dsimp only
      split
      · rfl
      · split
        · rfl
        · rw [ih, chan_mdChan_same]
          exact (congrArg Channel.route (chan_mdChan_same ..)).trans (hpopped _)
  unfold takeMsg
  split
  · exact htake ..
  · rfl

theorem takeMsg_of_not_gathers {c : ChanId} (h : gathers c = false) (s : State) : takeMsg c s = s := by
  rw [takeMsg, if_neg (by simp [h])]

/-- Without an open route nothing advances. -/
theorem advanceAll_of_no_route {c : ChanId} {s : State} (h : (chan c s).route = none) : advanceAll c s = s := by
  unfold advanceAll advance
  dsimp only
  split <;> simp_all

/-! ## A word that crosses -/

/-- The channel after a word with good parity has come. -/
def Channel.taken (x : Channel) (v : TWord) (rest : List (TWord × Bool)) : Channel :=
  { x with flight := rest, rejecting := false, verdicts := x.verdicts ++ [true], buffer := x.buffer ++ [v] }

/-- The count of a word that came, in the state t; the monitor's selection is that of s. -/
def countArrived (c : ChanId) (s t : State) : State :=
  match c with
  | .portDown p => count (P.RGN (p.val / 8)) R.RGN_SW_WORDS_DOWN t
  | .portUp p => if rdf P.XB R.XB_MON_SEL 8 0 s = p.val then count P.XB R.XB_MON_IN t else t
  | .ringIn => count P.RING R.RING_WORDS_IN t
  | _ => t

@[simp] theorem sameBut_countArrived {ps : List Part} (hps : covers ps [.regs] = true) (s₀ : State) (c : ChanId) (s t : State) :
    SameBut ps s₀ (countArrived c s t) ↔ SameBut ps s₀ t := by
  refine SameBut.iff (k := [.regs]) ?_ hps s₀
  unfold countArrived
  cases c
  case portUp => dsimp only; split <;> simp (disch := decide)
  all_goals simp (disch := decide)

theorem arrive_cons {c : ChanId} {s : State} {w : TWord} {replay : Bool} {rest : List (TWord × Bool)} (upset : Bool)
    (hf : (chan c s).flight = (w, replay) :: rest) :
    arrive c upset s =
      if (chan c s).rejecting && !replay then setChan c { chan c s with flight := rest } s
      else if parGood (if upset then corrupt w else w) then
        advanceAll c (countArrived c s (takeMsg c (setChan c ((chan c s).taken (if upset then corrupt w else w) rest) s)))
      else checkFailed c (setChan c { chan c s with
        flight := rest, rejecting := true, verdicts := (chan c s).verdicts ++ [false] } s) := by
  unfold arrive
  dsimp only
  rw [hf]
  rfl

theorem arrive_dropped {c : ChanId} {s : State} {w : TWord} {rest : List (TWord × Bool)} (upset : Bool)
    (hf : (chan c s).flight = (w, false) :: rest) (hr : (chan c s).rejecting = true) :
    arrive c upset s = setChan c { chan c s with flight := rest } s := by
  rw [arrive_cons upset hf, if_pos (by simp [hr])]

section
variable {c : ChanId} {s : State} {w : TWord} {replay : Bool} {rest : List (TWord × Bool)} {upset : Bool}
  (hf : (chan c s).flight = (w, replay) :: rest) (hr : (chan c s).rejecting = false ∨ replay = true)
include hf hr

theorem arrive_rejected (hp : parGood (if upset then corrupt w else w) = false) :
    arrive c upset s = checkFailed c (setChan c { chan c s with
      flight := rest, rejecting := true, verdicts := (chan c s).verdicts ++ [false] } s) := by
  have hn : ¬((chan c s).rejecting && !replay) = true := by
    obtain h | h := hr <;> simp [h]
  rw [arrive_cons upset hf, if_neg hn, if_neg (by simp [hp])]

theorem arrive_taken (hp : parGood (if upset then corrupt w else w) = true) (hroute : (chan c s).route = none) :
    SameBut [.regs] (takeMsg c (setChan c ((chan c s).taken (if upset then corrupt w else w) rest) s)) (arrive c upset s) := by
  have hn : ¬((chan c s).rejecting && !replay) = true := by
    obtain h | h := hr <;> simp [h]
  rw [arrive_cons upset hf, if_neg hn, if_pos hp]
  generalize hm : takeMsg c (setChan c ((chan c s).taken _ rest) s) = m
  have hmr : (chan c m).route = none := by
    rw [← hm, route_takeMsg, chan_setChan_same]; exact hroute
  have hu : SameBut [.regs] m (countArrived c s m) := by simp (disch := decide)
  rwa [advanceAll_of_no_route (by rw [hu.chan (by decide), hmr])]

end

end Sys2Proof.Machine

/-! PROOFS. O14: crossings, credits and spare ports. -/

namespace Sys2Proof.Machine

open Sys2Proof

theorem headArrives_of_rejecting {j : Fin 2048} {upset : Bool} {s : State} {w : TWord} {rest : List (TWord × Bool)}
    (hf : (chan (.tpIn j) s).flight = (w, false) :: rest) (hr : (chan (.tpIn j) s).rejecting = true) :
    headArrives j upset s = false := by
  simp [headArrives, hf, hr]

theorem headArrives_of_bad {j : Fin 2048} {upset : Bool} {s : State} {w : TWord} {replay : Bool}
    {rest : List (TWord × Bool)} (hf : (chan (.tpIn j) s).flight = (w, replay) :: rest)
    (hp : parGood (if upset then corrupt w else w) = false) : headArrives j upset s = false := by
  simp [headArrives, hf, hp]

/-- A word that crosses arrives, after a HEAD at a tile port has let the held commits of its uplinks go. -/
theorem crossWord_arrives {c : ChanId} {s : State} (upset : Bool) (hl : chanLive c s = true) (ho : c ≠ .ringOut)
    (h5 : c ≠ .svcDown 5) (h6 : c ≠ .svcDown 6) :
    ∃ u, SameBut [.regs, .fab] s u ∧ crossWord c upset s = arrive c upset u ∧
      ((∀ j, c = .tpIn j → headArrives j upset s = false) → u = s) := by
  have hlive : ¬(!chanLive c s) = true := by simp [hl]
  cases c
  case tpIn j =>
    refine ⟨_, ?_, if_neg hlive, fun hh => if_neg (by simp [hh j rfl])⟩
    split
    · refine sameBut_forPorts (ps := [.regs, .fab]) (fun n t => ?_) _ s
      split <;> simp (disch := decide)
    · exact sameBut_refl _ s
  case ringOut => exact absurd rfl ho
  case svcDown k =>
    have hk6 : ¬k = 6 := fun e => h6 (by rw [e])
    have hk5 : ¬k = 5 := fun e => h5 (by rw [e])
    refine ⟨s, sameBut_refl _ s, ?_, fun _ => rfl⟩
    unfold crossWord
    rw [if_neg hlive]
    dsimp only
    rw [if_neg hk6, if_neg hk5]
  all_goals exact ⟨s, sameBut_refl _ s, if_neg hlive, fun _ => rfl⟩

theorem exec_crossingWord_eq {c : ChanId} {s : State} {upset : Bool} (hl : chanLive c s = true) (ho : c ≠ .ringOut)
    (h5 : c ≠ .svcDown 5) (h6 : c ≠ .svcDown 6) (hh : ∀ j, c = .tpIn j → headArrives j upset s = false) :
    exec (.crossingWord c upset) s = .next (settleTap c (arrive c upset s)) := by
  obtain ⟨u, -, he, hu⟩ := crossWord_arrives upset hl ho h5 h6
  rw [hu hh] at he
  exact congrArg (fun t => Host.Outcome.next (settleTap c t)) he

section
variable {c : ChanId} {s : State} {w : TWord} {replay : Bool} {rest : List (TWord × Bool)} {upset : Bool}
  (hl : chanLive c s = true) (hf : (chan c s).flight = (w, replay) :: rest)
  (hr : (chan c s).rejecting = false ∨ replay = true) (hp : parGood (if upset then corrupt w else w) = true)
  (hroute : (chan c s).route = none)
include hl hf hr hp hroute

/-- A good word enters the buffer of its channel, which a gathering receiver takes at once. -/
theorem exec_crossingWord_taken (ho : c ≠ .ringOut) (h5 : c ≠ .svcDown 5) (h6 : c ≠ .svcDown 6) :
    ∃ t, exec (.crossingWord c upset) s = .next t ∧ t.banks = s.banks ∧
      chan c t = chan c (takeMsg c (setChan c ((chan c s).taken (if upset then corrupt w else w) rest) s)) := by
  obtain ⟨u, hsu, he, hu⟩ := crossWord_arrives upset hl ho h5 h6
  have hcu : chan c u = chan c s := hsu.chan (by decide) c
  have ht := arrive_taken (upset := upset) (hcu ▸ hf) (hcu ▸ hr) hp (hcu ▸ hroute)
  rw [hcu] at ht
  have hsettle : SameBut [.logic] (arrive c upset u) (settleTap c (arrive c upset u)) := by simp (disch := decide)
  refine ⟨settleTap c (arrive c upset u), congrArg (fun t => Host.Outcome.next (settleTap c t)) he, ?_, ?_⟩
  · have hnet : SameBut [.net] u (takeMsg c (setChan c ((chan c s).taken (if upset then corrupt w else w) rest) u)) := by
      simp (disch := decide)
    rw [hsettle.banks (by decide) (by decide), ht.banks (by decide) (by decide), hnet.banks (by decide) (by decide),
      hsu.banks (by decide) (by decide)]
  · rw [hsettle.chan (by decide), ht.chan (by decide)]
    by_cases hg : gathers c = true
    · rw [hu fun j hj => by rw [hj] at hg; cases hg]
    · rw [Bool.not_eq_true] at hg
      rw [takeMsg_of_not_gathers hg, takeMsg_of_not_gathers hg, chan_setChan_same, chan_setChan_same]

end

/-- The ring-out keeps a good word for the next node, and owes its credit with those of the words before it. -/
theorem exec_crossingWord_ringOut {s : State} {w : TWord} {replay : Bool} {rest : List (TWord × Bool)} {upset : Bool}
    (hl : chanLive .ringOut s = true) (hf : (chan .ringOut s).flight = (w, replay) :: rest)
    (hr : (chan .ringOut s).rejecting = false ∨ replay = true) (hp : parGood (if upset then corrupt w else w) = true)
    (hroute : (chan .ringOut s).route = none) :
    ∃ t, exec (.crossingWord .ringOut upset) s = .next t ∧ t.banks = s.banks ∧
      chan .ringOut t = { (chan .ringOut s).taken (if upset then corrupt w else w) rest with
        buffer := [], owed := (chan .ringOut s).owed + ((chan .ringOut s).buffer.length + 1) } := by
  have ht := arrive_taken (upset := upset) hf hr hp hroute
  rw [takeMsg_of_not_gathers rfl] at ht
  have hlive : ¬(!chanLive .ringOut s) = true := by simp [hl]
  refine ⟨_, congrArg (fun t => Host.Outcome.next (settleTap .ringOut t)) (if_neg hlive), ?_, ?_⟩
  · have hmd : SameBut [.net] (arrive .ringOut upset s) (mdChan .ringOut
        (fun x => { x with buffer := [], owed := x.owed + x.buffer.length }) (arrive .ringOut upset s)) := by
      simp (disch := decide)
    exact (hmd.banks (by decide) (by decide)).trans (ht.banks (by decide) (by decide))
  · change chan .ringOut (mdChan .ringOut _ (arrive .ringOut upset s)) = _
    rw [chan_mdChan_same, ht.chan (by decide), chan_setChan_same]
    simp [Channel.taken]

/-- A verdict returns: what CROSSING's sender does, but at the ring-out. -/
theorem exec_parityVerdict {c : ChanId} {s : State} (hl : chanLive c s = true) (ho : c ≠ .ringOut) :
    exec (.parityVerdict c) s = .next (verdict c s) := by
  change (Host.Outcome.next (verdictReturned c s) : Out) = _
  rw [verdictReturned, if_neg (by simp [hl]), if_neg ho]

/-- Settles O14: by the word that arrives, the credit or verdict that returns, and the first free spare. -/
theorem crossingsCreditsAndSpares : Obligations.CrossingsCreditsAndSpares := by
  refine ⟨fun c upset s w replay rest hl hf => ⟨fun ho h5 h6 => ⟨fun hr hn => ?_, fun hr hp => ?_⟩,
    fun h5 h6 hr hp hroute => ?_⟩, fun c s hl => ⟨fun howed => ?_, fun howed ho => ?_, fun vs hv ho => ?_,
    fun vs w r hv hret hfails ho hi => ?_, fun vs hv hfails ho => ?_⟩, fun p s hrem => ⟨fun k hk hfree hfirst => ?_,
    fun hnone => ?_⟩⟩
  · subst hn
    rw [exec_crossingWord_eq hl ho h5 h6 fun j hj => by subst hj; exact headArrives_of_rejecting hf hr,
      arrive_dropped upset hf hr]
  · rw [exec_crossingWord_eq hl ho h5 h6 fun j hj => by subst hj; exact headArrives_of_bad hf hp,
      arrive_rejected hf hr hp]
    cases c
    case ringOut => exact absurd rfl ho
    all_goals rfl
  · by_cases ho : c = .ringOut
    · subst ho
      obtain ⟨t, ht, hb, hc⟩ := exec_crossingWord_ringOut hl hf hr hp hroute
      exact ⟨t, ht, hb, fun _ => hc, fun h => absurd rfl h, fun h => by cases h⟩
    · obtain ⟨t, ht, hb, hc⟩ := exec_crossingWord_taken hl hf hr hp hroute ho h5 h6
      refine ⟨t, ht, hb, fun h => absurd h ho, fun _ hg => ?_, fun _ => hc⟩
      rw [hc, takeMsg_of_not_gathers hg, chan_setChan_same]
      rfl
  · change (Host.Outcome.next (settleTap c (creditReturned c s)) : Out) = _
    rw [creditReturned, if_neg (by simp [hl]), creditBack, if_neg howed]
  · change (Host.Outcome.next (settleTap c (creditReturned c s)) : Out) = _
    rw [creditReturned, if_neg (by simp [hl]), creditBack, if_pos howed, if_neg ho]
  · rw [exec_parityVerdict hl ho, verdict, hv]
  · rw [exec_parityVerdict hl ho, verdict, hv, hret]
    dsimp only
    rw [if_pos (by omega)]
    cases c
    case ringIn => exact absurd rfl hi
    case ringOut => exact absurd rfl ho
    all_goals rfl
  · rw [exec_parityVerdict hl ho, verdict, hv]
    dsimp only
    rw [if_neg (by omega)]
  · have hfind : (List.range 8).find? (fun k => !bit k (rd P.XB R.XB_STAT s) && !bit (8 + k) (rd P.XB R.XB_STAT s)) = some k :=
      List.find?_range_eq_some.2 ⟨hfree, List.mem_range.2 hk, fun j hj => by have h : (_ : Bool) = false := hfirst j hj; dsimp only at h; rw [h]; rfl⟩
    change (Host.Outcome.next (remap p.val s) : Out) = _
    rw [remap, if_neg (by simp [hrem])]
    dsimp only
    rw [hfind]
    simp [portId]
  · have hfind : (List.range 8).find? (fun k => !bit k (rd P.XB R.XB_STAT s) && !bit (8 + k) (rd P.XB R.XB_STAT s)) = none :=
      List.find?_range_eq_none.2 fun i hi => by have h : (_ : Bool) = false := hnone i hi; dsimp only at h; rw [h]; rfl
    change (Host.Outcome.next (remap p.val s) : Out) = _
    rw [remap, if_neg (by simp [hrem])]
    dsimp only
    rw [hfind]
    simp [portId]

end Sys2Proof.Machine

/-! PROOFS. O15: region switches, the crossbar and the grant of a freed output. -/

namespace Sys2Proof.Machine

open Sys2Proof

section
variable {inp : ChanId} {s : State} {h r : TWord} {rest : List TWord}

/-- The first two words of a message, when no route is open, go to the routing of the stage. -/
theorem routeFront_head (go : Word → Word → State → State) (hr : (chan inp s).route = none)
    (hb : (chan inp s).buffer = h :: r :: rest) (hh : h.tag = .head) (hd : r.tag = .data) :
    routeFront inp go s = go h.data r.data s := by
  simp [routeFront, hr, hb, hh, hd]

theorem routeFront_stray (go : Word → Word → State → State) (hr : (chan inp s).route = none)
    (hb : (chan inp s).buffer = h :: rest) (hh : h.tag ≠ .head) :
    routeFront inp go s = strayWord inp (popBuffer inp s) := by
  simp [routeFront, hr, hb, hh]

end

theorem exec_switchMessageRoute_tile {j : Fin 2048} {s : State} (hl : chanLive (.tpOut j) s = true) :
    exec (.switchMessageRoute (.tpOut j)) s = .next (routeFront (.tpOut j) (routeTilePort j.val (.tpOut j)) s) := by
  change (Host.Outcome.next (switchRoute (.tpOut j) s) : Out) = _
  rw [switchRoute, if_neg (by simp [hl])]

/-- Words that fail at the output stage write ERR_COUNT of XB alone. -/
theorem coreFails_keep (k : Nat) (s : State) :
    SameBut [.regs] s ((List.range k).foldl (fun t _ => errTransient P.XB t) s) ∧
      takesWork P.XB ((List.range k).foldl (fun t _ => errTransient P.XB t) s) = takesWork P.XB s := by
  refine ⟨sameBut_foldl (fun t x => by simp (disch := decide)) _ _, ?_⟩
  unfold takesWork
  rw [rd_foldl fun t _ => rd_errTransient_other (rkey_off (by decide)) t]

theorem coreChecks_few {inp : ChanId} {k : Nat} {s : State} (hk : k < 4) (hb : (chan inp s).buffer ≠ []) :
    coreChecks inp k s = (List.range k).foldl (fun t _ => errTransient P.XB t) s := by
  unfold coreChecks
  dsimp only
  by_cases h0 : k = 0
  · subst h0; simp
  · rw [if_neg (by simp [hb, h0]), if_pos hk]

/-- A message at an open crossbar is routed in the state that its failing words leave. -/
theorem exec_crossbarRoute_up {p : PortId} {k : Nat} {s : State} {h r : TWord} {rest : List TWord}
    (hl : chanLive (.portUp p) s = true) (hu : portUnderSlice p.val s = false) (hk : k < 4)
    (ht : takesWork P.XB ((List.range k).foldl (fun t _ => errTransient P.XB t) s) = true)
    (hr : (chan (.portUp p) s).route = none) (hb : (chan (.portUp p) s).buffer = h :: r :: rest)
    (hm : remapping p.val s = false) (hh : h.tag = .head) (hd : r.tag = .data) :
    exec (.crossbarRoute ⟨.portUp p, k⟩) s = .next (routeCrossbar (.portUp p) (routePort p.val) h.data r.data
      ((List.range k).foldl (fun t _ => errTransient P.XB t) s)) := by
  obtain ⟨hsame, htake⟩ := coreFails_keep k s
  rw [htake] at ht
  change (Host.Outcome.next (crossbarStage (.portUp p) k s) : Out) = _
  unfold crossbarStage
  rw [if_neg (by simp [hl])]
  dsimp only
  rw [if_neg (by simp [hu, hm]), if_neg (by omega), if_pos ht, coreChecks_few hk (by simp [hb])]
  generalize (List.range k).foldl (fun t _ => errTransient P.XB t) s = u at hsame ⊢
  have hc : chan (.portUp p) u = chan (.portUp p) s := hsame.chan (by decide) _
  rw [advanceAll_of_no_route (by rw [hc, hr]), routeFront_head _ (by rw [hc, hr]) (by rw [hc, hb]) hh hd]

/-- Of entries that came together, the one whose turn comes before all others is taken. -/
theorem foldl_nextTurn {turn : ChanId → Nat} {i : ChanId} (l : List (ChanId × BitVec 64)) (best : Option ChanId)
    (hl : ∀ e ∈ l, e.1 = i ∨ turn i < turn e.1) (hbest : ∀ b, best = some b → b = i ∨ turn i < turn b)
    (hi : best = some i ∨ ∃ e ∈ l, e.1 = i) :
    l.foldl (fun best e => match best with
      | none => some e.1
      | some i => if turn e.1 < turn i then some e.1 else best) best = some i := by
  induction l generalizing best with
  | nil => simpa using hi
  | cons e l ih =>
    have he := hl e (by simp)
    refine ih _ (fun e he => hl e (by simp [he])) ?_ ?_
    · intro b hb
      cases best with
      | none => cases hb; exact he
      | some c =>
        dsimp only at hb
        split at hb <;> cases hb
        · exact he
        · exact hbest _ rfl
    · obtain hi | ⟨e', he', hei⟩ := hi
      · left
        subst hi
        dsimp only
        rw [if_neg]
        obtain rfl | h := he
        · omega
        · omega
      · obtain rfl | h := List.mem_cons.1 he'
        · left
          cases best with
          | none => rw [← hei]
          | some b =>
            dsimp only
            obtain rfl | hb := hbest b rfl
            · rw [hei, if_neg (by omega)]
            · rw [if_pos (by rw [hei]; exact hb), hei]
        · exact .inr ⟨e', h, hei⟩

theorem nextServed_of_turn {x : Channel} {i : ChanId} {d : BitVec 64} (hd : x.waiting.head?.map (·.2) = some d)
    (hi : (i, d) ∈ x.waiting)
    (hturn : ∀ e ∈ x.waiting, e.2 = d → e.1 ≠ i →
      (inputNo i + 1023 - x.served) % 1024 < (inputNo e.1 + 1023 - x.served) % 1024) :
    nextServed x = some i := by
  unfold nextServed
  cases hw : x.waiting with
  | nil => rw [hw] at hi; cases hi
  | cons first rest =>
    have hfirst : first.2 = d := by simpa [hw] using hd
    dsimp only
    rw [← hw, hfirst]
    refine foldl_nextTurn (turn := fun i => (inputNo i + 1023 - x.served) % 1024) _ none (fun e he => ?_)
      (fun b hb => by cases hb) (.inr ⟨(i, d), by simp [hi], rfl⟩)
    simp only [List.mem_filter, beq_iff_eq] at he
    by_cases hei : e.1 = i
    · exact .inl hei
    · exact .inr (hturn e he.1 he.2 hei)

/-- Settles O15: a message's first two words decide its route, a stray word is counted, a freed output goes by turn. -/
theorem switchesRouteMessages : Obligations.SwitchesRouteMessages := by
  refine ⟨fun s h r rest hh hd => ⟨fun j hl hr hb hheld habs => ⟨fun p o hp hreg hen hpabs hout => ?_,
      fun p hp hreg hrem => ?_, fun habsent => ?_⟩,
      fun p k hl hu hk ht hr hb hm => ⟨fun q hq hrem => ?_, fun hnone => ?_⟩⟩,
    fun s => ⟨fun j w rest hl hr hb hw => ?_, fun o i d hl hfree hret hd hi hturn => ?_⟩⟩
  · rw [exec_switchMessageRoute_tile hl, routeFront_head _ hr hb hh hd, routeTilePort]
    simp [hheld, habs, hp, hreg, hen, hpabs, hout]
  · rw [exec_switchMessageRoute_tile hl, routeFront_head _ hr hb hh hd, routeTilePort]
    simp [hheld, habs, hp, hreg, hrem]
  · rw [exec_switchMessageRoute_tile hl, routeFront_head _ hr hb hh hd, routeTilePort]
    simp [hheld, habs, habsent]
  · rw [exec_crossbarRoute_up hl hu hk ht hr hb hm hh hd, routeCrossbar, hq]
    simp [hrem, deliveredAs, (coreFails_keep k s).1.chan (by decide)]
  · rw [exec_crossbarRoute_up hl hu hk ht hr hb hm hh hd, routeCrossbar, hnone]
  · rw [exec_switchMessageRoute_tile hl, routeFront_stray _ hr hb hw]
    rfl
  · change (Host.Outcome.next (if chanLive o s then grantNext o s else s) : Out) = _
    have hnext : nextServed (chan o s) = some i := nextServed_of_turn hd hi hturn
    rw [if_pos hl, grantNext]
    rw [hfree, hnext]
    dsimp only
    rw [if_neg (by simp [hret])]
    rfl

end Sys2Proof.Machine

/-! PROOFS. O16: live parameters. The counters of the network are the registers that an advance writes. -/

namespace Sys2Proof.Machine

open Sys2Proof

/-! ## The registers that an advancing message writes -/

/-- Registers whose offsets differ differ, whatever their pages. -/
theorem rkey_offset {p q o o' : Nat} (ho : o < 4096) (ho' : o' < 4096) (h : o / 4 ≠ o' / 4) : rkey p o ≠ rkey q o' := by
  simp only [rkey]; omega

/-- The offsets of the counters that an advancing message writes. -/
def advanceOffsets : List Nat :=
  [R.RGN_SW_WORDS_UP, R.RGN_SW_UNTERMINATED, R.XB_WORDS_LO, R.XB_WORDS_LO + 4, R.XB_MON_OUT, R.XB_CREDIT_WAITS,
    R.RING_WORDS_OUT]

/-- The pages that hold them: crossbar, ring and regions. -/
def NetworkPage (p : Nat) : Prop := p = P.XB ∨ p = P.RING ∨ 0x100 ≤ p

/-- The register is none of them. -/
def OffAdvance (q o : Nat) : Prop := ∀ p o', NetworkPage p → o' ∈ advanceOffsets → rkey q o ≠ rkey p o'

theorem advanceOffsets_lt {o' : Nat} (h : o' ∈ advanceOffsets) : o' < 4096 :=
  (by decide : ∀ x ∈ advanceOffsets, x < 4096) o' h

/-- A register of another offset is none, whatever its page. -/
theorem offAdvance_of_offset {o : Nat} (h : o < 4096 ∧ ∀ o' ∈ advanceOffsets, o / 4 ≠ o' / 4) (q : Nat) : OffAdvance q o :=
  fun _ o' _ hmem => rkey_offset h.1 (advanceOffsets_lt hmem) (h.2 o' hmem)

/-- A register of another page is none, whatever its offset. -/
theorem offAdvance_of_page {q o : Nat} (hq : q < 0x100 ∧ q ≠ P.XB ∧ q ≠ P.RING) (ho : o < 4096) : OffAdvance q o := by
  intro p o' hp hmem
  refine rkey_page ?_ ho (advanceOffsets_lt hmem)
  rintro rfl
  obtain ⟨hlow, hxb, hring⟩ := hq
  rcases hp with hp | hp | hp
  · exact hxb hp
  · exact hring hp
  · omega

theorem networkPage_xb : NetworkPage P.XB := .inl rfl
theorem networkPage_ring : NetworkPage P.RING := .inr (.inl rfl)
theorem networkPage_rgn (r : Nat) : NetworkPage (P.RGN r) := .inr (.inr (Nat.le_add_right ..))

@[simp] theorem rd_mdChan (q o : Nat) (c : ChanId) (f : Channel → Channel) (s : State) :
    rd q o (mdChan c f s) = rd q o s := rfl

@[simp] theorem rd_popBuffer (q o : Nat) (c : ChanId) (s : State) : rd q o (popBuffer c s) = rd q o s := rfl

section
variable {q o : Nat} (h : OffAdvance q o)
include h

theorem rd_countN_network {p off : Nat} (hp : NetworkPage p) (hmem : off ∈ advanceOffsets) (n : Nat)
    (s : State) : rd q o (countN p off n s) = rd q o s :=
  rd_countN_other (h p off hp hmem) n s

theorem rd_countLaunched (c : ChanId) (n : Nat) (s : State) : rd q o (countLaunched c n s) = rd q o s := by
  have h64 (n : Nat) (s : State) : rd q o (count64 P.XB R.XB_WORDS_LO n s) = rd q o s := by
    unfold count64
    split
    · rfl
    · rw [wr64, rd_wr_other (h _ _ networkPage_xb (by decide)), rd_wr_other (h _ _ networkPage_xb (by decide))]
  unfold countLaunched
  split
  · rfl
  · cases c
    case portUp => exact rd_countN_network h (networkPage_rgn _) (by decide) ..
    case portDown =>
      dsimp only
      split
      · rw [rd_countN_network h networkPage_xb (by decide), h64]
      · exact h64 ..
    case svcDown => exact h64 ..
    case ringOut => exact rd_countN_network h networkPage_ring (by decide) ..
    all_goals rfl

theorem rd_pump (c : ChanId) (s : State) : rd q o (pump c s) = rd q o s := by
  unfold pump
  dsimp only
  split
  · rfl
  · split
    · rfl
    · split
      · rfl
      · split
        · rfl
        · rfl
        · split
          · rfl
          · rw [rd_countLaunched h]; rfl

theorem rd_sendAs (m : Option Word) (c : ChanId) (ws : List TWord) (s : State) : rd q o (sendAs m c ws s) = rd q o s := by
  unfold sendAs
  dsimp only
  rw [rd_pump h]
  rfl

theorem rd_release (c : ChanId) (s : State) : rd q o (release c s) = rd q o s := by
  unfold release
  dsimp only
  rw [rd_foldl fun t g => rd_sendAs h ..]
  rfl

theorem rd_unterminated (c : ChanId) (s : State) : rd q o (unterminated c s) = rd q o s := by
  unfold unterminated
  split
  · exact rd_countN_network h (networkPage_rgn _) (by decide) ..
  · rfl

theorem rd_countCreditWait (c : ChanId) (s : State) : rd q o (countCreditWait c s) = rd q o s := by
  have honce : rd q o (count P.XB R.XB_CREDIT_WAITS (mdChan c (fun y => { y with creditWait := true }) s)) = rd q o s :=
    rd_countN_network h networkPage_xb (by decide) ..
  unfold countCreditWait
  dsimp only
  split
  · split
    · rfl
    · exact honce
  · split
    · rfl
    · exact honce
  · rfl

theorem rd_advance (fuel : Nat) (inp : ChanId) (s : State) : rd q o (advance fuel inp s) = rd q o s := by
  induction fuel generalizing s with
  | zero => rfl
  | succ fuel ih =>
    unfold advance
    dsimp only
    split
    · rfl
    · rfl
    · split
      · rw [rd_unterminated h, rd_mdChan]
      · split
        · rw [rd_mdChan, rd_popBuffer]
        · rw [ih, rd_popBuffer]
    · split
      · rfl
      · split
        · exact rd_countCreditWait h ..
        · split
          · rw [rd_unterminated h, rd_release h, rd_mdChan, send, rd_sendAs h]
          · split
            · rw [rd_release h, rd_mdChan, rd_sendAs h, rd_mdChan, rd_popBuffer]
            · rw [ih, rd_sendAs h, rd_mdChan, rd_popBuffer]

end

end Sys2Proof.Machine


namespace Sys2Proof.Machine

open Sys2Proof

/-! ## Live immediates -/

theorem configImm_of_planes {s t : State} (h : t.planes = s.planes) (c e : Nat) : configImm c e t = configImm c e s := by
  simp only [configImm, entryBits, cellFrame, tileFrame, frameWord, h]

/-- The live immediate of key k. -/
theorem liveImm_key (k : Nat) (s : State) :
    liveImm (k / 8) (k % 8) s = (tfind s.fab.live k).getD (configImm (k / 8) (k % 8) s) := by
  rw [liveImm, show k / 8 * 8 + k % 8 = k by omega]

@[simp] theorem configImm_makeLive (c e k : Nat) (v : BitVec 16) (s : State) :
    configImm c e (makeLive k v s) = configImm c e s := configImm_of_planes rfl ..

theorem live_makeLive (k : Nat) (v : BitVec 16) (s : State) : (makeLive k v s).fab.live =
    if v = configImm (k / 8) (k % 8) s then tdel k s.fab.live else tins k v s.fab.live := rfl

@[simp] theorem liveImm_makeLive_same (k : Nat) (v : BitVec 16) (s : State) :
    liveImm (k / 8) (k % 8) (makeLive k v s) = v := by
  rw [liveImm_key, configImm_makeLive, live_makeLive]
  split
  · rename_i hv
    rw [tfind_tdel_same, hv]
    rfl
  · rw [tfind_tins_same]
    rfl

theorem liveImm_makeLive_other {j k : Nat} (h : j ≠ k) (v : BitVec 16) (s : State) :
    liveImm (j / 8) (j % 8) (makeLive k v s) = liveImm (j / 8) (j % 8) s := by
  rw [liveImm_key, liveImm_key, configImm_makeLive, live_makeLive]
  split
  · rw [tfind_tdel_other h]
  · rw [tfind_tins_other h]

theorem liveImm_of_same {s t : State} (hf : t.fab = s.fab) (hp : t.planes = s.planes) (c e : Nat) :
    liveImm c e t = liveImm c e s := by rw [liveImm, liveImm, hf, configImm_of_planes hp]

/-- Of the values made live together the first of each key stands. -/
theorem liveImm_foldr_makeLive (vs : SMap (BitVec 16)) (k : Nat) (s : State) :
    liveImm (k / 8) (k % 8) (vs.foldr (fun e t => makeLive e.1 e.2 t) s) =
      (tfind vs k).getD (liveImm (k / 8) (k % 8) s) := by
  induction vs with
  | nil => rfl
  | cons e vs ih =>
    rw [List.foldr_cons, tfind]
    split
    · rename_i he
      rw [← he, liveImm_makeLive_same]
      rfl
    · rename_i he
      rw [liveImm_makeLive_other (Ne.symm he), ih]

theorem fab_makeLive (k : Nat) (v : BitVec 16) (s : State) :
    (makeLive k v s).fab.pend = s.fab.pend ∧ (makeLive k v s).fab.held = s.fab.held ∧
      (makeLive k v s).fab.cells = s.fab.cells := ⟨rfl, rfl, rfl⟩

theorem fab_foldr_makeLive (vs : SMap (BitVec 16)) (s : State) :
    (vs.foldr (fun e t => makeLive e.1 e.2 t) s).fab.pend = s.fab.pend ∧
      (vs.foldr (fun e t => makeLive e.1 e.2 t) s).fab.held = s.fab.held ∧
      (vs.foldr (fun e t => makeLive e.1 e.2 t) s).fab.cells = s.fab.cells := by
  induction vs with
  | nil => exact ⟨rfl, rfl, rfl⟩
  | cons e vs ih => exact ih

theorem sameBut_foldr_makeLive (vs : SMap (BitVec 16)) (s : State) :
    SameBut [.fab] s (vs.foldr (fun e t => makeLive e.1 e.2 t) s) := by
  induction vs with
  | nil => exact sameBut_refl _ s
  | cons e vs ih => exact (sameBut_makeLive (by decide) ..).2 ih

/-! ## A held commit that the next HEAD makes live -/

theorem uplinkTp_of_planes {s t : State} (h : t.planes = s.planes) (p : Nat) : uplinkTp p t = uplinkTp p s := by
  simp only [uplinkTp, uplinkCfg, frameWord, h]

theorem uplinkTp_lt {p : Nat} (hp : p < 512) (s : State) : uplinkTp p s < 2048 := by
  have h4 : fld 4 1 (uplinkCfg p s) < 16 := fld_lt 4 1 _
  have h1 : fld 5 5 (uplinkCfg p s) < 2 := fld_lt 5 5 _
  simp only [uplinkTp]
  omega

theorem uplinkTp_region (p : Nat) (s : State) : uplinkTp p s / 32 = p / 8 := by
  have h4 : fld 4 1 (uplinkCfg p s) < 16 := fld_lt 4 1 _
  have h1 : fld 5 5 (uplinkCfg p s) < 2 := fld_lt 5 5 _
  simp only [uplinkTp]
  omega

theorem applyHeld_of_none {p : Nat} {s : State} (h : tfind s.fab.held p = none) : applyHeld p s = s := by
  rw [applyHeld, h]

theorem applyHeld_of_some {p : Nat} {s : State} {vs : SMap (BitVec 16)} (h : tfind s.fab.held p = some vs) :
    applyHeld p s = applyCommit (p / 8) vs (setFab { s.fab with held := tdel p s.fab.held } s) := by
  rw [applyHeld, h]

theorem held_applyHeld (p : Nat) (s : State) :
    tfind (applyHeld p s).fab.held p = none ∧
      ∀ q, tfind s.fab.held q = none → tfind (applyHeld p s).fab.held q = none := by
  cases h : tfind s.fab.held p with
  | none => rw [applyHeld_of_none h]; exact ⟨h, fun q hq => hq⟩
  | some vs =>
    have hheld : (applyHeld p s).fab.held = tdel p s.fab.held := by
      rw [applyHeld_of_some h]
      exact (fab_foldr_makeLive ..).2.1
    rw [hheld]
    refine ⟨tfind_tdel_same .., fun q hq => ?_⟩
    by_cases hqp : q = p
    · subst hqp; exact tfind_tdel_same ..
    · rw [tfind_tdel_other hqp, hq]

theorem planes_applyHeld (p : Nat) (s : State) : (applyHeld p s).planes = s.planes :=
  ((sameBut_applyHeld (ps := [.regs, .fab]) (by decide) s p s).2 (sameBut_refl _ s)) .planes (by decide)

/-- Where only uplink p of those at its tile port holds a commit, a HEAD at the port applies that one. -/
theorem forPorts_applyHeld {p : Nat} {s : State}
    (hothers : ∀ q, q / 8 = p / 8 → q ≠ p → uplinkTp q s = uplinkTp p s → tfind s.fab.held q = none) :
    forPorts (p / 8) (fun q t => if uplinkTp q t = uplinkTp p s then applyHeld q t else t) s = applyHeld p s := by
  have hself : applyHeld p (applyHeld p s) = applyHeld p s := applyHeld_of_none (held_applyHeld p s).1
  have hstep (t : State) (ht : t = s ∨ t = applyHeld p s) (u : Nat) (hu : u < 8) :
      (if uplinkTp (8 * (p / 8) + u) t = uplinkTp p s then applyHeld (8 * (p / 8) + u) t else t) =
        if u = p % 8 then applyHeld p s else t := by
    have htp (q : Nat) : uplinkTp q t = uplinkTp q s :=
      uplinkTp_of_planes (by obtain rfl | rfl := ht; exacts [rfl, planes_applyHeld p s]) q
    by_cases hup : u = p % 8
    · have hp : 8 * (p / 8) + u = p := by omega
      rw [if_pos hup, hp, if_pos (htp p)]
      obtain rfl | rfl := ht
      · rfl
      · exact hself
    · rw [if_neg hup, htp]
      split
      · rename_i he
        have hnone := hothers (8 * (p / 8) + u) (by omega) (by omega) he
        refine applyHeld_of_none ?_
        obtain rfl | rfl := ht
        · exact hnone
        · exact (held_applyHeld p s).2 _ hnone
      · rfl
  have hfold (l : List Nat) (hl : ∀ u ∈ l, u < 8) (t : State) (ht : t = s ∨ t = applyHeld p s) :
      l.foldl (fun t u => if uplinkTp (8 * (p / 8) + u) t = uplinkTp p s then applyHeld (8 * (p / 8) + u) t else t) t =
        if p % 8 ∈ l then applyHeld p s else t := by
    induction l generalizing t with
    | nil => rfl
    | cons u l ih =>
      rw [List.foldl_cons, hstep t ht u (hl u (by simp)), ih (fun v hv => hl v (by simp [hv]))]
      · by_cases hu : u = p % 8 <;> by_cases hm : p % 8 ∈ l <;> simp [eq_comm (a := p % 8), hu, hm]
      · split
        · exact .inr rfl
        · exact ht
  have hrange := hfold (List.range 8) (fun u hu => List.mem_range.1 hu) s (.inl rfl)
  rwa [if_pos (List.mem_range.2 (by omega))] at hrange

/-! ## The commands of the parameter unit -/

theorem fld_low16 (w : Word) : BitVec.ofNat 16 (fld 15 0 w) = w.setWidth 16 := by
  apply BitVec.eq_of_toNat_eq
  simp [fld, BitVec.toNat_setWidth]

theorem rd_gen_advanceAll (r : Nat) (c : ChanId) (s : State) :
    rd (P.RGN r) R.RGN_PARAM_GEN (advanceAll c s) = rd (P.RGN r) R.RGN_PARAM_GEN s := rd_advance (offAdvance_of_offset (by decide) _) ..

/-- A HEAD that arrives at a tile port leaves the counts of commits. -/
theorem rd_gen_arrive {j : Fin 2048} {s : State} (hh : headArrives j false s = true) (r : Nat) :
    rd (P.RGN r) R.RGN_PARAM_GEN (arrive (.tpIn j) false s) = rd (P.RGN r) R.RGN_PARAM_GEN s := by
  unfold headArrives at hh
  dsimp only at hh
  split at hh
  · rename_i w replay rest hf
    simp only [Bool.and_eq_true] at hh
    obtain ⟨⟨-, hp⟩, hr⟩ := hh
    rw [arrive_cons false hf, if_neg (by cases hrej : (chan (.tpIn j) s).rejecting <;> simp_all), if_pos hp,
      rd_gen_advanceAll, takeMsg_of_not_gathers rfl]
    rfl
  · cases hh

theorem headArrives_of_net {s t : State} (h : t.net = s.net) (j : Fin 2048) (upset : Bool) :
    headArrives j upset t = headArrives j upset s := by simp only [headArrives, chan_of_net h]

/-- What the commit that waits at an uplink does: its values become live, and PARAM_GEN counts. -/
theorem applyHeld_effect {p : Nat} {s : State} {vs : SMap (BitVec 16)} (h : tfind s.fab.held p = some vs) :
    tfind (applyHeld p s).fab.held p = none ∧
      (∀ k, liveImm (k / 8) (k % 8) (applyHeld p s) = (tfind vs k).getD (liveImm (k / 8) (k % 8) s)) ∧
      (applyHeld p s).fab.pend = s.fab.pend ∧ (applyHeld p s).fab.cells = s.fab.cells ∧
      rd (P.RGN (p / 8)) R.RGN_PARAM_GEN (applyHeld p s) = satAdd (rd (P.RGN (p / 8)) R.RGN_PARAM_GEN s) 1 := by
  obtain ⟨hpend, -, hcells⟩ := fab_foldr_makeLive vs (setFab { s.fab with held := tdel p s.fab.held } s)
  have hregs := (sameBut_foldr_makeLive vs (setFab { s.fab with held := tdel p s.fab.held } s)) .regs (by decide)
  refine ⟨(held_applyHeld p s).1, fun k => ?_, ?_⟩
  · rw [applyHeld_of_some h]
    exact liveImm_foldr_makeLive vs k (setFab { s.fab with held := tdel p s.fab.held } s)
  · rw [applyHeld_of_some h]
    exact ⟨hpend, hcells, (rd_md_same ..).trans (congrArg (satAdd · 1) (rd_of_regs hregs ..))⟩

theorem exec_crossingWord_tile {j : Fin 2048} {s : State} (hl : chanLive (.tpIn j) s = true) (upset : Bool) :
    exec (.crossingWord (.tpIn j) upset) s = .next (tilePortWord j upset s) := by
  have hlive : ¬(!chanLive (.tpIn j) s) = true := by simp [hl]
  exact congrArg (fun t => Host.Outcome.next (settleTap (.tpIn j) t)) (if_neg hlive)

/-- The commands that bring the HEAD of a tile port's next message both apply the commit that waits there. -/
theorem heldCommit_arrives {p : PortId} {s : State} {vs : SMap (BitVec 16)} (hheld : tfind s.fab.held p.val = some vs)
    (hl : chanLive (.tpIn (tpId (uplinkTp p.val s))) s = true)
    (hh : headArrives (tpId (uplinkTp p.val s)) false s = true)
    (hothers : ∀ q, q / 8 = p.val / 8 → q ≠ p.val → uplinkTp q s = uplinkTp p.val s → tfind s.fab.held q = none) :
    tilePortWord (tpId (uplinkTp p.val s)) false s =
        arrive (.tpIn (tpId (uplinkTp p.val s))) false (applyHeld p.val s) ∧
      exec (.heldCommitApply p) s = .next (tilePortWord (tpId (uplinkTp p.val s)) false s) ∧
      exec (.crossingWord (.tpIn (tpId (uplinkTp p.val s))) false) s =
        .next (tilePortWord (tpId (uplinkTp p.val s)) false s) := by
  have hj : (tpId (uplinkTp p.val s)).val = uplinkTp p.val s := Nat.mod_eq_of_lt (uplinkTp_lt p.isLt s)
  refine ⟨?_, ?_, ?_⟩
  · rw [tilePortWord, if_pos hh, hj, tpRegion, uplinkTp_region, forPorts_applyHeld hothers]
  · change (Host.Outcome.next (heldCommit p.val s) : Out) = _
    rw [heldCommit, if_pos (by simp [hl, hheld, hh])]
  · exact exec_crossingWord_tile hl false

theorem exec_param {p : PortId} {s : State} {m : Msg} (hm : unitMsg p.val s = some m) (hc : m.cls = 0x03)
    (hst : m.status = 0) (hmask : uplinkMask p.val s ≠ 0) :
    exec (.param p) s = .next (let t := dropMsg (.paramUnit (regionId (p.val / 8))) s
      if m.len = 0 ∨ m.payload.length ≠ m.len ∨
        m.payload.any (fun w => !rewriteOk (uplinkMask p.val s) (rewriteWord w)) then rejectParam (p.val / 8) t
      else setFab { t.fab with pend := m.payload.foldl (fun pd w =>
        tins (rewriteKey (p.val / 8) (rewriteWord w)) (BitVec.ofNat 16 (fld 15 0 (rewriteWord w))) pd) t.fab.pend } t) := by
  change (Host.Outcome.next (takeParam p.val s) : Out) = _
  rw [takeParam, hm]
  dsimp only
  rw [if_neg (by simp [hc]), if_neg (by simp [hst]), if_neg hmask]

theorem exec_paramCommit {p : PortId} {s : State} {m : Msg} (hm : unitMsg p.val s = some m) (hc : m.cls = 0x04)
    (hst : m.status = 0) (hmask : uplinkMask p.val s ≠ 0) (hlen : m.payload.length = m.len) :
    exec (.paramCommit p) s = .next (let t := dropMsg (.paramUnit (regionId (p.val / 8))) s
      if commitAtHead p.val s then
        if (tfind t.fab.held p.val).isSome then t
        else
          let vs := pendingIn p.val t.fab.pend t
          setFab { t.fab with held := tins p.val vs t.fab.held, pend := clearPending vs t.fab.pend } t
      else
        let vs := pendingIn p.val (allPending t) t
        applyCommit (p.val / 8) vs (setFab { t.fab with
          pend := clearPending vs t.fab.pend, held := t.fab.held.map fun h => (h.1, clearPending vs h.2) } t)) := by
  change (Host.Outcome.next (takeCommit p.val s) : Out) = _
  rw [takeCommit, hm]
  dsimp only
  rw [if_neg (by simp [hc]), if_neg (by simp [hst]), if_neg (by simp [hmask, hlen])]

/-- Settles O16: pended rewrites, commits at once and held, and a latch that fails. -/
theorem paramsArePendedAndCommitted : Obligations.ParamsArePendedAndCommitted := by
  refine ⟨fun p s m hm hst hmask hlen => ⟨fun hc hn hok => ?_, fun hc hbad => ?_, fun hc hh => ?_, fun hc hh =>
    ⟨fun vs hvs => ?_, fun hnone => ?_⟩⟩, fun p s vs hheld hl hh hothers => ?_, fun c e s => ⟨?_, ?_, ?_⟩⟩
  · rw [exec_param hm hc hst hmask]
    dsimp only
    rw [if_neg (by simpa [hn, hlen] using hok)]
    simp only [fld_low16]
  · rw [exec_param hm hc hst hmask]
    dsimp only
    rw [if_pos (.inr (.inr (by simpa using hbad)))]
    rfl
  · rw [exec_paramCommit hm hc hst hmask hlen]
    dsimp only
    rw [if_neg (by simp [hh])]
  · rw [exec_paramCommit hm hc hst hmask hlen]
    dsimp only
    rw [if_pos hh, if_pos (by simp [hvs])]
  · rw [exec_paramCommit hm hc hst hmask hlen]
    dsimp only
    rw [if_pos hh, if_neg (by simp [hnone])]
  · obtain ⟨htile, hcommit, hcross⟩ := heldCommit_arrives hheld hl hh hothers
    refine ⟨_, hcommit, hcross, ?_⟩
    obtain ⟨hnone, hlive, hpend, hcells, hgen⟩ := applyHeld_effect hheld
    have hsu : SameBut [.regs, .fab] s (applyHeld p.val s) := by simp (disch := decide)
    have hut : SameBut [.regs, .net] (applyHeld p.val s) (tilePortWord (tpId (uplinkTp p.val s)) false s) := by
      rw [htile]; simp (disch := decide)
    have hfab := hut .fab (by decide)
    have hkeep (k : Nat) := (liveImm_of_same hfab (hut .planes (by decide)) (k / 8) (k % 8)).trans (hlive k)
    refine ⟨by rw [hfab]; exact hnone, fun k v hk => by rw [hkeep, hk]; rfl, fun k hk => by rw [hkeep, hk]; rfl,
      by rw [hfab]; exact hpend, ?_, by rw [hfab]; exact hcells, ?_⟩
    · rw [htile, rd_gen_arrive ((headArrives_of_net (hsu .net (by decide)) ..).trans hh), hgen]
    · rw [hut.banks (by decide) (by decide), hsu.banks (by decide) (by decide)]
  · rfl
  · rfl
  · refine ⟨_, rfl, ?_⟩
    rw [liveImm_of_same (s := setFab { s.fab with live := tdel (c.val * 8 + e.val) s.fab.live } s)]
    · exact (congrArg (Option.getD · _) (tfind_tdel_same ..)).trans (configImm_of_planes rfl ..)
    all_goals simp [latchParity]

end Sys2Proof.Machine

/-! PROOFS. O17: the MAC datapath without pre-adder, cascade and FAULT operands. -/

namespace Sys2Proof.Machine

open Sys2Proof

@[simp] theorem mac_setMac_same (m : Nat) (x : Mac) (s : State) : mac m (setMac m x s) = x := tget_tput_same ..

theorem clampInt_fst {lo hi : Int} (h : lo ≤ hi) (v : Int) : (clampInt lo hi v).1 = max lo (min hi v) := by
  unfold clampInt
  split
  · dsimp only; omega
  · split
    · dsimp only; omega
    · dsimp only; omega

theorem clampInt_inside {lo hi v : Int} (hlo : lo ≤ v) (hhi : v ≤ hi) : clampInt lo hi v = (v, false) := by
  rw [clampInt, if_neg (by omega), if_neg (by omega)]

/-- A 24-bit operand passes the unused pre-adder. -/
theorem preAdd_unused (signed : Bool) (w : Word) (b : Int) : (preAdd 0 signed (b24 signed w) b).1 = b24 signed w := by
  unfold preAdd b24
  cases signed
  · have h := (w.setWidth 24).isLt
    simp only [Bool.false_eq_true, if_false]
    rw [clampInt_inside (by omega) (by omega)]
  · have hlo := BitVec.le_toInt (w.setWidth 24)
    have hhi := BitVec.toInt_lt (w := 24) (x := w.setWidth 24)
    simp only [if_true]
    rw [clampInt_inside (by omega) (by omega)]

theorem mac_of_macs {s t : State} (h : t.macs = s.macs) (m : Nat) : mac m t = mac m s := by rw [mac, h, mac]

theorem macs_macSticky (off m : Nat) (raise : Bool) (s : State) : (macSticky off m raise s).macs = s.macs :=
  ((sameBut_macSticky (ps := [.regs, .io]) (by decide) s off m raise s).2 (sameBut_refl _ s)) .macs (by decide)

theorem macs_macResult (m : Nat) (w : TWord) (lost : Bool) (s : State) : (macResult m w lost s).macs = s.macs :=
  ((sameBut_macResult (ps := [.regs, .fab, .io]) (by decide) s m w lost s).2 (sameBut_refl _ s)) .macs (by decide)

/-- Z plus or minus the exact product of the latched operands. -/
def macSum (m : Nat) (g : MacTrig) (s : State) : Int :=
  let cfg := macWord m 0 s
  let z : Int := if usesP (fld 8 7 cfg) (bit 10 cfg && g.tag == .head) then (mac m s).p.toInt else 0
  let prod : Int := (if bit 3 cfg then g.a.data.toInt else (g.a.data.toNat : Int)) * b24 (bit 4 cfg) g.b1.data
  if bit 9 cfg then z - prod else z + prod

/-- Its value in the accumulator, saturated where AS is set. -/
def macAcc (m : Nat) (g : MacTrig) (s : State) : BitVec 80 :=
  BitVec.ofInt 80 (if bit 11 (macWord m 0 s) then max (-(2 ^ 79)) (min (2 ^ 79 - 1) (macSum m g s)) else macSum m g s)

section
variable {m : Nat} {g : MacTrig} {s : State} (ha : g.a.tag ≠ .fault) (hb : g.b1.tag ≠ .fault)
  (hpre : fld 6 5 (macWord m 0 s) = 0) (hcin : usesCin (fld 8 7 (macWord m 0 s)) = false)
  (hpar : parity80 (mac m s).p = (mac m s).ppar) (hpf : (mac m s).pf = false)
include ha hb hpre hcin hpar hpf

/-- The accumulator that an operation with good operands leaves. -/
theorem mac_macOp (lost : Bool) : mac m (macOp m g lost s) =
    { mac m s with
      p := macAcc m g s
      pf := false
      ppar := parity80 (macAcc m g s) } := by
  unfold macOp
  extract_lets cfg x pre zsel cleared cin badP badC i av z
  have hP : badP = false := by simp [badP, x, hpar]
  have hC : badC = false := by simp [badC, zsel, cfg, hcin]
  rw [if_neg ha, if_neg hb, if_neg fun h => h.1 hpre, if_neg (by simp [hP, hC]), if_neg (by simp [x, hpf]),
    if_neg (by simp [zsel, cfg, hcin])]
  have hpre0 : pre = 0 := hpre
  rw [hpre0]
  have hpa := preAdd_unused (bit 4 cfg) g.b1.data (b24 (bit 4 cfg) g.b2.data)
  generalize preAdd 0 (bit 4 cfg) (b24 (bit 4 cfg) g.b1.data) (b24 (bit 4 cfg) g.b2.data) = pa at hpa ⊢
  obtain ⟨b, preSat⟩ := pa
  dsimp only at hpa ⊢
  rw [hpa]
  have hv : (if bit 9 cfg = true then z - av * b24 (bit 4 cfg) g.b1.data else z + av * b24 (bit 4 cfg) g.b1.data) =
      macSum m g s := by simp [macSum, z, hcin, zsel, cfg, av, x, cleared]
  rw [hv]
  have hclamp := clampInt_fst (lo := -2 ^ 79) (hi := 2 ^ 79 - 1) (by norm_num) (macSum m g s)
  generalize clampInt (-2 ^ 79) (2 ^ 79 - 1) (macSum m g s) = cl at hclamp ⊢
  obtain ⟨sat, beyond⟩ := cl
  dsimp only at hclamp ⊢
  rw [hclamp]
  generalize outStage _ _ _ _ = st
  obtain ⟨r, lim⟩ := st
  dsimp only
  rw [mac_of_macs (macs_macResult ..)]
  have hsticky (c : Bool) (off : Nat) (raise : Bool) (u : State) :
      mac m (if c = true then macSticky off m raise u else u) = mac m u := by
    split
    · exact mac_of_macs (macs_macSticky ..) m
    · rfl
  rw [hsticky, hsticky, hsticky, mac_setMac_same]
  rfl

end

/-- Settles O17: the operation runs on its latched operands, and sums the exact product. -/
theorem macAccumulatesExactly : Obligations.MacAccumulatesExactly := by
  intro m lost s g rest htrig hruns hen
  refine ⟨?_, fun ha hb hpre hcin hpar hpf => ?_⟩
  · change (Host.Outcome.next (macIssueOp m.val lost s) : Out) = _
    rw [macIssueOp]
    dsimp only
    rw [htrig]
    dsimp only
    rw [if_neg (by simp [hruns, hen])]
  · rw [mac_macOp ha hb hpre hcin hpar hpf]
    exact ⟨rfl, rfl, rfl⟩

end Sys2Proof.Machine


namespace Sys2Proof.Machine

open Sys2Proof

@[simp] theorem sameBut_contention {ps : List Part} (hps : covers ps [.regs, .io] = true) (s₀ : State) (r : Nat) (s : State) :
    SameBut ps s₀ (contention r s) ↔ SameBut ps s₀ s := by
  refine SameBut.iff (k := [.regs, .io]) ?_ hps s₀
  unfold contention
  dsimp only
  (repeat' split) <;> simp (disch := decide)

@[simp] theorem sameBut_clockGroups {ps : List Part} (hps : covers ps [.logic] = true) (s₀ : State) (r cg : Nat) (slices : List Nat) (s : State) :
    SameBut ps s₀ (clockGroups r cg slices s) ↔ SameBut ps s₀ s := by
  refine SameBut.iff (k := [.logic]) ?_ hps s₀
  unfold clockGroups
  refine sameBut_foldl (fun t e => ?_) _ s
  dsimp only
  split
  · rw [sameBut_setLogic (by decide)]
    exact sameBut_foldl (fun t e => by simp (disch := decide)) _ t
  · exact sameBut_foldl (fun t e => by simp (disch := decide)) _ t

@[simp] theorem sameBut_foxEdge {ps : List Part} (hps : covers ps [.regs, .net] = true) (s₀ : State) (r : Nat) (v s : State) :
    SameBut ps s₀ (foxEdge r v s) ↔ SameBut ps s₀ s := by
  refine SameBut.iff (k := [.regs, .net]) ?_ hps s₀
  simp (disch := decide) [foxEdge]

@[simp] theorem sameBut_tileCycles {ps : List Part} (hps : covers ps [.regs] = true) (s₀ : State) (r : Nat) (s : State) :
    SameBut ps s₀ (tileCycles r s) ↔ SameBut ps s₀ s := by
  refine SameBut.iff (k := [.regs]) ?_ hps s₀
  unfold tileCycles
  split
  · exact sameBut_refl _ s
  · exact sameBut_foldl (fun t e => by simp (disch := decide)) _ s

@[simp] theorem sameBut_setTapGroup {ps : List Part} (hps : covers ps [.logic] = true) (s₀ : State) (k : Nat) (x : TapGroup) (s : State) :
    SameBut ps s₀ (setTapGroup k x s) ↔ SameBut ps s₀ s := by
  refine SameBut.iff (k := [.logic]) ?_ hps s₀
  simp (disch := decide) [setTapGroup]


end Sys2Proof.Machine

/-! PROOFS. O18: tap items and clock edges. -/

namespace Sys2Proof.Machine

open Sys2Proof

/-- A value that every step keeps is kept by a run of steps. -/
theorem keep_foldl {α β : Type} (v : State → β) {f : State → α → State} (hf : ∀ t x, v (f t x) = v t) (l : List α)
    (s : State) : v (l.foldl f s) = v s := by
  induction l generalizing s with
  | nil => rfl
  | cons x l ih => rw [List.foldl_cons, ih, hf]

/-! ## Settling leaves the tap groups -/

theorem taps_asyncPass (r : Nat) (slices : List Nat) (s : State) : (asyncPass r slices s).logic.taps = s.logic.taps := by
  refine keep_foldl (fun t => t.logic.taps) (fun t i => ?_) slices s
  refine keep_foldl (fun t => t.logic.taps) (fun t g => ?_) [0, 1] t
  split
  · exact keep_foldl (fun t => t.logic.taps) (fun t n => rfl) (List.range 8) t
  · rfl

theorem taps_asyncSettle (fuel r : Nat) (slices : List Nat) (s : State) :
    (asyncSettle fuel r slices s).logic.taps = s.logic.taps := by
  induction fuel generalizing s with
  | zero => rfl
  | succ fuel ih =>
    unfold asyncSettle
    dsimp only
    split
    · rfl
    · rw [ih, taps_asyncPass]

theorem taps_settleLogic (r : Nat) (s : State) : (settleLogic r s).logic.taps = s.logic.taps := by
  unfold settleLogic
  split
  · rfl
  · rw [taps_asyncSettle]

theorem taps_settleAll (s : State) : (settleAll s).logic.taps = s.logic.taps := by
  unfold settleAll
  exact keep_foldl (fun t => t.logic.taps) (fun t r => taps_settleLogic r t) _ s

theorem sameBut_settleAll' (s : State) : SameBut [.logic] s (settleAll s) := by simp (disch := decide)

/-! ## A tap item -/

@[simp] theorem tapGroup_setTapGroup_same (k : Nat) (x : TapGroup) (s : State) : tapGroup k (setTapGroup k x s) = x :=
  tget_tput_same ..

/-- An item without upset lanes is received. -/
theorem receiveItem_whole (k r side lane0 : Nat) (retired : Nat → Bool) (item : Byte) (ok : Byte → State → State)
    (s : State) : receiveItem k r side lane0 retired item 0 ok s =
      ok item (setTapGroup k { tapGroup k s with laneFails := [], replay := none } s) := by
  have hbad (l : List Nat) : l.foldl (fun (a : Byte) n =>
      if (0 : Byte).getLsbD n && !retired n then a ||| (1#8 <<< n) else a) 0 = 0 := by
    induction l with
    | nil => rfl
    | cons n l ih => simp
  unfold receiveItem
  dsimp only
  rw [hbad, if_pos rfl]

theorem sideDir_dirCode (d : Dir) : sideDir (dirCode d) = d := by cases d <;> rfl

/-- The item of a group joins the buffer of the neighbour's side. -/
theorem tapItem_crosses {r m : Nat} {side : Dir} {g : Nat} {pins : BitVec 16} {s : State} (hg : g < 4)
    (hm : regionNext r side = some m) (hc : clockRuns r 0 s = true) (hon : regionOn m s = true)
    (hheld : inboundHeld m (dirCode (opposite side)) s = false) (hs : outStream r (dirCode side) g s = false)
    (hroom : (tapGroup (tapKey m (dirCode (opposite side)) g) s).items.length < 16)
    (hre : (tapGroup (tapKey m (dirCode (opposite side)) g) s).replay = none) :
    (tapGroup (tapKey m (dirCode (opposite side)) g) (tapItem r (dirCode side) g 0 pins s)).items =
        (tapGroup (tapKey m (dirCode (opposite side)) g) s).items ++ [groupItem r (dirCode side) g s] ∧
      SameBut [.logic] s (tapItem r (dirCode side) g 0 pins s) := by
  rw [tapItem, if_pos hg, sendItem, if_neg (by simp [hc]), sideDir_dirCode, hm]
  dsimp only
  rw [if_neg (by simp [hon]), if_neg (by simp [hheld]), if_neg (by simp [hs]), if_neg (by simp [hs]),
    if_neg (by omega), hre, receiveItem_whole]
  exact ⟨by simp, by simp (disch := decide)⟩

/-- A write of the banks record that keeps the stored words. -/
theorem sameBut_setBanks_keeping {ps : List Part} (hps : covers ps [.ports] = true) {x : Banks} {s : State}
    (hw : x.words = s.banks.words) : SameBut ps s (setBanks x s) :=
  SameBut.weaken (k := [.ports]) (fun p hp => by cases p <;> simp_all [agree]) hps

/-- An edge of the island clock changes ports, registers, channels and the logic. -/
theorem sameBut_clockEdge_island (r : Nat) (s : State) :
    SameBut [.regs, .net, .logic, .ports, .io] s (clockEdge r 0 s) := by
  unfold clockEdge
  split
  · exact sameBut_refl _ s
  · extract_lets gsr slices s1 s2 s3 v l3 t3 p l4 t4 q banks t5 s5
    have h1 : SameBut [.regs, .net, .logic, .ports, .io] s s1 := by simp only [s1]; split <;> simp (disch := decide)
    have h2 : SameBut [.regs, .net, .logic, .ports, .io] s s2 := by
      simp only [s2]; split <;> simpa (disch := decide) using h1
    have h3 : SameBut [.regs, .net, .logic, .ports, .io] s s3 := by
      simp only [s3]; split <;> simpa (disch := decide) using h2
    have h4 : SameBut [.regs, .net, .logic, .ports, .io] s s5 := by
      have hp : SameBut [.ports] t4 (setBanks { t4.banks with ports := q.banks.ports } t4) :=
        sameBut_setBanks_keeping rfl rfl
      have ht4 : SameBut [.regs, .net, .logic, .ports, .io] s t4 := by simpa (disch := decide) [t4, t3] using h3
      simpa (disch := decide) [s5] using ht4.trans (hp.weaken rfl)
    split <;> simpa (disch := decide) using h4

/-- Settles O18: an item that crosses, and what an edge of each line clocks. -/
theorem tapItemsAndClockEdges : Obligations.TapItemsAndClockEdges := by
  refine ⟨fun r side g pins s m => ?_, fun r cg s => ⟨fun hc => ?_, fun hc hcg hgsr => ?_, fun hc hcg hgsr => ?_,
    fun hc => ?_⟩⟩
  · intro back k hg hm hc hon hheld hs hroom hre
    obtain ⟨hitems, hsame⟩ := tapItem_crosses (pins := pins) hg hm hc hon hheld hs hroom hre
    have hall := hsame.trans (sameBut_settleAll' _)
    refine ⟨_, rfl, ?_, hall.banks (by decide) (by decide), hall .fab (by decide), hall .regs (by decide)⟩
    rw [← hitems]
    simp only [tapGroup, taps_settleAll]
    rfl
  · change (Host.Outcome.next (clockEdge r.val cg.val s) : Out) = _
    rw [clockEdge, if_pos (by simp [hc])]
  · change (Host.Outcome.next (clockEdge r.val cg.val s) : Out) = _
    rw [clockEdge, if_neg (by simp [hc])]
    simp [hgsr, hcg]
  · change (Host.Outcome.next (clockEdge r.val cg.val s) : Out) = _
    rw [clockEdge, if_neg (by simp [hc])]
    simp [hgsr, hcg]
  · have h := sameBut_clockEdge_island r.val s
    exact ⟨_, rfl, h .words (by decide), h .sched (by decide), h .planes (by decide), h .flash (by decide)⟩

end Sys2Proof.Machine


namespace Sys2Proof.Machine

open Sys2Proof

@[simp] theorem sameBut_setBankPort {ps : List Part} (hps : covers ps [.ports] = true) (s₀ : State) (b : Nat) (x : Bank) (s : State) :
    SameBut ps s₀ (setBankPort b x s) ↔ SameBut ps s₀ s := by
  refine SameBut.iff (k := [.ports]) ?_ hps s₀
  exact sameBut_setBanks_keeping rfl rfl

@[simp] theorem sameBut_mdBankPort {ps : List Part} (hps : covers ps [.ports] = true) (s₀ : State) (b : Nat) (f : Bank → Bank) (s : State) :
    SameBut ps s₀ (mdBankPort b f s) ↔ SameBut ps s₀ s := by
  refine SameBut.iff (k := [.ports]) ?_ hps s₀
  exact sameBut_setBanks_keeping rfl rfl

@[simp] theorem sameBut_setBankWord {ps : List Part} (hps : covers ps [.words] = true) (s₀ : State) (b w : Nat) (x : TWord) (s : State) :
    SameBut ps s₀ (setBankWord b w x s) ↔ SameBut ps s₀ s := by
  refine SameBut.iff (k := [.words]) ?_ hps s₀
  exact fun p hp => by cases p <;> simp_all [agree, setBankWord]

@[simp] theorem sameBut_restartRmw {ps : List Part} (hps : covers ps [.regs, .ports] = true) (s₀ : State) (b w : Nat) (s : State) :
    SameBut ps s₀ (restartRmw b w s) ↔ SameBut ps s₀ s := by
  refine SameBut.iff (k := [.regs, .ports]) ?_ hps s₀
  simp (disch := decide) [restartRmw]

@[simp] theorem sameBut_writeCopy {ps : List Part} (hps : covers ps [.words, .ports] = true) (s₀ : State) (w : Nat) (x : TWord) (s : State) (c : Nat) :
    SameBut ps s₀ (writeCopy w x s c) ↔ SameBut ps s₀ s := by
  refine SameBut.iff (k := [.words, .ports]) ?_ hps s₀
  simp (disch := decide) [writeCopy]

@[simp] theorem sameBut_writeBank {ps : List Part} (hps : covers ps [.regs, .words, .ports, .io] = true) (s₀ : State) (b w : Nat) (x : TWord) (s : State) :
    SameBut ps s₀ (writeBank b w x s).2 ↔ SameBut ps s₀ s := by
  refine SameBut.iff (k := [.regs, .words, .ports, .io]) ?_ hps s₀
  unfold writeBank
  split
  · dsimp only
    split <;> simp (disch := decide)
  · split
    · exact sameBut_refl _ s
    · rw [sameBut_restartRmw (by decide)]
      exact sameBut_foldl (fun t c => by simp (disch := decide)) _ s

@[simp] theorem sameBut_settleExcl {ps : List Part} (hps : covers ps [.ports] = true) (s₀ : State) (b : Nat) (s : State) :
    SameBut ps s₀ (settleExcl b s) ↔ SameBut ps s₀ s := by
  refine SameBut.iff (k := [.ports]) ?_ hps s₀
  simp (disch := decide) [settleExcl]

@[simp] theorem sameBut_giveCode {ps : List Part} (hps : covers ps [.ports, .io] = true) (s₀ : State) (q : BankReq) (code : Nat) (s : State) :
    SameBut ps s₀ (giveCode q code s) ↔ SameBut ps s₀ s := by
  refine SameBut.iff (k := [.ports, .io]) ?_ hps s₀
  unfold giveCode
  split
  · exact sameBut_setBanks_keeping rfl rfl
  · split <;> simp (disch := decide)

@[simp] theorem sameBut_refuseExcluded {ps : List Part} (hps : covers ps [.regs, .ports, .io] = true) (s₀ : State) (b : Nat) (s : State) (q : BankReq) :
    SameBut ps s₀ (refuseExcluded b s q) ↔ SameBut ps s₀ s := by
  refine SameBut.iff (k := [.regs, .ports, .io]) ?_ hps s₀
  simp (disch := decide) [refuseExcluded]

@[simp] theorem sameBut_rerank {ps : List Part} (hps : covers ps [.regs, .ports, .io] = true) (s₀ : State) (b : Nat) (s : State) :
    SameBut ps s₀ (rerank b s) ↔ SameBut ps s₀ s := by
  refine SameBut.iff (k := [.regs, .ports, .io]) ?_ hps s₀
  unfold rerank
  dsimp only
  split
  · rw [sameBut_foldl_iff fun t q => by simp (disch := decide)]
    simp (disch := decide)
  · simp (disch := decide)

@[simp] theorem sameBut_waitRank3 {ps : List Part} (hps : covers ps [.ports] = true) (s₀ : State) (b : Nat) (s : State) :
    SameBut ps s₀ (waitRank3 b s) ↔ SameBut ps s₀ s := by
  refine SameBut.iff (k := [.ports]) ?_ hps s₀
  simp (disch := decide) [waitRank3]

@[simp] theorem sameBut_starveCheck {ps : List Part} (hps : covers ps [.regs, .io] = true) (s₀ : State) (b : Nat) (q : BankReq) (s : State) :
    SameBut ps s₀ (starveCheck b q s) ↔ SameBut ps s₀ s := by
  refine SameBut.iff (k := [.regs, .io]) ?_ hps s₀
  simp (disch := decide) [starveCheck]

@[simp] theorem sameBut_denyRank3 {ps : List Part} (hps : covers ps [.regs, .ports] = true) (s₀ : State) (b : Nat) (s : State) :
    SameBut ps s₀ (denyRank3 b s) ↔ SameBut ps s₀ s := by
  refine SameBut.iff (k := [.regs, .ports]) ?_ hps s₀
  simp (disch := decide) [denyRank3]

@[simp] theorem sameBut_giveWord {ps : List Part} (hps : covers ps [.ports, .io] = true) (s₀ : State) (q : BankReq) (x : TWord) (s : State) :
    SameBut ps s₀ (giveWord q x s) ↔ SameBut ps s₀ s := by
  refine SameBut.iff (k := [.ports, .io]) ?_ hps s₀
  unfold giveWord
  split
  · exact sameBut_setBanks_keeping rfl rfl
  · simp (disch := decide)

@[simp] theorem sameBut_rereadOk {ps : List Part} (hps : covers ps [.regs, .ports] = true) (s₀ : State) (b w : Nat) (s : State) :
    SameBut ps s₀ (rereadOk b w s) ↔ SameBut ps s₀ s := by
  refine SameBut.iff (k := [.regs, .ports]) ?_ hps s₀
  have hset : SameBut [.regs, .ports] s (setBanks { s.banks with upsets := s.banks.upsets.filter (· != wordKey b w) } s) :=
    sameBut_setBanks_keeping rfl rfl
  simp (disch := decide) [rereadOk, hset]

@[simp] theorem sameBut_abandonSlice {ps : List Part} (hps : covers ps [.regs, .wpk] = true) (s₀ : State) (p : BgSlice → Bool) (s : State) :
    SameBut ps s₀ (abandonSlice p s) ↔ SameBut ps s₀ s := by
  refine SameBut.iff (k := [.regs, .wpk]) ?_ hps s₀
  unfold abandonSlice
  split <;> simp (disch := decide)

@[simp] theorem sameBut_retireLast {ps : List Part} (hps : covers ps [.regs, .io] = true) (s₀ : State) (p code : Nat) (s : State) :
    SameBut ps s₀ (retireLast p code s) ↔ SameBut ps s₀ s := by
  refine SameBut.iff (k := [.regs, .io]) ?_ hps s₀
  simp (disch := decide) [retireLast]

@[simp] theorem sameBut_retireBankFor {ps : List Part} (hps : covers ps [.regs, .wpk, .io] = true) (s₀ : State) (code b : Nat) (s : State) :
    SameBut ps s₀ (retireBankFor code b s) ↔ SameBut ps s₀ s := by
  refine SameBut.iff (k := [.regs, .wpk, .io]) ?_ hps s₀
  simp (disch := decide) [retireBankFor]

@[simp] theorem sameBut_retireBank {ps : List Part} (hps : covers ps [.regs, .wpk, .io] = true) (s₀ : State) (b : Nat) (s : State) :
    SameBut ps s₀ (retireBank b s) ↔ SameBut ps s₀ s := by
  refine SameBut.iff (k := [.regs, .wpk, .io]) ?_ hps s₀
  simp (disch := decide) [retireBank]

@[simp] theorem sameBut_countBankFail {ps : List Part} (hps : covers ps [.regs, .ports, .wpk, .io] = true) (s₀ : State) (b : Nat) (s : State) :
    SameBut ps s₀ (countBankFail b s) ↔ SameBut ps s₀ s := by
  refine SameBut.iff (k := [.regs, .ports, .wpk, .io]) ?_ hps s₀
  simp (disch := decide) [countBankFail]

@[simp] theorem sameBut_rewriteCopy {ps : List Part} (hps : covers ps [.regs, .words, .ports, .wpk, .io] = true) (s₀ : State) (c w : Nat) (x : TWord) (s : State) :
    SameBut ps s₀ (rewriteCopy c w x s) ↔ SameBut ps s₀ s := by
  refine SameBut.iff (k := [.regs, .words, .ports, .wpk, .io]) ?_ hps s₀
  simp (disch := decide) [rewriteCopy]

@[simp] theorem sameBut_unrecoverable {ps : List Part} (hps : covers ps [.regs, .words, .ports, .wpk, .io] = true) (s₀ : State) (b w : Nat) (cs : List Nat) (s : State) :
    SameBut ps s₀ (unrecoverable b w cs s) ↔ SameBut ps s₀ s := by
  refine SameBut.iff (k := [.regs, .words, .ports, .wpk, .io]) ?_ hps s₀
  unfold unrecoverable
  dsimp only
  rw [sameBut_irq (by decide), sameBut_err (by decide), sameBut_wr (by decide), sameBut_count (by decide),
    sameBut_restartRmw (by decide)]
  exact sameBut_foldl (fun t c => by simp (disch := decide)) _ s

@[simp] theorem sameBut_readBank {ps : List Part} (hps : covers ps [.regs, .words, .ports, .wpk, .io] = true) (s₀ : State) (b w : Nat) (s : State) :
    SameBut ps s₀ (readBank b w s).2 ↔ SameBut ps s₀ s := by
  refine SameBut.iff (k := [.regs, .words, .ports, .wpk, .io]) ?_ hps s₀
  unfold readBank
  (repeat' split) <;> simp (disch := decide)

@[simp] theorem sameBut_serveReq {ps : List Part} (hps : covers ps [.regs, .words, .ports, .wpk, .io] = true) (s₀ : State) (b : Nat) (q : BankReq) (s : State) :
    SameBut ps s₀ (serveReq b q s).1 ↔ SameBut ps s₀ s := by
  refine SameBut.iff (k := [.regs, .words, .ports, .wpk, .io]) ?_ hps s₀
  unfold serveReq
  dsimp only
  (repeat' split) <;> simp (disch := decide)

@[simp] theorem sameBut_enterReq {ps : List Part} (hps : covers ps [.regs, .words, .ports, .wpk, .io] = true) (s₀ : State) (q : BankReq) (b : Nat) (s : State) :
    SameBut ps s₀ (enterReq q b s) ↔ SameBut ps s₀ s := by
  refine SameBut.iff (k := [.regs, .words, .ports, .wpk, .io]) ?_ hps s₀
  simp (disch := decide) [enterReq]


end Sys2Proof.Machine

/-! PROOFS. O19: a bank write and the read that follows it. -/

namespace Sys2Proof.Machine

open Sys2Proof

/-- The word as a bank stores it. -/
abbrev storedWord (x : TWord) : TWord := if x.tag = .null then nullWord else x

theorem parGood_storedWord {x : TWord} (h : parGood x = true) : parGood (storedWord x) = true := by
  unfold storedWord
  split
  · rfl
  · exact h

@[simp] theorem bankPort_setBankPort_same (b : Nat) (x : Bank) (s : State) : bankPort b (setBankPort b x s) = x :=
  tget_tput_same ..

theorem bankPort_setBankPort_other {b c : Nat} (h : b ≠ c) (x : Bank) (s : State) :
    bankPort b (setBankPort c x s) = bankPort b s := tget_tput_other _ _ h ..

/-! ## One copy -/

theorem bankWord_writeCopy_same (w : Nat) (x : TWord) (s : State) (c : Nat) :
    bankWord c w (writeCopy w x s c) = storedWord x := bankWord_setBankWord_same ..

theorem bankWord_writeCopy_other {c b' w w' : Nat} (hw : w < 8192) (hw' : w' < 8192) (h : b' ≠ c ∨ w' ≠ w) (x : TWord)
    (s : State) : bankWord b' w' (writeCopy w x s c) = bankWord b' w' s :=
  bankWord_setBankWord_other (wordKey_ne hw hw' h) ..

theorem uncleared_writeCopy (b w : Nat) (x : TWord) (s : State) (c : Nat) :
    (bankPort b (writeCopy w x s c)).uncleared =
      if b = c then (bankPort b s).uncleared.filter (· != w / 32) else (bankPort b s).uncleared := by
  have hport : bankPort b (writeCopy w x s c) =
      bankPort b (mdBankPort c (fun y => { y with uncleared := y.uncleared.filter (· != w / 32) }) s) := rfl
  rw [hport, mdBankPort]
  split
  · rename_i h
    rw [h, bankPort_setBankPort_same]
  · rename_i h
    rw [bankPort_setBankPort_other h]

theorem upsets_writeCopy (w : Nat) (x : TWord) (s : State) (c : Nat) :
    (writeCopy w x s c).banks.upsets = s.banks.upsets.filter (· != wordKey c w) := rfl

/-- A copy reads well where its word has good parity and neither an upset nor the clear stands against it. -/
theorem readCopy_good {c w : Nat} {s : State} {y : TWord} (hw : bankWord c w s = y) (hp : parGood y = true)
    (hu : wordKey c w ∉ s.banks.upsets) (hc : w / 32 ∉ (bankPort c s).uncleared) : readCopy c w s = .good y := by
  rw [readCopy, if_neg (by simp [hc]), hw]
  dsimp only
  rw [if_neg (by simp [hp]), if_neg (by simp [hu])]

/-- The word y stands in copy c, readable. -/
def Holds (c w : Nat) (y : TWord) (s : State) : Prop :=
  bankWord c w s = y ∧ wordKey c w ∉ s.banks.upsets ∧ w / 32 ∉ (bankPort c s).uncleared

theorem holds_writeCopy_same (w : Nat) (x : TWord) (s : State) (c : Nat) :
    Holds c w (storedWord x) (writeCopy w x s c) := by
  refine ⟨bankWord_writeCopy_same .., ?_, ?_⟩
  · rw [upsets_writeCopy]; simp
  · rw [uncleared_writeCopy, if_pos rfl]; simp

theorem holds_writeCopy {c w : Nat} {x : TWord} {s : State} (hw : w < 8192) (h : Holds c w (storedWord x) s) (d : Nat) :
    Holds c w (storedWord x) (writeCopy w x s d) := by
  by_cases hcd : c = d
  · rw [hcd]; exact holds_writeCopy_same ..
  · obtain ⟨hword, hup, hun⟩ := h
    refine ⟨by rw [bankWord_writeCopy_other hw hw (.inl hcd), hword], ?_, ?_⟩
    · rw [upsets_writeCopy]; simp [hup]
    · rwa [uncleared_writeCopy, if_neg hcd]

/-! ## All copies -/

theorem holds_foldl_writeCopy {w : Nat} {x : TWord} (hw : w < 8192) (cs : List Nat) (s : State) {c : Nat}
    (h : c ∈ cs ∨ Holds c w (storedWord x) s) : Holds c w (storedWord x) (cs.foldl (writeCopy w x) s) := by
  induction cs generalizing s with
  | nil => exact h.resolve_left (by simp)
  | cons d cs ih =>
    refine ih _ ?_
    obtain hmem | hh := h
    · obtain rfl | hmem := List.mem_cons.1 hmem
      · exact .inr (holds_writeCopy_same ..)
      · exact .inl hmem
    · exact .inr (holds_writeCopy hw hh d)

theorem bankWord_foldl_writeCopy {w b' w' : Nat} (hw : w < 8192) (hw' : w' < 8192) (x : TWord) (cs : List Nat) (s : State)
    (h : b' ∉ cs ∨ w' ≠ w) : bankWord b' w' (cs.foldl (writeCopy w x) s) = bankWord b' w' s := by
  induction cs generalizing s with
  | nil => rfl
  | cons c cs ih =>
    rw [List.foldl_cons, ih _ (h.imp_left fun hn hm => hn (List.mem_cons_of_mem _ hm)),
      bankWord_writeCopy_other hw hw' (h.imp_left fun hn he => hn (by simp [he]))]

/-- A restart of read-modify-writes leaves words, upsets, clears and every register but its counter. -/
theorem restartRmw_keeps (b w : Nat) (s : State) : (restartRmw b w s).banks.words = s.banks.words ∧
    (restartRmw b w s).banks.upsets = s.banks.upsets ∧
    (∀ c, (bankPort c (restartRmw b w s)).uncleared = (bankPort c s).uncleared) ∧
    ∀ q o, o < 4096 → o / 4 ≠ R.RGN_RMW_RESTARTS / 4 → rd q o (restartRmw b w s) = rd q o s := by
  unfold restartRmw
  dsimp only
  split
  · exact ⟨rfl, rfl, fun _ => rfl, fun _ _ _ _ => rfl⟩
  · refine ⟨by simp [setBankPort], by simp [setBankPort], fun c => ?_, fun q o ho hne => ?_⟩
    · simp only [bankPort, countN_parts]
      by_cases h : c = b
      · subst h
        exact (congrArg Bank.uncleared (bankPort_setBankPort_same c _ s)).trans rfl
      · exact congrArg Bank.uncleared (bankPort_setBankPort_other h _ s)
    · exact rd_countN_other (rkey_offset ho (by decide) hne) ..

section
variable {b : Nat} {s : State} (ha : bankAbsent b s = false) (hc : copies b s ≠ [])
include ha hc

theorem writeBank_copies (w : Nat) (x : TWord) :
    writeBank b w x s = (true, restartRmw b w ((copies b s).foldl (writeCopy w x) s)) := by
  rw [writeBank, if_neg (by simp [ha])]
  cases h : copies b s with
  | nil => exact absurd h hc
  | cons c cs => rfl

theorem holds_writeBank {w : Nat} (hw : w < 8192) (x : TWord) {c : Nat} (hmem : c ∈ copies b s) :
    Holds c w (storedWord x) (writeBank b w x s).2 := by
  rw [writeBank_copies ha hc]
  obtain ⟨hwords, hups, hun, -⟩ := restartRmw_keeps b w ((copies b s).foldl (writeCopy w x) s)
  obtain ⟨hword, hup, hclear⟩ := holds_foldl_writeCopy (x := x) hw (copies b s) s (.inl hmem)
  exact ⟨by simpa only [bankWord, hwords] using hword, by rwa [hups], by rwa [hun]⟩

theorem bankWord_writeBank_other {w b' w' : Nat} (hw : w < 8192) (hw' : w' < 8192) (x : TWord)
    (h : b' ∉ copies b s ∨ w' ≠ w) : bankWord b' w' (writeBank b w x s).2 = bankWord b' w' s := by
  rw [writeBank_copies ha hc, ← bankWord_foldl_writeCopy hw hw' x (copies b s) s h]
  simp only [bankWord, (restartRmw_keeps ..).1]

/-- A write changes neither which banks are present nor which copies a bank has. -/
theorem copies_writeBank (w : Nat) (x : TWord) :
    bankAbsent b (writeBank b w x s).2 = bankAbsent b s ∧ copies b (writeBank b w x s).2 = copies b s := by
  have hsame : SameBut [.regs, .words, .ports, .io] s (writeBank b w x s).2 := by simp (disch := decide)
  have hplanes : (writeBank b w x s).2.planes = s.planes := hsame .planes (by decide)
  have hrgns : (writeBank b w x s).2.rgns = s.rgns := hsame .rgns (by decide)
  have hret (c : Nat) : bankRetired c (writeBank b w x s).2 = bankRetired c s := by
    have hrd : rd (P.RGN (c / 16)) R.RGN_BANK_RETIRED ((copies b s).foldl (writeCopy w x) s) =
        rd (P.RGN (c / 16)) R.RGN_BANK_RETIRED s := rd_foldl (f := writeCopy w x) (fun t d => rfl) _ _
    rw [writeBank_copies ha hc, bankRetired, (restartRmw_keeps ..).2.2.2 _ _ (by decide) (by decide), hrd, bankRetired]
  have hmir : mirrored b (writeBank b w x s).2 = mirrored b s := by
    simp only [mirrored, tileFrame, frameWord, hplanes]
  exact ⟨by simp only [bankAbsent, hmir, regionOn, rgn, hrgns], by simp only [copies, hmir, hret]⟩

end

/-- A present bank whose copies all hold a word delivers it. -/
theorem readBank_holds {b w : Nat} {s : State} {y : TWord} (ha : bankAbsent b s = false) (hc : copies b s ≠ [])
    (hp : parGood y = true) (h : ∀ c ∈ copies b s, Holds c w y s) : (readBank b w s).1 = y := by
  have hgood {c : Nat} (hmem : c ∈ copies b s) : readCopy c w s = .good y :=
    readCopy_good (h c hmem).1 hp (h c hmem).2.1 (h c hmem).2.2
  rw [readBank, if_neg (by simp [ha])]
  match hcs : copies b s with
  | [] => exact absurd hcs hc
  | [c] => simp [hgood (c := c) (by simp [hcs])]
  | c :: d :: _ => simp [hgood (c := c) (by simp [hcs]), hgood (c := d) (by simp [hcs])]

/-- Settles O19: every copy takes the word, other words stay, and the copies then read it. -/
theorem bankWriteStoresAndKeepsOtherWords : Obligations.BankWriteStoresAndKeepsOtherWords := by
  intro b w x s hw hp ha hc
  obtain ⟨habs, hcopies⟩ := copies_writeBank ha hc w x
  refine ⟨fun c hmem => (holds_writeBank ha hc hw x hmem).1,
    fun b' w' hw' h => bankWord_writeBank_other ha hc hw hw' x h, ?_⟩
  refine readBank_holds (habs.trans ha) (by rw [hcopies]; exact hc) (parGood_storedWord hp) fun c hmem => ?_
  exact holds_writeBank ha hc hw x (hcopies ▸ hmem)

end Sys2Proof.Machine

/-! PROOFS. O20: accesses of the banks and their aliases. -/

namespace Sys2Proof.Machine

open Sys2Proof

/-- The four ranges of the banks in the address map: the banks, and their aliases. -/
def rangeBase : Option AliasKind → Nat
  | none => 0x10000000
  | some .bitSet => 0x20000000
  | some .bitClear => 0x30000000
  | some .tagView => 0x38000000

/-- The range that offset o of the banks of base a is in. -/
def rangeOf (k : Option AliasKind) (o : Nat) : BankRange :=
  match k with
  | none => .plain o
  | some a => .alias_ a o

theorem bankRange_base (k : Option AliasKind) {o : Nat} (h : o < 0x2000000) :
    bankRange (rangeBase k + o) = rangeOf k o := by
  obtain _ | k := k
  · rw [bankRange, if_pos (by simp only [rangeBase]; omega)]
    simp [rangeOf, rangeBase]
  · cases k
    · rw [bankRange, if_neg (by simp only [rangeBase]; omega), if_pos (by simp only [rangeBase]; omega)]
      simp [rangeOf, rangeBase]
    · rw [bankRange, if_neg (by simp only [rangeBase]; omega), if_neg (by simp only [rangeBase]; omega),
        if_pos (by simp only [rangeBase]; omega)]
      simp [rangeOf, rangeBase]
    · rw [bankRange, if_neg (by simp only [rangeBase]; omega), if_neg (by simp only [rangeBase]; omega),
        if_neg (by simp only [rangeBase]; omega), if_pos (by simp only [rangeBase]; omega)]
      simp [rangeOf, rangeBase]

theorem bankAccess_base (rq : Requester) (k : Option AliasKind) {o : Nat} (h : o < 0x2000000) (size : Nat) (isWrite : Bool)
    (v : BitVec 64) (s : State) :
    bankAccess rq (rangeBase k + o) size isWrite v s = bankRangeAccess rq k (rangeBase k + o) o size isWrite v s := by
  rw [bankAccess, bankRange_base k h]
  cases k <;> rfl

theorem windowOf_base (k : Option AliasKind) {o : Nat} (h : o < 0x2000000) : windowOf (rangeBase k + o) = .banks := by
  have hbase : 0x10000000 ≤ rangeBase k := by
    obtain _ | k := k
    · decide
    · cases k <;> decide
  rw [windowOf, if_neg (by omega), bankRange_base k h]
  cases k <;> rfl

theorem rangeBase_mod (k : Option AliasKind) : rangeBase k % 4 = 0 := by
  obtain _ | k := k
  · rfl
  · cases k <;> rfl

theorem physKind_base (k : Option AliasKind) {o : Nat} (h : o < 0x2000000) : physKind (rangeBase k + o) = .bank := by
  have hbase : 0x10000000 ≤ rangeBase k := by
    obtain _ | k := k
    · decide
    · cases k <;> decide
  rw [physKind, if_neg (by omega), bankRange_base k h, if_pos]
  cases k <;> exact nofun

theorem exec_hostBankAccess_direct {rq : Requester} {k : Option AliasKind} {o : Nat} (h : o < 0x2000000) (size : Nat)
    (isWrite : Bool) (v : BitVec 64) (s : State) :
    exec (.hostBankAccess rq (BitVec.ofNat 40 (rangeBase k + o)) size isWrite v) s =
      .next (directAccess rq (rangeBase k + o) size isWrite v s) := by
  have hlt : rangeBase k + o < 2 ^ 40 := by
    obtain _ | k := k
    · simp only [rangeBase]; omega
    · cases k <;> simp only [rangeBase] <;> omega
  have haddr : (BitVec.ofNat 40 (rangeBase k + o)).toNat = rangeBase k + o := Nat.mod_eq_of_lt hlt
  change (Host.Outcome.next (directAccess rq (BitVec.ofNat 40 (rangeBase k + o)).toNat size isWrite v s) : Out) = _
  rw [haddr]

section
variable {rq : Requester} {o : Nat} {s : State} (h : o < 0x2000000) (ha : attached rq s = true) (hm : s.dev.mode ≠ .scan)
include h ha hm

/-- A write in a bank range, and a read that no read of the host stands before, is one of the bank. -/
theorem exec_hostBankAccess (k : Option AliasKind) {size : Nat} {isWrite : Bool} (v : BitVec 64)
    (hr : isWrite = true ∨ size = 4 ∧ (rq = .host → hostReading s = false ∧ s.io.hostWait = [])) :
    exec (.hostBankAccess rq (BitVec.ofNat 40 (rangeBase k + o)) size isWrite v) s =
      .next (bankRangeAccess rq k (rangeBase k + o) o size isWrite (if isWrite then v else 0) s) := by
  have hscan : (s.dev.mode == .scan) = false := by simp [hm]
  have hwin := windowOf_base k h
  have hwrite : busWrite rq (rangeBase k + o) size v s = bankRangeAccess rq k (rangeBase k + o) o size true v s := by
    rw [busWrite, if_neg (by simp [ha, hscan]), hwin]
    exact bankAccess_base rq k h size true v s
  have hread : busRead rq (rangeBase k + o) size s = bankRangeAccess rq k (rangeBase k + o) o size false 0 s := by
    rw [busRead, if_neg (by simp [ha]), if_neg (by simp [hscan]), hwin]
    exact bankAccess_base rq k h size false 0 s
  rw [exec_hostBankAccess_direct h, directAccess]
  congr 1
  split
  · rename_i hs
    subst hs
    rw [stewardAccess, if_neg (by simp [ha]), physKind_base k h]
    cases isWrite
    · exact hread
    · exact hwrite
  · cases isWrite
    · obtain ⟨hsize, hhost⟩ := hr.resolve_left (by decide)
      rw [if_neg (by decide), hread, hostRead]
      split
      · rename_i hrq
        obtain ⟨hno, hwait⟩ := hhost hrq
        subst hrq
        rw [if_neg (by simp [hno, hwait]), if_neg (by omega)]
        exact hread
      · rfl
    · exact hwrite

end

/-- An aligned access of one word enters the bank's port. -/
theorem bankRangeAccess_word {k : Option AliasKind} {o : Nat} {s : State} (ho : o % 4 = 0) (hs : banksServed s = true)
    (rq : Requester) (isWrite : Bool) (v : BitVec 64) :
    bankRangeAccess rq k (rangeBase k + o) o 4 isWrite v s = bankWordAccess rq k o isWrite (lo32 v) s := by
  have := rangeBase_mod k
  rw [bankRangeAccess, if_neg (by simp [hs]), if_pos ⟨rfl, by omega⟩]

/-- ALIAS_WRITE to a present bank. -/
theorem exec_aliasWrite {rq : Requester} {s : State} (k : AliasKind) (b : BankId) (w : Fin 8192) (v : Word)
    (ha : attached rq s = true) (hm : s.dev.mode ≠ .scan) :
    exec (.aliasWrite rq k b w v) s = .next (bankRangeAccess rq (some k) (rangeBase (some k) + (b.val * 0x8000 + 4 * w.val))
      (b.val * 0x8000 + 4 * w.val) 4 true (v.setWidth 64) s) := by
  have haddr : aliasAddr k b.val w.val = rangeBase (some k) + (b.val * 0x8000 + 4 * w.val) := by
    cases k <;> simp only [aliasAddr, rangeBase] <;> omega
  change (Host.Outcome.next (if !attached rq s || s.dev.mode == .scan then s
    else bankAccess rq (aliasAddr k b.val w.val) 4 true (v.setWidth 64) s) : Out) = _
  rw [if_neg (by simp [ha, hm]), haddr, bankAccess_base rq (some k) (by omega)]

theorem lo32_setWidth (v : Word) : lo32 (v.setWidth 64) = v := by
  apply BitVec.eq_of_toNat_eq
  simp only [lo32, BitVec.toNat_setWidth]
  omega

theorem aliasOffset {b : BankId} {w : Fin 8192} : (b.val * 0x8000 + 4 * w.val) % 4 = 0 ∧
    (b.val * 0x8000 + 4 * w.val) % 0x8000 / 4 = w.val ∧ (b.val * 0x8000 + 4 * w.val) / 0x8000 = b.val := by omega

/-- A read-modify-write enters its port, but a tag-view write with reserved bits, or where the bank is absent. -/
theorem enterReq_rmw (rq : Requester) (k : AliasKind) (v : Word) (w b : Nat) (s : State) :
    enterReq ⟨rq, none, w, .rmw k v, false, 0⟩ b s =
      if k = .tagView ∧ fld 31 3 v ≠ 0 then giveCode ⟨rq, none, w, .rmw k v, false, 0⟩ E.PERM_FAULT s
      else if bankGone b s then (serveReq b ⟨rq, none, w, .rmw k v, false, 0⟩ s).1
      else if rq = .steward ∧ (none : Option Nat) = none then
        mdBankPort b (fun x => { x with stew := x.stew ++ [⟨rq, none, w, .rmw k v, false, 0⟩] }) s
      else mdBankPort b (fun x => { x with queue := x.queue ++ [⟨rq, none, w, .rmw k v, false, 0⟩] }) s := by
  unfold enterReq
  cases k <;> simp

/-- Settles O20: an access decodes to its bank and word, and enters the port unless it is refused. -/
theorem bankAccessesAndAliases : Obligations.BankAccessesAndAliases := by
  refine ⟨fun rq o v s h ha hm => ⟨fun ho hs => ?_, fun ho hs => ⟨?_, ?_, ?_, ?_⟩, fun hrq ho h4 hs => ?_,
    fun ho hs hr => ⟨?_, ?_⟩, fun hrq hr => ?_⟩, fun rq k b w v s ha hm habs hc => ⟨fun hs hv => ?_, fun hs hk hv => ?_,
    fun hs hst => ?_⟩⟩
  · refine (exec_hostBankAccess h ha hm none v (.inl rfl)).trans ?_
    rw [bankRangeAccess, if_neg (by simp [hs]), if_neg (by simp only [rangeBase]; omega), if_neg (by simp)]
    rfl
  · refine (exec_hostBankAccess h ha hm none v (.inl rfl)).trans ?_
    rw [bankRangeAccess_word ho hs]
    rfl
  · refine (exec_hostBankAccess h ha hm (some .bitSet) v (.inl rfl)).trans ?_
    rw [bankRangeAccess_word ho hs]
    rfl
  · refine (exec_hostBankAccess h ha hm (some .bitClear) v (.inl rfl)).trans ?_
    rw [bankRangeAccess_word ho hs]
    rfl
  · refine (exec_hostBankAccess h ha hm (some .tagView) v (.inl rfl)).trans ?_
    rw [bankRangeAccess_word ho hs]
    rfl
  · subst hrq
    refine (exec_hostBankAccess h ha hm none v (.inl rfl)).trans ?_
    rw [bankRangeAccess, if_neg (by simp [hs]), if_neg (by simp), if_pos ⟨rfl, by simp only [rangeBase]; omega, rfl⟩]
    rfl
  · refine (exec_hostBankAccess h ha hm none v (.inr ⟨rfl, hr⟩)).trans ?_
    rw [bankRangeAccess_word ho hs]
    rfl
  · refine (exec_hostBankAccess h ha hm (some .tagView) v (.inr ⟨rfl, hr⟩)).trans ?_
    rw [bankRangeAccess_word ho hs]
    rfl
  · subst hrq
    refine (exec_hostBankAccess_direct (k := none) h 4 false v s).trans ?_
    rw [directAccess, if_neg (by decide), if_neg (by decide), if_pos rfl, hostRead, if_pos (by simp [hr])]
    rfl
  · obtain ⟨ho, hw, hb⟩ := @aliasOffset b w
    rw [exec_aliasWrite k b w v ha hm, bankRangeAccess_word ho hs, lo32_setWidth, bankWordAccess, hw, hb]
    rw [enterReq_rmw, if_neg (by rintro ⟨hk, hbad⟩; exact hv.elim (fun hn => hn hk) hbad),
      if_neg (by simp [bankGone, habs, hc])]
    by_cases hst : rq = .steward
    · simp [hst]
    · simp [hst]
  · obtain ⟨ho, hw, hb⟩ := @aliasOffset b w
    rw [exec_aliasWrite k b w v ha hm, bankRangeAccess_word ho hs, lo32_setWidth, bankWordAccess, hw, hb]
    rw [enterReq_rmw, if_pos ⟨hk, hv⟩]
    rfl
  · have haddr : aliasAddr k b.val w.val = rangeBase (some k) + (b.val * 0x8000 + 4 * w.val) := by
      cases k <;> simp only [aliasAddr, rangeBase] <;> omega
    have hno : (rq == .steward && s.dev.bankClear) = false := by
      by_cases hrq : rq = .steward
      · simp [hst hrq]
      · simp [hrq]
    rw [exec_aliasWrite k b w v ha hm, bankRangeAccess, if_pos (by simp [hs, hno]), haddr]
    rfl

end Sys2Proof.Machine

/-! PROOFS. O21: the grants of a bank port, and the hardware clear. -/

namespace Sys2Proof.Machine

open Sys2Proof

/-- What a bank cycle does after its grant g. -/
def grantEnds (b : Nat) (g : State) : Out :=
  let u := settleLogic (b / 16) (settleExcl b g)
  .next (hostResume u.io.hostWait.length u)

section
variable {b : BankId} {s : State} (hc : bankClocked b.val s = true) (hd : s.dev.bankClear = false)
include hc hd

theorem exec_bankGrant : exec (.bankGrant b) s =
    grantEnds b.val (match (bankPort b.val (rerank b.val s)).stew, nextCompute b.val (rerank b.val s),
        (bankPort b.val (rerank b.val s)).queue with
      | q :: rest, _, _ => grantSteward b.val q rest (rerank b.val s)
      | [], some k, _ => grantCompute b.val k (rerank b.val s)
      | [], none, q :: rest => grantIdle b.val q rest (rerank b.val s)
      | [], none, [] => rerank b.val s) := by
  change (Host.Outcome.next (bankCycle b.val s) : Out) = _
  rw [bankCycle, if_neg (by simp [hc]), grant, if_neg (by simp [hd])]
  rfl

end

theorem serveReq_read (b : Nat) {q : BankReq} (h : q.op = .read) (s : State) :
    serveReq b q s = (giveWord q (readBank b q.word s).1 (readBank b q.word s).2, none) := by
  rw [serveReq, h]

theorem serveReq_write (b : Nat) {q : BankReq} {v : TWord} (h : q.op = .write v) (s : State) : serveReq b q s =
    (giveCode q (if (writeBank b q.word v s).1 then E.NONE else E.ABSENT_TARGET) (writeBank b q.word v s).2, none) := by
  rw [serveReq, h]

/-- A cell's posted write is stored, and takes one cycle. -/
theorem grantCompute_posted {b k : Nat} {s : State} {w : BitVec 13} {v : TWord} (hk : k < 16)
    (h : (cell (16 * b + k) s).posted = some (w, v)) : grantCompute b k s =
      denyCycles 1 b (writeBank b w.toNat v (setCell (16 * b + k)
        { cell (16 * b + k) (tileEvent b 0x05 (mdBankPort b (fun y => { y with last := k }) s)) with posted := none }
        (tileEvent b 0x05 (mdBankPort b (fun y => { y with last := k }) s)))).2 := by
  have hreads : cellReads (16 * b + k) s = none := by simp [cellReads, h]
  have htile : cellTile (16 * b + k) = b := by simp only [cellTile]; omega
  have hcell : cell (16 * b + k) (tileEvent b 0x05 (mdBankPort b (fun y => { y with last := k }) s)) =
      cell (16 * b + k) s := by
    have hsame : SameBut [.regs, .ports] s (tileEvent b 0x05 (mdBankPort b (fun y => { y with last := k }) s)) := by
      simp (disch := decide)
    have hfab : (tileEvent b 0x05 (mdBankPort b (fun y => { y with last := k }) s)).fab = s.fab := hsame .fab (by decide)
    rw [cell, hfab, cell]
  rw [grantCompute]
  dsimp only
  rw [if_neg (by omega), hreads, grantCell, htile]
  dsimp only
  rw [hcell, h]

theorem tfind_filter_key {α : Type} (p : Nat → Bool) (m : SMap α) (k : Nat) :
    tfind (m.filter fun e => p e.1) k = if p k then tfind m k else none := by
  induction m with
  | nil => simp [tfind]
  | cons e m ih =>
    obtain ⟨a, v⟩ := e
    by_cases hak : a = k
    · subst hak
      cases hp : p a
      · rw [List.filter_cons_of_neg (by simp [hp]), ih, hp]
        rfl
      · rw [List.filter_cons_of_pos (by simp [hp])]
        simp [tfind]
    · cases hp : p a
      · rw [List.filter_cons_of_neg (by simp [hp]), ih]
        simp [tfind, hak]
      · rw [List.filter_cons_of_pos (by simp [hp])]
        simp [tfind, hak, ih]

theorem tget_filter_key {α : Type} (d : α) (p : Nat → Bool) (m : SMap α) (k : Nat) :
    tget d (m.filter fun e => p e.1) k = if p k then tget d m k else d := by
  rw [tget, tfind_filter_key]
  split <;> rfl

/-- The clear keeps the words of the banks retained over SLEEP and no others. -/
theorem bankWord_clearBanks {b w : Nat} (hw : w < 8192) (s : State) : bankWord b w (clearBanks s) =
    if s.dev.loadKind = .wakeSleep ∧ inMask (rd64 P.PMU R.PMU_RETAIN_LO s) (b / 16) = true then bankWord b w s
    else zeroWord := by
  have hb : wordKey b w / 8192 = b := by rw [wordKey]; omega
  unfold clearBanks bankWord
  extract_lets keep kept
  change tget zeroWord (s.banks.words.filter fun e => kept (e.1 / 8192)) (wordKey b w) = _
  rw [tget_filter_key zeroWord (fun k => kept (k / 8192)), hb]
  by_cases hk : s.dev.loadKind = .wakeSleep
  · simp [kept, keep, hk]
  · simp [kept, keep, hk, inMask]

/-- What the steward asked during the clear is answered from ports and I/O alone. -/
theorem sameBut_answerWaiting (b : Nat) (s : State) : SameBut [.ports, .io] s (answerWaiting b s) := by
  unfold answerWaiting
  dsimp only
  split
  · exact sameBut_refl _ s
  · rw [sameBut_foldl_iff fun t q => by split <;> simp (disch := decide)]
    simp (disch := decide)

/-- Settles O21: the grant by what waits, and the clear's filter on the stored words. -/
theorem bankPortsGrantAndClear : Obligations.BankPortsGrantAndClear := by
  refine ⟨fun b s hc hd => ?_, fun s hclear => ?_⟩
  · intro r x ends
    refine ⟨fun q rest hst hop => ?_, fun k w v hst hk hnext hpost => ?_, fun q hst hnext hlut hop => ?_,
      fun q rest v hst hnext hq hop => ?_, fun hst hnext hq => ?_⟩
    · rw [exec_bankGrant hc hd, hst]
      dsimp only
      rw [grantSteward, serveReq_read b.val hop, if_neg (by simp [grantWrites, hop])]
      rfl
    · rw [exec_bankGrant hc hd, hst, hnext]
      dsimp only
      rw [grantCompute_posted hk hpost]
      rfl
    · rw [exec_bankGrant hc hd, hst, hnext]
      dsimp only
      rw [grantCompute, if_pos rfl, hlut]
      dsimp only
      rw [if_neg (by simp [isWriteOp, hop]), grantLut, hop]
      rfl
    · rw [exec_bankGrant hc hd, hst, hnext, hq]
      dsimp only
      have hg : grantWrites q = true := by simp [grantWrites, hop]
      rw [grantIdle, serveReq_write b.val hop, hg]
      rfl
    · rw [exec_bankGrant hc hd, hst, hnext, hq]
      rfl
  · let t := setDev { s.dev with bankClear := false } (clearBanks s)
    have hall : SameBut [.ports, .io] t ((t.banks.ports.map (·.1)).foldl (fun t b => answerWaiting b t) t) :=
      sameBut_foldl (fun t b => sameBut_answerWaiting b t) _ _
    refine ⟨_, congrArg Host.Outcome.next (if_pos hclear), ?_, fun b w hw => ?_⟩
    · rw [hall.device (by decide) (by decide)]
      rfl
    · rw [bankWord_of_words (hall .words (by decide)), ← bankWord_clearBanks hw s]
      rfl

end Sys2Proof.Machine

/-! PROOFS. Which components further operations may change. -/

namespace Sys2Proof.Machine

open Sys2Proof

@[simp] theorem sameBut_closeOutput {ps : List Part} (hps : covers ps [.net] = true) (s₀ : State) (k : Nat) (s : State) :
    SameBut ps s₀ (closeOutput k s) ↔ SameBut ps s₀ s := by
  refine SameBut.iff (k := [.net]) ?_ hps s₀
  simp (disch := decide) [closeOutput]

@[simp] theorem sameBut_closePosts {ps : List Part} (hps : covers ps [.regs, .net] = true) (s₀ : State) (s : State) :
    SameBut ps s₀ (closePosts s) ↔ SameBut ps s₀ s := by
  refine SameBut.iff (k := [.regs, .net]) ?_ hps s₀
  unfold closePosts
  split <;> simp (disch := decide)

@[simp] theorem sameBut_dropPairs {ps : List Part} (hps : covers ps [.dev] = true) (s₀ : State) (p : Nat) (s : State) :
    SameBut ps s₀ (dropPairs p s) ↔ SameBut ps s₀ s := by
  refine SameBut.iff (k := [.dev]) ?_ hps s₀
  exact sameBut_setDev_keeping rfl rfl

@[simp] theorem sameBut_clearStatus {ps : List Part} (hps : covers ps [.dev, .regs] = true) (s₀ : State) (p : Nat) (keep : Nat → Bool) (s : State) :
    SameBut ps s₀ (clearStatus p keep s) ↔ SameBut ps s₀ s := by
  refine SameBut.iff (k := [.dev, .regs]) ?_ hps s₀
  simp (disch := decide) [clearStatus]

@[simp] theorem sameBut_schedClear {ps : List Part} (hps : covers ps [.sched] = true) (s₀ : State) (s : State) :
    SameBut ps s₀ (schedClear s) ↔ SameBut ps s₀ s := by
  refine SameBut.iff (k := [.sched]) ?_ hps s₀
  simp (disch := decide) [schedClear]

end Sys2Proof.Machine

/-! PROOFS. The tasks of the scheduler, and O22: its commands and its reset. -/

namespace Sys2Proof.Machine

open Sys2Proof

/-! ## Contexts -/

@[simp] theorem ctx_setCtx_same (t : Nat) (x : Ctx) (s : State) : ctx t (setCtx t x s) = x := tget_tput_same ..

theorem ctx_setCtx_other {j t : Nat} (h : j ≠ t) (x : Ctx) (s : State) : ctx j (setCtx t x s) = ctx j s :=
  tget_tput_other _ _ h ..

theorem ctx_of_sched {s t : State} (h : t.sched.ctx = s.sched.ctx) (j : Nat) : ctx j t = ctx j s := by
  rw [ctx, h, ctx]

/-- The scheduler of t is that of s, but for the trace's own entries. -/
def Traced (s t : State) : Prop := ∃ tr n, t.sched = { s.sched with trace := tr, unspilled := n }

theorem traced_record (time info : Word) (s : State) : Traced s (record time info s) := by
  unfold record
  extract_lets ctl wp n spill full t left src
  split
  · exact ⟨_, _, rfl⟩
  · split
    · exact ⟨s.sched.trace, s.sched.unspilled, by simp⟩
    · have ht : t.sched = s.sched := by
        simp only [t]
        split <;> simp
      exact ⟨tins n (time, info) t.sched.trace, left, by simp [src, ht]⟩

theorem sched_trace (kind task detail : Nat) (s : State) : Traced s (trace kind task detail s) := traced_record ..

@[simp] theorem ctx_trace (j kind task detail : Nat) (s : State) : ctx j (trace kind task detail s) = ctx j s := by
  obtain ⟨tr, n, h⟩ := sched_trace kind task detail s
  exact ctx_of_sched (by rw [h]) j

@[simp] theorem args_trace (kind task detail : Nat) (s : State) : (trace kind task detail s).sched.args = s.sched.args := by
  obtain ⟨tr, n, h⟩ := sched_trace kind task detail s
  rw [h]

@[simp] theorem cyc_trace (kind task detail : Nat) (s : State) : (trace kind task detail s).sched.cyc = s.sched.cyc := by
  obtain ⟨tr, n, h⟩ := sched_trace kind task detail s
  rw [h]

@[simp] theorem banks_trace (kind task detail : Nat) (s : State) : (trace kind task detail s).banks = s.banks :=
  ((sameBut_trace (ps := [.regs, .sched, .io]) (by decide) s kind task detail s).2 (sameBut_refl _ s)).banks
    (by decide) (by decide)

/-! ## Commands -/

/-- The state in which a command of SCH0.CMD waits. -/
def cmdPut (op t : Nat) (s : State) : State :=
  setSched { s.sched with cmd := some (op, t) } (wr P.SCH0 R.SCH0_CMD_STAT (W (op * 2 ^ 12 + t)) s)

/-- The state in which it acts, its stage entered. -/
def cmdEntered (op t : Nat) (s : State) : State :=
  openStage (cmdStage op) false (wrf P.SCH0 R.SCH0_CMD_STAT 31 24 0
    (setSched { (cmdPut op t s).sched with cmd := none } (cmdPut op t s)))

theorem schedRuns_of_same {s t : State} (hd : t.dev = s.dev) (hp : t.pwr = s.pwr) : schedRuns t = schedRuns s := by
  simp only [schedRuns, islandStopped, hd, hp]

section
variable {rq : Requester} {op t : Nat} {s : State} (hr : Reaches rq P.SCH0 s)
include hr

theorem schCmd_put (hc : s.sched.cmd = none) : schCmd rq op t s = startCommand (cmdPut op t s) := by
  rw [schCmd, onPage_reaches hr, schCmdPut, if_neg (by simp [hc])]
  rfl

theorem schCmd_acts (hc : s.sched.cmd = none) (hruns : schedRuns s = true) (hst : s.sched.cyc.stage < cmdStage op) :
    schCmd rq op t s = runCommand op t (cmdEntered op t s) := by
  have hruns' : schedRuns (cmdPut op t s) = true := (schedRuns_of_same rfl rfl).trans hruns
  have hcmd : (cmdPut op t s).sched.cmd = some (op, t) := rfl
  have hst' : ¬cmdStage op ≤ (cmdPut op t s).sched.cyc.stage := Nat.not_le.2 hst
  rw [schCmd_put hr hc, startCommand, hcmd]
  dsimp only
  rw [if_neg (by simp [hruns', hst'])]
  rfl

theorem schCmd_waits (hc : s.sched.cmd = none) (h : schedRuns s = false ∨ cmdStage op ≤ s.sched.cyc.stage) :
    schCmd rq op t s = cmdPut op t s := by
  have hruns' : schedRuns (cmdPut op t s) = schedRuns s := schedRuns_of_same rfl rfl
  have hcmd : (cmdPut op t s).sched.cmd = some (op, t) := rfl
  have hst : (cmdPut op t s).sched.cyc.stage = s.sched.cyc.stage := rfl
  rw [schCmd_put hr hc, startCommand, hcmd]
  dsimp only
  rw [if_pos (by rw [hruns', hst]; simpa using h)]

theorem schCmd_refused (hc : s.sched.cmd ≠ none) : schCmd rq op t s =
    permFault P.SCH0 R.SCH0_CMD (wrf P.SCH0 R.SCH0_CMD_STAT 31 24 E.PERM_FAULT s) := by
  rw [schCmd, onPage_reaches hr, schCmdPut, if_pos (Option.isSome_iff_ne_none.2 hc)]
  rfl

end

@[simp] theorem ctx_cmdEntered (j op t : Nat) (s : State) : ctx j (cmdEntered op t s) = ctx j s := rfl
@[simp] theorem args_cmdEntered (op t : Nat) (s : State) : (cmdEntered op t s).sched.args = s.sched.args := rfl
@[simp] theorem banks_cmdEntered (op t : Nat) (s : State) : (cmdEntered op t s).banks = s.banks := rfl
@[simp] theorem time_cmdEntered (op t : Nat) (s : State) : (cmdEntered op t s).time = s.time := rfl
@[simp] theorem cancelled_cmdEntered (op t : Nat) (s : State) :
    (cmdEntered op t s).sched.cyc.cancelled = s.sched.cyc.cancelled := rfl

/-- One task's context is x, every other one, the banks and the arguments stay. -/
def OneTask (t : Nat) (x : Ctx) (s u : State) : Prop :=
  ctx t u = x ∧ (∀ j, j ≠ t → ctx j u = ctx j s) ∧ u.banks = s.banks ∧ u.sched.args = s.sched.args

theorem oneTask_setCtx (t : Nat) (x : Ctx) (s : State) : OneTask t x s (setCtx t x s) :=
  ⟨ctx_setCtx_same .., fun _ h => ctx_setCtx_other h .., rfl, rfl⟩

theorem OneTask.trace {t : Nat} {x : Ctx} {s u : State} (h : OneTask t x s u) (kind task detail : Nat) :
    OneTask t x s (trace kind task detail u) := by
  obtain ⟨ht, hj, hb, ha⟩ := h
  exact ⟨by simp [ht], fun j hne => by simp [hj j hne], by simp [hb], by simp [ha]⟩

theorem OneTask.entered {t : Nat} {x : Ctx} {op k : Nat} {s u : State} (h : OneTask t x (cmdEntered op k s) u) :
    OneTask t x s u := h

theorem OneTask.marked {t : Nat} {x : Ctx} {s u : State} (h : OneTask t x s u) (k : Nat) :
    OneTask t x s (markCancelled k u) := h

theorem OneTask.mdCtx {t : Nat} {x : Ctx} {s u : State} (h : OneTask t x s u) (f : Ctx → Ctx) :
    OneTask t (f x) s (mdCtx t f u) := by
  obtain ⟨ht, hj, hb, ha⟩ := h
  exact ⟨by rw [Machine.mdCtx, ht]; exact ctx_setCtx_same .., fun j hne => (ctx_setCtx_other hne ..).trans (hj j hne), hb, ha⟩

/-! ## What the commands do to their task -/

section
variable {t op : Nat} {s : State}

theorem oneTask_ready_idle (hc : s.sched.cyc.cancelled ≠ some t) (hst : (ctx t s).state = .idle) :
    OneTask t { ctx t s with
      state := .ready, evtWord := 0, overruns := sat16 (ctx t s).overruns 0, deadline := activeDeadline (ctx t s) s }
      s (runCommand 1 t (cmdEntered op t s)) := by
  change OneTask t _ s (readyTask t 0 0 1 (cmdEntered op t s))
  rw [readyTask, if_neg (by simpa using hc)]
  simp only [ctx_cmdEntered, hst]
  exact ((oneTask_setCtx ..).trace ..).entered

theorem oneTask_ready_ready (hc : s.sched.cyc.cancelled ≠ some t) (hst : (ctx t s).state = .ready) :
    OneTask t { ctx t s with overruns := sat16 (ctx t s).overruns 1 } s (runCommand 1 t (cmdEntered op t s)) := by
  change OneTask t _ s (readyTask t 0 0 1 (cmdEntered op t s))
  rw [readyTask, if_neg (by simpa using hc)]
  simp only [ctx_cmdEntered, hst]
  exact ((oneTask_setCtx ..).trace ..).entered

theorem oneTask_cancel {x : Ctx} (h : OneTask t x s (cancelEffect t (cmdEntered op t s)).2) :
    OneTask t x s (runCommand 2 t (cmdEntered op t s)) ∧
      (runCommand 2 t (cmdEntered op t s)).sched.cyc.cancelled = some t :=
  ⟨(h.marked t).trace .., by
    change (trace _ _ _ (markCancelled t _)).sched.cyc.cancelled = _
    rw [cyc_trace]
    rfl⟩

theorem oneTask_cancelEffect_ready (hst : (ctx t s).state = .ready) :
    OneTask t { ctx t s with state := .idle, again := false } s (cancelEffect t (cmdEntered op t s)).2 := by
  simp only [cancelEffect, ctx_cmdEntered, hst]
  exact (oneTask_setCtx ..).entered

theorem oneTask_cancelEffect_running (hst : (ctx t s).state = .running) :
    OneTask t { ctx t s with cancelPending := true } s (cancelEffect t (cmdEntered op t s)).2 := by
  simp only [cancelEffect, ctx_cmdEntered, hst]
  exact (oneTask_setCtx ..).entered

theorem oneTask_abandon_engine (he : (ctx t s).onEngine = true) :
    OneTask t { ctx t s with state := .idle, lastStatus := 0x04, cancelPending := false, again := false } s
      (abandonTask t (cmdEntered op t s)) := by
  rw [abandonTask, ctx_cmdEntered, if_pos he]
  exact (((oneTask_setCtx ..).marked t).trace ..).entered

theorem oneTask_abandon_idle (hst : (ctx t s).state = .idle) :
    OneTask t (ctx t s) s (abandonTask t (cmdEntered op t s)) := by
  have hno : ¬(ctx t (cmdEntered op t s)).onEngine = true := by simp [Ctx.onEngine, hst]
  have heff : (cancelEffect t (cmdEntered op t s)).2 = cmdEntered op t s := by
    simp only [cancelEffect, ctx_cmdEntered, hst]
  have hself : OneTask t (ctx t s) s (cmdEntered op t s) := ⟨rfl, fun _ _ => rfl, rfl, rfl⟩
  rw [abandonTask, if_neg hno, heff]
  exact (hself.marked t).trace ..

theorem oneTask_enable (hst : (ctx t s).state = .disabled) :
    OneTask t { ctx t s with state := .idle } s (runCommand 5 t (cmdEntered op t s)) := by
  change OneTask t _ s (enableTask t (cmdEntered op t s))
  rw [enableTask, if_pos (by simp [hst])]
  exact (oneTask_setCtx ..).entered

end

/-! ## The soft reset of a scheduler page -/

theorem schedClear_tasks (s : State) : ∀ x ∈ (schedClear s).sched.ctx, x.2.state = .disabled ∨ x.2.state = .idle := by
  intro x hx
  simp only [schedClear, setSched_sched, List.mem_filterMap] at hx
  obtain ⟨e, -, he⟩ := hx
  split at he
  · cases he
  · cases he
    simp only [Ctx.cleared]
    split
    · exact .inl rfl
    · exact .inr rfl

theorem schedResetReports_of_unarmed {s : State} (h : s.fox.armed = none) : schedResetReports s = s := by
  rw [schedResetReports, h]

/-- What a reset of the scheduler leaves, where no set is armed. -/
theorem schedSoftReset_keeps {s : State} (h : s.fox.armed = none) :
    ∃ u, SameBut [.regs, .net] s u ∧ SameBut [.dev, .regs] (schedClear u) (schedSoftReset s) := by
  refine ⟨closePosts (closeOutput 0 s), by simp (disch := decide), ?_⟩
  have hfox : SameBut [.regs, .net, .sched] s (schedClear (closePosts (closeOutput 0 s))) := by simp (disch := decide)
  have harm : (schedClear (closePosts (closeOutput 0 s))).fox.armed = none := by
    rw [show (schedClear (closePosts (closeOutput 0 s))).fox = s.fox from hfox .fox (by decide), h]
  rw [schedSoftReset, schedResetReports_of_unarmed harm]
  simp (disch := decide)

/-- Settles O22: a command in its stage acts on its task alone, else it waits; a reset clears and keeps the rest. -/
theorem schedulerCommandsAndReset : Obligations.SchedulerCommandsAndReset := by
  refine ⟨fun rq t s hr => ?_, fun rq page s hr harm => ?_⟩
  · intro c x rest waits
    have acts {op : Nat} (hc : s.sched.cmd = none) (hruns : schedRuns s = true) (hst : x.stage < cmdStage op) :
        (Host.Outcome.next (schCmd rq op t.val s) : Out) = .next (runCommand op t.val (cmdEntered op t.val s)) :=
      congrArg Host.Outcome.next (schCmd_acts hr hc hruns hst)
    have waiting {op : Nat} (hc : s.sched.cmd = none) (h : schedRuns s = false ∨ cmdStage op ≤ x.stage) :
        (Host.Outcome.next (schCmd rq op t.val s) : Out) = .next (waits op) :=
      congrArg Host.Outcome.next (schCmd_waits hr hc h)
    have one {y : Ctx} {u : State} (h : OneTask t.val y s u) : rest u ∧ ctx t.val u = y :=
      ⟨⟨h.2.1, h.2.2⟩, h.1⟩
    refine ⟨fun hc hruns hst hcan => ⟨fun hs => ?_, fun hs => ?_⟩, fun hc hruns hst => ⟨fun hs => ?_, fun hs => ?_,
      fun hs => ?_, fun hs => ?_, fun hs => ?_, fun hs => ?_⟩, fun hc => ⟨fun h => ?_, fun h => ⟨?_, ?_, ?_, ?_⟩⟩,
      fun hc i hi => ?_⟩
    · exact ⟨_, acts hc hruns hst, one (oneTask_ready_idle hcan hs)⟩
    · exact ⟨_, acts hc hruns hst, one (oneTask_ready_ready hcan hs)⟩
    · obtain ⟨h1, h2⟩ := oneTask_cancel (oneTask_cancelEffect_ready (op := 2) hs)
      exact ⟨_, acts hc hruns hst, (one h1).1, (one h1).2, h2⟩
    · obtain ⟨h1, h2⟩ := oneTask_cancel (oneTask_cancelEffect_running (op := 2) hs)
      exact ⟨_, acts hc hruns hst, (one h1).1, (one h1).2, h2⟩
    · exact ⟨_, acts hc hruns hst, one (oneTask_abandon_engine hs)⟩
    · exact ⟨_, acts hc hruns hst, one ((oneTask_abandon_engine hs).mdCtx fun c => { c with state := .disabled })⟩
    · exact ⟨_, acts hc hruns hst, one ((oneTask_abandon_idle hs).mdCtx fun c => { c with state := .disabled })⟩
    · exact ⟨_, acts hc hruns hst, one (oneTask_enable hs)⟩
    · exact waiting hc h
    · exact waiting hc h
    · exact waiting hc h
    · exact waiting hc h
    · exact waiting hc h
    · have refused (op : Nat) := congrArg (Host.Outcome.next (ρ := Refusal) (φ := Fault)) (schCmd_refused (op := op) (t := t.val) hr hc)
      simp only [List.mem_cons, List.not_mem_nil, or_false] at hi
      obtain rfl | rfl | rfl | rfl | rfl := hi
      · exact refused 1
      · exact refused 2
      · exact refused 3
      · exact refused 4
      · exact refused 5
  · obtain ⟨u, hu, hw⟩ := schedSoftReset_keeps harm
    have hsched : (schedSoftReset s).sched = (schedClear u).sched := hw .sched (by decide)
    have hus : u.sched = s.sched := hu .sched (by decide)
    refine ⟨schedSoftReset s, congrArg Host.Outcome.next (onPage_reaches hr ..), ?_⟩
    rw [hsched, hw.banks (by decide) (by decide), show (schedSoftReset s).flash = (schedClear u).flash from hw .flash (by decide)]
    refine ⟨rfl, rfl, rfl, rfl, by rw [← hus]; rfl, by rw [← hus]; rfl, hu.banks (by decide) (by decide),
      hu .flash (by decide), schedClear_tasks u⟩

end Sys2Proof.Machine

/-! PROOFS. O23: the end of a scheduler cycle leaves a waiting command and the walker; events reach their queues. -/

namespace Sys2Proof.Machine

open Sys2Proof

/-! ## The waiting command and the walker through the end of a cycle -/

/-- The command that waits and the event that the walker works on. -/
def cmdWalk (s : State) : Option (Nat × Nat) × Option Walk := (s.sched.cmd, s.sched.walk)

theorem cmdWalk_of_sched {s t : State} (h : t.sched = s.sched) : cmdWalk t = cmdWalk s := by rw [cmdWalk, h, cmdWalk]

@[simp] theorem cmdWalk_record (time info : Word) (s : State) : cmdWalk (record time info s) = cmdWalk s := by
  obtain ⟨tr, n, h⟩ := traced_record time info s
  rw [cmdWalk, h, cmdWalk]

@[simp] theorem cmdWalk_trace (kind task detail : Nat) (s : State) : cmdWalk (trace kind task detail s) = cmdWalk s :=
  cmdWalk_record ..

@[simp] theorem cmdWalk_count (p off : Nat) (s : State) : cmdWalk (count p off s) = cmdWalk s :=
  cmdWalk_of_sched (by simp)

@[simp] theorem cmdWalk_irq (p b : Nat) (s : State) : cmdWalk (irq p b s) = cmdWalk s := cmdWalk_of_sched (by simp)

@[simp] theorem cmdWalk_setCtx (t : Nat) (x : Ctx) (s : State) : cmdWalk (setCtx t x s) = cmdWalk s := rfl

@[simp] theorem cmdWalk_dropSaved (k : Nat) (s : State) : cmdWalk (dropSaved k s) = cmdWalk s := rfl

@[simp] theorem cmdWalk_send (c : ChanId) (ws : List TWord) (s : State) : cmdWalk (send c ws s) = cmdWalk s :=
  cmdWalk_of_sched (((sameBut_send (ps := [.regs, .net]) (by decide) s c ws s).2 (sameBut_refl _ s)) .sched (by decide))

@[simp] theorem cmdWalk_argErrors (c : Ctx) (s : State) : cmdWalk (argErrors c s) = cmdWalk s :=
  cmdWalk_of_sched (((sameBut_argErrors (ps := [.regs, .io]) (by decide) s c s).2 (sameBut_refl _ s)) .sched (by decide))

@[simp] theorem cmdWalk_queueStall (s : State) : cmdWalk (queueStall s) = cmdWalk s := by
  unfold queueStall
  split
  · rfl
  · exact cmdWalk_count ..

@[simp] theorem cmdWalk_suspendTask (v : Nat) (s : State) : cmdWalk (suspendTask v s) = cmdWalk s := by
  simp [suspendTask]

@[simp] theorem cmdWalk_blockTask (t : Nat) (s : State) : cmdWalk (blockTask t s) = cmdWalk s := by
  unfold blockTask
  dsimp only
  split <;> simp

@[simp] theorem cmdWalk_launchTask (t k : Nat) (s : State) : cmdWalk (launchTask t k s) = cmdWalk s := by
  have hseq (x : Nat) (l : SMap Nat) (u : State) :
      cmdWalk (setSched { u.sched with seq := x, rrLast := l } u) = cmdWalk u := rfl
  unfold launchTask
  extract_lets c resume n msg s1
  have h1 : cmdWalk s1 = cmdWalk s := by
    simp only [s1]
    split <;> simp
  simp [hseq, h1]

theorem cmdWalk_decide (l : List (Nat × Ctx)) (s : State) : cmdWalk (decide_ l s) = cmdWalk s := by
  induction l with
  | nil => rfl
  | cons x rest ih =>
    unfold decide_
    dsimp only
    split
    · exact ih
    · split
      · simp
      · split
        · simp
        · split
          · simp
          · exact ih

theorem cmdWalk_dispatchStage (s : State) : cmdWalk (dispatchStage s) = cmdWalk s := by
  unfold dispatchStage
  split
  · rfl
  · split
    · simp
    · split
      · exact cmdWalk_decide ..
      · rfl

theorem cmdWalk_passAbsence (s : State) : cmdWalk (passAbsence s) = cmdWalk s := by
  unfold passAbsence
  split
  · rfl
  · exact cmdWalk_record ..

theorem startCommand_of_none {s : State} (h : s.sched.cmd = none) : startCommand s = s := by
  rw [startCommand, h]

/-- Without a waiting command the end of a cycle begins a blank one, and leaves the walker. -/
theorem endCycle_idle {s : State} (h : s.sched.cmd = none) :
    (endCycle s).sched.cmd = none ∧ (endCycle s).sched.walk = s.sched.walk ∧ (endCycle s).sched.cyc = SchedCycle.blank := by
  let u := passAbsence (if heldBack (dispatchStage s) then queueStall (dispatchStage s) else dispatchStage s)
  have hu : cmdWalk u = cmdWalk s := by
    simp only [u, cmdWalk_passAbsence]
    split <;> simp [cmdWalk_dispatchStage]
  have hcmd : u.sched.cmd = none := (congrArg Prod.fst hu).trans h
  have hend : endCycle s = setCyc SchedCycle.blank u := startCommand_of_none (s := setCyc SchedCycle.blank u) hcmd
  rw [hend]
  exact ⟨hcmd, congrArg Prod.snd hu, rfl⟩

/-- Entering a stage of the walker ends the present cycle once where that stage is past. -/
theorem enterStage_walker {s : State} (h : s.sched.cmd = none) (k : Nat) : enterStage k true s =
    openStage k true (if s.sched.cyc.walker ∨ (k ≠ 0 ∧ k ≤ s.sched.cyc.stage) then endCycle s else s) := by
  have htaken (u : State) : stageTaken k true u = true ↔ u.sched.cyc.walker = true ∨ k ≠ 0 ∧ k ≤ u.sched.cyc.stage := by
    simp [stageTaken, or_comm]
  obtain ⟨-, -, hblank⟩ := endCycle_idle h
  rw [enterStage, startCommand_of_none h]
  by_cases hs : s.sched.cyc.walker = true ∨ k ≠ 0 ∧ k ≤ s.sched.cyc.stage
  · have hno : ¬stageTaken k true (endCycle s) = true := by
      rw [htaken, hblank]
      simp [SchedCycle.blank]
    rw [if_pos ((htaken s).2 hs), if_pos hs, if_neg hno]
  · rw [if_neg (mt (htaken s).1 hs), if_neg hs, if_neg (mt (htaken s).1 hs)]

theorem nextWalk_of_walk {s : State} {w : Walk} (h : s.sched.walk = some w) : nextWalk s = some (w, s) := by
  rw [nextWalk, h]

theorem walk_enterStage {s : State} (h : s.sched.cmd = none) (k : Nat) :
    (enterStage k true s).sched.walk = s.sched.walk := by
  rw [enterStage_walker h]
  change (if _ then endCycle s else s).sched.walk = _
  split
  · exact (endCycle_idle h).2.1
  · rfl

section
variable {s : State} {w : Walk} (hr : schedRuns s = true) (hc : s.sched.cmd = none) (hw : s.sched.walk = some w)
include hr hc hw

/-- The walker applies the next binding of its event, with the command of the binding's kind. -/
theorem walkerApply_binding {b : Word} {rest : List Word} (ht : w.todo = b :: rest) (cancel : Bool) :
    walkerApply cancel s = if bit 30 b = cancel then
      (let e := enterStage (if cancel then 1 else 3) true s
       let t := setSched { e.sched with walk := if rest.isEmpty then none else some { w with todo := rest } } e
       if bit 30 b then cancelTask (fld 11 0 b) t else readyTask (fld 11 0 b) w.entry.word w.entry.coalesced 0 t)
    else s := by
  have hhas : walkerHas cancel s = decide (bit 30 b = cancel) := by
    rw [walkerHas, nextWalk_of_walk hw]
    simp [ht, beq_eq_decide]
  rw [walkerApply, hhas]
  by_cases h : bit 30 b = cancel
  · have hwalk := (walk_enterStage hc (if cancel then 1 else 3)).trans hw
    rw [if_neg (by simp [hr, h]), if_pos h, walkerBind, nextWalk_of_walk hwalk]
    simp only [ht]
  · rw [if_pos (by simp [h]), if_neg h]

theorem walkerUnbound_empty (ht : w.todo = []) : walkerUnbound s =
    (let e := enterStage 0 true s
     irq P.SCH2 0 (count P.SCH2 R.SCH2_UNBOUND_EVENTS (setSched { e.sched with walk := none } e))) := by
  have hnone : walkerNone s = true := by simp [walkerNone, nextWalk_of_walk hw, ht]
  rw [walkerUnbound, if_neg (by simp [hr, hnone])]
  dsimp only
  rw [nextWalk_of_walk ((walk_enterStage hc 0).trans hw)]

end

/-! ## Events enter their queues -/

theorem queue_of_sched_eq {s t : State} (h : t.sched = s.sched) (q : Nat) : queue q t = queue q s := by
  rw [queue, h, queue]

/-- An event without an entry in its queue is appended. -/
theorem coalesce_new {q index : Nat} {s : State} (h : (queue q s).any (fun e => e.index == index) = false) (word : Word)
    (extra : Nat) : coalesce q index word extra s = pushEvent q index word (min 255 extra) s := by
  rw [coalesce, if_neg (by simp [h])]

theorem fld_low_bit (w : Word) : fld 1 0 w % 2 = fld 0 0 w := by
  simp only [fld]
  omega

/-- An edge in RUN of an enabled cell with no entry queued: its time is stored, its event joins the bank's queue. -/
theorem ioEdge_rising {b c : Nat} {stamp : BitVec 64} {s : State} (hm : s.dev.mode = .run) (hc : c < bankCells b)
    (hcfg : fld 0 0 (rd (P.IOB b) (R.IOB_CFG + 4 * c) s) = 1) (hst : bit 1 (rd (P.IOB b) R.IOB_BANK_STAT s) = true)
    (hp : pairedCell b c s = false) (hq : (queue (1 + b) s).any (fun e => e.index == c) = false) :
    ioEdge b c true stamp s = pushEvent (1 + b) c (lo32 stamp) 0
      (wr (P.IOB b) (R.IOB_TS + 4 * c) (lo32 stamp) (count (P.IOB b) R.IOB_EVENTS s)) := by
  have hodd := fld_low_bit (rd (P.IOB b) (R.IOB_CFG + 4 * c) s)
  rw [hcfg] at hodd
  have hqueue : queue (1 + b) (wr (P.IOB b) (R.IOB_TS + 4 * c) (lo32 stamp) (count (P.IOB b) R.IOB_EVENTS s)) =
      queue (1 + b) s := queue_of_sched_eq (by simp) _
  rw [ioEdge]
  dsimp only
  rw [if_neg (by simp [hm, hodd, hp, hst, Nat.not_le.2 hc]), if_pos hm, coalesce_new (by rw [hqueue]; exact hq)]
  rfl

/-- A one-shot timer whose time has come, with no entry queued: it stops, and its event joins queue 0. -/
theorem timerDue_once {n : Nat} {s : State} (hr : schedRuns s = true)
    (hen : bit 0 (rd P.SCH2 (R.SCH2_TM_TCTL + 16 * n) s) = true)
    (hdue : (rd64 P.SCH2 (R.SCH2_TM_AT_LO + 16 * n) s).toNat ≤ s.time.ringTime.toNat)
    (hper : rd P.SCH2 (R.SCH2_TM_PERIOD + 16 * n) s = 0) (hq : (queue 0 s).any (fun e => e.index == n) = false) :
    timerDue n s = pushEvent 0 n (lo32 (rd64 P.SCH2 (R.SCH2_TM_AT_LO + 16 * n) s)) 0
      (md P.SCH2 (R.SCH2_TM_TCTL + 16 * n) (setBit 0 false) (countF P.SCH2 (R.SCH2_TM_TCTL + 16 * n) 31 16 s)) := by
  have hqueue : queue 0 (md P.SCH2 (R.SCH2_TM_TCTL + 16 * n) (setBit 0 false)
      (countF P.SCH2 (R.SCH2_TM_TCTL + 16 * n) 31 16 s)) = queue 0 s := queue_of_sched_eq (by simp) _
  rw [timerDue]
  dsimp only
  rw [if_neg (by simp [hr, hen, Nat.not_lt.2 hdue]), if_pos (by simp [hper]), coalesce_new (by rw [hqueue]; exact hq)]
  rfl

theorem ctx_pushEvent_sched (q index : Nat) (word : Word) (n : Nat) (s : State) :
    (pushEvent q index word n s).sched.ctx = s.sched.ctx := rfl

/-- Settles O23: the walker's next binding, and the entry that each event makes in its queue. -/
theorem eventsReachTheirTasks : Obligations.EventsReachTheirTasks := by
  refine ⟨fun s w hr hc hw => ?_, fun s => ⟨fun b c stamp hm hcell hcfg hst hp hq => ?_,
    fun n hr hen hdue hper hq => ?_, fun a rest hr ha => ⟨fun hroom => ?_, fun hfull => ?_⟩⟩⟩
  · intro cyc
    have hcyc (k : Nat) : enterStage k true s = cyc k := enterStage_walker hc k
    refine ⟨fun b rest ht => ?_, fun ht => ?_⟩
    · intro left t
      refine ⟨fun hb => ⟨?_, ?_⟩, fun hb => ⟨?_, ?_⟩⟩
      · change (Host.Outcome.next (walkerApply false s) : Out) = _
        rw [walkerApply_binding hr hc hw ht, if_pos hb, hcyc]
        simp only [hb]
        rfl
      · change (Host.Outcome.next (walkerApply true s) : Out) = _
        rw [walkerApply_binding hr hc hw ht, if_neg (by simp [hb])]
      · change (Host.Outcome.next (walkerApply true s) : Out) = _
        rw [walkerApply_binding hr hc hw ht, if_pos hb, hcyc]
        simp only [hb]
        rfl
      · change (Host.Outcome.next (walkerApply false s) : Out) = _
        rw [walkerApply_binding hr hc hw ht, if_neg (by simp [hb])]
    · change (Host.Outcome.next (walkerUnbound s) : Out) = _
      rw [walkerUnbound_empty hr hc hw ht, hcyc]
  · refine ⟨_, congrArg Host.Outcome.next (ioEdge_rising hm hcell hcfg hst hp hq), ?_, ?_⟩
    · rw [queue_pushEvent, queue_setQueue_same]
      congr 1
      exact queue_of_sched_eq (by simp) _
    · have hcell48 := c.isLt
      have hb := b.isLt
      rw [pushEvent, rd_md_other (rkey_page (by simp only [P.IOB, P.SCH2]; omega) (by simp only [R.IOB_TS]; omega)
        (by simp only [R.SCH2_QSTAT]; omega))]
      exact rd_wr_same ..
  · refine ⟨_, congrArg Host.Outcome.next (timerDue_once hr hen hdue hper hq), ?_, ?_, ?_⟩
    · rw [queue_pushEvent, queue_setQueue_same]
      congr 1
    · have hsame : SameBut [.regs, .sched] s (pushEvent 0 n.val (lo32 (rd64 P.SCH2 (R.SCH2_TM_AT_LO + 16 * n.val) s)) 0
          (md P.SCH2 (R.SCH2_TM_TCTL + 16 * n.val) (setBit 0 false) (countF P.SCH2 (R.SCH2_TM_TCTL + 16 * n.val) 31 16 s))) := by
        simp (disch := decide)
      exact hsame.banks (by decide) (by decide)
    · rw [ctx_pushEvent_sched]
      simp
  · change (Host.Outcome.next (if schedRuns s then absencePost s else s) : Out) = _
    rw [if_pos hr, absencePost, ha]
    dsimp only
    rw [if_neg (by simp [hroom])]
  · change (Host.Outcome.next (if schedRuns s then absencePost s else s) : Out) = _
    rw [if_pos hr, absencePost, ha]
    dsimp only
    rw [if_pos hfull, queueStall]
    simp

end Sys2Proof.Machine

/-! PROOFS. O24: replies that end an activation. -/

namespace Sys2Proof.Machine

open Sys2Proof

/-- The complete stage on a message of its class, by what the message is. -/
theorem completeStage_msg {cls : Nat} {apply : Msg → State → State} {s : State} {m : Msg} (hr : schedRuns s = true)
    (hm : sinkMsg (.svcDown 0) s = some m) (hc : m.cls = cls) (hu : m.status ≠ E.UNTERMINATED) :
    completeStage cls apply s =
      (let s0 := enterStage 2 false s
       let t := dropMsg (.svcDown 0) s0
       if m.status = 0 ∧ m.payload.length ≠ m.len then malformed m.route t
       else if stray m t then strayMsg t
       else if completeHeld m s0 then queueStall s0
       else apply m t) := by
  rw [completeStage, if_neg (by simp [hr]), hm]
  dsimp only
  rw [if_neg (by simp [hc]), if_neg hu]

@[simp] theorem ctx_count (j p off : Nat) (s : State) : ctx j (count p off s) = ctx j s :=
  ctx_of_sched (by simp) j

@[simp] theorem ctx_irq (j p b : Nat) (s : State) : ctx j (irq p b s) = ctx j s := ctx_of_sched (by simp) j

/-- Results change the argument memory alone. -/
theorem setArgs_eq (base : Nat) (ws : List TWord) (s : State) :
    ∃ x, setArgs base ws s = setSched { s.sched with args := x } s := by
  unfold setArgs
  induction ws generalizing base s with
  | nil => exact ⟨s.sched.args, rfl⟩
  | cons w ws ih =>
    obtain ⟨x, hx⟩ := ih (base + 1) (setArg base w s)
    exact ⟨x, hx⟩

/-- Saved words change the save memory alone. -/
theorem putSaved_eq (slot : Nat) (ws : List TWord) (s : State) :
    ∃ x, putSaved slot ws s = setSched { s.sched with saves := x } s := by
  have key (n : Nat) (u : State) : ∃ x, (ws.foldl (fun (a : Nat × State) w =>
      (a.1 + 1, setSched { a.2.sched with saves := tput zeroWord a.1 w a.2.sched.saves } a.2)) (n, u)).2 =
        setSched { u.sched with saves := x } u := by
    induction ws generalizing n u with
    | nil => exact ⟨u.sched.saves, rfl⟩
    | cons w ws ih =>
      obtain ⟨x, hx⟩ := ih (n + 1) (setSched { u.sched with saves := tput zeroWord n w u.sched.saves } u)
      exact ⟨x, hx⟩
  obtain ⟨x, hx⟩ := key (slot * 64) (dropSaved slot s)
  exact ⟨x, hx⟩

@[simp] theorem queues_trace (kind task detail : Nat) (s : State) :
    (trace kind task detail s).sched.queues = s.sched.queues := by
  obtain ⟨tr, n, h⟩ := sched_trace kind task detail s
  rw [h]

theorem OneTask.of_same {t : Nat} {x : Ctx} {s u v : State} (h : OneTask t x s u) (hs : v.sched = u.sched)
    (hb : v.banks = u.banks) : OneTask t x s v := by
  obtain ⟨ht, hj, hbanks, ha⟩ := h
  have hctx := ctx_of_sched (congrArg Sched.ctx hs)
  exact ⟨(hctx t).trans ht, fun j hne => (hctx j).trans (hj j hne), hb.trans hbanks, (congrArg Sched.args hs).trans ha⟩

theorem OneTask.count {t : Nat} {x : Ctx} {s u : State} (h : OneTask t x s u) (p off : Nat) :
    OneTask t x s (count p off u) := h.of_same (by simp) (by simp)

theorem OneTask.irq {t : Nat} {x : Ctx} {s u : State} (h : OneTask t x s u) (p b : Nat) : OneTask t x s (irq p b u) :=
  h.of_same (by simp) (by simp)

section
variable {m : Msg} {s : State} (hst : m.status = 0) (hf : payloadFault m = none)
include hst hf

/-- A SUSPEND reply without a pending cancel saves its words and pre-empts its task. -/
theorem applySuspend_saves (hc : (ctx m.task s).cancelPending = false) :
    ctx m.task (applySuspend m s) = { ctx m.task s with state := .preempted, slot := 0, saved := m.payload.length } ∧
      ∀ j, j ≠ m.task → ctx j (applySuspend m s) = ctx j s := by
  obtain ⟨x, hx⟩ := putSaved_eq (ctx m.task s).saveSlot m.payload s
  rw [applySuspend]
  dsimp only
  rw [if_pos ⟨hst, hf⟩, if_neg (by simp [hc]), hx]
  exact ⟨ctx_setCtx_same .., fun j hj => ctx_setCtx_other hj ..⟩

/-- With a pending cancel its task is IDLE. -/
theorem applySuspend_cancelled (hc : (ctx m.task s).cancelPending = true) :
    ctx m.task (applySuspend m s) =
        { ctx m.task s with state := .idle, slot := 0, cancelPending := false, again := false } ∧
      ∀ j, j ≠ m.task → ctx j (applySuspend m s) = ctx j s := by
  rw [applySuspend]
  dsimp only
  rw [if_pos ⟨hst, hf⟩, if_pos hc]
  exact ⟨by simp, fun j hj => by simp [ctx_setCtx_other hj]⟩

/-- A good COMPLETE with nothing due ends its activation: the context, and what results change beside it. -/
theorem applyComplete_good (ha : (ctx m.task s).again = false) (he : (ctx m.task s).completeEvt = false) :
    ∃ s1, (s1 = if (ctx m.task s).resEn && !(ctx m.task s).cancelPending then setArgs (ctx m.task s).resBase m.payload s
        else s) ∧
      OneTask m.task { ctx m.task s with
        state := .idle, lastStatus := 0, slot := 0, completeTime := lo32 s.time.ringTime, cancelPending := false,
        misses := if decide ((ctx m.task s).deadline.toNat < s.time.ringTime.toNat) then sat16 (ctx m.task s).misses 1
          else (ctx m.task s).misses } s1 (applyComplete m s) ∧
      (applyComplete m s).sched.queues = s1.sched.queues := by
  unfold applyComplete
  extract_lets c0 t c fault failed code late s1 s2 s3 s4
  have hfail : ¬failed := by simp [failed, fault, hst, hf]
  have hcode : BitVec.ofNat 8 code = 0 := by simp [code, fault, hst, hf]
  have hs1 : s1 = if c.resEn && !c.cancelPending then setArgs c.resBase m.payload s else s := by
    simp [s1, hfail]
  have h2 : OneTask t { c with
      state := .idle, lastStatus := BitVec.ofNat 8 code, slot := 0, completeTime := ringLo s, cancelPending := false,
      again := false, misses := if late then sat16 c.misses 1 else c.misses } s1 s2 :=
    ((oneTask_setCtx t _ s1).count P.SCH0 R.SCH0_COMPLETES).trace 0x5 t _
  rw [hcode] at h2
  have h3 {x : Ctx} (h : OneTask t x s1 s2) : OneTask t x s1 s3 := by
    simp only [s3]
    split
    · exact ((h.count P.SCH0 R.SCH0_DEADLINE_MISSES).trace 0x8 t 0).irq P.SCH0 2
    · exact h
  have h4 : s4 = s3 := if_neg (by simp [c, t, ha])
  have hq : s3.sched.queues = s1.sched.queues := by
    simp only [s3]
    split <;> simp [s2, setCtx]
  have hpost : postCompletion t c code s4 = s3 := by rw [postCompletion, if_neg (by simp [c, t, he]), h4]
  exact ⟨s1, hs1, by rw [hpost]; simpa [c0, c, t, ha, late, ringLo] using h3 h2, by rw [hpost, hq]⟩

end

/-- Settles O24: the complete stage by its message, and what a reply writes of its task. -/
theorem repliesEndAnActivation : Obligations.RepliesEndAnActivation := by
  refine ⟨fun s m => ?_, fun s m ha he hst hf => ?_⟩
  · intro s0 t c fits hr hm hu
    have stage {cls : Nat} (apply : Msg → State → State) (hc : m.cls = cls) :=
      congrArg (Host.Outcome.next (ρ := Refusal) (φ := Fault)) (completeStage_msg (apply := apply) hr hm hc hu)
    have answered {cls : Nat} (apply : Msg → State → State) (hc : m.cls = cls) (hfit : m.status = 0 → fits)
        (hs : stray m t = false) (hh : completeHeld m s0 = false) :
        (Host.Outcome.next (completeStage cls apply s) : Out) = .next (apply m t) := by
      rw [stage apply hc]
      dsimp only
      rw [if_neg (fun h => h.2 (hfit h.1)), if_neg (Bool.eq_false_iff.mp hs), if_neg (Bool.eq_false_iff.mp hh)]
    refine ⟨fun hc hfit hs hh => answered applyComplete hc hfit hs hh, fun hc hfit hs => ?_, fun hc hfit hs hh => ?_,
      fun hc hst hfit => ?_, fun hc hst hfit hs hf hh => ⟨fun hcan => ?_, fun hcan => ?_⟩, fun hc hst hs hh =>
        answered applySuspend hc (fun h => absurd h hst) hs hh⟩
    · refine (stage applyComplete hc).trans (congrArg Host.Outcome.next ?_)
      exact (if_neg fun h => h.2 (hfit h.1)).trans (if_pos hs)
    · refine (stage applyComplete hc).trans (congrArg Host.Outcome.next ?_)
      exact (if_neg fun h => h.2 (hfit h.1)).trans ((if_neg (Bool.eq_false_iff.mp hs)).trans (if_pos hh))
    · exact (stage applyComplete hc).trans (congrArg Host.Outcome.next (if_pos ⟨hst, hfit⟩))
    · exact ⟨_, answered applySuspend hc (fun _ => hfit) hs hh, applySuspend_saves hst hf hcan⟩
    · exact ⟨_, answered applySuspend hc (fun _ => hfit) hs hh, applySuspend_cancelled hst hf hcan⟩
  · intro c late u
    obtain ⟨s1, hs1, ⟨hctx, hother, hbanks, hargs⟩, hq⟩ := applyComplete_good hst hf ha he
    have hs1' : ∃ x, s1 = setSched { s.sched with args := x } s := by
      rw [hs1]
      split
      · exact setArgs_eq ..
      · exact ⟨s.sched.args, rfl⟩
    obtain ⟨x, hx⟩ := hs1'
    refine ⟨hctx, fun j hj => (hother j hj).trans (by rw [hx]; rfl), hq.trans (by rw [hx]; rfl),
      hbanks.trans (by rw [hx]; rfl), fun hno => hargs.trans ?_⟩
    rw [hs1, if_neg (by rcases hno with h | h <;> simp [c] at h <;> simp [h])]

end Sys2Proof.Machine

/-! PROOFS. A whole message at a receiver, and O25: service 0x00. -/

namespace Sys2Proof.Machine

open Sys2Proof

/-- A receiver that has gathered a whole message has gathered its LAST. -/
theorem splitLast_of_sinkMsg {c : ChanId} {s : State} {m : Msg} (h : sinkMsg c s = some m) :
    (splitLast (chan c s).gathered).isSome = true := by
  unfold sinkMsg firstMsg at h
  cases hcut : splitLast (chan c s).gathered with
  | none => simp [hcut] at h
  | some x => rfl

/-- It takes no further word before the message has been served. -/
theorem takeMsg_of_sinkMsg {c : ChanId} {s : State} {m : Msg} (h : sinkMsg c s = some m) : takeMsg c s = s := by
  unfold takeMsg
  split
  · cases (chan c s).buffer.length with
    | zero => rfl
    | succ n =>
      rw [takeWords]
      have hheld : receiverHolds c s = true := by simp [receiverHolds, splitLast_of_sinkMsg h]
      cases (chan c s).buffer with
      | nil => rfl
      | cons w ws => simp [hheld]
  · rfl

theorem postOpen_of_last {ws : List TWord} (h : (splitLast ws).isSome = true) : postOpen ws = none := by
  unfold postOpen
  have hno : (splitLast ws).isNone = false := by simp [Option.isNone_eq_false_iff, h]
  split
  · simp [hno]
  · rfl

theorem postLoop_of_sinkMsg {s : State} {m : Msg} (h : sinkMsg (.svcDown 0) s = some m) (n : Nat) :
    postLoop n s = s := by
  cases n with
  | zero => rfl
  | succ n =>
    rw [postLoop]
    simp [postOpen_of_last (splitLast_of_sinkMsg h)]

/-- A whole request with status 0 passes the checks of its receiver. -/
theorem receiverCheck_request {k : Nat} {known : Nat → Bool} {m : Msg} (hst : m.status = 0) (hk : known m.cls = true)
    (hl : m.payload.length = m.len) (s : State) : receiverCheck k known m s = none := by
  unfold receiverCheck
  rw [if_neg (by simp [hst, E.UNTERMINATED]), if_neg (by simp [hst]), if_neg (by simp [hk, hl])]

theorem schService_request {s : State} {m : Msg} (hr : schedRuns s = true) (hm : sinkMsg (.svcDown 0) s = some m)
    (hst : m.status = 0) (hk : requestClass m.cls = true) (hl : m.payload.length = m.len) :
    schService s = schRemote m (dropMsg (.svcDown 0) s) := by
  have hcls : ¬(m.cls = 0x02 ∨ m.cls = 0x05) := by rintro (h | h) <;> simp [h, requestClass] at hk
  rw [schService, if_neg (by simp [hr])]
  simp only [postLoop_of_sinkMsg hm, takeMsg_of_sinkMsg hm, hm, if_neg hcls, receiverCheck_request hst hk hl]

/-- A payload of data words is not refused for its words. -/
theorem wordsFail_take {ws : List TWord} (h : wordsFail ws = none) (n : Nat) : wordsFail (ws.take n) = none := by
  simp only [wordsFail, Option.map_eq_none_iff, List.find?_eq_none] at h ⊢
  exact fun w hw => h w (List.mem_of_mem_take hw)

/-- A request for the argument memory whose words and address are good, by its class. -/
theorem schRemote_data {m : Msg} {w : TWord} {body : List TWord} (hp : m.payload = w :: body)
    (hw : wordsFail m.payload = none) (ha : fld 29 0 w.data % 4 = 0) (s : State) :
    schRemote m s =
      (let a := fld 29 0 w.data
       let cnt := fld 8 0 (body.headD nullWord).data
       let n := body.length
       let refuse := svcReply 0 m [] E.PERM_FAULT s
       if m.cls = 0x20 then
         if cnt = 0 ∨ 256 < cnt ∨ n ≠ 1 ∨ 16384 < a / 4 + cnt then refuse
         else svcReply 0 m ((List.range cnt).map fun k => argWord (a / 4 + k) s) 0 s
       else if n = 0 ∨ 256 < n then refuse
       else if a < 0x10000 then
         if 16384 < a / 4 + n then refuse else svcReply 0 m [] 0 (setArgs (a / 4) body s)
       else if a < 0x10100 then
         if 64 < (a - 0x10000) / 4 + n then refuse else svcReply 0 m [] 0 s
       else refuse) := by
  have haddr : addrWord m = fld 29 0 w.data := by simp [addrWord, hp]
  have hwords : wordsFail (if m.cls = 0x20 ∨ 0x10000 ≤ addrWord m then m.payload else m.payload.take 1) = none := by
    split
    · exact hw
    · exact wordsFail_take hw 1
  unfold schRemote
  dsimp only
  rw [hwords]
  simp only [haddr, hp, List.tail_cons]
  rw [if_neg (by simp [ha])]

theorem fld_eight {v : Word} (h : v.toNat ≤ 256) : fld 8 0 v = v.toNat := by
  simp only [fld]
  omega

/-- Settles O25: reads and writes of argument memory, and the refused read beyond it. -/
theorem schedulerServiceAnswersRequests : Obligations.SchedulerServiceAnswersRequests := by
  intro s m w body t a hr hm hst hp hl hw ha
  have serve (hk : requestClass m.cls = true) :=
    congrArg (Host.Outcome.next (ρ := Refusal) (φ := Fault))
      ((schService_request hr hm hst hk hl).trans (schRemote_data hp hw ha t))
  refine ⟨fun n hc hb h1 h2 h3 => ?_, fun hc hb h1 h2 => ?_, fun hc hbig => ?_⟩
  · refine (serve (by simp [hc, requestClass])).trans (congrArg Host.Outcome.next ?_)
    have hcnt : fld 8 0 (body.headD nullWord).data = n.data.toNat := by simp [hb, fld_eight h2]
    dsimp only
    rw [if_pos hc, hcnt, if_neg (by simp [hb]; omega)]
  · refine (serve (by simp [hc, requestClass])).trans (congrArg Host.Outcome.next ?_)
    have hlen : body.length ≠ 0 := by simpa using hb
    dsimp only
    rw [if_neg (by simp [hc]), if_neg (by omega), if_pos (by omega), if_neg (by omega)]
  · refine (serve (by simp [hc, requestClass])).trans (congrArg Host.Outcome.next ?_)
    dsimp only
    rw [if_pos hc, if_pos (by omega)]

end Sys2Proof.Machine

/-! PROOFS. O26: dispatch, drains, absent engines and limits. -/

namespace Sys2Proof.Machine

open Sys2Proof

theorem mem_insertKey {key : Nat × Ctx → Nat} {x y : Nat × Ctx} {l : List (Nat × Ctx)} (h : y ∈ insertKey key x l) :
    y = x ∨ y ∈ l := by
  induction l with
  | nil => exact Or.inl (List.mem_singleton.mp h)
  | cons z r ih =>
    rw [insertKey] at h
    split at h
    · exact List.mem_cons.mp h
    · rcases List.mem_cons.mp h with rfl | h
      · exact Or.inr List.mem_cons_self
      · exact (ih h).imp_right (List.mem_cons_of_mem z)

theorem pairwise_insertKey {key : Nat × Ctx → Nat} (x : Nat × Ctx) {l : List (Nat × Ctx)}
    (hl : l.Pairwise fun a b => key a ≤ key b) : (insertKey key x l).Pairwise fun a b => key a ≤ key b := by
  induction l with
  | nil => exact List.pairwise_singleton ..
  | cons z r ih =>
    obtain ⟨hz, hr⟩ := List.pairwise_cons.mp hl
    rw [insertKey]
    split
    case isTrue hle =>
      refine List.pairwise_cons.mpr ⟨fun y hy => ?_, hl⟩
      rcases List.mem_cons.mp hy with rfl | hy
      · exact hle
      · exact le_trans hle (hz y hy)
    case isFalse hgt =>
      refine List.pairwise_cons.mpr ⟨fun y hy => ?_, ih hr⟩
      rcases mem_insertKey hy with rfl | hy
      · exact Nat.le_of_not_le hgt
      · exact hz y hy

/-- The ready list stands in the order of its keys. -/
theorem readyList_pairwise (s : State) : (readyList s).Pairwise fun a b => listKey s a ≤ listKey s b := by
  have key (xs l : List (Nat × Ctx)) (hl : l.Pairwise fun a b => listKey s a ≤ listKey s b) :
      (xs.foldl (fun l x => insertKey (listKey s) x l) l).Pairwise fun a b => listKey s a ≤ listKey s b := by
    induction xs generalizing l with
    | nil => exact hl
    | cons x xs ih => exact ih _ (pairwise_insertKey x hl)
  exact key _ [] List.Pairwise.nil

/-- The priority is the key's first part. -/
theorem prio_le_of_listKey {s : State} {x y : Nat × Ctx} (h : listKey s y ≤ listKey s x) : y.2.prio ≤ x.2.prio := by
  unfold listKey at h
  dsimp only at h
  have hx := Nat.mod_lt (x.1 + 4095 - tget 4095 s.sched.rrLast x.2.prio) (show 0 < 4096 by decide)
  omega

theorem prio_head_le {s : State} {x y : Nat × Ctx} (hx : x ∈ readyList s) (hy : y ∈ (readyList s).head?) :
    y.2.prio ≤ x.2.prio := by
  have hsort := readyList_pairwise s
  cases hl : readyList s with
  | nil => simp [hl] at hx
  | cons z r =>
    rw [hl] at hx hy hsort
    obtain rfl : z = y := by simpa using hy
    rcases List.mem_cons.mp hx with rfl | hx
    · exact le_rfl
    · exact prio_le_of_listKey ((List.pairwise_cons.mp hsort).1 x hx)

/-- With no command waiting, DISPATCH_DECISION closes the cycle behind its dispatch stage. -/
theorem exec_dispatchDecision {s : State} (hr : schedRuns s = true) (hc : s.sched.cmd = none) :
    exec .dispatchDecision s = .next (closeCycle (dispatchStage s)) := by
  refine congrArg Host.Outcome.next ?_
  rw [if_pos hr, startCommand_of_none hc]
  rfl

theorem dispatchStage_decides {s : State} (hi : outputIdle s = true)
    (hv : (s.sched.heldRegions.findSome? fun r => drainVictim r s) = none) (ht : takesWork P.SCH0 s = true) :
    dispatchStage s = decide_ (readyList s) s := by
  unfold dispatchStage
  rw [if_neg (by simp [hi]), hv]
  exact if_pos ht

theorem dispatchStage_suspends {s : State} {v : Nat} (hi : outputIdle s = true)
    (hv : (s.sched.heldRegions.findSome? fun r => drainVictim r s) = some v) : dispatchStage s = suspendTask v s := by
  unfold dispatchStage
  rw [if_neg (by simp [hi]), hv]

theorem ctx_queueStall (j : Nat) (s : State) : ctx j (queueStall s) = ctx j s := by
  unfold queueStall
  split
  · rfl
  · exact (ctx_count j ..).symm ▸ rfl

theorem ctx_passAbsence (j : Nat) (s : State) : ctx j (passAbsence s) = ctx j s := by
  unfold passAbsence
  split
  · rfl
  · next time info rest _ =>
    obtain ⟨tr, n, h⟩ := traced_record time info (setSched { s.sched with absTrace := rest } s)
    exact ctx_of_sched (by rw [h]; rfl) j

/-- The end of a cycle with no command waiting changes no context. -/
theorem ctx_closeCycle {s : State} (h : s.sched.cmd = none) (j : Nat) : ctx j (closeCycle s) = ctx j s := by
  let u := passAbsence (if heldBack s then queueStall s else s)
  have hu : cmdWalk u = cmdWalk s := by
    simp only [u, cmdWalk_passAbsence]
    split <;> simp
  have hend : closeCycle s = setCyc SchedCycle.blank u :=
    startCommand_of_none (s := setCyc SchedCycle.blank u) ((congrArg Prod.fst hu).trans h)
  rw [hend]
  change ctx j u = _
  simp only [u, ctx_passAbsence]
  split
  · exact ctx_queueStall j s
  · rfl

theorem sched_send (c : ChanId) (ws : List TWord) (s : State) : (send c ws s).sched = s.sched := by
  have h := (sameBut_send (ps := [.regs, .net]) (by decide) s c ws s).2 (sameBut_refl _ s)
  exact h .sched (by decide)

/-- A suspended task is SUSPENDING, counted once more. -/
theorem ctx_suspendTask (v : Nat) (s : State) : ctx v (suspendTask v s) =
    { ctx v s with state := .suspending, preempts := sat16 (ctx v s).preempts 1, suspendHit := false } := by
  rw [suspendTask]
  dsimp only
  rw [ctx_of_sched (congrArg Sched.ctx (sched_send ..)), ctx_trace, ctx_count, ctx_setCtx_same]

theorem cmd_suspendTask (v : Nat) (s : State) : (suspendTask v s).sched.cmd = s.sched.cmd := by
  obtain ⟨tr, n, h⟩ := sched_trace 0x2 v (ctx v s).slot (count P.SCH0 R.SCH0_PREEMPTS
    (setCtx v { ctx v s with state := .suspending, preempts := sat16 (ctx v s).preempts 1, suspendHit := false } s))
  rw [suspendTask, sched_send, h]
  simp [setCtx]

/-- Settles O26: dispatch by the ready list, drains, absent engines and the run and suspend limits. -/
theorem dispatchAndEngineLimits : Obligations.DispatchAndEngineLimits := by
  refine ⟨fun s hr hc => ?_, fun s => ⟨fun r m at_ hd ha hm hh => ?_, fun r hh hp hctx => ?_, fun e hr he => ?_,
    fun e t c code hr he ht hcomp => ?_, fun t hr hst hhit hl => ?_, fun t hr hst hhit hl => ?_⟩⟩
  · intro victim
    have stage {u : State} (h : dispatchStage s = u) : exec .dispatchDecision s = .next (closeCycle u) :=
      h ▸ exec_dispatchDecision hr hc
    refine ⟨fun hi hv ht => ?_, fun v hi hv => ?_, fun hi => ?_, fun r v hi hv => ?_⟩
    · have hlist := dispatchStage_decides hi hv ht
      refine ⟨stage hlist, fun x hx y hy => prio_head_le hx hy, fun j c l k hl hheld habs hk => stage ?_,
        fun j c l code hl hheld habs => stage ?_⟩
      · rw [hlist, hl, decide_]
        simp [hheld, habs, hk]
      · rw [hlist, hl, decide_]
        simp [hheld, habs]
    · exact stage (dispatchStage_suspends hi hv)
    · exact stage (if_pos (by simp [hi]))
    · refine ⟨closeCycle (suspendTask v s), congrArg Host.Outcome.next ?_, ?_⟩
      · rw [drainSuspend, if_neg (by simp [hr, hi]), hv]
      · rw [ctx_closeCycle ((cmd_suspendTask v s).trans hc), ctx_suspendTask]
  · refine congrArg Host.Outcome.next ?_
    unfold drainNotice
    dsimp only
    rw [ha]
    exact if_neg (by simp [hd, hm]; simpa using hh)
  · refine congrArg Host.Outcome.next ?_
    unfold drainedReport
    dsimp only
    have hbusy : (s.sched.ctx.any fun x => x.2.onEngine && schedPort x.2.engine s / 8 == r.val) = false := by
      simpa using fun a b hx hon => hctx (a, b) hx hon
    exact if_neg (by rw [hh, hp, hbusy]; decide)
  · refine congrArg Host.Outcome.next ?_
    rw [if_pos hr, engineGone, he]
  · refine ⟨engineGone e.val s, congrArg Host.Outcome.next (if_pos hr), ?_⟩
    unfold engineGone
    rw [he]
    dsimp only
    rw [ht]
    simp only [List.foldl_cons, List.foldl_nil, hcomp, Bool.false_and, Bool.false_eq_true, if_false]
    have hset (j : Nat) (l : List (Word × Word)) (u : State) :
        ctx j (setSched { u.sched with absTrace := l } u) = ctx j u := rfl
    exact ⟨(hset t _ _).trans (by simp), fun j hj => (hset j _ _).trans (by simp [ctx_setCtx_other hj])⟩
  · refine congrArg Host.Outcome.next ?_
    rw [if_pos hr]
    exact if_neg (by simpa [hst, hhit] using hl)
  · refine congrArg Host.Outcome.next ?_
    rw [if_pos hr]
    exact if_neg (by simpa [hst, hhit] using hl)

end Sys2Proof.Machine

/-! PROOFS. O27: the trace spill and the memories of the scheduler. -/

namespace Sys2Proof.Machine

open Sys2Proof

/-- The spill's place in its range, where the pointer stands in it. -/
theorem spill_offset {base len next : Nat} (hb : base ≤ next) (hn : next < base + len) (h : next < 8192) :
    (if (next + 8192 - base) % 8192 < len then (next + 8192 - base) % 8192 else 0) = next - base := by
  have heq : (next + 8192 - base) % 8192 = next - base := by omega
  rw [heq, if_pos (by omega)]

/-- A spill sends the oldest entry and moves the pointer round its range. -/
theorem spillOne_sends {s : State} {base len next : Nat} (hb : rdf P.SCH3 R.SCH3_SPILL_RANGE 12 0 s = base)
    (hl : rdf P.SCH3 R.SCH3_SPILL_RANGE 29 16 s = len) (hn : rdf P.SCH3 R.SCH3_SPILL_WPTR 12 0 s = next)
    (hon : bit 1 (rd P.SCH3 R.SCH3_TRACE_CTL s) = true) (hu : s.sched.unspilled ≠ 0) (hlen : len ≠ 0) (hle : base ≤ next)
    (hlt : next < base + len) (hp : spillPending s = false) :
    spillOne s =
      (let bank := rdf P.SCH3 R.SCH3_SPILL_BANK 9 0 s
       let e := tget (0, 0) s.sched.trace ((rdf P.SCH3 R.SCH3_TRACE_WPTR 12 0 s + 8192 - s.sched.unspilled) % 8192)
       s |> setSched { s.sched with unspilled := s.sched.unspilled - 1 }
         |> spillWord 12 bank (next % 8192) (tw .sync e.1)
         |> spillWord 13 bank ((next + 1) % 8192) (tw .data e.2)
         |> wr P.SCH3 R.SCH3_SPILL_WPTR (W ((base + (next - base + 2) % len) % 8192))) := by
  have hw : next < 8192 := hn ▸ fld_lt 12 0 _
  have hcut : base + (next - base) = next := by omega
  rw [rdf] at hb hl
  unfold spillOne
  dsimp only
  rw [hb, hl, if_neg (by simp [hon, hu, hlen, hp]), hn, spill_offset hle hlt hw, hcut]

/-- A write of an engine map entry with no task on its engine. -/
theorem engineWrite_stores {e : Nat} {v : Word} {s : State} (he : e ≠ 255)
    (hidle : ∀ x ∈ s.sched.ctx, x.2.onEngine = true → x.2.engine ≠ e) :
    engineEntry e (engineWrite e v s) = v &&& W 0x80001DFF ∧
      (∀ k, k ≠ e → engineEntry k (engineWrite e v s) = engineEntry k s) ∧
      (engineWrite e v s).sched.ctx = s.sched.ctx ∧ (engineWrite e v s).banks = s.banks ∧
      (s.sched.cyc.time ≠ none → schedEntry e (engineWrite e v s) = schedEntry e s) := by
  have hnone : (s.sched.ctx.any fun x => x.2.onEngine && x.2.engine == e) = false := by
    simpa using fun a b hx hon => hidle (a, b) hx hon
  rw [engineWrite, if_neg he, if_neg (by simp [hnone])]
  refine ⟨tget_tput_same .., fun k hk => tget_tput_other 0 0 hk .., rfl, rfl, fun ht => ?_⟩
  have htime : s.sched.cyc.time.isNone = false := by simpa [Option.isNone_eq_false_iff, Option.isSome_iff_ne_none] using ht
  simp only [schedEntry, setSched, htime, Bool.false_or]
  cases hold : tfind s.sched.cyc.oldMap e with
  | some x => simp [hold]
  | none => simp [tfind_tins_same]

/-- Settles O27: the spill, the memory windows, the engine map and the context windows. -/
theorem schedulerMemoriesTraceAndContexts : Obligations.SchedulerMemoriesTraceAndContexts := by
  refine ⟨fun s hr => ?_, fun rq v s => ⟨fun hp => ?_, fun hp => ?_, fun hp e => ?_⟩, fun rq v s hp => ?_⟩
  · refine ⟨fun hon hu hlen hle hlt hsp => ?_, fun h => ?_⟩
    · refine congrArg Host.Outcome.next ((if_pos hr).trans ?_)
      exact spillOne_sends rfl rfl rfl hon hu hlen hle hlt hsp
    · refine congrArg Host.Outcome.next ((if_pos hr).trans ?_)
      rw [spillOne]
      exact if_pos (by rcases h with h | h | h <;> simp [h])
  · exact ⟨congrArg Host.Outcome.next (onPage_reaches hp ..), congrArg Host.Outcome.next (onPageRead_reaches hp ..),
      congrArg Host.Outcome.next (onPageRead_reaches hp ..)⟩
  · refine ⟨fun hv => congrArg Host.Outcome.next ((onPage_reaches hp ..).trans ?_),
      fun hv => congrArg Host.Outcome.next ((onPage_reaches hp ..).trans ?_),
      congrArg Host.Outcome.next (onPageRead_reaches hp ..)⟩
    · unfold bindAccess
      dsimp only
      rw [if_neg (by omega)]
    · unfold bindAccess
      dsimp only
      rw [if_pos hv]
  · refine ⟨fun he hidle => ⟨_, congrArg Host.Outcome.next (onPage_reaches hp ..), engineWrite_stores he hidle⟩,
      fun he hbusy => congrArg Host.Outcome.next ((onPage_reaches hp ..).trans ?_)⟩
    obtain ⟨x, hx, hon, hxe⟩ := hbusy
    rw [engineWrite, if_neg he, if_pos (List.any_eq_true.2 ⟨x, hx, by simp [hon, hxe]⟩)]
  · refine ⟨fun hst hok => congrArg Host.Outcome.next ((onPage_reaches hp ..).trans (if_neg ?_)),
      fun hbad => congrArg Host.Outcome.next ((onPage_reaches hp ..).trans (if_pos hbad)),
      congrArg Host.Outcome.next (onPage_reaches hp ..), congrArg Host.Outcome.next (onPage_reaches hp ..),
      congrArg Host.Outcome.next (onPage_reaches hp ..)⟩
    rintro (⟨h1, h2⟩ | h)
    · exact hst.elim h1 h2
    · simp [hok] at h

end Sys2Proof.Machine

/-! PROOFS. Which components further operations may change. -/

namespace Sys2Proof.Machine

open Sys2Proof

@[simp] theorem sameBut_dmaEvent {ps : List Part} (hps : covers ps [.regs, .sched, .dma] = true) (s₀ : State) (c : Nat) (w : Word) (s : State) :
    SameBut ps s₀ (dmaEvent c w s) ↔ SameBut ps s₀ s := by
  refine SameBut.iff (k := [.regs, .sched, .dma]) ?_ hps s₀
  simp (disch := decide) [dmaEvent]

@[simp] theorem sameBut_lastCode {ps : List Part} (hps : covers ps [.regs] = true) (s₀ : State) (c code : Nat) (s : State) :
    SameBut ps s₀ (lastCode c code s) ↔ SameBut ps s₀ s := by
  refine SameBut.iff (k := [.regs]) ?_ hps s₀
  simp (disch := decide) [lastCode]

@[simp] theorem sameBut_faultRecords {ps : List Part} (hps : covers ps [.regs, .io] = true) (s₀ : State) (c : Nat) (d : Desc) (code : Nat) (side chain phys : Bool) (addr next : Nat) (s : State) :
    SameBut ps s₀ (faultRecords c d code side chain phys addr next s) ↔ SameBut ps s₀ s := by
  refine SameBut.iff (k := [.regs, .io]) ?_ hps s₀
  simp (disch := decide) [faultRecords]

@[simp] theorem sameBut_undefineReg {ps : List Part} (hps : covers ps [.regs, .free] = true) (s₀ : State) (p off : Nat) (s : State) :
    SameBut ps s₀ (undefineReg p off s) ↔ SameBut ps s₀ s := by
  refine SameBut.iff (k := [.regs, .free]) ?_ hps s₀
  simp (disch := decide) [undefineReg]

@[simp] theorem sameBut_undefineWord {ps : List Part} (hps : covers ps [.regs, .words, .ports, .io, .free] = true) (s₀ : State) (k : Nat) (s : State) :
    SameBut ps s₀ (undefineWord k s) ↔ SameBut ps s₀ s := by
  refine SameBut.iff (k := [.regs, .words, .ports, .io, .free]) ?_ hps s₀
  simp (disch := decide) [undefineWord]

@[simp] theorem sameBut_blockEnded {ps : List Part} (hps : covers ps [.ports, .dma] = true) (s₀ : State) (m : Nat) (s : State) :
    SameBut ps s₀ (blockEnded m s) ↔ SameBut ps s₀ s := by
  refine SameBut.iff (k := [.ports, .dma]) ?_ hps s₀
  simp (disch := decide) [blockEnded]

@[simp] theorem sameBut_unserve {ps : List Part} (hps : covers ps [.ports, .dma] = true) (s₀ : State) (c : Nat) (s : State) :
    SameBut ps s₀ (unserve c s) ↔ SameBut ps s₀ s := by
  refine SameBut.iff (k := [.ports, .dma]) ?_ hps s₀
  unfold unserve
  split <;> simp (disch := decide)

@[simp] theorem sameBut_descFault {ps : List Part} (hps : covers ps [.regs, .words, .ports, .sched, .dma, .io, .free] = true) (s₀ : State) (c code : Nat) (side phys : Bool) (addr : Nat) (s : State) :
    SameBut ps s₀ (descFault c code side phys addr s) ↔ SameBut ps s₀ s := by
  refine SameBut.iff (k := [.regs, .words, .ports, .sched, .dma, .io, .free]) ?_ hps s₀
  unfold descFault
  split
  · exact sameBut_refl _ s
  · extract_lets d t₁ t₂ t₃
    have h₂ : SameBut [.regs, .words, .ports, .sched, .dma, .io, .free] s t₂ :=
      (sameBut_foldl_iff (fun t k => by simp (disch := decide)) s _ _).2 (by simp (disch := decide) [t₁])
    have h₃ : SameBut [.regs, .words, .ports, .sched, .dma, .io, .free] s t₃ :=
      (sameBut_foldl_iff (fun t k => by simp (disch := decide)) s _ _).2 h₂
    split
    · exact (sameBut_dmaEvent (by decide) ..).2 h₃
    · exact h₃

@[simp] theorem sameBut_beginDesc {ps : List Part} (hps : covers ps [.regs, .words, .ports, .sched, .dma, .io, .free] = true) (s₀ : State) (c : Nat) (d : Desc) (s : State) :
    SameBut ps s₀ (beginDesc c d s) ↔ SameBut ps s₀ s := by
  refine SameBut.iff (k := [.regs, .words, .ports, .sched, .dma, .io, .free]) ?_ hps s₀
  unfold beginDesc
  split <;> simp (disch := decide)

end Sys2Proof.Machine

/-! PROOFS. The channels of the DMA, and O28: descriptors enter their channels. -/

namespace Sys2Proof.Machine

open Sys2Proof

@[simp] theorem dchan_setDchan_same (c : Nat) (x : DmaChan) (s : State) : dchan c (setDchan c x s) = x :=
  tget_tput_same ..

theorem banks_setDchan (c : Nat) (x : DmaChan) (s : State) : (setDchan c x s).banks = s.banks := rfl

theorem dchan_of_dma {s t : State} (h : t.dma.chans = s.dma.chans) (c : Nat) : dchan c t = dchan c s := by
  simp only [dchan, h]

theorem servedBy_of_dma {s t : State} (h : t.dma.movers = s.dma.movers) (c : Nat) : servedBy c t = servedBy c s := by
  simp only [servedBy, mover, h]

theorem sameBut_of_faultRecords {c : Nat} {d : Desc} {code : Nat} {side chain phys : Bool} {addr next : Nat} {s : State} :
    SameBut [.regs, .io] s (faultRecords c d code side chain phys addr next s) :=
  (sameBut_faultRecords (by decide) s c d code side chain phys addr next s).2 (sameBut_refl _ s)

theorem dma_faultRecords {c : Nat} {d : Desc} {code : Nat} {side chain phys : Bool} {addr next : Nat} {s : State} :
    (faultRecords c d code side chain phys addr next s).dma = s.dma :=
  sameBut_of_faultRecords .dma (by decide)

theorem banks_faultRecords {c : Nat} {d : Desc} {code : Nat} {side chain phys : Bool} {addr next : Nat} {s : State} :
    (faultRecords c d code side chain phys addr next s).banks = s.banks :=
  sameBut_of_faultRecords.banks (by decide) (by decide)

/-- A channel that no mover serves has none to leave it. -/
theorem unserve_idle {c : Nat} {s : State} (h : servedBy c s = none) : unserve c s = s := by
  rw [unserve, h]

/-- A descriptor without an event that fails before it wrote anything halts its channel. -/
theorem descFault_fresh {c : Nat} {s : State} {cur : Cur} (hc : (dchan c s).cur = some cur) (hw : cur.written = [])
    (hr : cur.writtenRegs = []) (he : cur.desc.evt = false) (hs : servedBy c s = none) (code : Nat) (side phys : Bool)
    (addr : Nat) :
    dchan c (descFault c code side phys addr s) = { dchan c s with cur := none, halted := true, ended := true } ∧
      (descFault c code side phys addr s).banks = s.banks := by
  unfold descFault
  rw [hc]
  dsimp only
  generalize hu : faultRecords c cur.desc code side false phys addr _ s = u
  have hdma : u.dma = s.dma := hu ▸ dma_faultRecords
  have hbanks : u.banks = s.banks := hu ▸ banks_faultRecords
  have hserved : servedBy c u = none := (servedBy_of_dma (congrArg Dma.movers hdma) c).trans hs
  rw [hw, hr, if_neg (by simp [he]), List.foldl_nil, List.foldl_nil, unserve_idle hserved, mdDchan, dchan_setDchan_same,
    dchan_of_dma (congrArg Dma.chans hdma)]
  exact ⟨rfl, (banks_setDchan ..).trans hbanks⟩

/-- A whole descriptor message is admitted, held or refused by its channel. -/
theorem dmaDescMsg_whole {m : Msg} {s : State} (hr : dmaRuns s = true) (hm : sinkMsg (.svcDown 1) s = some m)
    (hc : m.cls = 0x10) (hst : m.status = 0) (hl : m.len = 8) (hp : m.payload.length = 8) :
    dmaDescMsg s = descEnters m s := by
  have hdesc : descMsg s = some m := by simp [descMsg, hm, hc]
  rw [dmaDescMsg, if_neg (by simp [hr]), hdesc]
  dsimp only
  rw [receiverCheck_request hst (by simp [hc]) (hp.trans hl.symm)]
  exact if_neg (by simp [hl])

/-- Settles O28: descriptors by register, by message, and their start. -/
theorem descriptorsEnterTheirChannels : Obligations.DescriptorsEnterTheirChannels := by
  intro ch s c x refused
  refine ⟨fun rq hr => ⟨fun he hen hq => ?_, fun he hno => ?_, fun he => ?_⟩,
    fun m hr hm hc hst hl hp hw hch => ?_, fun d rest hr hcur hh hw hchain hq => ?_⟩
  · refine congrArg Host.Outcome.next ((onPage_reaches hr ..).trans ?_)
    rw [submit, if_neg (by simp [he]), if_neg (by simpa [hen, c, x] using hq)]
    rfl
  · refine congrArg Host.Outcome.next ((onPage_reaches hr ..).trans ?_)
    rw [submit, if_neg (by simp [he]), if_pos (by simpa using hno)]
    rfl
  · refine congrArg Host.Outcome.next ((onPage_reaches hr ..).trans ?_)
    rw [submit, if_pos he]
    rfl
  · intro t d i hi
    have hexec : exec i s = .next (descEnters m s) := by
      rw [← dmaDescMsg_whole hr hm hc hst hl hp]
      rcases List.mem_pair.mp hi with rfl | rfl <;> rfl
    have henters : descEnters m s =
        if entering s then refused (err (P.DMA c) E.ENTRY_REFUSED 0 0 t)
        else if !dmaEnabled c s || !originAccepted c m.route s then refused t
        else if 8 ≤ x.queue.length then descWait c s
        else enqueue c d t := by
      unfold descEnters
      dsimp only
      rw [hw, hch]
      rfl
    rw [hexec, henters]
    refine ⟨fun he hen ho => ⟨fun hlen => ?_, fun hlen => ?_⟩, fun he hno => ?_, fun he => ?_⟩
    · rw [if_neg (by simp [he]), if_neg (by simp [hen, ho]), if_neg (by omega)]
      rfl
    · rw [if_neg (by simp [he]), if_neg (by simp [hen, ho]), if_pos hlen]
      rfl
    · rw [if_neg (by simp [he]), if_pos (by simpa using hno)]
    · rw [if_pos he]
  · have hstart : exec (.descriptorStart ch) s = .next (beginDesc c d (setDchan c { x with queue := rest } s)) := by
      refine congrArg Host.Outcome.next ?_
      unfold startNext
      dsimp only
      rw [if_neg (by simp [hr, c, x] at hcur hh hw hchain ⊢; simp [hcur, hh, hw, hchain]), hq]
    have hchan (y : Cur) : dchan c (mdDchan c (fun x => { x with cur := some y, ended := false })
        (setDchan c { x with queue := rest } s)) = { x with queue := rest, cur := some y, ended := false } := by
      simp [mdDchan]
    refine ⟨fun hbad => ⟨_, hstart, ?_⟩, fun e hbad hev hserv => ⟨_, hstart, ?_⟩⟩
    · unfold beginDesc
      dsimp only
      rw [hbad, hchan]
      exact ⟨rfl, hh, rfl, rfl, rfl⟩
    · unfold beginDesc
      dsimp only
      rw [hbad]
      have hchan' := hchan ⟨d, 0, 0, [], [], none, (0, 0), [], [], (0, 0, 0)⟩
      generalize hv : mdDchan c _ (setDchan c { x with queue := rest } s) = v at hchan' ⊢
      have hserved : servedBy c v = none := hv ▸ hserv
      have hbanks : v.banks = s.banks := hv ▸ rfl
      obtain ⟨hend, hkept⟩ := descFault_fresh (congrArg DmaChan.cur hchan') rfl rfl hev hserved E.PERM_FAULT e.1 false e.2
      dsimp only
      rw [hend, hkept, hchan']
      exact ⟨rfl, rfl, rfl, hbanks⟩

end Sys2Proof.Machine

/-! PROOFS. Which components further operations may change. -/

namespace Sys2Proof.Machine

open Sys2Proof

@[simp] theorem sameBut_chainFault {ps : List Part} (hps : covers ps [.regs, .sched, .dma, .io] = true) (s₀ : State) (c code p : Nat) (parent : Desc) (s : State) :
    SameBut ps s₀ (chainFault c code p parent s) ↔ SameBut ps s₀ s := by
  refine SameBut.iff (k := [.regs, .sched, .dma, .io]) ?_ hps s₀
  simp (disch := decide) [chainFault]

@[simp] theorem sameBut_dmaReset {ps : List Part} (hps : covers ps [.dev, .regs, .ports, .dma] = true) (s₀ : State) (c : Nat) (s : State) :
    SameBut ps s₀ (dmaReset c s) ↔ SameBut ps s₀ s := by
  refine SameBut.iff (k := [.dev, .regs, .ports, .dma]) ?_ hps s₀
  unfold dmaReset
  split <;> simp (disch := decide)

end Sys2Proof.Machine

/-! PROOFS. Requests of engines at a bank port, and O29: events, chains and resets of a DMA channel. -/

namespace Sys2Proof.Machine

open Sys2Proof

/-- A request at a bank port changes banks, registers and what the host reads. -/
@[simp] theorem sameBut_viaPort {ps : List Part} (hps : covers ps [.regs, .words, .ports, .wpk, .io] = true) (s₀ : State)
    (e b w : Nat) (op : BankOp) (s : State) : SameBut ps s₀ (viaPort e b w op s).2 ↔ SameBut ps s₀ s := by
  refine SameBut.iff (k := [.regs, .words, .ports, .wpk, .io]) ?_ hps s₀
  have hset (x : SMap (Option (TWord × Nat))) (u : State) : SameBut [.regs, .words, .ports, .wpk, .io] u
      (setBanks { u.banks with engines := x } u) := fun p hp => by cases p <;> simp_all [agree]
  unfold viaPort
  extract_lets src t src'
  have ht : SameBut [.regs, .words, .ports, .wpk, .io] s t := by
    simp only [t]
    split
    · exact (sameBut_enterReq (by decide) s _ _ _).2 (hset _ s)
    · exact sameBut_refl _ s
  split
  · exact ht.trans (hset _ t)
  · exact ht

theorem queueStall_eq (s : State) : queueStall s =
    if s.sched.cyc.stalled then s
    else setCyc { s.sched.cyc with stalled := true } (count P.SCH2 R.SCH2_STALL_CYCLES s) := by
  have hc : (count P.SCH2 R.SCH2_STALL_CYCLES s).sched = s.sched := by simp
  unfold queueStall
  dsimp only
  rw [hc]

/-- A full chain read begins its descriptor. -/
theorem chainLoop_full {c p : Nat} {s : State} (h : (dchan c s).chainGot.length = 8) (n : Nat) (parent : Desc) :
    chainLoop (n + 1) c p parent s = beginDesc c ⟨(dchan c s).chainGot.map (·.data), parent.fromMessage, parent.task⟩
      (setDchan c { dchan c s with chain := none, chainGot := [] } s) := by
  rw [chainLoop]
  exact if_pos h

section
variable {c p : Nat} {s : State} (hlen : (dchan c s).chainGot.length < 8) (n : Nat) (parent : Desc)
include hlen

theorem chainLoop_waits (h : (viaPort (chainEngine c) (p / 8192) ((p + (dchan c s).chainGot.length) % 8192) .read s).1 = none) :
    chainLoop (n + 1) c p parent s =
      (viaPort (chainEngine c) (p / 8192) ((p + (dchan c s).chainGot.length) % 8192) .read s).2 := by
  rw [chainLoop, if_neg (by omega)]
  split
  · next heq => rw [heq]
  · next heq => simp [heq] at h

theorem chainLoop_fails {y : TWord × Nat} {code : Nat}
    (h : (viaPort (chainEngine c) (p / 8192) ((p + (dchan c s).chainGot.length) % 8192) .read s).1 = some y)
    (hstop : wordStops y.1 = some code) : chainLoop (n + 1) c p parent s = chainFault c code p parent
      (viaPort (chainEngine c) (p / 8192) ((p + (dchan c s).chainGot.length) % 8192) .read s).2 := by
  rw [chainLoop, if_neg (by omega)]
  split
  · next heq => simp [heq] at h
  · next x _ t heq =>
    obtain rfl : y = _ := (by simpa [heq] using h.symm)
    rw [heq]
    dsimp only at hstop
    rw [hstop]

end

@[simp] theorem rd_setCyc (q o : Nat) (x : SchedCycle) (s : State) : rd q o (setCyc x s) = rd q o s := rfl

@[simp] theorem rd_setDchan (q o c : Nat) (x : DmaChan) (s : State) : rd q o (setDchan c x s) = rd q o s := rfl

/-- A completion event leaves every register outside page SCH2. -/
theorem rd_dmaEvent_other {q o : Nat} (hq : q ≠ P.SCH2) (ho : o < 4096) (c : Nat) (w : Word) (s : State) :
    rd q o (dmaEvent c w s) = rd q o s := by
  unfold dmaEvent
  split
  · rw [queueStall_eq, mdDchan]
    split
    · rw [rd_setDchan]
    · rw [rd_setCyc, count, rd_countN_other (rkey_page hq ho (by decide)), rd_setDchan]
  · rw [pushEvent]
    rw [rd_md_other (rkey_page hq ho (by decide))]
    rfl

/-- It may leave its word to wait in the channel, of which nothing else changes. -/
theorem dchan_dmaEvent (c : Nat) (w : Word) (s : State) :
    ∃ e, dchan c (dmaEvent c w s) = { dchan c s with waitEvt := e } := by
  unfold dmaEvent
  split
  · refine ⟨some w, ?_⟩
    have hstall (u : State) : dchan c (queueStall u) = dchan c u := by
      rw [queueStall_eq]
      split
      · rfl
      · exact dchan_of_dma (by simp [setCyc]) c
    rw [hstall, mdDchan, dchan_setDchan_same]
  · exact ⟨(dchan c s).waitEvt, dchan_of_dma (by simp [pushEvent, setQueue]) c⟩

/-- The fault records name the next descriptor. -/
theorem rd_faultRecords_next {c : Nat} (hc : c < 32) (d : Desc) (code : Nat) (side chain phys : Bool) (addr next : Nat)
    (s : State) : rd (P.DMA c) R.DMA_FAULT_NEXT (faultRecords c d code side chain phys addr next s) = W next := by
  have hp : NoPba (P.DMA c) R.DMA_FAULT_NEXT := noPba_page (by simp only [P.DMA, P.PCIE]; omega) (by decide)
  rw [faultRecords]
  rw [rd_irq_off hp (rkey_off (by decide)), lastCode, rd_wrf_other (rkey_off (by decide)), rd_err_own hp (by decide),
    rd_wr_other (rkey_off (by decide)), rd_wr_same]

/-- A failing chain read halts its channel and names the address of its descriptor. -/
theorem chainFault_halts {c : Nat} (hc : c < 32) (code p : Nat) (parent : Desc) (s : State) :
    (dchan c (chainFault c code p parent s)).halted = true ∧
      (dchan c (chainFault c code p parent s)).cur = (dchan c s).cur ∧
      rd (P.DMA c) R.DMA_FAULT_NEXT (chainFault c code p parent s) = W (2 ^ 31 + p) := by
  unfold chainFault
  dsimp only
  generalize hu : faultRecords c parent code false true true _ _ s = u
  have hdma : dchan c u = dchan c s := dchan_of_dma (congrArg Dma.chans (hu ▸ dma_faultRecords)) c
  have hnext : rd (P.DMA c) R.DMA_FAULT_NEXT u = W (2 ^ 31 + p) := hu ▸ rd_faultRecords_next hc ..
  split
  · generalize W _ = w
    obtain ⟨e, he⟩ := dchan_dmaEvent c w
      (mdDchan c (fun y => { y with halted := true, ended := true, chain := none, chainGot := [] }) u)
    rw [he, rd_dmaEvent_other (by simp only [P.DMA, P.SCH2]; omega) (by decide), mdDchan, dchan_setDchan_same, hdma,
      rd_setDchan, hnext]
    exact ⟨rfl, rfl, rfl⟩
  · rw [mdDchan, dchan_setDchan_same, hdma, rd_setDchan, hnext]
    exact ⟨rfl, rfl, rfl⟩

/-- Settles O29: events at queue 17, chain reads, and the resets of a channel. -/
theorem dmaEventsChainsAndChannelResets : Obligations.DmaEventsChainsAndChannelResets := by
  intro ch s c x
  refine ⟨fun w hr hw => ⟨fun hq => ?_, fun hq => ?_⟩, fun p parent hr hchain hh hcur hwait => ?_, fun rq hr =>
    ⟨congrArg Host.Outcome.next (onPage_reaches hr ..), congrArg Host.Outcome.next (onPage_reaches hr ..),
      fun hcur => ?_, fun cur hcur => ?_⟩⟩
  · refine congrArg Host.Outcome.next ((if_pos hr).trans ?_)
    rw [eventPost, hw]
    exact if_neg (by simp [hq])
  · refine congrArg Host.Outcome.next ((if_pos hr).trans ?_)
    rw [eventPost, hw, ← queueStall_eq]
    exact if_pos hq
  · intro r
    have hread : exec (.chainRead ch) s = .next (chainLoop 9 c p parent s) := by
      refine congrArg Host.Outcome.next ?_
      unfold chainRead
      dsimp only
      rw [hchain]
      exact if_neg (by rw [hr, hh, hcur, hwait]; decide)
    refine ⟨fun hlen => hread.trans (congrArg Host.Outcome.next (chainLoop_full hlen ..)),
      fun hlen hn => hread.trans (congrArg Host.Outcome.next (chainLoop_waits hlen _ _ hn)), fun y code hlen hy hstop => ?_⟩
    obtain ⟨hhalt, hend, hnext⟩ := chainFault_halts ch.isLt code p parent r.2
    have hdma : r.2.dma = s.dma := (sameBut_viaPort (ps := [.regs, .words, .ports, .wpk, .io]) (by decide) s _ _ _ _ s).2
      (sameBut_refl _ s) .dma (by decide)
    exact ⟨_, hread.trans (congrArg Host.Outcome.next (chainLoop_fails hlen _ _ hy hstop)), hhalt,
      hend.trans ((congrArg DmaChan.cur (dchan_of_dma (congrArg Dma.chans hdma) c)).trans hcur), hnext⟩
  · refine congrArg Host.Outcome.next ((onPage_reaches hr ..).trans ?_)
    unfold dmaReset
    dsimp only
    rw [hcur]
  · have hreset : dmaReset c s = wr (P.DMA c) R.DMA_FAULT_INFO (W (E.ABSENT_TARGET * 2 ^ 24 + cur.desc.id))
        (clearStatus (P.DMA c) (fun _ => false) (setDchan c DmaChan.idle (dropEngine (16 + c) (unserve c s)))) := by
      unfold dmaReset
      dsimp only
      rw [hcur]
    have hwords : (dmaReset c s).banks.words = s.banks.words :=
      (sameBut_dmaReset (ps := [.dev, .regs, .ports, .dma]) (by decide) s c s).2 (sameBut_refl _ s) .words (by decide)
    refine ⟨_, congrArg Host.Outcome.next (onPage_reaches hr ..), ?_, ?_, hwords⟩
    · rw [hreset]
      generalize W _ = v
      generalize dropEngine (16 + c) (unserve c s) = u
      have hdma : (clearStatus (P.DMA c) (fun _ => false) (setDchan c DmaChan.idle u)).dma = (setDchan c DmaChan.idle u).dma :=
        (sameBut_clearStatus (ps := [.dev, .regs]) (by decide) _ _ _ _).2 (sameBut_refl _ _) .dma (by decide)
      exact (dchan_of_dma (congrArg Dma.chans ((wr_dma ..).trans hdma)) c).trans (dchan_setDchan_same ..)
    · rw [hreset, rd_wr_same]

end Sys2Proof.Machine

/-! PROOFS. O30: page walks, invalidations and host-initiated remote access. -/

namespace Sys2Proof.Machine

open Sys2Proof

/-- A valid level 2 entry with its leaf bit is a leaf of a small page. -/
theorem walkEntry_leaf {k : PtWalk} {x : TWord} (hl : k.level = 2) (ht : x.tag = .data) (hv : bit 31 x.data = true)
    (hb : bit 30 x.data = true) :
    walkEntry k x = .leaf ⟨k.space, k.va / 2 ^ 12, false, bit 28 x.data, bit 29 x.data, fld 27 0 x.data⟩ := by
  unfold walkEntry
  simp [hl, ht, hv, hb]

/-- A walk whose request has been served goes on with the word of its bank. -/
theorem walkRead_served {m : Nat} {k : PtWalk} {s : State} {y : TWord × Nat} (hr : dmaRuns s = true)
    (hk : (mover m s).walk = some k)
    (hy : (viaPort (walkEngine m) (k.entry / 8192) (k.entry % 8192) .read s).1 = some y) : walkRead m s =
      walkWord m k y.1 (count P.MMU R.MMU_WALK_READS (viaPort (walkEngine m) (k.entry / 8192) (k.entry % 8192) .read s).2) := by
  unfold walkRead
  rw [hk]
  dsimp only
  rw [if_neg (by simp [hr])]
  split
  · next heq => simp [heq] at hy
  · next x _ t heq =>
    obtain rfl : y = _ := by simpa [heq] using hy.symm
    rw [heq]

theorem walkRead_waits {m : Nat} {k : PtWalk} {s : State} (hr : dmaRuns s = true) (hk : (mover m s).walk = some k)
    (hy : (viaPort (walkEngine m) (k.entry / 8192) (k.entry % 8192) .read s).1 = none) :
    walkRead m s = (viaPort (walkEngine m) (k.entry / 8192) (k.entry % 8192) .read s).2 := by
  unfold walkRead
  rw [hk]
  dsimp only
  rw [if_neg (by simp [hr])]
  split
  · next heq => rw [heq]
  · next heq => simp [heq] at hy

theorem cache_setCache_same (g : Nat) (l : List Tlb) (s : State) : cache g (setCache g l s) = l := tget_tput_same ..

theorem cache_setCache_other {g h : Nat} (hne : g ≠ h) (l : List Tlb) (s : State) :
    cache g (setCache h l s) = cache g s := tget_tput_other [] [] hne ..

/-- Dropping entries of every cache drops them in each. -/
theorem cache_filterAll (p : Tlb → Bool) (s : State) {g : Nat} (hg : g < 4) :
    cache g ((List.range 4).foldl (fun t g => setCache g ((cache g t).filter p) t) s) = (cache g s).filter p := by
  have key (l : List Nat) (hl : l.Nodup) (u : State) :
      cache g (l.foldl (fun t g => setCache g ((cache g t).filter p) t) u) =
        if g ∈ l then (cache g u).filter p else cache g u := by
    induction l generalizing u with
    | nil => simp
    | cons h l ih =>
      obtain ⟨hnot, hnodup⟩ := List.nodup_cons.mp hl
      rw [List.foldl_cons, ih hnodup]
      by_cases heq : g = h
      · subst heq
        rw [if_neg hnot, if_pos List.mem_cons_self, cache_setCache_same]
      · simp only [cache_setCache_other heq, List.mem_cons, heq, false_or]
  rw [key _ List.nodup_range, if_pos (List.mem_range.2 hg)]

theorem dma_mdMovers_caches (f : Mover → Mover) (l : List Nat) (s : State) :
    (l.foldl (fun t m => mdMover m f t) s).dma.caches = s.dma.caches := by
  induction l generalizing s with
  | nil => rfl
  | cons m l ih => exact (ih _).trans rfl

/-- An invalidation drops its entries, starts its wait and sets BUSY. -/
theorem invalidate_drops (gone : Tlb → Bool) (s : State) :
    (∀ g, g < 4 → cache g (invalidate gone s) = (cache g s).filter fun e => !gone e) ∧
      bit 0 (rd P.MMU R.MMU_INVAL_STAT (invalidate gone s)) = true ∧
      (invalidate gone s).dma.invalWait = (List.range 4).filter fun m => (mover m s).serving.isSome := by
  unfold invalidate
  extract_lets busy t₁ t₂ src
  refine ⟨fun g hg => ?_, ?_, by simp [busy]⟩
  · rw [← cache_filterAll _ s hg]
    have h : t₂.dma.caches = t₁.dma.caches := dma_mdMovers_caches ..
    change tget [] t₂.dma.caches g = _
    rw [h]
    rfl
  · rw [rd_md_same, bit_setBit_same (by decide)]

/-- It writes no other register. -/
theorem rd_invalidate_other {o : Nat} (h : rkey P.MMU o ≠ rkey P.MMU R.MMU_INVAL_STAT) (gone : Tlb → Bool) (s : State) :
    rd P.MMU o (invalidate gone s) = rd P.MMU o s := by
  unfold invalidate
  extract_lets busy t₁ t₂ src
  have h₁ : SameBut [.dma] s t₁ := sameBut_foldl (fun t g => by simp (disch := decide) [setCache]) _ s
  have h₂ : SameBut [.dma] s t₂ := (sameBut_foldl_iff (fun t m => by simp (disch := decide)) s _ t₁).2 h₁
  rw [rd_md_other h]
  exact rd_of_regs (h₂ .regs (by decide)) ..

/-- Commands of the MMU while no invalidation runs, and while one does. -/
theorem invalCmd_idle {rq : Requester} {s : State} (hr : Reaches rq P.MMU s)
    (hi : bit 0 (rd P.MMU R.MMU_INVAL_STAT s) = false) (off : Nat) (f : State → State) : invalCmd rq off f s = f s :=
  (onPage_reaches hr ..).trans (if_neg (by simp [invalBusy, hi]))

theorem invalCmd_busy {rq : Requester} {s : State} (hr : Reaches rq P.MMU s)
    (hi : bit 0 (rd P.MMU R.MMU_INVAL_STAT s) = true) (off : Nat) (f : State → State) :
    invalCmd rq off f s = permFault P.MMU off s :=
  (onPage_reaches hr ..).trans (if_pos hi)

/-- A space's configuration is stored, and the space's translations are dropped. -/
theorem spaceWrite_config {n : Nat} {v : Word} (hv : fld 1 0 v ≠ 3) (hn : n < 16) (s : State) :
    spaceCfg n (spaceWrite n false v s) = v &&& W 0x1F ∧ spaceRoot n (spaceWrite n false v s) = spaceRoot n s ∧
      ∀ g, g < 4 → cache g (spaceWrite n false v s) = (cache g s).filter fun e => e.space != n := by
  have hw : spaceWrite n false v s =
      invalidate (fun e => e.space == n) (wr P.MMU (R.MMU_SPACE_CFG + 8 * n) (v &&& W 0x1F) s) := by
    rw [spaceWrite, if_neg (by simp [hv])]
    rfl
  rw [hw]
  refine ⟨?_, ?_, (invalidate_drops ..).1⟩
  · rw [spaceCfg, rd_invalidate_other (rkey_off (by simp only [R.MMU_SPACE_CFG, R.MMU_INVAL_STAT]; omega)), rd_wr_same]
  · rw [spaceRoot, rd_invalidate_other (rkey_off (by simp only [R.MMU_SPACE_ROOT, R.MMU_INVAL_STAT]; omega)),
      rd_wr_other (rkey_off (by simp only [R.MMU_SPACE_ROOT, R.MMU_SPACE_CFG]; omega))]
    rfl

/-- The start of a host-initiated access. -/
theorem hraGo_takes {s : State} (ht : takesWork P.MMU s = true) (write : Bool) : hraGo write s =
    if bit 1 (rd P.MMU R.MMU_HRA_CTL s) then permFault P.MMU R.MMU_HRA_CTL s
    else setDma { s.dma with hra := some ((rd P.MMU R.MMU_HRA_ADDR_LO s).toNat +
        2 ^ 32 * rdf P.MMU R.MMU_HRA_ADDR_HI 7 0 s, write), hraRemote := false }
      (wr P.MMU R.MMU_HRA_CTL (setBit 0 write (setBit 1 true (rd P.MMU R.MMU_HRA_CTL s))) s) := by
  unfold hraGo
  dsimp only
  rw [if_neg (by simp [ht])]

/-- A bank address is its bank's word. -/
theorem physKind_bank {a : Nat} (h : 0x10000000 ≤ a) (h' : a < 0x12000000) : physKind a = .bank := by
  have hk := physKind_base none (o := a - 0x10000000) (by omega)
  rwa [show rangeBase none + (a - 0x10000000) = a from Nat.add_sub_cancel' h] at hk

theorem place_bank {a : Nat} (h : 0x10000000 ≤ a) (h' : a < 0x12000000) (s : State) :
    place a s = .bank ((a - 0x10000000) / 0x8000) ((a - 0x10000000) % 0x8000 / 4) := by
  unfold place
  rw [physKind_bank h h']
  dsimp only
  rw [bankPlace, bankRange, if_pos ⟨h, h'⟩]

/-- An access of an untranslated space to a bank goes to its own address. -/
theorem translate_bank {m g space a : Nat} {s : State} (hm : fld 1 0 (spaceCfg space s) = 1) (h : 0x10000000 ≤ a)
    (h' : a < 0x12000000) (write : Bool) : translate m g space a write s = (.ok a, s) := by
  have hres : resolve m g space a write s = (.ok a, s) := by
    simp only [resolve, hm]
  have hphys : physCheck space a write s = none := by
    unfold physCheck
    rw [physKind_bank h h']
  unfold translate
  rw [hres]
  dsimp only
  rw [hphys]

/-- A write through an engine's port to a bank word. -/
theorem writeVia_bank {a : Nat} (h : 0x10000000 ≤ a) (h' : a < 0x12000000) (e : Nat) (x : TWord) (s : State) :
    writeVia e a x s =
      ((viaPort e ((a - 0x10000000) / 0x8000) ((a - 0x10000000) % 0x8000 / 4) (.write x) s).1.map (·.2),
        (viaPort e ((a - 0x10000000) / 0x8000) ((a - 0x10000000) % 0x8000 / 4) (.write x) s).2) := by
  have hown : inOwnWindow a s = false := by
    unfold inOwnWindow
    rw [physKind_bank h h']
  unfold writeVia
  dsimp only
  rw [hown, place_bank h h', if_neg (by simp)]
  rfl

theorem hra_blockEnded (m : Nat) (s : State) : (blockEnded m s).dma.hra = s.dma.hra := by
  have hdrop (e : Nat) (u : State) : (dropEngine e u).dma = u.dma :=
    (sameBut_dropEngine (ps := [.ports]) (by decide) u e u).2 (sameBut_refl _ u) .dma (by decide)
  unfold blockEnded
  dsimp only
  change (dropEngine _ (dropEngine _ _)).dma.hra = _
  rw [hdrop, hdrop]
  rfl

/-- The end of a host-initiated access records its code, and the word it read. -/
theorem hraEnd_records {s : State} {va : Nat} {write : Bool} (h : s.dma.hra = some (va, write)) (code : Nat) (data : Word) :
    (hraEnd code data s).dma.hra = none ∧ (hraEnd code data s).banks.words = s.banks.words ∧
      rd P.MMU R.MMU_HRA_CTL (hraEnd code data s) = setFld 31 24 code (setFld 2 1 2 (rd P.MMU R.MMU_HRA_CTL s)) ∧
      (write = false → rd P.MMU R.MMU_HRA_DATA (hraEnd code data s) = data) := by
  have hp {o : Nat} (ho : o < 4096) : NoPba P.MMU o := noPba_page (by decide) ho
  have hirq {o : Nat} (ho : o < 4096) (hpend : o / 4 ≠ R.IRQ_PEND / 4) (v : State) :
      rd P.MMU o (irq P.MMU 0 v) = rd P.MMU o v := rd_irq_off (hp ho) (rkey_off hpend) ..
  unfold hraEnd
  rw [h]
  dsimp only
  generalize hv : blockEnded 4 (setDma _ s) = v
  have hsame : SameBut [.ports, .dma] s v :=
    hv ▸ (sameBut_blockEnded (by decide) s 4 (setDma _ s)).2 (by simp (disch := decide))
  have hra : v.dma.hra = none := hv ▸ hra_blockEnded ..
  have hwords : v.banks.words = s.banks.words := hsame .words (by decide)
  have hregs : v.regs = s.regs := hsame .regs (by decide)
  cases write
  · simp only [Bool.false_eq_true, if_false]
    refine ⟨by simp [hra], by simp [hwords], ?_, fun _ => ?_⟩
    · rw [hirq (by decide) (by decide), rd_wr_other (rkey_off (by decide)), rd_md_same, rd_of_regs hregs]
    · rw [hirq (by decide) (by decide), rd_wr_same]
  · simp only [if_true]
    refine ⟨by simp [hra], by simp [hwords], ?_, fun hf => absurd hf (by decide)⟩
    rw [hirq (by decide) (by decide), rd_md_same, rd_of_regs hregs]

section
variable {s : State} {a : Nat} {write : Bool} (hremote : s.dma.hraRemote = false) (hwalk : (mover 4 s).walk = none)
  (hmode : fld 1 0 (spaceCfg (rdf P.MMU R.MMU_HRA_CTL 19 16 s) s) = 1) (h : 0x10000000 ≤ a)
  (h' : a < 0x12000000)
include hremote hwalk hmode h h'

theorem hraWork_bank (hra : s.dma.hra = some (a, write)) : hraWork s = hraAt write a s := by
  unfold hraWork
  rw [hra]
  dsimp only
  rw [if_neg (by simp [hremote]), if_neg (by simp [hwalk]), translate_bank hmode h h']

theorem hraWork_write (ha : a % 4 = 0) (hra : s.dma.hra = some (a, true)) {r : Option (TWord × Nat) × State}
    (hr : viaPort 4 ((a - 0x10000000) / 0x8000) ((a - 0x10000000) % 0x8000 / 4)
      (.write (tw .data (rd P.MMU R.MMU_HRA_DATA s))) s = r) :
    (r.1 = none → hraWork s = r.2) ∧ ∀ y, r.1 = some y → hraWork s = hraEnd y.2 0 r.2 := by
  rw [hraWork_bank hremote hwalk hmode h h' hra]
  unfold hraAt
  dsimp only
  rw [if_neg (by simp [ha]), place_bank h h']
  dsimp only
  rw [if_pos rfl, writeVia_bank h h', hr]
  exact ⟨fun hn => by simp [hn], fun y hy => by simp [hy]⟩

theorem hraWork_read (ha : a % 4 = 0) (hra : s.dma.hra = some (a, false)) {r : Option (TWord × Nat) × State}
    (hr : viaPort 4 ((a - 0x10000000) / 0x8000) ((a - 0x10000000) % 0x8000 / 4) .read s = r) :
    (r.1 = none → hraWork s = r.2) ∧ ∀ y, r.1 = some y → hraWork s = hraGot y.1 r.2 := by
  rw [hraWork_bank hremote hwalk hmode h h' hra]
  unfold hraAt
  dsimp only
  rw [if_neg (by simp [ha]), place_bank h h']
  dsimp only
  rw [if_neg (by simp), readAt]
  dsimp only
  rw [hr]
  exact ⟨fun hn => by simp [hn], fun y hy => by simp [hy]⟩

end

/-- Settles O30: walks, invalidations and host-initiated access. -/
theorem translationAndHostAccess : Obligations.TranslationAndHostAccess := by
  refine ⟨fun s => ⟨fun q k hr hk => ?_, fun k x => walkEntry_leaf, fun rq n hr hi => ⟨?_, ?_, ?_, fun v hv => ?_, fun v hv => ?_⟩,
    fun rq hr hi => congrArg Host.Outcome.next (invalCmd_busy hr hi ..), fun hi hw => ?_⟩,
    fun s => ⟨fun rq hr ht => ⟨fun hb => ⟨?_, ?_⟩, fun hb => ⟨?_, ?_⟩⟩, fun a hr hremote hwalk ha hmode h h' => ?_⟩⟩
  · intro r t
    refine ⟨fun hn => congrArg Host.Outcome.next (walkRead_waits hr hk hn),
      fun y e hy he => congrArg Host.Outcome.next ((walkRead_served hr hk hy).trans ?_),
      fun y e hy he hst => congrArg Host.Outcome.next ((walkRead_served hr hk hy).trans ?_)⟩
    · rw [walkWord, he]
      rfl
    · rw [walkWord, he]
      exact if_pos hst
  · obtain ⟨hc, hb, hwait⟩ := invalidate_drops (fun _ => true) s
    exact ⟨_, congrArg Host.Outcome.next (invalCmd_idle hr hi ..), fun g hg => (hc g hg).trans (by simp), hb, hwait⟩
  · exact ⟨_, congrArg Host.Outcome.next (invalCmd_idle hr hi ..), (invalidate_drops ..).1⟩
  · exact ⟨_, congrArg Host.Outcome.next (invalCmd_idle hr hi ..), (invalidate_drops ..).1⟩
  · obtain ⟨hcfg, hroot, hcache⟩ := spaceWrite_config hv n.isLt s
    exact ⟨_, congrArg Host.Outcome.next (invalCmd_idle hr hi ..), hcfg, hroot, hcache⟩
  · exact congrArg Host.Outcome.next ((invalCmd_idle hr hi ..).trans (if_pos ⟨rfl, hv⟩))
  · refine congrArg Host.Outcome.next ?_
    exact if_neg (by simp [invalBusy, hi, hw])
  · exact congrArg Host.Outcome.next (((onPage_reaches hr ..).trans (hraGo_takes ht false)).trans (if_neg (Bool.eq_false_iff.mp hb)))
  · exact congrArg Host.Outcome.next (((onPage_reaches hr ..).trans (hraGo_takes ht true)).trans (if_neg (Bool.eq_false_iff.mp hb)))
  · exact congrArg Host.Outcome.next (((onPage_reaches hr ..).trans (hraGo_takes ht false)).trans (if_pos hb))
  · exact congrArg Host.Outcome.next (((onPage_reaches hr ..).trans (hraGo_takes ht true)).trans (if_pos hb))
  · intro b w rw_ rr
    have hdma (op : BankOp) : (viaPort 4 b w op s).2.dma = s.dma :=
      (sameBut_viaPort (ps := [.regs, .words, .ports, .wpk, .io]) (by decide) s 4 b w op s).2 (sameBut_refl _ s) .dma (by decide)
    refine ⟨fun hra => ?_, fun hra => ?_⟩
    · obtain ⟨hnone, hsome⟩ := hraWork_write hremote hwalk hmode h h' ha hra (r := rw_) rfl
      refine ⟨fun hn => congrArg Host.Outcome.next ((if_pos hr).trans (hnone hn)), fun y hy => ?_⟩
      obtain ⟨hend, hwords, hctl, -⟩ := hraEnd_records ((congrArg Dma.hra (hdma _)).trans hra) y.2 0
      refine ⟨_, congrArg Host.Outcome.next ((if_pos hr).trans (hsome y hy)), hend, hwords, ?_, ?_⟩
      · exact (congrArg (fld 31 24) hctl).trans (fld_setFld_same (by decide) ..)
      · rw [hctl, fld_setFld_other (by decide) (by decide), fld_setFld_same (by decide)]
        decide
    · obtain ⟨hnone, hsome⟩ := hraWork_read hremote hwalk hmode h h' ha hra (r := rr) rfl
      refine ⟨fun hn => congrArg Host.Outcome.next ((if_pos hr).trans (hnone hn)), fun y hy ht => ?_⟩
      obtain ⟨hend, -, hctl, hdata⟩ := hraEnd_records ((congrArg Dma.hra (hdma .read)).trans hra) E.NONE y.1.data
      have hgot : hraGot y.1 rr.2 = hraEnd E.NONE y.1.data rr.2 := by
        simp [hraGot, wordStops, ht]
      refine ⟨_, congrArg Host.Outcome.next ((if_pos hr).trans ((hsome y hy).trans hgot)), hend, hdata rfl, ?_⟩
      rw [hctl, fld_setFld_same (by decide)]
      rfl

end Sys2Proof.Machine

/-! PROOFS. O31: movers and their blocks. -/

namespace Sys2Proof.Machine

open Sys2Proof

theorem mover_setMover_same (m : Nat) (x : Mover) (s : State) : mover m (setMover m x s) = x := tget_tput_same ..

theorem dma_dropEngine (e : Nat) (s : State) : (dropEngine e s).dma = s.dma :=
  (sameBut_dropEngine (ps := [.ports]) (by decide) s e s).2 (sameBut_refl _ s) .dma (by decide)

/-- What the end of a block leaves of the DMA: its mover has no walk and no leaves of its own. -/
theorem blockEnded_parts (m : Nat) (s : State) : (blockEnded m s).dma.chans = s.dma.chans ∧
    mover m (blockEnded m s) = { mover m s with walk := none, own := [] } := by
  have hdma : (blockEnded m s).dma.movers = (mdMover m (fun x => { x with walk := none, own := [] }) s).dma.movers ∧
      (blockEnded m s).dma.chans = s.dma.chans := by
    unfold blockEnded
    dsimp only [setDma]
    rw [dma_dropEngine, dma_dropEngine]
    exact ⟨rfl, rfl⟩
  refine ⟨hdma.2, ?_⟩
  rw [mover, hdma.1]
  exact mover_setMover_same ..

/-- A mover that leaves its channel serves none. -/
theorem unserve_served {c m : Nat} {s : State} (h : servedBy c s = some m) :
    (mover m (unserve c s)).serving = none ∧ (unserve c s).dma.chans = s.dma.chans := by
  rw [unserve, h]
  obtain ⟨hc, hm⟩ := blockEnded_parts m (mdMover m (fun x => { x with serving := none }) s)
  exact ⟨by rw [hm, mdMover, mover_setMover_same], hc.trans rfl⟩

/-- The choice of a mover changes movers and counts. -/
theorem choose_keeps (m : Nat) (s : State) : (choose m s).dma.chans = s.dma.chans ∧
    (choose m s).banks = s.banks ∧
    ∀ q o, o < 4096 → o / 4 ≠ R.DMA_PREEMPTS / 4 → rd q o (choose m s) = rd q o s := by
  have hcount (l : List Nat) (u : State) :
      (l.foldl (fun t q => count (P.DMA q) R.DMA_PREEMPTS t) u).dma = u.dma ∧
      (l.foldl (fun t q => count (P.DMA q) R.DMA_PREEMPTS t) u).banks = u.banks ∧
      ∀ q o, o < 4096 → o / 4 ≠ R.DMA_PREEMPTS / 4 →
        rd q o (l.foldl (fun t q => count (P.DMA q) R.DMA_PREEMPTS t) u) = rd q o u := by
    induction l generalizing u with
    | nil => exact ⟨rfl, rfl, fun _ _ _ _ => rfl⟩
    | cons q l ih =>
      obtain ⟨hd, hb, hr⟩ := ih (count (P.DMA q) R.DMA_PREEMPTS u)
      exact ⟨hd.trans (by simp), hb.trans (by simp), fun p o ho hne => (hr p o ho hne).trans
        (rd_countN_other (rkey_offset ho (by decide) hne) ..)⟩
  unfold choose
  split
  · exact ⟨rfl, rfl, fun _ _ _ _ => rfl⟩
  · next c _ =>
    dsimp only
    obtain ⟨hd, hb, hr⟩ := hcount ((List.range 32).filter fun q => chanReady q s && decide (curPrio c s < curPrio q s))
      (mdMover m (fun x => { x with serving := some c, last := c }) s)
    exact ⟨(congrArg Dma.chans hd).trans rfl, hb.trans rfl, fun q o ho hne => (hr q o ho hne).trans rfl⟩

theorem words_unserve (c : Nat) (s : State) : (unserve c s).banks.words = s.banks.words :=
  (sameBut_unserve (ps := [.ports, .dma]) (by decide) s c s).2 (sameBut_refl _ s) .words (by decide)

theorem regs_unserve (c : Nat) (s : State) : (unserve c s).regs = s.regs :=
  (sameBut_unserve (ps := [.ports, .dma]) (by decide) s c s).2 (sameBut_refl _ s) .regs (by decide)

@[simp] theorem cur_mdCur {c : Nat} {s : State} {cur : Cur} (h : (dchan c s).cur = some cur) (f : Cur → Cur) :
    (dchan c (mdCur c f s)).cur = some (f cur) := by
  rw [mdCur, mdDchan, dchan_setDchan_same, h]
  rfl

theorem halted_mdCur (c : Nat) (f : Cur → Cur) (s : State) : (dchan c (mdCur c f s)).halted = (dchan c s).halted := by
  rw [mdCur, mdDchan, dchan_setDchan_same]

/-- A step that holds ends the mover's work on its channel. -/
theorem moveLoop_held {m c : Nat} {s t : State} (h : moveStep m c s = (.held, t)) (n : Nat) : moveLoop (n + 1) m c s = t := by
  rw [moveLoop, h]

theorem moveLoop_more {m c : Nat} {s t : State} (h : moveStep m c s = (.more, t)) (n : Nat) :
    moveLoop (n + 1) m c s = moveLoop n m c t := by
  rw [moveLoop, h]

/-- A mover whose steps leave it serving has done its work; one that serves no longer chooses its next channel. -/
theorem moverWork_serves {m c : Nat} {s t : State} (hs : (mover m s).serving = some c) (hl : moveLoop 200 m c s = t)
    (ht : (mover m t).serving = some c) : moverWork m s = t := by
  unfold moverWork
  rw [hs]
  dsimp only
  rw [hl, if_neg (by simp [ht])]

theorem moverWork_leaves {m c : Nat} {s t : State} (hs : (mover m s).serving = some c) (hl : moveLoop 200 m c s = t)
    (ht : (mover m t).serving = none) : moverWork m s = choose m t := by
  unfold moverWork
  rw [hs]
  dsimp only
  rw [hl, if_pos (by simp [ht])]

section
variable {m c : Nat} {s : State} {cur : Cur} (hcur : (dchan c s).cur = some cur) (hw : (mover m s).walk = none)
  (hr : cur.remote = none) (hg : cur.gather = [])
include hcur hw hr hg

/-- A full block ends. -/
theorem moveStep_ends (hb : cur.inBlock = blockLen cur) : moveStep m c s = (.held, endBlock c cur s) := by
  unfold moveStep
  rw [hcur]
  dsimp only
  rw [if_neg (by simp [hw, hr]), if_neg (by simp [hg]), if_pos hb]

/-- A word of a fill goes to its place of an untranslated bank. -/
theorem moveStep_fill {b w : Nat} (hb : cur.inBlock ≠ blockLen cur) (hf : cur.desc.fill = true)
    (hmode : fld 1 0 (spaceCfg (chanSpace c s) s) = 1) (hbb : b < 1024) (hww : w < 8192) (hd : dstVa cur = bankAddr b w) :
    moveStep m c s = putWord m c cur (bankAddr b w) (tw .data (cur.desc.w 6)) s := by
  have hx : xlateFor m c (bankAddr b w) true s = (some (bankAddr b w), s) := by
    unfold xlateFor
    rw [translate_bank hmode (by simp only [bankAddr]; omega) (by simp only [bankAddr]; omega)]
  unfold moveStep
  rw [hcur]
  dsimp only
  rw [if_neg (by simp [hw, hr]), if_neg (by simp [hg]), if_neg hb, if_pos hf, hd]
  dsimp only
  rw [hx]

end

/-- The write of a fill's word, by what its request at the port answers. -/
theorem putWord_fill {m c b w : Nat} {s : State} {cur : Cur} {v : Word} (hf : cur.desc.fill = true) (hb : b < 1024)
    (hw : w < 8192) {r : Option (TWord × Nat) × State} (hr : viaPort m b w (.write (tw .data v)) s = r) :
    (r.1 = none → putWord m c cur (bankAddr b w) (tw .data v) s = (.held, r.2)) ∧
    (∀ y, r.1 = some y → y.2 = 0 → putWord m c cur (bankAddr b w) (tw .data v) s =
      (.more, count (P.DMA c) R.DMA_WORDS (mdCur c (fun u => { u with
        inBlock := u.inBlock + 1, written := u.written ++ [wordKey b w], writtenRegs := u.writtenRegs ++ [],
        fetched := u.fetched.drop 1 }) r.2))) := by
  have hlo : 0x10000000 ≤ bankAddr b w := by simp only [bankAddr]; omega
  have hhi : bankAddr b w < 0x12000000 := by simp only [bankAddr]; omega
  have hbb : (bankAddr b w - 0x10000000) / 0x8000 = b := by simp only [bankAddr]; omega
  have hww : (bankAddr b w - 0x10000000) % 0x8000 / 4 = w := by simp only [bankAddr]; omega
  have hmoved : movedWord cur.desc (tw .data v) s = (tw .data v, s) := by
    simp [movedWord, overlaps, hf, tw]
  unfold putWord
  rw [if_pos hf]
  dsimp only
  rw [hmoved]
  dsimp only
  rw [place_bank hlo hhi, hbb, hww]
  dsimp only
  rw [writeVia_bank hlo hhi, hbb, hww, hr]
  refine ⟨fun hn => by simp [hn], fun y hy h0 => ?_⟩
  rw [hy]
  dsimp only [Option.map]
  rw [if_neg (by simp [h0])]
  rfl

/-- A request that the port refuses answers with another code than NONE. -/
theorem enterReq_write_engines {e b w : Nat} {x : TWord} {s : State}
    (hs : (tfind s.banks.engines e).join = none) :
    ∀ y, (tfind (enterReq ⟨.fabric, some e, w, .write x, false, 0⟩ b s).banks.engines e).join = some y → y.2 ≠ 0 := by
  intro y hy
  unfold enterReq at hy
  dsimp only at hy
  rw [if_neg (by simp)] at hy
  split at hy
  case isTrue hgone =>
    have hno : (writeBank b w x s).1 = false := by
      unfold writeBank
      unfold bankGone at hgone
      split
      · rfl
      · next ha =>
        have : copies b s = [] := by simpa [ha] using hgone
        rw [this]
    rw [serveReq_write b rfl, hno] at hy
    simp only [giveCode, Bool.false_eq_true, if_false] at hy
    have : y = (faultWord E.ABSENT_TARGET 0, E.ABSENT_TARGET) := by simpa [tfind_tins_same] using hy.symm
    rw [this]
    decide
  case isFalse =>
    rw [if_neg (by simp)] at hy
    rw [show (mdBankPort b _ s).banks.engines = s.banks.engines from rfl, hs] at hy
    cases hy

/-- A write that is granted with code 0 was at the port already: no register changes. -/
theorem regs_viaPort_granted {e b w : Nat} {x : TWord} {s : State} {y : TWord × Nat}
    (hy : (viaPort e b w (.write x) s).1 = some y) (h0 : y.2 = 0) : (viaPort e b w (.write x) s).2.regs = s.regs := by
  unfold viaPort at hy ⊢
  extract_lets src t src₁ at hy ⊢
  cases he : tfind s.banks.engines e with
  | none =>
    have ht : t = enterReq ⟨.fabric, some e, w, .write x, false, 0⟩ b (setBanks { s.banks with engines := tins e none s.banks.engines } s) := by
      simp only [t, he]
      rfl
    exfalso
    split at hy
    · next r hr =>
      rw [ht] at hr
      exact enterReq_write_engines (by simp [tfind_tins_same]) r hr (by simp at hy; exact hy ▸ h0)
    · cases hy
  | some z =>
    have ht : t = s := by simp only [t, he]
    split <;> simp [ht]

/-- A counter goes on from its value, in a page that is frozen as before. -/
theorem rd_count_of_rd {p off : Nat} {s t : State} (h : rd p off t = rd p off s)
    (hc : rd p R.PAGE_CTL t = rd p R.PAGE_CTL s) : rd p off (count p off t) = rd p off (count p off s) := by
  have hf : frozen p t = frozen p s := by simp only [frozen, hc]
  simp only [count, countN, hf]
  split
  · exact h
  · rw [rd_md_same, rd_md_same, h]

/-- The end of a descriptor without event and chain: its channel is free, and the descriptor is counted. -/
theorem descDone_plain {c m : Nat} {s : State} {cur : Cur} (hcur : (dchan c s).cur = some cur)
    (hserved : servedBy c s = some m) (he : cur.desc.evt = false) :
    (mover m (descDone c s)).serving = none ∧ (descDone c s).banks.words = s.banks.words ∧
      (dchan c (descDone c s)).cur = none ∧ (dchan c (descDone c s)).halted = (dchan c s).halted ∧
      rd (P.DMA c) R.DMA_DONE_COUNT (descDone c s) = rd (P.DMA c) R.DMA_DONE_COUNT (count (P.DMA c) R.DMA_DONE_COUNT s) := by
  obtain ⟨hm, hchan⟩ := unserve_served hserved
  have hwords := words_unserve c s
  have hregs := regs_unserve c s
  have hx := dchan_of_dma hchan c
  unfold descDone
  rw [hcur]
  dsimp only
  rw [if_neg (by simp [he])]
  generalize unserve c s = u at hm hchan hwords hregs hx ⊢
  generalize hv : mdDchan c _ u = v
  have hvm : mover m v = mover m u := hv ▸ rfl
  have hvb : v.banks = u.banks := hv ▸ rfl
  have hvr : v.regs = u.regs := hv ▸ rfl
  have hvc : (dchan c v).cur = none := by rw [← hv, mdDchan, dchan_setDchan_same]
  have hvh : (dchan c v).halted = (dchan c s).halted := by rw [← hv, mdDchan, dchan_setDchan_same, hx]
  have hend : dchan c (irq (P.DMA c) 0 (lastCode c E.NONE (count (P.DMA c) R.DMA_DONE_COUNT v))) = dchan c v :=
    dchan_of_dma (by simp [lastCode]) c
  have hvs : (mover m v).serving = none := (congrArg Mover.serving hvm).trans hm
  refine ⟨by simpa [lastCode, mover] using hvs, by simpa [lastCode, hvb] using hwords, by rw [hend, hvc],
    by rw [hend, hvh], ?_⟩
  have hp : NoPba (P.DMA c) R.DMA_DONE_COUNT :=
    ⟨rkey_offset (by decide) (by decide) (by decide), rkey_offset (by decide) (by decide) (by decide)⟩
  rw [rd_irq_off hp (rkey_off (by decide)), lastCode, rd_wrf_other (rkey_off (by decide))]
  exact rd_countN_of_regs (hvr.trans hregs) ..

/-- Settles O31: the choice of a channel, the end of a block, a fill of one word, and the replies of windows. -/
theorem moversMoveTheirBlocks : Obligations.MoversMoveTheirBlocks := by
  intro m s hrun
  refine ⟨fun c hserv hnext => ?_, fun c cur hserv hby hwalk hcur hr hg hlt hb => ?_,
    fun c cur b w hserv hby hwalk hcur hr hg hdone hblock hfill hcount hchain hevt hmode hb hw hdst => ?_,
    fun r cur hm hcls htask hst hlen hby hcur => ?_⟩
  · refine congrArg Host.Outcome.next ((if_pos hrun).trans ?_)
    unfold moverWork
    rw [hserv]
    dsimp only
    rw [choose, hnext]
    rfl
  · have hfull : cur.inBlock = blockLen cur := by rw [hb, blockLen]; omega
    let t := endBlock c cur s
    have hend : t = unserve c (mdCur c (fun x => { x with done := cur.done + blockLen cur, inBlock := 0, fetched := [] }) s) :=
      if_neg (by rw [← hfull]; omega)
    obtain ⟨hfree, hchan⟩ := unserve_served (c := c) (m := m.val)
      (s := mdCur c (fun x => { x with done := cur.done + blockLen cur, inBlock := 0, fetched := [] }) s) hby
    rw [← hend] at hfree hchan
    obtain ⟨hc, hbanks, -⟩ := choose_keeps m.val t
    refine ⟨choose m.val t, congrArg Host.Outcome.next ((if_pos hrun).trans
      (moverWork_leaves hserv (moveLoop_held (moveStep_ends hcur hwalk hr hg hfull) _) hfree)), ?_, ?_⟩
    · rw [hbanks, hend, words_unserve]
      rfl
    · rw [dchan_of_dma (hc.trans hchan), cur_mdCur hcur, ← hfull, hb]
  · intro r
    have hdma : r.2.dma = s.dma := (sameBut_viaPort (ps := [.regs, .words, .ports, .wpk, .io]) (by decide) s _ _ _ _ s).2
      (sameBut_refl _ s) .dma (by decide)
    have hva : dstVa cur = bankAddr b w := by
      simp only [dstVa, curIndex, hdone, hblock, hg, hdst, bankAddr, List.length_nil]
      split
      · rfl
      · omega
    have hopen : cur.inBlock ≠ blockLen cur := by rw [hblock, blockLen, hcount, hdone]; decide
    have hstep := moveStep_fill hcur hwalk hr hg hopen hfill hmode hb hw hva
    obtain ⟨hnone, hsome⟩ := putWord_fill (m := m.val) (c := c) (cur := cur) hfill hb hw (r := r) rfl
    have hmover : mover m.val r.2 = mover m.val s := by simp only [mover, hdma]
    refine ⟨fun hn => ?_, fun y hy h0 => ?_⟩
    · refine congrArg Host.Outcome.next ((if_pos hrun).trans (moverWork_serves hserv
        (moveLoop_held (hstep.trans (hnone hn)) _) ?_))
      rw [hmover, hserv]
    · let f (x : Cur) : Cur := { x with
        inBlock := x.inBlock + 1, written := x.written ++ [wordKey b w], writtenRegs := x.writtenRegs ++ [],
        fetched := x.fetched.drop 1 }
      let u := count (P.DMA c) R.DMA_WORDS (mdCur c f r.2)
      have hmore : moveStep m.val c s = (.more, u) := hstep.trans (hsome y hy h0)
      have hdchan : dchan c r.2 = dchan c s := dchan_of_dma (congrArg Dma.chans hdma) c
      have hudma : u.dma = (mdCur c f r.2).dma := by simp [u]
      have hu : dchan c u = dchan c (mdCur c f r.2) := dchan_of_dma (congrArg Dma.chans hudma) c
      have hucur : (dchan c u).cur = some (f cur) := by rw [hu, cur_mdCur (by rw [hdchan, hcur])]
      have huwalk : (mover m.val u).walk = none := by
        rw [mover, hudma]
        exact (congrArg Mover.walk hmover).trans hwalk
      have huby : servedBy c u = some m.val := by
        rw [servedBy_of_dma (congrArg Dma.movers hudma) c]
        exact (servedBy_of_dma (congrArg Dma.movers hdma) c).trans hby
      have hfull : (f cur).inBlock = blockLen (f cur) := by simp [f, hblock, blockLen, hcount, hdone]
      let v := mdCur c (fun x => { x with done := (f cur).done + blockLen (f cur), inBlock := 0, fetched := [] }) u
      have hend : endBlock c (f cur) u = descDone c v := if_pos (by simp [f, hdone, blockLen, hcount])
      obtain ⟨hfree, hwords, hcurv, hhalt, hcountv⟩ := descDone_plain (m := m.val) (c := c) (s := v) (cur_mdCur hucur _) huby hevt
      obtain ⟨hc, hbanks, hregs⟩ := choose_keeps m.val (descDone c v)
      have hx := dchan_of_dma hc c
      have hloop : moveLoop 200 m.val c s = descDone c v :=
        (moveLoop_more hmore _).trans ((moveLoop_held (moveStep_ends hucur huwalk hr hg hfull) _).trans hend)
      refine ⟨choose m.val (descDone c v), congrArg Host.Outcome.next ((if_pos hrun).trans (moverWork_leaves hserv hloop hfree)),
        ?_, by rw [hx, hcurv], ?_, ?_⟩
      · rw [hbanks, hwords]
        simp [v, u, mdCur, mdDchan, banks_setDchan]
      · rw [hx, hhalt, halted_mdCur, hu, halted_mdCur, hdchan]
      · rw [hregs _ _ (by decide) (by decide), hcountv]
        have hrr : r.2.regs = s.regs := regs_viaPort_granted hy h0
        have hword (o : Nat) (hne : o / 4 ≠ R.DMA_WORDS / 4) : rd (P.DMA c) o v = rd (P.DMA c) o s :=
          (rd_countN_other (p := P.DMA c) (rkey_off hne) 1 (mdCur c f r.2)).trans (rd_of_regs hrr ..)
        exact rd_count_of_rd (hword _ (by decide)) (hword _ (by decide))
  · intro t
    have hcurt : (dchan r.task t).cur = some cur := by
      rw [dchan_of_dma (s := s) (congrArg Dma.chans ?_)]
      · exact hcur
      · exact (sameBut_dropMsg (ps := [.net]) (by decide) s _ s).2 (sameBut_refl _ s) .dma (by decide)
    have hreply : exec .remoteReply s = .next (chanReply r.task r t) := by
      refine congrArg Host.Outcome.next ((if_pos hrun).trans ?_)
      unfold remoteReply
      rw [hm]
      dsimp only
      rw [if_neg (by simp [hcls, htask]), receiverCheck_request hst (by simp [hcls]) hlen]
      dsimp only
      rw [hby]
    refine ⟨fun hrem hstop hasked hfix => hreply.trans (congrArg Host.Outcome.next ?_),
      fun hrem hzero => hreply.trans (congrArg Host.Outcome.next ?_)⟩
    · unfold chanReply
      rw [hcurt]
      dsimp only
      rw [hrem]
      have hno : replyStops r cur.asked.2 = none := by simp [replyStops, hst, hstop, hlen, hasked]
      dsimp only
      rw [hno]
      simp [mdCur, mdDchan, hcurt, hfix]
    · unfold chanReply
      rw [hcurt]
      dsimp only
      rw [hrem]
      have hnil : r.payload = [] := List.length_eq_zero_iff.mp (hlen.trans hzero)
      have hno : replyStops r 0 = none := by simp [replyStops, hst, hnil]
      dsimp only
      rw [hno]
      simp [mdCur, mdDchan, hcurt]

end Sys2Proof.Machine

/-! PROOFS. O32: the memory agent. -/

namespace Sys2Proof.Machine

open Sys2Proof

/-- An idle agent begins the request that came for it. -/
theorem agentServe_begins {cls : Nat} {s : State} {m : Msg} (hr : agentRuns s = true) (hj : s.dma.agent = none)
    (hm : sinkMsg (.svcDown 3) s = some m) (hc : m.cls = cls) (hk : requestClass cls = true)
    (hwe : cls = 0x21 → s.dev.weReleased = true) (hst : m.status = 0) (hl : m.payload.length = m.len) :
    agentServe cls s = agentBegin m (dropMsg (.svcDown 3) s) := by
  have hno : ¬(m.cls = 0x21 ∧ (!s.dev.weReleased) = true) := by
    rintro ⟨h, hw⟩
    simp [hwe (hc.symm.trans h)] at hw
  rw [agentServe, if_neg (by simp [hr]), hj]
  dsimp only
  rw [hm]
  dsimp only
  rw [if_neg (by simp [hc]), if_neg hno, receiverCheck_request hst (hc ▸ hk) hl]

theorem windowPlace_bank {o : Nat} (h : o < 0x2000000) : windowPlace o = .bank (o / 0x8000) (o % 0x8000 / 4) := by
  rw [windowPlace, bankPlace, bankRange, if_pos (by omega)]
  dsimp only
  rw [Nat.add_sub_cancel_left]

/-- No place of the banks' window is absent. -/
theorem agentPlaces_present {off n : Nat} (h : off + 4 * n ≤ 0x2000000) :
    (agentPlaces off n).any (· == .absent) = false := by
  simp only [agentPlaces, List.any_eq_false, List.mem_map, List.mem_range, beq_iff_eq, forall_exists_index, and_imp]
  rintro _ k hk rfl
  rw [windowPlace_bank (by omega)]
  simp

/-- A read of words within the banks begins. -/
theorem agentBegin_reads {m : Msg} {a n : TWord} {s : State} (hc : m.cls = 0x20) (hp : m.payload = [a, n])
    (hw : wordsFail m.payload = none) (ha : fld 29 0 a.data % 4 = 0) (h1 : 1 ≤ fld 8 0 n.data) (h2 : fld 8 0 n.data ≤ 256)
    (h3 : fld 29 0 a.data + 4 * fld 8 0 n.data ≤ 0x2000000) : agentBegin m s = agentWork (setDma { s.dma with
      agent := some ⟨m.head, m.route, false, fld 29 0 a.data, fld 8 0 n.data, [], 0, 0⟩ } s) := by
  have haddr : addrWord m = fld 29 0 a.data := by simp [addrWord, hp]
  have hcls : (m.cls == 0x21) = false := by simp [hc]
  rw [hp] at hw
  unfold agentBegin
  dsimp only
  rw [hcls, hp, haddr]
  simp only [Bool.false_eq_true, if_false, hw, List.tail_cons, List.headD_cons]
  rw [if_neg (by simp; omega), if_neg (by simp [ha]), if_neg (by simp [agentPlaces_present h3]), if_neg (by simp)]

/-- A write within the banks begins, or is refused where it names a protected place. -/
theorem agentBegin_writes {m : Msg} {a : TWord} {body : List TWord} {s : State} (hc : m.cls = 0x21)
    (hp : m.payload = a :: body) (hw : wordsFail [a] = none) (ha : fld 29 0 a.data % 4 = 0) (h1 : body ≠ [])
    (h2 : body.length ≤ 256) (h3 : fld 29 0 a.data + 4 * body.length ≤ 0x2000000) : agentBegin m s =
      if agentProtected (agentPlaces (fld 29 0 a.data) body.length) s then svcReply 3 m [] E.PERM_FAULT (agentRefused s)
      else agentWork (setDma { s.dma with
        agent := some ⟨m.head, m.route, true, fld 29 0 a.data, body.length, body, 0, 0⟩ } s) := by
  have haddr : addrWord m = fld 29 0 a.data := by simp [addrWord, hp]
  have hcls : (m.cls == 0x21) = true := by simp [hc]
  have hlen : body.length ≠ 0 := by simpa using h1
  unfold agentBegin
  dsimp only
  rw [hcls, hp, haddr]
  simp only [if_true, List.take_succ_cons, List.take_zero, hw, List.tail_cons]
  rw [if_neg (by simp [h1]; omega), if_neg (by simp [ha]), if_neg (by simp [agentPlaces_present h3])]
  simp only [Bool.true_and]

/-- A job of the agent goes on with the command of its kind. -/
theorem agentServe_job {s : State} {j : AgentJob} (hr : agentRuns s = true) (hj : s.dma.agent = some j) :
    exec (if j.write then .remoteWr else .remoteRd) s = .next (agentLoop 257 s) := by
  have serve (cls : Nat) (h : j.write = (cls == 0x21)) : agentServe cls s = agentLoop 257 s := by
    rw [agentServe, if_neg (by simp [hr]), hj]
    exact if_pos h
  cases h : j.write
  · exact congrArg Host.Outcome.next (serve 0x20 h)
  · exact congrArg Host.Outcome.next (serve 0x21 h)

theorem agentLoop_done {s : State} {j : AgentJob} (hj : s.dma.agent = some j) (h : j.served = j.count) (n : Nat) :
    agentLoop (n + 1) s = svcReply 3 ⟨j.head, j.route, [], 0⟩ (if j.write then [] else j.words) j.code
      (setDma { s.dma with agent := none } s) := by
  rw [agentLoop, hj]
  exact if_pos h

section
variable {s : State} {j : AgentJob} {b w : Nat} (hj : s.dma.agent = some j) (h : j.served < j.count)
  (hpl : windowPlace (j.off + 4 * j.served) = .bank b w) {r : Option (TWord × Nat) × State}
  (hr : viaPort agentEngine b w (if j.write then .write (j.words.getD j.served zeroWord) else .read) s = r) (n : Nat)
include hj h hpl hr

theorem agentLoop_waits (hn : r.1 = none) : agentLoop (n + 1) s = r.2 := by
  rw [agentLoop, hj]
  dsimp only
  rw [if_neg (by omega), hpl]
  cases hw : j.write with
  | false =>
    rw [hw, if_neg Bool.false_ne_true] at hr
    simp [readAt, hr, hn]
  | true =>
    rw [hw, if_pos rfl] at hr
    simp only [if_true, writeAt, hr]
    simp [hn]

theorem agentLoop_goes {y : TWord × Nat} (hy : r.1 = some y) : agentLoop (n + 1) s = agentLoop n (setDma { r.2.dma with
    agent := some { j with
      served := j.served + 1, words := if j.write then j.words else j.words ++ [y.1],
      code := if j.write ∧ j.code = 0 then y.2 else j.code } } r.2) := by
  rw [agentLoop, hj]
  dsimp only
  rw [if_neg (by omega), hpl]
  cases hw : j.write with
  | false =>
    rw [hw, if_neg Bool.false_ne_true] at hr
    simp [readAt, hr, hy]
  | true =>
    rw [hw, if_pos rfl] at hr
    simp only [if_true, writeAt, hr]
    simp [hy]

end

/-- Settles O32: requests at service 0x03, and the job of the agent word by word. -/
theorem memoryAgentServesTheRing : Obligations.MemoryAgentServesTheRing := by
  refine fun s hr => ⟨fun m a body => ?_, fun j hj => ?_⟩
  · intro t off job begins hj hm hst hp hl ha
    refine ⟨fun n hc hb hw h1 h2 h3 => ?_, fun hc hw hwe hne h2 h3 => ?_⟩
    · rw [hb] at hp
      exact congrArg Host.Outcome.next ((agentServe_begins hr hj hm hc rfl (fun h => by cases h) hst hl).trans
        (agentBegin_reads hc hp hw ha h1 h2 h3))
    · have hserve := (agentServe_begins hr hj hm hc rfl (fun _ => hwe) hst hl).trans (agentBegin_writes hc hp hw ha hne h2 h3)
      exact ⟨fun hno => congrArg Host.Outcome.next (hserve.trans (if_neg (Bool.eq_false_iff.mp hno))),
        fun hprot => congrArg Host.Outcome.next (hserve.trans (if_pos hprot))⟩
  · intro i ends
    have hexec := agentServe_job hr hj
    refine ⟨fun hdone => hexec.trans (congrArg Host.Outcome.next (agentLoop_done hj hdone _)), fun b w hlt hpl => ?_⟩
    intro r
    have hport : viaPort agentEngine b w (if j.write then .write (j.words.getD j.served zeroWord) else .read) s = r := rfl
    clear_value r
    refine ⟨fun hn => hexec.trans (congrArg Host.Outcome.next (agentLoop_waits hj hlt hpl hport _ hn)), fun y hy hlast => ?_⟩
    refine hexec.trans (congrArg Host.Outcome.next ((agentLoop_goes hj hlt hpl hport _ hy).trans
      ((agentLoop_done rfl hlast _).trans ?_)))
    cases hw : j.write <;> simp <;> rfl

end Sys2Proof.Machine

/-! PROOFS. O33: register writes, and the status that a page's reset clears. -/

namespace Sys2Proof.Machine

open Sys2Proof

/-- A rising map does not hold a key below its first. -/
theorem tfind_none_of_rising {α : Type} {a : Nat} {v : α} {m : SMap α} (h : rising ((a, v) :: m) = true) {k : Nat}
    (hk : k ≤ a) : tfind m k = none := by
  induction m generalizing a v with
  | nil => rfl
  | cons e m ih =>
    obtain ⟨b, y⟩ := e
    simp only [rising, Bool.and_eq_true, decide_eq_true_eq] at h
    rw [tfind, if_neg (by omega)]
    exact ih h.2 (by omega)

/-- Rewriting the values of a rising map, by key, rewrites what it finds. -/
theorem tfind_filterMap {α : Type} {f : Nat × α → Option (Nat × α)} (hf : ∀ e x, f e = some x → x.1 = e.1) {m : SMap α}
    (h : rising m = true) (k : Nat) :
    tfind (m.filterMap f) k = (tfind m k).bind fun v => (f (k, v)).map (·.2) := by
  induction m with
  | nil => rfl
  | cons e m ih =>
    obtain ⟨a, v⟩ := e
    have ih := ih ((rising_cons _ _).mp h).2
    by_cases hak : a = k
    · subst hak
      have hnone : tfind m a = none := tfind_none_of_rising h le_rfl
      cases hx : f (a, v) with
      | none => rw [List.filterMap_cons_none hx, ih, hnone]; simp [tfind, hx]
      | some x =>
        obtain ⟨b, y⟩ := x
        obtain rfl : b = a := hf _ _ hx
        rw [List.filterMap_cons_some hx]
        simp [tfind, hx]
    · have hskip : tfind ((a, v) :: m) k = tfind m k := by rw [tfind, if_neg hak]
      cases hx : f (a, v) with
      | none => rw [List.filterMap_cons_none hx, ih, hskip]
      | some x =>
        obtain ⟨b, y⟩ := x
        obtain rfl : b = a := hf _ _ hx
        rw [List.filterMap_cons_some hx, tfind, if_neg hak, ih, hskip]

theorem merge_self (d m : Word) : (d &&& m) ||| (d &&& ~~~m) = d := by
  ext i hi
  simp only [BitVec.getElem_or, BitVec.getElem_and, BitVec.getElem_not]
  cases d[i] <;> cases m[i] <;> rfl

/-- A reset of a page leaves each of its registers at its settings, and else at its reset value. -/
theorem rd_clearStatus {p off : Nat} {keep : Nat → Bool} {s : State} (hs : RegsInv s) (ho : off < 4096) (h4 : off % 4 = 0)
    (hk : keep off = false) : rd p off (clearStatus p keep s) =
      (rd p off s &&& settingBits p off) ||| (regReset p off &&& ~~~settingBits p off) := by
  unfold clearStatus
  extract_lets one
  have hkey : ∀ e x, one e = some x → x.1 = e.1 := by
    intro e x hx
    simp only [one] at hx
    split at hx
    · cases hx; rfl
    · split at hx
      · cases hx; rfl
      · split at hx
        · cases hx
        · cases hx; rfl
  change tget _ (s.regs.filterMap one) (rkey p off) = _
  have hpage : rkey p off / 1024 = p := by simp only [rkey]; omega
  have hoff : rkey p off % 1024 * 4 = off := by simp only [rkey]; omega
  have hone (v : Word) : ((one (rkey p off, v)).map (·.2)).getD (regReset p off) =
      (v &&& settingBits p off) ||| (regReset p off &&& ~~~settingBits p off) := by
    simp only [one, hpage, hoff, hk, bne_self_eq_false, Bool.false_eq_true, if_false]
    split
    · next heq => exact heq.symm
    · rfl
  rw [rd, tget, tget, tfind_filterMap hkey hs]
  cases hf : tfind s.regs (rkey p off) with
  | none => exact (merge_self ..).symm
  | some v => exact hone v

/-- A requester that reaches a page writes its registers. -/
theorem pageWrite_reaches {rq : Requester} {p : Nat} {k : PageKind} {s : State} (hk : pageKind p = some k)
    (hr : Reaches rq p s) (off : Nat) (v : Word) : pageWrite rq p off v s = regWrite rq k p off v s := by
  unfold pageWrite
  rw [hk]
  exact onPage_reaches hr ..

/-- Settles O33: register writes by their access codes, and the common registers that act. -/
theorem registerWritesFollowTheirCodes : Obligations.RegisterWritesFollowTheirCodes := by
  intro rq p k s hk hr
  refine ⟨fun a off r v ha ho h4 hlow hact hwide hrow => ?_, fun a size v hbad => ?_, ?_, fun v => ?_, fun hkind => ?_,
    fun off r hs ho h4 hrow hkeep => ?_⟩
  · have hpage : a.toNat / 4096 = p.val := by omega
    have hoff : a.toNat % 4096 = off := by omega
    refine congrArg Host.Outcome.next ?_
    rw [windowWrite, if_pos (by omega), hpage, hoff, pageWrite_reaches hk hr, regWrite, if_neg (by omega), hact, hwide]
    dsimp only
    rw [plainWrite, hrow]
    rfl
  · refine congrArg Host.Outcome.next ?_
    obtain ⟨hatt, hscan, -⟩ := hr
    have h4 : ¬(a.toNat % 4 = 0 ∧ size = 4) := by omega
    have h8 : ¬(a.toNat % 4 = 0 ∧ size = 8 ∧ rq = .host) := by
      rintro ⟨ha, hs, hh⟩
      rcases hbad with h | h | h
      · exact h ha
      · exact h.2 hs
      · exact h.2 hh
    rw [windowWrite, if_neg h4, if_neg h8, if_pos (by simp [hatt, hscan])]
    rfl
  · exact congrArg Host.Outcome.next (pageWrite_reaches hk hr ..)
  · exact congrArg Host.Outcome.next (pageWrite_reaches hk hr ..)
  · refine congrArg Host.Outcome.next ?_
    rw [hk]
    dsimp only
    rw [onPage_reaches hr]
    rcases hkind with rfl | rfl | rfl | rfl <;> rfl
  · rw [rd_clearStatus hs ho h4 hkeep, settingBits, hrow]

end Sys2Proof.Machine

/-! PROOFS. O34: 64-bit registers and the effects of reads. -/

namespace Sys2Proof.Machine

open Sys2Proof

theorem lo32_join64 (lo hi : Word) : lo32 (join64 lo hi) = lo := by
  ext i hi
  simp only [lo32, join64, BitVec.getElem_setWidth, BitVec.getLsbD_append]
  rw [if_pos hi, BitVec.getLsbD_eq_getElem hi]

/-- The high half of a pair is no low half. -/
theorem wideLow_high {k : PageKind} {off : Nat} (h : wideLow k off = true) : wideLow k (off + 4) = false := by
  cases k <;> simp [wideLow, R.DEV_SERIAL_LO, R.DMA_FAULT_ADDR_LO, R.ETH_MAC_LO, R.ETH_RX_TS_LO, R.ETH_TX_TS_LO, R.FOX_ALLOW_FABRIC_LO,
    R.FOX_ALLOW_HOST_LO, R.FOX_ARM_AT_LO, R.FOX_ARM_MASK_LO, R.FOX_FAULTY_LO, R.FOX_LOADING_LO,
    R.FOX_STAGED_LO, R.GUARD_KEY_LO, R.GUARD_NEW_PW_LO, R.MMU_HRA_ADDR_LO, R.PMU_RETAIN_LO, R.PMU_RGN_ON_LO,
    R.RGN_DIGEST_LO, R.RGN_STAGE_DIGEST_LO, R.SCH1_CTX_W, R.SNAP_AT_LO, R.SNAP_TAKEN_LO, R.TIME_NOW_LO,
    R.UPD_ACTIVE_MANIFEST_LO, R.UPD_OTHER_MANIFEST_LO, R.UPD_T_LO, R.WPK_BG_REGIONS_LO, R.XB_SNAP_SHADOW,
    R.XB_WORDS_LO] at h ⊢ <;> omega

/-- A write of one word at an address of a reached page. -/
theorem registerWrite_word {rq : Requester} {p : Fin 16384} {k : PageKind} {s : State} {a : BitVec 26} {off : Nat}
    (hk : pageKind p.val = some k) (hr : Reaches rq p.val s) (ha : a.toNat = p.val * 4096 + off) (ho : off < 4096)
    (h4 : off % 4 = 0) (v : Word) :
    exec (.registerWrite rq a 4 (v.setWidth 64)) s = .next (regWrite rq k p.val off v s) := by
  have hpage : a.toNat / 4096 = p.val := by omega
  have hoff : a.toNat % 4096 = off := by omega
  refine congrArg Host.Outcome.next ?_
  rw [windowWrite, if_pos (by omega), hpage, hoff, pageWrite_reaches hk hr, lo32_setWidth]

section
variable {rq : Requester} {k : PageKind} {p off : Nat} (hlow : wideLow k off = true) (h40 : 0x40 ≤ off)
include hlow h40

/-- A write of the low half is held. -/
theorem regWrite_low {r : RegRow} {v : Word} {s : State} (hrow : regRow p off = some r) (hrw : r.rw ≠ 0)
    (hact : actionWrite rq k p off v s = none) : regWrite rq k p off v s = holdLow rq p off v s := by
  have hhalf : wideHalf k off = some (off, false) := if_pos hlow
  rw [regWrite, if_neg (by omega), hact, hhalf]
  dsimp only
  rw [hrow]
  dsimp only
  rw [if_neg hrw]
  rfl

/-- A write of the high half stores both. -/
theorem regWrite_high {r r' : RegRow} {w : Word} {s : State} (hrow : regRow p off = some r)
    (hrow' : regRow p (off + 4) = some r') (hrw : r'.rw ≠ 0) (hact : actionWrite rq k p (off + 4) w s = none) :
    (∀ v, lowPending rq p off s = some v → regWrite rq k p (off + 4) w s =
      wr64 p off (join64 v w &&& join64 r.rw r'.rw) (clearLow rq p off s)) ∧
    (lowPending rq p off s = none → regWrite rq k p (off + 4) w s =
      wr64 p off (join64 (rd p off s) w &&& join64 r.rw r'.rw) s) := by
  have hhalf : wideHalf k (off + 4) = some (off, true) := by
    rw [wideHalf, wideLow_high hlow, if_neg Bool.false_ne_true, Nat.add_sub_cancel, if_pos ⟨by omega, hlow⟩]
  have hwrite : regWrite rq k p (off + 4) w s = wideWrite rq p off true w s := by
    rw [regWrite, if_neg (by omega), hact, hhalf]
    dsimp only
    rw [hrow']
    exact if_neg hrw
  rw [hwrite]
  unfold wideWrite pairWrite rwBits
  rw [hrow, hrow']
  refine ⟨fun v hv => ?_, fun hn => ?_⟩
  · rw [hv]
    rfl
  · rw [hn, rd64, lo32_join64]
    rfl

end

/-- A read of a register of a page that is not off, beside those that are answered for every page. -/
theorem pageRead_on {rq : Requester} {p off : Nat} {k : PageKind} {s : State} (hk : pageKind p = some k)
    (ha : attached rq s = true) (hs : s.dev.mode ≠ .scan) (hid : off ≠ R.PAGE_ID) (hst : off ≠ R.PAGE_STAT) :
    pageRead rq p off s = if pageOff p s then deliver rq (offWord rq) (offAccess rq p off false s) else regRead rq p off s := by
  unfold pageRead onPageRead
  rw [hk]
  dsimp only
  rw [if_neg (by simp [ha]), if_neg (by simp [hs]), if_neg (by tauto), if_neg (by simp [ha]), if_neg (by simp [hs])]

/-- A read outside the windows, by what the register is. -/
theorem regRead_plain {rq : Requester} {p off : Nat} {k : PageKind} {s : State} (hk : pageKind p = some k)
    (hring : p ≠ P.RING) (h1 : k ≠ .sch1) (h2 : k ≠ .sch2) :
    (wideLow k off = true → regRead rq p off s =
      deliverReg rq (regValue rq p off s) (latchHigh rq p off (regValue rq p (off + 4) s) s)) ∧
    (∀ h, wideLow k off = false → 4 ≤ off → wideLow k (off - 4) = true → highLatched rq p (off - 4) s = some h →
      regRead rq p off s = deliverReg rq h (dropLatch rq p (off - 4) s)) ∧
    (wideLow k off = false → (4 ≤ off → wideLow k (off - 4) = false) →
      regRead rq p off s = deliverReg rq (regValue rq p off s) (clearRc p off s)) := by
  unfold regRead
  rw [hk, if_neg (by tauto)]
  dsimp only
  rw [if_neg (by tauto), if_neg (by tauto), if_neg (by tauto)]
  refine ⟨fun hl => if_pos hl, fun h hl h4 hlo hh => ?_, fun hl hno => ?_⟩
  · rw [if_neg (by simp [hl]), if_pos ⟨h4, hlo⟩, hh]
  · rw [if_neg (by simp [hl]), if_neg (by rintro ⟨h4, hlo⟩; simp [hno h4] at hlo)]

/-- Settles O34: writes and reads of 64-bit registers, read effects, and pages that are off. -/
theorem wideRegistersAndReadEffects : Obligations.WideRegistersAndReadEffects := by
  refine ⟨?_, ?_⟩
  · intro rq p k off r r' a a' v w s t hk hs ht hlow h40 h8 ho hrow hrow' hrw hrw' ha ha' hact
    obtain ⟨hheld, hpresent⟩ := regWrite_high hlow h40 hrow hrow' hrw' (hact t w).2
    have hhigh := registerWrite_word (rq := rq) (v := w) hk ht (ha'.trans (Nat.add_assoc ..)) ho (by omega)
    exact ⟨(registerWrite_word hk hs ha (by omega) (by omega) v).trans
        (congrArg Host.Outcome.next (regWrite_low hlow h40 hrow hrw (hact s v).1)),
      fun hv => hhigh.trans (congrArg Host.Outcome.next (hheld v hv)),
      fun hn => hhigh.trans (congrArg Host.Outcome.next (hpresent hn))⟩
  · intro rq p o k s hk ha hs hring h1 h2 hid hst off
    obtain ⟨hlow, hhigh, hplain⟩ := regRead_plain (rq := rq) (off := off) (s := s) hk hring h1 h2
    have hread := pageRead_on (off := off) hk ha hs hid hst
    have hon (h : pageOff p.val s = false) : pageRead rq p.val off s = regRead rq p.val off s :=
      hread.trans (if_neg (Bool.eq_false_iff.mp h))
    refine ⟨fun hp hl => congrArg Host.Outcome.next ((hon hp).trans (hlow hl)),
      fun h hp hl h4 hlo hh => congrArg Host.Outcome.next ((hon hp).trans (hhigh h hl h4 hlo hh)),
      fun r hp hrow hrc hl hno => congrArg Host.Outcome.next ((hon hp).trans ((hplain hl hno).trans ?_)), fun hp => ?_⟩
    · rw [clearRc, hrow]
      dsimp only
      rw [if_neg hrc]
      rfl
    · refine congrArg Host.Outcome.next ((hread.trans (if_pos hp)).trans ?_)
      cases rq <;> rfl

end Sys2Proof.Machine

/-! PROOFS. O35: the steward mailbox. -/

namespace Sys2Proof.Machine

open Sys2Proof

/-- The steward serves a request of a busy half, for any command or for the one that is asked for. -/
theorem mbxServed_serves {h : Half} {s : State} (hb : bit 1 (rd P.DEV (mbxCtl h) s) = true)
    (ha : stewardAnswers s = true) {only : Option Nat} (ho : only.all (fun c => c == mbxCode h s) = true) :
    mbxServed h only s = stewardServes h s := if_pos (by rw [mbxBusy, hb, ha, ho]; rfl)

/-- A command of the mailbox that is served in the present mode gets its status and results. -/
theorem stewardServes_answers {h : Half} {s : State} {code : Nat} {results : List Word}
    (hc : mbxCode h s = code) (ha : mbxArgs h s ≤ 15) (hr : romOnly s = true → romCommand code = true) {status : Nat}
    (hs : serve h code s = (status, results, s)) : stewardServes h s = respond h status results s := by
  unfold stewardServes
  dsimp only
  rw [hc, if_neg (by simp; exact ⟨ha, hr⟩), hs]

theorem stewardServes_refuses {h : Half} {s : State}
    (hbad : 15 < mbxArgs h s ∨ (romOnly s = true ∧ romCommand (mbxCode h s) = false)) :
    stewardServes h s = respond h E.PERM_FAULT [] s := if_pos (by simpa using hbad)

/-- A code that the mailbox does not define is refused. -/
theorem serve_undefined {code : Nat}
    (hno : code ∉ [1, 2, 0x101, 0x102, 0x103, 0x104, 0x105, 0x106, 0x107, 0x201, 0x202, 0x203]) (h : Half) (s : State) :
    serve h code s = (E.PERM_FAULT, [], s) := by
  unfold serve
  split <;> simp_all

/-- The result words stand one behind another. -/
theorem rd_results {p base : Nat} (ws : List Word) (i : Nat) (s : State) (hb : base % 4 = 0) :
    (∀ n, n < ws.length → rd p (base + 4 * (i + n))
        ((ws.zipIdx i).foldl (fun t (e : Word × Nat) => wr p (base + 4 * e.2) e.1 t) s) = ws.getD n 0) ∧
    (∀ o, (∀ n, n < ws.length → o / 4 ≠ base / 4 + i + n) →
      rd p o ((ws.zipIdx i).foldl (fun t (e : Word × Nat) => wr p (base + 4 * e.2) e.1 t) s) = rd p o s) := by
  induction ws generalizing i s with
  | nil => exact ⟨fun n hn => absurd hn (by simp), fun o _ => rfl⟩
  | cons w ws ih =>
    obtain ⟨hin, hout⟩ := ih (i + 1) (wr p (base + 4 * i) w s)
    rw [List.zipIdx_cons, List.foldl_cons]
    refine ⟨fun n hn => ?_, fun o ho => ?_⟩
    · cases n with
      | zero =>
        rw [hout _ fun n _ => by omega, Nat.add_zero, rd_wr_same]
        rfl
      | succ n =>
        rw [show i + (n + 1) = i + 1 + n by omega, hin n (by simpa using hn)]
        rfl
    · have h0 := ho 0 (by simp)
      rw [hout o fun n hn => by have := ho (n + 1) (by simpa using hn); omega, rd_wr_other (rkey_off (by omega))]

theorem mbx_offsets (h : Half) : (mbxRspOff h % 4 = 0) ∧ 0x140 ≤ mbxRspOff h ∧ mbxRspOff h ≤ 0x1C0 ∧ 0xC0 ≤ mbxCtl h ∧
    mbxCtl h ≤ 0xC4 := by
  cases h <;> decide

/-- A response holds its status, its sequence number, its count and its results, and ends the request. -/
theorem respond_holds (h : Half) {code : Nat} {ws : List Word} (hl : ws.length ≤ 15) (s : State) :
    rd P.DEV (mbxRspOff h) (respond h code ws s) =
        W (code * 2 ^ 24 + fld 15 8 (rd P.DEV (mbxCtl h) s) * 2 ^ 16 + ws.length) ∧
      (∀ n, n < ws.length → rd P.DEV (mbxRspOff h + 4 + 4 * n) (respond h code ws s) = ws.getD n 0) ∧
      bit 1 (rd P.DEV (mbxCtl h) (respond h code ws s)) = false ∧
      bit 2 (rd P.DEV (mbxCtl h) (respond h code ws s)) = true := by
  obtain ⟨h4, hlo, hhi, hclo, hchi⟩ := mbx_offsets h
  unfold respond
  extract_lets seq t u
  have hu := rd_results (p := P.DEV) (base := mbxRspOff h + 4) ws 0 t (by omega)
  obtain ⟨hin, hout⟩ := hu
  have hirq {o : Nat} (ho : o < 4096) (hpend : o / 4 ≠ R.IRQ_PEND / 4) (v : State) :
      rd P.DEV o (irq P.DEV (mbxIrq h) v) = rd P.DEV o v :=
    rd_irq_off (noPba_page (by decide) ho) (rkey_off hpend) ..
  have hpend : R.IRQ_PEND ≤ 0x3C := by decide
  have hctl : rd P.DEV (mbxCtl h) u = rd P.DEV (mbxCtl h) s := by
    rw [hout _ fun n _ => by omega, rd_wr_other (rkey_off (by omega))]
  refine ⟨?_, fun n hn => ?_, ?_, ?_⟩
  · rw [hirq (by omega) (by omega), rd_md_other (rkey_off (by omega)), hout _ fun n _ => by omega, rd_wr_same]
    rfl
  · rw [hirq (by omega) (by omega), rd_md_other (rkey_off (by omega))]
    simpa using hin n hn
  · rw [hirq (by omega) (by omega), rd_md_same, bit_setBit_other (by decide) (by decide), bit_setBit_same (by decide)]
  · rw [hirq (by omega) (by omega), rd_md_same, bit_setBit_same (by decide)]

/-- The service of the fabric half serves a whole request. -/
theorem mailboxService_request {s : State} {m : Msg} (hr : s.dev.mode = .run) (hm : sinkMsg (.svcDown 4) s = some m)
    (hst : m.status = 0) (hk : requestClass m.cls = true) (hl : m.payload.length = m.len) :
    mailboxService s = mbxRemote m (dropMsg (.svcDown 4) s) := by
  have hcls : m.cls ≠ 0x22 := by rintro h; simp [h, requestClass] at hk
  unfold mailboxService
  rw [if_neg (by simp [deviceRuns, hr]), hm]
  dsimp only
  rw [receiverCheck_request hst (by simp [mbxKnown, hk]) hl]
  exact if_neg hcls

section
variable {m : Msg} {a w : TWord} {s : State} (hp : m.payload = [a, w]) (hw : wordsFail [a, w] = none)
  (ha : fld 29 0 a.data = R.DEV_MBX_F_REQ)
include hp hw ha

theorem mbxRemote_writes (hc : m.cls = 0x21) (hb : bit 1 (rd P.DEV R.DEV_MBX_F_CTL s) = false) :
    mbxRemote m s = svcReply 4 m [] 0 (wr P.DEV R.DEV_MBX_F_REQ w.data s) := by
  have haddr : addrWord m = R.DEV_MBX_F_REQ := by rw [addrWord, hp]; exact ha
  have hbusy : mbxBusy .fabricHalf s = false := hb
  unfold mbxRemote
  dsimp only
  rw [hp, hw, haddr]
  dsimp only
  rw [if_neg (by simp [hc]), if_neg (by simp; decide)]
  have hoff : R.DEV_MBX_F_REQ < R.DEV_MBX_F_RSP := by decide
  simp [fabricWrite, mbxReqWrite, hbusy, hoff]

theorem mbxRemote_reads (hc : m.cls = 0x20) (h1 : w.data = 1) :
    mbxRemote m s = svcReply 4 m [tw .data (rd P.DEV R.DEV_MBX_F_REQ s)] 0 s := by
  have haddr : addrWord m = R.DEV_MBX_F_REQ := by rw [addrWord, hp]; exact ha
  have hn : fld 8 0 w.data = 1 := by rw [h1]; decide
  unfold mbxRemote
  dsimp only
  rw [hp, hw, haddr]
  dsimp only [List.tail_cons, List.headD_cons]
  simp only [if_pos hc, hn]
  rw [if_neg (by simp; decide)]
  simp [fabricRead]

end

/-- Settles O35: requests, answers and responses of the mailbox, and service 0x04. -/
theorem mailboxRequestsAreAnswered : Obligations.MailboxRequestsAreAnswered := by
  intro h s ctl
  refine ⟨fun rq hr => ⟨fun hb => ?_, fun hb => ?_⟩, fun hb ha hargs => ?_, fun hb ha hargs => ?_, fun hb => ?_,
    fun code ws hcode hl => ?_, fun m a w hrun hm hst hp hw hl haddr => ?_⟩
  · exact congrArg Host.Outcome.next ((onPage_reaches hr ..).trans (if_neg (Bool.eq_false_iff.mp hb)))
  · exact congrArg Host.Outcome.next ((onPage_reaches hr ..).trans (if_pos hb))
  · have any (hbad : stewardServes h s = respond h E.PERM_FAULT [] s) :
        exec (.mbxResponse h) s = .next (respond h E.PERM_FAULT [] s) :=
      congrArg Host.Outcome.next ((mbxServed_serves hb ha rfl).trans hbad)
    have one {c : Nat} (hc : mbxCode h s = c) : mbxServed h (some c) s = stewardServes h s :=
      mbxServed_serves hb ha (by simp [hc])
    have general {c : Nat} (hc : mbxCode h s = c) : mbxServed h none s = mbxServed h (some c) s :=
      (mbxServed_serves hb ha rfl).trans (one hc).symm
    refine ⟨fun hc => congrArg Host.Outcome.next ((one hc).trans (stewardServes_answers hc hargs (fun _ => rfl) rfl)),
      fun hc => congrArg Host.Outcome.next ((one hc).trans (stewardServes_answers hc hargs (fun _ => rfl) rfl)),
      fun hc => congrArg Host.Outcome.next ((one hc).trans (stewardServes_answers hc hargs (fun _ => rfl) rfl)),
      fun hno => any ?_, fun hrom hno => any (stewardServes_refuses (Or.inr ⟨hrom, hno⟩)),
      fun hc => congrArg Host.Outcome.next (general hc), fun hc => congrArg Host.Outcome.next (general hc),
      fun hc hx => congrArg Host.Outcome.next ((one hc).trans (stewardServes_answers hc hargs (fun _ => rfl) (if_pos hx))),
      fun hc hx => congrArg Host.Outcome.next
        ((one hc).trans (stewardServes_answers hc hargs (fun _ => rfl) (if_neg (Bool.eq_false_iff.mp hx))))⟩
    by_cases hrom : romOnly s = true ∧ romCommand (mbxCode h s) = false
    · exact stewardServes_refuses (Or.inr hrom)
    · exact stewardServes_answers rfl hargs (fun hr => by simpa using fun h' => hrom ⟨hr, h'⟩) (serve_undefined hno h s)
  · exact congrArg Host.Outcome.next ((mbxServed_serves hb ha rfl).trans (stewardServes_refuses (Or.inl hargs)))
  · exact congrArg Host.Outcome.next (if_neg (by simp [mbxBusy]; intro h'; simp [ctl] at hb; simp [hb] at h'))
  · obtain ⟨hhead, hwords, hbusy, hdone⟩ := respond_holds h hl s (code := code)
    have hkeep := (sameBut_respond (ps := [.regs, .io]) (by decide) s h code ws s).2 (sameBut_refl _ s)
    exact ⟨hhead, hwords, hbusy, hdone, hkeep.banks (by decide) (by decide)⟩
  · intro t
    have hregs : t.regs = s.regs := (sameBut_dropMsg (ps := [.net]) (by decide) s _ s).2 (sameBut_refl _ s) .regs (by decide)
    have hlen : m.payload.length = m.len := by rw [hp, hl]; rfl
    refine ⟨fun hc hb => congrArg Host.Outcome.next ((mailboxService_request hrun hm hst (by simp [hc, requestClass]) hlen).trans ?_),
      fun hc h1 => congrArg Host.Outcome.next ((mailboxService_request hrun hm hst (by simp [hc, requestClass]) hlen).trans ?_)⟩
    · exact mbxRemote_writes hp hw haddr hc (by rw [rd_of_regs hregs, hb])
    · rw [← rd_of_regs hregs]
      exact mbxRemote_reads hp hw haddr hc h1

end Sys2Proof.Machine

/-! PROOFS. Which components further operations may change. -/

namespace Sys2Proof.Machine

open Sys2Proof

@[simp] theorem sameBut_clearLutPorts {ps : List Part} (hps : covers ps [.ports] = true) (s₀ : State) (r : Nat) (s : State) :
    SameBut ps s₀ (clearLutPorts r s) ↔ SameBut ps s₀ s := by
  refine SameBut.iff (k := [.ports]) ?_ hps s₀
  unfold clearLutPorts
  refine sameBut_foldl (fun t x => ?_) _ _
  (repeat' split) <;> simp (disch := decide)

@[simp] theorem sameBut_emptyFoxTap {ps : List Part} (hps : covers ps [.net] = true) (s₀ : State) (r : Nat) (s : State) :
    SameBut ps s₀ (emptyFoxTap r s) ↔ SameBut ps s₀ s := by
  refine SameBut.iff (k := [.net]) ?_ hps s₀
  simp (disch := decide) [emptyFoxTap]

@[simp] theorem sameBut_clearMacs {ps : List Part} (hps : covers ps [.macs] = true) (s₀ : State) (r : Nat) (s : State) :
    SameBut ps s₀ (clearMacs r s) ↔ SameBut ps s₀ s := by
  refine SameBut.iff (k := [.macs]) ?_ hps s₀
  simp (disch := decide) [clearMacs]

@[simp] theorem sameBut_gsrCells {ps : List Part} (hps : covers ps [.fab, .macs] = true) (s₀ : State) (r : Nat) (keep : Nat → Nat → Bool) (s : State) :
    SameBut ps s₀ (gsrCells r keep s) ↔ SameBut ps s₀ s := by
  refine SameBut.iff (k := [.fab, .macs]) ?_ hps s₀
  unfold gsrCells
  extract_lets old src t u
  have ht : SameBut [.fab, .macs] s t := (sameBut_setFab (by decide) s _ s).2 (sameBut_refl _ s)
  exact (sameBut_clearMacs (by decide) s r _).2 ((sameBut_foldl_iff (fun t k => by simp (disch := decide) [setCell]) s _ t).2 ht)

@[simp] theorem sameBut_gsrLogic {ps : List Part} (hps : covers ps [.logic] = true) (s₀ : State) (r : Nat) (keep : Bool) (s : State) :
    SameBut ps s₀ (gsrLogic r keep s) ↔ SameBut ps s₀ s := by
  refine SameBut.iff (k := [.logic]) ?_ hps s₀
  simp (disch := decide) [gsrLogic]

@[simp] theorem sameBut_assertGsr {ps : List Part} (hps : covers ps [.net, .fab, .macs, .logic, .ports, .rgns] = true) (s₀ : State) (r : Nat) (swap : Bool) (s : State) :
    SameBut ps s₀ (assertGsr r swap s) ↔ SameBut ps s₀ s := by
  refine SameBut.iff (k := [.net, .fab, .macs, .logic, .ports, .rgns]) ?_ hps s₀
  simp (disch := decide) [assertGsr]

@[simp] theorem sameBut_clearHistories {ps : List Part} (hps : covers ps [.fab, .ports, .rgns] = true) (s₀ : State) (r : Nat) (s : State) :
    SameBut ps s₀ (clearHistories r s) ↔ SameBut ps s₀ s := by
  refine SameBut.iff (k := [.fab, .ports, .rgns]) ?_ hps s₀
  unfold clearHistories
  extract_lets t src u
  have hu : SameBut [.fab, .ports, .rgns] s u := (sameBut_setFab (by decide) s _ t).2 (by simp (disch := decide) [t])
  exact (sameBut_foldl_iff (fun t l => by simp (disch := decide)) s _ u).2 hu

@[simp] theorem sameBut_clearAllStatus {ps : List Part} (hps : covers ps [.dev, .regs, .fab, .ports, .rgns, .time] = true) (s₀ : State) (s : State) :
    SameBut ps s₀ (clearAllStatus s) ↔ SameBut ps s₀ s := by
  refine SameBut.iff (k := [.dev, .regs, .fab, .ports, .rgns, .time]) ?_ hps s₀
  unfold clearAllStatus
  extract_lets pages t₁ t₂ t₃ src
  have h₁ : SameBut [.dev, .regs, .fab, .ports, .rgns, .time] s t₁ := sameBut_foldl (fun t p => by simp (disch := decide)) _ s
  have h₂ : SameBut [.dev, .regs, .fab, .ports, .rgns, .time] s t₂ := (sameBut_foldl_iff (fun t p => by simp (disch := decide)) s _ _).2 h₁
  have h₃ : SameBut [.dev, .regs, .fab, .ports, .rgns, .time] s t₃ := (sameBut_foldl_iff (fun t p => by simp (disch := decide)) s _ _).2 h₂
  exact (sameBut_setTime (by decide) s _ t₃).2 h₃

@[simp] theorem sameBut_clearWatchdog {ps : List Part} (hps : covers ps [.regs] = true) (s₀ : State) (s : State) :
    SameBut ps s₀ (clearWatchdog s) ↔ SameBut ps s₀ s := by
  refine SameBut.iff (k := [.regs]) ?_ hps s₀
  simp (disch := decide) [clearWatchdog]

@[simp] theorem sameBut_agentGone {ps : List Part} (hps : covers ps [.regs, .net, .dma] = true) (s₀ : State) (s : State) :
    SameBut ps s₀ (agentGone s) ↔ SameBut ps s₀ s := by
  refine SameBut.iff (k := [.regs, .net, .dma]) ?_ hps s₀
  unfold agentGone
  split <;> simp (disch := decide)

@[simp] theorem sameBut_schedResetReports {ps : List Part} (hps : covers ps [.sched, .rgns] = true) (s₀ : State) (s : State) :
    SameBut ps s₀ (schedResetReports s) ↔ SameBut ps s₀ s := by
  refine SameBut.iff (k := [.sched, .rgns]) ?_ hps s₀
  unfold schedResetReports
  split
  · exact sameBut_refl _ s
  · split
    · exact sameBut_refl _ s
    · exact sameBut_foldl (fun t r => by simp (disch := decide)) _ s

@[simp] theorem sameBut_schedSoftReset {ps : List Part} (hps : covers ps [.dev, .regs, .net, .sched, .rgns] = true) (s₀ : State) (s : State) :
    SameBut ps s₀ (schedSoftReset s) ↔ SameBut ps s₀ s := by
  refine SameBut.iff (k := [.dev, .regs, .net, .sched, .rgns]) ?_ hps s₀
  simp (disch := decide) [schedSoftReset]

@[simp] theorem sameBut_discardWork {ps : List Part} (hps : covers ps [.dev, .regs, .net, .ports, .sched, .dma, .rgns] = true) (s₀ : State) (s : State) :
    SameBut ps s₀ (discardWork s) ↔ SameBut ps s₀ s := by
  refine SameBut.iff (k := [.dev, .regs, .net, .ports, .sched, .dma, .rgns]) ?_ hps s₀
  unfold discardWork
  extract_lets t u src
  have ht : SameBut [.dev, .regs, .net, .ports, .sched, .dma, .rgns] s t := by simp (disch := decide) [t]
  have hu : SameBut [.dev, .regs, .net, .ports, .sched, .dma, .rgns] s u :=
    (sameBut_agentGone (by decide) s _).2 ((sameBut_foldl_iff (fun t c => by simp (disch := decide)) s _ _).2 ht)
  exact (sameBut_setDma (by decide) s _ u).2 hu

@[simp] theorem sameBut_dropEntry {ps : List Part} (hps : covers ps [.regs, .pwr] = true) (s₀ : State) (s : State) :
    SameBut ps s₀ (dropEntry s) ↔ SameBut ps s₀ s := by
  refine SameBut.iff (k := [.regs, .pwr]) ?_ hps s₀
  simp (disch := decide) [dropEntry]

@[simp] theorem sameBut_irqRise {ps : List Part} (hps : covers ps [.regs, .io] = true) (s₀ : State) (s t : State) :
    SameBut ps s₀ (irqRise s t) ↔ SameBut ps s₀ t := by
  refine SameBut.iff (k := [.regs, .io]) ?_ hps s₀
  unfold irqRise
  refine sameBut_foldl (fun t x => ?_) _ _
  (repeat' split) <;> simp (disch := decide)

@[simp] theorem sameBut_enterMode {ps : List Part} (hps : covers ps [.mode, .dev, .regs, .io] = true) (s₀ : State) (m : Mode) (s : State) :
    SameBut ps s₀ (enterMode m s) ↔ SameBut ps s₀ s := by
  refine SameBut.iff (k := [.mode, .dev, .regs, .io]) ?_ hps s₀
  simp (disch := decide) [enterMode]

@[simp] theorem sameBut_putEff {ps : List Part} (hps : covers ps [.regs] = true) (s₀ : State) (s : State) :
    SameBut ps s₀ (putEff s) ↔ SameBut ps s₀ s := by
  refine SameBut.iff (k := [.regs]) ?_ hps s₀
  simp (disch := decide) [putEff]

@[simp] theorem sameBut_closeInput {ps : List Part} (hps : covers ps [.regs, .net] = true) (s₀ : State) (inp : ChanId) (code : Nat) (s : State) :
    SameBut ps s₀ (closeInput inp code s) ↔ SameBut ps s₀ s := by
  refine SameBut.iff (k := [.regs, .net]) ?_ hps s₀
  unfold closeInput
  dsimp only
  (repeat' split) <;> simp (disch := decide)

@[simp] theorem sameBut_releaseHold {ps : List Part} (hps : covers ps [.sched] = true) (s₀ : State) (r : Nat) (s : State) :
    SameBut ps s₀ (releaseHold r s) ↔ SameBut ps s₀ s := by
  refine SameBut.iff (k := [.sched]) ?_ hps s₀
  simp (disch := decide) [releaseHold]

@[simp] theorem sameBut_sqEmpty {ps : List Part} (hps : covers ps [.regs, .rgns, .io] = true) (s₀ : State) (r : Nat) (s : State) :
    SameBut ps s₀ (sqEmpty r s) ↔ SameBut ps s₀ s := by
  refine SameBut.iff (k := [.regs, .rgns, .io]) ?_ hps s₀
  simp (disch := decide) [sqEmpty]

@[simp] theorem sameBut_abortRegion {ps : List Part} (hps : covers ps [.regs, .net, .logic, .sched, .rgns, .io] = true) (s₀ : State) (r code : Nat) (s : State) :
    SameBut ps s₀ (abortRegion r code s) ↔ SameBut ps s₀ s := by
  refine SameBut.iff (k := [.regs, .net, .logic, .sched, .rgns, .io]) ?_ hps s₀
  unfold abortRegion
  extract_lets t₁ t₂ t₃ t₄
  have h₁ : SameBut [.regs, .net, .logic, .sched, .rgns, .io] s t₁ := sameBut_foldl (fun t u => by simp (disch := decide)) _ s
  have h₂ : SameBut [.regs, .net, .logic, .sched, .rgns, .io] s t₂ := (sameBut_foldl_iff (fun t u => by simp (disch := decide)) s _ _).2 h₁
  have h₃ : SameBut [.regs, .net, .logic, .sched, .rgns, .io] s t₃ := (sameBut_sqEmpty (by decide) s r t₂).2 h₂
  have h₄ : SameBut [.regs, .net, .logic, .sched, .rgns, .io] s t₄ := (sameBut_foldl_iff (fun t u => by simp (disch := decide)) s _ _).2 h₃
  simp (disch := decide) [h₄]

@[simp] theorem sameBut_recordAbort {ps : List Part} (hps : covers ps [.regs, .fox, .io] = true) (s₀ : State) (m : BitVec 64) (code low : Nat) (s : State) :
    SameBut ps s₀ (recordAbort m code low s) ↔ SameBut ps s₀ s := by
  refine SameBut.iff (k := [.regs, .fox, .io]) ?_ hps s₀
  unfold recordAbort
  extract_lets t u
  rw [sameBut_disarmSet (by decide)]
  exact (sameBut_foldl_iff (fun t r => by simp (disch := decide)) s _ _).2 (by simp (disch := decide) [t])

@[simp] theorem sameBut_abortSet {ps : List Part} (hps : covers ps [.regs, .net, .logic, .sched, .rgns, .fox, .io] = true) (s₀ : State) (code low : Nat) (s : State) :
    SameBut ps s₀ (abortSet code low s) ↔ SameBut ps s₀ s := by
  refine SameBut.iff (k := [.regs, .net, .logic, .sched, .rgns, .fox, .io]) ?_ hps s₀
  unfold abortSet
  split
  · exact sameBut_refl _ s
  · extract_lets t
    rw [sameBut_recordAbort (by decide)]
    simp only [t]
    split
    · exact sameBut_foldl (fun t r => by simp (disch := decide)) _ s
    · exact sameBut_refl _ s

@[simp] theorem sameBut_resetSet {ps : List Part} (hps : covers ps [.regs, .net, .logic, .sched, .rgns, .fox, .io] = true) (s₀ : State) (s : State) :
    SameBut ps s₀ (resetSet s) ↔ SameBut ps s₀ s := by
  refine SameBut.iff (k := [.regs, .net, .logic, .sched, .rgns, .fox, .io]) ?_ hps s₀
  unfold resetSet
  split
  · exact sameBut_refl _ s
  · split
    · exact sameBut_refl _ s
    · split
      · simp (disch := decide)
      · rw [sameBut_disarmSet (by decide)]
        exact sameBut_foldl (fun t r => by simp (disch := decide)) _ s

@[simp] theorem sameBut_setCause {ps : List Part} (hps : covers ps [.regs] = true) (s₀ : State) (n : Nat) (s : State) :
    SameBut ps s₀ (setCause n s) ↔ SameBut ps s₀ s := by
  refine SameBut.iff (k := [.regs]) ?_ hps s₀
  simp (disch := decide) [setCause]

@[simp] theorem sameBut_rerunRelease {ps : List Part} (hps : covers ps [.mode, .dev, .regs, .net, .fab, .macs, .logic, .ports, .sched, .dma, .rgns, .fox, .pwr, .time, .io] = true) (s₀ : State) (cause : Nat) (s : State) :
    SameBut ps s₀ (rerunRelease cause s) ↔ SameBut ps s₀ s := by
  refine SameBut.iff (k := [.mode, .dev, .regs, .net, .fab, .macs, .logic, .ports, .sched, .dma, .rgns, .fox, .pwr, .time, .io]) ?_ hps s₀
  unfold rerunRelease
  extract_lets t₁ t₂ t₃ src
  have h₁ : SameBut [.mode, .dev, .regs, .net, .fab, .macs, .logic, .ports, .sched, .dma, .rgns, .fox, .pwr, .time, .io] s t₁ := by
    simp (disch := decide) [t₁]
  have h₂ : SameBut [.mode, .dev, .regs, .net, .fab, .macs, .logic, .ports, .sched, .dma, .rgns, .fox, .pwr, .time, .io] s t₂ :=
    (sameBut_foldl_iff (fun t r => by split <;> simp (disch := decide)) s _ _).2 h₁
  simp (disch := decide) [t₃, h₂]

@[simp] theorem sameBut_fabricStopped {ps : List Part} (hps : covers ps [.mode, .dev, .regs, .pwr] = true) (s₀ : State) (s : State) :
    SameBut ps s₀ (fabricStopped s) ↔ SameBut ps s₀ s := by
  refine SameBut.iff (k := [.mode, .dev, .regs, .pwr]) ?_ hps s₀
  simp (disch := decide) [fabricStopped]

@[simp] theorem sameBut_setPhase {ps : List Part} (hps : covers ps [.regs] = true) (s₀ : State) (n : Nat) (s : State) :
    SameBut ps s₀ (setPhase n s) ↔ SameBut ps s₀ s := by
  refine SameBut.iff (k := [.regs]) ?_ hps s₀
  simp (disch := decide) [setPhase]

@[simp] theorem sameBut_stopped {ps : List Part} (hps : covers ps [.regs] = true) (s₀ : State) (c : Nat) (s : State) :
    SameBut ps s₀ (stopped c s) ↔ SameBut ps s₀ s := by
  refine SameBut.iff (k := [.regs]) ?_ hps s₀
  simp (disch := decide) [stopped]

@[simp] theorem sameBut_enterRecovery {ps : List Part} (hps : covers ps [.mode, .dev, .regs, .pwr, .io] = true) (s₀ : State) (c : Nat) (s : State) :
    SameBut ps s₀ (enterRecovery c s) ↔ SameBut ps s₀ s := by
  refine SameBut.iff (k := [.mode, .dev, .regs, .pwr, .io]) ?_ hps s₀
  simp (disch := decide) [enterRecovery]

@[simp] theorem sameBut_unfenceRegion {ps : List Part} (hps : covers ps [.net] = true) (s₀ : State) (r : Nat) (s : State) :
    SameBut ps s₀ (unfenceRegion r s) ↔ SameBut ps s₀ s := by
  refine SameBut.iff (k := [.net]) ?_ hps s₀
  unfold unfenceRegion
  simp (disch := decide)
  exact sameBut_forPorts (fun p t => by simp (disch := decide)) r s

@[simp] theorem sameBut_allRegionsOn {ps : List Part} (hps : covers ps [.net, .rgns] = true) (s₀ : State) (s : State) :
    SameBut ps s₀ (allRegionsOn s) ↔ SameBut ps s₀ s := by
  refine SameBut.iff (k := [.net, .rgns]) ?_ hps s₀
  unfold allRegionsOn
  refine sameBut_foldl (fun t x => ?_) _ _
  (repeat' split) <;> simp (disch := decide)

@[simp] theorem sameBut_enterLoad {ps : List Part} (hps : covers ps [.mode, .dev, .regs, .pwr, .io] = true) (s₀ : State) (k : LoadKind) (s : State) :
    SameBut ps s₀ (enterLoad k s) ↔ SameBut ps s₀ s := by
  refine SameBut.iff (k := [.mode, .dev, .regs, .pwr, .io]) ?_ hps s₀
  simp (disch := decide) [enterLoad]

@[simp] theorem sameBut_bootInto {ps : List Part} (hps : covers ps [.mode, .dev, .regs, .net, .rgns, .store, .upd, .pwr, .io] = true) (s₀ : State) (k : LoadKind) (b : Bool) (s : State) :
    SameBut ps s₀ (bootInto k b s) ↔ SameBut ps s₀ s := by
  refine SameBut.iff (k := [.mode, .dev, .regs, .net, .rgns, .store, .upd, .pwr, .io]) ?_ hps s₀
  simp (disch := decide) [bootInto]

@[simp] theorem sameBut_ringStraps {ps : List Part} (hps : covers ps [.regs] = true) (s₀ : State) (s : State) :
    SameBut ps s₀ (ringStraps s) ↔ SameBut ps s₀ s := by
  refine SameBut.iff (k := [.regs]) ?_ hps s₀
  simp (disch := decide) [ringStraps]

@[simp] theorem sameBut_applyStraps {ps : List Part} (hps : covers ps [.regs, .io] = true) (s₀ : State) (s : State) :
    SameBut ps s₀ (applyStraps s) ↔ SameBut ps s₀ s := by
  refine SameBut.iff (k := [.regs, .io]) ?_ hps s₀
  simp (disch := decide) [applyStraps]

@[simp] theorem sameBut_fuseMacs {ps : List Part} (hps : covers ps [.regs] = true) (s₀ : State) (s : State) :
    SameBut ps s₀ (fuseMacs s) ↔ SameBut ps s₀ s := by
  refine SameBut.iff (k := [.regs]) ?_ hps s₀
  simp (disch := decide) [fuseMacs]

@[simp] theorem sameBut_freshStartup {ps : List Part} (hps : covers ps [.regs] = true) (s₀ : State) (s : State) :
    SameBut ps s₀ (freshStartup s) ↔ SameBut ps s₀ s := by
  refine SameBut.iff (k := [.regs]) ?_ hps s₀
  simp (disch := decide) [freshStartup]

@[simp] theorem sameBut_loadPointer {ps : List Part} (hps : covers ps [.upd] = true) (s₀ : State) (s : State) :
    SameBut ps s₀ (loadPointer s) ↔ SameBut ps s₀ s := by
  refine SameBut.iff (k := [.upd]) ?_ hps s₀
  unfold loadPointer
  split <;> simp (disch := decide)

end Sys2Proof.Machine

/-! PROOFS. O36: power-on, resets and straps. -/

namespace Sys2Proof.Machine

open Sys2Proof

/-- A mode that is entered is the mode, and what was before it is recorded at most. -/
theorem dev_enterMode (m : Mode) (s : State) : ∃ p, (enterMode m s).dev = { s.dev with mode := m, previous := p } := by
  unfold enterMode
  split
  · next h => exact ⟨s.dev.previous, by rw [← h]⟩
  · exact ⟨BitVec.ofNat 4 (modeCode s.dev.mode), by simp⟩

@[simp] theorem mode_enterMode (m : Mode) (s : State) : (enterMode m s).dev.mode = m := by
  obtain ⟨p, h⟩ := dev_enterMode m s
  rw [h]

/-- The release state of the device, and the gates that it has opened. -/
def releaseState (s : State) : Bool × Nat × Bool × Bool × Bool :=
  (s.dev.rerun, s.dev.relStep, s.dev.outReleased, s.dev.weReleased, s.dev.srReleased)

theorem releaseState_enterMode (m : Mode) (s : State) : releaseState (enterMode m s) = releaseState s := by
  obtain ⟨p, h⟩ := dev_enterMode m s
  simp only [releaseState, h]

/-- The straps as they were sampled. -/
def sampledStraps (s : State) : BitVec 15 × Bool := (s.dev.straps, s.dev.sampled)

theorem sampledStraps_of_dev {s t : State} (h : t.dev.straps = s.dev.straps ∧ t.dev.sampled = s.dev.sampled) :
    sampledStraps t = sampledStraps s := by rw [sampledStraps, h.1, h.2, sampledStraps]

theorem sampledStraps_enterMode (m : Mode) (s : State) : sampledStraps (enterMode m s) = sampledStraps s := by
  obtain ⟨p, h⟩ := dev_enterMode m s
  exact sampledStraps_of_dev (by rw [h]; exact ⟨rfl, rfl⟩)

theorem enterRecovery_keeps (c : Nat) (s : State) :
    sampledStraps (enterRecovery c s) = sampledStraps s ∧ (enterRecovery c s).dev.mode = .recovery := by
  have hstop : (enterRecovery c s).dev = (enterMode .recovery (fabricStopped s)).dev := by
    simp [enterRecovery, stopped, setPhase]
  have hfab : sampledStraps (fabricStopped s) = sampledStraps s := by
    refine sampledStraps_of_dev ?_
    unfold fabricStopped dropEntry
    split <;> simp
  refine ⟨?_, by rw [hstop, mode_enterMode]⟩
  have hmode := sampledStraps_enterMode .recovery (fabricStopped s)
  rw [← hfab, ← hmode]
  exact sampledStraps_of_dev (by rw [hstop]; exact ⟨rfl, rfl⟩)

theorem sampledStraps_bootInto (k : LoadKind) (b : Bool) (s : State) :
    sampledStraps (bootInto k b s) = sampledStraps s := by
  have hregions (u : State) : (allRegionsOn u).dev = u.dev :=
    ((sameBut_allRegionsOn (ps := [.net, .rgns]) (by decide) u u).2 (sameBut_refl _ u)).device (by decide) (by decide)
  have hload (u : State) : sampledStraps (enterLoad k u) = sampledStraps (enterMode .load u) :=
    sampledStraps_of_dev (by simp [enterLoad, setPhase])
  unfold bootInto
  dsimp only
  rw [hload, sampledStraps_enterMode]
  exact sampledStraps_of_dev (by rw [hregions]; exact ⟨rfl, rfl⟩)

theorem straps_mod_four (pins : BitVec 15) : (pins &&& 0x77FF).toNat % 4 = pins.toNat % 4 := by
  rw [BitVec.toNat_and, show 4 = 2 ^ 2 from rfl, Nat.and_mod_two_pow]
  exact (Nat.and_two_pow_sub_one_eq_mod _ 2).trans (Nat.mod_mod_of_dvd _ dvd_rfl)

/-- The device with its straps taken, before its boot. -/
def strapped (pins : BitVec 15) (s : State) : State :=
  s |> setDev { s.dev with straps := pins &&& 0x77FF, sampled := true } |> applyStraps
    |> freshStartup |> stamp R.RST_STARTUP_T0 15 0 |> fuseMacs |> loadPointer

theorem dev_strapped (pins : BitVec 15) (s : State) :
    (strapped pins s).dev = { s.dev with straps := pins &&& 0x77FF, sampled := true } := by
  have h : SameBut [.regs, .io, .upd, .free] (setDev { s.dev with straps := pins &&& 0x77FF, sampled := true } s)
      (strapped pins s) := by simp (disch := decide) [strapped]
  exact h.device (by decide) (by decide)

section
variable {pins : BitVec 15} {s : State} (hm : s.dev.mode = .hold) (hk : s.dev.holdKind = .boot) (hs : s.dev.sampled = false)
include hm hk hs

/-- Sampling ends in a stopped device, in RECOVERY, or in a load, by the straps and what can be booted. -/
theorem strapSampling_boots {t : State} (ht : strapped pins s = t) :
    (strapBoot t = 3 → strapSampling pins s = stopped E.PERM_FAULT t) ∧
    (strapBoot t = 1 → strapSampling pins s = enterRecovery E.NONE t) ∧
    (strapBoot t ≠ 3 → strapBoot t ≠ 1 → strapSampling pins s = enterRecovery E.ABSENT_TARGET t ∨
      ∃ b, strapSampling pins s = bootInto .powerUp b t) := by
  unfold strapped at ht
  unfold strapSampling
  rw [if_neg (by simp [hm]), hk]
  dsimp only
  rw [if_neg (by simp [hs]), ht]
  refine ⟨fun h3 => if_pos h3, fun h1 => ?_, fun h3 h1 => ?_⟩
  · rw [if_neg (by omega), if_pos h1]
  · rw [if_neg h3, if_neg h1]
    cases bootPair t with
    | none => exact Or.inl rfl
    | some b => exact Or.inr ⟨b, rfl⟩

/-- Sampling takes the straps, whatever they lead to. -/
theorem sampledStraps_strapSampling : sampledStraps (strapSampling pins s) = (pins &&& 0x77FF, true) := by
  have hd : sampledStraps (strapped pins s) = (pins &&& 0x77FF, true) := by rw [sampledStraps, dev_strapped]
  obtain ⟨h3, h1, hboot⟩ := strapSampling_boots (pins := pins) hm hk hs rfl
  rw [← hd]
  by_cases c3 : strapBoot (strapped pins s) = 3
  · rw [h3 c3]
    exact sampledStraps_of_dev (by simp [stopped, setPhase])
  · by_cases c1 : strapBoot (strapped pins s) = 1
    · rw [h1 c1]
      exact (enterRecovery_keeps ..).1
    · rcases hboot c3 c1 with h | ⟨b, h⟩
      · rw [h]
        exact (enterRecovery_keeps ..).1
      · rw [h]
        exact sampledStraps_bootInto ..

end

theorem fld_cause {n : Nat} (h : n < 16) (w : Word) : fld 3 0 (W (fld 3 0 w * 16 + n)) = n := by
  have hw := fld_lt 3 0 w
  have hword (v : Nat) (hv : v < 256) : fld 3 0 (W v) = v % 16 := by
    simp only [fld, W, BitVec.toNat_ofNat]
    omega
  rw [hword _ (by omega)]
  omega

/-- Entering a mode writes no register but the pending interrupts. -/
theorem rd_enterMode {q o : Nat} (h : NoPba q o) (hp : rkey q o ≠ rkey P.DEV R.IRQ_PEND) (m : Mode) (s : State) :
    rd q o (enterMode m s) = rd q o s := by
  unfold enterMode
  split
  · rfl
  · rw [rd_irq_off h hp, rd_irqRise_other h]
    rfl

/-- A re-run of the release closes the gates, and records its cause. -/
theorem rerunRelease_restarts {cause : Nat} (hc : cause < 16) (s : State) :
    (rerunRelease cause s).dev.mode = .release ∧ (rerunRelease cause s).dev.rerun = true ∧
      (rerunRelease cause s).dev.relStep = 0 ∧ (rerunRelease cause s).dev.outReleased = false ∧
      (rerunRelease cause s).dev.weReleased = false ∧ (rerunRelease cause s).dev.srReleased = false ∧
      fld 3 0 (rd P.RST R.RST_CAUSE (rerunRelease cause s)) = cause := by
  unfold rerunRelease
  extract_lets t₁ t₂ t₃ src
  generalize hu : setDev _ t₃ = u
  have hstate : releaseState (enterMode .release u) = (true, 0, false, false, false) :=
    (releaseState_enterMode .release u).trans (by rw [← hu]; rfl)
  simp only [releaseState, Prod.mk.injEq] at hstate
  obtain ⟨hre, hstep, hout, hwe, hsr⟩ := hstate
  refine ⟨mode_enterMode .., hre, hstep, hout, hwe, hsr, ?_⟩
  have hword : rd P.RST R.RST_CAUSE t₃ = W (fld 3 0 (rd P.RST R.RST_CAUSE t₂) * 16 + cause) := by
    simp only [t₃, putEff, setCause]
    rw [rd_wr_other (rkey_off (by decide)), rd_wrf_other (rkey_off (by decide)), rd_md_same]
  rw [rd_enterMode (noPba_page (by decide) (by decide)) (rkey_page (by decide) (by decide) (by decide)), ← hu, rd_setDev, hword,
    fld_cause hc]

/-- Settles O36: supplies, the reset pin, straps and the host's soft reset. -/
theorem suppliesResetsAndStraps : Obligations.SuppliesResetsAndStraps := by
  intro s
  refine ⟨fun h => ?_, fun h1 h2 => ?_, fun h => ?_, fun h1 h2 => ?_, fun h => ?_, fun pins hm hk hs => ?_, fun rq hr hrun => ⟨fun hg => ?_, fun ha hg => ?_⟩⟩
  · exact ⟨coldState false s, congrArg Host.Outcome.next (if_pos h), rfl, rfl, rfl, rfl, rfl, rfl, rfl⟩
  · refine congrArg Host.Outcome.next ((if_neg (by simp [h1, h2])).trans (if_neg h1))
  · exact ⟨_, congrArg Host.Outcome.next (if_neg h), rfl, rfl, rfl, rfl⟩
  · refine ⟨_, congrArg Host.Outcome.next ((if_neg h1).trans (if_neg h2)), ?_, ?_, ?_, ?_, fun hne => ?_⟩
    · rfl
    · rfl
    · rfl
    · rw [setCause, rd_md_same]
      exact fld_cause (by decide) _
    · exact if_neg hne
  · exact congrArg Host.Outcome.next ((if_neg (by simp [h])).trans (if_pos h))
  · have hboot : strapBoot (strapped pins s) = pins.toNat % 4 := by rw [strapBoot, dev_strapped, straps_mod_four]
    have hsampled := sampledStraps_strapSampling (pins := pins) hm hk hs
    obtain ⟨hstop, hrecover, -⟩ := strapSampling_boots (pins := pins) hm hk hs rfl
    refine ⟨_, rfl, congrArg Prod.fst hsampled, congrArg Prod.snd hsampled, fun h3 => ?_, fun h1 => ?_⟩
    · rw [hstop (hboot.trans h3)]
      refine ⟨by simp [stopped, setPhase, dev_strapped, hm], ?_⟩
      rw [stopped, rdf_wrf_same (by decide)]
      decide
    · rw [hrecover (hboot.trans h1)]
      exact (enterRecovery_keeps ..).2
  · refine congrArg Host.Outcome.next ((onPage_reaches hr ..).trans ?_)
    unfold deviceReset
    dsimp only
    rw [hrun]
    exact if_pos hg
  · have hexec : exec (.hostSoftReset rq) s = .next (rerunRelease 2 s) := by
      refine congrArg Host.Outcome.next ((onPage_reaches hr ..).trans ?_)
      unfold deviceReset
      dsimp only
      rw [hrun]
      exact if_neg (by simp [hg])
    obtain ⟨hmode, hre, hstep, hout, hwe, hsr, hcause⟩ := rerunRelease_restarts (cause := 2) (by decide) s
    have hsame := (sameBut_rerunRelease (ps := [.mode, .dev, .regs, .net, .fab, .macs, .logic, .ports, .sched, .dma, .rgns,
      .fox, .pwr, .time, .io]) (by decide) s 2 s).2 (sameBut_refl _ s)
    have hwords : (rerunRelease 2 s).banks.words = s.banks.words := hsame .words (by decide)
    have hplanes : (rerunRelease 2 s).planes = s.planes := hsame .planes (by decide)
    have hflash : (rerunRelease 2 s).flash = s.flash := hsame .flash (by decide)
    have hstore : (rerunRelease 2 s).store = s.store := hsame .store (by decide)
    exact ⟨_, hexec, hmode, hre, hstep, hout, hwe, hsr, hwords, hplanes, hflash, hstore, hcause⟩

end Sys2Proof.Machine

/-! PROOFS. O37: load, self-test and the locks of start-up. -/

namespace Sys2Proof.Machine

open Sys2Proof

/-- A stop in SAFE records its code. -/
theorem stopSafe_records (c : Nat) (s : State) :
    (stopSafe c s).dev.mode = .safe ∧ rdf P.RST R.RST_STARTUP_STAT 31 24 (stopSafe c s) = c % 256 := by
  have hmode : (stopped c (enterMode .safe (fabricStopped s))).dev.mode = .safe := by
    simp [stopped, setPhase]
  refine ⟨hmode, ?_⟩
  change rdf _ _ _ _ (stopped c (enterMode .safe (fabricStopped s))) = _
  rw [stopped, rdf_wrf_same (by decide)]
  rfl

/-- The self-test begins with its records clear. -/
theorem beginSelftest_clears (s : State) :
    (beginSelftest s).dev.mode = .selftest ∧ (beginSelftest s).wpk.failed = 0 ∧ (beginSelftest s).wpk.incomplete = 0 ∧
      rd P.WPK R.WPK_PU_FIRST (beginSelftest s) = 0 ∧ rd P.WPK R.WPK_PU_COUNTS (beginSelftest s) = 0 := by
  unfold beginSelftest
  dsimp only
  generalize hu : setWpk _ (enterMode .selftest s) = u
  have hmode : u.dev.mode = .selftest := by rw [← hu]; exact mode_enterMode ..
  have hfail : u.wpk.failed = 0 := by rw [← hu]; rfl
  have hinc : u.wpk.incomplete = 0 := by rw [← hu]; rfl
  have hpage {o : Nat} (ho : o < 4096) : rkey P.WPK o ≠ rkey P.RST R.RST_STARTUP_STAT :=
    rkey_page (by decide) ho (by decide)
  refine ⟨by simpa using hmode, by simpa using hfail, by simpa using hinc, ?_, ?_⟩
  · rw [rd_wrf_other (hpage (by decide)), rd_wr_other (rkey_off (by decide)), rd_wr_other (rkey_off (by decide)), rd_wr_same]
  · rw [rd_wrf_other (hpage (by decide)), rd_wr_other (rkey_off (by decide)), rd_wr_same]

/-- Ten bits are five fields of two. -/
theorem fld_ten (w : Word) :
    fld 9 0 w = fld 1 0 w + 4 * fld 3 2 w + 16 * fld 5 4 w + 64 * fld 7 6 w + 256 * fld 9 8 w := by
  simp only [fld]
  omega

/-- With every class passed, the verdict of each is PASS. -/
theorem putVerdicts_passed {s : State} (hf : s.wpk.failed = 0) (hi : s.wpk.incomplete = 0) :
    fld 9 0 (rd P.WPK R.WPK_PU_STAT (putVerdicts s)) = 0x155 := by
  have hv (c : Nat) : classVerdict c s = 1 := by simp [classVerdict, hf, hi]
  have hrd : rd P.WPK R.WPK_PU_STAT (putVerdicts s) =
      setFld 9 8 1 (setFld 7 6 1 (setFld 5 4 1 (setFld 3 2 1 (setFld 1 0 1 (rd P.WPK R.WPK_PU_STAT s))))) := by
    simp [putVerdicts, List.range_succ, hv]
  rw [hrd, fld_ten]
  simp [fld_setFld_same, fld_setFld_other]

theorem sameBut_putVerdicts (s : State) : SameBut [.regs] s (putVerdicts s) :=
  sameBut_foldl (fun t c => by simp (disch := decide)) _ s

theorem sameBut_afterTest (s : State) :
    SameBut [.words, .ports, .net, .fab, .macs, .logic, .rgns] s (afterTest s) := by
  unfold afterTest
  extract_lets t
  have ht : SameBut [.words, .ports, .net, .fab, .macs, .logic, .rgns] s t := fun p hp => by
    cases p <;> simp_all [agree, t]
  exact (sameBut_foldl_iff (fun t r => by simp (disch := decide)) s _ t).2 ht

/-- The state behind the power-up test. -/
theorem tested_keeps (s : State) : let t := stamp R.RST_STARTUP_T1 15 0 (afterTest (putVerdicts s))
    t.dev = s.dev ∧ t.wpk = s.wpk := by
  have h₁ := sameBut_putVerdicts s
  have h₂ : SameBut [.regs, .free, .words, .ports, .net, .fab, .macs, .logic, .rgns] s (afterTest (putVerdicts s)) :=
    (h₁.weaken (by decide)).trans ((sameBut_afterTest (putVerdicts s)).weaken (by decide))
  have h := (sameBut_stamp (by decide) s R.RST_STARTUP_T1 15 0 (afterTest (putVerdicts s))).2 h₂
  exact ⟨h.device (by decide) (by decide), h .wpk (by decide)⟩

/-- The code of a power-up test: a failed class before an incomplete one. -/
def testCode (t : State) : Nat :=
  if t.wpk.failed ≠ 0 then E.BIST_FAIL else if t.wpk.incomplete ≠ 0 then E.BIST_INCOMPLETE else E.NONE

theorem selftestDone_tests {s t : State} (hm : s.dev.mode = .selftest)
    (ht : stamp R.RST_STARTUP_T1 15 0 (afterTest (putVerdicts s)) = t) : selftestDone s =
      if strapTest t = 3 then
        stopped (testCode t) (setDev { (enterMode .hold t).dev with holdKind := .test } (enterMode .hold t))
      else if testCode t = E.NONE then beginRelease t
      else stopSafe (testCode t) t := by
  unfold selftestDone
  rw [if_neg (by simp [hm])]
  dsimp only
  rw [ht]
  rfl

theorem powerUpLoadDone_loads {s : State} {r : Option Nat × State} (hm : s.dev.mode = .load)
    (h1 : s.dev.loadKind ≠ .wakeSleep) (h2 : s.dev.loadKind ≠ .wakeBear) (hr : loadAll loadBoot (List.range 64) s = r) :
    (r.1 = none → powerUpLoadDone s = beginSelftest (loadIoRecord (stamp R.RST_STARTUP_T0 31 16 r.2))) ∧
      ∀ c, r.1 = some c → powerUpLoadDone s = stopSafe c (stamp R.RST_STARTUP_T0 31 16 r.2) := by
  unfold powerUpLoadDone
  rw [if_neg (by simp [hm]), if_neg (by simp [h1, h2]), hr]
  dsimp only
  exact ⟨fun hn => by rw [hn], fun c hc => by rw [hc]⟩

/-- The locks of a start-up: they fail, or the loops lock and DONE is released. -/
theorem lockDone_locks {s : State} (hm : s.dev.mode = .release) (hre : s.dev.rerun = false) (hh : s.pwr.hare = true)
    (hk : s.dev.loadKind = .powerUp) (e : BitVec 5) {r : Bool × State} (hr : loadClockRecord (setVouts e s) = r) :
    lockDone false e false s = stopSafe E.LEVEL_REFUSED s ∧ (r.1 = false → lockDone true e false s =
      releaseDone (stamp R.RST_STARTUP_T1 31 16 (leaveHare (wrf P.PMU R.PMU_LEVEL_STAT 9 9 1 (voutSend (strapPl r.2) r.2))))) := by
  refine ⟨?_, fun hn => ?_⟩
  · unfold lockDone
    rw [if_neg (by simp [hm]), if_neg (by simp [hre, hh]), hk]
    rfl
  · unfold lockDone
    rw [if_neg (by simp [hm]), if_neg (by simp [hre, hh]), hk]
    dsimp only
    rw [if_neg (by decide), hr, hn, if_neg Bool.false_ne_true, if_neg Bool.false_ne_true]

/-- Settles O37: the load, the self-test, and the locks of start-up. -/
theorem startupLoadsTestsAndLocks : Obligations.StartupLoadsTestsAndLocks := by
  intro s
  refine ⟨fun hm h1 h2 => ?_, fun hm => ?_, fun e hm hre hh hk => ⟨?_, ?_⟩, fun e hm hre hh hk => ?_⟩
  · intro r
    obtain ⟨hgood, hbad⟩ := powerUpLoadDone_loads hm h1 h2 (r := r) rfl
    exact ⟨fun hn => ⟨_, congrArg Host.Outcome.next (hgood hn), beginSelftest_clears _⟩,
      fun c hc => ⟨_, congrArg Host.Outcome.next (hbad c hc), stopSafe_records c _⟩⟩
  · intro t
    obtain ⟨hdev, hwpk⟩ := tested_keeps s
    have htest : strapTest t = strapTest s := by simp only [strapTest, t, hdev]
    have hfail : t.wpk.failed = s.wpk.failed := congrArg Wpk.failed hwpk
    have hinc : t.wpk.incomplete = s.wpk.incomplete := congrArg Wpk.incomplete hwpk
    have hdone := selftestDone_tests hm (t := t) rfl
    clear_value t
    refine ⟨fun h3 hf hi => ⟨congrArg Host.Outcome.next ?_, putVerdicts_passed hf hi⟩, fun h3 hf => congrArg Host.Outcome.next ?_,
      fun h3 => ⟨selftestDone s, rfl, ?_⟩⟩
    · have hcode : testCode t = E.NONE := by
        rw [testCode, hfail, hinc, if_neg (not_not.2 hf), if_neg (not_not.2 hi)]
      rw [hdone, htest, if_neg h3, if_pos hcode]
    · have hcode : testCode t = E.BIST_FAIL := by rw [testCode, hfail, if_pos hf]
      rw [hdone, htest, if_neg h3, hcode, if_neg (by decide)]
    · rw [hdone, if_pos (htest.trans h3)]
      simp [stopped, setPhase]
  · exact congrArg Host.Outcome.next (lockDone_locks hm hre hh hk e rfl).1
  · intro r hr
    exact congrArg Host.Outcome.next ((lockDone_locks hm hre hh hk e rfl).2 hr)
  · refine congrArg Host.Outcome.next ?_
    unfold lockDone
    rw [if_neg (by simp [hm]), if_neg (by simp [hre, hh]), hk]
    dsimp only
    rw [if_neg Bool.false_ne_true]

end Sys2Proof.Machine

/-! PROOFS. O38: release steps and the commands of the mode. -/

namespace Sys2Proof.Machine

open Sys2Proof

theorem rd_drawn (q o : Nat) (s : State) : rd q o (drawn s) = rd q o s := rfl

/-- A release step that is ready and not the last opens its gate. -/
theorem releaseStep_opens {s : State} (hm : s.dev.mode = .release) (hr : releaseReady s = true) (hk : s.dev.relStep < 2) :
    let item := relItem (rdf P.RST R.RST_RELEASE_EFF 2 0 s) s.dev.relStep
    (releaseStep s).dev.mode = .release ∧ (releaseStep s).dev.relStep = s.dev.relStep + 1 ∧
      (releaseStep s).dev.outReleased = (s.dev.outReleased || item == 0) ∧
      (releaseStep s).dev.weReleased = (s.dev.weReleased || item == 1) ∧
      (releaseStep s).dev.srReleased = (s.dev.srReleased || item != 0 && item != 1) ∧ (releaseStep s).banks = s.banks := by
  intro item
  unfold releaseStep
  rw [if_neg (by simp [hm]), if_neg (by simp [hr])]
  extract_lets k src d d' t t'
  rw [if_neg (by omega)]
  have ht : t'.dev = d' ∧ t'.banks = s.banks := by
    simp only [t', setPhase]
    split <;> simp [t]
  have hitem : relItem (fld 2 0 (rd P.RST R.RST_RELEASE_EFF s)) k = item := rfl
  obtain ⟨hdev, hbanks⟩ := ht
  rw [hdev, hbanks]
  simp only [d', hitem]
  clear_value item
  split
  · simp [d, src, k, hm]
  · simp [d, src, k, hm]
  · next h0 h1 =>
    have h0 : item ≠ 0 := h0
    have h1 : item ≠ 1 := h1
    simp [d, src, k, h0, h1, hm]

/-- The last step of a re-run that opens SR enters RUN. -/
theorem releaseStep_last {s : State} (hm : s.dev.mode = .release) (hr : releaseReady s = true) (hk : s.dev.relStep = 2)
    (hre : s.dev.rerun = true) (hi : relItem (rdf P.RST R.RST_RELEASE_EFF 2 0 s) 2 = 2) :
    releaseStep s = enterRun (setDev { s.dev with relStep := 3, srReleased := true } s) := by
  unfold releaseStep
  rw [if_neg (by simp [hm]), if_neg (by simp [hr])]
  dsimp only
  rw [rdf] at hi
  rw [hk, hi]
  rw [if_pos rfl, if_pos hre]
  rfl

/-- Entering SAFE from RUN closes the gates, with DONE still released. -/
theorem enterSafe_closes {s : State} (hm : s.dev.mode = .run) :
    (enterSafe s).dev.mode = .safe ∧ (enterSafe s).dev.previous = 5 ∧ (enterSafe s).dev.safeFromRun = true ∧
      (enterSafe s).dev.outReleased = false ∧ (enterSafe s).dev.weReleased = false ∧ (enterSafe s).dev.srReleased = false ∧
      rdf P.RST R.RST_DONE_STAT 0 0 (enterSafe s) = 1 ∧ (enterSafe s).banks = s.banks := by
  have hfab : (fabricStopped s).dev = { s.dev with
      outReleased := false, weReleased := false, srReleased := false, doneReleased := false, doneSeen := false,
      relStep := 0, rerun := false } := by
    unfold fabricStopped dropEntry
    split <;> simp
  have hdone : rdf P.RST R.RST_DONE_STAT 0 0 (fabricStopped s) = 1 := by
    rw [fabricStopped, rdf_wrf_same (by decide)]
    rfl
  have hbanks : (fabricStopped s).banks = s.banks :=
    ((sameBut_fabricStopped (ps := [.mode, .dev, .regs, .pwr]) (by decide) s s).2 (sameBut_refl _ s)).banks (by decide) (by decide)
  have hrd : rd P.RST R.RST_DONE_STAT (enterSafe s) = rd P.RST R.RST_DONE_STAT (fabricStopped s) :=
    rd_enterMode (noPba_page (by decide) (by decide)) (rkey_page (by decide) (by decide) (by decide)) ..
  unfold enterSafe at *
  generalize fabricStopped s = u at *
  have hmode : u.dev.mode ≠ .safe := by rw [hfab]; simp [hm]
  unfold enterMode at *
  rw [if_neg hmode] at *
  refine ⟨by simp, by simp [hfab, hm, modeCode], rfl, by simp [hfab], by simp [hfab], by simp [hfab], ?_, by simp [hbanks]⟩
  rw [rdf, hrd]
  exact hdone

/-- Settles O38: DONE, the release steps, and the commands CONTINUE, ENTER_SAFE and REBOOT. -/
theorem releaseStepsOpenTheGates : Obligations.ReleaseStepsOpenTheGates := by
  intro s
  refine ⟨fun hm hd hs => ?_, fun hm => ⟨?_, ?_⟩, fun hm hr hk => ⟨_, rfl, releaseStep_opens hm hr hk⟩,
    fun hm hr hk hre hi => congrArg Host.Outcome.next (releaseStep_last hm hr hk hre hi), fun hm hr => ?_,
    fun rq hr => ⟨fun hm hk hh hp => ?_, fun hm => ?_, fun hm hh => ?_, fun hh => ?_, fun hm hh hu => ?_, fun hm => ?_⟩⟩
  · have hseen : doneSeenHigh s = stamp R.RST_STARTUP_T2 15 0 (wrf P.RST R.RST_STARTUP_STAT 7 7 1
        (setDev { s.dev with doneSeen := true } (setIo { s.io with doneLine := true } s))) := by
      unfold doneSeenHigh
      rw [if_neg (by simp [hm])]
      exact if_pos ⟨hm, hd, by simp [hs]⟩
    refine ⟨_, congrArg Host.Outcome.next hseen, by simp [stamp, drawn], by simp [stamp, drawn], ?_⟩
    rw [stamp, rdf, rd_drawn, rd_wrf_other (rkey_off (by decide))]
    exact rdf_wrf_same (by decide) ..
  · refine congrArg Host.Outcome.next ((if_neg (by simp [hm])).trans (if_neg ?_))
    simp [hm]
  · exact congrArg Host.Outcome.next ((if_neg (by simp [hm])).trans (if_pos hm))
  · refine congrArg Host.Outcome.next ((if_neg (by simp [hm])).trans (if_pos (by simp [hr])))
  · exact congrArg Host.Outcome.next ((onPage_reaches hr ..).trans (if_pos ⟨hm, hk, hh, hp⟩))
  · exact congrArg Host.Outcome.next ((onPage_reaches hr ..).trans (if_neg fun h => hm h.1))
  · exact ⟨_, congrArg Host.Outcome.next ((onPage_reaches hr ..).trans (if_pos ⟨hm, hh⟩)), enterSafe_closes hm⟩
  · exact congrArg Host.Outcome.next ((onPage_reaches hr ..).trans (if_neg fun h => hh h.2))
  · refine ⟨_, congrArg Host.Outcome.next ((onPage_reaches hr ..).trans (if_pos ⟨hm, hh, hu⟩)), ?_, ?_, ?_⟩
    · simp [freshStartup]
    · simp [freshStartup]
    · simp only [freshStartup]
      rw [rd_wr_other (rkey_off (by decide)), rd_wr_other (rkey_off (by decide)), rd_wr_other (rkey_off (by decide)),
        rd_wr_other (rkey_off (by decide)), rd_wr_same]
  · exact congrArg Host.Outcome.next ((onPage_reaches hr ..).trans (if_neg fun h => hm h.1))

end Sys2Proof.Machine

/-! PROOFS. Which components further operations may change. -/

namespace Sys2Proof.Machine

open Sys2Proof

@[simp] theorem sameBut_loadRefused {ps : List Part} (hps : covers ps [.regs, .rgns, .fox, .io] = true) (s₀ : State) (rs : List Nat) (started : Bool) (code frame : Nat) (s : State) :
    SameBut ps s₀ (loadRefused rs started code frame s) ↔ SameBut ps s₀ s := by
  refine SameBut.iff (k := [.regs, .rgns, .fox, .io]) ?_ hps s₀
  unfold loadRefused
  extract_lets t
  have ht : SameBut [.regs, .rgns, .fox, .io] s t := by
    simp only [t]
    split
    · exact sameBut_foldl (fun t r => by simp (disch := decide)) _ s
    · exact sameBut_refl _ s
  simp (disch := decide) [ht]

@[simp] theorem sameBut_startLoad {ps : List Part} (hps : covers ps [.regs, .rgns, .fox] = true) (s₀ : State) (r : Nat) (l : Load) (s : State) :
    SameBut ps s₀ (startLoad r l s) ↔ SameBut ps s₀ s := by
  refine SameBut.iff (k := [.regs, .rgns, .fox]) ?_ hps s₀
  simp (disch := decide) [startLoad]

@[simp] theorem sameBut_stageLoaded {ps : List Part} (hps : covers ps [.regs, .rgns, .fox] = true) (s₀ : State) (src n : Nat) (unref : List Nat) (s : State) (r : Nat) :
    SameBut ps s₀ (stageLoaded src n unref s r) ↔ SameBut ps s₀ s := by
  refine SameBut.iff (k := [.regs, .rgns, .fox]) ?_ hps s₀
  simp (disch := decide) [stageLoaded]

@[simp] theorem sameBut_loadCompleted {ps : List Part} (hps : covers ps [.regs, .io] = true) (s₀ : State) (r : Nat) (s : State) :
    SameBut ps s₀ (loadCompleted r s) ↔ SameBut ps s₀ s := by
  refine SameBut.iff (k := [.regs, .io]) ?_ hps s₀
  simp (disch := decide) [loadCompleted]

@[simp] theorem sameBut_streamRefused {ps : List Part} (hps : covers ps [.regs, .rgns, .fox, .io] = true) (s₀ : State) (code frame : Nat) (s : State) :
    SameBut ps s₀ (streamRefused code frame s) ↔ SameBut ps s₀ s := by
  refine SameBut.iff (k := [.regs, .rgns, .fox, .io]) ?_ hps s₀
  unfold streamRefused
  split <;> simp (disch := decide)

@[simp] theorem sameBut_setArea {ps : List Part} (hps : covers ps [.store] = true) (s₀ : State) (k : Nat) (ws : List Word) (s : State) :
    SameBut ps s₀ (setArea k ws s) ↔ SameBut ps s₀ s := by
  refine SameBut.iff (k := [.store]) ?_ hps s₀
  simp (disch := decide) [setArea]

@[simp] theorem sameBut_mdSlot {ps : List Part} (hps : covers ps [.store] = true) (s₀ : State) (k : Nat) (f : Slot → Slot) (s : State) :
    SameBut ps s₀ (mdSlot k f s) ↔ SameBut ps s₀ s := by
  refine SameBut.iff (k := [.store]) ?_ hps s₀
  simp (disch := decide) [mdSlot]

@[simp] theorem sameBut_slotEnded {ps : List Part} (hps : covers ps [.regs, .store, .io] = true) (s₀ : State) (k code : Nat) (s : State) :
    SameBut ps s₀ (slotEnded k code s) ↔ SameBut ps s₀ s := by
  refine SameBut.iff (k := [.regs, .store, .io]) ?_ hps s₀
  simp (disch := decide) [slotEnded]

@[simp] theorem sameBut_endProgram {ps : List Part} (hps : covers ps [.regs, .fox, .store, .io] = true) (s₀ : State) (k code : Nat) (s : State) :
    SameBut ps s₀ (endProgram k code s) ↔ SameBut ps s₀ s := by
  refine SameBut.iff (k := [.regs, .fox, .store, .io]) ?_ hps s₀
  simp (disch := decide) [endProgram]

@[simp] theorem sameBut_refuseStream {ps : List Part} (hps : covers ps [.regs, .rgns, .fox, .store, .io] = true) (s₀ : State) (code frame : Nat) (s : State) :
    SameBut ps s₀ (refuseStream code frame s) ↔ SameBut ps s₀ s := by
  refine SameBut.iff (k := [.regs, .rgns, .fox, .store, .io]) ?_ hps s₀
  unfold refuseStream
  (repeat' split) <;> simp (disch := decide)

@[simp] theorem sameBut_slotStarted {ps : List Part} (hps : covers ps [.regs, .store] = true) (s₀ : State) (k : Nat) (s : State) :
    SameBut ps s₀ (slotStarted k s) ↔ SameBut ps s₀ s := by
  refine SameBut.iff (k := [.regs, .store]) ?_ hps s₀
  simp (disch := decide) [slotStarted]

@[simp] theorem sameBut_startErase {ps : List Part} (hps : covers ps [.fox] = true) (s₀ : State) (k : Nat) (s : State) :
    SameBut ps s₀ (startErase k s) ↔ SameBut ps s₀ s := by
  refine SameBut.iff (k := [.fox]) ?_ hps s₀
  simp (disch := decide) [startErase]

@[simp] theorem sameBut_slotWear {ps : List Part} (hps : covers ps [.regs, .store, .io] = true) (s₀ : State) (k : Nat) (fail : Option Nat) (warn : Bool) (s : State) :
    SameBut ps s₀ (slotWear k fail warn s).2 ↔ SameBut ps s₀ s := by
  refine SameBut.iff (k := [.regs, .store, .io]) ?_ hps s₀
  unfold slotWear
  (repeat' split) <;> simp (disch := decide)

@[simp] theorem sameBut_markCorrupt {ps : List Part} (hps : covers ps [.regs, .store, .io] = true) (s₀ : State) (k : Nat) (s : State) :
    SameBut ps s₀ (markCorrupt k s) ↔ SameBut ps s₀ s := by
  refine SameBut.iff (k := [.regs, .store, .io]) ?_ hps s₀
  simp (disch := decide) [markCorrupt]

@[simp] theorem sameBut_dropped {ps : List Part} (hps : covers ps [.regs] = true) (s₀ : State) (n : Nat) (s : State) :
    SameBut ps s₀ (dropped n s) ↔ SameBut ps s₀ s := by
  refine SameBut.iff (k := [.regs]) ?_ hps s₀
  simp (disch := decide) [dropped]

@[simp] theorem sameBut_abortStream {ps : List Part} (hps : covers ps [.regs, .rgns, .fox, .store, .io] = true) (s₀ : State) (s : State) :
    SameBut ps s₀ (abortStream s) ↔ SameBut ps s₀ s := by
  refine SameBut.iff (k := [.regs, .rgns, .fox, .store, .io]) ?_ hps s₀
  unfold abortStream
  split <;> simp (disch := decide)

@[simp] theorem sameBut_finishStream {ps : List Part} (hps : covers ps [.regs, .rgns, .fox, .io] = true) (s₀ : State) (x : Stream) (s : State) :
    SameBut ps s₀ (finishStream x s) ↔ SameBut ps s₀ s := by
  refine SameBut.iff (k := [.regs, .rgns, .fox, .io]) ?_ hps s₀
  unfold finishStream
  extract_lets rs low src t src'
  split
  · simp (disch := decide)
  · split
    · simp (disch := decide)
    · have ht : SameBut [.regs, .rgns, .fox, .io] s t := sameBut_foldl (fun t r => by simp (disch := decide)) _ s
      simp (disch := decide) [ht]

@[simp] theorem sameBut_setStaging {ps : List Part} (hps : covers ps [.planes] = true) (s₀ : State) (m : SMap Word) (s : State) :
    SameBut ps s₀ (setStaging m s) ↔ SameBut ps s₀ s := by
  refine SameBut.iff (k := [.planes]) ?_ hps s₀
  simp (disch := decide) [setStaging]

@[simp] theorem sameBut_finishLoad {ps : List Part} (hps : covers ps [.regs, .rgns, .planes, .fox, .store, .io] = true) (s₀ : State) (r : Nat) (l : Load) (s : State) :
    SameBut ps s₀ (finishLoad r l s) ↔ SameBut ps s₀ s := by
  refine SameBut.iff (k := [.regs, .rgns, .planes, .fox, .store, .io]) ?_ hps s₀
  unfold finishLoad
  dsimp only
  (repeat' split) <;> simp (disch := decide)

@[simp] theorem sameBut_closeEnded {ps : List Part} (hps : covers ps [.fox] = true) (s₀ : State) (s : State) :
    SameBut ps s₀ (closeEnded s) ↔ SameBut ps s₀ s := by
  refine SameBut.iff (k := [.fox]) ?_ hps s₀
  unfold closeEnded
  (repeat' split) <;> simp (disch := decide)

@[simp] theorem sameBut_streamHeader {ps : List Part} (hps : covers ps [.regs, .rgns, .planes, .fox, .store, .io] = true) (s₀ : State) (x : Stream) (s : State) :
    SameBut ps s₀ (streamHeader x s) ↔ SameBut ps s₀ s := by
  refine SameBut.iff (k := [.regs, .rgns, .planes, .fox, .store, .io]) ?_ hps s₀
  unfold streamHeader
  extract_lets low src t
  split
  · simp (disch := decide)
  · have ht : SameBut [.regs, .rgns, .planes, .fox, .store, .io] s t := by simp (disch := decide) [t]
    split
    · simp (disch := decide) [ht]
    · exact (sameBut_foldl_iff (fun t r => by simp (disch := decide)) s _ t).2 ht

@[simp] theorem sameBut_streamRecord {ps : List Part} (hps : covers ps [.regs, .rgns, .planes, .fox, .store, .io] = true) (s₀ : State) (x : Stream) (s : State) :
    SameBut ps s₀ (streamRecord x s) ↔ SameBut ps s₀ s := by
  refine SameBut.iff (k := [.regs, .rgns, .planes, .fox, .store, .io]) ?_ hps s₀
  unfold streamRecord
  dsimp only
  (repeat' split) <;> simp (disch := decide)

@[simp] theorem sameBut_takeStreamWord {ps : List Part} (hps : covers ps [.regs, .rgns, .planes, .fox, .store, .io] = true) (s₀ : State) (w : Word) (s : State) :
    SameBut ps s₀ (takeStreamWord w s) ↔ SameBut ps s₀ s := by
  refine SameBut.iff (k := [.regs, .rgns, .planes, .fox, .store, .io]) ?_ hps s₀
  unfold takeStreamWord
  (repeat' split) <;> simp (disch := decide)

end Sys2Proof.Machine

/-! PROOFS. O39: loads and streams into the staging planes. -/

namespace Sys2Proof.Machine

open Sys2Proof

/-- A staging plane made invalid reads as invalid. -/
theorem stageValid_invalidateStage (r : Nat) (s : State) : stageValid r (invalidateStage r s) = false := by
  unfold stageValid invalidateStage mdRgn setRgn
  rw [rd_setRgns, rd_wrf_other (rkey_off (by decide))]
  rw [wrf, rd_md_same]
  exact bit_setBit_same (by decide) false _

/-- LOAD_STAT after a refusal names its code and its lowest region. -/
theorem rd_loadStat_loadRefused (rs : List Nat) (started : Bool) (code frame : Nat) (s : State) :
    rd P.FOX R.FOX_LOAD_STAT (loadRefused rs started code frame s) = W (code * 2 ^ 24 + rs.headD 0 * 2 ^ 8) := by
  unfold loadRefused
  rw [rd_irq_off (noPba_page (by decide) (by decide)) (rkey_off (by decide)),
    rd_err_own (noPba_page (by decide) (by decide)) (by decide), rd_wr_other (rkey_off (by decide)), rd_wr_same]

theorem rd_slotEnded {q o : Nat} (h : NoPba q o) (hq : q ≠ P.CSC) (ho : o < 4096) (k code : Nat) (s : State) :
    rd q o (slotEnded k code s) = rd q o s := by
  unfold slotEnded
  rw [rd_irq_off h (rkey_page hq ho (by decide)), rd_wr_other (rkey_page hq ho (by decide))]
  rfl

theorem rd_endProgram {q o : Nat} (h : NoPba q o) (hq : q ≠ P.CSC) (ho : o < 4096) (k code : Nat) (s : State) :
    rd q o (endProgram k code s) = rd q o s := by
  unfold endProgram
  rw [rd_slotEnded h hq ho]
  split <;> rfl

theorem headD_maskList_lt (m : BitVec 64) : (maskList m).headD 0 < 64 := by
  cases h : maskList m with
  | nil => decide
  | cons a l =>
    have ha : a ∈ maskList m := by simp [h]
    simpa using (List.mem_filter.1 ha).1

theorem fld_code {c n : Nat} (hc : c < 256) (hn : n < 64) : fld 31 24 (W (c * 2 ^ 24 + n * 2 ^ 8)) = c := by
  simp only [fld, W, BitVec.toNat_ofNat, Nat.shiftRight_eq_div_pow]
  omega

/-- A load ends with its region's staging plane valid and the load gone. -/
theorem loadCompleted_holds {r : Nat} (hr : r < 64) (src n : Nat) (s : State) :
    let t := loadCompleted r (stageLoaded src n [] s r)
    t.planes = s.planes ∧ tfind t.fox.loads r = none ∧ rd (P.RGN r) R.RGN_STAGE_STAT t = W (2 ^ 31 + src * 2 ^ 8 + n) := by
  intro t
  refine ⟨by simp [t, loadCompleted, stageLoaded, mdRgn, setRgn], ?_, ?_⟩
  · simp [t, loadCompleted, stageLoaded, mdRgn, setRgn, tfind_tdel_same]
  · have hp : P.RGN r ≠ P.FOX := by simp only [P.RGN, P.FOX]; omega
    have hq : P.RGN r ≠ P.PCIE := by simp only [P.RGN, P.PCIE]; omega
    simp only [t, loadCompleted, stageLoaded, mdRgn, setRgn]
    rw [rd_irq_off (noPba_page hq (by decide)) (rkey_page hp (by decide) (by decide)),
      rd_wr_other (rkey_page hp (by decide) (by decide)), rd_setFox, rd_setRgns, rd_wr_same]

theorem drainStream_one {s : State} {w : Word} {rest : List Word} (hb : s.fox.buffer = w :: rest)
    (hw : streamWaits s = false) : drainStream 1 s = takeStreamWord w
      (setFox { s.fox with buffer := rest ++ s.fox.heldWrites.take 1, heldWrites := s.fox.heldWrites.drop 1 } s) := by
  simp [drainStream, hb, hw]

theorem emptied_eq {f : Fox} (hf : f.buffer = []) (hh : f.heldWrites = []) :
    { f with buffer := [], heldWrites := [] } = f := by
  cases f
  simp_all

/-- One word that finds the buffer empty is taken at once. -/
theorem drainAll_single {s : State} (w : Word) (hb : s.fox.buffer = []) (hh : s.fox.heldWrites = [])
    (hw : streamWaits s = false) : drainAll (setFox { s.fox with buffer := s.fox.buffer ++ [w] } s) = takeStreamWord w s := by
  have hfuel : (s.fox.buffer ++ [w]).length + s.fox.heldWrites.length = 1 := by simp [hb, hh]
  have hone := drainStream_one (s := setFox { s.fox with buffer := s.fox.buffer ++ [w] } s) (w := w) (rest := [])
    (by simp [hb]) hw
  have hback : setFox { s.fox with buffer := [] ++ s.fox.heldWrites.take 1, heldWrites := s.fox.heldWrites.drop 1 } s = s := by
    rw [hh]
    exact congrArg (setFox · s) (emptied_eq hb hh)
  calc drainStream ((s.fox.buffer ++ [w]).length + s.fox.heldWrites.length) _
    _ = _ := by rw [hfuel]
    _ = takeStreamWord w (setFox { s.fox with
        buffer := [] ++ s.fox.heldWrites.take 1, heldWrites := s.fox.heldWrites.drop 1 } s) := hone
    _ = takeStreamWord w s := congrArg (takeStreamWord w) hback

/-- While the words of a stream wait, the buffer keeps them. -/
theorem drainAll_waiting {s : State} (hw : streamWaits s = true) : drainAll s = s := by
  unfold drainAll
  cases s.fox.buffer.length + s.fox.heldWrites.length with
  | zero => rfl
  | succ n =>
    unfold drainStream
    split
    · rfl
    · exact if_pos hw

/-- An abort of an open stream ends it, with ABSENT_TARGET in LOAD_STAT. -/
theorem abortStream_ends {s : State} {x : Stream} (hx : s.fox.stream = some x) (he : streamEnded x = false)
    (hr : x.refused = false) : (abortStream s).fox.stream = none ∧ (abortStream s).fox.buffer = [] ∧
      (abortStream s).fox.heldWrites = [] ∧ rdf P.FOX R.FOX_LOAD_STAT 31 24 (abortStream s) = E.ABSENT_TARGET := by
  unfold abortStream
  rw [hx]
  dsimp only
  rw [if_neg (by simp [he]), if_neg (by simp [hr])]
  refine ⟨by simp [dropped], by simp [dropped], by simp [dropped], ?_⟩
  have hrefused (c f : Nat) : rd P.FOX R.FOX_LOAD_STAT (streamRefused c f s) =
      W (c * 2 ^ 24 + (maskList (imageFence x.words)).headD 0 * 2 ^ 8) := by
    unfold streamRefused
    rw [hx]
    exact rd_loadStat_loadRefused ..
  have hstat (c f : Nat) : rd P.FOX R.FOX_LOAD_STAT (refuseStream c f s) =
      W (c * 2 ^ 24 + (maskList (imageFence x.words)).headD 0 * 2 ^ 8) := by
    unfold refuseStream
    rw [hx]
    dsimp only
    cases x.target with
    | none => exact hrefused c f
    | some k =>
      dsimp only
      split
      · exact (rd_endProgram (noPba_page (by decide) (by decide)) (by decide) (by decide) ..).trans (hrefused c f)
      · exact hrefused c f
  rw [dropped, rdf, rd_countN_other (rkey_off (by decide)), rd_setFox, hstat]
  exact fld_code (by decide) (headD_maskList_lt _)

/-- An OPEN by STREAM_CTL opens a stream of the requester's class. -/
theorem streamCtl_opens {rq : Requester} {v : Word} {s : State} (hc : bit 0 (rd P.FOX R.PAGE_CTL s) = true)
    (he : entering s = false) (h30 : bit 30 v = false) (h31 : bit 31 v = true) (hs : s.fox.stream = none) :
    let t := streamCtl rq v s
    t.fox.stream = some ⟨streamClass rq, if bit 16 v then some (8 * fld 13 8 v + fld 2 0 v) else none, [], false, false⟩ ∧
      t.planes = s.planes ∧ t.store = s.store := by
  intro t
  have htakes (w : Word) : takesWork P.FOX (wr P.FOX R.FOX_STREAM_CTL w s) = true := by
    rw [takesWork, rd_wr_other (rkey_off (by decide))]
    exact hc
  have ht : t = openStream rq (if bit 16 v then some (8 * fld 13 8 v + fld 2 0 v) else none)
      (wr P.FOX R.FOX_STREAM_CTL (v &&& W 0x00013F07) s) := by
    simp [t, streamCtl, h30, h31, htakes]
  rw [ht, openStream, if_neg (by simp [hs]), if_neg (by simpa [entering] using he)]
  exact ⟨rfl, rfl, rfl⟩

/-- A word of an open stream that finds the Fox port free is taken, and header and records are checked as they complete. -/
theorem streamWord_takes {rq : Requester} {x : Stream} {s : State} (w : Word) (hx : s.fox.stream = some x)
    (ho : x.owner = streamClass rq) (hb : s.fox.buffer = []) (hh : s.fox.heldWrites = [])
    (hw : streamWritten x s = false) (hwait : streamWaits s = false) : streamWord rq w s = takeStreamWord w s := by
  unfold streamWord
  rw [hx]
  dsimp only
  rw [if_neg (by simp [ho, hw]), if_neg (by simp [streamFull, hb]), drainAll_single w hb hh hwait]

/-- A load whose records are good ends by its seals and by its plane. -/
theorem finishLoad_of_records {r : Nat} {l : Load} {s : State}
    (hrec : recordsFault true (maskOf [r]) none (recordsOf (plainWords (area (areaOf l.src l.slot r) s))) = none) :
    let ws := area (areaOf l.src l.slot r) s
    let m := planeFrom l.src r ws s s.planes.staging
    finishLoad r l s = (sealFault ws).elim
      ((planesFault [r] m).elim (loadCompleted r (stageLoaded l.src l.slot [] (setStaging m s) r))
        fun a => loadRefused [r] true E.DRIVE_CONFLICT a (setStaging m s))
      fun c => if l.src = 1 then markCorrupt (8 * r + l.slot) (loadRefused [r] true c (frameAddr r 0) s)
        else loadRefused [r] true c (frameAddr r 0) s := by
  intro ws m
  unfold finishLoad
  dsimp only
  rw [hrec]
  dsimp only
  cases sealFault ws with
  | some c => rfl
  | none =>
    have hm : (setStaging m s).planes.staging = m := rfl
    dsimp only
    rw [hm]
    cases planesFault [r] m <;> rfl

/-- Settles O39: loads start and end, and streams open, take their words, and are aborted. -/
theorem loadsAndStreamsFillStagingPlanes : Obligations.LoadsAndStreamsFillStagingPlanes := by
  refine ⟨fun s => ⟨fun rq v hr hc he h31 hlo hhi => ?_, fun r l hl hsrc => ?_⟩,
    fun rq s hr => ⟨fun v hc he h30 hs => ?_, fun w hs => ?_, fun x w hx => ?_⟩⟩
  · intro r t
    have htakes : takesWork P.FOX t = true := by
      simp only [t]
      rw [takesWork, rd_wr_other (rkey_off (by decide))]
      exact hc
    have hctl : ∀ o, loadHeaderFault rq (recSrc v) (fld 2 0 v) r t = o → loadCtl rq v s =
        (o.elim (startLoad r ⟨recSrc v, fld 2 0 v, rq⟩ t) fun c => loadRefused [r] false c (frameAddr r 0) t) := by
      intro o ho
      unfold loadCtl
      rw [if_neg (by omega)]
      dsimp only
      rw [if_neg (by simp only [t] at htakes; simp [h31, htakes]), if_neg (by simp [he]), ho]
      cases o <;> rfl
    have hcmd : exec (.foxLoad rq v) s = .next (loadCtl rq v s) := congrArg Host.Outcome.next (onPage_reaches hr ..)
    refine ⟨fun h => ⟨_, hcmd.trans (congrArg Host.Outcome.next (hctl _ h)), ?_, ?_, ?_⟩,
      fun c h => hcmd.trans (congrArg Host.Outcome.next (hctl _ h))⟩
    · exact tfind_tins_same ..
    · exact stageValid_invalidateStage r t
    · exact (((sameBut_startLoad (ps := [.regs, .rgns, .fox]) (by decide) s r _ t).2
        ((sameBut_wr (by decide) s _ _ _ s).2 (sameBut_refl _ s))) .planes (by decide))
  · intro ws m hrec
    have hdone : loadDone r.val s = finishLoad r.val l s := by
      unfold loadDone
      rw [hl]
      exact if_pos hsrc
    have hcmd : exec (.foxLoadDone r) s = .next (loadDone r.val s) := rfl
    rw [hcmd, hdone]
    rw [finishLoad_of_records hrec]
    refine ⟨fun hseal hpl => ?_, fun c hseal h1 => ?_, fun c hseal h1 => ?_⟩
    · obtain ⟨hplanes, hloads, hstat⟩ := loadCompleted_holds r.isLt l.src l.slot (setStaging m s)
      rw [hseal, hpl]
      exact ⟨loadCompleted r.val (stageLoaded l.src l.slot [] (setStaging m s) r.val), rfl,
        (congrArg Planes.staging hplanes).trans rfl, (congrArg Planes.active hplanes).trans rfl, hloads, hstat⟩
    · rw [hseal]
      exact congrArg Host.Outcome.next (if_neg h1)
    · rw [hseal]
      exact congrArg Host.Outcome.next (if_pos h1)
  · have h30' (b : Bool) : bit 30 (setBit 31 true (setBit 16 b v)) = false := by
      rw [bit_setBit_other (by decide) (by decide), bit_setBit_other (by decide) (by decide), h30]
    have h31' (b : Bool) : bit 31 (setBit 31 true (setBit 16 b v)) = true := bit_setBit_same (by decide) ..
    have h16 (b : Bool) : bit 16 (setBit 31 true (setBit 16 b v)) = b := by
      rw [bit_setBit_other (by decide) (by decide), bit_setBit_same (by decide)]
    have hhi (b : Bool) : fld 13 8 (setBit 31 true (setBit 16 b v)) = fld 13 8 v := by
      rw [fld_setBit_other (by decide) (by decide), fld_setBit_other (by decide) (by decide)]
    have hlo (b : Bool) : fld 2 0 (setBit 31 true (setBit 16 b v)) = fld 2 0 v := by
      rw [fld_setBit_other (by decide) (by decide), fld_setBit_other (by decide) (by decide)]
    have hopen (b : Bool) := streamCtl_opens (rq := rq) hc he (h30' b) (h31' b) hs
    simp only [h16, hhi, hlo] at hopen
    exact ⟨⟨_, congrArg Host.Outcome.next (onPage_reaches hr ..), hopen false⟩,
      ⟨_, congrArg Host.Outcome.next (onPage_reaches hr ..), hopen true⟩⟩
  · have habort : abortStream s = s := by
      unfold abortStream
      rw [hs]
    refine ⟨congrArg Host.Outcome.next ((onPage_reaches hr ..).trans ?_),
      congrArg Host.Outcome.next ((onPage_reaches hr ..).trans habort), congrArg Host.Outcome.next habort⟩
    unfold streamWord
    rw [hs]
    rfl
  · have hcmd : exec (.streamData rq w) s = .next (streamWord rq w s) := congrArg Host.Outcome.next (onPage_reaches hr ..)
    rw [hcmd]
    refine ⟨fun h => ?_, fun ho hw hl => ?_, fun ho hw hl hwait => ?_, ?_, fun he href => ?_⟩
    · refine congrArg Host.Outcome.next ?_
      unfold streamWord
      rw [hx]
      exact if_pos h
    · refine congrArg Host.Outcome.next ?_
      unfold streamWord
      rw [hx]
      dsimp only
      rw [if_neg (by simp [ho, hw]), if_pos (by simp [streamFull, hl])]
    · refine congrArg Host.Outcome.next ?_
      unfold streamWord
      rw [hx]
      dsimp only
      rw [if_neg (by simp [ho, hw]), if_neg (by simp [streamFull, hl])]
      exact drainAll_waiting hwait
    · intro y t u ho hb hh hw hwait href
      rw [streamWord_takes w hx ho hb hh hw hwait]
      have htake : takeStreamWord w s = if y.words.length = 24 then closeEnded (streamHeader y u)
          else if 24 < y.words.length ∧ (y.words.length - 24) % 33 = 0 then closeEnded (streamRecord y u) else u := by
        unfold takeStreamWord
        rw [hx]
        dsimp only
        exact if_neg (by simp [href])
      rw [htake]
      refine ⟨fun h => congrArg Host.Outcome.next (if_pos h), fun h h' => congrArg Host.Outcome.next ?_,
        fun h => congrArg Host.Outcome.next ?_⟩
      · rw [if_neg (by omega), if_pos ⟨h, h'⟩]
      · rw [if_neg (by omega), if_neg (by omega)]
    · obtain ⟨h1, h2, h3, h4⟩ := abortStream_ends hx he href
      exact ⟨_, congrArg Host.Outcome.next (onPage_reaches hr ..), h1, h2, h3, h4, rfl⟩

end Sys2Proof.Machine

/-! PROOFS. O40: library slots, and what the Fox port answers on its service. -/

namespace Sys2Proof.Machine

open Sys2Proof

/-! ## Slots and areas of the Configuration Store -/

theorem slot_of_store {s t : State} (h : t.store = s.store) (k : Nat) : slot k t = slot k s := by rw [slot, h, slot]

@[simp] theorem slot_mdSlot_same (k : Nat) (f : Slot → Slot) (s : State) : slot k (mdSlot k f s) = f (slot k s) :=
  tget_tput_same ..

@[simp] theorem slot_setArea (k j : Nat) (ws : List Word) (s : State) : slot k (setArea j ws s) = slot k s := rfl

@[simp] theorem area_setArea_same (k : Nat) (ws : List Word) (s : State) : area k (setArea k ws s) = ws := tget_tput_same ..

@[simp] theorem area_mdSlot (k j : Nat) (f : Slot → Slot) (s : State) : area k (mdSlot j f s) = area k s := rfl

@[simp] theorem slot_setFox (k : Nat) (x : Fox) (s : State) : slot k (setFox x s) = slot k s := rfl

@[simp] theorem area_setFox (k : Nat) (x : Fox) (s : State) : area k (setFox x s) = area k s := rfl

theorem store_reported (p o b : Nat) (v : Word) (s : State) : (irq p b (wr p o v s)).store = s.store := by simp

theorem fox_reported (p o b : Nat) (v : Word) (s : State) : (irq p b (wr p o v s)).fox = s.fox := by simp

theorem store_slotEnded (k code : Nat) (s : State) :
    (slotEnded k code s).store = (mdSlot k (fun x => { x with busy := false }) s).store := by
  unfold slotEnded
  exact store_reported ..

@[simp] theorem slot_slotEnded (k code : Nat) (s : State) : slot k (slotEnded k code s) = { slot k s with busy := false } :=
  (slot_of_store (store_slotEnded k code s) k).trans (slot_mdSlot_same ..)

@[simp] theorem area_slotEnded (j k code : Nat) (s : State) : area j (slotEnded k code s) = area j s := by
  rw [area, store_slotEnded]
  rfl

@[simp] theorem fox_slotEnded (k code : Nat) (s : State) : (slotEnded k code s).fox = s.fox := by
  unfold slotEnded
  exact fox_reported ..

theorem rd_progStat_slotEnded (k code : Nat) (s : State) :
    rd P.CSC R.CSC_PROG_STAT (slotEnded k code s) = W (code * 2 ^ 24 + k / 8 * 2 ^ 8 + k % 8) := by
  rw [slotEnded, rd_irq_off (noPba_page (by decide) (by decide)) (rkey_off (by decide)), rd_wr_same]

/-- A failed run retires its slot. -/
theorem slot_slotWear_fail (k c : Nat) (warn : Bool) (s : State) :
    slot k (slotWear k (some c) warn s).2 = { slot k s with retired := true } := by
  rw [slot_of_store (s := mdSlot k (fun x => { x with retired := true }) s) (by simp [slotWear]), slot_mdSlot_same]

@[simp] theorem fox_slotWear_fail (k c : Nat) (warn : Bool) (s : State) : (slotWear k (some c) warn s).2.fox = s.fox := by
  simp [slotWear, mdSlot]

/-- The oldest library program, when no erase of its slot runs. -/
theorem programDone_of_front {s : State} {k : Nat} {ws : List Word} {rest : List (Nat × List Word)}
    (hp : s.fox.programs = (k, ws) :: rest) (he : s.fox.erasing.contains k = false) (fail : Bool) :
    ∃ t, t.fox.programs = rest ∧ area (128 + k) t = ws ∧ (slot k t).valid = (slot k s).valid ∧
      (fail = true → programDone true false s = slotEnded k E.PROG_FAIL (slotWear k (some E.PROG_FAIL) false t).2) ∧
      (fail = false → sealFault ws = none → programDone false false s =
        slotEnded k 0 (mdSlot k (fun x => { x with valid := true, corrupt := false }) t)) := by
  refine ⟨mdSlot k (fun x => { x with programs := if x.programs = BitVec.allOnes 15 then x.programs else x.programs + 1 })
    (setArea (128 + k) ws (setFox { s.fox with programs := rest } s)), rfl, by simp, by simp, fun _ => ?_, fun _ hseal => ?_⟩
  · unfold programDone
    rw [hp]
    dsimp only
    rw [if_neg (by simp only [he]; decide)]
    rfl
  · unfold programDone
    rw [hp]
    dsimp only
    rw [if_neg (by simp only [he]; decide), hseal]
    rfl

/-- The oldest erase, whose slot is not being programmed. -/
theorem eraseDone_of_front {s : State} {k : Nat} {rest : List Nat} (he : s.fox.erasing = k :: rest)
    (hp : programming k s = false) :
    ∃ t, t.fox.erasing = rest ∧ area (128 + k) t = [] ∧ slot k t = { slot k s with corrupt := false } ∧
      eraseDone false false s = slotEnded k 0 t ∧
      eraseDone true false s = slotEnded k E.ERASE_FAIL (slotWear k (some E.ERASE_FAIL) false t).2 := by
  refine ⟨mdSlot k (fun x => { x with corrupt := false }) (setArea (128 + k) [] (setFox { s.fox with erasing := rest } s)),
    rfl, by simp, by simp, ?_, ?_⟩
  · unfold eraseDone
    rw [he]
    exact if_pos (by simp [hp])
  · unfold eraseDone
    rw [he]
    exact if_pos (by simp [hp])

/-- An erase of a slot starts: the slot is busy and not valid. -/
theorem startErase_holds (k : Nat) (s : State) :
    let t := startErase k (slotStarted k s)
    t.fox.erasing = s.fox.erasing ++ [k] ∧ slot k t = { slot k s with valid := false, busy := true } ∧
      t.store.areas = s.store.areas :=
  ⟨rfl, slot_mdSlot_same k (fun x => { x with valid := false, busy := true }) s, rfl⟩

/-! ## Service 0x02 and the Fox taps -/

theorem foxLoop_of_empty {tap : Option RegionId} {s : State} (h : (chan (foxIn tap) s).buffer = []) (n : Nat) :
    foxLoop n tap s = s := by
  cases n with
  | zero => rfl
  | succ n =>
    unfold foxLoop
    dsimp only
    rw [h]
    split
    · next h' => cases h'
    · rfl

/-- A whole request without a fault is served, and answered on the way it came. -/
theorem foxService_request {tap : Option RegionId} {s : State} {m : Msg} (hr : dmaRuns s = true)
    (hb : (chan (foxIn tap) s).buffer = []) (hm : sinkMsg (foxIn tap) s = some m) (hst : m.status = 0)
    (hl : m.payload.length = m.len) (hk : requestClass m.cls = true) {ws : List TWord} {st : Nat} {t : State}
    (hs : foxServe (foxRequester tap m) m (dropMsg (foxIn tap) s) = (ws, st, t)) :
    foxService tap s = foxReply tap m ws st t := by
  have hcheck : foxCheck tap m (dropMsg (foxIn tap) s) = none := by
    unfold foxCheck
    rw [if_neg (by simp [hst]), if_neg (by simp [hl]), if_neg (by simp [hl, hk])]
  unfold foxService
  rw [if_neg (by simp [hr])]
  simp only [foxLoop_of_empty hb, takeMsg_of_sinkMsg hm, hm, hcheck, hs]

/-- A write whose words and length are good. -/
theorem foxServe_write {rq : Requester} {m : Msg} {a : TWord} {body : List TWord} (hc : m.cls = 0x21)
    (hp : m.payload = a :: body) (hw : wordsFail m.payload = none) (hb : body ≠ []) (hl : body.length ≤ 256) (s : State) :
    foxServe rq m s =
      if fld 29 0 a.data = 0x10000 then ([], 0, s)
      else if ((List.range body.length).map fun k => fld 29 0 a.data + 4 * k).all foxOffset then
        ([], 0, foxWrites rq (((List.range body.length).map fun k => fld 29 0 a.data + 4 * k).zip body) s)
      else ([], E.PERM_FAULT, s) := by
  have haddr : addrWord m = fld 29 0 a.data := by simp [addrWord, hp]
  have htail : m.payload.tail = body := by simp [hp]
  have hread : ¬m.cls = 0x20 := by simp [hc]
  have hgood : ¬(m.payload = [] ∨ body.length = 0 ∨ 256 < body.length) := by
    rw [List.length_eq_zero_iff]
    simp [hp, hb, hl]
  simp only [foxServe, hw, haddr, htail, if_neg hread, if_neg hgood]

/-- A read without exactly one count word is refused. -/
theorem foxServe_badRead {rq : Requester} {m : Msg} {a : TWord} {body : List TWord} (hc : m.cls = 0x20)
    (hp : m.payload = a :: body) (hw : wordsFail m.payload = none) (hb : body.length ≠ 1) (s : State) :
    foxServe rq m s = ([], E.PERM_FAULT, s) := by
  have htail : m.payload.tail = body := by simp [hp]
  simp only [foxServe, hw, htail, if_pos hc, hb, ne_eq, not_false_eq_true, true_or, if_true, ite_self]

/-- A message that has no LAST yet is no message at the sink. -/
theorem streamOpen_not_last {ws : List TWord} (h : streamOpen ws = true) : splitLast ws = none := by
  unfold streamOpen at h
  split at h
  · simp at h
    tauto
  · simp at h

theorem isFoxIn_foxIn (tap : Option RegionId) : isFoxIn (foxIn tap) = true := by
  cases tap <;> rfl

section
variable {tap : Option RegionId} {s : State} {h rt ad w : TWord} {body : List TWord}
  (hg : (chan (foxIn tap) s).gathered = h :: rt :: ad :: body) (ho : streamOpen (h :: rt :: ad :: body) = true)
  (hb : (chan (foxIn tap) s).buffer = [w]) (hw : w.tag = .data) (hl : body.length < fld 11 0 h.data - 1)
include hg ho hb hw hl

/-- An image word of an open message goes to STREAM_DATA where its buffer has room. -/
theorem foxLoop_image (n : Nat) : foxLoop (n + 1) tap s = if streamFull s then s
    else foxLoop n tap (pageWrite (foxRequester tap ⟨h.data, rt.data, [ad], 0⟩) P.FOX R.FOX_STREAM_DATA w.data
      (takeOne (foxIn tap) w s)) := by
  have hfail : (wordsFail [w]).isNone = true := by simp [wordsFail, hw]
  have himage : (decide (body.length < fld 11 0 h.data - 1) && w.tag != .last && w.tag != .head && (wordsFail [w]).isNone) = true := by
    simp [hl, hw, hfail]
  conv_lhs => unfold foxLoop
  simp only [hg, hb, ho, himage, Bool.not_true, Bool.true_and, if_true]
  rfl

omit hw hl in
/-- The receiver itself takes no word of an open stream. -/
theorem takeMsg_of_streamOpen : takeMsg (foxIn tap) s = s := by
  have hheld : receiverHolds (foxIn tap) s = true := by simp [receiverHolds, isFoxIn_foxIn, hg, ho]
  unfold takeMsg
  split
  · rw [hb]
    show takeWords 1 (foxIn tap) s = s
    unfold takeWords
    simp [hb, hheld]
  · rfl

omit hw hl hb in
theorem sinkMsg_of_streamOpen : sinkMsg (foxIn tap) s = none := by
  unfold sinkMsg firstMsg
  rw [hg, streamOpen_not_last ho]
  rfl
end

theorem takeMsg_of_empty {c : ChanId} {s : State} (h : (chan c s).buffer = []) : takeMsg c s = s := by
  unfold takeMsg
  rw [h]
  split <;> rfl

/-- A register of the region table does not change while LOCK is set. -/
theorem registerWrite_locked {rq : Requester} {s : State} (hr : Reaches rq P.FOX s) (hlock : bit 0 (rd P.FOX R.FOX_LOCK s) = true)
    (v : BitVec 64) :
    exec (.registerWrite rq (BitVec.ofNat 26 (P.FOX * 4096 + R.FOX_ALLOW_HOST_LO)) 4 v) s = .next s := by
  have hregs : regWrite rq .fox P.FOX R.FOX_ALLOW_HOST_LO (lo32 v) s = s := by
    have hfox : foxWrite rq R.FOX_ALLOW_HOST_LO (lo32 v) s = some s := by
      unfold foxWrite
      rw [if_neg (by decide), if_neg (by decide), if_neg (by decide), if_neg (by decide), if_neg (by decide),
        if_pos ⟨by decide, by decide, hlock⟩]
    unfold regWrite
    rw [if_neg (by decide), actionWrite, hfox]
  refine congrArg Host.Outcome.next ?_
  have haddr : (BitVec.ofNat 26 (P.FOX * 4096 + R.FOX_ALLOW_HOST_LO)).toNat = P.FOX * 4096 + R.FOX_ALLOW_HOST_LO := by decide
  rw [windowWrite, haddr, if_pos ⟨rfl, by decide⟩]
  exact (pageWrite_reaches (p := P.FOX) (by decide) hr ..).trans hregs

/-- Settles O40: library slots, service 0x02, the lock and a staging plane made invalid. -/
theorem librarySlotsAndFoxService : Obligations.LibrarySlotsAndFoxService := by
  refine ⟨fun s => ⟨fun k ws rest hp he => ⟨fun hseal => ?_, ?_⟩, fun k rest he hp => ?_, fun k rest he hp => ?_,
      fun rq hr hc hent => ?_⟩,
    fun s => ⟨fun tap m a body hr hb hm hst hp hl hw => ?_, fun tap h rt ad body w hr hg ho hb hw hl => ?_,
      fun rq hr => congrArg Host.Outcome.next (onPage_reaches hr ..), fun rq v hr hlock => registerWrite_locked hr hlock v,
      fun rq r hr => ⟨fun h1 h2 h3 => ?_, fun h => ?_⟩⟩⟩
  · obtain ⟨t, hprog, harea, -, -, hdone⟩ := programDone_of_front hp he false
    refine ⟨_, congrArg Host.Outcome.next (hdone rfl hseal), ?_, ?_, ?_, ?_, ?_, ?_⟩
    · rw [fox_slotEnded]
      exact hprog
    · rw [area_slotEnded, area_mdSlot, harea]
    · rw [slot_slotEnded, slot_mdSlot_same]
    · rw [slot_slotEnded]
    · rw [slot_slotEnded, slot_mdSlot_same]
    · rw [rd_progStat_slotEnded, Nat.zero_mul, Nat.zero_add]
  · obtain ⟨t, hprog, -, hvalid, hdone, -⟩ := programDone_of_front hp he true
    refine ⟨_, congrArg Host.Outcome.next (hdone rfl), ?_, ?_, ?_, ?_⟩
    · rw [fox_slotEnded, fox_slotWear_fail, hprog]
    · rw [slot_slotEnded, slot_slotWear_fail]
    · rw [slot_slotEnded, slot_slotWear_fail]
      exact hvalid
    · rw [slot_slotEnded]
  · obtain ⟨t, herase, harea, hslot, hgood, hbad⟩ := eraseDone_of_front he hp
    refine ⟨⟨_, congrArg Host.Outcome.next hgood, ?_, ?_, ?_, ?_, ?_⟩, ⟨_, congrArg Host.Outcome.next hbad, ?_⟩⟩
    · rw [fox_slotEnded, herase]
    · rw [area_slotEnded, harea]
    · rw [slot_slotEnded]
    · rw [slot_slotEnded, hslot]
    · rw [slot_slotEnded, hslot]
    · rw [slot_slotEnded, slot_slotWear_fail]
  · refine congrArg Host.Outcome.next ?_
    unfold eraseDone
    rw [he]
    exact if_neg (by simp [hp])
  · intro k
    have hcmd : exec (.slotErase rq) s = .next (slotErase s) := congrArg Host.Outcome.next (onPage_reaches hr ..)
    rw [hcmd]
    unfold slotErase
    dsimp only
    rw [if_neg (by simp [takesWork, hc])]
    refine ⟨fun hbusy href hret => ?_, fun h => congrArg Host.Outcome.next (if_pos ?_)⟩
    · obtain ⟨h1, h2, h3⟩ := startErase_holds k s
      refine ⟨startErase k (slotStarted k s), congrArg Host.Outcome.next ?_, h1, by rw [h2], by rw [h2], h3⟩
      refine (if_neg ?_).trans ((if_neg (by simp [hent])).trans (if_neg ?_))
      · exact fun h => by simp only [k, rdf] at hbusy href; simp [hbusy, href] at h
      · exact fun h => by simp only [k, rdf] at hret; simp [hret] at h
    · simp only [k, rdf] at h
      simpa using h
  · intro t rq
    have one {w : TWord} (hc : m.cls = 0x21) (hbody : body = [w]) (hoff : foxOffset (fld 29 0 a.data) = true) :
        exec (.foxServiceAccess tap) s = .next (foxReply tap m [] 0
          (if foxReadOnly (fld 29 0 a.data) then t else pageWrite rq P.FOX (fld 29 0 a.data) w.data t)) := by
      refine congrArg Host.Outcome.next (foxService_request hr hb hm hst hl (by rw [hc]; rfl) ?_)
      have hne : fld 29 0 a.data ≠ 0x10000 := by simp [foxOffset] at hoff; omega
      rw [foxServe_write hc hp hw (by simp [hbody]) (by simp [hbody]), if_neg hne, hbody]
      exact if_pos (by simp [hoff])
    refine ⟨fun hc ha hne hlen => ?_, fun w hc hbody hoff hro => ?_, fun w hc hbody hoff hro => ?_, fun hc hlen => ?_⟩
    · refine congrArg Host.Outcome.next (foxService_request hr hb hm hst hl (by rw [hc]; rfl) ?_)
      rw [foxServe_write hc hp hw hne hlen, if_pos ha]
    · rw [one hc hbody hoff, if_neg (by simp [hro])]
    · rw [one hc hbody hoff, if_pos hro]
    · exact congrArg Host.Outcome.next (foxService_request hr hb hm hst hl (by rw [hc]; rfl) (foxServe_badRead hc hp hw hlen _))
  · intro u
    refine ⟨fun hfull => congrArg Host.Outcome.next ?_, fun hroom hbu hmu => congrArg Host.Outcome.next ?_⟩
    · have hloop : foxLoop 16 tap s = s := by
        rw [foxLoop_image hg ho hb hw hl, if_pos (by simp [streamFull, hfull])]
      unfold foxService
      rw [if_neg (by simp [hr])]
      dsimp only
      rw [hloop, takeMsg_of_streamOpen hg ho hb, sinkMsg_of_streamOpen hg ho]
    · have hloop : foxLoop 16 tap s = u := by
        rw [foxLoop_image hg ho hb hw hl, if_neg (by simp [streamFull, hroom])]
        exact foxLoop_of_empty hbu _
      unfold foxService
      rw [if_neg (by simp [hr])]
      dsimp only
      rw [hloop, takeMsg_of_empty hbu, hmu]
  · have hctl : stageCtl rq r.val s = invalidateStage r.val s := if_neg (by simp [h1, h2, h3])
    have hcmd : exec (.stageInvalidate rq r) s = .next (stageCtl rq r.val s) := congrArg Host.Outcome.next (onPage_reaches hr ..)
    refine ⟨_, hcmd.trans (congrArg Host.Outcome.next hctl), stageValid_invalidateStage .., ?_, ?_⟩ <;>
      simp [invalidateStage, mdRgn, setRgn]
  · refine congrArg Host.Outcome.next ((onPage_reaches hr ..).trans (if_pos ?_))
    simpa [or_assoc] using h

end Sys2Proof.Machine

/-! PROOFS. Which components further operations may change. -/

namespace Sys2Proof.Machine

open Sys2Proof

@[simp] theorem sameBut_startHold {ps : List Part} (hps : covers ps [.logic] = true) (s₀ : State) (r side : Nat) (s : State) :
    SameBut ps s₀ (startHold r side s) ↔ SameBut ps s₀ s := by
  refine SameBut.iff (k := [.logic]) ?_ hps s₀
  simp (disch := decide) [startHold]

@[simp] theorem sameBut_holdSide {ps : List Part} (hps : covers ps [.logic, .rgns] = true) (s₀ : State) (r side : Nat) (s : State) :
    SameBut ps s₀ (holdSide r side s) ↔ SameBut ps s₀ s := by
  refine SameBut.iff (k := [.logic, .rgns]) ?_ hps s₀
  simp (disch := decide) [holdSide]

@[simp] theorem sameBut_regionNotice {ps : List Part} (hps : covers ps [.regs, .logic, .rgns] = true) (s₀ : State) (r : Nat) (s : State) :
    SameBut ps s₀ (regionNotice r s) ↔ SameBut ps s₀ s := by
  refine SameBut.iff (k := [.regs, .logic, .rgns]) ?_ hps s₀
  unfold regionNotice
  split
  · exact sameBut_refl _ s
  · exact (sameBut_foldl_iff (fun t d => by simp (disch := decide)) s _ _).2 (by simp (disch := decide))

@[simp] theorem sameBut_drainStart {ps : List Part} (hps : covers ps [.regs, .net, .logic, .sched, .rgns, .fox, .io] = true) (s₀ : State) (s : State) :
    SameBut ps s₀ (drainStart s) ↔ SameBut ps s₀ s := by
  refine SameBut.iff (k := [.regs, .net, .logic, .sched, .rgns, .fox, .io]) ?_ hps s₀
  unfold drainStart
  split
  · exact sameBut_refl _ s
  · split
    · exact sameBut_refl _ s
    · split
      · simp (disch := decide)
      · exact (sameBut_setFox (by decide) s _ _).2 (sameBut_foldl (fun t r => by simp (disch := decide)) _ s)

@[simp] theorem sameBut_drainTimeout {ps : List Part} (hps : covers ps [.regs, .net, .logic, .sched, .rgns, .fox, .io] = true) (s₀ : State) (s : State) :
    SameBut ps s₀ (drainTimeout s) ↔ SameBut ps s₀ s := by
  refine SameBut.iff (k := [.regs, .net, .logic, .sched, .rgns, .fox, .io]) ?_ hps s₀
  unfold drainTimeout
  split <;> simp (disch := decide)

@[simp] theorem sameBut_switchPlanes {ps : List Part} (hps : covers ps [.regs, .rgns, .planes] = true) (s₀ : State) (r : Nat) (s : State) :
    SameBut ps s₀ (switchPlanes r s) ↔ SameBut ps s₀ s := by
  refine SameBut.iff (k := [.regs, .rgns, .planes]) ?_ hps s₀
  simp (disch := decide) [switchPlanes]

@[simp] theorem sameBut_pinKeepSlots {ps : List Part} (hps : covers ps [.logic] = true) (s₀ : State) (r : Nat) (s : State) :
    SameBut ps s₀ (pinKeepSlots r s) ↔ SameBut ps s₀ s := by
  refine SameBut.iff (k := [.logic]) ?_ hps s₀
  simp (disch := decide) [pinKeepSlots]

@[simp] theorem sameBut_clearBankAtSwap {ps : List Part} (hps : covers ps [.regs, .words, .ports, .wpk] = true) (s₀ : State) (b : Nat) (s : State) :
    SameBut ps s₀ (clearBankAtSwap b s) ↔ SameBut ps s₀ s := by
  refine SameBut.iff (k := [.regs, .words, .ports, .wpk]) ?_ hps s₀
  simp (disch := decide) [clearBankAtSwap]

@[simp] theorem sameBut_swapBankClears {ps : List Part} (hps : covers ps [.regs, .words, .ports, .wpk] = true) (s₀ : State) (r : Nat) (old s : State) :
    SameBut ps s₀ (swapBankClears r old s) ↔ SameBut ps s₀ s := by
  refine SameBut.iff (k := [.regs, .words, .ports, .wpk]) ?_ hps s₀
  unfold swapBankClears
  exact sameBut_foldl (fun t x => by simp (disch := decide)) _ _

@[simp] theorem sameBut_rcCheck {ps : List Part} (hps : covers ps [.regs, .rgns, .io] = true) (s₀ : State) (r : Nat) (s : State) :
    SameBut ps s₀ (rcCheck r s) ↔ SameBut ps s₀ s := by
  refine SameBut.iff (k := [.regs, .rgns, .io]) ?_ hps s₀
  unfold rcCheck
  exact sameBut_foldl (fun t x => by simp (disch := decide)) _ _

@[simp] theorem sameBut_resetImmediates {ps : List Part} (hps : covers ps [.regs, .fab] = true) (s₀ : State) (r : Nat) (s : State) :
    SameBut ps s₀ (resetImmediates r s) ↔ SameBut ps s₀ s := by
  refine SameBut.iff (k := [.regs, .fab]) ?_ hps s₀
  simp (disch := decide) [resetImmediates]

@[simp] theorem sameBut_regionSwapped {ps : List Part} (hps : covers ps [.regs, .fox, .io] = true) (s₀ : State) (r : Nat) (s : State) :
    SameBut ps s₀ (regionSwapped r s) ↔ SameBut ps s₀ s := by
  refine SameBut.iff (k := [.regs, .fox, .io]) ?_ hps s₀
  simp (disch := decide) [regionSwapped]

@[simp] theorem sameBut_sendGen {ps : List Part} (hps : covers ps [.regs, .net] = true) (s₀ : State) (m : Option Word) (c : ChanId) (ws : List TWord) (s : State) :
    SameBut ps s₀ (sendGen m c ws s) ↔ SameBut ps s₀ s := by
  refine SameBut.iff (k := [.regs, .net]) ?_ hps s₀
  simp (disch := decide) [sendGen]

@[simp] theorem sameBut_squirrelDeliver {ps : List Part} (hps : covers ps [.regs, .net, .rgns, .io] = true) (s₀ : State) (r : Nat) (s : State) :
    SameBut ps s₀ (squirrelDeliver r s) ↔ SameBut ps s₀ s := by
  refine SameBut.iff (k := [.regs, .net, .rgns, .io]) ?_ hps s₀
  simp (disch := decide) [squirrelDeliver]

@[simp] theorem sameBut_swapRelease {ps : List Part} (hps : covers ps [.regs, .sched, .rgns, .fox, .io] = true) (s₀ : State) (r : Nat) (s : State) :
    SameBut ps s₀ (swapRelease r s) ↔ SameBut ps s₀ s := by
  refine SameBut.iff (k := [.regs, .sched, .rgns, .fox, .io]) ?_ hps s₀
  unfold swapRelease
  dsimp only
  (repeat' split) <;> simp (disch := decide)

@[simp] theorem sameBut_clearRegionStatus {ps : List Part} (hps : covers ps [.dev, .regs, .fab, .ports, .rgns] = true) (s₀ : State) (r : Nat) (s : State) :
    SameBut ps s₀ (clearRegionStatus r s) ↔ SameBut ps s₀ s := by
  refine SameBut.iff (k := [.dev, .regs, .fab, .ports, .rgns]) ?_ hps s₀
  simp (disch := decide) [clearRegionStatus]

@[simp] theorem sameBut_clearInside {ps : List Part} (hps : covers ps [.net] = true) (s₀ : State) (r : Nat) (s : State) :
    SameBut ps s₀ (clearInside r s) ↔ SameBut ps s₀ s := by
  refine SameBut.iff (k := [.net]) ?_ hps s₀
  simp (disch := decide) [clearInside]

@[simp] theorem sameBut_unroute {ps : List Part} (hps : covers ps [.net] = true) (s₀ : State) (i : ChanId) (s : State) :
    SameBut ps s₀ (unroute i s) ↔ SameBut ps s₀ s := by
  refine SameBut.iff (k := [.net]) ?_ hps s₀
  simp (disch := decide) [unroute]

/-- What a reset of the region switch does to an uplink: the message that holds it ends with a trailer. -/
def resetUplink (p : Nat) (s : State) : State :=
  let up := ChanId.portUp (portId p)
  let t := match (chan up s).holder with
    | some i => if (chan i s).headSent then send up [trailer E.ABSENT_TARGET] s else s
    | none => s
  t |> release up |> mdChan up (fun x => { x with waiting := [] })

/-- What it does to a downlink: its message loses its route. -/
def resetDownlink (p : Nat) (s : State) : State :=
  let dn := ChanId.portDown (portId p)
  match (chan dn s).route with
  | some (.out _) => if (chan dn s).headSent then mdChan dn (fun x => { x with route := none }) s else unroute dn s
  | _ => s

theorem resetSwitch_eq (r : Nat) (s : State) :
    resetSwitch r s = forPorts r resetDownlink (clearInside r (forPorts r resetUplink s)) := rfl

@[simp] theorem sameBut_resetUplink {ps : List Part} (hps : covers ps [.regs, .net] = true) (s₀ : State) (p : Nat) (s : State) :
    SameBut ps s₀ (resetUplink p s) ↔ SameBut ps s₀ s := by
  refine SameBut.iff (k := [.regs, .net]) ?_ hps s₀
  unfold resetUplink
  extract_lets up t
  have ht : SameBut [.regs, .net] s t := by
    simp only [t]
    (repeat' split) <;> simp (disch := decide)
  simp (disch := decide) [ht]

@[simp] theorem sameBut_resetDownlink {ps : List Part} (hps : covers ps [.net] = true) (s₀ : State) (p : Nat) (s : State) :
    SameBut ps s₀ (resetDownlink p s) ↔ SameBut ps s₀ s := by
  refine SameBut.iff (k := [.net]) ?_ hps s₀
  unfold resetDownlink
  dsimp only
  (repeat' split) <;> simp (disch := decide)

@[simp] theorem sameBut_resetSwitch {ps : List Part} (hps : covers ps [.regs, .net] = true) (s₀ : State) (r : Nat) (s : State) :
    SameBut ps s₀ (resetSwitch r s) ↔ SameBut ps s₀ s := by
  refine SameBut.iff (k := [.regs, .net]) ?_ hps s₀
  have hup := sameBut_forPorts (ps := [.regs, .net]) (f := resetUplink) (fun p t => by simp (disch := decide)) r s
  have hin := hup.trans ((sameBut_clearInside (by decide) _ r _).2 (sameBut_refl _ _))
  exact hin.trans (sameBut_forPorts (fun p t => (sameBut_resetDownlink (by decide) t p t).2 (sameBut_refl _ t)) r _)

@[simp] theorem sameBut_answerBank {ps : List Part} (hps : covers ps [.regs, .words, .ports, .wpk, .io] = true) (s₀ : State) (b : Nat) (s : State) :
    SameBut ps s₀ (answerBank b s) ↔ SameBut ps s₀ s := by
  refine SameBut.iff (k := [.regs, .words, .ports, .wpk, .io]) ?_ hps s₀
  unfold answerBank
  dsimp only
  exact (sameBut_foldl_iff (fun t q => by simp (disch := decide)) s _ _).2 (by simp (disch := decide))

@[simp] theorem sameBut_answerBanks {ps : List Part} (hps : covers ps [.regs, .words, .ports, .wpk, .io] = true) (s₀ : State) (r : Nat) (s : State) :
    SameBut ps s₀ (answerBanks r s) ↔ SameBut ps s₀ s := by
  refine SameBut.iff (k := [.regs, .words, .ports, .wpk, .io]) ?_ hps s₀
  unfold answerBanks
  exact sameBut_foldl (fun t x => by simp (disch := decide)) _ _

@[simp] theorem sameBut_clearTaps {ps : List Part} (hps : covers ps [.logic] = true) (s₀ : State) (r : Nat) (s : State) :
    SameBut ps s₀ (clearTaps r s) ↔ SameBut ps s₀ s := by
  refine SameBut.iff (k := [.logic]) ?_ hps s₀
  simp (disch := decide) [clearTaps]

@[simp] theorem sameBut_dropLoad {ps : List Part} (hps : covers ps [.regs, .rgns, .fox, .io] = true) (s₀ : State) (r code : Nat) (s : State) :
    SameBut ps s₀ (dropLoad r code s) ↔ SameBut ps s₀ s := by
  refine SameBut.iff (k := [.regs, .rgns, .fox, .io]) ?_ hps s₀
  unfold dropLoad
  (repeat' split) <;> simp (disch := decide)

@[simp] theorem sameBut_closeOpen {ps : List Part} (hps : covers ps [.regs, .net] = true) (s₀ : State) (c : ChanId) (s : State) :
    SameBut ps s₀ (closeOpen c s) ↔ SameBut ps s₀ s := by
  refine SameBut.iff (k := [.regs, .net]) ?_ hps s₀
  simp (disch := decide) [closeOpen]

@[simp] theorem sameBut_cutInput {ps : List Part} (hps : covers ps [.regs, .net] = true) (s₀ : State) (i : ChanId) (s : State) :
    SameBut ps s₀ (cutInput i s) ↔ SameBut ps s₀ s := by
  refine SameBut.iff (k := [.regs, .net]) ?_ hps s₀
  simp (disch := decide) [cutInput]

@[simp] theorem sameBut_replyAs {ps : List Part} (hps : covers ps [.regs, .net] = true) (s₀ : State) (k : Option Word) (inp : ChanId) (m : List TWord) (s : State) :
    SameBut ps s₀ (replyAs k inp m s) ↔ SameBut ps s₀ s := by
  refine SameBut.iff (k := [.regs, .net]) ?_ hps s₀
  unfold replyAs
  split <;> simp (disch := decide)

@[simp] theorem sameBut_replyBack {ps : List Part} (hps : covers ps [.regs, .net] = true) (s₀ : State) (inp : ChanId) (m : List TWord) (s : State) :
    SameBut ps s₀ (replyBack inp m s) ↔ SameBut ps s₀ s := by
  refine SameBut.iff (k := [.regs, .net]) ?_ hps s₀
  simp (disch := decide) [replyBack]

@[simp] theorem sameBut_fenceHolder {ps : List Part} (hps : covers ps [.regs, .net] = true) (s₀ : State) (dn : ChanId) (s : State) :
    SameBut ps s₀ (fenceHolder dn s) ↔ SameBut ps s₀ s := by
  refine SameBut.iff (k := [.regs, .net]) ?_ hps s₀
  unfold fenceHolder
  split <;> simp (disch := decide)

@[simp] theorem sameBut_unwait {ps : List Part} (hps : covers ps [.net] = true) (s₀ : State) (o : ChanId) (s : State) :
    SameBut ps s₀ (unwait o s) ↔ SameBut ps s₀ s := by
  refine SameBut.iff (k := [.net]) ?_ hps s₀
  unfold unwait
  exact (sameBut_foldl_iff (fun t e => by simp (disch := decide)) s _ _).2 (by simp (disch := decide))

/-- What a fence does to a port of the region: both links close, and the downlink is fenced. -/
def fencePort (p : Nat) (s : State) : State :=
  let up := ChanId.portUp (portId p)
  let dn := ChanId.portDown (portId p)
  let s := closeOpen up s
  let s := s |> fenceHolder dn |> unwait dn
  setChan dn { (Channel.free 16) with fenced := true, retired := (chan dn s).retired } s

theorem fenceRegion_eq (r : Nat) (s : State) :
    fenceRegion r s = mdChan (.foxTapDown (regionId r)) (fun x => { x with fenced := true })
      (closeOpen (.foxTapUp (regionId r)) (forPorts r fencePort (clearInside r s))) := rfl

@[simp] theorem sameBut_fencePort {ps : List Part} (hps : covers ps [.regs, .net] = true) (s₀ : State) (p : Nat) (s : State) :
    SameBut ps s₀ (fencePort p s) ↔ SameBut ps s₀ s := by
  refine SameBut.iff (k := [.regs, .net]) ?_ hps s₀
  simp (disch := decide) [fencePort]

@[simp] theorem sameBut_fenceRegion {ps : List Part} (hps : covers ps [.regs, .net] = true) (s₀ : State) (r : Nat) (s : State) :
    SameBut ps s₀ (fenceRegion r s) ↔ SameBut ps s₀ s := by
  refine SameBut.iff (k := [.regs, .net]) ?_ hps s₀
  have hports := sameBut_forPorts (ps := [.regs, .net]) (f := fencePort) (fun p t => by simp (disch := decide)) r (clearInside r s)
  have hin := ((sameBut_clearInside (ps := [.regs, .net]) (by decide) s r s).2 (sameBut_refl _ s)).trans hports
  exact (sameBut_mdChan (by decide) s _ _ _).2 ((sameBut_closeOpen (by decide) s _ _).2 hin)

@[simp] theorem sameBut_retireRegion {ps : List Part} (hps : covers ps [.regs, .net, .logic, .words, .ports, .rgns, .fox, .wpk, .io] = true) (s₀ : State) (r code : Nat) (s : State) :
    SameBut ps s₀ (retireRegion r code s) ↔ SameBut ps s₀ s := by
  refine SameBut.iff (k := [.regs, .net, .logic, .words, .ports, .rgns, .fox, .wpk, .io]) ?_ hps s₀
  simp (disch := decide) [retireRegion]

@[simp] theorem sameBut_regionFaulty {ps : List Part} (hps : covers ps [.regs, .net, .logic, .words, .ports, .rgns, .fox, .wpk, .io] = true) (s₀ : State) (r source code : Nat) (s : State) :
    SameBut ps s₀ (regionFaulty r source code s) ↔ SameBut ps s₀ s := by
  refine SameBut.iff (k := [.regs, .net, .logic, .words, .ports, .rgns, .fox, .wpk, .io]) ?_ hps s₀
  simp (disch := decide) [regionFaulty]

@[simp] theorem sameBut_frameFailed {ps : List Part} (hps : covers ps [.regs, .net, .logic, .words, .ports, .rgns, .fox, .wpk, .io] = true) (s₀ : State) (r f : Nat) (s : State) :
    SameBut ps s₀ (frameFailed r f s) ↔ SameBut ps s₀ s := by
  refine SameBut.iff (k := [.regs, .net, .logic, .words, .ports, .rgns, .fox, .wpk, .io]) ?_ hps s₀
  simp (disch := decide) [frameFailed]

@[simp] theorem sameBut_resetRegionNow {ps : List Part} (hps : covers ps [.dev, .regs, .net, .fab, .macs, .logic, .ports, .rgns] = true) (s₀ : State) (r : Nat) (s : State) :
    SameBut ps s₀ (resetRegionNow r s) ↔ SameBut ps s₀ s := by
  refine SameBut.iff (k := [.dev, .regs, .net, .fab, .macs, .logic, .ports, .rgns]) ?_ hps s₀
  simp (disch := decide) [resetRegionNow]

end Sys2Proof.Machine

/-! PROOFS. O41: swap sets are armed and drained. -/

namespace Sys2Proof.Machine

open Sys2Proof

theorem rgn_of_rgns {s t : State} (h : t.rgns = s.rgns) (r : Nat) : rgn r t = rgn r s := by rw [rgn, h, rgn]

@[simp] theorem rgn_setRgn_same (r : Nat) (x : Rgn) (s : State) : rgn r (setRgn r x s) = x := tget_tput_same ..

@[simp] theorem rgn_mdRgn_same (r : Nat) (f : Rgn → Rgn) (s : State) : rgn r (mdRgn r f s) = f (rgn r s) := tget_tput_same ..

theorem rd_setRgn (q o r : Nat) (x : Rgn) (s : State) : rd q o (setRgn r x s) = rd q o s := rfl

theorem rd_mdRgn (q o r : Nat) (f : Rgn → Rgn) (s : State) : rd q o (mdRgn r f s) = rd q o s := rfl

theorem rgn_swapState (q n r : Nat) (s : State) : rgn q (swapState n r s) = rgn q s := rfl

theorem rdf_swapState_same {n : Nat} (h : n < 8) (r : Nat) (s : State) :
    rdf (P.RGN r) R.RGN_SWAP_STATE 2 0 (swapState n r s) = n := by
  unfold swapState
  rw [rdf_wrf_same (by decide)]
  exact Nat.mod_eq_of_lt h

/-- Sides that enter the hold leave what a region is doing. -/
theorem holdSide_keeps (r d : Nat) (s : State) : ∃ m, rgn r (holdSide r d s) = { rgn r s with inHeld := m } := by
  have hr : (startHold r d s).rgns = s.rgns := by unfold startHold; split <;> rfl
  exact ⟨_, (rgn_mdRgn_same ..).trans (by rw [rgn_of_rgns hr])⟩

theorem holdSides_keeps (r : Nat) (ds : List Nat) (s : State) :
    ∃ m, rgn r (ds.foldl (fun t d => holdSide r d t) s) = { rgn r s with inHeld := m } := by
  induction ds generalizing s with
  | nil => exact ⟨(rgn r s).inHeld, rfl⟩
  | cons d ds ih =>
    obtain ⟨m, hm⟩ := ih (holdSide r d s)
    obtain ⟨n, hn⟩ := holdSide_keeps r d s
    exact ⟨m, by rw [List.foldl_cons, hm, hn]⟩

theorem armed_abortSet {m a} {s : State} (h : s.fox.armed = some (m, a)) (c low : Nat) : (abortSet c low s).fox.armed = none := by
  unfold abortSet
  rw [h]
  rfl

/-- ARM and NOW of a set that qualifies arm it. -/
theorem armSet_arms {rq : Requester} {now : Bool} {s : State} (hw : takesWork P.FOX s = true)
    (hf : armFault rq (rd64 P.FOX R.FOX_ARM_MASK_LO s) (if now then none else some (rd64 P.FOX R.FOX_ARM_AT_LO s)) s = none) :
    (armSet rq now s).fox.armed = some (rd64 P.FOX R.FOX_ARM_MASK_LO s,
        if now then s.time.ringTime else rd64 P.FOX R.FOX_ARM_AT_LO s) ∧
      (armSet rq now s).fox.drainAt = none ∧ (armSet rq now s).fox.gone = false ∧ (armSet rq now s).planes = s.planes ∧
      (armSet rq now s).banks = s.banks := by
  have hsame : SameBut [.regs, .fox] s (armSet rq now s) := (sameBut_armSet (by decide) s rq now s).2 (sameBut_refl _ s)
  refine ⟨?_, ?_, ?_, hsame .planes (by decide), hsame.banks (by decide) (by decide)⟩ <;>
    simp only [armSet, hw, hf] <;> rfl

theorem armSet_refuses {rq : Requester} {s : State} {c : Nat} (hw : takesWork P.FOX s = true)
    (hf : armFault rq (rd64 P.FOX R.FOX_ARM_MASK_LO s) (some (rd64 P.FOX R.FOX_ARM_AT_LO s)) s = some c) :
    armSet rq false s = wrf P.FOX R.FOX_ARM_CTL 31 24 c s := by
  unfold armSet
  dsimp only
  rw [if_neg (by simp [hw]), if_neg (by decide), hf]
  rfl

/-- The notice starts the drain of a region of the set. -/
theorem regionNotice_drains {r : Nat} {s : State} (h1 : inDrain r s = true) (h2 : regionOn r s = true)
    (h3 : (rgn r s).draining = false) :
    (rgn r (regionNotice r s)).draining = true ∧ (rgn r (regionNotice r s)).drained = false ∧
      rdf (P.RGN r) R.RGN_SWAP_STATE 2 0 (regionNotice r s) = 2 := by
  unfold regionNotice
  rw [if_neg (by simp [h1, h2, h3])]
  generalize hu : swapState 2 r (mdRgn r _ s) = u
  have hdrain : (rgn r u).draining = true ∧ (rgn r u).drained = false := by
    rw [← hu, rgn_swapState, rgn_mdRgn_same]
    exact ⟨rfl, rfl⟩
  have hstate : rdf (P.RGN r) R.RGN_SWAP_STATE 2 0 u = 2 := hu ▸ rdf_swapState_same (by decide) ..
  have hregs : ((neighbourSides r).foldl (fun t d => holdSide r d t) u).regs = u.regs :=
    (sameBut_foldl (l := [.logic, .rgns]) (fun t d => by simp (disch := decide)) _ u) .regs (by decide)
  obtain ⟨m, hm⟩ := holdSides_keeps r (neighbourSides r) u
  rw [hm, rdf, rd_of_regs hregs]
  exact ⟨hdrain.1, hdrain.2, hstate⟩

/-- A region whose scheduler has reported and whose switch is idle is found drained. -/
theorem regionDrained_holds {r : Nat} {s : State} (h1 : inDrain r s = true) (h2 : (rgn r s).draining = true)
    (h3 : (rgn r s).drained = false) (h4 : (rgn r s).schReport = true) (h5 : switchIdle r s = true) :
    (rgn r (regionDrained r s)).drained = true ∧ rdf (P.RGN r) R.RGN_SWAP_STATE 2 0 (regionDrained r s) = 3 ∧
      (regionDrained r s).fox.drainedSet = s.fox.drainedSet ||| maskOf [r] ∧ (regionDrained r s).banks = s.banks := by
  unfold regionDrained
  dsimp only
  rw [if_pos (by simp [h1, h2, h3, h4, h5])]
  refine ⟨?_, rdf_swapState_same (by decide) .., rfl, rfl⟩
  exact congrArg Rgn.drained (rgn_mdRgn_same r (fun x => { x with drained := true }) s)

/-- Settles O41: a set is armed, disarmed, drained, found drained, or aborted at its limit. -/
theorem setsAreArmedAndDrained : Obligations.SetsAreArmedAndDrained := by
  intro s
  refine ⟨fun rq hr hc => ⟨fun hf => ?_, fun hf => ?_, fun c hf => ?_⟩, fun rq m a hr ha => ⟨fun hd => ?_, fun d hd => ?_⟩,
    fun m a ha hd => ⟨fun ht hf => ?_, fun c low ht hf => ?_, fun ht => ?_⟩, fun r h1 h2 h3 => ?_, fun r h1 h2 h3 h4 h5 => ?_,
    fun hset => ?_, fun m a d ha hd hg hset => ⟨fun ht => ?_, fun ht => ?_⟩⟩
  · exact ⟨_, congrArg Host.Outcome.next (onPage_reaches hr ..), armSet_arms (now := false) hc hf⟩
  · exact ⟨_, congrArg Host.Outcome.next (onPage_reaches hr ..), armSet_arms (now := true) hc hf⟩
  · exact congrArg Host.Outcome.next ((onPage_reaches hr ..).trans (armSet_refuses hc hf))
  · have hcmd : disarmCmd s = disarmSet ((maskList m).foldl (fun t r => swapState 0 r t) (armCode 0 s)) := by
      unfold disarmCmd
      rw [ha]
      exact if_neg (by simp [hd])
    refine ⟨_, congrArg Host.Outcome.next ((onPage_reaches hr ..).trans hcmd), rfl, ?_⟩
    exact (sameBut_foldl_iff (l := [.regs]) (fun t r => by simp (disch := decide)) s (maskList m) (armCode 0 s)).2
      ((sameBut_wrf (by decide) s _ _ _ _ _ s).2 (sameBut_refl _ s)) .planes (by decide)
  · refine congrArg Host.Outcome.next ((onPage_reaches hr ..).trans ?_)
    unfold disarmCmd
    rw [ha]
    exact if_pos (by simp [hd])
  · have hstart : drainStart s = setFox { s.fox with drainAt := some s.time.ringTime }
        ((maskList m).foldl (fun t r => mdRgn r (fun x => { x with schReport := false, released := 0 }) t) s) := by
      unfold drainStart
      rw [ha]
      dsimp only
      rw [if_neg (by simp [hd, ringTime, ht]), hf]
      rfl
    have hsame : SameBut [.rgns] s ((maskList m).foldl (fun t r =>
        mdRgn r (fun x => { x with schReport := false, released := 0 }) t) s) :=
      sameBut_foldl (fun t r => by simp (disch := decide)) _ s
    exact ⟨_, congrArg Host.Outcome.next hstart, rfl, ha, hsame .regs (by decide), hsame.banks (by decide) (by decide)⟩
  · refine congrArg Host.Outcome.next ?_
    unfold drainStart
    rw [ha]
    dsimp only
    rw [if_neg (by simp [hd, ringTime, ht]), hf]
  · refine congrArg Host.Outcome.next ?_
    unfold drainStart
    rw [ha]
    exact if_pos (Or.inr ht)
  · obtain ⟨hdrain, hdrained, hstate⟩ := regionNotice_drains h1 h2 h3
    have hsame := (sameBut_regionNotice (ps := [.regs, .logic, .rgns]) (by decide) s r.val s).2 (sameBut_refl _ s)
    have hall := hsame.trans ((sameBut_settleAll (by decide) _ _).2 (sameBut_refl _ (regionNotice r.val s)))
    have hsettle := (sameBut_settleAll (ps := [.logic]) (by decide) _ _).2 (sameBut_refl _ (regionNotice r.val s))
    refine ⟨_, rfl, ?_, ?_, ?_, hall .fox (by decide), hall.banks (by decide) (by decide), hall .planes (by decide)⟩
    · rw [rgn_of_rgns (hsettle .rgns (by decide)), hdrain]
    · rw [rgn_of_rgns (hsettle .rgns (by decide)), hdrained]
    · rw [rdf, rd_of_regs (hsettle .regs (by decide))]
      exact hstate
  · exact ⟨_, rfl, regionDrained_holds h1 h2 h3 h4 h5⟩
  · obtain ⟨m, a, ha⟩ : ∃ m a, s.fox.armed = some (m, a) := by
      cases ha : s.fox.armed with
      | none => simp [setIsDrained, ha] at hset
      | some p => exact ⟨p.1, p.2, rfl⟩
    have hsame := (sameBut_setDrained (ps := [.regs, .fox, .free]) (by decide) s s).2 (sameBut_refl _ s)
    have hfox : (setDrained s).fox = { s.fox with gone := true } := by
      have hfold : ((maskList m).foldl (fun t r => wr (P.RGN r) R.RGN_DRAIN_LAST (W (fld 19 0 (freeVal s))) t) (drawn s)).fox =
          s.fox := sameBut_foldl (l := [.regs]) (fun t r => by simp (disch := decide)) _ (drawn s) .fox (by decide)
      unfold setDrained
      rw [ha]
      dsimp only
      rw [if_neg (by simp [hset])]
      exact congrArg (fun f : Fox => { f with gone := true }) hfold
    exact ⟨setDrained s, rfl, by rw [hfox], by rw [hfox], hsame .planes (by decide),
      hsame.banks (by decide) (by decide)⟩
  · have hto : drainTimeout s = abortSet E.DRAIN_TIMEOUT (((maskList m).find? fun r =>
        !inMask s.fox.drainedSet r || !s.sched.reported.contains r).getD 0) s := by
      have hlate : ¬(ringTime s).toNat ≤ d.toNat + rdf P.FOX R.FOX_DRAIN_LIMIT 19 0 s := Nat.not_le.2 ht
      unfold drainTimeout
      rw [ha, hd]
      exact if_neg (by rw [decide_eq_false hlate, hg, hset]; decide)
    exact ⟨_, congrArg (fun t => Host.Outcome.next (settleAll t)) hto, armed_abortSet ha ..⟩
  · refine congrArg (fun t => Host.Outcome.next (settleAll t)) ?_
    unfold drainTimeout
    rw [ha, hd]
    exact if_pos (by simp [ringTime, ht])

end Sys2Proof.Machine

/-! PROOFS. O42: a swap exchanges the planes of its region; resets and handovers of the region. -/

namespace Sys2Proof.Machine

open Sys2Proof

/-! ## The planes exchange -/

theorem tfind_append {α : Type} (a b : SMap α) (k : Nat) : tfind (a ++ b) k = (tfind a k).or (tfind b k) := by
  induction a with
  | nil => rfl
  | cons e a ih =>
    obtain ⟨j, v⟩ := e
    by_cases h : j = k <;> simp [tfind, h, ih]

/-- A plane that takes the words of region r from another one. -/
def splicePlane (r : Nat) (a b : SMap Word) : SMap Word :=
  a.filter (fun e => e.1 / 49152 < r) ++ b.filter (fun e => e.1 / 49152 == r) ++ a.filter (fun e => r < e.1 / 49152)

theorem tfind_splicePlane (r : Nat) (a b : SMap Word) (k : Nat) :
    tfind (splicePlane r a b) k = if k / 49152 = r then tfind b k else tfind a k := by
  unfold splicePlane
  rw [tfind_append, tfind_append, tfind_filter_key (fun k => decide (k / 49152 < r)),
    tfind_filter_key (fun k => k / 49152 == r), tfind_filter_key (fun k => decide (r < k / 49152))]
  rcases Nat.lt_trichotomy (k / 49152) r with h | h | h
  · simp [h, Nat.ne_of_lt h, Nat.not_lt.2 h.le]
  · simp [h]
  · simp [h, Nat.ne_of_gt h, Nat.not_lt.2 h.le]

theorem frameKey_region {f w : Nat} (hf : f < 1536) (hw : w < 32) (q : Nat) : frameKey q f w / 49152 = q := by
  simp only [frameKey]
  omega

theorem planeWord_splicePlane {f w : Nat} (hf : f < 1536) (hw : w < 32) (r q : Nat) (a b : SMap Word) :
    planeWord (splicePlane r a b) q f w = if q = r then planeWord b q f w else planeWord a q f w := by
  simp only [planeWord, tget, tfind_splicePlane, frameKey_region hf hw]
  split <;> rfl

theorem planes_switchPlanes (r : Nat) (s : State) : (switchPlanes r s).planes =
    { s.planes with
      active := splicePlane r s.planes.active s.planes.staging,
      staging := splicePlane r s.planes.staging s.planes.active } := rfl

/-! ## GSR -/

/-- GSR in a region leaves the rest of what the region is doing. -/
theorem rgn_assertGsr (r : Nat) (swap : Bool) (s : State) : rgn r (assertGsr r swap s) = { rgn r s with gsr := true } := by
  have hsame (t : State) : SameBut [.net, .fab, .macs, .logic, .ports] t (emptyFoxTap r (clearLutPorts r
      (gsrLogic r swap (gsrCells r (fun c n => swap && cellRetain c n s) t)))) := by simp (disch := decide)
  exact (rgn_of_rgns (hsame _ .rgns (by decide)) r).trans (rgn_mdRgn_same r (fun x => { x with gsr := true }) s)

theorem rgn_clearHistories (r : Nat) (s : State) : rgn r (clearHistories r s) = { rgn r s with frameTimes := [] } := by
  unfold clearHistories
  extract_lets t src u
  have hports : ((List.range 16).foldl (fun t l => mdBankPort (16 * r + l) (fun x => { x with failTimes := [] }) t) u).rgns = u.rgns :=
    sameBut_foldl (l := [.ports]) (fun t l => by simp (disch := decide)) _ u .rgns (by decide)
  have hu : u.rgns = t.rgns := rfl
  rw [rgn_of_rgns hports, rgn_of_rgns hu]
  exact rgn_mdRgn_same ..

theorem rgn_clearRegionStatus (r : Nat) (s : State) : rgn r (clearRegionStatus r s) = { rgn r s with frameTimes := [] } := by
  unfold clearRegionStatus
  have hclear : (clearStatus (P.RGN r) keepRgn s).rgns = s.rgns :=
    (sameBut_clearStatus (ps := [.dev, .regs]) (by decide) s _ _ s).2 (sameBut_refl _ s) .rgns (by decide)
  generalize clearStatus (P.RGN r) keepRgn s = t at *
  have hset : (setArr P.FOX R.FOX_FAULTY_LO r false (clearHistories r t)).rgns = (clearHistories r t).rgns :=
    (sameBut_setArr (ps := [.regs]) (by decide) _ _ _ _ _ _).2 (sameBut_refl _ (clearHistories r t)) .rgns (by decide)
  rw [rgn_of_rgns hset, rgn_clearHistories, rgn_of_rgns hclear]

/-- A region reset asserts GSR and empties the Squirrel buffer. -/
theorem rgn_resetRegionNow (r : Nat) (s : State) : (rgn r (resetRegionNow r s)).gsr = true ∧ (rgn r (resetRegionNow r s)).sq = [] := by
  unfold resetRegionNow
  rw [rgn_assertGsr, rgn_clearRegionStatus, rgn_mdRgn_same]
  exact ⟨rfl, rfl⟩

/-- Steps 1 to 4 of a swap. -/
theorem swapSwitch_holds (r : Nat) (s : State) :
    (swapSwitch r s).planes = { s.planes with
        active := splicePlane r s.planes.active s.planes.staging
        staging := splicePlane r s.planes.staging s.planes.active } ∧
      (rgn r (swapSwitch r s)).gsr = true ∧ rdf (P.RGN r) R.RGN_SWAP_STATE 2 0 (swapSwitch r s) = 5 := by
  refine ⟨?_, ?_, rdf_swapState_same (by decide) ..⟩
  · unfold swapSwitch
    extract_lets t u
    have ht : t.planes = s.planes :=
      sameBut_foldl (l := [.logic, .rgns]) (fun t d => by simp (disch := decide)) _ s .planes (by decide)
    have hk : (pinKeepSlots r t).planes = s.planes :=
      ((sameBut_pinKeepSlots (ps := [.logic]) (by decide) t r t).2 (sameBut_refl _ t) .planes (by decide)).trans ht
    have hu : u.planes = { s.planes with
        active := splicePlane r s.planes.active s.planes.staging
        staging := splicePlane r s.planes.staging s.planes.active } := by rw [← hk]; exact planes_switchPlanes ..
    have hrest (v : State) : SameBut [.regs, .words, .ports, .wpk, .net, .fab, .macs, .logic, .rgns, .io] v
        (swapState 5 r (assertGsr r true (resetImmediates r (rcCheck r (swapBankClears r t v))))) := by simp (disch := decide)
    exact (hrest u .planes (by decide)).trans hu
  · unfold swapSwitch
    rw [rgn_swapState, rgn_assertGsr]

theorem inMask_maskOf_self (r : Nat) (h : r < 64) : inMask (maskOf [r]) r = true := by
  simp [inMask, maskOf, h]

/-- The release of the last region of a set ends the set. -/
theorem swapRelease_ends {r : Nat} (hr : r < 64) {m a : BitVec 64} {s : State} (ha : s.fox.armed = some (m, a))
    (hm : inMask m r = true) (hs : s.fox.swappedSet = m) (hd : s.fox.drainedSet = maskOf [r]) :
    (swapRelease r s).fox.armed = none ∧ (swapRelease r s).fox.gone = false ∧
      rd P.FOX R.FOX_SWAP_STAT (swapRelease r s) = 0 ∧ (swapRelease r s).sched.heldRegions.contains r = false := by
  unfold swapRelease
  rw [ha]
  dsimp only
  rw [if_neg (by rw [hs, hd, hm, inMask_maskOf_self r hr]; decide)]
  generalize ht : setFox _ _ = t
  have hfox : t.fox.drainedSet = 0 ∧ t.fox.swappedSet = m := by
    rw [← ht]
    exact ⟨by rw [← hd]; exact BitVec.and_not_self _, hs⟩
  have hheld : t.sched.heldRegions.contains r = false := by
    rw [← ht]
    simp [releaseHold, mdRgn, setRgn]
  rw [if_pos hfox]
  refine ⟨rfl, rfl, ?_, ?_⟩
  · unfold disarmSet
    rw [rd_setFox, rd_irq_off (noPba_page (by decide) (by decide)) (rkey_off (by decide)), count,
      rd_countN_other (rkey_off (by decide)), rd_wr_same]
  · rw [← hheld]
    simp [disarmSet]

/-- A whole HANDOVER at the Squirrel buffer. -/
theorem squirrelTake_handover {r : RegionId} {m : Msg} {s : State} (hm : sinkMsg (.squirrel r) s = some m)
    (hst : m.status = 0) (hc : m.cls = 7) (hl : m.payload.length = m.len) :
    squirrelTake r.val s = if 512 < (rgn r.val s).sq.length + m.len then sqDrop r.val m.len (dropMsg (.squirrel r) s)
      else mdRgn r.val (fun x => { x with sq := x.sq ++ m.payload }) (dropMsg (.squirrel r) s) := by
  have hr : Fin.ofNat 64 r.val = r := Fin.ext (Nat.mod_eq_of_lt r.isLt)
  unfold squirrelTake
  rw [hr]
  dsimp only
  rw [hm]
  dsimp only
  rw [if_neg (by simp [hst]), if_neg (by simp [hc, hl])]

/-- Settles O42: the planes exchange, the release steps, the last release of a set, handovers and region resets. -/
theorem swapExchangesPlanesAndReleases : Obligations.SwapExchangesPlanesAndReleases := by
  intro r s x st
  refine ⟨fun hsw hon hst => ?_, fun hsw hon hst => ?_, fun hsw => ?_, fun hg hon hsw => ?_,
    fun hg hon hsw hsr hrun hclk => ?_, fun m a ha hdev hm hs hd => ?_, fun m hrun hm hms hc hl => ?_,
    fun rq hr => ⟨fun hsw => ?_, fun hsw => ?_⟩⟩
  · have hgo : swapGo r.val s = swapSwitch r.val s := by
      have hst : rdf (P.RGN r.val) R.RGN_SWAP_STATE 2 0 s = 3 := hst
      unfold swapGo
      rw [hst]
      exact if_neg (by simp [hsw, hon])
    obtain ⟨hplanes, hgsr, hstate⟩ := swapSwitch_holds r.val s
    have hsettle := (sameBut_settleAll (ps := [.logic]) (by decide) _ _).2 (sameBut_refl _ (swapSwitch r.val s))
    have hall := (hsettle .planes (by decide)).trans hplanes
    refine ⟨_, congrArg (fun t => Host.Outcome.next (settleAll t)) hgo, fun f w hf hw => ?_, fun q f w hq hf hw => ?_, ?_, ?_⟩
    · rw [hall, planeWord_splicePlane hf hw, planeWord_splicePlane hf hw, if_pos rfl, if_pos rfl]
      exact ⟨rfl, rfl⟩
    · rw [hall, planeWord_splicePlane hf hw, planeWord_splicePlane hf hw, if_neg hq, if_neg hq]
      exact ⟨rfl, rfl⟩
    · rw [rgn_of_rgns (hsettle .rgns (by decide)), hgsr]
    · rw [rdf, rd_of_regs (hsettle .regs (by decide))]
      exact hstate
  · intro u
    have hgo : swapGo r.val s = if x.released = 1 then u
        else if x.resetWaiting then resetRegionNow r.val (regionSwapped r.val u) else regionSwapped r.val u := by
      have hst : rdf (P.RGN r.val) R.RGN_SWAP_STATE 2 0 s = 6 := hst
      unfold swapGo
      rw [hst]
      exact if_neg (by simp [hsw, hon])
    have hcmd : exec (.swapGo r) s = .next (settleAll (swapGo r.val s)) := rfl
    rw [hcmd, hgo]
    refine ⟨fun h1 => congrArg (fun t => Host.Outcome.next (settleAll t)) (if_pos h1), fun h2 hw =>
      congrArg (fun t => Host.Outcome.next (settleAll t)) ((if_neg (by simp [h2])).trans (if_neg (by simp [hw])))⟩
  · exact congrArg (fun t => Host.Outcome.next (settleAll t)) (if_pos (by simp [hsw]))
  · refine congrArg (fun t => Host.Outcome.next (settleAll t)) ((if_neg ?_).trans (if_pos hsw))
    simp only [x] at hg
    simp [hg, hon]
  · have hg : (rgn r.val s).gsr = true := hg
    refine congrArg (fun t => Host.Outcome.next (settleAll t)) ((if_neg ?_).trans ((if_neg ?_).trans (if_pos ?_)))
    · simp [hg, hon]
    · simp [hsw]
    · rcases hclk with h | h <;> simp [hsr, deviceRuns, hrun, h]
  · have hsame := (sameBut_swapRelease (ps := [.regs, .sched, .rgns, .fox, .io]) (by decide) s r.val s).2 (sameBut_refl _ s)
    have hwait : (swapRelease r.val s).dev.resetWaiting = none := by
      rw [hsame.device (by decide) (by decide), hdev]
    obtain ⟨h1, h2, h3, h4⟩ := swapRelease_ends r.isLt ha hm hs hd
    refine ⟨swapRelease r.val s, congrArg Host.Outcome.next ?_, h1, h2, h3, h4, hsame .planes (by decide),
      hsame.banks (by decide) (by decide)⟩
    dsimp only
    rw [hwait]
  · have hcmd : exec (.handover r) s = .next (squirrelTake r.val s) := congrArg Host.Outcome.next (if_pos hrun)
    rw [hcmd, squirrelTake_handover hm hms hc hl]
    refine ⟨fun h => congrArg Host.Outcome.next (if_neg (by simp only [x] at h; omega)),
      fun h => congrArg Host.Outcome.next (if_pos h)⟩
  · exact congrArg (fun t => Host.Outcome.next (settleAll t)) ((onPage_reaches hr ..).trans (if_pos hsw))
  · have hreset : regionReset r.val s =
        resetRegionNow r.val (if locked r.val s && !s.fox.gone then abortSet E.ABSENT_TARGET r.val s else s) :=
      if_neg (by simp [hsw])
    have hsame : SameBut [.dev, .regs, .net, .fab, .macs, .logic, .ports, .rgns, .sched, .fox, .io] s (regionReset r.val s) := by
      rw [hreset]
      refine (sameBut_resetRegionNow (by decide) s _ _).2 ?_
      split
      · simp (disch := decide)
      · exact sameBut_refl _ s
    have hall := hsame.trans ((sameBut_settleAll (by decide) _ _).2 (sameBut_refl _ (regionReset r.val s)))
    have hsettle := (sameBut_settleAll (ps := [.logic]) (by decide) _ _).2 (sameBut_refl _ (regionReset r.val s))
    refine ⟨_, congrArg (fun t => Host.Outcome.next (settleAll t)) (onPage_reaches hr ..), ?_, ?_, hall .planes (by decide), ?_⟩
    · rw [rgn_of_rgns (hsettle .rgns (by decide)), hreset]
      exact (rgn_resetRegionNow ..).1
    · rw [rgn_of_rgns (hsettle .rgns (by decide)), hreset]
      exact (rgn_resetRegionNow ..).2
    · exact hall .words (by decide)

end Sys2Proof.Machine

/-! PROOFS. O43: the scrub of a region's planes and their digests. -/

namespace Sys2Proof.Machine

open Sys2Proof

/-- A wrong frame of a staging plane makes it invalid. -/
theorem scrubFail_staging {r f : Nat} {b : Bool} {s : State} (hr : r < 64) (h : scrubRuns r s = true)
    (hs : (rgn r s).scrubStaging = true) (hv : stageValid r s = true) :
    stageValid r (scrubFail r true f b s) = false ∧ (scrubFail r true f b s).planes = s.planes := by
  have hfail : scrubFail r true f b s = err (P.RGN r) E.PARITY 0 0 (invalidateStage r s) := by
    unfold scrubFail
    dsimp only
    rw [if_neg (by simp [h, hs]), if_pos rfl, if_pos hv]
  have hq : P.RGN r ≠ P.PCIE := by simp only [P.RGN, P.PCIE]; omega
  rw [hfail]
  refine ⟨?_, ?_⟩
  · rw [stageValid, rd_err_own (noPba_page hq (by decide)) (by decide)]
    exact stageValid_invalidateStage ..
  · simp [invalidateStage, mdRgn, setRgn]

/-- A frame of the active plane that fails. -/
theorem scrubFail_active {r f : Nat} {b : Bool} {s : State} (h : scrubRuns r s = true) (hs : (rgn r s).scrubStaging = false) :
    scrubFail r false f b s =
      (let t := wr (P.RGN r) R.RGN_SCRUB_LAST (W (frameAddr r f)) s
       if b && !(rgn r s).unreferenced.contains f then
         frameFailed r f (errTransient (P.RGN r) (irq (P.RGN r) 26 (count (P.RGN r) R.RGN_SCRUB_FIXES t)))
       else frameFailed r f (err (P.RGN r) E.PARITY 0 0 (md (P.RGN r) R.RGN_SCRUB_STAT (satFld 15 0) t))) := by
  unfold scrubFail
  dsimp only
  rw [if_neg (by simp [h, hs]), if_neg (by decide)]

/-- The end of an active pass gives the digest of the active plane. -/
theorem scrubEnd_active {r : Nat} {s : State} (h : scrubRuns r s = true) (hs : (rgn r s).scrubStaging = false) :
    let u := scrubEnd r false s
    u.planes = s.planes ∧ u.banks = s.banks ∧ (rgn r u).scrubStaging = true ∧
      rd (P.RGN r) R.RGN_DIGEST_HI u = (planeDigest r s.planes.active).1 ∧
      rd (P.RGN r) R.RGN_DIGEST_LO u = (planeDigest r s.planes.active).2 ∧ bit 31 (rd (P.RGN r) R.RGN_DIGEST_STAT u) = true := by
  intro u
  have hsame : SameBut [.regs, .rgns] s u := (sameBut_scrubEnd (by decide) s _ _ s).2 (sameBut_refl _ s)
  have hu : u = md (P.RGN r) R.RGN_DIGEST_STAT (fun w => setBit 31 true (satFld 15 0 w))
      (wr (P.RGN r) R.RGN_DIGEST_LO (planeDigest r s.planes.active).2 (wr (P.RGN r) R.RGN_DIGEST_HI (planeDigest r s.planes.active).1
        (setRgn r { rgn r s with scrubStaging := true, scrubCut := false } s))) := by
    show scrubEnd r false s = _
    unfold scrubEnd
    dsimp only
    rw [if_neg (by simp [h, hs]), if_neg (by decide), Bool.not_false]
  clear_value u
  generalize planeDigest r s.planes.active = d at *
  subst hu
  refine ⟨hsame .planes (by decide), hsame.banks (by decide) (by decide), ?_, ?_, ?_, ?_⟩
  · generalize hv : setRgn r { rgn r s with scrubStaging := true, scrubCut := false } s = v
    have hregs : SameBut [.regs] v (md (P.RGN r) R.RGN_DIGEST_STAT (fun w => setBit 31 true (satFld 15 0 w))
      (wr (P.RGN r) R.RGN_DIGEST_LO d.2 (wr (P.RGN r) R.RGN_DIGEST_HI d.1 v))) := by simp (disch := decide)
    have hset : rgn r v = { rgn r s with scrubStaging := true, scrubCut := false } := hv ▸ rgn_setRgn_same ..
    rw [rgn_of_rgns (hregs .rgns (by decide)), hset]
  · rw [rd_md_other (rkey_off (by decide)), rd_wr_other (rkey_off (by decide)), rd_wr_same]
  · rw [rd_md_other (rkey_off (by decide)), rd_wr_same]
  · rw [rd_md_same]
    exact bit_setBit_same (by decide) ..

/-- The end of a whole staging pass gives the digest of the staging plane. -/
theorem scrubEnd_staging {r : Nat} {s : State} (h : scrubRuns r s = true) (hs : (rgn r s).scrubStaging = true)
    (hst : stageValid r s = true) (hc : (rgn r s).scrubCut = false) :
    let u := scrubEnd r true s
    (rgn r u).scrubStaging = false ∧ u.planes = s.planes ∧
      rd (P.RGN r) R.RGN_STAGE_DIGEST_HI u = (planeDigest r s.planes.staging).1 ∧
      rd (P.RGN r) R.RGN_STAGE_DIGEST_LO u = (planeDigest r s.planes.staging).2 := by
  intro u
  have hsame : SameBut [.regs, .rgns] s u := (sameBut_scrubEnd (by decide) s _ _ s).2 (sameBut_refl _ s)
  have hu : u = wrf (P.RGN r) R.RGN_DIGEST_STAT 30 30 1 (wr (P.RGN r) R.RGN_STAGE_DIGEST_LO (planeDigest r s.planes.staging).2
      (wr (P.RGN r) R.RGN_STAGE_DIGEST_HI (planeDigest r s.planes.staging).1
        (setRgn r { rgn r s with scrubStaging := false, scrubCut := false } s))) := by
    show scrubEnd r true s = _
    unfold scrubEnd
    dsimp only
    rw [if_neg (by simp [h, hs]), if_pos rfl, if_pos (by simp [hst, hc]), Bool.not_true]
  clear_value u
  generalize planeDigest r s.planes.staging = d at *
  subst hu
  refine ⟨?_, hsame .planes (by decide), ?_, ?_⟩
  · generalize hv : setRgn r { rgn r s with scrubStaging := false, scrubCut := false } s = v
    have hregs : SameBut [.regs] v (wrf (P.RGN r) R.RGN_DIGEST_STAT 30 30 1
      (wr (P.RGN r) R.RGN_STAGE_DIGEST_LO d.2 (wr (P.RGN r) R.RGN_STAGE_DIGEST_HI d.1 v))) := by simp (disch := decide)
    have hset : rgn r v = { rgn r s with scrubStaging := false, scrubCut := false } := hv ▸ rgn_setRgn_same ..
    rw [rgn_of_rgns (hregs .rgns (by decide)), hset]
  · rw [rd_wrf_other (rkey_off (by decide)), rd_wr_other (rkey_off (by decide)), rd_wr_same]
  · rw [rd_wrf_other (rkey_off (by decide)), rd_wr_same]

/-- Settles O43: failing frames and the digests at the end of a pass. -/
theorem scrubRepairsAndDigestsPlanes : Obligations.ScrubRepairsAndDigestsPlanes := by
  intro r f s h pg t act
  have hact : ¬act → (rgn r.val s).scrubStaging = true := fun hn => by simpa [act] using hn
  refine ⟨fun ha hu => ?_, fun ha => ?_, fun ha hv b => ⟨_, rfl, scrubFail_staging r.isLt h (hact ha) hv⟩,
    fun ha => ⟨_, rfl, scrubEnd_active h ha⟩, fun ha hv hc => ⟨_, rfl, scrubEnd_staging h (hact ha) hv hc⟩⟩
  · refine congrArg Host.Outcome.next ((scrubFail_active h ha).trans (if_pos ?_))
    rw [hu]
    decide
  · exact congrArg Host.Outcome.next ((scrubFail_active h ha).trans (if_neg (by simp)))

end Sys2Proof.Machine

/-! PROOFS. The state of a flash bank under the operations on it, and O44: commands that take effect. -/

namespace Sys2Proof.Machine

open Sys2Proof

/-! ## A bank of the flash -/

theorem fbank_of_flash {s t : State} (h : t.flash = s.flash) (b : Nat) : fbank b t = fbank b s := by rw [fbank, h, fbank]

@[simp] theorem fbank_mdFbank_same (b : Nat) (f : FlashBank → FlashBank) (s : State) : fbank b (mdFbank b f s) = f (fbank b s) :=
  tget_tput_same ..

theorem rd_mdFbank (q o b : Nat) (f : FlashBank → FlashBank) (s : State) : rd q o (mdFbank b f s) = rd q o s := rfl

theorem rd_setSeq (q o : Nat) (rq : Requester) (b n : Nat) (s : State) : rd q o (setSeq rq b n s) = rd q o s := rfl

theorem fbank_setSeq (k : Nat) (rq : Requester) (b n : Nat) (s : State) : fbank k (setSeq rq b n s) = fbank k s := rfl

theorem flash_flashCode (b c : Nat) (s : State) : (flashCode b c s).flash = s.flash := rfl

theorem flash_flashShow (b op x : Nat) (s : State) : (flashShow b op x s).flash = s.flash := rfl

theorem rdf_flashCode_same {c : Nat} (h : c < 256) (b : Nat) (s : State) :
    rdf P.CDF (R.CDF_BANK_STAT + 4 * b) 15 8 (flashCode b c s) = c := by
  unfold flashCode
  rw [rdf_wrf_same (by decide)]
  exact Nat.mod_eq_of_lt h

/-- An operation that starts changes its own bank alone. -/
theorem flash_startOp (b code x page : Nat) (buf : SMap (BitVec 16)) (s : State) :
    (startOp b code x page buf s).flash = (mdFbank b (fun y => { y with
      op := some { code := code, sector := x, page := page, buf := buf, suspending := false, pendingSuspend := false },
      idMode := false, prefetch := [] }) s).flash := rfl

theorem fbank_startOp (b code x page : Nat) (buf : SMap (BitVec 16)) (s : State) :
    fbank b (startOp b code x page buf s) = { fbank b s with
      op := some { code := code, sector := x, page := page, buf := buf, suspending := false, pendingSuspend := false },
      idMode := false, prefetch := [] } :=
  (fbank_of_flash (flash_startOp b code x page buf s) b).trans (fbank_mdFbank_same ..)

/-! ## The third write of a sequence -/

/-- The third write of a sequence gives the command to its bank. -/
theorem stepThree_commands {rq : Requester} {code off x : Nat} {s : State} (h : FlashTakes rq code off x s)
    (hk : knownCdf code = true) (ha : addressed code = true ∨ off = flashBase (sectorBank x) + 0x1D88)
    (hc : code < 65536) (fb : Option (Fin 4)) :
    stepThree rq off code fb s = (cdfCommand rq (rq == .host) (if rq = .steward then fb.map (·.val) else none) code
      (sectorBank x) x (pageIn x off) (setSeq rq (sectorBank x) 0 s)).2 := by
  obtain ⟨hserved, hrq, hsec, heven, hload, hseq, -⟩ := h
  obtain ⟨n, hn⟩ : ∃ n, tget 0 s.flash.seq (seqKey rq (sectorBank x)) = n + 2 := ⟨_, (Nat.sub_add_cancel hseq).symm⟩
  have hcode : (BitVec.ofNat 16 code).toNat = code := by
    rw [BitVec.toNat_ofNat]
    exact Nat.mod_eq_of_lt hc
  have hreach : ¬(!flashServed s || (rq == .host && !s.dev.sampled) || rq == .fabric || rq == .ring) = true := by
    rcases hrq with rfl | ⟨rfl, hs⟩
    · simp [hserved]
    · simp [hserved, hs]
  have hgood : ¬(!knownCdf code || (!addressed code && off != flashBase (sectorBank x) + 0x1D88)) = true := by
    rcases ha with h | h <;> simp [hk, h]
  unfold stepThree arrayWrite
  rw [if_neg hreach, hsec]
  dsimp only
  rw [if_neg (by omega), hload]
  unfold seqWrite
  dsimp only
  rw [hn, hcode]
  exact if_neg hgood

section
variable {rq : Requester} {host : Bool} {fromBank : Option Nat} {code b x page : Nat} {s : State}
  (hw : changesFlash code = true → takesWork P.CDF s = true)
include hw

theorem cdfCommand_accepted (h : cdfRefusal rq host fromBank code b x page s = none) :
    (cdfCommand rq host fromBank code b x page s).2 = cdfAccepted rq code b x page s := by
  unfold cdfCommand
  rw [if_neg (by simpa using hw), h]

theorem cdfCommand_refused {c : Nat} (h : cdfRefusal rq host fromBank code b x page s = some c) :
    (cdfCommand rq host fromBank code b x page s).2 = cdfRefused rq code b x c s := by
  unfold cdfCommand
  rw [if_neg (by simpa using hw), h]
end

/-- Where the third write reaches its bank and is not refused, the command acts. -/
theorem stepThree_accepts {rq : Requester} {code off x : Nat} {s : State} (h : FlashTakes rq code off x s)
    (hk : knownCdf code = true) (ha : addressed code = true ∨ off = flashBase (sectorBank x) + 0x1D88)
    (hc : code < 65536) (fb : Option (Fin 4))
    (hr : cdfRefusal rq (rq == .host) (if rq = .steward then fb.map (·.val) else none) code (sectorBank x) x (pageIn x off)
      (setSeq rq (sectorBank x) 0 s) = none) :
    stepThree rq off code fb s =
      cdfAccepted rq code (sectorBank x) x (pageIn x off) (setSeq rq (sectorBank x) 0 s) := by
  obtain ⟨-, -, -, -, -, -, hwork⟩ := id h
  rw [stepThree_commands h hk ha hc, cdfCommand_accepted (by simpa only [takesWork, rd_setSeq] using hwork) hr]

/-! ## Guard bits -/

theorem guardGroup_lt (x : Nat) : guardGroup x < 34 := by
  unfold guardGroup
  split
  · omega
  · split <;> omega

theorem one_shift_getLsbD (g : Nat) {n : Nat} (hn : n < 34) : (1#34 <<< g).getLsbD n = (n == g) := by
  rw [BitVec.getLsbD_shiftLeft]
  by_cases h : n = g
  · simp [h, h ▸ hn]
  · have hone : n < g ∨ n - g ≠ 0 := by omega
    rcases hone with h' | h'
    · simp [h, h']
    · simp [h, h', BitVec.getLsbD_one]

theorem guardBits_setGuard (g : Nat) (v : Bool) (s : State) {n : Nat} (hn : n < 34) :
    (setGuard g v s).flash.guardBits.getLsbD n = if n = g then v else s.flash.guardBits.getLsbD n := by
  have hone := one_shift_getLsbD g hn
  unfold setGuard
  generalize 1#34 <<< g = m at *
  cases v
  · show (s.flash.guardBits &&& ~~~m).getLsbD n = _
    rw [BitVec.getLsbD_and, BitVec.getLsbD_not, hone, decide_eq_true hn]
    by_cases h : n = g <;> simp [h]
  · show (s.flash.guardBits ||| m).getLsbD n = _
    rw [BitVec.getLsbD_or, hone]
    by_cases h : n = g <;> simp [h]

theorem guarded_setGuard (x : Nat) (v : Bool) (s : State) : guarded x (setGuard (guardGroup x) v s) = v := by
  rw [guarded, guardBits_setGuard _ _ _ (guardGroup_lt x), if_pos rfl]

/-! ## The comparison of the password -/

theorem comparePw_match {s : State} (h : s.flash.key = s.flash.password) (f : State → State) :
    comparePw f s = zeroiseKeys (f (md P.GUARD R.GUARD_STAT (fun w => setFld 31 24 0 (setFld 3 0 0 w)) s)) := by
  unfold comparePw
  dsimp only
  rw [if_pos (by simp [h])]

/-- The record of a comparison that fails. -/
theorem comparePw_mismatch {s : State} (h : s.flash.key ≠ s.flash.password) (f : State → State) :
    let t := comparePw f s
    let n := rdf P.GUARD R.GUARD_STAT 3 0 s + 1
    t.flash = { s.flash with key := 0, newPw := 0 } ∧
      rd P.GUARD R.GUARD_STAT t = (if n = 8 then setBit 8 true else id)
        (setFld 31 24 E.GUARD_LOCKED (setFld 3 0 n (rd P.GUARD R.GUARD_STAT s))) := by
  intro t n
  have ht : t = zeroiseKeys (if n = 8 then
      irq P.GUARD 0 (md P.GUARD R.GUARD_STAT (setBit 8 true)
        (irq P.GUARD 1 (md P.GUARD R.GUARD_STAT (fun w => setFld 31 24 E.GUARD_LOCKED (setFld 3 0 n w)) s)))
      else irq P.GUARD 1 (md P.GUARD R.GUARD_STAT (fun w => setFld 31 24 E.GUARD_LOCKED (setFld 3 0 n w)) s)) := by
    show comparePw f s = _
    unfold comparePw
    dsimp only
    rw [if_neg (by simp [h])]
  have hirq (b : Nat) (u : State) : rd P.GUARD R.GUARD_STAT (irq P.GUARD b u) = rd P.GUARD R.GUARD_STAT u :=
    rd_irq_off (noPba_page (by decide) (by decide)) (rkey_off (by decide)) ..
  clear_value t n
  subst ht
  refine ⟨?_, ?_⟩
  · unfold zeroiseKeys
    split <;> simp
  · unfold zeroiseKeys
    rw [rd_setFlash]
    split
    · rw [hirq, rd_md_same, hirq, rd_md_same]
    · rw [hirq, rd_md_same]
      rfl

/-! ## Accepted commands -/

theorem guardBits_startOp (b code x page : Nat) (buf : SMap (BitVec 16)) (s : State) :
    (startOp b code x page buf s).flash.guardBits = s.flash.guardBits := rfl

theorem cdfAccepted_guardSet (rq : Requester) (b x page : Nat) (s : State) :
    cdfAccepted rq Cdf.GUARD_SET b x page s = setGuard (guardGroup x) true (startOp b Cdf.GUARD_SET x 0 [] s) := rfl

theorem cdfAccepted_guardUnlock (rq : Requester) (b x page : Nat) (s : State) :
    cdfAccepted rq Cdf.GUARD_UNLOCK b x page s = mdFbank b (fun y => { y with idMode := false })
      (comparePw (fun t => setGuard (guardGroup x) false (startOp b Cdf.GUARD_UNLOCK x 0 [] t)) s) := rfl

/-- GUARD_SET sets its guard bit and starts its operation. -/
theorem guardSet_holds (rq : Requester) (b x page : Nat) (s : State) :
    let u := cdfAccepted rq Cdf.GUARD_SET b x page s
    guarded x u = true ∧ (fbank b u).op.map (·.code) = some Cdf.GUARD_SET ∧ u.flash.cells = s.flash.cells := by
  intro u
  have hu : u = setGuard (guardGroup x) true (startOp b Cdf.GUARD_SET x 0 [] s) := cdfAccepted_guardSet ..
  refine ⟨hu ▸ guarded_setGuard .., ?_, rfl⟩
  have hbank : fbank b u = fbank b (startOp b Cdf.GUARD_SET x 0 [] s) := hu ▸ rfl
  rw [hbank, fbank_startOp]
  rfl

/-- GUARD_UNLOCK with the password clears the guard bit of its group alone. -/
theorem guardUnlock_match {s : State} (h : s.flash.key = s.flash.password) (rq : Requester) (b x page : Nat) :
    let u := cdfAccepted rq Cdf.GUARD_UNLOCK b x page s
    guarded x u = false ∧ (∀ g, g < 34 → g ≠ guardGroup x → u.flash.guardBits.getLsbD g = s.flash.guardBits.getLsbD g) ∧
      u.flash.key = 0 := by
  intro u
  have hbits : ∃ v, u.flash.guardBits = (setGuard (guardGroup x) false v).flash.guardBits ∧
      v.flash.guardBits = s.flash.guardBits ∧ u.flash.key = 0 := by
    have hu : u = _ := cdfAccepted_guardUnlock rq b x page s
    rw [comparePw_match h] at hu
    rw [hu]
    exact ⟨_, rfl, rfl, rfl⟩
  obtain ⟨v, hv, hs, hkey⟩ := hbits
  refine ⟨?_, fun g hg hne => ?_, hkey⟩
  · rw [guarded, hv]
    exact guarded_setGuard ..
  · rw [hv, guardBits_setGuard _ _ _ hg, if_neg hne, hs]

/-- With another key it changes no guard bit. -/
theorem guardUnlock_mismatch {s : State} (h : s.flash.key ≠ s.flash.password) (rq : Requester) (b x page : Nat) :
    let u := cdfAccepted rq Cdf.GUARD_UNLOCK b x page s
    u.flash.guardBits = s.flash.guardBits ∧ u.flash.key = 0 ∧ rdf P.GUARD R.GUARD_STAT 31 24 u = E.GUARD_LOCKED := by
  intro u
  obtain ⟨hflash, hstat⟩ := comparePw_mismatch h (fun t => setGuard (guardGroup x) false (startOp b Cdf.GUARD_UNLOCK x 0 [] t))
  have hu : u = _ := cdfAccepted_guardUnlock rq b x page s
  generalize comparePw _ s = t at *
  rw [hu]
  refine ⟨?_, ?_, ?_⟩
  · exact (congrArg Flash.guardBits hflash).trans rfl
  · exact (congrArg Flash.key hflash).trans rfl
  · rw [rdf, rd_mdFbank, hstat]
    split
    · exact (fld_setBit_other (by decide) (by decide) ..).trans (fld_setFld_same (by decide) ..)
    · exact fld_setFld_same (by decide) ..

/-- Settles O44: PROGRAM, ERASE_SECTOR, GUARD_SET and GUARD_UNLOCK, and the first write of a sequence. -/
theorem flashCommandsTakeEffect : Obligations.FlashCommandsTakeEffect := by
  intro rq off x fb s b o p t from_ refusal
  refine ⟨fun h hr => ?_, fun h c hr => ?_, fun h hr => ?_, fun h hr => ?_, fun h hr => ⟨fun hk => ?_, fun hk => ?_⟩,
    fun v hserved hrq hsec heven hload hseq => ?_⟩
  · exact congrArg Host.Outcome.next (stepThree_accepts h (by decide) (Or.inl (by decide)) (by decide) fb hr)
  · obtain ⟨-, -, -, -, -, -, hwork⟩ := id h
    refine congrArg Host.Outcome.next ((stepThree_commands h (by decide) (Or.inl (by decide)) (by decide) fb).trans ?_)
    have hwork' : changesFlash Cdf.PROGRAM = true → takesWork P.CDF t = true := hwork
    exact cdfCommand_refused hwork' hr
  · exact congrArg Host.Outcome.next (stepThree_accepts h (by decide) (Or.inl (by decide)) (by decide) fb hr)
  · exact ⟨_, congrArg Host.Outcome.next (stepThree_accepts h (by decide) (Or.inl (by decide)) (by decide) fb hr),
      guardSet_holds rq b x p t⟩
  · exact ⟨_, congrArg Host.Outcome.next (stepThree_accepts h (by decide) (Or.inl (by decide)) (by decide) fb hr),
      guardUnlock_match (s := t) hk rq b x p⟩
  · exact ⟨_, congrArg Host.Outcome.next (stepThree_accepts h (by decide) (Or.inl (by decide)) (by decide) fb hr),
      guardUnlock_mismatch (s := t) hk rq b x p⟩
  · have hreach : ¬(!flashServed s || (rq == .host && !s.dev.sampled) || rq == .fabric || rq == .ring) = true := by
      rcases hrq with rfl | ⟨rfl, hs⟩
      · simp [hserved]
      · simp [hserved, hs]
    have hwrite : arrayWrite rq o v none s =
        if o = flashBase b + 0x1D88 ∧ v.toNat = 0x6C then setSeq rq b 1 s else seqError s := by
      unfold arrayWrite
      rw [if_neg hreach, hsec]
      dsimp only
      rw [if_neg (by omega), hload]
      unfold seqWrite
      dsimp only
      rw [hseq]
      rfl
    refine ⟨fun ho hv => congrArg Host.Outcome.next (hwrite.trans (if_pos ⟨ho, by rw [hv]; rfl⟩)),
      fun hne => congrArg Host.Outcome.next (hwrite.trans (if_neg fun ⟨ho, hv⟩ => ?_))⟩
    rcases hne with h | h
    · exact h ho
    · exact h (BitVec.eq_of_toNat_eq hv)

end Sys2Proof.Machine

/-! PROOFS. O45: the commands on a bank of the flash, and its suspended operations. -/

namespace Sys2Proof.Machine

open Sys2Proof

/-- The first sector of a bank is in it. -/
theorem sectorBank_first (b : Fin 4) : sectorBank (32 * b.val) = b.val := by
  unfold sectorBank
  rw [if_pos (by omega)]
  omega

/-- A bank command that is not refused acts on its bank. -/
theorem stepThree_bank {rq : Requester} {code : Nat} {b : Fin 4} {s : State}
    (h : FlashTakes rq code (flashBase b.val + 0x1D88) (32 * b.val) s) (hk : knownCdf code = true) (hc : code < 65536)
    (fb : Option (Fin 4))
    (hr : cdfRefusal rq (rq == .host) (if rq = .steward then fb.map (·.val) else none) code b.val (32 * b.val)
      (pageIn (32 * b.val) (flashBase b.val + 0x1D88)) (setSeq rq b.val 0 s) = none) :
    stepThree rq (flashBase b.val + 0x1D88) code fb s = cdfAccepted rq code b.val (32 * b.val)
      (pageIn (32 * b.val) (flashBase b.val + 0x1D88)) (setSeq rq b.val 0 s) := by
  have hb := sectorBank_first b
  have haccept := stepThree_accepts h hk (Or.inr (by rw [hb])) hc fb (by rw [hb]; exact hr)
  rwa [hb] at haccept

/-- RESUME of a bank that is free continues the suspended operation. -/
theorem resumeCmd_resumes {b : Nat} {q : FlashOp} {s : State} (hs : (fbank b s).suspended = some q) (ho : (fbank b s).op = none) :
    (fbank b (resumeCmd b s)).suspended = none ∧
      (fbank b (resumeCmd b s)).op = some { q with suspending := false, pendingSuspend := false } ∧
      (resumeCmd b s).flash.cells = s.flash.cells := by
  have hbank (v : State) (hv : (fbank b v).suspended = some q) :
      (resumeOp b v).flash = (mdFbank b (fun y => { y with
        op := some { q with suspending := false, pendingSuspend := false }, suspended := none, resumeWaits := false }) v).flash := by
    unfold resumeOp
    rw [hv]
    rfl
  have hcmd : resumeCmd b s = resumeOp b (mdFbank b (fun y => { y with idMode := false }) s) := by
    unfold resumeCmd
    dsimp only
    rw [if_pos (by simp [hs]), if_neg (by simp [ho])]
  have hv : (fbank b (mdFbank b (fun y => { y with idMode := false }) s)).suspended = some q := by
    rw [fbank_mdFbank_same]
    exact hs
  rw [hcmd, fbank_of_flash (hbank _ hv), fbank_mdFbank_same, hbank _ hv]
  exact ⟨rfl, rfl, rfl⟩

/-- Settles O45: the commands on a bank, and suspends honoured and reached. -/
theorem flashBankCommandsTakeEffect : Obligations.FlashBankCommandsTakeEffect := by
  intro rq b fb s x o t go
  refine ⟨fun ⟨h, hr⟩ => ?_, fun ⟨h, hr⟩ => ?_, fun q ⟨h, hr⟩ hs ho => ?_, fun ⟨h, hr⟩ => ?_, fun ⟨h, hr⟩ => ?_, fun q ho hp => ?_, fun q ho hp => ?_⟩
  · refine congrArg Host.Outcome.next ((stepThree_bank h (by decide) (by decide) fb hr).trans ?_)
    rfl
  · exact congrArg Host.Outcome.next (stepThree_bank h (by decide) (by decide) fb hr)
  · exact ⟨_, congrArg Host.Outcome.next (stepThree_bank h (by decide) (by decide) fb hr),
      resumeCmd_resumes (s := t) hs ho⟩
  · exact congrArg Host.Outcome.next (stepThree_bank h (by decide) (by decide) fb hr)
  · exact congrArg Host.Outcome.next (stepThree_bank h (by decide) (by decide) fb hr)
  · refine ⟨_, rfl, ?_, rfl⟩
    rw [fbank_mdFbank_same]
    simp [ho, hp]
  · have hreach : suspendReached b.val s =
        mdFbank b.val (fun y => { y with op := none, suspended := some { q with suspending := false } }) s := by
      unfold suspendReached
      rw [ho]
      exact if_pos hp
    refine ⟨_, congrArg Host.Outcome.next hreach, ?_, ?_, rfl⟩
    · rw [fbank_mdFbank_same]
    · rw [fbank_mdFbank_same]

end Sys2Proof.Machine

/-! PROOFS. O46: page loads, the end of operations, and reads of the array. -/

namespace Sys2Proof.Machine

open Sys2Proof

/-! ## The contents of the array -/

theorem tfind_tclear_inside {α : Type} {lo hi k : Nat} (h : lo ≤ k ∧ k < hi) (m : SMap α) : tfind (tclear lo hi m) k = none := by
  have hfilter := tfind_filter_key (fun k => !(decide (lo ≤ k) && decide (k < hi))) m k
  rw [if_neg (by simp [h])] at hfilter
  exact hfilter

@[simp] theorem wearOf_mdWear_same (x : Nat) (f : Wear → Wear) (s : State) : wearOf x (mdWear x f s) = f (wearOf x s) :=
  tget_tput_same ..

theorem wearOf_mdWear_other {x y : Nat} (h : y ≠ x) (f : Wear → Wear) (s : State) : wearOf y (mdWear x f s) = wearOf y s :=
  tget_tput_other _ _ h ..

theorem wearOf_of_flash {s t : State} (h : t.flash = s.flash) (x : Nat) : wearOf x t = wearOf x s := by rw [wearOf, h, wearOf]

theorem wearOf_storePage (x y p : Nat) (buf : SMap (BitVec 16)) (s : State) : wearOf x (storePage y p buf s) = wearOf x s := rfl

/-- What undefined pages leave of the flash. -/
theorem undefPages_keeps (x lo hi : Nat) (s : State) :
    (undefPages x lo hi s).flash.banks = s.flash.banks ∧ (undefPages x lo hi s).flash.wear = s.flash.wear ∧
      (undefPages x lo hi s).flash.guardBits = s.flash.guardBits := by
  unfold undefPages
  induction List.range (hi - lo) generalizing s with
  | nil => exact ⟨rfl, rfl, rfl⟩
  | cons i l ih =>
    obtain ⟨hb, hw, hg⟩ := ih (setFlash { s.flash with
      cells := tclear (pageHw x (lo + i)) (pageHw x (lo + i) + 256) s.flash.cells,
      undef := tins (pageCode x (lo + i)) s.free s.flash.undef } (setFree (s.free + 256) s))
    exact ⟨hb, hw, hg⟩

/-- The offsets of a main sector. -/
theorem sectorOf_main {a x : Nat} (h : sectorOf a = some x) (hx : x < 128) : a / 0x20000 = x := by
  unfold sectorOf at h
  split at h
  · simpa using h
  · split at h
    · simp at h
      omega
    · simp at h

/-- Every halfword of an erased sector reads 0xFFFF. -/
theorem flashHw_eraseContents {a x : Nat} (h : sectorOf a = some x) (hx : x < 128) (s : State) :
    flashHw a (eraseContents x s) = 0xFFFF := by
  have ha := sectorOf_main h hx
  have hbase : sectorBase x = x * 0x20000 := if_pos hx
  have hpages : sectorPages x = 256 := if_pos hx
  have hcells : tfind (eraseContents x s).flash.cells (a / 2) = none :=
    tfind_tclear_inside (by rw [hbase, hpages]; omega) _
  have hundef : tfind (eraseContents x s).flash.undef (pageCode x (pageIn x a)) = none :=
    tfind_tclear_inside (by simp only [pageCode, pageIn, hbase]; omega) _
  unfold flashHw
  rw [hcells]
  dsimp only
  rw [h]
  dsimp only
  rw [hundef]

/-- No page of an erased sector counts as programmed. -/
theorem programmed_eraseContents (x : Nat) {p : Nat} (hp : p < 256) (s : State) : programmed x p (eraseContents x s) = false := by
  have hpage : pageCode x p / 256 = x := by
    simp only [pageCode]
    omega
  simp [programmed, eraseContents, setFlash, hpage]

/-! ## The end of an operation -/

/-- An operation ends: its bank is free, and CODE says how it went. -/
def opEnded (b code : Nat) (s : State) : State :=
  irq P.CDF 0 (flashCode b code (mdFbank b (fun y => { y with op := none, prefetch := [] }) s))

theorem flash_opEnded (b code : Nat) (s : State) :
    (opEnded b code s).flash = (mdFbank b (fun y => { y with op := none, prefetch := [] }) s).flash := by
  simp [opEnded, flashCode]

theorem fbank_opEnded (b code : Nat) (s : State) : fbank b (opEnded b code s) = { fbank b s with op := none, prefetch := [] } :=
  (fbank_of_flash (flash_opEnded b code s) b).trans (fbank_mdFbank_same ..)

theorem rdf_code_opEnded (b : Fin 4) {code : Nat} (hc : code < 256) (s : State) :
    rdf P.CDF (R.CDF_BANK_STAT + 4 * b.val) 15 8 (opEnded b.val code s) = code := by
  have hoff : 0x24 ≤ R.CDF_BANK_STAT + 4 * b.val ∧ R.CDF_BANK_STAT + 4 * b.val < 4096 := by
    simp only [R.CDF_BANK_STAT]
    omega
  have hpend : rkey P.CDF (R.CDF_BANK_STAT + 4 * b.val) ≠ rkey P.CDF R.IRQ_PEND := rkey_above hoff.1 (by decide)
  rw [rdf, opEnded, rd_irq_off (noPba_page (by decide) hoff.2) hpend]
  exact rdf_flashCode_same hc ..

/-- The operation of a bank with nothing suspended ends as its kind says. -/
theorem opDone_ends {b n : Nat} {ok : Bool} {failing : BitVec 40} {o : FlashOp} {code : Nat} {s t : State}
    (ho : (fbank b s).op = some o) (hs : (fbank b s).suspended = none)
    (hend : (if o.code = Cdf.PROGRAM then programEnd o n ok s
      else if o.code = Cdf.ERASE_SECTOR then sectorErased o.sector n ok s
      else if o.code = Cdf.ERASE_BANK then bankErased b n ok failing s
      else (0, s)) = (code, t)) (ht : t.flash.banks = s.flash.banks) :
    opDone b n ok failing s = opEnded b code t := by
  have hsus : (fbank b (opEnded b code t)).suspended = none := by
    rw [fbank_opEnded]
    simp only [fbank, ht]
    exact hs
  unfold opEnded at *
  unfold opDone
  rw [ho]
  dsimp only
  rw [hend]
  dsimp only
  rw [hsus]

/-! ## Parameter sectors that are retired -/

theorem wear_markProgrammed (x p : Nat) (s : State) : (markProgrammed x p s).flash.wear = s.flash.wear := by
  unfold markProgrammed
  split <;> rfl

theorem wear_pointerUpkeep (s : State) : (pointerUpkeep s).flash.wear = s.flash.wear := by
  unfold pointerUpkeep
  dsimp only
  split <;> rfl

theorem wear_pointerStored (x p : Nat) (buf : SMap (BitVec 16)) (u : Upd) (s : State) :
    (setUpd u (markProgrammed x p (storePage x p buf s))).flash.wear = s.flash.wear :=
  wear_markProgrammed x p (storePage x p buf s)

theorem wear_programPointer (p : BootPointer) (s : State) : ((programPointer p s).getD s).flash.wear = s.flash.wear := by
  unfold programPointer
  extract_lets map old q src s1 x
  split
  · rfl
  · split
    · rfl
    · rw [Option.getD_some, wear_pointerUpkeep]
      exact wear_pointerStored ..

theorem wear_copyToP6 (x : Nat) (s : State) : (copyToP6 x s).flash.wear = s.flash.wear := by
  have hfold (f : Nat → SMap (BitVec 16)) (l : List Nat) (t : State) :
      (l.foldl (fun t p => markProgrammed 0x86 p (storePage 0x86 p (f p) t)) t).flash.wear = t.flash.wear := by
    induction l generalizing t with
    | nil => rfl
    | cons p l ih => exact (ih _).trans (wear_markProgrammed ..)
  exact hfold ..

/-- Moving a retired parameter sector changes the wear of none. -/
theorem wear_relocate (x : Nat) (s : State) : (relocate x s).flash.wear = s.flash.wear := by
  unfold relocate
  split
  · exact (wear_programPointer ..).trans (wear_copyToP6 ..)
  · rfl

theorem wear_relocated (l : List Nat) (s : State) : (l.foldl (fun u x => relocate x u) s).flash.wear = s.flash.wear := by
  induction l generalizing s with
  | nil => rfl
  | cons x l ih => exact (ih _).trans (wear_relocate ..)

/-- Main sectors are not moved. -/
theorem relocated_main {l : List Nat} (h : ∀ x ∈ l, x < 128) (s : State) : l.foldl (fun u x => relocate x u) s = s := by
  induction l with
  | nil => rfl
  | cons x l ih =>
    have hx : relocate x s = s := if_neg (by have := h x (by simp); omega)
    rw [List.foldl_cons, hx]
    exact ih fun y hy => h y (by simp [hy])

theorem newlyRetired_nil {s t : State} (h : ∀ x, (wearOf x t).retired = (wearOf x s).retired) (b : Nat) :
    newlyRetired b s t = [] := by
  simp [newlyRetired, h]

/-- A change of the wear of a sector that keeps whether it is retired keeps it for every sector. -/
theorem retired_mdWear {x : Nat} {f : Wear → Wear} (hf : ∀ w, (f w).retired = w.retired) (y : Nat) (s : State) :
    (wearOf y (mdWear x f s)).retired = (wearOf y s).retired := by
  by_cases h : y = x
  · rw [h, wearOf_mdWear_same, hf]
  · rw [wearOf_mdWear_other h]

theorem retired_opEnded (x b code : Nat) (s : State) : (wearOf x (opEnded b code s)).retired = (wearOf x s).retired := by
  rw [wearOf, flash_opEnded]
  rfl

theorem cdfOpDone_keeps {b n : Nat} {ok : Bool} {failing : BitVec 40} {s : State}
    (h : newlyRetired b s (opDone b n ok failing s) = []) : cdfOpDone b n ok failing s = opDone b n ok failing s := by
  unfold cdfOpDone
  dsimp only
  rw [h, List.foldl_nil]

/-- A program that succeeds within two retries stores its page. -/
theorem cdfOpDone_program {b : Fin 4} {n : Nat} {o : FlashOp} {s : State} (ho : (fbank b.val s).op = some o)
    (hs : (fbank b.val s).suspended = none) (hc : o.code = Cdf.PROGRAM) (hn : n ≤ 2) :
    let t := cdfOpDone b.val n true 0 s
    (fbank b.val t).op = none ∧ t.flash.cells = (storePage o.sector o.page o.buf s).flash.cells ∧
      rdf P.CDF (R.CDF_BANK_STAT + 4 * b.val) 15 8 t = 0 := by
  intro t
  have hend : programEnd o n true s = (0, storePage o.sector o.page o.buf
      (mdWear o.sector (fun w => { w with retries := BitVec.ofNat 3 (max (min n 6) w.retries.toNat) }) s)) := by
    unfold programEnd
    dsimp only
    rw [if_pos rfl, if_pos rfl, if_neg (by omega)]
  have ht := opDone_ends (failing := 0) ho hs ((if_pos hc).trans hend) rfl
  have hkeep : newlyRetired b.val s (opDone b.val n true 0 s) = [] := newlyRetired_nil (fun x => by
    rw [ht, retired_opEnded, wearOf_storePage]
    exact retired_mdWear (by intro w; rfl) ..) _
  have hdone : t = opDone b.val n true 0 s := cdfOpDone_keeps hkeep
  rw [hdone, ht]
  refine ⟨by rw [fbank_opEnded], ?_, rdf_code_opEnded b (by decide) _⟩
  rw [flash_opEnded]
  rfl

/-- A program that fails retires its sector. -/
theorem cdfOpDone_program_fails {b : Fin 4} {n : Nat} {o : FlashOp} {s : State} (ho : (fbank b.val s).op = some o)
    (hs : (fbank b.val s).suspended = none) (hc : o.code = Cdf.PROGRAM) :
    let t := cdfOpDone b.val n false 0 s
    (wearOf o.sector t).retired = true ∧ (o.sector < 128 → rdf P.CDF (R.CDF_BANK_STAT + 4 * b.val) 15 8 t = E.PROG_FAIL) := by
  intro t
  have hretire (x : Nat) (v : State) : (retireSector x v).flash = (mdWear x (fun w => { w with retired := true }) v).flash := by
    simp [retireSector]
  obtain ⟨v, hv, hbanks, hret⟩ : ∃ v, programEnd o n false s = (E.PROG_FAIL, retireSector o.sector v) ∧
      v.flash.banks = s.flash.banks ∧ ∀ x, (wearOf x v).retired = (wearOf x s).retired := by
    refine ⟨_, rfl, (undefPages_keeps ..).1, fun x => ?_⟩
    have hwear (u : State) (lo hi : Nat) : wearOf x (undefPages o.sector lo hi u) = wearOf x u := by
      rw [wearOf, (undefPages_keeps ..).2.1, wearOf]
    rw [hwear]
    exact retired_mdWear (by intro w; rfl) ..
  have ht := opDone_ends (failing := 0) ho hs ((if_pos hc).trans hv) ((congrArg Flash.banks (hretire o.sector v)).trans hbanks)
  refine ⟨?_, fun hx => ?_⟩
  · have hwear : t.flash.wear = (opDone b.val n false 0 s).flash.wear := wear_relocated ..
    have hone : (wearOf o.sector (opDone b.val n false 0 s)).retired = true := by
      rw [ht, retired_opEnded, wearOf_of_flash (hretire ..), wearOf_mdWear_same]
    rwa [wearOf, hwear]
  · have hnew : ∀ x ∈ newlyRetired b.val s (opDone b.val n false 0 s), x < 128 := by
      intro x hmem
      simp only [newlyRetired, List.mem_filter, Bool.and_eq_true, Bool.not_eq_true'] at hmem
      obtain ⟨-, hnow, hbefore⟩ := hmem
      rcases eq_or_ne x o.sector with rfl | hne
      · exact hx
      · rw [ht, retired_opEnded, wearOf_of_flash (hretire ..), wearOf_mdWear_other hne, hret, hbefore] at hnow
        cases hnow
    have hdone : t = opDone b.val n false 0 s := relocated_main hnew _
    rw [hdone, ht]
    exact rdf_code_opEnded b (by decide) _

/-- The erase of a main sector that succeeds leaves it erased and unprogrammed. -/
theorem cdfOpDone_erase {b : Fin 4} {n : Nat} {o : FlashOp} {s : State} (ho : (fbank b.val s).op = some o)
    (hs : (fbank b.val s).suspended = none) (hc : o.code = Cdf.ERASE_SECTOR) (hn : n ≤ 8) (hx : o.sector < 128) :
    let t := cdfOpDone b.val n true 0 s
    (fbank b.val t).op = none ∧ (∀ a, sectorOf a = some o.sector → flashHw a t = 0xFFFF) ∧
      (∀ p, programmed o.sector p t = false ∨ 256 ≤ p) ∧ rdf P.CDF (R.CDF_BANK_STAT + 4 * b.val) 15 8 t = 0 := by
  intro t
  obtain ⟨v, hv, hbanks, hret⟩ : ∃ v, sectorErased o.sector n true s = (0, eraseContents o.sector v) ∧
      v.flash.banks = s.flash.banks ∧ ∀ x, (wearOf x v).retired = (wearOf x s).retired := by
    unfold sectorErased
    dsimp only
    rw [if_pos rfl, if_pos rfl, if_neg (by omega)]
    exact ⟨_, rfl, rfl, fun x => retired_mdWear (by intro w; rfl) ..⟩
  have ht := opDone_ends (failing := 0) ho hs ((if_neg (by rw [hc]; decide)).trans ((if_pos hc).trans hv)) hbanks
  have hkeep : newlyRetired b.val s (opDone b.val n true 0 s) = [] := newlyRetired_nil (fun x => by
    rw [ht, retired_opEnded]
    exact hret x) _
  have hdone : t = opDone b.val n true 0 s := cdfOpDone_keeps hkeep
  rw [hdone, ht]
  refine ⟨by rw [fbank_opEnded], fun a ha => ?_, fun p => ?_, rdf_code_opEnded b (by decide) _⟩
  · have hhw (u w : State) (h1 : u.flash.cells = w.flash.cells) (h2 : u.flash.undef = w.flash.undef) : flashHw a u = flashHw a w := by
      unfold flashHw
      rw [h1, h2]
    have hcells : (opEnded b.val 0 (eraseContents o.sector v)).flash.cells = (eraseContents o.sector v).flash.cells := by
      rw [flash_opEnded]
      rfl
    have hundef : (opEnded b.val 0 (eraseContents o.sector v)).flash.undef = (eraseContents o.sector v).flash.undef := by
      rw [flash_opEnded]
      rfl
    rw [hhw _ _ hcells hundef, flashHw_eraseContents ha hx]
  · rcases Nat.lt_or_ge p 256 with hp | hp
    · refine Or.inl ?_
      have hprog : programmed o.sector p (opEnded b.val 0 (eraseContents o.sector v)) = programmed o.sector p (eraseContents o.sector v) := by
        rw [programmed, flash_opEnded]
        rfl
      rw [hprog, programmed_eraseContents _ hp]
    · exact Or.inr hp

/-! ## Page loads -/

/-- A write by the requester of the load goes to the page buffer. -/
theorem arrayWrite_loads {rq : Requester} {off x : Nat} {l : PageLoad} {s : State} (hserved : flashServed s = true)
    (hrq : rq = .steward ∨ (rq = .host ∧ s.dev.sampled = true)) (hsec : sectorOf off = some x) (heven : off % 2 = 0)
    (hload : (fbank (sectorBank x) s).load = some l) (hl : l.rq = rq) (v : BitVec 16) (fromBank : Option Nat) :
    arrayWrite rq off v fromBank s = loadWrite (sectorBank x) l off v s := by
  have hreach : ¬(!flashServed s || (rq == .host && !s.dev.sampled) || rq == .fabric || rq == .ring) = true := by
    rcases hrq with rfl | ⟨rfl, hs⟩
    · simp [hserved]
    · simp [hserved, hs]
  unfold arrayWrite
  rw [if_neg hreach, hsec]
  dsimp only
  rw [if_neg (by omega), hload]
  exact if_pos hl

/-- A load that ends without programming. -/
theorem endLoad_holds (b : Fin 4) (s : State) : (fbank b.val (endLoad b.val s)).load = none ∧
    rdf P.CDF (R.CDF_BANK_STAT + 4 * b.val) 15 8 (endLoad b.val s) = E.PERM_FAULT ∧
    (endLoad b.val s).flash.cells = s.flash.cells := by
  have hflash : (endLoad b.val s).flash = (mdFbank b.val (fun y => { y with load := none }) s).flash := by
    simp [endLoad, seqError, flashCode]
  have hoff : (R.CDF_BANK_STAT + 4 * b.val) / 4 ≠ R.CDF_SEQ_ERRORS / 4 := by
    simp only [R.CDF_BANK_STAT, R.CDF_SEQ_ERRORS]
    omega
  refine ⟨?_, ?_, by rw [hflash]; rfl⟩
  · rw [fbank_of_flash hflash, fbank_mdFbank_same]
  · rw [rdf, endLoad, seqError, count, rd_countN_other (rkey_off hoff)]
    exact rdf_flashCode_same (by decide) ..

/-! ## Reads -/

theorem badBits_prefetch (b line : Nat) (s : State) : (prefetch b line s).flash.badBits = s.flash.badBits := by
  have hcount (o : Nat) : (count P.CDF o s).flash = s.flash := by simp
  unfold prefetch
  split
  · rw [hcount]
  · split
    · rw [hcount]
    · dsimp only
      split
      · exact (congrArg Flash.badBits (hcount R.CDF_READ_MISSES)).trans rfl
      · rw [hcount]

/-- A read of a place that is free and good gives the word of the array. -/
theorem flashRead_good {rq : Requester} {off x : Nat} {s : State} (hsec : sectorOf off = some x)
    (hbusy : readBusy rq (sectorBank x) x (pageIn x off) s = false) (hid : (fbank (sectorBank x) s).idMode = false)
    (hgood : tget 0 s.flash.badBits (off / 32) = 0) :
    flashRead rq off s = (tw .data (flashWord (off / 4 * 4) (prefetch (sectorBank x) (off / 32) s)),
      prefetch (sectorBank x) (off / 32) s) := by
  unfold flashRead
  rw [hsec]
  dsimp only
  rw [if_neg (by simp [hbusy]), if_neg (by simp [hid]), badBits_prefetch, hgood]
  rfl

theorem flashRead_busy {rq : Requester} {off x : Nat} {s : State} (hsec : sectorOf off = some x)
    (hbusy : readBusy rq (sectorBank x) x (pageIn x off) s = true) :
    flashRead rq off s = (tw .stat (bankStat rq (sectorBank x) s), s) := by
  unfold flashRead
  rw [hsec]
  exact if_pos hbusy

/-- A read of the array in a mode that serves it. -/
theorem arrayRead_served {rq : Requester} {off size x : Nat} {s : State} (hserved : flashServed s = true)
    (hrq : rq = .host → s.dev.sampled = true) (hsec : sectorOf off = some x) :
    arrayRead rq off size s =
      if flashReadable rq off size = false then deliver rq zeroWord (arrayWriteRefused off s)
      else if size = 8 then
        let t := deliver rq (narrow off size (flashRead rq off s).1) (flashRead rq off s).2
        deliver rq (narrow (off + 4) size (flashRead rq (off + 4) t).1) (flashRead rq (off + 4) t).2
      else deliver rq (narrow off size (flashRead rq off s).1) (flashRead rq off s).2 := by
  have hreach : ¬(!flashServed s || (rq == .host && !s.dev.sampled)) = true := by
    by_cases h : rq = .host
    · simp [hserved, hrq h]
    · simp [hserved, h]
  unfold arrayRead
  rw [if_neg hreach, hsec]
  simp only [Bool.not_eq_true']

theorem narrow_word {off size : Nat} (h : 4 ≤ size) (w : TWord) : narrow off size w = w := if_pos (Or.inr h)

/-- Settles O46: page loads, the end of programs and erases, and reads of the array. -/
theorem flashPagesLoadAndOperationsEnd : Obligations.FlashPagesLoadAndOperationsEnd := by
  intro s
  refine ⟨fun rq off v x l hserved hrq hsec heven hload hl => ?_, fun b hload => ?_, fun b o n ho hs => ⟨fun hc hn => ?_, fun hc hn hx => ?_, fun hc => ?_⟩,
    fun rq off size x hserved hrq hsec => ?_⟩
  · intro lo buf
    have hcmd : exec (.pageBufferWrite rq off v) s = .next (loadWrite (sectorBank x) l off.toNat v s) :=
      congrArg Host.Outcome.next (arrayWrite_loads hserved hrq hsec heven hload hl v none)
    rw [hcmd]
    unfold loadWrite
    refine ⟨fun h1 h2 => congrArg Host.Outcome.next ?_, fun h => congrArg Host.Outcome.next ?_, fun h => congrArg Host.Outcome.next (if_pos h)⟩
    · exact (if_neg (by simp only [lo] at h1 h2; omega)).trans (if_neg (by simp only [lo] at h1 h2; omega))
    · exact (if_neg (by simp only [lo] at h; omega)).trans (if_pos (by simp only [lo] at h; omega))
  · exact ⟨_, congrArg Host.Outcome.next (if_pos hload), endLoad_holds b s⟩
  · exact ⟨_, rfl, cdfOpDone_program ho hs hc hn⟩
  · exact ⟨_, rfl, cdfOpDone_erase ho hs hc hn hx⟩
  · obtain ⟨hretired, hcode⟩ := cdfOpDone_program_fails (n := n) ho hs hc
    exact ⟨_, rfl, hretired, hcode⟩
  · intro b t p
    have hcmd (size : Nat) : exec (.cdfArrayRead rq off size) s = .next (arrayRead rq off.toNat size s) := rfl
    simp only [hcmd, arrayRead_served hserved hrq hsec]
    refine ⟨fun h8 hr hbusy hid hgood => ?_, fun h8 hr hbusy => ?_, fun hr => ?_, fun hr => ?_⟩
    · rw [if_neg (by simp [hr]), if_neg h8, flashRead_good hsec hbusy hid hgood]
    · rw [if_neg (by simp [hr]), if_neg h8, flashRead_busy hsec hbusy]
      rfl
    · rw [if_neg (by simp [hr])]
      simp only [if_true, narrow_word (show 4 ≤ 8 by decide)]
    · rw [if_pos hr]
      rfl

end Sys2Proof.Machine

/-! PROOFS. O47: the password, the flash commands of the mailbox, and the reset of CDF. -/

namespace Sys2Proof.Machine

open Sys2Proof

/-! ## SET_PW -/

theorem setPassword_match {s : State} (hl : lockout s = false) (h : s.flash.key = s.flash.password) :
    let t := setPassword s
    t.flash.password = s.flash.newPw ∧ t.flash.key = 0 ∧ t.flash.newPw = 0 ∧ rdf P.GUARD R.GUARD_STAT 3 0 t = 0 ∧
      t.flash.guardBits = s.flash.guardBits := by
  intro t
  have ht : t = zeroiseKeys (setFlash { s.flash with password := s.flash.newPw }
      (md P.GUARD R.GUARD_STAT (fun w => setFld 31 24 0 (setFld 3 0 0 w)) s)) := by
    show setPassword s = _
    unfold setPassword
    rw [if_neg (by simp [hl]), comparePw_match h]
    rfl
  rw [ht]
  refine ⟨rfl, rfl, rfl, ?_, rfl⟩
  rw [zeroiseKeys, rdf, rd_setFlash, rd_setFlash, rd_md_same, fld_setFld_other (by decide) (by decide), fld_setFld_same (by decide),
    Nat.zero_mod]

theorem setPassword_mismatch {s : State} (hl : lockout s = false) (h : s.flash.key ≠ s.flash.password)
    (hn : rdf P.GUARD R.GUARD_STAT 3 0 s < 15) :
    let t := setPassword s
    t.flash.password = s.flash.password ∧ t.flash.key = 0 ∧ t.flash.newPw = 0 ∧
      rdf P.GUARD R.GUARD_STAT 3 0 t = rdf P.GUARD R.GUARD_STAT 3 0 s + 1 ∧
      lockout t = (rdf P.GUARD R.GUARD_STAT 3 0 s == 7) := by
  intro t
  obtain ⟨hflash, hstat⟩ := comparePw_mismatch h (fun t => setFlash { t.flash with password := s.flash.newPw } t)
  have ht : t = comparePw (fun t => setFlash { t.flash with password := s.flash.newPw } t) s := if_neg (by simp [hl])
  rw [← ht] at hflash hstat
  clear_value t
  have hl : bit 8 (rd P.GUARD R.GUARD_STAT s) = false := hl
  have hold : bit 8 (setFld 31 24 E.GUARD_LOCKED (setFld 3 0 (rdf P.GUARD R.GUARD_STAT 3 0 s + 1) (rd P.GUARD R.GUARD_STAT s))) = false := by
    rw [bit_setFld_other (by decide) (by decide), bit_setFld_other (by decide) (by decide), hl]
  have hcount : fld 3 0 (setFld 31 24 E.GUARD_LOCKED (setFld 3 0 (rdf P.GUARD R.GUARD_STAT 3 0 s + 1) (rd P.GUARD R.GUARD_STAT s))) =
      rdf P.GUARD R.GUARD_STAT 3 0 s + 1 := by
    rw [fld_setFld_other (by decide) (by decide), fld_setFld_same (by decide)]
    omega
  refine ⟨by rw [hflash], by rw [hflash], by rw [hflash], ?_, ?_⟩
  · rw [rdf, hstat]
    split
    · rw [fld_setBit_other (by decide) (by decide), hcount]
    · exact hcount
  · rw [lockout, hstat]
    by_cases h8 : rdf P.GUARD R.GUARD_STAT 3 0 s + 1 = 8
    · rw [if_pos h8, bit_setBit_same (by decide)]
      simp
      omega
    · rw [if_neg h8]
      simp only [id, hold]
      simp
      omega

/-! ## Mailbox commands -/

/-- A request of the mailbox that is carried out is answered with its status and results. -/
theorem mbxServed_answers {h : Half} {code : Nat} {s : State} (hask : MailboxAsks h code s) {status : Nat} {results : List Word}
    {t : State} (hs : serve h code s = (status, results, t)) : mbxServed h (some code) s = respond h status results t := by
  obtain ⟨hb, ha, hargs, hcode, hrom⟩ := hask
  rw [mbxServed_serves hb ha (by simp [hcode])]
  unfold stewardServes
  dsimp only
  rw [hcode, if_neg (by simp; exact ⟨hargs, hrom⟩), hs]

theorem serveErase_starts {h : Half} {s : State} (hw : takesWork P.CDF s = true) (hx : sectorCode (mbxReq h 1 s).toNat = true)
    (hr : cdfRefusal .steward true none Cdf.ERASE_SECTOR (sectorBank (mbxReq h 1 s).toNat) (mbxReq h 1 s).toNat 0 s = none) :
    serveErase h s = (0, [], startOp (sectorBank (mbxReq h 1 s).toNat) Cdf.ERASE_SECTOR (mbxReq h 1 s).toNat 0 [] s) := by
  unfold serveErase
  dsimp only
  rw [if_neg (by simp [hx, hw]), hr]
  rfl

/-- PAGE_PROGRAM of a whole page of the array from the banks is decided by the rules for host commands. -/
theorem servePage_decided {h : Half} {x : Nat} {s : State} (hw : takesWork P.CDF s = true)
    (ha : 0x40000000 ≤ (mbxReq h 1 s).toNat) (hx : sectorOf ((mbxReq h 1 s).toNat - 0x40000000) = some x)
    (hpage : (mbxReq h 1 s).toNat % 0x200 = 0) (h4 : (mbxReq h 2 s).toNat % 4 = 0)
    (hlo : 0x10000000 ≤ (mbxReq h 2 s).toNat) (hhi : (mbxReq h 2 s).toNat + 512 ≤ 0x12000000) :
    let b := sectorBank x
    let p := pageIn x ((mbxReq h 1 s).toNat - 0x40000000)
    (∀ c, cdfRefusal .steward true none Cdf.PROGRAM b x p s = some c →
      servePage h s = (c, [], cdfRefused .steward Cdf.PROGRAM b x c s)) ∧
    (cdfRefusal .steward true none Cdf.PROGRAM b x p s = none →
      ∃ buf t, servePage h s = (0, [], startProgram b x p buf t)) := by
  intro b p
  have hoff : arrayOff (mbxReq h 1 s) = (mbxReq h 1 s).toNat - 0x40000000 := by
    rw [arrayOff, BitVec.toNat_sub_of_le]
    · rfl
    · rw [BitVec.le_def]
      exact ha
  have hplace : ¬((mbxReq h 1 s).toNat < 0x40000000 ∨ ((mbxReq h 1 s).toNat - 0x40000000) % 0x200 ≠ 0 ∨
      (mbxReq h 2 s).toNat % 4 ≠ 0 ∨ (mbxReq h 2 s).toNat < 0x10000000 ∨ 0x12000000 < (mbxReq h 2 s).toNat + 512) := by omega
  refine ⟨fun c hc => ?_, fun hc => ?_⟩
  · unfold servePage
    dsimp only
    rw [hoff, hx]
    dsimp only
    rw [if_neg (by simp [hw]), if_neg hplace, hc]
  · unfold servePage
    dsimp only
    rw [hoff, hx]
    dsimp only
    rw [if_neg (by simp [hw]), if_neg hplace, hc]
    exact ⟨_, _, rfl⟩

theorem programmed_markProgrammed (x p : Nat) (s : State) : programmed x p (markProgrammed x p s) = true := by
  unfold markProgrammed
  split
  · assumption
  · simp [programmed, setFlash]

theorem fbank_markProgrammed (b x p : Nat) (s : State) : fbank b (markProgrammed x p s) = fbank b s := by
  unfold markProgrammed
  split <;> rfl

/-- A program that starts is the operation of its bank, and its page counts as programmed. -/
theorem startProgram_holds (b x p : Nat) (buf : SMap (BitVec 16)) (s : State) :
    (fbank b (startProgram b x p buf s)).op.map (fun o => (o.code, o.sector, o.page)) = some (Cdf.PROGRAM, x, p) ∧
      programmed x p (startProgram b x p buf s) = true := by
  refine ⟨?_, programmed_markProgrammed ..⟩
  rw [startProgram, fbank_markProgrammed, fbank_startOp]
  rfl

/-! ## SOFT_RST of CDF -/

theorem guardBits_markProgrammed (x p : Nat) (s : State) : (markProgrammed x p s).flash.guardBits = s.flash.guardBits := by
  unfold markProgrammed
  split <;> rfl

theorem guardBits_undefSector (x : Nat) (s : State) : (undefSector x s).flash.guardBits = s.flash.guardBits := by
  have hfold (l : List Nat) (t : State) : (l.foldl (fun t p => markProgrammed x p t) t).flash.guardBits = t.flash.guardBits := by
    induction l generalizing t with
    | nil => rfl
    | cons p l ih => exact (ih _).trans (guardBits_markProgrammed ..)
  exact (hfold _ _).trans (undefPages_keeps ..).2.2

theorem guardBits_abortOp (power : Bool) (b : Nat) (o : FlashOp) (s : State) : (abortOp power b o s).flash.guardBits = s.flash.guardBits := by
  have hfold (l : List Nat) (t : State) : (l.foldl (fun t x => undefSector x t) t).flash.guardBits = t.flash.guardBits := by
    induction l generalizing t with
    | nil => rfl
    | cons x l ih => exact (ih _).trans (guardBits_undefSector ..)
  unfold abortOp
  split
  · split
    · exact (undefPages_keeps ..).2.2
    · exact (undefPages_keeps ..).2.2
  · split
    · exact guardBits_undefSector ..
    · split
      · exact hfold ..
      · rfl

/-- What the abort of a bank's operations makes of the array. -/
def abortBank (power : Bool) (s t : State) (b : Nat) : State :=
  let t := ((fbank b s).op).elim t fun o => abortOp power b o t
  ((fbank b s).suspended).elim t fun o => abortOp power b o t

theorem abortFlash_state (power : Bool) (s : State) : (abortFlash power s).2 =
    setFlash { ([0, 1, 2, 3].foldl (abortBank power s) s).flash with banks := [], seq := [] }
      ([0, 1, 2, 3].foldl (abortBank power s) s) := by
  have hstep (t : State) (b : Nat) : abortBank power s t b =
      (let y := fbank b s
       let t := match y.op with
         | some o => abortOp power b o t
         | none => t
       match y.suspended with
       | some o => abortOp power b o t
       | none => t) := by
    unfold abortBank
    dsimp only
    cases (fbank b s).op <;> cases (fbank b s).suspended <;> rfl
  simp only [List.foldl_cons, List.foldl_nil, hstep]
  rfl

theorem guardBits_abortBank (power : Bool) (s t : State) (b : Nat) : (abortBank power s t b).flash.guardBits = t.flash.guardBits := by
  unfold abortBank
  cases (fbank b s).op <;> cases (fbank b s).suspended <;> simp [guardBits_abortOp]

theorem abortBank_idle {power : Bool} {s : State} {b : Nat} (ho : (fbank b s).op = none) (hs : (fbank b s).suspended = none)
    (t : State) : abortBank power s t b = t := by
  unfold abortBank
  rw [ho, hs]
  rfl

/-- A reset of CDF leaves the flash as the abort of its operations does. -/
theorem flash_cdfReset (s : State) : (cdfReset s).flash = (abortFlash false s).2.flash := by
  have hclear (t : State) : (clearStatus P.CDF (fun off => off == R.CDF_FW_BANKS) t).flash = t.flash :=
    (sameBut_clearStatus (ps := [.dev, .regs]) (by decide) t _ _ t).2 (sameBut_refl _ t) .flash (by decide)
  have hcodes (l : List Nat) (t : State) : (l.foldl (fun t b => flashCode b E.ABSENT_TARGET t) t).flash = t.flash := by
    induction l generalizing t with
    | nil => rfl
    | cons b l ih => exact (ih _).trans (flash_flashCode ..)
  exact (hcodes ..).trans (hclear _)

/-- It drops operations and sequences and keeps the guard bits, and the array where no operation was running. -/
theorem cdfReset_holds (s : State) : (cdfReset s).flash.banks = [] ∧ (cdfReset s).flash.seq = [] ∧
    (cdfReset s).flash.guardBits = s.flash.guardBits ∧
    ((∀ b, b < 4 → (fbank b s).op = none ∧ (fbank b s).suspended = none) → (cdfReset s).flash.cells = s.flash.cells) := by
  rw [flash_cdfReset, abortFlash_state]
  refine ⟨rfl, rfl, ?_, fun hidle => ?_⟩
  · show ([0, 1, 2, 3].foldl (abortBank false s) s).flash.guardBits = _
    simp only [List.foldl_cons, List.foldl_nil, guardBits_abortBank]
  · show ([0, 1, 2, 3].foldl (abortBank false s) s).flash.cells = _
    have hbank (b : Nat) (hb : b < 4) (t : State) : abortBank false s t b = t := abortBank_idle (hidle b hb).1 (hidle b hb).2 t
    simp only [List.foldl_cons, List.foldl_nil, hbank 0 (by decide), hbank 1 (by decide), hbank 2 (by decide), hbank 3 (by decide)]

theorem flash_respond (h : Half) (code : Nat) (ws : List Word) (s : State) : (respond h code ws s).flash = s.flash :=
  (sameBut_respond (ps := [.regs, .io]) (by decide) s h code ws s).2 (sameBut_refl _ s) .flash (by decide)

/-- Settles O47: SET_PW, SECTOR_ERASE and PAGE_PROGRAM of the mailbox, and SOFT_RST of CDF. -/
theorem passwordsAndStewardFlashCommands : Obligations.PasswordsAndStewardFlashCommands := by
  intro s
  refine ⟨fun rq hr hl => ⟨fun hk => ?_, fun hk hn => ?_⟩, fun rq hr hl => ?_, fun h hask hw => ?_, fun h x hask hw => ?_,
    fun rq hr => ⟨_, congrArg Host.Outcome.next (onPage_reaches hr ..), cdfReset_holds s⟩⟩
  · exact ⟨_, congrArg Host.Outcome.next (onPage_reaches hr ..), setPassword_match hl hk⟩
  · exact ⟨_, congrArg Host.Outcome.next (onPage_reaches hr ..), setPassword_mismatch hl hk hn⟩
  · exact congrArg Host.Outcome.next ((onPage_reaches hr ..).trans (if_pos hl))
  · intro y hx hr
    exact congrArg Host.Outcome.next (mbxServed_answers hask (serveErase_starts hw hx hr))
  · intro a src ha hx hpage h4 hlo hhi b p
    obtain ⟨hrefused, htaken⟩ := servePage_decided hw ha hx hpage h4 hlo hhi
    refine ⟨fun c hc => congrArg Host.Outcome.next (mbxServed_answers hask (hrefused c hc)), fun hc => ?_⟩
    obtain ⟨buf, t, ht⟩ := htaken hc
    obtain ⟨hop, hprog⟩ := startProgram_holds b x p buf t
    refine ⟨_, congrArg Host.Outcome.next (mbxServed_answers hask ht), ?_, ?_⟩
    · rw [fbank_of_flash (flash_respond ..)]
      exact hop
    · rw [programmed, flash_respond]
      exact hprog

end Sys2Proof.Machine

/-! PROOFS. Which components further operations may change. -/

namespace Sys2Proof.Machine

open Sys2Proof

@[simp] theorem sameBut_beginBundle {ps : List Part} (hps : covers ps [.regs, .rgns, .store, .upd] = true) (s₀ : State) (owner : Nat) (s : State) :
    SameBut ps s₀ (beginBundle owner s) ↔ SameBut ps s₀ s := by
  refine SameBut.iff (k := [.regs, .rgns, .store, .upd]) ?_ hps s₀
  unfold beginBundle
  extract_lets b t t' st t''
  have ht : SameBut [.regs, .rgns, .store, .upd] s t := by
    simp only [t]
    split
    · exact sameBut_refl _ s
    · simp (disch := decide)
  have ht' : SameBut [.regs, .rgns, .store, .upd] s t' :=
    (sameBut_foldl_iff (fun t r => by split <;> simp (disch := decide)) s _ t).2 ht
  have ht'' : SameBut [.regs, .rgns, .store, .upd] s t'' := (sameBut_setStore (by decide) s _ t').2 ht'
  simp (disch := decide) [ht'']

@[simp] theorem sameBut_closeIntake {ps : List Part} (hps : covers ps [.regs, .upd] = true) (s₀ : State) (s : State) :
    SameBut ps s₀ (closeIntake s) ↔ SameBut ps s₀ s := by
  refine SameBut.iff (k := [.regs, .upd]) ?_ hps s₀
  simp (disch := decide) [closeIntake]

@[simp] theorem sameBut_stewardErase {ps : List Part} (hps : covers ps [.flash, .free] = true) (s₀ : State) (x : Nat) (s : State) :
    SameBut ps s₀ (stewardErase x s) ↔ SameBut ps s₀ s := by
  refine SameBut.iff (k := [.flash, .free]) ?_ hps s₀
  simp (disch := decide) [stewardErase]

@[simp] theorem sameBut_storeRecord {ps : List Part} (hps : covers ps [.flash, .free] = true) (s₀ : State) (b : Bool) (ws : List Word) (s : State) :
    SameBut ps s₀ (storeRecord b ws s) ↔ SameBut ps s₀ s := by
  refine SameBut.iff (k := [.flash, .free]) ?_ hps s₀
  unfold storeRecord
  exact (sameBut_foldl_iff (fun t p => by simp (disch := decide)) s _ _).2 (by simp (disch := decide))

@[simp] theorem sameBut_pairVerified {ps : List Part} (hps : covers ps [.store, .flash, .free] = true) (s₀ : State) (s : State) :
    SameBut ps s₀ (pairVerified s) ↔ SameBut ps s₀ s := by
  refine SameBut.iff (k := [.store, .flash, .free]) ?_ hps s₀
  simp (disch := decide) [pairVerified]

@[simp] theorem sameBut_stewardAsks {ps : List Part} (hps : covers ps [.regs, .net, .upd] = true) (s₀ : State) (ws : List TWord) (s : State) :
    SameBut ps s₀ (stewardAsks ws s) ↔ SameBut ps s₀ s := by
  refine SameBut.iff (k := [.regs, .net, .upd]) ?_ hps s₀
  simp (disch := decide) [stewardAsks]

@[simp] theorem sameBut_remoteCommand {ps : List Part} (hps : covers ps [.regs, .net, .upd] = true) (s₀ : State) (node code : Nat) (args : List Word) (s : State) :
    SameBut ps s₀ (remoteCommand node code args s) ↔ SameBut ps s₀ s := by
  refine SameBut.iff (k := [.regs, .net, .upd]) ?_ hps s₀
  simp (disch := decide) [remoteCommand]

@[simp] theorem sameBut_forwardChunk {ps : List Part} (hps : covers ps [.regs, .net, .upd] = true) (s₀ : State) (s : State) :
    SameBut ps s₀ (forwardChunk s) ↔ SameBut ps s₀ s := by
  refine SameBut.iff (k := [.regs, .net, .upd]) ?_ hps s₀
  unfold forwardChunk
  split
  · exact sameBut_refl _ s
  · split
    · exact sameBut_refl _ s
    · extract_lets node b payload t args
      have ht : SameBut [.regs, .net, .upd] s t := sameBut_foldl (fun t k => by simp (disch := decide)) _ s
      simp (disch := decide) [ht]

@[simp] theorem sameBut_prepare {ps : List Part} (hps : covers ps [.regs, .rgns, .fox, .upd] = true) (s₀ : State) (s : State) :
    SameBut ps s₀ (prepare s) ↔ SameBut ps s₀ s := by
  refine SameBut.iff (k := [.regs, .rgns, .fox, .upd]) ?_ hps s₀
  unfold prepare
  exact (sameBut_foldl_iff (fun t r => by split <;> simp (disch := decide)) s _ _).2 (by simp (disch := decide))

@[simp] theorem sameBut_armServed {ps : List Part} (hps : covers ps [.regs, .rgns, .fox, .upd] = true) (s₀ : State) (m d : BitVec 64) (s : State) :
    SameBut ps s₀ (armServed m d s) ↔ SameBut ps s₀ s := by
  refine SameBut.iff (k := [.regs, .rgns, .fox, .upd]) ?_ hps s₀
  simp (disch := decide) [armServed]

@[simp] theorem sameBut_sendArm {ps : List Part} (hps : covers ps [.regs, .net, .ring] = true) (s₀ : State) (s : State) :
    SameBut ps s₀ (sendArm s) ↔ SameBut ps s₀ s := by
  refine SameBut.iff (k := [.regs, .net, .ring]) ?_ hps s₀
  unfold sendArm
  split <;> simp (disch := decide)

@[simp] theorem sameBut_dropStaging {ps : List Part} (hps : covers ps [.regs, .rgns, .fox, .io] = true) (s₀ : State) (s : State) :
    SameBut ps s₀ (dropStaging s) ↔ SameBut ps s₀ s := by
  refine SameBut.iff (k := [.regs, .rgns, .fox, .io]) ?_ hps s₀
  unfold dropStaging
  refine sameBut_foldl (fun t x => ?_) _ _
  (repeat' split) <;> simp (disch := decide)

@[simp] theorem sameBut_activationEnds {ps : List Part} (hps : covers ps [.regs, .rgns, .fox, .upd, .io] = true) (s₀ : State) (s : State) :
    SameBut ps s₀ (activationEnds s) ↔ SameBut ps s₀ s := by
  refine SameBut.iff (k := [.regs, .rgns, .fox, .upd, .io]) ?_ hps s₀
  simp (disch := decide) [activationEnds]

@[simp] theorem sameBut_abortServed {ps : List Part} (hps : covers ps [.regs, .rgns, .fox, .upd, .io] = true) (s₀ : State) (m : BitVec 64) (s : State) :
    SameBut ps s₀ (abortServed m s) ↔ SameBut ps s₀ s := by
  refine SameBut.iff (k := [.regs, .rgns, .fox, .upd, .io]) ?_ hps s₀
  simp (disch := decide) [abortServed]

@[simp] theorem sameBut_sendCommit {ps : List Part} (hps : covers ps [.regs, .net, .ring] = true) (s₀ : State) (m t0 : BitVec 64) (s : State) :
    SameBut ps s₀ (sendCommit m t0 s) ↔ SameBut ps s₀ s := by
  refine SameBut.iff (k := [.regs, .net, .ring]) ?_ hps s₀
  simp (disch := decide) [sendCommit]

@[simp] theorem sameBut_armUpdate {ps : List Part} (hps : covers ps [.regs, .fox, .upd] = true) (s₀ : State) (s : State) :
    SameBut ps s₀ (armUpdate s) ↔ SameBut ps s₀ s := by
  refine SameBut.iff (k := [.regs, .fox, .upd]) ?_ hps s₀
  unfold armUpdate
  extract_lets m t0 u src
  split
  · exact sameBut_refl _ s
  · have hu : SameBut [.regs, .fox, .upd] s u := sameBut_foldl (fun t r => by simp (disch := decide)) _ s
    simp (disch := decide) [hu]

@[simp] theorem sameBut_commitLocal {ps : List Part} (hps : covers ps [.regs, .rgns, .fox, .upd] = true) (s₀ : State) (t0 : BitVec 64) (s : State) :
    SameBut ps s₀ (commitLocal t0 s) ↔ SameBut ps s₀ s := by
  refine SameBut.iff (k := [.regs, .rgns, .fox, .upd]) ?_ hps s₀
  simp (disch := decide) [commitLocal]

@[simp] theorem sameBut_putNotReady {ps : List Part} (hps : covers ps [.regs] = true) (s₀ : State) (nodes : List Nat) (s : State) :
    SameBut ps s₀ (putNotReady nodes s) ↔ SameBut ps s₀ s := by
  refine SameBut.iff (k := [.regs]) ?_ hps s₀
  unfold putNotReady
  exact (sameBut_foldl_iff (fun t n => by simp (disch := decide)) s _ _).2 (sameBut_foldl (fun t i => by simp (disch := decide)) _ s)

@[simp] theorem sameBut_sendAbort {ps : List Part} (hps : covers ps [.regs, .net, .ring] = true) (s₀ : State) (cls : Nat) (m : BitVec 64) (reason : Word) (s : State) :
    SameBut ps s₀ (sendAbort cls m reason s) ↔ SameBut ps s₀ s := by
  refine SameBut.iff (k := [.regs, .net, .ring]) ?_ hps s₀
  simp (disch := decide) [sendAbort]

@[simp] theorem sameBut_undoSwap {ps : List Part} (hps : covers ps [.regs, .rgns, .fox, .upd, .io] = true) (s₀ : State) (was : Nat) (s : State) :
    SameBut ps s₀ (undoSwap was s) ↔ SameBut ps s₀ s := by
  refine SameBut.iff (k := [.regs, .rgns, .fox, .upd, .io]) ?_ hps s₀
  unfold undoSwap
  split
  · split
    · exact sameBut_refl _ s
    · split
      · refine (sameBut_dropStaging (by decide) s _).2 ((sameBut_disarmSet (by decide) s _).2 ?_)
        exact (sameBut_foldl_iff (fun t r => by simp (disch := decide)) s _ _).2 (by simp (disch := decide))
      · exact sameBut_refl _ s
  · exact sameBut_refl _ s

@[simp] theorem sameBut_fallBack {ps : List Part} (hps : covers ps [.regs, .rgns, .fox, .upd, .io] = true) (s₀ : State) (m : BitVec 64) (s : State) :
    SameBut ps s₀ (fallBack m s) ↔ SameBut ps s₀ s := by
  refine SameBut.iff (k := [.regs, .rgns, .fox, .upd, .io]) ?_ hps s₀
  simp (disch := decide) [fallBack]

@[simp] theorem sameBut_resource {ps : List Part} (hps : covers ps [.regs] = true) (s₀ : State) (old new : Bool) (m : BitVec 64) (s : State) :
    SameBut ps s₀ (resource old new m s) ↔ SameBut ps s₀ s := by
  refine SameBut.iff (k := [.regs]) ?_ hps s₀
  unfold resource
  exact sameBut_foldl (fun t x => by dsimp only; split <;> simp (disch := decide)) _ _

@[simp] theorem sameBut_askConfirm {ps : List Part} (hps : covers ps [.regs, .net, .upd] = true) (s₀ : State) (node : Nat) (s : State) :
    SameBut ps s₀ (askConfirm node s) ↔ SameBut ps s₀ s := by
  refine SameBut.iff (k := [.regs, .net, .upd]) ?_ hps s₀
  simp (disch := decide) [askConfirm]

end Sys2Proof.Machine

/-! PROOFS. Rules about the state of an update, and O48: bundles are taken in and verified. -/

namespace Sys2Proof.Machine

open Sys2Proof

/-! ## The state of an update under the operations on it -/

theorem updState_of_rd {s t : State} (h : rd P.UPD R.UPD_STAT t = rd P.UPD R.UPD_STAT s) : updState t = updState s := by
  rw [updState, rdf, h, updState, rdf]

theorem updState_of_regs {s t : State} (h : t.regs = s.regs) : updState t = updState s := updState_of_rd (rd_of_regs h ..)

@[simp] theorem updState_mdUpd (f : Upd → Upd) (s : State) : updState (mdUpd f s) = updState s := rfl

@[simp] theorem updState_setUpd (x : Upd) (s : State) : updState (setUpd x s) = updState s := rfl

@[simp] theorem updState_writePointer (why : PtrFor) (f : BootPointer → BootPointer) (s : State) :
    updState (writePointer why f s) = updState s := rfl

theorem updState_setUpdState {n : Nat} (h : n < 16) (s : State) : updState (setUpdState n s) = n := by
  rw [updState, setUpdState, rdf_wrf_same (by decide)]
  exact Nat.mod_eq_of_lt h

@[simp] theorem updState_updCode (c : Nat) (s : State) : updState (updCode c s) = updState s := by
  rw [updState, updCode, rdf, wrf, rd_md_same, fld_setFld_other (by decide) (by decide), updState, rdf]

@[simp] theorem updState_updHold (b : Bool) (s : State) : updState (updHold b s) = updState s := by
  rw [updState, updHold, rdf, wrf, rd_md_same, fld_setFld_other (by decide) (by decide), updState, rdf]

@[simp] theorem updState_irq (p b : Nat) (s : State) : updState (irq p b s) = updState s := by
  refine updState_of_rd ?_
  by_cases h : P.UPD = p
  · subst h
    exact rd_irq_off (noPba_page (by decide) (by decide)) (rkey_off (by decide)) ..
  · unfold irq
    exact rd_irqChange_other (noPba_page (by decide) (by decide)) (rd_md_other (rkey_page h (by decide) (by decide)) ..) ..

/-- A wr to another register of the page leaves the state of the update. -/
theorem updState_wr {o : Nat} (h : R.UPD_STAT / 4 ≠ o / 4) (v : Word) (s : State) : updState (wr P.UPD o v s) = updState s :=
  updState_of_rd (rd_wr_other (rkey_off h) ..)

theorem updState_wrf {o : Nat} (h : R.UPD_STAT / 4 ≠ o / 4) (hi lo n : Nat) (s : State) :
    updState (wrf P.UPD o hi lo n s) = updState s :=
  updState_of_rd (rd_wrf_other (rkey_off h) ..)

@[simp] theorem updState_closeIntake (s : State) : updState (closeIntake s) = updState s := by
  rw [closeIntake, updState_mdUpd, updState_wrf (by decide)]

theorem rdf_code_setUpdState (n : Nat) (s : State) :
    rdf P.UPD R.UPD_STAT 31 24 (setUpdState n s) = rdf P.UPD R.UPD_STAT 31 24 s := by
  rw [setUpdState, rdf, wrf, rd_md_same, fld_setFld_other (by decide) (by decide), rdf]

theorem rdf_code_updCode (c : Nat) (s : State) : rdf P.UPD R.UPD_STAT 31 24 (updCode c s) = c % 256 := by
  rw [updCode, rdf_wrf_same (by decide)]
  rfl

/-! ## Answers of the mailbox without results -/

theorem rd_respond_empty {q o : Nat} (hq : q ≠ P.DEV) (ho : o < 4096) (hn : NoPba q o) (h : Half) (c : Nat) (s : State) :
    rd q o (respond h c [] s) = rd q o s := by
  obtain ⟨-, hlo, hhi, hclo, hchi⟩ := mbx_offsets h
  unfold respond
  dsimp only [List.zipIdx_nil, List.foldl_nil]
  rw [rd_irq_off hn (rkey_page hq ho (by decide)), rd_md_other (rkey_page hq ho (by omega)), rd_wr_other (rkey_page hq ho (by omega))]

theorem rd_upd_respond {o : Nat} (ho : o < 4096) (h : Half) (c : Nat) (s : State) :
    rd P.UPD o (respond h c [] s) = rd P.UPD o s :=
  rd_respond_empty (by decide) ho (noPba_page (by decide) ho) ..

@[simp] theorem updState_respond (h : Half) (c : Nat) (s : State) : updState (respond h c [] s) = updState s :=
  updState_of_rd (rd_upd_respond (by decide) ..)

theorem upd_respond (h : Half) (code : Nat) (ws : List Word) (s : State) : (respond h code ws s).upd = s.upd :=
  (sameBut_respond (ps := [.regs, .io]) (by decide) s h code ws s).2 (sameBut_refl _ s) .upd (by decide)

theorem store_respond (h : Half) (code : Nat) (ws : List Word) (s : State) : (respond h code ws s).store = s.store :=
  (sameBut_respond (ps := [.regs, .io]) (by decide) s h code ws s).2 (sameBut_refl _ s) .store (by decide)

/-! ## BUNDLE_BEGIN -/

/-- A bundle that begins makes the image of its pair invalid. -/
def beginStore (b : Bool) (x : Store) : Store := if b then { x with bValid := false } else { x with aValid := false }

/-- What it makes of the update unit; `leads` keeps an ARM that a leader awaits. -/
def beginUpd (leads : Bool) (u : Upd) : Upd :=
  { u with
    intake := []
    buffer := []
    heldWords := []
    arming := if leads then u.arming else none
    verifyDue := false
    oldHeader := if u.headerPart = [] then u.oldHeader else u.headerPart
    headerPart := []
    partRefused := false
    swapSet := 0
    swapArmed := false
    rollForward := false
    buffers := [] }

theorem beginBundle_eq (owner : Nat) (s : State) : ∃ (t : State) (leads : Bool), t.store = s.store ∧
    beginBundle owner s = mdUpd (beginUpd leads) (updCode 0 (setUpdState U.DOWNLOAD
      (wr P.UPD R.UPD_BUNDLE_STAT (W (2 ^ 31 + owner * 2 ^ 29 + 0x400))
        (setStore (beginStore (targetPair s) t.store) t)))) := by
  unfold beginBundle
  extract_lets b t₀ t₁ st t₂
  refine ⟨t₁, _, ?_, rfl⟩
  have h₀ : SameBut [.regs, .rgns, .upd] s t₀ := by
    simp only [t₀]
    split
    · exact sameBut_refl _ s
    · simp (disch := decide)
  exact (sameBut_foldl_iff (fun t r => by split <;> simp (disch := decide)) s _ t₀).2 h₀ .store (by decide)

theorem bit_openStat {owner : Nat} (h : owner < 4) : bit 31 (W (2 ^ 31 + owner * 2 ^ 29 + 0x400)) = true := by
  interval_cases owner <;> decide

theorem imageValid_beginStore (b : Bool) (s t : State) (h : t.store = beginStore b s.store) :
    imageValid b t = false ∧ imageValid (!b) t = imageValid (!b) s := by
  simp only [imageValid, h]
  cases b <;> exact ⟨rfl, rfl⟩

/-- A bundle that begins opens an empty intake, and only the image of its pair becomes invalid. -/
theorem beginBundle_opens {owner : Nat} (ho : owner < 4) (s : State) :
    let t := beginBundle owner s
    updState t = U.DOWNLOAD ∧ intakeOpen t = true ∧ t.upd.headerPart = [] ∧ t.upd.intake = [] ∧
      imageValid (targetPair s) t = false ∧ imageValid (!targetPair s) t = imageValid (!targetPair s) s := by
  obtain ⟨v, leads, hstore, heq⟩ := beginBundle_eq owner s
  have hword := bit_openStat ho
  rw [heq]
  generalize W (2 ^ 31 + owner * 2 ^ 29 + 0x400) = w at hword
  have hvalid := imageValid_beginStore (targetPair s) s (mdUpd (beginUpd leads) (updCode 0 (setUpdState U.DOWNLOAD
      (wr P.UPD R.UPD_BUNDLE_STAT w (setStore (beginStore (targetPair s) v.store) v))))) (by rw [← hstore]; rfl)
  refine ⟨?_, ?_, rfl, rfl, hvalid⟩
  · rw [updState_mdUpd, updState_updCode, updState_setUpdState (by decide)]
  · have hopen (f : Upd → Upd) (u : State) : intakeOpen (mdUpd f u) = bit 31 (rd P.UPD R.UPD_BUNDLE_STAT u) := rfl
    rw [hopen, updCode, rd_wrf_other (rkey_off (by decide)), setUpdState, rd_wrf_other (rkey_off (by decide)), rd_wr_same, hword]

theorem imageValid_respond (b : Bool) (h : Half) (c : Nat) (ws : List Word) (s : State) :
    imageValid b (respond h c ws s) = imageValid b s := by
  rw [imageValid, store_respond, imageValid]

theorem intakeOpen_respond (h : Half) (c : Nat) (s : State) : intakeOpen (respond h c [] s) = intakeOpen s := by
  rw [intakeOpen, rd_upd_respond (by decide), intakeOpen]

/-! ## BUNDLE_DATA -/

theorem drainBundle_waiting {s : State} (hw : intakeWaits s = true) : drainBundle s = s := by
  unfold drainBundle
  cases s.upd.buffer.length + s.upd.heldWords.length with
  | zero => rfl
  | succ n =>
    unfold drainIntake
    split
    · rfl
    · exact if_pos hw

theorem drainBundle_empty {s : State} (hb : s.upd.buffer = []) (hh : s.upd.heldWords = []) : drainBundle s = s := by
  unfold drainBundle
  rw [hb, hh]
  rfl

theorem upd_emptied {u : Upd} (hb : u.buffer = []) (hh : u.heldWords = []) : { u with buffer := [], heldWords := [] } = u := by
  cases u
  simp_all

/-- A word that finds the buffer empty is taken at once. -/
theorem drainBundle_single {s : State} (w : Word) (hb : s.upd.buffer = []) (hh : s.upd.heldWords = [])
    (hw : intakeWaits s = false) : drainBundle (mdUpd (fun u => { u with buffer := u.buffer ++ [w] }) s) =
      takeIntake (setUpd { s.upd with intake := s.upd.intake ++ [w] } s) := by
  have hone (v : State) (hv : v.upd.buffer = [w]) (hv' : intakeWaits v = false) : drainIntake 1 v =
      takeIntake (mdUpd (fun u => { u with
        buffer := [] ++ u.heldWords.take 1, heldWords := u.heldWords.drop 1, intake := u.intake ++ [w] }) v) := by
    unfold drainIntake
    rw [hv]
    exact if_neg (by simp [hv'])
  have hfuel : (s.upd.buffer ++ [w]).length + s.upd.heldWords.length = 1 := by simp [hb, hh]
  have hback : { s.upd with
      buffer := [] ++ s.upd.heldWords.take 1, heldWords := s.upd.heldWords.drop 1, intake := s.upd.intake ++ [w] } =
      { s.upd with intake := s.upd.intake ++ [w] } := by
    rw [hh]
    exact upd_emptied (u := { s.upd with intake := s.upd.intake ++ [w] }) hb hh
  calc drainIntake ((s.upd.buffer ++ [w]).length + s.upd.heldWords.length) _
    _ = drainIntake 1 (mdUpd (fun u => { u with buffer := u.buffer ++ [w] }) s) := by rw [hfuel]
    _ = takeIntake (setUpd { s.upd with
        buffer := [] ++ s.upd.heldWords.take 1, heldWords := s.upd.heldWords.drop 1, intake := s.upd.intake ++ [w] } s) :=
      hone _ (by simp [mdUpd, setUpd, hb]) hw
    _ = _ := by rw [hback]

theorem bundleWord_takes {rq : Requester} {s : State} (w : Word) (hf : intakeFrom rq s = true) (hw : intakeWaits s = false)
    (hb : s.upd.buffer = []) (hh : s.upd.heldWords = []) :
    bundleWord rq w s = takeIntake (setUpd { s.upd with intake := s.upd.intake ++ [w] } s) := by
  unfold bundleWord
  rw [if_neg (by simp [hf]), if_neg (by simp [hb])]
  exact drainBundle_single w hb hh hw

/-- What has been taken in is too short for a header, or for a chunk. -/
theorem takeIntake_short {s : State} (h : (s.upd.headerPart = [] ∧ s.upd.intake.length < 8) ∨
    (s.upd.headerPart ≠ [] ∧ s.upd.intake.length < 16392)) : takeIntake s = s := by
  unfold takeIntake
  rcases h with ⟨hp, hl⟩ | ⟨hp, hl⟩
  · dsimp only
    rw [if_pos hp, if_pos hl]
  · have hshort : s.upd.intake.length < chunkWords := by
      unfold chunkWords
      exact hl
    dsimp only
    rw [if_neg hp, if_pos hshort]

/-- A whole chunk that does not check is refused with AUTH_FAIL. -/
theorem takeIntake_badChunk {s : State} (hp : s.upd.headerPart ≠ []) (hl : s.upd.intake.length = 16392)
    (hbad : (chunkArrived s.upd.intake (setUpd { s.upd with intake := [] } s)).1 = false) :
    takeIntake s = updCode E.AUTH_FAIL (chunkArrived s.upd.intake (setUpd { s.upd with intake := [] } s)).2 := by
  have hshort : ¬s.upd.intake.length < chunkWords := by
    rw [hl]
    decide
  unfold takeIntake
  dsimp only
  rw [if_neg hp, if_neg hshort]
  exact if_pos (by rw [show mdUpd (fun u => { u with intake := [] }) s = setUpd { s.upd with intake := [] } s from rfl, hbad]; decide)

/-! ## Verification -/

theorem upd_pairVerified (s : State) : (pairVerified s).upd = s.upd :=
  (sameBut_pairVerified (ps := [.store, .flash, .free]) (by decide) s s).2 (sameBut_refl _ s) .upd (by decide)

theorem imageValid_pairVerified (s : State) : imageValid (targetPair s) (pairVerified s) = true := by
  have hstore (b : Bool) (ws : List Word) (u : State) : (storeRecord b ws u).store = u.store :=
    (sameBut_storeRecord (ps := [.flash, .free]) (by decide) u b ws u).2 (sameBut_refl _ u) .store (by decide)
  unfold pairVerified
  dsimp only
  rw [imageValid, hstore]
  cases targetPair s <;> rfl

/-- The pointer of a verified bundle names its manifest as that of the other pair. -/
theorem verifyDone_good {s : State} (hv : updState s = U.VERIFY) (hf : verifyFault s = none) (hm : s.dev.mode ≠ .recovery) :
    ∃ p, (verifyDone s).upd.ptrWrite = s.upd.ptrWrite ++ [(.verified, p)] ∧ p.otherVerified = true ∧ p.rejected = false ∧
      p.otherManifest = manifestId s.upd.headerPart ∧ p.activeB = (latestPointer s).activeB ∧
      imageValid (targetPair s) (verifyDone s) = true := by
  have hdone : ∃ f : BootPointer → BootPointer, verifyDone s = writePointer .verified f (pairVerified s) ∧
      ∀ q, (f q).otherVerified = true ∧ (f q).rejected = false ∧ (f q).otherManifest = manifestId s.upd.headerPart ∧
        (f q).activeB = q.activeB := by
    unfold verifyDone
    rw [if_neg (by simp [hv]), hf]
    dsimp only
    rw [if_neg hm]
    refine ⟨_, rfl, fun q => ?_⟩
    cases targetPair s <;> exact ⟨rfl, rfl, rfl, rfl⟩
  obtain ⟨f, hdone, hq⟩ := hdone
  have hlatest : latestPointer (pairVerified s) = latestPointer s := by rw [latestPointer, upd_pairVerified, latestPointer]
  obtain ⟨h1, h2, h3, h4⟩ := hq (latestPointer s)
  refine ⟨f (latestPointer s), ?_, h1, h2, h3, h4, ?_⟩
  · rw [hdone]
    show (pairVerified s).upd.ptrWrite ++ [(.verified, f (latestPointer (pairVerified s)))] = _
    rw [hlatest, upd_pairVerified]
  · rw [hdone]
    exact imageValid_pairVerified s

theorem verifyDone_bad {s : State} {c : Nat} (hv : updState s = U.VERIFY) (hf : verifyFault s = some c) :
    updState (verifyDone s) = U.IDLE ∧ rdf P.UPD R.UPD_STAT 31 24 (verifyDone s) = c % 256 ∧
      (verifyDone s).upd.ptrWrite = s.upd.ptrWrite := by
  have hdone : verifyDone s = mdUpd (fun u => { u with verifyDue := false })
      (setUpdState U.IDLE (closeIntake (updCode c s))) := by
    unfold verifyDone
    rw [if_neg (by simp [hv]), hf]
  have hclosed (u : State) : rdf P.UPD R.UPD_STAT 31 24 (closeIntake u) = rdf P.UPD R.UPD_STAT 31 24 u := by
    have hrd : rd P.UPD R.UPD_STAT (closeIntake u) = rd P.UPD R.UPD_STAT (wrf P.UPD R.UPD_BUNDLE_STAT 31 31 0 u) := rfl
    rw [rdf, hrd, rd_wrf_other (rkey_off (by decide)), rdf]
  have hmd (f : Upd → Upd) (u : State) : rdf P.UPD R.UPD_STAT 31 24 (mdUpd f u) = rdf P.UPD R.UPD_STAT 31 24 u := rfl
  rw [hdone]
  refine ⟨?_, ?_, rfl⟩
  · rw [updState_mdUpd, updState_setUpdState (by decide)]
  · rw [hmd, rdf_code_setUpdState, hclosed, rdf_code_updCode]

/-! ## Forwarding, RING_CHUNK, BUNDLE_CANCEL -/

theorem upd_stewardAsks (ws : List TWord) (s : State) :
    (stewardAsks ws s).upd = { s.upd with awaited := s.upd.awaited ++ [routeOf ws] } :=
  (sameBut_send (ps := [.regs, .net]) (by decide) _ _ ws _).2 (sameBut_refl _ _) .upd (by decide)

/-- Asking another node changes nothing of an update but the replies awaited. -/
theorem stewardAsks_keeps (ws : List TWord) (s : State) : (stewardAsks ws s).upd.buffers = s.upd.buffers ∧
    (stewardAsks ws s).upd.buffer = s.upd.buffer ∧ (stewardAsks ws s).upd.heldWords = s.upd.heldWords ∧
    (stewardAsks ws s).upd.ptrWrite = s.upd.ptrWrite ∧ (stewardAsks ws s).upd.pointer = s.upd.pointer := by
  rw [upd_stewardAsks]
  exact ⟨rfl, rfl, rfl, rfl, rfl⟩

theorem foldl_stewardAsks_keeps (f : Nat → List TWord) (ks : List Nat) (s : State) :
    let t := ks.foldl (fun t k => stewardAsks (f k) t) s
    t.upd.buffer = s.upd.buffer ∧ t.upd.heldWords = s.upd.heldWords := by
  induction ks generalizing s with
  | nil => exact ⟨rfl, rfl⟩
  | cons k ks ih =>
    obtain ⟨hb, hh⟩ := ih (stewardAsks (f k) s)
    obtain ⟨-, hb', hh', -⟩ := stewardAsks_keeps (f k) s
    exact ⟨hb.trans hb', hh.trans hh'⟩

theorem remoteCommand_keeps (node code : Nat) (args : List Word) (s : State) : let t := remoteCommand node code args s
    t.upd.buffers = s.upd.buffers ∧ t.upd.buffer = s.upd.buffer ∧ t.upd.heldWords = s.upd.heldWords := by
  unfold remoteCommand
  simp only [upd_stewardAsks, and_self]

/-- A chunk is sent as remote writes and a mailbox command of the next node. -/
theorem forwardChunk_eq {s : State} {e : Nat × List Word} {rest : List (Nat × List Word)} (hbs : s.upd.buffers = e :: rest)
    (hup : ringUp s = true) : ∃ (f : Nat → List TWord) (ks : List Nat) (node : Nat) (args : List Word),
      forwardChunk s = remoteCommand node 0x0106 args (mdUpd (fun u => { u with buffers := rest })
        (ks.foldl (fun t k => stewardAsks (f k) t) s)) := by
  unfold forwardChunk
  rw [hbs]
  dsimp only
  rw [if_neg (by simp [hup])]
  exact ⟨_, _, _, _, rfl⟩

/-- The oldest chunk leaves the buffers; the words that wait for the intake stay. -/
theorem forwardChunk_upd {s : State} {e : Nat × List Word} {rest : List (Nat × List Word)} (hbs : s.upd.buffers = e :: rest)
    (hup : ringUp s = true) : (forwardChunk s).upd.buffers = rest ∧ (forwardChunk s).upd.buffer = s.upd.buffer ∧
      (forwardChunk s).upd.heldWords = s.upd.heldWords := by
  obtain ⟨f, ks, node, args, heq⟩ := forwardChunk_eq hbs hup
  obtain ⟨hb, hh⟩ := foldl_stewardAsks_keeps f ks s
  rw [heq]
  obtain ⟨h1, h2, h3⟩ := remoteCommand_keeps node 0x0106 args (mdUpd (fun u => { u with buffers := rest })
    (ks.foldl (fun t k => stewardAsks (f k) t) s))
  exact ⟨h1, h2.trans hb, h3.trans hh⟩

theorem forwardChunk_down {s : State} (hup : ringUp s = false) : forwardChunk s = s := by
  unfold forwardChunk
  split
  · rfl
  · exact if_pos (by simp [hup])

/-- Where the buffer of the intake is empty, a chunk that is sent lets no further word in. -/
theorem chunkForward_sends {s : State} {e : Nat × List Word} {rest : List (Nat × List Word)} (hbs : s.upd.buffers = e :: rest)
    (hb : s.upd.buffer = []) (hh : s.upd.heldWords = []) (hup : ringUp s = true) :
    let t := drainBundle (forwardChunk s)
    t.upd.buffers = rest ∧ t.banks = s.banks ∧ t.flash = s.flash := by
  obtain ⟨h1, h2, h3⟩ := forwardChunk_upd hbs hup
  have hsame : SameBut [.regs, .net, .upd] s (forwardChunk s) :=
    (sameBut_forwardChunk (by decide) s s).2 (sameBut_refl _ s)
  dsimp only
  rw [drainBundle_empty (h2.trans hb) (h3.trans hh)]
  exact ⟨h1, hsame.banks (by decide) (by decide), hsame .flash (by decide)⟩

theorem serveRingChunk_closed {h : Half} {s : State} (hb : bit 31 (rd P.UPD R.UPD_RING_BUF s) = false) :
    serveRingChunk h s = (E.ABSENT_TARGET, [], s) := by
  unfold serveRingChunk
  exact if_pos (by simp [hb])

theorem serveRingChunk_busy {h : Half} {s : State} (hb : bit 31 (rd P.UPD R.UPD_RING_BUF s) = true)
    (h2 : 2 ≤ s.upd.buffers.length) : serveRingChunk h s = (E.BANK_BUSY, [], s) := by
  unfold serveRingChunk
  exact (if_neg (by simp [hb])).trans (if_pos h2)

/-- What RING_CHUNK makes of a chunk: index, tag, the words of the ring buffer and their signature. -/
def ringRecord (h : Half) (s : State) (ws : List Word) : List Word :=
  [W (mbxReq h 1 s).toNat] ++ (List.range 3).map (fun k => mbxReq h (3 + k) s) ++ ws ++
    (List.range 4).map (fun k => mbxReq h (6 + k) s)

/-- A chunk that is not the last of its part is taken, and the intake stays open. -/
theorem serveRingChunk_takes {h : Half} {s : State} (hb : bit 31 (rd P.UPD R.UPD_RING_BUF s) = true)
    (h2 : s.upd.buffers.length < 2) (hi : (mbxReq h 1 s).toNat ≠ headerIndex) (ho : intakeOpen s = true)
    (how : intakeOwner s = 2) (hp : s.upd.headerPart ≠ [])
    (hl : (mbxReq h 1 s).toNat + 1 ≠ fld 15 0 (s.upd.headerPart.getD 5 0)) (r : List Word × State) (hr : ringBufWords 16384 s = r)
    (hok : (chunkArrived (ringRecord h s r.1) r.2).1 = true) :
    serveRingChunk h s = (0, [], (chunkArrived (ringRecord h s r.1) r.2).2) := by
  obtain ⟨ws, t⟩ := r
  unfold serveRingChunk
  refine (if_neg (by simp [hb])).trans ((if_neg (Nat.not_le.2 h2)).trans ((if_neg hi).trans
    ((if_neg (by simp [ho, how, hp])).trans ?_)))
  rw [hr]
  dsimp only [ringRecord] at hok ⊢
  rw [hok, if_neg (by decide), if_neg hl]

/-- Before READY a cancel drops the intake and what it would forward; the chunks stored stay. -/
theorem serveCancel_drops {s : State} (hs : updState s < U.READY) : ∃ t, serveCancel s = (0, [], t) ∧ updState t = U.IDLE ∧
    intakeOpen t = false ∧ t.upd.intake = [] ∧ t.upd.buffers = [] ∧ t.upd.chunks = s.upd.chunks := by
  refine ⟨mdUpd (fun u => { u with buffers := [], verifyDue := false }) (setUpdState U.IDLE (closeIntake s)), ?_, ?_, ?_, rfl, rfl, rfl⟩
  · unfold serveCancel
    rw [if_neg (by omega)]
  · rw [updState_mdUpd, updState_setUpdState (by decide)]
  · have hopen (f : Upd → Upd) (u : State) : intakeOpen (mdUpd f u) = bit 31 (rd P.UPD R.UPD_BUNDLE_STAT u) := rfl
    have hclose : rd P.UPD R.UPD_BUNDLE_STAT (closeIntake s) =
      rd P.UPD R.UPD_BUNDLE_STAT (wrf P.UPD R.UPD_BUNDLE_STAT 31 31 0 s) := rfl
    rw [hopen, setUpdState, rd_wrf_other (rkey_off (by decide)), hclose, rd_wrf_same, bit_setFld_mem (by decide) (by decide) (by decide)]
    rfl

theorem serveCancel_refused {s : State} (hs : U.READY ≤ updState s) : serveCancel s = (E.PERM_FAULT, [], s) := by
  unfold serveCancel
  exact if_pos hs

/-! ## BUNDLE_BEGIN of the mailbox -/

theorem serveBegin_refused {h : Half} {s : State} (hr : beginRefused s = true) : serveBegin h s = (E.PERM_FAULT, [], s) := by
  unfold serveBegin
  exact if_pos hr

theorem serveBegin_active {h : Half} {s : State} (hr : beginRefused s = false) (hm : s.dev.mode ≠ .recovery)
    (ha : activeFromTarget s = true) : serveBegin h s = (E.PERM_FAULT, [], updCode E.PERM_FAULT s) := by
  unfold serveBegin
  rw [if_neg (by simp [hr]), if_pos ⟨hm, ha⟩]

/-- A bundle that may begin opens its intake and leaves the other pair valid as it was. -/
theorem serveBegin_opens {h : Half} {s : State} (hr : beginRefused s = false)
    (ha : s.dev.mode = .recovery ∨ activeFromTarget s = false) : ∃ t, serveBegin h s = (0, [], t) ∧ updState t = U.DOWNLOAD ∧
      intakeOpen t = true ∧ t.upd.headerPart = [] ∧ t.upd.intake = [] ∧ imageValid (targetPair s) t = false ∧
      imageValid (!targetPair s) t = imageValid (!targetPair s) s := by
  have howner : (if h = .hostHalf then 0 else 1) < 4 := by split <;> decide
  have hserve : ∃ u, serveBegin h s = (0, [], beginBundle (if h = .hostHalf then 0 else 1) u) ∧ targetPair u = targetPair s ∧
      u.store = s.store := by
    unfold serveBegin
    dsimp only
    rw [if_neg (by simp [hr]), if_neg (by rcases ha with ha | ha <;> simp [ha])]
    refine ⟨_, rfl, ?_⟩
    split <;> exact ⟨rfl, rfl⟩
  obtain ⟨u, hserve, htarget, hstore⟩ := hserve
  have hopens := beginBundle_opens howner u
  have hvalid (b : Bool) : imageValid b u = imageValid b s := by rw [imageValid, hstore, imageValid]
  rw [htarget, hvalid] at hopens
  exact ⟨_, hserve, hopens⟩

/-- Settles O48: each mailbox command and event of the intake by its cases. -/
theorem bundlesAreTakenInAndVerified : Obligations.BundlesAreTakenInAndVerified := by
  intro h s
  refine ⟨fun hask hr => ⟨fun ha => ?_, fun hm ha => congrArg Host.Outcome.next (mbxServed_answers hask (serveBegin_active hr hm ha))⟩,
    fun hask hr => congrArg Host.Outcome.next (mbxServed_answers hask (serveBegin_refused hr)), fun rq w hrq => ?_, fun hv => ⟨?_, ?_⟩,
    fun e rest hbs hb hh => ⟨fun hup => ⟨_, rfl, chunkForward_sends hbs hb hh hup⟩, fun hup => ?_⟩, fun hask => ?_,
    fun hask => ⟨fun hs => ?_, fun hs => congrArg Host.Outcome.next (mbxServed_answers hask (serveCancel_refused hs))⟩⟩
  · obtain ⟨t, hserve, hstate, hopen, hhead, hin, hinvalid, hother⟩ := serveBegin_opens (h := h) hr ha
    refine ⟨_, congrArg Host.Outcome.next (mbxServed_answers hask hserve), ?_, ?_, ?_, ?_, ?_, ?_⟩
    · rw [updState_respond, hstate]
    · rw [intakeOpen_respond, hopen]
    · rw [upd_respond, hhead]
    · rw [upd_respond, hin]
    · rw [imageValid_respond, hinvalid]
    · rw [imageValid_respond, hother]
  · have hexec : exec (.bundleData rq w) s = .next (bundleWord rq w s) :=
      congrArg Host.Outcome.next (onPage_reaches hrq ..)
    rw [hexec]
    refine ⟨fun hf => ?_, fun hf hl => ?_, fun hf hl hw => ?_, fun ⟨hf, hw, hb, hh⟩ hp hl => ?_, fun ⟨hf, hw, hb, hh⟩ hp hl => ?_,
      fun ⟨hf, hw, hb, hh⟩ hp hl hbad => ?_⟩
    all_goals refine congrArg Host.Outcome.next ?_
    · exact if_pos (by simp [hf])
    · unfold bundleWord
      rw [if_neg (by simp [hf]), if_pos hl]
      rfl
    · unfold bundleWord
      rw [if_neg (by simp [hf]), if_neg (by omega)]
      exact drainBundle_waiting hw
    · rw [bundleWord_takes w hf hw hb hh]
      exact takeIntake_short (.inl ⟨hp, by rw [show (setUpd _ s).upd.intake = s.upd.intake ++ [w] from rfl, List.length_append]; exact hl⟩)
    · rw [bundleWord_takes w hf hw hb hh]
      exact takeIntake_short (.inr ⟨hp, by rw [show (setUpd _ s).upd.intake = s.upd.intake ++ [w] from rfl, List.length_append]; exact hl⟩)
    · rw [bundleWord_takes w hf hw hb hh]
      exact takeIntake_badChunk hp (by rw [show (setUpd _ s).upd.intake = s.upd.intake ++ [w] from rfl, List.length_append]; exact hl) hbad
  · intro c hf
    exact ⟨_, rfl, verifyDone_bad hv hf⟩
  · intro hf hm
    obtain ⟨p, hp⟩ := verifyDone_good hv hf hm
    exact ⟨_, p, rfl, hp⟩
  · refine congrArg Host.Outcome.next ?_
    rw [forwardChunk_down hup]
    exact drainBundle_empty hb hh
  · intro i r rec_
    exact ⟨fun hb => congrArg Host.Outcome.next (mbxServed_answers hask (serveRingChunk_closed hb)),
      fun hb h2 hi ho how hp hl hok => congrArg Host.Outcome.next
        (mbxServed_answers hask (serveRingChunk_takes hb h2 hi ho how hp hl r rfl hok)),
      fun hb h2 => congrArg Host.Outcome.next (mbxServed_answers hask (serveRingChunk_busy hb h2))⟩
  · obtain ⟨t, hserve, hstate, hopen, hin, hbufs, hchunks⟩ := serveCancel_drops hs
    refine ⟨_, congrArg Host.Outcome.next (mbxServed_answers hask hserve), ?_, ?_, ?_, ?_, ?_⟩
    · rw [updState_respond, hstate]
    · rw [intakeOpen_respond, hopen]
    · rw [upd_respond, hin]
    · rw [upd_respond, hbufs]
    · rw [upd_respond, hchunks]

end Sys2Proof.Machine

/-! PROOFS. Ring-level broadcasts that pass a node, and O49: preparation leads to commitment. -/

namespace Sys2Proof.Machine

open Sys2Proof

/-! ## Ring-level broadcasts that pass (R393, R395) -/

theorem startingUp_ringCounted (n : Nat) (s : State) : startingUp (ringCounted n s) = startingUp s := by
  rw [startingUp, ringCounted_dev, startingUp]

/-- A well-formed broadcast is taken by a unit of this node, and its payload goes on with the node's bit. -/
theorem levelAt_levelMsg {cls : Nat} {ws : List Word} (hcls : cls < 256) (h31 : cls ≠ 0x31) (hlen : ws.length = levelLength cls)
    (hshort : ws.length < 4096) (o : RingOrigin) (origin svc : Nat) (s : State) : levelAt o (levelMsg origin cls svc ws) s =
      (levelBits cls (ws.map (tw .data)) (levelCopy o cls ws s), levelCopy o cls ws s) := by
  have hc := levelMsg_cls hcls origin svc ws
  have hl := levelMsg_len hshort origin cls svc
  have hstatus : (levelMsg origin cls svc ws).status = 0 := rfl
  have hpay : (levelMsg origin cls svc ws).payload = ws.map (tw .data) := rfl
  have hdata : (ws.map (tw .data)).map (·.data) = ws := by
    rw [List.map_map]
    exact List.map_id _
  unfold levelAt
  rw [hc, hl, hstatus, hpay, wordsFail_data, hdata, if_neg (by decide), if_neg (by simp [hlen]), if_neg (by decide), if_neg h31]

/-- A ring-level broadcast of another node is taken here and goes on, with the bit of this node where it has one. -/
theorem levelArrives_passes {s : State} {origin cls svc : Nat} {ws : List Word} (hp : RingPasses origin s)
    (hcls : ringLevelClass cls = true) (hbyte : cls < 256) (h31 : cls ≠ 0x31) (hsvc : svc < 2 ^ 20) (hlen : ws.length = levelLength cls)
    (hshort : ws.length < 4096) :
    let t := levelCopy ⟨origin, 3, svc⟩ cls ws (ringCounted (ws.length + 3) s)
    levelArrives origin cls svc ws s = ringForward (originChar origin 3 svc) ([headWord cls origin ws.length,
      tw .data (W (0xBFF00000 + svc))] ++ levelBits cls (ws.map (tw .data)) t ++ [trailer 0]) t := by
  obtain ⟨hserved, hin, hown, ho, -⟩ := hp
  have hlevel : ringLevelClass (levelMsg origin cls svc ws).cls = true := by rw [levelMsg_cls hbyte, hcls]
  rw [levelArrives_eq hserved hin, ringHandle_broadcast (by simpa using hown) (by simpa using ho) (fld_levelMsg_route hsvc ..) hlevel,
    levelAt_levelMsg hbyte h31 hlen hshort]
  rfl

/-- Of these classes the payload goes on as it came. -/
theorem levelArrives_forwards {s : State} {origin cls svc : Nat} {ws : List Word} (hp : RingPasses origin s)
    (hcls : ringLevelClass cls = true) (hbyte : cls < 256) (h31 : cls ≠ 0x31) (h40 : cls ≠ 0x40) (hsvc : svc < 2 ^ 20)
    (hlen : ws.length = levelLength cls) (hshort : ws.length < 4096) : levelArrives origin cls svc ws s =
      levelForward origin cls svc ws (levelCopy ⟨origin, 3, svc⟩ cls ws (ringCounted (ws.length + 3) s)) := by
  have hbits (t : State) : levelBits cls (ws.map (tw .data)) t = ws.map (tw .data) := by
    unfold levelBits
    split
    · exact absurd rfl h31
    · exact absurd rfl h40
    · rfl
  rw [levelArrives_passes hp hcls hbyte h31 hsvc hlen hshort, hbits, levelForward, levelWords, message,
    List.length_map]

theorem join64_lo32_hi32 (m : BitVec 64) : join64 (lo32 m) (hi32 m) = m := by
  have h := rd64_wr64 P.UPD R.UPD_T_LO m State.reset (by decide)
  rwa [rd64, wr64, rd_wr_same, rd_wr_other (rkey_off (by decide)), rd_wr_same] at h

/-! ## What preparation keeps -/

theorem RegsIoOnly.upd {s t : State} (h : RegsIoOnly s t) : t.upd = s.upd := by rw [h]

theorem pointer_activationEnds (s : State) : (activationEnds s).upd.pointer = s.upd.pointer := by
  have hdrop : (dropStaging s).upd = s.upd :=
    (sameBut_dropStaging (ps := [.regs, .rgns, .fox, .io]) (by decide) s s).2 (sameBut_refl _ s) .upd (by decide)
  unfold activationEnds
  split
  · rfl
  · show (irq P.UPD 3 (mdUpd _ _)).upd.pointer = _
    rw [(regsIoOnly_irq ..).upd]
    show (dropStaging s).upd.pointer = s.upd.pointer
    rw [hdrop]

/-- An update that was prepared, or ready, goes back to VERIFIED with ARM_TIMEOUT. -/
theorem activationEnds_verified {s : State} (h : updState s = U.VERIFIED ∨ updState s = U.READY) :
    updState (activationEnds s) = U.VERIFIED ∧ (activationEnds s).upd.arming = none ∧
      rdf P.UPD R.UPD_STAT 31 24 (activationEnds s) = E.ARM_TIMEOUT := by
  have heq : ∃ f : Upd → Upd, (∀ u, (f u).arming = none) ∧ activationEnds s = irq P.UPD 3 (mdUpd f (updCode E.ARM_TIMEOUT
      (setUpdState U.VERIFIED (updHold false (dropStaging s))))) := by
    unfold activationEnds
    rw [if_neg (by rintro ⟨h1, h2⟩; exact h.elim h1 h2)]
    exact ⟨_, fun _ => rfl, rfl⟩
  obtain ⟨f, hf, heq⟩ := heq
  have hirq (u : State) : rdf P.UPD R.UPD_STAT 31 24 (irq P.UPD 3 u) = rdf P.UPD R.UPD_STAT 31 24 u := by
    rw [rdf, rd_irq_off (noPba_page (by decide) (by decide)) (rkey_off (by decide)), rdf]
  have hmd (u : State) : rdf P.UPD R.UPD_STAT 31 24 (mdUpd f u) = rdf P.UPD R.UPD_STAT 31 24 u := rfl
  rw [heq]
  refine ⟨?_, ?_, ?_⟩
  · rw [updState_irq, updState_mdUpd, updState_updCode, updState_setUpdState (by decide)]
  · rw [(regsIoOnly_irq ..).upd]
    exact hf _
  · rw [hirq, hmd, rdf_code_updCode]
    rfl

/-- What is done to the regions of a set writes pages of regions alone. -/
theorem rd_upd_foldl_regions {o : Nat} {f : State → Nat → State}
    (hf : ∀ t r, P.RGN r ≠ P.UPD → rd P.UPD o (f t r) = rd P.UPD o t) (m : BitVec 64) (s : State) :
    rd P.UPD o ((maskList m).foldl f s) = rd P.UPD o s := by
  have hpage : ∀ r ∈ maskList m, P.RGN r ≠ P.UPD := by
    intro r hr
    have hlt : r < 64 := List.mem_range.1 (List.mem_filter.1 hr).1
    simp only [P.RGN, P.UPD]
    omega
  generalize maskList m = rs at hpage
  induction rs generalizing s with
  | nil => rfl
  | cons r rs ih =>
    rw [List.foldl_cons, ih _ fun q hq => hpage q (List.mem_cons_of_mem _ hq), hf _ _ (hpage r List.mem_cons_self)]

theorem rd_upd_foldl_swapState {o : Nat} (ho : o < 4096) (n : Nat) (m : BitVec 64) (s : State) :
    rd P.UPD o ((maskList m).foldl (fun t r => swapState n r t) s) = rd P.UPD o s :=
  rd_upd_foldl_regions (fun _ r hr =>
    rd_wrf_other (rkey_page (q := P.RGN r) (o' := R.RGN_SWAP_STATE) hr.symm ho (by decide)) ..) m s

theorem rd_upd_armUpdate {o : Nat} (ho : o < 4096) (s : State) : rd P.UPD o (armUpdate s) = rd P.UPD o s := by
  unfold armUpdate
  extract_lets m t0 u
  split
  · rfl
  · exact rd_upd_foldl_swapState ho 1 m s

theorem arming_armUpdate (s : State) : (armUpdate s).upd.arming = s.upd.arming := by
  have hswap (m : BitVec 64) : ((maskList m).foldl (fun t r => swapState 1 r t) s).upd = s.upd :=
    (sameBut_foldl_iff (l := [.regs]) (fun t r => by simp (disch := decide)) s (maskList m) s).2 (sameBut_refl _ s) .upd (by decide)
  unfold armUpdate
  extract_lets m t0 u
  split
  · rfl
  · show u.upd.arming = s.upd.arming
    rw [hswap m]

/-- A READY device records its commitment for T. -/
theorem commitServed_ready {m t0 : BitVec 64} {s : State} (hs : updState s = U.READY) (hv : holdsVerified m s = true)
    (hm : (latestPointer s).activeManifest ≠ m) : updState (commitServed m t0 s) = U.COMMITTED ∧
      rd64 P.UPD R.UPD_T_LO (commitServed m t0 s) = t0 ∧ (commitServed m t0 s).upd.arming = none := by
  have heq : commitServed m t0 s = armUpdate (mdUpd (fun u => { u with arming := none })
      (setUpdState U.COMMITTED (wr64 P.UPD R.UPD_T_LO t0 s))) := by
    unfold commitServed
    dsimp only
    rw [if_neg (by simp [hm, hs]), if_pos (by simp [hv, hs])]
    unfold commitLocal
    rw [hs]
    rfl
  rw [heq]
  refine ⟨?_, ?_, ?_⟩
  · rw [updState_of_rd (rd_upd_armUpdate (by decide) _), updState_mdUpd, updState_setUpdState (by decide)]
  · have hmd (f : Upd → Upd) (u : State) (o : Nat) : rd P.UPD o (mdUpd f u) = rd P.UPD o u := rfl
    have h := rd64_wr64 P.UPD R.UPD_T_LO t0 s (by decide)
    rw [rd64] at h ⊢
    rw [rd_upd_armUpdate (by decide), rd_upd_armUpdate (by decide), hmd, hmd, setUpdState, rd_wrf_other (rkey_off (by decide)),
      rd_wrf_other (rkey_off (by decide)), h]
  · rw [arming_armUpdate]
    rfl

/-! ## Activation at T -/

theorem rd_upd_resource {o : Nat} (ho : o < 4096) (old new : Bool) (m : BitVec 64) (s : State) :
    rd P.UPD o (resource old new m s) = rd P.UPD o s := by
  unfold resource
  refine rd_upd_foldl_regions (fun t r hr => ?_) m s
  dsimp only
  split
  · exact rd_wr_other (rkey_page (q := P.RGN r) (o' := R.RGN_ACTIVE_SRC) hr.symm ho (by decide)) ..
  · rfl

/-- At T the pairs change places in the pointer, and the trial begins. -/
theorem activationTime_activates {s : State} (hs : updState s = U.COMMITTED) (hm : s.dev.mode = .run) (ha : s.upd.swapArmed = true)
    (ht : rd64 P.UPD R.UPD_T_LO s ≤ s.time.ringTime) : ∃ p, updState (activationTime s) = U.ACTIVATING ∧
      (activationTime s).upd.ptrWrite = s.upd.ptrWrite ++ [(.activate, p)] ∧
      p.activeB = !(latestPointer s).activeB ∧ p.trial = true ∧ p.attempts = 0 ∧
      p.activeManifest = (latestPointer s).otherManifest ∧ p.otherManifest = (latestPointer s).activeManifest := by
  have heq : ∃ (f : BootPointer → BootPointer) (old new : Bool) (keep : BitVec 64), activationTime s = writePointer .activate f
      (mdUpd (fun u => { u with resourced := keep }) (resource old new keep (setUpdState U.ACTIVATING s))) ∧
      ∀ q, (f q).activeB = !q.activeB ∧ (f q).trial = true ∧ (f q).attempts = 0 ∧ (f q).activeManifest = q.otherManifest ∧
        (f q).otherManifest = q.activeManifest := by
    have hlate : ¬ringTime s < rd64 P.UPD R.UPD_T_LO s := BitVec.not_lt.2 ht
    unfold activationTime
    rw [if_neg (by simp [hs, hm, hlate])]
    dsimp only
    rw [if_pos ha, if_neg (by simp [ha])]
    exact ⟨_, _, _, _, rfl, fun _ => ⟨rfl, rfl, rfl, rfl, rfl⟩⟩
  obtain ⟨f, old, new, keep, heq, hf⟩ := heq
  have hupd : (resource old new keep (setUpdState U.ACTIVATING s)).upd = s.upd :=
    (sameBut_resource (ps := [.regs]) (by decide) _ old new keep _).2 (sameBut_refl _ _) .upd (by decide)
  generalize hu : resource old new keep (setUpdState U.ACTIVATING s) = u at heq hupd
  have hlatest : latestPointer (mdUpd (fun u => { u with resourced := keep }) u) = latestPointer s := by
    have hmd : latestPointer (mdUpd (fun u => { u with resourced := keep }) u) = latestPointer u := rfl
    rw [hmd, latestPointer, hupd, latestPointer]
  rw [heq]
  refine ⟨f (latestPointer s), ?_, ?_, hf _⟩
  · rw [updState_writePointer, updState_mdUpd, ← hu, updState_of_rd (rd_upd_resource (by decide) ..), updState_setUpdState (by decide)]
  · show u.upd.ptrWrite ++ [(.activate, f (latestPointer (mdUpd _ u)))] = _
    rw [hlatest, hupd]

/-! ## The leader's ARM -/

/-- ARM that is back with every bit in time commits. -/
theorem armReturned_commits {m d : BitVec 64} {bitmap : List Word} {s : State} (ha : s.upd.arming = some (m, d))
    (hl : ringLeader s = true) (hc : s.upd.commitSent = false) (hd : s.time.ringTime ≤ d) (hr : readyFor m s = true)
    (hall : ∀ n ∈ enumeratedNodes s, (bitmapOf bitmap).getLsbD n = true) : let t := armReturned bitmap s
    t.upd.arming = none ∧ t.upd.commitSent = true ∧ t.upd.ptrWrite = s.upd.ptrWrite ++ [(.committed, { latestPointer s with
      committed := true
      commitT := s.time.ringTime + 1400000 + BitVec.ofNat 64 ((rd P.UPD R.UPD_COMMIT_LEAD s).toNat * 1000) })] := by
  have heq : armReturned bitmap s = writePointer .committed
      (fun p => { p with committed := true, commitT := leadFrom (ringTime s + 1400000) s })
      (setUpd { s.upd with readyMap := bitmapOf bitmap, commitSent := true, arming := none } s) := by
    have hback : ((enumeratedNodes s).all (fun n => (bitmapOf bitmap).getLsbD n) && ringTime s ≤ d && readyFor m s) = true := by
      rw [List.all_eq_true.2 hall, hr]
      simp [ringTime, hd]
    unfold armReturned
    rw [ha]
    dsimp only
    rw [if_neg (by simp [hl, hc]), if_pos hback]
    rfl
  rw [heq]
  exact ⟨rfl, rfl, rfl⟩

theorem serveActivate_entering {s : State} (he : entering s = true) : serveActivate s = (E.ENTRY_REFUSED, [], s) := by
  unfold serveActivate
  exact if_pos he

theorem serveActivate_refused {s : State} (he : entering s = false) (h : ringLeader s = false ∨ updState s ≠ U.VERIFIED) :
    serveActivate s = (E.PERM_FAULT, [], s) := by
  unfold serveActivate
  dsimp only
  rw [if_neg (by simp [he]), if_pos (by rcases h with h | h <;> simp [h])]

theorem serveActivate_arms {s : State} (he : entering s = false) (hl : ringLeader s = true) (hs : updState s = U.VERIFIED)
    (hv : holdsVerified s.upd.pointer.otherManifest s = true) (ha : s.upd.arming = none) :
    serveActivate s = (0, [], sendArm (armServed s.upd.pointer.otherManifest
      (s.time.ringTime + BitVec.ofNat 64 ((rd P.UPD R.UPD_ARM_DEADLINE s).toNat * 1000000))
      (setUpd { s.upd with readyMap := 0, commitSent := false } s))) := by
  unfold serveActivate
  dsimp only
  rw [if_neg (by simp [he]), if_neg (by simp [hl, hs, hv, ha])]
  rfl

theorem updateReady_ready {s : State} (he : entering s = false) (hs : updState (pointerUpkeep s) = U.VERIFIED)
    (ha : (pointerUpkeep s).upd.arming.isSome = true) (hr : readyNow (pointerUpkeep s) = true) : updateReady s =
      irq P.UPD 1 (wrf P.UPD R.UPD_STAT 11 11 1 (wrf P.UPD R.UPD_STAT 3 0 U.READY (pointerUpkeep s))) := by
  unfold updateReady
  dsimp only
  rw [if_neg (by simp [he]), if_pos ⟨hs, ha, hr⟩]
  rfl

/-- Settles O49: each command and message of the preparation by its cases; the broadcasts pass on as every ring-level
message does. -/
theorem preparationLeadsToCommitment : Obligations.PreparationLeadsToCommitment := by
  intro s
  refine ⟨fun h hask he => congrArg Host.Outcome.next (mbxServed_answers hask (serveActivate_entering he)),
    fun h hask he => ⟨fun hl hs hv ha => congrArg Host.Outcome.next (mbxServed_answers hask (serveActivate_arms he hl hs hv ha)),
      fun hr => congrArg Host.Outcome.next (mbxServed_answers hask (serveActivate_refused he hr))⟩,
    fun origin ws hp hlen => ?_, fun m d ha => ⟨fun hl hc hd => ?_, fun hl => ?_, fun hd => ?_, fun hl hd hs => ?_,
      fun bitmap hl hc hd hr hall => ⟨_, rfl, armReturned_commits ha hl hc hd hr hall⟩⟩,
    fun he hs ha hr => congrArg Host.Outcome.next (updateReady_ready he hs ha hr), fun origin m t0 hp => ?_,
    fun m t0 hs hv hm => commitServed_ready hs hv hm, fun hs hm ha => ⟨fun ht => ?_, fun ht => ?_⟩, fun origin m reason hp => ?_,
    fun m hs => ⟨fun hm => ?_, fun hm => ?_⟩⟩
  · have hpass := levelArrives_passes (cls := 0x40) (svc := 6) (ws := ws) hp (by decide) (by decide) (by decide) (by decide) hlen
      (by omega)
    have hup : startingUp (ringCounted (ws.length + 3) s) = false := (startingUp_ringCounted ..).trans hp.2.2.2.2
    have hcopy : levelCopy ⟨origin.toNat, 3, 6⟩ 0x40 ws (ringCounted (ws.length + 3) s) =
        armServed (join64 (ws.getD 0 0) (ws.getD 1 0)) (join64 (ws.getD 2 0) (ws.getD 3 0)) (ringCounted (ws.length + 3) s) := by
      unfold levelCopy
      exact if_neg (by simp [hup])
    rw [hcopy, hlen] at hpass
    exact congrArg Host.Outcome.next hpass
  · refine congrArg Host.Outcome.next ?_
    unfold armRepeat
    rw [ha]
    exact if_pos (by simp [hl, hc, ringTime, hd])
  · refine congrArg Host.Outcome.next ?_
    unfold armRepeat
    rw [ha]
    exact if_neg (by simp [hl])
  · refine congrArg Host.Outcome.next ?_
    unfold armDeadline
    rw [ha]
    exact if_pos (by simp [ringTime, hd])
  · have heq : armDeadline s = activationEnds s := by
      have hlate : ¬ringTime s ≤ d := BitVec.not_le.2 hd
      unfold armDeadline
      rw [ha]
      exact (if_neg (by simp [hlate, hl])).trans (if_neg (by simp [hl]))
    obtain ⟨hstate, harming, hcode⟩ := activationEnds_verified hs
    exact ⟨_, congrArg Host.Outcome.next heq, hstate, harming, hcode, pointer_activationEnds s⟩
  · have hup : startingUp (ringCounted 7 s) = false := (startingUp_ringCounted ..).trans hp.2.2.2.2
    have hcopy : levelCopy ⟨origin.toNat, 3, 6⟩ 0x41 [lo32 m, hi32 m, lo32 t0, hi32 t0] (ringCounted 7 s) =
        commitServed m t0 (ringCounted 7 s) := by
      unfold levelCopy
      rw [if_neg (by simp [hup]), ← join64_lo32_hi32 m, ← join64_lo32_hi32 t0]
      simp [join64_lo32_hi32]
    rw [← hcopy]
    exact congrArg Host.Outcome.next
      (levelArrives_forwards hp (by decide) (by decide) (by decide) (by decide) (by decide) rfl (by decide : 4 < 4096))
  · obtain ⟨p, hact⟩ := activationTime_activates hs hm ha ht
    exact ⟨_, p, rfl, hact⟩
  · refine congrArg Host.Outcome.next ?_
    unfold activationTime
    exact if_pos (.inr (.inl ht))
  · have hup : startingUp (ringCounted 6 s) = false := (startingUp_ringCounted ..).trans hp.2.2.2.2
    have hcopy : levelCopy ⟨origin.toNat, 3, 6⟩ 0x42 [lo32 m, hi32 m, reason] (ringCounted 6 s) =
        abortServed m (ringCounted 6 s) := by
      unfold levelCopy
      rw [if_neg (by simp [hup])]
      simp [join64_lo32_hi32]
    rw [← hcopy]
    exact congrArg Host.Outcome.next
      (levelArrives_forwards hp (by decide) (by decide) (by decide) (by decide) (by decide) rfl (by decide : 3 < 4096))
  · unfold abortServed
    exact if_neg fun h => hm h.2
  · have heq : abortServed m s = activationEnds s := by
      unfold abortServed
      exact if_pos ⟨.inl hs, hm⟩
    obtain ⟨hstate, harming, -⟩ := activationEnds_verified (.inr hs)
    rw [heq]
    exact ⟨hstate, harming, pointer_activationEnds s⟩

end Sys2Proof.Machine

/-! PROOFS. O50: trials are confirmed or fall back. -/

namespace Sys2Proof.Machine

open Sys2Proof

/-! ## The steward's requests leave the registers -/

/-- The words that a unit sends into the crossbar are counted in no register. -/
theorem rd_send_svcUp (q o : Nat) (i : Fin 7) (ws : List TWord) (s : State) : rd q o (send (.svcUp i) ws s) = rd q o s := by
  have hpump (u : State) : rd q o (pump (.svcUp i) u) = rd q o u := by
    have hcount (n : Nat) (v : State) : countLaunched (.svcUp i) n v = v := by
      unfold countLaunched
      split <;> rfl
    unfold pump
    dsimp only
    split_ifs
    · rfl
    · rfl
    · rfl
    · rfl
    · rw [hcount]
      rfl
  unfold send sendAs
  dsimp only
  rw [hpump]
  rfl

theorem rd_stewardAsks (q o : Nat) (ws : List TWord) (s : State) : rd q o (stewardAsks ws s) = rd q o s := by
  unfold stewardAsks
  rw [rd_send_svcUp]
  rfl

theorem rd_askConfirm (q o node : Nat) (s : State) : rd q o (askConfirm node s) = rd q o s := by
  unfold askConfirm remoteCommand
  rw [rd_stewardAsks, rd_stewardAsks, rd_stewardAsks]

/-- Asking a node to confirm adds to the replies awaited and to nothing else of an update. -/
theorem upd_askConfirm (node : Nat) (s : State) : (askConfirm node s).upd.ptrWrite = s.upd.ptrWrite ∧
    (askConfirm node s).upd.pointer = s.upd.pointer := by
  unfold askConfirm remoteCommand
  simp only [upd_stewardAsks, and_self]

/-- Every node of a list is asked to confirm. -/
def askAll (nodes : List Nat) (s : State) : State := nodes.foldl (fun t n => askConfirm n t) s

theorem askAll_cons (n : Nat) (nodes : List Nat) (s : State) : askAll (n :: nodes) s = askAll nodes (askConfirm n s) :=
  List.foldl_cons ..

theorem askAll_keeps (nodes : List Nat) (s : State) : updState (askAll nodes s) = updState s ∧
    (askAll nodes s).upd.ptrWrite = s.upd.ptrWrite ∧ (askAll nodes s).upd.pointer = s.upd.pointer := by
  induction nodes generalizing s with
  | nil => exact ⟨rfl, rfl, rfl⟩
  | cons n nodes ih =>
    obtain ⟨hs, hw, hp⟩ := ih (askConfirm n s)
    obtain ⟨hw', hp'⟩ := upd_askConfirm n s
    have hs' : updState (askConfirm n s) = updState s := updState_of_rd (rd_askConfirm _ _ n s)
    rw [askAll_cons]
    exact ⟨hs.trans hs', hw.trans hw', hp.trans hp'⟩

theorem latestPointer_of_upd {s t : State} (hw : t.upd.ptrWrite = s.upd.ptrWrite) (hp : t.upd.pointer = s.upd.pointer) :
    latestPointer t = latestPointer s := by
  rw [latestPointer, hw, hp, latestPointer]

/-! ## CONFIRM -/

/-- The pointer that ends a trial. -/
def trialOver (p : BootPointer) : BootPointer := { p with trial := false, attempts := 0 }

theorem serveConfirm_noTrial {h : Half} {s : State} (hs : updState s ≠ U.TRIAL) : serveConfirm h s = (E.PERM_FAULT, [], s) := by
  unfold serveConfirm
  exact if_pos hs

theorem serveConfirm_late {h : Half} {s : State} (hs : updState s = U.TRIAL) (hl : ringLeader s = true)
    (hw : windowEnd s ≤ s.time.ringTime) : serveConfirm h s = (E.PERM_FAULT, [], s) := by
  unfold serveConfirm
  exact (if_neg (by simp [hs])).trans ((if_pos hl).trans (if_pos hw))

theorem serveConfirm_notHost {s : State} (hs : updState s = U.TRIAL) (hl : ringLeader s = false) :
    serveConfirm .hostHalf s = (E.PERM_FAULT, [], s) := by
  unfold serveConfirm
  exact (if_neg (by simp [hs])).trans ((if_neg (by simp [hl])).trans (if_pos rfl))

theorem serveConfirm_follower {s : State} (hs : updState s = U.TRIAL) (hl : ringLeader s = false) :
    serveConfirm .fabricHalf s = (0, [], writePointer .confirm trialOver (setUpdState U.CONFIRMING s)) := by
  unfold serveConfirm
  exact (if_neg (by simp [hs])).trans ((if_neg (by simp [hl])).trans (if_neg (by decide)))

/-- The leader asks every other node, and its own pointer ends the trial. -/
theorem serveConfirm_leader {h : Half} {s : State} (hs : updState s = U.TRIAL) (hl : ringLeader s = true)
    (hw : s.time.ringTime < windowEnd s) : ∃ t, serveConfirm h s = (0, [], t) ∧ updState t = U.CONFIRMING ∧
      t.upd.confirming = (enumeratedNodes s).filter (fun n => n != ownNode s) ∧
      t.upd.ptrWrite = s.upd.ptrWrite ++ [(.confirm, trialOver (latestPointer s))] := by
  have hearly : ¬windowEnd s ≤ ringTime s := BitVec.not_le.2 hw
  have heq : serveConfirm h s = (0, [], writePointer .confirm trialOver (mdUpd (fun u => { u with
      confirming := (enumeratedNodes s).filter fun n => n != ownNode s })
      (askAll ((enumeratedNodes s).filter fun n => n != ownNode s) (setUpdState U.CONFIRMING s)))) := by
    unfold serveConfirm
    exact (if_neg (by simp [hs])).trans ((if_pos hl).trans (if_neg hearly))
  obtain ⟨hstate, hwrite, hptr⟩ := askAll_keeps ((enumeratedNodes s).filter fun n => n != ownNode s) (setUpdState U.CONFIRMING s)
  generalize askAll ((enumeratedNodes s).filter fun n => n != ownNode s) (setUpdState U.CONFIRMING s) = u
    at heq hstate hwrite hptr
  refine ⟨_, heq, ?_, rfl, ?_⟩
  · rw [updState_writePointer, updState_mdUpd, hstate, updState_setUpdState (by decide)]
  · show u.upd.ptrWrite ++ [(.confirm, trialOver (latestPointer (mdUpd _ u)))] = _
    have hlatest : latestPointer (mdUpd (fun u => { u with
        confirming := (enumeratedNodes s).filter fun n => n != ownNode s }) u) = latestPointer u := rfl
    rw [hlatest, latestPointer_of_upd hwrite hptr, hwrite]
    rfl

/-! ## Fallback -/

theorem serveFallbackRequest_ordered {s : State} (hl : ringLeader s = true) (hs : updState s = U.TRIAL) :
    serveFallbackRequest s = (0, [], orderFallback 2 s) := by
  unfold serveFallbackRequest
  exact if_neg (by simp [hl, hs])

theorem serveFallbackRequest_refused {s : State} (hl : ringLeader s = false) : serveFallbackRequest s = (E.PERM_FAULT, [], s) := by
  unfold serveFallbackRequest
  exact if_pos (by simp [hl])

/-- What a fallback from the manifest m makes of the pointer. -/
def fallbackPointer (m : BitVec 64) (p : BootPointer) : BootPointer :=
  if p.activeManifest = m then
    { p with
      activeB := !p.activeB
      trial := false
      attempts := 0
      settingsB := !p.settingsB
      committed := false
      activeManifest := p.otherManifest
      otherManifest := p.activeManifest }
  else { p with trial := false, committed := false, otherVerified := false }

/-- In a trial a fallback writes its pointer and swaps nothing back yet. -/
theorem fallBack_trial {m : BitVec 64} {s : State} (hs : updState s = U.TRIAL) :
    (fallBack m s).upd.ptrWrite = s.upd.ptrWrite ++ [(.fallback, fallbackPointer m (latestPointer s))] := by
  have hupd : (irq P.UPD 4 (err P.UPD E.FALLBACK 0 0 (updCode E.FALLBACK s))).upd = s.upd := by
    rw [(regsIoOnly_irq ..).upd, (regsIoOnly_err ..).upd]
    rfl
  have heq : fallBack m s = mdUpd (fun u => { u with arming := none, confirming := [], attemptDue := false })
      (writePointer .fallback (fallbackPointer m) (irq P.UPD 4 (err P.UPD E.FALLBACK 0 0 (updCode E.FALLBACK s)))) := by
    unfold fallBack undoSwap
    rw [hs]
    rfl
  generalize irq P.UPD 4 (err P.UPD E.FALLBACK 0 0 (updCode E.FALLBACK s)) = u at heq hupd
  rw [heq]
  show u.upd.ptrWrite ++ [(.fallback, fallbackPointer m (latestPointer u))] = _
  rw [latestPointer_of_upd (congrArg Upd.ptrWrite hupd) (congrArg Upd.pointer hupd), hupd]

theorem fallbackServed_trial {m : BitVec 64} {s : State} (hs : updState s = U.TRIAL) (hm : (latestPointer s).activeManifest = m) :
    fallbackServed m s = fallBack m s := by
  unfold fallbackServed
  exact (if_neg (by rw [hs]; decide)).trans (if_pos ⟨.inl hs, hm⟩)

/-! ## Pointer writes -/

/-- A pointer that programs is taken with the next sequence number. -/
theorem programPointer_takes {p : BootPointer} {s t : State} (h : programPointer p s = some t) :
    t.upd.pointer.seq = s.upd.pointer.seq + 1 ∧ t.upd.pointer.activeB = p.activeB ∧ t.upd.pointer.activeManifest = p.activeManifest := by
  have hkeep (u : State) : (pointerUpkeep u).upd = u.upd :=
    (sameBut_pointerUpkeep (ps := [.regs, .flash]) (by decide) u u).2 (sameBut_refl _ u) .upd (by decide)
  unfold programPointer at h
  extract_lets map old q s1 x at h
  split at h
  · cases h
  · split at h
    · cases h
    · obtain rfl := Option.some.inj h
      rw [hkeep]
      exact ⟨rfl, rfl, rfl⟩

theorem pointerWritten_programs {why : PtrFor} {p : BootPointer} {rest : List (PtrFor × BootPointer)} {s t : State}
    (hw : s.upd.ptrWrite = (why, p) :: rest) (ht : programPointer p s = some t) :
    pointerWritten s = afterPointer why s.upd.pointer (setUpd { t.upd with ptrWrite := rest } t) := by
  unfold pointerWritten
  rw [hw]
  dsimp only
  rw [ht]
  rfl

theorem pointerWritten_waits {why : PtrFor} {p : BootPointer} {rest : List (PtrFor × BootPointer)} {s : State}
    (hw : s.upd.ptrWrite = (why, p) :: rest) (ht : programPointer p s = none) : pointerWritten s = pointerUpkeep s := by
  unfold pointerWritten
  rw [hw]
  dsimp only
  rw [ht]

theorem pointerWritten_none {s : State} (hw : s.upd.ptrWrite = []) : pointerWritten s = s := by
  unfold pointerWritten
  rw [hw]

/-! ## The handover -/

/-- A cold steward answers its mailboxes and changes nothing of the update unit. -/
theorem coldMailbox_keeps (s : State) : SameBut [.regs, .io] s (coldMailbox s) ∧
    rd P.UPD R.UPD_STAT (coldMailbox s) = rd P.UPD R.UPD_STAT s := by
  have hone (h : Half) (u : State) (hu : SameBut [.regs, .io] s u ∧ rd P.UPD R.UPD_STAT u = rd P.UPD R.UPD_STAT s) :
      SameBut [.regs, .io] s (if mbxBusy h u then respond h E.ABSENT_TARGET [] u else u) ∧
        rd P.UPD R.UPD_STAT (if mbxBusy h u then respond h E.ABSENT_TARGET [] u else u) = rd P.UPD R.UPD_STAT s := by
    split
    · exact ⟨(sameBut_respond (ps := [.regs, .io]) (by decide) s h E.ABSENT_TARGET [] u).2 hu.1,
        (rd_upd_respond (by decide) ..).trans hu.2⟩
    · exact hu
  exact hone .fabricHalf _ (hone .hostHalf s ⟨sameBut_refl _ s, rfl⟩)

/-- The firmware has jumped: the pair that runs is that of the pointer, and a cold steward has answered. -/
def jumped (cold : Bool) (s : State) : State :=
  let t := wrf P.UPD R.UPD_STAT 9 9 (b2n cold)
    (mdUpd (fun u => { u with running := s.upd.pointer.activeB, handoverDue := false, arming := none }) s)
  if cold then coldMailbox t else t

theorem jumped_keeps (cold : Bool) (s : State) :
    (jumped cold s).upd = { s.upd with running := s.upd.pointer.activeB, handoverDue := false, arming := none } ∧
      (jumped cold s).store = s.store ∧ (jumped cold s).flash = s.flash ∧
      rdf P.UPD R.UPD_STAT 9 9 (jumped cold s) = b2n cold := by
  have hbit (u : State) : rdf P.UPD R.UPD_STAT 9 9 (wrf P.UPD R.UPD_STAT 9 9 (b2n cold) u) = b2n cold := by
    rw [rdf_wrf_same (by decide)]
    cases cold <;> rfl
  cases cold with
  | false => exact ⟨rfl, rfl, rfl, hbit _⟩
  | true =>
    obtain ⟨hsame, hrd⟩ := coldMailbox_keeps (wrf P.UPD R.UPD_STAT 9 9 (b2n true)
      (mdUpd (fun u => { u with running := s.upd.pointer.activeB, handoverDue := false, arming := none }) s))
    refine ⟨hsame .upd (by decide), hsame .store (by decide), hsame .flash (by decide), ?_⟩
    exact (congrArg (fun w => fld 9 9 w) hrd).trans (hbit _)

/-- Bit 9 of STAT, the record lost, is none of the fields that a handover writes after it. -/
theorem rdf_lost_wrf {hi lo : Nat} (h : 9 < lo ∨ hi < 9) (n : Nat) (s : State) :
    rdf P.UPD R.UPD_STAT 9 9 (wrf P.UPD R.UPD_STAT hi lo n s) = rdf P.UPD R.UPD_STAT 9 9 s := by
  rw [rdf, wrf, rd_md_same, fld_setFld_other (by omega) (by omega), rdf]

/-- Outside a trial the handover leads to IDLE. -/
theorem handoverDone_idle {canRead : Bool} {s : State} (hd : s.upd.handoverDue = true) (ht : s.upd.pointer.trial = false) :
    handoverDone canRead s = setFwBanks false (updHold false (setUpdState U.IDLE (jumped (!(canRead && handoverIntact s)) s))) := by
  unfold handoverDone jumped
  rw [if_neg (by simp [hd])]
  dsimp only
  rw [if_neg (by simp [ht])]
  cases canRead && handoverIntact s <;> rfl

/-- Where the pointer says so, it begins the trial of the new firmware, with settings of its own. -/
theorem handoverDone_trial {canRead : Bool} {s : State} (hd : s.upd.handoverDue = true) (ht : s.upd.pointer.trial = true)
    (hr : s.upd.rollForward = false) : ∃ f : Upd → Upd, (∀ u, (f u).running = u.running ∧ (f u).handoverDue = u.handoverDue) ∧
      handoverDone canRead s = irq P.UPD 2 (mdUpd f (setFwBanks true (updCode 0 (updHold false (setUpdState U.TRIAL
        (newSettings s.upd.pointer.settingsB (jumped (!(canRead && handoverIntact s)) s))))))) := by
  generalize hc : (canRead && handoverIntact s) = c
  obtain ⟨hupd, -⟩ := jumped_keeps (!c) s
  have hsettings : (newSettings s.upd.pointer.settingsB (jumped (!c) s)).upd = (jumped (!c) s).upd :=
    (sameBut_newSettings (ps := [.flash, .free]) (by decide) _ _ _).2 (sameBut_refl _ _) .upd (by decide)
  have hroll (f : Upd → Upd) (hf : ∀ u, (f u).rollForward = u.rollForward) : (irq P.UPD 2 (mdUpd f (setFwBanks true
      (updCode 0 (updHold false (setUpdState U.TRIAL (newSettings s.upd.pointer.settingsB (jumped (!c) s)))))))).upd.rollForward =
      false := by
    rw [(regsIoOnly_irq ..).upd]
    refine (hf _).trans ((congrArg Upd.rollForward (hsettings.trans hupd)).trans hr)
  unfold handoverDone
  rw [if_neg (by simp [hd])]
  dsimp only
  rw [if_pos ht, hc]
  have hjump : (if c = true then wrf P.UPD R.UPD_STAT 9 9 (b2n !c)
      (mdUpd (fun u => { u with running := s.upd.pointer.activeB, handoverDue := false, arming := none }) s)
      else coldMailbox (wrf P.UPD R.UPD_STAT 9 9 (b2n !c)
        (mdUpd (fun u => { u with running := s.upd.pointer.activeB, handoverDue := false, arming := none }) s))) = jumped (!c) s := by
    unfold jumped
    cases c <;> rfl
  rw [hjump]
  refine ⟨_, ?_, if_neg ?_⟩
  · exact fun _ => ⟨rfl, rfl⟩
  · exact Bool.eq_false_iff.1 (hroll _ fun _ => rfl)

theorem rd_upd_setFwBanks {o : Nat} (ho : o < 4096) (b : Bool) (s : State) : rd P.UPD o (setFwBanks b s) = rd P.UPD o s :=
  rd_wr_other (rkey_page (by decide) ho (by decide)) ..

theorem handover_idle {canRead : Bool} {s : State} (hd : s.upd.handoverDue = true) (ht : s.upd.pointer.trial = false) :
    let t := handoverDone canRead s
    rdf P.UPD R.UPD_STAT 9 9 t = b2n (!(canRead && handoverIntact s)) ∧ t.upd.running = s.upd.pointer.activeB ∧
      t.upd.handoverDue = false ∧ t.store = s.store ∧ updState t = U.IDLE ∧ t.flash = s.flash ∧
      rd P.CDF R.CDF_FW_BANKS t = (if s.upd.pointer.activeB then 4 else 2) := by
  obtain ⟨hupd, hstore, hflash, hbit⟩ := jumped_keeps (!(canRead && handoverIntact s)) s
  dsimp only
  rw [handoverDone_idle hd ht]
  generalize jumped (!(canRead && handoverIntact s)) s = u at hupd hstore hflash hbit
  refine ⟨?_, congrArg Upd.running hupd, congrArg Upd.handoverDue hupd, hstore, ?_, hflash, ?_⟩
  · rw [rdf, rd_upd_setFwBanks (by decide), ← rdf, updHold,
      rdf_lost_wrf (by decide), setUpdState, rdf_lost_wrf (by decide), hbit]
  · rw [updState_of_rd (rd_upd_setFwBanks (by decide) ..), updState_updHold,
      updState_setUpdState (by decide)]
  · have hrun : (updHold false (setUpdState U.IDLE u)).upd.running = s.upd.pointer.activeB := congrArg Upd.running hupd
    rw [setFwBanks, rd_wr_same, hrun]
    cases s.upd.pointer.activeB <;> rfl

theorem handover_trial {canRead : Bool} {s : State} (hd : s.upd.handoverDue = true) (ht : s.upd.pointer.trial = true)
    (hr : s.upd.rollForward = false) : let t := handoverDone canRead s
    rdf P.UPD R.UPD_STAT 9 9 t = b2n (!(canRead && handoverIntact s)) ∧ t.upd.running = s.upd.pointer.activeB ∧
      t.upd.handoverDue = false ∧ t.store = s.store ∧ updState t = U.TRIAL ∧ rd P.CDF R.CDF_FW_BANKS t = 6 := by
  obtain ⟨f, hf, heq⟩ := handoverDone_trial (canRead := canRead) hd ht hr
  obtain ⟨hupd, hstore, -, hbit⟩ := jumped_keeps (!(canRead && handoverIntact s)) s
  dsimp only
  rw [heq]
  generalize jumped (!(canRead && handoverIntact s)) s = u at hupd hstore hbit
  have hsame : SameBut [.flash, .free] u (newSettings s.upd.pointer.settingsB u) :=
    (sameBut_newSettings (by decide) _ _ _).2 (sameBut_refl _ _)
  generalize newSettings s.upd.pointer.settingsB u = v at hsame
  have hvupd : v.upd = u.upd := hsame .upd (by decide)
  have hvregs : v.regs = u.regs := hsame .regs (by decide)
  have hvstore : v.store = u.store := hsame .store (by decide)
  have hmd (q o : Nat) (x : State) : rd q o (mdUpd f x) = rd q o x := rfl
  have hmdf (q o hi lo : Nat) (x : State) : rdf q o hi lo (mdUpd f x) = rdf q o hi lo x := rfl
  have hback : (irq P.UPD 2 (mdUpd f (setFwBanks true (updCode 0 (updHold false (setUpdState U.TRIAL v)))))).upd = f v.upd :=
    (regsIoOnly_irq ..).upd
  refine ⟨?_, ?_, ?_, ?_, ?_, ?_⟩
  · rw [rdf, rd_irq_off (noPba_page (by decide) (by decide)) (rkey_off (by decide)), ← rdf, hmdf, rdf,
      rd_upd_setFwBanks (by decide), ← rdf, updCode, rdf_lost_wrf (by decide), updHold,
      rdf_lost_wrf (by decide), setUpdState, rdf_lost_wrf (by decide), rdf, rd_of_regs hvregs, ← rdf, hbit]
  · rw [hback, (hf _).1, hvupd, hupd]
  · rw [hback, (hf _).2, hvupd, hupd]
  · have hirq (x : State) : (irq P.UPD 2 x).store = x.store := (sameBut_irq (ps := [.regs, .io]) (by decide) _ P.UPD 2 x).2
      (sameBut_refl _ x) .store (by decide)
    rw [hirq]
    exact hvstore.trans hstore
  · rw [updState_irq, updState_mdUpd, updState_of_rd (rd_upd_setFwBanks (by decide) ..),
      updState_updCode, updState_updHold, updState_setUpdState (by decide)]
  · rw [rd_irq_off (noPba_page (by decide) (by decide)) (rkey_page (by decide) (by decide) (by decide)), hmd, setFwBanks, rd_wr_same]
    rfl

/-! ## A node joins -/

theorem resendCommit_uncommitted {s : State} (hc : s.upd.pointer.committed = false) : resendCommit s = s := by
  unfold resendCommit
  exact if_neg (by simp [hc])

/-- At a leader that has no commitment to repeat, a joining node is met by its manifests. -/
theorem nodeJoined_eq {node : Nat} {a o : BitVec 64} {boot : Word} {s : State} (hm : s.dev.mode = .run)
    (hl : ringLeader s = true) (hup : ringUp s = true) (hn : node ≠ ownNode s) (hc : s.upd.pointer.committed = false) :
    nodeJoined node a o boot s =
      if a = s.upd.pointer.activeManifest then s
      else if o = s.upd.pointer.activeManifest ∧ bit 5 boot = true ∧ bit 7 boot = false then
        sendCommit s.upd.pointer.activeManifest (leadFrom (ringTime s) s) s
      else if updState s = U.TRIAL then orderFallback (W (3 + node * 2 ^ 8)) s
      else err P.UPD E.ROLL_FORWARD node 0 s := by
  unfold nodeJoined
  rw [if_neg (by simp [hm]), if_neg (by simp [hm, hl, hup, hn]), resendCommit_uncommitted hc]

/-- Settles O50: the handover, each pointer write, CONFIRM, the fallbacks and a joining node by their cases. -/
theorem trialsAreConfirmedOrFallBack : Obligations.TrialsAreConfirmedOrFallBack := by
  intro s
  refine ⟨fun canRead hd hr => ?_, fun hm hs ha => ?_,
    fun why p rest t hw ht => ⟨congrArg Host.Outcome.next (pointerWritten_programs hw ht), programPointer_takes ht⟩,
    fun why p rest hw ht => congrArg Host.Outcome.next (pointerWritten_waits hw ht),
    fun hw => congrArg Host.Outcome.next (pointerWritten_none hw), fun h hask => ⟨fun hs => ?_, fun hs hl hh => ?_, fun hs hl hw => ?_,
      fun hs hl hw => ?_, fun hs hl hh => ?_⟩,
    fun hl hs => ⟨fun hw => ?_, fun hw => ?_, fun h hask => ?_⟩, fun hl h hask => ?_, fun origin m reason hp => ?_, fun m hs hm ha => ?_,
    fun node a o boot hm hl hup hn hc => ?_⟩
  · cases ht : s.upd.pointer.trial with
    | true =>
      obtain ⟨hbit, hrun, hdue, hstore, hstate, hbanks⟩ := handover_trial (canRead := canRead) hd ht hr
      exact ⟨_, rfl, hbit, hrun, hdue, hstore, fun _ => ⟨hstate, hbanks⟩, nofun⟩
    | false =>
      obtain ⟨hbit, hrun, hdue, hstore, hstate, hflash, hbanks⟩ := handover_idle (canRead := canRead) hd ht
      exact ⟨_, rfl, hbit, hrun, hdue, hstore, nofun, fun _ => ⟨hstate, hflash, hbanks⟩⟩
  · refine congrArg Host.Outcome.next ?_
    unfold attemptCount
    exact if_pos ⟨hm, ha, hs⟩
  · exact congrArg Host.Outcome.next (mbxServed_answers hask (serveConfirm_noTrial hs))
  · subst hh
    refine ⟨_, congrArg Host.Outcome.next (mbxServed_answers hask (serveConfirm_follower hs hl)), ?_, ?_⟩
    · rw [updState_respond, updState_writePointer, updState_setUpdState (by decide)]
    · rw [upd_respond]
      rfl
  · obtain ⟨t, heq, hstate, hconf, hwrite⟩ := serveConfirm_leader (h := h) hs hl hw
    refine ⟨_, congrArg Host.Outcome.next (mbxServed_answers hask heq), ?_, ?_, ?_⟩
    · rw [updState_respond, hstate]
    · rw [upd_respond, hconf]
    · rw [upd_respond, hwrite]
      rfl
  · exact congrArg Host.Outcome.next (mbxServed_answers hask (serveConfirm_late hs hl hw))
  · subst hh
    exact congrArg Host.Outcome.next (mbxServed_answers hask (serveConfirm_notHost hs hl))
  · refine congrArg Host.Outcome.next ?_
    unfold confirmWindowExpiry
    exact if_pos (by simp [hl, hs, ringTime, hw])
  · refine congrArg Host.Outcome.next ?_
    have hearly : ¬windowEnd s ≤ ringTime s := BitVec.not_le.2 hw
    unfold confirmWindowExpiry
    exact if_neg (by simp [hearly])
  · exact congrArg Host.Outcome.next (mbxServed_answers hask (serveFallbackRequest_ordered hl hs))
  · exact congrArg Host.Outcome.next (mbxServed_answers hask (serveFallbackRequest_refused hl))
  · have hup : startingUp (ringCounted 6 s) = false := (startingUp_ringCounted ..).trans hp.2.2.2.2
    have hcopy : levelCopy ⟨origin.toNat, 3, 6⟩ 0x43 [lo32 m, hi32 m, reason] (ringCounted 6 s) =
        fallbackServed m (ringCounted 6 s) := by
      unfold levelCopy
      rw [if_neg (by simp [hup])]
      simp [join64_lo32_hi32]
    rw [← hcopy]
    exact congrArg Host.Outcome.next
      (levelArrives_forwards hp (by decide) (by decide) (by decide) (by decide) (by decide) rfl (by decide : 3 < 4096))
  · rw [fallbackServed_trial hs ha, fallBack_trial hs, fallbackPointer, if_pos ha]
    exact ⟨_, rfl, rfl, rfl, rfl⟩
  · have hexec : exec (.nodeJoin node a o boot) s = .next (nodeJoined node.val a o boot s) := rfl
    rw [hexec, nodeJoined_eq hm hl hup hn hc]
    refine ⟨fun h => ?_, fun h h1 h2 h3 => ?_, fun h h1 hs => ?_, fun h h1 hs => ?_⟩
    · rw [if_pos h]
    · rw [if_neg h, if_pos ⟨h1, h2, h3⟩]
      rfl
    · rw [if_neg h, if_neg (fun hx => h1 hx.1), if_neg hs]
    · rw [if_neg h, if_neg (fun hx => h1 hx.1), if_pos hs]

end Sys2Proof.Machine

/-! PROOFS. O51 fails: the source of a level change is any number in the statement, and a number above 3 names a register
that the timeout itself changes. -/

namespace Sys2Proof.Machine

open Sys2Proof

/-- A change to a faster level waits for power-good; its source, 19, is no level: VOUT19 would be LEVEL_REFUSALS. -/
def strayChange : LvlChange := { target := 0, source := 19, slower := false, step := .powerGood, left := [] }

/-- The reset state with that change in progress. -/
def strayLevel : State := setChange (some strayChange) State.reset

/-- The voltage is sent after the timeout has counted its refusal. -/
theorem pmbus_levelTimeout_stray : ((levelTimeout strayLevel).io.pmbus.map fun e => e.2.2) = [1] ∧ strayLevel.io.pmbus = [] ∧
    voutWord 19 strayLevel = 0 := by decide

/-- Refutes O51: at PG_TIMEOUT the word sent for source 19 is LEVEL_REFUSALS after its count, 1, and not the 0 of before. -/
theorem not_levelChangesRunTheirSteps : ¬ Obligations.LevelChangesRunTheirSteps := by
  intro h
  obtain ⟨-, hchange, -⟩ := h strayLevel
  obtain ⟨-, -, -, -, -, -, htimeout⟩ := hchange strayChange rfl
  obtain ⟨t, hexec, -, -, -, hsent⟩ := htimeout rfl
  obtain ⟨hword, hbefore, hvout⟩ := pmbus_levelTimeout_stray
  have ht : levelTimeout strayLevel = t := by
    have hnext : exec .pgTimeout strayLevel = .next (levelTimeout strayLevel) := rfl
    rw [hnext] at hexec
    exact Host.Outcome.next.inj hexec
  have hslower : strayChange.slower = false := rfl
  have hsource : strayChange.source = 19 := rfl
  rw [← ht, hbefore, hslower, hsource, hvout] at hsent
  rw [hsent] at hword
  exact absurd hword (by decide)

end Sys2Proof.Machine

/-! PROOFS. Which components further operations may change. -/

namespace Sys2Proof.Machine

open Sys2Proof

@[simp] theorem sameBut_zeroBank {ps : List Part} (hps : covers ps [.words, .ports] = true) (s₀ : State) (b : Nat) (s : State) :
    SameBut ps s₀ (zeroBank b s) ↔ SameBut ps s₀ s := by
  refine SameBut.iff (k := [.words, .ports]) ?_ hps s₀
  simp (disch := decide) [zeroBank]

/-- The banks of region r lose their words, and what waits at their ports. -/
def emptyBanks (r : Nat) (s : State) : State :=
  (List.range 16).foldl (fun t l => setBankPort (16 * r + l) Bank.idle (zeroBank (16 * r + l) t)) s

@[simp] theorem sameBut_emptyBanks {ps : List Part} (hps : covers ps [.words, .ports] = true) (s₀ : State) (r : Nat) (s : State) :
    SameBut ps s₀ (emptyBanks r s) ↔ SameBut ps s₀ s := by
  refine SameBut.iff (k := [.words, .ports]) ?_ hps s₀
  exact (sameBut_foldl_iff (fun t l => by simp (disch := decide)) s _ s).2 (sameBut_refl _ s)

theorem powerOff_eq (r : Nat) (s : State) : powerOff r s = wr (P.RGN r) R.IRQ_PEND 0 (emptyBanks r (clearTaps r (answerBanks r
    (mdRgn r (fun x => { x with power := .off, sq := [], draining := false, drained := false, inHeld := 0 }) (assertGsr r false
      (invalidateStage r (fenceRegion r (dropLoad r E.ABSENT_TARGET
        (abandonSlice (fun b => sliceRegion b == some r) s))))))))) := rfl

@[simp] theorem sameBut_powerOff {ps : List Part} (hps : covers ps [.regs, .net, .fab, .macs, .logic, .words, .ports, .rgns, .fox, .wpk, .io] = true) (s₀ : State) (r : Nat) (s : State) :
    SameBut ps s₀ (powerOff r s) ↔ SameBut ps s₀ s := by
  refine SameBut.iff (k := [.regs, .net, .fab, .macs, .logic, .words, .ports, .rgns, .fox, .wpk, .io]) ?_ hps s₀
  rw [powerOff_eq]
  simp (disch := decide)

end Sys2Proof.Machine

/-! PROOFS. O52: clocks and region power. What the slice in progress makes of a change of clocks leaves the other
registers. -/

namespace Sys2Proof.Machine

open Sys2Proof

/-! ## A slice that is cut -/

/-- A register on a page that a slice and the network do not write. -/
abbrev OffSlice (q o : Nat) : Prop := (q < 0x100 ∧ q ≠ P.XB ∧ q ≠ P.RING) ∧ q ≠ P.WPK ∧ o < 4096

theorem rd_advanceHolder {q o : Nat} (h : OffAdvance q o) (c : ChanId) (s : State) :
    rd q o (advanceHolder c s) = rd q o s := by
  unfold advanceHolder
  split
  · exact rd_advance h ..
  · rfl

theorem rd_bgResume {q o : Nat} (h : OffAdvance q o) (b : BgSlice) (s : State) : rd q o (bgResume b s) = rd q o s := by
  unfold bgResume
  split
  · exact rd_advanceHolder h ..
  · rfl

section
variable {q o : Nat} (h : OffSlice q o)
include h

theorem offSlice_rgn (r : Nat) : q ≠ P.RGN r := by
  obtain ⟨⟨hlow, -⟩, -⟩ := h
  simp only [P.RGN]
  omega

theorem rd_sliceCounted (b : BgSlice) (v : Nat) (s : State) : rd q o (sliceCounted b v s) = rd q o s := by
  obtain ⟨-, hwpk, ho⟩ := id h
  have hcount (off : Nat) (hoff : off < 4096) : rd q o (count P.WPK off s) = rd q o s :=
    rd_countN_other (rkey_page hwpk ho hoff) ..
  have hrgn (r off : Nat) (w : Word) (hoff : off < 4096) (u : State) :
      rd q o (wr (P.RGN r) R.RGN_BG_REGION_LAST w (count (P.RGN r) off u)) = rd q o u := by
    rw [rd_wr_other (rkey_page (offSlice_rgn h r) ho (by decide))]
    exact rd_countN_other (rkey_page (offSlice_rgn h r) ho hoff) ..
  unfold sliceCounted
  dsimp only
  split
  · exact (hrgn _ _ _ (by decide) _).trans (hcount _ (by split <;> decide))
  · exact hcount _ (by split <;> decide)

theorem rd_sliceOver (s : State) : rd q o (sliceOver s) = rd q o s := by
  obtain ⟨-, hwpk, ho⟩ := h
  exact rd_wrf_other (rkey_page hwpk ho (by decide)) ..

theorem rd_bgCut (s : State) : rd q o (bgCut s) = rd q o s := by
  obtain ⟨hnet, -, ho⟩ := id h
  unfold bgCut
  split
  · split
    · rfl
    · rw [rd_bgResume (offAdvance_of_page hnet ho), rd_sliceOver h, rd_sliceCounted h]
  · rfl

theorem rd_outOfWindow (s : State) : rd q o (outOfWindow s) = rd q o s := by
  unfold outOfWindow
  split
  · split
    · rfl
    · exact rd_bgCut h s
  · rfl

end

theorem pwr_outOfWindow (s : State) : (outOfWindow s).pwr = s.pwr :=
  (sameBut_outOfWindow (ps := [.regs, .net, .wpk]) (by decide) s s).2 (sameBut_refl _ s) .pwr (by decide)

/-! ## Island clocks -/

/-- A write of ISL that R344 allows is stored, and the island waits to switch where its byte changes. -/
theorem islApply_stores {i : Nat} {v : Word} {s : State} (hc : s.pwr.change = none)
    (hv : islBad (fun n => clCfg n s) i v = none) : isl i (islApply i v s) = v ∧ (islApply i v s).pwr.now = s.pwr.now ∧
      (islApply i v s).pwr.switching.contains i = (islByte v (currentLevel s) != tget 7 s.pwr.now i) := by
  unfold islApply
  rw [hc, hv]
  dsimp only
  rw [if_neg (by decide)]
  split
  next heq =>
    refine ⟨rd_wr_same .., rfl, ?_⟩
    rw [heq, bne_self_eq_false]
    simp
  next hne =>
    refine ⟨rd_wr_same .., rfl, ?_⟩
    rw [bne_iff_ne.2 hne]
    simp

theorem islApply_refused {i l : Nat} {v : Word} {s : State} (hc : s.pwr.change = none)
    (hv : islBad (fun n => clCfg n s) i v = some l) : islApply i v s =
      clkRefused false false i l (P.CLK * 4096 + (R.CLK_ISL + 4 * i)) s := by
  unfold islApply
  rw [hc, hv]
  exact if_neg (by decide)

theorem islApply_busy {i : Nat} {v : Word} {s : State} (hc : s.pwr.change.isSome = true) : islApply i v s =
    clkRefused false false i (currentLevel s) (P.CLK * 4096 + (R.CLK_ISL + 4 * i)) s := by
  unfold islApply
  exact if_pos hc

/-! ## Clock loops -/

/-- Settings of a loop that may be stopped, and that put no island above its cap, are stored; the loop is unlocked. -/
theorem clCfgWrite_stores {n : Nat} {v : Word} {s : State} (hc : s.pwr.change = none)
    (hgood : loopEnabled (v &&& W 0xC00F0FFF) = true →
      loopFieldsGood (v &&& W 0xC00F0FFF) = true ∧ loopLimitsGood (v &&& W 0xC00F0FFF) = true)
    (hstop : loopEnabled (clCfg n s) = true → treeNamed n s = false) (hcap : treeAbove n (v &&& W 0xC00F0FFF) s = none) :
    clCfg n (clCfgWrite n v s) = v &&& W 0xC00F0FFF ∧ loopLocked n (clCfgWrite n v s) = false := by
  have hoff : rkey P.CLK (R.CLK_CL_CFG + 8 * n) ≠ rkey P.CLK (R.CLK_CL_STAT + 8 * n) := rkey_off (by
    simp only [R.CLK_CL_CFG, R.CLK_CL_STAT]
    omega)
  have heq : clCfgWrite n v s = wr P.CLK (R.CLK_CL_STAT + 8 * n) (rd P.CLK (R.CLK_CL_STAT + 8 * n) s &&& W 0x40000000)
      (wr P.CLK (R.CLK_CL_CFG + 8 * n) (v &&& W 0xC00F0FFF) s) := by
    unfold clCfgWrite
    dsimp only
    rw [hc, hcap, if_neg (by decide), if_neg (by simpa using fun h => (hgood h).1), if_neg (by simpa using fun h => (hgood h).2),
      if_neg (by simpa using hstop)]
  rw [heq]
  refine ⟨?_, ?_⟩
  · rw [clCfg, rd_wr_other hoff, rd_wr_same]
  · rw [loopLocked, rd_wr_same]
    simp [bit, W]

/-- A word with its top bit set. -/
theorem bit_top {x : Nat} (hlow : 2 ^ 31 ≤ x) (hhigh : x < 2 ^ 32) : bit 31 (W x) = true := by
  rw [bit, W, BitVec.getLsbD_ofNat, Nat.testBit_eq_decide_div_mod_eq, decide_eq_true (by decide), Bool.true_and]
  exact decide_eq_true (by omega)

/-- LOCKED and MHZ of a loop that locks. -/
def lockedWord (w x : Word) : Word := W (2 ^ 31 + b2n (bit 30 x) * 2 ^ 30 + loopNum w / (1000 * loopDen w) % 1024)

theorem bit_lockedWord (w x : Word) : bit 31 (lockedWord w x) = true := by
  have hb : b2n (bit 30 x) ≤ 1 := by
    unfold b2n
    split <;> omega
  exact bit_top (by omega) (by omega)

theorem lockLoop_eq {n : Nat} {s : State} (he : loopEnabled (clCfg n s) = true) :
    lockLoop n s = md P.CLK (R.CLK_CL_STAT + 8 * n) (lockedWord (clCfg n s)) s := by
  unfold lockLoop
  exact if_pos he

theorem pwr_rcStart (s : State) : (rcStart s).pwr = s.pwr :=
  (sameBut_rcStart (ps := [.rgns]) (by decide) s s).2 (sameBut_refl _ s) .pwr (by decide)

theorem loopLocked_rcStart (n : Nat) (s : State) : loopLocked n (rcStart s) = loopLocked n s := by
  have hregs : (rcStart s).regs = s.regs :=
    (sameBut_rcStart (ps := [.rgns]) (by decide) s s).2 (sameBut_refl _ s) .regs (by decide)
  rw [loopLocked, rd_of_regs hregs, loopLocked]

/-- A loop that locks keeps the power state. -/
theorem lockLoop_locks {n : Nat} {s : State} (he : loopEnabled (clCfg n s) = true) :
    loopLocked n (rcStart (lockLoop n s)) = true ∧ (rcStart (lockLoop n s)).pwr = s.pwr := by
  rw [loopLocked_rcStart, pwr_rcStart, lockLoop_eq he]
  refine ⟨?_, (regsIoOnly_md ..).pwr⟩
  rw [loopLocked, rd_md_same, bit_lockedWord]

/-! ## Region power -/

/-- Region r is off at the end, under GSR, and no plane has changed. -/
theorem powerOff_off (r : Nat) (s : State) : (rgn r (powerOff r s)).power = .off ∧ (rgn r (powerOff r s)).gsr = true ∧
    (powerOff r s).planes = s.planes := by
  have hsame (v : State) : SameBut [.regs, .logic, .words, .ports, .wpk, .io] v
      (wr (P.RGN r) R.IRQ_PEND 0 (emptyBanks r (clearTaps r (answerBanks r v)))) := by simp (disch := decide)
  have hrgn (v : State) : rgn r (wr (P.RGN r) R.IRQ_PEND 0 (emptyBanks r (clearTaps r (answerBanks r v)))) = rgn r v :=
    rgn_of_rgns (hsame v .rgns (by decide)) r
  rw [powerOff_eq, hrgn, rgn_mdRgn_same, rgn_assertGsr, ← powerOff_eq]
  exact ⟨rfl, rfl, (sameBut_powerOff (ps := [.regs, .net, .fab, .macs, .logic, .words, .ports, .rgns, .fox, .wpk, .io])
    (by decide) s r s).2 (sameBut_refl _ s) .planes (by decide)⟩

section
variable {r : Nat} {s : State} (hregion : s.pwr.region = none) (hm : s.dev.mode = .run) (he : entering s = false)
  (hlock : locked r s = false) (hload : loading r s = false)
include hregion hm he hlock hload

/-- Where no condition of R354 forbids it, a change of region power is recorded; it ends where the region is so already. -/
theorem regionPower_eq (on : Bool) : regionPower r on s =
    if (rgn r s).power == .retired then pwrCode E.RETIRED s
    else if (rgn r s).power == (if on then Power.on else Power.off) then
      irq P.PMU 5 (wr P.PMU R.PMU_RGN_PWR_CTL (W (b2n on * 2 ^ 8 + r)) s)
    else
      let u := if on then powerOn r (wr P.PMU R.PMU_RGN_PWR_CTL (W (b2n on * 2 ^ 8 + r)) s)
        else powerOff r (wr P.PMU R.PMU_RGN_PWR_CTL (W (b2n on * 2 ^ 8 + r)) s)
      setPwr { u.pwr with region := some (r, on) } (wrf P.PMU R.PMU_RGN_PWR_CTL 30 30 1 u) := by
  unfold regionPower
  rw [hregion, if_neg (by decide), if_neg (by simp [hm]), if_neg (by simp [he]), if_neg (by simp [hlock, hload])]

theorem regionPower_held (on : Bool) (hp : (rgn r s).power = if on then Power.on else Power.off) : regionPower r on s =
    irq P.PMU 5 (wr P.PMU R.PMU_RGN_PWR_CTL (W (b2n on * 2 ^ 8 + r)) s) := by
  rw [regionPower_eq hregion hm he hlock hload, if_neg (by rw [hp]; cases on <;> decide), if_pos (by rw [hp, beq_self_eq_true])]

theorem regionPower_retired (on : Bool) (hp : (rgn r s).power = .retired) : regionPower r on s = pwrCode E.RETIRED s := by
  rw [regionPower_eq hregion hm he hlock hload, if_pos (by rw [hp]; decide)]

/-- A change that starts is busy until it is done. -/
theorem regionPower_starts {on : Bool} (hp : (rgn r s).power = if on then Power.off else Power.on) : ∃ u,
    regionPower r on s = setPwr { u.pwr with region := some (r, on) } (wrf P.PMU R.PMU_RGN_PWR_CTL 30 30 1 u) ∧
      (on = false → (rgn r u).power = .off ∧ (rgn r u).gsr = true ∧ u.planes = s.planes) := by
  rw [regionPower_eq hregion hm he hlock hload, if_neg (by rw [hp]; cases on <;> decide),
    if_neg (by rw [hp]; cases on <;> decide)]
  refine ⟨_, rfl, fun hoff => ?_⟩
  subst hoff
  rw [if_neg (by decide)]
  exact powerOff_off r (wr P.PMU R.PMU_RGN_PWR_CTL (W (b2n false * 2 ^ 8 + r)) s)

end

/-- The logic that settles changes no other component. -/
theorem rd_settleAll (q o : Nat) (s : State) : rd q o (settleAll s) = rd q o s :=
  rd_of_regs (sameBut_settleAll' s .regs (by decide)) q o

theorem rdf_busy_set (x : Pwr) (n : Nat) (u : State) :
    rdf P.PMU R.PMU_RGN_PWR_CTL 30 30 (settleAll (setPwr x (wrf P.PMU R.PMU_RGN_PWR_CTL 30 30 n u))) = n % 2 := by
  have hset : rdf P.PMU R.PMU_RGN_PWR_CTL 30 30 (setPwr x (wrf P.PMU R.PMU_RGN_PWR_CTL 30 30 n u)) =
    rdf P.PMU R.PMU_RGN_PWR_CTL 30 30 (wrf P.PMU R.PMU_RGN_PWR_CTL 30 30 n u) := rfl
  rw [rdf, rd_settleAll, ← rdf, hset, rdf_wrf_same (by decide)]
  rfl

/-- At its end a region that is on has been released from GSR. -/
theorem gsr_releaseRegion (r : Nat) (s : State) : (rgn r (releaseRegion r s)).gsr = false := by
  have hstep (k : Nat) (u : State) (hu : (rgn r u).gsr = false) : (rgn r (releaseStepOf r k u)).gsr = false := by
    unfold releaseStepOf releaseItem
    split
    · have hends : SameBut [.logic] u ((List.range 4).foldl (fun t d => endHold r d t) u) :=
        (sameBut_foldl_iff (fun t d => by simp (disch := decide)) u _ u).2 (sameBut_refl _ u)
      rw [rgn_of_rgns (hends .rgns (by decide))]
      exact hu
    · rw [rgn_mdRgn_same]
      exact hu
    · rw [rgn_mdRgn_same]
      exact hu
  have hfirst : (rgn r (mdRgn r (fun x => { x with gsr := false }) s)).gsr = false := by rw [rgn_mdRgn_same]
  unfold releaseRegion
  rw [List.foldl_cons, List.foldl_cons, List.foldl_cons, List.foldl_nil]
  exact hstep 2 _ (hstep 1 _ (hstep 0 _ hfirst))

theorem regionPowerDone_eq {r : Nat} {on : Bool} {s : State} (h : s.pwr.region = some (r, on)) : ∃ u,
    u = (if on && regionOn r s then releaseRegion r s else s) ∧ regionPowerDone s =
      setPwr { (irq P.PMU 5 (wrf P.PMU R.PMU_RGN_PWR_CTL 30 30 0 u)).pwr with region := none }
        (irq P.PMU 5 (wrf P.PMU R.PMU_RGN_PWR_CTL 30 30 0 u)) := by
  unfold regionPowerDone
  rw [h]
  exact ⟨_, rfl, rfl⟩

theorem regionPowerDone_ends {r : Nat} {on : Bool} {s : State} (h : s.pwr.region = some (r, on)) :
    let t := settleAll (regionPowerDone s)
    t.pwr.region = none ∧ rdf P.PMU R.PMU_RGN_PWR_CTL 30 30 t = 0 ∧ t.banks.words = s.banks.words ∧
      (on = true → regionOn r s = true → (rgn r t).gsr = false) := by
  obtain ⟨u, hu, heq⟩ := regionPowerDone_eq h
  have hsame : SameBut [.regs, .logic, .rgns, .pwr, .io] s (settleAll (regionPowerDone s)) := by simp (disch := decide)
  dsimp only
  refine ⟨?_, ?_, hsame .words (by decide), fun hon hr => ?_⟩
  · rw [show (settleAll (regionPowerDone s)).pwr = (regionPowerDone s).pwr from sameBut_settleAll' _ .pwr (by decide), heq]
    rfl
  · have hset (x : Pwr) (v : State) : rdf P.PMU R.PMU_RGN_PWR_CTL 30 30 (setPwr x v) = rdf P.PMU R.PMU_RGN_PWR_CTL 30 30 v := rfl
    rw [rdf, rd_settleAll, ← rdf, heq, hset, rdf, rd_irq_off (noPba_page (by decide) (by decide)) (rkey_off (by decide)), ← rdf,
      rdf_wrf_same (by decide)]
    rfl
  · have hrel : u = releaseRegion r s := by rw [hu, hon, hr]; rfl
    have hrgns : (settleAll (regionPowerDone s)).rgns = u.rgns := by
      have hback : SameBut [.regs, .logic, .pwr, .io] u (settleAll (regionPowerDone s)) := by
        rw [heq]
        simp (disch := decide)
      exact hback .rgns (by decide)
    rw [rgn_of_rgns hrgns, hrel, gsr_releaseRegion]

/-- Settles O52: the clock commands and the region power commands by their cases. -/
theorem clocksAndRegionPower : Obligations.ClocksAndRegionPower := by
  refine ⟨fun s => ⟨fun rq i v hrq hc => ⟨fun l hbad => ?_, fun hgood => ?_⟩, fun rq i v hrq hc => ?_, fun rq n v hrq hc =>
      ⟨fun hen hf => ?_, fun hen hf hl => ?_, fun hgood hstop hcap => ?_⟩, fun n hp => ⟨fun hl hen => ?_, fun hl => ?_, fun hl => ?_⟩,
      fun hp => ?_, fun rq src hrq => ⟨fun h => ?_, fun hsrc hl => ?_⟩⟩,
    fun s => ⟨fun rq r hrq hm hregion he hlock hload => ⟨fun hp => ?_, fun hp => ?_, fun hp => ?_, fun hp => ?_, fun hp => ?_⟩,
      fun rq r hrq hregion => ⟨?_, ?_⟩, fun r on h => ⟨_, rfl, regionPowerDone_ends h⟩⟩⟩
  · exact congrArg Host.Outcome.next ((onPage_reaches hrq ..).trans (congrArg outOfWindow (islApply_refused hc hbad)))
  · obtain ⟨hisl, hnow, hsw⟩ := islApply_stores hc hgood
    refine ⟨_, congrArg Host.Outcome.next (onPage_reaches hrq ..), ?_, ?_, ?_⟩
    · have hoff : OffSlice P.CLK (R.CLK_ISL + 4 * i.val) := ⟨by decide, by decide, by
        simp only [R.CLK_ISL]
        omega⟩
      rw [isl, islWrite, rd_outOfWindow hoff, ← isl, hisl]
    · rw [islWrite, pwr_outOfWindow, hnow]
    · rw [islWrite, pwr_outOfWindow, hsw]
  · exact congrArg Host.Outcome.next ((onPage_reaches hrq ..).trans (congrArg outOfWindow (islApply_busy hc)))
  · refine congrArg Host.Outcome.next ((onPage_reaches hrq ..).trans ?_)
    unfold clCfgWrite
    dsimp only
    rw [hc, if_neg (by decide), if_pos ⟨hen, by simp [hf]⟩]
  · refine congrArg Host.Outcome.next ((onPage_reaches hrq ..).trans ?_)
    unfold clCfgWrite
    dsimp only
    rw [hc, if_neg (by decide), if_neg (by simp [hf]), if_pos ⟨hen, by simp [hl]⟩]
  · exact ⟨_, congrArg Host.Outcome.next (onPage_reaches hrq ..), clCfgWrite_stores hc hgood hstop hcap⟩
  · have hne : n.val ≠ 8 := by omega
    have heq : loopLock n.val s = rcStart (lockLoop n.val s) := by
      unfold loopLock
      rw [if_neg (by simp [hp]), if_neg hne, if_neg (by simp [hl])]
    exact ⟨_, congrArg Host.Outcome.next heq, lockLoop_locks hen⟩
  · refine congrArg (fun t => Host.Outcome.next (outOfWindow t)) ?_
    unfold lossOfReference
    exact if_neg (by simp [hp, hl])
  · refine congrArg (fun t => Host.Outcome.next (outOfWindow t)) ?_
    unfold lossOfReference
    exact if_pos (by simp [hl])
  · refine congrArg Host.Outcome.next ?_
    show loopLock 8 s = _
    unfold loopLock
    rw [if_neg (by simp [hp]), if_pos rfl]
  · refine congrArg Host.Outcome.next ((onPage_reaches hrq ..).trans ?_)
    unfold stewardClkWrite
    exact if_neg (by rcases h with h | h <;> simp [h])
  · refine congrArg Host.Outcome.next ((onPage_reaches hrq ..).trans ?_)
    unfold stewardClkWrite
    exact if_pos (by simp [hsrc, hl])
  · exact congrArg (fun t => Host.Outcome.next (settleAll t))
      ((onPage_reaches hrq ..).trans (regionPower_held hregion hm he hlock hload false hp))
  · exact congrArg (fun t => Host.Outcome.next (settleAll t))
      ((onPage_reaches hrq ..).trans (regionPower_held hregion hm he hlock hload true hp))
  · obtain ⟨u, heq, hoff⟩ := regionPower_starts (on := false) hregion hm he hlock hload hp
    obtain ⟨hpower, hgsr, hplanes⟩ := hoff rfl
    have hset (x : Pwr) : SameBut [.regs, .logic, .pwr] u (settleAll (setPwr x (wrf P.PMU R.PMU_RGN_PWR_CTL 30 30 1 u))) := by
      simp (disch := decide)
    refine ⟨_, congrArg (fun t => Host.Outcome.next (settleAll t)) ((onPage_reaches hrq ..).trans heq), ?_, ?_, ?_, ?_, ?_⟩
    · rw [rgn_of_rgns (hset _ .rgns (by decide)), hpower]
    · rw [show (settleAll (setPwr { u.pwr with region := some (r.val, false) } (wrf P.PMU R.PMU_RGN_PWR_CTL 30 30 1 u))).pwr = _ from
        sameBut_settleAll' _ .pwr (by decide)]
      rfl
    · rw [rgn_of_rgns (hset _ .rgns (by decide)), hgsr]
    · exact (hset _ .planes (by decide)).trans hplanes
    · rw [rdf_busy_set]
  · obtain ⟨u, heq, -⟩ := regionPower_starts (on := true) hregion hm he hlock hload hp
    refine ⟨_, congrArg (fun t => Host.Outcome.next (settleAll t)) ((onPage_reaches hrq ..).trans heq), ?_, ?_⟩
    · rw [show (settleAll (setPwr { u.pwr with region := some (r.val, true) } (wrf P.PMU R.PMU_RGN_PWR_CTL 30 30 1 u))).pwr = _ from
        sameBut_settleAll' _ .pwr (by decide)]
      rfl
    · rw [rdf_busy_set]
  · exact congrArg (fun t => Host.Outcome.next (settleAll t))
      ((onPage_reaches hrq ..).trans (regionPower_retired hregion hm he hlock hload true hp))
  · refine congrArg (fun t => Host.Outcome.next (settleAll t)) ((onPage_reaches hrq ..).trans ?_)
    unfold regionPower
    exact if_pos hregion
  · refine congrArg (fun t => Host.Outcome.next (settleAll t)) ((onPage_reaches hrq ..).trans ?_)
    unfold regionPower
    exact if_pos hregion

end Sys2Proof.Machine

/-! PROOFS. O54: wakes resume the device. -/

namespace Sys2Proof.Machine

open Sys2Proof

/-! ## From DOZE -/

theorem rd_cause_wakeRecorded (source reason : Nat) (dur : Word) (s : State) :
    rd P.PMU R.PMU_WAKE_CAUSE (wakeRecorded source reason dur s) = W (reason * 2 ^ 8 + source) := by
  unfold wakeRecorded
  rw [rd_wrf_other (rkey_page (by decide) (by decide) (by decide)), rd_wr_other (rkey_off (by decide)), rd_wr_same]

/-- A wake from DOZE resumes RUN with its cause; banks and scheduler are as they were. -/
theorem wakeUp_doze {s : State} (hm : s.dev.mode = .doze) (source reason : Nat) (tally : Option Nat) :
    let t := wakeUp source reason tally s
    t.dev.mode = .run ∧ rd P.PMU R.PMU_WAKE_CAUSE t = W (reason * 2 ^ 8 + source) ∧ t.banks = s.banks ∧ t.sched = s.sched := by
  have hdoze : ∃ (dur : Word) (u : State), u.banks = s.banks ∧ u.sched = s.sched ∧
      wakeUp source reason tally s = irq P.PMU 3 (enterMode .run (wakeRecorded source reason dur u)) := by
    cases tally with
    | some n =>
      refine ⟨satAdd 0 n, s, rfl, rfl, ?_⟩
      unfold wakeUp
      simp [hm]
    | none =>
      refine ⟨freeVal s, drawn s, rfl, rfl, ?_⟩
      have hdrawn : (drawn s).dev.mode = .doze := hm
      unfold wakeUp
      simp [hdrawn]
  obtain ⟨dur, u, hbanks, hsched, heq⟩ := hdoze
  have hsame : SameBut [.mode, .dev, .regs, .io] u (irq P.PMU 3 (enterMode .run (wakeRecorded source reason dur u))) := by
    simp (disch := decide) [wakeRecorded]
  dsimp only
  rw [heq]
  refine ⟨?_, ?_, (hsame.banks (by decide) (by decide)).trans hbanks, (hsame .sched (by decide)).trans hsched⟩
  · rw [(regsIoOnly_irq ..).dev, mode_enterMode]
  · rw [rd_irq_off (noPba_page (by decide) (by decide)) (rkey_off (by decide)),
      rd_enterMode (noPba_page (by decide) (by decide)) (rkey_page (by decide) (by decide) (by decide)), rd_cause_wakeRecorded]

/-! ## From SLEEP -/

/-- A wake from SLEEP reloads: the load is that of a wake, the hardware clear is due, and ring time has gone on. -/
theorem wakeUp_sleep {s : State} (hm : s.dev.mode = .sleep) (source reason n : Nat) :
    let t := wakeUp source reason (some n) s
    t.dev.mode = .load ∧ t.dev.loadKind = .wakeSleep ∧ t.dev.bankClear = true ∧ t.banks = s.banks ∧
      t.time.ringTime = BitVec.ofNat 64 (s.time.frozen.toNat + n * (rd P.TIME R.TIME_RATIO s).toNat / 2 ^ 16) := by
  have hsleep : wakeUp source reason (some n) s = wakeRecorded source reason (satAdd 0 n) (enterLoad .wakeSleep
      (setCause 5 (freshStartup (ringStraps (wakeTime n s))))) := by
    unfold wakeUp
    simp [hm, wakeSleep]
  generalize hu : setCause 5 (freshStartup (ringStraps (wakeTime n s))) = u at hsleep
  have hbefore : SameBut [.regs, .io, .time] s u := by
    rw [← hu]
    simp (disch := decide) [setCause, wakeTime, apply_ite]
  have htime : u.time = (wakeTime n s).time := by
    have hsame : SameBut [.regs] (wakeTime n s) u := by
      rw [← hu]
      simp (disch := decide) [setCause]
    exact hsame .time (by decide)
  have hring : (wakeTime n s).time.ringTime =
      BitVec.ofNat 64 (s.time.frozen.toNat + n * (rd P.TIME R.TIME_RATIO s).toNat / 2 ^ 16) := by
    unfold wakeTime
    dsimp only
    split
    · rfl
    · rw [(sameBut_irq (ps := [.regs, .io]) (by decide) _ P.TIME 0 _).2 (sameBut_refl _ _) .time (by decide)]
      rfl
  have hafter : SameBut [.mode, .dev, .regs, .pwr, .io] u (wakeRecorded source reason (satAdd 0 n) (enterLoad .wakeSleep u)) := by
    simp (disch := decide) [wakeRecorded]
  dsimp only
  rw [hsleep]
  refine ⟨?_, rfl, rfl, (hafter.banks (by decide) (by decide)).trans (hbefore.banks (by decide) (by decide)), ?_⟩
  · exact mode_enterMode .load u
  · rw [hafter .time (by decide), htime, hring]

/-- Settles O54: a wake of each source by the mode it finds, the reload of a wake, and the watchdog. -/
theorem wakesResumeTheDevice : Obligations.WakesResumeTheDevice := by
  intro s n
  refine ⟨fun hm => ⟨fun why hen => ?_, fun hen => ?_, fun hen ht => ?_, fun rq hrq hhost hen => ?_⟩, fun hm hen => ?_, fun hen => ?_,
    fun hm => ⟨fun hk => ⟨fun hr => ?_, fun c hr => ?_⟩, fun hk hr => ?_⟩, fun rq b hrq => ⟨fun ho => ?_, fun ho => ?_⟩,
    fun rq hrq => ?_, fun hm hen => ?_, fun hen => ?_⟩
  · obtain ⟨hmode, hcause, hbanks, hsched⟩ := wakeUp_doze hm 1 why.toNat (some n)
    exact ⟨_, congrArg Host.Outcome.next (if_pos ⟨by simp [hm], hen⟩), hmode, hcause, hbanks, hsched⟩
  · obtain ⟨hmode, hcause, -⟩ := wakeUp_doze hm 2 0 (some n)
    exact ⟨_, congrArg Host.Outcome.next (if_pos ⟨by simp [hm], hen⟩), hmode, hcause⟩
  · obtain ⟨hmode, hcause, -⟩ := wakeUp_doze hm 3 0 (some n)
    exact ⟨_, congrArg Host.Outcome.next (if_pos ⟨by simp [hm], hen, ht⟩), hmode, hcause⟩
  · subst hhost
    obtain ⟨hmode, hcause, -⟩ := wakeUp_doze hm 4 0 none
    have hcmd : wakeNowCmd .host s = wakeUp 4 0 none s := by
      unfold wakeNowCmd
      exact if_neg (by simp [wakeEnabled, hen])
    exact ⟨_, congrArg Host.Outcome.next ((onPage_reaches hrq ..).trans hcmd), hmode, hcause⟩
  · exact ⟨_, congrArg Host.Outcome.next (if_pos ⟨by simp [hm], hen⟩), wakeUp_sleep hm 2 0 n⟩
  · exact congrArg Host.Outcome.next (if_neg (by simp [wakeEnabled, hen]))
  · refine congrArg Host.Outcome.next ?_
    unfold wakeLoadDone
    rw [if_neg (by simp [hm]), hk]
    dsimp only
    rw [hr]
  · refine congrArg Host.Outcome.next ?_
    unfold wakeLoadDone
    rw [if_neg (by simp [hm]), hk]
    dsimp only
    rw [hr]
  · refine congrArg Host.Outcome.next ?_
    unfold wakeLoadDone
    rw [if_neg (by simp [hm]), hk]
    dsimp only
    rw [hr]
  · refine congrArg Host.Outcome.next ((onPage_reaches hrq ..).trans ?_)
    unfold holdRelease
    exact if_neg (by simp [ho])
  · refine congrArg Host.Outcome.next ((onPage_reaches hrq ..).trans ?_)
    unfold holdRelease
    exact if_pos (by simp [ho])
  · refine ⟨_, congrArg Host.Outcome.next (onPage_reaches hrq ..), ?_, ?_, rfl⟩
    · rw [reloadWatchdog, rdf_wrf_same (by decide)]
      exact Nat.mod_eq_of_lt (fld_lt 15 0 _)
    · rw [reloadWatchdog, rdf, wrf, rd_md_same, fld_setFld_other (by decide) (by decide)]
      rfl
  · refine congrArg Host.Outcome.next ?_
    unfold watchdogExpiry
    exact if_neg (by simp [hm, hen])
  · refine congrArg Host.Outcome.next ?_
    unfold watchdogExpiry
    exact if_pos (by simp [hen])

end Sys2Proof.Machine

/-! PROOFS. O55: slices of the self-test and their verdicts. -/

namespace Sys2Proof.Machine

open Sys2Proof

/-! ## Power-up slices -/

/-- A mark of a class is set for its own class, and no mark of the others is lost. -/
theorem getLsbD_mark {c : Nat} (hc : c < 5) (m : BitVec 5) (k : Nat) :
    (m ||| 1#5 <<< c).getLsbD k = (m.getLsbD k || decide (k = c)) := by
  simp only [BitVec.getLsbD_or, BitVec.getLsbD_shiftLeft, BitVec.getLsbD_one]
  by_cases hk : k = c
  · subst hk
    simp [hc]
  · simp only [hk, decide_false, Bool.or_false]
    by_cases hlt : k < c
    · simp [hlt]
    · have hne : ¬k - c = 0 := by omega
      simp [hne]

theorem wpk_puFirst (w : Word) (s : State) : (puFirst w s).wpk = s.wpk := by
  unfold puFirst
  split <;> rfl

/-- PU_FIRST stays where a slice is already named. -/
theorem rd_puFirst {w : Word} {s : State} (h : rd P.WPK R.WPK_PU_FIRST s ≠ 0) :
    rd P.WPK R.WPK_PU_FIRST (puFirst w s) = rd P.WPK R.WPK_PU_FIRST s := by
  unfold puFirst
  rw [if_neg h]

theorem wpk_puCounted_fail (cls n : Nat) (s : State) :
    (puCounted cls n true s).wpk = { s.wpk with failed := s.wpk.failed ||| 1#5 <<< cls } := rfl

theorem wpk_puCounted_incomplete (cls n : Nat) (s : State) :
    (puCounted cls n false s).wpk = { s.wpk with incomplete := s.wpk.incomplete ||| 1#5 <<< cls } := rfl

theorem rd_first_puCounted (cls n : Nat) (fail : Bool) (s : State) :
    rd P.WPK R.WPK_PU_FIRST (puCounted cls n fail s) = rd P.WPK R.WPK_PU_FIRST s :=
  rd_md_other (rkey_off (by decide)) ..

/-- The count of the slices of a class that have ended. -/
def endedNext (c : Nat) (s : State) : SMap Nat := tput 0 c (tget 0 s.wpk.ended c + 1) s.wpk.ended

/-- A slice that does not pass is named, where none is, and counted for its class. -/
theorem sliceTaken_marks {v : Verdict} (hv : v ≠ .pass) (cls block slice cell : Nat) (s : State) : ∃ w,
    sliceTaken cls block slice cell v s =
      puCounted cls 1 (v == .fail) (puFirst w (setWpk { s.wpk with ended := endedNext cls s } s)) := by
  unfold sliceTaken
  cases v with
  | pass => exact absurd rfl hv
  | fail => exact ⟨_, rfl⟩
  | incomplete => exact ⟨_, rfl⟩

theorem sliceEnd_eq {cls block slice cell : Nat} {x : SliceRun} {s : State} (hm : s.dev.mode = .selftest) :
    sliceEnd cls block slice cell x s = sliceTaken cls block slice cell
      (sliceVerdict (powerUpTest s) cls block slice x s) (signed cls x s) := by
  unfold sliceEnd
  exact if_neg (by simp [hm])

/-- The records of a slice that does not pass: its class is marked, and counted as ended. -/
theorem sliceEnd_marks {cls block slice cell : Nat} {x : SliceRun} {s : State} (hc : cls < 5) {v : Verdict} (hv : v ≠ .pass) :
    let t := sliceTaken cls block slice cell v (signed cls x s)
    (v = .fail → t.wpk.failed.getLsbD cls = true ∧ t.wpk.incomplete = s.wpk.incomplete) ∧
      (v = .incomplete → t.wpk.incomplete.getLsbD cls = true ∧ t.wpk.failed = s.wpk.failed) ∧ t.wpk.ended = endedNext cls s ∧
      (rd P.WPK R.WPK_PU_FIRST s ≠ 0 → rd P.WPK R.WPK_PU_FIRST t = rd P.WPK R.WPK_PU_FIRST s) := by
  obtain ⟨w, heq⟩ := sliceTaken_marks hv cls block slice cell (signed cls x s)
  dsimp only
  rw [heq]
  have hwpk := wpk_puFirst w (setWpk { (signed cls x s).wpk with ended := endedNext cls (signed cls x s) } (signed cls x s))
  have hfirst (h : rd P.WPK R.WPK_PU_FIRST s ≠ 0) := rd_puFirst (w := w)
    (s := setWpk { (signed cls x s).wpk with ended := endedNext cls (signed cls x s) } (signed cls x s)) h
  generalize puFirst w (setWpk { (signed cls x s).wpk with ended := endedNext cls (signed cls x s) } (signed cls x s)) = u
    at hwpk hfirst
  refine ⟨fun h => ?_, fun h => ?_, ?_, fun h => (rd_first_puCounted ..).trans (hfirst h)⟩
  · rw [h, show (Verdict.fail == .fail) = true from rfl, wpk_puCounted_fail, hwpk]
    exact ⟨(getLsbD_mark hc ..).trans (by simp), rfl⟩
  · rw [h, show (Verdict.incomplete == .fail) = false from rfl, wpk_puCounted_incomplete, hwpk]
    exact ⟨(getLsbD_mark hc ..).trans (by simp), rfl⟩
  · cases v with
    | pass => exact absurd rfl hv
    | fail =>
      rw [show (Verdict.fail == .fail) = true from rfl, wpk_puCounted_fail, hwpk]
      rfl
    | incomplete =>
      rw [show (Verdict.incomplete == .fail) = false from rfl, wpk_puCounted_incomplete, hwpk]
      rfl

/-! ## Verdicts -/

theorem sliceVerdict_fail {test cls block slice : Nat} {x : SliceRun} {s : State} (h : x.definite = true ∨ x.uncorrectable ≠ 0) :
    sliceVerdict test cls block slice x s = .fail := by
  unfold sliceVerdict
  exact if_pos (by rcases h with h | h <;> simp [h])

theorem sliceVerdict_incomplete {test cls block slice : Nat} {x : SliceRun} {s : State} (hd : x.definite = false)
    (hu : x.uncorrectable = 0) (hr : recordFails cls block s = false) (hm : x.marker = false) :
    sliceVerdict test cls block slice x s = .incomplete := by
  unfold sliceVerdict
  rw [if_neg (by simp [hd, hu, hr]), if_pos (by simp [hm])]

/-! ## The window of SELFTEST -/

/-- n slices of class c that were left end INCOMPLETE, the first of them named. -/
def leftCounted (c n : Nat) (t : State) : State :=
  puCounted c n false (drawn (puFirst (W (c * 2 ^ 28 + 3 * 2 ^ 26 + (freeVal t).toNat % 2 ^ 26)) t))

theorem wpk_leftCounted (c n : Nat) (t : State) :
    (leftCounted c n t).wpk = { t.wpk with incomplete := t.wpk.incomplete ||| 1#5 <<< c } := by
  have hwpk (w : Word) : (drawn (puFirst w t)).wpk = t.wpk := wpk_puFirst ..
  rw [leftCounted, wpk_puCounted_incomplete, hwpk]

/-- What the end of the window does to class c. -/
def classTimeout (fast : Bool) (t : State) (c : Nat) : State :=
  if sliceTotal fast c - tget 0 t.wpk.ended c = 0 then t
  else
    let u := leftCounted c (sliceTotal fast c - tget 0 t.wpk.ended c) t
    setWpk { u.wpk with ended := tput 0 c (sliceTotal fast c) u.wpk.ended } u

/-- It marks the class where slices are left, marks no other, and leaves the failures and the other classes' counts. -/
theorem classTimeout_wpk {c : Nat} (hc : c < 5) (fast : Bool) (t : State) : let u := classTimeout fast t c
    u.wpk.failed = t.wpk.failed ∧ (∀ k, t.wpk.incomplete.getLsbD k = true → u.wpk.incomplete.getLsbD k = true) ∧
      (tget 0 t.wpk.ended c < sliceTotal fast c → u.wpk.incomplete.getLsbD c = true) ∧
      ∀ k, k ≠ c → tget 0 u.wpk.ended k = tget 0 t.wpk.ended k := by
  dsimp only
  unfold classTimeout
  split
  next h => exact ⟨rfl, fun _ hk => hk, fun hlt => by omega, fun _ _ => rfl⟩
  next h =>
    dsimp only
    rw [wpk_leftCounted]
    refine ⟨rfl, fun k hk => ?_, fun _ => ?_, fun k hk => tget_tput_other _ _ hk ..⟩
    · exact (getLsbD_mark hc ..).trans (by rw [hk, Bool.true_or])
    · exact (getLsbD_mark hc ..).trans (by simp)

/-- Over the classes of a list without repetition, each one with slices left is marked. -/
theorem foldl_classTimeout {fast : Bool} {cs : List Nat} (hcs : cs.Nodup) (hlt : ∀ c ∈ cs, c < 5) (s : State) :
    let t := cs.foldl (classTimeout fast) s
    t.wpk.failed = s.wpk.failed ∧ (∀ k, s.wpk.incomplete.getLsbD k = true → t.wpk.incomplete.getLsbD k = true) ∧
      ∀ c ∈ cs, tget 0 s.wpk.ended c < sliceTotal fast c → t.wpk.incomplete.getLsbD c = true := by
  induction cs generalizing s with
  | nil => exact ⟨rfl, fun _ h => h, fun _ h => by cases h⟩
  | cons c cs ih =>
    obtain ⟨hnot, hcs⟩ := List.nodup_cons.1 hcs
    obtain ⟨hfail, hkeep, hmark, hended⟩ := classTimeout_wpk (hlt c List.mem_cons_self) fast s
    obtain ⟨hfail', hkeep', hmark'⟩ := ih hcs (fun k hk => hlt k (List.mem_cons_of_mem _ hk)) (classTimeout fast s c)
    refine ⟨hfail'.trans hfail, fun k hk => hkeep' k (hkeep k hk), fun k hk hleft => ?_⟩
    rcases List.mem_cons.1 hk with rfl | hk
    · exact hkeep' _ (hmark hleft)
    · exact hmark' k hk (by rwa [hended k (fun e => hnot (e ▸ hk))])

theorem windowTimeout_marks {s : State} (hm : s.dev.mode = .selftest) (hw : inWindow s = false) : let t := windowTimeout s
    (∀ c, c < 5 → tget 0 s.wpk.ended c < sliceTotal (strapTest s == 0) c → t.wpk.incomplete.getLsbD c = true) ∧
      t.wpk.failed = s.wpk.failed := by
  have heq : windowTimeout s = (List.range 5).foldl (classTimeout (strapTest s == 0)) s := by
    unfold windowTimeout
    exact if_neg (by simp [hm, hw])
  obtain ⟨hfail, -, hmark⟩ := foldl_classTimeout (fast := strapTest s == 0) List.nodup_range (fun c hc => List.mem_range.1 hc) s
  rw [heq]
  exact ⟨fun c hc => hmark c (List.mem_range.2 hc), hfail⟩

/-! ## Background slices -/

theorem wpk_sliceCounted (b : BgSlice) (v : Nat) (s : State) : (sliceCounted b v s).wpk = s.wpk :=
  (sameBut_sliceCounted (ps := [.regs]) (by decide) s b v s).2 (sameBut_refl _ s) .wpk (by decide)

/-- The slice that starts on the next block of the next class. -/
theorem bgStart_starts {c b : Nat} {s : State} (hm : s.dev.mode = .run) (hbg : s.wpk.bg = none) (he : entering s = false)
    (ht : bit 0 (rd P.WPK R.PAGE_CTL s) = true) (hc : bgNextClass s = some c) (hb : bgNextBlock c s = some b)
    (hw : inWindow s = true) (hclk : clockInWindow (bgIsland c b) s = true) : ∃ (x : BgSlice) (w : Wpk),
      bgStart s = putSlice x (setWpk w (setWpk { s.wpk with lastClass := c } s)) ∧
        x.cls = c ∧ x.block = b ∧ x.retest = false ∧ x.cut = false := by
  unfold bgStart
  rw [if_neg (by simp [hm, hbg, he, takesWork, ht]), hc]
  dsimp only
  rw [hb]
  dsimp only
  rw [if_neg (by simp [hw, hclk])]
  exact ⟨_, _, rfl, rfl, rfl, rfl, rfl⟩

theorem bgResume_cell {b : BgSlice} (hc : b.cls = 1) (s : State) : bgResume b s = s := by
  unfold bgResume
  exact if_neg (by simp [hc])

/-- The slice of a cell that is wanted ends; what the cell holds stays. -/
theorem bgAbort_cell {b : BgSlice} {s : State} (hb : s.wpk.bg = some b) (hc : b.cls = 1) (hw : cellWanted b.block s = true) :
    (bgAbort s).wpk.bg = none ∧ (bgAbort s).fab = s.fab := by
  have heq : ∃ w : Wpk, w.bg = none ∧ bgAbort s = setWpk w (sliceOver (count P.WPK R.WPK_BG_ABORTS s)) := by
    unfold bgAbort
    rw [hb]
    dsimp only
    rw [if_pos (.inl ⟨hc, hw⟩), bgResume_cell hc]
    exact ⟨_, rfl, rfl⟩
  obtain ⟨w, hw, heq⟩ := heq
  have hsame : SameBut [.regs, .wpk] s (setWpk w (sliceOver (count P.WPK R.WPK_BG_ABORTS s))) := by simp (disch := decide)
  rw [heq]
  exact ⟨hw, hsame .fab (by decide)⟩

theorem bgAbort_unwanted {b : BgSlice} {s : State} (hb : s.wpk.bg = some b) (hc : b.cls = 1) (hw : cellWanted b.block s = false) :
    bgAbort s = s := by
  unfold bgAbort
  rw [hb]
  exact if_neg (by simp [hc, hw])

theorem bgCut_cell {b : BgSlice} {s : State} (hb : s.wpk.bg = some b) (hc : b.cls = 1) :
    bgCut s = sliceOver (sliceCounted b 3 s) := by
  unfold bgCut
  rw [hb]
  dsimp only
  rw [if_neg (by simp [hc]), bgResume_cell hc]

section
variable {b : BgSlice} {x : SliceRun} {s : State} (hb : s.wpk.bg = some b) (hc : b.cls = 1) (hre : b.retest = false)
include hb hc hre

/-- A cell slice that passes ends. -/
theorem bgEnd_pass (hcut : b.cut = false) (hv : sliceVerdict 2 1 b.block b.group x s = .pass) :
    bgEnd x s = sliceOver (sliceCounted b (verdictCode .pass) (signed 1 x s)) := by
  unfold bgEnd
  rw [hb]
  dsimp only
  rw [if_neg (by simp [hc]), hc, hv, hcut, hre, bgResume_cell hc]
  rfl

/-- One that fails is tested again. -/
theorem bgEnd_fail (hv : sliceVerdict 2 1 b.block b.group x s = .fail) : bgEnd x s =
    putSlice { b with retest := true, cut := false, phase := .test } (sliceCounted b (verdictCode .fail) (signed 1 x s)) := by
  unfold bgEnd
  rw [hb]
  dsimp only
  rw [if_neg (by simp [hc]), hc, hv]
  dsimp only [cutVerdict]
  rw [hre, if_neg (by decide), if_neg (by decide)]

end

/-! ## The window in RUN -/

theorem setWindow_keeps (b : Bool) (s : State) : inWindow (setWindow b s) = b ∧ (setWindow b s).wpk = s.wpk := by
  unfold setWindow
  dsimp only
  refine ⟨?_, rfl⟩
  have hdrawn (u : State) : inWindow (drawn u) = inWindow u := rfl
  rw [hdrawn, inWindow, rd_wr_same, bit_setBit_same (by decide)]

theorem bgCut_none {s : State} (h : s.wpk.bg = none) : bgCut s = s := by
  unfold bgCut
  rw [h]

/-! ## SCAN -/

theorem scan_zeroises {s : State} (hm : s.dev.mode = .hold ∨ s.dev.mode = .safe) : let t := scan s
    t.wpk.zeroising = true ∧ t.flash.key = 0 ∧ t.flash.newPw = 0 ∧ t.dev.mode = s.dev.mode := by
  dsimp only
  unfold scan
  rw [if_pos hm]
  exact ⟨rfl, rfl, rfl, rfl⟩

theorem scan_ignored {s : State} (hm : s.dev.mode = .run) : scan s = ignored 0xB s := by
  unfold scan unlisted
  rw [if_neg (by simp [hm]), if_neg (by simp [hm])]

theorem rd_wpk_fabricStopped {o : Nat} (ho : o < 4096) (s : State) : rd P.WPK o (fabricStopped s) = rd P.WPK o s := by
  have hentry (u : State) : rd P.WPK o (dropEntry u) = rd P.WPK o u := by
    unfold dropEntry
    split
    · rw [rd_setPwr, rd_wrf_other (rkey_page (by decide) ho (by decide))]
    · rfl
  unfold fabricStopped
  rw [rd_wrf_other (rkey_page (by decide) ho (by decide)), hentry, rd_setDev]

/-- The zeroisation ends in SCAN, with the read path of the key fuses locked. -/
theorem zeroised_scans {s : State} (hz : s.wpk.zeroising = true) (hm : s.dev.mode = .hold ∨ s.dev.mode = .safe) :
    let t := zeroised s
    t.dev.mode = .scan ∧ t.wpk.zeroising = false ∧ bit 1 (rd P.WPK R.WPK_SCAN_STAT t) = true := by
  have heq : ∃ w : Wpk, w.zeroising = false ∧
      zeroised s = enterMode .scan (fabricStopped (setWpk w (wrf P.WPK R.WPK_SCAN_STAT 1 1 1 s))) := by
    unfold zeroised
    rw [if_pos ⟨hz, hm⟩]
    exact ⟨_, rfl, rfl⟩
  obtain ⟨w, hw, heq⟩ := heq
  have hset : rd P.WPK R.WPK_SCAN_STAT (setWpk w (wrf P.WPK R.WPK_SCAN_STAT 1 1 1 s)) =
    rd P.WPK R.WPK_SCAN_STAT (wrf P.WPK R.WPK_SCAN_STAT 1 1 1 s) := rfl
  have hwpk (v : State) : (enterMode .scan (fabricStopped v)).wpk = v.wpk := by
    have hsame : SameBut [.mode, .dev, .regs, .pwr, .io] v (enterMode .scan (fabricStopped v)) := by simp (disch := decide)
    exact hsame .wpk (by decide)
  dsimp only
  rw [heq]
  refine ⟨mode_enterMode .., ?_, ?_⟩
  · rw [hwpk]
    exact hw
  · rw [rd_enterMode (noPba_page (by decide) (by decide)) (rkey_page (by decide) (by decide) (by decide)),
      rd_wpk_fabricStopped (by decide), hset, wrf, rd_md_same, bit_setFld_mem (by decide) (by decide) (by decide)]
    rfl

/-- Settles O55: slices, windows and SCAN by their cases. -/
theorem selfTestSlicesAndVerdicts : Obligations.SelfTestSlicesAndVerdicts := by
  intro s
  refine ⟨fun cls blk sl cl x hm => ⟨fun hv => ?_, fun hv => ?_, fun hv => ?_⟩,
    fun test cls block slice x => ⟨sliceVerdict_fail, sliceVerdict_incomplete⟩, fun hm hw => ?_,
    fun hm hw => ⟨_, rfl, windowTimeout_marks hm hw⟩, fun c b hm hbg he ht hc hb hw hclk => ?_,
    fun b hb => ⟨fun hc hp => ?_, fun hc hw => ⟨_, rfl, bgAbort_cell hb hc hw⟩,
      fun hc hw => congrArg Host.Outcome.next (bgAbort_unwanted hb hc hw), fun hc hm hen => ?_, fun x hc hcut hre hv => ?_,
      fun x hc hcut hre hv => ?_⟩, fun hoff => ⟨?_, fun hbg => ?_⟩, fun hm => ⟨_, rfl, scan_zeroises hm⟩,
    fun hm => congrArg Host.Outcome.next (scan_ignored hm), fun hm hz => ⟨_, rfl, zeroised_scans hz hm⟩⟩
  · refine congrArg Host.Outcome.next ((sliceEnd_eq hm).trans ?_)
    rw [show sliceVerdict _ _ _ _ _ _ = Verdict.pass from hv]
    rfl
  · obtain ⟨hfail, -, hended, hfirst⟩ := sliceEnd_marks (block := blk.toNat) (slice := sl.toNat) (cell := cl.toNat) (x := x) (s := s)
      cls.isLt (v := .fail) (by decide)
    obtain ⟨hmark, hother⟩ := hfail rfl
    exact ⟨_, congrArg Host.Outcome.next ((sliceEnd_eq hm).trans (by rw [show sliceVerdict _ _ _ _ _ _ = Verdict.fail from hv])),
      hmark, hother, hended, hfirst⟩
  · obtain ⟨-, hinc, hended, -⟩ := sliceEnd_marks (block := blk.toNat) (slice := sl.toNat) (cell := cl.toNat) (x := x) (s := s)
      cls.isLt (v := .incomplete) (by decide)
    obtain ⟨hmark, hother⟩ := hinc rfl
    exact ⟨_, congrArg Host.Outcome.next ((sliceEnd_eq hm).trans (by rw [show sliceVerdict _ _ _ _ _ _ = Verdict.incomplete from hv])),
      hmark, hother, hended⟩
  · refine congrArg Host.Outcome.next ?_
    unfold windowTimeout
    exact if_pos (.inr hw)
  · obtain ⟨x, w, heq, hcls, hblock, hretest, hcut⟩ := bgStart_starts hm hbg he ht hc hb hw hclk
    have hsame (y : BgSlice) (u : State) : SameBut [.regs, .wpk] u (putSlice y u) := by simp (disch := decide) [putSlice]
    refine ⟨_, congrArg Host.Outcome.next heq, ?_, ?_, ?_⟩
    · rw [← hcls, ← hblock, ← hretest]
      exact congrArg (fun z => some (x.cls, x.block, x.retest, z)) (hcut.trans hretest.symm)
    · rw [putSlice, rd_wr_same, hcls, hblock]
    · exact (hsame x (setWpk w (setWpk { s.wpk with lastClass := c } s))).banks (by decide) (by decide)
  · refine congrArg Host.Outcome.next ?_
    unfold bgPhaseDone
    rw [hb]
    dsimp only
    rw [if_neg (by simp [hc]), hp]
  · refine congrArg Host.Outcome.next ?_
    unfold budgetExpiry
    rw [if_pos ⟨hm, hen⟩, bgCut_cell hb hc]
  · have hsame : SameBut [.regs, .wpk] s (sliceOver (sliceCounted b (verdictCode .pass) (signed 1 x s))) := by
      simp (disch := decide) [signed]
    refine ⟨_, congrArg Host.Outcome.next (bgEnd_pass hb hc hre hcut hv), rfl, ?_, hsame .fab (by decide),
      hsame.banks (by decide) (by decide)⟩
    exact congrArg Wpk.signature (wpk_sliceCounted ..)
  · have hsame (y : BgSlice) : SameBut [.regs, .wpk] s (putSlice y (sliceCounted b (verdictCode .fail) (signed 1 x s))) := by
      simp (disch := decide) [putSlice, signed]
    exact ⟨_, congrArg Host.Outcome.next (bgEnd_fail hb hc hre hv), rfl, hsame _ .fab (by decide)⟩
  · obtain ⟨hin, hwpk⟩ := setWindow_keeps true s
    exact ⟨_, congrArg Host.Outcome.next (if_pos (by simp [wpkRuns, hoff])), hin, hwpk⟩
  · obtain ⟨hin, hwpk⟩ := setWindow_keeps false s
    exact ⟨_, congrArg Host.Outcome.next ((if_pos (by simp [wpkRuns, hoff])).trans
      (bgCut_none (by rw [hwpk, hbg]))), hin, hwpk⟩

end Sys2Proof.Machine

/-! PROOFS. Which components further operations may change. -/

namespace Sys2Proof.Machine

open Sys2Proof

@[simp] theorem sameBut_leaveUp {ps : List Part} (hps : covers ps [.regs, .net, .ring, .time, .io] = true) (s₀ : State) (s : State) :
    SameBut ps s₀ (leaveUp s) ↔ SameBut ps s₀ s := by
  refine SameBut.iff (k := [.regs, .net, .ring, .time, .io]) ?_ hps s₀
  have hasked : SameBut [.regs, .net, .ring, .time, .io] s (s.ring.openRequests.foldl (fun t e =>
      send (.svcUp 6) (stageReply e.2 e.1 [nullWord] E.ABSENT_TARGET) t) s) :=
    (sameBut_foldl_iff (fun t e => by simp (disch := decide)) s _ s).2 (sameBut_refl _ s)
  unfold leaveUp
  dsimp only
  split <;> simpa (disch := decide) using hasked

@[simp] theorem sameBut_setRingState {ps : List Part} (hps : covers ps [.regs, .net, .ring, .time, .io] = true) (s₀ : State) (n : Nat) (s : State) :
    SameBut ps s₀ (setRingState n s) ↔ SameBut ps s₀ s := by
  refine SameBut.iff (k := [.regs, .net, .ring, .time, .io]) ?_ hps s₀
  simp (disch := decide) [setRingState]

@[simp] theorem sameBut_stopOut {ps : List Part} (hps : covers ps [.net] = true) (s₀ : State) (s : State) :
    SameBut ps s₀ (stopOut s) ↔ SameBut ps s₀ s := by
  refine SameBut.iff (k := [.net]) ?_ hps s₀
  simp (disch := decide) [stopOut]

@[simp] theorem sameBut_segmentDown {ps : List Part} (hps : covers ps [.regs, .net, .ring, .time, .io] = true) (s₀ : State) (out : Bool) (s : State) :
    SameBut ps s₀ (segmentDown out s) ↔ SameBut ps s₀ s := by
  refine SameBut.iff (k := [.regs, .net, .ring, .time, .io]) ?_ hps s₀
  simp (disch := decide) [segmentDown]

@[simp] theorem sameBut_ringEntersUp {ps : List Part} (hps : covers ps [.regs, .net, .ring, .time, .io] = true) (s₀ : State) (s : State) :
    SameBut ps s₀ (ringEntersUp s) ↔ SameBut ps s₀ s := by
  refine SameBut.iff (k := [.regs, .net, .ring, .time, .io]) ?_ hps s₀
  simp (disch := decide) [ringEntersUp]

end Sys2Proof.Machine

/-! PROOFS. O56: segments come up and go down, enumeration numbers the nodes, and messages pass on or act here. -/

namespace Sys2Proof.Machine

open Sys2Proof

/-! ## What leaves the segments and their characters -/

/-- The segments, what waits of SYNC pairs and what has been sent of characters. -/
def linkOf (x : RingPort) : Bool × Bool × List (BitVec 64 × BitVec 64) × List (Nat × BitVec 64) :=
  (x.inUp, x.outUp, x.syncs, x.chars)

/-- The answers to the requests of a node that leaves UP touch neither ring port nor registers. -/
theorem asked_keeps (es : List (Word × Word)) (s : State) :
    let t := es.foldl (fun t e => send (.svcUp 6) (stageReply e.2 e.1 [nullWord] E.ABSENT_TARGET) t) s
    t.ring = s.ring ∧ ∀ q o, rd q o t = rd q o s := by
  induction es generalizing s with
  | nil => exact ⟨rfl, fun _ _ => rfl⟩
  | cons e es ih =>
    obtain ⟨hring, hrd⟩ := ih (send (.svcUp 6) (stageReply e.2 e.1 [nullWord] E.ABSENT_TARGET) s)
    have hsend : (send (.svcUp 6) (stageReply e.2 e.1 [nullWord] E.ABSENT_TARGET) s).ring = s.ring :=
      (sameBut_send (ps := [.regs, .net]) (by decide) _ _ _ _).2 (sameBut_refl _ _) .ring (by decide)
    exact ⟨hring.trans hsend, fun q o => (hrd q o).trans (rd_send_svcUp ..)⟩

theorem rd_setQuality_off {q o : Nat} (h : NoPba q o) (hp : q ≠ P.TIME) (ho : o < 4096) (n : Nat) (s : State) :
    rd q o (setQuality n s) = rd q o s := by
  unfold setQuality
  split
  · rfl
  · rw [rd_irq_off h (rkey_page hp ho (by decide)), rd_wrf_other (rkey_page hp ho (by decide))]

theorem ring_setQuality (n : Nat) (s : State) : (setQuality n s).ring = s.ring :=
  (sameBut_setQuality (ps := [.regs, .io]) (by decide) _ _ _).2 (sameBut_refl _ _) .ring (by decide)

theorem leaveUp_keeps (s : State) : linkOf (leaveUp s).ring = linkOf s.ring ∧ ∀ o < 4096, rd P.RING o (leaveUp s) = rd P.RING o s := by
  obtain ⟨hring, hrd⟩ := asked_keeps s.ring.openRequests s
  unfold leaveUp
  generalize s.ring.openRequests.foldl (fun t e =>
    send (.svcUp 6) (stageReply e.2 e.1 [nullWord] E.ABSENT_TARGET) t) s = t at hring hrd
  dsimp only
  split
  · refine ⟨?_, fun o _ => hrd P.RING o⟩
    rw [← hring]
    rfl
  · refine ⟨?_, fun o ho => ?_⟩
    · rw [ring_setQuality, ← hring]
      rfl
    · rw [rd_setQuality_off (noPba_page (by decide) ho) (by decide) ho, rd_setTime, rd_setRing, hrd]

/-- STATE takes its value; the segments, the characters and the other fields of STAT stay. -/
theorem setRingState_keeps {n : Nat} (hn : n < 8) (s : State) : ringState (setRingState n s) = n ∧
    linkOf (setRingState n s).ring = linkOf s.ring ∧
      ∀ hi lo, 3 ≤ lo → hi < 32 → rdf P.RING R.RING_STAT hi lo (setRingState n s) = rdf P.RING R.RING_STAT hi lo s := by
  have hirq (hi lo : Nat) (u : State) : rdf P.RING R.RING_STAT hi lo (irq P.RING 0 u) = rdf P.RING R.RING_STAT hi lo u := by
    rw [rdf, rd_irq_off (noPba_page (by decide) (by decide)) (rkey_off (by decide)), rdf]
  have hring (u : State) : (irq P.RING 0 u).ring = u.ring :=
    (sameBut_irq (ps := [.regs, .io]) (by decide) _ _ _ _).2 (sameBut_refl _ _) .ring (by decide)
  have hset : ringState (irq P.RING 0 (wrf P.RING R.RING_STAT 2 0 n s)) = n := by
    rw [ringState, hirq, rdf_wrf_same (by decide)]
    exact Nat.mod_eq_of_lt hn
  have hother (hi lo : Nat) (h : 3 ≤ lo) (hw : hi < 32) : rdf P.RING R.RING_STAT hi lo (irq P.RING 0 (wrf P.RING R.RING_STAT 2 0 n s)) =
      rdf P.RING R.RING_STAT hi lo s := by
    rw [hirq, rdf, wrf, rd_md_same, fld_setFld_other (by omega) hw, rdf]
  have hlink : linkOf (irq P.RING 0 (wrf P.RING R.RING_STAT 2 0 n s)).ring = linkOf s.ring := by
    rw [hring]
    rfl
  unfold setRingState
  dsimp only
  split
  next h => exact ⟨h, rfl, fun _ _ _ _ => rfl⟩
  next h =>
    generalize irq P.RING 0 (wrf P.RING R.RING_STAT 2 0 n s) = u at hset hother hlink
    split
    · obtain ⟨hlink', hrd'⟩ := leaveUp_keeps u
      have hrdf (hi lo : Nat) : rdf P.RING R.RING_STAT hi lo (leaveUp u) = rdf P.RING R.RING_STAT hi lo u := by
        rw [rdf, hrd' _ (by decide), rdf]
      exact ⟨(hrdf ..).trans hset, hlink'.trans hlink, fun hi lo h hw => (hrdf ..).trans (hother hi lo h hw)⟩
    · exact ⟨hset, hlink, hother⟩

/-! ## What the ring-out sends -/

theorem offAdvance_ringStat : OffAdvance P.RING R.RING_STAT := offAdvance_of_offset (by decide) _

theorem launchSyncs_none {s : State} (h : s.ring.syncs = []) : linkOf (launchSyncs s).ring = linkOf s.ring ∧
    rd P.RING R.RING_STAT (launchSyncs s) = rd P.RING R.RING_STAT s := by
  unfold launchSyncs
  split
  · exact ⟨rfl, rfl⟩
  · rw [h, List.foldl_nil]
    refine ⟨?_, rfl⟩
    rw [linkOf, linkOf, h]
    rfl

/-- SYNC pairs that leave change no segment and no state of the ring. -/
theorem launchSyncs_keeps (s : State) : (launchSyncs s).ring.inUp = s.ring.inUp ∧ (launchSyncs s).ring.outUp = s.ring.outUp ∧
    rd P.RING R.RING_STAT (launchSyncs s) = rd P.RING R.RING_STAT s := by
  have hcount (n : Nat) (u : State) : (countN P.RING R.RING_WORDS_OUT n u).ring = u.ring :=
    (sameBut_countN (ps := [.regs]) (by decide) _ _ _ _ _).2 (sameBut_refl _ _) .ring (by decide)
  unfold launchSyncs
  split
  · exact ⟨rfl, rfl, rfl⟩
  · have hfold (es : List (BitVec 64 × BitVec 64)) (u : State) :
        let t := es.foldl (fun t e => t |> sendChar 0 (e.1 + (t.time.ringTime - e.2)) |> countN P.RING R.RING_WORDS_OUT 2) u
        t.ring.inUp = u.ring.inUp ∧ t.ring.outUp = u.ring.outUp ∧ rd P.RING R.RING_STAT t = rd P.RING R.RING_STAT u := by
      induction es generalizing u with
      | nil => exact ⟨rfl, rfl, rfl⟩
      | cons e es ih =>
        obtain ⟨hi, ho, hr⟩ := ih (countN P.RING R.RING_WORDS_OUT 2 (sendChar 0 (e.1 + (u.time.ringTime - e.2)) u))
        refine ⟨hi.trans ?_, ho.trans ?_, hr.trans (rd_countN_other (rkey_off (by decide)) ..)⟩
        · rw [hcount]
          rfl
        · rw [hcount]
          rfl
    exact hfold s.ring.syncs (setRing { s.ring with syncs := [] } s)

/-- Messages that are launched leave the link and the state of the ring as they are. -/
theorem ringServe_keeps (fuel : Nat) (s : State) : linkOf (ringServe fuel s).ring = linkOf s.ring ∧
    rd P.RING R.RING_STAT (ringServe fuel s) = rd P.RING R.RING_STAT s := by
  induction fuel generalizing s with
  | zero => exact ⟨rfl, rfl⟩
  | succ fuel ih =>
    unfold ringServe
    split
    · exact ⟨rfl, rfl⟩
    · split
      · exact ⟨rfl, rfl⟩
      next m e h =>
        obtain ⟨hlink, hrd⟩ := ih (send .ringOut e.2 (setRing (outTaken m e s.ring) s))
        have hring : (send .ringOut e.2 (setRing (outTaken m e s.ring) s)).ring = outTaken m e s.ring :=
          (sameBut_send (ps := [.regs, .net]) (by decide) _ _ _ _).2 (sameBut_refl _ _) .ring (by decide)
        refine ⟨hlink.trans (by rw [hring]; rfl), hrd.trans ?_⟩
        rw [send, rd_sendAs offAdvance_ringStat, rd_setRing]

theorem ringPump_keeps (s : State) : (ringPump s).ring.inUp = s.ring.inUp ∧ (ringPump s).ring.outUp = s.ring.outUp ∧
    rd P.RING R.RING_STAT (ringPump s) = rd P.RING R.RING_STAT s ∧
      (s.ring.syncs = [] → (ringPump s).ring.chars = s.ring.chars) := by
  obtain ⟨hlink, hrd⟩ := ringServe_keeps (s.ring.mine.length + s.ring.fwd.length) (launchSyncs s)
  obtain ⟨hin, hout, hrd'⟩ := launchSyncs_keeps s
  simp only [linkOf, Prod.mk.injEq] at hlink
  obtain ⟨hin', hout', -, hchars⟩ := hlink
  refine ⟨hin'.trans hin, hout'.trans hout, hrd.trans hrd', fun hs => hchars.trans ?_⟩
  obtain ⟨hlink, -⟩ := launchSyncs_none hs
  simp only [linkOf, Prod.mk.injEq] at hlink
  exact hlink.2.2.2

/-! ## Segments -/

theorem ringState_of_rd {s t : State} (h : rd P.RING R.RING_STAT t = rd P.RING R.RING_STAT s) : ringState t = ringState s := by
  rw [ringState, rdf, h, ringState, rdf]

/-- Ring-in that comes up is recorded with its lanes. -/
def inRaised (live : Nat) (s : State) : State :=
  wrf P.RING R.RING_STAT 27 24 live (setRing { s.ring with inUp := true } s)

theorem lanes_inRaised {live : Nat} (hl : live < 16) (s : State) : rdf P.RING R.RING_STAT 27 24 (inRaised live s) = live := by
  rw [inRaised, rdf_wrf_same (by decide)]
  exact Nat.mod_eq_of_lt hl

section
variable {live : Nat} {s : State} (hs : ringServed s = true) (hl : live ≠ 0) (hin : s.ring.inUp = false)
include hs hl hin

theorem segmentUp_alone (hout : s.ring.outUp = false) : segmentUp false live s = ringPump (setRingState 1 (inRaised live s)) := by
  unfold segmentUp
  rw [if_neg (by simp [hs, hl, hin])]
  exact if_neg (by simp [wrf, md, wr, setRing, setRegs, hout])

theorem segmentUp_both (hout : s.ring.outUp = true) : segmentUp false live s =
    ringPump (if ringLeader (setRingState 2 (inRaised live s)) then sendChar 6 1 (setRingState 2 (inRaised live s))
      else setRingState 2 (inRaised live s)) := by
  unfold segmentUp
  rw [if_neg (by simp [hs, hl, hin])]
  exact if_pos (by simp [wrf, md, wr, setRing, setRegs, hout])

end

/-- A segment that goes down leaves the ring DOWN, and the banks. -/
theorem segmentDown_lowers {out : Bool} {s : State} (h : (if out then s.ring.outUp else s.ring.inUp) = true) :
    let t := segmentDown out s
    (if out then t.ring.outUp else t.ring.inUp) = false ∧ ringState t = 1 ∧ t.banks = s.banks := by
  have heq : ∃ u, segmentDown out s = setRingState 1 u ∧ (if out then u.ring.outUp else u.ring.inUp) = false := by
    unfold segmentDown
    rw [if_neg (by simp [h])]
    cases out <;> exact ⟨_, rfl, rfl⟩
  have hsame : SameBut [.regs, .net, .ring, .time, .io] s (segmentDown out s) := by simp (disch := decide)
  obtain ⟨u, heq, hu⟩ := heq
  obtain ⟨hstate, hlink, -⟩ := setRingState_keeps (n := 1) (by decide) u
  simp only [linkOf, Prod.mk.injEq] at hlink
  obtain ⟨hi, ho, -⟩ := hlink
  dsimp only
  refine ⟨?_, by rw [heq, hstate], hsame.banks (by decide) (by decide)⟩
  rw [heq, hi, ho, hu]

/-! ## Enumeration -/

section
variable {s : State} (hs : ringServed s = true) (hin : s.ring.inUp = true) (hout : s.ring.outUp = true)
include hs hin hout

theorem enumChar_leader (n : Nat) (hl : ringLeader s = true) : ∃ x : RingPort, x.awaitTmax = true ∧
    x.chars = s.ring.chars ++ [(9, (s.time.ringTime >>> 28) &&& 0xFFFFFFFFF)] ∧
      enumChar n s = setRing x (sendChar 9 ((ringTime s >>> 28) &&& 0xFFFFFFFFF) (wrf P.RING R.RING_STAT 23 16 n s)) := by
  unfold enumChar
  rw [if_neg (by simp [hs, hin, hout]), if_pos hl]
  exact ⟨_, rfl, rfl, rfl⟩

theorem enumChar_numbered {n : Nat} (hl : ringLeader s = false) (hn : n < 250) :
    enumChar n s = sendChar 6 (BitVec.ofNat 64 (n + 1)) (wrf P.RING R.RING_STAT 15 8 (n + 1) s) := by
  unfold enumChar
  rw [if_neg (by simp [hs, hin, hout]), if_neg (by simp [hl]), if_neg (Nat.not_le.2 hn)]

theorem enumChar_full {n : Nat} (hl : ringLeader s = false) (hn : 250 ≤ n) :
    enumChar n s = sendChar 6 (BitVec.ofNat 64 n) (wrf P.RING R.RING_STAT 15 8 0 s) := by
  unfold enumChar
  rw [if_neg (by simp [hs, hin, hout]), if_neg (by simp [hl]), if_pos hn]

/-- TMAX at a numbered follower passes on as the greater time, and the node is UP. -/
theorem tmax_follower (v : BitVec 36) (hl : ringLeader s = false) (hown : ownNode s ≠ 0) :
    let own : BitVec 36 := (s.time.ringTime >>> 28).setWidth 36
    ringState (tmax v s) = 3 ∧
      (tmax v s).ring.chars = s.ring.chars ++ [(9, (if own < v then v else own).setWidth 64)] := by
  intro own
  have heq : tmax v s = count P.RING R.RING_ENUMS (setRingState 3 (sendChar 9 ((if own < v then v else own).setWidth 64) s)) := by
    unfold tmax
    dsimp only
    rw [if_neg (by simp [hs, hin, hout]), if_neg (by simp [hl]), if_neg hown]
    rfl
  obtain ⟨hstate, hlink, -⟩ := setRingState_keeps (n := 3) (by decide) (sendChar 9 ((if own < v then v else own).setWidth 64) s)
  simp only [linkOf, Prod.mk.injEq] at hlink
  have hring (u : State) : (count P.RING R.RING_ENUMS u).ring = u.ring :=
    (sameBut_count (ps := [.regs]) (by decide) _ _ _ _).2 (sameBut_refl _ _) .ring (by decide)
  have hrd (u : State) : rd P.RING R.RING_STAT (count P.RING R.RING_ENUMS u) = rd P.RING R.RING_STAT u :=
    rd_countN_other (rkey_off (by decide)) ..
  rw [heq]
  refine ⟨(ringState_of_rd (hrd _)).trans hstate, ?_⟩
  rw [hring, hlink.2.2.2]
  rfl

end

/-! ## Messages -/

theorem ringArrive_down {s : State} (hdown : ringServed s = true → s.ring.inUp = false) (hasleep : ringServed s = false →
    (s.dev.mode ≠ .sleep ∧ s.dev.mode ≠ .bear) ∨ ringStrapped s = false ∨ wakeEnabled 0 s = false)
    (o : RingOrigin) (ws : List TWord) : ringArrive o ws s = s := by
  have hquiet (reason : Nat) (hs : ringServed s = false) : ringActivity reason s = s := by
    unfold ringActivity
    exact if_neg (by rcases hasleep hs with ⟨h1, h2⟩ | h | h <;> simp [*])
  unfold ringArrive
  dsimp only
  cases hs : ringServed s with
  | false => rw [if_pos (by decide), hquiet _ hs]
  | true => rw [if_neg (by decide), if_pos (by rw [hdown hs]; decide)]

/-- A message for another node, as its words. -/
def passingMsg (cls : Nat) (route : Word) (ws : List Word) : Msg where
  head := (headWord cls 0 ws.length).data
  route := route
  payload := ws.map (tw .data)
  status := 0

theorem message_eq (cls : Nat) (route : Word) (ws : List Word) : message cls 0 route (ws.map (tw .data)) 0 =
    [tw .head (passingMsg cls route ws).head, tw .data route] ++ ws.map (tw .data) ++ [trailer 0] := by
  simp [message, passingMsg, headWord, tw]

theorem firstMsg_message (cls : Nat) (route : Word) (ws : List Word) :
    firstMsg (message cls 0 route (ws.map (tw .data)) 0) = some (passingMsg cls route ws, []) := by
  have hcut := splitLast_append (t := trailer 0) (rest := [])
    (l := [tw .head (passingMsg cls route ws).head, tw .data route] ++ ws.map (tw .data)) (by simp [tw]) rfl
  have hstatus : fld 31 24 (trailer 0).data = 0 := by decide
  rw [message_eq, firstMsg, hcut]
  simp [hstatus, passingMsg, tw]

theorem message_parGood (cls : Nat) (route : Word) (ws : List Word) :
    ∀ w ∈ message cls 0 route (ws.map (tw .data)) 0, parGood w = true := by
  simp [message, headWord, trailer, or_imp, forall_and, parGood_tw]

/-- A message that arrives whole over a segment that is up is counted and handled. -/
theorem ringArrive_message {s : State} (hs : ringServed s = true) (hin : s.ring.inUp = true) (o : RingOrigin) (cls : Nat)
    (route : Word) (ws : List Word) : ringArrive o (message cls 0 route (ws.map (tw .data)) 0) s =
      ringHandle o (passingMsg cls route ws) (ringCounted (ws.length + 3) s) := by
  have hgood := message_parGood cls route ws
  have hfresh : (message cls 0 route (ws.map (tw .data)) 0).map (fun w => tw w.tag w.data) =
      message cls 0 route (ws.map (tw .data)) 0 :=
    (List.map_congr_left fun w hw => tw_of_parGood (hgood w hw)).trans (List.map_id _)
  have hhead : (message cls 0 route (ws.map (tw .data)) 0).dropWhile (fun w => w.tag != .head) =
      message cls 0 route (ws.map (tw .data)) 0 := by simp [message, headWord, tw]
  have hbad : (message cls 0 route (ws.map (tw .data)) 0).filter (fun w => !parGood w) = [] := by
    simpa [List.filter_eq_nil_iff] using hgood
  have hlen : (message cls 0 route (ws.map (tw .data)) 0).length = ws.length + 3 := by simp [message]
  have hstatus : (passingMsg cls route ws).status ≠ E.UNTERMINATED := Nat.zero_ne_add_one _
  simp [ringArrive, ringCounted, hs, hin, hfresh, hhead, hbad, hlen, firstMsg_message, hstatus]

/-- A message for a node further on passes. -/
theorem ringHandle_passes {o : RingOrigin} {cls node dst : Nat} {ws : List Word} {s : State} (hown : ownNode s ≠ 0)
    (ho : o.node ≠ ownNode s) (hn : node < 251) (hne : node ≠ ownNode s) (hd : dst < 512) :
    ringHandle o (passingMsg cls (W (2 ^ 31 + node * 2 ^ 22 + dst)) ws) s =
      ringForward o.char (message cls 0 (W (2 ^ 31 + node * 2 ^ 22 + dst)) (ws.map (tw .data)) 0) s := by
  have hroute : fld 29 22 (W (2 ^ 31 + node * 2 ^ 22 + dst)) = node := by
    rw [fld_W]
    omega
  have hmsg : (passingMsg cls (W (2 ^ 31 + node * 2 ^ 22 + dst)) ws).route = W (2 ^ 31 + node * 2 ^ 22 + dst) := rfl
  generalize hw : W (2 ^ 31 + node * 2 ^ 22 + dst) = w at hroute hmsg ⊢
  unfold ringHandle
  dsimp only
  rw [hmsg, hroute, if_neg hown, if_neg ho, if_neg (by omega), if_neg hne, message_eq]
  rfl

/-! ## RESET in RUN -/

theorem rd_ringCounted {q o : Nat} (hq : q ≠ P.RING) (ho : o < 4096) (n : Nat) (s : State) :
    rd q o (ringCounted n s) = rd q o s := by
  rw [ringCounted, rd_countN_other (rkey_page hq ho (by decide)), rd_countN_other (rkey_page hq ho (by decide))]

theorem resetMessage_run {o : RingOrigin} {s : State} (hm : s.dev.mode = .run) (hen : bit 0 (rd P.RST R.RST_CTL s) = true) :
    resetMessage o 1 s = deviceReset 4 s := by
  unfold resetMessage ringReset
  rw [if_neg (by decide), if_neg (by simp [hen]), if_neg (by simp [hm])]

/-- Ring-in that comes up where ring-out is down: the ring is DOWN, with its lanes recorded. -/
theorem segmentUp_alone_holds {live : Nat} (hlive : live < 16) {s : State} (hs : ringServed s = true) (hl : live ≠ 0)
    (hin : s.ring.inUp = false) (hout : s.ring.outUp = false) : let t := segmentUp false live s
    t.ring.inUp = true ∧ t.ring.outUp = false ∧ ringState t = 1 ∧ rdf P.RING R.RING_STAT 27 24 t = live := by
  obtain ⟨hin', hout', hrd, -⟩ := ringPump_keeps (setRingState 1 (inRaised live s))
  obtain ⟨hstate, hlink, hother⟩ := setRingState_keeps (n := 1) (by decide) (inRaised live s)
  simp only [linkOf, Prod.mk.injEq] at hlink
  obtain ⟨hi, ho, -⟩ := hlink
  dsimp only
  rw [segmentUp_alone hs hl hin hout]
  refine ⟨hin'.trans hi, (hout'.trans ho).trans hout, (ringState_of_rd hrd).trans hstate, ?_⟩
  rw [rdf, hrd, ← rdf, hother 27 24 (by decide) (by decide), lanes_inRaised hlive]

/-- Where ring-out is up the ring is OPEN, and the leader enumerates from 1. -/
theorem segmentUp_both_holds {live : Nat} {s : State} (hs : ringServed s = true) (hl : live ≠ 0)
    (hin : s.ring.inUp = false) (hout : s.ring.outUp = true) : let t := segmentUp false live s
    t.ring.inUp = true ∧ ringState t = 2 ∧
      (ringLeader s = true → s.ring.syncs = [] → t.ring.chars = s.ring.chars ++ [(6, 1)]) := by
  obtain ⟨hstate, hlink, -⟩ := setRingState_keeps (n := 2) (by decide) (inRaised live s)
  have hleader : ringLeader (setRingState 2 (inRaised live s)) = ringLeader s := by
    have hdev : (setRingState 2 (inRaised live s)).dev = (inRaised live s).dev :=
      ((sameBut_setRingState (ps := [.regs, .net, .ring, .time, .io]) (by decide) (inRaised live s) 2 _).2
        (sameBut_refl _ _)).device (by decide) (by decide)
    rw [ringLeader, strapRing, hdev]
    rfl
  simp only [linkOf, Prod.mk.injEq] at hlink
  obtain ⟨hi, -, hsyncs, hchars⟩ := hlink
  dsimp only
  rw [segmentUp_both hs hl hin hout, hleader]
  generalize setRingState 2 (inRaised live s) = u at hstate hi hsyncs hchars
  cases hlead : ringLeader s with
  | true =>
    rw [if_pos rfl]
    obtain ⟨hin', -, hrd, hchars'⟩ := ringPump_keeps (sendChar 6 1 u)
    refine ⟨hin'.trans hi, (ringState_of_rd hrd).trans hstate, fun _ hempty => (hchars' (hsyncs.trans hempty)).trans ?_⟩
    exact congrArg (· ++ [(6, 1)]) hchars
  | false =>
    rw [if_neg (by decide)]
    obtain ⟨hin', -, hrd, -⟩ := ringPump_keeps u
    exact ⟨hin'.trans hi, (ringState_of_rd hrd).trans hstate, nofun⟩

/-- Settles O56: segments and enumeration by their cases; a message by its destination. -/
theorem ringSegmentsEnumerateAndDeliver : Obligations.RingSegmentsEnumerateAndDeliver := by
  intro s
  have hne (live : BitVec 4) (h : live ≠ 0) : live.toNat ≠ 0 := fun h0 => h (BitVec.eq_of_toNat_eq (by simpa using h0))
  refine ⟨fun live hs hl hin hout => ⟨_, rfl, segmentUp_alone_holds live.isLt hs (hne live hl) hin hout⟩,
    fun live hs hl hin hout => ⟨_, rfl, segmentUp_both_holds hs (hne live hl) hin hout⟩,
    fun out h => ⟨_, rfl, segmentDown_lowers h⟩,
    fun n hs hin hout => ⟨fun hl => ?_, fun hl hn => ?_, fun hl hn => ?_⟩,
    fun v hs hin hout hl hown => ⟨_, rfl, tmax_follower hs hin hout v hl hown⟩,
    fun origin kind index ws hdown hasleep => congrArg Host.Outcome.next (ringArrive_down hdown hasleep _ ws),
    fun origin kind index cls node dst ws hp hcls hn h0 hne hd hlen => ?_, fun origin at_ scope hp => ?_, fun origin reason hp => ?_,
    fun origin hp hm hen => ?_⟩
  · obtain ⟨x, hawait, hchars, heq⟩ := enumChar_leader hs hin hout n.toNat hl
    refine ⟨_, congrArg Host.Outcome.next heq, ?_, hchars, hawait⟩
    show rdf P.RING R.RING_STAT 23 16 (wrf P.RING R.RING_STAT 23 16 n.toNat s) = _
    rw [rdf_wrf_same (by decide)]
    exact Nat.mod_eq_of_lt n.isLt
  · refine ⟨_, congrArg Host.Outcome.next (enumChar_numbered hs hin hout hl hn), ?_, rfl⟩
    show rdf P.RING R.RING_STAT 15 8 (wrf P.RING R.RING_STAT 15 8 (n.toNat + 1) s) = _
    rw [rdf_wrf_same (by decide)]
    exact Nat.mod_eq_of_lt (by omega)
  · refine ⟨_, congrArg Host.Outcome.next (enumChar_full hs hin hout hl hn), ?_, rfl⟩
    show rdf P.RING R.RING_STAT 15 8 (wrf P.RING R.RING_STAT 15 8 0 s) = _
    rw [rdf_wrf_same (by decide)]
    rfl
  · obtain ⟨hs, hin, hown, ho, -⟩ := hp
    intro route
    refine congrArg Host.Outcome.next ((ringArrive_message hs hin _ cls route ws).trans ?_)
    exact ringHandle_passes (by simpa using hown) (by simpa using ho) hn (by simpa using hne) hd
  · have hup : startingUp (ringCounted 6 s) = false := (startingUp_ringCounted ..).trans hp.2.2.2.2
    have hcopy : levelCopy ⟨origin.toNat, 3, 5⟩ 0x30 [lo32 at_, hi32 at_, scope] (ringCounted 6 s) =
        snapMessage at_ scope (ringCounted 6 s) := by
      unfold levelCopy
      rw [if_neg (by simp [hup])]
      simp [join64_lo32_hi32]
    rw [← hcopy]
    exact congrArg Host.Outcome.next
      (levelArrives_forwards hp (by decide) (by decide) (by decide) (by decide) (by decide) rfl (by decide : 3 < 4096))
  · have hup : startingUp (ringCounted 4 s) = false := (startingUp_ringCounted ..).trans hp.2.2.2.2
    have hreason : fld 7 0 (reason.setWidth 32) = reason.toNat := by
      simp only [fld, BitVec.toNat_setWidth]
      have := reason.isLt
      omega
    have hcopy : levelCopy ⟨origin.toNat, 3, 6⟩ 0x50 [reason.setWidth 32] (ringCounted 4 s) =
        wakeMessage reason.toNat (ringCounted 4 s) := by
      unfold levelCopy
      rw [if_neg (by simp [hup])]
      exact congrArg (fun n => wakeMessage n (ringCounted 4 s)) hreason
    rw [← hcopy]
    exact congrArg Host.Outcome.next
      (levelArrives_forwards hp (by decide) (by decide) (by decide) (by decide) (by decide) rfl (by decide : 1 < 4096))
  · have hup : startingUp (ringCounted 4 s) = false := (startingUp_ringCounted ..).trans hp.2.2.2.2
    have hmode : (ringCounted 4 s).dev.mode = .run := by rw [ringCounted_dev, hm]
    have hcopy : levelCopy ⟨origin.toNat, 3, 6⟩ 0x51 [1] (ringCounted 4 s) = deviceReset 4 (ringCounted 4 s) := by
      unfold levelCopy
      rw [if_neg (by simp [hup])]
      exact resetMessage_run hmode (by rw [rd_ringCounted (by decide) (by decide), hen])
    rw [← hcopy]
    refine congrArg Host.Outcome.next ((if_neg (by simp [hm])).trans ?_)
    exact levelArrives_forwards hp (by decide) (by decide) (by decide) (by decide) (by decide) rfl (by decide : 1 < 4096)

end Sys2Proof.Machine

/-! PROOFS. O57: ring time is sent and corrected. -/

namespace Sys2Proof.Machine

open Sys2Proof

/-! ## Quality and corrections -/

theorem time_irq (p b : Nat) (s : State) : (irq p b s).time = s.time :=
  (sameBut_irq (ps := [.regs, .io]) (by decide) _ _ _ _).2 (sameBut_refl _ _) .time (by decide)

theorem ring_irq (p b : Nat) (s : State) : (irq p b s).ring = s.ring :=
  (sameBut_irq (ps := [.regs, .io]) (by decide) _ _ _ _).2 (sameBut_refl _ _) .ring (by decide)

/-- A quality that is decided is written to STAT alone. -/
theorem decideQuality_eq (s : State) : ∃ q, decideQuality s = setQuality q s := by
  unfold decideQuality
  split <;> exact ⟨_, rfl⟩

theorem time_decideQuality (s : State) : (decideQuality s).time = s.time :=
  (sameBut_decideQuality (ps := [.regs, .io]) (by decide) _ _).2 (sameBut_refl _ _) .time (by decide)

/-- A register that is neither STAT nor the pending interrupts of TIME stays when the quality changes. -/
theorem rd_decideQuality {o : Nat} (ho : o < 4096) (hstat : o / 4 ≠ R.TIME_STAT / 4) (hpend : o / 4 ≠ R.IRQ_PEND / 4) (s : State) :
    rd P.TIME o (decideQuality s) = rd P.TIME o s := by
  obtain ⟨q, heq⟩ := decideQuality_eq s
  rw [heq, setQuality]
  split
  · rfl
  · rw [rd_irq_off (noPba_page (by decide) ho) (rkey_off hpend), rd_wrf_other (rkey_off hstat)]

theorem rd_correct {o : Nat} (ho : o < 4096) (hpend : o / 4 ≠ R.IRQ_PEND / 4) (d : Int) (s : State) :
    rd P.TIME o (correct d s) = rd P.TIME o s := by
  unfold correct
  dsimp only
  split
  · rw [rd_irq_off (noPba_page (by decide) ho) (rkey_off hpend), rd_setTime]
  · rw [rd_setTime]

/-- An offset within the limit is slewed. -/
theorem correct_slews {d : Int} {s : State} (h : d ≤ (rd P.TIME R.TIME_STEP_LIMIT s).toNat * 1000) :
    correct d s = setTime { s.time with slew := BitVec.ofInt 64 d } s := by
  unfold correct
  exact if_neg (not_lt.2 h)

/-- One beyond it is stepped. -/
theorem correct_steps {d : Int} {s : State} (h : (rd P.TIME R.TIME_STEP_LIMIT s).toNat * 1000 < d) :
    (correct d s).time = { s.time with ringTime := s.time.ringTime + BitVec.ofInt 64 d, slew := 0 } := by
  unfold correct
  dsimp only
  rw [if_pos h, time_irq]
  rfl

/-! ## SYNC pairs -/

/-- A pair that finds the ring-out idle leaves at once, as it is. -/
theorem sendSync_idle {s : State} (v : BitVec 64) (hout : s.ring.outUp = true) (hq : (chan .ringOut s).sendq = [])
    (hs : s.ring.syncs = []) : (sendSync v s).ring.chars = s.ring.chars ++ [(0, v)] := by
  have heq : sendSync v s = countN P.RING R.RING_WORDS_OUT 2 (sendChar 0 (v + (s.time.ringTime - s.time.ringTime))
      (setRing { s.ring with syncs := [] } s)) := by
    have hq' : (chan .ringOut (setRing { s.ring with syncs := s.ring.syncs ++ [(v, s.time.ringTime)] } s)).sendq = [] := hq
    unfold sendSync launchSyncs
    rw [if_neg (by rw [hq']; simp [setRing, hout])]
    show List.foldl _ (setRing _ _) (s.ring.syncs ++ [(v, s.time.ringTime)]) = _
    rw [hs]
    rfl
  have hcount (u : State) : (countN P.RING R.RING_WORDS_OUT 2 u).ring = u.ring :=
    (sameBut_countN (ps := [.regs]) (by decide) _ _ _ _ _).2 (sameBut_refl _ _) .ring (by decide)
  rw [heq, hcount, BitVec.sub_self, BitVec.add_zero]
  rfl

theorem time_sendSync (v : BitVec 64) (s : State) : (sendSync v s).time = s.time :=
  (sameBut_sendSync (ps := [.regs, .ring]) (by decide) _ _ _).2 (sameBut_refl _ _) .time (by decide)

/-- The counters of the ring that a pair moves are on the RING page. -/
theorem rd_time_sendSync {o : Nat} (ho : o < 4096) (v : BitVec 64) (s : State) : rd P.TIME o (sendSync v s) = rd P.TIME o s := by
  have hfold (es : List (BitVec 64 × BitVec 64)) (u : State) : rd P.TIME o (es.foldl (fun t e =>
      t |> sendChar 0 (e.1 + (t.time.ringTime - e.2)) |> countN P.RING R.RING_WORDS_OUT 2) u) = rd P.TIME o u := by
    induction es generalizing u with
    | nil => rfl
    | cons e es ih => exact (ih _).trans (rd_countN_other (rkey_page (by decide) ho (by decide)) ..)
  unfold sendSync launchSyncs
  split
  · exact rd_setRing ..
  · rw [hfold, rd_setRing, rd_setRing]

theorem syncSend_sends {s : State} (hm : s.dev.mode = .run) (hsampled : s.dev.sampled = true) (hl : ringLeader s = true)
    (hup : ringUp s = true) (hout : s.ring.outUp = true) (hq : (chan .ringOut s).sendq = []) (hs : s.ring.syncs = []) :
    (syncSend s).ring.chars = s.ring.chars ++ [(0, s.time.ringTime)] ∧ (syncSend s).time.ringTime = s.time.ringTime := by
  have heq : syncSend s = decideQuality (sendSync s.time.ringTime s) := by
    unfold syncSend
    rw [if_neg (by simp [timeRuns, hm, hl, hsampled]), if_pos (by simp [hup, hout])]
    rfl
  have hring : (decideQuality (sendSync s.time.ringTime s)).ring = (sendSync s.time.ringTime s).ring :=
    (sameBut_decideQuality (ps := [.regs, .io]) (by decide) _ _).2 (sameBut_refl _ _) .ring (by decide)
  rw [heq, hring, time_decideQuality, time_sendSync, sendSync_idle _ hout hq hs]
  exact ⟨rfl, rfl⟩

/-- What a follower makes of the offset d that a pair shows. -/
def offsetTaken (d : Int) (s : State) : State :=
  decideQuality (correct d (noteOffset d (count P.TIME R.TIME_SYNC_RX (wr P.TIME R.TIME_OFFSET (sat32 d) s))))

theorem time_offsetTaken (d : Int) (s : State) :
    (d ≤ (rd P.TIME R.TIME_STEP_LIMIT s).toNat * 1000 → (offsetTaken d s).time.ringTime = s.time.ringTime ∧
      (offsetTaken d s).time.slew = BitVec.ofInt 64 d) ∧
    ((rd P.TIME R.TIME_STEP_LIMIT s).toNat * 1000 < d →
      (offsetTaken d s).time.ringTime = s.time.ringTime + BitVec.ofInt 64 d) := by
  have hcount (u : State) : (count P.TIME R.TIME_SYNC_RX u).time = u.time :=
    (sameBut_count (ps := [.regs]) (by decide) _ _ _ _).2 (sameBut_refl _ _) .time (by decide)
  have hlimit : rd P.TIME R.TIME_STEP_LIMIT (noteOffset d (count P.TIME R.TIME_SYNC_RX (wr P.TIME R.TIME_OFFSET (sat32 d) s))) =
      rd P.TIME R.TIME_STEP_LIMIT s := by
    rw [noteOffset, rd_setTime, count, rd_countN_other (rkey_off (by decide)), rd_wr_other (rkey_off (by decide))]
  have htime : (noteOffset d (count P.TIME R.TIME_SYNC_RX (wr P.TIME R.TIME_OFFSET (sat32 d) s))).time.ringTime =
      s.time.ringTime := by
    show (count P.TIME R.TIME_SYNC_RX (wr P.TIME R.TIME_OFFSET (sat32 d) s)).time.ringTime = _
    rw [hcount]
    rfl
  unfold offsetTaken
  rw [time_decideQuality]
  refine ⟨fun h => ?_, fun h => ?_⟩
  · rw [correct_slews (by rw [hlimit]; exact h)]
    exact ⟨htime, rfl⟩
  · rw [correct_steps (by rw [hlimit]; exact h), ← htime]

theorem rd_offset_offsetTaken (d : Int) (s : State) : rd P.TIME R.TIME_OFFSET (offsetTaken d s) = sat32 d := by
  unfold offsetTaken
  rw [rd_decideQuality (by decide) (by decide) (by decide), rd_correct (by decide) (by decide), noteOffset, rd_setTime, count,
    rd_countN_other (rkey_off (by decide)), rd_wr_same]

theorem offsetTaken_keeps (d : Int) (s : State) : (offsetTaken d s).ring = s.ring ∧ (offsetTaken d s).net = s.net := by
  have hsame : SameBut [.regs, .time, .io] s (offsetTaken d s) := by simp (disch := decide) [offsetTaken, noteOffset]
  exact ⟨hsame .ring (by decide), hsame .net (by decide)⟩

/-- A pair at a follower that is UP: the offset is taken, and the pair goes on with the hop delay. -/
theorem syncPair_eq {v : BitVec 64} {s : State} (hs : ringServed s = true) (hin : s.ring.inUp = true) (hl : ringLeader s = false)
    (hup : ringUp s = true) (hown : ownNode s ≠ 0) :
    let w := v + BitVec.ofNat 64 (rdf P.RING R.RING_HOP_DELAY 15 0 s / 1000)
    let t := offsetTaken ((w.toNat : Int) - s.time.ringTime.toNat) (countN P.RING R.RING_WORDS_IN 2 s)
    syncPair v s = if t.ring.outUp then sendSync w t else t := by
  have hrdf (o hi lo : Nat) (h : o / 4 ≠ R.RING_WORDS_IN / 4) :
      rdf P.RING o hi lo (countN P.RING R.RING_WORDS_IN 2 s) = rdf P.RING o hi lo s := by
    rw [rdf, rd_countN_other (rkey_off h), rdf]
  have hregs := regsIoOnly_countN P.RING R.RING_WORDS_IN 2 s
  have hup' : ringUp (countN P.RING R.RING_WORDS_IN 2 s) = true := by
    rw [ringUp, hrdf _ _ _ (by decide)]
    exact hup
  have hown' : ownNode (countN P.RING R.RING_WORDS_IN 2 s) ≠ 0 := by
    rw [ownNode, hrdf _ _ _ (by decide)]
    exact hown
  have hl' : ringLeader (countN P.RING R.RING_WORDS_IN 2 s) = false := by
    rw [ringLeader, strapRing, hregs.dev]
    exact hl
  have hhop : hopNs (countN P.RING R.RING_WORDS_IN 2 s) = rdf P.RING R.RING_HOP_DELAY 15 0 s / 1000 := by
    rw [hopNs, hrdf _ _ _ (by decide)]
  have htime : ringTime (countN P.RING R.RING_WORDS_IN 2 s) = s.time.ringTime := by
    have h : (countN P.RING R.RING_WORDS_IN 2 s).time = s.time :=
      (sameBut_countN (ps := [.regs]) (by decide) _ _ _ _ _).2 (sameBut_refl _ _) .time (by decide)
    rw [ringTime, h]
  intro w t
  unfold syncPair
  rw [if_neg (by simp [hs, hin])]
  dsimp only
  have hboth : (ringUp (countN P.RING R.RING_WORDS_IN 2 s) && ownNode (countN P.RING R.RING_WORDS_IN 2 s) != 0) = true := by
    simp [hup', hown']
  rw [if_neg (by simp [hl']), if_pos hboth, hhop, htime]
  rfl

theorem syncPair_holds {v : BitVec 64} {s : State} (hs : ringServed s = true) (hin : s.ring.inUp = true)
    (hl : ringLeader s = false) (hup : ringUp s = true) (hown : ownNode s ≠ 0) :
    let w := v + BitVec.ofNat 64 (rdf P.RING R.RING_HOP_DELAY 15 0 s / 1000)
    let d : Int := (w.toNat : Int) - s.time.ringTime.toNat
    let t := syncPair v s
    rd P.TIME R.TIME_OFFSET t = sat32 d ∧
      (s.ring.outUp = true → (chan .ringOut s).sendq = [] → s.ring.syncs = [] → t.ring.chars = s.ring.chars ++ [(0, w)]) ∧
      (d ≤ (rd P.TIME R.TIME_STEP_LIMIT s).toNat * 1000 → t.time.ringTime = s.time.ringTime ∧ t.time.slew = BitVec.ofInt 64 d) ∧
      ((rd P.TIME R.TIME_STEP_LIMIT s).toNat * 1000 < d → t.time.ringTime = s.time.ringTime + BitVec.ofInt 64 d) := by
  intro w d t
  have heq : t = if (offsetTaken d (countN P.RING R.RING_WORDS_IN 2 s)).ring.outUp then
      sendSync w (offsetTaken d (countN P.RING R.RING_WORDS_IN 2 s)) else offsetTaken d (countN P.RING R.RING_WORDS_IN 2 s) :=
    syncPair_eq hs hin hl hup hown
  have hcounted : SameBut [.regs] s (countN P.RING R.RING_WORDS_IN 2 s) := by simp (disch := decide)
  have hlimit : rd P.TIME R.TIME_STEP_LIMIT (countN P.RING R.RING_WORDS_IN 2 s) = rd P.TIME R.TIME_STEP_LIMIT s :=
    rd_countN_other (rkey_page (by decide) (by decide) (by decide)) ..
  obtain ⟨hslew, hstep⟩ := time_offsetTaken d (countN P.RING R.RING_WORDS_IN 2 s)
  obtain ⟨hring, hnet⟩ := offsetTaken_keeps d (countN P.RING R.RING_WORDS_IN 2 s)
  have hoffset := rd_offset_offsetTaken d (countN P.RING R.RING_WORDS_IN 2 s)
  rw [hlimit, show (countN P.RING R.RING_WORDS_IN 2 s).time = s.time from hcounted .time (by decide)] at hslew hstep
  rw [show (countN P.RING R.RING_WORDS_IN 2 s).ring = s.ring from hcounted .ring (by decide)] at hring
  rw [show (countN P.RING R.RING_WORDS_IN 2 s).net = s.net from hcounted .net (by decide)] at hnet
  generalize offsetTaken d (countN P.RING R.RING_WORDS_IN 2 s) = u at heq hslew hstep hring hnet hoffset
  have htime : t.time = u.time := by
    rw [heq]
    split
    · exact time_sendSync ..
    · rfl
  refine ⟨?_, fun hout hq hsyncs => ?_, ?_, ?_⟩
  · rw [heq]
    split
    · exact (rd_time_sendSync (by decide) ..).trans hoffset
    · exact hoffset
  · have hchan : chan .ringOut u = chan .ringOut s := by rw [chan, hnet, chan]
    rw [heq, if_pos (by rw [hring, hout]), sendSync_idle w (by rw [hring, hout]) (by rw [hchan, hq]) (by rw [hring, hsyncs]), hring]
  · rw [htime]
    exact hslew
  · rw [htime]
    exact hstep

/-! ## Timeouts, echoes, adjustments and stamps -/

theorem rdf_quality_setQuality {q : Nat} (hq : q < 8) (s : State) : rdf P.TIME R.TIME_STAT 2 0 (setQuality q s) = q := by
  unfold setQuality
  split
  · assumption
  · rw [rdf, rd_irq_off (noPba_page (by decide) (by decide)) (rkey_off (by decide)), ← rdf, rdf_wrf_same (by decide)]
    exact Nat.mod_eq_of_lt hq

theorem syncTimeout_follower {s : State} (hm : s.dev.mode = .run) (hsampled : s.dev.sampled = true) (hl : ringLeader s = false) :
    let t := syncTimeout s
    rdf P.TIME R.TIME_STAT 2 0 t = 0 ∧ t.time.lastGood = [] ∧ t.time.ringTime = s.time.ringTime := by
  have heq : syncTimeout s = setQuality 0 (setTime { (countN P.TIME R.TIME_SYNC_MISSED 4 s).time with lastGood := [] }
      (countN P.TIME R.TIME_SYNC_MISSED 4 s)) := by
    unfold syncTimeout
    rw [if_neg (by simp [timeRuns, hm, hsampled]), if_neg (by simp [hl])]
  have hcount : (countN P.TIME R.TIME_SYNC_MISSED 4 s).time = s.time :=
    (sameBut_countN (ps := [.regs]) (by decide) _ _ _ _ _).2 (sameBut_refl _ _) .time (by decide)
  have htime (u : State) : (setQuality 0 u).time = u.time :=
    (sameBut_setQuality (ps := [.regs, .io]) (by decide) _ _ _).2 (sameBut_refl _ _) .time (by decide)
  dsimp only
  rw [heq, hcount]
  refine ⟨rdf_quality_setQuality (by decide) _, ?_, ?_⟩
  · rw [htime]
    rfl
  · rw [htime]
    rfl

theorem echoDone_joins {ps : Nat} (hps : ps < 65536) {s : State} (hs : ringServed s = true) (hin : s.ring.inUp = true) :
    let t := echoDone ps s
    (s.ring.echoes = [] → rdf P.RING R.RING_HOP_DELAY 15 0 t = ps) ∧ t.ring.echoes = (ps :: s.ring.echoes).take 16 := by
  have heq : echoDone ps s = wrf P.RING R.RING_HOP_DELAY 15 0
      (((ps :: s.ring.echoes).take 16).sum / ((ps :: s.ring.echoes).take 16).length)
      (setRing { s.ring with echoes := (ps :: s.ring.echoes).take 16 } s) := by
    unfold echoDone
    exact if_neg (by simp [hs, hin])
  dsimp only
  rw [heq]
  refine ⟨fun he => ?_, rfl⟩
  rw [rdf_wrf_same (by decide), he]
  simp
  omega

theorem adjWrite_leader {v : Word} {s : State} (hl : ringLeader s = true) : adjWrite v s =
    if bit 0 (rd P.TIME R.TIME_CTL s) then decideQuality (correct v.toInt (noteOffset v.toInt s))
      else correct v.toInt (noteOffset v.toInt s) := by
  have hctl : rd P.TIME R.TIME_CTL (correct v.toInt (noteOffset v.toInt s)) = rd P.TIME R.TIME_CTL s := by
    rw [rd_correct (by decide) (by decide), noteOffset, rd_setTime]
  unfold adjWrite
  rw [if_neg (by simp [hl])]
  dsimp only
  rw [hctl]

/-- A stamp of a direction: its time, its identifier and the interrupt of the port. -/
def stampAt (pg lo id : Nat) (stamp : BitVec 64) (seq : Nat) (s : State) : State :=
  irq pg 1 (wr pg id (W seq) (wr64 pg lo stamp s))

theorem rd_stampAt_off {pg o lo id : Nat} (hn : NoPba pg o) (hp : o / 4 ≠ R.IRQ_PEND / 4) (hid : o / 4 ≠ id / 4) (hlo : o / 4 ≠ lo / 4)
    (hhi : o / 4 ≠ (lo + 4) / 4) (stamp : BitVec 64) (seq : Nat) (s : State) :
    rd pg o (stampAt pg lo id stamp seq s) = rd pg o s := by
  rw [stampAt, rd_irq_off hn (rkey_off hp), rd_wr_other (rkey_off hid), wr64, rd_wr_other (rkey_off hhi), rd_wr_other (rkey_off hlo)]

theorem stampAt_latches {pg lo id : Nat} (hpg : pg ≠ P.PCIE) (hlo : lo % 4 = 0 ∧ lo + 4 < 4096 ∧ R.IRQ_PEND + 4 ≤ lo)
    (hid : id < 4096 ∧ R.IRQ_PEND + 4 ≤ id ∧ lo + 8 ≤ id) (stamp : BitVec 64) (seq : BitVec 16) (s : State) :
    rd64 pg lo (stampAt pg lo id stamp seq.toNat s) = stamp ∧ rd pg id (stampAt pg lo id stamp seq.toNat s) = seq.setWidth 32 := by
  obtain ⟨hlo4, hlolt, hlopend⟩ := hlo
  obtain ⟨hidlt, hidpend, hidlo⟩ := hid
  simp only [R.IRQ_PEND] at hlopend hidpend
  have hirq (o : Nat) (ho : o < 4096) (hp : R.IRQ_PEND + 4 ≤ o) (u : State) : rd pg o (irq pg 1 u) = rd pg o u := by
    simp only [R.IRQ_PEND] at hp
    exact rd_irq_off (noPba_page hpg ho) (rkey_off (by simp only [R.IRQ_PEND]; omega)) ..
  refine ⟨?_, ?_⟩
  · have h := rd64_wr64 pg lo stamp s hlo4
    rw [rd64] at h ⊢
    rw [stampAt, hirq lo (by omega) hlopend, hirq (lo + 4) hlolt (by simp only [R.IRQ_PEND]; omega), rd_wr_other (rkey_off (by omega)),
      rd_wr_other (rkey_off (by omega)), h]
  · rw [stampAt, hirq id hidlt hidpend, rd_wr_same, W]
    exact BitVec.eq_of_toNat_eq (by simp)

theorem ptpStamp_eq {p : Nat} {udp tx : Bool} {stamp : BitVec 64} {seq : Nat} {s : State} (hoff : pageOff (P.ETH p) s = false)
    (hen : bit 0 (rd (P.ETH p) R.PAGE_CTL s) = true) (hptp : bit 0 (rd (P.ETH p) R.ETH_PTP_CTL s) = true)
    (hkind : (if udp then bit 2 (rd (P.ETH p) R.ETH_PTP_CTL s) else bit 1 (rd (P.ETH p) R.ETH_PTP_CTL s)) = true) :
    ptpStamp p tx udp stamp seq s = if tx then stampAt (P.ETH p) R.ETH_TX_TS_LO R.ETH_TX_TS_ID stamp seq s
      else stampAt (P.ETH p) R.ETH_RX_TS_LO R.ETH_RX_TS_ID stamp seq s := by
  unfold ptpStamp
  dsimp only
  rw [if_neg (by simp [hoff, hen, hptp, hkind])]
  rfl

/-- Settles O57: SYNC, ECHO, ADJ and PTP stamps by their cases. -/
theorem ringTimeIsSentAndCorrected : Obligations.RingTimeIsSentAndCorrected := by
  intro s
  refine ⟨fun hm hsampled hl hup hout hq hs => ⟨_, rfl, syncSend_sends hm hsampled hl hup hout hq hs⟩,
    fun v hs hin hl hup hown => ⟨_, rfl, syncPair_holds hs hin hl hup hown⟩,
    fun hm hsampled hl => ⟨_, rfl, syncTimeout_follower hm hsampled hl⟩,
    fun ps hs hin => ⟨_, rfl, echoDone_joins ps.isLt hs hin⟩,
    fun rq v hrq => ⟨fun hl => ?_, fun hl hc => ?_, fun hl hc => ?_⟩, fun p udp stamp seq hoff hen hptp hkind => ?_⟩
  · refine congrArg Host.Outcome.next ((onPage_reaches hrq ..).trans ?_)
    unfold adjWrite
    exact if_pos (by simp [hl])
  · exact congrArg Host.Outcome.next ((onPage_reaches hrq ..).trans ((adjWrite_leader hl).trans (if_neg (by simp [hc]))))
  · exact congrArg Host.Outcome.next ((onPage_reaches hrq ..).trans ((adjWrite_leader hl).trans (if_pos hc)))
  · have hpg : P.ETH p.val ≠ P.PCIE := by
      simp only [P.ETH, P.PCIE]
      omega
    refine ⟨⟨_, congrArg Host.Outcome.next ((ptpStamp_eq hoff hen hptp hkind).trans (if_pos rfl)), ?_, ?_, ?_⟩,
      ⟨_, congrArg Host.Outcome.next ((ptpStamp_eq hoff hen hptp hkind).trans (if_neg (by decide))), ?_⟩⟩
    · exact (stampAt_latches hpg (by decide) (by decide) stamp seq s).1
    · exact (stampAt_latches hpg (by decide) (by decide) stamp seq s).2
    · rw [rd64, rd_stampAt_off (noPba_page hpg (by decide)) (by decide) (by decide) (by decide) (by decide),
        rd_stampAt_off (noPba_page hpg (by decide)) (by decide) (by decide) (by decide) (by decide), rd64]
    · exact stampAt_latches hpg (by decide) (by decide) stamp seq s

end Sys2Proof.Machine

/-! PROOFS. O58: snapshots and roll-calls complete. -/

namespace Sys2Proof.Machine

open Sys2Proof

/-! ## Snapshots -/

/-- The scope that CTL gives has no reserved bit. -/
theorem fld_scope (c : Word) : fld 15 6 (c &&& W 0xFFFF003F) = 0 := by
  refine Nat.eq_of_testBit_eq fun i => ?_
  rw [testBit_fld, Nat.zero_testBit, BitVec.getLsbD_and]
  by_cases hi : i < 10
  · interval_cases i <;> simp [W]
  · simp [show ¬i < 15 + 1 - 6 by omega]

theorem snapRefused_scope {s : State} (h : s.time.snap = none) (c : Word) : snapRefused (c &&& W 0xFFFF003F) s = false := by
  rw [snapRefused, h, fld_scope]
  rfl

theorem armSnap_eq (at_ : BitVec 64) (scope : Word) (s : State) : armSnap at_ scope s =
    if at_ ≤ ringTime s then wrf P.SNAP R.SNAP_STAT 1 1 1 (wrf P.SNAP R.SNAP_STAT 0 0 1
      (setTime { s.time with snap := some (at_, scope), captured := [], captureDone := false } s))
    else wrf P.SNAP R.SNAP_STAT 0 0 1
      (setTime { s.time with snap := some (at_, scope), captured := [], captureDone := false } s) := rfl

/-- A request that is armed is held, and ARMED shows it. -/
theorem armSnap_holds (at_ : BitVec 64) (scope : Word) (s : State) : (armSnap at_ scope s).time.snap = some (at_, scope) ∧
    bit 0 (rd P.SNAP R.SNAP_STAT (armSnap at_ scope s)) = true ∧ (armSnap at_ scope s).ring = s.ring := by
  have hbit (u : State) : bit 0 (rd P.SNAP R.SNAP_STAT (wrf P.SNAP R.SNAP_STAT 0 0 1 u)) = true := by
    rw [wrf, rd_md_same, bit_setFld_mem (by decide) (by decide) (by decide)]
    rfl
  rw [armSnap_eq]
  split
  · refine ⟨rfl, ?_, rfl⟩
    rw [wrf, rd_md_same, bit_setFld_other (by decide) (by decide), hbit]
  · exact ⟨rfl, hbit _, rfl⟩

theorem snapArm_arms {s : State} (ht : bit 0 (rd P.SNAP R.PAGE_CTL s) = true) (hs : s.time.snap = none)
    (hr : bit 8 (rd P.SNAP R.SNAP_CTL s) = false) : snapArm s =
      armSnap (rd64 P.SNAP R.SNAP_AT_LO s) (rd P.SNAP R.SNAP_CTL s &&& W 0xFFFF003F) (wrf P.SNAP R.SNAP_STAT 15 8 0 s) := by
  unfold snapArm
  dsimp only
  rw [if_neg (by simp [takesWork, ht]), if_neg (by rw [snapRefused_scope hs]; decide), if_neg (by simp [hr])]

theorem snapArm_refused {s : State} (ht : bit 0 (rd P.SNAP R.PAGE_CTL s) = true) (hs : s.time.snap.isSome = true) :
    snapArm s = irq P.SNAP 1 (wrf P.SNAP R.SNAP_STAT 15 8 E.PERM_FAULT s) := by
  unfold snapArm
  dsimp only
  rw [if_neg (by simp [takesWork, ht]), if_pos (by simp [snapRefused, hs])]

theorem armed_disarmSnap (s : State) : bit 0 (rd P.SNAP R.SNAP_STAT (disarmSnap s)) = false := by
  rw [disarmSnap, wrf, rd_md_same, bit_setFld_mem (by decide) (by decide) (by decide)]
  rfl

theorem snapCapture_captures {at_ : BitVec 64} {scope : Word} {s : State} (hs : s.time.snap = some (at_, scope))
    (hm : s.dev.mode = .run) (hc : s.time.captureDone = false) (ht : at_ ≤ s.time.ringTime) : snapCapture s =
      setTime { s.time with captured := (inScope scope).foldl (captureOne s) [], captureDone := true } s := by
  have hnow : ¬ringTime s < at_ := BitVec.not_lt.2 ht
  unfold snapCapture
  rw [hs]
  exact if_neg (by simp [hc, hnow, timeRuns, hm])

theorem snapCapture_early {at_ : BitVec 64} {scope : Word} {s : State} (hs : s.time.snap = some (at_, scope))
    (ht : s.time.ringTime < at_) : snapCapture s = s := by
  unfold snapCapture
  rw [hs]
  exact if_pos (by simp [ringTime, ht])

/-- Of a scope that is bit 4 alone, only the crossbar has counters. -/
theorem inScope_crossbar {scope : Word} (h : fld 5 0 scope = 16) : inScope scope = [(P.XB, 0x100, 0x180, 8)] := by
  have hbit (b : Nat) (hb : b < 6) : bit b scope = decide (b = 4) := by
    have hfld : bit b scope = Nat.testBit 16 b := by
      rw [← h, testBit_fld]
      simp [bit]
      omega
    rw [hfld]
    interval_cases b <;> rfl
  have hrange : List.range 6 = [0, 1, 2, 3, 4, 5] := by decide
  unfold inScope
  rw [hrange]
  simp [hbit, snapScope]

/-- Each of a list of registers that are captured in turn, at keys that rise, is found with its value. -/
theorem tfind_captured {n k : Nat} (hk : k < n) (p a b : Nat) (hb : b % 4 = 0) (s : State) (m : SMap Word) :
    tfind ((List.range n).foldl (fun m k => tins (rkey p (b + 4 * k)) (rd p (a + 4 * k) s) m) m) (rkey p (b + 4 * k)) =
      some (rd p (a + 4 * k) s) := by
  induction n with
  | zero => omega
  | succ n ih =>
    rw [List.range_succ, List.foldl_append, List.foldl_cons, List.foldl_nil]
    by_cases h : k = n
    · subst h
      exact tfind_tins_same ..
    · rw [tfind_tins_other (by simp only [rkey]; omega)]
      exact ih (by omega)

theorem captured_crossbar {scope : Word} {s : State} (h : fld 5 0 scope = 16) (hoff : pageOff P.XB s = false) {k : Nat} (hk : k < 8) :
    tfind ((inScope scope).foldl (captureOne s) []) (rkey P.XB (0x180 + 4 * k)) = some (rd P.XB (0x100 + 4 * k) s) := by
  rw [inScope_crossbar h, List.foldl_cons, List.foldl_nil, captureOne, if_neg (by simp [hoff])]
  exact tfind_captured hk P.XB 0x100 0x180 (by decide) s []

/-- The exchange ends the request, and writes its epoch and the time taken. -/
theorem snapExchange_eq {at_ : BitVec 64} {scope : Word} {s : State} (hs : s.time.snap = some (at_, scope))
    (hc : s.time.captureDone = true) : ∃ u, snapExchange s = irq P.SNAP 0 (disarmSnap
      (wr64 P.SNAP R.SNAP_TAKEN_LO s.time.ringTime (wrf P.SNAP R.SNAP_STAT 31 16 (fld 31 16 scope) u))) := by
  unfold snapExchange
  rw [hs]
  dsimp only
  rw [if_neg (by simp [hc])]
  exact ⟨_, rfl⟩

theorem snapExchange_ends {at_ : BitVec 64} {scope : Word} {s : State} (hs : s.time.snap = some (at_, scope))
    (hc : s.time.captureDone = true) : let t := snapExchange s
    t.time.snap = none ∧ rdf P.SNAP R.SNAP_STAT 31 16 t = fld 31 16 scope ∧ rd64 P.SNAP R.SNAP_TAKEN_LO t = s.time.ringTime ∧
      t.banks = s.banks := by
  have hsame : SameBut [.regs, .time, .io] s (snapExchange s) := by simp (disch := decide)
  have hirq (o : Nat) (ho : o < 4096) (hp : o / 4 ≠ R.IRQ_PEND / 4) (u : State) : rd P.SNAP o (irq P.SNAP 0 u) = rd P.SNAP o u :=
    rd_irq_off (noPba_page (by decide) ho) (rkey_off hp) ..
  have hdis (o : Nat) (h : o / 4 ≠ R.SNAP_STAT / 4) (u : State) : rd P.SNAP o (disarmSnap u) = rd P.SNAP o u := by
    rw [disarmSnap, rd_wrf_other (rkey_off h), rd_setTime]
  obtain ⟨u, heq⟩ := snapExchange_eq hs hc
  dsimp only
  refine ⟨?_, ?_, ?_, hsame.banks (by decide) (by decide)⟩
  · rw [heq, time_irq]
    rfl
  · rw [heq, rdf, hirq _ (by decide) (by decide), disarmSnap, wrf, rd_md_same, fld_setFld_other (by decide) (by decide), rd_setTime,
      wr64, rd_wr_other (rkey_off (by decide)), rd_wr_other (rkey_off (by decide)), ← rdf, rdf_wrf_same (by decide)]
    exact Nat.mod_eq_of_lt (fld_lt 31 16 _)
  · have h := rd64_wr64 P.SNAP R.SNAP_TAKEN_LO s.time.ringTime (wrf P.SNAP R.SNAP_STAT 31 16 (fld 31 16 scope) u) (by decide)
    rw [rd64] at h ⊢
    rw [heq, hirq _ (by decide) (by decide), hirq _ (by decide) (by decide), hdis _ (by decide), hdis _ (by decide), h]

theorem snapExchange_uncaptured {s : State} (hc : s.time.captureDone = false) : snapExchange s = s := by
  unfold snapExchange
  split
  · rfl
  · exact if_pos (by simp [hc])

/-! ## Roll-calls -/

theorem offAdvance_rollcall : OffAdvance P.RING R.RING_ROLLCALL_CTL := offAdvance_of_offset (by decide) _

/-- What the ring-out launches leaves the roll-call. -/
theorem rd_rollcall_ringBroadcast (cls svc : Nat) (ws : List TWord) (s : State) :
    rd P.RING R.RING_ROLLCALL_CTL (ringBroadcast cls svc ws s) = rd P.RING R.RING_ROLLCALL_CTL s := by
  have hsyncs (es : List (BitVec 64 × BitVec 64)) (u : State) : rd P.RING R.RING_ROLLCALL_CTL (es.foldl (fun t e =>
      t |> sendChar 0 (e.1 + (t.time.ringTime - e.2)) |> countN P.RING R.RING_WORDS_OUT 2) u) = rd P.RING R.RING_ROLLCALL_CTL u := by
    induction es generalizing u with
    | nil => rfl
    | cons e es ih => exact (ih _).trans (rd_countN_other (rkey_off (by decide)) ..)
  have hlaunch (u : State) : rd P.RING R.RING_ROLLCALL_CTL (launchSyncs u) = rd P.RING R.RING_ROLLCALL_CTL u := by
    unfold launchSyncs
    split
    · rfl
    · rw [hsyncs, rd_setRing]
  have hserve (fuel : Nat) (u : State) : rd P.RING R.RING_ROLLCALL_CTL (ringServe fuel u) = rd P.RING R.RING_ROLLCALL_CTL u := by
    induction fuel generalizing u with
    | zero => rfl
    | succ fuel ih =>
      unfold ringServe
      split
      · rfl
      · split
        · rfl
        · rw [ih, send, rd_sendAs offAdvance_rollcall, rd_setRing]
  unfold ringBroadcast ringLaunch ringPump
  dsimp only
  rw [hserve, hlaunch, rd_setRing]
  split
  · exact rd_countN_other (rkey_off (by decide)) ..
  · rfl

theorem rollcallGo_starts {s : State} (ht : bit 0 (rd P.RING R.PAGE_CTL s) = true) (hl : ringLeader s = true) (hup : ringUp s = true)
    (hidle : bit 1 (rd P.RING R.RING_ROLLCALL_CTL s) = false) :
    bit 1 (rd P.RING R.RING_ROLLCALL_CTL (rollcallGo s)) = true := by
  have heq : ∃ (ws : List TWord) (u : State), rollcallGo s = ringBroadcast 0x31 6 ws (wrf P.RING R.RING_ROLLCALL_CTL 1 1 1 u) := by
    unfold rollcallGo
    rw [if_neg (by simp [takesWork, ht]), if_neg (by simp [hl, hup, hidle])]
    exact ⟨_, _, rfl⟩
  obtain ⟨ws, u, heq⟩ := heq
  rw [heq, rd_rollcall_ringBroadcast, wrf, rd_md_same, bit_setFld_mem (by decide) (by decide) (by decide)]
  rfl

theorem rollcallGo_follower {s : State} (ht : bit 0 (rd P.RING R.PAGE_CTL s) = true) (hl : ringLeader s = false) :
    rollcallGo s = wrf P.RING R.RING_ROLLCALL_CTL 31 24 E.PERM_FAULT s := by
  unfold rollcallGo
  rw [if_neg (by simp [takesWork, ht]), if_pos (by simp [hl])]

/-- A roll-call that ends is idle and holds its code. -/
theorem rollcallEnds_holds {code : Nat} (hc : code < 256) (s : State) :
    bit 1 (rd P.RING R.RING_ROLLCALL_CTL (rollcallEnds code s)) = false ∧
      rdf P.RING R.RING_ROLLCALL_CTL 31 24 (rollcallEnds code s) = code := by
  refine ⟨?_, ?_⟩
  · rw [rollcallEnds, rd_md_same, bit_setFld_other (by decide) (by decide), setBit, bit_setFld_other (by decide) (by decide),
      bit_setBit_same (by decide)]
  · rw [rollcallEnds, rdf, rd_md_same, fld_setFld_same (by decide)]
    exact Nat.mod_eq_of_lt hc

/-- The bitmap is written word for word. -/
theorem rd_bitmap {n i : Nat} (hi : i < n) (bitmap : List Word) (s : State) : rd P.RING (R.RING_MAP + 4 * i)
    ((List.range n).foldl (fun t i => wr P.RING (R.RING_MAP + 4 * i) (bitmap.getD i 0) t) s) = bitmap.getD i 0 := by
  induction n with
  | zero => omega
  | succ n ih =>
    rw [List.range_succ, List.foldl_append, List.foldl_cons, List.foldl_nil]
    by_cases h : i = n
    · subst h
      exact rd_wr_same ..
    · rw [rd_wr_other (rkey_off (by simp only [R.RING_MAP]; omega))]
      exact ih (by omega)

theorem rollcallReturn_holds {bitmap : List Word} {s : State} (h : bit 1 (rd P.RING R.RING_ROLLCALL_CTL s) = true) :
    let t := rollcallReturn bitmap s
    (∀ i, i < 8 → rd P.RING (R.RING_MAP + 4 * i) t = bitmap.getD i 0) ∧ bit 1 (rd P.RING R.RING_ROLLCALL_CTL t) = false ∧
      rdf P.RING R.RING_ROLLCALL_CTL 31 24 t = 0 := by
  have heq : rollcallReturn bitmap s = irq P.RING 2 (rollcallEnds 0 ((List.range 8).foldl
      (fun t i => wr P.RING (R.RING_MAP + 4 * i) (bitmap.getD i 0) t) s)) := by
    unfold rollcallReturn
    exact if_neg (by simp [h])
  have hirq (o : Nat) (ho : o < 4096) (hp : o / 4 ≠ R.IRQ_PEND / 4) (u : State) : rd P.RING o (irq P.RING 2 u) = rd P.RING o u :=
    rd_irq_off (noPba_page (by decide) ho) (rkey_off hp) ..
  obtain ⟨hidle, hcode⟩ := rollcallEnds_holds (code := 0) (by decide) ((List.range 8).foldl
    (fun t i => wr P.RING (R.RING_MAP + 4 * i) (bitmap.getD i 0) t) s)
  dsimp only
  rw [heq]
  refine ⟨fun i hi => ?_, ?_, ?_⟩
  · rw [hirq _ (by simp only [R.RING_MAP]; omega) (by simp only [R.RING_MAP, R.IRQ_PEND]; omega), rollcallEnds,
      rd_md_other (rkey_off (by simp only [R.RING_MAP, R.RING_ROLLCALL_CTL]; omega)), rd_bitmap hi]
  · rw [hirq _ (by decide) (by decide), hidle]
  · rw [rdf, hirq _ (by decide) (by decide), ← rdf, hcode]

/-- Settles O58: the commands of snapshots and roll-calls by their cases. -/
theorem snapshotsAndRollCallsComplete : Obligations.SnapshotsAndRollCallsComplete := by
  intro s
  refine ⟨fun rq hrq ht => ⟨fun hs hr => ?_, fun hs => ?_⟩, fun rq hrq => ⟨fun hs => ?_, fun hs => ?_⟩,
    fun at_ scope hs => ⟨fun hm hc ht => ?_, fun _ ht => congrArg Host.Outcome.next (snapCapture_early hs ht),
      fun hc => ⟨_, rfl, snapExchange_ends hs hc⟩, fun hc => congrArg Host.Outcome.next (snapExchange_uncaptured hc)⟩,
    fun rq hrq ht => ⟨fun hl hup hidle => ?_, fun hl => ?_⟩,
    fun h => ⟨fun bitmap => ⟨_, rfl, rollcallReturn_holds h⟩, ?_⟩, fun h => ?_⟩
  · obtain ⟨hsnap, hbit, hring⟩ := armSnap_holds (rd64 P.SNAP R.SNAP_AT_LO s) (rd P.SNAP R.SNAP_CTL s &&& W 0xFFFF003F)
      (wrf P.SNAP R.SNAP_STAT 15 8 0 s)
    exact ⟨_, congrArg Host.Outcome.next ((onPage_reaches hrq ..).trans (snapArm_arms ht hs hr)), hsnap, hbit, hring⟩
  · exact congrArg Host.Outcome.next ((onPage_reaches hrq ..).trans (snapArm_refused ht hs))
  · exact ⟨_, congrArg Host.Outcome.next ((onPage_reaches hrq ..).trans (if_pos hs)), rfl, armed_disarmSnap s⟩
  · exact congrArg Host.Outcome.next ((onPage_reaches hrq ..).trans (if_neg (by simp [hs])))
  · exact ⟨_, congrArg Host.Outcome.next (snapCapture_captures hs hm hc ht), rfl, rfl,
      fun hscope hoff k hk => captured_crossbar hscope hoff hk⟩
  · have hsame : SameBut [.regs, .net, .ring] s (rollcallGo s) := by simp (disch := decide)
    exact ⟨_, congrArg Host.Outcome.next (onPage_reaches hrq ..), rollcallGo_starts ht hl hup hidle,
      hsame.banks (by decide) (by decide)⟩
  · exact congrArg Host.Outcome.next ((onPage_reaches hrq ..).trans (rollcallGo_follower ht hl))
  · exact ⟨_, congrArg Host.Outcome.next (if_pos h), rollcallEnds_holds (by decide) s⟩
  · exact congrArg Host.Outcome.next (if_neg (by simp [h]))

end Sys2Proof.Machine

/-! PROOFS. O59: probes, pins and links. -/

namespace Sys2Proof.Machine

open Sys2Proof

/-! ## Owl ports, delays and VCCO -/

theorem dlyWrite_hare {b c : Nat} {s : State} (hc : c < bankCells b) (h : s.pwr.hare = true) (v : Word) :
    dlyWrite b c v s = moveDelay b c (wr (P.IOB b) (R.IOB_DLY + 4 * c) (v &&& W 0xFFFF) s) := by
  have hhare : (wr (P.IOB b) (R.IOB_DLY + 4 * c) (v &&& W 0xFFFF) s).pwr.hare = true := h
  rw [dlyWrite, if_neg (by omega), delayStep, hhare]
  exact if_pos rfl

/-- The register BANK_STAT as VCCO_CHANGE leaves it, whether or not the change raises an interrupt. -/
theorem rd_vccoUpdate {b : Nat} (hb : b < 12) (mv : Nat) (s : State) :
    rd (P.IOB b) R.IOB_BANK_STAT (vccoUpdate b mv s) =
      setBit 1 (vccoInRange b (rdf (P.IOB b) R.IOB_BANK_CFG 3 0 s) mv)
        (setFld 31 16 mv (rd (P.IOB b) R.IOB_BANK_STAT s)) := by
  have hno : NoPba (P.IOB b) R.IOB_BANK_STAT := noPba_page (by simp only [P.IOB, P.PCIE]; omega) (by decide)
  have hwrites (ok : Nat) : rd (P.IOB b) R.IOB_BANK_STAT
      (wrf (P.IOB b) R.IOB_BANK_STAT 1 1 ok (wrf (P.IOB b) R.IOB_BANK_STAT 31 16 mv s)) =
      setFld 1 1 ok (setFld 31 16 mv (rd (P.IOB b) R.IOB_BANK_STAT s)) := by
    rw [rd_wrf_same, rd_wrf_same]
  unfold vccoUpdate
  dsimp only
  split
  · exact hwrites _
  · rw [rd_irq_off hno (rkey_off (by decide))]
    exact hwrites _

theorem vccoChange_reports (b : IobId) (mv : BitVec 16) (s : State) :
    rdf (P.IOB b.val) R.IOB_BANK_STAT 31 16 (vccoUpdate b.val mv.toNat s) = mv.toNat ∧
      vccoOk b.val (vccoUpdate b.val mv.toNat s) =
        vccoInRange b.val (rdf (P.IOB b.val) R.IOB_BANK_CFG 3 0 s) mv.toNat ∧
      (vccoUpdate b.val mv.toNat s).banks = s.banks := by
  have hstat := rd_vccoUpdate b.isLt mv.toNat s
  refine ⟨?_, ?_, ?_⟩
  · rw [rdf, hstat, setBit, fld_setFld_other (by decide) (by decide), fld_setFld_same (by decide)]
    exact Nat.mod_eq_of_lt mv.isLt
  · rw [vccoOk, hstat, bit_setBit_same (by decide)]
  · exact ((sameBut_vccoUpdate (ps := [.regs, .io]) (by decide) _ _ _ _).2 (sameBut_refl _ _)).banks
      (by decide) (by decide)

/-! ## PCI Express -/

theorem bit_W {n : Nat} (h : n < 32) (v : Nat) : bit n (W v) = v.testBit n := by
  rw [bit, W, BitVec.getLsbD_ofNat]
  simp [h]

/-- FUNCTION_LEVEL_RESET of a live port forgets what was written to the MSI-X table. -/
theorem functionLevelReset_on {s : State} (h : pcieOn s = true) :
    functionLevelReset s = setIo { s.io with msixEnable := false, msixMask := false }
      (setRegs (s.regs.filter fun e => !(decide (rkey P.PCIE R.PCIE_MSIX_TABLE ≤ e.1) &&
        decide (e.1 < rkey P.PCIE R.PCIE_MSIX_TABLE + 258))) s) := by
  rw [functionLevelReset, h]
  rfl

theorem rd_functionLevelReset_table {v : Nat} {s : State} (h : pcieOn s = true) (hv : v < 256) :
    rd P.PCIE (R.PCIE_MSIX_TABLE + 4 * v) (functionLevelReset s) = regReset P.PCIE (R.PCIE_MSIX_TABLE + 4 * v) := by
  have hkey : rkey P.PCIE (R.PCIE_MSIX_TABLE + 4 * v) = rkey P.PCIE R.PCIE_MSIX_TABLE + v := by
    simp only [rkey, P.PCIE]; omega
  rw [functionLevelReset_on h, rd_setIo, rd, hkey]
  refine (tget_filter_key _ (fun k => !(decide (rkey P.PCIE R.PCIE_MSIX_TABLE ≤ k) &&
    decide (k < rkey P.PCIE R.PCIE_MSIX_TABLE + 258))) s.regs _).trans (if_neg ?_)
  simp only [Bool.not_eq_true, Bool.not_eq_false', Bool.and_eq_true, decide_eq_true_eq]
  omega

/-- The MSI-X control and every register but the pending array are as before: what sending messages leaves. -/
structure MsixKept (s t : State) : Prop where
  rd : ∀ q o, NoPba q o → rd q o t = rd q o s
  enable : t.io.msixEnable = s.io.msixEnable
  mask : t.io.msixMask = s.io.msixMask

theorem MsixKept.refl (s : State) : MsixKept s s := ⟨fun _ _ _ => rfl, rfl, rfl⟩

theorem MsixKept.trans {s t u : State} (h : MsixKept s t) (h' : MsixKept t u) : MsixKept s u :=
  ⟨fun q o hno => (h'.rd q o hno).trans (h.rd q o hno), h'.enable.trans h.enable, h'.mask.trans h.mask⟩

theorem msixKept_setPba {v : Nat} (hv : v < 64) (b : Bool) (s : State) :
    MsixKept s (setArr P.PCIE R.PCIE_MSIX_PBA v b s) :=
  ⟨fun _ _ hno => rd_md_other (rkey_pba hno hv) .., rfl, rfl⟩

theorem msixKept_msixSend {v : Nat} (hv : v < 64) (s : State) : MsixKept s (msixSend v s) := by
  unfold msixSend
  split
  · exact .refl s
  · split
    · exact msixKept_setPba hv true s
    · exact ⟨fun _ _ _ => rfl, rfl, rfl⟩

theorem msixKept_msixUnmask {v : Nat} (hv : v < 64) (s : State) : MsixKept s (msixUnmask v s) := by
  unfold msixUnmask
  split
  · dsimp only
    split
    · exact (msixKept_setPba hv false s).trans (msixKept_msixSend hv _)
    · exact msixKept_setPba hv false s
  · exact .refl s

/-- The control bits that a link reports are set, and then the messages that no mask holds go out. -/
theorem msixKept_msixControl (ctl : BitVec 2) (s : State) :
    MsixKept (setIo { s.io with msixEnable := ctl.getLsbD 1, msixMask := ctl.getLsbD 0 } s) (msixControl ctl s) := by
  refine List.foldlRecOn (motive := fun t => MsixKept _ t) _ _ (.refl _) fun t ht v hv => ?_
  split
  · exact ht
  · exact ht.trans (msixKept_msixUnmask (List.mem_range.1 hv) t)

/-- The word that a change of the PCI Express link leaves in LINK_STAT. -/
def linkStatWord (up : Bool) (width : BitVec 3) (speed : BitVec 4) (ltssm : BitVec 6) : Word :=
  W (ltssm.toNat * 2 ^ 8 + b2n up * 2 ^ 7 + width.toNat * 2 ^ 4 + speed.toNat)

theorem rd_pcieLinkChange {s : State} (h : pcieOn s = true) (up : Bool) (width : BitVec 3) (speed : BitVec 4)
    (ltssm : BitVec 6) (msix : BitVec 2) :
    rd P.PCIE R.PCIE_LINK_STAT (pcieLinkChange up width speed ltssm msix s) = linkStatWord up width speed ltssm := by
  have hno : NoPba P.PCIE R.PCIE_LINK_STAT := ⟨rkey_off (by decide), rkey_off (by decide)⟩
  have hirq (b : Nat) (t : State) : rd P.PCIE R.PCIE_LINK_STAT (irq P.PCIE b t) = rd P.PCIE R.PCIE_LINK_STAT t :=
    rd_irq_off hno (rkey_off (by decide)) b t
  have hcount (t : State) :
      rd P.PCIE R.PCIE_LINK_STAT (count P.PCIE R.PCIE_RETRAINS t) = rd P.PCIE R.PCIE_LINK_STAT t :=
    rd_countN_other (rkey_off (by decide)) 1 t
  unfold pcieLinkChange
  rw [if_neg (by simp [h])]
  dsimp only
  rw [(msixKept_msixControl msix _).rd _ _ hno, rd_setIo, apply_ite (rd P.PCIE R.PCIE_LINK_STAT), hirq, ite_self,
    apply_ite (rd P.PCIE R.PCIE_LINK_STAT), hcount, ite_self, rd_wr_same]
  rfl

theorem msixControl_pcieLinkChange {s : State} (h : pcieOn s = true) (up : Bool) (width : BitVec 3) (speed : BitVec 4)
    (ltssm : BitVec 6) (msix : BitVec 2) :
    (pcieLinkChange up width speed ltssm msix s).io.msixEnable = msix.getLsbD 1 ∧
      (pcieLinkChange up width speed ltssm msix s).io.msixMask = msix.getLsbD 0 := by
  unfold pcieLinkChange
  rw [if_neg (by simp [h])]
  exact ⟨(msixKept_msixControl msix _).enable, (msixKept_msixControl msix _).mask⟩

theorem linkStatWord_fields (up : Bool) (width : BitVec 3) (speed : BitVec 4) (ltssm : BitVec 6) :
    bit 7 (linkStatWord up width speed ltssm) = up ∧ fld 13 8 (linkStatWord up width speed ltssm) = ltssm.toNat ∧
      fld 6 4 (linkStatWord up width speed ltssm) = width.toNat ∧
      fld 3 0 (linkStatWord up width speed ltssm) = speed.toNat := by
  have hl := ltssm.isLt
  have hw := width.isLt
  have hs := speed.isLt
  rw [linkStatWord, bit_W (by decide), fld_W, fld_W, fld_W, Nat.testBit_eq_decide_div_mod_eq]
  cases up
  · simp only [b2n, decide_eq_false_iff_not, Bool.false_eq_true, if_false]
    omega
  · simp only [b2n, decide_eq_true_eq, if_true]
    omega

/-! ## Ethernet -/

theorem ethStat_fields (up : Bool) (speed : BitVec 2) :
    bit 0 (W (speed.toNat * 2 + b2n up)) = up ∧ fld 2 1 (W (speed.toNat * 2 + b2n up)) = speed.toNat := by
  have hs := speed.isLt
  rw [bit_W (by decide), fld_W, Nat.testBit_eq_decide_div_mod_eq]
  cases up
  · simp only [b2n, decide_eq_false_iff_not, Bool.false_eq_true, if_false]
    omega
  · simp only [b2n, decide_eq_true_eq, if_true]
    omega

theorem rd_ethLinkChange {p : Nat} (hp : p < 2) {s : State} (h : macLive p s = true) (up : Bool) {speed : BitVec 2}
    (hspeed : speed ≠ 3) :
    rd (P.ETH p) R.ETH_STAT (ethLinkChange p up speed s) = W (speed.toNat * 2 + b2n up) := by
  have hno : NoPba (P.ETH p) R.ETH_STAT := noPba_page (by simp only [P.ETH, P.PCIE]; omega) (by decide)
  have hirq (b : Nat) (t : State) : rd (P.ETH p) R.ETH_STAT (irq (P.ETH p) b t) = rd (P.ETH p) R.ETH_STAT t :=
    rd_irq_off hno (rkey_off (by decide)) b t
  unfold ethLinkChange
  dsimp only
  rw [if_neg (by simpa [h] using hspeed), apply_ite (rd (P.ETH p) R.ETH_STAT), hirq, ite_self, rd_wr_same]

theorem frameReceived_live {p : Nat} {s : State} (h : macLive p s = true) (hen : bit 0 (rd (P.ETH p) R.PAGE_CTL s) = true)
    (f : List Byte) :
    frameReceived p f true s =
        count (P.ETH p) R.ETH_FRAMES_RX (setIo { s.io with frames := s.io.frames ++ [(p, f)] } s) ∧
      frameReceived p f false s = count (P.ETH p) R.ETH_FRAMES_ERR s := by
  have hgo : ¬(!macLive p s || !takesWork (P.ETH p) s) = true := by simp [h, takesWork, hen]
  unfold frameReceived
  dsimp only
  exact ⟨(if_neg hgo).trans (if_pos rfl), (if_neg hgo).trans (if_neg (by decide))⟩

/-! ## The statement -/

theorem owlPortWrite_pin {n : Nat} {v : Word} (s : State) :
    (fld 11 8 v < 12 → owlTaken n v s = false →
        owlPortWrite n true v s = wr P.OWL (R.OWL_PORT_PIN + 8 * n) (v &&& W 0xF3F) s) ∧
      (12 ≤ fld 11 8 v ∨ owlTaken n v s = true →
        owlPortWrite n true v s = permFault P.OWL (R.OWL_PORT_PIN + 8 * n) s) := by
  unfold owlPortWrite
  refine ⟨fun hfld htaken => ?_, fun h => ?_⟩
  · exact (if_pos rfl).trans (if_neg (by simp [htaken]; omega))
  · exact (if_pos rfl).trans (if_pos (by simpa using h))

theorem owlPortWrite_sel {n : Nat} {v : Word} (s : State) :
    (bit 31 v = false ∨ owlTaken n (owlPin n s) s = false →
        owlPortWrite n false v s = wr P.OWL (R.OWL_PORT_SEL + 8 * n) (v &&& W 0x80003F3F) s) ∧
      (bit 31 v = true → owlTaken n (owlPin n s) s = true →
        owlPortWrite n false v s = permFault P.OWL (R.OWL_PORT_SEL + 8 * n) s) := by
  unfold owlPortWrite
  refine ⟨fun h => ?_, fun hen htaken => ?_⟩
  · exact (if_neg (by decide)).trans (if_neg (by simpa [← Bool.not_eq_true, imp_iff_not_or] using h))
  · exact (if_neg (by decide)).trans (if_pos (by simp [hen, htaken]))

/-- Settles O59: each command is its equation on the pages it writes; what the interrupts and MSI-X messages that follow
do leaves the registers and the control that the link change wrote. -/
theorem probesPinsAndLinks : Obligations.ProbesPinsAndLinks := by
  unfold Obligations.ProbesPinsAndLinks
  intro s
  refine ⟨fun rq n v hr => ?_, fun rq b c v hr => ?_, fun b mv hm => ?_, fun pins => rfl, fun hon => ?_,
    fun up w sp l m hon => ?_, fun p up sp hlive hsp => ?_, fun p f hlive hen => ?_⟩
  · have hexec (pin : Bool) : exec (.owlPortWrite rq n pin v) s = .next (owlPortWrite n.val pin v s) :=
      congrArg Host.Outcome.next (onPage_reaches hr ..)
    rw [hexec true, hexec false]
    obtain ⟨hpin, hpinRefused⟩ := owlPortWrite_pin (n := n.val) (v := v) s
    obtain ⟨hsel, hselRefused⟩ := owlPortWrite_sel (n := n.val) (v := v) s
    exact ⟨fun hf ht => congrArg _ (hpin hf ht), fun h => congrArg _ (hpinRefused h), fun h => congrArg _ (hsel h),
      fun hb ht => congrArg _ (hselRefused hb ht)⟩
  · have hexec : exec (.dlyWrite rq b c v) s = .next (dlyWrite b.val c.val v s) :=
      congrArg Host.Outcome.next (onPage_reaches hr ..)
    rw [hexec]
    exact ⟨fun hc => congrArg _ (if_pos hc), fun hc hhare => congrArg _ (dlyWrite_hare hc hhare v)⟩
  · exact ⟨_, congrArg Host.Outcome.next (if_neg hm), vccoChange_reports b mv s⟩
  · refine ⟨functionLevelReset s, rfl, ?_, ?_, fun v hv => rd_functionLevelReset_table hon hv, ?_, ?_⟩ <;>
      rw [functionLevelReset_on hon] <;> rfl
  · obtain ⟨hup, hltssm, hwidth, hspeed⟩ := linkStatWord_fields up w sp l
    obtain ⟨henable, hmask⟩ := msixControl_pcieLinkChange hon up w sp l m
    have hstat := rd_pcieLinkChange hon up w sp l m
    refine ⟨pcieLinkChange up w sp l m s, rfl, ?_, ?_, ?_, ?_, henable, hmask, ?_⟩
    · rw [hstat, hup]
    · rw [rdf, hstat, hltssm]
    · rw [rdf, hstat, hwidth]
    · rw [rdf, hstat, hspeed]
    · exact ((sameBut_pcieLinkChange (ps := [.regs, .io]) (by decide) _ _ _ _ _ _ _).2 (sameBut_refl _ _)).banks
        (by decide) (by decide)
  · obtain ⟨hup, hspeed⟩ := ethStat_fields up sp
    have hstat := rd_ethLinkChange p.isLt hlive up hsp
    refine ⟨ethLinkChange p.val up sp s, rfl, ?_, ?_⟩
    · rw [hstat, hup]
    · rw [rdf, hstat, hspeed]
  · obtain ⟨hgood, hbad⟩ := frameReceived_live hlive hen f
    exact ⟨congrArg Host.Outcome.next hgood, congrArg Host.Outcome.next hbad⟩

end Sys2Proof.Machine

/-! PROOFS. O60: the QSPI port and the TAP. -/

namespace Sys2Proof.Machine

open Sys2Proof

/-! ## The QSPI port -/

/-- What one word of a QSPI write does to the buffer: `e` is the word and its index. -/
def qspiPut (a : Word) (t : State) (e : Word × Nat) : State :=
  if t.io.qspi.length < 256 then setIo { t.io with qspi := t.io.qspi ++ [(a + W (4 * e.2), e.1)] } t
  else setIo { t.io with qspiDropped := true } t

theorem qspiWrite_on {s : State} (h : qspiOn s = true) (a : Word) (ws : List Word) :
    qspiWrite a ws s = ws.zipIdx.foldl (qspiPut a) s := by
  rw [qspiWrite, h]
  rfl

theorem qspiPut_room {t : State} (h : t.io.qspi.length < 256) (a : Word) (e : Word × Nat) :
    qspiPut a t e = setIo { t.io with qspi := t.io.qspi ++ [(a + W (4 * e.2), e.1)] } t := if_pos h

/-- Words for which the buffer has room enter it in order, and nothing else changes. -/
theorem qspiPut_foldl {a : Word} {es : List (Word × Nat)} {s : State} (h : s.io.qspi.length + es.length ≤ 256) :
    es.foldl (qspiPut a) s =
      setIo { s.io with qspi := s.io.qspi ++ es.map fun e => (a + W (4 * e.2), e.1) } s := by
  induction es generalizing s with
  | nil => simp [setIo]
  | cons e es ih =>
    rw [List.length_cons] at h
    rw [List.foldl_cons, qspiPut_room (by omega), ih (by simp [setIo]; omega)]
    simp [setIo]

theorem qspiWrite_full {s : State} (hon : qspiOn s = true) (h : s.io.qspi.length = 256) (a w : Word) :
    qspiWrite a [w] s = setIo { s.io with qspiDropped := true } s := by
  rw [qspiWrite_on hon]
  exact if_neg (by omega)

theorem qspiRead_register {s : State} (hon : qspiOn s = true) (hempty : s.io.qspi = []) (hread : hostReading s = false)
    (hwait : s.io.hostWait = []) {a : Word} (ha : fld 30 0 a < 0x4000000) (hbit : bit 31 a = false) :
    qspiRead a s = busRead .host (fld 30 0 a) 4 (setIo { s.io with qspiWait := some a } s) := by
  have haddr : qspiAddr a = some (fld 30 0 a) := by
    rw [qspiAddr, hbit]
    exact if_pos ha
  have hidle : ¬(hostReading (setIo { s.io with qspiWait := some a } s) ||
      !(setIo { s.io with qspiWait := some a } s).io.hostWait.isEmpty) = true := by
    rw [show hostReading (setIo { s.io with qspiWait := some a } s) = false from hread,
      show (setIo { s.io with qspiWait := some a } s).io.hostWait = [] from hwait]
    decide
  unfold qspiRead
  rw [if_neg (by simp [hon]), hempty]
  dsimp only [List.length_nil, qspiDrain]
  rw [haddr]
  exact (if_neg hidle).trans (if_neg (by simp))

theorem qspiReadTimeout_of_wait {a : Word} {s : State} (h : s.io.qspiWait = some a) :
    qspiReadTimeout s = err P.DEV E.ABSENT_TARGET 0 (qspiReach a)
      (setIo { s.io with qspiWait := none, qspiOut := [0x5A, 0, 0, 0, 0], qspiLate := s.io.qspiLate + 1 } s) := by
  rw [qspiReadTimeout, h]

/-! ## The TAP -/

/-- The TAP captures the pins into the word it shifts out, and draws free values. -/
theorem capturePins_keeps (s : State) :
    (capturePins s).io.taken = s.io.taken ∧ (capturePins s).io.boundary = s.io.boundary ∧
      (capturePins s).regs = s.regs ∧ (capturePins s).banks = s.banks := by
  unfold capturePins viewDrawn
  dsimp only
  simp only [setFree_io, setFree_regs, setFree_banks, setIo_io, setIo_regs, setIo_banks, and_self]

theorem extest_live {s : State} (h : tapLive s = true) :
    extest s = takePins .extest (setIo { (capturePins s).io with tap := .extest } (capturePins s)) := if_pos h

theorem extest_keeps {s : State} (h : tapLive s = true) :
    (extest s).io.tap = .extest ∧ (extest s).io.taken = some .extest ∧ (extest s).io.boundary = s.io.boundary ∧
      (extest s).banks = s.banks ∧ (extest s).regs = s.regs := by
  obtain ⟨-, hboundary, hregs, hbanks⟩ := capturePins_keeps s
  rw [extest_live h]
  generalize capturePins s = t at hboundary hregs hbanks ⊢
  exact ⟨rfl, rfl, hboundary, hbanks, hregs⟩

theorem samplePreload_live {s : State} (h : tapLive s = true) (l : List Bool) :
    samplePreload l s = setIo { (capturePins s).io with tap := .sample, boundary := padBoundary l } (capturePins s) :=
  if_pos h

theorem samplePreload_keeps {s : State} (h : tapLive s = true) (l : List Bool) :
    (samplePreload l s).io.tap = .sample ∧ (samplePreload l s).io.taken = s.io.taken ∧
      (samplePreload l s).io.boundary = padBoundary l ∧ (samplePreload l s).regs = s.regs := by
  obtain ⟨htaken, -, hregs, -⟩ := capturePins_keeps s
  rw [samplePreload_live h, setIo_io, setIo_regs]
  generalize capturePins s = t at htaken hregs ⊢
  generalize padBoundary l = bits
  exact ⟨rfl, htaken, rfl, hregs⟩

theorem testLogicReset_live {s : State} (h : tapLive s = true) :
    testLogicReset s = setIo { (selectIdcode s).io with taken := none } (selectIdcode s) := if_pos h

/-! ## The statement -/

/-- Settles O60: the buffer takes the words of a write one by one (`qspiPut_foldl`); each TAP instruction is its equation
on the TAP's own part of the state. -/
theorem qspiPortAndTapAnswer : Obligations.QspiPortAndTapAnswer := by
  unfold Obligations.QspiPortAndTapAnswer
  intro s
  refine ⟨fun hon => ⟨fun a ws hroom => ?_, fun a w hfull => ?_, fun a hempty hread hwait _ ha hbit => ?_, ?_⟩,
    fun a ha => ?_, fun hoff a ws => ?_, fun hm => ?_⟩
  · refine ⟨_, congrArg Host.Outcome.next
      ((qspiWrite_on hon a ws).trans (qspiPut_foldl (by simpa using hroom))), ?_, rfl, rfl, rfl⟩
    rw [List.mapIdx_eq_zipIdx_map]
    rfl
  · exact ⟨_, congrArg Host.Outcome.next (qspiWrite_full hon hfull a w), rfl, rfl⟩
  · exact congrArg Host.Outcome.next (qspiRead_register hon hempty hread hwait ha hbit)
  · exact ⟨_, congrArg Host.Outcome.next (if_neg (by simp [hon])), rfl, rfl, rfl⟩
  · exact congrArg Host.Outcome.next (qspiReadTimeout_of_wait ha)
  · exact congrArg Host.Outcome.next (if_pos (by simp [hoff]))
  · have hlive : tapLive s = true := by simpa [tapLive] using hm
    refine ⟨⟨_, congrArg Host.Outcome.next (if_pos hlive), rfl, rfl, rfl⟩,
      ⟨extest s, rfl, extest_keeps hlive⟩,
      fun l => ⟨samplePreload l s, rfl, samplePreload_keeps hlive l⟩,
      ⟨_, congrArg Host.Outcome.next (if_pos hlive), rfl, rfl, rfl⟩,
      ⟨_, congrArg Host.Outcome.next (if_pos hlive), rfl, rfl, rfl⟩,
      fun ir hir => ⟨_, congrArg Host.Outcome.next (if_pos (by simp [hlive, hir])), rfl, rfl, rfl, rfl⟩,
      ⟨_, congrArg Host.Outcome.next (testLogicReset_live hlive), rfl, rfl, rfl, rfl⟩⟩

end Sys2Proof.Machine
